-- ==== Sys2Proof/Word.lean ====
section
/-!
DEFINITION. The word types of the model (R6, R7): bytes, 32-bit lanes and 64-bit register words, and the places of
register fields.
-/

namespace Sys2Proof

/-- A byte of a memory. -/
abbrev Byte := BitVec 8

/-- A 32-bit value: a lane, a tally counter, a token. -/
abbrev W32 := BitVec 32

/-- A 64-bit register or descriptor word. -/
abbrev W64 := BitVec 64

/-- A register field: the register's offset in its window, and the field's bits [hi:lo] (R6). -/
structure Fld where
  off : Nat
  hi : Nat
  lo : Nat
  deriving DecidableEq, Repr

/-- A row of a register table: `count` registers from offset `base` at steps of `stride`, and a 64-bit mask or value. -/
structure RegRow where
  base : Nat
  stride : Nat
  count : Nat
  val : Nat
  deriving DecidableEq, Repr

end Sys2Proof
end

