-- ==== Sys2Proof/Syntax.lean ====
section
/-!
DEFINITION. The commands of the block: one constructor of `Instr` for each row of the table of operations and events,
and the operand types that carry what reaches the module from outside (a host's record, a link block, an image).
-/

namespace Sys2Proof

/-- A PCIe function (R417): the physical function of a port, or virtual function `n` (1 to 16) of a port. -/
inductive Func where
  | pf (port : Nat)
  | vf (port n : Nat)
  deriving DecidableEq, Repr

/-- Who writes a register (R9, R68, R420). -/
inductive Agent where
  | host (f : Func)
  | warden
  | lodge (k : Nat)
  deriving DecidableEq, Repr

/-- What the protection of a memory found in a read (R185, R198, R274, R377). `addr` is the word of a scratchpad (64 × line + word) or of a Terrace
(64 × beat + word), or the window unit of an Orangery read. A corrected word has its single-bit error at bit `bit` of its codeword; `words` of them
were corrected. `parity` says of a Terrace beat: 0 a double-bit error, 1 that and a row-parity mismatch in the word's group, 2 the mismatch alone. -/
inductive Check where
  | clean
  | corrected (addr words bit : Nat)
  | uncorrectable (addr parity : Nat)
  deriving DecidableEq, Repr, Inhabited

/-- One 64-byte flit of a link block with its tag (R226). -/
structure Flit where
  vc : Nat
  first : Bool
  last : Bool
  cls : Nat
  body : List W64
  deriving DecidableEq, Repr

/-- A link block (R226); an empty position is `none`. -/
structure Block where
  flits : List (Option Flit)
  seq : W32
  ack : Nat
  nak : Bool
  credits : Nat
  creditCls : Nat
  deriving DecidableEq, Repr

/-- One entry of a CHANNELS section (R311). -/
structure ChanEntry where
  kind : Nat
  sMod : Nat
  sTile : Nat
  sChan : Nat
  rMod : Nat
  rTile : Nat
  rChan : Nat
  base : Nat
  slots : Nat
  sched : Bool
  port : Nat
  ctr : Option Nat
  deriving DecidableEq, Repr

/-- The contents of a section of a Krexel image (R311); per-tile sections name their logical row and column, a barrier symbol its scope (true for
machine) and its participants as machine index and logical tile. `bad` stands for contents that no type of R311 has. -/
inductive Section where
  | tileData (i j line : Nat) (bytes : List Byte)
  | fcInitial (i j pair : Nat) (bytes : List Byte)
  | tileConfig (i j : Nat) (regs : List (Nat × W64)) (startEven startOdd handlers : Nat)
  | channels (es : List ChanEntry)
  | lodge (cluster : Nat) (prog data : List Byte)
  | counters (es : List (Nat × Nat × Nat))
  | reloc (rs : List (W64 × W64))
  | barriers (es : List (Bool × List (Nat × Nat)))
  | bad (type : Nat)
  deriving DecidableEq, Repr

/-- What the image says of its deployment beyond the header (R283, R291, R294): the places that requests take. `drafts` names the draft module that
serves each decode slot, `poolModules` the modules over which the deployment's Icehouse pool is spread (R278). The spec names these facts and gives
them no layout (log entry 20). -/
structure Deploy where
  modules : List Nat
  decodeSlots : Nat
  sampling : List Nat
  drafts : List Nat
  poolModules : List Nat
  perFrame : Option Nat
  results : List (Nat × Nat × Nat × Nat)
  deriving DecidableEq, Repr

/-- A Krexel image (R309): header words Y0 to Y7, the directory's words S0 and S1 in order, and the section that each entry names. -/
structure Image where
  header : List W64
  dir : List (W64 × W64)
  sections : List Section
  deploy : Deploy
  deriving DecidableEq, Repr

/-- What a Warden message that opens a Bandstand slot carries (R283, R294). -/
structure SlotOpen where
  slot : Nat
  draft : Bool
  pv : Nat
  tag : Nat
  resI : Nat
  resJ : Nat
  resCtr : Nat
  resRec : Nat
  vocab : Nat
  words : List W64
  seeds : List Nat
  deriving DecidableEq, Repr

/-- The tokens and flags of one step, as the sampling module reports them (R303). -/
structure Emission where
  pv : Nat
  tag : Nat
  step : Nat
  accepted : Nat
  tokens : List Nat
  stopped : Bool
  maxReached : Bool
  emptyRow : Bool
  fin : Bool
  deriving DecidableEq, Repr

/-- A decision of the lead of an Icehouse pool (R278). -/
inductive IhDecision where
  | insert (slot group : Nat) (digest : List Byte) (parent : Option Nat) (owner : Nat)
  | evict (slot : Nat)
  | validate (slot : Nat)
  deriving DecidableEq, Repr

/-- A request whose prefix the lead of a pool looks up (R278): what the front module tells of it, and where its table goes. -/
structure Ask where
  pv : Nat
  tag : Nat
  tenant : Nat
  group : Option Nat
  prompt : List Nat
  front : Nat
  decode : Nat
  tslot : Nat
  dslot : Option Nat
  deriving DecidableEq, Repr

/-- What a module of a pool is told of a looked-up request, to write its block table (R281): its place, its slots, its group's salt entry, and the
slots of the matched and of the new blocks. -/
structure TableMsg where
  decode : Nat
  tslot : Nat
  dslot : Option Nat
  salt : Nat
  matched : List Nat
  reserved : List Nat
  deriving DecidableEq, Repr

/-- Warden messages from other modules (R278, R279, R281, R283, R303, R306, R346). -/
inductive WMsg where
  | lookup (a : Ask)
  | matched (pv tag blocks : Nat)
  | table (pv : Nat) (t : TableMsg)
  | unpin (pv tag : Nat) (aborted : Bool)
  | openSlot (o : SlotOpen)
  | closeSlot (slot : Nat)
  | emission (e : Emission)
  | decision (pv : Nat) (frame : Nat) (d : IhDecision)
  | committed (pv slot module : Nat)
  | stopFrame (pv : Nat) (frame : Nat)
  deriving DecidableEq, Repr

/-- The kinds of DMA that R424 lists. -/
inductive DmaKind where
  | shard (pv entry : Nat)
  | firmware
  | krexel (f : Func)
  | plan (f : Func)
  | request (pv : Nat)
  | completion (pv : Nat)
  | dump (f : Func)
  deriving DecidableEq, Repr

/-- A sensor of R444: region, stack or power stage. -/
inductive Sensor where
  | region (g : Nat)
  | stack (n : Nat)
  | stage
  deriving DecidableEq, Repr

/-- The commands: the rows of the table. Tiles `t` are logical (16 i + j, R14), tiles `p` are physical (17 r + c, R68). An operand `wait` or `room` has the
one value of its type and carries nothing: what an access waits for follows from the state (R181). -/
inductive Instr where
  -- frames, holds and clocks
  | frameTick
  | frequencyStopEnd
  | holdRequest (kind source : Nat)
  | freezePointReached (region : Option Nat)
  | holdRelease (seq : Nat)
  | holdResume
  | remoteHoldMessage (port origin seq kind source : Nat)
  | remoteReleaseMessage (port origin seq stamp : Nat)
  | droopStretch (g : Nat)
  | syncInPulse
  | timeMessage (port origin sample : Nat)
  | frameZeroStart
  -- the sequencer
  | descriptorIssue (t : Nat) (chk : Check)
  | descriptorRetire (t i : Nat)
  | handlerListStart (t : Nat) (chk : Check)
  | contextStart (p start handlers : Nat)
  | tileStop (p : Nat)
  | tcAdd (a : Agent) (p ctr inc : Nat)
  -- matrix and vector engines
  | mxLoad (t : Nat) (chk : Check)
  | mxPass (t : Nat) (chk : Check) (wait : Unit := ())
  | mxZero (t : Nat)
  | mxStore (t : Nat) (wait room : Unit := ())
  | vxFp (t : Nat) (chk : Check) (wait : Unit := ())
  | vxInt (t : Nat) (chk : Check) (wait : Unit := ())
  | vxCvt (t : Nat) (chk : Check) (wait : Unit := ())
  | vxFn (t : Nat) (chk : Check) (wait : Unit := ())
  | vxRed (t : Nat) (chk : Check) (wait : Unit := ())
  | vxCmp (t : Nat) (chk : Check) (wait : Unit := ())
  | vxMask (t : Nat)
  -- links, scratchpad, network, Orangery and control units
  | linkOrdinary (t : Nat) (handler : Bool)
  | linkFrameEnd (t : Nat)
  | linkHandlerReturn (t : Nat)
  | spFill (t : Nat) (wait : Unit := ())
  | spCopy (t : Nat) (chk : Check) (wait : Unit := ())
  | spColgather (t : Nat) (chk : Check) (wait : Unit := ())
  | spColscatter (t : Nat) (chk : Check) (wait : Unit := ())
  | netPut (t : Nat) (chk : Check) (wait : Unit := ())
  | netPutMsg (t : Nat) (chk : Check) (wait : Unit := ())
  | netGet (t : Nat)
  | oyRead (t : Nat) (chk : Check)
  | oyWrite (t : Nat) (chk : Check)
  | oyTerrace (t : Nat) (chk : Check)
  | ctBarrierWait (t : Nat)
  | ctBarrierArriveOnly (t : Nat)
  | ctSignalJoin (t : Nat)
  | ctSignalRemoteAdd (t : Nat)
  | ctSignalCreditReturn (t : Nat)
  | ctHash (t : Nat) (chk : Check)
  | ctSampleTarget (t : Nat) (chk : Check)
  | ctSampleDraft (t : Nat) (chk : Check)
  | ctSampleCommit (t : Nat)
  -- landings and arrivals on the Trellis
  | transferLanding (i : Nat) (wait : Unit := ())
  | messageLanding (i : Nat) (wait : Unit := ())
  | getRequestArrival (i : Nat)
  | getWindowReply (i : Nat) (chk : Check)
  | creditArrival (i : Nat)
  | revocationArrival (i : Nat)
  | barrierRootArrival (i : Nat)
  | barrierReleaseArrival (i : Nat)
  | scratchpadClear (p : Nat)
  | terraceClear (p : Nat)
  | scratchpadScrub (p : Nat) (chk : Check)
  | terraceScrub (p : Nat) (chk : Check × Check)
  -- the Footbridge
  | linkBlockReceive (port : Nat) (sent raw : List Byte)
  | scheduledFlitAtPort (i : Nat)
  | scheduledSlotTransmit (port slot : Nat)
  | lateFlitCheck (port : Nat)
  | scheduledFlitPresent (port : Nat)
  | bulkTransferRoute (port i : Nat)
  | portRetrain (port : Nat) (full : Bool)
  | trainingComplete (port : Nat) (ok : Bool) (peerSerial : W64) (peerPort peerModule : Nat) (lanes : W32)
  | lossOfSignal (port : Nat)
  | signalReturn (port : Nat)
  -- Lodge cores
  | lodgeRun (k : Nat) (run : Bool)
  | lodgeInstruction (k : Nat) (chk : Check)
  | bsmaskDone (a : Agent) (k slot positions : Nat)
  | watchArm (a : Agent) (k n : Nat) (v : W64)
  | watchFire (k n : Nat)
  | bseventRead (k : Nat)
  -- Orangery, Icehouse, loading
  | stackHot (stack temp : Nat)
  | icehouseLookup (pv tag : Nat)
  | shiftInComplete (pv : Nat) (chk : Check)
  -- serving
  | submitRecord (pv : Nat) (rec : List W64) (prompt : List Nat)
  | cancelRecord (pv : Nat) (rec : List W64)
  | mbReqDb (f : Func) (pv : Nat) (v : W64)
  | mbCplDb (f : Func) (pv : Nat) (v : W64)
  | completionFlush (pv : Nat)
  | bandstandScan
  | draftDerivation (slot : Nat)
  | targetCommit (slot : Nat)
  | draftSlotCommit (slot : Nat)
  | tokenRecordLanding (i : Nat)
  | draftRecordLanding (i : Nat)
  | wardenMessage (m : WMsg)
  -- the mailbox
  | mbUndefinedOpcode (f : Func)
  | mbDoorbellIgnored (f : Func)
  | mbAsyncRead (f : Func)
  | asyncCommandTimeout (f : Func) (ticket : Nat)
  | getInfo (f : Func)
  | fwLoad (f : Func)
  | fwLoadVerify (image : List Byte)
  | firmwareRunning (bad : List Nat)
  | machineConfig (f : Func) (plan : List W64)
  | align (f : Func)
  | freqBin (f : Func)
  | ageing (f : Func)
  | readDumpCrash (f : Func)
  | readDumpSummary (f : Func)
  | shedRead (f : Func) (ue : Bool)
  | shedWrite (f : Func)
  | shedWriteComplete
  | wvPlan (f : Func)
  | planDue
  | railStep
  | lifetimeCounterWrite (c : Nat)
  | chipReset (f : Func)
  | pvCreate (f : Func)
  | pvDestroy (f : Func)
  | pvResetAbort (f : Func)
  | pvResetCluster (f : Func)
  | pvResetPavilion (f : Func)
  | pvStatus (f : Func)
  | ringSetup (f : Func)
  | hamperStage (f : Func) (manifest : List Byte)
  | shardTablePoll (pv : Nat) (table : List (W64 × W64))
  | shardVerify (pv entry : Nat) (cipher : Option (List Byte))
  | stagingTimeout (pv : Nat)
  | sliceDrop (f : Func)
  | loadModel (f : Func) (image : Image)
  | run (f : Func)
  | pause (f : Func)
  | resume (f : Func)
  | drain (f : Func)
  | tenantSet (f : Func)
  | tenantBudgetSet (f : Func)
  | tenantBudgetAdd (f : Func)
  | groupSet (f : Func)
  | groupRemove (f : Func)
  | poolCreate (f : Func)
  | poolDestroy (f : Func)
  | balanceOn (f : Func)
  | balanceOff (f : Func)
  -- the Gatehouse's own interfaces
  | fleetKeyInstall (port : Nat) (body : List Byte)
  | fleetKeyRemove (port : Nat) (body : List Byte)
  | doeDiscovery (port index : Nat)
  | spdmGetCertificate (port slot offset len : Nat)
  | spdmChallenge (port slot : Nat) (nonce : List Byte)
  | spdmGetMeasurements (port op : Nat) (nonce : List Byte)
  -- faults, replay and recovery
  | replayQuiet
  | moveEast (p : Nat)
  | replayTick
  | rangerFire
  | tileFaultReport (p : Nat)
  | orphanNotice (module pv : Nat)
  | abortEscalation (pv : Nat) (p : Nat × Check)
  | pavilionResetTimeout (pv : Nat)
  | firmwareInternalError
  -- the host interface
  | functionLevelReset (f : Func)
  | pcieHotReset (port : Nat)
  | pcieLinkLoss (port : Nat)
  | d3hotToD0 (f : Func)
  | dmaFailure (k : DmaKind)
  | dmaTimeout (k : DmaKind)
  | registerWrite (a : Agent) (off : Nat) (v : W64)
  -- module hardware
  | powerInputApplied
  | trayResetDeassert (split : Bool) (addr : Nat)
  | trayResetAssert (ns : Nat)
  | hbmInitComplete (stack : Nat)
  | thermalTrip (z : Sensor) (temp : Nat)
  | underVoltageShutdown
  | shutdownLatchRelease
  | mctpSetEndpointId (eid : Nat)
  | getIdentity
  | getStatus
  | getTemps
  | getAlert
  | getSummary (index : Nat)
  | mctpUndefinedCommand (cmd : Nat)
  | jtagBypass
  | jtagSamplePreload (data : Nat)
  | jtagExtest
  | jtagIdcode
  | jtagTestLogicReset
  | linkBlockTransmit (port : Nat)
  | stackCooled (stack temp : Nat)
  | thermWarn (g temp : Nat)
  | resetUnitEnd (pv : Nat) (ok : Bool × Check)
  | channelClose (p n : Nat)
  | pcieLinkUp (port : Nat)
  | spdmGetCapabilities (port : Nat)
  | spdmNegotiateAlgorithms (port : Nat)
  deriving DecidableEq, Repr

end Sys2Proof
end

