-- ==== Sys2Proof/WellFormed.lean ====
section
/-!
DEFINITION. Well-formed commands: every number that a command carries names something that the module has (R3, R13, R17, R224, R243, R417).
-/

namespace Sys2Proof

/-- A function that the module presents (R417): port 0 or 1, and virtual functions 1 to 16. -/
def Func.wf : Func → Bool
  | .pf port => decide (port < 2)
  | .vf port n => decide (port < 2) && decide (0 < n) && decide (n < 17)

/-- An agent that exists: a function, the Warden, one of sixteen Lodge cores (R243). -/
def Agent.wf : Agent → Bool
  | .host f => f.wf
  | .warden => true
  | .lodge k => decide (k < 16)

/-- A sensor of R444. -/
def Sensor.wf : Sensor → Bool
  | .region g => decide (g < 8)
  | .stack n => decide (n < 2)
  | .stage => true

/-- A DMA of R424 that names a function, a pavilion or a shard. -/
def DmaKind.wf : DmaKind → Bool
  | .shard q i => decide (q < 4) && decide (i < 8192)
  | .firmware => true
  | .krexel f => f.wf
  | .plan f => f.wf
  | .request q => decide (q < 4)
  | .completion q => decide (q < 4)
  | .dump f => f.wf

/-- A Warden message whose slot, pavilion and result tile exist. -/
def WMsg.wf : WMsg → Bool
  | .openSlot o => decide (o.slot < 1024) && decide (o.pv < 4) && decide (o.resI < 16) && decide (o.resJ < 16)
  | .closeSlot n => decide (n < 1024)
  | .emission e => decide (e.pv < 4)
  | .lookup a => decide (a.pv < 4)
  | .matched q _ _ => decide (q < 4)
  | .table q _ => decide (q < 4)
  | .unpin q _ _ => decide (q < 4)
  | .decision q _ _ => decide (q < 4)
  | .committed q _ _ => decide (q < 4)
  | .stopFrame q _ => decide (q < 4)

/-- The sources that may request a hold of a kind (R43): a tile, a port, the skew of a region, the replay logic; a tick hold is requested by
nobody (R34). -/
def holdSourceWf (kind source : Nat) : Bool :=
  match kind with
  | 0 => decide (source < 256)
  | 1 => decide (source < 16)
  | 2 => (List.range 8).any (fun g => 256 * (8 + g) + 255 == source)
  | 4 => source == 0
  | 5 => source == 0
  | _ => false

/-- Every number of the command lies in its range. -/
def Instr.wf : Instr → Bool
  | .frameTick => true
  | .frequencyStopEnd => true
  | .holdRequest kind source => holdSourceWf kind source
  | .freezePointReached none => true
  | .freezePointReached (some g) => decide (g < 8)
  | .holdRelease seq => decide (seq < 65536)
  | .holdResume => true
  | .remoteHoldMessage port origin seq kind source => decide (port < 16) && decide (origin < 4096) && decide (seq < 65536) && decide (kind < 6) && decide (source < 4096)
  | .remoteReleaseMessage port origin seq stamp => decide (port < 16) && decide (origin < 4096) && decide (seq < 65536) && decide (stamp < 268435456)
  | .droopStretch g => decide (g < 8)
  | .syncInPulse => true
  | .timeMessage port origin sample => decide (port < 16) && decide (origin < 4096) && decide (sample < 2 ^ 64)
  | .frameZeroStart => true
  | .descriptorIssue t _ => decide (t < 256)
  | .descriptorRetire t _ => decide (t < 256)
  | .handlerListStart t _ => decide (t < 256)
  | .contextStart p _ _ => decide (p < 272)
  | .tileStop p => decide (p < 272)
  | .tcAdd a p ctr inc => decide (p < 272) && decide (ctr < 64) && decide (inc < 65536) && a.wf
  | .mxLoad t _ => decide (t < 256)
  | .mxPass t _ _ => decide (t < 256)
  | .mxZero t => decide (t < 256)
  | .mxStore t _ _ => decide (t < 256)
  | .vxFp t _ _ => decide (t < 256)
  | .vxInt t _ _ => decide (t < 256)
  | .vxCvt t _ _ => decide (t < 256)
  | .vxFn t _ _ => decide (t < 256)
  | .vxRed t _ _ => decide (t < 256)
  | .vxCmp t _ _ => decide (t < 256)
  | .vxMask t => decide (t < 256)
  | .linkOrdinary t _ => decide (t < 256)
  | .linkFrameEnd t => decide (t < 256)
  | .linkHandlerReturn t => decide (t < 256)
  | .spFill t _ => decide (t < 256)
  | .spCopy t _ _ => decide (t < 256)
  | .spColgather t _ _ => decide (t < 256)
  | .spColscatter t _ _ => decide (t < 256)
  | .netPut t _ _ => decide (t < 256)
  | .netPutMsg t _ _ => decide (t < 256)
  | .netGet t => decide (t < 256)
  | .oyRead t _ => decide (t < 256)
  | .oyWrite t _ => decide (t < 256)
  | .oyTerrace t _ => decide (t < 256)
  | .ctBarrierWait t => decide (t < 256)
  | .ctBarrierArriveOnly t => decide (t < 256)
  | .ctSignalJoin t => decide (t < 256)
  | .ctSignalRemoteAdd t => decide (t < 256)
  | .ctSignalCreditReturn t => decide (t < 256)
  | .ctHash t _ => decide (t < 256)
  | .ctSampleTarget t _ => decide (t < 256)
  | .ctSampleDraft t _ => decide (t < 256)
  | .ctSampleCommit t => decide (t < 256)
  | .transferLanding _ _ => true
  | .messageLanding _ _ => true
  | .getRequestArrival _ => true
  | .getWindowReply _ _ => true
  | .creditArrival _ => true
  | .revocationArrival _ => true
  | .barrierRootArrival _ => true
  | .barrierReleaseArrival _ => true
  | .scratchpadClear p => decide (p < 272)
  | .terraceClear p => decide (p < 272)
  | .scratchpadScrub p _ => decide (p < 272)
  | .terraceScrub p _ => decide (p < 272)
  | .linkBlockReceive p sent raw => decide (p < 16) && sent.length == 2176 && raw.length == 2176
  | .scheduledFlitAtPort _ => true
  | .scheduledSlotTransmit p k => decide (p < 16) && decide (k < 1024)
  | .lateFlitCheck p => decide (p < 16)
  | .scheduledFlitPresent p => decide (p < 16)
  | .bulkTransferRoute p _ => decide (p < 16)
  | .portRetrain p _ => decide (p < 16)
  | .trainingComplete p _ _ _ _ _ => decide (p < 16)
  | .lossOfSignal p => decide (p < 16)
  | .signalReturn p => decide (p < 16)
  | .lodgeRun k _ => decide (k < 16)
  | .lodgeInstruction k _ => decide (k < 16)
  | .bsmaskDone a k slot positions => decide (k < 16) && decide (slot < 1024) && decide (positions < 512) && a.wf
  | .watchArm a k n _ => decide (k < 16) && decide (n < 8) && a.wf
  | .watchFire k n => decide (k < 16) && decide (n < 8)
  | .bseventRead k => decide (k < 16)
  | .stackHot stack _ => decide (stack < 2)
  | .icehouseLookup q _ => decide (q < 4)
  | .shiftInComplete q _ => decide (q < 4)
  | .submitRecord q _ _ => decide (q < 4)
  | .cancelRecord q _ => decide (q < 4)
  | .mbReqDb f q _ => f.wf && decide (q < 4)
  | .mbCplDb f q _ => f.wf && decide (q < 4)
  | .completionFlush q => decide (q < 4)
  | .bandstandScan => true
  | .draftDerivation slot => decide (slot < 1024)
  | .targetCommit slot => decide (slot < 1024)
  | .draftSlotCommit slot => decide (slot < 1024)
  | .tokenRecordLanding _ => true
  | .draftRecordLanding _ => true
  | .wardenMessage m => m.wf
  | .mbUndefinedOpcode f => f.wf
  | .mbDoorbellIgnored f => f.wf
  | .mbAsyncRead f => f.wf
  | .asyncCommandTimeout f ticket => f.wf && decide (ticket < 256)
  | .getInfo f => f.wf
  | .fwLoad f => f.wf
  | .fwLoadVerify _ => true
  | .firmwareRunning bad => bad.all (fun w => decide (w < 8192))
  | .machineConfig f _ => f.wf
  | .align f => f.wf
  | .freqBin f => f.wf
  | .ageing f => f.wf
  | .readDumpCrash f => f.wf
  | .readDumpSummary f => f.wf
  | .shedRead f _ => f.wf
  | .shedWrite f => f.wf
  | .shedWriteComplete => true
  | .wvPlan f => f.wf
  | .planDue => true
  | .railStep => true
  | .lifetimeCounterWrite c => decide (c < 8)
  | .chipReset f => f.wf
  | .pvCreate f => f.wf
  | .pvDestroy f => f.wf
  | .pvResetAbort f => f.wf
  | .pvResetCluster f => f.wf
  | .pvResetPavilion f => f.wf
  | .pvStatus f => f.wf
  | .ringSetup f => f.wf
  | .hamperStage f _ => f.wf
  | .shardTablePoll q _ => decide (q < 4)
  | .shardVerify q i _ => decide (q < 4) && decide (i < 8192)
  | .stagingTimeout q => decide (q < 4)
  | .sliceDrop f => f.wf
  | .loadModel f _ => f.wf
  | .run f => f.wf
  | .pause f => f.wf
  | .resume f => f.wf
  | .drain f => f.wf
  | .tenantSet f => f.wf
  | .tenantBudgetSet f => f.wf
  | .tenantBudgetAdd f => f.wf
  | .groupSet f => f.wf
  | .groupRemove f => f.wf
  | .poolCreate f => f.wf
  | .poolDestroy f => f.wf
  | .balanceOn f => f.wf
  | .balanceOff f => f.wf
  | .fleetKeyInstall port _ => decide (port < 2)
  | .fleetKeyRemove port _ => decide (port < 2)
  | .doeDiscovery port _ => decide (port < 2)
  | .spdmGetCertificate port _ _ _ => decide (port < 2)
  | .spdmChallenge port _ _ => decide (port < 2)
  | .spdmGetMeasurements port _ _ => decide (port < 2)
  | .replayQuiet => true
  | .moveEast p => decide (p < 272)
  | .replayTick => true
  | .rangerFire => true
  | .tileFaultReport p => decide (p < 272)
  | .orphanNotice module q => decide (module < 4096) && decide (q < 4)
  | .abortEscalation q p => decide (q < 4) && decide (p.1 < 272)
  | .pavilionResetTimeout q => decide (q < 4)
  | .firmwareInternalError => true
  | .functionLevelReset f => f.wf
  | .pcieHotReset port => decide (port < 2)
  | .pcieLinkLoss port => decide (port < 2)
  | .d3hotToD0 f => f.wf
  | .dmaFailure k => k.wf
  | .dmaTimeout k => k.wf
  | .registerWrite a off _ => a.wf && decide (off % 8 = 0) && decide (off < 0x4010000)
  | .powerInputApplied => true
  | .trayResetDeassert _ addr => decide (addr < 8)
  | .trayResetAssert _ => true
  | .hbmInitComplete stack => decide (stack < 2)
  | .thermalTrip z _ => z.wf
  | .underVoltageShutdown => true
  | .shutdownLatchRelease => true
  | .mctpSetEndpointId eid => decide (eid < 256)
  | .getIdentity => true
  | .getStatus => true
  | .getTemps => true
  | .getAlert => true
  | .getSummary index => decide (index < 256)
  | .mctpUndefinedCommand cmd => decide (cmd < 256)
  | .jtagBypass => true
  | .jtagSamplePreload _ => true
  | .jtagExtest => true
  | .jtagIdcode => true
  | .jtagTestLogicReset => true
  | .linkBlockTransmit p => decide (p < 16)
  | .stackCooled stack _ => decide (stack < 2)
  | .thermWarn g _ => decide (g < 8)
  | .resetUnitEnd q _ => decide (q < 4)
  | .channelClose p n => decide (p < 272) && decide (n < 32)
  | .pcieLinkUp port => decide (port < 2)
  | .spdmGetCapabilities port => decide (port < 2)
  | .spdmNegotiateAlgorithms port => decide (port < 2)

end Sys2Proof
end

