-- ==== Sys2Proof/Machine/State.lean ====
section
/-!
DEFINITION. The state of the block: every register, memory, queue, counter, mode and pin that the spec gives the module, as plain
data, the queue of waiting commands, the ways a step can stop, and the state right after reset.

Registers that the spec numbers are kept as 64-bit words under their offset (`State.reg` by BAR0 offset, `Tile.reg` by tile-window
offset, `Lodge.reg` by Lodge offset, `Fn.reg` by mailbox offset); an offset that is not listed holds its Reset value, which
`Machine/Regs.lean` gives. Registers that only show other state (TL_SEQ_STATUS, SD_LAG, TL_TCn and so on) are computed there.
-/

namespace Sys2Proof.Machine
open Sys2Proof

/-- A table by number, keys strictly rising. -/
abbrev SMap (α : Type) := List (Nat × α)

/-- A memory: the bytes that differ from zero, addresses strictly rising (R193, R254, log entry 6). -/
abbrev Mem := List Host.Cell

/-- A descriptor of 64 bytes, words W0 to W7 (R45, R49). -/
structure Desc where
  w0 : W64
  w1 : W64
  w2 : W64
  w3 : W64
  w4 : W64
  w5 : W64
  w6 : W64
  w7 : W64
  deriving DecidableEq, Repr, Inhabited

/-- A fetched line of descriptors (R47): its line, its eight descriptors, whether it was fetched as a link's target, and whether
the fetch lay outside the lines that R192 allows. -/
structure FetchLine where
  line : Nat
  descs : List Desc
  forLink : Bool
  outside : Bool
  deriving DecidableEq, Repr

/-- An entry of the handler queue (R216). -/
structure HqEntry where
  rchan : Nat
  pos : Nat
  n : Nat
  pad : Nat
  handler : Nat
  deriving DecidableEq, Repr

/-- The handler list that runs (R64): its entry, the address of its head, the cycle from which the head may issue. -/
structure HandlerRun where
  entry : HqEntry
  head : Nat
  ready : Nat
  deriving DecidableEq, Repr

/-- Where a descriptor of the window stands: issued to its unit, started, or started and waiting for what retires it (a GET reply, a barrier
release) or, for an OY_WRITE, for room in the commit buffer. -/
inductive Phase where
  | issued
  | running
  | waiting
  deriving DecidableEq, Repr

/-- Where a lane's result goes: register and lane, accumulator row and lane, or scratchpad address. -/
inductive VLoc where
  | reg (v lane : Nat)
  | acc (row lane : Nat)
  | sp (addr fmt : Nat)
  deriving DecidableEq, Repr

/-- One lane's write: a value, or a value combined with the old one (R141), or zero; `fp` marks results whose write sets flags (R98). `mask` writes
the bits `en` of a mask register (R100). -/
inductive VWrite where
  | set (loc : VLoc) (x : Nat) (fp : Bool)
  | comb (loc : VLoc) (op x : Nat)
  | zero (loc : VLoc)
  | mask (m : Nat) (en val : W64)
  deriving DecidableEq, Repr

/-- A weight stage (R69): the format code of the block last loaded into it and the block's bytes. -/
structure Stage where
  fmt : Nat
  blk : Mem
  deriving DecidableEq, Repr

/-- An issued, unretired descriptor (R54, R400). `unit` is 0 matrix, 1 vector, 2 scratchpad, 3 network, 4 Orangery, 5 control. `issuedAt` orders
issues: frame number times 2^24 plus frame cycle. A started descriptor keeps in `pos` how many tc of its work are done, in `part` which accesses
of the next one have been granted already (R182), in `rows` and `lanes` what its pipeline holds between a read and the write that it leads to, in
`chk` what the protection finds in its reads, in `stage` the weights of a pass, and in `xfer` the transfer that it injects. -/
structure WinEntry where
  handler : Bool
  addr : Nat
  unit : Nat
  desc : Desc
  issuedAt : Nat
  phase : Phase
  pos : Nat
  part : Nat
  rows : List (List Byte)
  lanes : List (List VWrite)
  chk : Check
  stage : Stage
  xfer : Nat
  roomWaited : Bool
  deriving DecidableEq, Repr

/-- TL_SEQ_STATUS.STATE (R68). -/
inductive RunState where
  | idle
  | running
  | waitTick
  | frozen
  deriving DecidableEq, Repr

/-- The tile sequencer (R45 to R67). `ready` is the frame cycle from which the main head may issue, `atEnd` says that the main
stream stands at a frame-end link's target, `holdSeq` names the tile's may-wait hold, `issuedAt` the frame cycle of the latest issue. -/
structure Seq where
  run : RunState
  head : Nat
  ready : Nat
  atEnd : Bool
  mainBuf : List FetchLine
  hBuf : List FetchLine
  handler : Option HandlerRun
  hq : List HqEntry
  window : List WinEntry
  holdSeq : Option Nat
  holdReleased : Bool
  issuedAt : Option Nat
  deriving DecidableEq, Repr

/-- The matrix engine (R69 to R73): stages and accumulator entries (64 × row + lane). -/
structure Mx where
  st0 : Stage
  st1 : Stage
  acc : SMap W32
  deriving DecidableEq, Repr

/-- The vector engine (R93): registers (64 × v + lane) and masks. -/
structure Vx where
  v : SMap W32
  m : SMap W64
  deriving DecidableEq, Repr

/-- A claim on a scratchpad port (R179 to R181): port 0 A, 1 B, 2 W, its priority there, and the banks it needs, each with its line. -/
structure Claim where
  port : Nat
  prio : Nat
  banks : List (Nat × Nat)
  deriving DecidableEq, Repr

/-- What every tile copies at every tick (R381): counters, send-channel and receive-channel STATE words, main-stream head. -/
structure TickCopy where
  tc : SMap W32
  send : SMap W64
  recv : SMap W64
  head : Nat
  deriving DecidableEq, Repr

/-- A physical tile. `just` holds the W1C bits set in the present cycle (R426), here and in the structures below. What changed in the present tc is
kept beside its value before it: `spNew` and `trNew` the bytes of scratchpad and Terrace, the former with the class of the writer (R147, R195),
`tcPrev` the counters (R52), `chPrev` the channel STATE words (R219). `claims` are the claims granted in the tc (R181), `hqNew` the handler-queue entries of the tc (R216), `spClear` and `trClear` are
the next line and beat, plus one, of a zero fill, 0 in the tc that starts it (R193), `spScrubGap` and `trScrubGap` the tc that a scrubber still waits (R188, R200). -/
structure Tile where
  reg : SMap W64
  sp : Mem
  tr : Mem
  tc : SMap W32
  orphaned : W64
  seq : Seq
  mx : Mx
  vx : Vx
  tcPrev : SMap W32
  chPrev : SMap W64
  spNew : SMap (Byte × Nat)
  trNew : Mem
  claims : List Claim
  hqNew : Nat
  tick : TickCopy
  spScrub : Nat
  trScrub : Nat
  spScrubGap : Nat
  trScrubGap : Nat
  spClear : Option Nat
  trClear : Option Nat
  trRewrite : List (Nat × List Byte)
  just : SMap W64
  deriving DecidableEq, Repr

/-- A mesh flit in flight (R204). `car` is the channel that carries it now (R209). On channel 1, `due` is the tc in which it lands, or crosses the
attach link of its egress port. On channel 0, `hop` sites of its route are behind it and `due` is the tick-timer count from which it can take the
next, or land; `came` orders the flits of one input buffer (R207). `pad` marks a pad record (R215). `off` is the offset of its bytes from the first
byte that the transfer writes. -/
structure MeshFlit where
  car : Nat
  due : Nat
  hop : Nat
  came : Nat
  pad : Bool
  off : Nat
  data : List Byte
  deriving DecidableEq, Repr

/-- A transfer on the Trellis or the Footbridge (R150, R204, R228). `op`: 0 PUT, 1 PUT_MSG, 2 GET request, 3 GET reply,
4 REMOTE_ADD. `off` is the byte offset in the receiver's buffer (PUT), the ring position (PUT_MSG) or the byte address of a reply.
`leg`: 0 on its way to a tile, 1 on its way to the egress port `port`; `inPort` is the ingress port by which it came, 16 for none. `left` flits are
still to be injected (2 for a transfer of one flit that is injected in the next tc), `air` are in the mesh, `got` bytes have landed; `data` is what has reached the egress port, or the link's bytes at an ingress
port, and `head` a message's header. `stale` marks work of an abandoned frame (R380). -/
structure Transfer where
  id : Nat
  op : Nat
  vc : Nat
  srcMod : Nat
  srcTile : Nat
  srcChan : Nat
  dstMod : Nat
  dstTile : Nat
  rchan : Nat
  gen : Nat
  fc : Bool
  rctr : Nat
  rinc : Nat
  off : Nat
  pad : Nat
  n : Nat
  handler : Nat
  line : Nat
  lines : Nat
  head : List Byte
  data : List Byte
  left : Nat
  air : List MeshFlit
  got : Nat
  leg : Nat
  port : Nat
  inPort : Nat
  fbSlot : Nat
  cls : Nat
  getAddr : Nat
  getHandler : Bool
  stale : Bool
  deriving DecidableEq, Repr

/-- A pending barrier arrival (R171) at the root: participant tile, its descriptor, MODE and NOTIFY. -/
structure Arrival where
  module : Nat
  tile : Nat
  addr : Nat
  handler : Bool
  mode : Nat
  notify : Nat
  add : Nat
  target : Nat
  deriving DecidableEq, Repr

/-- What a channel-2 control word says (R206, R231). A barrier arrival carries its scope and, where it came from another module, its sequence
number. -/
inductive CtlBody where
  | credit (tile chan count : Nat)
  | revoke (tile chan : Nat)
  | arrive (entry : Nat) (machine : Bool) (seq : Nat) (a : Arrival)
  | release (entry total : Nat)
  | refused (tile : Nat)
  deriving DecidableEq, Repr

/-- A control word in flight to an agent of this module, with the tick-timer count of its arrival. -/
structure Ctl where
  body : CtlBody
  due : Nat
  stale : Bool
  deriving DecidableEq, Repr

/-- A GET window at its owner (R164): `age` tc have passed since it opened. Once the owner reads, `started` is set, `pos` tc of the reading and the
injection are done; `rows` are flits read and not yet injected, `replies` the numbers of the transfers that carry the
reply, `car` its channel. -/
structure GetWindow where
  owner : Nat
  vc : Nat
  line : Nat
  lines : Nat
  age : Nat
  reqs : List Transfer
  started : Bool
  pos : Nat
  car : Nat
  chk : Check
  rows : List (List Byte)
  replies : List Nat
  deriving DecidableEq, Repr

/-- A barrier entry (R170): grant, scope, total, the participants' pending arrivals, the tick copy of the total. -/
structure Barrier where
  pv : Option Nat
  machine : Bool
  total : W32
  pend : List Arrival
  tickTotal : W32
  peers : List Nat
  deriving DecidableEq, Repr

/-- A hold of the present stand (R30, R33). `reqAt` and `relAt` are the tick-timer counts at which the request and the
release reach the root; `recorded` says that SD_LAST_HOLD has been written for it. -/
structure Hold where
  origin : Nat
  seq : Nat
  kind : Nat
  source : Nat
  reqAt : Nat
  relAt : Option Nat
  recorded : Bool
  deriving DecidableEq, Repr

/-- Sundial (R22 to R44): the counts of R26, the stand of R30 (`later` holds the requests that have not reached the root, or reached it after its
broadcast), the frequency change of R39, the alignment of R41 (`epochMark` is a moment of `time` with the root's timer at it). Its
registers SD_* stand in `State.reg`. `time` is real time in units of 1/21,840 ps. -/
structure Sun where
  tick : Nat
  ctr : Nat
  lags : SMap Nat
  gaps : SMap Nat
  holds : List Hold
  freeze : Option Nat
  stopped : Bool
  regionsAt : List Nat
  standAt : Nat
  lastAtF : Nat
  later : List Hold
  seen : List (Nat × Nat × Nat)
  nextSeq : Nat
  newBin : Option (Nat × Nat)
  epochMark : Option (Nat × Nat)
  startAt : Option Nat
  neighbours : SMap Nat
  undo : SMap W64
  time : Nat
  lastRefill : Nat
  deriving DecidableEq, Repr

/-- A transfer at its egress port: a scheduled one in the egress buffer (R233) with the number of its slots, or one of channel 0 (R229), with none.
`have_` holds the mesh flits that have reached the port, by number, `sent` counts the Footbridge flits that have left. -/
structure Egress where
  tr : Transfer
  flits : Nat
  slots : Nat
  started : Bool
  sent : Nat
  have_ : SMap (List Byte)
  deriving DecidableEq, Repr

/-- A transfer that arrives on a port: its route words and bytes, its Footbridge flits and those received, the mesh flits that have entered the
Trellis and the transfer whose flits they are, its hold for a late flit with that flit (R236), and whether the port drops it (R237). -/
structure Ingress where
  tr : Transfer
  flits : Nat
  got : Nat
  shown : Nat
  xfer : Option Nat
  asked : Option (Nat × Nat)
  drop_ : Bool
  deriving DecidableEq, Repr

/-- A Footbridge port (R224 to R241). Its registers FB_* stand in `State.reg`. `resend` keeps the last 16 blocks, `retry` those to be sent
again; `missed` are the numbers of blocks that failed or were discarded and come again, `nak` says that the next block asks for them and `asking`
that they have been asked for, `hpSeen` are the hold, release and time words that an intact block has shown since the last block in order, `heard`
those that wait for the moment at which the module acts on them (R231); `fullAdapt` says how the training under way adapts, and `peer` is the machine
index that it has learnt. `downHold` is the hold that the port never releases, and `cut` says that the link needs a new alignment (R241). -/
structure Port where
  egress : List Egress
  claims : List Nat
  bulk : List Egress
  ctl : List (W64 × W64)
  ctlAgain : List (W64 × W64)
  sched : List Ingress
  inbound : List Ingress
  txSeq : Nat
  resend : List Block
  retry : List Block
  rxSeq : Nat
  nak : Bool
  asking : Bool
  fails : Nat
  missed : List Nat
  hpSeen : List (W64 × W64)
  heard : List (W64 × W64)
  fullAdapt : Bool
  peer : Nat
  downHold : Option Nat
  cut : Bool
  credits : SMap Nat
  giveBack : SMap Nat
  dateline : Bool
  deriving DecidableEq, Repr

/-- An event for a mask core (R253, R257). -/
structure BsEvent where
  kind : Nat
  count : Nat
  slot : Nat
  frame : W32
  deriving DecidableEq, Repr

/-- A Warden message to a Lodge core: GRAMMAR and the slot of a constrained request (R294), or the first frame of a context (R345). -/
inductive LodgeMsg where
  | grammar (grammar slot : Nat)
  | firstFrame (f : Nat)
  deriving DecidableEq, Repr

/-- A store in a Lodge core's store buffer (R244, R248): bytes of a scratchpad, or an add to a counter, of a logical tile. -/
inductive Store where
  | bytes (t addr : Nat) (data : List Byte)
  | add (t ctr inc : Nat)
  deriving DecidableEq, Repr

/-- A Lodge core (R243 to R257): SRAMs, RISC-V registers and CSRs, event queue, the messages of the Warden that wait (LG_IRQ.WARDEN), and the
stores that wait in the store buffer (R244), oldest first. Its registers LG_* stand in `reg`. -/
structure Lodge where
  reg : SMap W64
  isram : Mem
  dsram : Mem
  pc : W64
  x : SMap W64
  f : SMap W32
  csr : SMap W64
  reserve : Option Nat
  wfi : Bool
  evq : List BsEvent
  msgs : List LodgeMsg
  stores : List Store
  just : SMap W64
  deriving DecidableEq, Repr

/-- Bytes of an OY_WRITE in the commit buffer (R266): pavilion, window address, data, and whether their frame has committed, so that they drain
(R267). -/
structure Commit where
  pv : Nat
  addr : Nat
  data : List Byte
  committed : Bool
  deriving DecidableEq, Repr

/-- A shard of a staging command (R366, R371). -/
structure Shard where
  offset : Nat
  length : Nat
  iv : List Byte
  tag : List Byte
  digest : List Byte
  aad : List Byte
  addr : Option Nat
  verified : Bool
  tries : Nat
  deriving DecidableEq, Repr

/-- A slice (R270, R370): its stripes, which hold it encrypted in HBM, and the staging command that is filling it. -/
structure Slice where
  pv : Nat
  stripes : List Nat
  terraceBytes : Nat
  windowBytes : Nat
  windowOffset : Nat
  modelId : List Byte
  manifestHash : List Byte
  ready : Bool
  shards : List Shard
  key : List Byte
  fn : Nat
  ticket : Nat
  deadline : Nat
  deriving DecidableEq, Repr

/-- An entry of an Icehouse index (R279): pending or valid, its group, digest, parent slot, pins, last match, and the request
that reserved it. -/
structure IhEntry where
  valid : Bool
  group : Nat
  digest : List Byte
  parent : Option Nat
  pins : List Nat
  lastMatch : Nat
  owner : Nat
  deriving DecidableEq, Repr

/-- An Icehouse pool (R275): stripes, slot size in 2 KiB units, lead module, index; by reserved slot the bytes that committed OY_WRITEs have put
into it on this module, and, at the lead, the modules that have reported its block (R279). -/
structure Pool where
  first : Nat
  stripes : Nat
  unit : Nat
  lead : Nat
  index : SMap IhEntry
  written : SMap Nat
  reports : SMap (List Nat)
  deriving DecidableEq, Repr

/-- A request that waits or lives at the front Warden (R283 to R293). `since` is the real time at which the ageing period of
its class began. `words` are A0 to A7. -/
structure Req where
  tag : Nat
  tenant : Nat
  words : List W64
  prompt : List Nat
  cls : Nat
  since : Nat
  cancelled : Bool
  matched : Nat
  emitted : Nat
  decode : Nat
  sampler : Nat
  tslot : Nat
  dslot : Option Nat
  hashes : List (List Byte)
  looked : Bool
  deriving DecidableEq, Repr

/-- The rings of a pavilion (R348, R355). `stalled` says that a failed DMA has stopped the reading of requests until the next MB_REQ_DB write
(R424). -/
structure Rings where
  reqBase : Nat
  cplBase : Nat
  wb : Nat
  reqN : Nat
  cplN : Nat
  fn : Nat
  vector : Nat
  reqPi : W32
  reqCi : W32
  cplPi : W32
  cplCi : W32
  stalled : Bool
  deriving DecidableEq, Repr

/-- A LOAD_MODEL in flight (R374, R343). -/
structure LoadJob where
  fn : Nat
  ticket : Nat
  slice : Nat
  image : Image
  deriving DecidableEq, Repr

/-- A PV_RESET in flight (R347): unit 0 ABORT, 1 CLUSTER, 2 PAVILION; whether a slice was loaded and an image placed. -/
structure ResetJob where
  fn : Nat
  ticket : Nat
  unit : Nat
  cluster : Nat
  had : Bool
  deriving DecidableEq, Repr

/-- The resources of a pavilion (R260, R427, R432). -/
structure PvRes where
  clusters : Nat
  groups : Nat
  winFirst : Nat
  winExtents : Nat
  quota : Nat
  firstTenant : Nat
  tenants : Nat
  vf : Nat
  port : Nat
  deriving DecidableEq, Repr

/-- What a pavilion runs (R341 to R347). `st` is the state code of R341, 0 absent; `abortAt` the real time at which an abort or a reset last stopped its
context (R391). -/
structure PvRun where
  st : Nat
  cause : Nat
  loaded : Option Nat
  lastModel : List Byte
  image : Option Image
  imageHash : List Byte
  f0 : Nat
  startAt : Option Nat
  pause : Option Nat
  heads : SMap Nat
  stopAt : Option Nat
  drained : Bool
  balance : Bool
  barriers : SMap Nat
  load : Option LoadJob
  reset : Option ResetJob
  abortTiles : List Nat
  abortAt : Nat
  deriving DecidableEq, Repr

/-- What the front Warden keeps for a pavilion (R283 to R306, R350). -/
structure PvFront where
  rings : Option Rings
  waiting : List Req
  live : List Req
  cancels : List Nat
  arrived : List Emission
  store : List (List W64)
  nextSampler : Nat
  admitted : Nat
  readNow : Nat
  pool : Option Pool
  decisions : List (Nat × IhDecision)
  asks : List Ask
  deriving DecidableEq, Repr

/-- A pavilion. -/
structure Pv where
  res : PvRes
  run : PvRun
  front : PvFront
  deriving DecidableEq, Repr

/-- A tenant setting that waits for the next tick (R352). -/
inductive AtTick where
  | tenant (n : Nat) (cfg rate : W64)
  | budget (n : Nat) (v : W64)
  | budgetAdd (n : Nat) (v : W64)
  | age (v : W64)
  | balance (pv : Nat) (on : Bool)
  deriving DecidableEq, Repr

/-- A Bandstand slot beside its registers (R294, R299, R300): request, penalty window, mask words (4,096 p + w), drafts of the
step, tokens emitted, and the step that deliveries now belong to. -/
structure BsSlot where
  tag : Nat
  pen : List Nat
  mask : SMap W64
  drafts : List Nat
  derived : Bool
  emitted : Nat
  maxTokens : Nat
  collect : Nat
  done : W64
  deriving DecidableEq, Repr

/-- A delivery in the staging store (R295): `cycle` is the Bandstand cycle in which it reached the store, `port` its intake port. -/
structure Deliv where
  slot : Nat
  draft : Bool
  pos : Nat
  voff : Nat
  vals : List W32
  step : Nat
  open_ : Bool
  pv : Nat
  cycle : Nat
  port : Nat
  deriving DecidableEq, Repr

/-- A candidate row (R296): how many entries were scanned, whether no row was free, and the entries (y, i) kept. -/
structure CandRow where
  slot : Nat
  draft : Bool
  pos : Nat
  step : Nat
  count : Nat
  none_ : Bool
  cands : List (W32 × Nat)
  pv : Nat
  deriving DecidableEq, Repr

/-- A CT_SAMPLE commit (R176, R295), the Bandstand cycle and intake port of its arrival, and whether its frame is still to commit. -/
structure BsCommit where
  slot : Nat
  step : Nat
  open_ : Bool
  cycle : Nat
  port : Nat
  deriving DecidableEq, Repr

/-- A token record that the Bandstand lands (R301): its words K0 to K3 or K4 to K7. `landed` records are kept until the tick
that commits the frame, for a replay (R302). -/
structure BsLand where
  slot : Nat
  tile : Nat
  addr : Nat
  ctr : Nat
  draft : Bool
  words : List W64
  landed : Bool
  emission : Option Emission
  deriving DecidableEq, Repr

/-- The Bandstand (R294 to R303). Its registers BS_* stand in `State.reg`. -/
structure Band where
  slots : SMap BsSlot
  staging : List Deliv
  rows : List CandRow
  commits : List BsCommit
  lands : List BsLand
  deriving DecidableEq, Repr

/-- An asynchronous command in flight (R338). -/
structure Flight where
  ticket : Nat
  opcode : Nat
  pv : Option Nat
  deadline : Nat
  discard : Bool
  deriving DecidableEq, Repr

/-- A PCIe function's mailbox (R337, R338, R433) and MSI-X table (R421): masked vectors pend. `rungAt` is the real time of the doorbell that a
command's time limit runs from (R339). -/
structure Fn where
  reg : SMap W64
  latched : Option (W64 × SMap W64)
  rungAt : Nat
  async : List W64
  flights : List Flight
  nextTicket : Nat
  msix : SMap W64
  pendingVec : List Nat
  vfEnable : Bool
  just : SMap W64
  deriving DecidableEq, Repr

/-- A fleet key slot (R362). -/
structure Fleet where
  port : Nat
  keyId : List Byte
  n : Nat
  d : Nat
  deriving DecidableEq, Repr

/-- The Gatehouse (R335, R336, R356 to R364): boot phase, anti-rollback fuses, the accepted image, a FW_LOAD in flight
(function, ticket, length), fleet slots, boots that failed in succession, and whether this boot has reached RUNNING. `sram` is the Warden's 2 MiB of
SRAM as far as the spec gives its contents, the image from byte 0 on (log entry 45); `coresHeld` holds the four Warden cores (R20, R335). -/
structure Gate where
  phase : Nat
  fuses : Nat
  svn : Nat
  version : Nat
  fwHash : List Byte
  sram : Mem
  coresHeld : Bool
  fwJob : Option (Nat × Nat × Nat)
  fleet : SMap Fleet
  failedBoots : Nat
  ran : Bool
  trngOk : Bool
  deriving DecidableEq, Repr

/-- A Shed write that waits (R405): word, value, and the mailbox of a SHED_WRITE. -/
structure ShedWrite where
  word : Nat
  value : W64
  fn : Option Nat
  deriving DecidableEq, Repr

/-- The Shed (R404 to R407): words, wear counts, queue of writes; the head of the queue is the write in progress. `counts` holds lifetime events
since their last write, `plan` the margin words that firmware applies in this boot (R406, R410). -/
structure Shed where
  words : SMap W64
  wear : SMap Nat
  queue : List ShedWrite
  counts : SMap Nat
  plan : SMap W64
  deriving DecidableEq, Repr

/-- A site whose first read failed and whose next attempt decides between transient and lasting (R378): kind 0 scratchpad, 1 Terrace,
2 Orangery, 3 Footbridge; place; address. -/
structure Site where
  kind : Nat
  place : Nat
  addr : Nat
  deriving DecidableEq, Repr

/-- The replay logic and the Ranger (R379 to R390). `report` is the RG_LAST_REPLAY word that the replay tick will record; `moved`
names the physical tiles moved east in this quiet period, and whether a context ran on them; `fresh` the sites whose first error a replay has still to
answer (R378); `ppr` the Orangery units, by group, whose rows wait for
post-package repair (R274, R386). -/
structure Replay where
  marked : Bool
  standing : Bool
  restored : Bool
  released : Bool
  attempts : Nat
  stamps : List Nat
  sites : List Site
  fresh : List Site
  lasting : List Site
  report : W64
  idle : Nat
  moved : List (Nat × Bool)
  ppr : List (Nat × Nat)
  deriving DecidableEq, Repr

/-- What a tile has told the Warden (R60, R393, R378): a fault in TL_FAULT, a broken wait, a revocation, an uncorrectable error. -/
structure Report where
  p : Nat
  kind : Nat
  deriving DecidableEq, Repr

/-- The crash-dump area (R398): slot contents by word offset, the next slot, the collections so far. -/
structure Dumps where
  slots : SMap (SMap W64)
  next : Nat
  seq : Nat
  deriving DecidableEq, Repr

/-- The module's hardware (R434 to R452): supply and reset, the shutdown latch and its cause, straps, temperatures in
1/16 °C (13, in the order of R447), the alert word, MCTP endpoint, test access port, PCIe links. `cold` says that the Orangery has lost its contents
since the last boot (R408), `alertJust` holds the alert bits set in the present cycle (R448), and `bootAt` is the real time at which reset ended (R440). -/
structure Mod where
  power : Bool
  inReset : Bool
  latched : Bool
  thermal : Bool
  split : Bool
  smb : Nat
  temps : SMap Nat
  alert : Nat
  eid : Nat
  mctp : Bool
  jtagIr : Nat
  jtagData : Nat
  links : SMap Nat
  cold : Bool
  alertJust : Nat
  bootAt : Nat
  deriving DecidableEq, Repr

/-- What the module sends out (the model's own log of its outputs, log entry 10). `request` is an MCTP request to the tray, named by its bit of the
alert word. -/
inductive Out where
  | freeze (f : Nat)
  | resume (f : Nat)
  | hold (port origin seq kind source : Nat)
  | release (port origin seq stamp : Nat)
  | time (port sample : Nat)
  | syncPulse
  | start (moment : Nat)
  | ctl (port : Nat) (c0 c1 : W64)
  | block (port : Nat) (raw : List Byte)
  | pattern (port code : Nat)
  | hostWrite (fn addr : Nat) (data : List W64)
  | msix (fn vector : Nat)
  | warden (module : Nat) (m : WMsg)
  | orphan (module pv : Nat)
  | doe (port : Nat) (body : List Byte)
  | spdm (port kind : Nat) (blocks : List (Nat × List Byte)) (signed : Bool)
  | mctp (bytes : List Byte)
  | request (bit : Nat)
  | jtag (ir data : Nat)
  | lodgeRead (k : Nat) (v : W64)
  | asyncRead (fn : Nat) (v : W64)
  deriving DecidableEq, Repr

/-- The dynamic parts of the die-level blocks. `nextXfer` numbers transfers, `ctlSeq` holds by type the number of the next control word of this module
(R231), `pointers` are the channel-0 pointers of the router outputs, by
8 × router + site (R207). `oyKey` is the staging key of R270, empty until it is drawn. -/
structure Die where
  transfers : List Transfer
  ctls : List Ctl
  windows : List GetWindow
  barriers : SMap Barrier
  nextXfer : Nat
  ctlSeq : SMap Nat
  pointers : SMap Nat
  ports : SMap Port
  lodges : SMap Lodge
  hbm : Mem
  oyKey : List Byte
  commit : List Commit
  slices : SMap Slice
  band : Band
  remainder : SMap Nat
  atTick : List AtTick
  reports : List Report
  deriving DecidableEq, Repr

/-- The whole block. `rows` is the repair map that the Trellis switches and the windows follow now (R15, R16): failed column of a
repaired row. -/
structure State where
  reg : SMap W64
  just : SMap W64
  rows : SMap Nat
  sun : Sun
  tiles : SMap Tile
  die : Die
  pvs : SMap Pv
  fns : SMap Fn
  gate : Gate
  shed : Shed
  replay : Replay
  dumps : Dumps
  mod : Mod
  out : List Out
  free : Nat
  pending : List Instr
  deriving DecidableEq, Repr

/-- The ways a command stops the model: each names something that the spec says the module does not have. -/
inductive Fault where
  /-- The command names a tile, port, region, cluster, slot, function or entry whose number lies outside the range that
  the spec gives. Raised by every meaning that takes such a number. Safe: the module has no such thing. -/
  | noSuch (what : String)
  deriving DecidableEq, Repr

/-- The refusals. -/
inductive Refusal where
  /-- A command without a meaning yet: raised only by an arm of `exec`. Safe. -/
  | notModelled (mnemonic : String)
  deriving DecidableEq, Repr

/-- An empty sequencer (R63, R68 Reset values). -/
def Seq.reset : Seq :=
  { run := .idle, head := 0, ready := 0, atEnd := false, mainBuf := [], hBuf := [], handler := none, hq := [], window := [],
    holdSeq := none, holdReleased := false, issuedAt := none }

/-- A stage filled with zeros, code 0 (R91). -/
def Stage.reset : Stage := { fmt := 0, blk := [] }

/-- A cleared matrix engine (R91). -/
def Mx.reset : Mx :=
  { st0 := Stage.reset, st1 := Stage.reset, acc := [] }

/-- A cleared vector engine (R112). -/
def Vx.reset : Vx := { v := [], m := [] }

/-- A physical tile after a chip reset (R63, R193). -/
def Tile.reset : Tile :=
  { reg := [], sp := [], tr := [], tc := [], orphaned := 0, seq := Seq.reset, mx := Mx.reset, vx := Vx.reset, tcPrev := [], chPrev := [],
    spNew := [], trNew := [], claims := [], hqNew := 0, tick := { tc := [], send := [], recv := [], head := 0 }, spScrub := 0,
    trScrub := 0, spScrubGap := 0, trScrubGap := 0, spClear := none, trClear := none, trRewrite := [], just := [] }

/-- A Lodge core held in reset (R254); log entry 7 for the RISC-V registers. -/
def Lodge.reset : Lodge :=
  { reg := [], isram := [], dsram := [], pc := 0, x := [], f := [], csr := [], reserve := none, wfi := false, evq := [], msgs := [], stores := [], just := [] }

/-- A port after a chip reset: both channel-0 classes hold the peer's 2,048 flits of credit (R229). -/
def Port.reset : Port :=
  { egress := [], claims := [], bulk := [], ctl := [], ctlAgain := [], sched := [], inbound := [], txSeq := 0,
    resend := [], retry := [], rxSeq := 0, nak := false, asking := false, fails := 0, missed := [], hpSeen := [], heard := [], fullAdapt := false,
    peer := 0, downHold := none, cut := false, credits := [(0, 2048), (1, 2048)], giveBack := [],
    dateline := false }

/-- A barrier entry that nobody holds. -/
def Barrier.reset : Barrier := { pv := none, machine := false, total := 0, pend := [], tickTotal := 0, peers := [] }

/-- An absent pavilion (R341). -/
def Pv.reset : Pv :=
  { res := { clusters := 0, groups := 0, winFirst := 0, winExtents := 0, quota := 0, firstTenant := 0, tenants := 0, vf := 0, port := 0 },
    run := { st := 0, cause := 0, loaded := none, lastModel := [], image := none, imageHash := [], f0 := 0, startAt := none,
             pause := none, heads := [], stopAt := none, drained := false, balance := true, barriers := [],
             load := none, reset := none, abortTiles := [], abortAt := 0 },
    front := { rings := none, waiting := [], live := [], cancels := [], arrived := [], store := [], nextSampler := 0, admitted := 0,
               readNow := 0, pool := none, decisions := [], asks := [] } }

/-- A function's mailbox after reset (R354, R425). -/
def Fn.reset : Fn :=
  { reg := [], latched := none, rungAt := 0, async := [], flights := [], nextTicket := 0, msix := [], pendingVec := [], vfEnable := false, just := [] }

/-- A closed Bandstand slot. -/
def BsSlot.reset : BsSlot :=
  { tag := 0, pen := [], mask := [], drafts := [], derived := false, emitted := 0, maxTokens := 0, collect := 0, done := 0 }

/-- Sundial after a chip reset (R43). -/
def Sun.reset : Sun :=
  { tick := 0, ctr := 0, lags := [], gaps := [], holds := [], freeze := none, stopped := false, regionsAt := [], standAt := 0,
    lastAtF := 0, later := [], seen := [], nextSeq := 0, newBin := none, epochMark := none, startAt := none, neighbours := [], undo := [],
    time := 0, lastRefill := 0 }

/-- The replay logic after a chip reset (R402). -/
def Replay.reset : Replay :=
  { marked := false, standing := false, restored := false, released := false, attempts := 0, stamps := [], sites := [], fresh := [], lasting := [],
    report := 0, idle := 0, moved := [], ppr := [] }

/-- The die-level blocks after a chip reset. -/
def Die.reset : Die :=
  { transfers := [], ctls := [], windows := [], barriers := [], nextXfer := 0, ctlSeq := [], pointers := [], ports := [], lodges := [],
    hbm := [], oyKey := [], commit := [], slices := [], band := { slots := [], staging := [], rows := [], commits := [], lands := [] },
    remainder := [], atTick := [], reports := [] }

/-- The machine right after reset: supplied, out of reset, the chip reset of R440 step 4 done, PHASE ROM_WAIT (log entry 2);
every register at its Reset value, every memory as R193 and R254 leave it, the queue empty. -/
def State.reset : State :=
  { reg := [], just := [], rows := [], sun := Sun.reset, tiles := [], die := Die.reset, pvs := [], fns := [],
    gate := { phase := 0, fuses := 0, svn := 0, version := 0, fwHash := [], sram := [], coresHeld := true, fwJob := none, fleet := [], failedBoots := 0, ran := false, trngOk := false },
    shed := { words := [], wear := [], queue := [], counts := [], plan := [] },
    replay := Replay.reset, dumps := { slots := [], next := 0, seq := 0 },
    mod := { power := true, inReset := false, latched := false, thermal := false, split := false, smb := 0x60, temps := [], alert := 0,
             eid := 0, mctp := true, jtagIr := 0, jtagData := 0, links := [], cold := true, alertJust := 0, bootAt := 0 },
    out := [], free := 0, pending := [] }

end Sys2Proof.Machine
end

