-- ==== Sys2Proof/Machine/Bits.lean ====
section
/-!
DEFINITION. Bit fields, little-endian words, tables by number and byte memories: the helpers that every operation uses.
-/

namespace Sys2Proof.Machine
open Sys2Proof

/-- The unsigned value of bits [hi:lo] of a word (R6). -/
def bits (w : W64) (hi lo : Nat) : Nat := (w.extractLsb' lo (hi + 1 - lo)).toNat

/-- Bit `n` of a word. -/
def bit (w : W64) (n : Nat) : Bool := w.getLsbD n

/-- The ones of bits [hi:lo]. -/
def maskBits (hi lo : Nat) : W64 := (BitVec.ofNat 64 (2 ^ (hi + 1 - lo) - 1)) <<< lo

/-- The word with bits [hi:lo] replaced by the low bits of `v`. -/
def setBits (w : W64) (hi lo v : Nat) : W64 :=
  (w &&& ~~~ maskBits hi lo) ||| ((BitVec.ofNat 64 v <<< lo) &&& maskBits hi lo)

/-- A Nat as a 64-bit word. -/
def w64 (n : Nat) : W64 := BitVec.ofNat 64 n

/-- A Nat as a 32-bit word. -/
def w32 (n : Nat) : W32 := BitVec.ofNat 32 n

/-- One bit of a Bool. -/
def ofBool (b : Bool) : Nat := if b then 1 else 0

/-- The number that little-endian bytes spell (R6). -/
def leNat : List Byte → Nat
  | [] => 0
  | b :: bs => b.toNat + 256 * leNat bs

/-- `n` little-endian bytes of a number (R6). -/
def leBytes : Nat → Nat → List Byte
  | 0, _ => []
  | n + 1, v => BitVec.ofNat 8 v :: leBytes n (v / 256)

/-- The number that big-endian bytes spell. -/
def beNat (bs : List Byte) : Nat := leNat bs.reverse

/-- `n` big-endian bytes of a number. -/
def beBytes (n v : Nat) : List Byte := (leBytes n v).reverse

/-- The 64-bit words that bytes spell, eight bytes each. -/
def wordsOf : Nat → List Byte → List W64
  | 0, _ => []
  | n + 1, bs => w64 (leNat (bs.take 8)) :: wordsOf n (bs.drop 8)

/-- The bytes of 64-bit words. -/
def bytesOf (ws : List W64) : List Byte := ws.flatMap (fun w => leBytes 8 w.toNat)

/-- Quotient rounded up. -/
def ceilDiv (a b : Nat) : Nat := (a + b - 1) / b

/-- The entry of a table under a number. -/
def SMap.look? {α : Type} : SMap α → Nat → Option α
  | [], _ => none
  | (j, v) :: r, k => if j = k then some v else SMap.look? r k

/-- The entry of a table under a number, or a default. -/
def SMap.look {α : Type} (m : SMap α) (k : Nat) (d : α) : α := (SMap.look? m k).getD d

/-- The table with an entry put under a number, keys kept rising. -/
def SMap.put {α : Type} : SMap α → Nat → α → SMap α
  | [], k, v => [(k, v)]
  | (j, w) :: r, k, v =>
    if k < j then (k, v) :: (j, w) :: r
    else if j = k then (k, v) :: r
    else (j, w) :: SMap.put r k v

/-- The table without the entry under a number. -/
def SMap.del {α : Type} (m : SMap α) (k : Nat) : SMap α := m.filter (fun e => e.1 != k)

/-- The byte of a memory at an address: an unlisted byte reads as zero (R193, R254, log entry 6). -/
def Mem.rd (m : Mem) (a : Nat) : Byte := SMap.look m a 0

/-- The memory with a byte written; a zero is not listed. -/
def Mem.wr (m : Mem) (a : Nat) (b : Byte) : Mem := if b = 0 then SMap.del m a else SMap.put m a b

/-- `n` bytes from an address. -/
def Mem.rdN (m : Mem) (a n : Nat) : List Byte := (List.range n).map (fun i => m.rd (a + i))

/-- The memory with bytes written from an address on. -/
def Mem.wrN (m : Mem) (a : Nat) : List Byte → Mem
  | [] => m
  | b :: bs => Mem.wrN (Mem.wr m a b) (a + 1) bs

/-- The memory with `n` bytes from an address cleared to zero. -/
def Mem.clear (m : Mem) (a n : Nat) : Mem := m.filter (fun c => c.1 < a || a + n ≤ c.1)

/-- The `n`-byte little-endian number at an address. -/
def Mem.rdLe (m : Mem) (a n : Nat) : Nat := leNat (m.rdN a n)

/-- The memory with an `n`-byte little-endian number written at an address. -/
def Mem.wrLe (m : Mem) (a n v : Nat) : Mem := m.wrN a (leBytes n v)

/-- The canonical form of a memory: addresses strictly rising, no zero byte listed. -/
abbrev Mem.wf (m : Mem) : Prop := m.Pairwise (fun x y => x.1 < y.1) ∧ ∀ c ∈ m, c.2 ≠ 0

/-- The value that a register table gives an offset, 0 where no row covers it. -/
def rowVal : List RegRow → Nat → Nat
  | [], _ => 0
  | r :: rs, off =>
    if r.base ≤ off ∧ (off = r.base ∨ (0 < r.stride ∧ (off - r.base) % r.stride = 0 ∧ (off - r.base) / r.stride < r.count))
    then r.val else rowVal rs off

/-- A write of `v` over `old` where `rw` bits take the value written and `w1c` bits are cleared by a one (R9, R10). -/
def merged (old v rw w1c : W64) : W64 := ((old &&& ~~~ rw) ||| (v &&& rw)) &&& ~~~ (v &&& w1c)

/-- The least element of a list under a key, `none` for an empty list. -/
def minBy {α : Type} (key : α → Nat) : List α → Option α
  | [] => none
  | x :: xs =>
    match minBy key xs with
    | none => some x
    | some y => if key y < key x then some y else some x

/-- The largest of a list of numbers, 0 for an empty list. -/
def maxOf (l : List Nat) : Nat := l.foldl max 0

/-- The first element that satisfies a test removed from a list. -/
def dropFirst {α : Type} (p : α → Bool) : List α → List α
  | [] => []
  | x :: xs => if p x then xs else x :: dropFirst p xs

/-- Element `i` of a list changed. -/
def modAt {α : Type} (f : α → α) : List α → Nat → List α
  | [], _ => []
  | x :: xs, 0 => f x :: xs
  | x :: xs, n + 1 => x :: modAt f xs n

end Sys2Proof.Machine
end

