-- ==== Sys2Proof/Machine/Float.lean ====
section
/-!
DEFINITION. Numbers: exact decoding of the element formats (R75 to R77), rounding to FP32, BF16, FP8 and INT8 (R84, R86), the lane
arithmetic of R96 and R97, and the transcendental functions of R138. A finite number is held exactly as a sign, a
magnitude and a power of two.
-/

namespace Sys2Proof.Machine
open Sys2Proof

/-- A number: NaN, an infinity, or exactly (−1)^neg × m × 2^e. -/
inductive Fp where
  | nan
  | inf (neg : Bool)
  | fin (neg : Bool) (m : Nat) (e : Int)
  deriving DecidableEq, Repr

/-- Rounding: to nearest with ties to even, toward zero, down, up, to nearest with ties away, to odd (R96, R138). -/
inductive Rm where
  | rne
  | rtz
  | rdn
  | rup
  | rmm
  | odd
  deriving DecidableEq, Repr

/-- The canonical NaN (R96). -/
def nan32 : Nat := 0x7FC00000

/-- A zero of either sign. -/
def Fp.isZero : Fp → Bool
  | .fin _ m _ => m == 0
  | _ => false

def Fp.isNan : Fp → Bool
  | .nan => true
  | _ => false

def Fp.isInf : Fp → Bool
  | .inf _ => true
  | _ => false

def Fp.isFin : Fp → Bool
  | .fin _ _ _ => true
  | _ => false

/-- The sign. -/
def Fp.sign : Fp → Bool
  | .nan => false
  | .inf n => n
  | .fin n _ _ => n

/-- The number with its sign inverted. -/
def Fp.negate : Fp → Fp
  | .nan => .nan
  | .inf n => .inf (!n)
  | .fin n m e => .fin (!n) m e

/-- A code with `p` mantissa bits, exponent field `ex` and bias `bias` read as a finite number (R75). -/
def decFinite (neg : Bool) (p ex f : Nat) (bias : Int) : Fp :=
  if ex = 0 then .fin neg f (1 - bias - p) else .fin neg (2 ^ p + f) ((ex : Int) - bias - p)

/-- FP32. -/
def dec32 (x : Nat) : Fp :=
  let neg := x.testBit 31
  let ex := x / 2 ^ 23 % 256
  let f := x % 2 ^ 23
  if ex = 255 then (if f = 0 then .inf neg else .nan) else decFinite neg 23 ex f 127

/-- BF16 (R75). -/
def decBf16 (x : Nat) : Fp := dec32 (x % 65536 * 65536)

/-- FP8 E4M3 (R75). -/
def decE4m3 (x : Nat) : Fp :=
  let neg := x.testBit 7
  let ex := x / 8 % 16
  let f := x % 8
  if ex = 15 ∧ f = 7 then .nan else decFinite neg 3 ex f 7

/-- FP8 E5M2 (R75). -/
def decE5m2 (x : Nat) : Fp :=
  let neg := x.testBit 7
  let ex := x / 4 % 32
  let f := x % 4
  if ex = 31 then (if f = 0 then .inf neg else .nan) else decFinite neg 2 ex f 15

/-- MXFP6 E2M3 (R75). -/
def decE2m3 (x : Nat) : Fp := decFinite (x.testBit 5) 3 (x / 8 % 4) (x % 8) 1

/-- MXFP6 E3M2 (R75). -/
def decE3m2 (x : Nat) : Fp := decFinite (x.testBit 5) 2 (x / 4 % 8) (x % 4) 3

/-- MXFP4 E2M1 (R75). -/
def decE2m1 (x : Nat) : Fp := decFinite (x.testBit 3) 1 (x / 2 % 4) (x % 2) 1

/-- An E8M0 scale (R77). -/
def decE8m0 (x : Nat) : Fp := if x % 256 = 255 then .nan else .fin false 1 ((x % 256 : Nat) - 127 : Int)

/-- An INT8 code (R76). -/
def decI8 (x : Nat) : Fp := if x.testBit 7 then .fin true (256 - x % 256) 0 else .fin false (x % 256) 0

/-- The magnitude m × 2^e, or a little more where `sticky`, rounded to a format of `p` mantissa bits and least normal exponent `emin`: the
code of the magnitude, and whether it is inexact. -/
def roundCode (p : Nat) (emin : Int) (mode : Rm) (neg : Bool) (m : Nat) (e : Int) (sticky : Bool) : Nat × Bool :=
  if m = 0 then (0, sticky)
  else
    let q := max ((Nat.log2 m : Int) + e - p) (emin - p)
    let base := (q - (emin - p)).toNat * 2 ^ p
    if q ≤ e then
      let n := m <<< (e - q).toNat
      let up := match mode with
        | .rdn => neg && sticky
        | .rup => !neg && sticky
        | .odd => sticky && n % 2 == 0
        | _ => false
      (base + n + ofBool up, sticky)
    else
      let sh := (q - e).toNat
      let n := m >>> sh
      let r := m % 2 ^ sh
      let half := 2 ^ (sh - 1)
      let inexact := r != 0 || sticky
      let up := match mode with
        | .rne => half < r || (r == half && (sticky || n % 2 == 1))
        | .rtz => false
        | .rdn => neg && inexact
        | .rup => !neg && inexact
        | .rmm => half ≤ r
        | .odd => inexact && n % 2 == 0
      (base + n + ofBool up, inexact)

/-- The code of an FP32 overflow. -/
def overflow32 (mode : Rm) (neg : Bool) : Nat :=
  match mode with
  | .rtz => 0x7F7FFFFF
  | .odd => 0x7F7FFFFF
  | .rdn => if neg then 0x7F800000 else 0x7F7FFFFF
  | .rup => if neg then 0x7F7FFFFF else 0x7F800000
  | _ => 0x7F800000

/-- The sign bit of a code. -/
def signed (w : Nat) (neg : Bool) (code : Nat) : Nat := if neg then 2 ^ (w - 1) + code else code

/-- A number rounded to FP32 (R96): overflow gives the mode's limit. -/
def to32 (mode : Rm) (sticky : Bool) : Fp → Nat
  | .nan => nan32
  | .inf n => signed 32 n 0x7F800000
  | .fin n m e =>
    let c := (roundCode 23 (-126) mode n m e sticky).1
    signed 32 n (if 0x7F7FFFFF < c then overflow32 mode n else c)

/-- Rounded to FP32 to nearest even. -/
def rne32 (x : Fp) : Nat := to32 .rne false x

/-- round_fp32_sat of R84, and whether it saturated. An exact zero gives +0.0. -/
def roundSat : Fp → Nat × Bool
  | .fin n m e =>
    if m = 0 then (0, false)
    else
      let c := (roundCode 23 (-126) .rne n m e false).1
      if 0x7F7FFFFF < c then (signed 32 n 0x7F7FFFFF, true) else (signed 32 n c, false)
  | .inf n => (signed 32 n 0x7F7FFFFF, true)
  | .nan => (nan32, false)

/-- The exact sum; an exact zero from unlike signs is +0, or −0 where `zneg`. -/
def Fp.add (zneg : Bool) : Fp → Fp → Fp
  | .nan, _ => .nan
  | _, .nan => .nan
  | .inf a, .inf b => if a = b then .inf a else .nan
  | .inf a, _ => .inf a
  | _, .inf b => .inf b
  | .fin n1 m1 e1, .fin n2 m2 e2 =>
    let e := min e1 e2
    let a : Int := m1 * 2 ^ (e1 - e).toNat
    let b : Int := m2 * 2 ^ (e2 - e).toNat
    let s := (if n1 then -a else a) + (if n2 then -b else b)
    if s = 0 then .fin (if m1 = 0 ∧ m2 = 0 then (if n1 = n2 then n1 else zneg) else zneg) 0 e
    else .fin (decide (s < 0)) s.natAbs e

/-- The exact product. -/
def Fp.mul : Fp → Fp → Fp
  | .nan, _ => .nan
  | _, .nan => .nan
  | .inf a, .inf b => .inf (a != b)
  | .inf a, .fin n m _ => if m = 0 then .nan else .inf (a != n)
  | .fin n m _, .inf b => if m = 0 then .nan else .inf (n != b)
  | .fin n1 m1 e1, .fin n2 m2 e2 => .fin (n1 != n2) (m1 * m2) (e1 + e2)

/-- −1, 0 or 1 as the first number is below, at or above the second; zeros are equal. Not for NaN. -/
def Fp.cmp : Fp → Fp → Int
  | .inf a, .inf b => if a = b then 0 else if a then -1 else 1
  | .inf a, _ => if a then -1 else 1
  | _, .inf b => if b then 1 else -1
  | .fin n1 m1 e1, .fin n2 m2 e2 =>
    let e := min e1 e2
    let a : Int := m1 * 2 ^ (e1 - e).toNat
    let b : Int := m2 * 2 ^ (e2 - e).toNat
    let s := (if n1 then -a else a) - (if n2 then -b else b)
    if s = 0 then 0 else if s < 0 then -1 else 1
  | _, _ => 0

/-- Minimum and maximum of R96 on FP32 codes: NaN if either is NaN, −0 below +0. -/
def minMax (isMax : Bool) (a b : Nat) : Nat :=
  let x := dec32 a
  let y := dec32 b
  if x.isNan ∨ y.isNan then nan32
  else
    let c := Fp.cmp x y
    let less := c < 0 ∨ (c = 0 ∧ x.sign ∧ !y.sign)
    if isMax then (if less then b else a) else (if less then a else b)

/-- A narrow conversion of R86: mantissa bits, least normal exponent, largest code, code of an unsaturated overflow, of NaN, width. -/
def cvtNarrow (p : Nat) (emin : Int) (maxCode ovf nanCode w : Nat) (sat : Bool) : Fp → Nat × Bool
  | .nan => (nanCode, false)
  | .inf n => if sat then (signed w n maxCode, true) else (if ovf = nanCode then nanCode else signed w n ovf, false)
  | .fin n m e =>
    let c := (roundCode p emin .rne n m e false).1
    if maxCode < c then (if sat then (signed w n maxCode, true) else (if ovf = nanCode then nanCode else signed w n ovf, false))
    else (signed w n c, false)

/-- cvt_bf16, with whether SAT_SEEN applies (R86, R137). -/
def cvtBf16 (sat : Bool) (x : Nat) : Nat × Bool := cvtNarrow 7 (-126) 0x7F7F 0x7F80 0x7FC0 16 sat (dec32 x)

/-- cvt_e4m3 (R86): without saturation an overflow becomes NaN. -/
def cvtE4m3 (sat : Bool) (x : Nat) : Nat × Bool := cvtNarrow 3 (-6) 0x7E 0x7F 0x7F 8 sat (dec32 x)

/-- cvt_e5m2 (R86). -/
def cvtE5m2 (sat : Bool) (x : Nat) : Nat × Bool := cvtNarrow 2 (-14) 0x7B 0x7C 0x7E 8 sat (dec32 x)

/-- A finite number rounded to an integer. -/
def roundInt (mode : Rm) (neg : Bool) (m : Nat) (e : Int) : Int × Bool :=
  if 0 ≤ e then ((if neg then -(m * 2 ^ e.toNat : Int) else (m * 2 ^ e.toNat : Int)), false)
  else
    let sh := (-e).toNat
    let n := m / 2 ^ sh
    let r := m % 2 ^ sh
    let half := 2 ^ (sh - 1)
    let up := match mode with
      | .rne => half < r || (r == half && n % 2 == 1)
      | .rtz => false
      | .rdn => neg && r != 0
      | .rup => !neg && r != 0
      | .rmm => half ≤ r
      | .odd => r != 0 && n % 2 == 0
    let v : Int := ((n + ofBool up : Nat) : Int)
    (if neg then -v else v, r != 0)

/-- cvt_int8 (R86): always saturating. -/
def cvtInt8 (x : Nat) : Nat × Bool :=
  match dec32 x with
  | .nan => (0, false)
  | .inf n => (if n then 0x80 else 0x7F, true)
  | .fin n m e =>
    let v := (roundInt .rne n m e).1
    if 127 < v then (0x7F, true) else if v < -128 then (0x80, true) else ((v % 256).toNat, false)

/-- FP32 to i32 (R97), with whether it saturates. -/
def f2i (x : Nat) : Nat × Bool :=
  match dec32 x with
  | .nan => (0, false)
  | .inf n => (if n then 0x80000000 else 0x7FFFFFFF, true)
  | .fin n m e =>
    let v := (roundInt .rne n m e).1
    if 2147483647 < v then (0x7FFFFFFF, true) else if v < -2147483648 then (0x80000000, true) else ((v % 4294967296).toNat, false)

/-- i32 to FP32. -/
def i2f (x : Nat) : Nat :=
  if x.testBit 31 then rne32 (.fin true (4294967296 - x % 4294967296) 0) else rne32 (.fin false (x % 4294967296) 0)

/-- u32 to FP32. -/
def u2f (x : Nat) : Nat := rne32 (.fin false (x % 4294967296) 0)

/-- The FP32 code of a narrow code (R97, R132): exact, NaN codes to the canonical NaN. -/
def fp32Of (x : Fp) : Nat := rne32 x

-- transcendental functions (R138)

/-- Newton's iteration for the integer square root, from above. -/
def isqrtLoop : Nat → Nat → Nat → Nat
  | 0, _, x => x
  | fuel + 1, n, x =>
    let y := (x + n / x) / 2
    if y < x then isqrtLoop fuel n y else x

/-- The integer square root. -/
def isqrt (n : Nat) : Nat := if n = 0 then 0 else isqrtLoop 1000 n (2 ^ (Nat.log2 n / 2 + 1))

/-- Fraction bits of the fixed-point evaluations. -/
def fxBits : Nat := 320

/-- 2^(2^−i) as fixed-point floors, for i from 1 on. -/
def exp2Consts : Nat → Nat → List Nat
  | 0, _ => []
  | n + 1, c => let d := isqrt (c <<< fxBits); d :: exp2Consts n d

/-- 2^f for a fraction f given by its bits below the point, in fixed point. -/
def exp2Frac (f : Nat) : List Nat → Nat → Nat → Nat
  | [], _, acc => acc
  | c :: cs, i, acc => exp2Frac f cs (i + 1) (if f.testBit (fxBits - i) then (acc * c) >>> fxBits else acc)

/-- exp2 of a finite non-zero number strictly between −150 and 128, rounded to odd. -/
def exp2Fin (neg : Bool) (m : Nat) (e : Int) : Nat :=
  let v : Int := if 0 ≤ e then (m * 2 ^ (e.toNat + fxBits) : Nat) else (m * 2 ^ fxBits / 2 ^ (-e).toNat : Nat)
  let a : Int := if neg then -v else v
  let k := a / (2 ^ fxBits : Int)
  let f := (a % (2 ^ fxBits : Int)).toNat
  if f = 0 then to32 .odd false (.fin false 1 k)
  else to32 .odd true (.fin false (exp2Frac f (exp2Consts 150 (2 ^ (fxBits + 1))) 1 (2 ^ fxBits)) (k - fxBits))

/-- The first `n` fraction bits of log2 of a fixed-point number in [1, 2), by repeated squaring. -/
def log2Bits : Nat → Nat → Nat → Nat
  | 0, _, acc => acc
  | n + 1, x, acc =>
    let y := (x * x) >>> 420
    if y < 2 ^ 421 then log2Bits n y (2 * acc) else log2Bits n (y / 2) (2 * acc + 1)

/-- log2 of a positive finite number, rounded to odd. -/
def log2Fin (m : Nat) (e : Int) : Nat :=
  let l := Nat.log2 m
  let k : Int := l + e
  if m = 2 ^ l then to32 .odd false (if k < 0 then .fin true k.natAbs 0 else .fin false k.natAbs 0)
  else
    let b := log2Bits 160 ((m <<< 420) >>> l) 0
    let v : Int := k * 2 ^ 160 + b
    if v < 0 then to32 .odd true (.fin true (v.natAbs - 1) (-160)) else to32 .odd true (.fin false v.natAbs (-160))

/-- rcp of a finite non-zero number, rounded to odd; infinity from 2^128 up. -/
def rcpFin (neg : Bool) (m : Nat) (e : Int) : Nat :=
  let l := Nat.log2 m
  let n := 2 ^ (l + 64)
  let x : Fp := .fin neg (n / m) (-(l + 64 : Int) - e)
  let big := if -e ≤ 0 then false else decide (m * 2 ^ 128 ≤ 2 ^ (-e).toNat)
  if big then signed 32 neg 0x7F800000 else to32 .odd (n % m != 0) x

/-- rsqrt of a positive finite number, rounded to odd. -/
def rsqrtFin (m : Nat) (e : Int) : Nat :=
  let m2 := if e % 2 = 0 then m else 2 * m
  let e2 := if e % 2 = 0 then e else e - 1
  let k := Nat.log2 m2 / 2 + 64
  let n := 2 ^ (2 * k)
  let r := isqrt (n / m2)
  to32 .odd (r * r * m2 != n) (.fin false r (-(k : Int) - e2 / 2))

/-- The FP32 quotient of two codes (R96, R294, R296). -/
def div32 (mode : Rm) (a b : Nat) : Nat :=
  match dec32 a, dec32 b with
  | .nan, _ => nan32
  | _, .nan => nan32
  | .inf _, .inf _ => nan32
  | .inf n, .fin m _ _ => signed 32 (n != m) 0x7F800000
  | .fin n _ _, .inf m => signed 32 (n != m) 0
  | .fin n1 m1 e1, .fin n2 m2 e2 =>
    if m2 = 0 then (if m1 = 0 then nan32 else signed 32 (n1 != n2) 0x7F800000)
    else if m1 = 0 then signed 32 (n1 != n2) 0
    else to32 mode (m1 * 2 ^ 80 % m2 != 0) (.fin (n1 != n2) (m1 * 2 ^ 80 / m2) (e1 - e2 - 80))

/-- The functions of VX_FN (R104, R138): 0 exp2, 1 log2, 2 rcp, 3 rsqrt. -/
def vxFunction (fn : Nat) (a : Nat) : Nat :=
  match fn, dec32 a with
  | _, .nan => nan32
  | 0, .inf n => if n then 0 else 0x7F800000
  | 1, .inf n => if n then nan32 else 0x7F800000
  | 2, .inf n => signed 32 n 0
  | _, .inf n => if n then nan32 else 0
  | 0, .fin n m e =>
    if m = 0 then 0x3F800000
    else if !n ∧ 0 ≤ Fp.cmp (.fin n m e) (.fin false 128 0) then 0x7F800000
    else if n ∧ Fp.cmp (.fin n m e) (.fin true 150 0) ≤ 0 then 0
    else exp2Fin n m e
  | 1, .fin n m e => if m = 0 then 0xFF800000 else if n then nan32 else log2Fin m e
  | 2, .fin n m e => if m = 0 then signed 32 n 0x7F800000 else rcpFin n m e
  | _, .fin n m e => if m = 0 then signed 32 n 0x7F800000 else if n then nan32 else rsqrtFin m e

end Sys2Proof.Machine
end

