-- ==== Sys2Proof/Config.lean ====
section
/-!
DEFINITION. What a part fixes at manufacture (fuses, straps, boot ROM) and the free values: constants without a
body, so that no proof can see what they are (log entries 4 and 11).
-/

namespace Sys2Proof.Config

/-- Data that an uncorrectable read delivers (R187, R199, R274), the undefined bytes of log entry 11: byte `i` of
the `n`-th free value drawn. -/
opaque freeByte : Nat → Nat → Byte

/-- The syndrome of a single-bit error at a bit of a codeword of 72 bits: implementation-defined, equal for equal bits (R185). -/
opaque syndrome : Nat → Nat

/-- Any other value that the spec leaves to the physical world: margin samples and ring-oscillator counts (R409). -/
opaque freeNat : Nat → Nat

/-- A reset pulse of 1 to 10 µs starts a chip reset or is ignored (R442): which, for the `n`-th such pulse. -/
opaque shortPulseResets : Nat → Bool

/-- GRADE of GH_PART_ID (R4): true for ZK740-B1-E. Fused. -/
opaque gradeE : Bool

/-- GH_SERIAL (R376). Fused. -/
opaque serial : W64

/-- SHA-256 of the firmware signing public key (R356). Fused. -/
opaque fwKeyHash : List Byte

/-- The device identity key (R356): public modulus. Fused. -/
opaque devN : Nat

/-- The device identity key (R356): private exponent. Fused, never readable. -/
opaque devD : Nat

/-- The certificate chain of slot 0 (R359), rebuilt at every reset from ROM and fuses. -/
opaque certChain : List Byte

/-- SHA-256 of the boot ROM, measurement block 1 (R360). -/
opaque romHash : List Byte

/-- The signal contacts as the test access port samples them (R452). -/
opaque boundarySample : Nat → Nat

/-- The bytes of a request's block table (R281, R315) as offsets from the image's BLOCK_TABLE: what its decode slot, the slots of its matched
blocks, the slots reserved for it, its target slot, its draft slot and its salt entry give, and, where `balance` is on, the weighting of its prefill
chunks by its hits (R333): with balancing off the table says nothing of that weighting. The spec names the contents and no layout. -/
opaque blockTable (decode : Nat) (matched reserved : List Nat) (slot : Nat) (draft : Option Nat) (salt : Nat) (weights : Option (List Nat)) :
  List (Nat × Byte)

/-- The weights of the clusters among which a request's prefill chunks are distributed while balancing is on, from its count of matched blocks
(R281, R333). -/
opaque chunkWeights : Nat → List Nat

/-- STEP of a FINAL record without tokens (R304): what the request's record and its emitted tokens make of it. -/
opaque finalStep : List W64 → Nat → Nat

/-- What the stacks find in the slice that a row-shift repair reads (R274, R388). -/
opaque sliceCheck : Nat → Check

/-- The SHA-256 of a Krexel image as it lies in host memory (R360): the model holds images by their contents and gives their bytes no layout. -/
opaque imageHash : Image → List Byte

end Sys2Proof.Config
end

