-- ==== Sys2Proof/Machine/Regs.lean ====
section
/-!
DEFINITION. The registers: every field of the register maps as a named place (offset, high bit, low bit), the nonzero Reset values,
and which bits of a register a write changes (RW) or clears (W1C). The rule beside each group states its map.
Offsets are into BAR0 (SD, GH, FB, OY, IH, BS, TS, RG, SH, WV, PV), the tile window (TL, TW), the Lodge window (LG) and the mailbox (MB).
-/

namespace Sys2Proof.Machine
open Sys2Proof


-- SD_CONFIG (R43)
def SD_CONFIG_OFF : Nat := 0x4000
def SD_CONFIG_SPAN : Fld := ⟨SD_CONFIG_OFF, 55, 32⟩
def SD_CONFIG_BIN : Fld := ⟨SD_CONFIG_OFF, 26, 24⟩
def SD_CONFIG_FRAME_LEN : Fld := ⟨SD_CONFIG_OFF, 23, 0⟩

-- SD_FRAME_NUM (R43)
def SD_FRAME_NUM_OFF : Nat := 0x4008
def SD_FRAME_NUM_FRAME : Fld := ⟨SD_FRAME_NUM_OFF, 63, 0⟩

-- SD_STATUS (R43)
def SD_STATUS_OFF : Nat := 0x4010
def SD_STATUS_ALIGN_LOST : Fld := ⟨SD_STATUS_OFF, 7, 7⟩
def SD_STATUS_TICK_HOLD_SEEN : Fld := ⟨SD_STATUS_OFF, 6, 6⟩
def SD_STATUS_SKEW_HOLD_SEEN : Fld := ⟨SD_STATUS_OFF, 5, 5⟩
def SD_STATUS_OVERRUN_SEEN : Fld := ⟨SD_STATUS_OFF, 4, 4⟩
def SD_STATUS_IN_HOLD : Fld := ⟨SD_STATUS_OFF, 3, 3⟩
def SD_STATUS_FREQ_STOP : Fld := ⟨SD_STATUS_OFF, 2, 2⟩
def SD_STATUS_RUNNING : Fld := ⟨SD_STATUS_OFF, 1, 1⟩
def SD_STATUS_ALIGNED : Fld := ⟨SD_STATUS_OFF, 0, 0⟩

-- SD_HOLD_COUNT (R43)
def SD_HOLD_COUNT_OFF : Nat := 0x4018
def SD_HOLD_COUNT_SKEW_HOLDS : Fld := ⟨SD_HOLD_COUNT_OFF, 63, 48⟩
def SD_HOLD_COUNT_TICK_HOLDS : Fld := ⟨SD_HOLD_COUNT_OFF, 47, 32⟩
def SD_HOLD_COUNT_HOLDS : Fld := ⟨SD_HOLD_COUNT_OFF, 31, 0⟩

-- SD_HOLD_TC (R43)
def SD_HOLD_TC_OFF : Nat := 0x4020
def SD_HOLD_TC_HELD_TC : Fld := ⟨SD_HOLD_TC_OFF, 47, 0⟩

-- SD_LAST_HOLD (R43)
def SD_LAST_HOLD_OFF : Nat := 0x4028
def SD_LAST_HOLD_LENGTH : Fld := ⟨SD_LAST_HOLD_OFF, 63, 40⟩
def SD_LAST_HOLD_REMOTE : Fld := ⟨SD_LAST_HOLD_OFF, 39, 39⟩
def SD_LAST_HOLD_KIND : Fld := ⟨SD_LAST_HOLD_OFF, 38, 36⟩
def SD_LAST_HOLD_SOURCE : Fld := ⟨SD_LAST_HOLD_OFF, 35, 24⟩
def SD_LAST_HOLD_CYCLE : Fld := ⟨SD_LAST_HOLD_OFF, 23, 0⟩

-- SD_SLACK_MIN (R43)
def SD_SLACK_MIN_OFF : Nat := 0x4030
def SD_SLACK_MIN_MIN_SLACK : Fld := ⟨SD_SLACK_MIN_OFF, 23, 0⟩

-- SD_MACHINE (R43)
def SD_MACHINE_OFF : Nat := 0x4038
def SD_MACHINE_MODULES : Fld := ⟨SD_MACHINE_OFF, 28, 16⟩
def SD_MACHINE_ROOT : Fld := ⟨SD_MACHINE_OFF, 15, 15⟩
def SD_MACHINE_INDEX : Fld := ⟨SD_MACHINE_OFF, 11, 0⟩

-- SD_LAG (R43)
def SD_LAG_OFF : Nat := 0x4040
def SD_LAG_LAG : Fld := ⟨SD_LAG_OFF, 31, 0⟩

-- SD_STRETCH_CNT (R43)
def SD_STRETCH_CNT_OFF (g : Nat) : Nat := 0x4080 + 0x8 * g
def SD_STRETCH_CNT_STRETCHES (g : Nat) : Fld := ⟨(SD_STRETCH_CNT_OFF g), 31, 0⟩

-- GH_PART_ID (R4)
def GH_PART_ID_OFF : Nat := 0x10
def GH_PART_ID_DEVICE : Fld := ⟨GH_PART_ID_OFF, 47, 32⟩
def GH_PART_ID_STEPPING : Fld := ⟨GH_PART_ID_OFF, 31, 24⟩
def GH_PART_ID_GRADE : Fld := ⟨GH_PART_ID_OFF, 23, 16⟩
def GH_PART_ID_VENDOR : Fld := ⟨GH_PART_ID_OFF, 15, 0⟩

-- GH_STATUS (R376)
def GH_STATUS_OFF : Nat := 0x18
def GH_STATUS_RUNNING_SVN : Fld := ⟨GH_STATUS_OFF, 23, 16⟩
def GH_STATUS_ANTI_ROLLBACK : Fld := ⟨GH_STATUS_OFF, 15, 8⟩
def GH_STATUS_STAGING_ACTIVE : Fld := ⟨GH_STATUS_OFF, 1, 1⟩
def GH_STATUS_TRNG_OK : Fld := ⟨GH_STATUS_OFF, 0, 0⟩

-- GH_FLEET (R376)
def GH_FLEET_OFF (n : Nat) : Nat := 0x20 + 0x8 * n
def GH_FLEET_VALID (n : Nat) : Fld := ⟨(GH_FLEET_OFF n), 63, 63⟩
def GH_FLEET_PORT (n : Nat) : Fld := ⟨(GH_FLEET_OFF n), 62, 62⟩
def GH_FLEET_KEY_ID_LOW (n : Nat) : Fld := ⟨(GH_FLEET_OFF n), 31, 0⟩

-- GH_SERIAL (R376)
def GH_SERIAL_OFF : Nat := 0x40
def GH_SERIAL_SERIAL : Fld := ⟨GH_SERIAL_OFF, 63, 0⟩

-- TL_SEQ_CONFIG (R68)
def TL_SEQ_CONFIG_OFF : Nat := 0x0
def TL_SEQ_CONFIG_HANDLER_ENTRIES : Fld := ⟨TL_SEQ_CONFIG_OFF, 35, 32⟩
def TL_SEQ_CONFIG_ENABLE : Fld := ⟨TL_SEQ_CONFIG_OFF, 16, 16⟩
def TL_SEQ_CONFIG_START : Fld := ⟨TL_SEQ_CONFIG_OFF, 14, 0⟩

-- TL_SEQ_STATUS (R68)
def TL_SEQ_STATUS_OFF : Nat := 0x8
def TL_SEQ_STATUS_HEAD : Fld := ⟨TL_SEQ_STATUS_OFF, 46, 32⟩
def TL_SEQ_STATUS_STATE : Fld := ⟨TL_SEQ_STATUS_OFF, 25, 24⟩
def TL_SEQ_STATUS_MAIN_WINDOW : Fld := ⟨TL_SEQ_STATUS_OFF, 21, 16⟩
def TL_SEQ_STATUS_HANDLER_WINDOW : Fld := ⟨TL_SEQ_STATUS_OFF, 15, 12⟩
def TL_SEQ_STATUS_HANDLER_ACTIVE : Fld := ⟨TL_SEQ_STATUS_OFF, 11, 11⟩
def TL_SEQ_STATUS_HOLD_REQ : Fld := ⟨TL_SEQ_STATUS_OFF, 10, 10⟩
def TL_SEQ_STATUS_HEAD_WAIT : Fld := ⟨TL_SEQ_STATUS_OFF, 9, 9⟩

-- TL_FAULT (R68)
def TL_FAULT_OFF : Nat := 0x10
def TL_FAULT_CLOSED_WRITE : Fld := ⟨TL_FAULT_OFF, 7, 7⟩
def TL_FAULT_SLOT_COLLISION : Fld := ⟨TL_FAULT_OFF, 6, 6⟩
def TL_FAULT_CREDIT_OVERRUN : Fld := ⟨TL_FAULT_OFF, 5, 5⟩
def TL_FAULT_BANK_RANGE : Fld := ⟨TL_FAULT_OFF, 4, 4⟩
def TL_FAULT_SP_RANGE : Fld := ⟨TL_FAULT_OFF, 3, 3⟩
def TL_FAULT_DESC_RANGE : Fld := ⟨TL_FAULT_OFF, 2, 2⟩
def TL_FAULT_TC_LIMIT : Fld := ⟨TL_FAULT_OFF, 1, 1⟩
def TL_FAULT_SLIP : Fld := ⟨TL_FAULT_OFF, 0, 0⟩

-- TL_FAULT_INFO (R68)
def TL_FAULT_INFO_OFF : Nat := 0x18
def TL_FAULT_INFO_CYCLE : Fld := ⟨TL_FAULT_INFO_OFF, 63, 40⟩
def TL_FAULT_INFO_COUNTER : Fld := ⟨TL_FAULT_INFO_OFF, 39, 32⟩
def TL_FAULT_INFO_STREAM : Fld := ⟨TL_FAULT_INFO_OFF, 28, 28⟩
def TL_FAULT_INFO_KIND : Fld := ⟨TL_FAULT_INFO_OFF, 27, 24⟩
def TL_FAULT_INFO_ADDRESS : Fld := ⟨TL_FAULT_INFO_OFF, 14, 0⟩

-- TL_TC_ADD (R68)
def TL_TC_ADD_OFF : Nat := 0x20
def TL_TC_ADD_COUNTER : Fld := ⟨TL_TC_ADD_OFF, 21, 16⟩
def TL_TC_ADD_INCREMENT : Fld := ⟨TL_TC_ADD_OFF, 15, 0⟩

-- TL_ISSUE_CNT (R68)
def TL_ISSUE_CNT_OFF : Nat := 0x28
def TL_ISSUE_CNT_HANDLER_ISSUED : Fld := ⟨TL_ISSUE_CNT_OFF, 63, 32⟩
def TL_ISSUE_CNT_MAIN_ISSUED : Fld := ⟨TL_ISSUE_CNT_OFF, 31, 0⟩

-- TL_TC (R68)
def TL_TC_OFF (n : Nat) : Nat := 0x100 + 0x8 * n
def TL_TC_ORPHANED (n : Nat) : Fld := ⟨(TL_TC_OFF n), 32, 32⟩
def TL_TC_VALUE (n : Nat) : Fld := ⟨(TL_TC_OFF n), 31, 0⟩

-- TL_MX_STATUS (R92)
def TL_MX_STATUS_OFF : Nat := 0x300
def TL_MX_STATUS_SAT_SEEN : Fld := ⟨TL_MX_STATUS_OFF, 15, 15⟩
def TL_MX_STATUS_NAN_SEEN : Fld := ⟨TL_MX_STATUS_OFF, 14, 14⟩
def TL_MX_STATUS_ACC_MXFP4 : Fld := ⟨TL_MX_STATUS_OFF, 13, 13⟩
def TL_MX_STATUS_STAGE1_FMT : Fld := ⟨TL_MX_STATUS_OFF, 11, 8⟩
def TL_MX_STATUS_STAGE0_FMT : Fld := ⟨TL_MX_STATUS_OFF, 7, 4⟩
def TL_MX_STATUS_STAGE1_STATE : Fld := ⟨TL_MX_STATUS_OFF, 3, 2⟩
def TL_MX_STATUS_STAGE0_STATE : Fld := ⟨TL_MX_STATUS_OFF, 1, 0⟩

-- TL_MX_STATS (R92)
def TL_MX_STATS_OFF : Nat := 0x308
def TL_MX_STATS_LOAD_WAIT : Fld := ⟨TL_MX_STATS_OFF, 63, 32⟩
def TL_MX_STATS_ROWS : Fld := ⟨TL_MX_STATS_OFF, 31, 0⟩

-- TL_VX_STATUS (R113)
def TL_VX_STATUS_OFF : Nat := 0x310
def TL_VX_STATUS_SAT_SEEN : Fld := ⟨TL_VX_STATUS_OFF, 15, 15⟩
def TL_VX_STATUS_INF_SEEN : Fld := ⟨TL_VX_STATUS_OFF, 14, 14⟩
def TL_VX_STATUS_NAN_SEEN : Fld := ⟨TL_VX_STATUS_OFF, 13, 13⟩
def TL_VX_STATUS_IN_FLIGHT : Fld := ⟨TL_VX_STATUS_OFF, 5, 0⟩

-- TL_VX_STATS (R113)
def TL_VX_STATS_OFF : Nat := 0x318
def TL_VX_STATS_INTERLOCK_WAIT : Fld := ⟨TL_VX_STATS_OFF, 63, 32⟩
def TL_VX_STATS_ROWS : Fld := ⟨TL_VX_STATS_OFF, 31, 0⟩

-- TL_VX_MASK (R113)
def TL_VX_MASK_OFF (m : Nat) : Nat := 0x380 + 0x8 * m
def TL_VX_MASK_MASK (m : Nat) : Fld := ⟨(TL_VX_MASK_OFF m), 63, 0⟩

-- TL_VX_REG (R113)
def TL_VX_REG_OFF (i : Nat) : Nat := 0x1000 + 0x8 * i
def TL_VX_REG_LANE_HI (i : Nat) : Fld := ⟨(TL_VX_REG_OFF i), 63, 32⟩
def TL_VX_REG_LANE_LO (i : Nat) : Fld := ⟨(TL_VX_REG_OFF i), 31, 0⟩

-- TL_SP_WINDOW (R201)
def TL_SP_WINDOW_OFF : Nat := 0x400
def TL_SP_WINDOW_HI_LINE : Fld := ⟨TL_SP_WINDOW_OFF, 27, 16⟩
def TL_SP_WINDOW_LO_LINE : Fld := ⟨TL_SP_WINDOW_OFF, 11, 0⟩

-- TL_SP_CTRL (R201)
def TL_SP_CTRL_OFF : Nat := 0x408
def TL_SP_CTRL_CLEAR_BUSY : Fld := ⟨TL_SP_CTRL_OFF, 1, 1⟩
def TL_SP_CTRL_CLEAR : Fld := ⟨TL_SP_CTRL_OFF, 0, 0⟩

-- TL_SP_ECC (R201)
def TL_SP_ECC_OFF : Nat := 0x410
def TL_SP_ECC_UE_COUNT : Fld := ⟨TL_SP_ECC_OFF, 63, 48⟩
def TL_SP_ECC_CE_COUNT : Fld := ⟨TL_SP_ECC_OFF, 31, 0⟩

-- TL_SP_ERRLOG (R201)
def TL_SP_ERRLOG_OFF : Nat := 0x418
def TL_SP_ERRLOG_VALID : Fld := ⟨TL_SP_ERRLOG_OFF, 63, 63⟩
def TL_SP_ERRLOG_UNCORR : Fld := ⟨TL_SP_ERRLOG_OFF, 62, 62⟩
def TL_SP_ERRLOG_PORT : Fld := ⟨TL_SP_ERRLOG_OFF, 61, 60⟩
def TL_SP_ERRLOG_SYNDROME : Fld := ⟨TL_SP_ERRLOG_OFF, 47, 40⟩
def TL_SP_ERRLOG_LINE : Fld := ⟨TL_SP_ERRLOG_OFF, 27, 16⟩
def TL_SP_ERRLOG_WORD : Fld := ⟨TL_SP_ERRLOG_OFF, 5, 0⟩

-- TL_SP_STALL (R201)
def TL_SP_STALL_OFF : Nat := 0x420
def TL_SP_STALL_WRITE_WAIT : Fld := ⟨TL_SP_STALL_OFF, 63, 32⟩
def TL_SP_STALL_READ_WAIT : Fld := ⟨TL_SP_STALL_OFF, 31, 0⟩

-- TL_SP_BANK (R201)
def TL_SP_BANK_OFF (n : Nat) : Nat := 0x440 + 0x8 * n
def TL_SP_BANK_USE (n : Nat) : Fld := ⟨(TL_SP_BANK_OFF n), 33, 32⟩
def TL_SP_BANK_HI_LINE (n : Nat) : Fld := ⟨(TL_SP_BANK_OFF n), 27, 16⟩
def TL_SP_BANK_LO_LINE (n : Nat) : Fld := ⟨(TL_SP_BANK_OFF n), 11, 0⟩

-- TL_TR_CTRL (R201)
def TL_TR_CTRL_OFF : Nat := 0x480
def TL_TR_CTRL_SCRUB_INTERVAL : Fld := ⟨TL_TR_CTRL_OFF, 31, 16⟩
def TL_TR_CTRL_CLEAR_BUSY : Fld := ⟨TL_TR_CTRL_OFF, 1, 1⟩
def TL_TR_CTRL_CLEAR : Fld := ⟨TL_TR_CTRL_OFF, 0, 0⟩

-- TL_TR_ECC (R201)
def TL_TR_ECC_OFF : Nat := 0x488
def TL_TR_ECC_UE_COUNT : Fld := ⟨TL_TR_ECC_OFF, 63, 48⟩
def TL_TR_ECC_PARITY_COUNT : Fld := ⟨TL_TR_ECC_OFF, 47, 32⟩
def TL_TR_ECC_CE_COUNT : Fld := ⟨TL_TR_ECC_OFF, 31, 0⟩

-- TL_TR_ERRLOG (R201)
def TL_TR_ERRLOG_OFF : Nat := 0x490
def TL_TR_ERRLOG_VALID : Fld := ⟨TL_TR_ERRLOG_OFF, 63, 63⟩
def TL_TR_ERRLOG_UNCORR : Fld := ⟨TL_TR_ERRLOG_OFF, 62, 62⟩
def TL_TR_ERRLOG_PARITY : Fld := ⟨TL_TR_ERRLOG_OFF, 61, 61⟩
def TL_TR_ERRLOG_SCRUB : Fld := ⟨TL_TR_ERRLOG_OFF, 60, 60⟩
def TL_TR_ERRLOG_SYNDROME : Fld := ⟨TL_TR_ERRLOG_OFF, 47, 40⟩
def TL_TR_ERRLOG_BEAT : Fld := ⟨TL_TR_ERRLOG_OFF, 20, 6⟩
def TL_TR_ERRLOG_WORD : Fld := ⟨TL_TR_ERRLOG_OFF, 5, 0⟩

-- TW_HANDLER (R223)
def TW_HANDLER_OFF : Nat := 0x600
def TW_HANDLER_ACTIVE : Fld := ⟨TW_HANDLER_OFF, 63, 63⟩
def TW_HANDLER_RCHAN : Fld := ⟨TW_HANDLER_OFF, 52, 48⟩
def TW_HANDLER_N : Fld := ⟨TW_HANDLER_OFF, 47, 32⟩
def TW_HANDLER_PAD : Fld := ⟨TW_HANDLER_OFF, 31, 16⟩
def TW_HANDLER_POS : Fld := ⟨TW_HANDLER_OFF, 14, 0⟩

-- TW_HQ (R223)
def TW_HQ_OFF : Nat := 0x608
def TW_HQ_DEPTH : Fld := ⟨TW_HQ_OFF, 38, 32⟩
def TW_HQ_QUEUED : Fld := ⟨TW_HQ_OFF, 31, 0⟩

-- TW_COLLISION (R223)
def TW_COLLISION_OFF : Nat := 0x610
def TW_COLLISION_VALID : Fld := ⟨TW_COLLISION_OFF, 63, 63⟩
def TW_COLLISION_SITE : Fld := ⟨TW_COLLISION_OFF, 51, 48⟩
def TW_COLLISION_CYCLE : Fld := ⟨TW_COLLISION_OFF, 23, 0⟩

-- TW_SEND_CFG (R223)
def TW_SEND_CFG_OFF (n : Nat) : Nat := 0x3000 + 0x40 * n
def TW_SEND_CFG_KIND (n : Nat) : Fld := ⟨(TW_SEND_CFG_OFF n), 63, 62⟩
def TW_SEND_CFG_REMOTE (n : Nat) : Fld := ⟨(TW_SEND_CFG_OFF n), 61, 61⟩
def TW_SEND_CFG_SCHED_OK (n : Nat) : Fld := ⟨(TW_SEND_CFG_OFF n), 60, 60⟩
def TW_SEND_CFG_PORT (n : Nat) : Fld := ⟨(TW_SEND_CFG_OFF n), 59, 56⟩
def TW_SEND_CFG_DEST_MODULE (n : Nat) : Fld := ⟨(TW_SEND_CFG_OFF n), 55, 44⟩
def TW_SEND_CFG_DEST_I (n : Nat) : Fld := ⟨(TW_SEND_CFG_OFF n), 43, 40⟩
def TW_SEND_CFG_DEST_J (n : Nat) : Fld := ⟨(TW_SEND_CFG_OFF n), 39, 36⟩
def TW_SEND_CFG_DEST_RCHAN (n : Nat) : Fld := ⟨(TW_SEND_CFG_OFF n), 35, 31⟩
def TW_SEND_CFG_SLOTS (n : Nat) : Fld := ⟨(TW_SEND_CFG_OFF n), 30, 15⟩
def TW_SEND_CFG_BASE (n : Nat) : Fld := ⟨(TW_SEND_CFG_OFF n), 14, 0⟩

-- TW_SEND_STATE (R223)
def TW_SEND_STATE_OFF (n : Nat) : Nat := 0x3008 + 0x40 * n
def TW_SEND_STATE_DEST_GEN (n : Nat) : Fld := ⟨(TW_SEND_STATE_OFF n), 63, 56⟩
def TW_SEND_STATE_CREDIT_CTR_EN (n : Nat) : Fld := ⟨(TW_SEND_STATE_OFF n), 55, 55⟩
def TW_SEND_STATE_CREDIT_CTR (n : Nat) : Fld := ⟨(TW_SEND_STATE_OFF n), 54, 49⟩
def TW_SEND_STATE_OPEN (n : Nat) : Fld := ⟨(TW_SEND_STATE_OFF n), 48, 48⟩
def TW_SEND_STATE_CREDITS (n : Nat) : Fld := ⟨(TW_SEND_STATE_OFF n), 47, 32⟩
def TW_SEND_STATE_REVOKED (n : Nat) : Fld := ⟨(TW_SEND_STATE_OFF n), 16, 16⟩
def TW_SEND_STATE_WPTR (n : Nat) : Fld := ⟨(TW_SEND_STATE_OFF n), 14, 0⟩

-- TW_SEND_CNT0 (R223)
def TW_SEND_CNT0_OFF (n : Nat) : Nat := 0x3010 + 0x40 * n
def TW_SEND_CNT0_CREDIT_STALLS (n : Nat) : Fld := ⟨(TW_SEND_CNT0_OFF n), 63, 32⟩
def TW_SEND_CNT0_MSGS (n : Nat) : Fld := ⟨(TW_SEND_CNT0_OFF n), 31, 0⟩

-- TW_SEND_CNT1 (R223)
def TW_SEND_CNT1_OFF (n : Nat) : Nat := 0x3018 + 0x40 * n
def TW_SEND_CNT1_PADS (n : Nat) : Fld := ⟨(TW_SEND_CNT1_OFF n), 63, 48⟩
def TW_SEND_CNT1_BYTES (n : Nat) : Fld := ⟨(TW_SEND_CNT1_OFF n), 47, 0⟩

-- TW_RECV_CFG (R223)
def TW_RECV_CFG_OFF (n : Nat) : Nat := 0x3800 + 0x40 * n
def TW_RECV_CFG_KIND (n : Nat) : Fld := ⟨(TW_RECV_CFG_OFF n), 63, 62⟩
def TW_RECV_CFG_REMOTE (n : Nat) : Fld := ⟨(TW_RECV_CFG_OFF n), 61, 61⟩
def TW_RECV_CFG_SRC_MODULE (n : Nat) : Fld := ⟨(TW_RECV_CFG_OFF n), 55, 44⟩
def TW_RECV_CFG_SRC_I (n : Nat) : Fld := ⟨(TW_RECV_CFG_OFF n), 43, 40⟩
def TW_RECV_CFG_SRC_J (n : Nat) : Fld := ⟨(TW_RECV_CFG_OFF n), 39, 36⟩
def TW_RECV_CFG_SRC_SCHAN (n : Nat) : Fld := ⟨(TW_RECV_CFG_OFF n), 35, 31⟩
def TW_RECV_CFG_SLOTS (n : Nat) : Fld := ⟨(TW_RECV_CFG_OFF n), 30, 15⟩
def TW_RECV_CFG_BASE (n : Nat) : Fld := ⟨(TW_RECV_CFG_OFF n), 14, 0⟩

-- TW_RECV_STATE (R223)
def TW_RECV_STATE_OFF (n : Nat) : Nat := 0x3808 + 0x40 * n
def TW_RECV_STATE_GEN (n : Nat) : Fld := ⟨(TW_RECV_STATE_OFF n), 63, 56⟩
def TW_RECV_STATE_OPEN (n : Nat) : Fld := ⟨(TW_RECV_STATE_OFF n), 48, 48⟩
def TW_RECV_STATE_RPTR (n : Nat) : Fld := ⟨(TW_RECV_STATE_OFF n), 14, 0⟩

-- TW_RECV_CNT0 (R223)
def TW_RECV_CNT0_OFF (n : Nat) : Nat := 0x3810 + 0x40 * n
def TW_RECV_CNT0_DROPPED_MSGS (n : Nat) : Fld := ⟨(TW_RECV_CNT0_OFF n), 63, 32⟩
def TW_RECV_CNT0_MSGS (n : Nat) : Fld := ⟨(TW_RECV_CNT0_OFF n), 31, 0⟩

-- TW_RECV_CNT1 (R223)
def TW_RECV_CNT1_OFF (n : Nat) : Nat := 0x3818 + 0x40 * n
def TW_RECV_CNT1_PADS (n : Nat) : Fld := ⟨(TW_RECV_CNT1_OFF n), 63, 48⟩
def TW_RECV_CNT1_BYTES (n : Nat) : Fld := ⟨(TW_RECV_CNT1_OFF n), 47, 0⟩

-- TW_RECV_CNT2 (R223)
def TW_RECV_CNT2_OFF (n : Nat) : Nat := 0x3820 + 0x40 * n
def TW_RECV_CNT2_DROPPED_BYTES (n : Nat) : Fld := ⟨(TW_RECV_CNT2_OFF n), 47, 0⟩

-- TL_FC (R334)
def TL_FC_OFF (n : Nat) : Nat := 0x700 + 0x8 * n
def TL_FC_VALID (n : Nat) : Fld := ⟨(TL_FC_OFF n), 63, 63⟩
def TL_FC_LINES (n : Nat) : Fld := ⟨(TL_FC_OFF n), 27, 16⟩
def TL_FC_LO_LINE (n : Nat) : Fld := ⟨(TL_FC_OFF n), 11, 0⟩

-- TL_FC_STATUS (R334)
def TL_FC_STATUS_OFF : Nat := 0x720
def TL_FC_STATUS_LANDING_MISMATCH : Fld := ⟨TL_FC_STATUS_OFF, 32, 32⟩
def TL_FC_STATUS_WRITE_HALF : Fld := ⟨TL_FC_STATUS_OFF, 0, 0⟩

-- TL_EPOCH (R334)
def TL_EPOCH_OFF : Nat := 0x728
def TL_EPOCH_ARM : Fld := ⟨TL_EPOCH_OFF, 63, 63⟩
def TL_EPOCH_FRAME : Fld := ⟨TL_EPOCH_OFF, 31, 0⟩

-- TL_RP_CTRL (R403)
def TL_RP_CTRL_OFF : Nat := 0x800
def TL_RP_CTRL_LOG_NEXT : Fld := ⟨TL_RP_CTRL_OFF, 13, 8⟩
def TL_RP_CTRL_MOVE_BUSY : Fld := ⟨TL_RP_CTRL_OFF, 1, 1⟩
def TL_RP_CTRL_MOVE_EAST : Fld := ⟨TL_RP_CTRL_OFF, 0, 0⟩

-- TL_RP_HEAD (R403)
def TL_RP_HEAD_OFF : Nat := 0x808
def TL_RP_HEAD_FRAME_HEAD : Fld := ⟨TL_RP_HEAD_OFF, 14, 0⟩

-- TL_TR_LOG_A (R403)
def TL_TR_LOG_A_OFF (n : Nat) : Nat := 0x900 + 0x10 * n
def TL_TR_LOG_A_VALID (n : Nat) : Fld := ⟨(TL_TR_LOG_A_OFF n), 63, 63⟩
def TL_TR_LOG_A_BEAT (n : Nat) : Fld := ⟨(TL_TR_LOG_A_OFF n), 62, 48⟩
def TL_TR_LOG_A_OY_ADDR (n : Nat) : Fld := ⟨(TL_TR_LOG_A_OFF n), 37, 0⟩

-- TL_TR_LOG_B (R403)
def TL_TR_LOG_B_OFF (n : Nat) : Nat := 0x908 + 0x10 * n
def TL_TR_LOG_B_FRAME (n : Nat) : Fld := ⟨(TL_TR_LOG_B_OFF n), 63, 32⟩
def TL_TR_LOG_B_LEN_M1 (n : Nat) : Fld := ⟨(TL_TR_LOG_B_OFF n), 14, 0⟩

-- FB_CTRL (R242)
def FB_CTRL_OFF (p : Nat) : Nat := 0x80000 + 0x1000 * p
def FB_CTRL_IN_MACHINE (p : Nat) : Fld := ⟨(FB_CTRL_OFF p), 16, 16⟩
def FB_CTRL_TEST_PATTERN (p : Nat) : Fld := ⟨(FB_CTRL_OFF p), 7, 4⟩
def FB_CTRL_FULL_ADAPT (p : Nat) : Fld := ⟨(FB_CTRL_OFF p), 3, 3⟩
def FB_CTRL_RETRAIN (p : Nat) : Fld := ⟨(FB_CTRL_OFF p), 2, 2⟩
def FB_CTRL_ENABLE (p : Nat) : Fld := ⟨(FB_CTRL_OFF p), 0, 0⟩

-- FB_STATUS (R242)
def FB_STATUS_OFF (p : Nat) : Nat := 0x80008 + 0x1000 * p
def FB_STATUS_PEER_MODULE (p : Nat) : Fld := ⟨(FB_STATUS_OFF p), 59, 48⟩
def FB_STATUS_PEER_PORT (p : Nat) : Fld := ⟨(FB_STATUS_OFF p), 47, 44⟩
def FB_STATUS_LANES_SIGNAL (p : Nat) : Fld := ⟨(FB_STATUS_OFF p), 31, 24⟩
def FB_STATUS_LANES_LOCKED (p : Nat) : Fld := ⟨(FB_STATUS_OFF p), 23, 16⟩
def FB_STATUS_PRESET_USED (p : Nat) : Fld := ⟨(FB_STATUS_OFF p), 7, 7⟩
def FB_STATUS_STATE (p : Nat) : Fld := ⟨(FB_STATUS_OFF p), 3, 0⟩

-- FB_LINK (R242)
def FB_LINK_OFF (p : Nat) : Nat := 0x80010 + 0x1000 * p
def FB_LINK_DELAY (p : Nat) : Fld := ⟨(FB_LINK_OFF p), 47, 32⟩
def FB_LINK_HP_DELAY (p : Nat) : Fld := ⟨(FB_LINK_OFF p), 31, 16⟩
def FB_LINK_SCHED_LAT (p : Nat) : Fld := ⟨(FB_LINK_OFF p), 15, 0⟩

-- FB_EVENT (R242)
def FB_EVENT_OFF (p : Nat) : Nat := 0x80018 + 0x1000 * p
def FB_EVENT_DELAY_EXCEEDED (p : Nat) : Fld := ⟨(FB_EVENT_OFF p), 6, 6⟩
def FB_EVENT_SLOT_REFUSED (p : Nat) : Fld := ⟨(FB_EVENT_OFF p), 5, 5⟩
def FB_EVENT_LATE_SCHED (p : Nat) : Fld := ⟨(FB_EVENT_OFF p), 4, 4⟩
def FB_EVENT_HP_LOST (p : Nat) : Fld := ⟨(FB_EVENT_OFF p), 3, 3⟩
def FB_EVENT_RETRY_LIMIT (p : Nat) : Fld := ⟨(FB_EVENT_OFF p), 2, 2⟩
def FB_EVENT_LINK_DOWN (p : Nat) : Fld := ⟨(FB_EVENT_OFF p), 1, 1⟩
def FB_EVENT_LOS (p : Nat) : Fld := ⟨(FB_EVENT_OFF p), 0, 0⟩

-- FB_ERR (R242)
def FB_ERR_OFF (p : Nat) : Nat := 0x80020 + 0x1000 * p
def FB_ERR_RETRIED (p : Nat) : Fld := ⟨(FB_ERR_OFF p), 63, 40⟩
def FB_ERR_HP_LOST (p : Nat) : Fld := ⟨(FB_ERR_OFF p), 39, 32⟩
def FB_ERR_UNROUTED (p : Nat) : Fld := ⟨(FB_ERR_OFF p), 31, 24⟩
def FB_ERR_FEC_CORRECTED (p : Nat) : Fld := ⟨(FB_ERR_OFF p), 23, 0⟩

-- FB_TRAFFIC_TX (R242)
def FB_TRAFFIC_TX_OFF (p : Nat) : Nat := 0x80028 + 0x1000 * p
def FB_TRAFFIC_TX_BULK_FLITS (p : Nat) : Fld := ⟨(FB_TRAFFIC_TX_OFF p), 63, 32⟩
def FB_TRAFFIC_TX_SCHED_FLITS (p : Nat) : Fld := ⟨(FB_TRAFFIC_TX_OFF p), 31, 0⟩

-- FB_TRAFFIC_RX (R242)
def FB_TRAFFIC_RX_OFF (p : Nat) : Nat := 0x80030 + 0x1000 * p
def FB_TRAFFIC_RX_BULK_FLITS (p : Nat) : Fld := ⟨(FB_TRAFFIC_RX_OFF p), 63, 32⟩
def FB_TRAFFIC_RX_SCHED_FLITS (p : Nat) : Fld := ⟨(FB_TRAFFIC_RX_OFF p), 31, 0⟩

-- FB_SLOTS (R242)
def FB_SLOTS_OFF (p : Nat) : Nat := 0x80038 + 0x1000 * p
def FB_SLOTS_CAPACITY (p : Nat) : Fld := ⟨(FB_SLOTS_OFF p), 47, 32⟩
def FB_SLOTS_SLOT_LEN (p : Nat) : Fld := ⟨(FB_SLOTS_OFF p), 23, 0⟩

-- FB_TREE (R242)
def FB_TREE_OFF : Nat := 0x90000
def FB_TREE_UP_PORT : Fld := ⟨FB_TREE_OFF, 35, 32⟩
def FB_TREE_ROOT : Fld := ⟨FB_TREE_OFF, 31, 31⟩
def FB_TREE_DOWN_MASK : Fld := ⟨FB_TREE_OFF, 15, 0⟩

-- LG_CTRL (R257)
def LG_CTRL_OFF : Nat := 0x0
def LG_CTRL_RUN : Fld := ⟨LG_CTRL_OFF, 0, 0⟩

-- LG_STATUS (R257)
def LG_STATUS_OFF : Nat := 0x8
def LG_STATUS_EVQ_DEPTH : Fld := ⟨LG_STATUS_OFF, 14, 8⟩
def LG_STATUS_EVQ_OVF : Fld := ⟨LG_STATUS_OFF, 2, 2⟩
def LG_STATUS_STATE : Fld := ⟨LG_STATUS_OFF, 1, 0⟩

-- LG_IRQ (R257)
def LG_IRQ_OFF : Nat := 0x10
def LG_IRQ_ENABLE : Fld := ⟨LG_IRQ_OFF, 20, 16⟩
def LG_IRQ_ERR : Fld := ⟨LG_IRQ_OFF, 4, 4⟩
def LG_IRQ_WARDEN : Fld := ⟨LG_IRQ_OFF, 3, 3⟩
def LG_IRQ_REPLAY : Fld := ⟨LG_IRQ_OFF, 2, 2⟩
def LG_IRQ_BSEVENT : Fld := ⟨LG_IRQ_OFF, 1, 1⟩
def LG_IRQ_WATCH : Fld := ⟨LG_IRQ_OFF, 0, 0⟩

-- LG_ERR (R257)
def LG_ERR_OFF : Nat := 0x18
def LG_ERR_VALID : Fld := ⟨LG_ERR_OFF, 63, 63⟩
def LG_ERR_KIND : Fld := ⟨LG_ERR_OFF, 62, 60⟩
def LG_ERR_ADDRESS : Fld := ⟨LG_ERR_OFF, 31, 0⟩

-- LG_FRAME (R257)
def LG_FRAME_OFF : Nat := 0x20
def LG_FRAME_REPLAY_FRAME : Fld := ⟨LG_FRAME_OFF, 63, 32⟩
def LG_FRAME_FRAME : Fld := ⟨LG_FRAME_OFF, 31, 0⟩

-- LG_BSEVENT (R257)
def LG_BSEVENT_OFF : Nat := 0x28
def LG_BSEVENT_VALID : Fld := ⟨LG_BSEVENT_OFF, 63, 63⟩
def LG_BSEVENT_KIND : Fld := ⟨LG_BSEVENT_OFF, 62, 60⟩
def LG_BSEVENT_COUNT : Fld := ⟨LG_BSEVENT_OFF, 59, 56⟩
def LG_BSEVENT_SLOT : Fld := ⟨LG_BSEVENT_OFF, 41, 32⟩
def LG_BSEVENT_FRAME : Fld := ⟨LG_BSEVENT_OFF, 31, 0⟩

-- LG_BSMASK_DONE (R257)
def LG_BSMASK_DONE_OFF : Nat := 0x30
def LG_BSMASK_DONE_SLOT : Fld := ⟨LG_BSMASK_DONE_OFF, 41, 32⟩
def LG_BSMASK_DONE_POSITIONS : Fld := ⟨LG_BSMASK_DONE_OFF, 8, 0⟩

-- LG_WATCH (R257)
def LG_WATCH_OFF (n : Nat) : Nat := 0x40 + 0x8 * n
def LG_WATCH_ARM (n : Nat) : Fld := ⟨(LG_WATCH_OFF n), 63, 63⟩
def LG_WATCH_FIRED (n : Nat) : Fld := ⟨(LG_WATCH_OFF n), 62, 62⟩
def LG_WATCH_BROKEN (n : Nat) : Fld := ⟨(LG_WATCH_OFF n), 61, 61⟩
def LG_WATCH_TILE (n : Nat) : Fld := ⟨(LG_WATCH_OFF n), 55, 52⟩
def LG_WATCH_COUNTER (n : Nat) : Fld := ⟨(LG_WATCH_OFF n), 51, 46⟩
def LG_WATCH_VALUE (n : Nat) : Fld := ⟨(LG_WATCH_OFF n), 31, 0⟩

-- OY_STATUS (R282)
def OY_STATUS_OFF : Nat := 0xE0000
def OY_STATUS_HOT1 : Fld := ⟨OY_STATUS_OFF, 7, 7⟩
def OY_STATUS_HOT0 : Fld := ⟨OY_STATUS_OFF, 6, 6⟩
def OY_STATUS_HOT_SEEN : Fld := ⟨OY_STATUS_OFF, 5, 5⟩
def OY_STATUS_SELF_REFRESH : Fld := ⟨OY_STATUS_OFF, 3, 3⟩
def OY_STATUS_KEY_VALID : Fld := ⟨OY_STATUS_OFF, 2, 2⟩
def OY_STATUS_READY1 : Fld := ⟨OY_STATUS_OFF, 1, 1⟩
def OY_STATUS_READY0 : Fld := ⟨OY_STATUS_OFF, 0, 0⟩

-- OY_ERRLOG (R282)
def OY_ERRLOG_OFF : Nat := 0xE0008
def OY_ERRLOG_VALID : Fld := ⟨OY_ERRLOG_OFF, 63, 63⟩
def OY_ERRLOG_KIND : Fld := ⟨OY_ERRLOG_OFF, 61, 60⟩
def OY_ERRLOG_GROUP : Fld := ⟨OY_ERRLOG_OFF, 59, 56⟩
def OY_ERRLOG_PSEUDO : Fld := ⟨OY_ERRLOG_OFF, 55, 53⟩
def OY_ERRLOG_LOCAL : Fld := ⟨OY_ERRLOG_OFF, 33, 0⟩

-- OY_PV_CFG (R282)
def OY_PV_CFG_OFF (p : Nat) : Nat := 0xE0100 + 0x8 * p
def OY_PV_CFG_VALID (p : Nat) : Fld := ⟨(OY_PV_CFG_OFF p), 63, 63⟩
def OY_PV_CFG_QUOTA (p : Nat) : Fld := ⟨(OY_PV_CFG_OFF p), 36, 32⟩
def OY_PV_CFG_WIN_EXTENTS (p : Nat) : Fld := ⟨(OY_PV_CFG_OFF p), 31, 24⟩
def OY_PV_CFG_WIN_FIRST (p : Nat) : Fld := ⟨(OY_PV_CFG_OFF p), 23, 16⟩
def OY_PV_CFG_GROUPS (p : Nat) : Fld := ⟨(OY_PV_CFG_OFF p), 15, 0⟩

-- OY_PV_COMMIT (R282)
def OY_PV_COMMIT_OFF (p : Nat) : Nat := 0xE0140 + 0x8 * p
def OY_PV_COMMIT_PEAK (p : Nat) : Fld := ⟨(OY_PV_COMMIT_OFF p), 49, 32⟩
def OY_PV_COMMIT_ROOM_WAITS (p : Nat) : Fld := ⟨(OY_PV_COMMIT_OFF p), 31, 18⟩
def OY_PV_COMMIT_USED (p : Nat) : Fld := ⟨(OY_PV_COMMIT_OFF p), 17, 0⟩

-- OY_GROUP_ECC (R282)
def OY_GROUP_ECC_OFF (g : Nat) : Nat := 0xE0200 + 0x8 * g
def OY_GROUP_ECC_UE_COUNT (g : Nat) : Fld := ⟨(OY_GROUP_ECC_OFF g), 63, 48⟩
def OY_GROUP_ECC_PPR_ROWS (g : Nat) : Fld := ⟨(OY_GROUP_ECC_OFF g), 47, 32⟩
def OY_GROUP_ECC_CE_COUNT (g : Nat) : Fld := ⟨(OY_GROUP_ECC_OFF g), 31, 0⟩

-- IH_PV_STATS (R282)
def IH_PV_STATS_OFF (p : Nat) : Nat := 0xF0000 + 0x8 * p
def IH_PV_STATS_HIT_BLOCKS (p : Nat) : Fld := ⟨(IH_PV_STATS_OFF p), 63, 32⟩
def IH_PV_STATS_LOOKUP_BLOCKS (p : Nat) : Fld := ⟨(IH_PV_STATS_OFF p), 31, 0⟩

-- IH_SALT_CFG (R282)
def IH_SALT_CFG_OFF (n : Nat) : Nat := 0xF0100 + 0x40 * n
def IH_SALT_CFG_VALID (n : Nat) : Fld := ⟨(IH_SALT_CFG_OFF n), 63, 63⟩
def IH_SALT_CFG_PAVILION (n : Nat) : Fld := ⟨(IH_SALT_CFG_OFF n), 9, 8⟩

-- IH_SALT_KEY0 (R282)
def IH_SALT_KEY0_OFF (n : Nat) : Nat := 0xF0108 + 0x40 * n
def IH_SALT_KEY0_SALT (n : Nat) : Fld := ⟨(IH_SALT_KEY0_OFF n), 63, 0⟩

-- IH_SALT_KEY1 (R282)
def IH_SALT_KEY1_OFF (n : Nat) : Nat := 0xF0110 + 0x40 * n
def IH_SALT_KEY1_SALT (n : Nat) : Fld := ⟨(IH_SALT_KEY1_OFF n), 63, 0⟩

-- IH_SALT_KEY2 (R282)
def IH_SALT_KEY2_OFF (n : Nat) : Nat := 0xF0118 + 0x40 * n
def IH_SALT_KEY2_SALT (n : Nat) : Fld := ⟨(IH_SALT_KEY2_OFF n), 63, 0⟩

-- IH_SALT_KEY3 (R282)
def IH_SALT_KEY3_OFF (n : Nat) : Nat := 0xF0120 + 0x40 * n
def IH_SALT_KEY3_SALT (n : Nat) : Fld := ⟨(IH_SALT_KEY3_OFF n), 63, 0⟩

-- BS_STATUS (R307)
def BS_STATUS_OFF : Nat := 0x100000
def BS_STATUS_DISCARD_SEEN : Fld := ⟨BS_STATUS_OFF, 63, 63⟩
def BS_STATUS_NAN_SEEN : Fld := ⟨BS_STATUS_OFF, 62, 62⟩
def BS_STATUS_ROWS_FREE : Fld := ⟨BS_STATUS_OFF, 43, 32⟩
def BS_STATUS_STAGED : Fld := ⟨BS_STATUS_OFF, 24, 0⟩

-- BS_STATS (R307)
def BS_STATS_OFF : Nat := 0x100008
def BS_STATS_DISCARDED : Fld := ⟨BS_STATS_OFF, 63, 32⟩
def BS_STATS_COMMITS : Fld := ⟨BS_STATS_OFF, 31, 0⟩

-- BS_SLOT_CFG (R307)
def BS_SLOT_CFG_OFF (n : Nat) : Nat := 0x110000 + 0x40 * n
def BS_SLOT_CFG_OPEN (n : Nat) : Fld := ⟨(BS_SLOT_CFG_OFF n), 63, 63⟩
def BS_SLOT_CFG_MODE (n : Nat) : Fld := ⟨(BS_SLOT_CFG_OFF n), 62, 62⟩
def BS_SLOT_CFG_CONSTRAINED (n : Nat) : Fld := ⟨(BS_SLOT_CFG_OFF n), 61, 61⟩
def BS_SLOT_CFG_GREEDY (n : Nat) : Fld := ⟨(BS_SLOT_CFG_OFF n), 60, 60⟩
def BS_SLOT_CFG_DEPTH (n : Nat) : Fld := ⟨(BS_SLOT_CFG_OFF n), 59, 56⟩
def BS_SLOT_CFG_PAVILION (n : Nat) : Fld := ⟨(BS_SLOT_CFG_OFF n), 55, 54⟩
def BS_SLOT_CFG_MASK_CORE (n : Nat) : Fld := ⟨(BS_SLOT_CFG_OFF n), 53, 50⟩
def BS_SLOT_CFG_RESULT_I (n : Nat) : Fld := ⟨(BS_SLOT_CFG_OFF n), 49, 46⟩
def BS_SLOT_CFG_RESULT_J (n : Nat) : Fld := ⟨(BS_SLOT_CFG_OFF n), 45, 42⟩
def BS_SLOT_CFG_RESULT_CTR (n : Nat) : Fld := ⟨(BS_SLOT_CFG_OFF n), 41, 36⟩
def BS_SLOT_CFG_RESULT_REC (n : Nat) : Fld := ⟨(BS_SLOT_CFG_OFF n), 35, 21⟩
def BS_SLOT_CFG_VOCAB (n : Nat) : Fld := ⟨(BS_SLOT_CFG_OFF n), 18, 0⟩

-- BS_SLOT_PARAM0 (R307)
def BS_SLOT_PARAM0_OFF (n : Nat) : Nat := 0x110008 + 0x40 * n
def BS_SLOT_PARAM0_TOP_P (n : Nat) : Fld := ⟨(BS_SLOT_PARAM0_OFF n), 63, 32⟩
def BS_SLOT_PARAM0_SCALE (n : Nat) : Fld := ⟨(BS_SLOT_PARAM0_OFF n), 31, 0⟩

-- BS_SLOT_PARAM1 (R307)
def BS_SLOT_PARAM1_OFF (n : Nat) : Nat := 0x110010 + 0x40 * n
def BS_SLOT_PARAM1_REP_PENALTY (n : Nat) : Fld := ⟨(BS_SLOT_PARAM1_OFF n), 63, 32⟩
def BS_SLOT_PARAM1_PRESENCE (n : Nat) : Fld := ⟨(BS_SLOT_PARAM1_OFF n), 31, 0⟩

-- BS_SLOT_PARAM2 (R307)
def BS_SLOT_PARAM2_OFF (n : Nat) : Nat := 0x110018 + 0x40 * n
def BS_SLOT_PARAM2_TOP_K (n : Nat) : Fld := ⟨(BS_SLOT_PARAM2_OFF n), 42, 32⟩
def BS_SLOT_PARAM2_MIN_P (n : Nat) : Fld := ⟨(BS_SLOT_PARAM2_OFF n), 31, 0⟩

-- BS_SLOT_STOP (R307)
def BS_SLOT_STOP_OFF (n : Nat) : Nat := 0x110020 + 0x40 * n
def BS_SLOT_STOP_STOP (n : Nat) : Fld := ⟨(BS_SLOT_STOP_OFF n), 63, 0⟩

-- BS_SLOT_SEED (R307)
def BS_SLOT_SEED_OFF (n : Nat) : Nat := 0x110028 + 0x40 * n
def BS_SLOT_SEED_SEED (n : Nat) : Fld := ⟨(BS_SLOT_SEED_OFF n), 63, 0⟩

-- BS_SLOT_STATE (R307)
def BS_SLOT_STATE_OFF (n : Nat) : Nat := 0x110030 + 0x40 * n
def BS_SLOT_STATE_STEP (n : Nat) : Fld := ⟨(BS_SLOT_STATE_OFF n), 63, 32⟩
def BS_SLOT_STATE_PHASE (n : Nat) : Fld := ⟨(BS_SLOT_STATE_OFF n), 17, 16⟩
def BS_SLOT_STATE_MASK_DONE (n : Nat) : Fld := ⟨(BS_SLOT_STATE_OFF n), 8, 0⟩

-- TS_AGE (R308)
def TS_AGE_OFF : Nat := 0x120000
def TS_AGE_AGE3 : Fld := ⟨TS_AGE_OFF, 47, 32⟩
def TS_AGE_AGE2 : Fld := ⟨TS_AGE_OFF, 31, 16⟩
def TS_AGE_AGE1 : Fld := ⟨TS_AGE_OFF, 15, 0⟩

-- TS_TENANT_CFG (R308)
def TS_TENANT_CFG_OFF (n : Nat) : Nat := 0x130000 + 0x20 * n
def TS_TENANT_CFG_VALID (n : Nat) : Fld := ⟨(TS_TENANT_CFG_OFF n), 63, 63⟩
def TS_TENANT_CFG_CLASS (n : Nat) : Fld := ⟨(TS_TENANT_CFG_OFF n), 62, 61⟩
def TS_TENANT_CFG_PAVILION (n : Nat) : Fld := ⟨(TS_TENANT_CFG_OFF n), 57, 56⟩
def TS_TENANT_CFG_GROUP_VALID (n : Nat) : Fld := ⟨(TS_TENANT_CFG_OFF n), 55, 55⟩
def TS_TENANT_CFG_SALT (n : Nat) : Fld := ⟨(TS_TENANT_CFG_OFF n), 53, 48⟩
def TS_TENANT_CFG_BURST_CAP (n : Nat) : Fld := ⟨(TS_TENANT_CFG_OFF n), 47, 0⟩

-- TS_TENANT_RATE (R308)
def TS_TENANT_RATE_OFF (n : Nat) : Nat := 0x130008 + 0x20 * n
def TS_TENANT_RATE_REFILL (n : Nat) : Fld := ⟨(TS_TENANT_RATE_OFF n), 31, 0⟩

-- TS_TENANT_BUDGET (R308)
def TS_TENANT_BUDGET_OFF (n : Nat) : Nat := 0x130010 + 0x20 * n
def TS_TENANT_BUDGET_BUDGET (n : Nat) : Fld := ⟨(TS_TENANT_BUDGET_OFF n), 47, 0⟩

-- TS_TENANT_COUNT (R308)
def TS_TENANT_COUNT_OFF (n : Nat) : Nat := 0x130018 + 0x20 * n
def TS_TENANT_COUNT_EMITTED (n : Nat) : Fld := ⟨(TS_TENANT_COUNT_OFF n), 63, 32⟩
def TS_TENANT_COUNT_PROMPT (n : Nat) : Fld := ⟨(TS_TENANT_COUNT_OFF n), 31, 0⟩

-- MB_CMD (R354)
def MB_CMD_OFF : Nat := 0x0
def MB_CMD_TOKEN : Fld := ⟨MB_CMD_OFF, 31, 16⟩
def MB_CMD_PV : Fld := ⟨MB_CMD_OFF, 9, 8⟩
def MB_CMD_OPCODE : Fld := ⟨MB_CMD_OFF, 7, 0⟩

-- MB_DOORBELL (R354)
def MB_DOORBELL_OFF : Nat := 0x8
def MB_DOORBELL_GO : Fld := ⟨MB_DOORBELL_OFF, 0, 0⟩

-- MB_STATUS (R354)
def MB_STATUS_OFF : Nat := 0x10
def MB_STATUS_TOKEN : Fld := ⟨MB_STATUS_OFF, 63, 48⟩
def MB_STATUS_PHASE : Fld := ⟨MB_STATUS_OFF, 42, 40⟩
def MB_STATUS_DETAIL : Fld := ⟨MB_STATUS_OFF, 39, 24⟩
def MB_STATUS_TICKET : Fld := ⟨MB_STATUS_OFF, 23, 16⟩
def MB_STATUS_STATUS : Fld := ⟨MB_STATUS_OFF, 15, 8⟩
def MB_STATUS_DOORBELL_LOST : Fld := ⟨MB_STATUS_OFF, 2, 2⟩
def MB_STATUS_DONE : Fld := ⟨MB_STATUS_OFF, 1, 1⟩
def MB_STATUS_BUSY : Fld := ⟨MB_STATUS_OFF, 0, 0⟩

-- MB_ASYNC (R354)
def MB_ASYNC_OFF : Nat := 0x18
def MB_ASYNC_VALID : Fld := ⟨MB_ASYNC_OFF, 63, 63⟩
def MB_ASYNC_OPCODE : Fld := ⟨MB_ASYNC_OFF, 55, 48⟩
def MB_ASYNC_TICKET : Fld := ⟨MB_ASYNC_OFF, 47, 40⟩
def MB_ASYNC_STATUS : Fld := ⟨MB_ASYNC_OFF, 39, 32⟩
def MB_ASYNC_DETAIL : Fld := ⟨MB_ASYNC_OFF, 31, 16⟩
def MB_ASYNC_VALUE : Fld := ⟨MB_ASYNC_OFF, 15, 0⟩

-- MB_EVENT (R354)
def MB_EVENT_OFF : Nat := 0x20
def MB_EVENT_MARGIN : Fld := ⟨MB_EVENT_OFF, 6, 6⟩
def MB_EVENT_ALIGN_LOST : Fld := ⟨MB_EVENT_OFF, 5, 5⟩
def MB_EVENT_RING_ERROR : Fld := ⟨MB_EVENT_OFF, 4, 4⟩
def MB_EVENT_CPL_WAIT : Fld := ⟨MB_EVENT_OFF, 3, 3⟩
def MB_EVENT_FAULT : Fld := ⟨MB_EVENT_OFF, 2, 2⟩
def MB_EVENT_STATE : Fld := ⟨MB_EVENT_OFF, 1, 1⟩
def MB_EVENT_ASYNC : Fld := ⟨MB_EVENT_OFF, 0, 0⟩

-- MB_FLAG_CNT0 (R433)
def MB_FLAG_CNT0_OFF : Nat := 0x28
def MB_FLAG_CNT0_CPL_WAIT : Fld := ⟨MB_FLAG_CNT0_OFF, 63, 48⟩
def MB_FLAG_CNT0_FAULT : Fld := ⟨MB_FLAG_CNT0_OFF, 47, 32⟩
def MB_FLAG_CNT0_STATE : Fld := ⟨MB_FLAG_CNT0_OFF, 31, 16⟩
def MB_FLAG_CNT0_ASYNC : Fld := ⟨MB_FLAG_CNT0_OFF, 15, 0⟩

-- MB_FLAG_CNT1 (R433)
def MB_FLAG_CNT1_OFF : Nat := 0x30
def MB_FLAG_CNT1_DOORBELL_LOST : Fld := ⟨MB_FLAG_CNT1_OFF, 63, 48⟩
def MB_FLAG_CNT1_MARGIN : Fld := ⟨MB_FLAG_CNT1_OFF, 47, 32⟩
def MB_FLAG_CNT1_ALIGN_LOST : Fld := ⟨MB_FLAG_CNT1_OFF, 31, 16⟩
def MB_FLAG_CNT1_RING_ERROR : Fld := ⟨MB_FLAG_CNT1_OFF, 15, 0⟩

-- RG_CFG (R402)
def RG_CFG_OFF : Nat := 0x6000
def RG_CFG_REACH : Fld := ⟨RG_CFG_OFF, 23, 0⟩

-- RG_STATUS (R402)
def RG_STATUS_OFF : Nat := 0x6008
def RG_STATUS_LOST_CLUSTERS : Fld := ⟨RG_STATUS_OFF, 63, 48⟩
def RG_STATUS_RANGER_SEEN : Fld := ⟨RG_STATUS_OFF, 47, 47⟩
def RG_STATUS_LASTING_SEEN : Fld := ⟨RG_STATUS_OFF, 46, 46⟩
def RG_STATUS_REPLAY_SEEN : Fld := ⟨RG_STATUS_OFF, 45, 45⟩
def RG_STATUS_ORPHAN_SEEN : Fld := ⟨RG_STATUS_OFF, 44, 44⟩
def RG_STATUS_LAST_CAUSE : Fld := ⟨RG_STATUS_OFF, 43, 40⟩
def RG_STATUS_RANGER_FIRES : Fld := ⟨RG_STATUS_OFF, 31, 0⟩

-- RG_REPLAY (R402)
def RG_REPLAY_OFF : Nat := 0x6010
def RG_REPLAY_REPLAYS : Fld := ⟨RG_REPLAY_OFF, 63, 32⟩
def RG_REPLAY_LASTING : Fld := ⟨RG_REPLAY_OFF, 31, 16⟩
def RG_REPLAY_REPAIRS : Fld := ⟨RG_REPLAY_OFF, 15, 0⟩

-- RG_LAST_REPLAY (R402)
def RG_LAST_REPLAY_OFF : Nat := 0x6018
def RG_LAST_REPLAY_KIND : Fld := ⟨RG_LAST_REPLAY_OFF, 63, 61⟩
def RG_LAST_REPLAY_LASTING : Fld := ⟨RG_LAST_REPLAY_OFF, 60, 60⟩
def RG_LAST_REPLAY_PLACE : Fld := ⟨RG_LAST_REPLAY_OFF, 59, 56⟩
def RG_LAST_REPLAY_COLUMN : Fld := ⟨RG_LAST_REPLAY_OFF, 55, 51⟩
def RG_LAST_REPLAY_ADDRESS : Fld := ⟨RG_LAST_REPLAY_OFF, 47, 24⟩
def RG_LAST_REPLAY_CYCLE : Fld := ⟨RG_LAST_REPLAY_OFF, 23, 0⟩

-- SH_STATUS (R414)
def SH_STATUS_OFF : Nat := 0x5000
def SH_STATUS_UE_SEEN : Fld := ⟨SH_STATUS_OFF, 7, 7⟩
def SH_STATUS_REFUSED_SEEN : Fld := ⟨SH_STATUS_OFF, 6, 6⟩
def SH_STATUS_BUSY : Fld := ⟨SH_STATUS_OFF, 5, 5⟩
def SH_STATUS_QUEUED : Fld := ⟨SH_STATUS_OFF, 4, 0⟩

-- SH_WORD (R414)
def SH_WORD_OFF (n : Nat) : Nat := 0x20000 + 0x8 * n
def SH_WORD_VALUE (n : Nat) : Fld := ⟨(SH_WORD_OFF n), 63, 0⟩

-- SH_WEAR (R414)
def SH_WEAR_OFF (n : Nat) : Nat := 0x30000 + 0x8 * n
def SH_WEAR_COUNT (n : Nat) : Fld := ⟨(SH_WEAR_OFF n), 16, 0⟩

-- WV_CFG (R415)
def WV_CFG_OFF : Nat := 0x7000
def WV_CFG_PLAN_HOURS : Fld := ⟨WV_CFG_OFF, 31, 16⟩
def WV_CFG_GUARD : Fld := ⟨WV_CFG_OFF, 9, 0⟩

-- WV_STATUS (R415)
def WV_STATUS_OFF : Nat := 0x7008
def WV_STATUS_NEXT_PLAN : Fld := ⟨WV_STATUS_OFF, 63, 32⟩
def WV_STATUS_REGIONS_OUT : Fld := ⟨WV_STATUS_OFF, 31, 24⟩
def WV_STATUS_REC_BIN : Fld := ⟨WV_STATUS_OFF, 11, 9⟩
def WV_STATUS_END_OF_MARGIN : Fld := ⟨WV_STATUS_OFF, 8, 8⟩
def WV_STATUS_PLAN_BUSY : Fld := ⟨WV_STATUS_OFF, 0, 0⟩

-- WV_REGION (R415)
def WV_REGION_OFF (g : Nat) : Nat := 0x7100 + 0x8 * g
def WV_REGION_RO_COUNT (g : Nat) : Fld := ⟨(WV_REGION_OFF g), 63, 32⟩
def WV_REGION_STEPS (g : Nat) : Fld := ⟨(WV_REGION_OFF g), 20, 16⟩
def WV_REGION_MIN_MARGIN (g : Nat) : Fld := ⟨(WV_REGION_OFF g), 11, 0⟩

-- WV_MON (R415)
def WV_MON_OFF (m : Nat) : Nat := 0x9000 + 0x8 * m
def WV_MON_LAST (m : Nat) : Fld := ⟨(WV_MON_OFF m), 27, 16⟩
def WV_MON_MIN (m : Nat) : Fld := ⟨(WV_MON_OFF m), 11, 0⟩

-- PV_HOST (R432)
def PV_HOST_OFF : Nat := 0x8000
def PV_HOST_SPLIT : Fld := ⟨PV_HOST_OFF, 8, 8⟩
def PV_HOST_PORT1_UP : Fld := ⟨PV_HOST_OFF, 1, 1⟩
def PV_HOST_PORT0_UP : Fld := ⟨PV_HOST_OFF, 0, 0⟩

-- PV_CFG (R432)
def PV_CFG_OFF (p : Nat) : Nat := 0x8100 + 0x10 * p
def PV_CFG_STATE (p : Nat) : Fld := ⟨(PV_CFG_OFF p), 63, 60⟩
def PV_CFG_PORT (p : Nat) : Fld := ⟨(PV_CFG_OFF p), 59, 59⟩
def PV_CFG_VF (p : Nat) : Fld := ⟨(PV_CFG_OFF p), 58, 54⟩
def PV_CFG_GROUPS (p : Nat) : Fld := ⟨(PV_CFG_OFF p), 31, 16⟩
def PV_CFG_CLUSTERS (p : Nat) : Fld := ⟨(PV_CFG_OFF p), 15, 0⟩

-- PV_TENANT (R432)
def PV_TENANT_OFF (p : Nat) : Nat := 0x8108 + 0x10 * p
def PV_TENANT_COUNT (p : Nat) : Fld := ⟨(PV_TENANT_OFF p), 24, 12⟩
def PV_TENANT_FIRST (p : Nat) : Fld := ⟨(PV_TENANT_OFF p), 11, 0⟩

def MB_ARG_OFF (w : Nat) : Nat := 0x100 + 0x8 * w

def MB_RES_OFF (w : Nat) : Nat := 0x200 + 0x8 * w

def FB_ROUTE_OFF (w : Nat) : Nat := 0x91000 + 0x8 * w

/-- Entry `e` of FB_ROUTEw (R242): VALID and PORT of module `8 w + e`. -/
def FB_ROUTE_VALID (m : Nat) : Fld := ⟨FB_ROUTE_OFF (m / 8), 8 * (m % 8) + 7, 8 * (m % 8) + 7⟩
def FB_ROUTE_PORT (m : Nat) : Fld := ⟨FB_ROUTE_OFF (m / 8), 8 * (m % 8) + 3, 8 * (m % 8)⟩

/-- The nonzero Reset values of BAR0. -/
def resetsState : List RegRow := [
  ⟨0x4030, 0x0, 1, 0xFFFFFF⟩,
  ⟨0x80010, 0x1000, 16, 0x100⟩,
  ⟨0x120000, 0x0, 1, 0x7D007D007D0⟩,
  ⟨0x130000, 0x20, 4096, 0x6000000000000000⟩,
  ⟨0x7000, 0x0, 1, 0x1F40050⟩,
  ⟨0x7100, 0x8, 8, 0x7FF⟩,
  ⟨0x9000, 0x8, 544, 0x7FF⟩]

/-- The RW bits of BAR0 (R9). -/
def rwState : List RegRow := [
  ⟨0x4030, 0x0, 1, 0xFFFFFF⟩  /- SD_SLACK_MIN -/,
  ⟨0x80000, 0x1000, 16, 0x100F1⟩  /- FB_CTRL -/,
  ⟨0x80010, 0x1000, 16, 0xFFFF⟩  /- FB_LINK -/,
  ⟨0x90000, 0x0, 1, 0xF8000FFFF⟩  /- FB_TREE -/,
  ⟨0x91000, 0x8, 512, 0x8F8F8F8F8F8F8F8F⟩  /- FB_ROUTE -/,
  ⟨0xE0100, 0x8, 4, 0x8000001FFFFFFFFF⟩  /- OY_PV_CFG -/,
  ⟨0xE0140, 0x8, 4, 0x3FFFF00000000⟩  /- OY_PV_COMMIT -/,
  ⟨0xF0100, 0x40, 64, 0x8000000000000300⟩  /- IH_SALT_CFG -/,
  ⟨0x110000, 0x40, 1024, 0xFFFFFFFFFFE7FFFF⟩  /- BS_SLOT_CFG -/,
  ⟨0x110008, 0x40, 1024, 0xFFFFFFFFFFFFFFFF⟩  /- BS_SLOT_PARAM0 -/,
  ⟨0x110010, 0x40, 1024, 0xFFFFFFFFFFFFFFFF⟩  /- BS_SLOT_PARAM1 -/,
  ⟨0x110018, 0x40, 1024, 0x7FFFFFFFFFF⟩  /- BS_SLOT_PARAM2 -/,
  ⟨0x110020, 0x40, 1024, 0xFFFFFFFFFFFFFFFF⟩  /- BS_SLOT_STOP -/,
  ⟨0x110028, 0x40, 1024, 0xFFFFFFFFFFFFFFFF⟩  /- BS_SLOT_SEED -/,
  ⟨0x120000, 0x0, 1, 0xFFFFFFFFFFFF⟩  /- TS_AGE -/,
  ⟨0x130000, 0x20, 4096, 0xE3BFFFFFFFFFFFFF⟩  /- TS_TENANT_CFG -/,
  ⟨0x130008, 0x20, 4096, 0xFFFFFFFF⟩  /- TS_TENANT_RATE -/,
  ⟨0x130010, 0x20, 4096, 0xFFFFFFFFFFFF⟩  /- TS_TENANT_BUDGET -/,
  ⟨0x7000, 0x0, 1, 0xFFFF03FF⟩  /- WV_CFG -/]

/-- The W1C bits of BAR0 (R9). -/
def w1cState : List RegRow := [
  ⟨0x4010, 0x0, 1, 0xF0⟩  /- SD_STATUS -/,
  ⟨0x80018, 0x1000, 16, 0x7F⟩  /- FB_EVENT -/,
  ⟨0xE0000, 0x0, 1, 0x20⟩  /- OY_STATUS -/,
  ⟨0xE0008, 0x0, 1, 0x8000000000000000⟩  /- OY_ERRLOG -/,
  ⟨0x100000, 0x0, 1, 0xC000000000000000⟩  /- BS_STATUS -/,
  ⟨0x6008, 0x0, 1, 0xF00000000000⟩  /- RG_STATUS -/,
  ⟨0x5000, 0x0, 1, 0xC0⟩  /- SH_STATUS -/,
  ⟨0x7008, 0x0, 1, 0x100⟩  /- WV_STATUS -/]

/-- The nonzero Reset values of the tile window. -/
def resetsTile : List RegRow := [
  ⟨0x18, 0x0, 1, 0xFF00000000⟩,
  ⟨0x400, 0x0, 1, 0xFFF0000⟩,
  ⟨0x480, 0x0, 1, 0x1000000⟩]

/-- The RW bits of the tile window (R9). -/
def rwTile : List RegRow := [
  ⟨0x0, 0x0, 1, 0xF00017FFF⟩  /- TL_SEQ_CONFIG -/,
  ⟨0x400, 0x0, 1, 0xFFF0FFF⟩  /- TL_SP_WINDOW -/,
  ⟨0x440, 0x8, 4, 0x30FFF0FFF⟩  /- TL_SP_BANK -/,
  ⟨0x480, 0x0, 1, 0xFFFF0000⟩  /- TL_TR_CTRL -/,
  ⟨0x3000, 0x40, 32, 0xFFFFFFFFFFFFFFFF⟩  /- TW_SEND_CFG -/,
  ⟨0x3008, 0x40, 32, 0xFFFFFFFF00007FFF⟩  /- TW_SEND_STATE -/,
  ⟨0x3800, 0x40, 32, 0xE0FFFFFFFFFFFFFF⟩  /- TW_RECV_CFG -/,
  ⟨0x3808, 0x40, 32, 0xFF01000000000000⟩  /- TW_RECV_STATE -/,
  ⟨0x700, 0x8, 4, 0x800000000FFF0FFF⟩  /- TL_FC -/,
  ⟨0x728, 0x0, 1, 0x80000000FFFFFFFF⟩  /- TL_EPOCH -/]

/-- The W1C bits of the tile window (R9). -/
def w1cTile : List RegRow := [
  ⟨0x10, 0x0, 1, 0xFF⟩  /- TL_FAULT -/,
  ⟨0x300, 0x0, 1, 0xC000⟩  /- TL_MX_STATUS -/,
  ⟨0x310, 0x0, 1, 0xE000⟩  /- TL_VX_STATUS -/,
  ⟨0x418, 0x0, 1, 0x8000000000000000⟩  /- TL_SP_ERRLOG -/,
  ⟨0x490, 0x0, 1, 0x8000000000000000⟩  /- TL_TR_ERRLOG -/,
  ⟨0x610, 0x0, 1, 0x8000000000000000⟩  /- TW_COLLISION -/,
  ⟨0x3008, 0x40, 32, 0x10000⟩  /- TW_SEND_STATE -/,
  ⟨0x720, 0x0, 1, 0x100000000⟩  /- TL_FC_STATUS -/]

/-- The nonzero Reset values of the Lodge window. -/
def resetsLodge : List RegRow := [
]

/-- The RW bits of the Lodge window (R9). -/
def rwLodge : List RegRow := [
  ⟨0x0, 0x0, 1, 0x1⟩  /- LG_CTRL -/,
  ⟨0x10, 0x0, 1, 0x1F0000⟩  /- LG_IRQ -/,
  ⟨0x40, 0x8, 8, 0x80FFC000FFFFFFFF⟩  /- LG_WATCH -/]

/-- The W1C bits of the Lodge window (R9). -/
def w1cLodge : List RegRow := [
  ⟨0x8, 0x0, 1, 0x4⟩  /- LG_STATUS -/,
  ⟨0x10, 0x0, 1, 0xC⟩  /- LG_IRQ -/,
  ⟨0x18, 0x0, 1, 0x8000000000000000⟩  /- LG_ERR -/,
  ⟨0x40, 0x8, 8, 0x4000000000000000⟩  /- LG_WATCH -/]

/-- The nonzero Reset values of the mailbox window. -/
def resetsMb : List RegRow := [
]

/-- The RW bits of the mailbox window (R9). -/
def rwMb : List RegRow := [
  ⟨0x0, 0x0, 1, 0xFFFF03FF⟩  /- MB_CMD -/,
  ⟨0x100, 0x8, 32, 0xFFFFFFFFFFFFFFFF⟩  /- MB_ARG -/]

/-- The W1C bits of the mailbox window (R9). -/
def w1cMb : List RegRow := [
  ⟨0x10, 0x0, 1, 0x6⟩  /- MB_STATUS -/,
  ⟨0x20, 0x0, 1, 0x7F⟩  /- MB_EVENT -/]

end Sys2Proof.Machine
end

