-- ==== Sys2Proof/Machine/Ops.lean ====
section
/-!
DEFINITION. The named operations over registers, tiles and blocks: reading and writing a register field, counting, looking up
a tile by its logical or physical name, the outbox, free values, tally counters and tile faults.
-/

namespace Sys2Proof.Machine
open Sys2Proof

-- registers of BAR0

/-- A BAR0 register as stored: its last value, or its Reset value (R9). -/
def State.regW (s : State) (off : Nat) : W64 := SMap.look s.reg off (w64 (rowVal resetsState off))

/-- A BAR0 register set whole. -/
def State.setReg (s : State) (off : Nat) (v : W64) : State := { s with reg := SMap.put s.reg off v }

/-- A field of a BAR0 register. -/
def State.rd (s : State) (f : Fld) : Nat := bits (s.regW f.off) f.hi f.lo

/-- A field of a BAR0 register set. -/
def State.wr (s : State) (f : Fld) (v : Nat) : State := s.setReg f.off (setBits (s.regW f.off) f.hi f.lo v)

/-- A counting field that wraps. -/
def State.inc (s : State) (f : Fld) (n : Nat) : State := s.wr f (s.rd f + n)

/-- The largest value of a field. -/
def fldMax (f : Fld) : Nat := 2 ^ (f.hi + 1 - f.lo) - 1

/-- A counting field that saturates. -/
def State.incSat (s : State) (f : Fld) (n : Nat) : State := s.wr f (min (s.rd f + n) (fldMax f))

-- registers of a tile window

/-- A tile-window register as stored. -/
def Tile.regW (t : Tile) (off : Nat) : W64 := SMap.look t.reg off (w64 (rowVal resetsTile off))

/-- A tile-window register set whole. -/
def Tile.setReg (t : Tile) (off : Nat) (v : W64) : Tile := { t with reg := SMap.put t.reg off v }

/-- A field of a tile-window register. -/
def Tile.rd (t : Tile) (f : Fld) : Nat := bits (t.regW f.off) f.hi f.lo

/-- A field of a tile-window register set. -/
def Tile.wr (t : Tile) (f : Fld) (v : Nat) : Tile := t.setReg f.off (setBits (t.regW f.off) f.hi f.lo v)

/-- A counting field that wraps. -/
def Tile.inc (t : Tile) (f : Fld) (n : Nat) : Tile := t.wr f (t.rd f + n)

/-- A counting field that saturates. -/
def Tile.incSat (t : Tile) (f : Fld) (n : Nat) : Tile := t.wr f (min (t.rd f + n) (fldMax f))

-- registers of a Lodge window and of a mailbox window

/-- A Lodge register as stored. -/
def Lodge.regW (l : Lodge) (off : Nat) : W64 := SMap.look l.reg off 0

/-- A field of a Lodge register. -/
def Lodge.rd (l : Lodge) (f : Fld) : Nat := bits (l.regW f.off) f.hi f.lo

/-- A field of a Lodge register set. -/
def Lodge.wr (l : Lodge) (f : Fld) (v : Nat) : Lodge :=
  { l with reg := SMap.put l.reg f.off (setBits (l.regW f.off) f.hi f.lo v) }

/-- A mailbox register as stored. -/
def Fn.regW (m : Fn) (off : Nat) : W64 := SMap.look m.reg off 0

/-- A mailbox register set whole. -/
def Fn.setReg (m : Fn) (off : Nat) (v : W64) : Fn := { m with reg := SMap.put m.reg off v }

/-- A field of a mailbox register. -/
def Fn.rd (m : Fn) (f : Fld) : Nat := bits (m.regW f.off) f.hi f.lo

/-- A field of a mailbox register set. -/
def Fn.wr (m : Fn) (f : Fld) (v : Nat) : Fn := m.setReg f.off (setBits (m.regW f.off) f.hi f.lo v)

-- write-one-to-clear bits (R9, R426)

/-- A W1C bit has been set in the present cycle: the log of such sets, by register. -/
def noteSet (just : SMap W64) (f : Fld) : SMap W64 := SMap.put just f.off (SMap.look just f.off 0 ||| maskBits f.hi f.lo)

/-- A W1C bit of a BAR0 register is set. -/
def State.raise (s : State) (f : Fld) : State := { s.wr f 1 with just := noteSet s.just f }

/-- A W1C bit of a tile-window register is set. -/
def Tile.raise (t : Tile) (f : Fld) : Tile := { t.wr f 1 with just := noteSet t.just f }

/-- A W1C bit of a Lodge register is set. -/
def Lodge.raise (l : Lodge) (f : Fld) : Lodge := { l.wr f 1 with just := noteSet l.just f }

/-- A W1C bit of a mailbox register is set. -/
def Fn.raise (m : Fn) (f : Fld) : Fn := { m.wr f 1 with just := noteSet m.just f }

/-- A write of `v` over `old` (R9, R10): a clear that lands in the cycle of a set leaves the bit at 1 (R426). -/
def mergedNow (just : SMap W64) (off : Nat) (old v rw w1c : W64) : W64 := merged old v rw w1c ||| (SMap.look just off 0 &&& w1c &&& old)

-- alignment that reached its limit (R339, R352)

/-- The link words and the REACH word that an alignment changes, as they stand before it. -/
def alignKept (s : State) : State :=
  let links := ((List.range 16).filter (fun p => s.rd (FB_CTRL_IN_MACHINE p) == 1)).map FB_LINK_OFF
  { s with sun := { s.sun with undo := (links ++ [RG_CFG_OFF]).foldl (fun m o => SMap.put m o (s.regW o)) [] } }

/-- One word that an alignment changed has the measured fields that it had before: DELAY and HP_DELAY of a link, or REACH. -/
def linkUndone (s : State) (x : Nat × W64) : State :=
  if x.1 = RG_CFG_OFF then s.wr RG_CFG_REACH (bits x.2 RG_CFG_REACH.hi RG_CFG_REACH.lo)
  else s.setReg x.1 (setBits (s.regW x.1) 47 16 (bits x.2 47 16))

/-- An ALIGN that ran into its limit leaves the links and REACH as they were before it. -/
def alignUndone (s : State) : State :=
  s.sun.undo.foldl linkUndone { s with sun := { s.sun with undo := [], epochMark := none, startAt := none } }

-- the parts of the block, each at its Reset value until something changes it

/-- Physical tile `p` = 17 r + c (R68). -/
def State.tile (s : State) (p : Nat) : Tile := SMap.look s.tiles p Tile.reset

/-- Physical tile `p` replaced. -/
def State.setTile (s : State) (p : Nat) (t : Tile) : State := { s with tiles := SMap.put s.tiles p t }

/-- Physical tile `p` changed. -/
def State.modTile (s : State) (p : Nat) (f : Tile → Tile) : State := s.setTile p (f (s.tile p))

/-- Footbridge port `p`. -/
def State.port (s : State) (p : Nat) : Port := SMap.look s.die.ports p Port.reset

/-- Footbridge port `p` replaced. -/
def State.setPort (s : State) (p : Nat) (q : Port) : State := { s with die := { s.die with ports := SMap.put s.die.ports p q } }

/-- Lodge core `k`. -/
def State.lodge (s : State) (k : Nat) : Lodge := SMap.look s.die.lodges k Lodge.reset

/-- Lodge core `k` replaced. -/
def State.setLodge (s : State) (k : Nat) (l : Lodge) : State := { s with die := { s.die with lodges := SMap.put s.die.lodges k l } }

/-- Pavilion `q`. -/
def State.pv (s : State) (q : Nat) : Pv := SMap.look s.pvs q Pv.reset

/-- Pavilion `q` replaced. -/
def State.setPv (s : State) (q : Nat) (v : Pv) : State := { s with pvs := SMap.put s.pvs q v }

/-- What pavilion `q` runs, changed. -/
def State.modRun (s : State) (q : Nat) (f : PvRun → PvRun) : State :=
  s.setPv q { s.pv q with run := f (s.pv q).run }

/-- What the front Warden keeps for pavilion `q`, changed. -/
def State.modFront (s : State) (q : Nat) (f : PvFront → PvFront) : State :=
  s.setPv q { s.pv q with front := f (s.pv q).front }

/-- The number of a PCIe function among the mailboxes: 17 per port. -/
def fnNum : Func → Nat
  | .pf port => 17 * port
  | .vf port n => 17 * port + n

/-- The port of a function. -/
def fnPort : Func → Nat
  | .pf port => port
  | .vf port _ => port

/-- The functions that the module has (R417): the physical functions of ports 0 and 1, and VF 1 to VF 16 of each. -/
def fnOk : Func → Bool
  | .pf port => port < 2
  | .vf port n => port < 2 && 0 < n && n < 17

/-- The agents that exist: the functions of R417, the Warden, sixteen Lodge cores. -/
def agentOk : Agent → Bool
  | .host f => fnOk f
  | .warden => true
  | .lodge k => k < 16

/-- The mailbox of function number `n`. -/
def State.fn (s : State) (n : Nat) : Fn := SMap.look s.fns n Fn.reset

/-- The mailbox of function number `n` replaced. -/
def State.setFn (s : State) (n : Nat) (m : Fn) : State := { s with fns := SMap.put s.fns n m }

/-- The mailbox of function number `n` changed. -/
def State.modFn (s : State) (n : Nat) (f : Fn → Fn) : State := s.setFn n (f (s.fn n))

/-- Barrier entry `e` (R170). -/
def State.barrier (s : State) (e : Nat) : Barrier := SMap.look s.die.barriers e Barrier.reset

/-- Barrier entry `e` replaced. -/
def State.setBarrier (s : State) (e : Nat) (b : Barrier) : State :=
  { s with die := { s.die with barriers := SMap.put s.die.barriers e b } }

/-- Something that the module sends out (log entry 10). -/
def State.emit (s : State) (o : Out) : State := { s with out := s.out ++ [o] }

/-- The state after a free value has been drawn (log entry 11). -/
def State.drawn (s : State) : State := { s with free := s.free + 1 }

-- names of tiles

/-- The physical column of logical tile (i, j) under the repair map in force (R15). -/
def State.colOf (s : State) (i j : Nat) : Nat :=
  match SMap.look? s.rows i with
  | some f => if f ≤ j then j + 1 else j
  | none => j

/-- The physical tile that holds logical tile `t` = 16 i + j (R14, R15). -/
def State.phys (s : State) (t : Nat) : Nat := 17 * (t / 16) + s.colOf (t / 16) (t % 16)

/-- The logical tile that physical tile `p` holds, if any (R15). -/
def State.logical (s : State) (p : Nat) : Option Nat :=
  match SMap.look? s.rows (p / 17) with
  | some f => if p % 17 = f then none else if f < p % 17 then some (16 * (p / 17) + p % 17 - 1) else some (16 * (p / 17) + p % 17)
  | none => if p % 17 = 16 then none else some (16 * (p / 17) + p % 17)

/-- The cluster of a logical tile (R17). -/
def clusterOf (t : Nat) : Nat := 4 * (t / 64) + (t % 16) / 4

/-- The logical tiles of cluster `k` (R17). -/
def tilesOf (k : Nat) : List Nat :=
  (List.range 16).map (fun n => 16 * (4 * (k / 4) + n / 4) + 4 * (k % 4) + n % 4)

/-- The region of a physical tile (R18). -/
def regionOf (p : Nat) : Nat := p / 34

/-- The physical tiles of the cluster under the repair map in force. -/
def State.clusterTiles (s : State) (k : Nat) : List Nat := (tilesOf k).map s.phys

/-- Every physical tile. -/
def allTiles : List Nat := List.range 272

/-- The pavilion that holds a cluster, if any: pavilions hold disjoint clusters (R427, R428). -/
def State.pvOfCluster (s : State) (k : Nat) : Option Nat :=
  (List.range 4).find? (fun q => (s.pv q).run.st != 0 && (s.pv q).res.clusters.testBit k)

/-- The pavilion that a physical tile belongs to. -/
def State.pvOfTile (s : State) (p : Nat) : Option Nat := (s.logical p).bind (fun t => s.pvOfCluster (clusterOf t))

/-- The clusters of pavilion `q`. -/
def State.pvClusters (s : State) (q : Nat) : List Nat := (List.range 16).filter (fun k => (s.pv q).res.clusters.testBit k)

/-- The physical tiles of pavilion `q`. -/
def State.pvTiles (s : State) (q : Nat) : List Nat := (s.pvClusters q).flatMap s.clusterTiles

-- time

/-- The frame length L (R25). -/
def State.frameLen (s : State) : Nat := s.rd SD_CONFIG_FRAME_LEN

/-- The frame span W (R25). -/
def State.span (s : State) : Nat := s.rd SD_CONFIG_SPAN

/-- The lag of region `g` (R26). -/
def State.lag (s : State) (g : Nat) : Nat := SMap.look s.sun.lags g 0

/-- The frame counter of region `g` (R26): the Sundial frame counter less the lag. -/
def State.regionCtr (s : State) (g : Nat) : Nat := s.sun.ctr - s.lag g

/-- The frame cycle of a physical tile. -/
def State.now (s : State) (p : Nat) : Nat := s.regionCtr (regionOf p)

/-- The frame number (R26). -/
def State.frame (s : State) : Nat := s.rd SD_FRAME_NUM_FRAME

/-- This module's machine index. -/
def State.index (s : State) : Nat := s.rd SD_MACHINE_INDEX

/-- The Sundial domain stands at a freeze point (R30). -/
def State.standing (s : State) : Bool := s.sun.freeze == some s.sun.ctr

/-- A region stands at the freeze point. -/
def State.regionStands (s : State) (g : Nat) : Bool := s.standing && s.lag g == 0

/-- The module stands in hold or in a replay: no issue (R29). -/
def State.tileStands (s : State) (p : Nat) : Bool := s.regionStands (regionOf p)

end Sys2Proof.Machine
end

