-- ==== Sys2Proof/Machine/Operands.lean ====
section
/-!
DEFINITION. Descriptors: their fields (R49 and the two descriptor references), the unit of each opcode (R50, R114, R144), and every
check that the sequencer makes at fetch (R46, R49, R64, R115, R131, R145, R151).
-/

namespace Sys2Proof.Machine
open Sys2Proof

-- words W0 to W2 (R49)
def Desc.opcode (d : Desc) : Nat := bits d.w0 7 0
def Desc.variant (d : Desc) : Nat := bits d.w0 15 8
def Desc.issueCycle (d : Desc) : Nat := bits d.w0 39 16
def Desc.waitA (d : Desc) : Nat := bits d.w0 47 40
def Desc.waitB (d : Desc) : Nat := bits d.w0 55 48
def Desc.signal (d : Desc) : Nat := bits d.w0 63 56
def Desc.valueA (d : Desc) : Nat := bits d.w1 31 0
def Desc.valueB (d : Desc) : Nat := bits d.w1 63 32
def Desc.signalInc (d : Desc) : Nat := bits d.w2 15 0
def Desc.mayWait (d : Desc) : Bool := bit d.w2 16
def Desc.maskZero (d : Desc) : Bool := bit d.w2 17
def Desc.frameCarried (d : Desc) : Bool := bit d.w2 18
def Desc.immediate (d : Desc) : Nat := bits d.w2 63 32

/-- The eight words of 64 bytes (R6, R45). -/
def descOf (b : List Byte) : Desc :=
  { w0 := w64 (leNat (b.take 8)), w1 := w64 (leNat ((b.drop 8).take 8)), w2 := w64 (leNat ((b.drop 16).take 8)),
    w3 := w64 (leNat ((b.drop 24).take 8)), w4 := w64 (leNat ((b.drop 32).take 8)), w5 := w64 (leNat ((b.drop 40).take 8)),
    w6 := w64 (leNat ((b.drop 48).take 8)), w7 := w64 (leNat ((b.drop 56).take 8)) }

/-- The words of a descriptor. -/
def Desc.words (d : Desc) : List W64 := [d.w0, d.w1, d.w2, d.w3, d.w4, d.w5, d.w6, d.w7]

/-- The all-zero descriptor. -/
def Desc.zero : Desc := descOf []

-- opcodes (R114, R144)
def opLink : Nat := 0x01
def opMxLoad : Nat := 0x10
def opMxPass : Nat := 0x11
def opMxZero : Nat := 0x12
def opMxStore : Nat := 0x13
def opVxFp : Nat := 0x20
def opVxInt : Nat := 0x21
def opVxCvt : Nat := 0x22
def opVxFn : Nat := 0x23
def opVxRed : Nat := 0x24
def opVxCmp : Nat := 0x25
def opVxMask : Nat := 0x26
def opSpFill : Nat := 0x40
def opSpCopy : Nat := 0x41
def opSpGather : Nat := 0x42
def opSpScatter : Nat := 0x43
def opNetGet : Nat := 0x50
def opNetPut : Nat := 0x51
def opNetPutMsg : Nat := 0x52
def opOyRead : Nat := 0x60
def opOyWrite : Nat := 0x61
def opOyTerrace : Nat := 0x62
def opCtBarrier : Nat := 0x70
def opCtSignal : Nat := 0x71
def opCtHash : Nat := 0x72
def opCtSample : Nat := 0x73

-- units (R50, R400)
def unitMatrix : Nat := 0
def unitVector : Nat := 1
def unitSp : Nat := 2
def unitNet : Nat := 3
def unitOy : Nat := 4
def unitCt : Nat := 5

/-- A link is executed by the sequencer itself (R50). -/
def Desc.isLink (d : Desc) : Bool := d.opcode == opLink

/-- The unit of an opcode (R50). -/
def Desc.unit (d : Desc) : Nat := match d.opcode / 16 with
  | 1 => unitMatrix
  | 2 => unitVector
  | 4 => unitSp
  | 5 => unitNet
  | 6 => unitOy
  | _ => unitCt

-- fields that several opcodes share
def Desc.target (d : Desc) : Nat := bits d.w3 14 0
def Desc.accRow (d : Desc) : Nat := bits d.w3 55 48
def Desc.rows (d : Desc) : Nat := bits d.w3 39 32 + 1

-- matrix engine (R119 to R127)
def Desc.stage (d : Desc) : Nat := if d.opcode = opMxLoad then bits d.w0 12 12 else bits d.w0 8 8
def Desc.loadFmt (d : Desc) : Nat := bits d.w0 11 8
def Desc.beat (d : Desc) : Nat := bits d.w3 14 0
def Desc.actE5m2 (d : Desc) : Bool := bit d.w0 10
def Desc.accumulate (d : Desc) : Bool := bit d.w0 9
def Desc.mxSpBase (d : Desc) : Nat := bits d.w3 20 0
def Desc.stride (d : Desc) : Nat := bits d.w4 20 0
def Desc.storeSat (d : Desc) : Bool := bit d.w0 9
def Desc.toBf16 (d : Desc) : Bool := bit d.w0 8

/-- Terrace beats of a weight format (R74). -/
def fmtBeats : Nat → Nat
  | 3 => 16
  | 4 => 7
  | 5 => 7
  | 6 => 9
  | 7 => 4
  | _ => 8

/-- T_load of a weight format (R81). -/
def fmtLoad : Nat → Nat
  | 3 => 16
  | 4 => 7
  | 5 => 7
  | 6 => 9
  | 7 => 7
  | _ => 8

/-- t_row of a weight format (R87). -/
def fmtRow (f : Nat) : Nat := if f = 3 then 4 else 1

/-- λ of a weight format (R87). -/
def fmtLat (f : Nat) : Nat := if f = 3 then 73 else 70

/-- Block rows N of a weight format (R74). -/
def fmtN (f : Nat) : Nat := if f = 6 then 128 else 64

/-- Bytes of an activation row (R74). -/
def fmtRowBytes (f : Nat) : Nat := if f = 3 then 128 else 64

-- vector engine (R129, R130)
def Desc.vxSat (d : Desc) : Bool := bit d.w3 44
def Desc.maskEn (d : Desc) : Bool := bit d.w3 43
def Desc.maskSel (d : Desc) : Nat := bits d.w3 42 40
def Desc.dst (d : Desc) : Nat := bits d.w3 31 24
def Desc.srcC (d : Desc) : Nat := bits d.w3 23 16
def Desc.srcB (d : Desc) : Nat := bits d.w3 15 8
def Desc.srcA (d : Desc) : Nat := bits d.w3 7 0
def Desc.spFmt (d : Desc) : Nat := bits d.w4 26 24
def Desc.vxSpBase (d : Desc) : Nat := bits d.w4 20 0

/-- KIND and INDEX of a select byte (R130). -/
def selKind (x : Nat) : Nat := x / 32
def selIndex (x : Nat) : Nat := x % 32

/-- Bytes of a scratchpad row of a vector operand (R94, R129). -/
def fmtSpBytes : Nat → Nat
  | 0 => 256
  | 1 => 128
  | _ => 64

/-- VX_RED fields (R140). -/
def Desc.redAccum (d : Desc) : Bool := bit d.w0 11
def Desc.redSpread (d : Desc) : Bool := bit d.w0 10
def Desc.redOp (d : Desc) : Nat := bits d.w0 9 8

/-- λ of a vector descriptor (R106). -/
def Desc.vxLat (d : Desc) : Nat :=
  if d.opcode = opVxFn then 12 else if d.opcode = opVxRed then (if d.redAccum then 12 else 11) else 5

-- scratchpad unit (R153 to R155)
def Desc.firstLine (d : Desc) : Nat := bits d.w3 11 0
def Desc.linesM (d : Desc) : Nat := bits d.w3 27 16 + 1
def Desc.copyDst (d : Desc) : Nat := bits d.w4 11 0
def Desc.colK (d : Desc) : Nat := bits d.w3 35 32 + 1
def Desc.colChunk (d : Desc) : Nat := bits d.w3 27 24
def Desc.colDst (d : Desc) : Nat := bits d.w3 23 12

-- network unit (R157 to R163)
def Desc.vc (d : Desc) : Nat := if d.opcode = opCtSignal then bits d.w3 8 8 else bits d.w0 8 8
def Desc.remoteInc (d : Desc) : Nat := bits d.w3 63 48
def Desc.remoteCtr (d : Desc) : Nat := bits d.w3 47 40
def Desc.fbSlot (d : Desc) : Nat := bits d.w3 39 30
def Desc.chan (d : Desc) : Nat := bits d.w3 4 0
def Desc.netHandler (d : Desc) : Nat := bits d.w3 29 15
def Desc.putUnits (d : Desc) : Nat := (if d.opcode = opNetPutMsg then bits d.w3 10 5 else bits d.w3 19 5) + 1
def Desc.dstOff (d : Desc) : Nat := bits d.w4 41 21
def Desc.netSrc (d : Desc) : Nat := bits d.w4 20 0
def Desc.getLines (d : Desc) : Nat := bits d.w3 35 32 + 1
def Desc.getSrcLine (d : Desc) : Nat := bits d.w3 19 8
def Desc.getDst (d : Desc) : Nat := bits d.w4 20 0

-- Orangery unit (R166)
def Desc.oyAddr (d : Desc) : Nat := bits d.w3 37 0
def Desc.oyUnits (d : Desc) : Nat := bits d.w4 35 21 + 1
def Desc.oySp (d : Desc) : Nat := bits d.w4 20 0
def Desc.oyBeat (d : Desc) : Nat := bits d.w4 14 0
def Desc.oyBytes (d : Desc) : Nat := if d.opcode = opOyTerrace then 512 * d.oyUnits else 64 * d.oyUnits

-- control unit (R170 to R175)
def Desc.barMode (d : Desc) : Nat := bits d.w0 8 8
def Desc.barAdd (d : Desc) : Nat := bits d.w3 47 32
def Desc.barNotify (d : Desc) : Nat := bits d.w3 15 8
def Desc.barEntry (d : Desc) : Nat := bits d.w3 5 0
def Desc.barTarget (d : Desc) : Nat := bits d.w4 31 0
def Desc.creditCount (d : Desc) : Nat := bits d.w3 31 16
def Desc.hashFirst (d : Desc) : Bool := bit d.w0 8
def Desc.saltId (d : Desc) : Nat := bits d.w3 37 32
def Desc.hashBlocks (d : Desc) : Nat := bits d.w3 23 16 + 1
def Desc.hashPrev (d : Desc) : Nat := bits d.w4 20 0
def Desc.hashDst (d : Desc) : Nat := bits d.w5 20 0
def Desc.samplePart (d : Desc) : Nat := bits d.w0 9 8
def Desc.samplePos (d : Desc) : Nat := bits d.w3 59 56
def Desc.sampleVoff (d : Desc) : Nat := bits d.w3 49 32
def Desc.sampleSlot (d : Desc) : Nat := bits d.w3 9 0
def Desc.sampleCount (d : Desc) : Nat := bits d.w4 38 21 + 1

/-- Mesh flits of `b` bytes (R150). -/
def meshFlits (b : Nat) : Nat := max 1 (ceilDiv b 256)

/-- Ring slots or 64-byte units that a PUT or PUT_MSG sends (R157, R160). -/
def Desc.putSlots (d : Desc) : Nat := if d.opcode = opNetPutMsg then d.putUnits + 1 else d.putUnits

/-- Two intervals of numbers share an element. -/
def overlap (a n b m : Nat) : Bool := a < b + m && b < a + n && 0 < n && 0 < m

/-- A counter field names a counter or none (R49). -/
def ctrOk (x : Nat) : Bool := x < 64 || x == 0xFF

/-- Matrix descriptors at fetch (R119, R122, R125 to R127). -/
def matrixOk (d : Desc) : Bool :=
  if d.opcode = opMxLoad then
    bits d.w0 15 13 == 0 && d.loadFmt < 8 && d.beat + fmtBeats d.loadFmt ≤ 32768
  else if d.opcode = opMxPass then
    bits d.w0 15 11 == 0 && d.accRow + d.rows ≤ 256 && d.mxSpBase % 64 == 0 && d.stride % 64 == 0
  else if d.opcode = opMxZero then
    d.variant == 0 && d.accRow + d.rows ≤ 256
  else
    bits d.w0 15 10 == 0 && d.accRow + d.rows ≤ 256 && d.mxSpBase % (if d.toBf16 then 128 else 256) == 0

/-- The number of source operands of a vector variant, none where the variant is undefined (R135 to R138). -/
def vxSources (op v : Nat) : Option Nat :=
  if op = opVxFp then (if v = 3 then some 3 else if v < 6 then some 2 else if v < 9 then some 1 else none)
  else if op = opVxInt then (if v < 9 then some 2 else if v = 9 then some 1 else none)
  else if op = opVxCvt then (if v < 6 then some 1 else none)
  else if op = opVxFn then (if v < 4 then some 1 else none)
  else if op = opVxRed then (if v < 16 ∧ ¬(v / 8 = 1 ∧ v % 4 = 3) then some 1 else none)
  else if op = opVxCmp then (if v < 32 ∧ v / 8 < 3 ∧ v % 8 < 6 then some 2 else none)
  else (if v < 4 then some 2 else if v = 4 then some 1 else none)

/-- Whether a vector descriptor's sources have integer type, and whether its destination has (R132, R136, R137, R140, R142). -/
def vxIntSrc (d : Desc) : Bool :=
  d.opcode == opVxInt || (d.opcode == opVxCvt && (d.variant == 1 || d.variant == 2)) || (d.opcode == opVxCmp && d.variant / 8 != 0)
def vxIntDst (d : Desc) : Bool :=
  d.opcode == opVxInt || (d.opcode == opVxCvt && d.variant == 0) || (d.opcode == opVxRed && d.redOp == 3)

/-- Vector descriptors at fetch (R131, R140, R142, R143). -/
def vectorOk (d : Desc) : Bool :=
  match vxSources d.opcode d.variant with
  | none => false
  | some n =>
    let ka := selKind d.srcA
    let kb := selKind d.srcB
    let kc := selKind d.srcC
    let kd := selKind d.dst
    let mask := d.opcode == opVxMask
    let cmp := d.opcode == opVxCmp
    let src := fun k used => if used then (if mask then k == 6 else 1 ≤ k && k ≤ 5) else k == 0
    let dstOk :=
      if mask || cmp then kd == 6
      else if d.opcode == opVxRed && !d.redSpread then kd == 2 || (kd == 4 && d.spFmt == 0)
      else kd == 2 || kd == 3 || kd == 4
    let count := fun k => (([ka, kb, kc, kd].filter (· == k)).length)
    let srcSp := ka == 4 || kb == 4 || kc == 4
    src ka true && src kb (2 ≤ n) && src kc (3 ≤ n) && dstOk
      && count 3 ≤ 1 && count 4 ≤ 1
      && (count 3 == 0 || d.accRow + d.rows ≤ 256)
      && (count 4 == 0 || (d.spFmt < 5 && d.vxSpBase % fmtSpBytes d.spFmt == 0))
      && (!(srcSp && vxIntSrc d) || d.spFmt == 0)
      && (!(kd == 4 && vxIntDst d) || d.spFmt == 0)
      && (!(mask || cmp) || d.rows == 1)

/-- Scratchpad-unit descriptors at fetch (R153 to R155). -/
def spOk (d : Desc) : Bool :=
  d.variant == 0 &&
  (if d.opcode = opSpFill then d.firstLine + d.linesM ≤ 4096
   else if d.opcode = opSpCopy then
     d.firstLine + d.linesM ≤ 4096 && d.copyDst + d.linesM ≤ 4096 && !overlap d.firstLine d.linesM d.copyDst d.linesM
   else
     let sn := if d.opcode = opSpGather then 16 else d.colK
     let dn := if d.opcode = opSpGather then d.colK else 16
     d.colChunk + d.colK ≤ 16 && d.firstLine + sn ≤ 4096 && d.colDst + dn ≤ 4096 && !overlap d.firstLine sn d.colDst dn)

/-- Network descriptors at fetch (R157, R160, R163). -/
def netOk (d : Desc) : Bool :=
  d.variant < 2 && (d.vc == 0 || d.issueCycle != 0) &&
  (if d.opcode = opNetGet then d.getDst % 512 == 0
   else ctrOk d.remoteCtr && d.netSrc % 64 == 0 && (d.opcode == opNetPutMsg || d.dstOff % 64 == 0))

/-- Orangery descriptors at fetch (R166). -/
def oyOk (d : Desc) : Bool :=
  d.variant == 0 &&
  (if d.opcode = opOyTerrace then d.oyAddr % 512 == 0 && d.oyBeat + d.oyUnits ≤ 32768
   else d.oyAddr % 64 == 0 && d.oySp % 64 == 0)

/-- Control descriptors at fetch (R170, R172, R173, R175). -/
def ctOk (d : Desc) : Bool :=
  if d.opcode = opCtBarrier then
    d.variant < 2 && ctrOk d.barNotify && (d.barMode == 1 || d.barNotify == 0xFF)
  else if d.opcode = opCtSignal then
    d.variant < 3 && (d.variant != 1 || (d.remoteCtr < 64 && (d.vc == 0 || d.issueCycle != 0)))
  else if d.opcode = opCtHash then
    d.variant < 2 && d.firstLine + 2 * d.hashBlocks ≤ 4096 && d.hashDst % 32 == 0
      && (d.hashFirst || d.hashPrev % 32 == 0)
      && !overlap d.hashDst (32 * d.hashBlocks) (512 * d.firstLine) (1024 * d.hashBlocks)
      && (d.hashFirst || !overlap d.hashDst (32 * d.hashBlocks) d.hashPrev 32)
  else
    d.variant < 3 && (d.samplePart == 2 || (d.samplePos < 9 && d.netSrc % 64 == 0))

/-- Every check that the sequencer makes of a descriptor at fetch, for the stream and address it stands in (R46, R49, R64, R115, R145,
R151). `frameLen` is L. -/
def fetchOk (frameLen : Nat) (handler : Bool) (addr : Nat) (d : Desc) : Bool :=
  ctrOk d.signal && ctrOk d.waitA && ctrOk d.waitB && d.issueCycle < frameLen
  && (!handler || (d.issueCycle == 0 && !d.mayWait))
  && (addr != 0x7FFF || d.isLink)
  && (if d.opcode = opLink then d.variant < 3 && !(handler && d.variant == 1) && !(!handler && d.variant == 2)
      else if d.opcode / 16 = 1 then d.opcode % 16 < 4 && matrixOk d
      else if d.opcode / 16 = 2 then d.opcode % 16 < 7 && vectorOk d
      else if d.opcode / 16 = 4 then d.opcode % 16 < 4 && spOk d
      else if d.opcode / 16 = 5 then d.opcode % 16 < 3 && netOk d
      else if d.opcode / 16 = 6 then d.opcode % 16 < 3 && oyOk d
      else if d.opcode / 16 = 7 then d.opcode % 16 < 4 && ctOk d
      else false)

end Sys2Proof.Machine
end

