-- ==== Sys2Proof/Machine/Flags.lean ====
section
/-!
DEFINITION. The flags: tile faults (R60, R68), tally counters with their limit (R61, R62), mailbox events and interrupts (R354, R422, R426,
R433), the async queue (R338), and the alert word (R448).
-/

namespace Sys2Proof.Machine
open Sys2Proof

/-- Bits of TL_FAULT, which are also the KIND codes of TL_FAULT_INFO (R68). -/
def faultSlip : Nat := 0
def faultTcLimit : Nat := 1
def faultDescRange : Nat := 2
def faultSpRange : Nat := 3
def faultBankRange : Nat := 4
def faultCreditOverrun : Nat := 5
def faultSlotCollision : Nat := 6
def faultClosedWrite : Nat := 7

/-- The field of TL_FAULT for a kind. -/
def faultField (kind : Nat) : Fld := ⟨TL_FAULT_OFF, kind, kind⟩

/-- What a tile records for a fault (R60, R67): TL_FAULT, TL_FAULT_INFO if this is the first, and STATE frozen. Only a fault of a descriptor in the
window of a stopped tile does not freeze it (R67). `stream` 2 stands for a fault that no descriptor of the tile caused: STREAM and ADDRESS then take 0
(DESIGN CHOICE, log entry 46). TL_FAULT_INFO keeps its record after TL_FAULT has been cleared, until the next first fault (log entry 46). -/
def Tile.fault (t : Tile) (kind cycle counter stream addr : Nat) : Tile :=
  let first := t.regW TL_FAULT_OFF == 0
  let t1 := t.raise (faultField kind)
  let t2 :=
    if first then
      ((((t1.wr TL_FAULT_INFO_CYCLE cycle).wr TL_FAULT_INFO_COUNTER counter).wr TL_FAULT_INFO_STREAM (stream % 2)).wr TL_FAULT_INFO_KIND kind).wr
        TL_FAULT_INFO_ADDRESS addr
    else t1
  if t.rd TL_SEQ_CONFIG_ENABLE = 1 ∨ stream = 2 then { t2 with seq := { t2.seq with run := .frozen } } else t2

/-- A fault at physical tile `p`: recorded, and reported to the Warden on channel 2 (R60). -/
def raiseFault (s : State) (p kind counter stream addr : Nat) : State :=
  let s1 := s.setTile p ((s.tile p).fault kind (s.now p) counter stream addr)
  { s1 with die := { s1.die with reports := s1.die.reports ++ [{ p := p, kind := 0 }] } }

/-- A report of another kind to the Warden: 1 a broken wait (R393), 2 a revocation (R217). -/
def report (s : State) (p kind : Nat) : State :=
  { s with die := { s.die with reports := s.die.reports ++ [{ p := p, kind := kind }] } }

/-- Counter `n` of a tile. -/
def Tile.tcVal (t : Tile) (n : Nat) : Nat := (SMap.look t.tc n 0).toNat

/-- Counter `n` as the comparators see it: its value at the end of the previous tc (R51, R52). -/
def Tile.tcSeen (t : Tile) (n : Nat) : Nat := (SMap.look t.tcPrev n (SMap.look t.tc n 0)).toNat

/-- The value of a counter after increments that sum to `inc` (R62). -/
def tcSum (v inc : Nat) : Nat := min (v + inc) 0xFFFFFFFF

/-- Increments that sum to `inc` reach counter `n` of physical tile `p` (R61, R62). A new value above 0xFFFF_FF00 is a counter-limit
fault; `stream` and `addr` name the descriptor that the operation belongs to. The first increment of a tc keeps the value that the comparators go on
seeing in it (R52). -/
def tcAdd (s : State) (p n inc stream addr : Nat) : State :=
  if inc = 0 then s
  else
    let t := s.tile p
    let v := tcSum (t.tcVal n) inc
    let s1 := s.setTile p { t with tc := SMap.put t.tc n (w32 v), tcPrev := SMap.put t.tcPrev n (SMap.look t.tcPrev n (SMap.look t.tc n 0)) }
    if 0xFFFFFF00 < v then raiseFault s1 p faultTcLimit n stream addr else s1

/-- A counter named by an 8-bit field, 0xFF naming none (R49). -/
def tcAddField (s : State) (p field inc stream addr : Nat) : State :=
  if field < 64 then tcAdd s p field inc stream addr else s

-- mailbox events

/-- The fields of the bits of MB_EVENT: 0 ASYNC, 1 STATE, 2 FAULT, 3 CPL_WAIT, 4 RING_ERROR, 5 ALIGN_LOST, 6 MARGIN (R354). -/
def eventField (b : Nat) : Fld := ⟨MB_EVENT_OFF, b, b⟩

/-- The counter of a bit of MB_EVENT (R433). -/
def eventCount : Nat → Fld
  | 0 => MB_FLAG_CNT0_ASYNC
  | 1 => MB_FLAG_CNT0_STATE
  | 2 => MB_FLAG_CNT0_FAULT
  | 3 => MB_FLAG_CNT0_CPL_WAIT
  | 4 => MB_FLAG_CNT1_RING_ERROR
  | 5 => MB_FLAG_CNT1_ALIGN_LOST
  | _ => MB_FLAG_CNT1_MARGIN

/-- Whether MSI-X vector `v` is masked: bit 0 of the vector control word of its table entry, 1 after reset (PRESUMED, PCI Express;
log entry 21). -/
def vecMasked (m : Fn) (v : Nat) : Bool := bit (SMap.look m.msix (2 * v + 1) 0x100000000) 32

/-- Function `n` raises MSI-X vector `v` (R422): sent, or left pending while masked. -/
def raiseVec (s : State) (n v : Nat) : State :=
  let m := s.fn n
  if vecMasked m v then (if v ∈ m.pendingVec then s else s.setFn n { m with pendingVec := m.pendingVec ++ [v] }) else s.emit (.msix n v)

/-- A bit of MB_EVENT of function `n` is set: the bit, its counter, vector 0 (R426, R422). -/
def setEvent (s : State) (n b : Nat) : State :=
  let m := s.fn n
  let m1 := (m.raise (eventField b)).wr (eventCount b) (m.rd (eventCount b) + 1)
  raiseVec (s.setFn n m1) n 0

/-- The functions that a pavilion belongs to: the physical function of its port, and its virtual function (R417, R427). -/
def pvFns (s : State) (q : Nat) : List Nat :=
  let r := (s.pv q).res
  if r.vf = 0 then [17 * r.port] else [17 * r.port, 17 * r.port + r.vf]

/-- A bit of MB_EVENT is set on every function of the pavilion (R343). -/
def pvEvent (s : State) (q b : Nat) : State := (pvFns s q).foldl (fun s n => setEvent s n b) s

/-- The doorbell function of a pavilion, that RING_SETUP named. -/
def ringFn (s : State) (q : Nat) : Option Nat := (s.pv q).front.rings.map (·.fn)

/-- A bit of MB_EVENT is set on the pavilion's doorbell function (R349, R350). -/
def ringEvent (s : State) (q b : Nat) : State :=
  match ringFn s q with
  | some n => setEvent s n b
  | none => s

/-- An MB_ASYNC entry (R354). -/
def asyncEntry (opcode ticket status detail value : Nat) : W64 :=
  setBits (setBits (setBits (setBits (setBits (setBits 0 63 63 1) 55 48 opcode) 47 40 ticket) 39 32 status) 31 16 detail) 15 0 value

/-- The asynchronous command of function `n` with this ticket ends (R338): its entry enters the async queue, unless a function reset has
discarded it (R425). Nothing happens where no such command is in flight. -/
def endAsync (s : State) (n ticket status detail value : Nat) : State :=
  let m := s.fn n
  match m.flights.find? (fun f => f.ticket == ticket) with
  | none => s
  | some f =>
    let m1 := { m with flights := m.flights.filter (fun g => g.ticket != ticket) }
    if f.discard then s.setFn n m1
    else setEvent (s.setFn n { m1 with async := m1.async ++ [asyncEntry f.opcode ticket status detail value] }) n 0

-- status codes (R340)
def stDone : Nat := 0x00
def stAccepted : Nat := 0x01
def stBadOpcode : Nat := 0x02
def stBadArgument : Nat := 0x03
def stStateConflict : Nat := 0x04
def stNoResource : Nat := 0x05
def stAuthFailed : Nat := 0x06
def stIntegrityFailed : Nat := 0x07
def stTimeout : Nat := 0x08
def stBusyRetry : Nat := 0x09
def stWearLimit : Nat := 0x0A
def stFault : Nat := 0x0B
def stWaitBroken : Nat := 0x0C

-- pavilion states (R341)
def pvAbsent : Nat := 0
def pvEmpty : Nat := 1
def pvStaging : Nat := 2
def pvLoaded : Nat := 3
def pvRunning : Nat := 4
def pvHeld : Nat := 5
def pvDraining : Nat := 6
def pvFaulted : Nat := 7
def pvResetting : Nat := 8

-- boot phases (R335)
def phaseRomWait : Nat := 0
def phaseVerify : Nat := 1
def phaseFwStart : Nat := 2
def phaseRunning : Nat := 3
def phaseHalted : Nat := 4

-- bits of the alert word (R448)
def alertPowerCycle : Nat := 0
def alertReplace : Nat := 1
def alertHalted : Nat := 2
def alertThermWarn : Nat := 3
def alertMarginEnd : Nat := 4

/-- An alert bit is set and ALERT_N driven low (R448). -/
def setAlert (s : State) (b : Nat) : State := { s with mod := { s.mod with alert := s.mod.alert ||| 2 ^ b, alertJust := s.mod.alertJust ||| 2 ^ b } }

/-- The pavilion enters a state other than FAULTED, and MB_EVENT.STATE is set (R343). -/
def enterState (s : State) (q st : Nat) : State := pvEvent (s.modRun q (fun r => { r with st := st })) q 1

end Sys2Proof.Machine
end

