-- ==== Sys2Proof/Machine/Shed.lean ====
section
/-!
DEFINITION. The Shed (R404 to R408): durable words behind a queue of writes, wear, lifetime counters, and the error-log summary.
-/

namespace Sys2Proof.Machine
open Sys2Proof

/-- Word `n` as a read finds it (R405): the old value until its write completes. -/
def State.shedWord (s : State) (n : Nat) : W64 := SMap.look s.shed.words n 0

/-- The wear count of word `n` (R406). -/
def State.shedWear (s : State) (n : Nat) : Nat := SMap.look s.shed.wear n 0

/-- The value that word `n` will have once every queued write has completed, which firmware knows. -/
def State.shedNext (s : State) (n : Nat) : W64 :=
  s.shed.queue.foldl (fun v w => if w.word = n then w.value else v) (s.shedWord n)

/-- The write at the head of the queue starts (R406): the word's wear count increases. -/
def shedBegin (s : State) : State :=
  match s.shed.queue with
  | [] => s
  | w :: _ => { s with shed := { s.shed with wear := SMap.put s.shed.wear w.word (s.shedWear w.word + 1) } }

/-- A word that firmware refuses to write (R406). -/
def shedWorn (s : State) (n : Nat) : Bool := 95000 ≤ s.shedWear n

/-- The bits of Shed word `n` that have a field (R404, R408). Reserved words, the manufacturing words and reserved bits take nothing. -/
def shedBits (n : Nat) : W64 :=
  if n < 0x10 then 0x800000000000001F
  else if n < 0x20 then 0x8000FFFFFFFFFFFF
  else if n < 0x28 then 0x8000000001FFFFFF
  else if n = 0x28 then 0x8000FFFFFFFFFFFF
  else if n = 0x29 then 0xFFFF
  else if n < 0x40 then 0
  else if n < 0x80 then 0xFFFFFFFFFFFF
  else if n < 0x100 then 0
  else if n < 0x200 then 0xFFFFFFF8FFFFFFFF
  else if n < 0x300 then BitVec.allOnes 64
  else 0

/-- A write is placed (R405), or refused (R406); reserved bits are written as zero. -/
def shedPut (s : State) (n : Nat) (v : W64) (fn : Option Nat) : State :=
  if shedWorn s n then s.raise SH_STATUS_REFUSED_SEEN
  else
    let w : ShedWrite := { word := n, value := v &&& shedBits n, fn := fn }
    let s1 : State := { s with shed := { s.shed with queue := s.shed.queue ++ [w] } }
    if s.shed.queue.isEmpty then shedBegin s1 else s1

/-- The write in progress completes (R405): its word is durable, and the next write starts. -/
def shedDone (s : State) : State :=
  match s.shed.queue with
  | [] => s
  | w :: ws => shedBegin { s with shed := { s.shed with words := SMap.put s.shed.words w.word w.value, queue := ws } }

/-- Events of a lifetime counter since its last write (R407). -/
def lifeEvent (s : State) (c n : Nat) : State :=
  { s with shed := { s.shed with counts := SMap.put s.shed.counts c (SMap.look s.shed.counts c 0 + n) } }

/-- The record words of lifetime counter `c` (R404). -/
def lifeWords (c : Nat) : List Nat := (List.range 8).map (fun k => 0x40 + 8 * c + k)

/-- A lifetime counter's current value: the largest of its records (R407). -/
def lifeValue (s : State) (c : Nat) : Nat := maxOf ((lifeWords c).map (fun n => bits (s.shedNext n) 47 0))

/-- OPERATING_HOURS. -/
def opHours (s : State) : Nat := lifeValue s 0

/-- The record that follows the one holding the largest value, or the next in turn whose wear allows a write (R406, R407). -/
def lifeNext (s : State) (c : Nat) : Option Nat :=
  let cur := ((lifeWords c).findIdx? (fun n => bits (s.shedNext n) 47 0 == lifeValue s c)).getD 7
  (((List.range 8).map (fun k => 0x40 + 8 * c + (cur + 1 + k) % 8)).find? (fun n => !shedWorn s n))

/-- Events that a lifetime counter adds at its write (R407, R408): an hour for OPERATING_HOURS, an hour in which HOT_SEEN was set for
HOT_HOURS, the accumulated events for the others. -/
def lifeAdd (s : State) (c : Nat) : Nat :=
  if c = 0 then 1 else if c = 6 then s.rd OY_STATUS_HOT_SEEN else SMap.look s.shed.counts c 0

/-- Firmware writes a lifetime counter's next record (R407). -/
def lifeWrite (s : State) (c add : Nat) : State :=
  match lifeNext s c with
  | none => s.raise SH_STATUS_REFUSED_SEEN
  | some n =>
    let s1 := shedPut s n (setBits 0 47 0 (lifeValue s c + add)) none
    { s1 with shed := { s1.shed with counts := SMap.put s1.shed.counts c 0 } }

/-- SEQ `a` is newer than SEQ `b` in 16-bit modular order (R407). -/
def seqNewer (a b : Nat) : Bool := a != b && (a + 65536 - b) % 65536 < 32768

/-- The newest entry of the error-log summary: its index and its SEQ. -/
def newestEntry (s : State) : Option (Nat × Nat) :=
  (List.range 256).foldl (fun acc e =>
    let w := s.shedNext (0x100 + e)
    if bits w 47 44 = 0 then acc
    else match acc with
      | none => some (e, bits w 63 48)
      | some (i, q) => if seqNewer (bits w 63 48) q then some (e, bits w 63 48) else some (i, q)) none

/-- A summary entry (R408). -/
def summaryWord (seq kind place column hours : Nat) : W64 :=
  setBits (setBits (setBits (setBits (setBits 0 63 48 seq) 47 44 kind) 43 40 place) 39 35 column) 31 0 hours

/-- Firmware writes the next entry of the error-log summary (R407); a worn word is passed over (R406). -/
def summary (s : State) (kind place column : Nat) : State :=
  let r := match newestEntry s with
    | none => (0, 0)
    | some (e, q) => (e + 1, (q + 1) % 65536)
  match ((List.range 256).map (fun k => (r.1 + k) % 256)).find? (fun e => !shedWorn s (0x100 + e)) with
  | none => s.raise SH_STATUS_REFUSED_SEEN
  | some e => shedPut s (0x100 + e) (summaryWord r.2 kind place column (opHours s)) none

/-- A read that finds an uncorrectable word returns zero and sets UE_SEEN (R407). -/
def shedUe (s : State) (n : Nat) : State := summary (s.raise SH_STATUS_UE_SEEN) 10 (n / 256 % 16) 0

/-- The queue of writes at a chip reset (R405, R442): the write under way completes, those queued are discarded. -/
def shedReset (s : State) : State :=
  let s1 := match s.shed.queue with
    | [] => s
    | w :: _ => { s with shed := { s.shed with words := SMap.put s.shed.words w.word w.value } }
  { s1 with shed := { s1.shed with queue := [], counts := [] } }

end Sys2Proof.Machine
end

