-- ==== Sys2Proof/Machine/Holds.lean ====
section
/-!
DEFINITION. The hold root (R30 to R33), and the start of a frame replay (R377 to R379): the operations that every source of a hold uses.
-/

namespace Sys2Proof.Machine
open Sys2Proof

/-- SD_LAST_HOLD and HOLD_REQUEST kinds (R43). -/
def kindMayWait : Nat := 0
def kindSched : Nat := 1
def kindSkew : Nat := 2
def kindTick : Nat := 3
def kindOverrun : Nat := 4
def kindReplay : Nat := 5

/-- FB_STATUS.STATE codes (R242). -/
def portDownCode : Nat := 0
def portDetect : Nat := 1
def portEqualise : Nat := 2
def portLock : Nat := 3
def portIdentify : Nat := 4
def portUpCode : Nat := 5
def portFailed : Nat := 6

/-- An ALIGN is in flight. -/
def aligning (s : State) : Bool := s.fns.any (fun m => m.2.flights.any (fun x => x.opcode == 0x04))

/-- The test pattern that a port transmits in place of all traffic, 0 for none (R225, R242). -/
def testPattern (s : State) (p : Nat) : Nat := if s.rd (FB_CTRL_TEST_PATTERN p) < 4 then s.rd (FB_CTRL_TEST_PATTERN p) else 0

/-- The port carries traffic: UP, no test pattern replaces it (R242), and a link that left UP in a machine has been aligned since (R241). -/
def portCarries (s : State) (p : Nat) : Bool :=
  s.rd (FB_STATUS_STATE p) == portUpCode && testPattern s p == 0 && (!(s.port p).cut || aligning s)

/-- The number of this module's next control word of a type (R231), and the state after it. -/
def ctlNumber (s : State) (type : Nat) : Nat := SMap.look s.die.ctlSeq type 0
def ctlNumbered (s : State) (type : Nat) : State :=
  { s with die := { s.die with ctlSeq := SMap.put s.die.ctlSeq type ((ctlNumber s type + 1) % 65536) } }

/-- The ports that belong to the machine's topology (R238). -/
def State.machinePorts (s : State) : List Nat := (List.range 16).filter (fun p => s.rd (FB_CTRL_IN_MACHINE p) == 1)

/-- A control word of channel 2 (R231): TYPE, origin, sequence number and the type-specific bits [63:36] (their layout within: DESIGN CHOICE,
log entry 22). -/
def ctlWord (type origin seq low : Nat) : W64 :=
  setBits (setBits (setBits (setBits 0 7 0 type) 19 8 origin) 35 20 seq) 63 36 low

/-- The control words of a hold, release or time message (R231): a hold carries KIND and SOURCE, a release the tick-timer value at sending. -/
def hpWords (index time : Nat) : Out → Option (Nat × W64 × W64)
  | .hold port origin seq kind source => some (port, ctlWord 0x01 origin seq (source + 4096 * kind), 0)
  | .release port origin seq stamp => some (port, ctlWord 0x02 origin seq stamp, 0)
  | .time port sample => some (port, ctlWord 0x05 index time 0, w64 sample)
  | _ => none

/-- A hold, release or time message leaves on its port (R231, R238), if the port carries traffic. -/
def State.sendHp (s : State) (m : Out) : State :=
  match hpWords s.index (ctlNumber s 5) m with
  | some (port, c0, c1) =>
    if portCarries s port then
      let q := s.port port
      (s.setPort port { q with ctl := q.ctl ++ [(c0, c1)] }).emit m
    else s
  | none => s.emit m

/-- A message sent on every port of the machine but one (R238). -/
def State.flood (s : State) (except : Option Nat) (m : Nat → Out) : State :=
  (s.machinePorts.filter (fun p => some p != except)).foldl (fun s p => s.sendHp (m p)) s

/-- The moment at which a hold's release counts at the root: its arrival, and for a hold that stands alone not before 2 tc after the
last region reached F (R30, R33). -/
def relEffective (sun : Sun) (h : Hold) : Nat :=
  max (h.relAt.getD 0) (if sun.holds.length = 1 then sun.lastAtF + 2 else 0)

/-- The length of one hold of a stand (R33): from the later of the stand's start and the request's arrival at the root, to 4 tc after the
release's. -/
def holdLength (sun : Sun) (h : Hold) : Nat := relEffective sun h + 4 - max sun.standAt h.reqAt

/-- The tick-timer count at which every domain resumes (R30, R33), once every region stands at F and every hold is released. Overlapping
holds cost the sum of their lengths. -/
def resumeAt (sun : Sun) : Option Nat :=
  if sun.stopped ∧ sun.regionsAt.length = 8 ∧ sun.holds.all (fun h => h.relAt.isSome) ∧ sun.holds.all (fun h => h.kind != kindReplay) then
    some (max (sun.standAt + (sun.holds.map (holdLength sun)).foldl (· + ·) 0)
      (max (sun.lastAtF + 6) (maxOf (sun.holds.map (fun h => h.relAt.getD 0)) + 4)))
  else none

/-- A request that reaches the root before the root's broadcast of the release joins the stand (R30): the root broadcasts 4 tc before the domains
resume. -/
def joins (sun : Sun) (h : Hold) : Bool := match resumeAt sun with | some r => h.reqAt + 4 ≤ r | none => true

/-- The requests of `later` that have reached the root while a freeze point stands join its stand, unless the root has broadcast the release; those
wait for the domains to resume (R30). -/
def rootRequests (s : State) : State :=
  if s.sun.freeze.isSome then
    s.sun.later.foldl (fun s h =>
      if h.reqAt ≤ s.sun.tick ∧ joins s.sun h then { s with sun := { s.sun with holds := s.sun.holds ++ [h], later := s.sun.later.erase h } } else s) s
  else s

/-- A request is sent, or presented by a port (R30, R32). Without a stand it sets the freeze point, 6 tc after this moment; otherwise the root
decides when it arrives. -/
def joinHold (s : State) (h : Hold) : State :=
  match s.sun.freeze with
  | none => { s with sun := { s.sun with freeze := some (s.sun.ctr + 6), holds := [h] }, out := s.out ++ [.freeze (s.sun.ctr + 6)] }
  | some _ => rootRequests { s with sun := { s.sun with later := s.sun.later ++ [h] } }

/-- A hold source of this die sends a request (R30): it takes 2 tc to the root, which forwards it to every port of the machine (R32,
R238). Skew holds and frame overruns leave their marks in SD_STATUS and SD_HOLD_COUNT (R43). -/
def requestHold (s : State) (kind source : Nat) : State :=
  let h : Hold := { origin := s.index, seq := s.sun.nextSeq, kind := kind, source := source, reqAt := s.sun.tick + 2, relAt := none, recorded := false }
  let s1 := { s with sun := { s.sun with nextSeq := (s.sun.nextSeq + 1) % 65536 } }
  let s2 :=
    if kind = kindSkew then (s1.raise SD_STATUS_SKEW_HOLD_SEEN).inc SD_HOLD_COUNT_SKEW_HOLDS 1
    else if kind = kindOverrun then s1.raise SD_STATUS_OVERRUN_SEEN
    else s1
  (joinHold s2 h).flood none (fun p => .hold p h.origin h.seq kind source)

/-- A hold counts in HOLDS, and SD_LAST_HOLD records it (R33, R43). -/
def recordHold (s : State) (h : Hold) (len cycle : Nat) : State :=
  let s1 := s.inc SD_HOLD_COUNT_HOLDS 1
  let s2 := s1.wr SD_LAST_HOLD_LENGTH (min len 0xFFFFFF)
  let s3 := s2.wr SD_LAST_HOLD_REMOTE (ofBool (h.origin != s.index))
  let s4 := s3.wr SD_LAST_HOLD_KIND h.kind
  let s5 := s4.wr SD_LAST_HOLD_SOURCE (if h.origin != s.index then h.origin else h.source)
  s5.wr SD_LAST_HOLD_CYCLE cycle

/-- The stand belongs to a replay: it counts as one hold, which the replay tick records (R382). -/
def replayStand (sun : Sun) : Bool := sun.holds.any (fun h => h.kind == kindReplay)

/-- The release of a hold reaches the root at `relAt` (R30). -/
def releaseHold (s : State) (origin seq relAt : Nat) : State :=
  let mark := fun (h : Hold) => if h.origin = origin ∧ h.seq = seq ∧ h.relAt = none then { h with relAt := some relAt } else h
  { s with sun := { s.sun with holds := s.sun.holds.map mark, later := s.sun.later.map mark } }

/-- The hold whose release reached the root first of those that are released by count `now_` and not recorded. -/
def nextRecord (sun : Sun) (now_ : Nat) : Option Hold :=
  minBy (fun h => h.relAt.getD 0) (sun.holds.filter (fun h => !h.recorded && h.relAt.isSome && h.relAt.getD 0 ≤ now_))

/-- The holds of a stand are recorded in the order in which their releases reach the root by count `now_`, `n` of them at most (R33). -/
def recordUpTo (now_ : Nat) : Nat → State → State
  | 0, s => s
  | n + 1, s =>
    match nextRecord s.sun now_ with
    | none => s
    | some h =>
      let s1 := recordHold s h (holdLength s.sun h) (s.sun.freeze.getD 0)
      recordUpTo now_ n { s1 with sun := { s1.sun with holds := s1.sun.holds.map (fun x => if x.origin = h.origin ∧ x.seq = h.seq then { x with recorded := true } else x) } }

/-- What is recorded by now (R33). The length of a hold is known once every region stands at F; a replay's stand is recorded by its tick (R382). -/
def recordDue (s : State) (now_ : Nat) : State :=
  if s.sun.regionsAt.length = 8 && !replayStand s.sun then recordUpTo now_ s.sun.holds.length s else s

-- frame replay

/-- Kinds of error sites, which are also RG_LAST_REPLAY.KIND (R378, R402). -/
def siteSp : Nat := 0
def siteTerrace : Nat := 1
def siteOrangery : Nat := 2
def siteLink : Nat := 3

/-- The RG_LAST_REPLAY word of an error found now (R402). -/
def replayWord (kind lasting place column addr cycle : Nat) : W64 :=
  setBits (setBits (setBits (setBits (setBits (setBits 0 63 61 kind) 60 60 lasting) 59 56 place) 55 51 column) 47 24 addr) 23 0 cycle

/-- The running frame is marked and a KIND 5 hold requested (R379); a module marks a frame once. Without a running frame there is nothing to
replay. -/
def startReplay (s : State) (word : W64) : State :=
  if s.replay.marked ∨ s.rd SD_STATUS_RUNNING = 0 then s
  else requestHold { s with replay := { s.replay with marked := true, report := word } } kindReplay 0

/-- The place and column of a site for RG_LAST_REPLAY: a tile's row and column, or a group or port. -/
def sitePlace (x : Site) : Nat × Nat := if x.kind ≤ 1 then (x.place / 17, x.place % 17) else (x.place, 0)

/-- The address of a site for RG_LAST_REPLAY (R402): the scratchpad word as line [17:6] and word [5:0], the beat, or the group-local address
over 2,048. -/
def siteAddr (x : Site) : Nat := if x.kind = siteLink then 0 else x.addr

/-- A lasting fault enters the error-log summary (R408) and the lifetime count. -/
def noteLasting (s : State) (x : Site) : State :=
  let s1 := lifeEvent s 4 1
  if x.kind ≤ 2 then summary s1 (x.kind + 1) (sitePlace x).1 (sitePlace x).2 else s1

/-- An uncorrectable error is found at a site (R378): it is lasting when the site's next attempt was due, which comes after the first response. -/
def noteSite (s : State) (x : Site) : State :=
  if x ∈ s.replay.fresh then s
  else if x ∈ s.replay.sites then
    let r := s.replay
    let s1 : State := { s with replay := { r with
      sites := r.sites.filter (· != x), lasting := if x ∈ r.lasting then r.lasting else r.lasting ++ [x] } }
    noteLasting ((s1.inc RG_REPLAY_LASTING 1).raise RG_STATUS_LASTING_SEEN) x
  else { s with replay := { s.replay with sites := s.replay.sites ++ [x] } }

/-- The site's next attempt is due: it was found bad, and its first response has been made (R378). -/
def attemptDue (r : Replay) (x : Site) : Bool := r.sites.contains x && !r.fresh.contains x

/-- A site waits for the first response of a replay, unless this error was its next attempt (R378). -/
def Replay.await (r : Replay) (x : Site) : Replay := if r.sites.contains x && !r.fresh.contains x then { r with fresh := r.fresh ++ [x] } else r

/-- An uncorrectable error that a replay answers (R377, R379). Errors found in abandoned work are ignored (R380). -/
def errorReplay (s : State) (x : Site) (cycle : Nat) : State :=
  let lasting := ofBool (attemptDue s.replay x)
  let s1 := noteSite s x
  startReplay { s1 with replay := if s.rd SD_STATUS_RUNNING = 0 then s1.replay else s1.replay.await x } (replayWord x.kind lasting (sitePlace x).1 (sitePlace x).2 (siteAddr x) cycle)

/-- The sites of a place, in a range of addresses, have read clean: their faults were transient (R378). A site whose first response is still to come has
no attempt yet. -/
def siteClean (s : State) (kind place lo hi : Nat) : State :=
  if s.replay.sites.isEmpty then s
  else { s with replay := { s.replay with
    sites := s.replay.sites.filter (fun x => s.replay.fresh.contains x || !(x.kind == kind && x.place == place && lo ≤ x.addr && x.addr < hi)) } }

end Sys2Proof.Machine
end

