-- ==== Sys2Proof/Machine/Scratchpad.lean ====
section
/-!
DEFINITION. Scratchpad and Terrace of a tile (chapter 8): windows, bank ranges and frame-carried pairs, what a read's protection finds
(R185 to R187, R198, R199), narrow accesses, and the zero fills of R193.
-/

namespace Sys2Proof.Machine
open Sys2Proof

/-- Bytes of a scratchpad and of a Terrace (R177, R194). -/
def spBytes : Nat := 0x200000
def trBytes : Nat := 0x1000000

/-- An interval of bytes, first and last, lies inside the tile's window and inside the scratchpad (R189). -/
def windowOk (t : Tile) (iv : Nat × Nat) : Bool :=
  t.rd TL_SP_WINDOW_LO_LINE ≤ iv.1 / 512 && iv.2 / 512 ≤ t.rd TL_SP_WINDOW_HI_LINE && iv.1 ≤ iv.2 && iv.2 < spBytes

/-- A line interval overlaps another, both inclusive. -/
def linesMeet (a b c d : Nat) : Bool := a ≤ d && c ≤ b && a ≤ b && c ≤ d

/-- Bank range `n` refuses a descriptor's writes to the interval (R190, R191). `listOk` holds for the writers that USE 1 allows. -/
def bankRefuses (t : Tile) (listOk : Bool) (iv : Nat × Nat) (n : Nat) : Bool :=
  let use := t.rd (TL_SP_BANK_USE n)
  linesMeet (t.rd (TL_SP_BANK_LO_LINE n)) (t.rd (TL_SP_BANK_HI_LINE n)) (iv.1 / 512) (iv.2 / 512)
    && (use == 2 || (use == 1 && !listOk))

/-- Half `h` of frame-carried pair `n`, first and last line (R316). -/
def fcHalf (t : Tile) (n h : Nat) : Nat × Nat :=
  let lo := t.rd (TL_FC_LO_LINE n) + h * t.rd (TL_FC_LINES n)
  (lo, lo + t.rd (TL_FC_LINES n) - 1)

/-- The valid pairs of a tile. -/
def fcPairs (t : Tile) : List Nat := (List.range 4).filter (fun n => t.rd (TL_FC_VALID n) == 1 && t.rd (TL_FC_LINES n) != 0)

/-- The interval breaks R317 in frame `f`. -/
def fcBreaks (t : Tile) (f : Nat) (carried : Bool) (iv : Nat × Nat) : Bool :=
  if carried then
    !(fcPairs t).any (fun n => (fcHalf t n (f % 2)).1 ≤ iv.1 / 512 && iv.2 / 512 ≤ (fcHalf t n (f % 2)).2)
  else
    (fcPairs t).any (fun n => linesMeet (fcHalf t n 0).1 (fcHalf t n 1).2 (iv.1 / 512) (iv.2 / 512))

/-- The first fault that a descriptor's scratchpad operands raise at its start, in the order of R145: SP_RANGE, then BANK_RANGE from a
bank range or a pair. -/
def spFault (t : Tile) (frame : Nat) (carried listOk : Bool) (reads writes : List (Nat × Nat)) : Option Nat :=
  if (reads ++ writes).any (fun iv => !windowOk t iv) then some faultSpRange
  else if writes.any (fun iv => (List.range 4).any (bankRefuses t listOk iv)) then some faultBankRange
  else if writes.any (fcBreaks t frame carried) then some faultBankRange
  else none

/-- `n` free bytes (log entry 11). -/
def freeBytes (draw n : Nat) : List Byte := (List.range n).map (Config.freeByte draw)

/-- A free syndrome: non-zero for every reported word (R185). -/
def freeSyndrome (draw : Nat) : Nat := 1 + Config.freeNat draw % 255

/-- The syndrome of a single-bit error at bit `b` of a codeword: non-zero, and the same for equal bits (R185). -/
def bitSyndrome (b : Nat) : Nat := 1 + Config.syndrome b % 255

-- reads and writes of one tc (R147, R179, R195)

/-- Classes of writers of one byte in one tc, the last of which prevails (R147): Orangery, GET reply, other landing, scratchpad unit, matrix engine,
vector engine. Narrow writes, digests and write-backs never meet another writer (R181). -/
def byOrangery : Nat := 0
def byReply : Nat := 1
def byLanding : Nat := 2
def bySpUnit : Nat := 3
def byMatrix : Nat := 4
def byVector : Nat := 5

/-- What the tile keeps of a byte before its write in this tc: the byte, and the class of the latest writer. -/
def noteOld (sp : Mem) (l : SMap (Byte × Nat)) (cls a : Nat) : SMap (Byte × Nat) :=
  SMap.put l a (match SMap.look? l a with | some x => (x.1, cls) | none => (Mem.rd sp a, cls))

/-- Bytes written to a tile's scratchpad by a writer of a class: a byte that a later class has written in this tc keeps that value (R147). -/
def Tile.spPut (t : Tile) (cls a : Nat) : List Byte → Tile
  | [] => t
  | b :: bs =>
    let t1 := if (SMap.look t.spNew a (0, 0)).2 ≤ cls then { t with sp := Mem.wr t.sp a b, spNew := noteOld t.sp t.spNew cls a } else t
    t1.spPut cls (a + 1) bs

/-- The scratchpad as the reads of this tc find it: without the writes of the tc (R147, R179). -/
def Tile.spSeen (t : Tile) : Mem := t.spNew.foldl (fun m x => Mem.wr m x.1 x.2.1) t.sp

/-- Bytes written to a tile's Terrace, the old ones kept for the reads of this tc (R195). -/
def Tile.trPut (t : Tile) (a : Nat) : List Byte → Tile
  | [] => t
  | b :: bs =>
    let old := SMap.put t.trNew a (SMap.look t.trNew a (Mem.rd t.tr a))
    ({ t with tr := Mem.wr t.tr a b, trNew := old } : Tile).trPut (a + 1) bs

/-- The Terrace as the reads of this tc find it (R195). -/
def Tile.trSeen (t : Tile) : Mem := t.trNew.foldl (fun m x => Mem.wr m x.1 x.2) t.tr

/-- Bytes written to a tile's scratchpad. -/
def spWrite (s : State) (p cls a : Nat) (b : List Byte) : State := s.modTile p (fun t => t.spPut cls a b)

/-- Beats written to a tile's Terrace (R195). -/
def trWrite (s : State) (p a : Nat) (b : List Byte) : State := s.modTile p (fun t => t.trPut a b)

-- what the protection of a read finds (R185 to R187, R198, R199)

/-- The scratchpad as a descriptor's reads find it: the data of an uncorrectable word is not defined (R187). -/
def spView (s : State) (p : Nat) (chk : Check) : Mem :=
  match chk with
  | .uncorrectable a _ => Mem.wrN (s.tile p).spSeen (8 * a) (freeBytes s.free 8)
  | _ => (s.tile p).spSeen

/-- TL_SP_ERRLOG takes a record when it holds none, or when an uncorrectable one replaces a corrected one (R201). -/
def spErrlog (t : Tile) (uncorr port word syndrome : Nat) : Tile :=
  if t.rd TL_SP_ERRLOG_VALID = 0 ∨ (uncorr = 1 ∧ t.rd TL_SP_ERRLOG_UNCORR = 0) then
    (t.setReg TL_SP_ERRLOG_OFF
      (setBits (setBits (setBits (setBits (setBits 0 62 62 uncorr) 61 60 port) 47 40 syndrome) 27 16 (word / 64)) 5 0 (word % 64))).raise
        TL_SP_ERRLOG_VALID
  else t

/-- What a scratchpad read's protection found is counted and logged (R187, R201); an uncorrectable error found by a descriptor, by the
scrubber or by an injection starts a replay (R377). `port`: 0 A, 1 B, 2 old word, 3 scrubber. `lo` and `hi` bound the words read. -/
def noteSp (s : State) (p port lo hi : Nat) (chk : Check) (replay : Bool) : State :=
  match chk with
  | .clean => siteClean s siteSp p lo hi
  | .corrected a n b =>
    let t := (s.tile p).incSat TL_SP_ECC_CE_COUNT n
    siteClean (s.setTile p (spErrlog t 0 port a (bitSyndrome b))) siteSp p lo hi
  | .uncorrectable a _ =>
    let t := (s.tile p).incSat TL_SP_ECC_UE_COUNT 1
    let s1 := (s.setTile p (spErrlog t 1 port a (freeSyndrome s.free))).drawn
    if replay then errorReplay s1 { kind := siteSp, place := p, addr := a } (s.now p) else s1

/-- The Terrace as a load finds it: the data of an uncorrectable beat is not defined (R199). -/
def trView (s : State) (p : Nat) (chk : Check) : Mem :=
  match chk with
  | .uncorrectable a _ => Mem.wrN (s.tile p).trSeen (512 * (a / 64)) (freeBytes s.free 512)
  | _ => (s.tile p).trSeen

/-- TL_TR_ERRLOG (R201). -/
def trErrlog (t : Tile) (uncorr parity scrub beat syndrome word : Nat) : Tile :=
  if t.rd TL_TR_ERRLOG_VALID = 0 ∨ (uncorr = 1 ∧ t.rd TL_TR_ERRLOG_UNCORR = 0) then
    (t.setReg TL_TR_ERRLOG_OFF
      (setBits (setBits (setBits (setBits (setBits (setBits 0 62 62 uncorr) 61 61 parity) 60 60 scrub) 47 40 syndrome) 20 6 beat) 5 0 word)).raise
        TL_TR_ERRLOG_VALID
  else t

/-- What a Terrace read's protection found (R198, R199, R201); found by MX_LOAD it starts a replay (R377), found by the scrubber it does not
(R200). A mismatch of row parity alone has no syndrome; WORD then names the parity group. -/
def noteTr (s : State) (p lo hi : Nat) (chk : Check) (scrub : Bool) : State :=
  match chk with
  | .clean => siteClean s siteTerrace p lo hi
  | .corrected a n b =>
    let t := (s.tile p).incSat TL_TR_ECC_CE_COUNT n
    siteClean (s.setTile p (trErrlog t 0 0 (ofBool scrub) (a / 64) (bitSyndrome b) (a % 64))) siteTerrace p lo hi
  | .uncorrectable a par =>
    let t := ((s.tile p).incSat TL_TR_ECC_UE_COUNT 1).incSat TL_TR_ECC_PARITY_COUNT (if par = 0 then 0 else 1)
    let s1 := (s.setTile p (trErrlog t 1 (if par = 0 then 0 else 1) (ofBool scrub) (a / 64) (if par = 2 then 0 else freeSyndrome s.free)
      (if par = 0 then a % 64 else a % 8))).drawn
    if scrub then s1 else errorReplay s1 { kind := siteTerrace, place := p, addr := a / 64 } (s.now p)

/-- A landing's bytes do not match the position that FRAME_CARRIED claims (R318): LANDING_MISMATCH. -/
def noteLanding (s : State) (p : Nat) (carried : Bool) (iv : Nat × Nat) : State :=
  let t := s.tile p
  if fcBreaks t s.frame carried iv then s.setTile p (t.raise TL_FC_STATUS_LANDING_MISMATCH) else s

/-- A zero fill of a tile's scratchpad begins (R193): its first line is written in the tc after the write. A fill that runs begins again (log
entry 18). -/
def clearSp (s : State) (p : Nat) : State := s.modTile p (fun t => { t with spClear := some 0 })

/-- A zero fill of a tile's Terrace begins (R193). -/
def clearTr (s : State) (p : Nat) : State := s.modTile p (fun t => { t with trClear := some 0 })

end Sys2Proof.Machine
end

