-- ==== Sys2Proof/Machine/Trellis.lean ====
section
/-!
DEFINITION. The Trellis (chapter 9): routes and hop counts, slots and collisions, channels, credits and revocations.
-/

namespace Sys2Proof.Machine
open Sys2Proof

/-- The distance of two numbers. -/
def dist (a b : Nat) : Nat := (a - b) + (b - a)

/-- Hops between two logical tiles (R203). -/
def hops (a b : Nat) : Nat := dist (a / 16) (b / 16) + dist (a % 16) (b % 16)

/-- The router at which Footbridge port `k` attaches (R202). -/
def portRouter (k : Nat) : Nat := 16 * (4 * (k / 4) + 1) + 4 * (k % 4) + 1

/-- The router at which Orangery interface `k` attaches (R202). -/
def oyRouter (k : Nat) : Nat := 16 * (4 * (k / 4) + 2) + 4 * (k % 4) + 2

/-- Hops between a tile and a port, the attach link counted (R202, R203). -/
def portHops (t k : Nat) : Nat := hops t (portRouter k) + 1

/-- Output sites of a router (R223): 1 west, 2 north, 3 east, 4 south, 5 ejection port, 6 attach link; 8 stands for
the attach link that a port drives toward the router. -/
def rowRoute : Nat → Nat → Nat → List (Nat × Nat)
  | 0, _, _ => []
  | fuel + 1, t, j =>
    if t % 16 = j then []
    else if t % 16 < j then (t, 3) :: rowRoute fuel (t + 1) j
    else (t, 1) :: rowRoute fuel (t - 1) j

/-- The part of a route along a column. -/
def colRoute : Nat → Nat → Nat → List (Nat × Nat)
  | 0, _, _ => []
  | fuel + 1, t, i =>
    if t / 16 = i then []
    else if t / 16 < i then (t, 4) :: colRoute fuel (t + 16) i
    else (t, 2) :: colRoute fuel (t - 16) i

/-- The route from a tile to a tile: along the row, then along the column (R203). -/
def route (a b : Nat) : List (Nat × Nat) :=
  rowRoute 16 a (b % 16) ++ colRoute 16 (16 * (a / 16) + b % 16) (b / 16)

/-- The route of a transfer on this die (R202, R203): the attach link of its ingress port, the links, and at last an ejection port, or the attach
link of its egress port. -/
def Transfer.path (x : Transfer) : List (Nat × Nat) :=
  let entry := if x.inPort < 16 then portRouter x.inPort else x.srcTile
  (if x.inPort < 16 then [(portRouter x.inPort, 8)] else [])
    ++ (if x.leg = 1 then route entry (portRouter x.port) ++ [(portRouter x.port, 6)] else route entry x.dstTile ++ [(x.dstTile, 5)])

/-- The hop count h of a transfer (R203). -/
def Transfer.hops (x : Transfer) : Nat := if x.leg = 1 then x.path.length else x.path.length - 1

/-- The tc from a flit's injection to its landing, or to its crossing of the last attach link (R204). -/
def Transfer.flight (x : Transfer) : Nat := if x.leg = 1 then 2 * x.hops + 1 else 2 * x.hops + 6

/-- The counter on which the tc of a site are counted (R208): that of the router's region, or Sundial's for a link that a port drives. -/
def siteNow (s : State) (site : Nat × Nat) : Nat := if site.2 = 8 then s.sun.ctr else s.now (s.phys site.1)

/-- Region `g` works in this Sundial cycle: no droop stretches it (R36). -/
def regionRuns (s : State) (g : Nat) : Bool := SMap.look s.sun.gaps g 0 != 9

/-- The router or port that drives a site works in this cycle. -/
def siteRuns (s : State) (site : Nat × Nat) : Bool := site.2 == 8 || regionRuns s (regionOf (s.phys site.1))

/-- The input by which a flit reaches site `k` of its path (R209): 0 local injection, 1 west, 2 north, 3 east, 4 south, 5 attach link. -/
def inputAt (path : List (Nat × Nat)) (k : Nat) : Nat :=
  if k = 0 then 0
  else match (path.getD (k - 1) (0, 0)).2 with
    | 1 => 3
    | 2 => 4
    | 3 => 1
    | 4 => 2
    | _ => 5

/-- The router or port that drives a site stands at a freeze point. -/
def siteStands (s : State) (site : Nat × Nat) : Bool := if site.2 = 8 then s.standing else s.tileStands (s.phys site.1)

/-- A channel-1 flit uses site `k` of its path in this tc (R204, R208); a pad record holds the ejection port alone (R215). -/
def flitAtSite (s : State) (x : Transfer) (path : List (Nat × Nat)) (f : MeshFlit) (k : Nat) : Bool :=
  let site := path.getD k (0, 0)
  f.car == 1 && f.hop ≤ k && (!f.pad || site.2 == 5) && siteRuns s site && !siteStands s site && siteNow s site + x.flight == f.due + 2 * k + 3

/-- A channel-1 slot taken in this tc: the transfer, the place of the flit among its flits in the mesh, the site, and the flit's input. -/
structure Slot where
  id : Nat
  at_ : Nat
  k : Nat
  site : Nat × Nat
  inp : Nat
  reply : Option (Nat × Nat)
  deriving DecidableEq, Repr

/-- The flits of one reply that the mesh multicasts share their slots (R164): the reply and the offset. -/
def replyKey (x : Transfer) (f : MeshFlit) : Option (Nat × Nat) := if x.op = 3 then some (x.line, f.off) else none

/-- The channel-1 slots of this tc (R208). A stand of the Sundial domain or of the router's region stops channel 1 (R206). -/
def slotsNow (s : State) : List Slot :=
  s.die.transfers.flatMap (fun x =>
    let path := x.path
    (List.range x.air.length).flatMap (fun j =>
      match x.air[j]? with
      | none => []
      | some f => ((List.range path.length).filter (flitAtSite s x path f)).map (fun k =>
          { id := x.id, at_ := j, k := k, site := path.getD k (0, 0), inp := inputAt path k, reply := replyKey x f })))

/-- Slot `y` takes the resource and not `x`: its input comes first (R209). -/
def slotWins (y x : Slot) : Bool :=
  y.site == x.site && (y.reply.isNone || y.reply != x.reply) && (y.inp < x.inp || (y.inp == x.inp && (y.id < x.id || (y.id == x.id && y.at_ < x.at_))))

/-- TW_COLLISION takes a record when VALID is 0 (R223). -/
def noteCollision (t : Tile) (site cycle : Nat) : Tile :=
  if t.rd TW_COLLISION_VALID = 0 then
    ((t.raise TW_COLLISION_VALID).wr TW_COLLISION_SITE site).wr TW_COLLISION_CYCLE cycle
  else t

/-- SLOT_COLLISION at the tile that owns a slot, where no descriptor of its own was refused (R209). -/
def raiseCollision (s : State) (p site : Nat) : State :=
  raiseFault (s.setTile p (noteCollision (s.tile p) site (s.now p))) p faultSlotCollision 0xFF 2 0

/-- A transfer changed. -/
def State.modXfer (s : State) (id : Nat) (f : Transfer → Transfer) : State :=
  { s with die := { s.die with transfers := s.die.transfers.map (fun x => if x.id = id then f x else x) } }

/-- A transfer in the mesh, by its number. -/
def State.xfer (s : State) (id : Nat) : Option Transfer := s.die.transfers.find? (fun x => x.id == id)

/-- A flit that lost a slot goes on over channel 0 from that router (R209); a pad record then passes the ejection port before it, as on channel 0. -/
def demoteFlit (tick time : Nat) (x : Transfer) (c : Slot) : Transfer :=
  let lost := modAt (fun (f : MeshFlit) => { f with car := 0, hop := c.k, due := tick + 1, came := time + 1 }) x.air c.at_
  let first := match x.air[c.at_]? with | some f => f.off == 0 | none => false
  { x with air := if first then lost.filter (fun f => !(f.pad && f.car == 1)) else lost }

/-- The collisions of this tc (R208, R209): each is raised once at the tile that owns the slot, and every flit but the first input's is demoted. -/
def collide (s : State) (slots : List Slot) : State :=
  let lost := slots.filter (fun x => slots.any (fun y => slotWins y x))
  let s1 := ((lost.map (·.site)).eraseDups).foldl (fun s k => raiseCollision s (s.phys k.1) (if k.2 = 8 then 6 else k.2)) s
  -- from the last flit of a transfer to its first, so that a flit's place holds until it is demoted
  lost.reverse.foldl (fun s c => s.modXfer c.id (fun x => demoteFlit s.sun.tick s.sun.time x c)) s1

-- channel 0 (R207)

/-- A channel-0 flit that waits at a router or a port for its next site. -/
structure Waiter where
  id : Nat
  at_ : Nat
  site : Nat × Nat
  inp : Nat
  came : Nat
  reply : Option (Nat × Nat)
  deriving DecidableEq, Repr

/-- The channel-0 flits that stand in the input buffers. -/
def waiters (s : State) : List Waiter :=
  s.die.transfers.flatMap (fun x =>
    let path := x.path
    (List.range x.air.length).filterMap (fun j =>
      match x.air[j]? with
      | none => none
      | some f =>
        if f.car = 0 ∧ f.hop < path.length ∧ f.due ≤ s.sun.tick ∧ siteRuns s (path.getD f.hop (0, 0)) then
          some { id := x.id, at_ := j, site := path.getD f.hop (0, 0), inp := inputAt path f.hop, came := f.came, reply := replyKey x f }
        else none))

/-- The flit stands at the head of its input buffer: the buffers are first in, first out. -/
def isHead (l : List Waiter) (w : Waiter) : Bool :=
  l.all (fun y => !(y.site.1 == w.site.1 && y.inp == w.inp && (y.site.2 == 8) == (w.site.2 == 8)
    && (y.came < w.came || (y.came == w.came && (y.id < w.id || (y.id == w.id && y.at_ < w.at_))))))

/-- The pointer of an output (R207). -/
def pointerOf (s : State) (site : Nat × Nat) : Nat := SMap.look s.die.pointers (16 * site.1 + site.2) 0

/-- The head that an output grants: the first input from its pointer on (R207). -/
def outputGrant (s : State) (heads : List Waiter) (site : Nat × Nat) : Option Waiter :=
  minBy (fun w => (w.inp + 6 - pointerOf s site) % 6) (heads.filter (fun w => w.site == site))

/-- The first flit of a padded message, whose pad record has still to pass the ejection port (R215). -/
def padPending (x : Transfer) (f : MeshFlit) : Bool := !f.pad && 0 < x.pad && f.off == 0 && f.came != 0

/-- A flit passes its site (R204, R207): the next one in 2 tc, a landing 3 tc after the ejection port, an egress port at once. A message's pad record,
the second answer, takes the ejection port first. -/
def passSite (tick time : Nat) (x : Transfer) (f : MeshFlit) : MeshFlit × List MeshFlit :=
  let site := x.path.getD f.hop (0, 0)
  if site.2 = 5 then
    if x.op = 1 ∧ padPending x f then
      ({ f with due := tick + 1, came := 0 }, [{ f with pad := true, hop := f.hop + 1, due := tick + 3, data := [] }])
    else ({ f with hop := f.hop + 1, due := tick + 3 }, [])
  else ({ f with hop := f.hop + 1, due := if site.2 = 6 then tick + 1 else tick + 2, came := time + 1 }, [])

/-- The flits of a list at some places pass their sites. -/
def passSites (tick time : Nat) (x : Transfer) (places : List Nat) : Transfer :=
  let pads := places.flatMap (fun j => match x.air[j]? with | some f => (passSite tick time x f).2 | none => [])
  { x with air := places.foldl (modAt (fun f => (passSite tick time x f).1)) x.air ++ pads }

/-- The output of one site works for one tc: it grants a head, with the copies of a multicast reply, and its pointer moves past the input. -/
def runOutput (all heads : List Waiter) (s : State) (site : Nat × Nat) : State :=
  match outputGrant s heads site with
  | none => s
  | some w =>
    let moved := all.filter (fun y => y.site == w.site && y.inp == w.inp && ((y.id == w.id && y.at_ == w.at_) || (w.reply.isSome && y.reply == w.reply)))
    let again := match s.xfer w.id with
      | some x => (match x.air[w.at_]? with | some f => site.2 == 5 && x.op == 1 && padPending x f | none => false)
      | none => false
    let s1 : State := { s with die := { s.die with pointers := SMap.put s.die.pointers (16 * site.1 + site.2) (if again then w.inp else (w.inp + 1) % 6) } }
    (moved.map (·.id)).eraseDups.foldl (fun s id => s.modXfer id (fun x =>
      passSites s.sun.tick s.sun.time x ((moved.filter (fun y => y.id == id)).map (·.at_)))) s1

/-- One tc of the mesh: the slots of channel 1 and their collisions, then every output that channel 1 leaves free (R206 to R209). -/
def meshCycle (s : State) : State :=
  let slots := slotsNow s
  let s1 := collide s slots
  let all := waiters s1
  let heads := all.filter (isHead all)
  ((heads.map (·.site)).eraseDups.filter (fun k => !slots.any (fun c => c.site == k))).foldl (runOutput all heads) s1

-- injection (R150, R204)

/-- A transfer enters the list of transfers with its next number. -/
def newTransfer (s : State) (x : Transfer) : State :=
  { s with die := { s.die with transfers := s.die.transfers ++ [{ x with id := s.die.nextXfer }], nextXfer := s.die.nextXfer + 1 } }

/-- Flit of channel `car` injected in tc `i` of the injecting region, which is Sundial cycle `tick` of the frame. -/
def newFlit (x : Transfer) (car i tick time off : Nat) (data : List Byte) : MeshFlit :=
  { car := car, due := if car = 1 then i + x.flight else tick + 3, hop := 0, came := time + 1, pad := false, off := off, data := data }

/-- A transfer's next flit enters the mesh; the first one of a message that pads on channel 1 brings the slot of the pad record (R208). -/
def enterFlit (s : State) (id car i off : Nat) (data : List Byte) : State :=
  s.modXfer id (fun x =>
    let f := newFlit x car i s.sun.tick s.sun.time off data
    let pad := if x.op = 1 ∧ x.leg = 0 ∧ 0 < x.pad ∧ off = 0 ∧ car = 1 then [{ f with pad := true, due := f.due - 1, data := [] }] else []
    { x with air := x.air ++ pad ++ [f], left := x.left - 1 })

-- channel-2 control words

/-- A control word for an agent of this die leaves now and takes effect at the end of its arrival tc (R207). -/
def sendCtl (s : State) (body : CtlBody) (h : Nat) : State :=
  { s with die := { s.die with ctls := s.die.ctls ++ [{ body := body, due := s.sun.tick + 3 + h, stale := false }] } }

/-- A control word is queued at a port for its next block (R229), if the port carries traffic. -/
def queueCtl (s : State) (port : Nat) (c0 c1 : W64) : State :=
  if portCarries s port then
    let q := s.port port
    (s.setPort port { q with ctl := q.ctl ++ [(c0, c1)] }).emit (.ctl port c0 c1)
  else s

/-- A control word of this module leaves on a list of ports, with the next number of its type (R231). -/
def sendWord (s : State) (ports : List Nat) (type low : Nat) (c1 : W64) : State :=
  ctlNumbered (ports.foldl (fun s port => queueCtl s port (ctlWord type s.index (ctlNumber s type) low) c1) s) type

/-- Credits go to another module in words of at most 32,767, the largest count that a word carries (DESIGN CHOICE, log entry 22). -/
def sendCredits (port low : Nat) : Nat → Nat → State → State
  | 0, _, s => s
  | fuel + 1, count, s =>
    if count = 0 then s
    else sendCredits port low fuel (count - min count 32767) (sendWord s [port] 0x06 (low + 8192 * min count 32767) 0)

/-- The port through which a receive channel's sender is reached: the route table's port toward its module (R237). -/
def portToward (s : State) (m : Nat) : Option Nat :=
  if s.rd (FB_ROUTE_VALID m) = 1 then some (s.rd (FB_ROUTE_PORT m)) else none

/-- A message of this module's Warden to another one (R231): its word of type 8 leaves on the port toward that module; what the message says does not fit
the word, and stands in the output log (DESIGN CHOICE, log entry 22). -/
def State.tellWarden (s : State) (module : Nat) (m : WMsg) : State :=
  let s1 := s.emit (.warden module m)
  match portToward s module with
  | some port => sendWord s1 [port] 0x08 0 0
  | none => s1

/-- Receive channel `n` of physical tile `p` returns `count` credits to its sender (R162, R172, R212). -/
def returnCredits (s : State) (p t n count : Nat) : State :=
  let x := s.tile p
  let src := 16 * x.rd (TW_RECV_CFG_SRC_I n) + x.rd (TW_RECV_CFG_SRC_J n)
  let chan := x.rd (TW_RECV_CFG_SRC_SCHAN n)
  if x.rd (TW_RECV_CFG_REMOTE n) = 1 then
    match portToward s (x.rd (TW_RECV_CFG_SRC_MODULE n)) with
    | some port => sendCredits port (src + 256 * chan) 4 count s
    | none => s
  else sendCtl s (.credit src chan count) (hops t src)

/-- A channel's STATE word as it stood at the end of the previous tc (R158, R172, R219). -/
def Tile.chSeen (t : Tile) (f : Fld) : Nat := bits (SMap.look t.chPrev f.off (t.regW f.off)) f.hi f.lo

/-- A channel's STATE word is about to change: its value at the end of the previous tc is kept. -/
def Tile.keepCh (t : Tile) (off : Nat) : Tile := { t with chPrev := SMap.put t.chPrev off (SMap.look t.chPrev off (t.regW off)) }

/-- A revocation for the channel arrives in this tc (R219). -/
def revokedNow (s : State) (p n : Nat) : Bool :=
  s.die.ctls.any (fun c => match c.body with | .revoke t m => s.phys t == p && m == n && c.due ≤ s.sun.tick | _ => false)

/-- Credits arrive at send channel `n` of physical tile `p` (R172, R212, R219): never past SLOTS, nothing at a closed channel or in the tc of its
revocation, and the number added goes to CREDIT_CTR where it is enabled. -/
def addCredits (s : State) (p n count : Nat) : State :=
  let t := s.tile p
  if t.rd (TW_SEND_STATE_OPEN n) = 1 ∧ !revokedNow s p n then
    let have_ := t.rd (TW_SEND_STATE_CREDITS n)
    let now_ := min (have_ + count) (max have_ (t.rd (TW_SEND_CFG_SLOTS n)))
    let s1 := s.setTile p ((t.keepCh (TW_SEND_STATE_OFF n)).wr (TW_SEND_STATE_CREDITS n) now_)
    if t.rd (TW_SEND_STATE_CREDIT_CTR_EN n) = 1 then tcAdd s1 p (t.rd (TW_SEND_STATE_CREDIT_CTR n)) (now_ - have_) 2 0 else s1
  else s

/-- A revocation takes effect at send channel `n` of physical tile `p`, which reports it (R217). -/
def revoke (s : State) (p n : Nat) : State :=
  let t := (s.tile p).keepCh (TW_SEND_STATE_OFF n)
  report (s.setTile p (((t.wr (TW_SEND_STATE_OPEN n) 0).wr (TW_SEND_STATE_CREDITS n) 0).raise (TW_SEND_STATE_REVOKED n))) p 2

/-- Receive channel `n` of physical tile `p` closes: OPEN 0, GEN kept, a revocation to the paired send channel (R217). -/
def closeRecv (s : State) (p n : Nat) : State :=
  let x := s.tile p
  if x.rd (TW_RECV_STATE_OPEN n) = 1 then
    let s1 := s.setTile p ((x.keepCh (TW_RECV_STATE_OFF n)).wr (TW_RECV_STATE_OPEN n) 0)
    let src := 16 * x.rd (TW_RECV_CFG_SRC_I n) + x.rd (TW_RECV_CFG_SRC_J n)
    let chan := x.rd (TW_RECV_CFG_SRC_SCHAN n)
    if x.rd (TW_RECV_CFG_REMOTE n) = 1 then
      match portToward s (x.rd (TW_RECV_CFG_SRC_MODULE n)) with
      | some port => sendWord s1 [port] 0x07 (src + 256 * chan) 0
      | none => s1
    else sendCtl s1 (.revoke src chan) (match s.logical p with | some t => hops t src | none => 0)
  else s

/-- A send channel of a reset context: OPEN 0, CREDITS 0 (R220). -/
def closeSend (t : Tile) (n : Nat) : Tile :=
  if t.rd (TW_SEND_STATE_OPEN n) = 1 then ((t.keepCh (TW_SEND_STATE_OFF n)).wr (TW_SEND_STATE_OPEN n) 0).wr (TW_SEND_STATE_CREDITS n) 0 else t

/-- The mark in `Tile.chPrev` of a reset that took effect in this tc. -/
def resetMark : Nat := 0

/-- Every channel of a physical tile closes, and its handler queue is emptied (R217, R220): landings of this tc still complete, but queue nothing
(R219). -/
def closeChannels (s : State) (p : Nat) : State :=
  let s1 := (List.range 32).foldl (fun s n => closeRecv s p n) s
  let t := (List.range 32).foldl closeSend (s1.tile p)
  s1.setTile p { t with seq := { t.seq with hq := [] }, hqNew := 0, chPrev := SMap.put t.chPrev resetMark 1 }

/-- A transfer with nothing in it. -/
def Transfer.blank : Transfer :=
  { id := 0, op := 0, vc := 0, srcMod := 0, srcTile := 0, srcChan := 0, dstMod := 0, dstTile := 0, rchan := 0, gen := 0, fc := false,
    rctr := 0xFF, rinc := 0, off := 0, pad := 0, n := 64, handler := 0, line := 0, lines := 0, head := [], data := [], left := 0, air := [], got := 0,
    leg := 0, port := 16, inPort := 16, fbSlot := 0, cls := 0, getAddr := 0, getHandler := false, stale := false }

end Sys2Proof.Machine
end

