-- ==== Sys2Proof/Machine/Ports.lean ====
section
/-!
DEFINITION. When a started descriptor does what (R87, R106, R120, R125, R126, R153 to R158, R167, R172 to R176), and the ports of the scratchpad: banks,
claims, priorities and grants (R178 to R184).

A started descriptor's `pos` is the number of tc of its work that are done. A refused access keeps it where it is, so that everything later in the
descriptor moves with it (R182).
-/

namespace Sys2Proof.Machine
open Sys2Proof

-- how long a descriptor takes

/-- Row stride of a pass (R122). -/
def passStride (d : Desc) (fmt : Nat) : Nat := if d.stride = 0 then fmtRowBytes fmt else d.stride

/-- Bytes of an MX_STORE row (R127). -/
def storeRow (d : Desc) : Nat := if d.toBf16 then 128 else 256

/-- Lines or chunk columns that a scratchpad-unit descriptor moves (R153 to R155). -/
def Desc.spSteps (d : Desc) : Nat := if d.opcode = opSpFill ∨ d.opcode = opSpCopy then d.linesM else d.colK

/-- Flits of 256 bytes of a transfer to or from the scratchpad (R150, R176). -/
def Desc.flits (d : Desc) : Nat :=
  if d.unit = unitNet then meshFlits (64 * d.putSlots)
  else if d.unit = unitOy then meshFlits d.oyBytes
  else meshFlits (4 * d.sampleCount)

/-- Tc of its work after which a descriptor leaves its unit or port free for the next one. -/
def WinEntry.held (e : WinEntry) : Nat :=
  let d := e.desc
  if d.unit = unitMatrix then
    (if d.opcode = opMxLoad then fmtBeats d.loadFmt else if d.opcode = opMxPass then d.rows * fmtRow e.stage.fmt else d.rows)
  else if d.unit = unitVector then d.rows
  else if d.unit = unitSp then d.spSteps
  else if d.unit = unitNet then (if d.opcode = opNetGet then 1 else d.flits)
  else if d.unit = unitOy then 0
  else if d.opcode = opCtHash then 4 + 1088 * d.hashBlocks
  else if d.opcode = opCtSample then (if d.samplePart = 2 then 1 else d.flits)
  else 0

/-- Tc of its work after which a descriptor retires. -/
def WinEntry.span (e : WinEntry) : Nat :=
  let d := e.desc
  if d.opcode = opMxLoad then fmtLoad d.loadFmt
  else if d.opcode = opMxPass then (d.rows - 1) * fmtRow e.stage.fmt + fmtLat e.stage.fmt + 1
  else if d.opcode = opMxZero then d.rows + 1
  else if d.opcode = opMxStore then d.rows + 3
  else if d.unit = unitVector then (d.rows - 1) + d.vxLat + 1
  else if d.unit = unitSp then d.spSteps + (if d.opcode = opSpFill then 1 else 2)
  else if d.unit = unitNet then d.flits + 1
  else if d.opcode = opOyTerrace then 2 * d.oyUnits
  else if d.opcode = opOyWrite then d.flits + 1
  else if d.opcode = opOyRead then d.flits
  else if d.opcode = opCtHash then 4 + 1088 * d.hashBlocks
  else if d.opcode = opCtSample then (if d.samplePart = 2 then 2 else d.flits + 12)
  else 1

-- banks and claims

/-- The bank and the line of chunk `n` of a scratchpad, chunks numbered from byte 0 (R178). -/
def bankOf (n : Nat) : Nat × Nat := ((n % 16 + n / 16) % 16, n / 16)

/-- The banks of `n` bytes from an address (R179). -/
def rowBanks (a n : Nat) : List (Nat × Nat) := (List.range ((a + n - 1) / 32 + 1 - a / 32)).map (fun k => bankOf (a / 32 + k))

/-- The banks of chunk column `c` of 16 lines (R178, R184). -/
def colBanks (line c : Nat) : List (Nat × Nat) := (List.range 16).map (fun j => bankOf (16 * (line + j) + c))

/-- An access that needs no port of the scratchpad. -/
def Claim.free : Claim := { port := 3, prio := 0, banks := [] }

/-- A claim of bytes. -/
def Claim.row (port prio a n : Nat) : Claim := { port := port, prio := prio, banks := rowBanks a n }

/-- A claim of a chunk column. -/
def Claim.col (port prio line c : Nat) : Claim := { port := port, prio := prio, banks := colBanks line c }

/-- Claims that cannot be served in one tc (R181): one bank for two lines, or one bank of port W where a claim of priority 7 to 10 takes part. -/
def Claim.meets (x y : Claim) : Bool :=
  x.port == y.port && x.banks.any (fun a => y.banks.any (fun b => a.1 == b.1 && (a.2 != b.2 || (x.port == 2 && (7 ≤ x.prio || 7 ≤ y.prio)))))

-- accesses of one tc. Part 1 reads, 2 writes, 4 reads the old word of an accumulating reduction

/-- The bytes of row `m` of a vector operand in the scratchpad, and of a destination row (R94, R141). -/
def vxSrcRow (d : Desc) (m : Nat) : Nat × Nat := (d.vxSpBase + m * fmtSpBytes d.spFmt, fmtSpBytes d.spFmt)
def vxDstRow (d : Desc) (m : Nat) : Nat × Nat :=
  if d.opcode = opVxRed ∧ !d.redSpread then (d.vxSpBase + 4 * m, 4) else (d.vxSpBase + m * fmtSpBytes d.spFmt, fmtSpBytes d.spFmt)

/-- A source of a vector descriptor lies in the scratchpad; its destination does (R130). -/
def vxFromSp (d : Desc) : Bool := selKind d.srcA == 4 || selKind d.srcB == 4 || selKind d.srcC == 4
def vxToSp (d : Desc) : Bool := selKind d.dst == 4

/-- The accesses of the matrix engine in tc `k` of a descriptor (R87, R120, R125 to R127). -/
def matrixAccesses (d : Desc) (fmt k : Nat) : List (Nat × Claim) :=
  if d.opcode = opMxLoad then (if k < fmtBeats d.loadFmt then [(1, .free)] else [])
  else if d.opcode = opMxPass then
    let st := fmtRow fmt
    (if k % st = 0 ∧ k / st < d.rows then [(1, .row 0 2 (d.mxSpBase + k / st * passStride d fmt) (fmtRowBytes fmt))] else [])
      ++ (if fmtLat fmt ≤ k ∧ (k - fmtLat fmt) % st = 0 ∧ (k - fmtLat fmt) / st < d.rows then [(2, .free)] else [])
  else if d.opcode = opMxZero then (if 1 ≤ k ∧ k ≤ d.rows then [(2, .free)] else [])
  else
    (if k < d.rows then [(1, .free)] else [])
      ++ (if 3 ≤ k ∧ k < d.rows + 3 then [(2, .row 2 2 (d.mxSpBase + (k - 3) * storeRow d) (storeRow d))] else [])

/-- The accesses of the vector engine in tc `k` of a descriptor (R106, R180). -/
def vectorAccesses (d : Desc) (k : Nat) : List (Nat × Claim) :=
  let lat := d.vxLat
  (if k < d.rows then [(1, if vxFromSp d then .row 0 3 (vxSrcRow d k).1 (vxSrcRow d k).2 else .free)] else [])
    ++ (if d.opcode = opVxRed ∧ d.redAccum ∧ vxToSp d ∧ lat ≤ k + 1 ∧ k + 1 - lat < d.rows then
          [(4, .row 0 3 (vxDstRow d (k + 1 - lat)).1 (vxDstRow d (k + 1 - lat)).2)] else [])
    ++ (if lat ≤ k ∧ k - lat < d.rows then
          [(2, if vxToSp d then .row 2 3 (vxDstRow d (k - lat)).1 (vxDstRow d (k - lat)).2 else .free)] else [])

/-- The accesses of the scratchpad unit in tc `k` of a descriptor (R153 to R155, R184). -/
def spAccesses (d : Desc) (k : Nat) : List (Nat × Claim) :=
  if d.opcode = opSpFill then (if 1 ≤ k ∧ k ≤ d.linesM then [(2, .row 2 4 (512 * (d.firstLine + k - 1)) 512)] else [])
  else if d.opcode = opSpCopy then
    (if k < d.linesM then [(1, .row 0 5 (512 * (d.firstLine + k)) 512)] else [])
      ++ (if 2 ≤ k ∧ k < d.linesM + 2 then [(2, .row 2 4 (512 * (d.copyDst + k - 2)) 512)] else [])
  else if d.opcode = opSpGather then
    (if k < d.colK then [(1, .col 0 5 d.firstLine (d.colChunk + k))] else [])
      ++ (if 2 ≤ k ∧ k < d.colK + 2 then [(2, .row 2 4 (512 * (d.colDst + k - 2)) 512)] else [])
  else
    (if k < d.colK then [(1, .row 0 5 (512 * (d.firstLine + k)) 512)] else [])
      ++ (if 2 ≤ k ∧ k < d.colK + 2 then [(2, .col 2 4 d.colDst (d.colChunk + k - 2))] else [])

/-- The source bytes of flit `f` of a PUT or PUT_MSG, address and count: a message's first flit brings its header too (R157, R160). -/
def putBytes (d : Desc) (f : Nat) : Nat × Nat :=
  let hdr := if d.opcode = opNetPutMsg then 64 else 0
  let lo := 256 * f - hdr
  (d.netSrc + lo, min (256 * (f + 1)) (64 * d.putSlots) - hdr - lo)

/-- The accesses of the control unit in tc `k` of a descriptor (R174, R176). A claim of a block of 1,024 bytes takes its first line (DESIGN CHOICE, log
entry 18). -/
def ctAccesses (d : Desc) (k : Nat) : List (Nat × Claim) :=
  if d.opcode = opCtHash then
    (if k = 1 ∧ !d.hashFirst then [(1, .row 1 3 d.hashPrev 32)] else [])
      ++ (if 2 ≤ k ∧ (k - 2) % 1088 = 0 ∧ (k - 2) / 1088 < d.hashBlocks then [(1, .row 1 3 (512 * (d.firstLine + 2 * ((k - 2) / 1088))) 512)] else [])
      ++ (if 1091 ≤ k ∧ (k - 3) % 1088 = 0 then [(2, .row 2 7 (d.hashDst + 32 * ((k - 3) / 1088 - 1)) 32)] else [])
  else if d.opcode = opCtSample ∧ d.samplePart ≠ 2 ∧ k < d.flits then
    [(1, .row 0 4 (d.netSrc + 256 * k) (min 256 (4 * d.sampleCount - 256 * k)))]
  else []

/-- The accesses of a started descriptor in the next tc of its work. -/
def WinEntry.accesses (e : WinEntry) : List (Nat × Claim) :=
  let d := e.desc
  let k := e.pos
  if e.phase != .running then []
  else if d.unit = unitMatrix then matrixAccesses d e.stage.fmt k
  else if d.unit = unitVector then vectorAccesses d k
  else if d.unit = unitSp then spAccesses d k
  else if d.unit = unitNet then
    (if 1 ≤ k ∧ k ≤ d.flits then [(1, .row (if d.vc = 1 then 0 else 1) (if d.vc = 1 then 1 else 2) (putBytes d (k - 1)).1 (putBytes d (k - 1)).2)] else [])
  else if d.unit = unitOy then
    (if d.opcode = opOyRead then (if k < d.flits then [(1, .row 2 6 (d.oySp + 256 * k) (min 256 (d.oyBytes - 256 * k)))] else [])
     else if d.opcode = opOyWrite then
       (if 1 ≤ k ∧ k ≤ d.flits then [(1, .row 1 2 (d.oySp + 256 * (k - 1)) (min 256 (d.oyBytes - 256 * (k - 1))))] else [])
     else if k % 2 = 0 ∧ k / 2 < d.oyUnits then [(1, .free)] else [])
  else ctAccesses d k

/-- What claims: a command that its claim has been granted to, part `part` of window entry `at_`, GET window `at_`, a flit of transfer `id`, or the
zero fill. -/
inductive Claimant where
  | command
  | entry (at_ part : Nat)
  | window (at_ : Nat)
  | flit (id off : Nat) (pad : Bool)
  | fill
  deriving DecidableEq, Repr

-- the injection port (R158, R165, R206)

/-- A transfer of one flit that logical tile `t` sends, a GET request or a REMOTE_ADD, on channel `vc`, and that has not been injected (R164, R172):
it is injected in this tc, or in the next. -/
def singleWaits (x : Transfer) (t vc : Nat) : Bool := x.inPort == 16 && x.srcTile == t && x.vc == vc && (x.op == 2 || x.op == 4) && 0 < x.left && !x.stale
def singleNow (x : Transfer) (t vc : Nat) : Bool := singleWaits x t vc && x.left == 1

/-- A PUT or PUT_MSG that injects a flit in this tc. -/
def putNow (e : WinEntry) (vc : Nat) : Bool :=
  e.unit == unitNet && e.desc.opcode != opNetGet && e.desc.vc == vc && e.phase == .running && 1 ≤ e.pos && e.pos ≤ e.desc.flits

/-- A GET window that has a flit of its reply ready for injection on channel `car`. -/
def replyNow (w : GetWindow) (t car : Nat) : Bool := w.owner == t && w.car == car && w.started && !w.rows.isEmpty

/-- Tile `t`'s own descriptors inject on channel 1 in this tc. -/
def schedInjects (s : State) (t : Nat) : Bool :=
  (s.tile (s.phys t)).seq.window.any (fun e => putNow e 1) || s.die.transfers.any (fun x => singleNow x t 1)

/-- The channel-1 window whose reply takes the injection port in this tc: the first one. -/
def schedWindow (s : State) (t : Nat) : Option Nat := s.die.windows.findIdx? (fun w => replyNow w t 1)

/-- The injection port is left to channel 0 in this tc. -/
def bulkPort (s : State) (t : Nat) : Bool :=
  let stands := s.tileStands (s.phys t)
  stands || (!schedInjects s t && (schedWindow s t).isNone)

/-- What of channel 0 takes the port when it is free: a reply, then a transfer of one flit, then the oldest PUT (DESIGN CHOICE, log entry 18). -/
def bulkWindow (s : State) (t : Nat) : Option Nat := s.die.windows.findIdx? (fun w => replyNow w t 0)
def bulkSingle (s : State) (t : Nat) : Option Transfer := s.die.transfers.find? (fun x => singleNow x t 0)

/-- PUT `i` of the window may inject on channel 0 in this tc. -/
def bulkPut (s : State) (t i : Nat) : Bool :=
  bulkPort s t && (bulkWindow s t).isNone && (bulkSingle s t).isNone && (s.tile (s.phys t)).seq.window.findIdx? (fun e => putNow e 0) == some i

/-- The claims of the window's descriptors that have not been granted yet. In a stand only the units that go on then claim (R183), and a channel-0
injection claims when the injection port is its own (R158). -/
def entryClaims (s : State) (lt : Nat) (stands : Bool) : List (Claimant × Claim) :=
  let t := s.tile (s.phys lt)
  (List.range t.seq.window.length).flatMap (fun i =>
    match t.seq.window[i]? with
    | none => []
    | some e =>
      if stands ∧ !(e.unit == unitOy || (e.unit == unitNet && e.desc.vc == 0)) then []
      else if putNow e 0 ∧ !bulkPut s lt i then []
      else (e.accesses.filter (fun a => !e.part.testBit (a.1 / 2))).map (fun a => (.entry i a.1, a.2)))

/-- A window reads in the tc of age 16 on (R164): line `pos` of its lines. -/
def windowReads (w : GetWindow) : Bool := w.started && w.pos < w.lines

/-- The claims of a tile's GET windows. -/
def windowClaims (s : State) (t : Nat) (stands : Bool) : List (Claimant × Claim) :=
  (List.range s.die.windows.length).flatMap (fun i =>
    match s.die.windows[i]? with
    | none => []
    | some w =>
      if w.owner = t ∧ windowReads w ∧ !(stands && w.vc == 1) then
        [(.window i, .row (if w.vc = 1 then 0 else 1) (if w.vc = 1 then 1 else 2) (512 * (w.line + w.pos)) 512)]
      else [])

/-- The byte address of a receive channel's first slot (R213). -/
def recvBase (t : Tile) (n : Nat) : Nat := 64 * t.rd (TW_RECV_CFG_BASE n)

/-- Where a flit of a transfer lands (R159, R164, R215). -/
def landAt (t : Tile) (x : Transfer) (f : MeshFlit) : Nat :=
  if f.pad then recvBase t x.rchan + 64 * (t.rd (TW_RECV_CFG_SLOTS x.rchan) - x.pad)
  else if x.op = 0 then recvBase t x.rchan + x.off + f.off
  else if x.op = 1 then recvBase t x.rchan + 64 * x.off + f.off
  else x.off + f.off

/-- Bytes that a flit writes: none for a request or an add, the record for a pad. -/
def landCount (f : MeshFlit) : Nat := if f.pad then 64 else f.data.length

/-- The claim of a landing flit (R180). -/
def landClaim (t : Tile) (x : Transfer) (f : MeshFlit) : Claim := .row 2 (if f.car = 1 then 1 else 5) (landAt t x f) (landCount f)

/-- The last flit of a transfer, with which it has landed. -/
def lastFlit (x : Transfer) (f : MeshFlit) : Bool := !f.pad && (x.op == 2 || x.op == 4 || x.n ≤ f.off + 256)

/-- A flit is at its landing in this tc (R150, R204): on channel 1 in exactly the tc of its due count, on channel 0 from it on. -/
def flitLands (s : State) (x : Transfer) (f : MeshFlit) : Bool :=
  x.leg == 0 && (if f.car = 1 then f.due ≤ s.now (s.phys x.dstTile) && !s.tileStands (s.phys x.dstTile)
                 else x.path.length ≤ f.hop && f.due ≤ s.sun.tick)

/-- The last flit of a channel-0 transfer waits for the command with which the transfer lands (log entry 27). -/
def flitWaits (x : Transfer) (f : MeshFlit) : Bool := f.car == 0 && lastFlit x f

/-- The claims of flits that land on a tile now. A transfer of an abandoned frame claims nothing (R380). -/
def landClaims (s : State) (t : Nat) : List (Claimant × Claim) :=
  s.die.transfers.flatMap (fun x =>
    if x.dstTile = t ∧ x.leg = 0 ∧ !x.stale then
      (x.air.filter (fun f => flitLands s x f && 0 < landCount f && !flitWaits x f)).map (fun f =>
        (.flit x.id f.off f.pad, landClaim (s.tile (s.phys t)) x f))
    else [])

/-- The claim of a zero fill (R193). -/
def fillClaims (t : Tile) : List (Claimant × Claim) :=
  match t.spClear with
  | some (n + 1) => [(.fill, .row 2 4 (512 * n) 512)]
  | _ => []

/-- Every claim that the units of logical tile `t` and its landings make in this tc. -/
def tileClaims (s : State) (t : Nat) : List (Claimant × Claim) :=
  let p := s.phys t
  let stands := s.tileStands p
  entryClaims s t stands ++ windowClaims s t stands ++ landClaims s t ++ fillClaims (s.tile p)

/-- The claims of a physical tile, which a repair may have taken out of use. -/
def claimsAt (s : State) (p : Nat) : List (Claimant × Claim) :=
  match s.logical p with
  | some t => tileClaims s t
  | none => fillClaims (s.tile p)

/-- One priority's claims against those granted so far (R181). -/
def grantOne (acc : List (Claimant × Claim)) (l : List (Claimant × Claim)) : List (Claimant × Claim) :=
  l.foldl (fun a c => if a.any (fun g => g.2.meets c.2) then a else a ++ [c]) acc

/-- The claims that are granted beside those `given` to commands of this tc: by priority on every port (R181). -/
def grants (given : List Claim) (l : List (Claimant × Claim)) : List (Claimant × Claim) :=
  (List.range 11).foldl (fun acc k => grantOne acc (l.filter (fun c => c.2.prio == k))) (given.map (fun c => (.command, c)))

/-- A claim made by a command is granted: no claim of a higher priority, made or granted, and no claim granted before it in this tc meets it
(R181). -/
def claimOk (s : State) (p : Nat) (c : Claim) : Bool :=
  !((s.tile p).claims.any (fun g => g.meets c && g.prio ≤ c.prio)) && !((claimsAt s p).any (fun g => g.2.prio < c.prio && g.2.meets c))

/-- A claim granted to a command counts in the tc. -/
def takeClaim (s : State) (p : Nat) (c : Claim) : State := s.modTile p (fun t => { t with claims := t.claims ++ [c] })

end Sys2Proof.Machine
end

