-- ==== Sys2Proof/Machine/Sequencer.lean ====
section
/-!
DEFINITION. The tile sequencer (chapter 3): fetch buffers, checks at the head, the issue test, slips and may-wait holds, links, the handler stream,
retirement, and starting and stopping a tile.
-/

namespace Sys2Proof.Machine
open Sys2Proof

/-- Protection findings that lie in a range of addresses; others belong to other reads. -/
def chkIn (chk : Check) (lo hi : Nat) : Check :=
  match chk with
  | .clean => .clean
  | .corrected a n b => if lo ≤ a ∧ a < hi then .corrected a n b else .clean
  | .uncorrectable a b => if lo ≤ a ∧ a < hi then .uncorrectable a b else .clean

/-- The tile's sequencer state changed. -/
def State.modSeq (s : State) (p : Nat) (f : Seq → Seq) : State :=
  s.modTile p (fun t => { t with seq := f t.seq })

/-- HANDLER_ENTRIES in effect (R68). -/
def Tile.entries (t : Tile) : Nat := min (t.rd TL_SEQ_CONFIG_HANDLER_ENTRIES) 8

/-- Issued, unretired descriptors of a stream (R54). -/
def Seq.inFlight (q : Seq) (handler : Bool) : Nat := (q.window.filter (fun e => e.handler == handler)).length

/-- A line from which the sequencer may fetch descriptors (R192). -/
def lineAllowed (t : Tile) (line : Nat) : Bool :=
  let ranges := (List.range 4).filter (fun n => t.rd (TL_SP_BANK_USE n) == 1)
  t.rd TL_SP_WINDOW_LO_LINE ≤ line && line ≤ t.rd TL_SP_WINDOW_HI_LINE
    && (ranges.isEmpty || ranges.any (fun n => t.rd (TL_SP_BANK_LO_LINE n) ≤ line && line ≤ t.rd (TL_SP_BANK_HI_LINE n)))

/-- One line fetched in one wide access on port B, which is never refused (R47, R180, R182): the copy that the sequencer executes (R48). -/
def fetchLine (s : State) (p line : Nat) (forLink : Bool) (chk : Check) : State × FetchLine :=
  let c := chkIn chk (64 * line) (64 * line + 64)
  let m := spView s p c
  (takeClaim (noteSp s p 1 (64 * line) (64 * line + 64) c true) p (.row 1 1 (512 * line) 512),
   { line := line, descs := (List.range 8).map (fun k => descOf (Mem.rdN m (512 * line + 64 * k) 64)), forLink := forLink,
     outside := !lineAllowed (s.tile p) line })

/-- The descriptor of a buffered line at a descriptor address. -/
def FetchLine.at (l : FetchLine) (addr : Nat) : Desc := l.descs.getD (addr % 8) Desc.zero

/-- A fetch buffer after the head has moved: the line of the head first. -/
def settle (buf : List FetchLine) (head : Nat) : List FetchLine :=
  match buf with
  | [] => []
  | cur :: rest =>
    if cur.line = head / 8 then cur :: rest
    else match rest with
      | [] => []
      | n :: _ => if n.line = head / 8 then [n] else []

/-- The fetch buffer of a stream brought up to its head (R47): the head's line, then the next line in list order, or the target line once
the head is a link. -/
def fillBuf (s : State) (p head : Nat) (buf : List FetchLine) (chk : Check) : State × List FetchLine :=
  let b0 := settle buf head
  let r1 := if b0.isEmpty then (let r := fetchLine s p (head / 8) false chk; (r.1, [r.2])) else (s, b0)
  match r1.2 with
  | [] => r1
  | cur :: rest =>
    let d := cur.at head
    if d.isLink then
      if d.variant = 2 ∨ rest.any (·.forLink) then r1
      else (let r := fetchLine r1.1 p (d.target / 8) true chk; (r.1, [cur, r.2]))
    else if rest.isEmpty ∧ head / 8 < 4095 then (let r := fetchLine r1.1 p (head / 8 + 1) false chk; (r.1, [cur, r.2]))
    else r1

/-- A wait is met (R49, R51, R52): the counter was at least the value at the end of the previous tc. -/
def waitMet (t : Tile) (ctr value : Nat) : Bool := 64 ≤ ctr || value ≤ t.tcSeen ctr

/-- Both waits of a descriptor are met. -/
def Desc.met (d : Desc) (t : Tile) : Bool := waitMet t d.waitA d.valueA && waitMet t d.waitB d.valueB

/-- A wait on an orphaned counter below its value (R393). -/
def waitBroken (t : Tile) (ctr value : Nat) : Bool := ctr < 64 && t.orphaned.getLsbD ctr && t.tcSeen ctr < value

/-- A head that waits on an orphaned counter. -/
def Desc.broken (d : Desc) (t : Tile) : Bool := waitBroken t d.waitA d.valueA || waitBroken t d.waitB d.valueB

/-- The descriptors of a line from a slot on, with their addresses, up to and with the first link; and whether a link ended them. -/
def lineRun (line : Nat) : Nat → List Desc → List (Nat × Desc) × Bool
  | _, [] => ([], false)
  | k, d :: ds =>
    if d.isLink then ([(8 * line + k, d)], true)
    else (let r := lineRun line (k + 1) ds; ((8 * line + k, d) :: r.1, r.2))

/-- The buffered descriptors of the main stream in list order from the head on, up to the link that ends the list or the frame. -/
def buffered (head : Nat) (buf : List FetchLine) : List (Nat × Desc) :=
  match buf with
  | [] => []
  | cur :: rest =>
    let r := lineRun cur.line (head % 8) (cur.descs.drop (head % 8))
    match rest with
    | [] => r.1
    | n :: _ =>
      if n.forLink then
        (if (cur.at head).isLink && (cur.at head).variant == 0 then
          r.1 ++ (lineRun n.line ((cur.at head).target % 8) (n.descs.drop ((cur.at head).target % 8))).1 else r.1)
      else if r.2 then r.1
      else r.1 ++ (lineRun n.line 0 n.descs).1

/-- The tile freezes without a TL_FAULT bit and reports a broken wait (R393). -/
def breakWait (s : State) (p : Nat) : State := report (s.modSeq p (fun q => { q with run := .frozen })) p 1

/-- A retirement anywhere on the die starts the Ranger's count again (R390). -/
def noteProgress (s : State) : State := { s with replay := { s.replay with idle := 0 } }

/-- STATE becomes idle when a stopped tile's window is empty (R67). -/
def Tile.settleIdle (t : Tile) : Tile :=
  if t.rd TL_SEQ_CONFIG_ENABLE = 0 ∧ t.seq.window.isEmpty then { t with seq := { t.seq with run := .idle } } else t

/-- A descriptor leaves the window (R55, R116). -/
def leaveWindow (s : State) (p i : Nat) : State :=
  s.modTile p (fun t => { t with seq := { t.seq with window := t.seq.window.eraseIdx i } }.settleIdle)

/-- TL_TR_LOG takes an entry for a retired OY_TERRACE (R403), and a scrub rewrite that its beats cover is not made (R200). -/
def logMove (s : State) (p : Nat) (d : Desc) : State :=
  s.modTile p (fun t =>
    let n := t.rd TL_RP_CTRL_LOG_NEXT
    let t1 := ((t.wr (TL_TR_LOG_A_VALID n) 1).wr (TL_TR_LOG_A_BEAT n) d.oyBeat).wr (TL_TR_LOG_A_OY_ADDR n) d.oyAddr
    let t2 := ((t1.wr (TL_TR_LOG_B_FRAME n) s.frame).wr (TL_TR_LOG_B_LEN_M1 n) (d.oyUnits - 1)).wr TL_RP_CTRL_LOG_NEXT ((n + 1) % 64)
    { t2 with trRewrite := t2.trRewrite.filter (fun x => x.1 < d.oyBeat || d.oyBeat + d.oyUnits ≤ x.1) })

/-- Window entry `i` retires (R55): it leaves the window and signals. -/
def retireEntry (s : State) (p i : Nat) : State :=
  match (s.tile p).seq.window[i]? with
  | none => s
  | some e =>
    let s1 := noteProgress (leaveWindow s p i)
    let s2 := if e.desc.opcode = opOyTerrace then logMove s1 p e.desc else s1
    tcAddField s2 p e.desc.signal e.desc.signalInc (ofBool e.handler) e.addr

/-- Issue is counted, and the stream's head moves on (R46, R68). -/
def countIssue (s : State) (p : Nat) (handler : Bool) : State :=
  let now := s.now p
  s.modTile p (fun t =>
    let t1 := t.inc (if handler then TL_ISSUE_CNT_HANDLER_ISSUED else TL_ISSUE_CNT_MAIN_ISSUED) 1
    { t1 with seq := { t1.seq with issuedAt := some now } })

/-- The may-wait mark of the main head ends when the descriptor issues (R58). -/
def clearMark (q : Seq) : Seq := { q with holdSeq := none, holdReleased := false }

/-- A handler list ends (R152, R162, R216): the ring position moves past its message and the credits of message and pad go back. -/
def endHandler (s : State) (p t : Nat) (h : HandlerRun) : State :=
  let x := s.tile p
  let slots := x.rd (TW_RECV_CFG_SLOTS h.entry.rchan)
  let s1 := s.setTile p (x.wr (TW_RECV_STATE_RPTR h.entry.rchan) ((h.entry.pos + h.entry.n) % slots))
  returnCredits (s1.modSeq p (fun q => { q with handler := none, hBuf := [] })) p t h.entry.rchan (h.entry.n + h.entry.pad)

/-- A link issues, which is also its retirement (R56, R152). -/
def issueLink (s : State) (p t : Nat) (handler : Bool) (addr : Nat) (d : Desc) : State :=
  let now := s.now p
  let s1 := noteProgress (countIssue s p handler)
  let s2 :=
    if handler then
      match (s.tile p).seq.handler with
      | none => s1
      | some h =>
        if d.variant = 2 then endHandler s1 p t h
        else s1.modSeq p (fun q => { q with handler := some { h with head := d.target, ready := now + 2 }, hBuf := q.hBuf.drop 1 })
    else
      s1.modSeq p (fun q => clearMark { q with head := d.target, mainBuf := q.mainBuf.drop 1, ready := now + 2, atEnd := d.variant == 1 })
  tcAddField s2 p d.signal d.signalInc (ofBool handler) addr

/-- A window entry that has just issued; `issuedAt` counts frames too, so that issues stay ordered over a tick (R148). -/
def WinEntry.new (handler : Bool) (addr : Nat) (d : Desc) (at_ : Nat) : WinEntry :=
  { handler := handler, addr := addr, unit := d.unit, desc := d, issuedAt := at_, phase := .issued, pos := 0, part := 0, rows := [], lanes := [],
    chk := .clean, stage := Stage.reset, xfer := 0, roomWaited := false }

/-- A descriptor issues to its unit (R50, R54). -/
def issueUnit (s : State) (p : Nat) (handler : Bool) (addr : Nat) (d : Desc) : State :=
  let e := WinEntry.new handler addr d (16777216 * s.frame + s.now p)
  (countIssue s p handler).modSeq p (fun q =>
    let q1 := { q with window := q.window ++ [e] }
    if handler then { q1 with handler := q1.handler.map (fun h => { h with head := addr + 1 }) }
    else clearMark { q1 with head := addr + 1 })

/-- The head of a stream issues. -/
def issueHead (s : State) (p t : Nat) (handler : Bool) (addr : Nat) (d : Desc) : State :=
  if d.isLink then issueLink s p t handler addr d else issueUnit s p handler addr d

/-- What the main stream does in one tc (R51, R57, R58). -/
inductive MainTurn where
  | issue (addr : Nat) (d : Desc)
  | hold
  | wait
  | slip (addr : Nat)
  | range (addr : Nat)
  | broken
  deriving DecidableEq, Repr

/-- A link may issue: a frame-end link only when every earlier main-stream descriptor has retired, a handler-return link only when every
descriptor of its list has (R152). -/
def linkReady (q : Seq) (d : Desc) : Bool :=
  if d.isLink && d.variant == 1 then q.inFlight false == 0
  else if d.isLink && d.variant == 2 then q.inFlight true == 0
  else true

/-- The first buffered descriptor that slips now (R57), the head left out where it issues or holds. -/
def firstSlip (now : Nat) (skipHead : Bool) (l : List (Nat × Desc)) : Option Nat :=
  ((if skipHead then l.drop 1 else l).find? (fun x => x.2.issueCycle != 0 && x.2.issueCycle ≤ now)).map (·.1)

/-- The turn of the main stream with its buffer filled (R49, R51, R57, R58, R393). A may-wait head whose issue cycle falls in the 2 tc after a link asks
for no hold: it slips (DESIGN CHOICE, log entry 41). -/
def mainTurn (t : Tile) (frameLen now : Nat) (buf : List FetchLine) : MainTurn :=
  let q := t.seq
  if q.atEnd then .wait
  else match buf with
    | [] => .wait
    | cur :: _ =>
      let d := cur.at q.head
      let l := buffered q.head buf
      let met := d.met t
      let room := d.isLink || q.inFlight false < 32 - t.entries
      let held := q.holdSeq.isSome
      let can := q.holdReleased || (!held && met && room && linkReady q d && q.ready ≤ now && d.issueCycle ≤ now
        && (d.issueCycle == 0 || d.issueCycle == now))
      let ask := !held && d.issueCycle != 0 && d.issueCycle == now && d.mayWait && room && !met && q.ready ≤ now
      if !held && (cur.outside || !fetchOk frameLen false q.head d) then .range q.head
      else if d.broken t && !q.holdReleased then .broken
      else match firstSlip now (held || can || ask) l with
        | some a => .slip a
        | none => if can then .issue q.head d else if ask then .hold else .wait

/-- The turn of the handler stream (R51, R64), which issues only where the main stream does not. -/
def handlerTurn (t : Tile) (frameLen now : Nat) (h : HandlerRun) (buf : List FetchLine) : MainTurn :=
  match buf with
  | [] => .wait
  | cur :: _ =>
    let d := cur.at h.head
    if cur.outside || !fetchOk frameLen true h.head d then .range h.head
    else if d.broken t then .broken
    else if d.met t && (d.isLink || t.seq.inFlight true < t.entries) && linkReady t.seq d && h.ready ≤ now then .issue h.head d
    else .wait

/-- The sequencer of a tile tests its heads now: its tile runs, does not stand, and has issued nothing in this tc (R29, R50, R60). -/
def seqActive (s : State) (p : Nat) : Bool :=
  let q := (s.tile p).seq
  q.run == .running && (s.tile p).rd TL_SEQ_CONFIG_ENABLE == 1 && !s.tileStands p && q.issuedAt != some (s.now p)

/-- The main stream's buffer brought up to its head (R47), also while the stream stands at a frame-end link's target. -/
def fillMain (s : State) (p : Nat) (chk : Check) : State :=
  let q := (s.tile p).seq
  let r := fillBuf s p q.head q.mainBuf chk
  r.1.modSeq p (fun q => { q with mainBuf := r.2 })

/-- The handler stream's buffer brought up to its head. -/
def fillHandler (s : State) (p : Nat) (chk : Check) : State :=
  match (s.tile p).seq.handler with
  | none => s
  | some h =>
    let r := fillBuf s p h.head (s.tile p).seq.hBuf chk
    r.1.modSeq p (fun q => { q with hBuf := r.2 })

/-- Both buffers brought up to their heads. -/
def fillBoth (s : State) (p : Nat) (chk : Check) : State := fillHandler (fillMain s p chk) p chk

/-- The turns of the two streams of a tile, their buffers filled. -/
def mainNow (s : State) (p : Nat) : MainTurn := mainTurn (s.tile p) s.frameLen (s.now p) (s.tile p).seq.mainBuf
def handlerNow (s : State) (p : Nat) : MainTurn :=
  match (s.tile p).seq.handler with
  | none => .wait
  | some h => if (s.tile p).entries = 0 then .wait else handlerTurn (s.tile p) s.frameLen (s.now p) h (s.tile p).seq.hBuf

/-- The handler stream's turn carried out, in a tc that the main stream leaves it. -/
def runHandler (s : State) (p t : Nat) (turn : MainTurn) : State :=
  match turn with
  | .issue a d => issueHead s p t true a d
  | _ => s

/-- A tile's turn carried out (R49 to R51, R57, R58): violations and broken waits of either head come before any issue of the tc. -/
def issueTurn (s : State) (p t : Nat) (main handler : MainTurn) : State :=
  match main, handler with
  | .range a, .range b => raiseFault (raiseFault s p faultDescRange 0xFF 0 a) p faultDescRange 0xFF 1 b
  | .range a, _ => raiseFault s p faultDescRange 0xFF 0 a
  | _, .range b => raiseFault s p faultDescRange 0xFF 1 b
  | .broken, _ => breakWait s p
  | _, .broken => breakWait s p
  | .slip a, _ => raiseFault s p faultSlip 0xFF 0 a
  | .issue a d, _ => issueHead s p t false a d
  | .hold, h =>
    let n := s.sun.nextSeq
    runHandler (requestHold (s.modSeq p (fun q => { q with holdSeq := some n })) kindMayWait t) p t h
  | .wait, h => runHandler s p t h

/-- DESCRIPTOR_ISSUE (R51): one tc of the sequencer of logical tile `t`. -/
def issueStep (s : State) (t : Nat) (chk : Check) : State :=
  let p := s.phys t
  if seqActive s p then
    let s1 := fillBoth s p chk
    issueTurn s1 p t (mainNow s1 p) (handlerNow s1 p)
  else s

/-- Meaning of DESCRIPTOR_ISSUE. -/
def execDescriptorIssue (t : Nat) (chk : Check) (s : State) : Host.Outcome State Fault Refusal :=
  if t < 256 then .next (issueStep s t chk) else .fault (.noSuch "tile")

/-- A link that heads a stream issues if the test of R51 lets it (R152). `want` picks the stream and the variant. -/
def linkStep (s : State) (t : Nat) (handler : Bool) (variant : Nat) : State :=
  let p := s.phys t
  let s1 := fillBoth s p .clean
  if seqActive s p then
    match mainNow s1 p, handlerNow s1 p, handler with
    | .issue a d, h, false =>
      if d.isLink && d.variant == variant && !(match h with | .range _ => true | .broken => true | _ => false) then issueLink s1 p t false a d else s
    | .wait, .issue a d, true => if d.isLink && d.variant == variant then issueLink s1 p t true a d else s
    | _, _, _ => s
  else s

/-- Meaning of LINK_ORDINARY. -/
def execLinkOrdinary (t : Nat) (handler : Bool) (s : State) : Host.Outcome State Fault Refusal :=
  if t < 256 then .next (linkStep s t handler 0) else .fault (.noSuch "tile")

/-- Meaning of LINK_FRAME_END. -/
def execLinkFrameEnd (t : Nat) (s : State) : Host.Outcome State Fault Refusal :=
  if t < 256 then .next (linkStep s t false 1) else .fault (.noSuch "tile")

/-- Meaning of LINK_HANDLER_RETURN. -/
def execLinkHandlerReturn (t : Nat) (s : State) : Host.Outcome State Fault Refusal :=
  if t < 256 then .next (linkStep s t true 2) else .fault (.noSuch "tile")

/-- A running entry whose work is done, so that its retirement tc has come; an Orangery transfer completes in a hold as well (R29, R169), and so does
a channel-0 injection (R206). -/
def retireDue (s : State) (p : Nat) (e : WinEntry) : Bool :=
  e.phase == .running && e.span ≤ e.pos && (e.unit == unitOy || (e.unit == unitNet && e.desc.vc == 0) || !s.tileStands p)

/-- Meaning of DESCRIPTOR_RETIRE (R55). -/
def execDescriptorRetire (t i : Nat) (s : State) : Host.Outcome State Fault Refusal :=
  if t < 256 then
    .next (match (s.tile (s.phys t)).seq.window[i]? with
      | none => s
      | some e => if retireDue s (s.phys t) e then retireEntry s (s.phys t) i else s)
  else .fault (.noSuch "tile")

/-- The handler stream takes the next queued list (R64, R152): its first descriptor issues no earlier than 2 tc after the return of the list
before it. -/
def startHandler (s : State) (t : Nat) (chk : Check) : State :=
  let p := s.phys t
  let x := s.tile p
  match x.seq.hq with
  | [] => s
  | e :: rest =>
    if x.seq.handler.isSome || x.entries == 0 || x.seq.run != .running || x.rd TL_SEQ_CONFIG_ENABLE == 0 then s
    else
      let h : HandlerRun := { entry := e, head := e.handler, ready := s.now p + (if x.seq.issuedAt = some (s.now p) then 2 else 1) }
      let r := fillBuf s p e.handler [] chk
      r.1.modSeq p (fun q => { q with handler := some h, hq := rest, hBuf := r.2 })

/-- Meaning of HANDLER_LIST_START. -/
def execHandlerListStart (t : Nat) (chk : Check) (s : State) : Host.Outcome State Fault Refusal :=
  if t < 256 then .next (startHandler s t chk) else .fault (.noSuch "tile")

/-- What every context start clears, epoch starts included (R66, R91, R112, R201, R223, R334): counters with their ORPHANED bits,
fetch buffers, handler queue, issue counts, the engines and their registers, stall counts, TL_EPOCH.ARM. -/
def Tile.startClear (t : Tile) : Tile :=
  let t1 := ((((((((t.setReg TL_ISSUE_CNT_OFF 0).setReg TL_MX_STATUS_OFF 0).setReg TL_MX_STATS_OFF 0).setReg TL_VX_STATUS_OFF 0).setReg
    TL_VX_STATS_OFF 0).setReg TL_SP_STALL_OFF 0).wr TW_HQ_QUEUED 0).wr TL_EPOCH_ARM 0)
  { t1 with tc := [], orphaned := 0, mx := Mx.reset, vx := Vx.reset,
            seq := { t1.seq with mainBuf := [], hBuf := [], handler := none, hq := [], holdSeq := none, holdReleased := false } }

/-- The VALID bits of the log of OY_TERRACE moves clear (R403). -/
def Tile.clearLog (t : Tile) : Tile := (List.range 64).foldl (fun t n =>
  if t.rd (TL_TR_LOG_A_VALID n) = 1 then t.wr (TL_TR_LOG_A_VALID n) 0 else t) t

/-- A write of TL_SEQ_CONFIG with ENABLE 1 while ENABLE stands at 0 (R66); while ENABLE is 1 it changes nothing (R67). -/
def startTile (s : State) (p start handlers : Nat) : State :=
  let t := s.tile p
  if t.rd TL_SEQ_CONFIG_ENABLE = 1 then s
  else
    let t1 := ((t.startClear.clearLog.wr TL_SEQ_CONFIG_START start).wr TL_SEQ_CONFIG_HANDLER_ENTRIES handlers).wr TL_SEQ_CONFIG_ENABLE 1
    s.setTile p { t1 with seq := { t1.seq with run := .waitTick, head := start % 0x8000, ready := 0, atEnd := false, issuedAt := none } }

/-- Meaning of CONTEXT_START. -/
def execContextStart (p start handlers : Nat) (s : State) : Host.Outcome State Fault Refusal :=
  if p < 272 then .next (startTile s p start handlers) else .fault (.noSuch "physical tile")

/-- A tile's outstanding hold request is withdrawn (R390): its release goes to the root. -/
def withdrawHold (s : State) (p : Nat) : State :=
  match (s.tile p).seq.holdSeq with
  | none => s
  | some n =>
    let s1 := s.modSeq p clearMark
    let s2 := releaseHold s1 s.index n (s.sun.tick + 2)
    s2.flood none (fun q => .release q s.index n s.sun.tick)

/-- A write of ENABLE 0 (R67): no issue from the next tc on; the window drains; the only way out of the frozen state. Until the window is empty STATE reads
as before (DESIGN CHOICE, log entry 41). -/
def stopTile (s : State) (p : Nat) : State :=
  let s1 := withdrawHold s p
  s1.modTile p (fun t => (t.wr TL_SEQ_CONFIG_ENABLE 0).settleIdle)

/-- Meaning of TILE_STOP. -/
def execTileStop (p : Nat) (s : State) : Host.Outcome State Fault Refusal :=
  if p < 272 then .next (stopTile s p) else .fault (.noSuch "physical tile")

/-- Window entries of a unit that wait to start, oldest first: the index and the entry. -/
def oldestIssued (q : Seq) (unit : Nat) : Option (Nat × WinEntry) :=
  match q.window.findIdx? (fun e => e.unit == unit && e.phase == .issued) with
  | none => none
  | some i => (q.window[i]?).map (fun e => (i, e))

/-- The entry that a unit of tile `t` starts next, if it has one of these opcodes. -/
def nextOf (s : State) (t unit : Nat) (ops : List Nat) : Option (Nat × WinEntry) :=
  match oldestIssued (s.tile (s.phys t)).seq unit with
  | none => none
  | some x => if x.2.desc.opcode ∈ ops then some x else none

/-- A window entry changed. -/
def setEntry (s : State) (p i : Nat) (f : WinEntry → WinEntry) : State :=
  s.modSeq p (fun q => { q with window := modAt f q.window i })

/-- A descriptor starts now, with what the protection will find in its reads: the first tc of its work is this one (log entry 18). -/
def beginEntry (s : State) (p i : Nat) (ph : Phase) (chk : Check) (stage : Stage) (xfer : Nat) : State :=
  setEntry s p i (fun e => { e with phase := ph, pos := 0, part := 0, chk := chk, stage := stage, xfer := xfer })

/-- A unit may start a descriptor now: the tile does not stand, unless the unit goes on in a hold (R148). -/
def unitFree (s : State) (p i : Nat) : Bool :=
  ((s.tile p).seq.window.take i).all (fun x => match (s.tile p).seq.window[i]? with
    | some e => x.unit != e.unit || x.phase == .issued || x.held ≤ x.pos
    | none => true)

/-- A descriptor fails a check at its start (R116, R145): it leaves the window without signal, and the tile acts under R60. -/
def failStart (s : State) (p i : Nat) (e : WinEntry) (kind : Nat) : State :=
  leaveWindow (raiseFault s p kind 0xFF (ofBool e.handler) e.addr) p i

end Sys2Proof.Machine
end

