-- ==== Sys2Proof/Machine/Units.lean ====
section
/-!
DEFINITION. The scratchpad unit (R153 to R156) and the network unit (R157 to R164) of a tile.
-/

namespace Sys2Proof.Machine
open Sys2Proof

-- reads of the scratchpad by descriptors, and the pipeline of a window entry

/-- A descriptor's read of `n` bytes: what the protection found in them is noted, and the bytes as this tc finds them (R147, R187). `port` as in
`noteSp`. -/
def readRow (s : State) (p port : Nat) (chk : Check) (a n : Nat) : State × List Byte :=
  let c := chkIn chk (a / 8) ((a + n + 7) / 8)
  (noteSp s p port (a / 8) ((a + n + 7) / 8) c true, Mem.rdN (spView s p c) a n)

/-- Reads of several places in one tc. -/
def readParts (s : State) (p port : Nat) (chk : Check) : List (Nat × Nat) → State × List Byte
  | [] => (s, [])
  | x :: xs =>
    let r := readRow s p port chk x.1 x.2
    let q := readParts r.1 p port chk xs
    (q.1, r.2 ++ q.2)

/-- A row enters the pipeline of window entry `i`; the oldest one; it leaves. -/
def pushRow (s : State) (p i : Nat) (row : List Byte) : State := setEntry s p i (fun e => { e with rows := e.rows ++ [row] })
def headRow (s : State) (p i : Nat) : List Byte :=
  match (s.tile p).seq.window[i]? with | some e => e.rows.headD [] | none => []
def popRow (s : State) (p i : Nat) : State := setEntry s p i (fun e => { e with rows := e.rows.drop 1 })

-- scratchpad unit

/-- The bytes of whole lines (R189). -/
def linesIv (line n : Nat) : Nat × Nat := (512 * line, 512 * (line + n) - 1)

/-- The bytes from the first chunk of 16 lines to the last one of `k` chunk columns (R189). -/
def colsIv (line chunk k : Nat) : Nat × Nat := (512 * line + 32 * chunk, 512 * (line + 15) + 32 * (chunk + k) - 1)

/-- What a scratchpad-unit descriptor reads and writes (R153 to R155, R189). -/
def spReads (d : Desc) : List (Nat × Nat) :=
  if d.opcode = opSpFill then []
  else if d.opcode = opSpCopy then [linesIv d.firstLine d.linesM]
  else if d.opcode = opSpGather then [colsIv d.firstLine d.colChunk d.colK]
  else [linesIv d.firstLine d.colK]

/-- What a scratchpad-unit descriptor writes. -/
def spWrites (d : Desc) : List (Nat × Nat) :=
  if d.opcode = opSpFill then [linesIv d.firstLine d.linesM]
  else if d.opcode = opSpCopy then [linesIv d.copyDst d.linesM]
  else if d.opcode = opSpGather then [linesIv d.colDst d.colK]
  else [colsIv d.colDst d.colChunk d.colK]

/-- Where chunk (k, j) of a column-view descriptor is read (R155). -/
def colSrc (d : Desc) (k j : Nat) : Nat :=
  if d.opcode = opSpGather then 512 * (d.firstLine + j) + 32 * (d.colChunk + k) else 512 * (d.firstLine + k) + 32 * j

/-- Where chunk (k, j) of a column-view descriptor is written (R155). -/
def colTo (d : Desc) (k j : Nat) : Nat :=
  if d.opcode = opSpGather then 512 * (d.colDst + k) + 32 * j else 512 * (d.colDst + j) + 32 * (d.colChunk + k)

/-- A scratchpad-unit descriptor of one opcode starts (R156). -/
def spStart (s : State) (t op : Nat) (chk : Check) : State :=
  let p := s.phys t
  match nextOf s t unitSp [op] with
  | none => s
  | some (i, e) =>
    if s.tileStands p ∨ !unitFree s p i then s
    else match spFault (s.tile p) s.frame e.desc.frameCarried true (spReads e.desc) (spWrites e.desc) with
      | some k => failStart s p i e k
      | none => beginEntry s p i .running chk Stage.reset 0

/-- Meaning of SP_FILL. -/
def execSpFill (t : Nat) (_wait : Unit) (s : State) : Host.Outcome State Fault Refusal :=
  if t < 256 then .next (spStart s t opSpFill .clean) else .fault (.noSuch "tile")

/-- Meaning of SP_COPY. -/
def execSpCopy (t : Nat) (chk : Check) (_wait : Unit) (s : State) : Host.Outcome State Fault Refusal :=
  if t < 256 then .next (spStart s t opSpCopy chk) else .fault (.noSuch "tile")

/-- Meaning of SP_COLGATHER. -/
def execSpColgather (t : Nat) (chk : Check) (_wait : Unit) (s : State) : Host.Outcome State Fault Refusal :=
  if t < 256 then .next (spStart s t opSpGather chk) else .fault (.noSuch "tile")

/-- Meaning of SP_COLSCATTER. -/
def execSpColscatter (t : Nat) (chk : Check) (_wait : Unit) (s : State) : Host.Outcome State Fault Refusal :=
  if t < 256 then .next (spStart s t opSpScatter chk) else .fault (.noSuch "tile")

/-- The addresses and counts of what a scratchpad-unit descriptor reads in tc `k` of its work (R153 to R155). -/
def spReadAt (d : Desc) (k : Nat) : List (Nat × Nat) :=
  if d.opcode = opSpGather then (List.range 16).map (fun j => (colSrc d k j, 32)) else [(512 * (d.firstLine + k), 512)]

/-- The addresses and counts of what it writes with row `k` (R153 to R155). -/
def spWriteAt (d : Desc) (k : Nat) : List (Nat × Nat) :=
  if d.opcode = opSpScatter then (List.range 16).map (fun j => (colTo d k j, 32))
  else [(512 * ((if d.opcode = opSpFill then d.firstLine else if d.opcode = opSpCopy then d.copyDst else d.colDst) + k), 512)]

/-- A line of a fill (R153). -/
def fillLine (d : Desc) : List Byte := (List.range 128).flatMap (fun _ => leBytes 4 d.immediate)

/-- Bytes put at several places in turn. -/
def writeParts (s : State) (p cls : Nat) : List (Nat × Nat) → List Byte → State
  | [], _ => s
  | x :: xs, b => writeParts (spWrite s p cls x.1 (b.take x.2)) p cls xs (b.drop x.2)

/-- The scratchpad unit's read of this tc (R147, R155). -/
def spRead (s : State) (p i : Nat) (e : WinEntry) : State :=
  let r := readParts s p 0 e.chk (spReadAt e.desc e.pos)
  pushRow r.1 p i r.2

/-- The scratchpad unit's write of this tc (R153 to R155). -/
def spStore (s : State) (p i : Nat) (e : WinEntry) : State :=
  if e.desc.opcode = opSpFill then writeParts s p bySpUnit (spWriteAt e.desc (e.pos - 1)) (fillLine e.desc)
  else writeParts (popRow s p i) p bySpUnit (spWriteAt e.desc (e.pos - 2)) (headRow s p i)

-- network unit

/-- KIND codes of a channel (R149, R223). -/
def kindBuffer : Nat := 0
def kindRing : Nat := 1
def kindRead : Nat := 2

/-- An earlier descriptor of the tile's network unit has issued and has not yet started (R158). -/
def netWaiting (q : Seq) (i : Nat) : Bool := (q.window.take i).any (fun e => e.unit == unitNet && e.phase == .issued)

/-- A channel-1 PUT or PUT_MSG that still injects after this tc. -/
def putsOn (e : WinEntry) : Bool :=
  e.unit == unitNet && e.desc.opcode != opNetGet && e.desc.vc == 1 && e.phase == .running && e.pos < e.desc.flits

/-- An open channel-1 window whose reply is due to take the injection port in one of the next `f` tc (R158, R164). -/
def replyDue (w : GetWindow) (t f : Nat) : Bool := w.owner == t && w.vc == 1 && w.car == 1 && 17 ≤ w.age + f && w.age < 16 + 2 * w.lines

/-- The injection port is busy for a channel-1 transfer of `f` flits that starts in this tc (R158). -/
def injectBusy (s : State) (p t i f : Nat) : Bool :=
  netWaiting (s.tile p).seq i || (s.tile p).seq.window.any putsOn || s.die.transfers.any (fun x => singleWaits x t 1 && x.left == 2)
    || s.die.windows.any (fun w => replyDue w t f)

/-- A send channel counts a transfer of `b` bytes (R222). -/
def countSend (s : State) (p n b pad : Nat) : State :=
  s.modTile p (fun t =>
    let t1 := (t.inc (TW_SEND_CNT0_MSGS n) 1).inc (TW_SEND_CNT1_BYTES n) b
    if pad = 0 then t1 else t1.inc (TW_SEND_CNT1_PADS n) 1)

/-- A transfer is composed from the send channel's registers (R211, R228). -/
def composed (s : State) (p t n : Nat) (d : Desc) : Transfer :=
  let x := s.tile p
  let remote := x.rd (TW_SEND_CFG_REMOTE n) == 1
  { Transfer.blank with
    vc := d.vc, srcMod := s.index, srcTile := t, srcChan := n,
    dstMod := if remote then x.rd (TW_SEND_CFG_DEST_MODULE n) else s.index,
    dstTile := 16 * x.rd (TW_SEND_CFG_DEST_I n) + x.rd (TW_SEND_CFG_DEST_J n), rchan := x.rd (TW_SEND_CFG_DEST_RCHAN n),
    gen := x.rd (TW_SEND_STATE_DEST_GEN n), fc := d.frameCarried, rctr := d.remoteCtr, rinc := d.remoteInc,
    leg := ofBool remote, port := if remote then x.rd (TW_SEND_CFG_PORT n) else 16, fbSlot := if remote && d.vc == 1 then d.fbSlot else 0 }

/-- Data flits of a transfer on a link (R228): a GET request and a REMOTE_ADD take the route flit alone. -/
def linkData (x : Transfer) : Nat := if x.op = 2 ∨ x.op = 4 then 0 else x.n / 64

/-- The header of a message (R214). -/
def msgHeader (s : State) (t n : Nat) (d : Desc) (x : Transfer) (slots seq : Nat) : List W64 :=
  let h0 := setBits (setBits (setBits 0 47 32 x.pad) 31 16 slots) 7 0 0x4D
  let h1 := setBits (setBits (setBits (setBits (setBits (setBits 0 51 40 s.index) 39 36 (t / 16)) 35 32 (t % 16)) 25 21 x.rchan) 20 16 n)
    14 0 x.off
  let h2 := setBits (setBits 0 63 32 s.frame) 31 0 seq
  let h3 := setBits (setBits (setBits (setBits (setBits 0 41 41 d.vc) 40 40 (ofBool d.frameCarried)) 39 24 d.remoteInc) 23 16 d.remoteCtr)
    14 0 d.netHandler
  [h0, h1, h2, h3, 0, 0, 0, 0]

/-- The pad and the position of a message (R161). -/
def ringPlace (t : Tile) (n slots : Nat) : Nat × Nat :=
  let w := t.rd (TW_SEND_STATE_WPTR n)
  if t.rd (TW_SEND_CFG_SLOTS n) < w + slots then (t.rd (TW_SEND_CFG_SLOTS n) - w, 0) else (0, w)

/-- Credits that a PUT or PUT_MSG needs (R158, R161). -/
def putCredits (t : Tile) (d : Desc) : Nat :=
  if d.opcode = opNetPutMsg then d.putSlots + (ringPlace t d.chan d.putSlots).1 else d.putSlots

/-- The scheduled transfer breaks SCHED_OK (R210) or the size that a slot carries (R232). -/
def schedBad (t : Tile) (d : Desc) (bytes : Nat) : Bool :=
  d.vc == 1 && (t.rd (TW_SEND_CFG_SCHED_OK d.chan) == 0 || (t.rd (TW_SEND_CFG_REMOTE d.chan) == 1 && 0x80000 < bytes))

/-- The state-dependent range check of a PUT or PUT_MSG (R157, R160). -/
def putRangeBad (t : Tile) (d : Desc) : Bool :=
  let n := d.chan
  if d.opcode = opNetPutMsg then
    t.rd (TW_SEND_CFG_KIND n) != kindRing || t.rd (TW_SEND_CFG_SLOTS n) < d.putSlots || schedBad t d (64 * d.putSlots)
  else
    t.rd (TW_SEND_CFG_KIND n) != kindBuffer || 64 * t.rd (TW_SEND_CFG_SLOTS n) < d.dstOff + 64 * d.putSlots || schedBad t d (64 * d.putSlots)

/-- The first fault that a PUT or PUT_MSG raises at its start (R145, R158), the channel's state as of the end of the previous tc. -/
def putFault (s : State) (p t i : Nat) (e : WinEntry) : Option Nat :=
  let d := e.desc
  let x := s.tile p
  if putRangeBad x d then some faultDescRange
  else match spFault x s.frame false true [(d.netSrc, d.netSrc + 64 * d.putUnits - 1)] [] with
    | some k => some k
    | none =>
      if x.chSeen (TW_SEND_STATE_OPEN d.chan) = 0 then some faultClosedWrite
      else if d.vc = 1 ∧ injectBusy s p t i d.flits then some faultSlotCollision
      else if x.chSeen (TW_SEND_STATE_CREDITS d.chan) < putCredits x d then some faultCreditOverrun
      else none

/-- A descriptor refused at its own injection port leaves its mark in TW_COLLISION (R209). -/
def failNet (s : State) (p i : Nat) (e : WinEntry) (kind : Nat) : State :=
  failStart (if kind = faultSlotCollision then s.setTile p (noteCollision (s.tile p) 0 (s.now p)) else s) p i e kind

/-- The transfer of a PUT or PUT_MSG, without its bytes (R157, R160). -/
def putTransfer (s : State) (p t : Nat) (d : Desc) : Transfer :=
  let x := s.tile p
  let n := d.chan
  let c := composed s p t n d
  if d.opcode = opNetPutMsg then
    let r := ringPlace x n d.putSlots
    let m := { c with op := 1, pad := r.1, off := r.2, n := 64 * d.putSlots, handler := d.netHandler, left := d.flits }
    { m with head := bytesOf (msgHeader s t n d m d.putSlots (x.rd (TW_SEND_CNT0_MSGS n))) }
  else { c with op := 0, off := d.dstOff, n := 64 * d.putSlots, left := d.flits }

/-- A PUT or PUT_MSG takes its credits and its ring slots (R158, R161); what later starts of this tc see of the credits falls too. -/
def takeCredits (t : Tile) (d : Desc) : Tile :=
  let n := d.chan
  let f := TW_SEND_STATE_CREDITS n
  let need := putCredits t d
  let t1 := t.wr f (t.rd f - need)
  let t2 := match SMap.look? t1.chPrev f.off with
    | some w => { t1 with chPrev := SMap.put t1.chPrev f.off (setBits w f.hi f.lo (bits w f.hi f.lo - need)) }
    | none => t1
  if d.opcode = opNetPutMsg then t2.wr (TW_SEND_STATE_WPTR n) (((ringPlace t n d.putSlots).2 + d.putSlots) % t.rd (TW_SEND_CFG_SLOTS n))
  else t2

/-- A PUT or PUT_MSG starts (R158, R161): its first flit is injected in the next tc. -/
def putRun (s : State) (p t i : Nat) (e : WinEntry) (chk : Check) : State :=
  let x := putTransfer s p t e.desc
  let s1 := countSend (s.modTile p (fun t => takeCredits t e.desc)) p e.desc.chan x.n x.pad
  newTransfer (beginEntry s1 p i .running chk Stage.reset s.die.nextXfer) x

/-- The channel-1 PUT or PUT_MSG that has issued in this tc, in which it starts or not at all (R158). -/
def nextScheduled (s : State) (p : Nat) (ops : List Nat) : Option (Nat × WinEntry) :=
  match (s.tile p).seq.window.findIdx? (fun e => e.unit == unitNet && e.phase == .issued && ops.contains e.desc.opcode && e.desc.vc == 1) with
  | none => none
  | some i => ((s.tile p).seq.window[i]?).map (fun e => (i, e))

/-- The channel-1 PUT or PUT_MSG of logical tile `t` starts or fails (R158). -/
def putScheduled (s : State) (t i : Nat) (e : WinEntry) (chk : Check) : State :=
  let p := s.phys t
  match putFault s p t i e with
  | some k => failNet s p i e k
  | none => putRun s p t i e chk

/-- A PUT or PUT_MSG starts: on channel 1 in its issue tc, on channel 0 in its turn, also in a hold (R29, R158). -/
def putStart (s : State) (t op : Nat) (chk : Check) : State :=
  let p := s.phys t
  match nextScheduled s p [op] with
  | some (i, e) => if s.tileStands p then s else putScheduled s t i e chk
  | none =>
    match nextOf s t unitNet [op] with
    | none => s
    | some (i, e) =>
      if !unitFree s p i then s
      else match putFault s p t i e with
        | some k => failNet s p i e k
        | none => putRun s p t i e chk

/-- Meaning of NET_PUT. -/
def execNetPut (t : Nat) (chk : Check) (_wait : Unit) (s : State) : Host.Outcome State Fault Refusal :=
  if t < 256 then .next (putStart s t opNetPut chk) else .fault (.noSuch "tile")

/-- Meaning of NET_PUT_MSG. -/
def execNetPutMsg (t : Nat) (chk : Check) (_wait : Unit) (s : State) : Host.Outcome State Fault Refusal :=
  if t < 256 then .next (putStart s t opNetPutMsg chk) else .fault (.noSuch "tile")

/-- A PUT or PUT_MSG reads a flit's bytes and injects it (R150, R158). -/
def putFlit (s : State) (p : Nat) (e : WinEntry) : State :=
  let d := e.desc
  let f := e.pos - 1
  let a := putBytes d f
  let r := readRow s p (if d.vc = 1 then 0 else 1) e.chk a.1 a.2
  let hdr := if f = 0 then (match s.xfer e.xfer with | some x => x.head | none => []) else []
  enterFlit r.1 e.xfer d.vc (s.now p) (256 * f) (hdr ++ r.2)

/-- The first fault that a GET raises at its start (R163, R145, R164). -/
def getFault (s : State) (p : Nat) (d : Desc) : Option Nat :=
  let x := s.tile p
  let n := d.chan
  if x.rd (TW_SEND_CFG_KIND n) != kindRead || x.rd (TW_SEND_CFG_SLOTS n) / 8 < d.getSrcLine + d.getLines
      || (x.rd (TW_SEND_CFG_REMOTE n) == 1 && d.vc == 1) || schedBad x d 64 then some faultDescRange
  else match spFault x s.frame d.frameCarried false [] [(d.getDst, d.getDst + 512 * d.getLines - 1)] with
    | some k => some k
    | none => if x.chSeen (TW_SEND_STATE_OPEN n) = 0 then some faultClosedWrite else none

/-- A GET starts: one request of 64 bytes is injected in the next tc, and the descriptor waits for its reply (R164). -/
def getRun (s : State) (p t i : Nat) (e : WinEntry) : State :=
  let d := e.desc
  let x : Transfer := { composed s p t d.chan d with
    op := 2, rctr := 0xFF, rinc := 0, off := d.getDst, line := d.getSrcLine, lines := d.getLines, left := 2,
    getAddr := e.addr, getHandler := e.handler, fbSlot := 0 }
  newTransfer (beginEntry (countSend s p d.chan 64 0) p i .waiting .clean Stage.reset s.die.nextXfer) x

/-- NET_GET starts (R163, R164). A channel-1 request is not injected while the tile stands (R29). -/
def getStart (s : State) (t : Nat) : State :=
  let p := s.phys t
  match nextOf s t unitNet [opNetGet] with
  | none => s
  | some (i, e) =>
    if !unitFree s p i ∨ (e.desc.vc = 1 ∧ s.tileStands p) then s
    else match getFault s p e.desc with
      | some k => failStart s p i e k
      | none => getRun s p t i e

/-- Meaning of NET_GET. -/
def execNetGet (t : Nat) (s : State) : Host.Outcome State Fault Refusal :=
  if t < 256 then .next (getStart s t) else .fault (.noSuch "tile")

end Sys2Proof.Machine
end

