-- ==== Sys2Proof/Machine/Matrix.lean ====
section
/-!
DEFINITION. The matrix engine (chapter 4, R119 to R128): loads, passes, accumulator moves, their start rules and their timing.
-/

namespace Sys2Proof.Machine
open Sys2Proof

/-- A memory that holds bytes from an address on. -/
def memOf (a : Nat) : List Byte → Mem
  | [] => []
  | b :: bs => if b = 0 then memOf (a + 1) bs else (a, b) :: memOf (a + 1) bs

/-- Bytes of a block (R74). -/
def fmtBytes : Nat → Nat
  | 3 => 8192
  | 4 => 3200
  | 5 => 3200
  | 6 => 4352
  | 7 => 1608
  | _ => 4096

/-- The stage of a number. -/
def Mx.stage (m : Mx) (n : Nat) : Stage := if n = 0 then m.st0 else m.st1

/-- A stage replaced. -/
def Mx.setStage (m : Mx) (n : Nat) (g : Stage) : Mx := if n = 0 then { m with st0 := g } else { m with st1 := g }

/-- The matrix engine of a physical tile changed. -/
def State.modMx (s : State) (p : Nat) (f : Mx → Mx) : State := s.modTile p (fun t => { t with mx := f t.mx })

/-- A field of bits of a block, read as one little-endian number (R80). -/
def blkBits (blk : Mem) (byte bit width : Nat) : Nat := (leNat (blk.rdN (byte + bit / 8) 2) / 2 ^ (bit % 8)) % 2 ^ width

/-- The weight of element `k` of block row `n` (R78, R79, R120). -/
def weight (fmt : Nat) (blk : Mem) (n k : Nat) : Fp :=
  let byte := fun a => (blk.rd a).toNat
  match fmt with
  | 0 => decE4m3 (byte (64 * n + k))
  | 1 => decE5m2 (byte (64 * n + k))
  | 2 => decI8 (byte (64 * n + k))
  | 3 => decBf16 (byte (128 * n + 2 * k) + 256 * byte (128 * n + 2 * k + 1))
  | 4 => Fp.mul (decE2m3 (blkBits blk (48 * n) (6 * k) 6)) (decE8m0 (byte (3072 + 2 * n + k / 32)))
  | 5 => Fp.mul (decE3m2 (blkBits blk (48 * n) (6 * k) 6)) (decE8m0 (byte (3072 + 2 * n + k / 32)))
  | 6 => Fp.mul (decE2m1 (blkBits blk (32 * n) (4 * k) 4)) (decE8m0 (byte (4096 + 2 * n + k / 32)))
  | _ => Fp.mul (decE4m3 (byte (blkBits blk (72 + 24 * n) (3 * k) 3))) (decE4m3 (byte (8 + n)))

/-- A block row's 64 weights. -/
def weights (g : Stage) (n : Nat) : List Fp := (List.range 64).map (weight g.fmt g.blk n)

/-- An activation row of 64 elements from its bytes (R123). -/
def activations (fmt : Nat) (e5m2 : Bool) (row : List Byte) : List Fp :=
  let b := fun k => (row.getD k 0).toNat
  (List.range 64).map (fun k =>
    if fmt = 2 then decI8 (b k)
    else if fmt = 3 then decBf16 (b (2 * k) + 256 * b (2 * k + 1))
    else if e5m2 then decE5m2 (b k)
    else decE4m3 (b k))

/-- One accumulator entry of a pass (R83): the code, and whether it saturated. -/
def mxEntry (a w : List Fp) (old : Option Fp) : Nat × Bool :=
  let pairs := a.zip w
  let oldNan := match old with | some x => x.isNan | none => false
  if a.any Fp.isNan || w.any Fp.isNan || oldNan then (nan32, false)
  else if pairs.any (fun x => (x.1.isInf && x.2.isZero) || (x.1.isZero && x.2.isInf)) then (nan32, false)
  else
    let terms := pairs.map (fun x => Fp.mul x.1 x.2) ++ old.toList
    let pos := terms.any (fun x => x.isInf && !x.sign)
    let neg := terms.any (fun x => x.isInf && x.sign)
    if pos && neg then (nan32, false)
    else if pos then (0x7F800000, false)
    else if neg then (0xFF800000, false)
    else roundSat (terms.foldl (Fp.add false) (.fin false 0 0))

/-- The storage of accumulator entry (r, n) under a stage's layout (R71). -/
def accIndex (fmt r n : Nat) : Nat := if fmt = 6 then 64 * (2 * r + n / 64) + n % 64 else 64 * r + n

/-- An accumulator with the flags that a pass sets. -/
structure PassRun where
  acc : SMap W32
  nan : Bool
  sat : Bool
  deriving DecidableEq, Repr

/-- One activation row of a pass (R123). -/
def passRow (g : Stage) (accumulate : Bool) (a : List Fp) (r : Nat) (x : PassRun) : PassRun :=
  (List.range (fmtN g.fmt)).foldl (fun x n =>
    let k := accIndex g.fmt r n
    let old := (SMap.look x.acc k 0).toNat
    let e := mxEntry a (weights g n) (if accumulate then some (dec32 old) else none)
    { acc := SMap.put x.acc k (w32 e.1), nan := x.nan || e.1 == nan32, sat := x.sat || e.2 }) x

/-- The activation rows of a pass as one interval (R189). -/
def passReads (d : Desc) (fmt : Nat) : Nat × Nat :=
  (d.mxSpBase, d.mxSpBase + (d.rows - 1) * passStride d fmt + fmtRowBytes fmt - 1)

/-- What an earlier matrix descriptor in the window, issued before entry `i`, satisfies. -/
def earlier (s : State) (p i : Nat) (ok : WinEntry → Bool) : Bool :=
  ((s.tile p).seq.window.take i).all (fun x => x.unit != unitMatrix || ok x)

/-- MX_LOAD may start (R121): passes on its stage have streamed their last rows, loads into it have retired, and other loads have read their last
beats. -/
def loadReady (s : State) (p i : Nat) (d : Desc) : Bool :=
  earlier s p i (fun x =>
    if x.desc.opcode = opMxPass then x.desc.stage != d.stage || x.held ≤ x.pos
    else if x.desc.opcode = opMxLoad then x.held ≤ x.pos && (x.desc.stage != d.stage || x.span ≤ x.pos)
    else true)

/-- MX_LOAD starts (R120, R121). -/
def mxLoadStart (s : State) (t : Nat) (chk : Check) : State :=
  let p := s.phys t
  match nextOf s t unitMatrix [opMxLoad] with
  | none => s
  | some (i, e) => if s.tileStands p ∨ !loadReady s p i e.desc then s else beginEntry s p i .running chk Stage.reset 0

/-- A load reads a beat of its block (R81, R120). -/
def loadBeat (s : State) (p i : Nat) (e : WinEntry) : State :=
  let beat := e.desc.beat + e.pos
  let c := chkIn e.chk (64 * beat) (64 * beat + 64)
  pushRow (noteTr s p beat (beat + 1) c false) p i (Mem.rdN (trView s p c) (512 * beat) 512)

/-- A load's last tc fills its stage (R81, R120). -/
def loadDone (s : State) (p : Nat) (e : WinEntry) : State :=
  s.modMx p (fun m => m.setStage e.desc.stage { fmt := e.desc.loadFmt, blk := memOf 0 (e.rows.flatten.take (fmtBytes e.desc.loadFmt)) })

/-- Meaning of MX_LOAD. -/
def execMxLoad (t : Nat) (chk : Check) (s : State) : Host.Outcome State Fault Refusal :=
  if t < 256 then .next (mxLoadStart s t chk) else .fault (.noSuch "tile")

/-- What a pass checks at its start beside its ranges (R122). -/
def passOk (d : Desc) (fmt : Nat) : Bool :=
  (fmt != 6 || d.accRow + d.rows ≤ 128) && (fmt != 3 || (d.mxSpBase % 128 == 0 && passStride d fmt % 128 == 0))

/-- Every earlier pass and move of the engine has streamed its last row (R124, R125). -/
def streamed (s : State) (p i : Nat) : Bool := earlier s p i (fun x => x.desc.opcode == opMxLoad || x.held ≤ x.pos)

/-- Every earlier load into a stage has completed (R124). -/
def stageLoaded (s : State) (p i stage : Nat) : Bool :=
  earlier s p i (fun x => x.desc.opcode != opMxLoad || x.desc.stage != stage || x.span ≤ x.pos)

/-- MX_PASS starts (R122 to R124); TL_MX_STATUS names its layout (R92). -/
def mxPassStart (s : State) (t : Nat) (chk : Check) : State :=
  let p := s.phys t
  match nextOf s t unitMatrix [opMxPass] with
  | none => s
  | some (i, e) =>
    let x := s.tile p
    let g := x.mx.stage e.desc.stage
    if s.tileStands p ∨ !streamed s p i ∨ !stageLoaded s p i e.desc.stage then s
    else if !passOk e.desc g.fmt then failStart s p i e faultDescRange
    else match spFault x s.frame e.desc.frameCarried false [passReads e.desc g.fmt] [] with
      | some k => failStart s p i e k
      | none => (beginEntry s p i .running chk g 0).modTile p (fun t => t.wr TL_MX_STATUS_ACC_MXFP4 (ofBool (g.fmt == 6)))

/-- Meaning of MX_PASS. -/
def execMxPass (t : Nat) (chk : Check) (_wait : Unit) (s : State) : Host.Outcome State Fault Refusal :=
  if t < 256 then .next (mxPassStart s t chk) else .fault (.noSuch "tile")

/-- A pass reads an activation row, which enters the array (R87, R92). -/
def passRead (s : State) (p i : Nat) (e : WinEntry) : State :=
  let fmt := e.stage.fmt
  let r := readRow s p 0 e.chk (e.desc.mxSpBase + e.pos / fmtRow fmt * passStride e.desc fmt) (fmtRowBytes fmt)
  (pushRow r.1 p i r.2).modTile p (fun t => t.inc TL_MX_STATS_ROWS 1)

/-- A pass writes an accumulator row (R72, R85, R87, R123). -/
def passWrite (s : State) (p i : Nat) (e : WinEntry) : State :=
  let g := e.stage
  let k := (e.pos - fmtLat g.fmt) / fmtRow g.fmt
  let r := passRow g e.desc.accumulate (activations g.fmt e.desc.actE5m2 (headRow s p i)) (e.desc.accRow + k)
    { acc := (s.tile p).mx.acc, nan := false, sat := false }
  (popRow s p i).modTile p (fun t =>
    let t1 := if r.nan then t.raise TL_MX_STATUS_NAN_SEEN else t
    let t2 := if r.sat then t1.raise TL_MX_STATUS_SAT_SEEN else t1
    { t2 with mx := { t2.mx with acc := r.acc } })

/-- The accumulator rows that a pass or MX_ZERO in the window writes, each with the tc of its work that writes it (R71, R87, R125). -/
def rowWrites (x : WinEntry) : List (Nat × Nat) :=
  (List.range x.desc.rows).flatMap (fun m =>
    let r := x.desc.accRow + m
    if x.desc.opcode = opMxPass then
      let at_ := fmtLat x.stage.fmt + m * fmtRow x.stage.fmt
      if x.stage.fmt = 6 then [(2 * r, at_), (2 * r + 1, at_)] else [(r, at_)]
    else if x.desc.opcode = opMxZero then [(r, m + 1)]
    else [])

/-- An accumulator move may start (R125): row `m` is accessed `m` + `off` tc from now, later than every write to it by an earlier pass or MX_ZERO. -/
def moveReady (s : State) (p i off : Nat) (d : Desc) : Bool :=
  streamed s p i && earlier s p i (fun x => (rowWrites x).all (fun w =>
    w.1 < d.accRow || d.accRow + d.rows ≤ w.1 || w.2 < x.pos + (w.1 - d.accRow) + off))

/-- MX_ZERO starts (R125, R126). -/
def mxZeroStart (s : State) (t : Nat) : State :=
  let p := s.phys t
  match nextOf s t unitMatrix [opMxZero] with
  | none => s
  | some (i, e) => if s.tileStands p ∨ !moveReady s p i 1 e.desc then s else beginEntry s p i .running .clean Stage.reset 0

/-- Meaning of MX_ZERO. -/
def execMxZero (t : Nat) (s : State) : Host.Outcome State Fault Refusal :=
  if t < 256 then .next (mxZeroStart s t) else .fault (.noSuch "tile")

/-- MX_ZERO clears a row (R126). -/
def zeroRow (s : State) (p : Nat) (e : WinEntry) : State :=
  s.modMx p (fun m => { m with acc := (List.range 64).foldl (fun a k => SMap.put a (64 * (e.desc.accRow + e.pos - 1) + k) 0) m.acc })

/-- The scratchpad rows of an MX_STORE (R189). -/
def storeWrites (d : Desc) : Nat × Nat := (d.mxSpBase, d.mxSpBase + d.rows * storeRow d - 1)

/-- The bytes of one entry as MX_STORE writes it (R128). -/
def storeEntry (d : Desc) (x : W32) : List Byte :=
  if d.toBf16 then leBytes 2 (cvtBf16 d.storeSat x.toNat).1 else leBytes 4 x.toNat

/-- MX_STORE starts (R125, R127). -/
def mxStoreStart (s : State) (t : Nat) : State :=
  let p := s.phys t
  match nextOf s t unitMatrix [opMxStore] with
  | none => s
  | some (i, e) =>
    if s.tileStands p ∨ !moveReady s p i 0 e.desc then s
    else match spFault (s.tile p) s.frame e.desc.frameCarried false [] [storeWrites e.desc] with
      | some k => failStart s p i e k
      | none => beginEntry s p i .running .clean Stage.reset 0

/-- Meaning of MX_STORE. -/
def execMxStore (t : Nat) (_wait _room : Unit) (s : State) : Host.Outcome State Fault Refusal :=
  if t < 256 then .next (mxStoreStart s t) else .fault (.noSuch "tile")

/-- MX_STORE reads a row of the accumulator (R128). -/
def storeRead (s : State) (p i : Nat) (e : WinEntry) : State :=
  pushRow s p i ((List.range 64).flatMap (fun l => storeEntry e.desc (SMap.look (s.tile p).mx.acc (64 * (e.desc.accRow + e.pos) + l) 0)))

/-- MX_STORE writes a row of the scratchpad, whole words (R128, R186). -/
def storeWrite (s : State) (p i : Nat) (e : WinEntry) : State :=
  spWrite (popRow s p i) p byMatrix (e.desc.mxSpBase + (e.pos - 3) * storeRow e.desc) (headRow s p i)

end Sys2Proof.Machine
end

