-- ==== Sys2Proof/Machine/Crypto.lean ====
section
/-!
DEFINITION. Cryptography (log entry 16): SHA-256 (R174, R277), the ChaCha20 block function (R298), AES-256-GCM (R363, R366), XTS-AES-256 (R270), RSA-OAEP and
RSASSA-PSS with SHA-256 (R358, R363, R367), written from the standards that the spec names.
-/

namespace Sys2Proof.Machine
open Sys2Proof

/-- The round constants of SHA-256 (FIPS 180-4). -/
def shaK : List W32 :=
  [0x428a2f98, 0x71374491, 0xb5c0fbcf, 0xe9b5dba5, 0x3956c25b, 0x59f111f1, 0x923f82a4, 0xab1c5ed5] ++
  [0xd807aa98, 0x12835b01, 0x243185be, 0x550c7dc3, 0x72be5d74, 0x80deb1fe, 0x9bdc06a7, 0xc19bf174] ++
  [0xe49b69c1, 0xefbe4786, 0x0fc19dc6, 0x240ca1cc, 0x2de92c6f, 0x4a7484aa, 0x5cb0a9dc, 0x76f988da] ++
  [0x983e5152, 0xa831c66d, 0xb00327c8, 0xbf597fc7, 0xc6e00bf3, 0xd5a79147, 0x06ca6351, 0x14292967] ++
  [0x27b70a85, 0x2e1b2138, 0x4d2c6dfc, 0x53380d13, 0x650a7354, 0x766a0abb, 0x81c2c92e, 0x92722c85] ++
  [0xa2bfe8a1, 0xa81a664b, 0xc24b8b70, 0xc76c51a3, 0xd192e819, 0xd6990624, 0xf40e3585, 0x106aa070] ++
  [0x19a4c116, 0x1e376c08, 0x2748774c, 0x34b0bcb5, 0x391c0cb3, 0x4ed8aa4a, 0x5b9cca4f, 0x682e6ff3] ++
  [0x748f82ee, 0x78a5636f, 0x84c87814, 0x8cc70208, 0x90befffa, 0xa4506ceb, 0xbef9a3f7, 0xc67178f2]

/-- The initial hash value of SHA-256. -/
def shaInit : List W32 := [0x6a09e667, 0xbb67ae85, 0x3c6ef372, 0xa54ff53a, 0x510e527f, 0x9b05688c, 0x1f83d9ab, 0x5be0cd19]

/-- The compression state a to h. -/
structure ShaRegs where
  a : W32
  b : W32
  c : W32
  d : W32
  e : W32
  f : W32
  g : W32
  h : W32
  deriving DecidableEq, Repr

/-- One round. -/
def shaRound (r : ShaRegs) (k w : W32) : ShaRegs :=
  let s1 := r.e.rotateRight 6 ^^^ r.e.rotateRight 11 ^^^ r.e.rotateRight 25
  let ch := (r.e &&& r.f) ^^^ (~~~ r.e &&& r.g)
  let t1 := r.h + s1 + ch + k + w
  let s0 := r.a.rotateRight 2 ^^^ r.a.rotateRight 13 ^^^ r.a.rotateRight 22
  let maj := (r.a &&& r.b) ^^^ (r.a &&& r.c) ^^^ (r.b &&& r.c)
  { a := t1 + (s0 + maj), b := r.a, c := r.b, d := r.c, e := r.d + t1, f := r.e, g := r.f, h := r.g }

/-- Rounds over a sliding window of 16 schedule words. -/
def shaRounds : List W32 → List W32 → ShaRegs → ShaRegs
  | [], _, r => r
  | k :: ks, w, r =>
    let w1 := w.getD 1 0
    let w14 := w.getD 14 0
    let s0 := w1.rotateRight 7 ^^^ w1.rotateRight 18 ^^^ (w1 >>> 3)
    let s1 := w14.rotateRight 17 ^^^ w14.rotateRight 19 ^^^ (w14 >>> 10)
    shaRounds ks (w.drop 1 ++ [w.getD 0 0 + s0 + w.getD 9 0 + s1]) (shaRound r k (w.getD 0 0))

/-- Big-endian 32-bit words of bytes. -/
def beWords : Nat → List Byte → List W32
  | 0, _ => []
  | n + 1, bs => w32 (beNat (bs.take 4)) :: beWords n (bs.drop 4)

/-- One 64-byte block. -/
def shaBlock (h : List W32) (blk : List Byte) : List W32 :=
  let g := fun n => h.getD n 0
  let r := shaRounds shaK (beWords 16 blk)
    { a := g 0, b := g 1, c := g 2, d := g 3, e := g 4, f := g 5, g := g 6, h := g 7 }
  [g 0 + r.a, g 1 + r.b, g 2 + r.c, g 3 + r.d, g 4 + r.e, g 5 + r.f, g 6 + r.g, g 7 + r.h]

/-- The blocks of a padded message. -/
def shaBlocks : Nat → List W32 → List Byte → List W32
  | 0, h, _ => h
  | n + 1, h, bs => shaBlocks n (shaBlock h (bs.take 64)) (bs.drop 64)

/-- SHA-256 as FIPS 180-4 defines it. -/
def sha256 (m : List Byte) : List Byte :=
  let pad := 1 + (119 - m.length % 64) % 64
  let full := m ++ (128#8 :: List.replicate (pad - 1) 0#8) ++ beBytes 8 (8 * m.length)
  (shaBlocks (full.length / 64) shaInit full).flatMap (fun w => beBytes 4 w.toNat)

-- ChaCha20 (RFC 8439)

/-- A quarter round on words a, b, c, d of the block state. -/
def chachaQuarter (s : List W32) (a b c d : Nat) : List W32 :=
  let xa := s.getD a 0
  let xb := s.getD b 0
  let xc := s.getD c 0
  let xd := s.getD d 0
  let a1 := xa + xb
  let d1 := (xd ^^^ a1).rotateLeft 16
  let c1 := xc + d1
  let b1 := (xb ^^^ c1).rotateLeft 12
  let a2 := a1 + b1
  let d2 := (d1 ^^^ a2).rotateLeft 8
  let c2 := c1 + d2
  let b2 := (b1 ^^^ c2).rotateLeft 7
  (((s.set a a2).set b b2).set c c2).set d d2

/-- A double round. -/
def chachaDouble (s : List W32) : List W32 :=
  let q := chachaQuarter
  let s1 := q (q (q (q s 0 4 8 12) 1 5 9 13) 2 6 10 14) 3 7 11 15
  q (q (q (q s1 0 5 10 15) 1 6 11 12) 2 7 8 13) 3 4 9 14

/-- `n` double rounds. -/
def chachaRounds : Nat → List W32 → List W32
  | 0, s => s
  | n + 1, s => chachaRounds n (chachaDouble s)

/-- Word `j` of the block under SEED, block counter and first nonce word (R298). -/
def chachaWord (seed : W64) (counter nonce j : Nat) : Nat :=
  let s := [0x61707865, 0x3320646e, 0x79622d32, 0x6b206574, w32 seed.toNat, w32 (seed.toNat / 4294967296), 0, 0, 0, 0, 0, 0,
    w32 counter, w32 nonce, 0, 0]
  ((chachaRounds 10 s).getD j 0 + s.getD j 0).toNat

-- AES-256-GCM (FIPS 197, SP 800-38D)

/-- Doubling in GF(2^8). -/
def aesDouble (x : Nat) : Nat := if x < 128 then 2 * x else (2 * x - 256) ^^^ 0x1B

/-- The product in GF(2^8), over the low `n` bits of `x`. -/
def aesMulLoop : Nat → Nat → Nat → Nat
  | 0, _, _ => 0
  | n + 1, x, y => (if x % 2 = 1 then y else 0) ^^^ aesMulLoop n (x / 2) (aesDouble y)

/-- The product in GF(2^8). -/
def aesMul (x y : Nat) : Nat := aesMulLoop 8 x y

/-- x^254, the inverse in GF(2^8). -/
def aesInv (x : Nat) : Nat :=
  let x2 := aesMul x x
  let x4 := aesMul x2 x2
  let x8 := aesMul x4 x4
  let x16 := aesMul x8 x8
  let x32 := aesMul x16 x16
  let x64 := aesMul x32 x32
  let x128 := aesMul x64 x64
  aesMul x2 (aesMul x4 (aesMul x8 (aesMul x16 (aesMul x32 (aesMul x64 x128)))))

/-- A rotation of a byte to the left. -/
def rotByte (x n : Nat) : Nat := (x * 2 ^ n) % 256 + x / 2 ^ (8 - n)

/-- The S-box. -/
def aesSboxOf (x : Nat) : Nat :=
  let b := aesInv x
  b ^^^ rotByte b 1 ^^^ rotByte b 2 ^^^ rotByte b 3 ^^^ rotByte b 4 ^^^ 0x63

/-- The table of the S-box. -/
def aesSbox : List Nat := (List.range 256).map aesSboxOf

/-- The S-box at a byte. -/
def aesSub (x : Nat) : Nat := aesSbox.getD x 0

/-- Bytes combined by exclusive or. -/
def xorBytes (a b : List Nat) : List Nat := List.zipWith (· ^^^ ·) a b

/-- The 60 words of the key schedule of AES-256, latest first. -/
def aesExpand : Nat → Nat → List (List Nat) → List (List Nat)
  | 0, _, ws => ws
  | n + 1, rc, ws =>
    let i := ws.length
    let prev := ws.getD 0 []
    let old := ws.getD 7 []
    let t :=
      if i % 8 = 0 then xorBytes ((prev.drop 1 ++ prev.take 1).map aesSub) [rc, 0, 0, 0]
      else if i % 8 = 4 then prev.map aesSub
      else prev
    aesExpand n (if i % 8 = 0 then aesDouble rc else rc) (xorBytes old t :: ws)

/-- The round keys of a 32-byte key, 16 bytes each. -/
def aesKeys (key : List Nat) : List (List Nat) :=
  let first := (List.range 8).map (fun i => (key.drop (4 * i)).take 4)
  let ws := (aesExpand 52 1 first.reverse).reverse
  (List.range 15).map (fun r => ((ws.drop (4 * r)).take 4).flatten)

/-- ShiftRows. -/
def aesShift (s : List Nat) : List Nat := (List.range 16).map (fun i => s.getD ((i + 4 * (i % 4)) % 16) 0)

/-- MixColumns. -/
def aesMix (s : List Nat) : List Nat :=
  (List.range 16).map (fun i =>
    let c := fun k => s.getD (4 * (i / 4) + (i + k) % 4) 0
    aesDouble (c 0) ^^^ (aesDouble (c 1) ^^^ c 1) ^^^ c 2 ^^^ c 3)

/-- Rounds with the keys that remain; the last round mixes no columns. -/
def aesRounds : List (List Nat) → List Nat → List Nat
  | [], s => s
  | [k], s => xorBytes (aesShift (s.map aesSub)) k
  | k :: ks, s => aesRounds ks (xorBytes (aesMix (aesShift (s.map aesSub))) k)

/-- One block encrypted. -/
def aesBlock (keys : List (List Nat)) (b : List Nat) : List Nat :=
  match keys with
  | [] => b
  | k :: ks => aesRounds ks (xorBytes b k)

-- AES-256 decryption and XTS (FIPS 197, IEEE 1619; R270)

/-- The inverse S-box. -/
def aesUnsub (x : Nat) : Nat := (aesSbox.findIdx? (· == x)).getD 0

/-- InvShiftRows. -/
def aesUnshift (s : List Nat) : List Nat := (List.range 16).map (fun i => s.getD ((i + 16 - 4 * (i % 4)) % 16) 0)

/-- InvMixColumns. -/
def aesUnmix (s : List Nat) : List Nat :=
  (List.range 16).map (fun i =>
    let c := fun k => s.getD (4 * (i / 4) + (i + k) % 4) 0
    aesMul 14 (c 0) ^^^ aesMul 11 (c 1) ^^^ aesMul 13 (c 2) ^^^ aesMul 9 (c 3))

/-- Inverse rounds with the keys that remain, latest first; the last one mixes no columns. -/
def aesUnrounds : List (List Nat) → List Nat → List Nat
  | [], s => s
  | [k], s => xorBytes ((aesUnshift s).map aesUnsub) k
  | k :: ks, s => aesUnrounds ks (aesUnmix (xorBytes ((aesUnshift s).map aesUnsub) k))

/-- One block decrypted. -/
def aesUnblock (keys : List (List Nat)) (b : List Nat) : List Nat :=
  match keys.reverse with
  | [] => b
  | k :: ks => aesUnrounds ks (xorBytes b k)

/-- The tweak of the next block of a data unit: a doubling in GF(2^128), little-endian. -/
def xtsDouble (t : Nat) : Nat := if t < 2 ^ 127 then 2 * t else (2 * t - 2 ^ 128) ^^^ 0x87

/-- The blocks of a data unit under a tweak, by encryption or decryption of one block. -/
def xtsBlocks (f : List Nat → List Nat) : Nat → Nat → List Nat → List Nat
  | 0, _, _ => []
  | n + 1, t, b =>
    let m := (leBytes 16 t).map (·.toNat)
    xorBytes (f (xorBytes (b.take 16) m)) m ++ xtsBlocks f n (xtsDouble t) (b.drop 16)

/-- XTS-AES-256 of a 512-byte data unit: a 64-byte key, a 16-byte tweak. -/
def xtsUnit (decrypt : Bool) (key tweak unit : List Byte) : List Byte :=
  let k1 := aesKeys ((key.take 32).map (·.toNat))
  let k2 := aesKeys ((key.drop 32).map (·.toNat))
  let t := leNat ((aesBlock k2 (tweak.map (·.toNat))).map (BitVec.ofNat 8))
  (xtsBlocks (if decrypt then aesUnblock k1 else aesBlock k1) 32 t (unit.map (·.toNat))).map (BitVec.ofNat 8)

/-- A product in GF(2^128) of GCM, over the high `n` bits that remain of `x`. -/
def gcmMulLoop : Nat → Nat → Nat → Nat → Nat
  | 0, _, _, z => z
  | n + 1, x, v, z =>
    gcmMulLoop n x (if v % 2 = 1 then (v / 2) ^^^ (0xE1 * 2 ^ 120) else v / 2) (if x.testBit n then z ^^^ v else z)

/-- GHASH over 16-byte blocks. -/
def ghash (h : Nat) : Nat → List Byte → Nat → Nat
  | 0, _, y => y
  | n + 1, bs, y => ghash h n (bs.drop 16) (gcmMulLoop 128 (y ^^^ beNat ((bs ++ List.replicate 16 0#8).take 16)) h 0)

/-- The key stream from a counter block on. -/
def gcmStream (keys : List (List Nat)) (iv : List Byte) : Nat → Nat → List Nat
  | 0, _ => []
  | n + 1, c => aesBlock keys ((iv ++ beBytes 4 c).map (·.toNat)) ++ gcmStream keys iv n (c + 1)

/-- AES-256-GCM decryption with a 12-byte IV; none where the tag fails. -/
def gcmOpen (key iv aad cipher tag : List Byte) : Option (List Byte) :=
  let keys := aesKeys (key.map (·.toNat))
  let h := beNat ((aesBlock keys (List.replicate 16 0)).map (BitVec.ofNat 8))
  let na := (aad.length + 15) / 16
  let nc := (cipher.length + 15) / 16
  let y := ghash h nc cipher (ghash h na aad 0)
  let y1 := ghash h 1 (beBytes 8 (8 * aad.length) ++ beBytes 8 (8 * cipher.length)) y
  let mask := beNat ((gcmStream keys iv 1 1).map (BitVec.ofNat 8))
  if beBytes 16 (y1 ^^^ mask) = tag then
    some (List.zipWith (fun c k => c ^^^ BitVec.ofNat 8 k) cipher (gcmStream keys iv nc 2))
  else none

-- RSA (RFC 8017)

/-- b^e mod n, over the low `k` bits of `e`. -/
def modPow : Nat → Nat → Nat → Nat → Nat
  | 0, _, _, _ => 1
  | k + 1, b, e, n => (if e % 2 = 1 then b else 1) * modPow k (b * b % n) (e / 2) n % n

/-- The mask generation function MGF1 with SHA-256. -/
def mgf1 (seed : List Byte) (n : Nat) : List Byte :=
  ((List.range ((n + 31) / 32)).flatMap (fun c => sha256 (seed ++ beBytes 4 c))).take n

/-- Bytes combined by exclusive or. -/
def xorList (a b : List Byte) : List Byte := List.zipWith (· ^^^ ·) a b

/-- RSASSA-PSS verification, 3,072-bit modulus, SHA-256, 32-byte salt, exponent 65,537 (R358, R367). -/
def pssVerify (n : Nat) (msg sig : List Byte) : Bool :=
  let s := beNat sig
  let em := beBytes 384 (modPow 17 s 65537 n)
  let masked := em.take 351
  let h := (em.drop 351).take 32
  let db0 := xorList masked (mgf1 h 351)
  let db := match db0 with | [] => [] | b :: r => (b &&& 0x7F#8) :: r
  let salt := db.drop 319
  sig.length == 384 && s < n && em.getLastD 0 == 0xBC#8 && masked.headD 0xFF < 0x80#8
    && db.take 319 == List.replicate 318 0#8 ++ [1#8]
    && h == sha256 (List.replicate 8 0#8 ++ sha256 msg ++ salt)

/-- The first byte that is not zero, which must be 1, ends the padding of OAEP. -/
def oaepTail : List Byte → Option (List Byte)
  | [] => none
  | b :: r => if b = 0 then oaepTail r else if b = 1 then some r else none

/-- RSAES-OAEP decryption with SHA-256, MGF1 with SHA-256 and an empty label (R363, R365). -/
def oaepOpen (n d : Nat) (cipher : List Byte) : Option (List Byte) :=
  let c := beNat cipher
  if n ≤ c then none
  else
    let em := beBytes 384 (modPow 3072 c d n)
    let seed := xorList ((em.drop 1).take 32) (mgf1 (em.drop 33) 32)
    let db := xorList (em.drop 33) (mgf1 seed 351)
    if em.headD 1 = 0 ∧ db.take 32 = sha256 [] then oaepTail (db.drop 32) else none

/-- Extended Euclid: an inverse of `a` modulo `m`, as the coefficient of the last non-zero remainder. -/
def invLoop : Nat → Nat → Nat → Int → Int → Int
  | 0, _, _, t, _ => t
  | k + 1, r0, r1, t0, t1 => if r1 = 0 then t0 else invLoop k r1 (r0 % r1) t1 (t0 - (r0 / r1 : Nat) * t1)

/-- The private exponent of primes p and q for the public exponent 65,537. -/
def rsaPrivate (p q : Nat) : Nat :=
  let phi := (p - 1) * (q - 1)
  ((invLoop 200 phi 65537 0 1) % (phi : Int)).toNat

end Sys2Proof.Machine
end

