-- ==== Sys2Proof/Machine/Bandstand.lean ====
section
/-!
DEFINITION. The Bandstand (R294 to R303): deliveries, the scanner, distributions and draws, drafts, commits, token records.
-/

namespace Sys2Proof.Machine
open Sys2Proof

/-- The Bandstand changed. -/
def State.modBand (s : State) (f : Band → Band) : State := { s with die := { s.die with band := f s.die.band } }

/-- Bandstand slot `n` beside its registers. -/
def State.slot (s : State) (n : Nat) : BsSlot := SMap.look s.die.band.slots n BsSlot.reset

/-- Slot `n` changed. -/
def State.modSlot (s : State) (n : Nat) (f : BsSlot → BsSlot) : State :=
  s.modBand (fun b => { b with slots := SMap.put b.slots n (f (s.slot n)) })

/-- PHASE codes of BS_SLOTn_STATE (R307). -/
def bsCollecting : Nat := 1
def bsEnded : Nat := 3

/-- The slot is open; its depth; whether it is a DRAFT slot; its step. -/
def slotOpen (s : State) (n : Nat) : Bool := s.rd (BS_SLOT_CFG_OPEN n) == 1
def slotDepth (s : State) (n : Nat) : Nat := s.rd (BS_SLOT_CFG_DEPTH n)
def slotDraft (s : State) (n : Nat) : Bool := s.rd (BS_SLOT_CFG_MODE n) == 1
def slotStep (s : State) (n : Nat) : Nat := s.rd (BS_SLOT_STATE_STEP n)

/-- Logits held in staging (R307), of one pavilion or of all. -/
def stagedOf (b : Band) (pv : Option Nat) : Nat :=
  (b.staging.filter (fun d => pv.isNone || pv == some d.pv)).foldl (fun n d => n + d.vals.length) 0

/-- Candidate rows in use (R307), of one pavilion or of all. -/
def rowsUsed (b : Band) (pv : Option Nat) : Nat :=
  (b.rows.filter (fun r => !r.none_ && (pv.isNone || pv == some r.pv))).length

/-- A pavilion's share of staging logits and of candidate rows (R429). -/
def bandShare (s : State) (pv unit : Nat) : Nat := unit * (s.pvClusters pv).length

/-- Logits are discarded and counted (R295). -/
def discard (s : State) (n : Nat) : State := (s.inc BS_STATS_DISCARDED n).raise BS_STATUS_DISCARD_SEEN

/-- A delivery is discarded (R295). -/
def deliveryRefused (s : State) (slot : Nat) (draft : Bool) (pos count pv : Nat) : Bool :=
  !slotOpen s slot
    || (!draft && slotDepth s slot < pos) || (draft && slotDepth s slot ≤ pos)
    || (slotDraft s slot && (draft || 0 < pos))
    || 16777216 < stagedOf s.die.band none + count
    || bandShare s pv 1048576 < stagedOf s.die.band (some pv) + count

/-- The Bandstand cycle now: it runs at 2.0 GHz (R295). -/
def bandCycle (s : State) : Nat := s.sun.time / 10920000

/-- A delivery enters the store in order of arrival, and of the intake ports within one Bandstand cycle (R295). -/
def stageIn (d : Deliv) : List Deliv → List Deliv
  | [] => [d]
  | x :: xs => if x.cycle = d.cycle ∧ d.port < x.port then d :: x :: xs else x :: stageIn d xs

/-- Commits of a slot that the order of R295 places after what reaches the Bandstand now on a port. -/
def laterCommits (s : State) (slot port : Nat) : Nat :=
  (s.die.band.commits.filter (fun c => c.slot == slot && c.cycle == bandCycle s && port < c.port)).length

/-- A delivery reaches the staging store on the intake port of its cluster (R295). -/
def deliver (s : State) (slot : Nat) (draft : Bool) (pos voff pv port : Nat) (vals : List W32) : State :=
  if deliveryRefused s slot draft pos vals.length pv then discard s vals.length
  else
    let d : Deliv := { slot := slot, draft := draft, pos := pos, voff := voff, vals := vals, step := (s.slot slot).collect - laterCommits s slot port,
                       open_ := true, pv := pv, cycle := bandCycle s, port := port }
    s.modBand (fun b => { b with staging := stageIn d b.staging })

/-- A commit reaches the Bandstand (R176, R295): it divides the slot's deliveries into steps, those that the same cycle brings on higher ports among
the next step's. -/
def bandCommit (s : State) (slot port : Nat) : State :=
  if !slotOpen s slot || (!slotDraft s slot && s.rd (BS_SLOT_STATE_PHASE slot) == bsEnded) then s
  else
    let now := bandCycle s
    let later := laterCommits s slot port
    let n := (s.slot slot).collect - later
    (s.modBand (fun b => { b with
      staging := b.staging.map (fun d => if d.slot = slot ∧ d.cycle = now ∧ port < d.port ∧ n ≤ d.step then { d with step := d.step + 1 } else d),
      commits := b.commits.map (fun c => if c.slot = slot ∧ c.cycle = now ∧ port < c.port then { c with step := c.step + 1 } else c)
        ++ [{ slot := slot, step := n, open_ := true, cycle := now, port := port }] })).modSlot slot
      (fun x => { x with collect := x.collect + 1 })

/-- The frame's deliveries and commits that a replay discards (R295, R380). -/
def bandAbandon (s : State) : State :=
  let drop := s.die.band.commits.filter (·.open_)
  let s1 := drop.foldl (fun s c => s.modSlot c.slot (fun x => { x with collect := x.collect - 1 })) s
  s1.modBand (fun b => { b with staging := b.staging.filter (fun d => !d.open_), commits := b.commits.filter (fun c => !c.open_) })

/-- An event for a mask core's queue (R253). -/
def pushEvent (s : State) (k kind count slot : Nat) : State :=
  let l := s.lodge k
  if l.evq.length < 64 then
    s.setLodge k { l with evq := l.evq ++ [{ kind := kind, count := count, slot := slot, frame := w32 s.frame }] }
  else s.setLodge k (l.raise LG_STATUS_EVQ_OVF)

/-- An event for the core that a constrained slot names (R253). -/
def slotEvent (s : State) (slot kind count : Nat) : State :=
  if s.rd (BS_SLOT_CFG_CONSTRAINED slot) = 1 then pushEvent s (s.rd (BS_SLOT_CFG_MASK_CORE slot)) kind count slot else s

-- the scanner

/-- Target entries that the scanner holds back (R295), and entries of a step that is not yet the slot's own. -/
def heldBack (s : State) (d : Deliv) : Bool :=
  d.open_ || d.step != slotStep s d.slot
    || (!d.draft && !slotDraft s d.slot && 0 < slotDepth s d.slot && !(s.slot d.slot).derived)
    || (!d.draft && s.rd (BS_SLOT_CFG_CONSTRAINED d.slot) == 1 && !bit (s.slot d.slot).done d.pos)

/-- The penalised token window of a target position (R296). -/
def penWindow (b : BsSlot) (pos : Nat) : List Nat := b.pen ++ b.drafts.take pos

/-- The value that the scanner inserts for entry `i` of a row, `none` for −infinity (R296). -/
def scanValue (s : State) (slot : Nat) (draft : Bool) (pos i x : Nat) : Option Nat :=
  let b := s.slot slot
  let x0 := if (dec32 x).isNan then 0xFF800000 else x
  let x1 :=
    if !draft && (penWindow b pos).contains i then
      let rep := s.rd (BS_SLOT_PARAM1_REP_PENALTY slot)
      let y := if 0 < Fp.cmp (dec32 x0) (dec32 0) then div32 .rne x0 rep else rne32 (Fp.mul (dec32 x0) (dec32 rep))
      rne32 (Fp.add false (dec32 y) (dec32 (s.rd (BS_SLOT_PARAM1_PRESENCE slot))).negate)
    else x0
  let x2 := if !draft && s.rd (BS_SLOT_CFG_CONSTRAINED slot) == 1 && !bit (SMap.look b.mask (4096 * pos + i / 64) 0) (i % 64)
    then 0xFF800000 else x1
  let x3 := if s.rd (BS_SLOT_CFG_GREEDY slot) = 0 then rne32 (Fp.mul (dec32 x2) (dec32 (s.rd (BS_SLOT_PARAM0_SCALE slot)))) else x2
  let x4 := if x3 = 0x7F800000 then 0x7F7FFFFF else x3
  if x4 = 0xFF800000 then none else some x4

/-- Candidate order (R296): y descending, then i ascending. -/
def candBefore (a b : W32 × Nat) : Bool :=
  let c := Fp.cmp (dec32 a.1.toNat) (dec32 b.1.toNat)
  0 < c || (c == 0 && a.2 < b.2)

/-- An entry inserted in candidate order. -/
def candInsert (x : W32 × Nat) : List (W32 × Nat) → List (W32 × Nat)
  | [] => [x]
  | y :: ys => if candBefore x y then x :: y :: ys else y :: candInsert x ys

/-- A candidate row is that of (slot, row, position). -/
def CandRow.is (r : CandRow) (slot : Nat) (draft : Bool) (pos : Nat) : Bool := r.slot == slot && r.draft == draft && r.pos == pos

/-- The row that a (slot, row) takes at its first scanned entry (R295, R429). -/
def takeRow (s : State) (d : Deliv) : State :=
  if s.die.band.rows.any (fun r => r.is d.slot d.draft d.pos) then s
  else
    let b := s.die.band
    let full := 2048 ≤ rowsUsed b none || bandShare s d.pv 128 ≤ rowsUsed b (some d.pv)
    s.modBand (fun b => { b with rows := b.rows ++
      [{ slot := d.slot, draft := d.draft, pos := d.pos, step := d.step, count := 0, none_ := full, cands := [], pv := d.pv }] })

/-- One logit scanned (R296). -/
def scanEntry (d : Deliv) (s : State) (i : Nat) (x : W32) : State :=
  let s1 := takeRow (if (dec32 x.toNat).isNan then s.raise BS_STATUS_NAN_SEEN else s) d
  let v := scanValue s d.slot d.draft d.pos i x.toNat
  let s2 := if s1.die.band.rows.any (fun r => r.is d.slot d.draft d.pos && r.none_) then discard s1 1 else s1
  s2.modBand (fun b => { b with rows := b.rows.map (fun r =>
    if r.is d.slot d.draft d.pos then
      { r with count := r.count + 1, cands := match v with
        | some y => if r.none_ then r.cands else (candInsert (w32 y, i) r.cands).take 1024
        | none => r.cands }
    else r) })

/-- Logits of a delivery scanned from an index on. -/
def scanVals (d : Deliv) : State → Nat → List W32 → State
  | s, _, [] => s
  | s, i, x :: xs => scanVals d (scanEntry d s i x) (i + 1) xs

/-- Staged deliveries scanned in order, `room` logits in all; those that `skip` picks stay (R295). The first list is what has been passed. -/
def scanList (skip : State → Deliv → Bool) : State → Nat → List Deliv → List Deliv → State
  | s, _, done, [] => s.modBand (fun b => { b with staging := done })
  | s, room, done, d :: ds =>
    if room = 0 ∨ skip s d then scanList skip s room (done ++ [d]) ds
    else
      let s1 := scanVals d s d.voff (d.vals.take room)
      let rest := d.vals.drop room
      scanList skip s1 (room - d.vals.length) (if rest.isEmpty then done else done ++ [{ d with vals := rest, voff := d.voff + room }]) ds

/-- Meaning of BANDSTAND_SCAN: one Bandstand cycle of the scanner (R295). -/
def execBandstandScan (s : State) : Host.Outcome State Fault Refusal :=
  .next (scanList heldBack s 256 [] s.die.band.staging)

-- distributions and draws (R297, R298)

/-- An FP32 code in [0, 2^64) as a multiple of 2^−149. -/
def fixed149 (x : Nat) : Nat :=
  match dec32 x with
  | .fin false m e => if 0 ≤ e + 149 then m * 2 ^ (e + 149).toNat else m / 2 ^ (-(e + 149)).toNat
  | _ => 0

/-- The shortest prefix of weights whose sum reaches TOP_P of the total (R297). -/
def topP (p total : Nat) : Nat → List (Nat × Nat) → List (Nat × Nat)
  | _, [] => []
  | acc, e :: es => if p * total ≤ acc * 2 ^ 149 then [] else e :: topP p total (acc + e.2) es

/-- The candidates of a row in candidate order; none for a row that was never scanned. -/
def rowCands (s : State) (slot : Nat) (draft : Bool) (pos : Nat) : List (W32 × Nat) :=
  match s.die.band.rows.find? (fun r => r.is slot draft pos) with
  | some r => r.cands
  | none => []

/-- The distribution of a row (R297): indices with weights in multiples of 2^−149. -/
def distribution (s : State) (slot : Nat) (draft : Bool) (pos : Nat) : List (Nat × Nat) :=
  match rowCands s slot draft pos with
  | [] => []
  | c :: cs =>
    if s.rd (BS_SLOT_CFG_GREEDY slot) = 1 then [(c.2, 2 ^ 149)]
    else
      let k := s.rd (BS_SLOT_PARAM2_TOP_K slot)
      let l := (c :: cs).take (if k = 0 then 1024 else k)
      let w := l.map (fun e => (e.2, vxFunction 0 (rne32 (Fp.add false (dec32 e.1.toNat) (dec32 c.1.toNat).negate))))
      let minp := dec32 (s.rd (BS_SLOT_PARAM2_MIN_P slot))
      let kept := (w.filter (fun e => !minp.isNan && 0 ≤ Fp.cmp (dec32 e.2) minp)).map (fun e => (e.1, fixed149 e.2))
      topP (fixed149 (s.rd (BS_SLOT_PARAM0_TOP_P slot))) (kept.foldl (fun n e => n + e.2) 0) 0 kept

/-- tot(D). -/
def distTotal (d : List (Nat × Nat)) : Nat := d.foldl (fun n e => n + e.2) 0

/-- wt(D, i). -/
def distWeight (d : List (Nat × Nat)) (i : Nat) : Nat := ((d.find? (fun e => e.1 == i)).map (·.2)).getD 0

/-- An entry inserted by ascending index. -/
def indexInsert (x : Nat × Nat) : List (Nat × Nat) → List (Nat × Nat)
  | [] => [x]
  | y :: ys => if x.1 ≤ y.1 then x :: y :: ys else y :: indexInsert x ys

/-- The first index whose running sum passes the draw. -/
def drawLoop (u total : Nat) : Nat → List (Nat × Nat) → Option Nat
  | _, [] => none
  | acc, e :: es => if u * total < (acc + e.2) * 4294967296 then some e.1 else drawLoop u total (acc + e.2) es

/-- A draw from a distribution with word u (R298). -/
def draw (d : List (Nat × Nat)) (u : Nat) : Option Nat := drawLoop u (distTotal d) 0 (d.foldr indexInsert [])

/-- SEED of a slot. -/
def slotSeed (s : State) (slot : Nat) : W64 := s.regW (BS_SLOT_SEED_OFF slot)

-- token records

/-- Three 18-bit tokens in a word (R301). -/
def tokWord (l : List Nat) : W64 := setBits (setBits (setBits 0 17 0 (l.getD 0 0)) 35 18 (l.getD 1 0)) 53 36 (l.getD 2 0)

/-- Tokens in three words. -/
def tokWords (l : List Nat) : List W64 := [tokWord l, tokWord (l.drop 3), tokWord (l.drop 6)]

/-- K0 of a token record (R301). -/
def recordK0 (step accepted count : Nat) (emptyRow maxReached stopped fin : Bool) : W64 :=
  setBits (setBits (setBits (setBits (setBits (setBits (setBits 0 63 32 step) 11 11 (ofBool emptyRow)) 10 10 (ofBool maxReached)) 9 9
    (ofBool stopped)) 8 8 (ofBool fin)) 7 4 accepted) 3 0 count

/-- A token record is due at the slot's result tile (R301). -/
def queueLanding (s : State) (slot : Nat) (draft : Bool) (words : List W64) (em : Option Emission) : State :=
  s.modBand (fun b => { b with lands := b.lands ++
    [{ slot := slot, tile := 16 * s.rd (BS_SLOT_CFG_RESULT_I slot) + s.rd (BS_SLOT_CFG_RESULT_J slot),
       addr := 64 * s.rd (BS_SLOT_CFG_RESULT_REC slot) + (if draft then 32 else 0), ctr := s.rd (BS_SLOT_CFG_RESULT_CTR slot),
       draft := draft, words := words, landed := false, emission := em }] })

-- drafts (R299)

/-- The drafts of positions p on, until an empty row. -/
def draftsFrom (s : State) (slot d step : Nat) : Nat → Nat → List Nat
  | 0, _ => []
  | k + 1, p =>
    match draw (distribution s slot true p) (chachaWord (slotSeed s slot) ((step * d + p) % 4294967296) 1 0) with
    | none => []
    | some x => x :: draftsFrom s slot d step k (p + 1)

/-- A TARGET slot derives the drafts of its step (R299): the draft words land, and the mask core hears DRAFTED. -/
def deriveDrafts (s : State) (slot : Nat) : State :=
  let d := slotDepth s slot
  let n := slotStep s slot
  let xs := draftsFrom s slot d n d 0
  let s1 := s.modSlot slot (fun b => { b with drafts := xs, derived := true })
  let k7 := setBits (setBits 0 63 32 n) 3 0 xs.length
  slotEvent (queueLanding s1 slot true (tokWords xs ++ [k7]) none) slot 1 xs.length

/-- Draft rows 0 to d − 1 have been received and scanned whole (R299). -/
def draftsReady (s : State) (slot : Nat) : Bool :=
  (List.range (slotDepth s slot)).all (fun p =>
    s.die.band.rows.any (fun r => r.is slot true p && s.rd (BS_SLOT_CFG_VOCAB slot) ≤ r.count))

/-- Meaning of DRAFT_DERIVATION (R299). -/
def execDraftDerivation (slot : Nat) (s : State) : Host.Outcome State Fault Refusal :=
  if slot < 1024 then
    .next (if slotOpen s slot && !slotDraft s slot && 0 < slotDepth s slot && !(s.slot slot).derived && draftsReady s slot
           then deriveDrafts s slot else s)
  else .fault (.noSuch "Bandstand slot")

-- commits (R300)

/-- The acceptance test from draft `a` on: the drafts accepted, and whether one was rejected. -/
def acceptLoop (s : State) (slot step : Nat) : List Nat → Nat → Nat × Bool
  | [], a => (a, false)
  | x :: xs, a =>
    let p := distribution s slot false a
    let q := distribution s slot true a
    let r := chachaWord (slotSeed s slot) step 0 a
    if 0 < distWeight q x ∧ r * distWeight q x * distTotal p < 4294967296 * distWeight p x * distTotal q
    then acceptLoop s slot step xs (a + 1) else (a, true)

/-- The residual of a rejected position. -/
def residual (p q : List (Nat × Nat)) : List (Nat × Nat) :=
  p.map (fun e => (e.1, e.2 * distTotal q - distWeight q e.1 * distTotal p))

/-- Stop tokens of a slot (R285). -/
def stopTokens (s : State) (slot : Nat) : List Nat :=
  let w := s.regW (BS_SLOT_STOP_OFF slot)
  (if bit w 54 then [bits w 17 0] else []) ++ (if bit w 55 then [bits w 35 18] else []) ++ (if bit w 56 then [bits w 53 36] else [])

/-- Tokens up to and with the first stop token, and whether one was met. -/
def cutStop (stops : List Nat) : List Nat → List Nat × Bool
  | [] => ([], false)
  | t :: ts => if stops.contains t then ([t], true) else (let r := cutStop stops ts; (t :: r.1, r.2))

/-- What a TARGET step draws (R300): tokens before the cuts, drafts accepted, EMPTY_ROW. -/
def sampleTarget (s : State) (slot : Nat) : List Nat × Nat × Bool :=
  let n := slotStep s slot
  let xs := (s.slot slot).drafts
  let r := acceptLoop s slot n xs 0
  let u := chachaWord (slotSeed s slot) n 0 8
  let p := distribution s slot false r.1
  let last := if r.2 then draw (residual p (distribution s slot true r.1)) u else draw p u
  match last with
  | some t => (xs.take r.1 ++ [t], r.1, false)
  | none => (xs.take r.1, r.1, true)

/-- The candidate rows of a slot go back to the pool, and its next step begins (R295, R300). -/
def endStep (s : State) (slot : Nat) : State :=
  let s1 := s.modBand (fun b => { b with rows := b.rows.filter (fun r => r.slot != slot),
                                         commits := dropFirst (fun c => c.slot == slot && !c.open_) b.commits })
  ((s1.modSlot slot (fun b => { b with drafts := [], derived := false, done := 0 })).inc BS_STATS_COMMITS 1).inc (BS_SLOT_STATE_STEP slot) 1

/-- A slot whose request has ended collects nothing more: its pending commits are dropped with it (R300, R302). -/
def endSlot (s : State) (slot : Nat) : State :=
  (s.modBand (fun b => { b with commits := b.commits.filter (fun c => c.slot != slot) })).wr (BS_SLOT_STATE_PHASE slot) bsEnded

/-- A TARGET slot's commit (R300). -/
def targetCommit (s : State) (slot : Nat) : State :=
  let n := slotStep s slot
  let b0 := s.slot slot
  let r := sampleTarget s slot
  let c1 := cutStop (stopTokens s slot) r.1
  let maxed := b0.maxTokens ≤ b0.emitted + c1.1.length
  let toks := c1.1.take (b0.maxTokens - b0.emitted)
  let fin := c1.2 || maxed || r.2.2
  let em : Emission := { pv := s.rd (BS_SLOT_CFG_PAVILION slot), tag := b0.tag, step := n, accepted := r.2.1, tokens := toks, stopped := c1.2,
                         maxReached := maxed, emptyRow := r.2.2, fin := fin }
  let s1 := queueLanding s slot false (recordK0 n r.2.1 toks.length r.2.2 maxed c1.2 fin :: tokWords toks) (some em)
  let s2 := (endStep s1 slot).modSlot slot (fun b =>
    let pen := b.pen ++ toks
    { b with pen := pen.drop (pen.length - 256), emitted := b.emitted + toks.length })
  slotEvent (if fin then endSlot s2 slot else s2) slot 2 toks.length

/-- A slot's commit of its present step is due: its frame has committed, and no lower slot's commit of that tick waits (R295, R302). -/
def commitDue (s : State) (slot : Nat) : Bool :=
  s.die.band.commits.any (fun c => c.slot == slot && c.step == slotStep s slot && !c.open_)
    && !s.die.band.commits.any (fun c => c.slot < slot && !c.open_)

/-- Entries of the slot's present step that are still staged are scanned before sampling, draft rows first (R299). -/
def scanRest (s : State) (slot : Nat) (draft : Bool) : State :=
  scanList (fun s d => d.slot != slot || d.draft != draft || d.open_ || d.step != slotStep s slot) s 16777216 [] s.die.band.staging

/-- Meaning of TARGET_COMMIT (R299, R300). -/
def execTargetCommit (slot : Nat) (s : State) : Host.Outcome State Fault Refusal :=
  if slot < 1024 then
    .next (if slotOpen s slot && !slotDraft s slot && commitDue s slot && s.rd (BS_SLOT_STATE_PHASE slot) != bsEnded then
        let s1 := scanRest s slot true
        let s2 := if 0 < slotDepth s slot && !(s1.slot slot).derived then deriveDrafts s1 slot else s1
        targetCommit (scanRest s2 slot false) slot
      else s)
  else .fault (.noSuch "Bandstand slot")

/-- A DRAFT slot's commit (R298). -/
def draftCommit (s : State) (slot : Nat) : State :=
  let n := slotStep s slot
  let t := draw (distribution s slot false 0) (chachaWord (slotSeed s slot) n 1 0)
  let k0 := recordK0 n 0 1 t.isNone false false false
  endStep (queueLanding s slot false (k0 :: tokWords [t.getD 0]) none) slot

/-- Meaning of DRAFT_SLOT_COMMIT (R298). -/
def execDraftSlotCommit (slot : Nat) (s : State) : Host.Outcome State Fault Refusal :=
  if slot < 1024 then
    .next (if slotOpen s slot && slotDraft s slot && commitDue s slot then draftCommit (scanRest s slot false) slot else s)
  else .fault (.noSuch "Bandstand slot")

/-- Landing `i` of the token records (R301): the words are written, and a commit landing adds 1 to RESULT_CTR. -/
def landRecord (s : State) (i : Nat) (draft : Bool) : State :=
  match s.die.band.lands[i]? with
  | none => s
  | some r =>
    if r.draft != draft || r.landed then s
    else
      let p := s.phys r.tile
      let s1 := noteLanding (spWrite s p byLanding r.addr (bytesOf r.words)) p false (r.addr, r.addr + 31)
      let s2 := s1.modBand (fun b => { b with lands := modAt (fun x => { x with landed := true }) b.lands i })
      if draft then s2 else tcAdd s2 p r.ctr 1 0 0

/-- Meaning of TOKEN_RECORD_LANDING. -/
def execTokenRecordLanding (i : Nat) (s : State) : Host.Outcome State Fault Refusal := .next (landRecord s i false)

/-- Meaning of DRAFT_RECORD_LANDING. -/
def execDraftRecordLanding (i : Nat) (s : State) : Host.Outcome State Fault Refusal := .next (landRecord s i true)

/-- What a closed or newly opened slot leaves behind goes (log entry 47): its candidate rows, its staged logits and its pending commits. -/
def dropSlotWork (s : State) (slot : Nat) : State :=
  s.modBand (fun b => { b with rows := b.rows.filter (fun r => r.slot != slot), staging := b.staging.filter (fun d => d.slot != slot),
                               commits := b.commits.filter (fun c => c.slot != slot) })

/-- A slot closes (R306): OPEN 0, PAVILION kept, the mask core hears CLOSED. -/
def closeSlot (s : State) (slot : Nat) : State :=
  if slotOpen s slot then
    slotEvent (((dropSlotWork s slot).wr (BS_SLOT_CFG_OPEN slot) 0).wr (BS_SLOT_STATE_PHASE slot) 0) slot 3 0
  else s

end Sys2Proof.Machine
end

