-- ==== Sys2Proof/Machine/Control.lean ====
section
/-!
DEFINITION. The control unit of a tile (R170 to R176): barriers, signals, hashes and deliveries to the Bandstand.
-/

namespace Sys2Proof.Machine
open Sys2Proof

/-- The control descriptor that starts next, if it has this opcode and a variant that `ok` takes (R148). -/
def nextCt (s : State) (t op : Nat) (ok : Desc → Bool) : Option (Nat × WinEntry) :=
  match nextOf s t unitCt [op] with
  | some (i, e) => if ok e.desc then some (i, e) else none
  | none => none

/-- The control descriptor of an opcode and variant that starts now: nothing starts while the tile stands (R29, R148). -/
def ctNow (s : State) (t op : Nat) (ok : Desc → Bool) : Option (Nat × WinEntry) :=
  if s.tileStands (s.phys t) then none else nextCt s t op ok

/-- A control descriptor that only starts and retires begins. -/
def ctBegin (s : State) (p i : Nat) (ph : Phase) : State := beginEntry s p i ph .clean Stage.reset 0

-- barriers

/-- The entry is granted to the tile's pavilion (R149, R170). -/
def barrierGranted (s : State) (p e : Nat) : Bool := (s.barrier e).pv.isSome && (s.barrier e).pv == s.pvOfTile p

/-- CT_BARRIER starts (R170, R171): the arrival leaves for the root, which it reaches 20 Sundial cycles after tc s. -/
def barrierStep (s : State) (t mode : Nat) : State :=
  let p := s.phys t
  match ctNow s t opCtBarrier (fun d => d.barMode == mode) with
  | none => s
  | some (i, e) =>
    let d := e.desc
    if !barrierGranted s p d.barEntry then failStart s p i e faultDescRange
    else
      let arr : Arrival := { module := s.index, tile := t, addr := e.addr, handler := e.handler, mode := mode, notify := d.barNotify,
                             add := d.barAdd, target := d.barTarget }
      let c : Ctl := { body := .arrive d.barEntry (s.barrier d.barEntry).machine 0 arr, due := s.sun.tick + 20, stale := false }
      let s1 : State := { s with die := { s.die with ctls := s.die.ctls ++ [c] } }
      ctBegin s1 p i (if mode = 0 then .waiting else .running)

/-- Meaning of CT_BARRIER MODE 0. -/
def execCtBarrierWait (t : Nat) (s : State) : Host.Outcome State Fault Refusal :=
  if t < 256 then .next (barrierStep s t 0) else .fault (.noSuch "tile")

/-- Meaning of CT_BARRIER MODE 1. -/
def execCtBarrierArriveOnly (t : Nat) (s : State) : Host.Outcome State Fault Refusal :=
  if t < 256 then .next (barrierStep s t 1) else .fault (.noSuch "tile")

-- signals

/-- CT_SIGNAL JOIN (R172). -/
def joinStep (s : State) (t : Nat) : State :=
  match ctNow s t opCtSignal (fun d => d.variant == 0) with
  | none => s
  | some (i, _) => ctBegin s (s.phys t) i .running

/-- Meaning of CT_SIGNAL JOIN. -/
def execCtSignalJoin (t : Nat) (s : State) : Host.Outcome State Fault Refusal :=
  if t < 256 then .next (joinStep s t) else .fault (.noSuch "tile")

/-- The first fault of a REMOTE_ADD (R172, R158). -/
def addFault (s : State) (p t i : Nat) (d : Desc) : Option Nat :=
  let x := s.tile p
  if schedBad x d 64 then some faultDescRange
  else if x.chSeen (TW_SEND_STATE_OPEN d.chan) = 0 then some faultClosedWrite
  else if d.vc = 1 ∧ injectBusy s p t i 1 then some faultSlotCollision
  else none

/-- A REMOTE_ADD: a message of 64 bytes that adds at landing, injected in the next tc (R172). -/
def addRun (s : State) (t i : Nat) (e : WinEntry) : State :=
  let p := s.phys t
  match addFault s p t i e.desc with
  | some k => failNet s p i e k
  | none =>
    let x : Transfer := { composed s p t e.desc.chan e.desc with op := 4, fc := false, left := 2 }
    newTransfer (ctBegin (countSend s p e.desc.chan 64 0) p i .running) x

/-- The channel-1 REMOTE_ADD that has issued in this tc, in which it starts whatever waits before it (R158, R172). -/
def addScheduled (s : State) (t : Nat) : Option (Nat × WinEntry) :=
  let w := (s.tile (s.phys t)).seq.window
  match w.findIdx? (fun e => e.desc.opcode == opCtSignal && e.desc.variant == 1 && e.desc.vc == 1 && e.phase == .issued) with
  | none => none
  | some i => if s.tileStands (s.phys t) then none else (w[i]?).map (fun e => (i, e))

/-- CT_SIGNAL REMOTE_ADD starts (R172). -/
def addStep (s : State) (t : Nat) : State :=
  match addScheduled s t with
  | some (i, e) => addRun s t i e
  | none =>
    match ctNow s t opCtSignal (fun d => d.variant == 1) with
    | none => s
    | some (i, e) => addRun s t i e

/-- Meaning of CT_SIGNAL REMOTE_ADD. -/
def execCtSignalRemoteAdd (t : Nat) (s : State) : Host.Outcome State Fault Refusal :=
  if t < 256 then .next (addStep s t) else .fault (.noSuch "tile")

/-- CT_SIGNAL CREDIT_RETURN (R172, R212): only for a BUFFER receive channel. -/
def creditStep (s : State) (t : Nat) : State :=
  let p := s.phys t
  match ctNow s t opCtSignal (fun d => d.variant == 2) with
  | none => s
  | some (i, e) =>
    if (s.tile p).rd (TW_RECV_CFG_KIND e.desc.chan) ≠ kindBuffer then failStart s p i e faultDescRange
    else ctBegin (returnCredits s p t e.desc.chan e.desc.creditCount) p i .running

/-- Meaning of CT_SIGNAL CREDIT_RETURN. -/
def execCtSignalCreditReturn (t : Nat) (s : State) : Host.Outcome State Fault Refusal :=
  if t < 256 then .next (creditStep s t) else .fault (.noSuch "tile")

-- a lane or intake port of a cluster

/-- The cluster's tile whose descriptor of an opcode takes a free lane or port (R148): the one that issued earliest, then the lowest. -/
def takesLane (s : State) (t op : Nat) (e : WinEntry) : Bool :=
  (tilesOf (clusterOf t)).all (fun u =>
    match nextOf s u unitCt [op] with
    | some (_, x) => e.issuedAt < x.issuedAt || (e.issuedAt == x.issuedAt && t ≤ u)
    | none => true)

/-- The cluster's lane or port for an opcode is free: every descriptor that it has taken has left it (R148). -/
def laneFree (s : State) (t op : Nat) : Bool :=
  (tilesOf (clusterOf t)).all (fun u => (s.tile (s.phys u)).seq.window.all (fun x => x.desc.opcode != op || x.phase == .issued || x.held ≤ x.pos))

/-- The 32 bytes of a salt entry (R276). -/
def saltBytes (s : State) (n : Nat) : List Byte :=
  bytesOf [s.regW (IH_SALT_KEY0_OFF n), s.regW (IH_SALT_KEY1_OFF n), s.regW (IH_SALT_KEY2_OFF n), s.regW (IH_SALT_KEY3_OFF n)]

/-- The salt entry is granted to the tile's pavilion (R173). -/
def saltGranted (s : State) (p n : Nat) : Bool :=
  s.rd (IH_SALT_CFG_VALID n) == 1 && s.pvOfTile p == some (s.rd (IH_SALT_CFG_PAVILION n))

/-- The intervals that CT_HASH reads (R173, R189). -/
def hashReads (d : Desc) : List (Nat × Nat) :=
  (512 * d.firstLine, 512 * d.firstLine + 1024 * d.hashBlocks - 1) :: (if d.hashFirst then [] else [(d.hashPrev, d.hashPrev + 31)])

/-- CT_HASH starts (R173, R174); with FIRST the chain starts from the salt as it stands now. -/
def hashStep (s : State) (t : Nat) (chk : Check) : State :=
  let p := s.phys t
  match ctNow s t opCtHash (fun _ => true) with
  | none => s
  | some (i, e) =>
    let d := e.desc
    if !laneFree s t opCtHash ∨ !takesLane s t opCtHash e then s
    else if !saltGranted s p d.saltId then failStart s p i e faultDescRange
    else match spFault (s.tile p) s.frame d.frameCarried false (hashReads d) [(d.hashDst, d.hashDst + 32 * d.hashBlocks - 1)] with
      | some k => failStart s p i e k
      | none =>
        let s1 := beginEntry s p i .running chk Stage.reset 0
        if d.hashFirst then pushRow s1 p i (saltBytes s d.saltId) else s1

/-- CT_HASH reads PREV, or a block of 1,024 bytes that it hashes behind the latest digest of its chain (R174). -/
def hashRead (s : State) (p i : Nat) (e : WinEntry) : State :=
  let d := e.desc
  if e.pos = 1 then (let r := readRow s p 1 e.chk d.hashPrev 32; pushRow r.1 p i r.2)
  else
    let r := readRow s p 1 e.chk (512 * d.firstLine + 1024 * ((e.pos - 2) / 1088)) 1024
    pushRow r.1 p i (sha256 (e.rows.getLastD [] ++ r.2))

/-- CT_HASH writes the digest of a block (R174); `rows` holds the digest before it first. -/
def hashWrite (s : State) (p i : Nat) (e : WinEntry) : State :=
  let row := match (s.tile p).seq.window[i]? with | some x => x.rows.getD 1 [] | none => []
  spWrite (popRow s p i) p bySpUnit (e.desc.hashDst + 32 * ((e.pos - 3) / 1088 - 1)) row

/-- Meaning of CT_HASH. -/
def execCtHash (t : Nat) (chk : Check) (s : State) : Host.Outcome State Fault Refusal :=
  if t < 256 then .next (hashStep s t chk) else .fault (.noSuch "tile")

/-- The state-dependent check of CT_SAMPLE (R175). -/
def sampleBad (s : State) (p : Nat) (d : Desc) : Bool :=
  s.pvOfTile p != some (s.rd (BS_SLOT_CFG_PAVILION d.sampleSlot))
    || (d.samplePart != 2 && s.rd (BS_SLOT_CFG_VOCAB d.sampleSlot) < d.sampleVoff + d.sampleCount)

/-- CT_SAMPLE starts (R175, R176); a commit tells the Bandstand at once. -/
def sampleStep (s : State) (t part : Nat) (chk : Check) : State :=
  let p := s.phys t
  match ctNow s t opCtSample (fun d => d.samplePart == part) with
  | none => s
  | some (i, e) =>
    let d := e.desc
    if !laneFree s t opCtSample ∨ !takesLane s t opCtSample e then s
    else if sampleBad s p d then failStart s p i e faultDescRange
    else match (if part = 2 then none else spFault (s.tile p) s.frame false true [(d.netSrc, d.netSrc + 4 * d.sampleCount - 1)] []) with
      | some k => failStart s p i e k
      | none =>
        let s1 := if part = 2 then bandCommit s d.sampleSlot (clusterOf t) else s
        beginEntry s1 p i .running chk Stage.reset 0

/-- CT_SAMPLE reads 256 bytes of logits; with the last ones the delivery reaches the Bandstand (R176, R295). -/
def sampleRead (s : State) (p t i : Nat) (e : WinEntry) : State :=
  let d := e.desc
  let r := readRow s p 0 e.chk (d.netSrc + 256 * e.pos) (min 256 (4 * d.sampleCount - 256 * e.pos))
  if e.pos + 1 < d.flits then pushRow r.1 p i r.2
  else
    let b := e.rows.flatten ++ r.2
    deliver r.1 d.sampleSlot (d.samplePart == 1) d.samplePos d.sampleVoff ((s.pvOfTile p).getD 0) (clusterOf t)
      ((List.range d.sampleCount).map (fun k => w32 (leNat ((b.drop (4 * k)).take 4))))

/-- Meaning of CT_SAMPLE PART 0. -/
def execCtSampleTarget (t : Nat) (chk : Check) (s : State) : Host.Outcome State Fault Refusal :=
  if t < 256 then .next (sampleStep s t 0 chk) else .fault (.noSuch "tile")

/-- Meaning of CT_SAMPLE PART 1. -/
def execCtSampleDraft (t : Nat) (chk : Check) (s : State) : Host.Outcome State Fault Refusal :=
  if t < 256 then .next (sampleStep s t 1 chk) else .fault (.noSuch "tile")

/-- Meaning of CT_SAMPLE PART 2. -/
def execCtSampleCommit (t : Nat) (s : State) : Host.Outcome State Fault Refusal :=
  if t < 256 then .next (sampleStep s t 2 .clean) else .fault (.noSuch "tile")

end Sys2Proof.Machine
end

