-- ==== Sys2Proof/Machine/Orangery.lean ====
section
/-!
DEFINITION. The Orangery (chapter 12) and the Orangery unit of a tile (R166 to R169): windows, the frame commit buffer, reads with their
protection, the staged stripes, and the refresh of a hot stack.
-/

namespace Sys2Proof.Machine
open Sys2Proof

/-- Bytes of a group (R258), of an extent (R259). -/
def groupBytes : Nat := 16000000000
def extentBytes : Nat := 0x4000000

/-- The groups of a pavilion in ascending order (R261). -/
def State.groups (s : State) (q : Nat) : List Nat := (List.range 16).filter (fun g => (s.rd (OY_PV_CFG_GROUPS q)).testBit g)

/-- Bytes of a pavilion's window (R261); none without groups or configuration (R260). -/
def windowBytes (s : State) (q : Nat) : Nat :=
  if s.rd (OY_PV_CFG_VALID q) = 1 then s.rd (OY_PV_CFG_WIN_EXTENTS q) * (s.groups q).length * extentBytes else 0

/-- The group and the group-local address of byte `a` of stripes that lie over groups `grp`: stripe `n` of the run is extent `stripe n`
(R261, R270). -/
def place (grp : List Nat) (stripe : Nat → Nat) (a : Nat) : Nat × Nat :=
  let g := grp.length
  let u := a / 2048
  (grp.getD (u % g) 0, stripe (u / (32768 * g)) * extentBytes + ((u / g) % 32768) * 2048 + a % 2048)

/-- The group and the group-local address of a window address (R261). -/
def windowPlace (s : State) (q a : Nat) : Nat × Nat := place (s.groups q) (fun n => s.rd (OY_PV_CFG_WIN_FIRST q) + n) a

/-- The place of a group-local address in `Die.hbm`. -/
def hbmKey (x : Nat × Nat) : Nat := groupBytes * x.1 + x.2

/-- The byte of a window that HBM holds. -/
def hbmByte (s : State) (q a : Nat) : Byte := Mem.rd s.die.hbm (hbmKey (windowPlace s q a))

/-- The byte that the commit buffer holds for a window address: the entry accepted last (R268). -/
def commitByte (l : List Commit) (q a : Nat) : Option Byte :=
  l.foldl (fun acc c => if c.pv = q ∧ c.addr ≤ a ∧ a < c.addr + c.data.length then c.data[a - c.addr]? else acc) none

/-- The byte that an Orangery read returns (R167, R268). -/
def oyByte (s : State) (q a : Nat) : Byte := (commitByte s.die.commit q a).getD (hbmByte s q a)

/-- Bytes that an Orangery read returns; the data of a flagged unit is not defined (R274). -/
def oyRead (s : State) (q a n : Nat) (chk : Check) : List Byte :=
  (List.range n).map (fun i =>
    match chk with
    | .uncorrectable u _ => if (a + i) / 2048 = u then Config.freeByte s.free ((a + i) % 2048) else oyByte s q (a + i)
    | _ => oyByte s q (a + i))

/-- Bytes written to a pavilion's window in HBM. -/
def windowWrite (s : State) (q a : Nat) (b : List Byte) : State :=
  { s with die := { s.die with
      hbm := (b.zip (List.range b.length)).foldl (fun m x => Mem.wr m (hbmKey (windowPlace s q (a + x.2))) x.1) s.die.hbm } }

/-- OY_ERRLOG takes a record when VALID is 0 (R282). The flagged piece of the unit is free: the command names the unit alone. -/
def oyErrlog (s : State) (kind group loc : Nat) : State :=
  if s.rd OY_ERRLOG_VALID = 0 then
    (((((s.raise OY_ERRLOG_VALID).wr OY_ERRLOG_KIND kind).wr OY_ERRLOG_GROUP group).wr OY_ERRLOG_PSEUDO (Config.freeNat s.free % 8)).wr
      OY_ERRLOG_LOCAL loc).drawn
  else s

/-- A unit that a stack flagged uncorrectable is counted and logged (R274, R282). -/
def flagUnit (s : State) (kind : Nat) (at_ : Nat × Nat) : State :=
  oyErrlog (s.incSat (OY_GROUP_ECC_UE_COUNT at_.1) 1) kind at_.1 (at_.2 / 2048 * 2048)

/-- Units of the window that have read clean: their faults were transient (R378). -/
def unitsClean (s : State) (q lo hi : Nat) : State :=
  if s.replay.sites.isEmpty then s
  else { s with replay := { s.replay with sites := s.replay.sites.filter (fun x => s.replay.fresh.contains x ||
    !(x.kind == siteOrangery && (List.range (hi - lo)).any (fun k =>
      (windowPlace s q (2048 * (lo + k))).1 == x.place && (windowPlace s q (2048 * (lo + k))).2 / 2048 == x.addr))) } }

/-- What the stacks found in a read of window units `lo` to `hi − 1` (R274): counted, logged, and an uncorrectable unit replayed. -/
def noteOy (s : State) (p q lo hi kind : Nat) (chk : Check) : State :=
  match chk with
  | .clean => unitsClean s q lo hi
  | .corrected u n _ => unitsClean (s.incSat (OY_GROUP_ECC_CE_COUNT (windowPlace s q (2048 * u)).1) n) q lo hi
  | .uncorrectable u _ =>
    let w := windowPlace s q (2048 * u)
    errorReplay (flagUnit s kind w).drawn { kind := siteOrangery, place := w.1, addr := w.2 / 2048 } (s.now p)

/-- The transfers of a tile that have started and not retired (R148). -/
def oyBusy (q : Seq) : Nat := (q.window.filter (fun e => e.unit == unitOy && e.phase != .issued)).length

/-- The Orangery descriptor that starts next: at most 8 are started and not retired (R148). -/
def nextOy (s : State) (t : Nat) (op : Nat) : Option (Nat × WinEntry) :=
  if oyBusy (s.tile (s.phys t)).seq < 8 then nextOf s t unitOy [op] else none

/-- The first fault that an Orangery descriptor raises at its start (R145, R166). -/
def oyFault (s : State) (p q : Nat) (d : Desc) : Option Nat :=
  let iv := (d.oySp, d.oySp + d.oyBytes - 1)
  if windowBytes s q < d.oyAddr + d.oyBytes then some faultDescRange
  else if d.opcode = opOyRead then spFault (s.tile p) s.frame d.frameCarried true [] [iv]
  else if d.opcode = opOyWrite then spFault (s.tile p) s.frame d.frameCarried true [iv] []
  else none

/-- The pavilion whose window a tile's descriptors reach (R149); a tile of no pavilion has no window. -/
def oyPv (s : State) (p : Nat) : Nat := (s.pvOfTile p).getD 4

/-- OY_READ and OY_TERRACE start (R167); what the stacks find in the units that they read is noted now (log entry 18). -/
def oyReadStep (s : State) (t op : Nat) (chk : Check) : State :=
  let p := s.phys t
  match nextOy s t op with
  | none => s
  | some (i, e) =>
    let d := e.desc
    let q := oyPv s p
    match oyFault s p q d with
    | some k => failStart s p i e k
    | none =>
      let lo := d.oyAddr / 2048
      let hi := (d.oyAddr + d.oyBytes - 1) / 2048 + 1
      let c := chkIn chk lo hi
      beginEntry (noteOy s p q lo hi (if op = opOyRead then 0 else 1) c) p i .running c Stage.reset 0

/-- A flit of an OY_READ lands in the scratchpad, a beat of an OY_TERRACE in the Terrace (R167). -/
def oyLand (s : State) (p : Nat) (e : WinEntry) : State :=
  let d := e.desc
  let q := oyPv s p
  if d.opcode = opOyRead then
    spWrite s p byOrangery (d.oySp + 256 * e.pos) (oyRead s q (d.oyAddr + 256 * e.pos) (min 256 (d.oyBytes - 256 * e.pos)) e.chk)
  else trWrite s p (512 * (d.oyBeat + e.pos / 2)) (oyRead s q (d.oyAddr + 512 * (e.pos / 2)) 512 e.chk)

/-- Meaning of OY_READ. -/
def execOyRead (t : Nat) (chk : Check) (s : State) : Host.Outcome State Fault Refusal :=
  if t < 256 then .next (oyReadStep s t opOyRead chk) else .fault (.noSuch "tile")

/-- Meaning of OY_TERRACE. -/
def execOyTerrace (t : Nat) (chk : Check) (s : State) : Host.Outcome State Fault Refusal :=
  if t < 256 then .next (oyReadStep s t opOyTerrace chk) else .fault (.noSuch "tile")

/-- Bytes that a pavilion holds in the commit buffer (R266). -/
def commitUsed (s : State) (q : Nat) : Nat :=
  (s.die.commit.filter (fun c => c.pv == q)).foldl (fun n c => n + c.data.length) 0

/-- The bytes find room in the pavilion's quota (R266). -/
def commitRoom (s : State) (q n : Nat) : Bool := commitUsed s q + n ≤ s.rd (OY_PV_CFG_QUOTA q) * 0x80000

/-- Bytes are accepted into the commit buffer (R167), and PEAK follows (R282). -/
def commitAccept (s : State) (q a : Nat) (data : List Byte) : State :=
  let entry : Commit := { pv := q, addr := a, data := data, committed := false }
  let s1 : State := { s with die := { s.die with commit := s.die.commit ++ [entry] } }
  s1.wr (OY_PV_COMMIT_PEAK q) (max (s.rd (OY_PV_COMMIT_PEAK q)) (commitUsed s1 q / 64))

/-- An OY_WRITE whose bytes have left the scratchpad is accepted, and may retire from now on. -/
def oyAccept (s : State) (p i : Nat) (e : WinEntry) : State :=
  setEntry (commitAccept s (oyPv s p) e.desc.oyAddr e.rows.flatten) p i (fun e => { e with phase := .running, rows := [] })

/-- An OY_WRITE that finds no room waits, and is counted once (R168, R282). -/
def oyWait (s : State) (p q i : Nat) : State :=
  setEntry (s.incSat (OY_PV_COMMIT_ROOM_WAITS q) 1) p i (fun e => { e with phase := .waiting, roomWaited := true })

/-- An OY_WRITE reads 256 bytes of its source; after the last ones it is accepted, or waits for room (R167, R168). -/
def oyFetch (s : State) (p i : Nat) (e : WinEntry) : State :=
  let d := e.desc
  let r := readRow s p 1 e.chk (d.oySp + 256 * (e.pos - 1)) (min 256 (d.oyBytes - 256 * (e.pos - 1)))
  let s1 := pushRow r.1 p i r.2
  if e.pos < d.flits then s1
  else if commitRoom s (oyPv s p) d.oyBytes then oyAccept s1 p i { e with rows := e.rows ++ [r.2] }
  else oyWait s1 p (oyPv s p) i

/-- The oldest OY_WRITE of a tile that waits for room. -/
def oldestWaiting (q : Seq) : Option (Nat × WinEntry) :=
  match q.window.findIdx? (fun e => e.desc.opcode == opOyWrite && e.phase == .waiting) with
  | none => none
  | some i => (q.window[i]?).map (fun e => (i, e))

/-- The next OY_WRITE of a tile starts (R167). -/
def oyWriteStart (s : State) (t q : Nat) (chk : Check) : State :=
  let p := s.phys t
  match nextOy s t opOyWrite with
  | none => s
  | some (i, e) =>
    match oyFault s p q e.desc with
    | some k => failStart s p i e k
    | none => beginEntry s p i .running chk Stage.reset 0

/-- A write that waits for room is accepted once it fits (R168); otherwise the next one starts. -/
def oyWriteStep (s : State) (t : Nat) (chk : Check) : State :=
  let p := s.phys t
  match oldestWaiting (s.tile p).seq with
  | some (i, e) => if commitRoom s (oyPv s p) e.desc.oyBytes then oyAccept s p i e else oyWriteStart s t (oyPv s p) chk
  | none => oyWriteStart s t (oyPv s p) chk

/-- Meaning of OY_WRITE. -/
def execOyWrite (t : Nat) (chk : Check) (s : State) : Host.Outcome State Fault Refusal :=
  if t < 256 then .next (oyWriteStep s t chk) else .fault (.noSuch "tile")

/-- Every entry of the frame becomes committed at its tick (R267). -/
def commitFrame (s : State) : State :=
  { s with die := { s.die with commit := s.die.commit.map (fun c => { c with committed := true }) } }

/-- The oldest committed entry drains into HBM: entries drain in order of acceptance (R267), one of them in each tc (log entry 18). -/
def commitDrain (s : State) : State :=
  match s.die.commit with
  | c :: cs => if c.committed then windowWrite { s with die := { s.die with commit := cs } } c.pv c.addr c.data else s
  | [] => s

/-- The committed entries of a pavilion drain at once, before its groups go to another (R268, R428). -/
def commitFlush (s : State) (q : Nat) : State :=
  let s1 := (s.die.commit.filter (fun c => c.pv == q && c.committed)).foldl (fun s c => windowWrite s c.pv c.addr c.data) s
  { s1 with die := { s1.die with commit := s1.die.commit.filter (fun c => c.pv != q) } }

/-- The frame's uncommitted entries of some pavilions are discarded; committed entries go on draining (R268). -/
def commitDrop (s : State) (drop : Nat → Bool) : State :=
  { s with die := { s.die with commit := s.die.commit.filter (fun c => c.committed || !drop c.pv) } }

/-- The groups of some pavilion are cleared (R273, R428). -/
def clearGroups (s : State) (groups : Nat) : State :=
  { s with die := { s.die with hbm := s.die.hbm.filter (fun c => !groups.testBit (c.1 / groupBytes)) } }

-- refresh

/-- HOT of a stack (R282). -/
def hotField (stack : Nat) : Fld := if stack = 0 then OY_STATUS_HOT0 else OY_STATUS_HOT1

/-- 95 °C in sixteenths (R265, R447). -/
def hotLimit : Nat := 95 * 16

/-- A temperature is read (R447): 0 to 7 regions, 8 and 9 stacks, 10 the hottest power stage. -/
def State.setTemp (s : State) (n temp : Nat) : State := { s with mod := { s.mod with temps := SMap.put s.mod.temps n temp } }

/-- A stack exceeds 95 °C (R265, R448). -/
def stackHot (s : State) (stack temp : Nat) : State :=
  if hotLimit < temp then
    let s1 := s.setTemp (8 + stack) temp
    let s2 := if s1.rd (hotField stack) = 0 then s1.raise OY_STATUS_HOT_SEEN else s1
    setAlert (s2.wr (hotField stack) 1) alertThermWarn
  else s

/-- Meaning of STACK_HOT. -/
def execStackHot (stack temp : Nat) (s : State) : Host.Outcome State Fault Refusal :=
  if stack < 2 then .next (stackHot s stack temp) else .fault (.noSuch "stack")

/-- A stack falls back to 95 °C or below (R265). -/
def stackCooled (s : State) (stack temp : Nat) : State :=
  if temp ≤ hotLimit then (s.setTemp (8 + stack) temp).wr (hotField stack) 0 else s

/-- Meaning of STACK_COOLED. -/
def execStackCooled (stack temp : Nat) (s : State) : Host.Outcome State Fault Refusal :=
  if stack < 2 then .next (stackCooled s stack temp) else .fault (.noSuch "stack")

end Sys2Proof.Machine
end

