-- ==== Sys2Proof/Machine/Slices.lean ====
section
/-!
DEFINITION. Staged slices: where their bytes go (R368, R374), reloads of a Terrace (R271, R388), and the source of a scrub rewrite (R200).
-/

namespace Sys2Proof.Machine
open Sys2Proof

/-- Slice `n`, if it is held. -/
def State.slice? (s : State) (n : Nat) : Option Slice := SMap.look? s.die.slices n

/-- Slice `n` set. -/
def State.setSlice (s : State) (n : Nat) (x : Slice) : State := { s with die := { s.die with slices := SMap.put s.die.slices n x } }

/-- Slice `n` freed. -/
def State.dropSlice (s : State) (n : Nat) : State := { s with die := { s.die with slices := SMap.del s.die.slices n } }

/-- Bytes of a Terrace. -/
def terraceSize : Nat := 16777216

/-- The logical tiles of a pavilion in the order of R368: its clusters ascending, tiles numbered as in R245. -/
def State.sliceTiles (s : State) (q : Nat) : List Nat := (s.pvClusters q).flatMap tilesOf

-- staged stripes (R270)

/-- The group and the group-local address of slice byte `o` (R270). -/
def slicePlace (s : State) (x : Slice) (o : Nat) : Nat × Nat := place (s.groups x.pv) (fun n => x.stripes.getD n 0) o

/-- The tweak of a data unit (R270): its group and group-local address. Their places in the 16 bytes are a choice (log entry 48). -/
def unitTweak (g : Nat × Nat) : List Byte := leBytes 8 g.2 ++ leBytes 8 g.1

/-- Data unit `u` of a slice, 512 bytes, is encrypted and written into its stripe. -/
def stageUnit (s : State) (x : Slice) (u : Nat) (b : List Byte) : State :=
  let g := slicePlace s x (512 * u)
  { s with die := { s.die with hbm := Mem.wrN s.die.hbm (hbmKey g) (xtsUnit false s.die.oyKey (unitTweak g) b) } }

/-- `n` data units of plaintext staged from unit `u` on. -/
def stageUnits (x : Slice) : Nat → Nat → List Byte → State → State
  | 0, _, _, s => s
  | n + 1, u, b, s => stageUnits x n (u + 1) (b.drop 512) (stageUnit s x u (b.take 512))

/-- Data unit `u` of a slice as the controllers decrypt it. -/
def sliceUnit (s : State) (x : Slice) (u : Nat) : List Byte :=
  let g := slicePlace s x (512 * u)
  xtsUnit true s.die.oyKey (unitTweak g) (Mem.rdN s.die.hbm (hbmKey g) 512)

/-- `n` bytes of a slice from byte `o` on, a multiple of 512. -/
def sliceBytes (s : State) (x : Slice) (o n : Nat) : List Byte := ((List.range (ceilDiv n 512)).flatMap (fun k => sliceUnit s x (o / 512 + k))).take n

/-- The beats that a slice places in the tile at position `pos` of that order (R368). -/
def sliceTerrace (s : State) (x : Slice) (pos : Nat) : Mem :=
  Mem.wrN [] 0 (sliceBytes s x (terraceSize * pos) (min terraceSize (x.terraceBytes - terraceSize * pos)))

/-- The loaded slice of pavilion `q`. -/
def State.loadedSlice (s : State) (q : Nat) : Option Slice := (s.pv q).run.loaded.bind s.slice?

-- what the stacks find in a slice, and post-package repair (R274)

/-- The 2 KiB unit `u` of a staged slice, by group and group-local address. -/
def sliceUnitAt (s : State) (x : Slice) (u : Nat) : Nat × Nat := slicePlace s x (2048 * u)

/-- The units of a slice have read clean: their faults were transient (R378). -/
def sliceClean (s : State) (x : Slice) : State :=
  if s.replay.sites.isEmpty then s
  else { s with replay := { s.replay with sites := s.replay.sites.filter (fun y => s.replay.fresh.contains y ||
    !(y.kind == siteOrangery && (List.range (ceilDiv (x.terraceBytes + x.windowBytes) 2048)).any (fun u =>
      (sliceUnitAt s x u).1 == y.place && (sliceUnitAt s x u).2 / 2048 == y.addr))) } }

/-- A unit of a staged slice has read flagged: twice in succession, it is a lasting fault and its row waits for repair (R274). -/
def flagTwice (s : State) (y : Site) : State :=
  if attemptDue s.replay y then
    let s1 : State := { s with replay := { s.replay with sites := s.replay.sites.filter (· != y), ppr := s.replay.ppr ++ [(y.place, y.addr)] } }
    noteLasting ((s1.inc RG_REPLAY_LASTING 1).raise RG_STATUS_LASTING_SEEN) y
  else { s with replay := { s.replay with sites := s.replay.sites ++ [y] } }

/-- What the stacks found in a shift-in or a reload of a slice (R274): counted, logged, and a flagged unit remembered. -/
def noteSlice (s : State) (x : Slice) (chk : Check) : State :=
  match chk with
  | .clean => sliceClean s x
  | .corrected u n _ => sliceClean (s.incSat (OY_GROUP_ECC_CE_COUNT (sliceUnitAt s x u).1) n) x
  | .uncorrectable u _ =>
    flagTwice (flagUnit s 2 (sliceUnitAt s x u)) { kind := siteOrangery, place := (sliceUnitAt s x u).1, addr := (sliceUnitAt s x u).2 / 2048 }

/-- A check that found an uncorrectable unit. -/
def flagged : Check → Bool
  | .uncorrectable _ _ => true
  | _ => false

/-- What the stacks found in a reload from the loaded slice of a pavilion. -/
def noteReload (s : State) (q : Nat) (chk : Check) : State :=
  match s.loadedSlice q with
  | some x => noteSlice s x chk
  | none => s

/-- Post-package repair of the rows that wait in a pavilion's groups, at its reset or reload (R274); one row for each unit (DESIGN CHOICE, log
entry 12). -/
def repairUnits (s : State) (q : Nat) : State :=
  let mine := fun (x : Nat × Nat) => (s.groups q).contains x.1
  let s1 := (s.replay.ppr.filter mine).foldl (fun s x => s.incSat (OY_GROUP_ECC_PPR_ROWS x.1) 1) s
  { s1 with replay := { s1.replay with ppr := s1.replay.ppr.filter (fun x => !mine x) } }

/-- The Terrace of the physical tile that holds logical tile `t` reloaded from the loaded slice (R271, R388). -/
def reloadTile (s : State) (q t : Nat) : State :=
  match s.loadedSlice q, (s.sliceTiles q).findIdx? (· == t) with
  | some x, some pos => s.modTile (s.phys t) (fun y => { y with tr := sliceTerrace s x pos })
  | _, _ => s

/-- The latest valid log entry of a tile that covers a beat (R200): the entry's beat and its window address. -/
def lastMove (t : Tile) (beat : Nat) : Option (Nat × Nat) :=
  let next := t.rd TL_RP_CTRL_LOG_NEXT
  let order := (List.range 64).map (fun k => (next + 63 - k) % 64)
  (order.find? (fun n => t.rd (TL_TR_LOG_A_VALID n) == 1 && t.rd (TL_TR_LOG_A_BEAT n) ≤ beat
    && beat ≤ t.rd (TL_TR_LOG_A_BEAT n) + t.rd (TL_TR_LOG_B_LEN_M1 n))).map
    (fun n => (t.rd (TL_TR_LOG_A_BEAT n), t.rd (TL_TR_LOG_A_OY_ADDR n)))

/-- The contents that the Warden takes for an uncorrectable beat (R200): its latest logged move, or the slice's copy; zeros beyond the slice and
on a tile without a loaded slice. -/
def beatSource (s : State) (p beat : Nat) : List Byte :=
  match s.logical p with
  | none => List.replicate 512 0
  | some t =>
    match s.pvOfCluster (clusterOf t) with
    | none => List.replicate 512 0
    | some q =>
      match lastMove (s.tile p) beat with
      | some (b, a) => oyRead s q (a + 512 * (beat - b)) 512 .clean
      | none =>
        match s.loadedSlice q, (s.sliceTiles q).findIdx? (· == t) with
        | some x, some pos => Mem.rdN (sliceTerrace s x pos) (512 * beat) 512
        | _, _ => List.replicate 512 0

/-- The group and the group-local address of that source in HBM, where it lies there. -/
def beatPlace (s : State) (p beat : Nat) : Option (Nat × Nat) :=
  match (s.logical p).bind (fun t => (s.pvOfCluster (clusterOf t)).map (fun q => (t, q))) with
  | none => none
  | some (t, q) =>
    match lastMove (s.tile p) beat with
    | some (b, a) => some (windowPlace s q (a + 512 * (beat - b)))
    | none =>
      match s.loadedSlice q, (s.sliceTiles q).findIdx? (· == t) with
      | some x, some pos => if terraceSize * pos + 512 * beat < x.terraceBytes then some (slicePlace s x (terraceSize * pos + 512 * beat)) else none
      | _, _ => none

/-- The scrub rewrites that wait for a tick are made (R196, R200). -/
def rewriteBeats (t : Tile) : Tile :=
  { t with tr := t.trRewrite.foldl (fun m x => Mem.wrN m (512 * x.1) x.2) t.tr, trRewrite := [] }

/-- The window part of a slice copied into the pavilion's window (R374). -/
def copyWindow (s : State) (q : Nat) (x : Slice) : State :=
  windowWrite s q x.windowOffset (sliceBytes s x x.terraceBytes x.windowBytes)

end Sys2Proof.Machine
end

