-- ==== Sys2Proof/Machine/Landings.lean ====
section
/-!
DEFINITION. Landings and arrivals (R159 to R165, R171, R172, R212 to R220): transfers, messages, GET windows, control words of channel 2; clears
and scrubbers of a tile (R188, R193, R200), the close of a channel and the add of a counter.
-/

namespace Sys2Proof.Machine
open Sys2Proof

-- transfers (R159, R162, R164, R172, R215 to R219)

/-- Transfer `id` leaves the list of transfers in flight. -/
def dropTransfer (s : State) (id : Nat) : State := { s with die := { s.die with transfers := s.die.transfers.filter (fun x => x.id != id) } }

/-- The receive channel takes the transfer, as it stood at the end of the previous tc (R219): OPEN 1 and the same GEN (R218). -/
def recvOpen (t : Tile) (x : Transfer) : Bool :=
  t.chSeen (TW_RECV_STATE_OPEN x.rchan) == 1 && t.chSeen (TW_RECV_STATE_GEN x.rchan) == x.gen

/-- A transfer is dropped at the receiver: one drop, and the bytes that have not landed (R218). A pad record that was not written counts no bytes
(DESIGN CHOICE, log entry 27). -/
def dropLanding (s : State) (p : Nat) (x : Transfer) : State :=
  s.modTile p (fun t => (t.inc (TW_RECV_CNT0_DROPPED_MSGS x.rchan) 1).inc (TW_RECV_CNT2_DROPPED_BYTES x.rchan) (x.n - x.got))

/-- The GET that a reply answers: its entry by stream and address, or for another module's reply the oldest GET of the channel that waits (log entry
26). -/
def getEntry (s : State) (q : Seq) (x : Transfer) : Option Nat :=
  q.window.findIdx? (fun e => e.desc.opcode == opNetGet && e.phase == .waiting &&
    (if x.srcMod = s.index then e.handler == x.getHandler && e.addr == x.getAddr else e.desc.chan == x.rchan))

/-- Where the reply of another module lands that arrives for channel `chan` of logical tile `t` now: at the destination of the oldest waiting GET of
the channel that no reply in flight answers (log entry 26). -/
def replyPlace (s : State) (t chan : Nat) : Option Nat :=
  let n := (s.die.transfers.filter (fun x => x.op == 3 && x.leg == 0 && x.inPort < 16 && x.dstTile == t && x.rchan == chan)).length
  let gets := (s.tile (s.phys t)).seq.window.filter (fun e => e.desc.opcode == opNetGet && e.phase == .waiting && e.desc.chan == chan)
  (gets[n]?).map (fun e => e.desc.getDst)

/-- A pad record (R215), from the message's header words H1 and H2. -/
def padRecord (x : Transfer) (slots : Nat) : List Byte :=
  let h := wordsOf 3 x.head
  bytesOf [setBits (setBits 0 47 32 x.pad) 7 0 0x50, setBits (h.getD 1 0) 14 0 (slots - x.pad), h.getD 2 0, 0, 0, 0, 0, 0]

/-- The bytes of a landing are written, counted and compared with FRAME_CARRIED (R159, R222, R318). -/
def landBytes (s : State) (p : Nat) (x : Transfer) (a : Nat) (b : List Byte) : State :=
  (noteLanding (spWrite s p byLanding a b) p x.fc (a, a + b.length - 1)).modTile p (fun t => t.inc (TW_RECV_CNT1_BYTES x.rchan) b.length)

/-- What one flit of a transfer writes as it lands (R159, R162, R164, R218): nothing at a channel that does not take it, or without a waiting GET. -/
def landFlit (s : State) (p : Nat) (x : Transfer) (f : MeshFlit) : State :=
  let a := landAt (s.tile p) x f
  if x.stale then s
  else if x.op = 3 then
    (match getEntry s (s.tile p).seq x with
     | none => s
     | some _ => spWrite s p byReply a f.data)
  else if 2 ≤ x.op ∨ !recvOpen (s.tile p) x then s
  else if f.pad then
    (landBytes s p x a (padRecord x ((s.tile p).rd (TW_RECV_CFG_SLOTS x.rchan)))).modTile p (fun t => t.inc (TW_RECV_CNT1_PADS x.rchan) 1)
  else (landBytes s p x a f.data).modXfer x.id (fun x => { x with got := x.got + f.data.length })

/-- A flit lands and leaves the mesh. -/
def takeFlit (s : State) (p : Nat) (x : Transfer) (f : MeshFlit) : State :=
  (landFlit s p x f).modXfer x.id (fun x => { x with air := x.air.filter (fun g => !(g.off == f.off && g.pad == f.pad)) })

/-- An entry enters the handler queue (R216): those of one tc stand in order of increasing receive channel. Where a reset has taken effect in this tc the
queue has been emptied (R219). -/
def queueHandler (t : Tile) (x : Transfer) : Tile :=
  let e : HqEntry := { rchan := x.rchan, pos := x.off, n := x.n / 64, pad := x.pad, handler := x.handler }
  let t1 := t.inc TW_HQ_QUEUED 1
  if SMap.look t.chPrev resetMark 0 = 1 then t1
  else
    let old := t1.seq.hq.take (t1.seq.hq.length - t1.hqNew)
    let new := t1.seq.hq.drop (t1.seq.hq.length - t1.hqNew)
    { t1 with hqNew := t1.hqNew + 1,
              seq := { t1.seq with hq := old ++ new.filter (fun y => y.rchan ≤ e.rchan) ++ [e] ++ new.filter (fun y => e.rchan < y.rchan) } }

/-- A PUT, a message or a REMOTE_ADD has landed completely (R159, R162, R172, R216, R222), or has met a channel that does not take it (R218).
A counter-limit fault that its signal raises is recorded with STREAM 0 and ADDRESS 0 (DESIGN CHOICE, log entry 46). -/
def landDone (s : State) (p : Nat) (x : Transfer) : State :=
  if !recvOpen (s.tile p) x then dropLanding s p x
  else
    let s1 := s.modTile p (fun t =>
      let t1 := t.inc (TW_RECV_CNT0_MSGS x.rchan) 1
      if x.op = 1 then queueHandler t1 x else t1)
    tcAddField s1 p x.rctr x.rinc 2 0

/-- A GET reply has landed, and the GET retires (R164). Without a waiting GET it has no reader, and is dropped. -/
def replyDone (s : State) (p : Nat) (x : Transfer) : State :=
  match getEntry s (s.tile p).seq x with
  | none => s
  | some i => retireEntry s p i

/-- A request joins an open window of its key, or opens one (R164): a window of age 16 or more takes no more. -/
def openWindow (s : State) (owner line : Nat) (x : Transfer) : State :=
  let same := fun (w : GetWindow) => w.owner == owner && w.vc == x.vc && w.line == line && w.lines == x.lines && w.age < 16
  let w : GetWindow := { owner := owner, vc := x.vc, line := line, lines := x.lines, age := 0, reqs := [x], started := false, pos := 0, car := x.vc,
                         chk := .clean, rows := [], replies := [] }
  let ws :=
    match s.die.windows.findIdx? same with
    | some k => modAt (fun (w : GetWindow) => { w with reqs := w.reqs ++ [x] }) s.die.windows k
    | none => s.die.windows ++ [w]
  { s with die := { s.die with windows := ws } }

/-- A GET request arrives at its owner (R164, R218). -/
def requestDone (s : State) (p : Nat) (x : Transfer) : State :=
  if !recvOpen (s.tile p) x then dropLanding s p x
  else openWindow (s.modTile p (fun t => t.inc (TW_RECV_CNT0_MSGS x.rchan) 1)) x.dstTile ((s.tile p).rd (TW_RECV_CFG_BASE x.rchan) / 8 + x.line) x

/-- A transfer whose flits have all landed leaves the list and has its effect. Work of an abandoned frame is dropped without trace (R380). -/
def finishTransfer (s : State) (p : Nat) (x : Transfer) : State :=
  let s1 := dropTransfer s x.id
  if x.stale then s1
  else if x.op = 2 then requestDone s1 p x
  else if x.op = 3 then replyDone s1 p x
  else landDone s1 p x

/-- The transfer finishes if nothing of it is still to be injected or in the mesh. -/
def finishIfDone (s : State) (p id : Nat) : State :=
  match s.xfer id with
  | none => s
  | some x => if x.left = 0 ∧ x.air.isEmpty then finishTransfer s p x else s

/-- Every flit that a transfer still has in the mesh may land in this tc: it is at its tile, its tc has come, and port W is granted (R181). -/
def landsNow (s : State) (x : Transfer) : Bool :=
  let p := s.phys x.dstTile
  x.leg == 0 && x.left == 0 && !x.air.isEmpty
    && x.air.all (fun f => flitLands s x f && (landCount f == 0 || x.stale || f.car == 1 || claimOk s p (landClaim (s.tile p) x f)))

/-- A flit lands by a command, which takes the port. -/
def landByCommand (p : Nat) (x : Transfer) (s : State) (f : MeshFlit) : State :=
  let s1 := if landCount f = 0 ∨ x.stale then s else takeClaim s p (landClaim (s.tile p) x f)
  takeFlit s1 p x f

/-- Transfer `i` lands, if it is one of the given kinds and its time has come. -/
def landing (s : State) (i : Nat) (ops : List Nat) : State :=
  match s.die.transfers[i]? with
  | none => s
  | some x =>
    let p := s.phys x.dstTile
    if ops.contains x.op && landsNow s x then finishIfDone (x.air.foldl (landByCommand p x) s) p x.id else s

/-- Meaning of TRANSFER_LANDING: a PUT, a GET reply or a REMOTE_ADD. -/
def execTransferLanding (i : Nat) (_wait : Unit) (s : State) : Host.Outcome State Fault Refusal := .next (landing s i [0, 3, 4])

/-- Meaning of MESSAGE_LANDING. -/
def execMessageLanding (i : Nat) (_wait : Unit) (s : State) : Host.Outcome State Fault Refusal := .next (landing s i [1])

/-- Meaning of GET_REQUEST_ARRIVAL. -/
def execGetRequestArrival (i : Nat) (s : State) : Host.Outcome State Fault Refusal := .next (landing s i [2])

-- GET windows (R164, R165)

/-- The reply that one requester of a window receives (R164), multicast with those of reply group `group`. For another module, RCHAN names the
requester's send channel, and GEN and SRC_SCHAN are zero (DESIGN CHOICE, log entry 26). -/
def replyTo (s : State) (w : GetWindow) (group : Nat) (x : Transfer) : Option Transfer :=
  let r : Transfer := { Transfer.blank with
    op := 3, vc := w.vc, srcMod := s.index, srcTile := w.owner, dstMod := x.srcMod, dstTile := x.srcTile, rchan := x.srcChan, line := group,
    n := 512 * w.lines, left := 2 * w.lines, off := if x.srcMod = s.index then x.off else 0, getAddr := x.getAddr, getHandler := x.getHandler }
  if x.srcMod = s.index then some r else (portToward s x.srcMod).map (fun port => { r with leg := 1, port := port })

/-- The owner begins to read for a window (R164): its replies enter the list of transfers. -/
def windowStart (s : State) (i : Nat) (w : GetWindow) (chk : Check) : State :=
  let rs := w.reqs.filterMap (replyTo s w s.die.nextXfer)
  let s1 := rs.foldl newTransfer s
  let ids := (List.range rs.length).map (s.die.nextXfer + ·)
  { s1 with die := { s1.die with windows := modAt (fun (w : GetWindow) => { w with started := true, chk := chk, replies := ids }) s1.die.windows i } }

/-- GET_WINDOW_REPLY: in the tc of age 16 the owner begins to read the lines, once for every requester (R164). -/
def windowReply (s : State) (i : Nat) (chk : Check) : State :=
  match s.die.windows[i]? with
  | none => s
  | some w => if w.age < 16 ∨ w.started ∨ (w.vc = 1 ∧ s.tileStands (s.phys w.owner)) then s else windowStart s i w chk

/-- Meaning of GET_WINDOW_REPLY. -/
def execGetWindowReply (i : Nat) (chk : Check) (s : State) : Host.Outcome State Fault Refusal := .next (windowReply s i chk)

/-- The owner reads a line for a window: two flits of the reply (R164, R165). -/
def windowRead (s : State) (i : Nat) (w : GetWindow) : State :=
  let r := readRow s (s.phys w.owner) (if w.vc = 1 then 0 else 1) w.chk (512 * (w.line + w.pos)) 512
  let next := fun (w : GetWindow) => { w with pos := w.pos + 1, rows := w.rows ++ [r.2.take 256, r.2.drop 256] }
  { r.1 with die := { r.1.die with windows := modAt next r.1.die.windows i } }

/-- A flit of a window's reply is injected, for every requester in the same tc (R164). -/
def windowInject (s : State) (i : Nat) : State :=
  match s.die.windows[i]? with
  | none => s
  | some w =>
    let off := 512 * w.pos - 256 * w.rows.length
    let s1 : State := { s with die := { s.die with windows := modAt (fun (w : GetWindow) => { w with rows := w.rows.drop 1 }) s.die.windows i } }
    w.replies.foldl (fun s id => enterFlit s id w.car (s.now (s.phys w.owner)) off (w.rows.headD [])) s1

/-- A channel-1 reply whose first flit finds its injection port held goes on over channel 0 from the next tc (R165, R209). -/
def windowCollide (s : State) (i : Nat) (w : GetWindow) : State :=
  raiseCollision { s with die := { s.die with windows := modAt (fun (w : GetWindow) => { w with car := 0 }) s.die.windows i } } (s.phys w.owner) 0

-- control words of channel 2

/-- Control word `i`, if its arrival tc has come (R207). -/
def ctlDue (s : State) (i : Nat) : Option Ctl := (s.die.ctls[i]?).bind (fun c => if c.due ≤ s.sun.tick then some c else none)

/-- Control word `i` leaves the list of those in flight. -/
def dropCtl (s : State) (i : Nat) : State := { s with die := { s.die with ctls := s.die.ctls.eraseIdx i } }

/-- CREDIT_ARRIVAL (R172, R212): dropped where its frame was abandoned (R380). -/
def creditArrival (s : State) (i : Nat) : State :=
  match ctlDue s i with
  | some ⟨.credit tile chan count, _, stale⟩ =>
    if stale then dropCtl s i else addCredits (dropCtl s i) (s.phys tile) chan count
  | _ => s

/-- Meaning of CREDIT_ARRIVAL. -/
def execCreditArrival (i : Nat) (s : State) : Host.Outcome State Fault Refusal := .next (creditArrival s i)

/-- REVOCATION_ARRIVAL (R217); revocations are never dropped (R380). -/
def revocationArrival (s : State) (i : Nat) : State :=
  match ctlDue s i with
  | some ⟨.revoke tile chan, _, _⟩ => revoke (dropCtl s i) (s.phys tile) chan
  | _ => s

/-- Meaning of REVOCATION_ARRIVAL. -/
def execRevocationArrival (i : Nat) (s : State) : Host.Outcome State Fault Refusal := .next (revocationArrival s i)

-- barriers (R171, R238)

/-- The low bits of a barrier's control word: entry in [41:36], scope in [42], ADD in [58:43] (DESIGN CHOICE, log entry 22). -/
def barrierLow (entry : Nat) (machine : Bool) (add : Nat) : Nat := entry + 64 * ofBool machine + 128 * add

/-- A release of total `total` leaves the root: down the die's tree, and for machine scope on every port of DOWN_MASK (R171, R238). -/
def sendRelease (s : State) (entry : Nat) (machine : Bool) (total due : Nat) : State :=
  let c : Ctl := { body := .release entry total, due := due, stale := false }
  let s1 : State := { s with die := { s.die with ctls := s.die.ctls ++ [c] } }
  if machine then sendWord s1 ((List.range 16).filter (fun p => (s.rd FB_TREE_DOWN_MASK).testBit p)) 0x04 (barrierLow entry true 0) (w64 total)
  else s1

/-- The arrival carries the total past the counter limit: a fault at its tile (R171). -/
def barrierLimit (s : State) (entry total : Nat) (a : Arrival) : State :=
  if 0xFFFFFF00 < total ∧ a.module = s.index then
    raiseFault s (s.phys a.tile) faultTcLimit (0x80 + entry) (ofBool a.handler) a.addr
  else s

/-- An arrival at the root of its scope (R171): ADD is added, and a total that meets a pending TARGET releases. -/
def rootAdd (s : State) (entry : Nat) (machine : Bool) (due : Nat) (a : Arrival) : State :=
  let b := s.barrier entry
  let total := tcSum b.total.toNat a.add
  let s1 := barrierLimit (s.setBarrier entry { b with total := w32 total, pend := b.pend ++ [a] }) entry total a
  if (b.pend ++ [a]).any (fun x => x.target ≤ total) then sendRelease s1 entry machine total (due + 20) else s1

/-- An arrival of a machine-scope barrier goes on toward the machine root (R238): one of another module keeps its origin and number. -/
def forwardArrival (s : State) (entry seq : Nat) (a : Arrival) : State :=
  let b := s.barrier entry
  if a.module = s.index then
    sendWord (s.setBarrier entry { b with pend := b.pend ++ [a] }) [s.rd FB_TREE_UP_PORT] 0x03 (barrierLow entry true a.add) (w64 a.target)
  else queueCtl s (s.rd FB_TREE_UP_PORT) (ctlWord 0x03 a.module seq (barrierLow entry true a.add)) (w64 a.target)

/-- BARRIER_ROOT_ARRIVAL. -/
def barrierArrival (s : State) (i : Nat) : State :=
  match ctlDue s i with
  | some ⟨.arrive entry machine seq a, due, stale⟩ =>
    let s1 := dropCtl s i
    if stale then s1
    else if machine ∧ s.rd FB_TREE_ROOT = 0 then forwardArrival s1 entry seq a
    else rootAdd s1 entry machine due a
  | _ => s

/-- Meaning of BARRIER_ROOT_ARRIVAL. -/
def execBarrierRootArrival (i : Nat) (s : State) : Host.Outcome State Fault Refusal := .next (barrierArrival s i)

/-- A released arrival (R171): a MODE-0 descriptor retires, a MODE-1 arrival notifies. -/
def releaseOne (s : State) (a : Arrival) : State :=
  if a.module ≠ s.index then s
  else
    let p := s.phys a.tile
    if a.mode = 1 then tcAddField s p a.notify 1 (ofBool a.handler) a.addr
    else
      match (s.tile p).seq.window.findIdx? (fun e => e.desc.opcode == opCtBarrier && e.phase == .waiting && e.handler == a.handler && e.addr == a.addr) with
      | some i => retireEntry s p i
      | none => s

/-- Every pending arrival whose TARGET the released total meets is released. -/
def releaseAll (s : State) (entry total : Nat) : State :=
  let b := s.barrier entry
  let s1 := s.setBarrier entry { b with pend := b.pend.filter (fun a => total < a.target) }
  (b.pend.filter (fun a => a.target ≤ total)).foldl releaseOne s1

/-- BARRIER_RELEASE_ARRIVAL: a release reaches this die's participants. -/
def barrierRelease (s : State) (i : Nat) : State :=
  match ctlDue s i with
  | some ⟨.release entry total, _, stale⟩ => if stale then dropCtl s i else releaseAll (dropCtl s i) entry total
  | _ => s

/-- Meaning of BARRIER_RELEASE_ARRIVAL. -/
def execBarrierReleaseArrival (i : Nat) (s : State) : Host.Outcome State Fault Refusal := .next (barrierRelease s i)

-- clears, scrubbers, channels, counters

/-- TL_SP_CTRL.CLEAR (R193): only while the tile is idle. -/
def execScratchpadClear (p : Nat) (s : State) : Host.Outcome State Fault Refusal :=
  if p < 272 then .next (if (s.tile p).seq.run = .idle then clearSp s p else s) else .fault (.noSuch "physical tile")

/-- TL_TR_CTRL.CLEAR (R193): only while the tile is idle. -/
def execTerraceClear (p : Nat) (s : State) : Host.Outcome State Fault Refusal :=
  if p < 272 then .next (if (s.tile p).seq.run = .idle then clearTr s p else s) else .fault (.noSuch "physical tile")

/-- A physical tile that a repair has taken out of use: its scrubbers stop (R388). -/
def State.retired (s : State) (p : Nat) : Bool := SMap.look? s.rows (p / 17) == some (p % 17)

/-- The scratchpad scrubber reads its next line through port B, one line every 4,096 tc; a word that it corrects is written back through port W
(R180, R188). -/
def scrubSp (s : State) (p : Nat) (chk : Check) : State :=
  let line := (s.tile p).spScrub
  let read : Claim := .row 1 6 (512 * line) 512
  if s.retired p ∨ (s.tile p).spScrubGap ≠ 0 ∨ !claimOk s p read then s
  else
    let c := chkIn chk (64 * line) (64 * line + 64)
    let s1 := takeClaim (noteSp s p 3 (64 * line) (64 * line + 64) c true) p read
    let s2 := match c with
      | .corrected a _ _ => if claimOk s1 p (.row 2 10 (8 * a) 8) then takeClaim s1 p (.row 2 10 (8 * a) 8) else s1
      | _ => s1
    s2.modTile p (fun t => { t with spScrub := (line + 1) % 4096, spScrubGap := 4096 })

/-- Meaning of SCRATCHPAD_SCRUB. -/
def execScratchpadScrub (p : Nat) (chk : Check) (s : State) : Host.Outcome State Fault Refusal :=
  if p < 272 then .next (scrubSp s p chk) else .fault (.noSuch "physical tile")

/-- The Warden reads the source of an uncorrectable beat (R200): a flagged one is counted and logged, and the beat is left to a reload (R274). -/
def readSource (s : State) (p beat : Nat) (src : Check) : State :=
  match src, beatPlace s p beat with
  | .uncorrectable _ _, some w => flagUnit s 3 w
  | .corrected _ n _, some w => (s.incSat (OY_GROUP_ECC_CE_COUNT w.1) n).modTile p (fun t => { t with trRewrite := t.trRewrite ++ [(beat, beatSource s p beat)] })
  | _, _ => s.modTile p (fun t => { t with trRewrite := t.trRewrite ++ [(beat, beatSource s p beat)] })

/-- The Warden answers an uncorrectable beat that the scrubber reports (R200, R378, R379): the first time it rewrites the beat at the next
tick, and a beat that fails again stops the machine for a repair. -/
def answerBeat (s : State) (p beat : Nat) (src : Check) : State :=
  let x : Site := { kind := siteTerrace, place := p, addr := beat }
  if attemptDue s.replay x then startReplay (noteSite s x) (replayWord siteTerrace 1 (p / 17) (p % 17) beat (s.now p))
  else readSource (noteSite s x) p beat src

/-- MX_LOAD uses the Terrace's read port in this tc (R200). -/
def loadReads (t : Tile) : Bool := t.seq.window.any (fun e => e.desc.opcode == opMxLoad && e.phase == .running && e.pos < e.held)

/-- The Terrace scrubber reads its next beat (R200): SCRUB_INTERVAL tc after the last one, in a tc in which MX_LOAD does not read; an interval of zero
stops it. `src` is what the stacks find in the source of a rewrite. -/
def scrubTr (s : State) (p : Nat) (chk src : Check) : State :=
  let t := s.tile p
  let gap := t.rd TL_TR_CTRL_SCRUB_INTERVAL
  if s.retired p ∨ gap = 0 ∨ t.trScrubGap ≠ 0 ∨ loadReads t then s
  else
    let beat := t.trScrub
    let c := chkIn chk (64 * beat) (64 * beat + 64)
    let s1 := (noteTr s p beat (beat + 1) c true).modTile p (fun t => { t with trScrub := (beat + 1) % 32768, trScrubGap := gap })
    match c with
    | .uncorrectable _ _ => answerBeat s1 p beat src
    | _ => s1

/-- Meaning of TERRACE_SCRUB. -/
def execTerraceScrub (p : Nat) (chk : Check × Check) (s : State) : Host.Outcome State Fault Refusal :=
  if p < 272 then .next (scrubTr s p chk.1 chk.2) else .fault (.noSuch "physical tile")

/-- Meaning of CHANNEL_CLOSE (R217). -/
def execChannelClose (p n : Nat) (s : State) : Host.Outcome State Fault Refusal :=
  if p < 272 then (if n < 32 then .next (closeRecv s p n) else .fault (.noSuch "channel")) else .fault (.noSuch "physical tile")

/-- A Lodge core's store enters its store buffer of 8 stores, from which one drains in each tc; a store that finds it full waits (R244, R248). -/
def pushStore (s : State) (k : Nat) (x : Store) : State :=
  if (s.lodge k).stores.length < 8 then s.setLodge k { s.lodge k with stores := (s.lodge k).stores ++ [x] } else s

/-- A write of TL_TC_ADD (R62, R68): by the Warden or the Lodge core of the tile's cluster; any other write is ignored (R420). A Lodge core's store goes
through its store buffer (R248, R380). A counter-limit fault is recorded with STREAM 0 and ADDRESS 0 (DESIGN CHOICE, log entry 46). -/
def writeTcAdd (s : State) (a : Agent) (p ctr inc : Nat) : State :=
  match a with
  | .host _ => s
  | .warden => tcAdd s p ctr inc 2 0
  | .lodge k =>
    match s.logical p with
    | some t => if (tilesOf k).contains t then pushStore s k (.add t ctr inc) else s
    | none => s

/-- Meaning of TC_ADD. -/
def execTcAdd (a : Agent) (p ctr inc : Nat) (s : State) : Host.Outcome State Fault Refusal :=
  if p < 272 then
    (if ctr < 64 ∧ inc < 65536 ∧ agentOk a then .next (writeTcAdd s a p ctr inc) else .fault (.noSuch "counter")) else .fault (.noSuch "physical tile")

end Sys2Proof.Machine
end

