-- ==== Sys2Proof/Machine/LinkCode.lean ====
section
/-!
DEFINITION. The bytes of a link block (R226, R227): tags, fields, CRC-32 and the 16 interleaved Reed-Solomon codes. The field GF(2⁸) by 0x11D, the
generator's roots α⁰ to α³, and the reflected CRC that starts from ones and ends complemented are PRESUMED (log entry 17).
-/

namespace Sys2Proof.Machine
open Sys2Proof

-- GF(2⁸)

/-- Twice a field element. -/
def gfTwice (a : Nat) : Nat := if 128 ≤ a then (2 * a) ^^^ 0x11D else 2 * a

/-- The product of two field elements, over the bits of the second. -/
def gfMulBits : Nat → Nat → Nat → Nat
  | 0, _, _ => 0
  | n + 1, a, b => (if b % 2 = 1 then a else 0) ^^^ gfMulBits n (gfTwice a) (b / 2)

def gfMul (a b : Nat) : Nat := if a = 0 ∨ b = 0 then 0 else gfMulBits 8 a b

/-- A power of a field element, and the inverse. -/
def gfPow (a : Nat) : Nat → Nat
  | 0 => 1
  | n + 1 => gfMul a (gfPow a n)

def gfInv (a : Nat) : Nat := gfPow a 254

-- one RS(136, 132) codeword, first byte first (R227)

/-- The coefficients of the generator below x⁴, the highest first: the product of (x − αʳ) for r from 0 to 3. -/
def rsTimes (g : List Nat) (root : Nat) : List Nat := List.zipWith (· ^^^ ·) (g ++ [0]) (0 :: g.map (gfMul root))
def rsGenerator : List Nat := (((List.range 4).map (gfPow 2)).foldl rsTimes [1]).drop 1

/-- One byte enters the remainder. -/
def rsShift (r : List Nat) (d : Nat) : List Nat :=
  let f := r.headD 0 ^^^ d
  List.zipWith (· ^^^ ·) (r.drop 1 ++ [0]) (rsGenerator.map (gfMul f))

/-- The 4 parity bytes of 132 data bytes. -/
def rsParity (data : List Nat) : List Nat := data.foldl rsShift [0, 0, 0, 0]

/-- A syndrome of a codeword. -/
def rsSyndrome (code : List Nat) (r : Nat) : Nat := code.foldl (fun acc c => gfMul acc (gfPow 2 r) ^^^ c) 0

/-- A byte of a codeword changed, places counted from the last. -/
def rsFix (code : List Nat) (place e : Nat) : List Nat := modAt (fun c => c ^^^ e) code (135 - place)

/-- The places whose locator satisfies x² + σ₁ x + σ₂ = 0. -/
def rsRoots (s1 s2 : Nat) : List Nat :=
  (List.range 136).filter (fun p => gfMul (gfPow 2 p) (gfPow 2 p) ^^^ gfMul s1 (gfPow 2 p) ^^^ s2 == 0)

/-- A codeword with up to 2 byte errors corrected, and their number; none where it does not decode. -/
def rsDecode (code : List Nat) : Option (List Nat × Nat) :=
  let y := (List.range 4).map (rsSyndrome code)
  let s0 := y.getD 0 0
  let s1 := y.getD 1 0
  let s2 := y.getD 2 0
  let s3 := y.getD 3 0
  let det := gfMul s0 s2 ^^^ gfMul s1 s1
  if y.all (· == 0) then some (code, 0)
  else if det = 0 then
    let x := gfMul s1 (gfInv s0)
    match (List.range 136).find? (fun p => gfPow 2 p == x) with
    | some p => if s0 ≠ 0 ∧ gfMul s1 x = s2 ∧ gfMul s2 x = s3 then some (rsFix code p s0, 1) else none
    | none => none
  else
    match rsRoots (gfMul (gfMul s0 s3 ^^^ gfMul s1 s2) (gfInv det)) (gfMul (gfMul s1 s3 ^^^ gfMul s2 s2) (gfInv det)) with
    | [p, q] =>
      let e := gfMul (s1 ^^^ gfMul s0 (gfPow 2 p)) (gfInv (gfPow 2 p ^^^ gfPow 2 q))
      if e = 0 ∨ e = s0 then none else some (rsFix (rsFix code p (s0 ^^^ e)) q e, 2)
    | _ => none

-- CRC-32

/-- Bits shifted out of a CRC. -/
def crcShift : Nat → Nat → Nat
  | 0, c => c
  | n + 1, c => crcShift n (if c % 2 = 1 then (c / 2) ^^^ 0xEDB88320 else c / 2)

/-- `f c`, written so that `c` is evaluated before `f` is. -/
def strictly (c : Nat) (f : Nat → Nat) : Nat := if c = 0 then f 0 else f c

/-- Bytes enter a CRC. -/
def crcBytes : List Byte → Nat → Nat
  | [], c => c
  | b :: bs, c => strictly (crcShift 8 (c ^^^ b.toNat)) (crcBytes bs)

/-- CRC-32 of bytes: 0xEDB88320 is 0x04C11DB7 with its bits reversed. -/
def crc32 (bs : List Byte) : Nat := crcBytes bs 0xFFFFFFFF ^^^ 0xFFFFFFFF

-- the block (R226)

/-- A flit's tag; an empty position has virtual channel 3. -/
def tagOf : Option Flit → Nat
  | none => 3
  | some f => f.vc + 4 * ofBool f.first + 8 * ofBool f.last + 16 * f.cls

/-- Bytes 0 to 2,107. -/
def blockHead (b : Block) : List Byte :=
  let fs := (List.range 32).map (fun p => (b.flits[p]?).join)
  fs.flatMap (fun f => match f with | some f => bytesOf ((f.body ++ List.replicate 8 0).take 8) | none => List.replicate 64 0)
    ++ leBytes 48 ((List.range 32).foldl (fun n p => n + tagOf (fs[p]?).join * 2 ^ (12 * p)) 0)
    ++ leBytes 4 b.seq.toNat ++ leBytes 2 (b.ack % 32768 + 32768 * ofBool b.nak) ++ leBytes 2 (b.credits % 4096 + 4096 * b.creditCls) ++ leBytes 4 0

/-- Rows of 16 bytes, byte `j` of which belongs to codeword `j`. -/
def rowsOf16 : Nat → List Byte → List (List Byte)
  | 0, _ => []
  | n + 1, bs => bs.take 16 :: rowsOf16 n (bs.drop 16)

/-- The data bytes of codeword `j` of a block's bytes 0 to 2,111, and its parity bytes. -/
def codeData (bs : List Byte) (j : Nat) : List Nat := (rowsOf16 132 bs).map (fun r => (r.getD j 0).toNat)
def codeParity (bs : List Byte) (j : Nat) : List Nat :=
  let parity := bs.drop 2112
  (List.range 4).map (fun i => (parity.getD (4 * j + i) 0).toNat)

/-- The 2,176 bytes of a block as it leaves the port. -/
def encodeBlock (b : Block) : List Byte :=
  let head := blockHead b
  let body := head ++ leBytes 4 (crc32 head)
  body ++ (List.range 16).flatMap (fun j => (rsParity (codeData body j)).map (BitVec.ofNat 8))

/-- The fields of bytes 0 to 2,107. -/
def parseBlock (bs : List Byte) : Block :=
  let tags := leNat ((bs.drop 2048).take 48)
  let word := fun (a n : Nat) => leNat ((bs.drop a).take n)
  { flits := (List.range 32).map (fun p =>
      let tag := tags / 2 ^ (12 * p) % 4096
      if tag % 4 = 3 then none
      else some { vc := tag % 4, first := tag.testBit 2, last := tag.testBit 3, cls := tag / 16 % 2, body := wordsOf 8 ((bs.drop (64 * p)).take 64) }),
    seq := w32 (word 2096 4), ack := word 2100 2 % 32768, nak := (word 2100 2).testBit 15, credits := word 2102 2 % 4096, creditCls := word 2102 2 / 4096 % 2 }

/-- The data bytes of 16 corrected codewords in their places. -/
def uninterleave : Nat → List (List Nat) → List Byte
  | 0, _ => []
  | n + 1, codes => codes.map (fun c => BitVec.ofNat 8 (c.headD 0)) ++ uninterleave n (codes.map (·.drop 1))

/-- What a receiver makes of the bytes of a block (R227): the block and the bytes that the FEC corrected, or nothing where a codeword does not decode
or the CRC fails. -/
def decodeBlock (raw : List Byte) : Option (Block × Nat) :=
  let codes := (List.range 16).map (fun j => rsDecode (codeData raw j ++ codeParity raw j))
  if codes.all (·.isSome) then
    let bs := uninterleave 132 (codes.map (fun c => match c with | some c => c.1 | none => []))
    if leNat ((bs.drop 2108).take 4) = crc32 (bs.take 2108) then
      some (parseBlock bs, (codes.map (fun c => match c with | some c => c.2 | none => 0)).foldl (· + ·) 0)
    else none
  else none

end Sys2Proof.Machine
end

