-- ==== Sys2Proof/Machine/Footbridge.lean ====
section
/-!
DEFINITION. The Footbridge (chapter 10): route flits, the egress of transfers, link blocks with retry and credits, scheduled slots and presentation,
bulk routing, training and loss of signal. What a port does by itself in a tc that no command has done, `Machine/Tilework.lean` does.
-/

namespace Sys2Proof.Machine
open Sys2Proof

/-- A port changed. -/
def State.modPort (s : State) (p : Nat) (f : Port → Port) : State := s.setPort p (f (s.port p))

-- route flits (R228)

/-- OFFSET of a route flit: a GET request packs SRC_LINE in [11:0] and L in [16:12] (DESIGN CHOICE, log entry 22). -/
def routeOffset (x : Transfer) : Nat := if x.op = 2 then x.line + 4096 * x.lines else if x.op = 0 ∨ x.op = 1 then x.off else 0

/-- The route flit of a transfer. -/
def routeFlit (x : Transfer) : List W64 :=
  let q0 := setBits (setBits (setBits (setBits (setBits (setBits (setBits (setBits (setBits (setBits 0 63 52 x.dstMod) 51 48 (x.dstTile / 16)) 47 44
    (x.dstTile % 16)) 43 39 x.rchan) 38 31 x.gen) 30 28 x.op) 27 27 x.vc) 26 26 (ofBool x.fc)) 25 10 (linkData x)) 9 0 x.fbSlot
  let q1 := setBits (setBits (setBits (setBits (setBits (setBits 0 63 48 x.rinc) 47 40 x.rctr) 39 28 x.srcMod) 27 24 (x.srcTile / 16)) 23 20
    (x.srcTile % 16)) 19 15 x.srcChan
  [q0, q1, setBits 0 20 0 (routeOffset x), setBits 0 15 0 (if x.op = 1 then x.pad else 0), 0, 0, 0, 0]

/-- The transfer that a route flit announces, arriving on port `p`; and its data flits. -/
def parseRoute (p cls : Nat) (w : List W64) : Transfer × Nat :=
  let q0 := w.getD 0 0
  let q1 := w.getD 1 0
  let o := bits (w.getD 2 0) 20 0
  let flits := bits q0 25 10
  ({ Transfer.blank with
     op := bits q0 30 28, vc := bits q0 27 27, srcMod := bits q1 39 28, srcTile := 16 * bits q1 27 24 + bits q1 23 20,
     srcChan := bits q1 19 15, dstMod := bits q0 63 52, dstTile := 16 * bits q0 51 48 + bits q0 47 44, rchan := bits q0 43 39,
     gen := bits q0 38 31, fc := bit q0 26, rctr := bits q1 47 40, rinc := bits q1 63 48, off := o, pad := bits (w.getD 3 0) 15 0,
     n := if flits = 0 then 64 else 64 * flits, line := o % 4096, lines := o / 4096, inPort := p, fbSlot := bits q0 9 0, cls := cls },
   flits)

/-- Footbridge flit `f` of a transfer at its egress port: the route flit, or 64 bytes of mesh flit (f − 1) / 4. -/
def flitBody (e : Egress) (cls f : Nat) : List W64 :=
  if f = 0 then routeFlit { e.tr with cls := cls } else wordsOf 8 (((SMap.look e.have_ ((f - 1) / 4) []).drop (64 * ((f - 1) % 4))).take 64)

/-- The port holds flit `f` of the transfer. -/
def Egress.holds (e : Egress) (f : Nat) : Bool := f == 0 || (SMap.look? e.have_ ((f - 1) / 4)).isSome

-- the egress of a transfer (R229, R232, R233)

/-- T_k of slot `k` of a port. -/
def slotCycle (s : State) (p k : Nat) : Nat := k * s.rd (FB_SLOTS_SLOT_LEN p)

/-- Slots that a transfer of `flits` flits takes (R232). -/
def slotCount (s : State) (p flits : Nat) : Nat := max 1 (ceilDiv flits (s.rd (FB_SLOTS_CAPACITY p)))

/-- The slots of a scheduled transfer. -/
def slotsOf (s : State) (p : Nat) (x : Transfer) : List Nat := (List.range (slotCount s p (linkData x + 1))).map (fun k => x.fbSlot + k)

/-- The first flit leaves the Trellis at the port in a tc from T_k − 256 to T_k − 1, and no slot is claimed (R233). -/
def slotOk (s : State) (p a : Nat) (x : Transfer) : Bool :=
  let t := slotCycle s p x.fbSlot
  let ks := slotsOf s p x
  t ≤ a + 256 && a + 1 ≤ t && x.fbSlot + ks.length ≤ 1024 && !ks.any (fun k => (s.port p).claims.contains k)

/-- A flit is at the egress port of its transfer: on channel 1 in the tc in which it crosses the attach link (R204), on channel 0 from it on. -/
def atPort (s : State) (x : Transfer) (f : MeshFlit) : Bool :=
  x.leg == 1 && (if f.car = 1 then f.due ≤ s.sun.ctr && !s.standing else x.path.length ≤ f.hop && f.due ≤ s.sun.tick)

/-- What a port keeps of a transfer. -/
def egressOf (s : State) (x : Transfer) : Egress :=
  { tr := x, flits := linkData x + 1, slots := if x.vc = 1 then (slotsOf s x.port x).length else 0, started := false, sent := 0, have_ := [] }

/-- The port discards the whole transfer, and tells the sending tile (R233). -/
def refuseSlot (s : State) (x : Transfer) : State :=
  let c : Ctl := { body := .refused x.srcTile, due := s.sun.tick + 3 + portHops x.srcTile x.port, stale := false }
  let s1 := (s.raise (FB_EVENT_SLOT_REFUSED x.port)).modXfer x.id (fun x => { x with stale := true })
  { s1 with die := { s1.die with ctls := s1.die.ctls ++ [c] } }

/-- The first flit of a transfer reaches its egress port: a transfer of channel 0 queues there, a scheduled one claims its slots or is discarded
(R233). -/
def admitTransfer (s : State) (x : Transfer) : State :=
  if x.vc = 0 then s.modPort x.port (fun q => { q with bulk := q.bulk ++ [egressOf s x] })
  else if slotOk s x.port s.sun.ctr x then
    s.modPort x.port (fun q => { q with claims := q.claims ++ slotsOf s x.port x, egress := q.egress ++ [egressOf s x] })
  else refuseSlot s x

/-- The port has taken the transfer in, or discards it. -/
def knownAtPort (s : State) (x : Transfer) : Bool :=
  x.stale || (s.port x.port).egress.any (fun e => e.tr.id == x.id) || (s.port x.port).bulk.any (fun e => e.tr.id == x.id)

/-- A mesh flit joins its transfer among those of a port. -/
def joinFlit (id : Nat) (f : MeshFlit) (l : List Egress) : List Egress :=
  l.map (fun e => if e.tr.id = id then { e with have_ := SMap.put e.have_ (f.off / 256) f.data } else e)

/-- One flit passes from the mesh to the port. A later flit waits for the transfer's first one. -/
def portTakeFlit (id : Nat) (s : State) (f : MeshFlit) : State :=
  match s.xfer id with
  | none => s
  | some x =>
    let s1 := if f.off = 0 ∧ !x.stale then admitTransfer s x else s
    match s1.xfer id with
    | none => s1
    | some y =>
      if knownAtPort s1 y then
        (s1.modXfer id (fun x => { x with air := x.air.filter (fun g => g.off != f.off) })).modPort y.port (fun q =>
          { q with egress := joinFlit id f q.egress, bulk := joinFlit id f q.bulk })
      else s1

/-- The port takes every flit of a transfer that has reached it; a transfer of which nothing is left leaves the mesh. -/
def portTake (s : State) (x : Transfer) : State :=
  let s1 := (x.air.filter (atPort s x)).foldl (portTakeFlit x.id) s
  match s1.xfer x.id with
  | some y => if y.left = 0 ∧ y.air.isEmpty then dropTransfer s1 x.id else s1
  | none => s1

/-- SCHEDULED_FLIT_AT_PORT (R233): transfer `i`, if it is scheduled and its first flit is at its port. -/
def scheduledAtPort (s : State) (i : Nat) : State :=
  match s.die.transfers[i]? with
  | none => s
  | some x => if x.vc = 1 ∧ x.air.any (fun f => f.off == 0 && atPort s x f) then portTake s x else s

/-- Meaning of SCHEDULED_FLIT_AT_PORT. -/
def execScheduledFlitAtPort (i : Nat) (s : State) : Host.Outcome State Fault Refusal := .next (scheduledAtPort s i)

/-- SCHEDULED_SLOT_TRANSMIT (R232): slot `k` begins, and its transfer's flits may leave. The slot timers stop in a hold (R29). -/
def slotBegin (s : State) (p k : Nat) : State :=
  if s.sun.ctr < slotCycle s p k ∨ s.standing then s
  else s.modPort p (fun q => { q with egress := q.egress.map (fun e => if e.tr.fbSlot = k then { e with started := true } else e) })

/-- Meaning of SCHEDULED_SLOT_TRANSMIT. -/
def execScheduledSlotTransmit (p k : Nat) (s : State) : Host.Outcome State Fault Refusal :=
  if p < 16 then (if k < 1024 then .next (slotBegin s p k) else .fault (.noSuch "slot")) else .fault (.noSuch "port")

-- ingress: what enters the Trellis at a port (R235, R237)

/-- The Footbridge flit with which the next mesh flit is whole (R235). -/
def nextFlit (e : Ingress) : Nat := min (4 * e.shown + 4) (e.flits - 1)

/-- A mesh flit of the transfer is still to enter the Trellis, and its bytes have arrived. -/
def flitReady (e : Ingress) : Bool := e.shown < meshFlits e.tr.n && nextFlit e < e.got && !e.drop_

/-- Footbridge flits of a channel-0 transfer that have left the ingress buffer: those of its mesh flits, the route flit with the first; all that came of
one that is dropped (R229). -/
def flitsGone (e : Ingress) : Nat := if e.drop_ then e.got else if e.shown = 0 then 0 else min (4 * e.shown + 1) e.flits

/-- Buffer space that the next mesh flit frees. -/
def flitsFreed (e : Ingress) : Nat := flitsGone { e with shown := e.shown + 1 } - flitsGone e

/-- The transfer as it enters this module's Trellis: delivered to its tile, or on its way to egress port `q`. -/
def enteringTransfer (s : State) (p : Nat) (q : Option Nat) (e : Ingress) : Transfer :=
  let x : Transfer := { e.tr with inPort := p, left := meshFlits e.tr.n, data := [] }
  match q with
  | some k => { x with leg := 1, port := k }
  | none => if x.op = 3 then (match replyPlace s x.dstTile x.rchan with
      | some a => { x with off := a }
      | none => { x with stale := true }) else x

/-- The next mesh flit of an entry enters the Trellis on channel `car`; with a message's first one come its header and its handler list (R214). -/
def enterFromPort (s : State) (e : Ingress) (id car : Nat) : State :=
  let s1 := if e.shown = 0 ∧ e.tr.op = 1 then
      s.modXfer id (fun x => { x with head := e.tr.data.take 64, handler := bits ((wordsOf 4 e.tr.data).getD 3 0) 14 0 }) else s
  enterFlit s1 id car s.sun.ctr (256 * e.shown) (if linkData e.tr = 0 then [] else (e.tr.data.drop (256 * e.shown)).take 256)

/-- The list of a port's entries after one of them has given a flit to the Trellis. -/
def flitGiven (id : Nat) (l : List Ingress) (i : Nat) (e : Ingress) : List Ingress :=
  if e.shown + 1 = meshFlits e.tr.n then l.eraseIdx i else modAt (fun (e : Ingress) => { e with shown := e.shown + 1, xfer := some id }) l i

/-- P_f of a flit (R235). -/
def presentCycle (s : State) (p : Nat) (e : Ingress) (f : Nat) : Nat :=
  slotCycle s p e.tr.fbSlot + 4 * f / 3 + s.rd (FB_LINK_SCHED_LAT p)

/-- The port presents the next mesh flit of an entry now. -/
def presents (s : State) (p : Nat) (e : Ingress) : Bool := flitReady e && presentCycle s p e (nextFlit e) ≤ s.sun.ctr

/-- SCHEDULED_FLIT_PRESENT (R235): the next mesh flit is injected on channel 1 at its presentation cycle. Presentation stops in a hold. -/
def present (s : State) (p : Nat) : State :=
  if s.standing then s
  else
    match (s.port p).sched.findIdx? (presents s p) with
    | none => s
    | some i =>
      match (s.port p).sched[i]? with
      | none => s
      | some e =>
        let id := e.xfer.getD s.die.nextXfer
        let s1 := if e.xfer.isSome then s else newTransfer s (enteringTransfer s p none e)
        (enterFromPort s1 e id 1).modPort p (fun q => { q with sched := flitGiven id q.sched i e })

/-- Meaning of SCHEDULED_FLIT_PRESENT. -/
def execScheduledFlitPresent (p : Nat) (s : State) : Host.Outcome State Fault Refusal :=
  if p < 16 then .next (present s p) else .fault (.noSuch "port")

/-- The Footbridge flit of a transfer that is due for presentation 6 tc from now. -/
def dueFlit (s : State) (p : Nat) (e : Ingress) : Option Nat :=
  let t := presentCycle s p e 0
  let f := (3 * (s.sun.ctr + 6 - t) + 3) / 4
  if t ≤ s.sun.ctr + 6 ∧ 4 * f / 3 = s.sun.ctr + 6 - t ∧ f < e.flits then some f else none

/-- One transfer at the check of R236: a flit that is due 6 tc from now and is not whole requests a KIND 1 hold. While the transfer's hold is out, a
later flit that is not whole either keeps it out (DESIGN CHOICE, log entry 17). -/
def lateEntry (p : Nat) (s : State) (i : Nat) : State :=
  match (s.port p).sched[i]? with
  | none => s
  | some e =>
    match dueFlit s p e with
    | none => s
    | some f =>
      if f < e.got then s
      else
        match e.asked with
        | some (n, g) => s.modPort p (fun q => { q with sched := modAt (fun (e : Ingress) => { e with asked := some (n, max g f) }) q.sched i })
        | none =>
          let n := s.sun.nextSeq
          (requestHold (s.raise (FB_EVENT_LATE_SCHED p)) kindSched p).modPort p (fun q =>
            { q with sched := modAt (fun (e : Ingress) => { e with asked := some (n, f) }) q.sched i })

/-- LATE_FLIT_CHECK (R236): every flit that is due for presentation 6 tc from now. The Sundial frame counter, and with it the check, stands in a hold. -/
def lateCheck (s : State) (p : Nat) : State :=
  if s.standing ∨ s.rd SD_STATUS_RUNNING = 0 then s else (List.range (s.port p).sched.length).foldl (lateEntry p) s

/-- Meaning of LATE_FLIT_CHECK. -/
def execLateFlitCheck (p : Nat) (s : State) : Host.Outcome State Fault Refusal :=
  if p < 16 then .next (lateCheck s p) else .fault (.noSuch "port")

-- bulk routing (R237)

/-- Channel-0 buffer space is given back to the neighbour (R229). -/
def giveBack (s : State) (p cls n : Nat) : State :=
  s.modPort p (fun q => { q with giveBack := SMap.put q.giveBack cls (SMap.look q.giveBack cls 0 + n) })

/-- A channel-0 transfer is dropped at the port (R237): its flits free their space as they come. -/
def dropBulk (s : State) (p i : Nat) (e : Ingress) : State :=
  let l := fun (l : List Ingress) => if e.got = e.flits then l.eraseIdx i else modAt (fun (e : Ingress) => { e with drop_ := true }) l i
  (giveBack s p e.tr.cls e.got).modPort p (fun q => { q with inbound := l q.inbound })

/-- A channel-0 transfer takes its way through this module's Trellis: the port injects its flits, as they arrive, on channel 0. -/
def enterBulk (s : State) (p i : Nat) (q : Option Nat) (e : Ingress) : State :=
  (newTransfer s (enteringTransfer s p q e)).modPort p (fun k =>
    { k with inbound := modAt (fun (e : Ingress) => { e with xfer := some s.die.nextXfer }) k.inbound i })

/-- BULK_TRANSFER_ROUTE (R237): transfer `i` of those that arrive on port `p`, whose route flit is there. -/
def routeBulk (s : State) (p i : Nat) : State :=
  match (s.port p).inbound[i]? with
  | none => s
  | some e =>
    if e.xfer.isSome ∨ e.drop_ then s
    else if s.rd (FB_ROUTE_VALID e.tr.dstMod) = 0 then (dropBulk s p i e).incSat (FB_ERR_UNROUTED p) 1
    else if e.tr.dstMod = s.index then enterBulk s p i none e
    else enterBulk s p i (some (s.rd (FB_ROUTE_PORT e.tr.dstMod))) e

/-- Meaning of BULK_TRANSFER_ROUTE. -/
def execBulkTransferRoute (p i : Nat) (s : State) : Host.Outcome State Fault Refusal :=
  if p < 16 then .next (routeBulk s p i) else .fault (.noSuch "port")

/-- In one tc a port injects one mesh flit of channel 0: of the first routed transfer that has one ready (DESIGN CHOICE, log entry 18). -/
def bulkInject (s : State) (p : Nat) : State :=
  match (s.port p).inbound.findIdx? (fun e => e.xfer.isSome && flitReady e) with
  | none => s
  | some i =>
    match (s.port p).inbound[i]? with
    | none => s
    | some e =>
      let id := e.xfer.getD 0
      (giveBack (enterFromPort s e id 0) p e.tr.cls (flitsFreed e)).modPort p (fun q => { q with inbound := flitGiven id q.inbound i e })

-- a port goes down (R241)

/-- The module requests a hold that it never releases, if the port belongs to the machine; in a replay's stand it does so after the replay
tick (R241). -/
def downHold (s : State) (p : Nat) : State :=
  if s.rd (FB_CTRL_IN_MACHINE p) = 1 ∧ s.replay.standing = false then
    (requestHold s kindSched p).modPort p (fun q => { q with downHold := some s.sun.nextSeq }) else s

/-- A port leaves UP (R241, R242): LINK_DOWN, and in a machine the link needs a new alignment. -/
def leaveUp (s : State) (p : Nat) : State :=
  if s.rd (FB_STATUS_STATE p) = portUpCode then
    (s.raise (FB_EVENT_LINK_DOWN p)).modPort p (fun q => { q with cut := q.cut || s.rd (FB_CTRL_IN_MACHINE p) == 1 }) else s

/-- A port enters DOWN (R241); one that is down already requests no second hold. -/
def portDown (s : State) (p : Nat) : State :=
  if s.rd (FB_STATUS_STATE p) = portDownCode ∧ (s.port p).downHold.isSome then s
  else downHold ((leaveUp s p).wr (FB_STATUS_STATE p) portDownCode) p

/-- Meaning of LOSS_OF_SIGNAL (R241). -/
def execLossOfSignal (p : Nat) (s : State) : Host.Outcome State Fault Refusal :=
  if p < 16 then
    .next (portDown (((s.raise (FB_EVENT_LOS p)).wr (FB_STATUS_LANES_SIGNAL p) 0).wr (FB_STATUS_LANES_LOCKED p) 0) p)
  else .fault (.noSuch "port")

-- link blocks: receive (R226, R227, R230)

/-- A transfer whose route flit has arrived, or is known to be on its way. -/
def Ingress.of (r : Transfer × Nat) (got : Nat) : Ingress :=
  { tr := r.1, flits := r.2 + 1, got := got, shown := 0, xfer := none, asked := none, drop_ := false }

/-- A transfer's next data flit arrives. -/
def addFlit (w : List W64) (e : Ingress) : Ingress := { e with got := e.got + 1, tr := { e.tr with data := e.tr.data ++ bytesOf w } }

/-- The entry of a list that a data flit continues: the one of its class whose route flit is there and that is not whole. -/
def openEntry (cls : Option Nat) (l : List Ingress) : Option Nat :=
  l.findIdx? (fun e => 0 < e.got && e.got < e.flits && (cls.isNone || cls == some e.tr.cls))

/-- A scheduled transfer's route flit arrives: a retried one is known already. -/
def routeSched (q : Port) (r : Transfer × Nat) : Port :=
  match q.sched.findIdx? (fun e => e.got == 0 && e.tr == r.1) with
  | some i => { q with sched := modAt (fun (e : Ingress) => { e with got := 1 }) q.sched i }
  | none => { q with sched := q.sched ++ [Ingress.of r 1] }

/-- A channel-1 flit arrives; work of an abandoned frame is dropped (R380). -/
def recvSched (s : State) (p : Nat) (f : Flit) : State :=
  let s1 := s.inc (FB_TRAFFIC_RX_SCHED_FLITS p) 1
  if s.replay.standing then s1
  else if f.first then s1.modPort p (fun q => routeSched q (parseRoute p f.cls f.body))
  else
    match openEntry none (s.port p).sched with
    | some i => s1.modPort p (fun q => { q with sched := modAt (addFlit f.body) q.sched i })
    | none => s1

/-- A data flit of channel 0 reaches its transfer; one that is dropped frees its space, and leaves with its last flit. -/
def addBulk (s : State) (p : Nat) (f : Flit) (i : Nat) (e : Ingress) : State :=
  if e.drop_ then
    (giveBack s p f.cls 1).modPort p (fun q => { q with
      inbound := if e.got + 1 = e.flits then q.inbound.eraseIdx i else modAt (fun (e : Ingress) => { e with got := e.got + 1 }) q.inbound i })
  else s.modPort p (fun q => { q with inbound := modAt (addFlit f.body) q.inbound i })

/-- A channel-0 flit arrives. -/
def recvBulk (s : State) (p : Nat) (f : Flit) : State :=
  let s1 := s.inc (FB_TRAFFIC_RX_BULK_FLITS p) 1
  if s.replay.standing then giveBack s1 p f.cls 1
  else if f.first then s1.modPort p (fun q => { q with inbound := q.inbound ++ [Ingress.of (parseRoute p f.cls f.body) 1] })
  else
    match openEntry (some f.cls) (s.port p).inbound with
    | some i => (match (s.port p).inbound[i]? with | some e => addBulk s1 p f i e | none => s1)
    | none => giveBack s1 p f.cls 1

/-- The control words of a channel-2 flit. -/
def ctlPairs : List W64 → List (W64 × W64)
  | a :: b :: rest => (if bits a 7 0 = 0 then [] else [(a, b)]) ++ ctlPairs rest
  | _ => []

/-- A word of hold, release or time, which the module acts on at HP_DELAY after it was sent (R231): the commands REMOTE_HOLD_MESSAGE,
REMOTE_RELEASE_MESSAGE and TIME_MESSAGE are those moments. -/
def isHp (c : W64 × W64) : Bool := bits c.1 7 0 == 1 || bits c.1 7 0 == 2 || bits c.1 7 0 == 5

/-- The module acts on a word of a port now: it waits no more. -/
def takeHeard (s : State) (p type origin seq : Nat) : State :=
  s.modPort p (fun q => { q with
    heard := dropFirst (fun c => bits c.1 7 0 == type && bits c.1 19 8 == origin && (type == 5 || bits c.1 35 20 == seq)) q.heard })

/-- A control word goes on to its agent on this die. -/
def pushCtl (s : State) (body : CtlBody) (due : Nat) : State :=
  let c : Ctl := { body := body, due := due, stale := s.replay.standing }
  { s with die := { s.die with ctls := s.die.ctls ++ [c] } }

/-- A control word of another type takes its way (R231): barrier traffic to the root or down the tree, credits and revocations to their tile. These
name no module, and take effect at the first module that receives them (DESIGN CHOICE, log entry 22). What a Warden message says is the command
WARDEN_MESSAGE. -/
def recvCtl (s : State) (p : Nat) (c : W64 × W64) : State :=
  let low := bits c.1 63 36
  let tile := low % 256
  let chan := low / 256 % 32
  let due := s.sun.tick + 3 + portHops tile p
  match bits c.1 7 0 with
  | 3 =>
    let a : Arrival := { module := bits c.1 19 8, tile := 0, addr := 0, handler := false, mode := 1, notify := 0xFF,
                         add := low / 128 % 65536, target := c.2.toNat % 4294967296 }
    pushCtl s (.arrive (low % 64) (low.testBit 6) (bits c.1 35 20) a) s.sun.tick
  | 4 =>
    let s1 := pushCtl s (.release (low % 64) (c.2.toNat % 4294967296)) s.sun.tick
    ((List.range 16).filter (fun k => (s.rd FB_TREE_DOWN_MASK).testBit k)).foldl (fun s k => queueCtl s k c.1 c.2) s1
  | 6 => pushCtl s (.credit tile chan (low / 8192)) due
  | 7 => pushCtl s (.revoke tile chan) due
  | _ => s

/-- A flit of an accepted block. -/
def recvFlit (p : Nat) (s : State) (f : Option Flit) : State :=
  match f with
  | none => s
  | some f =>
    if f.vc = 1 then recvSched s p f
    else if f.vc = 0 then recvBulk s p f
    else (ctlPairs f.body).foldl (fun s c => recvCtl s p c) s

/-- The hold, release and time words of a block. -/
def hpOf (b : Block) : List (W64 × W64) :=
  b.flits.flatMap (fun f => match f with
    | some f => if f.vc = 2 then (ctlPairs f.body).filter isHp else []
    | none => [])

/-- Messages that a block which had to be sent again shows for the first time have lost both copies (R231): HP_LOST, and a replay (R377). Twice in
succession at one port is lasting (R378). -/
def noteLost (s : State) (p n : Nat) (b : Block) : State :=
  if n = 0 then (if (hpOf b).isEmpty then s else siteClean s siteLink p 0 1)
  else errorReplay ((s.raise (FB_EVENT_HP_LOST p)).incSat (FB_ERR_HP_LOST p) n) { kind := siteLink, place := p, addr := 0 } s.sun.ctr

/-- A late scheduled flit has become whole: the port sends the release of its hold (R236). -/
def releaseLate (p : Nat) (s : State) (i : Nat) : State :=
  match (s.port p).sched[i]? with
  | some e =>
    match e.asked with
    | some (n, f) =>
      if f < e.got then
        let s1 := s.modPort p (fun q => { q with sched := modAt (fun (e : Ingress) => { e with asked := none }) q.sched i })
        (releaseHold s1 s.index n (s.sun.tick + 2)).flood none (fun k => .release k s.index n s.sun.tick)
      else s
    | none => s
  | none => s

/-- What a block says of the other direction, as every intact block does: ACK, and NAK with which the transmitter resends from the block after ACK
(R226, R230). -/
def takeAck (q : Port) (b : Block) : Port :=
  let left := q.resend.filter (fun x => (x.seq.toNat + 32768 - b.ack - 1) % 32768 < 16384)
  { q with resend := left, retry := if b.nak then left else q.retry.filter (fun x => left.any (fun y => y.seq == x.seq)) }

/-- The channel-0 credits that a block returns count once (R229). -/
def takeCreditField (q : Port) (b : Block) : Port :=
  { q with credits := SMap.put q.credits b.creditCls (SMap.look q.credits b.creditCls 0 + b.credits) }

/-- Hold, release and time words that no intact block has shown before. -/
def freshWords (q : Port) (b : Block) : List (W64 × W64) := (hpOf b).filter (fun c => !q.hpSeen.contains c)

/-- A block in order is used (R230): its flits enter, and the numbers move on. -/
def acceptBlock (s : State) (p : Nat) (b : Block) : State :=
  let q := s.port p
  let again := q.missed.contains b.seq.toNat
  let s1 := s.modPort p (fun q => { takeCreditField q b with
    rxSeq := (b.seq.toNat + 1) % 4294967296, asking := false, fails := 0, missed := q.missed.filter (· != b.seq.toNat),
    hpSeen := if q.missed.isEmpty then hpOf b else q.hpSeen ++ hpOf b, heard := if again then q.heard else q.heard ++ freshWords q b })
  let s2 := if again then lifeEvent (s1.incSat (FB_ERR_RETRIED p) 1) 7 1 else s1
  let s3 := noteLost (b.flits.foldl (recvFlit p) s2) p (if again then (freshWords q b).length else 0) b
  (List.range (s3.port p).sched.length).foldl (releaseLate p) s3

/-- The route flits of scheduled transfers in a block that will come again: the port knows that their flits are due (R236; DESIGN CHOICE, log entry
17). -/
def awaitRoutes (p : Nat) (b : Block) (q : Port) : Port :=
  let rs := b.flits.filterMap (fun f => match f with | some f => if f.vc = 1 ∧ f.first then some (parseRoute p f.cls f.body) else none | none => none)
  { q with sched := q.sched ++ (rs.filter (fun r => !q.sched.any (fun e => e.tr == r.1 && e.got == 0))).map (fun r => Ingress.of r 0) }

/-- The receiver cannot use a block, which comes again (R230). -/
def missBlock (s : State) (p : Nat) (b : Block) : State :=
  s.modPort p (fun q =>
    let q1 : Port := { q with missed := if q.missed.contains b.seq.toNat then q.missed else q.missed ++ [b.seq.toNat] }
    if s.replay.standing then q1 else awaitRoutes p b q1)

/-- A block that has been accepted before. -/
def oldBlock (q : Port) (b : Block) : Bool := (q.rxSeq + 4294967296 - b.seq.toNat - 1) % 4294967296 < 2147483648

/-- A block out of order is discarded, but for its hold, release and time words (R230, R231). One that has been accepted already changes nothing; a
later one is awaited again, and asked for if nothing has been. -/
def skipBlock (s : State) (p : Nat) (b : Block) : State :=
  if oldBlock (s.port p) b then s
  else
    (missBlock s p b).modPort p (fun q => { q with
      nak := q.nak || !q.asking, asking := true, hpSeen := q.hpSeen ++ hpOf b, heard := q.heard ++ freshWords (s.port p) b })

/-- A block that fails FEC or CRC (R227, R230): NAK, and after 8 failed transmissions of one block the port goes down. `b` is the block as it was
sent. -/
def failBlock (s : State) (p : Nat) (b : Block) : State :=
  let q := s.port p
  let n := if b.seq.toNat = q.rxSeq then q.fails + 1 else q.fails
  let s1 := (if oldBlock q b then s else missBlock s p b).modPort p (fun q => { q with nak := true, asking := true, fails := n })
  if 8 ≤ n then portDown (summary (s1.raise (FB_EVENT_RETRY_LIMIT p)) 4 p 0) p else s1

/-- LINK_BLOCK_RECEIVE (R227): the bytes `raw` of a block that was sent as `sent`. -/
def blockReceive (s : State) (p : Nat) (sent raw : List Byte) : State :=
  if s.rd (FB_STATUS_STATE p) ≠ portUpCode then s
  else
    match decodeBlock raw with
    | none => failBlock s p (parseBlock sent)
    | some (b, n) =>
      let s1 := (s.incSat (FB_ERR_FEC_CORRECTED p) n).modPort p (fun q => takeAck q b)
      if b.seq.toNat = (s.port p).rxSeq then acceptBlock s1 p b else skipBlock s1 p b

/-- Meaning of LINK_BLOCK_RECEIVE. -/
def execLinkBlockReceive (p : Nat) (sent raw : List Byte) (s : State) : Host.Outcome State Fault Refusal :=
  if p < 16 then .next (blockReceive s p sent raw) else .fault (.noSuch "port")

-- link blocks: transmit (R229)

/-- The class in which a channel-0 transfer crosses this link (R237). -/
def linkClass (q : Port) (x : Transfer) : Nat := if q.dateline then 1 else x.cls

/-- The next flit of an egress entry, and the list after it is sent. -/
def sendEgress (l : List Egress) (i cls : Nat) : List Egress × Option Flit :=
  match l[i]? with
  | none => (l, none)
  | some e =>
    (if e.sent + 1 = e.flits then l.eraseIdx i else modAt (fun (e : Egress) => { e with sent := e.sent + 1 }) l i,
     some { vc := if e.slots = 0 then 0 else 1, first := e.sent == 0, last := e.sent + 1 == e.flits, cls := cls, body := flitBody e cls e.sent })

/-- A flit of control words, up to four. -/
def ctlFlit (cs : List (W64 × W64)) : Flit :=
  let w := (cs.take 4).flatMap (fun c => [c.1, c.2])
  { vc := 2, first := true, last := true, cls := 0, body := w ++ List.replicate (8 - w.length) 0 }

/-- The channel-0 entry that may send: the first of its class, with a credit of that class, if its next flit is there. -/
def bulkNext (q : Port) : Option Nat :=
  let firstOf := fun (c : Nat) => q.bulk.findIdx? (fun e => linkClass q e.tr == c)
  let ready := fun (i : Nat) => match q.bulk[i]? with | some e => e.holds e.sent | none => false
  let ok := fun (c : Nat) => if 0 < SMap.look q.credits c 0 then (firstOf c).filter ready else none
  match ok 0, ok 1 with
  | some i, some j => some (min i j)
  | some i, none => some i
  | none, o => o

/-- What a block may carry of channel 1: the length of a slot and the Sundial frame counter, or nothing in a hold (R29). -/
abbrev Cadence := Option (Nat × Nat)

/-- The scheduled transfer whose next flit may leave (R232). -/
def schedNext (c : Cadence) (q : Port) : Option Nat :=
  match c with
  | none => none
  | some (len, ctr) => q.egress.findIdx? (fun e => e.started && e.holds e.sent && len * e.tr.fbSlot + 4 * e.sent / 3 ≤ ctr)

/-- One flit position (R229): channel 1, of which a block carries 31 at most, then channel 2, then channel 0 with a credit, else empty. `second` are the
second copies that this block carries (R231), `n` counts its channel-1 flits. -/
def pickFlit (c : Cadence) (n : Nat) (q : Port) (second : List (W64 × W64)) : Port × List (W64 × W64) × Option Flit :=
  match (if n < 31 then schedNext c q else none) with
  | some i => let r := sendEgress q.egress i 0; ({ q with egress := r.1 }, second, r.2)
  | none =>
    if !second.isEmpty then (q, second.drop 4, some (ctlFlit second))
    else if !q.ctl.isEmpty then
      ({ q with ctl := q.ctl.drop 4, ctlAgain := q.ctlAgain ++ (q.ctl.take 4).filter isHp }, second, some (ctlFlit q.ctl))
    else
      match bulkNext q with
      | none => (q, second, none)
      | some i =>
        let k := linkClass q ((q.bulk[i]?).map (·.tr) |>.getD Transfer.blank)
        let r := sendEgress q.bulk i k
        ({ q with bulk := r.1, credits := SMap.put q.credits k (SMap.look q.credits k 0 - 1) }, second, r.2)

/-- A flit of channel 1. -/
def isSched (f : Option Flit) : Bool := match f with | some f => f.vc == 1 | none => false

/-- The flit positions of a block; second copies for which it has no room wait for the next one. -/
def fillBlock (c : Cadence) : Nat → Nat → Port → List (W64 × W64) → Port × List (Option Flit)
  | 0, _, q, second => ({ q with ctlAgain := second ++ q.ctlAgain }, [])
  | k + 1, n, q, second =>
    let r := pickFlit c n q second
    let t := fillBlock c k (n + ofBool (isSched r.2.2)) r.1 r.2.1
    (t.1, r.2.2 :: t.2)

/-- Flits of a virtual channel in a block. -/
def countVc (l : List (Option Flit)) (vc : Nat) : Nat :=
  (l.filter (fun f => match f with | some f => f.vc == vc | none => false)).length

/-- ACK and NAK of a block as it leaves; a NAK is sent once (R230). -/
def sealBlock (q : Port) (b : Block) : Port × Block := ({ q with nak := false }, { b with ack := (q.rxSeq + 32767) % 32768, nak := q.nak })

/-- The credits of a new block: a class that has some to return gives up to 4,095 of them (R226). -/
def creditField (q : Port) (b : Block) : Port × Block :=
  let c := if 0 < SMap.look q.giveBack 0 0 then 0 else 1
  let n := min 4095 (SMap.look q.giveBack c 0)
  ({ q with giveBack := SMap.put q.giveBack c (SMap.look q.giveBack c 0 - n) }, { b with credits := n, creditCls := c })

/-- LINK_BLOCK_TRANSMIT (R229, R230): a block that was asked for again, or a new one. A test pattern replaces all traffic (R225). -/
def blockTransmit (s : State) (p : Nat) : State :=
  if testPattern s p ≠ 0 ∧ s.rd (FB_CTRL_ENABLE p) = 1 then s.emit (.pattern p (testPattern s p))
  else if !portCarries s p then s
  else
    let q := s.port p
    match q.retry with
    | b :: rest =>
      let r := sealBlock { q with retry := rest } b
      (s.setPort p r.1).emit (.block p (encodeBlock r.2))
    | [] =>
      let cadence : Cadence := if s.standing then none else some (s.rd (FB_SLOTS_SLOT_LEN p), s.sun.ctr)
      let f := fillBlock cadence 32 0 { q with ctlAgain := [] } q.ctlAgain
      let n := creditField f.1 { flits := f.2, seq := w32 q.txSeq, ack := 0, nak := false, credits := 0, creditCls := 0 }
      let r := sealBlock n.1 n.2
      let kept := r.1.resend ++ [n.2]
      let q1 : Port := { r.1 with txSeq := (q.txSeq + 1) % 4294967296, resend := kept.drop (kept.length - 16) }
      (((s.setPort p q1).inc (FB_TRAFFIC_TX_SCHED_FLITS p) (countVc f.2 1)).inc (FB_TRAFFIC_TX_BULK_FLITS p) (countVc f.2 0)).emit
        (.block p (encodeBlock r.2))

/-- Meaning of LINK_BLOCK_TRANSMIT. -/
def execLinkBlockTransmit (p : Nat) (s : State) : Host.Outcome State Fault Refusal :=
  if p < 16 then .next (blockTransmit s p) else .fault (.noSuch "port")

-- training (R239, R240)

/-- Training begins (R239): a port that leaves UP says so. -/
def trainPort (s : State) (p : Nat) (full : Bool) : State :=
  if s.rd (FB_CTRL_ENABLE p) = 0 then s
  else ((leaveUp s p).wr (FB_STATUS_STATE p) portDetect).modPort p (fun q => { q with fullAdapt := full })

/-- Meaning of PORT_RETRAIN: a write of FB_CTRL.RETRAIN (R239, R242). -/
def execPortRetrain (p : Nat) (full : Bool) (s : State) : Host.Outcome State Fault Refusal :=
  if p < 16 then .next (trainPort s p full) else .fault (.noSuch "port")

/-- SIGNAL_RETURN (R239, R241): all 8 lanes detect signal, and a port in DOWN trains. -/
def signalReturn (s : State) (p : Nat) : State :=
  let s1 := s.wr (FB_STATUS_LANES_SIGNAL p) 0xFF
  if s.rd (FB_STATUS_STATE p) = portDownCode then trainPort s1 p false else s1

/-- Meaning of SIGNAL_RETURN. -/
def execSignalReturn (p : Nat) (s : State) : Host.Outcome State Fault Refusal :=
  if p < 16 then .next (signalReturn s p) else .fault (.noSuch "port")

/-- Steps 1 to 4 of training (R239): with signal on all lanes a port goes from DETECT to IDENTIFY, one state in a tc; the time that a step takes is not
modelled (DESIGN CHOICE, log entry 17). -/
def trainStep (s : State) (p : Nat) : State :=
  let st := s.rd (FB_STATUS_STATE p)
  if portDetect ≤ st ∧ st < portIdentify ∧ s.rd (FB_STATUS_LANES_SIGNAL p) = 0xFF ∧ s.rd (FB_CTRL_ENABLE p) = 1 then
    (if st = portLock then s.wr (FB_STATUS_LANES_LOCKED p) 0xFF else s).wr (FB_STATUS_STATE p) (st + 1)
  else s

/-- PEER_ID of a preset word (R408). -/
def peerId (serial : W64) (port : Nat) : Nat := 4096 * (port % 16) + serial.toNat % 4096

/-- The stored preset serves this peer (R239, R240). -/
def presetServes (s : State) (p id : Nat) : Bool :=
  let w := s.shedWord (0x10 + p)
  !(s.port p).fullAdapt && bit w 63 && bits w 47 32 == id && !shedWorn s (0x10 + p)

/-- The link layer of a port that comes up: blocks numbered from 0, both channel-0 classes full of credit (R229, R230). -/
def linkStart (peer : Nat) (q : Port) : Port :=
  { q with txSeq := 0, rxSeq := 0, resend := [], retry := [], nak := false, asking := false, fails := 0, missed := [], hpSeen := [], heard := [],
           ctlAgain := [], fullAdapt := false, peer := peer, credits := [(0, 2048), (1, 2048)], giveBack := [] }

/-- A port reaches UP (R239); after a full adaptation firmware stores a preset that differs (R240). PEER_MODULE shows the peer's machine index after
alignment. -/
def portUp (s : State) (p id peerPort peerModule lanes : Nat) : State :=
  let used := presetServes s p id
  let word := setBits (setBits (setBits 0 63 63 1) 47 32 id) 31 0 lanes
  let s1 := if used ∨ s.shedNext (0x10 + p) = word then s else shedPut s (0x10 + p) word none
  let s2 := (((s1.wr (FB_STATUS_STATE p) portUpCode).wr (FB_STATUS_PEER_PORT p) peerPort).wr
    (FB_STATUS_LANES_SIGNAL p) 0xFF).wr (FB_STATUS_LANES_LOCKED p) 0xFF
  (s2.wr (FB_STATUS_PRESET_USED p) (ofBool used)).modPort p (linkStart peerModule)

/-- Training ends (R239). -/
def trained (s : State) (p : Nat) (ok : Bool) (serial : W64) (peerPort peerModule lanes : Nat) : State :=
  let st := s.rd (FB_STATUS_STATE p)
  if st = portDownCode ∨ portUpCode ≤ st then s
  else if ok then portUp s p (peerId serial peerPort) peerPort peerModule lanes
  else s.wr (FB_STATUS_STATE p) portFailed

/-- Meaning of TRAINING_COMPLETE. -/
def execTrainingComplete (p : Nat) (ok : Bool) (serial : W64) (peerPort peerModule : Nat) (lanes : W32) (s : State) :
    Host.Outcome State Fault Refusal :=
  if p < 16 then .next (trained s p ok serial peerPort peerModule lanes.toNat) else .fault (.noSuch "port")

end Sys2Proof.Machine
end

