-- ==== Sys2Proof/Machine/RegRead.lean ====
section
/-!
DEFINITION. What registers read as: the tile window (R68, R92, R113, R201, R223, R334, R403), the Lodge window (R257), BAR0 as the Warden reads it,
and BAR0 as a host function reads it (R420).
-/

namespace Sys2Proof.Machine
open Sys2Proof

/-- What configuration space holds (R4, R418, R419): identity, capabilities and BAR sizes of a function. -/
structure ConfigSpace where
  vendor : Nat
  device : Nat
  classCode : Nat
  revision : Nat
  subsystem : Nat × Nat
  maxPayload : Nat
  tags10 : Bool
  flr : Bool
  msixVectors : Nat
  aer : Bool
  doe : Bool
  totalVfs : Nat
  firstVf : Nat
  vfStride : Nat
  bar0 : Nat
  bar2 : Nat
  deriving DecidableEq, Repr

/-- A function's configuration space. A VF's device ID is the VF Device ID of the SR-IOV capability; AER, SR-IOV and DOE belong to physical functions. -/
def configSpace (f : Func) : ConfigSpace :=
  let pf := match f with | .pf _ => true | .vf _ _ => false
  { vendor := 0x1F3C, device := if pf then 0x0740 else 0x0741, classCode := 0x120000, revision := 0xB1, subsystem := (0x1F3C, 0x0740),
    maxPayload := 512, tags10 := true, flr := true, msixVectors := 64, aer := pf, doe := pf, totalVfs := if pf then 16 else 0,
    firstVf := if pf then 1 else 0, vfStride := if pf then 1 else 0, bar0 := 0x4000000, bar2 := 0x10000 }

/-- A word with some fields set. -/
def packed (fs : List (Fld × Nat)) (w : W64) : W64 := fs.foldl (fun w f => setBits w f.1.hi f.1.lo f.2) w

/-- The code of TL_SEQ_STATUS.STATE. -/
def stateCode : RunState → Nat
  | .idle => 0
  | .running => 1
  | .waitTick => 2
  | .frozen => 3

/-- The main-stream head as fetched, if its line is buffered. -/
def mainHead (q : Seq) : Option Desc := (settle q.mainBuf q.head).head?.map (fun l => l.at q.head)

/-- The handler-stream head as fetched, if a list runs and its line is buffered. -/
def handlerHead (q : Seq) : Option Desc := q.handler.bind (fun h => (settle q.hBuf h.head).head?.map (fun l => l.at h.head))

/-- TL_SEQ_STATUS (R68). A main stream that stands at its frame-end link's target reads as waiting for the tick (R56, R345; log entry 41). -/
def seqStatus (t : Tile) : W64 :=
  let q := t.seq
  packed [(TL_SEQ_STATUS_HEAD, q.head), (TL_SEQ_STATUS_STATE, if q.run = .running ∧ q.atEnd then stateCode .waitTick else stateCode q.run), (TL_SEQ_STATUS_MAIN_WINDOW, q.inFlight false),
    (TL_SEQ_STATUS_HANDLER_WINDOW, q.inFlight true), (TL_SEQ_STATUS_HANDLER_ACTIVE, ofBool q.handler.isSome),
    (TL_SEQ_STATUS_HOLD_REQ, ofBool q.holdSeq.isSome),
    (TL_SEQ_STATUS_HEAD_WAIT, match mainHead q with | some d => ofBool (!d.met t) | none => 0)] 0

/-- TL_TCn (R68): VALUE and ORPHANED. -/
def tcWord (t : Tile) (n : Nat) : W64 := packed [(TL_TC_VALUE n, t.tcVal n), (TL_TC_ORPHANED n, ofBool (t.orphaned.getLsbD n))] 0

/-- A started descriptor of the window works on stage `n`. -/
def usesStage (t : Tile) (op n : Nat) (busy : WinEntry → Bool) : Bool :=
  t.seq.window.any (fun e => e.desc.opcode == op && e.phase == .running && e.desc.stage == n && busy e)

/-- STAGEn_STATE (R92): 1 loading, 2 in use by a pass that still streams, 0 ready. -/
def stageState (t : Tile) (n : Nat) : Nat :=
  if usesStage t opMxLoad n (fun e => e.pos < e.span) then 1 else if usesStage t opMxPass n (fun e => e.pos < e.held) then 2 else 0

/-- TL_MX_STATUS (R92). -/
def mxStatus (t : Tile) : W64 :=
  packed [(TL_MX_STATUS_STAGE1_FMT, t.mx.st1.fmt), (TL_MX_STATUS_STAGE0_FMT, t.mx.st0.fmt),
    (TL_MX_STATUS_STAGE1_STATE, stageState t 1), (TL_MX_STATUS_STAGE0_STATE, stageState t 0)] (t.regW TL_MX_STATUS_OFF)

/-- TL_VX_STATUS (R113). -/
def vxStatus (t : Tile) : W64 :=
  packed [(TL_VX_STATUS_IN_FLIGHT, (t.seq.window.filter (fun e => e.unit == 1 && e.phase != .issued)).length)] (t.regW TL_VX_STATUS_OFF)

/-- TL_VX_REGv_Ww: word `i` = 32 v + w of the vector registers. -/
def vxWord (t : Tile) (i : Nat) : W64 :=
  packed [(TL_VX_REG_LANE_LO i, (SMap.look t.vx.v (2 * i) 0).toNat), (TL_VX_REG_LANE_HI i, (SMap.look t.vx.v (2 * i + 1) 0).toNat)] 0

/-- TW_HANDLER (R223). -/
def handlerWord (q : Seq) : W64 :=
  match q.handler with
  | none => 0
  | some h => packed [(TW_HANDLER_ACTIVE, 1), (TW_HANDLER_RCHAN, h.entry.rchan), (TW_HANDLER_N, h.entry.n), (TW_HANDLER_PAD, h.entry.pad),
      (TW_HANDLER_POS, h.entry.pos)] 0

/-- The registers of a tile window that have no offset of their own here read as stored. -/
def tileRead (s : State) (p off : Nat) : W64 :=
  let t := s.tile p
  if off = TL_SEQ_STATUS_OFF then seqStatus t
  else if off = TL_TC_ADD_OFF then 0
  else if TL_TC_OFF 0 ≤ off ∧ off < TL_TC_OFF 64 then tcWord t ((off - TL_TC_OFF 0) / 8)
  else if off = TL_MX_STATUS_OFF then mxStatus t
  else if off = TL_SP_CTRL_OFF then packed [(TL_SP_CTRL_CLEAR_BUSY, ofBool t.spClear.isSome)] (t.regW TL_SP_CTRL_OFF)
  else if off = TL_TR_CTRL_OFF then packed [(TL_TR_CTRL_CLEAR_BUSY, ofBool t.trClear.isSome)] (t.regW TL_TR_CTRL_OFF)
  else if off = TL_VX_STATUS_OFF then vxStatus t
  else if TL_VX_MASK_OFF 0 ≤ off ∧ off < TL_VX_MASK_OFF 8 then SMap.look t.vx.m ((off - TL_VX_MASK_OFF 0) / 8) 0
  else if TL_VX_REG_OFF 0 ≤ off ∧ off < TL_VX_REG_OFF 1024 then vxWord t ((off - TL_VX_REG_OFF 0) / 8)
  else if off = TW_HANDLER_OFF then handlerWord t.seq
  else if off = TW_HQ_OFF then packed [(TW_HQ_DEPTH, t.seq.hq.length)] (t.regW TW_HQ_OFF)
  else if off = TL_FC_STATUS_OFF then packed [(TL_FC_STATUS_WRITE_HALF, s.frame % 2)] (t.regW TL_FC_STATUS_OFF)
  else if off = TL_RP_HEAD_OFF then packed [(TL_RP_HEAD_FRAME_HEAD, t.tick.head)] 0
  else t.regW off

-- the Lodge window

/-- Lodge cycles of 500 ps since the module's time began (R243). mcycle is stored as its distance from this count. -/
def lodgeCycles (s : State) : Nat := s.sun.time / 10920000

/-- LG_CTRL.RUN of core `k` written (R257): 1 releases a core at its reset vector with fresh registers (log entry 7), 0 holds it in reset. -/
def setRun (s : State) (k : Nat) (run : Bool) : State :=
  let l := s.lodge k
  let l1 := { l.wr LG_CTRL_RUN (ofBool run) with wfi := false }
  s.setLodge k (if run && l.rd LG_CTRL_RUN == 0 then { l1 with pc := 0, x := [], f := [], csr := [(0xB00, 0 - w64 (lodgeCycles s))], reserve := none }
    else if run then { l1 with wfi := l.wfi } else l1)

/-- LG_STATUS.STATE (R257): 0 in reset, 1 running, 2 in WFI. -/
def lodgeState (l : Lodge) : Nat := if l.rd LG_CTRL_RUN = 0 then 0 else if l.wfi then 2 else 1

/-- LG_IRQ (R257): ERR, BSEVENT and WATCH follow what they name. -/
def lodgeIrq (l : Lodge) : W64 :=
  packed [(LG_IRQ_ERR, l.rd LG_ERR_VALID), (LG_IRQ_BSEVENT, ofBool (!l.evq.isEmpty)),
    (LG_IRQ_WATCH, ofBool ((List.range 8).any (fun n => l.rd (LG_WATCH_FIRED n) == 1)))] (l.regW LG_IRQ_OFF)

/-- LG_BSEVENT (R257): the head of the event queue. -/
def lodgeEvent (l : Lodge) : W64 :=
  match l.evq with
  | [] => 0
  | e :: _ => packed [(LG_BSEVENT_VALID, 1), (LG_BSEVENT_KIND, e.kind), (LG_BSEVENT_COUNT, e.count), (LG_BSEVENT_SLOT, e.slot),
      (LG_BSEVENT_FRAME, e.frame.toNat)] 0

/-- A register of Lodge core `k`. -/
def lodgeRead (s : State) (k off : Nat) : W64 :=
  let l := s.lodge k
  if off = LG_STATUS_OFF then packed [(LG_STATUS_EVQ_DEPTH, l.evq.length), (LG_STATUS_STATE, lodgeState l)] (l.regW LG_STATUS_OFF)
  else if off = LG_IRQ_OFF then lodgeIrq l
  else if off = LG_FRAME_OFF then packed [(LG_FRAME_FRAME, s.frame)] (l.regW LG_FRAME_OFF)
  else if off = LG_BSEVENT_OFF then lodgeEvent l
  else if off = LG_BSMASK_DONE_OFF then 0
  else l.regW off

-- BAR0

/-- SD_LAG.LAG: the lag of each region in 4 bits, region g in bits [4g+3:4g] (R43). -/
def lagWord (s : State) : W64 := (List.range 8).foldl (fun w g => setBits w (4 * g + 3) (4 * g) (s.lag g)) 0

/-- GH_PART_ID (R4). -/
def partId : W64 :=
  packed [(GH_PART_ID_DEVICE, 0x0740), (GH_PART_ID_STEPPING, 0xB1), (GH_PART_ID_GRADE, ofBool Config.gradeE), (GH_PART_ID_VENDOR, 0x1F3C)] 0

/-- A content key is held (R376): a staging command has unwrapped one and not ended. -/
def stagingActive (s : State) : Bool := s.die.slices.any (fun x => !x.2.key.isEmpty)

/-- The fleet slot, if it holds a key. -/
def State.fleet? (s : State) (n : Nat) : Option Fleet := SMap.look? s.gate.fleet n

/-- The Gatehouse registers (R376). -/
def gateRead (s : State) (off : Nat) : W64 :=
  if off = GH_PART_ID_OFF then partId
  else if off = GH_STATUS_OFF then
    packed [(GH_STATUS_RUNNING_SVN, s.gate.svn), (GH_STATUS_ANTI_ROLLBACK, s.gate.fuses), (GH_STATUS_STAGING_ACTIVE, ofBool (stagingActive s)),
      (GH_STATUS_TRNG_OK, ofBool s.gate.trngOk)] 0
  else if off = GH_SERIAL_OFF then Config.serial
  else if GH_FLEET_OFF 0 ≤ off ∧ off < GH_FLEET_OFF 4 then
    match s.fleet? ((off - GH_FLEET_OFF 0) / 8) with
    | some f => packed [(GH_FLEET_VALID 0, 1), (GH_FLEET_PORT 0, f.port), (GH_FLEET_KEY_ID_LOW 0, leNat (f.keyId.take 4))] 0
    | none => 0
  else 0

/-- A pavilion exists. -/
def pvExists (s : State) (q : Nat) : Bool := (s.pv q).run.st != 0

/-- PV_HOST, PV_CFGp and PV_TENANTp (R432). -/
def pvRead (s : State) (off : Nat) : W64 :=
  if off = PV_HOST_OFF then
    packed [(PV_HOST_SPLIT, ofBool s.mod.split), (PV_HOST_PORT1_UP, SMap.look s.mod.links 1 0), (PV_HOST_PORT0_UP, SMap.look s.mod.links 0 0)] 0
  else if PV_CFG_OFF 0 ≤ off ∧ off < PV_CFG_OFF 4 then
    let q := (off - PV_CFG_OFF 0) / 16
    let r := (s.pv q).res
    if pvExists s q then
      (if (off - PV_CFG_OFF 0) % 16 = 0 then
        packed [(PV_CFG_STATE 0, (s.pv q).run.st), (PV_CFG_PORT 0, r.port), (PV_CFG_VF 0, r.vf), (PV_CFG_GROUPS 0, r.groups),
          (PV_CFG_CLUSTERS 0, r.clusters)] 0
      else packed [(PV_TENANT_COUNT 0, r.tenants), (PV_TENANT_FIRST 0, r.firstTenant)] 0)
    else 0
  else 0

/-- The Shed registers (R414). -/
def shedRead (s : State) (off : Nat) : W64 :=
  if off = SH_STATUS_OFF then
    packed [(SH_STATUS_BUSY, ofBool (!s.shed.queue.isEmpty)), (SH_STATUS_QUEUED, min 16 (s.shed.queue.length - 1))] (s.regW SH_STATUS_OFF)
  else if SH_WORD_OFF 0 ≤ off ∧ off < SH_WORD_OFF 8192 then s.shedWord ((off - SH_WORD_OFF 0) / 8)
  else if SH_WEAR_OFF 0 ≤ off ∧ off < SH_WEAR_OFF 8192 then packed [(SH_WEAR_COUNT 0, s.shedWear ((off - SH_WEAR_OFF 0) / 8))] 0
  else s.regW off

/-- BS_SLOTn_STATE.PHASE (R307): a collecting slot is sampling while a commit of its present step is due. -/
def slotPhase (s : State) (n : Nat) : Nat :=
  let p := s.rd (BS_SLOT_STATE_PHASE n)
  if p = bsCollecting ∧ s.die.band.commits.any (fun c => c.slot == n && c.step == slotStep s n && !c.open_) = true then 2 else p

/-- Registers of the Orangery, the Icehouse and the Bandstand (R282, R307). -/
def bandRead (s : State) (off : Nat) : W64 :=
  if OY_PV_COMMIT_OFF 0 ≤ off ∧ off < OY_PV_COMMIT_OFF 4 then
    packed [(OY_PV_COMMIT_USED 0, commitUsed s ((off - OY_PV_COMMIT_OFF 0) / 8) / 64)] (s.regW off)
  else if IH_SALT_CFG_OFF 0 ≤ off ∧ off < IH_SALT_CFG_OFF 64 then (if (off - IH_SALT_CFG_OFF 0) % 64 = 0 then s.regW off else 0)
  else if off = BS_STATUS_OFF then
    packed [(BS_STATUS_ROWS_FREE, 2048 - rowsUsed s.die.band none), (BS_STATUS_STAGED, stagedOf s.die.band none)] (s.regW off)
  else if BS_SLOT_CFG_OFF 0 ≤ off ∧ off < BS_SLOT_CFG_OFF 1024 ∧ (off - BS_SLOT_CFG_OFF 0) % 64 = 48 then
    let n := (off - BS_SLOT_CFG_OFF 0) / 64
    packed [(BS_SLOT_STATE_MASK_DONE 0, (s.slot n).done.toNat), (BS_SLOT_STATE_PHASE 0, slotPhase s n)] (s.regW off)
  else s.regW off

/-- A BAR0 register as the Warden reads it; mailbox windows belong to their functions. -/
def barRead (s : State) (off : Nat) : W64 :=
  if off < 0x4000 then gateRead s off
  else if off = SD_STATUS_OFF then packed [(SD_STATUS_IN_HOLD, ofBool s.sun.stopped)] (s.regW off)
  else if off = SD_LAG_OFF then lagWord s
  else if off < 0x5000 then s.regW off
  else if off < 0x6000 then shedRead s off
  else if 0x8000 ≤ off ∧ off < 0x9000 then pvRead s off
  else if 0x10000 ≤ off ∧ off < 0x11000 then 0
  else if 0x20000 ≤ off ∧ off < 0x40000 then shedRead s off
  else if 0xC0000 ≤ off ∧ off < 0xD0000 then lodgeRead s ((off - 0xC0000) / 4096) (off % 4096)
  else if 0xE0000 ≤ off ∧ off < 0x120000 then bandRead s off
  else if 0x2000000 ≤ off ∧ off < 0x2440000 then tileRead s ((off - 0x2000000) / 0x4000) (off % 0x4000)
  else s.regW off

/-- A mailbox register as its function reads it: PHASE of MB_STATUS follows the boot (R335), MB_ASYNC shows the oldest entry, and write-only
registers read as zero. -/
def mailRead (s : State) (n off : Nat) : W64 :=
  let m := s.fn n
  if off = MB_DOORBELL_OFF then 0
  else if off = MB_STATUS_OFF then packed [(MB_STATUS_PHASE, s.gate.phase)] (m.regW off)
  else if off = MB_ASYNC_OFF then m.async.headD 0
  else m.regW off

/-- The pavilions whose resources a function sees (R420): those of its port, or its own. -/
def seesPv (s : State) (f : Func) (q : Nat) : Bool :=
  pvExists s q && (match f with
    | .pf port => (s.pv q).res.port == port
    | .vf port n => (s.pv q).res.port == port && (s.pv q).res.vf == n)

/-- A physical function. -/
def isPf : Func → Bool
  | .pf _ => true
  | .vf _ _ => false

/-- The tile window of a physical tile, and by its cluster a Lodge window, is visible to a function (R420). -/
def seesOwner (s : State) (f : Func) (owner : Option Nat) : Bool :=
  match owner with
  | some q => seesPv s f q
  | none => f == .pf 0

/-- The pavilion that holds a per-entry register: a salt entry, an open Bandstand slot or a tenant. -/
def entryOwner (s : State) (off : Nat) : Option Nat :=
  if off < 0x100000 then
    let n := (off - 0xF0100) / 64
    if s.rd (IH_SALT_CFG_VALID n) = 1 then some (s.rd (IH_SALT_CFG_PAVILION n)) else none
  else if off < 0x130000 then
    let n := (off - 0x110000) / 64
    if s.rd (BS_SLOT_CFG_OPEN n) = 1 then some (s.rd (BS_SLOT_CFG_PAVILION n)) else none
  else
    let n := (off - 0x130000) / 32
    (List.range 4).find? (fun q => pvExists s q && (s.pv q).res.firstTenant ≤ n && n < (s.pv q).res.firstTenant + (s.pv q).res.tenants)

/-- R420: the table of BAR0 visibility, mailbox windows left out. -/
def barVisible (s : State) (f : Func) (off : Nat) : Bool :=
  if off = GH_PART_ID_OFF ∨ (0x4000 ≤ off ∧ off < 0x5000) then true
  else if 0x8100 ≤ off ∧ off < 0x8140 then isPf f || seesPv s f ((off - 0x8100) / 16)
  else if 0xC0000 ≤ off ∧ off < 0xD0000 then seesOwner s f (s.pvOfCluster ((off - 0xC0000) / 4096))
  else if 0xE0100 ≤ off ∧ off < 0xE0120 then seesPv s f ((off - 0xE0100) / 8)
  else if 0xE0140 ≤ off ∧ off < 0xE0160 then seesPv s f ((off - 0xE0140) / 8)
  else if 0xF0000 ≤ off ∧ off < 0xF0020 then seesPv s f ((off - 0xF0000) / 8)
  else if (0xF0100 ≤ off ∧ off < 0xF1100) ∨ (0x110000 ≤ off ∧ off < 0x120000) ∨ (0x130000 ≤ off ∧ off < 0x150000) then
    (match entryOwner s off with | some q => seesPv s f q | none => false)
  else if 0x2000000 ≤ off then seesOwner s f (s.pvOfTile ((off - 0x2000000) / 0x4000))
  else isPf f

/-- BAR2 in the model's addresses, which follow BAR0's 64 MiB. -/
def bar2Base : Nat := 0x4000000

/-- A BAR2 read by function `n` (R421): the MSI-X table, a masked vector at reset (PCI Express), and the pending bits. Doorbells read as zero (DESIGN CHOICE,
log entry 35). -/
def bar2Read (s : State) (n off : Nat) : W64 :=
  if 0x8000 ≤ off ∧ off < 0x8400 then SMap.look (s.fn n).msix ((off - 0x8000) / 8) (if (off / 8) % 2 = 1 then 0x100000000 else 0)
  else if off = 0x9000 then (s.fn n).pendingVec.foldl (fun w v => setBits w v v 1) 0
  else 0

/-- A BAR0 read by a function (R420): zero where the table does not allow it. A read of BAR2 follows R421. -/
def hostRead (s : State) (f : Func) (off : Nat) : W64 :=
  if bar2Base ≤ off then bar2Read s (fnNum f) (off - bar2Base)
  else if 0x10000 ≤ off ∧ off < 0x11000 then mailRead s (fnNum f) (off - 0x10000)
  else if barVisible s f off then barRead s off
  else 0

end Sys2Proof.Machine
end

