-- ==== Sys2Proof/Machine/Front.lean ====
section
/-!
DEFINITION. Completion records and the rings that carry them (R303, R304, R348 to R350), a tenant's budget (R288, R293), and the end of a
request: its slots, its Icehouse pins, its last record (R305, R306).
-/

namespace Sys2Proof.Machine
open Sys2Proof

-- budgets (R287, R288, R293)

/-- A 48-bit two's-complement count. -/
def toInt48 (n : Nat) : Int := if n % 2 ^ 48 < 2 ^ 47 then (n % 2 ^ 48 : Nat) else (n % 2 ^ 48 : Nat) - 2 ^ 48

/-- The 48 bits of a budget, saturated at −2^47 and 2^47 − 1. -/
def ofInt48 (z : Int) : Nat :=
  let c := max (-(2 : Int) ^ 47) (min ((2 : Int) ^ 47 - 1) z)
  (if c < 0 then c + 2 ^ 48 else c).toNat

/-- A tenant's budget. -/
def budget (s : State) (n : Nat) : Int := toInt48 (s.rd (TS_TENANT_BUDGET_BUDGET n))

/-- A tenant's budget set. -/
def setBudget (s : State) (n : Nat) (z : Int) : State := s.wr (TS_TENANT_BUDGET_BUDGET n) (ofInt48 z)

/-- Prompt tokens are charged at admission (R293). -/
def chargePrompt (s : State) (n tokens : Nat) : State := (setBudget s n (budget s n - tokens)).inc (TS_TENANT_COUNT_PROMPT n) tokens

/-- Emitted tokens are charged when the emission is recorded (R293). -/
def chargeEmitted (s : State) (n tokens : Nat) : State := (setBudget s n (budget s n - tokens)).inc (TS_TENANT_COUNT_EMITTED n) tokens

-- completion records (R304)

/-- KIND of a completion record. -/
def kindTokens : Nat := 1
def kindFinal : Nat := 2
def kindRefused : Nat := 3

/-- What a completion record says; HOLDS and FRAME are taken when it is written. -/
structure CplRec where
  tag : Nat
  kind : Nat
  status : Nat
  accepted : Nat
  emptyRow : Bool
  maxReached : Bool
  stopped : Bool
  cancelledAt : Bool
  cancelled : Bool
  tokens : List Nat
  step : Nat
  tenant : Nat
  budget : Nat
  matched : Nat
  emitted : Nat
  deriving DecidableEq, Repr

/-- The words E0 to E7 of a record, HOLDS and FRAME zero. -/
def CplRec.words (c : CplRec) : List W64 :=
  let e0 := setBits (setBits (setBits (setBits (setBits (setBits (setBits (setBits (setBits 0 63 32 c.tag) 31 28 c.accepted) 27 27
    (ofBool c.emptyRow)) 26 26 (ofBool c.maxReached)) 25 25 (ofBool c.stopped)) 24 24 (ofBool c.cancelledAt)) 23 23 (ofBool c.cancelled)) 19 16
    c.tokens.length) 15 8 c.status
  [setBits e0 7 0 c.kind] ++ tokWords c.tokens ++
  [setBits 0 63 32 c.step, setBits (setBits 0 59 48 c.tenant) 47 0 c.budget, setBits (setBits 0 50 32 c.matched) 31 0 c.emitted, 0]

/-- A record as it is written: HOLDS and FRAME of this module now (R44, R304). -/
def stamped (s : State) (ws : List W64) : List W64 :=
  let w4 := setBits (ws.getD 4 0) 31 0 (s.rd SD_HOLD_COUNT_HOLDS)
  (ws.set 4 w4).set 7 (w64 s.frame)

/-- The write-back record (R355). -/
def writeBack (r : Rings) : List W64 := [setBits (setBits 0 31 0 r.reqCi.toNat) 63 32 r.cplPi.toNat, 0]

/-- The completion ring has room (R348). -/
def ringRoom (r : Rings) : Bool := (r.cplPi - r.cplCi).toNat < 2 ^ r.cplN

/-- A record is written to the completion ring: the entry, then CPL_PI, then the vector (R348). -/
def ringWrite (s : State) (q : Nat) (r : Rings) (ws : List W64) : State :=
  let at_ := r.cplBase + 64 * (r.cplPi.toNat % 2 ^ r.cplN)
  let r1 := { r with cplPi := r.cplPi + 1 }
  let s1 := ((s.emit (.hostWrite r.fn at_ (stamped s ws))).modFront q (fun f => { f with rings := some r1 })).emit
    (.hostWrite r.fn r.wb (writeBack r1))
  raiseVec s1 r.fn r.vector

/-- Records that the hold store keeps at most (R350). -/
def storeMax : Nat := 16384

/-- A record is ready (R350): to the ring, or behind the records that wait; a pavilion without rings has nowhere to send it. The flag says that the
store was full, so that the record is lost. -/
def putRecord (s : State) (q : Nat) (ws : List W64) : State × Bool :=
  let f := (s.pv q).front
  match f.rings with
  | none => (s, false)
  | some r =>
    if f.store.isEmpty && ringRoom r then (ringWrite s q r ws, false)
    else if storeMax ≤ f.store.length then (s, true)
    else
      let s1 := if (s.fn r.fn).rd MB_EVENT_CPL_WAIT = 0 then setEvent s r.fn 3 else s
      (s1.modFront q (fun f => { f with store := f.store ++ [ws] }), false)

/-- Held records move to the ring in order while it has room (R350). -/
def flushStore (q : Nat) : Nat → State → State
  | 0, s => s
  | n + 1, s =>
    let f := (s.pv q).front
    match f.rings, f.store with
    | some r, ws :: rest =>
      if ringRoom r then
        flushStore q n ((ringWrite s q r ws).modFront q (fun f => { f with store := rest }))
      else s
    | _, _ => s

/-- Meaning of COMPLETION_FLUSH. -/
def execCompletionFlush (q : Nat) (s : State) : Host.Outcome State Fault Refusal :=
  if q < 4 then .next (flushStore q (s.pv q).front.store.length s) else .fault (.noSuch "pavilion")

/-- The fields of a request that its record holds (R285). -/
def Req.a (r : Req) (n hi lo : Nat) : Nat := bits (r.words.getD n 0) hi lo
def Req.promptLen (r : Req) : Nat := r.a 2 18 0
def Req.maxTokens (r : Req) : Nat := r.a 2 47 32
def Req.depth (r : Req) : Nat := r.a 2 51 48
def Req.constrained (r : Req) : Bool := r.a 2 52 52 == 1
def Req.penPrompt (r : Req) : Nat := r.a 2 62 54

/-- A FINAL record without tokens of a request (R304): its STEP names no tokens, and its value is free, but the same for the same request after the
same tokens (R332, log entry 11). -/
def finalRec (s : State) (r : Req) (status : Nat) : CplRec :=
  { tag := r.tag, kind := kindFinal, status := status, accepted := 0, emptyRow := false, maxReached := false, stopped := false, cancelledAt := false,
    cancelled := r.cancelled, tokens := [], step := Config.finalStep r.words r.emitted, tenant := r.tenant, budget := s.rd (TS_TENANT_BUDGET_BUDGET r.tenant),
    matched := r.matched, emitted := r.emitted }

/-- A request ends with FINAL and COUNT 0. The flag says that the hold store overflowed. -/
def finish (s : State) (q : Nat) (r : Req) (status : Nat) : State × Bool := putRecord s q (finalRec s r status).words

-- the Icehouse's view of a request (R279)

/-- A request's pins end, and its pending entries are freed when it is aborted. -/
def dropPins (p : Pool) (tag : Nat) (aborted : Bool) : Pool :=
  let kept := p.index.filter (fun e => e.2.valid || !aborted || e.2.owner != tag)
  { p with index := kept.map (fun e => (e.1, { e.2 with pins := e.2.pins.filter (· != tag) })) }

/-- The pool of a pavilion changed. -/
def State.modPool (s : State) (q : Nat) (f : Pool → Pool) : State := s.modFront q (fun x => { x with pool := x.pool.map f })

/-- The pins of a request end at the lead of its pavilion's pool (R279), which is told of it where it is another module. -/
def unpin (s : State) (q tag : Nat) (aborted : Bool) : State :=
  match (s.pv q).front.pool with
  | none => s
  | some p => if p.lead = s.index then s.modPool q (fun p => dropPins p tag aborted) else s.tellWarden p.lead (.unpin q tag aborted)

/-- The draft module that serves a decode slot (R283). -/
def draftModule (i : Image) (decode : Nat) : Nat := i.deploy.drafts.getD decode 0

/-- The slots that an ended request leaves (R306): the draft module closes its draft slot; a target slot is closed by its own module. -/
def releaseSlots (s : State) (q : Nat) (r : Req) : State :=
  match r.dslot, (s.pv q).run.image with
  | some d, some i =>
    let m := draftModule i r.decode
    if m = s.index then closeSlot s d else s.tellWarden m (.closeSlot d)
  | _, _ => s

/-- Every live and waiting request of a pavilion ends (R343, R391, R393), each with its record; their slots close here and, by message, elsewhere. -/
def endRequests (s : State) (q status : Nat) : State :=
  let f := (s.pv q).front
  let s1 := (f.live ++ f.waiting).foldl (fun s r =>
    let s1 := releaseSlots (finish s q r status).1 q r
    let s2 := if (f.live.contains r) && r.sampler != s.index then s1.tellWarden r.sampler (.closeSlot r.tslot) else s1
    unpin s2 q r.tag true) s
  let s2 := s1.modFront q (fun f => { f with live := [], waiting := [], cancels := [], arrived := [], decisions := [], asks := [] })
  ((List.range 1024).filter (fun n => slotOpen s2 n && s2.rd (BS_SLOT_CFG_PAVILION n) == q)).foldl closeSlot s2

end Sys2Proof.Machine
end

