-- ==== Sys2Proof/Machine/Image.lean ====
section
/-!
DEFINITION. Krexel images (R309 to R319): their header, the checks of R312 and R353, placing an image, opening channels (R211), and the start of a
pavilion's tiles (R319, R344).
-/

namespace Sys2Proof
open Sys2Proof.Machine

/-- A field of a header word Y0 to Y7 (R310). -/
def Image.y (i : Image) (n hi lo : Nat) : Nat := bits (i.header.getD n 0) hi lo
def Image.frameLen (i : Image) : Nat := i.y 1 23 0
def Image.span (i : Image) : Nat := i.y 1 63 40
def Image.schedLat (i : Image) : Nat := i.y 2 63 48
def Image.maxDepth (i : Image) : Nat := i.y 2 43 40
def Image.oyWriteBytes (i : Image) : Nat := i.y 2 31 0
def Image.clusters (i : Image) : Nat := i.y 3 63 48
def Image.epochFrames (i : Image) : Nat := i.y 3 31 0
def Image.contextLen (i : Image) : Nat := i.y 4 50 32
def Image.vocab (i : Image) : Nat := i.y 4 18 0
def Image.frontModule (i : Image) : Nat := i.y 5 63 52
def Image.modules (i : Image) : Nat := i.y 5 51 39
def Image.winExtents (i : Image) : Nat := i.y 5 31 24
def Image.blockTable (i : Image) : Nat := i.y 6 37 0
def Image.sectionCount (i : Image) : Nat := i.y 7 63 32
def Image.relocCount (i : Image) : Nat := i.y 7 31 0

/-- The relocation records of every RELOC section, in order (R314). -/
def Image.relocs (i : Image) : List (W64 × W64) :=
  i.sections.flatMap (fun s => match s with | .reloc rs => rs | _ => [])

/-- TYPE of a section (R311). -/
def Section.code : Section → Nat
  | .tileData .. => 1
  | .fcInitial .. => 2
  | .tileConfig .. => 3
  | .channels _ => 4
  | .lodge .. => 5
  | .reloc _ => 6
  | .counters _ => 7
  | .barriers _ => 8
  | .bad n => n

/-- The bytes that a section's contents take, as far as the spec gives them a layout (R311, R314). -/
def Section.bytes : Section → Option Nat
  | .tileData _ _ _ b => some b.length
  | .fcInitial _ _ _ b => some b.length
  | .reloc rs => some (16 * rs.length)
  | _ => none

/-- A field of a directory entry's S0 (R311). -/
def dirField (d : W64 × W64) (hi lo : Nat) : Nat := bits d.1 hi lo

/-- A directory entry names its section rightly (R309, R311): its type, its logical tile, AUX and LINE, its length, and an offset past the directory
that is a multiple of 64. -/
def dirOk (count : Nat) (d : W64 × W64) (s : Section) : Bool :=
  let tile := fun (a b aux line : Nat) => dirField d 55 52 == a && dirField d 51 48 == b && dirField d 47 44 == aux && dirField d 43 32 == line
  dirField d 63 56 == s.code && d.2.toNat % 64 == 0 && 64 + 16 * count ≤ d.2.toNat
    && (match s.bytes with | some n => dirField d 31 0 == n | none => true)
    && (match s with
      | .tileData a b line _ => tile a b 0 line
      | .fcInitial a b pair _ => tile a b pair (dirField d 43 32)
      | .tileConfig a b _ _ _ _ => dirField d 55 52 == a && dirField d 51 48 == b && dirField d 47 44 == 0
      | .lodge k _ _ => dirField d 47 44 == k
      | _ => dirField d 47 44 == 0)

/-- Two sections do not overlap in the image. -/
def dirApart (x y : W64 × W64) : Bool :=
  x.2.toNat + dirField x 31 0 ≤ y.2.toNat || y.2.toNat + dirField y 31 0 ≤ x.2.toNat

/-- The header's counts, the directory and the sections agree (R309 to R311). -/
def Image.directoryOk (i : Image) : Bool :=
  i.sectionCount == i.dir.length && i.dir.length == i.sections.length && i.relocCount == i.relocs.length
    && (i.dir.zip i.sections).all (fun x => dirOk i.dir.length x.1 x.2) && decide (i.dir.Pairwise (fun x y => dirApart x y = true))

/-- R25: L lies from 80,000 to 16,000,000, and at least 3 % of it is left. -/
def Machine.frameOk (l w : Nat) : Bool := 80000 ≤ l && l ≤ 16000000 && w + ceilDiv (3 * l) 100 ≤ l

/-- The image uses the cluster of logical tile `t`. -/
def Image.uses (i : Image) (t : Nat) : Bool := t < 256 && i.clusters.testBit (clusterOf t)

/-- The values of a tile's TILE_CONFIG sections, in order. -/
def Image.config (i : Image) (t : Nat) : List (Nat × W64) :=
  i.sections.flatMap (fun s => match s with
    | .tileConfig a b regs _ _ _ => if 16 * a + b = t then regs else []
    | _ => [])

/-- START_EVEN, START_ODD and HANDLER_ENTRIES of a tile, if the image configures it. -/
def Image.starts (i : Image) (t : Nat) : Option (Nat × Nat × Nat) :=
  i.sections.findSome? (fun s => match s with
    | .tileConfig a b _ e o h => if 16 * a + b = t then some (e, o, h) else none
    | _ => none)

/-- A configured register of a tile, its Reset value where the image gives none. -/
def Image.reg (i : Image) (t : Nat) (f : Fld) : Nat :=
  bits ((((i.config t).reverse.find? (fun r => r.1 == f.off)).map (·.2)).getD (w64 (rowVal resetsTile f.off))) f.hi f.lo

/-- Lines that lie inside the window that the image gives a tile. -/
def Image.inWindow (i : Image) (t line n : Nat) : Bool :=
  i.reg t TL_SP_WINDOW_LO_LINE ≤ line && line + n ≤ i.reg t TL_SP_WINDOW_HI_LINE + 1 && line + n ≤ 4096

/-- Registers that TILE_CONFIG may name (R311). -/
def Machine.configurable (off : Nat) : Bool :=
  off == TL_SP_WINDOW_OFF || (List.range 4).any (fun n => off == TL_SP_BANK_OFF n || off == TL_FC_OFF n)

/-- Every CHANNELS entry of the image. -/
def Image.channels (i : Image) : List ChanEntry :=
  i.sections.flatMap (fun s => match s with | .channels es => es | _ => [])

/-- The barrier symbols of the image, in order: scope and participants. -/
def Image.symbols (i : Image) : List (Bool × List (Nat × Nat)) :=
  i.sections.flatMap (fun s => match s with | .barriers es => es | _ => [])

/-- The bytes that TILE_DATA sections write at a scratchpad byte address of a tile, the last section first. -/
def Image.dataAt (i : Image) (t a : Nat) : Option Byte :=
  i.sections.foldl (fun acc s => match s with
    | .tileData r c line b => if 16 * r + c = t ∧ 512 * line ≤ a ∧ a < 512 * line + b.length then b[a - 512 * line]? else acc
    | _ => acc) none

/-- A word of a tile's TILE_DATA as compiled. -/
def Image.wordAt (i : Image) (t a : Nat) : W64 := w64 (leNat ((List.range 8).map (fun k => (i.dataAt t (a + k)).getD 0)))

-- the checks of R312

/-- A section is well formed, lies inside its tile's window, and names tiles of the image's clusters; `me` is this module. -/
def Image.sectionOk (i : Image) (me : Nat) : Section → Bool
  | .tileData a b line bytes => a < 16 && b < 16 && i.uses (16 * a + b) && bytes.length % 512 == 0 && i.inWindow (16 * a + b) line (bytes.length / 512)
  | .fcInitial a b pair bytes =>
    let t := 16 * a + b
    a < 16 && b < 16 && pair < 4 && i.uses t && bytes.length % 512 == 0 && i.reg t (TL_FC_VALID pair) == 1
      && bytes.length / 512 ≤ i.reg t (TL_FC_LINES pair)
      && i.inWindow t (i.reg t (TL_FC_LO_LINE pair)) (2 * i.reg t (TL_FC_LINES pair))
  | .tileConfig a b regs e o h =>
    a < 16 && b < 16 && i.uses (16 * a + b) && regs.all (fun r => configurable r.1) && e < 0x8000 && o < 0x8000 && h < 16
  | .channels _ => true
  | .lodge k p d => k < 16 && i.clusters.testBit k && p.length ≤ 65536 && d.length ≤ 65536
  | .counters es => es.all (fun e => i.uses e.1 && e.2.1 < 64)
  | .reloc _ => true
  | .barriers es => es.all (fun e => e.2.all (fun x => x.1 != me || i.uses x.2))
  | .bad _ => false

/-- A channel pair with an end on this module (R211, R213, R216). -/
def Image.chanOk (i : Image) (me : Nat) (c : ChanEntry) : Bool :=
  let sends := c.sMod == me
  let recvs := c.rMod == me
  let slotsOf := fun (t : Nat) =>
    ((i.channels.filter (fun x => x.rMod == me && x.rTile == t && x.kind == 1)).map (fun x => x.slots / 2)).foldl (· + ·) 0
  (sends || recvs) && c.kind < 3 && c.sChan < 32 && c.rChan < 32 && c.sTile < 256 && c.rTile < 256 && c.base % 8 == 0 && c.slots % 8 == 0
    && (!sends || i.uses c.sTile) && (!recvs || (i.uses c.rTile && i.inWindow c.rTile (c.base / 8) (c.slots / 8) && slotsOf c.rTile ≤ 64))
    && c.port < 16 && (match c.ctr with | some n => n < 64 | none => true)

/-- A relocation record (R314). -/
def Image.relocOk (i : Image) (r : W64 × W64) : Bool :=
  let kind := bits r.1 63 56
  let t := 16 * bits r.1 55 52 + bits r.1 51 48
  let d := bits r.1 14 0
  i.uses t && i.inWindow t (d / 8) 1 && bits r.1 39 16 == 0 && bits r.2 31 0 == 0 &&
    (if kind = 1 then bits r.1 47 40 < i.symbols.length && bits r.1 15 15 == 0 && bits r.2 63 32 == 0
        && bits (i.wordAt t (64 * d)) 7 0 == opCtBarrier
     else (kind == 2 || kind == 3) && bits r.1 47 40 == 0)

/-- The logical tiles whose routers a route passes. -/
def Machine.routeTiles (a b : Nat) : List Nat := a :: b :: (route a b).map (·.1)

/-- R210: every link of a scheduled channel's route lies inside the pavilion's clusters. -/
def Machine.schedRouteOk (clusters me : Nat) (c : ChanEntry) : Bool :=
  let inside := fun (t : Nat) => clusters.testBit (clusterOf t)
  if !c.sched then true
  else if c.sMod ≠ me then true
  else if c.rMod ≠ me then (routeTiles c.sTile (portRouter c.port)).all inside
  else (routeTiles c.sTile c.rTile).all inside && (c.kind != 2 || (routeTiles c.rTile c.sTile).all inside)

/-- Barrier entries that a pavilion may be granted: the free ones, and its own, which a new image gives back. -/
def Machine.freeBarriers (s : State) (q : Nat) : List Nat :=
  (List.range 64).filter (fun e => (s.barrier e).pv.isNone || (s.barrier e).pv == some q)

/-- The first failure of an image, as DETAIL and status (R353). -/
def Machine.imageCheck (s : State) (q : Nat) (i : Image) : Option (Nat × Nat) :=
  let pv := (s.pv q).res
  if i.y 0 63 32 ≠ 0x4B525845 ∨ i.y 0 31 16 ≠ 3 then some (0x0101, stBadArgument)
  else if s.gate.version < i.y 0 15 0 then some (0x0102, stBadArgument)
  else if i.frameLen ≠ s.frameLen ∨ i.span ≠ s.span ∨ !frameOk i.frameLen i.span then some (0x0103, stBadArgument)
  else if i.schedLat ≠ s.rd (FB_LINK_SCHED_LAT 0) then some (0x0104, stBadArgument)
  else if (List.range 16).any (fun k => i.clusters.testBit k && !pv.clusters.testBit k) then some (0x0105, stBadArgument)
  else if 8 < i.maxDepth ∨ i.vocab = 0 ∨ 262144 < i.vocab ∨ i.epochFrames < 2 ∨
      i.sections.any (fun x => match x with
        | .counters es => es.any (fun e => 0xFFFFFF00 < i.epochFrames * e.2.2)
        | _ => false) then some (0x0106, stBadArgument)
  else if !(i.directoryOk && i.sections.all (i.sectionOk s.index) && i.channels.all (i.chanOk s.index) && i.relocs.all i.relocOk) then some (0x0107, stBadArgument)
  else if !i.channels.all (schedRouteOk pv.clusters s.index) then some (0x0108, stBadArgument)
  else if pv.quota * 0x80000 < i.oyWriteBytes then some (0x0201, stNoResource)
  else if pv.winExtents < i.winExtents then some (0x0202, stNoResource)
  else if (freeBarriers s q).length < i.symbols.length then some (0x0203, stNoResource)
  else none

-- placing an image

/-- The barrier entries of a pavilion go back to the common pool. -/
def Machine.freePvBarriers (s : State) (q : Nat) : State :=
  let mine := (List.range 64).filter (fun e => (s.barrier e).pv == some q)
  (mine.foldl (fun s e => s.setBarrier e Barrier.reset) s).modRun q (fun r => { r with barriers := [] })

/-- A barrier entry is granted for each symbol, its total cleared (R170, R314). -/
def Machine.grantBarriers (s : State) (q : Nat) (i : Image) : State :=
  let s0 := freePvBarriers s q
  let pairs := i.symbols.zip (freeBarriers s0 q)
  let s1 := pairs.foldl (fun s x => s.setBarrier x.2 { Barrier.reset with pv := some q, machine := x.1.1, peers := (x.1.2.map (·.1)).eraseDups }) s0
  s1.modRun q (fun r => { r with barriers := (List.range pairs.length).map (fun k => (k, ((pairs.map (·.2)).getD k 0))) })

/-- Relocation records of one tile. -/
def Image.relocsOf (i : Image) (t : Nat) : List (W64 × W64) :=
  i.relocs.filter (fun r => 16 * bits r.1 55 52 + bits r.1 51 48 == t)

/-- The scratchpad of a tile with its TILE_DATA and the BARRIER records applied (R311, R314). -/
def Image.tileBytes (i : Image) (barriers : SMap Nat) (t : Nat) (m : Mem) : Mem :=
  let m1 := i.sections.foldl (fun m x => match x with
    | .tileData a b line bytes => if 16 * a + b = t then Mem.wrN m (512 * line) bytes else m
    | _ => m) m
  (i.relocsOf t).foldl (fun m r =>
    if bits r.1 63 56 = 1 then
      let at_ := 64 * bits r.1 14 0 + 24
      Mem.wrLe m at_ 8 (setBits (w64 (Mem.rdLe m at_ 8)) 5 0 (SMap.look barriers (bits r.1 47 40) 0)).toNat
    else m) m1

/-- One logical tile's sections are loaded into the physical tile that holds it (R313). -/
def Machine.placeTile (s : State) (q : Nat) (i : Image) (t : Nat) : State :=
  s.modTile (s.phys t) (fun x =>
    let x1 := (i.config t).foldl (fun (x : Tile) r => x.setReg r.1 (merged (x.regW r.1) r.2 (w64 (rowVal rwTile r.1)) 0)) x
    { x1 with sp := i.tileBytes (s.pv q).run.barriers t x1.sp })

/-- Channel counters are cleared when CFG is written (R222). -/
def Machine.Tile.chanCfg (x : Tile) (send : Bool) (n : Nat) (cfg : W64) : Tile :=
  if send then ((x.setReg (TW_SEND_CFG_OFF n) cfg).setReg (TW_SEND_CNT0_OFF n) 0).setReg (TW_SEND_CNT1_OFF n) 0
  else (((x.setReg (TW_RECV_CFG_OFF n) cfg).setReg (TW_RECV_CNT0_OFF n) 0).setReg (TW_RECV_CNT1_OFF n) 0).setReg (TW_RECV_CNT2_OFF n) 0

/-- The receive end of a pair opens: GEN one greater than the last (R211), and RPTR 0 (DESIGN CHOICE, log entry 27). -/
def Machine.openRecv (s : State) (c : ChanEntry) : State :=
  s.modTile (s.phys c.rTile) (fun x =>
    let cfg := packed [(TW_RECV_CFG_KIND 0, c.kind), (TW_RECV_CFG_REMOTE 0, ofBool (c.sMod != c.rMod)), (TW_RECV_CFG_SRC_MODULE 0, c.sMod),
      (TW_RECV_CFG_SRC_I 0, c.sTile / 16), (TW_RECV_CFG_SRC_J 0, c.sTile % 16), (TW_RECV_CFG_SRC_SCHAN 0, c.sChan), (TW_RECV_CFG_SLOTS 0, c.slots),
      (TW_RECV_CFG_BASE 0, c.base)] 0
    (x.chanCfg false c.rChan cfg).setReg (TW_RECV_STATE_OFF c.rChan)
      (packed [(TW_RECV_STATE_GEN 0, x.rd (TW_RECV_STATE_GEN c.rChan) + 1), (TW_RECV_STATE_OPEN 0, 1)] 0))

/-- The send end of a pair opens with its receiver's GEN (R211); the GEN of a receiver on another module is what that module's Warden says: a free
value (log entry 11). -/
def Machine.openSend (s : State) (c : ChanEntry) : State :=
  let remote := c.sMod != c.rMod
  let gen := if remote then Config.freeNat s.free else (s.tile (s.phys c.rTile)).rd (TW_RECV_STATE_GEN c.rChan)
  let s1 := if remote then s.drawn else s
  s1.modTile (s.phys c.sTile) (fun x =>
    let cfg := packed [(TW_SEND_CFG_KIND 0, c.kind), (TW_SEND_CFG_REMOTE 0, ofBool remote), (TW_SEND_CFG_SCHED_OK 0, ofBool c.sched),
      (TW_SEND_CFG_PORT 0, c.port), (TW_SEND_CFG_DEST_MODULE 0, c.rMod), (TW_SEND_CFG_DEST_I 0, c.rTile / 16), (TW_SEND_CFG_DEST_J 0, c.rTile % 16),
      (TW_SEND_CFG_DEST_RCHAN 0, c.rChan), (TW_SEND_CFG_SLOTS 0, c.slots), (TW_SEND_CFG_BASE 0, c.base)] 0
    (x.chanCfg true c.sChan cfg).setReg (TW_SEND_STATE_OFF c.sChan)
      (packed [(TW_SEND_STATE_DEST_GEN 0, gen), (TW_SEND_STATE_CREDIT_CTR_EN 0, ofBool c.ctr.isSome), (TW_SEND_STATE_CREDIT_CTR 0, c.ctr.getD 0),
        (TW_SEND_STATE_OPEN 0, 1), (TW_SEND_STATE_CREDITS 0, if c.kind = 2 then 0 else c.slots)] 0))

/-- The ends of a pair that lie on this module are open. -/
def Machine.pairOpen (s : State) (c : ChanEntry) : Bool :=
  (c.rMod != s.index || (s.tile (s.phys c.rTile)).rd (TW_RECV_STATE_OPEN c.rChan) == 1)
    && (c.sMod != s.index || (s.tile (s.phys c.sTile)).rd (TW_SEND_STATE_OPEN c.sChan) == 1)

/-- A pair opens, receiver first (R211). -/
def Machine.openPair (s : State) (c : ChanEntry) : State :=
  let s1 := if c.rMod = s.index then openRecv s c else s
  if c.sMod = s.index then openSend s1 c else s1

/-- The Lodge program of a cluster is loaded into a core held in reset (R254): the Warden writes both SRAMs whole, so that nothing of an earlier
context stays. -/
def Machine.placeLodge (s : State) (i : Image) (k : Nat) : State :=
  i.sections.foldl (fun s x => match x with
    | .lodge c p d => if c = k then (let s1 := setRun s k false; s1.setLodge k { s1.lodge k with isram := Mem.wrN [] 0 p, dsram := Mem.wrN [] 0 d }) else s
    | _ => s) s

/-- The sections of one cluster are placed. -/
def Machine.placeCluster (s : State) (q : Nat) (i : Image) (k : Nat) : State :=
  placeLodge ((tilesOf k).foldl (fun s t => placeTile s q i t) s) i k

/-- An image is placed (R313, R314): barriers granted, every cluster's sections, every channel pair. -/
def Machine.placeImage (s : State) (q : Nat) (i : Image) : State :=
  let s1 := grantBarriers s q i
  let s2 := ((List.range 16).filter (fun k => i.clusters.testBit k)).foldl (fun s k => placeCluster s q i k) s1
  (i.channels.foldl openPair s2).modRun q (fun r => { r with image := some i })

-- starting a context

/-- The wait fields that REBASE records give a tile's copies for frame `f` of a context whose first frame is `f0`: the copy of `f`'s parity takes
its value for `f`, the other one its value for `f + 1` (R314, R319, R322, R387). -/
def Machine.rebased (i : Image) (t f f0 : Nat) (m : Mem) : Mem :=
  (i.relocsOf t).foldl (fun m r =>
    let kind := bits r.1 63 56
    if kind = 2 ∨ kind = 3 then
      let at_ := 64 * bits r.1 14 0 + 8 + (if kind = 3 then 4 else 0)
      let base := bits (i.wordAt t (64 * bits r.1 14 0 + 8)) (if kind = 3 then 63 else 31) (if kind = 3 then 32 else 0)
      let g := if bits r.1 15 15 = f % 2 then f else f + 1
      Mem.wrLe m at_ 4 (base + bits r.2 63 32 * ((g - f0) % i.epochFrames))
    else m) m

/-- FC_INITIAL sections land in the read half of the first frame (R316, R319). -/
def Machine.placeInitial (i : Image) (t f0 : Nat) (x : Tile) : Tile :=
  i.sections.foldl (fun (x : Tile) e => match e with
    | .fcInitial a b pair bytes =>
      if 16 * a + b = t then { x with sp := Mem.wrN x.sp (512 * (fcHalf x pair ((f0 + 1) % 2)).1) bytes } else x
    | _ => x) x

/-- The next epoch of a tile is armed (R324). -/
def Machine.Tile.arm (x : Tile) (f : Nat) : Tile := (x.wr TL_EPOCH_ARM 1).wr TL_EPOCH_FRAME f

/-- A tile's contents for its first frame (R319). -/
def Machine.prepareTile (s : State) (i : Image) (t f0 : Nat) : State :=
  s.modTile (s.phys t) (fun x => let x1 := placeInitial i t f0 x; { x1 with sp := rebased i t f0 f0 x1.sp })

/-- A Warden message reaches a Lodge core (R294, R345): it waits, and LG_IRQ.WARDEN is set. -/
def Machine.tellLodge (s : State) (k : Nat) (m : LodgeMsg) : State :=
  s.setLodge k { (s.lodge k).raise LG_IRQ_WARDEN with msgs := (s.lodge k).msgs ++ [m] }

/-- The clusters whose Lodge core has a program. -/
def Image.lodges (i : Image) : List Nat :=
  (List.range 16).filter (fun k => i.sections.any (fun x => match x with | .lodge c _ _ => c == k | _ => false))

/-- The Lodge programs are loaded afresh, and the cores run and hear of the first frame (R254, R345). -/
def Machine.startLodges (s : State) (i : Image) (f0 : Nat) : State :=
  i.lodges.foldl (fun s k => tellLodge (setRun (placeLodge s i k) k true) k (.firstFrame f0)) s

/-- The tiles that an image configures, the ones that its context runs on. -/
def Image.tiles (i : Image) : List Nat := (List.range 256).filter (fun t => (i.starts t).isSome)

/-- The next epoch is armed on every tile of the pavilion (R324). -/
def Machine.armAll (s : State) (q f : Nat) : State := (s.pvTiles q).foldl (fun s p => s.modTile p (fun x => x.arm f)) s

/-- RUN takes effect between the two ticks that precede f₀ (R344): closed channels reopen, every tile is written, its next epoch armed. -/
def Machine.startContexts (s : State) (q : Nat) (i : Image) (f0 : Nat) : State :=
  let s1 := (i.channels.filter (fun c => !pairOpen s c)).foldl openPair s
  let s2 := i.tiles.foldl (fun s t =>
    match i.starts t with
    | none => s
    | some (e, o, h) =>
      startTile (prepareTile s i t f0) (s.phys t) (if f0 % 2 = 0 then e else o) h) s1
  startLodges (armAll s2 q (f0 + i.epochFrames)) i f0

/-- RESUME takes effect between the two ticks that precede R (R345): each tile starts at its recorded head. -/
def Machine.resumeContexts (s : State) (q : Nat) (i : Image) (heads : SMap Nat) (r : Nat) : State :=
  let s1 := i.tiles.foldl (fun s t =>
    match i.starts t with
    | none => s
    | some (_, _, h) => startTile s (s.phys t) (SMap.look heads t 0) h) s
  i.lodges.foldl (fun s k => tellLodge s k (.firstFrame r)) (armAll s1 q (r + i.epochFrames))

end Sys2Proof
end

