-- ==== Sys2Proof/Machine/Contexts.lean ====
section
/-!
DEFINITION. The crash dump (R396, R398 to R400), stopping and aborting a pavilion's contexts (R391), orphan notices (R392), and the cluster reset
(R395).
-/

namespace Sys2Proof.Machine
open Sys2Proof

-- crash dump causes (R399)
def causeCaught : Nat := 1
def causeWaitBroken : Nat := 2
def causeRanger : Nat := 3
def causeReplayLimit : Nat := 4
def causeDataLost : Nat := 5
def causeLodge : Nat := 6
def causeRepair : Nat := 7
def causeAlignLost : Nat := 8
def causeHost : Nat := 9
def causeEscalation : Nat := 10
def causeHoldStore : Nat := 11
def causeWarden : Nat := 12

/-- Words at a run of offsets, eight bytes apart. -/
def wordsAt (base : Nat) (ws : List W64) : List (Nat × W64) := (List.range ws.length).map (fun k => (base + 8 * k, ws.getD k 0))

/-- A window state word (R400). -/
def windowWord (e : WinEntry) : W64 :=
  setBits (setBits (setBits (setBits (setBits 0 63 63 1) 62 60 e.unit) 59 59 (ofBool e.handler)) 58 44 e.addr) 23 0 e.issuedAt

/-- A scratchpad word that the Warden reads for a dump and finds uncorrectable (R353): a site that an error has been found at and no read has found clean
since (log entry 23). -/
def wordBad (s : State) (p word : Nat) : Bool := (s.replay.sites ++ s.replay.lasting).any (fun x => x.kind == siteSp && x.place == p && x.addr == word)

/-- The descriptor at a head, as fetched or, where its line is not buffered, as the scratchpad holds it, an uncorrectable word as zero (R353). -/
def headWords (s : State) (p : Nat) (d : Option Desc) (head : Nat) : List W64 :=
  match d with
  | some d => d.words
  | none => (List.range 8).map (fun k => if wordBad s p (8 * head + k) then 0 else w64 (Mem.rdLe (s.tile p).sp (64 * head + 8 * k) 8))

/-- The uncorrectable words that a tile's record reads. -/
def unreadWords (s : State) (p : Nat) : List (Nat × Nat) :=
  let q := (s.tile p).seq
  let heads := (if (mainHead q).isNone then [q.head] else []) ++ (match q.handler with | some h => if (handlerHead q).isNone then [h.head] else [] | none => [])
  heads.flatMap (fun h => ((List.range 8).filter (fun k => wordBad s p (8 * h + k))).map (fun k => (p, 8 * h + k)))

/-- An entry of a dump's list of unread words (R399). -/
def unreadEntry (x : Nat × Nat) : W64 := setBits (setBits (setBits 0 63 55 x.1) 54 43 (x.2 / 64)) 42 37 (x.2 % 64)

/-- The registers that a tile record copies, in its order (R400). -/
def dumpRegs : List Nat :=
  [TL_SEQ_CONFIG_OFF, TL_SEQ_STATUS_OFF, TL_FAULT_OFF, TL_FAULT_INFO_OFF, TL_ISSUE_CNT_OFF, TL_RP_HEAD_OFF, TL_MX_STATUS_OFF, TL_MX_STATS_OFF] ++
  [TL_VX_STATUS_OFF, TL_VX_STATS_OFF, TL_SP_WINDOW_OFF, TL_SP_ECC_OFF, TL_SP_ERRLOG_OFF, TL_SP_STALL_OFF] ++ (List.range 4).map TL_SP_BANK_OFF ++
  [TL_TR_CTRL_OFF, TL_TR_ECC_OFF, TL_TR_ERRLOG_OFF] ++ (List.range 4).map TL_FC_OFF ++
  [TL_FC_STATUS_OFF, TL_EPOCH_OFF, TW_HANDLER_OFF, TW_HQ_OFF, TW_COLLISION_OFF]

/-- A handler-queue entry in a dump (R400). -/
def hqWords (e : HqEntry) : List W64 :=
  [packed [(TW_HANDLER_ACTIVE, 1), (TW_HANDLER_RCHAN, e.rchan), (TW_HANDLER_N, e.n), (TW_HANDLER_PAD, e.pad), (TW_HANDLER_POS, e.pos)] 0,
   setBits 0 14 0 e.handler]

/-- A tile record (R400). -/
def tileRecord (s : State) (p : Nat) : List (Nat × W64) :=
  let t := s.tile p
  let l := s.logical p
  let w0 := setBits (setBits (setBits (setBits 0 63 55 p) 54 51 (l.getD 0 / 16)) 50 47 (l.getD 0 % 16)) 46 46 (ofBool l.isSome)
  [(0, w0)] ++ wordsAt 0x8 (dumpRegs.map (tileRead s p))
    ++ wordsAt 0x100 ((List.range 8).map (fun m => SMap.look t.vx.m m 0))
    ++ wordsAt 0x200 ((List.range 64).map (tcWord t))
    ++ wordsAt 0x400 ((List.range 64).map (fun n => w64 (SMap.look t.tick.tc n 0).toNat))
    ++ wordsAt 0x600 (headWords s p (mainHead t.seq) t.seq.head)
    ++ (match t.seq.handler with | some h => wordsAt 0x640 (headWords s p (handlerHead t.seq) h.head) | none => [])
    ++ wordsAt 0x800 (t.seq.window.flatMap (fun e => e.desc.words)) ++ wordsAt 0x1000 (t.seq.window.map windowWord)
    ++ (List.range 32).flatMap (fun n => wordsAt (0x1100 + 32 * n) ((List.range 4).map (fun k => t.regW (TW_SEND_CFG_OFF n + 8 * k))))
    ++ (List.range 32).flatMap (fun n => wordsAt (0x1500 + 40 * n) ((List.range 5).map (fun k => t.regW (TW_RECV_CFG_OFF n + 8 * k))))
    ++ wordsAt 0x1A00 (t.seq.hq.flatMap hqWords)

/-- A Lodge record (R398). -/
def lodgeRecord (s : State) (k : Nat) : List W64 :=
  let l := s.lodge k
  [LG_CTRL_OFF, LG_STATUS_OFF, LG_IRQ_OFF, LG_ERR_OFF, LG_FRAME_OFF].map (lodgeRead s k) ++ (List.range 8).map (fun n => l.regW (LG_WATCH_OFF n))
    ++ [SMap.look l.csr 0x341 0, SMap.look l.csr 0x342 0, SMap.look l.csr 0x343 0, SMap.look l.csr 0x300 0]

/-- Flits of a class that wait in a port's ingress buffer. -/
def ingressHeld (q : Port) (cls : Nat) : Nat :=
  ((q.inbound.filter (fun e => e.tr.cls == cls)).map (fun e => e.got - flitsGone e)).foldl (· + ·) 0

/-- A port record (R398). The places of the last words are a DESIGN CHOICE (log entry 23). -/
def portRecord (s : State) (p : Nat) : List W64 :=
  let q := s.port p
  [s.regW (FB_STATUS_OFF p), s.regW (FB_EVENT_OFF p), s.regW (FB_ERR_OFF p), s.regW (FB_TRAFFIC_TX_OFF p), s.regW (FB_TRAFFIC_RX_OFF p),
   setBits (setBits (setBits (setBits 0 11 0 (SMap.look q.credits 0 0)) 27 16 (SMap.look q.credits 1 0)) 43 32 (2048 - ingressHeld q 0)) 59 48
     (2048 - ingressHeld q 1),
   setBits (setBits 0 31 0 (q.txSeq + 4294967295)) 46 32 (q.txSeq + 4294967295 - q.resend.length), w64 q.resend.length]

/-- The physical tiles of a dump: those that hold the logical tiles of its clusters, or every physical tile for the whole die. -/
def dumpTiles (s : State) (clusters : List Nat) : List Nat :=
  if clusters.length = 16 then allTiles
  else allTiles.filter (fun p => match s.logical p with | some t => clusters.contains (clusterOf t) | none => false)

/-- The header of a dump (R399). -/
def dumpHeader (s : State) (cause action pv tile : Nat) (clusters tiles : List Nat) : List (Nat × W64) :=
  let d3 := setBits (setBits (setBits (setBits (setBits 0 63 60 cause) 59 57 action) 55 54 pv) 47 32
    ((clusters.map (fun k => 2 ^ k)).foldl (· + ·) 0)) 8 0 tile
  let unread := tiles.flatMap (unreadWords s)
  let rings := (List.range 4).flatMap (fun q => match (s.pv q).front.rings with
    | some r => [setBits (setBits 0 31 0 r.reqPi.toNat) 63 32 r.reqCi.toNat, setBits (setBits 0 31 0 r.cplCi.toNat) 63 32 r.cplPi.toNat]
    | none => [0, 0])
  wordsAt 0 ([setBits (setBits (setBits 0 63 32 0x43444D50) 31 16 1) 15 0 0x0402, w64 (s.dumps.seq + 1), w64 s.frame, d3,
      setBits (setBits (setBits (setBits 0 63 48 tiles.length) 47 40 clusters.length) 39 32 16) 31 0 unread.length, s.regW SD_HOLD_COUNT_OFF, s.regW SD_LAST_HOLD_OFF,
      s.regW RG_LAST_REPLAY_OFF] ++ rings) ++ wordsAt 128 ((unread.take 32).map unreadEntry)

/-- Every word of a dump (R398). -/
def dumpWords (s : State) (cause action pv tile : Nat) (clusters : List Nat) : List (Nat × W64) :=
  let tiles := dumpTiles s clusters
  dumpHeader s cause action pv tile clusters tiles
    ++ (List.range tiles.length).flatMap (fun n => (tileRecord s (tiles.getD n 0)).map (fun w => (0x1000 + 0x2000 * n + w.1, w.2)))
    ++ clusters.flatMap (fun k => wordsAt (0x300000 + 0x100 * k) (lodgeRecord s k))
    ++ (List.range 16).flatMap (fun p => wordsAt (0x301000 + 0x40 * p) (portRecord s p))
    ++ wordsAt 0x302000 ([s.regW OY_STATUS_OFF, s.regW OY_ERRLOG_OFF] ++ (List.range 4).map (fun q => s.regW (OY_PV_CFG_OFF q))
        ++ (List.range 4).map (fun q => barRead s (OY_PV_COMMIT_OFF q)) ++ [barRead s BS_STATUS_OFF, s.regW BS_STATS_OFF, barRead s SD_STATUS_OFF, lagWord s])

/-- The crash dump is collected into the next slot (R396, R398), and RG_STATUS.LAST_CAUSE follows; none is collected in HALTED (R396). -/
def collectDump (s : State) (cause action pv tile : Nat) (clusters : List Nat) : State :=
  if s.gate.phase = phaseHalted then s else
  let ws := (dumpWords s cause action pv tile clusters).filter (fun w => w.2 != 0)
  let body : SMap W64 := ws.foldl (fun m w => SMap.put m w.1 w.2) []
  let s1 : State := { s with dumps := { slots := SMap.put s.dumps.slots s.dumps.next body, next := (s.dumps.next + 1) % 16, seq := s.dumps.seq + 1 } }
  s1.wr RG_STATUS_LAST_CAUSE cause

/-- The dumps that one collection adds: none in HALTED (R396). -/
def dumpsAdded (s : State) : Nat := if s.gate.phase = phaseHalted then 0 else 1

-- stopping a context

/-- The modules whose contexts share a channel pair or a machine-scope barrier with a pavilion (R392). -/
def peerModules (s : State) (q : Nat) : List Nat :=
  match (s.pv q).run.image with
  | none => []
  | some i =>
    let ms := i.channels.flatMap (fun c => [c.sMod, c.rMod]) ++ (i.symbols.filter (·.1)).flatMap (fun b => b.2.map (·.1))
    (ms.filter (· != s.index)).eraseDups

/-- Orphan notices leave for every peer (R392). -/
def sendOrphans (s : State) (q : Nat) : State := (peerModules s q).foldl (fun s m => s.emit (.orphan m q)) s

/-- A Lodge core is held in reset, its SRAM kept (R391). -/
def haltLodge (s : State) (k : Nat) : State := s.setLodge k { (s.lodge k).wr LG_CTRL_RUN 0 with wfi := false }

/-- Pending Icehouse entries of a pavilion are freed, and its pins end (R279). -/
def freePending (p : Pool) : Pool := { p with index := (p.index.filter (·.2.valid)).map (fun e => (e.1, { e.2 with pins := [] })) }

/-- A pavilion's contexts stop (R391 step 2). -/
def stopContext (s : State) (q : Nat) : State :=
  let s1 := (s.pvTiles q).foldl stopTile s
  let s2 := (s.pvClusters q).foldl haltLodge s1
  let s3 := (s.pvTiles q).foldl closeChannels s2
  let s4 := (commitDrop s3 (· == q)).modPool q freePending
  let s5 := s4.modRun q (fun r => { r with startAt := none, pause := none, stopAt := none, drained := false })
  sendOrphans s5 q

/-- A staging command ends (R370): its slice is freed unless it ends with DONE. -/
def endStaging (s : State) (n status detail : Nat) : State :=
  match s.slice? n with
  | none => s
  | some x =>
    let s1 := if status = stDone then s.setSlice n { x with ready := true, key := [], shards := [] } else s.dropSlice n
    endAsync s1 x.fn x.ticket status detail n

/-- A pavilion's LOAD_MODEL in flight ends; what becomes of the pavilion's state is the caller's. -/
def endLoad (s : State) (q status detail : Nat) : State :=
  match (s.pv q).run.load with
  | none => s
  | some j => endAsync (s.modRun q (fun r => { r with load := none })) j.fn j.ticket status detail 0

/-- The asynchronous commands of a pavilion in flight, other than PV_RESET: function, ticket. -/
def pvFlights (s : State) (q : Nat) : List (Nat × Nat) :=
  s.fns.flatMap (fun f => (f.2.flights.filter (fun x => x.pv == some q && x.opcode != 0x12)).map (fun x => (f.1, x.ticket)))

/-- A pavilion's asynchronous command in flight ends with FAULT (R338, R342, R373). -/
def endPvFlights (s : State) (q : Nat) : State :=
  let staging := (s.die.slices.filter (fun x => x.2.pv == q && !x.2.ready)).map (·.1)
  let s1 := endLoad (staging.foldl (fun s n => endStaging s n stFault 0) s) q stFault 0
  (pvFlights s1 q).foldl (fun s x => endAsync s x.1 x.2 stFault 0 0) s1

/-- The pavilion has contexts that a fault can abort (R343). -/
def abortable (s : State) (q : Nat) : Bool :=
  let st := (s.pv q).run.st
  st == pvRunning || st == pvHeld || st == pvDraining

/-- The tiles of a pavilion whose STATE is not idle. -/
def busyTiles (s : State) (q : Nat) : List Nat := (s.pvTiles q).filter (fun p => (s.tile p).seq.run != .idle)

/-- A pavilion enters FAULTED (R343): its cause, and MB_EVENT.FAULT. -/
def enterFaulted (s : State) (q cause : Nat) : State :=
  pvEvent (s.modRun q (fun r => { r with st := pvFaulted, cause := cause, abortTiles := [] })) q 2

/-- The context of a pavilion is aborted (R391). `tile` is the tile that reported first, or 0x1FF. -/
def contextAbort (s : State) (q cause tile : Nat) : State :=
  if abortable s q then
    let s1 := collectDump s cause 0 q tile (s.pvClusters q)
    let s2 := endPvFlights (stopContext s1 q) q
    let s3 := endRequests s2 q (if cause = causeWaitBroken then stWaitBroken else stFault)
    (enterFaulted s3 q cause).modRun q (fun r => { r with abortTiles := busyTiles s3 q, abortAt := s.sun.time })
  else s

/-- A record is ready for a pavilion; a full hold store sends it to FAULTED (R350). -/
def complete (s : State) (q : Nat) (ws : List W64) : State :=
  let r := putRecord s q ws
  if r.2 then contextAbort r.1 q causeHoldStore 0x1FF else r.1

/-- A window entry leaves without a signal (R392). -/
def dropEntry (s : State) (p i : Nat) : State := noteProgress (leaveWindow s p i)

/-- A window entry of a peer that waits for the reset context: a GET on a channel to it, or a MODE-0 arrival at a shared entry (R392). -/
def waitsFor (s : State) (p module : Nat) (e : WinEntry) : Bool :=
  e.phase == .waiting &&
    ((e.desc.opcode == opNetGet && (s.tile p).rd (TW_SEND_CFG_REMOTE e.desc.chan) == 1
        && (s.tile p).rd (TW_SEND_CFG_DEST_MODULE e.desc.chan) == module)
      || (e.desc.opcode == opCtBarrier && (s.barrier e.desc.barEntry).machine && (s.barrier e.desc.barEntry).peers.contains module))

/-- Those entries of a tile leave, oldest first. -/
def dropWaits (module p : Nat) : Nat → State → State
  | 0, s => s
  | n + 1, s =>
    match (s.tile p).seq.window.findIdx? (waitsFor s p module) with
    | some i => dropWaits module p n (dropEntry s p i)
    | none => s

/-- An orphan notice reaches a tile of the peer (R392). -/
def orphanTile (module : Nat) (s : State) (p : Nat) : State :=
  let s1 := s.modTile p (fun t => { t.wr TL_EPOCH_ARM 0 with orphaned := BitVec.allOnes 64 })
  dropWaits module p (s1.tile p).seq.window.length s1

/-- Meaning of ORPHAN_NOTICE (R392): the notice names a pavilion of this module whose peer on `module` was reset. -/
def orphanNotice (s : State) (module q : Nat) : State :=
  let s1 := s.raise RG_STATUS_ORPHAN_SEEN
  if pvExists s q then
    let s2 := (s.pvTiles q).foldl (orphanTile module) s1
    if (s.pv q).run.st = pvHeld then contextAbort s2 q causeWaitBroken 0x1FF else s2
  else s1

/-- ORPHAN_NOTICE. -/
def execOrphanNotice (module q : Nat) (s : State) : Host.Outcome State Fault Refusal :=
  if module < 4096 ∧ q < 4 then .next (orphanNotice s module q) else .fault (.noSuch "pavilion")

-- cluster reset

/-- The window registers of a reset tile (R395): Reset values except the ECC counts and logs, and the GEN of each receive channel (R217). -/
def keptRegs (t : Tile) : SMap W64 :=
  let ecc := [TL_SP_ECC_OFF, TL_SP_ERRLOG_OFF, TL_TR_ECC_OFF, TL_TR_ERRLOG_OFF]
  let m := t.reg.filter (fun r => ecc.contains r.1)
  (List.range 32).foldl (fun m n =>
    if t.rd (TW_RECV_STATE_GEN n) = 0 then m
    else SMap.put m (TW_RECV_STATE_OFF n) (setBits 0 63 56 (t.rd (TW_RECV_STATE_GEN n)))) m

/-- A physical tile after a cluster reset. -/
def Tile.wiped (t : Tile) : Tile := { Tile.reset with reg := keptRegs t, spScrub := t.spScrub, trScrub := t.trScrub }

/-- A physical tile is reset: its channels close first (R217), its hold requests are withdrawn (R390). -/
def wipeTile (s : State) (p : Nat) : State := (closeChannels (withdrawHold s p) p).modTile p Tile.wiped

/-- A Lodge core is reset (R254). -/
def resetLodge (s : State) (k : Nat) : State :=
  let l := s.lodge k
  s.setLodge k { Lodge.reset with reg := l.reg.filter (fun r => r.1 != LG_CTRL_OFF && !(LG_WATCH_OFF 0 ≤ r.1 && r.1 < LG_WATCH_OFF 8)) }

/-- A cluster is reset (R395): its sixteen physical tiles under the repair map in force, and its Lodge core. -/
def resetCluster (s : State) (k : Nat) : State := resetLodge ((s.clusterTiles k).foldl wipeTile s) k

/-- A cluster's Terrace is reloaded from the loaded slice, and its sections from the image (R347). -/
def reloadCluster (s : State) (q k : Nat) : State :=
  let s1 := (tilesOf k).foldl (fun s t => reloadTile s q t) s
  match (s.pv q).run.image with
  | some i => if i.clusters.testBit k then placeCluster s1 q i k else s1
  | none => s1

end Sys2Proof.Machine
end

