-- ==== Sys2Proof/Machine/Riscv.lean ====
section
/-!
DEFINITION. RV64IMAFC as a Lodge core implements it (R243), the parts without state: the fields of an instruction word, the compressed
words, integer arithmetic, and the F extension with its flags. The encodings and the arithmetic are those of the RISC-V manuals, which R243
names and does not repeat (PRESUMED, log entry 15).
-/

namespace Sys2Proof.Machine
open Sys2Proof

/-- The low `n` bits of a number, sign-extended to 64. -/
def sx (n v : Nat) : W64 := (BitVec.ofNat n v).signExtend 64

-- fields of a 32-bit word
def rvRd (w : Nat) : Nat := w / 128 % 32
def rvF3 (w : Nat) : Nat := w / 4096 % 8
def rvRs1 (w : Nat) : Nat := w / 32768 % 32
def rvRs2 (w : Nat) : Nat := w / 1048576 % 32
def rvF7 (w : Nat) : Nat := w / 33554432 % 128
def rvImmI (w : Nat) : W64 := sx 12 (w / 1048576)
def rvImmS (w : Nat) : W64 := sx 12 (32 * rvF7 w + rvRd w)
def rvImmU (w : Nat) : W64 := sx 32 (w - w % 4096)
def rvImmB (w : Nat) : W64 :=
  sx 13 (4096 * (w / 2 ^ 31 % 2) + 2048 * (w / 128 % 2) + 32 * (w / 2 ^ 25 % 64) + 2 * (w / 256 % 16))
def rvImmJ (w : Nat) : W64 :=
  sx 21 (2 ^ 20 * (w / 2 ^ 31 % 2) + 4096 * (w / 4096 % 256) + 2048 * (w / 2 ^ 20 % 2) + 2 * (w / 2 ^ 21 % 1024))

-- words of the base formats, for the compressed ones
def encI (op f3 rd rs1 imm : Nat) : Nat := imm % 4096 * 2 ^ 20 + rs1 * 2 ^ 15 + f3 * 2 ^ 12 + rd * 2 ^ 7 + op
def encR (op f3 f7 rd rs1 rs2 : Nat) : Nat := f7 * 2 ^ 25 + rs2 * 2 ^ 20 + rs1 * 2 ^ 15 + f3 * 2 ^ 12 + rd * 2 ^ 7 + op
def encS (op f3 rs1 rs2 imm : Nat) : Nat :=
  imm / 32 % 128 * 2 ^ 25 + rs2 * 2 ^ 20 + rs1 * 2 ^ 15 + f3 * 2 ^ 12 + imm % 32 * 2 ^ 7 + op
def encB (f3 rs1 imm : Nat) : Nat :=
  imm / 4096 % 2 * 2 ^ 31 + imm / 32 % 64 * 2 ^ 25 + rs1 * 2 ^ 15 + f3 * 2 ^ 12 + imm / 2 % 16 * 2 ^ 8 + imm / 2048 % 2 * 2 ^ 7 + 0x63
def encJ (rd imm : Nat) : Nat :=
  imm / 2 ^ 20 % 2 * 2 ^ 31 + imm / 2 % 1024 * 2 ^ 21 + imm / 2048 % 2 * 2 ^ 20 + imm / 4096 % 256 * 2 ^ 12 + rd * 2 ^ 7 + 0x6F

/-- Bits [hi:lo] of a compressed word, placed at bit `at_`. -/
def cf (h hi lo at_ : Nat) : Nat := h / 2 ^ lo % 2 ^ (hi + 1 - lo) * 2 ^ at_

/-- The 6-bit immediate of bits 12 and [6:2], as 12 bits sign-extended. -/
def cImm6 (h : Nat) : Nat := cf h 6 2 0 + h / 2 ^ 12 % 2 * 0xFE0

/-- Quadrant 0 of the compressed words. -/
def expandC0 (h : Nat) : Option Nat :=
  let rd := 8 + cf h 4 2 0
  let rs := 8 + cf h 9 7 0
  let w := cf h 12 10 3 + cf h 6 6 2 + cf h 5 5 6
  let d := cf h 12 10 3 + cf h 6 5 6
  match h / 8192 with
  | 0 =>
    let imm := cf h 12 11 4 + cf h 10 7 6 + cf h 6 6 2 + cf h 5 5 3
    if imm = 0 then none else some (encI 0x13 0 rd 2 imm)
  | 2 => some (encI 0x03 2 rd rs w)
  | 3 => some (encI 0x03 3 rd rs d)
  | 6 => some (encS 0x23 2 rs rd w)
  | 7 => some (encS 0x23 3 rs rd d)
  | _ => none

/-- The arithmetic words of quadrant 1. -/
def expandCArith (h : Nat) : Option Nat :=
  let rd := 8 + cf h 9 7 0
  let rs := 8 + cf h 4 2 0
  let sh := cf h 6 2 0 + cf h 12 12 5
  match cf h 11 10 0 with
  | 0 => some (encI 0x13 5 rd rd sh)
  | 1 => some (encI 0x13 5 rd rd (0x400 + sh))
  | 2 => some (encI 0x13 7 rd rd (cImm6 h))
  | _ =>
    match cf h 12 12 0, cf h 6 5 0 with
    | 0, 0 => some (encR 0x33 0 0x20 rd rd rs)
    | 0, 1 => some (encR 0x33 4 0 rd rd rs)
    | 0, 2 => some (encR 0x33 6 0 rd rd rs)
    | 0, _ => some (encR 0x33 7 0 rd rd rs)
    | _, 0 => some (encR 0x3B 0 0x20 rd rd rs)
    | _, 1 => some (encR 0x3B 0 0 rd rd rs)
    | _, _ => none

/-- Quadrant 1. -/
def expandC1 (h : Nat) : Option Nat :=
  let rd := cf h 11 7 0
  let br := cf h 12 12 8 + cf h 11 10 3 + cf h 6 5 6 + cf h 4 3 1 + cf h 2 2 5 + h / 2 ^ 12 % 2 * 0x1E00
  match h / 8192 with
  | 0 => some (encI 0x13 0 rd rd (cImm6 h))
  | 1 => if rd = 0 then none else some (encI 0x1B 0 rd rd (cImm6 h))
  | 2 => some (encI 0x13 0 rd 0 (cImm6 h))
  | 3 =>
    if cImm6 h = 0 then none
    else if rd = 2 then some (encI 0x13 0 2 2 (cf h 6 6 4 + cf h 2 2 5 + cf h 5 5 6 + cf h 4 3 7 + h / 2 ^ 12 % 2 * 0xE00))
    else some ((cImm6 h + h / 2 ^ 12 % 2 * 0xFF000) * 4096 + rd * 128 + 0x37)
  | 4 => expandCArith h
  | 5 =>
    some (encJ 0 (cf h 11 11 4 + cf h 10 9 8 + cf h 8 8 10 + cf h 7 7 6 + cf h 6 6 7 + cf h 5 3 1 + cf h 2 2 5 + h / 2 ^ 12 % 2 * 0x1FF800))
  | 6 => some (encB 0 (8 + cf h 9 7 0) br)
  | _ => some (encB 1 (8 + cf h 9 7 0) br)

/-- Quadrant 2. -/
def expandC2 (h : Nat) : Option Nat :=
  let rd := cf h 11 7 0
  let rs := cf h 6 2 0
  match h / 8192 with
  | 0 => some (encI 0x13 1 rd rd (rs + cf h 12 12 5))
  | 2 => if rd = 0 then none else some (encI 0x03 2 rd 2 (cf h 12 12 5 + cf h 6 4 2 + cf h 3 2 6))
  | 3 => if rd = 0 then none else some (encI 0x03 3 rd 2 (cf h 12 12 5 + cf h 6 5 3 + cf h 4 2 6))
  | 4 =>
    if cf h 12 12 0 = 0 then
      (if rs = 0 then (if rd = 0 then none else some (encI 0x67 0 0 rd 0)) else some (encR 0x33 0 0 rd 0 rs))
    else if rs = 0 then (if rd = 0 then some 0x00100073 else some (encI 0x67 0 1 rd 0))
    else some (encR 0x33 0 0 rd rd rs)
  | 6 => some (encS 0x23 2 2 rs (cf h 12 9 2 + cf h 8 7 6))
  | 7 => some (encS 0x23 3 2 rs (cf h 12 10 3 + cf h 9 7 6))
  | _ => none

/-- A 16-bit word as the 32-bit word that it stands for; none where it is illegal (the D forms and reserved words). -/
def expandC (h : Nat) : Option Nat :=
  match h % 4 with
  | 0 => expandC0 h
  | 1 => expandC1 h
  | 2 => expandC2 h
  | _ => none

-- integer arithmetic

/-- The low 32 bits of a result, sign-extended. -/
def word32 (v : W64) : W64 := sx 32 v.toNat

/-- The operations of OP and OP-IMM: `alt` is bit 30. -/
def rvAlu (f3 : Nat) (alt : Bool) (a b : W64) : W64 :=
  match f3 with
  | 0 => if alt then a - b else a + b
  | 1 => a <<< (b.toNat % 64)
  | 2 => w64 (ofBool (a.slt b))
  | 3 => w64 (ofBool (a.ult b))
  | 4 => a ^^^ b
  | 5 => if alt then a.sshiftRight (b.toNat % 64) else a >>> (b.toNat % 64)
  | 6 => a ||| b
  | _ => a &&& b

/-- The 32-bit operations of OP-32 and OP-IMM-32. -/
def rvAluW (f3 : Nat) (alt : Bool) (a b : W64) : Option W64 :=
  let x : W32 := a.setWidth 32
  let n := b.toNat % 32
  match f3 with
  | 0 => some (word32 (if alt then a - b else a + b))
  | 1 => some ((x <<< n).signExtend 64)
  | 5 => some ((if alt then x.sshiftRight n else x >>> n).signExtend 64)
  | _ => none

/-- Signed division of the M extension on integers: by zero −1 and the dividend. -/
def rvDiv (a b : Int) : Int := if b = 0 then -1 else a.tdiv b
def rvRem (a b : Int) : Int := if b = 0 then a else a.tmod b

/-- The M extension. -/
def rvMul (f3 : Nat) (a b : W64) : W64 :=
  let ia := a.toInt
  let ib := b.toInt
  let na : Int := a.toNat
  let nb : Int := b.toNat
  BitVec.ofInt 64 (match f3 with
    | 0 => ia * ib
    | 1 => ia * ib / 2 ^ 64
    | 2 => ia * nb / 2 ^ 64
    | 3 => na * nb / 2 ^ 64
    | 4 => rvDiv ia ib
    | 5 => rvDiv na nb
    | 6 => rvRem ia ib
    | _ => rvRem na nb)

/-- The 32-bit forms of the M extension. -/
def rvMulW (f3 : Nat) (a b : W64) : Option W64 :=
  let ia := (a.setWidth 32).toInt
  let ib := (b.setWidth 32).toInt
  let na : Int := (a.setWidth 32).toNat
  let nb : Int := (b.setWidth 32).toNat
  let r := fun (z : Int) => some (word32 (BitVec.ofInt 64 z))
  match f3 with
  | 0 => r (ia * ib)
  | 4 => r (rvDiv ia ib)
  | 5 => r (rvDiv na nb)
  | 6 => r (rvRem ia ib)
  | 7 => r (rvRem na nb)
  | _ => none

/-- Whether a conditional branch is taken. -/
def rvBranch (f3 : Nat) (a b : W64) : Option Bool :=
  match f3 with
  | 0 => some (a == b)
  | 1 => some (a != b)
  | 4 => some (a.slt b)
  | 5 => some (!a.slt b)
  | 6 => some (a.ult b)
  | 7 => some (!a.ult b)
  | _ => none

/-- The value that an AMO stores, on operands of `n` bytes. -/
def rvAmo (f5 n : Nat) (old src : Nat) : Option Nat :=
  let a : W64 := sx (8 * n) old
  let b : W64 := sx (8 * n) src
  match f5 with
  | 0x00 => some (a + b).toNat
  | 0x01 => some b.toNat
  | 0x04 => some (a ^^^ b).toNat
  | 0x08 => some (a ||| b).toNat
  | 0x0C => some (a &&& b).toNat
  | 0x10 => some (if a.slt b then a else b).toNat
  | 0x14 => some (if a.slt b then b else a).toNat
  | 0x18 => some (if a.ult b then a else b).toNat
  | 0x1C => some (if a.ult b then b else a).toNat
  | _ => none

-- the F extension: results with the flags NV 16, DZ 8, OF 4, UF 2, NX 1

/-- The rounding mode of a code. -/
def rmOf : Nat → Option Rm
  | 0 => some .rne
  | 1 => some .rtz
  | 2 => some .rdn
  | 3 => some .rup
  | 4 => some .rmm
  | _ => none

/-- A signaling NaN. -/
def isSnan (x : Nat) : Bool := (dec32 x).isNan && !x.testBit 22

/-- An exact number, or a little more where `sticky`, rounded to FP32 with its flags: tininess is detected after rounding. -/
def fpRound (mode : Rm) (sticky : Bool) : Fp → Nat × Nat
  | .fin n m e =>
    let c := roundCode 23 (-126) mode n m e sticky
    if 0x7F7FFFFF < c.1 then (signed 32 n (overflow32 mode n), 5)
    else
      let tiny := (roundCode 23 (-3000) mode n m e sticky).1 < (roundCode 23 (-3000) .rtz false 1 (-126) false).1
      (signed 32 n c.1, if c.2 then (if tiny then 3 else 1) else 0)
  | x => (rne32 x, 0)

/-- The invalid result. -/
def fpInvalid : Nat × Nat := (nan32, 16)

/-- The exact sum of two numbers, rounded once; `snan` says that an operand is a signaling NaN. -/
def fpSum (mode : Rm) (snan : Bool) (x y : Fp) : Nat × Nat :=
  if snan then fpInvalid
  else if x.isNan ∨ y.isNan then (nan32, 0)
  else match Fp.add (mode == .rdn) x y with
    | .nan => fpInvalid
    | z => fpRound mode false z

/-- The product of two codes: NaN with NV for ∞ × 0. -/
def fpMul (mode : Rm) (a b : Nat) : Nat × Nat :=
  let x := dec32 a
  let y := dec32 b
  if isSnan a ∨ isSnan b then fpInvalid
  else if x.isNan ∨ y.isNan then (nan32, 0)
  else match Fp.mul x y with
    | .nan => fpInvalid
    | z => fpRound mode false z

/-- The fused multiply-add of codes, the product negated where `np`, the addend where `nc`. -/
def fpFma (mode : Rm) (np nc : Bool) (a b c : Nat) : Nat × Nat :=
  let x := dec32 a
  let y := dec32 b
  let z := dec32 c
  let bad := (x.isInf && y.isZero) || (x.isZero && y.isInf)
  if bad then fpInvalid
  else fpSum mode (isSnan a || isSnan b || isSnan c) (if np then (Fp.mul x y).negate else Fp.mul x y) (if nc then z.negate else z)

/-- The quotient of codes. -/
def fpDiv (mode : Rm) (a b : Nat) : Nat × Nat :=
  if isSnan a ∨ isSnan b then fpInvalid
  else match dec32 a, dec32 b with
  | .nan, _ => (nan32, 0)
  | _, .nan => (nan32, 0)
  | .inf _, .inf _ => fpInvalid
  | .inf n, .fin m _ _ => (signed 32 (n != m) 0x7F800000, 0)
  | .fin n _ _, .inf m => (signed 32 (n != m) 0, 0)
  | .fin n1 m1 e1, .fin n2 m2 e2 =>
    if m2 = 0 then (if m1 = 0 then fpInvalid else (signed 32 (n1 != n2) 0x7F800000, 8))
    else fpRound mode (m1 * 2 ^ 80 % m2 != 0) (.fin (n1 != n2) (m1 * 2 ^ 80 / m2) (e1 - e2 - 80))

/-- The square root of a code. -/
def fpSqrt (mode : Rm) (a : Nat) : Nat × Nat :=
  if isSnan a then fpInvalid
  else match dec32 a with
  | .nan => (nan32, 0)
  | .inf n => if n then fpInvalid else (a, 0)
  | .fin n m e =>
    if m = 0 then (a, 0)
    else if n then fpInvalid
    else
      let k : Nat := if e % 2 = 0 then 64 else 65
      let v := m * 2 ^ k
      let r := isqrt v
      fpRound mode (r * r != v) (.fin false r ((e - (k : Int)) / 2))

/-- FMIN and FMAX: a number beats a quiet NaN. -/
def fpMinMax (isMax : Bool) (a b : Nat) : Nat × Nat :=
  let fl := if isSnan a ∨ isSnan b then 16 else 0
  if (dec32 a).isNan then (if (dec32 b).isNan then nan32 else b, fl)
  else if (dec32 b).isNan then (a, fl)
  else (minMax isMax a b, fl)

/-- FLE, FLT and FEQ (0, 1, 2). -/
def fpCompare (f3 a b : Nat) : Nat × Nat :=
  let x := dec32 a
  let y := dec32 b
  if x.isNan ∨ y.isNan then (0, if f3 ≠ 2 ∨ isSnan a ∨ isSnan b then 16 else 0)
  else
    let c := Fp.cmp x y
    (ofBool (match f3 with | 0 => c ≤ 0 | 1 => c < 0 | _ => c == 0), 0)

/-- FCLASS. -/
def fpClass (a : Nat) : Nat :=
  match dec32 a with
  | .nan => if isSnan a then 2 ^ 8 else 2 ^ 9
  | .inf n => if n then 1 else 2 ^ 7
  | .fin n m _ =>
    if m = 0 then (if n then 2 ^ 3 else 2 ^ 4)
    else if a / 2 ^ 23 % 256 = 0 then (if n then 2 ^ 2 else 2 ^ 5)
    else if n then 2 else 2 ^ 6

/-- FSGNJ, FSGNJN, FSGNJX. -/
def fpSign (f3 a b : Nat) : Option Nat :=
  let body := a % 2 ^ 31
  let sa := a.testBit 31
  let sb := b.testBit 31
  match f3 with
  | 0 => some (signed 32 sb body)
  | 1 => some (signed 32 (!sb) body)
  | 2 => some (signed 32 (sa != sb) body)
  | _ => none

/-- FCVT to an integer: 0 W, 1 WU, 2 L, 3 LU. -/
def fpToInt (mode : Rm) (kind a : Nat) : W64 × Nat :=
  let width := if kind < 2 then 32 else 64
  let lo : Int := if kind % 2 = 0 then -(2 : Int) ^ (width - 1) else 0
  let hi : Int := if kind % 2 = 0 then (2 : Int) ^ (width - 1) - 1 else (2 : Int) ^ width - 1
  let put := fun (z : Int) => sx width (BitVec.ofInt 64 z).toNat
  match dec32 a with
  | .nan => (put hi, 16)
  | .inf n => (put (if n then lo else hi), 16)
  | .fin n m e =>
    let v := roundInt mode n m e
    if hi < v.1 then (put hi, 16) else if v.1 < lo then (put lo, 16) else (put v.1, ofBool v.2)

/-- FCVT from an integer register. -/
def fpFromInt (mode : Rm) (kind : Nat) (v : W64) : Nat × Nat :=
  let z : Int := match kind with
    | 0 => (v.setWidth 32).toInt
    | 1 => (v.setWidth 32).toNat
    | 2 => v.toInt
    | _ => v.toNat
  fpRound mode false (.fin (decide (z < 0)) z.natAbs 0)

/-- OP-FP with an FP result: the operations of funct7. -/
def lodgeFpOp (mode : Option Rm) (f7 f3 rs2 a b : Nat) : Option (Nat × Nat) :=
  match f7 with
  | 0x00 => mode.map (fun m => fpSum m (isSnan a || isSnan b) (dec32 a) (dec32 b))
  | 0x04 => mode.map (fun m => fpSum m (isSnan a || isSnan b) (dec32 a) (dec32 b).negate)
  | 0x08 => mode.map (fun m => fpMul m a b)
  | 0x0C => mode.map (fun m => fpDiv m a b)
  | 0x2C => if rs2 = 0 then mode.map (fun m => fpSqrt m a) else none
  | 0x10 => (fpSign f3 a b).map (fun x => (x, 0))
  | 0x14 => if f3 = 0 then some (fpMinMax false a b) else if f3 = 1 then some (fpMinMax true a b) else none
  | _ => none

end Sys2Proof.Machine
end

