-- ==== Sys2Proof/Machine/Lodge.lean ====
section
/-!
DEFINITION. The Lodge cores (R243 to R257): their address map, one RV64IMAFC instruction, watches, the mask port and the event queue.
-/

namespace Sys2Proof.Machine
open Sys2Proof

-- registers of the core

/-- Integer register `n`; x0 reads as zero. -/
def Lodge.xr (l : Lodge) (n : Nat) : W64 := if n = 0 then 0 else SMap.look l.x n 0

/-- Integer register `n` written; a write of x0 is discarded. -/
def Lodge.xw (l : Lodge) (n : Nat) (v : W64) : Lodge := if n = 0 then l else { l with x := SMap.put l.x n v }

/-- Floating-point register `n`, as a code. -/
def Lodge.fr (l : Lodge) (n : Nat) : Nat := (SMap.look l.f n 0).toNat

/-- Floating-point register `n` written. -/
def Lodge.fw (l : Lodge) (n code : Nat) : Lodge := { l with f := SMap.put l.f n (w32 code) }

/-- A CSR as stored. -/
def Lodge.csrW (l : Lodge) (n : Nat) : W64 := SMap.look l.csr n 0

/-- A CSR set. -/
def Lodge.setCsr (l : Lodge) (n : Nat) (v : W64) : Lodge := { l with csr := SMap.put l.csr n v }

/-- Flags accrue in fcsr. -/
def Lodge.accrue (l : Lodge) (flags : Nat) : Lodge := l.setCsr 3 (l.csrW 3 ||| w64 flags)

/-- An enabled LG_IRQ source is pending: the machine external interrupt (R250). -/
def lodgePending (l : Lodge) : Bool := bits (lodgeIrq l) 4 0 &&& l.rd LG_IRQ_ENABLE != 0

/-- A CSR as read by core `k`; none where no such CSR exists. -/
def csrRead (s : State) (k n : Nat) : Option W64 :=
  let l := s.lodge k
  match n with
  | 0x001 => some (w64 (bits (l.csrW 3) 4 0))
  | 0x002 => some (w64 (bits (l.csrW 3) 7 5))
  | 0x003 => some (l.csrW 3)
  | 0x300 => some (l.csrW 0x300 ||| w64 0x8000000000007800)
  | 0x301 => some (w64 0x8000000000001125)
  | 0x304 => some (l.csrW 0x304)
  | 0x305 => some (l.csrW 0x305)
  | 0x340 => some (l.csrW 0x340)
  | 0x341 => some (l.csrW 0x341)
  | 0x342 => some (l.csrW 0x342)
  | 0x343 => some (l.csrW 0x343)
  | 0x344 => some (w64 (2048 * ofBool (lodgePending l)))
  | 0xB00 => some (l.csrW 0xB00 + w64 (lodgeCycles s))
  | 0xB02 => some (l.csrW 0xB02)
  | 0xF11 => some 0
  | 0xF12 => some 0
  | 0xF13 => some 0
  | 0xF14 => some (w64 k)
  | 0xF15 => some 0
  | _ => if (0xB03 ≤ n ∧ n < 0xB20) ∨ (0x323 ≤ n ∧ n < 0x340) then some 0 else none

/-- A CSR written by core `k`: only its writable bits change. -/
def csrWrite (s : State) (l : Lodge) (n : Nat) (v : W64) : Lodge :=
  match n with
  | 0x001 => l.setCsr 3 (setBits (l.csrW 3) 4 0 (bits v 4 0))
  | 0x002 => l.setCsr 3 (setBits (l.csrW 3) 7 5 (bits v 2 0))
  | 0x003 => l.setCsr 3 (v &&& 0xFF)
  | 0x300 => l.setCsr 0x300 (v &&& 0x88)
  | 0x304 => l.setCsr 0x304 (v &&& 0x800)
  | 0x305 => l.setCsr 0x305 (v &&& ~~~ 2)
  | 0x340 => l.setCsr 0x340 v
  | 0x341 => l.setCsr 0x341 (v &&& ~~~ 1)
  | 0x342 => l.setCsr 0x342 v
  | 0x343 => l.setCsr 0x343 v
  | 0xB00 => l.setCsr 0xB00 (v - w64 (lodgeCycles s))
  | 0xB02 => l.setCsr 0xB02 v
  | _ => l

-- traps and retirement

/-- A trap: pc, cause and value are saved, interrupts are masked, and the core goes to mtvec; a vectored interrupt to its entry. -/
def Lodge.trap (l : Lodge) (interrupt : Bool) (cause : Nat) (tval : W64) : Lodge :=
  let st := l.csrW 0x300
  let tv := l.csrW 0x305
  let base := tv &&& ~~~ 3
  let l1 := (((l.setCsr 0x341 l.pc).setCsr 0x342 (w64 (cause + (if interrupt then 2 ^ 63 else 0)))).setCsr 0x343 tval).setCsr 0x300
    (setBits (setBits st 7 7 (ofBool (bit st 3))) 3 3 0)
  { l1 with pc := if interrupt && bit tv 0 then base + w64 (4 * cause) else base }

/-- An exception of core `k`. -/
def lodgeTrap (s : State) (k cause : Nat) (tval : W64) : State := s.setLodge k ((s.lodge k).trap false cause tval)

/-- The instruction of core `k` retires: its new registers, the next pc, minstret. -/
def lodgeRetire (s : State) (k : Nat) (l : Lodge) (next : W64) : State :=
  s.setLodge k { l.setCsr 0xB02 (l.csrW 0xB02 + 1) with pc := next }

/-- LG_ERR takes a record (R257). -/
def lodgeErr (s : State) (k kind a : Nat) : State :=
  let l := s.lodge k
  if l.rd LG_ERR_VALID = 0 then s.setLodge k (((l.raise LG_ERR_VALID).wr LG_ERR_KIND kind).wr LG_ERR_ADDRESS a) else s

/-- LG_ERR kinds (R257). -/
def errUe : Nat := 0
def errWindow : Nat := 1
def errMask : Nat := 2
def errUnmapped : Nat := 3

/-- An access fault: recorded and taken. -/
def lodgeFault (s : State) (k cause kind : Nat) (a : W64) : State := lodgeTrap (lodgeErr s k kind a.toNat) k cause a

/-- An uncorrectable error in a core's SRAM (R247, R377): the fault is taken, and the context of its pavilion is aborted. -/
def lodgeSramError (s : State) (k cause : Nat) (a : W64) : State :=
  let s1 := lodgeFault s k cause errUe a
  match s.pvOfCluster k with
  | some q => contextAbort s1 q causeLodge 0x1FF
  | none => s1

-- the address map (R245)

/-- Where a Lodge address leads. -/
inductive LodgeAt where
  | isram (o : Nat)
  | dsram (o : Nat)
  | regs (o : Nat)
  | pad (t o : Nat)
  | window (p o : Nat)
  | mask (slot pos word : Nat)
  | nowhere
  deriving DecidableEq, Repr

/-- The map of core `k`, scratchpads by logical tile, windows by the physical tile that holds it now. -/
def lodgeMap (s : State) (k a : Nat) : LodgeAt :=
  let tile := fun (t : Nat) => (tilesOf k).getD t 0
  if a < 0x10000 then .isram a
  else if a < 0x20000 then .dsram (a - 0x10000)
  else if 0x100000 ≤ a ∧ a < 0x101000 then .regs (a - 0x100000)
  else if 0x10000000 ≤ a ∧ a < 0x12000000 then .pad (tile ((a - 0x10000000) / 0x200000)) (a % 0x200000)
  else if 0x20000000 ≤ a ∧ a < 0x20040000 then .window (s.phys (tile ((a - 0x20000000) / 0x4000))) (a % 0x4000)
  else if 0x40000000 ≤ a ∧ a < 0x60000000 then .mask (a / 0x80000 % 1024) (a / 0x8000 % 16) (a / 8 % 4096)
  else .nowhere

/-- What a check says of the 8-byte word at a Lodge address; its operand names the Lodge address over 8. -/
def lodgeChk (chk : Check) (a w : Nat) : Check :=
  match chk with
  | .clean => .clean
  | .corrected x n b => if x = a / 8 then .corrected w n b else .clean
  | .uncorrectable x y => if x = a / 8 then .uncorrectable w y else .clean

/-- An uncorrectable error. -/
def isUe : Check → Bool
  | .uncorrectable _ _ => true
  | _ => false

/-- The scratchpad of logical tile `t` as core `k` reads it: the core's own stores that wait in its store buffer included (R248). -/
def padSeen (s : State) (k t : Nat) : Mem :=
  (s.lodge k).stores.foldl (fun m x => match x with | .bytes u a b => if u = t then Mem.wrN m a b else m | .add _ _ _ => m) (s.tile (s.phys t)).spSeen

/-- A narrow load's claim on port B, of priority 5 (R180, R246). -/
def padRead (x n : Nat) : Claim := .row 1 5 x n

/-- Bytes of a register word. -/
def wordPart (w : W64) (o n : Nat) : Nat := w.toNat / 2 ^ (8 * (o % 8)) % 2 ^ (8 * n)

/-- The head of the event queue removed (R257). -/
def popEvent (l : Lodge) : Lodge := { l with evq := l.evq.drop 1 }

/-- A load of `n` bytes by core `k`: the state and the value, or the state after a fault with no value. -/
def lodgeLoad (s : State) (k n : Nat) (a : W64) (chk : Check) : State × Option Nat :=
  let o := a.toNat
  match lodgeMap s k o with
  | .isram x => if isUe (lodgeChk chk o 0) then (lodgeSramError s k 5 a, none) else (s, some (Mem.rdLe (s.lodge k).isram x n))
  | .dsram x => if isUe (lodgeChk chk o 0) then (lodgeSramError s k 5 a, none) else (s, some (Mem.rdLe (s.lodge k).dsram x n))
  | .regs x =>
    let v := lodgeRead s k (x - x % 8)
    (if x - x % 8 = LG_BSEVENT_OFF then (s.setLodge k (popEvent (s.lodge k))).emit (.lodgeRead k v) else s, some (wordPart v x n))
  | .pad t x =>
    let p := s.phys t
    if !windowOk (s.tile p) (x, x + n - 1) then (lodgeFault s k 5 errWindow a, none)
    else
      let c := lodgeChk chk o (x / 8)
      let s1 := takeClaim (noteSp s p 1 (x / 8) (x / 8 + 1) c true) p (padRead x n)
      if isUe c then (lodgeFault s1 k 5 errUe a, none) else (s1, some (Mem.rdLe (padSeen s k t) x n))
  | .window p x => (s, some (wordPart (tileRead s p (x - x % 8)) x n))
  | .mask _ _ _ => (lodgeFault s k 5 errMask a, none)
  | .nowhere => (lodgeFault s k 5 errUnmapped a, none)

-- registers and the mask port

/-- The slot names this core as its mask builder (R252). -/
def maskBuilder (s : State) (k slot : Nat) : Bool :=
  slotOpen s slot && s.rd (BS_SLOT_CFG_CONSTRAINED slot) == 1 && s.rd (BS_SLOT_CFG_MASK_CORE slot) == k

/-- A write of LG_BSMASK_DONE (R252): positions of a slot that names the core are complete for the slot's step. -/
def maskDone (s : State) (k slot positions : Nat) : State :=
  if maskBuilder s k slot then s.modSlot slot (fun x => { x with done := x.done ||| w64 (positions % 512) }) else s

/-- A mask word stored (R252): words at or beyond the vocabulary are ignored. -/
def maskStore (s : State) (slot pos word : Nat) (v : W64) : State :=
  if word < ceilDiv (s.rd (BS_SLOT_CFG_VOCAB slot)) 64 then s.modSlot slot (fun x => { x with mask := SMap.put x.mask (4096 * pos + word) v }) else s

/-- The bits of a 64-bit word that a store of `n` bytes at an address writes. -/
def byteMask (o n : Nat) : W64 := BitVec.ofNat 64 (2 ^ (8 * n) - 1) <<< (8 * (o % 8))

/-- A write of an LG register (R257): only the Warden writes RUN, BROKEN clears with FIRED, and the Warden's messages are taken once WARDEN is clear.
`en` holds the bits written. -/
def lodgeWrite (s : State) (k off : Nat) (v en : W64) (warden : Bool) : State :=
  if off = LG_BSMASK_DONE_OFF then maskDone s k (bits v 41 32) (bits v 8 0)
  else if off = LG_CTRL_OFF then (if warden && bit en 0 then setRun s k (bit v 0) else s)
  else
    let l := s.lodge k
    let w := mergedNow l.just off (l.regW off) v (w64 (rowVal rwLodge off) &&& en) (w64 (rowVal w1cLodge off) &&& en)
    let w1 := if LG_WATCH_OFF 0 ≤ off ∧ off < LG_WATCH_OFF 8 ∧ !bit w 62 then setBits w 61 61 0 else w
    s.setLodge k { l with reg := SMap.put l.reg off w1, msgs := if off = LG_IRQ_OFF ∧ (bits w1 LG_IRQ_WARDEN.hi LG_IRQ_WARDEN.lo) = 0 then [] else l.msgs }

/-- An access of core `k` waits: a load whose claim on port B is refused (R182), a store that finds the store buffer full (R244). -/
def lodgeWaits (s : State) (k n : Nat) (a : W64) (store : Bool) : Bool :=
  let full := 8 ≤ (s.lodge k).stores.length
  match lodgeMap s k a.toNat with
  | .pad t x => if store then full else windowOk (s.tile (s.phys t)) (x, x + n - 1) && !claimOk s (s.phys t) (padRead x n)
  | .window _ x => store && full && x - x % 8 == TL_TC_ADD_OFF
  | _ => false

/-- A store of `n` bytes by core `k`: the state, and whether it was made. One to a scratchpad enters the store buffer; the old word of a partial write
is checked as it enters (R186, R187; log entry 36). -/
def lodgeStore (s : State) (k n : Nat) (a : W64) (v : Nat) (chk : Check) : State × Bool :=
  let o := a.toNat
  match lodgeMap s k o with
  | .isram _ => (lodgeFault s k 7 errUnmapped a, false)
  | .dsram x => (s.setLodge k { s.lodge k with dsram := Mem.wrLe (s.lodge k).dsram x n v }, true)
  | .regs x => (lodgeWrite s k (x - x % 8) (w64 (v * 2 ^ (8 * (x % 8)))) (byteMask x n) false, true)
  | .pad t x =>
    let p := s.phys t
    if !windowOk (s.tile p) (x, x + n - 1) then (lodgeFault s k 7 errWindow a, false)
    else if n = 8 then (pushStore s k (.bytes t x (leBytes n v)), true)
    else
      let c := lodgeChk chk o (x / 8)
      let s1 := noteSp s p 2 (x / 8) (x / 8 + 1) c true
      if isUe c then (s1, true) else (pushStore s1 k (.bytes t x (leBytes n v)), true)
  | .window p x =>
    let w := w64 (v * 2 ^ (8 * (x % 8)))
    (if x - x % 8 = TL_TC_ADD_OFF then writeTcAdd s (.lodge k) p (bits w 21 16) (bits w 15 0) else s, true)
  | .mask slot pos word =>
    if n = 8 ∧ pos ≤ 8 ∧ maskBuilder s k slot then (maskStore s slot pos word (w64 v), true) else (lodgeFault s k 7 errMask a, false)
  | .nowhere => (lodgeFault s k 7 errUnmapped a, false)

-- instructions

/-- An illegal instruction. -/
def lodgeIllegal (s : State) (k w : Nat) : State := lodgeTrap s k 2 (w64 w)

/-- Core `k` writes an integer register and goes on. -/
def lodgePut (s : State) (k w len : Nat) (v : Option W64) : State :=
  let l := s.lodge k
  match v with
  | some v => lodgeRetire s k (l.xw (rvRd w) v) (l.pc + w64 len)
  | none => lodgeIllegal s k w

/-- A jump or taken branch; with 16-bit instructions every even target is aligned. -/
def lodgeJump (s : State) (k : Nat) (l : Lodge) (a : W64) : State := lodgeRetire s k l (a &&& ~~~ 1)

/-- The bytes of a load or store of a funct3. -/
def rvSize (f3 : Nat) : Nat := 2 ^ (f3 % 4)

/-- LOAD and FLW (R246). -/
def lodgeDoLoad (s : State) (k w len : Nat) (chk : Check) : State :=
  let l := s.lodge k
  let f3 := rvF3 w
  let fp := w % 128 == 0x07
  let a := l.xr (rvRs1 w) + rvImmI w
  let n := rvSize f3
  if (fp ∧ f3 ≠ 2) ∨ f3 = 7 then lodgeIllegal s k w
  else if a.toNat % n ≠ 0 then lodgeTrap s k 4 a
  else if lodgeWaits s k n a false then s
  else match lodgeLoad s k n a chk with
    | (s1, none) => s1
    | (s1, some v) =>
      let l1 := s1.lodge k
      lodgeRetire s1 k (if fp then l1.fw (rvRd w) v else l1.xw (rvRd w) (if f3 < 4 then sx (8 * n) v else w64 v)) (l.pc + w64 len)

/-- STORE and FSW (R246). -/
def lodgeDoStore (s : State) (k w len : Nat) (chk : Check) : State :=
  let l := s.lodge k
  let f3 := rvF3 w
  let fp := w % 128 == 0x27
  let a := l.xr (rvRs1 w) + rvImmS w
  let n := rvSize f3
  let v := if fp then l.fr (rvRs2 w) else (l.xr (rvRs2 w)).toNat % 2 ^ (8 * n)
  if (fp ∧ f3 ≠ 2) ∨ 4 ≤ f3 then lodgeIllegal s k w
  else if a.toNat % n ≠ 0 then lodgeTrap s k 6 a
  else if lodgeWaits s k n a true then s
  else match lodgeStore s k n a v chk with
    | (s1, false) => s1
    | (s1, true) => lodgeRetire s1 k (s1.lodge k) (l.pc + w64 len)

/-- LR, SC and the AMO instructions, on data SRAM only (R243). -/
def lodgeDoAmo (s : State) (k w len : Nat) (chk : Check) : State :=
  let l := s.lodge k
  let f3 := rvF3 w
  let f5 := rvF7 w / 4
  let a := l.xr (rvRs1 w)
  let n := rvSize f3
  let o := a.toNat
  let x := o - 0x10000
  let src := (l.xr (rvRs2 w)).toNat
  if (f3 ≠ 2 ∧ f3 ≠ 3) ∨ (f5 = 2 ∧ rvRs2 w ≠ 0) then lodgeIllegal s k w
  else if f5 ≠ 2 ∧ f5 ≠ 3 ∧ rvAmo f5 n 0 0 = none then lodgeIllegal s k w
  else if o % n ≠ 0 then lodgeTrap s k (if f5 = 2 then 4 else 6) a
  else if o < 0x10000 ∨ 0x20000 ≤ o then lodgeFault s k 7 errUnmapped a
  else if f5 = 3 then
    if l.reserve = some o then
      lodgeRetire s k ({ l with dsram := Mem.wrLe l.dsram x n src, reserve := none }.xw (rvRd w) 0) (l.pc + w64 len)
    else lodgeRetire s k ({ l with reserve := none }.xw (rvRd w) 1) (l.pc + w64 len)
  else if isUe (lodgeChk chk o 0) then lodgeSramError s k (if f5 = 2 then 5 else 7) a
  else
    let old := Mem.rdLe l.dsram x n
    let l1 : Lodge := if f5 = 2 then { l with reserve := some o } else { l with dsram := Mem.wrLe l.dsram x n ((rvAmo f5 n old src).getD 0) }
    lodgeRetire s k (l1.xw (rvRd w) (sx (8 * n) old)) (l.pc + w64 len)

/-- The CSR instructions of Zicsr. -/
def lodgeDoCsr (s : State) (k w len : Nat) : State :=
  let l := s.lodge k
  let f3 := rvF3 w
  let n := w / 2 ^ 20
  let src := if f3 < 4 then l.xr (rvRs1 w) else w64 (rvRs1 w)
  let writes := f3 % 4 == 1 || rvRs1 w != 0
  match csrRead s k n with
  | none => lodgeIllegal s k w
  | some old =>
    if writes ∧ n / 1024 = 3 then lodgeIllegal s k w
    else
      let l1 := if writes then csrWrite s l n (match f3 % 4 with | 1 => src | 2 => old ||| src | _ => old &&& ~~~ src) else l
      let l2 := l1.xw (rvRd w) old
      -- a write of minstret takes the place of this instruction's own count
      if writes ∧ n = 0xB02 then s.setLodge k { l2 with pc := l.pc + w64 len } else lodgeRetire s k l2 (l.pc + w64 len)

/-- SYSTEM: ECALL, EBREAK, MRET, WFI and the CSR instructions. -/
def lodgeDoSystem (s : State) (k w len : Nat) : State :=
  let l := s.lodge k
  if rvF3 w % 4 ≠ 0 then lodgeDoCsr s k w len
  else if w = 0x00000073 then lodgeTrap s k 11 0
  else if w = 0x00100073 then lodgeTrap s k 3 l.pc
  else if w = 0x30200073 then
    let st := l.csrW 0x300
    lodgeRetire s k (l.setCsr 0x300 (setBits (setBits st 3 3 (ofBool (bit st 7))) 7 7 1)) (l.csrW 0x341)
  else if w = 0x10500073 then lodgeRetire s k { l with wfi := !lodgePending l } (l.pc + w64 len)
  else lodgeIllegal s k w

/-- The rounding mode of an instruction: its rm field, or frm. -/
def lodgeRm (l : Lodge) (f3 : Nat) : Option Rm := if f3 = 7 then rmOf (bits (l.csrW 3) 7 5) else rmOf f3

/-- Core `k` writes a floating-point register with its flags and goes on. -/
def lodgePutF (s : State) (k w len : Nat) (r : Option (Nat × Nat)) : State :=
  let l := s.lodge k
  match r with
  | some r => lodgeRetire s k ((l.fw (rvRd w) r.1).accrue r.2) (l.pc + w64 len)
  | none => lodgeIllegal s k w

/-- OP-FP. -/
def lodgeDoFp (s : State) (k w len : Nat) : State :=
  let l := s.lodge k
  let f3 := rvF3 w
  let f7 := rvF7 w
  let a := l.fr (rvRs1 w)
  let mode := lodgeRm l f3
  let putX := fun (v : W64) (fl : Nat) => lodgeRetire s k ((l.xw (rvRd w) v).accrue fl) (l.pc + w64 len)
  if f7 = 0x50 then
    if f3 < 3 then (let c := fpCompare f3 a (l.fr (rvRs2 w)); putX (w64 c.1) c.2) else lodgeIllegal s k w
  else if f7 = 0x60 ∧ rvRs2 w < 4 then
    match mode with
    | some m => let c := fpToInt m (rvRs2 w) a; putX c.1 c.2
    | none => lodgeIllegal s k w
  else if f7 = 0x68 ∧ rvRs2 w < 4 then lodgePutF s k w len (mode.map (fun m => fpFromInt m (rvRs2 w) (l.xr (rvRs1 w))))
  else if f7 = 0x70 ∧ rvRs2 w = 0 ∧ f3 = 0 then putX (sx 32 a) 0
  else if f7 = 0x70 ∧ rvRs2 w = 0 ∧ f3 = 1 then putX (w64 (fpClass a)) 0
  else if f7 = 0x78 ∧ rvRs2 w = 0 ∧ f3 = 0 then lodgePutF s k w len (some ((l.xr (rvRs1 w)).toNat % 2 ^ 32, 0))
  else lodgePutF s k w len (lodgeFpOp mode f7 f3 (rvRs2 w) a (l.fr (rvRs2 w)))

/-- The fused multiply-add family. -/
def lodgeDoFma (s : State) (k w len : Nat) : State :=
  let l := s.lodge k
  let op := w % 128
  if w / 2 ^ 25 % 4 ≠ 0 then lodgeIllegal s k w
  else lodgePutF s k w len ((lodgeRm l (rvF3 w)).map (fun m =>
    fpFma m (op == 0x4B || op == 0x4F) (op == 0x47 || op == 0x4F) (l.fr (rvRs1 w)) (l.fr (rvRs2 w)) (l.fr (w / 2 ^ 27))))

/-- OP and OP-32. -/
def lodgeDoOp (s : State) (k w len : Nat) : State :=
  let l := s.lodge k
  let f3 := rvF3 w
  let a := l.xr (rvRs1 w)
  let b := l.xr (rvRs2 w)
  let wide := w % 128 == 0x33
  lodgePut s k w len (match rvF7 w with
    | 0x00 => if wide then some (rvAlu f3 false a b) else rvAluW f3 false a b
    | 0x20 => if f3 = 0 ∨ f3 = 5 then (if wide then some (rvAlu f3 true a b) else rvAluW f3 true a b) else none
    | 0x01 => if wide then some (rvMul f3 a b) else rvMulW f3 a b
    | _ => none)

/-- OP-IMM and OP-IMM-32: the upper bits of a shift's immediate select it. -/
def lodgeDoImm (s : State) (k w len : Nat) : State :=
  let l := s.lodge k
  let f3 := rvF3 w
  let a := l.xr (rvRs1 w)
  let wide := w % 128 == 0x13
  let top := if wide then 2 * (w / 2 ^ 26) else rvF7 w
  let shift := f3 == 1 || f3 == 5
  lodgePut s k w len
    (if shift && !(top == 0 || (f3 == 5 && top == 0x20)) then none
     else if wide then some (rvAlu f3 (shift && top == 0x20) a (rvImmI w))
     else rvAluW f3 (shift && top == 0x20) a (rvImmI w))

/-- One instruction word, `len` bytes long in memory. -/
def lodgeExec (s : State) (k w len : Nat) (chk : Check) : State :=
  let l := s.lodge k
  let next := l.pc + w64 len
  match w % 128 with
  | 0x37 => lodgePut s k w len (some (rvImmU w))
  | 0x17 => lodgePut s k w len (some (l.pc + rvImmU w))
  | 0x6F => lodgeJump s k (l.xw (rvRd w) next) (l.pc + rvImmJ w)
  | 0x67 => if rvF3 w = 0 then lodgeJump s k (l.xw (rvRd w) next) (l.xr (rvRs1 w) + rvImmI w) else lodgeIllegal s k w
  | 0x63 =>
    match rvBranch (rvF3 w) (l.xr (rvRs1 w)) (l.xr (rvRs2 w)) with
    | some t => lodgeRetire s k l (if t then l.pc + rvImmB w else next)
    | none => lodgeIllegal s k w
  | 0x03 => lodgeDoLoad s k w len chk
  | 0x07 => lodgeDoLoad s k w len chk
  | 0x23 => lodgeDoStore s k w len chk
  | 0x27 => lodgeDoStore s k w len chk
  | 0x13 => lodgeDoImm s k w len
  | 0x1B => lodgeDoImm s k w len
  | 0x33 => lodgeDoOp s k w len
  | 0x3B => lodgeDoOp s k w len
  | 0x0F =>
    -- FENCE waits until the store buffer is empty (R248)
    if rvF3 w = 0 ∧ !l.stores.isEmpty then s
    else if rvF3 w < 2 then lodgeRetire s k l next
    else lodgeIllegal s k w
  | 0x2F => lodgeDoAmo s k w len chk
  | 0x73 => lodgeDoSystem s k w len
  | 0x43 => lodgeDoFma s k w len
  | 0x47 => lodgeDoFma s k w len
  | 0x4B => lodgeDoFma s k w len
  | 0x4F => lodgeDoFma s k w len
  | 0x53 => lodgeDoFp s k w len
  | _ => lodgeIllegal s k w

/-- Fetch and execution at the pc: instructions lie in instruction SRAM. -/
def lodgeFetch (s : State) (k : Nat) (chk : Check) : State :=
  let l := s.lodge k
  let a := l.pc.toNat
  let h := Mem.rdLe l.isram a 2
  if 0x10000 ≤ a then lodgeFault s k 1 errUnmapped l.pc
  else if isUe (lodgeChk chk a 0) then lodgeSramError s k 1 l.pc
  else if h % 4 ≠ 3 then
    match expandC h with
    | some w => lodgeExec s k w 2 chk
    | none => lodgeIllegal s k h
  else if 0x10000 ≤ a + 2 then lodgeFault s k 1 errUnmapped (l.pc + 2)
  else if isUe (lodgeChk chk (a + 2) 0) then lodgeSramError s k 1 (l.pc + 2)
  else lodgeExec s k (Mem.rdLe l.isram a 4) 4 chk

/-- Core `k` executes one instruction: nothing in reset; WFI waits for an enabled interrupt; an interrupt that is enabled is taken first. -/
def lodgeInstruction (s : State) (k : Nat) (chk : Check) : State :=
  let l := s.lodge k
  if l.rd LG_CTRL_RUN = 0 then s
  else if l.wfi && !lodgePending l then s
  else
    let l1 : Lodge := { l with wfi := false }
    let s1 := if l.wfi then s.setLodge k l1 else s
    if lodgePending l1 && bit (l1.csrW 0x300) 3 && bit (l1.csrW 0x304) 11 then s1.setLodge k (l1.trap true 11 0)
    else lodgeFetch s1 k chk

/-- Meaning of LODGE_INSTRUCTION. -/
def execLodgeInstruction (k : Nat) (chk : Check) (s : State) : Host.Outcome State Fault Refusal :=
  if k < 16 then .next (lodgeInstruction s k chk) else .fault (.noSuch "Lodge core")

/-- Meaning of LODGE_RUN (R257): the Warden writes LG_CTRL.RUN. -/
def execLodgeRun (k : Nat) (run : Bool) (s : State) : Host.Outcome State Fault Refusal :=
  if k < 16 then .next (setRun s k run) else .fault (.noSuch "Lodge core")

/-- An agent whose writes of core `k`'s registers count (R257): the Warden and the core itself. -/
def lodgeWriter (a : Agent) (k : Nat) : Bool :=
  match a with
  | .host _ => false
  | .warden => true
  | .lodge j => j == k

/-- Meaning of BSMASK_DONE. -/
def execBsmaskDone (a : Agent) (k slot positions : Nat) (s : State) : Host.Outcome State Fault Refusal :=
  if k < 16 ∧ slot < 1024 ∧ positions < 512 ∧ agentOk a then
    .next (if lodgeWriter a k then maskDone s k slot positions else s)
  else .fault (.noSuch "Lodge core or slot")

/-- Meaning of WATCH_ARM (R250). -/
def execWatchArm (a : Agent) (k n : Nat) (v : W64) (s : State) : Host.Outcome State Fault Refusal :=
  if k < 16 ∧ n < 8 ∧ agentOk a then
    .next (if lodgeWriter a k then lodgeWrite s k (LG_WATCH_OFF n) v (BitVec.allOnes 64) (a == .warden) else s)
  else .fault (.noSuch "Lodge core or watch")

/-- An armed watch fires: with BROKEN on an orphaned counter, else once the counter, as the comparators see it, meets its value (R52, R250). -/
def watchDue (s : State) (k n : Nat) : Option Bool :=
  let l := s.lodge k
  let t := s.tile (s.phys ((tilesOf k).getD (l.rd (LG_WATCH_TILE n)) 0))
  let c := l.rd (LG_WATCH_COUNTER n)
  if l.rd (LG_WATCH_ARM n) = 0 then none
  else if t.orphaned.getLsbD c then some true
  else if l.rd (LG_WATCH_VALUE n) ≤ t.tcSeen c then some false
  else none

/-- Meaning of WATCH_FIRE: ARM clears, FIRED is set, and BROKEN on an orphaned counter. -/
def execWatchFire (k n : Nat) (s : State) : Host.Outcome State Fault Refusal :=
  if k < 16 ∧ n < 8 then
    .next (match watchDue s k n with
      | some broken => s.setLodge k ((((s.lodge k).wr (LG_WATCH_ARM n) 0).raise (LG_WATCH_FIRED n)).wr (LG_WATCH_BROKEN n) (ofBool broken))
      | none => s)
  else .fault (.noSuch "Lodge core or watch")

/-- Meaning of BSEVENT_READ: the core reads the head entry, which leaves the queue. -/
def execBseventRead (k : Nat) (s : State) : Host.Outcome State Fault Refusal :=
  if k < 16 then .next ((s.setLodge k (popEvent (s.lodge k))).emit (.lodgeRead k (lodgeEvent (s.lodge k)))) else .fault (.noSuch "Lodge core")

end Sys2Proof.Machine
end

