-- ==== Sys2Proof/Machine/Icehouse.lean ====
section
/-!
DEFINITION. The Icehouse (R275 to R281): digests of a prompt, lookup, insertion and eviction, the decisions of the lead module, block tables.
-/

namespace Sys2Proof.Machine
open Sys2Proof

/-- Full blocks of a prompt (R277). -/
def promptBlocks (prompt : List Nat) : Nat := prompt.length / 256

/-- T_k: 256 token IDs as little-endian u32 values (R277). -/
def blockBytes (prompt : List Nat) (k : Nat) : List Byte := ((prompt.drop (256 * k)).take 256).flatMap (leBytes 4)

/-- The digests d_0 to d_(n−1) of a prompt (R277), `prev` the salt or the digest before. -/
def digests (prompt : List Nat) : Nat → Nat → List Byte → List (List Byte)
  | 0, _, _ => []
  | n + 1, k, prev => let d := sha256 (prev ++ blockBytes prompt k); d :: digests prompt n (k + 1) d

/-- The slot of an entry under a group and a digest, valid or pending. -/
def entryOf (idx : SMap IhEntry) (group : Nat) (d : List Byte) : Option (Nat × IhEntry) :=
  idx.find? (fun e => e.2.group == group && e.2.digest == d)

/-- The slots that a lookup matches (R279): it stops at the first digest without a valid entry. -/
def matchedSlots (idx : SMap IhEntry) (group : Nat) : List (List Byte) → List Nat
  | [] => []
  | d :: ds =>
    match entryOf idx group d with
    | some (n, e) => if e.valid then n :: matchedSlots idx group ds else []
    | none => []

/-- A decision applied to an index (R278) in frame `f`. -/
def applyDecision (f : Nat) (idx : SMap IhEntry) (d : IhDecision) : SMap IhEntry :=
  match d with
  | .insert slot group digest parent owner =>
    SMap.put idx slot { valid := false, group := group, digest := digest, parent := parent, pins := [], lastMatch := f, owner := owner }
  | .evict slot => SMap.del idx slot
  | .validate slot =>
    match SMap.look? idx slot with
    | some e => SMap.put idx slot { e with valid := true }
    | none => idx

/-- The block slots of a pool (R275). -/
def poolSlots (s : State) (q : Nat) (p : Pool) : Nat := p.stripes * extentBytes * (s.groups q).length / (2048 * p.unit)

/-- The lowest number that a table does not hold. -/
def firstFree {α : Type} : SMap α → Nat → Nat
  | [], c => c
  | (k, _) :: r, c => if k = c then firstFree r (c + 1) else c

/-- The entry that firmware 4.2 evicts (R280). -/
def victim (idx : SMap IhEntry) : Option Nat :=
  let leaf := fun (n : Nat) => !idx.any (fun e => e.2.parent == some n)
  (minBy (fun (e : Nat × IhEntry) => e.2.lastMatch) (idx.filter (fun e => e.2.valid && e.2.pins.isEmpty && leaf e.1))).map (·.1)

/-- The decisions that store new blocks (R280), on the index as it will stand; a block that some request is already computing is not stored
again, and a block without a slot is not stored. `parent` is the slot of the block before. -/
def planInserts (f slots group owner : Nat) : List (List Byte) → Option Nat → SMap IhEntry → List IhDecision
  | [], _, _ => []
  | d :: ds, parent, idx =>
    match entryOf idx group d with
    | some (n, _) => planInserts f slots group owner ds (some n) idx
    | none =>
      let n := firstFree idx 0
      if n < slots then
        let x := IhDecision.insert n group d parent owner
        x :: planInserts f slots group owner ds (some n) (applyDecision f idx x)
      else match victim idx with
        | some v =>
          let x := IhDecision.insert v group d parent owner
          .evict v :: x :: planInserts f slots group owner ds (some v) (applyDecision f (SMap.del idx v) x)
        | none => planInserts f slots group owner ds none idx

/-- The slots that decisions reserve. -/
def reservedSlots (ds : List IhDecision) : List Nat :=
  ds.filterMap (fun d => match d with | .insert n _ _ _ _ => some n | _ => none)

/-- The index with its matched entries pinned by a request (R279). -/
def pinned (p : Pool) (slots : List Nat) (tag f : Nat) : Pool :=
  { p with index := p.index.map (fun e => if slots.contains e.1 then (e.1, { e.2 with pins := e.2.pins ++ [tag], lastMatch := f }) else e) }

/-- The counts of a slot that a decision reserves begin again. -/
def Pool.reserve (d : IhDecision) (p : Pool) : Pool :=
  match d with
  | .insert n _ _ _ _ => { p with written := SMap.put p.written n 0, reports := SMap.del p.reports n }
  | _ => p

/-- A decision is known to this module (R278). -/
def hearDecision (s : State) (q f : Nat) (d : IhDecision) : State :=
  (s.modFront q (fun x => { x with decisions := x.decisions ++ [(f, d)] })).modPool q (Pool.reserve d)

/-- A decision of the lead enters its own list and leaves for every other module of the pool, naming a frame 2 frames ahead (R278). -/
def decide_ (s : State) (q : Nat) (modules : List Nat) (d : IhDecision) : State :=
  let f := s.frame + 2
  (modules.filter (· != s.index)).foldl (fun s m => s.tellWarden m (.decision q f d)) (hearDecision s q f d)

/-- The decisions of frame `f` take effect (R278). -/
def applyDecisions (s : State) (q f : Nat) : State :=
  let ds := (s.pv q).front.decisions
  if ds.isEmpty then s
  else
    let now := ds.filter (fun d => d.1 ≤ f)
    (s.modPool q (fun p => { p with index := now.foldl (fun i d => applyDecision f i d.2) p.index })).modFront q
      (fun x => { x with decisions := ds.filter (fun d => !(d.1 ≤ f)) })

/-- The block table of an admitted request (R281, R315): its layout is free (log entry 24). With balancing off no weighting enters it (R333). -/
def writeTable (s : State) (q : Nat) (i : Image) (t : TableMsg) : State :=
  let weights := if (s.pv q).run.balance then some (Config.chunkWeights t.matched.length) else none
  ((Config.blockTable t.decode t.matched t.reserved t.tslot t.dslot t.salt weights).filter (fun b => i.blockTable + b.1 < windowBytes s q)).foldl
    (fun s b => windowWrite s q (i.blockTable + b.1) [b.2]) s

/-- What the front tells the lead of a live request (R278). -/
def askOf (s : State) (q : Nat) (r : Req) : Ask :=
  { pv := q, tag := r.tag, tenant := r.tenant, prompt := r.prompt, front := s.index, decode := r.decode, tslot := r.tslot, dslot := r.dslot,
    group := if s.rd (TS_TENANT_CFG_GROUP_VALID r.tenant) = 1 then some (s.rd (TS_TENANT_CFG_SALT r.tenant)) else none }

/-- The front notes what the lookup of a request matched (R279). -/
def noteMatched (s : State) (q tag blocks : Nat) (hs : List (List Byte)) : State :=
  s.modFront q (fun f => { f with live := f.live.map (fun x => if x.tag = tag then { x with matched := 256 * blocks, hashes := hs } else x) })

/-- The lead tells the front what it matched, here or by message. -/
def tellMatched (s : State) (a : Ask) (blocks : Nat) (hs : List (List Byte)) : State :=
  if a.front = s.index then noteMatched s a.pv a.tag blocks hs else s.tellWarden a.front (.matched a.pv a.tag blocks)

/-- A block table is written on this module and on every other one of the pool (R281). -/
def sendTable (s : State) (i : Image) (a : Ask) (t : TableMsg) : State :=
  (i.deploy.poolModules.filter (· != s.index)).foldl (fun s m => s.tellWarden m (.table a.pv t)) (writeTable s a.pv i t)

/-- The table of a request with the slots that a lookup gives it. -/
def tableOf (a : Ask) (matched reserved : List Nat) : TableMsg :=
  { decode := a.decode, tslot := a.tslot, dslot := a.dslot, salt := a.group.getD 0, matched := matched, reserved := reserved }

/-- The lead's lookup for a request that has been admitted (R278 to R281): its digests, the matched slots, the pins, and the decisions that store its
new blocks. A request of no tenant group matches and stores nothing. -/
def leadLookup (s : State) (i : Image) (p : Pool) (a : Ask) : State :=
  match a.group with
  | none => sendTable (tellMatched s a 0 []) i a (tableOf a [] [])
  | some g =>
    let q := a.pv
    let ds := digests a.prompt (promptBlocks a.prompt) 0 (saltBytes s g)
    let hit := matchedSlots p.index g ds
    let next := (s.pv q).front.decisions.foldl (fun i d => applyDecision s.frame i d.2) p.index
    let pins := (pinned { p with index := next } hit a.tag s.frame).index
    let plan := planInserts s.frame (poolSlots s q p) g a.tag (ds.drop hit.length) (hit.getLast?) pins
    let s1 := (s.inc (IH_PV_STATS_LOOKUP_BLOCKS q) ds.length).inc (IH_PV_STATS_HIT_BLOCKS q) hit.length
    let s2 := (tellMatched s1 a hit.length ds).modPool q (fun x => pinned x hit a.tag s.frame)
    sendTable (plan.foldl (fun s d => decide_ s q i.deploy.poolModules d) s2) i a (tableOf a hit (reservedSlots plan))

/-- The lookup of a request at the pavilion's pool (R278): by the lead, to which another module passes it; a pavilion without a pool has none. -/
def lookupAsk (s : State) (i : Image) (a : Ask) : State :=
  match (s.pv a.pv).front.pool with
  | none => sendTable (tellMatched s a 0 []) i a (tableOf a [] [])
  | some p => if p.lead = s.index then leadLookup s i p a else s.tellWarden p.lead (.lookup a)

/-- The front's live request that has not been looked up, or the request that another front has passed to this lead. -/
def nextAsk (s : State) (q tag : Nat) : Option Ask :=
  match (s.pv q).front.live.find? (fun r => r.tag == tag && !r.looked) with
  | some r => some (askOf s q r)
  | none => (s.pv q).front.asks.find? (fun a => a.tag == tag)

/-- The request counts as looked up. -/
def marked (s : State) (q tag : Nat) : State :=
  s.modFront q (fun f => { f with live := f.live.map (fun x => if x.tag = tag then { x with looked := true } else x),
                                  asks := f.asks.filter (fun a => a.tag != tag) })

/-- Meaning of ICEHOUSE_LOOKUP: an admitted request whose prefix has not been looked up yet. -/
def execIcehouseLookup (q tag : Nat) (s : State) : Host.Outcome State Fault Refusal :=
  if q < 4 then
    .next (match (s.pv q).run.image, nextAsk s q tag with
      | some i, some a => lookupAsk (marked s q tag) i a
      | _, _ => s)
  else .fault (.noSuch "pavilion")

/-- A module reports the commit of the frame that holds a block's last OY_WRITE (R279): once every module of the pool has, the entry becomes valid. -/
def blockCommitted (s : State) (q slot module : Nat) : State :=
  match (s.pv q).front.pool, (s.pv q).run.image with
  | some p, some i =>
    if p.lead ≠ s.index ∨ (SMap.look? p.written slot).isNone then s
    else
      let rs := (SMap.look p.reports slot []).filter (· != module) ++ [module]
      if i.deploy.poolModules.all rs.contains then
        decide_ (s.modPool q (fun p => { p with reports := SMap.del p.reports slot, written := SMap.del p.written slot })) q i.deploy.poolModules (.validate slot)
      else s.modPool q (fun p => { p with reports := SMap.put p.reports slot rs })
  | _, _ => s

/-- Bytes of a block slot (R275). -/
def slotBytes (p : Pool) : Nat := 2048 * p.unit

/-- The window address of a block slot (R275): the pool's stripes lie inside the window. -/
def slotBase (s : State) (q : Nat) (p : Pool) (n : Nat) : Nat :=
  (p.first - (s.pv q).res.winFirst) * (s.groups q).length * extentBytes + n * slotBytes p

/-- Bytes that the committing frame has written into a block slot. -/
def slotWritten (s : State) (q : Nat) (p : Pool) (n : Nat) : Nat :=
  let lo := slotBase s q p n
  (s.die.commit.filter (fun c => c.pv == q && !c.committed && lo ≤ c.addr && c.addr < lo + slotBytes p)).foldl (fun k c => k + c.data.length) 0

/-- This module has committed a block's last OY_WRITE: the lead hears of it (R279). -/
def reportBlock (s : State) (q : Nat) (p : Pool) (n : Nat) : State :=
  if p.lead = s.index then blockCommitted s q n s.index else s.tellWarden p.lead (.committed q n s.index)

/-- A reserved slot at a commit: its block is written once as many bytes have been written as the slot holds (log entry 49). -/
def blockAtCommit (q : Nat) (p : Pool) (s : State) (x : Nat × Nat) : State :=
  let v := x.2 + slotWritten s q p x.1
  if x.2 < slotBytes p ∧ slotBytes p ≤ v then
    reportBlock (s.modPool q (fun p => { p with written := SMap.put p.written x.1 v })) q p x.1
  else s.modPool q (fun p => { p with written := SMap.put p.written x.1 v })

/-- The blocks of a pavilion's pool at a tick that commits a frame. -/
def blocksAtCommit (s : State) (q : Nat) : State :=
  match (s.pv q).front.pool with
  | some p => p.written.foldl (blockAtCommit q p) s
  | none => s

end Sys2Proof.Machine
end

