-- ==== Sys2Proof/Machine/Serving.lean ====
section
/-!
DEFINITION. Serving (R283 to R306): request records, doorbells, Warden messages, Bandstand slots opening, and what the front Warden does at a
committing tick (R288 to R293, R303, R305, R346).
-/

namespace Sys2Proof.Machine
open Sys2Proof

-- Bandstand slots

/-- A Bandstand slot opens (R294). The mask core of a constrained slot is the Lodge core of the result tile's cluster, which hears of GRAMMAR. -/
def openSlot (s0 : State) (o : SlotOpen) : State :=
  let s := dropSlotWork s0 o.slot
  let a := fun (n hi lo : Nat) => bits (o.words.getD n 0) hi lo
  let n := o.slot
  let temp := a 3 31 0
  let greedy := temp % 2 ^ 31 == 0
  let target := !o.draft
  let con := target && a 2 52 52 == 1
  let core := clusterOf (16 * o.resI + o.resJ)
  let cfg := packed [(BS_SLOT_CFG_OPEN n, 1), (BS_SLOT_CFG_MODE n, ofBool o.draft), (BS_SLOT_CFG_CONSTRAINED n, ofBool con),
    (BS_SLOT_CFG_GREEDY n, ofBool greedy), (BS_SLOT_CFG_DEPTH n, a 2 51 48), (BS_SLOT_CFG_PAVILION n, o.pv),
    (BS_SLOT_CFG_MASK_CORE n, if con then core else 0), (BS_SLOT_CFG_RESULT_I n, o.resI), (BS_SLOT_CFG_RESULT_J n, o.resJ),
    (BS_SLOT_CFG_RESULT_CTR n, o.resCtr), (BS_SLOT_CFG_RESULT_REC n, o.resRec), (BS_SLOT_CFG_VOCAB n, o.vocab)] 0
  let s1 := s.setReg (BS_SLOT_CFG_OFF n) cfg
  let s2 := s1.setReg (BS_SLOT_PARAM0_OFF n) (packed [(BS_SLOT_PARAM0_TOP_P n, a 3 63 32),
    (BS_SLOT_PARAM0_SCALE n, if greedy then 0 else div32 .rne 0x3FB8AA3B temp)] 0)
  let s3 := s2.setReg (BS_SLOT_PARAM1_OFF n) (if target then packed [(BS_SLOT_PARAM1_REP_PENALTY n, a 4 63 32), (BS_SLOT_PARAM1_PRESENCE n, a 5 31 0)] 0 else 0)
  let s4 := s3.setReg (BS_SLOT_PARAM2_OFF n) (packed [(BS_SLOT_PARAM2_TOP_K n, a 5 42 32), (BS_SLOT_PARAM2_MIN_P n, a 4 31 0)] 0)
  let s5 := s4.setReg (BS_SLOT_STOP_OFF n) (if target then o.words.getD 7 0 else 0)
  let s6 := s5.setReg (BS_SLOT_SEED_OFF n) (o.words.getD 6 0)
  let s7 := s6.setReg (BS_SLOT_STATE_OFF n) (packed [(BS_SLOT_STATE_PHASE n, bsCollecting)] 0)
  let s8 := s7.modSlot n (fun _ => { BsSlot.reset with tag := o.tag, pen := if target then o.seeds else [], maxTokens := a 2 47 32 })
  if con then tellLodge s8 core (.grammar (a 5 63 48) n) else s8

/-- A slot opens on a module: here, or by a Warden message (R283). -/
def openOn (s : State) (module : Nat) (o : SlotOpen) : State :=
  if module = s.index then openSlot s o else s.tellWarden module (.openSlot o)

-- request records (R285, R286)

/-- An FP32 field with a finite value in a closed range of codes' values. -/
def fpIn (x : Nat) (lo hi : Fp) : Bool := (dec32 x).isFin && Fp.cmp lo (dec32 x) ≤ 0 && Fp.cmp (dec32 x) hi ≤ 0

/-- The ageing period of a class in milliseconds; class 0 does not age (R290). -/
def agePeriod (s : State) (c : Nat) : Nat :=
  match c with
  | 1 => s.rd TS_AGE_AGE1
  | 2 => s.rd TS_AGE_AGE2
  | 3 => s.rd TS_AGE_AGE3
  | _ => 0

/-- No admission is ever possible (R286, R292). -/
def hopeless (s : State) (tenant len cls : Nat) : Bool :=
  let cap := s.rd (TS_TENANT_CFG_BURST_CAP tenant)
  2 * cap < len || (cap < len && (List.range cls).any (fun k => agePeriod s (k + 1) == 0))

/-- The tenant exists and belongs to the pavilion. -/
def tenantOf (s : State) (q n : Nat) : Bool :=
  s.rd (TS_TENANT_CFG_VALID n) == 1 && s.rd (TS_TENANT_CFG_PAVILION n) == q

/-- A waiting or live request of the pavilion by its TAG. -/
def findReq (s : State) (q tag : Nat) : Option Req :=
  let f := (s.pv q).front
  (f.waiting ++ f.live).find? (fun r => r.tag == tag)

/-- A SUBMIT record breaks R285. -/
def submitBad (s : State) (q : Nat) (i : Image) (rec : List W64) (prompt : List Nat) : Bool :=
  let a := fun (n hi lo : Nat) => bits (rec.getD n 0) hi lo
  let len := a 2 18 0
  a 0 7 0 != 1 || a 0 31 28 != 0 || a 0 15 8 != 0 || a 2 63 63 != 0 || a 2 53 53 != 0 || a 2 31 19 != 0 || a 5 47 43 != 0 || a 7 63 57 != 0
    || !tenantOf s q (a 0 27 16) || (findReq s q (a 0 63 32)).isSome || a 1 5 0 != 0
    || 256 < a 2 62 54 || len < a 2 62 54 || i.maxDepth < a 2 51 48 || a 2 47 32 == 0 || len == 0
    || i.contextLen < len + a 2 47 32
    || !fpIn (a 3 63 32) (.fin false 1 (-149)) (.fin false 1 0)
    || !((dec32 (a 3 31 0)).isZero || fpIn (a 3 31 0) (.fin false 1 (-16)) (.fin false 1 16))
    || !fpIn (a 4 63 32) (.fin false 1 (-149)) (.fin false 1 128) || !fpIn (a 4 31 0) (.fin false 0 0) (.fin false 1 0)
    || 1024 < a 5 42 32 || !(dec32 (a 5 31 0)).isFin
    || prompt.any (fun t => i.vocab ≤ t)

/-- A record of KIND REFUSED (R286). The budget of a tenant that is not the pavilion's is a free value (log entry 11). -/
def refuse (s : State) (q : Nat) (rec : List W64) (status : Nat) : State :=
  let ten := bits (rec.getD 0 0) 27 16
  let own := tenantOf s q ten
  let c : CplRec := {
    tag := bits (rec.getD 0 0) 63 32, kind := kindRefused, status := status, accepted := 0, emptyRow := false, maxReached := false,
    stopped := false, cancelledAt := false, cancelled := false, tokens := [], step := 0, tenant := ten,
    budget := if own then s.rd (TS_TENANT_BUDGET_BUDGET ten) else Config.freeNat s.free, matched := 0, emitted := 0 }
  complete (if own then s else s.drawn) q c.words

/-- The Warden may read the next record of a pavilion's ring (R349): its image, if so. -/
def mayRead (s : State) (q : Nat) : Option Image :=
  let v := s.pv q
  match v.front.rings, v.run.image with
  | some r, some i =>
    if r.reqCi ≠ r.reqPi ∧ !r.stalled ∧ (v.run.st = pvRunning ∨ v.run.st = pvHeld ∨ v.run.st = pvDraining) ∧ v.front.waiting.length < 4096 ∧ i.frontModule = s.index
    then some i else none
  | _, _ => none

/-- A record has been read: REQ_CI advances in the write-back record (R348). -/
def advance (s : State) (q : Nat) : State :=
  match (s.pv q).front.rings with
  | none => s
  | some r =>
    let r1 : Rings := { r with reqCi := r.reqCi + 1 }
    (s.modFront q (fun f => { f with rings := some r1 })).emit (.hostWrite r.fn r.wb (writeBack r1))

/-- The pavilion has stopped taking records (R346). -/
def refusing (s : State) (q : Nat) : Bool := (s.pv q).run.st == pvDraining && (s.pv q).run.drained

/-- A SUBMIT record is queued (R286, R290). -/
def enqueue (s : State) (q : Nat) (rec : List W64) (prompt : List Nat) : State :=
  let ten := bits (rec.getD 0 0) 27 16
  let r : Req := {
    tag := bits (rec.getD 0 0) 63 32, tenant := ten, words := rec, prompt := prompt, cls := s.rd (TS_TENANT_CFG_CLASS ten), since := s.sun.time,
    cancelled := false, matched := 0, emitted := 0, decode := 0, sampler := 0, tslot := 0, dslot := none, hashes := [], looked := false }
  s.modFront q (fun f => { f with waiting := f.waiting ++ [r], readNow := f.readNow + 1 })

/-- A SUBMIT record is read, checked, and queued or refused (R286). The prompt is what the DMA read. -/
def submit (s : State) (q : Nat) (i : Image) (rec : List W64) (tokens : List Nat) : State :=
  let len := bits (rec.getD 2 0) 18 0
  let ten := bits (rec.getD 0 0) 27 16
  let prompt := (List.range len).map (fun k => tokens.getD k 0)
  if refusing s q then refuse s q rec stStateConflict
  else if submitBad s q i rec prompt then refuse s q rec stBadArgument
  else if hopeless s ten len (s.rd (TS_TENANT_CFG_CLASS ten)) then refuse s q rec stNoResource
  else enqueue s q rec prompt

/-- Meaning of SUBMIT_RECORD: any record whose TYPE is not CANCEL. -/
def execSubmitRecord (q : Nat) (rec : List W64) (prompt : List Nat) (s : State) : Host.Outcome State Fault Refusal :=
  if q < 4 then
    .next (match mayRead s q with
      | some i => if bits (rec.getD 0 0) 7 0 = 2 then s else advance (submit s q i rec prompt) q
      | none => s)
  else .fault (.noSuch "pavilion")

/-- A CANCEL record is read and checked (R286, R305): it takes effect at the next committing tick. -/
def cancel (s : State) (q : Nat) (rec : List W64) : State :=
  let a := fun (n hi lo : Nat) => bits (rec.getD n 0) hi lo
  let tag := a 0 63 32
  let known := match findReq s q tag with
    | some r => !r.cancelled && !(s.pv q).front.cancels.contains tag
    | none => false
  if refusing s q then refuse s q rec stStateConflict
  else if a 0 31 28 ≠ 0 ∨ a 0 15 8 ≠ 0 ∨ (rec.drop 1).any (· != 0) ∨ !tenantOf s q (a 0 27 16) then refuse s q rec stBadArgument
  else if !known then refuse s q rec stStateConflict
  else s.modFront q (fun f => { f with cancels := f.cancels ++ [tag], readNow := f.readNow + 1 })

/-- Meaning of CANCEL_RECORD. -/
def execCancelRecord (q : Nat) (rec : List W64) (s : State) : Host.Outcome State Fault Refusal :=
  if q < 4 then
    .next (match mayRead s q with
      | some _ => if bits (rec.getD 0 0) 7 0 = 2 then advance (cancel s q rec) q else s
      | none => s)
  else .fault (.noSuch "pavilion")

-- doorbells (R349, R355)

/-- The rings whose doorbell a function's write reaches: those of the pavilion that name it. -/
def doorbellRings (s : State) (f : Func) (q : Nat) : Option Rings :=
  (s.pv q).front.rings.bind (fun r => if r.fn = fnNum f then some r else none)

/-- A write of MB_REQ_DB: an index that overfills the ring or moves backward is ignored and sets RING_ERROR. Either write lets reading resume (R424). -/
def reqDoorbell (s : State) (f : Func) (q : Nat) (v : W64) : State :=
  match doorbellRings s f q with
  | none => s
  | some r0 =>
    let r : Rings := { r0 with stalled := false }
    let s := s.modFront q (fun y => { y with rings := some r })
    let x : W32 := v.setWidth 32
    let held := (x - r.reqCi).toNat
    if 2 ^ r.reqN < held ∨ held < (r.reqPi - r.reqCi).toNat then setEvent s r.fn 4
    else s.modFront q (fun y => { y with rings := some { r with reqPi := x } })

/-- Meaning of MB_REQ_DB. -/
def execMbReqDb (f : Func) (q : Nat) (v : W64) (s : State) : Host.Outcome State Fault Refusal :=
  if fnOk f ∧ q < 4 then .next (reqDoorbell s f q v) else .fault (.noSuch "function or pavilion")

/-- A write of MB_CPL_DB: an index past the producer or backward is ignored and sets RING_ERROR. -/
def cplDoorbell (s : State) (f : Func) (q : Nat) (v : W64) : State :=
  match doorbellRings s f q with
  | none => s
  | some r =>
    let x : W32 := v.setWidth 32
    if (r.cplPi - r.cplCi).toNat < (x - r.cplCi).toNat then setEvent s r.fn 4
    else s.modFront q (fun y => { y with rings := some { r with cplCi := x } })

/-- Meaning of MB_CPL_DB. -/
def execMbCplDb (f : Func) (q : Nat) (v : W64) (s : State) : Host.Outcome State Fault Refusal :=
  if fnOk f ∧ q < 4 then .next (cplDoorbell s f q v) else .fault (.noSuch "function or pavilion")

-- Warden messages

/-- A stop frame is announced (R346): the other modules enter DRAINING on receipt. -/
def stopAnnounced (s : State) (q frame : Nat) : State :=
  let st := (s.pv q).run.st
  if st = pvRunning then (enterState s q pvDraining).modRun q (fun r => { r with stopAt := some frame, drained := true })
  else if st = pvDraining then s.modRun q (fun r => { r with stopAt := some frame })
  else s

/-- A Warden message takes effect (R278, R279, R281, R283, R303, R306, R346). -/
def wardenMessage (s : State) (m : WMsg) : State :=
  match m with
  | .openSlot o => openSlot s o
  | .closeSlot n => closeSlot s n
  | .emission e => s.modFront e.pv (fun f => { f with arrived := f.arrived ++ [e] })
  | .lookup a => s.modFront a.pv (fun x => { x with asks := x.asks ++ [a] })
  | .matched q tag n => noteMatched s q tag n []
  | .table q t => (match (s.pv q).run.image with | some i => writeTable s q i t | none => s)
  | .unpin q tag aborted => s.modPool q (fun p => dropPins p tag aborted)
  | .decision q f d => hearDecision s q f d
  | .committed q slot module => blockCommitted s q slot module
  | .stopFrame q f => stopAnnounced s q f

/-- The numbers of a Warden message lie in range. -/
def msgOk : WMsg → Bool
  | .openSlot o => o.slot < 1024 && o.pv < 4 && o.resI < 16 && o.resJ < 16
  | .closeSlot n => n < 1024
  | .emission e => e.pv < 4
  | .lookup a => a.pv < 4
  | .matched q _ _ => q < 4
  | .table q _ => q < 4
  | .unpin q _ _ => q < 4
  | .decision q _ _ => q < 4
  | .committed q _ _ => q < 4
  | .stopFrame q _ => q < 4

/-- Meaning of WARDEN_MESSAGE. -/
def execWardenMessage (m : WMsg) (s : State) : Host.Outcome State Fault Refusal :=
  if msgOk m then .next (wardenMessage s m) else .fault (.noSuch "slot or pavilion")

-- the committing tick

/-- A setting that waits for the tick is written (R352). -/
def applyAtTick (s : State) (x : AtTick) : State :=
  match x with
  | .tenant n cfg rate => (s.setReg (TS_TENANT_CFG_OFF n) cfg).setReg (TS_TENANT_RATE_OFF n) rate
  | .budget n v => s.setReg (TS_TENANT_BUDGET_OFF n) (setBits 0 47 0 v.toNat)
  | .budgetAdd n v => setBudget s n (min (s.rd (TS_TENANT_CFG_BURST_CAP n)) (budget s n + toInt48 v.toNat))
  | .age v => s.setReg TS_AGE_OFF (setBits 0 47 0 v.toNat)
  | .balance q on => s.modRun q (fun r => { r with balance := on })

/-- Every setting that waits, in order. -/
def applySettings (s : State) : State :=
  let l := s.die.atTick
  l.foldl applyAtTick { s with die := { s.die with atTick := [] } }

/-- Units of `Sun.time` in a nanosecond. -/
def unitsPerNs : Nat := 21840000

/-- The tenants whose CFG is VALID. -/
def validTenants (s : State) : List Nat :=
  s.reg.filterMap (fun e =>
    if 0x130000 ≤ e.1 ∧ e.1 < 0x150000 ∧ (e.1 - 0x130000) % 32 = 0 ∧ bit e.2 63 then some ((e.1 - 0x130000) / 32) else none)

/-- The refill of a tenant over `d` units of real time (R288); the hidden remainder is kept in token × unit of time. -/
def refill (d : Nat) (s : State) (n : Nat) : State :=
  let acc := SMap.look s.die.remainder n 0 + s.rd (TS_TENANT_RATE_REFILL n) * d
  let per := 1000000000 * unitsPerNs
  let s1 : State := { s with die := { s.die with remainder := SMap.put s.die.remainder n (acc % per) } }
  setBudget s1 n (min (s.rd (TS_TENANT_CFG_BURST_CAP n)) (budget s n + (acc / per : Nat)))

/-- The Turnstile refills every valid tenant (R288). -/
def refillAll (s : State) : State :=
  let d := s.sun.time - s.sun.lastRefill
  (validTenants s).foldl (refill d) { s with sun := { s.sun with lastRefill := s.sun.time } }

/-- A cancel takes effect (R305). `late` holds the requests whose last step is recorded at this tick: for them completion wins. -/
def cancelOne (q : Nat) (late : List Nat) (s : State) (tag : Nat) : State :=
  let f := (s.pv q).front
  match f.waiting.find? (fun r => r.tag == tag) with
  | some r =>
    let s1 := s.modFront q (fun f => { f with waiting := f.waiting.filter (fun x => x.tag != tag) })
    complete s1 q (finalRec s1 { r with cancelled := true } stDone).words
  | none =>
    if late.contains tag then s
    else s.modFront q (fun f => { f with live := f.live.map (fun r => if r.tag = tag then { r with cancelled := true } else r) })

/-- An emission is charged and recorded (R293, R303, R305); the request's pins end, since its prefill is complete (R279). `late` holds the requests that a cancel of this tick found complete. -/
def recordEmission (q : Nat) (late : List Nat) (s : State) (e : Emission) : State :=
  match (s.pv q).front.live.find? (fun r => r.tag == e.tag) with
  | none => s
  | some r =>
    let r1 : Req := { r with emitted := r.emitted + e.tokens.length }
    let s1 := chargeEmitted s r.tenant e.tokens.length
    let c : CplRec := {
      tag := r.tag, kind := if e.fin then kindFinal else kindTokens, status := stDone, accepted := e.accepted, emptyRow := e.emptyRow,
      maxReached := e.maxReached, stopped := e.stopped, cancelledAt := e.fin && late.contains r.tag, cancelled := false, tokens := e.tokens, step := e.step,
      tenant := r.tenant, budget := s1.rd (TS_TENANT_BUDGET_BUDGET r.tenant), matched := r.matched, emitted := r1.emitted }
    if e.fin then
      let s2 := s1.modFront q (fun f => { f with live := f.live.filter (fun x => x.tag != r.tag) })
      let s3 := unpin (releaseSlots s2 q r) q r.tag false
      if r.cancelled then complete s3 q (finalRec s3 r1 stDone).words else complete s3 q c.words
    else
      let s2 := unpin (s1.modFront q (fun f => { f with live := f.live.map (fun x => if x.tag = r.tag then r1 else x) })) q r.tag false
      if r.cancelled then s2 else complete s2 q c.words

/-- Steps 2 and 3 of R289. -/
def cancelsAndEmissions (s : State) (q : Nat) : State :=
  let f := (s.pv q).front
  let late := f.cancels.filter (fun t => f.arrived.any (fun e => e.tag == t && e.fin))
  let s1 := s.modFront q (fun f => { f with cancels := [], arrived := [], readNow := 0 })
  f.arrived.foldl (recordEmission q late) (f.cancels.foldl (cancelOne q late) s1)

/-- A waiting request ages (R290). -/
def aged (s : State) (r : Req) : Req :=
  let a := agePeriod s r.cls
  if r.cls ≠ 0 ∧ a ≠ 0 ∧ a * 1000000 * unitsPerNs ≤ s.sun.time - r.since then { r with cls := r.cls - 1, since := s.sun.time } else r

/-- Waiting requests end, each with a FINAL of COUNT 0 (R292, R346). -/
def endWaiting (s : State) (q status : Nat) (which : Req → Bool) : State :=
  let gone := (s.pv q).front.waiting.filter which
  let s1 := s.modFront q (fun f => { f with waiting := f.waiting.filter (fun r => !which r) })
  gone.foldl (fun s r => complete s q (finalRec s r status).words) s1

/-- Step 4 of R289, with R292. -/
def ageing (s : State) (q : Nat) : State :=
  let s1 := s.modFront q (fun f => { f with waiting := f.waiting.map (aged s) })
  endWaiting s1 q stNoResource (fun r => hopeless s r.tenant r.promptLen r.cls)

/-- Waiting requests in order of class, then of reading (R291). -/
def admitOrder (l : List Req) : List Req := (List.range 4).flatMap (fun c => l.filter (fun r => r.cls == c))

/-- The budget condition of R291. -/
def budgetAllows (s : State) (r : Req) : Bool :=
  let b := budget s r.tenant
  if r.cls = 0 then -(s.rd (TS_TENANT_CFG_BURST_CAP r.tenant) : Int) ≤ b - r.promptLen else (r.promptLen : Int) ≤ b

/-- A Bandstand slot of a module that the front Warden may give: closed, where the module is this one, and given to no live request. -/
def freeSlot (s : State) (module : Nat) (also : Option Nat) (i : Image) : Option Nat :=
  let live := (List.range 4).flatMap (fun q => (s.pv q).front.live)
  (List.range 1024).find? (fun n => some n != also
    && !(module == s.index && slotOpen s n)
    && !live.any (fun r => (r.sampler == module && r.tslot == n) || (draftModule i r.decode == module && r.dslot == some n)))

/-- The places of a request (R283): decode slot, sampling module, target slot, draft slot. -/
def places (s : State) (q : Nat) (i : Image) (r : Req) : Option (Nat × Nat × Nat × Option Nat) :=
  let f := (s.pv q).front
  let sampler := i.deploy.sampling.getD (f.nextSampler % (max 1 i.deploy.sampling.length)) s.index
  let limit := match i.deploy.perFrame with | some n => f.admitted < n | none => true
  if !limit ∨ i.deploy.sampling.isEmpty then none
  else match (List.range i.deploy.decodeSlots).find? (fun k => !f.live.any (fun x => x.decode == k)), freeSlot s sampler none i with
    | some k, some t =>
      if r.depth = 0 then some (k, sampler, t, none)
      else match freeSlot s (draftModule i k) (if sampler = draftModule i k then some t else none) i with
        | some d => some (k, sampler, t, some d)
        | none => none
    | _, _ => none

/-- What opens a slot of a request (R283, R294). -/
def slotOpenOf (i : Image) (q : Nat) (r : Req) (slot : Nat) (draft : Bool) (place : Nat) : SlotOpen :=
  let x := i.deploy.results.getD place (0, 0, 0, 0)
  { slot := slot, draft := draft, pv := q, tag := r.tag, resI := x.1, resJ := x.2.1, resCtr := x.2.2.1, resRec := x.2.2.2,
    vocab := i.vocab, words := r.words, seeds := r.prompt.drop (r.prompt.length - r.penPrompt) }

/-- A request is admitted to its places (R291, R293). -/
def admitOne (s : State) (q : Nat) (i : Image) (r : Req) (x : Nat × Nat × Nat × Option Nat) : State :=
  let r1 : Req := { r with decode := x.1, sampler := x.2.1, tslot := x.2.2.1, dslot := x.2.2.2 }
  let s1 := (chargePrompt s r.tenant r.promptLen).modFront q (fun f => { f with
    waiting := f.waiting.filter (fun y => y.tag != r.tag), live := f.live ++ [r1], nextSampler := f.nextSampler + 1, admitted := f.admitted + 1 })
  let s2 := openOn s1 r1.sampler (slotOpenOf i q r1 r1.tslot false r1.decode)
  match r1.dslot with
  | some d => openOn s2 (draftModule i r1.decode) (slotOpenOf i q r1 d true (i.deploy.decodeSlots + r1.decode))
  | none => s2

/-- Admission in order (R291): a request that fails on its budget is passed over, one that fails on capacity ends it. -/
def admitLoop (q : Nat) (i : Image) : List Req → State → State
  | [], s => s
  | r :: rs, s =>
    if budgetAllows s r then
      match places s q i r with
      | some x => admitLoop q i rs (admitOne s q i r x)
      | none => s
    else admitLoop q i rs s

/-- Step 5 of R289: RUNNING, from f₀ on, while no record is held (R344, R350). -/
def admission (s : State) (q : Nat) : State :=
  let v := s.pv q
  match v.run.image with
  | none => s
  | some i =>
    if v.run.st = pvRunning ∧ i.frontModule = s.index ∧ v.run.f0 ≤ s.frame ∧ v.front.store.isEmpty then
      admitLoop q i (admitOrder v.front.waiting) (s.modFront q (fun f => { f with admitted := 0 }))
    else s

/-- A draining front (R346): waiting requests end, and once no request is live the stop frame is named. -/
def drainTick (s : State) (q : Nat) : State :=
  match (s.pv q).run.image with
  | none => s
  | some i =>
    if (s.pv q).run.st = pvDraining ∧ i.frontModule = s.index then
      let s1 := (endWaiting s q stStateConflict (fun _ => true)).modRun q (fun r => { r with drained := true })
      if (s1.pv q).run.st = pvDraining ∧ (s1.pv q).front.live.isEmpty ∧ (s1.pv q).run.stopAt = none then
        let f := s1.frame + 2
        (i.deploy.modules.filter (· != s1.index)).foldl (fun s m => s.tellWarden m (.stopFrame q f))
          (s1.modRun q (fun r => { r with stopAt := some f }))
      else s1
    else s

/-- What the front Warden does for one pavilion at a committing tick, after the refill (R289). -/
def servePv (s : State) (q : Nat) : State := admission (drainTick (ageing (cancelsAndEmissions s q) q) q) q

/-- R289 at a committing tick, the settings of R352 first. -/
def serveTick (s : State) : State := (List.range 4).foldl servePv (refillAll (applySettings s))

end Sys2Proof.Machine
end

