-- ==== Sys2Proof/Machine/Mailbox.lean ====
section
/-!
DEFINITION. The mailbox (R337 to R340, R351, R354): how a command is submitted, picked up, checked and answered; asynchronous commands in flight; and
the module commands that only read or write registers and durable words.
-/

namespace Sys2Proof.Machine
open Sys2Proof

-- submitting and answering

/-- The result words of a mailbox window (R354). -/
def isResult (off : Nat) : Bool := MB_RES_OFF 0 ≤ off && off < MB_RES_OFF 32

/-- A set of MB_STATUS.DOORBELL_LOST, which its counter counts (R337, R426); it raises no vector (R422). -/
def doorbellLost (s : State) (n : Nat) : State :=
  s.modFn n (fun m => (m.raise MB_STATUS_DOORBELL_LOST).wr MB_FLAG_CNT1_DOORBELL_LOST (m.rd MB_FLAG_CNT1_DOORBELL_LOST + 1))

/-- A doorbell (R337): BUSY is set and MB_CMD and MB_ARG are copied; while BUSY is set the doorbell is ignored. -/
def doorbell (s : State) (n : Nat) : State :=
  let m := s.fn n
  if m.rd MB_STATUS_BUSY = 1 then doorbellLost s n
  else
    let args := (List.range 32).map (fun w => (w, m.regW (MB_ARG_OFF w)))
    let m1 := m.wr MB_STATUS_BUSY 1
    s.setFn n { m1 with latched := some (m.regW MB_CMD_OFF, args), rungAt := s.sun.time, reg := m1.reg.filter (fun r => !isResult r.1) }

/-- The answer of a command (R337): the result words, then STATUS, DETAIL, TICKET and DONE with BUSY cleared, and vector 0. A command whose copy is
gone is not answered (R425). -/
def answer (s : State) (n status detail ticket : Nat) (res : List W64) : State :=
  let m := s.fn n
  match m.latched with
  | none => s
  | some (cmd, _) =>
    let m1 := (List.range res.length).foldl (fun (m : Fn) w => m.setReg (MB_RES_OFF w) (res.getD w 0)) m
    let st := packed [(MB_STATUS_TOKEN, bits cmd 31 16), (MB_STATUS_DETAIL, detail), (MB_STATUS_TICKET, ticket), (MB_STATUS_STATUS, status),
      (MB_STATUS_DONE, 1), (MB_STATUS_BUSY, 0)] (m1.regW MB_STATUS_OFF)
    raiseVec (s.setFn n { (m1.setReg MB_STATUS_OFF st).raise MB_STATUS_DONE with latched := none }) n 0

/-- A synchronous command ends with DONE and these result words. -/
def answerDone (s : State) (n : Nat) (res : List W64) : State := answer s n stDone 0 0 res

/-- A command ends with another status. -/
def answerFail (s : State) (n status detail : Nat) : State := answer s n status detail 0 []

-- who may send what (R335, R351)

/-- Opcodes that only the primary physical function may send. -/
def primaryOnly (op : Nat) : Bool := (2 ≤ op && op ≤ 7) || (9 ≤ op && op ≤ 11) || op == 0x10 || op == 0x11

/-- Opcodes of the pavilion commands and of PV_RESET, from any function. -/
def pavilionOp (op : Nat) : Bool := op == 0x12 || (0x20 ≤ op && op ≤ 0x2F)

/-- R351: the function may send the opcode. -/
def maySend (f : Func) (op : Nat) : Bool :=
  op == 1 || pavilionOp op || (primaryOnly op && f == .pf 0) || (op == 8 && isPf f)

/-- The opcode is defined, and available to this function in this phase (R335, R340). -/
def available (s : State) (f : Func) (op : Nat) : Bool :=
  if s.gate.phase < 3 then op == 1 || (op == 2 && f == .pf 0) else maySend f op

/-- Commands are answered: by the boot ROM or by firmware, but not once firmware has halted (R335, R339). -/
def answering (s : State) : Bool := s.gate.phase < 4

/-- Bits [hi:lo] of argument word `w`. -/
def arg (a : SMap W64) (w hi lo : Nat) : Nat := bits (SMap.look a w 0) hi lo

/-- The first faulty argument word (R340): one that sets a reserved bit, outside the mask that the command gives word `w`, or whose value is out of
range. -/
def faulty (a : SMap W64) (masks : List Nat) (bad : Nat → Bool) : Option Nat :=
  (List.range 32).find? (fun w => (SMap.look a w 0 &&& ~~~ w64 (masks.getD w 0)) != 0 || bad w)

/-- The Warden or the boot ROM takes up the command that function `f` has submitted, if its opcode is `op` and its arguments select this row. -/
def serve (s : State) (f : Func) (op : Nat) (pick : SMap W64 → Bool) (body : W64 → SMap W64 → State) : State :=
  match (s.fn (fnNum f)).latched with
  | none => s
  | some (cmd, a) => if bits cmd 7 0 = op ∧ available s f op ∧ answering s ∧ pick a then body cmd a else s

/-- Every argument selects the row. -/
def anyArgs (_ : SMap W64) : Bool := true

/-- A module command whose arguments are checked (R340) before its condition (R351). -/
def serveModule (s : State) (f : Func) (op : Nat) (pick : SMap W64 → Bool) (masks : List Nat) (bad : SMap W64 → Nat → Bool) (cond : Bool)
    (body : SMap W64 → State) : State :=
  serve s f op pick (fun _ a =>
    match faulty a masks (bad a) with
    | some w => answerFail s (fnNum f) stBadArgument w
    | none => if cond then body a else answerFail s (fnNum f) stStateConflict 0)

/-- The pavilion that a command names (R351, R427, R431): a virtual function's own, or one of the physical function's port. -/
def namedPv (s : State) (f : Func) (cmd : W64) : Option Nat :=
  match f with
  | .pf port => if pvExists s (bits cmd 9 8) ∧ (s.pv (bits cmd 9 8)).res.port = port then some (bits cmd 9 8) else none
  | .vf _ _ => (List.range 4).find? (seesPv s f)

/-- A pavilion command (R342): the pavilion, then the arguments, then the state. -/
def servePavilion (s : State) (f : Func) (op : Nat) (pick : SMap W64 → Bool) (masks : List Nat) (bad : Nat → SMap W64 → Nat → Bool) (states : List Nat)
    (body : Nat → SMap W64 → State) : State :=
  serve s f op pick (fun cmd a =>
    match namedPv s f cmd with
    | none => answerFail s (fnNum f) stBadArgument 0
    | some q =>
      match faulty a masks (bad q a) with
      | some w => answerFail s (fnNum f) stBadArgument w
      | none => if states.contains (s.pv q).run.st then body q a else answerFail s (fnNum f) stStateConflict 0)

-- asynchronous commands (R338)

/-- A function has 8 asynchronous commands in flight. -/
def flightsFull (s : State) (n : Nat) : Bool := 8 ≤ (s.fn n).flights.length

/-- A pavilion has an asynchronous command in flight, from any function. -/
def pvBusy (s : State) (q : Nat) : Bool := s.fns.any (fun x => x.2.flights.any (fun y => y.pv == some q))

/-- The ticket that the next asynchronous command of a function takes. -/
def ticketOf (s : State) (n : Nat) : Nat := (s.fn n).nextTicket

/-- A millisecond of real time. -/
def milli : Nat := 1000000 * unitsPerNs

/-- An asynchronous command is accepted (R338): it answers ACCEPTED with its ticket and is in flight until its end or its limit, which runs from the doorbell (R339). -/
def accept (s : State) (n op : Nat) (q : Option Nat) (ms : Nat) (res : List W64) : State :=
  let t := ticketOf s n
  let x : Flight := { ticket := t, opcode := op, pv := q, deadline := (s.fn n).rungAt + ms * milli, discard := false }
  (answer s n stAccepted 0 t res).modFn n (fun m => { m with flights := m.flights ++ [x], nextTicket := (t + 1) % 256 })

-- frames at least 10 ms ahead (R23, R352)

/-- A Sundial cycle of a bin in units of `Sun.time`: bin 0 is 250 ps, and bin b is 16 ∕ (16 − b) of that. -/
def tcUnits (bin : Nat) : Nat := 87360000 / (16 - bin)

/-- ⌈10 ms ∕ T_L⌉ in the bin in force. -/
def leadFrames (s : State) : Nat := ceilDiv (10 * milli) (s.frameLen * tcUnits (s.rd SD_CONFIG_BIN))

/-- The earliest frame that a command may name now. -/
def earliest (s : State) : Nat := s.frame + leadFrames s

-- rows of the mailbox itself

/-- Meaning of MB_UNDEFINED_OPCODE (R335, R340, R351). -/
def undefinedOpcode (s : State) (f : Func) : State :=
  match (s.fn (fnNum f)).latched with
  | none => s
  | some (cmd, _) => if available s f (bits cmd 7 0) || !answering s then s else answerFail s (fnNum f) stBadOpcode 0

/-- MB_UNDEFINED_OPCODE. -/
def execMbUndefinedOpcode (f : Func) (s : State) : Host.Outcome State Fault Refusal :=
  if fnOk f then .next (undefinedOpcode s f) else .fault (.noSuch "function")

/-- Meaning of MB_DOORBELL_IGNORED (R337): a doorbell that finds BUSY set. -/
def execMbDoorbellIgnored (f : Func) (s : State) : Host.Outcome State Fault Refusal :=
  if fnOk f then .next (if (s.fn (fnNum f)).rd MB_STATUS_BUSY = 1 then doorbellLost s (fnNum f) else s) else .fault (.noSuch "function")

/-- Meaning of MB_ASYNC_READ (R354): the oldest entry is returned and removed; an empty queue reads as zero. -/
def asyncRead (s : State) (n : Nat) : State :=
  (s.modFn n (fun m => { m with async := m.async.tail })).emit (.asyncRead n ((s.fn n).async.headD 0))

/-- MB_ASYNC_READ. -/
def execMbAsyncRead (f : Func) (s : State) : Host.Outcome State Fault Refusal :=
  if fnOk f then .next (asyncRead s (fnNum f)) else .fault (.noSuch "function")

-- module commands

/-- The results of GET_INFO (R352). -/
def infoWords (s : State) : List W64 :=
  let up := 2 ≤ s.gate.phase
  let j0 := setBits (setBits (setBits (setBits 0 15 0 (if up then s.gate.version else 0)) 31 16 (if up then s.gate.svn else 0)) 47 32 s.gate.fuses) 50 48 s.gate.phase
  let j1 := (List.range 4).foldl (fun w q => setBits w (4 * q + 3) (4 * q) (s.pv q).run.st) 0
  [j0, setBits j1 16 16 (s.rd SD_STATUS_ALIGNED)]

/-- Meaning of GET_INFO. -/
def getInfo (s : State) (f : Func) : State :=
  serveModule s f 0x01 anyArgs [] (fun _ _ => false) true (fun _ => answerDone s (fnNum f) (infoWords s))

/-- GET_INFO. -/
def execGetInfo (f : Func) (s : State) : Host.Outcome State Fault Refusal :=
  if fnOk f then .next (getInfo s f) else .fault (.noSuch "function")

/-- A machine configuration is written (R352, R232): Sundial, every port, the routes and the tree. The plan holds 512 route words, FB_TREE, and a word
of IN_MACHINE and dateline bits. -/
def configure (s : State) (a : SMap W64) (plan : List W64) : State :=
  let l := arg a 0 23 0
  let ls := l / 1024
  let masks := plan.getD 513 0
  let s1 := (s.wr SD_CONFIG_FRAME_LEN l).wr SD_CONFIG_SPAN (arg a 0 47 24)
  let s2 := ((s1.wr SD_MACHINE_MODULES (arg a 1 28 16)).wr SD_MACHINE_INDEX (arg a 1 43 32)).wr SD_MACHINE_ROOT (arg a 1 48 48)
  let s3 := (List.range 16).foldl (fun s p =>
    let x := ((s.wr (FB_LINK_SCHED_LAT p) (arg a 1 15 0)).wr (FB_CTRL_IN_MACHINE p) (bits masks p p)).setReg (FB_SLOTS_OFF p)
      (packed [(FB_SLOTS_CAPACITY p, 3 * ls / 4), (FB_SLOTS_SLOT_LEN p, ls)] 0)
    x.setPort p { x.port p with dateline := bit masks (16 + p) }) s2
  let s4 := (List.range 512).foldl (fun s w => s.setReg (FB_ROUTE_OFF w) (plan.getD w 0 &&& 0x8F8F8F8F8F8F8F8F)) s3
  s4.setReg FB_TREE_OFF (plan.getD 512 0 &&& 0xF8000FFFF)

/-- A value of MACHINE_CONFIG is out of range: R25, the machine's size and index, the plan's address. -/
def configBad (a : SMap W64) (w : Nat) : Bool :=
  match w with
  | 0 => !frameOk (arg a 0 23 0) (arg a 0 47 24)
  | 1 => arg a 1 28 16 == 0 || 4096 < arg a 1 28 16 || arg a 1 28 16 ≤ arg a 1 43 32
  | 2 => arg a 2 5 0 != 0
  | _ => false

/-- The bits that MACHINE_CONFIG gives its argument words. -/
def configMasks : List Nat := [0xFFFFFFFFFFFF, 0x10FFF1FFFFFFF, 0xFFFFFFFFFFFFFFFF]

/-- Meaning of MACHINE_CONFIG; `plan` is what the DMA of the plan reads. -/
def machineConfig (s : State) (f : Func) (plan : List W64) : State :=
  serveModule s f 0x03 anyArgs configMasks configBad (s.rd SD_STATUS_ALIGNED == 0) (fun a => answerDone (configure s a plan) (fnNum f) [])

/-- MACHINE_CONFIG. -/
def execMachineConfig (f : Func) (plan : List W64) (s : State) : Host.Outcome State Fault Refusal :=
  if fnOk f then .next (machineConfig s f plan) else .fault (.noSuch "function")

/-- A change of bin is taken, or waits behind one whose frame is too near (R351). -/
def setBin (s : State) (n : Nat) (a : SMap W64) : State :=
  let near : Bool := match s.sun.newBin with | some (_, f) => decide (f < earliest s) | none => false
  if near then answerFail s n stBusyRetry 0
  else
    let s1 : State := { s with sun := { s.sun with newBin := some (arg a 0 2 0, arg a 1 63 0) } }
    answerDone s1 n []

/-- Meaning of FREQ_BIN (R40, R352). -/
def freqBin (s : State) (f : Func) : State :=
  serveModule s f 0x05 anyArgs [7, 0xFFFFFFFFFFFFFFFF]
    (fun a w => (w == 0 && 4 < arg a 0 2 0) || (w == 1 && arg a 1 63 0 < earliest s)) (s.rd SD_STATUS_ALIGNED == 1) (setBin s (fnNum f))

/-- FREQ_BIN. -/
def execFreqBin (f : Func) (s : State) : Host.Outcome State Fault Refusal :=
  if fnOk f then .next (freqBin s f) else .fault (.noSuch "function")

/-- A setting that takes effect at the next tick (R352). -/
def atNextTick (s : State) (x : AtTick) : State := { s with die := { s.die with atTick := s.die.atTick ++ [x] } }

/-- Meaning of AGEING. -/
def ageingCommand (s : State) (f : Func) : State :=
  serveModule s f 0x06 anyArgs [0xFFFFFFFFFFFF] (fun _ _ => false) true
    (fun a => answerDone (atNextTick s (.age (w64 (arg a 0 47 0)))) (fnNum f) [])

/-- AGEING. -/
def execAgeing (f : Func) (s : State) : Host.Outcome State Fault Refusal :=
  if fnOk f then .next (ageingCommand s f) else .fault (.noSuch "function")

-- READ_DUMP

/-- The length of an area (R398, R408): 64 MiB of crash dumps, 4 KiB of summary. -/
def areaLen (area : Nat) : Nat := if area = 0 then 0x4000000 else 0x1000

/-- A word of a crash dump that the other host's pavilions own (R431): their tile and Lodge records, and their words D8 and D9. -/
def otherHosts (s : State) (slot : SMap W64) (off : Nat) : Bool :=
  let theirs := fun (q : Nat) => pvExists s q && (s.pv q).res.port == 1
  let cluster := fun (k : Nat) => (match s.pvOfCluster k with | some q => theirs q | none => false)
  if !s.mod.split then false
  else if off < 0x1000 then (List.range 4).any (fun q => theirs q && (off == 8 * (8 + 2 * q) || off == 8 * (9 + 2 * q)))
  else if off < 0x300000 then
    let w := SMap.look slot (0x1000 + 0x2000 * ((off - 0x1000) / 0x2000)) 0
    bit w 46 && cluster (clusterOf (16 * bits w 54 51 + bits w 50 47))
  else if off < 0x301000 then cluster ((off - 0x300000) / 0x100)
  else false

/-- A word of the crash-dump area as READ_DUMP copies it. -/
def dumpWord (s : State) (off : Nat) : W64 :=
  let slot := SMap.look s.dumps.slots (off / 0x400000) []
  if otherHosts s slot (off % 0x400000) then 0 else SMap.look slot (off % 0x400000) 0

/-- A word of the summary area (R408). -/
def summaryAreaWord (s : State) (off : Nat) : W64 :=
  if off < 2048 then s.shedWord (0x100 + off / 8) else if off = 2048 then s.shedWord 0x29 else 0

/-- A word of an area. -/
def areaWord (s : State) (area off : Nat) : W64 := if area = 0 then dumpWord s off else summaryAreaWord s off

/-- Arguments of READ_DUMP that are out of range. -/
def readDumpBad (a : SMap W64) (w : Nat) : Bool :=
  match w with
  | 1 => arg a 1 5 0 != 0
  | 2 => arg a 2 11 0 != 0 || areaLen (arg a 0 0 0) < arg a 2 31 0
  | 3 => arg a 3 11 0 != 0 || areaLen (arg a 0 0 0) < arg a 2 31 0 + arg a 3 31 0
  | _ => false

/-- Meaning of READ_DUMP for one area: accepted, copied by DMA, ended. -/
def readDump (s : State) (f : Func) (area : Nat) : State :=
  let n := fnNum f
  serveModule s f 0x07 (fun a => arg a 0 0 0 == area) [1, 0xFFFFFFFFFFFFFFFF, 0xFFFFFFFF, 0xFFFFFFFF] readDumpBad true (fun a =>
    if flightsFull s n then answerFail s n stBusyRetry 0
    else
      let t := ticketOf s n
      let data := (List.range (arg a 3 31 0 / 8)).map (fun k => areaWord s area (arg a 2 31 0 + 8 * k))
      endAsync ((accept s n 0x07 none 2000 []).emit (.hostWrite n (arg a 1 63 0) data)) n t stDone 0 0)

/-- READ_DUMP_CRASH. -/
def execReadDumpCrash (f : Func) (s : State) : Host.Outcome State Fault Refusal :=
  if fnOk f then .next (readDump s f 0) else .fault (.noSuch "function")

/-- READ_DUMP_SUMMARY. -/
def execReadDumpSummary (f : Func) (s : State) : Host.Outcome State Fault Refusal :=
  if fnOk f then .next (readDump s f 1) else .fault (.noSuch "function")

-- the Shed's commands

/-- Meaning of SHED_READ (R352, R404, R407): `ue` says that the word read as uncorrectable. -/
def shedReadCommand (s : State) (f : Func) (ue : Bool) : State :=
  serveModule s f 0x08 anyArgs [0xFF] (fun _ _ => false) true (fun a =>
    let n := 0x200 + arg a 0 7 0
    let s1 := if ue then shedUe s n else s
    answerDone s1 (fnNum f) [if ue then 0 else s.shedWord n, w64 (s.shedWear n)])

/-- SHED_READ. -/
def execShedRead (f : Func) (ue : Bool) (s : State) : Host.Outcome State Fault Refusal :=
  if fnOk f then .next (shedReadCommand s f ue) else .fault (.noSuch "function")

/-- Meaning of SHED_WRITE (R352, R405, R406): the write is queued, and the command is answered when the word is durable; a worn word is refused. A
command whose write is queued already waits for it. -/
def shedWriteCommand (s : State) (f : Func) : State :=
  let n := fnNum f
  serveModule s f 0x09 anyArgs [0xFF, 0xFFFFFFFFFFFFFFFF] (fun _ _ => false) true (fun a =>
    let word := 0x200 + arg a 0 7 0
    if s.shed.queue.any (fun w => w.fn == some n) then s
    else if shedWorn s word then answerFail (shedPut s word 0 none) n stWearLimit 0
    else shedPut s word (SMap.look a 1 0) (some n))

/-- SHED_WRITE. -/
def execShedWrite (f : Func) (s : State) : Host.Outcome State Fault Refusal :=
  if fnOk f then .next (shedWriteCommand s f) else .fault (.noSuch "function")

/-- Meaning of SHED_WRITE_COMPLETE (R405): the write in progress is durable, and a SHED_WRITE that waits for it is answered. -/
def shedWriteComplete (s : State) : State :=
  match s.shed.queue with
  | [] => s
  | w :: _ =>
    match w.fn with
    | some n => answerDone (shedDone s) n []
    | none => shedDone s

/-- SHED_WRITE_COMPLETE. -/
def execShedWriteComplete (s : State) : Host.Outcome State Fault Refusal := .next (shedWriteComplete s)

end Sys2Proof.Machine
end

