-- ==== Sys2Proof/Machine/Pavilions.lean ====
section
/-!
DEFINITION. The pavilion commands (R341 to R347, R352, R427, R428): creating, destroying and resetting a pavilion, its rings, its runs, its tenants,
groups and pool, and the escalations of R397 that stay within a pavilion.
-/

namespace Sys2Proof.Machine
open Sys2Proof

/-- Every state of a created pavilion, and every one but RESETTING (R342). -/
def allStates : List Nat := [1, 2, 3, 4, 5, 6, 7, 8]
def notResetting : List Nat := [1, 2, 3, 4, 5, 6, 7]

/-- A mask that names every bit. -/
def wholeWord : Nat := 0xFFFFFFFFFFFFFFFF

-- creating and destroying

/-- How many of the low `k` bits of a number are ones. -/
def ones (v k : Nat) : Nat := ((List.range k).filter v.testBit).length

/-- What PV_CREATE asks for (R352). -/
def wanted (a : SMap W64) : PvRes :=
  { clusters := arg a 0 15 0, groups := arg a 0 31 16, winFirst := arg a 0 39 32, winExtents := arg a 0 47 40, quota := arg a 0 52 48,
    firstTenant := arg a 1 11 0, tenants := arg a 1 24 12, vf := arg a 1 37 32, port := arg a 1 40 40 }

/-- Step 1 of R427, by argument word. -/
def createBad (s : State) (a : SMap W64) (w : Nat) : Bool :=
  let r := wanted a
  match w with
  | 0 => r.clusters == 0 || !([0, 1, 2, 4, 8, 16].contains (ones r.groups 16)) || (r.groups == 0 && r.winExtents != 0) || 238 < r.winFirst + r.winExtents
      || 16 < r.quota
  | 1 => r.tenants == 0 || 4096 < r.firstTenant + r.tenants || 16 < r.vf || (r.port == 1 && !s.mod.split)
  | _ => false

/-- The resources of the pavilions that exist. -/
def granted (s : State) : List PvRes := ((List.range 4).filter (pvExists s)).map (fun q => (s.pv q).res)

/-- Two masks share a bit. -/
def meet (a b : Nat) : Bool := a &&& b != 0

/-- Step 2 of R427: the first argument word whose resources are not free. -/
def createLacks (s : State) (r : PvRes) : Option Nat :=
  let others := granted s
  if others.any (fun o => meet o.clusters r.clusters || meet o.groups r.groups) || meet (s.rd RG_STATUS_LOST_CLUSTERS) r.clusters
      || 16 < r.quota + (others.map (·.quota)).foldl (· + ·) 0 then some 0
  else if others.any (fun o => (r.firstTenant < o.firstTenant + o.tenants && o.firstTenant < r.firstTenant + r.tenants)
      || (r.vf != 0 && o.vf == r.vf && o.port == r.port)) then some 1
  else none

/-- The tenants of a range lose VALID, budget and counts (R428), and what waits for the tick on their account. -/
def clearTenants (s : State) (r : PvRes) : State :=
  let mine := fun (n : Nat) => r.firstTenant ≤ n && n < r.firstTenant + r.tenants
  let s1 := (List.range r.tenants).foldl (fun s k =>
    let n := r.firstTenant + k
    ((((s.setReg (TS_TENANT_CFG_OFF n) 0).setReg (TS_TENANT_RATE_OFF n) 0).setReg (TS_TENANT_BUDGET_OFF n) 0).setReg (TS_TENANT_COUNT_OFF n) 0)) s
  { s1 with die := { s1.die with
      remainder := s1.die.remainder.filter (fun x => !mine x.1)
      atTick := s1.die.atTick.filter (fun x => match x with
        | .tenant n _ _ => !mine n
        | .budget n _ => !mine n
        | .budgetAdd n _ => !mine n
        | _ => true) } }

/-- The OY_PVp_CFG word of a pavilion (R282). -/
def pvCfg (r : PvRes) : W64 :=
  packed [(OY_PV_CFG_VALID 0, 1), (OY_PV_CFG_QUOTA 0, r.quota), (OY_PV_CFG_WIN_EXTENTS 0, r.winExtents), (OY_PV_CFG_WIN_FIRST 0, r.winFirst),
    (OY_PV_CFG_GROUPS 0, r.groups)] 0

/-- A pavilion is created (R428): its clusters, groups and tenants cleared, and it enters EMPTY with balancing on. -/
def createPv (s : State) (q : Nat) (r : PvRes) : State :=
  let s1 := ((List.range 16).filter r.clusters.testBit).foldl resetCluster s
  let s2 := clearTenants (clearGroups s1 r.groups) r
  let s3 := s2.setReg (OY_PV_CFG_OFF q) (pvCfg r)
  enterState (s3.setPv q { Pv.reset with res := r }) q pvEmpty

/-- Meaning of PV_CREATE (R352, R427, R428). -/
def pvCreate (s : State) (f : Func) : State :=
  let n := fnNum f
  serve s f 0x10 anyArgs (fun cmd a =>
    match faulty a [0x1FFFFFFFFFFFFF, 0x13F01FFFFFF] (createBad s a) with
    | some w => answerFail s n stBadArgument w
    | none =>
      let q := bits cmd 9 8
      if pvExists s q then answerFail s n stStateConflict 0
      else if flightsFull s n || pvBusy s q then answerFail s n stBusyRetry 0
      else match createLacks s (wanted a) with
        | some w => answerFail s n stNoResource w
        | none => endAsync (createPv (accept s n 0x10 (some q) 1000 []) q (wanted a)) n (ticketOf s n) stDone 0 0)

/-- PV_CREATE. -/
def execPvCreate (f : Func) (s : State) : Host.Outcome State Fault Refusal :=
  if fnOk f then .next (pvCreate s f) else .fault (.noSuch "function")

/-- A salt entry is freed. -/
def freeSalt (s : State) (n : Nat) : State :=
  ((((s.setReg (IH_SALT_CFG_OFF n) 0).setReg (IH_SALT_KEY0_OFF n) 0).setReg (IH_SALT_KEY1_OFF n) 0).setReg (IH_SALT_KEY2_OFF n) 0).setReg
    (IH_SALT_KEY3_OFF n) 0

/-- The salt entries bound to a pavilion (R276). -/
def saltsOf (s : State) (q : Nat) : List Nat :=
  (List.range 64).filter (fun n => s.rd (IH_SALT_CFG_VALID n) == 1 && s.rd (IH_SALT_CFG_PAVILION n) == q)

/-- A pavilion becomes absent (R352): a staging command ends with FAULT (R373), and its slices, tenants, salt and barrier entries are free again. -/
def destroyPv (s : State) (q : Nat) : State :=
  let s1 := commitFlush (endPvFlights s q) q
  let mine := (s1.die.slices.filter (fun x => x.2.pv == q)).map (·.1)
  let s2 := mine.foldl (fun s n => s.dropSlice n) s1
  let s3 := (saltsOf s2 q).foldl freeSalt (freePvBarriers s2 q)
  let s4 := (clearTenants s3 (s.pv q).res).setReg (OY_PV_CFG_OFF q) 0
  (enterState s4 q pvAbsent).setPv q Pv.reset

/-- Meaning of PV_DESTROY: the primary physical function may name a pavilion of either port (R431). -/
def pvDestroy (s : State) (f : Func) : State :=
  let n := fnNum f
  serve s f 0x11 anyArgs (fun cmd a =>
    let q := bits cmd 9 8
    if !pvExists s q then answerFail s n stBadArgument 0
    else match faulty a [] (fun _ => false) with
      | some w => answerFail s n stBadArgument w
      | none => if (s.pv q).run.st = pvEmpty then answerDone (destroyPv s q) n [] else answerFail s n stStateConflict 0)

/-- PV_DESTROY. -/
def execPvDestroy (f : Func) (s : State) : Host.Outcome State Fault Refusal :=
  if fnOk f then .next (pvDestroy s f) else .fault (.noSuch "function")

-- resetting

/-- The Terraces of a pavilion are cleared, and neither slice nor image is loaded (R343, R347). -/
def unload (s : State) (q : Nat) : State :=
  let s1 := (s.pvTiles q).foldl (fun s p => s.modTile p (fun t => { t with tr := [], trRewrite := [] })) s
  (freePvBarriers s1 q).modRun q (fun r => { r with image := none, loaded := none, imageHash := [] })

/-- A pool with nothing in its index, and nothing on its way into it (R280). -/
def Pool.emptied (p : Pool) : Pool := { p with index := [], written := [], reports := [] }

/-- A pavilion reset (R347, R395, R401): every cluster, the placed image, the Icehouse index and its statistics. -/
def resetPavilion (s : State) (q : Nat) : State :=
  ((unload ((s.pvClusters q).foldl resetCluster (repairUnits s q)) q).modPool q Pool.emptied).setReg (IH_PV_STATS_OFF q) 0

/-- The units of PV_RESET. -/
def unitAbort : Nat := 0
def unitCluster : Nat := 1
def unitPavilion : Nat := 2

/-- A pavilion has a loaded slice and a placed image, which it never has in EMPTY and STAGING (R347). -/
def hasModel (s : State) (q : Nat) : Bool :=
  let r := (s.pv q).run
  r.st != pvEmpty && r.st != pvStaging && r.loaded.isSome && r.image.isSome

/-- What a reset unit does to the clusters (R347, R395). The stacks are held in self-refresh until the unit ends (R272). -/
def resetUnit (s : State) (q unit cluster : Nat) (had : Bool) : State :=
  if unit = unitCluster then
    let s1 := (resetCluster (repairUnits s q) cluster).raise OY_STATUS_SELF_REFRESH
    if had then reloadCluster s1 q cluster else s1
  else if unit = unitPavilion then (resetPavilion s q).raise OY_STATUS_SELF_REFRESH
  else s

/-- A PV_RESET runs (R347): the dump, the context stopped, the requests ended, the unit's own work; the pavilion stays in RESETTING until the unit ends.
`n` and `t` name the command that waits for it. The records of the hold store go with the reset (R350). -/
def beginReset (s : State) (q unit cluster n t : Nat) : State :=
  let had := hasModel s q
  let s1 := collectDump s causeHost unit q 0x1FF (s.pvClusters q)
  let s2 := (enterState s1 q pvResetting).modFront q (fun f => { f with store := [] })
  let s3 := endRequests (stopContext s2 q) q stFault
  let s4 := resetUnit s3 q unit cluster had
  s4.modRun q (fun r => { r with reset := some { fn := n, ticket := t, unit := unit, cluster := cluster, had := had }, abortTiles := busyTiles s4 q, abortAt := s.sun.time })

/-- The time limit of a unit in milliseconds (R351). -/
def resetLimit (unit : Nat) : Nat := if unit = unitAbort then 5 else if unit = unitCluster then 20 else 200

/-- Meaning of PV_RESET with the units of a row. -/
def pvReset (s : State) (f : Func) (units : List Nat) : State :=
  let n := fnNum f
  servePavilion s f 0x12 (fun a => units.contains (arg a 0 1 0)) [0xF03]
    (fun q a w => w == 0 && (arg a 0 1 0 == 3 || (arg a 0 1 0 == unitCluster && !(s.pv q).res.clusters.testBit (arg a 0 11 8)))) notResetting (fun q a =>
      if flightsFull s n then answerFail s n stBusyRetry 0
      else
        let s1 := endPvFlights s q
        beginReset (accept s1 n 0x12 (some q) (resetLimit (arg a 0 1 0)) []) q (arg a 0 1 0) (arg a 0 11 8) n (ticketOf s1 n))

/-- PV_RESET_ABORT; a UNIT that is not defined is answered here too. -/
def execPvResetAbort (f : Func) (s : State) : Host.Outcome State Fault Refusal :=
  if fnOk f then .next (pvReset s f [0, 3]) else .fault (.noSuch "function")

/-- PV_RESET_CLUSTER. -/
def execPvResetCluster (f : Func) (s : State) : Host.Outcome State Fault Refusal :=
  if fnOk f then .next (pvReset s f [1]) else .fault (.noSuch "function")

/-- PV_RESET_PAVILION. -/
def execPvResetPavilion (f : Func) (s : State) : Host.Outcome State Fault Refusal :=
  if fnOk f then .next (pvReset s f [2]) else .fault (.noSuch "function")

/-- An escalation to a pavilion reset (R397). -/
def escalatePavilion (s : State) (q tile : Nat) : State :=
  resetPavilion (stopContext (collectDump s causeEscalation 2 q tile (s.pvClusters q)) q) q

/-- A reset that ends with FAULT (R343): the transition into FAULTED; a cluster's reload that failed escalates to the pavilion (R397). -/
def failReset (s : State) (q unit : Nat) : State :=
  if unit = unitCluster then enterFaulted (escalatePavilion s q 0x1FF) q causeEscalation
  else enterFaulted (collectDump s causeHost unit q 0x1FF (s.pvClusters q)) q causeHost

/-- The stacks leave self-refresh when no cluster or pavilion reset runs any more (R272). -/
def endRefresh (s : State) : State :=
  if (List.range 4).any (fun q => match (s.pv q).run.reset with | some j => j.unit != unitAbort | none => false) then s
  else s.wr OY_STATUS_SELF_REFRESH 0

/-- A reset unit that reloads: a cluster's, of a pavilion that has its model. -/
def ResetJob.reloads (j : ResetJob) : Bool := j.unit == unitCluster && j.had

/-- Meaning of RESET_UNIT_END (R343, R347): `chk` is what the stacks found in the slice that a cluster's reload read; a flagged unit ends the reload,
and with it the reset, with FAULT (R274). -/
def resetUnitEnd (s : State) (q : Nat) (ok : Bool) (chk : Check) : State :=
  match (s.pv q).run.reset with
  | none => s
  | some j =>
    let s0 := if j.reloads then noteReload s q chk else s
    let s1 := endRefresh (s0.modRun q (fun r => { r with reset := none }))
    if !ok || (j.reloads && flagged chk) then failReset (endAsync s1 j.fn j.ticket stFault 0 0) q j.unit
    else
      let s2 := endAsync s1 j.fn j.ticket stDone 0 0
      if j.unit = unitPavilion then enterState s2 q pvEmpty
      else if j.had then enterState s2 q pvLoaded
      else enterState (unload s2 q) q pvEmpty

/-- RESET_UNIT_END. -/
def execResetUnitEnd (q : Nat) (ok : Bool × Check) (s : State) : Host.Outcome State Fault Refusal :=
  if q < 4 then .next (resetUnitEnd s q ok.1 ok.2) else .fault (.noSuch "pavilion")

/-- Meaning of ABORT_ESCALATION (R391, R397): a tile that an abort left busy, and that is not idle 100 µs later, takes its
cluster's reset with it; a reload that finds a flagged unit escalates to the pavilion. -/
def abortEscalation (s : State) (q p : Nat) (chk : Check) : State :=
  if (s.pv q).run.abortTiles.contains p && (s.tile p).seq.run != .idle && (s.pv q).run.abortAt + milli / 10 ≤ s.sun.time then
    match s.logical p with
    | none => s
    | some t =>
      let k := clusterOf t
      let s1 := sendOrphans (collectDump s causeEscalation 1 q p [k]) q
      let s2 := resetCluster (repairUnits s1 q) k
      let s3 :=
        if (s.pv q).run.loaded.isSome && (s.pv q).run.image.isSome then
          let s3 := noteReload (reloadCluster s2 q k) q chk
          if flagged chk then escalatePavilion s3 q 0x1FF else s3
        else s2
      s3.modRun q (fun r => { r with abortTiles := r.abortTiles.filter (fun x => !(s.clusterTiles k).contains x) })
  else s

/-- ABORT_ESCALATION. -/
def execAbortEscalation (q : Nat) (p : Nat × Check) (s : State) : Host.Outcome State Fault Refusal :=
  if q < 4 ∧ p.1 < 272 then .next (abortEscalation s q p.1 p.2) else .fault (.noSuch "pavilion or tile")

-- status and rings

/-- The results of PV_STATUS (R352). -/
def statusWords (s : State) (q : Nat) : List W64 :=
  let v := s.pv q
  let r := v.run
  let slices := ((s.die.slices.filter (fun x => x.2.pv == q && x.2.ready)).map (fun x => 2 ^ x.1)).foldl (· + ·) 0
  let j0 := setBits (setBits (setBits (setBits (setBits (setBits 0 3 0 r.st) 7 4 r.cause) 8 8 (ofBool (r.st == pvRunning && r.pause.isSome))) 9 9
    (ofBool r.balance)) 27 16 (min v.front.waiting.length 4095)) 43 32 (min v.front.live.length 4095)
  let j2 := setBits (setBits (setBits 0 5 0 (r.loaded.getD 0)) 6 6 (ofBool r.loaded.isSome)) 63 32 (r.pause.getD 0)
  [j0, setBits 0 49 0 slices, j2, setBits 0 14 0 v.front.store.length]

/-- Meaning of PV_STATUS. -/
def pvStatus (s : State) (f : Func) : State :=
  servePavilion s f 0x20 anyArgs [] (fun _ _ _ => false) allStates (fun q _ => answerDone s (fnNum f) (statusWords s q))

/-- PV_STATUS. -/
def execPvStatus (f : Func) (s : State) : Host.Outcome State Fault Refusal :=
  if fnOk f then .next (pvStatus s f) else .fault (.noSuch "function")

/-- Arguments of RING_SETUP that are out of range (R348, R352). -/
def ringBad (s : State) (q : Nat) (a : SMap W64) (w : Nat) : Bool :=
  let nOk := fun (n : Nat) => 6 ≤ n && n ≤ 16
  match w with
  | 0 => arg a 0 11 0 != 0
  | 1 => arg a 1 11 0 != 0
  | 2 => arg a 2 5 0 != 0
  | 3 => !nOk (arg a 3 4 0) || !nOk (arg a 3 12 8) || arg a 3 29 24 == 0 || (arg a 3 16 16 == 1 && (s.pv q).res.vf == 0)
  | _ => false

/-- The rings that RING_SETUP names. -/
def newRings (r : PvRes) (a : SMap W64) : Rings :=
  { reqBase := arg a 0 63 0, cplBase := arg a 1 63 0, wb := arg a 2 63 0, reqN := arg a 3 4 0, cplN := arg a 3 12 8,
    fn := if arg a 3 16 16 = 1 then 17 * r.port + r.vf else 17 * r.port, vector := arg a 3 29 24, reqPi := 0, reqCi := 0, cplPi := 0, cplCi := 0, stalled := false }

/-- Meaning of RING_SETUP. -/
def ringSetup (s : State) (f : Func) : State :=
  servePavilion s f 0x21 anyArgs [wholeWord, wholeWord, wholeWord, 0x3F011F1F] (ringBad s) [pvEmpty, pvLoaded] (fun q a =>
    answerDone (s.modFront q (fun x => { x with rings := some (newRings (s.pv q).res a) })) (fnNum f) [])

/-- RING_SETUP. -/
def execRingSetup (f : Func) (s : State) : Host.Outcome State Fault Refusal :=
  if fnOk f then .next (ringSetup s f) else .fault (.noSuch "function")

-- running

/-- Meaning of RUN (R344). -/
def runCommand (s : State) (f : Func) : State :=
  let n := fnNum f
  servePavilion s f 0x25 anyArgs [wholeWord] (fun _ a w => w == 0 && arg a 0 63 0 < earliest s) [pvLoaded] (fun q a =>
    if s.rd SD_STATUS_ALIGNED = 0 then answerFail s n stStateConflict 0
    else if (s.pv q).front.rings.isNone then answerFail s n stNoResource 0
    else
      let s1 := s.modRun q (fun r => { r with f0 := arg a 0 63 0, startAt := some (arg a 0 63 0), heads := [], pause := none, stopAt := none, drained := false })
      answerDone (enterState s1 q pvRunning) n [])

/-- RUN. -/
def execRun (f : Func) (s : State) : Host.Outcome State Fault Refusal :=
  if fnOk f then .next (runCommand s f) else .fault (.noSuch "function")

/-- The epoch length of the placed image (R310). -/
def epochLen (s : State) (q : Nat) : Nat := match (s.pv q).run.image with | some i => i.epochFrames | none => 1

/-- The pause frame (R345): the next epoch start at least 10 ms ahead; the context's first epoch begins at its start frame (R324). -/
def pauseFrame (s : State) (q : Nat) : Nat :=
  let f0 := (s.pv q).run.f0
  f0 + epochLen s q * ceilDiv (earliest s - f0) (epochLen s q)

/-- Meaning of PAUSE. -/
def pauseCommand (s : State) (f : Func) : State :=
  servePavilion s f 0x26 anyArgs [] (fun _ _ _ => false) [pvRunning] (fun q _ =>
    answerDone (s.modRun q (fun r => { r with pause := some (pauseFrame s q) })) (fnNum f) [w64 (pauseFrame s q)])

/-- PAUSE. -/
def execPause (f : Func) (s : State) : Host.Outcome State Fault Refusal :=
  if fnOk f then .next (pauseCommand s f) else .fault (.noSuch "function")

/-- A frame that RESUME may not name: too near, or of the other parity than P. -/
def resumeBad (s : State) (q : Nat) (a : SMap W64) (w : Nat) : Bool :=
  w == 0 && (arg a 0 63 0 < earliest s || arg a 0 63 0 % 2 != ((s.pv q).run.pause.getD 0) % 2)

/-- Meaning of RESUME (R345). -/
def resumeCommand (s : State) (f : Func) : State :=
  servePavilion s f 0x27 anyArgs [wholeWord] (resumeBad s) [pvHeld] (fun q a =>
    let s1 := s.modRun q (fun r => { r with f0 := arg a 0 63 0, startAt := some (arg a 0 63 0), pause := none })
    answerDone (enterState s1 q pvRunning) (fnNum f) [])

/-- RESUME. -/
def execResume (f : Func) (s : State) : Host.Outcome State Fault Refusal :=
  if fnOk f then .next (resumeCommand s f) else .fault (.noSuch "function")

/-- This module is the front module of the pavilion's deployment (R283). -/
def isFront (s : State) (q : Nat) : Bool :=
  match (s.pv q).run.image with | some i => i.frontModule == s.index | none => false

/-- Meaning of DRAIN (R346); what it starts begins at the next tick. -/
def drainCommand (s : State) (f : Func) : State :=
  let n := fnNum f
  servePavilion s f 0x28 anyArgs [] (fun _ _ _ => false) [pvRunning, pvDraining] (fun q _ =>
    if !isFront s q then answerFail s n stBadArgument 0
    else if (s.pv q).run.st = pvDraining then answerDone s n []
    else answerDone (enterState (s.modRun q (fun r => { r with pause := none })) q pvDraining) n [])

/-- DRAIN. -/
def execDrain (f : Func) (s : State) : Host.Outcome State Fault Refusal :=
  if fnOk f then .next (drainCommand s f) else .fault (.noSuch "function")

-- tenants and groups

/-- A tenant lies outside the pavilion's range. -/
def tenantOut (s : State) (q n : Nat) : Bool :=
  let r := (s.pv q).res
  !(r.firstTenant ≤ n && n < r.firstTenant + r.tenants)

/-- A salt entry is bound to the pavilion. -/
def saltOf (s : State) (q n : Nat) : Bool := s.rd (IH_SALT_CFG_VALID n) == 1 && s.rd (IH_SALT_CFG_PAVILION n) == q

/-- Arguments of TENANT_SET that are out of range (R287, R352). -/
def tenantBad (s : State) (q : Nat) (a : SMap W64) (w : Nat) : Bool :=
  match w with
  | 0 => tenantOut s q (arg a 0 11 0) || (arg a 0 15 15 == 1 && !saltOf s q (arg a 0 21 16))
  | 1 => 2 ^ 47 ≤ arg a 1 47 0 || (arg a 0 12 12 == 1 && arg a 1 47 0 == 0)
  | _ => false

/-- A tenant has waiting or live requests. -/
def tenantBusy (s : State) (q n : Nat) : Bool :=
  ((s.pv q).front.waiting ++ (s.pv q).front.live).any (fun r => r.tenant == n)

/-- TENANT_SET would change the group of a tenant. -/
def groupChanges (s : State) (n : Nat) (a : SMap W64) : Bool :=
  arg a 0 15 15 != s.rd (TS_TENANT_CFG_GROUP_VALID n) || (arg a 0 15 15 == 1 && arg a 0 21 16 != s.rd (TS_TENANT_CFG_SALT n))

/-- The TS_TENANTn_CFG word that TENANT_SET writes (R308). -/
def tenantCfg (q : Nat) (a : SMap W64) : W64 :=
  packed [(TS_TENANT_CFG_VALID 0, arg a 0 12 12), (TS_TENANT_CFG_CLASS 0, arg a 0 14 13), (TS_TENANT_CFG_PAVILION 0, q),
    (TS_TENANT_CFG_GROUP_VALID 0, arg a 0 15 15), (TS_TENANT_CFG_SALT 0, arg a 0 21 16), (TS_TENANT_CFG_BURST_CAP 0, arg a 1 47 0)] 0

/-- Meaning of TENANT_SET. -/
def tenantSet (s : State) (f : Func) : State :=
  let n := fnNum f
  servePavilion s f 0x29 anyArgs [0x3FFFFF, 0xFFFFFFFFFFFF, 0xFFFFFFFF] (tenantBad s) notResetting (fun q a =>
    let x := arg a 0 11 0
    if tenantBusy s q x && (arg a 0 12 12 == 0 || groupChanges s x a) then answerFail s n stStateConflict 0
    else answerDone (atNextTick s (.tenant x (tenantCfg q a) (w64 (arg a 2 31 0)))) n [])

/-- TENANT_SET. -/
def execTenantSet (f : Func) (s : State) : Host.Outcome State Fault Refusal :=
  if fnOk f then .next (tenantSet s f) else .fault (.noSuch "function")

/-- Meaning of TENANT_BUDGET in one of its modes. -/
def tenantBudget (s : State) (f : Func) (mode : Nat) : State :=
  servePavilion s f 0x2A (fun a => arg a 0 12 12 == mode) [0x1FFF, 0xFFFFFFFFFFFF] (fun q a w => w == 0 && tenantOut s q (arg a 0 11 0)) notResetting
    (fun _ a =>
      let v := w64 (arg a 1 47 0)
      answerDone (atNextTick s (if mode = 0 then .budget (arg a 0 11 0) v else .budgetAdd (arg a 0 11 0) v)) (fnNum f) [])

/-- TENANT_BUDGET_SET. -/
def execTenantBudgetSet (f : Func) (s : State) : Host.Outcome State Fault Refusal :=
  if fnOk f then .next (tenantBudget s f 0) else .fault (.noSuch "function")

/-- TENANT_BUDGET_ADD. -/
def execTenantBudgetAdd (f : Func) (s : State) : Host.Outcome State Fault Refusal :=
  if fnOk f then .next (tenantBudget s f 1) else .fault (.noSuch "function")

/-- A salt entry is bound to a pavilion with its salt (R276). -/
def bindSalt (s : State) (q n : Nat) (a : SMap W64) : State :=
  let s1 := s.setReg (IH_SALT_CFG_OFF n) (packed [(IH_SALT_CFG_VALID 0, 1), (IH_SALT_CFG_PAVILION 0, q)] 0)
  (((s1.setReg (IH_SALT_KEY0_OFF n) (SMap.look a 1 0)).setReg (IH_SALT_KEY1_OFF n) (SMap.look a 2 0)).setReg (IH_SALT_KEY2_OFF n) (SMap.look a 3 0)).setReg
    (IH_SALT_KEY3_OFF n) (SMap.look a 4 0)

/-- The arguments name the salt that the entry holds. -/
def sameSalt (s : State) (n : Nat) (a : SMap W64) : Bool :=
  s.regW (IH_SALT_KEY0_OFF n) == SMap.look a 1 0 && s.regW (IH_SALT_KEY1_OFF n) == SMap.look a 2 0 && s.regW (IH_SALT_KEY2_OFF n) == SMap.look a 3 0
    && s.regW (IH_SALT_KEY3_OFF n) == SMap.look a 4 0

/-- Meaning of GROUP_SET (R276, R352). -/
def groupSet (s : State) (f : Func) : State :=
  let m := fnNum f
  servePavilion s f 0x2B anyArgs [0x3F, wholeWord, wholeWord, wholeWord, wholeWord] (fun _ _ _ => false) notResetting (fun q a =>
    let n := arg a 0 5 0
    if s.rd (IH_SALT_CFG_VALID n) = 0 then answerDone (bindSalt s q n a) m []
    else if s.rd (IH_SALT_CFG_PAVILION n) ≠ q then answerFail s m stNoResource 0
    else if sameSalt s n a then answerDone s m []
    else answerFail s m stStateConflict 0)

/-- GROUP_SET. -/
def execGroupSet (f : Func) (s : State) : Host.Outcome State Fault Refusal :=
  if fnOk f then .next (groupSet s f) else .fault (.noSuch "function")

/-- A tenant belongs to the group of a salt entry. -/
def inGroup (s : State) (n tenant : Nat) : Bool := s.rd (TS_TENANT_CFG_GROUP_VALID tenant) == 1 && s.rd (TS_TENANT_CFG_SALT tenant) == n

/-- A decision concerns a group. -/
def ofGroup (n : Nat) : IhDecision → Bool
  | .insert _ g _ _ _ => g == n
  | _ => false

/-- A group is removed (R280, R352). -/
def removeGroup (s : State) (q n : Nat) : State :=
  let r := (s.pv q).res
  let mine := ((List.range r.tenants).map (r.firstTenant + ·)).filter (inGroup s n)
  let s1 := mine.foldl (fun s t => s.wr (TS_TENANT_CFG_GROUP_VALID t) 0) s
  let s2 := s1.modPool q (fun p => { p with index := p.index.filter (fun e => e.2.group != n) })
  freeSalt (s2.modFront q (fun x => { x with decisions := x.decisions.filter (fun d => !ofGroup n d.2) })) n

/-- Meaning of GROUP_REMOVE. -/
def groupRemove (s : State) (f : Func) : State :=
  let m := fnNum f
  servePavilion s f 0x2C anyArgs [0x3F] (fun q a w => w == 0 && !saltOf s q (arg a 0 5 0)) notResetting (fun q a =>
    let n := arg a 0 5 0
    if (s.pv q).front.live.any (fun r => inGroup s n r.tenant) then answerFail s m stStateConflict 0
    else answerDone (removeGroup s q n) m [])

/-- GROUP_REMOVE. -/
def execGroupRemove (f : Func) (s : State) : Host.Outcome State Fault Refusal :=
  if fnOk f then .next (groupRemove s f) else .fault (.noSuch "function")

-- pools and balancing

/-- Arguments of POOL_CREATE that are out of range (R275): the pool lies inside the window, and has stripes and slots. -/
def poolBad (s : State) (q : Nat) (a : SMap W64) (w : Nat) : Bool :=
  let r := (s.pv q).res
  w == 0 && (arg a 0 15 8 == 0 || arg a 0 47 32 == 0 || arg a 0 7 0 < r.winFirst || r.winFirst + r.winExtents < arg a 0 7 0 + arg a 0 15 8)

/-- The pool that POOL_CREATE names. -/
def newPool (a : SMap W64) : Pool :=
  { first := arg a 0 7 0, stripes := arg a 0 15 8, unit := arg a 0 47 32, lead := arg a 1 11 0, index := [], written := [], reports := [] }

/-- Meaning of POOL_CREATE (R275, R352). -/
def poolCreate (s : State) (f : Func) : State :=
  let n := fnNum f
  servePavilion s f 0x2D anyArgs [0xFFFF0000FFFF, 0xFFF] (poolBad s) [pvEmpty, pvLoaded] (fun q a =>
    if flightsFull s n || pvBusy s q then answerFail s n stBusyRetry 0
    else if (s.pv q).front.pool.isSome then answerFail s n stNoResource 0
    else
      let s1 := (accept s n 0x2D (some q) 1000 []).modFront q (fun x => { x with pool := some (newPool a), decisions := [] })
      endAsync s1 n (ticketOf s n) stDone 0 0)

/-- POOL_CREATE. -/
def execPoolCreate (f : Func) (s : State) : Host.Outcome State Fault Refusal :=
  if fnOk f then .next (poolCreate s f) else .fault (.noSuch "function")

/-- Meaning of POOL_DESTROY. -/
def poolDestroy (s : State) (f : Func) : State :=
  servePavilion s f 0x2E anyArgs [] (fun _ _ _ => false) [pvEmpty, pvLoaded] (fun q _ =>
    if (s.pv q).front.pool.isNone then answerFail s (fnNum f) stStateConflict 0
    else answerDone (s.modFront q (fun x => { x with pool := none, decisions := [] })) (fnNum f) [])

/-- POOL_DESTROY. -/
def execPoolDestroy (f : Func) (s : State) : Host.Outcome State Fault Refusal :=
  if fnOk f then .next (poolDestroy s f) else .fault (.noSuch "function")

/-- Meaning of BALANCE, on or off (R333, R352). -/
def balanceCommand (s : State) (f : Func) (on : Bool) : State :=
  servePavilion s f 0x2F (fun a => arg a 0 0 0 == ofBool on) [1] (fun _ _ _ => false) notResetting (fun q _ =>
    answerDone (atNextTick s (.balance q on)) (fnNum f) [])

/-- BALANCE_ON. -/
def execBalanceOn (f : Func) (s : State) : Host.Outcome State Fault Refusal :=
  if fnOk f then .next (balanceCommand s f true) else .fault (.noSuch "function")

/-- BALANCE_OFF. -/
def execBalanceOff (f : Func) (s : State) : Host.Outcome State Fault Refusal :=
  if fnOk f then .next (balanceCommand s f false) else .fault (.noSuch "function")

end Sys2Proof.Machine
end

