-- ==== Sys2Proof/Machine/Loading.lean ====
section
/-!
DEFINITION. Hampers and loading (R309 to R314, R353, R365 to R374): staging a slice, dropping one, loading a model.
-/

namespace Sys2Proof.Machine
open Sys2Proof

-- the manifest (R365, R366)

/-- KEY_ID of an RSA key: SHA-256 of the modulus, little-endian, and of the exponent as 4 little-endian bytes (R362). -/
def keyId (n : Nat) : List Byte := sha256 (leBytes 384 n ++ leBytes 4 65537)

/-- Word `k` of a manifest. -/
def mWord (m : List Byte) (k : Nat) : W64 := w64 (leNat ((m.drop (8 * k)).take 8))

/-- Words `k` to `k + n − 1` of a manifest, as bytes. -/
def mBytes (m : List Byte) (k n : Nat) : List Byte := (m.drop (8 * k)).take (8 * n)

/-- The number of shards that a manifest declares. -/
def mShards (m : List Byte) : Nat := bits (mWord m 1) 13 0

/-- The modulus that signed a manifest. -/
def mSigner (m : List Byte) : Nat := leNat (mBytes m 61 48)

/-- The header obeys R365. -/
def headerOk (s : State) (q : Nat) (m : List Byte) : Bool :=
  let w := mWord m
  let wrap := bits (w 0) 15 8
  let tb := (w 2).toNat
  let wb := (w 3).toNat
  let wo := (w 4).toNat
  bits (w 0) 63 32 == 0x48414D50 && bits (w 0) 31 16 == 1 && (wrap == 0 || (0x10 ≤ wrap && wrap ≤ 0x13)) && bits (w 0) 7 0 == 0
    && bits (w 1) 63 14 == 0 && 1 ≤ mShards m && mShards m ≤ 8192
    && tb % 512 == 0 && tb ≤ terraceSize * 16 * (s.pvClusters q).length && wb % 2048 == 0 && wo % 2048 == 0 && wo + wb ≤ windowBytes s q
    && bits (w 109) 63 32 == 0 && bits (w 109) 31 0 == 65537 && (List.range 18).all (fun k => w (110 + k) == 0)

/-- The bytes of shard entry `k` (R366). -/
def entryBytes (m : List Byte) (k : Nat) : List Byte := (m.drop (1024 + 96 * k)).take 96

/-- Shard entry `k`. -/
def entryAt (m : List Byte) (k : Nat) : Shard :=
  let e := entryBytes m k
  { offset := leNat (e.take 8), length := leNat ((e.drop 8).take 4), iv := (e.drop 16).take 12, tag := (e.drop 32).take 16,
    digest := (e.drop 48).take 32, aad := e.take 16, addr := none, verified := false, tries := 0 }

/-- Every shard entry of a manifest. -/
def entries (m : List Byte) : List Shard := (List.range (mShards m)).map (entryAt m)

/-- The reserved words of an entry are zero, and its range is one that R366 allows. -/
def entryOk (m : List Byte) (k : Nat) : Bool :=
  let e := entryBytes m k
  let x := entryAt m k
  x.offset % 512 == 0 && x.length % 512 == 0 && 512 ≤ x.length && x.length ≤ 0x4000000
    && leNat ((e.drop 12).take 4) == 0 && leNat ((e.drop 28).take 4) == 0 && leNat ((e.drop 80).take 16) == 0

/-- Two shards do not overlap. -/
def apart (x y : Shard) : Bool := x.offset + x.length ≤ y.offset || y.offset + y.length ≤ x.offset

/-- The shards cover the slice exactly once (R366): they lie inside it, are pairwise apart, and their lengths sum to its own. -/
def covers (total : Nat) (xs : List Shard) : Bool :=
  xs.all (fun x => x.offset + x.length ≤ total) && decide (xs.Pairwise (fun x y => apart x y = true)) && (xs.map (·.length)).foldl (· + ·) 0 == total

/-- The modulus and private exponent of the key that WRAP names, for a pavilion of host port `port` (R362, R365). -/
def wrapKey (s : State) (port wrap : Nat) : Option (Nat × Nat) :=
  if wrap = 0 then some (Config.devN, Config.devD)
  else match s.fleet? (wrap - 0x10) with
    | some f => if f.port = port then some (f.n, f.d) else none
    | none => none

/-- The content key of a manifest that the Gatehouse accepts (R367). -/
def contentKey (s : State) (port : Nat) (m : List Byte) : Option (List Byte) :=
  match wrapKey s port (bits (mWord m 0) 15 8) with
  | none => none
  | some (n, d) =>
    match oaepOpen n d (mBytes m 13 48) with
    | none => none
    | some blob =>
      let body := m.take (1024 + 96 * mShards m)
      let sig := (m.drop (1024 + 96 * mShards m)).take 384
      if blob.length = 64 ∧ mBytes m 9 4 = keyId n ∧ blob.drop 32 = keyId (mSigner m) ∧ pssVerify (mSigner m) body sig = true then some (blob.take 32)
      else none

-- stripes (R260, R270)

/-- The stripes of a pavilion that neither its window nor a slice takes. -/
def freeStripes (s : State) (q : Nat) : List Nat :=
  let r := (s.pv q).res
  let used := (s.die.slices.filter (fun x => x.2.pv == q)).flatMap (fun x => x.2.stripes)
  (List.range 238).filter (fun e => !(r.winFirst ≤ e && e < r.winFirst + r.winExtents) && !used.contains e)

/-- Whole stripes that a slice of so many bytes needs; a pavilion without groups has none to give. -/
def stripesNeeded (s : State) (q total : Nat) : Nat :=
  if (s.groups q).isEmpty then 239 else ceilDiv total ((s.groups q).length * extentBytes)

/-- Slice numbers of a module. -/
def maxSlices : Nat := 50

-- HAMPER_STAGE

/-- The first argument word of HAMPER_STAGE that is out of range or disagrees with the header. -/
def stageBad (s : State) (m : List Byte) (q : Nat) (a : SMap W64) (w : Nat) : Bool :=
  match w with
  | 0 => arg a 0 5 0 != 0 || !headerOk s q m
  | 1 => arg a 1 31 0 != 1408 + 96 * mShards m
  | 2 => arg a 2 5 0 != 0
  | 3 => arg a 3 15 0 != mShards m
  | _ => false

/-- The load timeout in seconds (R352). -/
def loadTimeout (a : SMap W64) : Nat := if arg a 3 31 16 = 0 then 30 else arg a 3 31 16

/-- The slice that a staging command fills. -/
def newSlice (s : State) (q n : Nat) (m : List Byte) (a : SMap W64) : Slice :=
  let tb := (mWord m 2).toNat
  let wb := (mWord m 3).toNat
  { pv := q, stripes := (freeStripes s q).take (stripesNeeded s q (tb + wb)), terraceBytes := tb, windowBytes := wb, windowOffset := (mWord m 4).toNat,
    modelId := mBytes m 5 4, manifestHash := sha256 m, ready := false, shards := entries m, key := [], fn := n, ticket := ticketOf s n,
    deadline := (s.fn n).rungAt + loadTimeout a * 1000 * milli }

/-- Steps 1 to 3 of R370 after acceptance: the content key is unwrapped, the manifest verified and its coverage checked, or staging ends. -/
def unwrap (s : State) (q k : Nat) (m : List Byte) : State :=
  match contentKey s (s.pv q).res.port m with
  | none => endStaging s k stAuthFailed 0
  | some key =>
    let xs := entries m
    if !((List.range xs.length).all (entryOk m) && covers ((mWord m 2).toNat + (mWord m 3).toNat) xs) then endStaging s k stBadArgument 0
    else match s.slice? k with
      | some x => s.setSlice k { x with key := key }
      | none => s

/-- Meaning of HAMPER_STAGE (R370); `manifest` is what the DMA reads at G0. -/
def hamperStage (s : State) (f : Func) (manifest : List Byte) : State :=
  let n := fnNum f
  servePavilion s f 0x22 anyArgs [wholeWord, 0xFFFFFFFF, wholeWord, 0xFFFFFFFF] (stageBad s manifest) [1, 2, 3, 4, 5, 6] (fun q a =>
    let m := manifest.take (arg a 1 31 0)
    let total := (mWord m 2).toNat + (mWord m 3).toNat
    let k := firstFree s.die.slices 0
    if flightsFull s n || pvBusy s q then answerFail s n stBusyRetry 0
    else if maxSlices ≤ k ∨ (freeStripes s q).length < stripesNeeded s q total then answerFail s n stNoResource 0
    else
      let s1 := accept s n 0x22 (some q) (loadTimeout a * 1000) [w64 k]
      unwrap (s1.setSlice k (newSlice s q n m a)) q k m)

/-- HAMPER_STAGE. -/
def execHamperStage (f : Func) (manifest : List Byte) (s : State) : Host.Outcome State Fault Refusal :=
  if fnOk f then .next (hamperStage s f manifest) else .fault (.noSuch "function")

-- shards

/-- The slice that a pavilion is staging. -/
def stagingOf (s : State) (q : Nat) : Option (Nat × Slice) := s.die.slices.find? (fun x => x.2.pv == q && !x.2.ready)

/-- An entry of the shard table is read (R369): a valid one with the entry's length gives the shard its address. -/
def readEntry (x : Shard) (t : Option (W64 × W64)) : Shard :=
  match x.addr, t with
  | none, some (t0, t1) => if bit t1 63 ∧ bits t1 31 0 = x.length ∧ bits t0 5 0 = 0 then { x with addr := some t0.toNat } else x
  | _, _ => x

/-- Meaning of SHARD_TABLE_POLL (R369): the entries last read as not valid are read again. -/
def tablePoll (s : State) (q : Nat) (table : List (W64 × W64)) : State :=
  match stagingOf s q with
  | none => s
  | some (k, x) =>
    s.setSlice k { x with shards := (List.range x.shards.length).map (fun i => readEntry (x.shards.getD i (entryAt [] 0)) table[i]?) }

/-- SHARD_TABLE_POLL. -/
def execShardTablePoll (q : Nat) (table : List (W64 × W64)) (s : State) : Host.Outcome State Fault Refusal :=
  if q < 4 then .next (tablePoll s q table) else .fault (.noSuch "pavilion")

/-- The shards that are being fetched (R370, R371): corrupt ones first, then ascending, up to 8 at once. -/
def fetching (x : Slice) : List Nat :=
  let open_ := (List.range x.shards.length).filter (fun i => match x.shards[i]? with
    | some e => e.addr.isSome && !e.verified
    | none => false)
  let again := fun (i : Nat) => match x.shards[i]? with | some e => e.tries != 0 | none => false
  (open_.filter again ++ open_.filter (fun i => !again i)).take 8

/-- What a fetched shard decrypts to, if its tag and its digest hold (R366, R371). -/
def shardPlain (x : Slice) (e : Shard) (cipher : Option (List Byte)) : Option (List Byte) :=
  match cipher with
  | none => none
  | some c =>
    match gcmOpen x.key e.iv e.aad c e.tag with
    | some p => if p.length = e.length ∧ sha256 p = e.digest then some p else none
    | none => none

/-- A shard is corrupt (R371): requested again once, and then staging is abandoned. -/
def shardCorrupt (s : State) (k i : Nat) (x : Slice) (e : Shard) : State :=
  if e.tries = 0 then s.setSlice k { x with shards := x.shards.set i { e with tries := 1 } }
  else endStaging s k stIntegrityFailed i

/-- A shard is accepted (R370): its plaintext is staged encrypted (R270), and the last one ends the command with DONE. -/
def shardAccept (s : State) (k i : Nat) (x : Slice) (e : Shard) (p : List Byte) : State :=
  let x1 : Slice := { x with shards := x.shards.set i { e with verified := true } }
  let s1 := (stageUnits x (e.length / 512) (e.offset / 512) p s).setSlice k x1
  if x1.shards.all (·.verified) then endStaging s1 k stDone 0 else s1

/-- A shard that is being fetched arrives, whole or not at all. -/
def shardStep (s : State) (q i : Nat) (cipher : Option (List Byte)) : State :=
  match stagingOf s q with
  | none => s
  | some (k, x) =>
    match x.shards[i]? with
    | none => s
    | some e =>
      if !(fetching x).contains i || x.deadline < s.sun.time then s
      else match shardPlain x e cipher with
        | some p => shardAccept s k i x e p
        | none => shardCorrupt s k i x e

/-- SHARD_VERIFY. -/
def execShardVerify (q i : Nat) (cipher : Option (List Byte)) (s : State) : Host.Outcome State Fault Refusal :=
  if q < 4 ∧ i < 8192 then .next (shardStep s q i cipher) else .fault (.noSuch "pavilion or shard")

/-- Meaning of STAGING_TIMEOUT (R371): DETAIL is the lowest entry that is not verified. -/
def stagingTimeout (s : State) (q : Nat) : State :=
  match stagingOf s q with
  | none => s
  | some (k, x) =>
    if x.deadline ≤ s.sun.time then endStaging s k stTimeout ((x.shards.findIdx? (fun e => !e.verified)).getD 0) else s

/-- STAGING_TIMEOUT. -/
def execStagingTimeout (q : Nat) (s : State) : Host.Outcome State Fault Refusal :=
  if q < 4 then .next (stagingTimeout s q) else .fault (.noSuch "pavilion")

/-- A slice that SLICE_DROP may not free (R352, R373): one that is being staged, and the loaded one, or the one being loaded, of a pavilion in STAGING to
DRAINING. -/
def sliceHeld (s : State) (q n : Nat) (x : Slice) : Bool :=
  let r := (s.pv q).run
  let inUse := r.loaded == some n || (match r.load with | some j => j.slice == n | none => false)
  !x.ready || (inUse && pvStaging ≤ r.st && r.st ≤ pvDraining)

/-- The slice that an argument names belongs to the pavilion. -/
def ownSlice (s : State) (q n : Nat) : Option Slice := (s.slice? n).bind (fun x => if x.pv = q then some x else none)

/-- Meaning of SLICE_DROP. -/
def sliceDrop (s : State) (f : Func) : State :=
  let m := fnNum f
  servePavilion s f 0x23 anyArgs [0x3F] (fun q a w => w == 0 && (ownSlice s q (arg a 0 5 0)).isNone) [1, 2, 3, 4, 5, 6] (fun q a =>
    match ownSlice s q (arg a 0 5 0) with
    | none => answerFail s m stBadArgument 0
    | some x => if sliceHeld s q (arg a 0 5 0) x then answerFail s m stStateConflict 0 else answerDone (s.dropSlice (arg a 0 5 0)) m [])

/-- SLICE_DROP. -/
def execSliceDrop (f : Func) (s : State) : Host.Outcome State Fault Refusal :=
  if fnOk f then .next (sliceDrop s f) else .fault (.noSuch "function")

-- LOAD_MODEL

/-- The checks that LOAD_MODEL makes of an image before it writes anything (R353, R389). -/
def loadCheck (s : State) (q : Nat) (i : Image) : Option (Nat × Nat) :=
  match imageCheck s q i with
  | some x => some x
  | none => if meet i.clusters (s.rd RG_STATUS_LOST_CLUSTERS) then some (0, stNoResource) else none

/-- An accepted LOAD_MODEL (R353, R374): an image that fails its checks ends it and leaves the pavilion as it was; otherwise the Terraces are cleared
and the shift-in runs. -/
def beginLoad (s : State) (q n t slice : Nat) (i : Image) : State :=
  let back := (s.pv q).run.st
  let s1 := enterState s q pvStaging
  match loadCheck s1 q i with
  | some (detail, status) => enterState (endAsync s1 n t status detail 0) q back
  | none => (unload s1 q).modRun q (fun r => { r with load := some { fn := n, ticket := t, slice := slice, image := i } })

/-- The slice is staged for the pavilion. -/
def stagedFor (s : State) (q n : Nat) : Bool := match ownSlice s q n with | some x => x.ready | none => false

/-- A LOAD_MODEL up to its acceptance; `body` goes on from there. A slice that is not staged has its own DETAIL (R353). -/
def loadWith (s : State) (f : Func) (body : State → Nat → Nat → Nat → Nat → State) : State :=
  let n := fnNum f
  servePavilion s f 0x24 anyArgs [0x3F, wholeWord, 0xFFFFFFFF] (fun _ a w => w == 1 && arg a 1 5 0 != 0) [pvEmpty, pvLoaded] (fun q a =>
    if !stagedFor s q (arg a 0 5 0) then answerFail s n stBadArgument 0x0109
    else if flightsFull s n || pvBusy s q then answerFail s n stBusyRetry 0
    else body (accept s n 0x24 (some q) 2000 []) q n (ticketOf s n) (arg a 0 5 0))

/-- Meaning of LOAD_MODEL; `image` is what the DMA reads at G1. -/
def loadModel (s : State) (f : Func) (image : Image) : State := loadWith s f (fun s q n t slice => beginLoad s q n t slice image)

/-- LOAD_MODEL. -/
def execLoadModel (f : Func) (image : Image) (s : State) : Host.Outcome State Fault Refusal :=
  if fnOk f then .next (loadModel s f image) else .fault (.noSuch "function")

/-- A LOAD_MODEL fails after its clear has begun (R343): EMPTY, with the Terraces cleared. -/
def failLoad (s : State) (q status : Nat) : State := enterState (unload (endLoad s q status 0) q) q pvEmpty

/-- The Terraces and the window take the slice (R271, R368, R374), and the image is placed. -/
def shiftIn (s : State) (q n : Nat) (x : Slice) (i : Image) : State :=
  let r := (s.pv q).run
  let s1 := if r.lastModel = x.modelId then s else s.modPool q Pool.emptied
  let s2 := s1.modRun q (fun r => { r with loaded := some n, lastModel := x.modelId, imageHash := Config.imageHash i })
  let s3 := (s2.sliceTiles q).foldl (fun s t => reloadTile s q t) s2
  placeImage (copyWindow s3 q x) q i

/-- Meaning of SHIFT_IN_COMPLETE (R374): LOADED, or EMPTY after an error in the staged slice. -/
def shiftInComplete (s : State) (q : Nat) (chk : Check) : State :=
  match (s.pv q).run.load with
  | none => s
  | some j =>
    match s.slice? j.slice with
    | none => failLoad s q stFault
    | some x =>
      let s1 := noteSlice s x chk
      if flagged chk then failLoad s1 q stFault
      else enterState (endLoad (shiftIn s1 q j.slice x j.image) q stDone 0) q pvLoaded

/-- SHIFT_IN_COMPLETE. -/
def execShiftInComplete (q : Nat) (chk : Check) (s : State) : Host.Outcome State Fault Refusal :=
  if q < 4 then .next (shiftInComplete s q chk) else .fault (.noSuch "pavilion")

end Sys2Proof.Machine
end

