-- ==== Sys2Proof/Machine/Gatehouse.lean ====
section
/-!
DEFINITION. The Gatehouse (R335, R336, R356 to R364): the firmware image, the start of firmware (R336, R407, R411), time limits of asynchronous commands
(R339), attestation, and fleet keys.
-/

namespace Sys2Proof.Machine
open Sys2Proof

/-- The Gatehouse's state changed. -/
def State.modGate (s : State) (f : Gate → Gate) : State := { s with gate := f s.gate }

-- FW_LOAD (R336)

/-- Meaning of FW_LOAD: accepted in PHASE 0 only, and copied. -/
def fwLoad (s : State) (f : Func) : State :=
  let n := fnNum f
  serveModule s f 0x02 anyArgs [wholeWord, 0xFFFFFFFF]
    (fun a w => (w == 0 && arg a 0 11 0 != 0) || (w == 1 && 1572864 < arg a 1 31 0)) (s.gate.phase == phaseRomWait) (fun a =>
      if flightsFull s n then answerFail s n stBusyRetry 0
      else (accept s n 0x02 none 2000 []).modGate (fun g => { g with phase := phaseVerify, fwJob := some (n, ticketOf s n, arg a 1 31 0) }))

/-- FW_LOAD. -/
def execFwLoad (f : Func) (s : State) : Host.Outcome State Fault Refusal :=
  if fnOk f then .next (fwLoad s f) else .fault (.noSuch "function")

/-- The signing modulus in a firmware header. -/
def fwSigner (m : List Byte) : Nat := leNat (mBytes m 3 48)

/-- A firmware image that the Gatehouse accepts (R358): its header, its key, its signature, its security version. -/
def fwAccepted (g : Gate) (len : Nat) (m : List Byte) : Bool :=
  let w := mWord m
  let svn := bits (w 1) 47 32
  m.length == len && 896 ≤ len && len % 64 == 0 && bits (w 0) 63 32 == 0x57444652 && bits (w 0) 31 16 == 1 && bits (w 2) 31 0 == len
    && bits (w 51) 31 0 == 65537 && svn ≤ 64 && g.fuses ≤ svn
    && keyId (fwSigner m) == Config.fwKeyHash && pssVerify (fwSigner m) (m.take (len - 384)) (m.drop (len - 384))

/-- The anti-rollback counter after an accepted image (R358): raised to SVN where COMMIT is set, and never lowered. -/
def fusesAfter (g : Gate) (m : List Byte) : Nat :=
  if bits (mWord m 1) 0 0 = 1 then max g.fuses (bits (mWord m 1) 47 32) else g.fuses

/-- The limit of a command in flight has passed (R339). -/
def flightOver (s : State) (n t : Nat) : Bool := (s.fn n).flights.any (fun x => x.ticket == t && x.deadline ≤ s.sun.time)

/-- A FW_LOAD ends without firmware (R336): the copied image is written to zero, and the boot ROM waits for another. -/
def endFw (s : State) (n t status : Nat) : State :=
  endAsync (s.modGate (fun g => { g with phase := phaseRomWait, fwJob := none, sram := [] })) n t status 0 0

/-- Meaning of FW_LOAD_VERIFY (R336); `image` is what the DMA copies into Warden SRAM. Past the command's limit it ends with TIMEOUT. -/
def fwLoadVerify (s : State) (image : List Byte) : State :=
  match s.gate.fwJob with
  | none => s
  | some (n, t, len) =>
    let m := image.take len
    if flightOver s n t then endFw s n t stTimeout
    else if fwAccepted s.gate len m then
      let s1 := s.modGate (fun g => { g with
        phase := phaseFwStart, fuses := fusesAfter g m, svn := bits (mWord m 1) 47 32, version := bits (mWord m 0) 15 0, fwHash := sha256 m, fwJob := none,
        sram := Mem.wrN [] 0 m, coresHeld := false })
      endAsync s1 n t stDone 0 0
    else endFw s n t stAuthFailed

/-- FW_LOAD_VERIFY. -/
def execFwLoadVerify (image : List Byte) (s : State) : Host.Outcome State Fault Refusal := .next (fwLoadVerify s image)

-- the start of firmware

/-- Firmware halts (R335, R397): only a chip reset leaves PHASE 4. -/
def haltFirmware (s : State) : State := setAlert (s.modGate (fun g => { g with phase := phaseHalted })) alertHalted

/-- 24 steps in every bin (R407). -/
def fullPlan : W64 := setBits (setBits (setBits (setBits (setBits (setBits 0 63 63 1) 4 0 24) 9 5 24) 14 10 24) 19 15 24) 24 20 24

/-- Steps of bin `b` in a margin word (R408). -/
def planSteps (w : W64) (b : Nat) : Nat := if bit w 63 then bits w (5 * b + 4) (5 * b) else 0

/-- The margin words that firmware reads at boot, and the steps of bin 0 applied (R407, R411). -/
def applyPlan (s : State) (bad : List Nat) : State :=
  let word := fun (g : Nat) => if bad.contains (0x20 + g) then fullPlan else s.shedWord (0x20 + g)
  let s1 : State := { s with shed := { s.shed with plan := (List.range 8).map (fun g => (g, word g)) } }
  let s2 := (List.range 8).foldl (fun s g => s.wr (WV_REGION_STEPS g) (planSteps (word g) 0)) s1
  let head := if bad.contains 0x28 then 0 else s.shedWord 0x28
  s2.wr WV_STATUS_NEXT_PLAN ((if bit head 63 then bits head 31 0 else 0) + s.rd WV_CFG_PLAN_HOURS)

/-- The Gatehouse asks for a power cycle (R397, R408, R448). -/
def askPowerCycle (s : State) : State := (setAlert (summary s 8 0 0) alertPowerCycle).emit (.request alertPowerCycle)

/-- A stack has not come up 150 ms after the end of reset (R397, R440). -/
def stackFailed (s : State) : Bool := (s.rd OY_STATUS_READY0 == 0 || s.rd OY_STATUS_READY1 == 0) && s.mod.bootAt + 150 * milli ≤ s.sun.time

/-- What firmware finds of the stacks when it starts (R397): one that failed asks for a power cycle, after a summary entry of the failed boot
(DESIGN CHOICE, log entry 36). -/
def checkStacks (s : State) : State := if stackFailed s then askPowerCycle (summary s 7 phaseFwStart 0) else s

/-- Firmware initialises (R336, R389, R407, R408): the lost clusters, the margin plan, the ports that are enabled, the boot's lifetime event. -/
def initFirmware (s : State) (bad : List Nat) : State :=
  let lost := if bad.contains 0x29 then 0 else bits (s.shedWord 0x29) 15 0
  let s1 := applyPlan (s.wr RG_STATUS_LOST_CLUSTERS lost) bad
  let s2 := (List.range 16).foldl (fun s p => trainPort s p (bad.contains (0x10 + p))) s1
  let s3 := lifeEvent (checkStacks s2) (if s.mod.cold then 1 else 2) 1
  { s3 with gate := { s3.gate with phase := phaseRunning, ran := true, failedBoots := 0 }, mod := { s3.mod with cold := false } }

/-- Meaning of FIRMWARE_RUNNING; `bad` are the Shed words that read as uncorrectable (R407). -/
def firmwareRunning (s : State) (bad : List Nat) : State :=
  if s.gate.phase = phaseFwStart then
    let s1 := bad.foldl shedUe s
    if bad.any (· < 16) then haltFirmware s1 else initFirmware s1 bad
  else s

/-- FIRMWARE_RUNNING. -/
def execFirmwareRunning (bad : List Nat) (s : State) : Host.Outcome State Fault Refusal :=
  if bad.all (· < 8192) then .next (firmwareRunning s bad) else .fault (.noSuch "Shed word")

/-- FIRMWARE_INTERNAL_ERROR (R335, R397): firmware was running, or starting. -/
def execFirmwareInternalError (s : State) : Host.Outcome State Fault Refusal :=
  .next (if s.gate.phase = phaseFwStart ∨ s.gate.phase = phaseRunning then haltFirmware s else s)

-- time limits (R339)

/-- What an asynchronous command leaves when it reaches its limit. A pavilion reset has a row of its own (R397), and a reset of another unit runs on. -/
def timeout (s : State) (n : Nat) (x : Flight) : State :=
  if x.opcode = 0x02 then endFw s n x.ticket stTimeout
  else if x.opcode = 0x04 then endAsync (alignUndone s) n x.ticket stTimeout 0 0
  else match x.opcode, x.pv with
    | 0x22, some q => stagingTimeout s q
    | 0x24, some q => failLoad s q stTimeout
    | 0x12, some q => (match (s.pv q).run.reset with
        | some j => if j.unit = unitPavilion then s else endAsync s n x.ticket stTimeout 0 0
        | none => endAsync s n x.ticket stTimeout 0 0)
    | _, _ => endAsync s n x.ticket stTimeout 0 0

/-- Meaning of ASYNC_COMMAND_TIMEOUT. -/
def asyncTimeout (s : State) (n ticket : Nat) : State :=
  match (s.fn n).flights.find? (fun x => x.ticket == ticket) with
  | some x => if x.deadline ≤ s.sun.time then timeout s n x else s
  | none => s

/-- ASYNC_COMMAND_TIMEOUT. -/
def execAsyncCommandTimeout (f : Func) (ticket : Nat) (s : State) : Host.Outcome State Fault Refusal :=
  if fnOk f ∧ ticket < 256 then .next (asyncTimeout s (fnNum f) ticket) else .fault (.noSuch "function or ticket")

-- DOE and SPDM (R359 to R361). Response codes are those of DSP0274 and of the PCI Express DOE discovery object (PRESUMED, log entry 16).

/-- A physical function's DOE mailbox answers while its port's link is up (R359). -/
def doeUp (s : State) (port : Nat) : Bool := SMap.look s.mod.links port 0 == 1

/-- A DOE row of a port: nothing happens without a link. -/
def doeRow (port : Nat) (s : State) (body : State) : Host.Outcome State Fault Refusal :=
  if port < 2 then .next (if doeUp s port then body else s) else .fault (.noSuch "port")

/-- The objects that the mailbox supports: vendor ID and type. -/
def doeObjects : List (Nat × Nat) := [(0x0001, 0x00), (0x0001, 0x01), (0x1F3C, 0x01)]

/-- The answer to a discovery request: vendor ID, type, and the next index, 0 after the last. -/
def discoveryBody (index : Nat) : List Byte :=
  match doeObjects[index]? with
  | some (v, t) => leBytes 2 v ++ [BitVec.ofNat 8 t, BitVec.ofNat 8 (if index + 1 < doeObjects.length then index + 1 else 0)]
  | none => [0xFF, 0xFF, 0, 0]

/-- DOE_DISCOVERY. -/
def execDoeDiscovery (port index : Nat) (s : State) : Host.Outcome State Fault Refusal :=
  doeRow port s (s.emit (.doe port (discoveryBody index)))

/-- An SPDM error response. -/
def spdmError (s : State) (port : Nat) : State := s.emit (.spdm port 0x7F [] false)

/-- Meaning of SPDM_GET_CERTIFICATE: a part of the chain of slot 0. -/
def getCertificate (s : State) (port slot offset len : Nat) : State :=
  if slot = 0 ∧ offset < Config.certChain.length then s.emit (.spdm port 0x02 [(0, (Config.certChain.drop offset).take len)] false) else spdmError s port

/-- SPDM_GET_CERTIFICATE. -/
def execSpdmGetCertificate (port slot offset len : Nat) (s : State) : Host.Outcome State Fault Refusal :=
  doeRow port s (getCertificate s port slot offset len)

/-- Meaning of SPDM_CHALLENGE: an answer over the caller's nonce and the chain's digest, signed with the device key. -/
def challenge (s : State) (port slot : Nat) (nonce : List Byte) : State :=
  if slot = 0 then s.emit (.spdm port 0x03 [(0, sha256 Config.certChain), (1, nonce)] true) else spdmError s port

/-- SPDM_CHALLENGE. -/
def execSpdmChallenge (port slot : Nat) (nonce : List Byte) (s : State) : Host.Outcome State Fault Refusal :=
  doeRow port s (challenge s port slot nonce)

/-- Bytes padded with zeros to a length. -/
def padTo (n : Nat) (b : List Byte) : List Byte := (b ++ List.replicate n 0).take n

/-- A fleet slot in measurement block 4 (R360). -/
def fleetBytes (s : State) (n : Nat) : List Byte :=
  match s.fleet? n with
  | some f => [1, BitVec.ofNat 8 f.port] ++ padTo 32 f.keyId
  | none => List.replicate 34 0

/-- A pavilion in measurement blocks 5 to 8 (R360, R361): zero for the other port, an absent pavilion, and one without a loaded slice. -/
def pvBytes (s : State) (port q : Nat) : List Byte :=
  let v := s.pv q
  match s.loadedSlice q with
  | some x =>
    if pvExists s q ∧ v.res.port = port then [BitVec.ofNat 8 v.run.st] ++ padTo 32 x.modelId ++ padTo 32 x.manifestHash ++ padTo 32 v.run.imageHash
    else List.replicate 97 0
  | none => List.replicate 97 0

/-- Measurement block `k` as the host of a port reads it (R360). -/
def measurement (s : State) (port k : Nat) : List Byte :=
  match k with
  | 1 => padTo 32 Config.romHash
  | 2 => padTo 32 s.gate.fwHash
  | 3 => [BitVec.ofNat 8 s.gate.svn, BitVec.ofNat 8 s.gate.fuses]
  | 4 => (List.range 4).flatMap (fleetBytes s)
  | 9 => leBytes 8 partId.toNat ++ (List.range 16).flatMap (fun r => leBytes 8 (s.shedWord r).toNat)
  | _ => if 5 ≤ k ∧ k ≤ 8 then pvBytes s port (k - 5) else []

/-- Meaning of SPDM_GET_MEASUREMENTS: operation 0 asks for the number of blocks, 0xFF for all, another for one; every answer is signed over the
nonce. -/
def getMeasurements (s : State) (port op : Nat) (nonce : List Byte) : State :=
  if op = 0 then s.emit (.spdm port 0x60 [(0, [9]), (0xFE, nonce)] true)
  else if op = 0xFF then s.emit (.spdm port 0x60 ((List.range 9).map (fun k => (k + 1, measurement s port (k + 1))) ++ [(0xFE, nonce)]) true)
  else if op ≤ 9 then s.emit (.spdm port 0x60 [(op, measurement s port op), (0xFE, nonce)] true)
  else spdmError s port

/-- SPDM_GET_MEASUREMENTS. -/
def execSpdmGetMeasurements (port op : Nat) (nonce : List Byte) (s : State) : Host.Outcome State Fault Refusal :=
  doeRow port s (getMeasurements s port op nonce)

/-- The capability flags of R359: CERT_CAP, CHAL_CAP, and MEAS_CAP with signatures. -/
def spdmCaps : Nat := 2 ^ 1 + 2 ^ 2 + 2 * 2 ^ 3

/-- SPDM_GET_CAPABILITIES. -/
def execSpdmGetCapabilities (port : Nat) (s : State) : Host.Outcome State Fault Refusal :=
  doeRow port s (s.emit (.spdm port 0x61 [(0, leBytes 4 spdmCaps)] false))

/-- The selections of R359: TPM_ALG_RSAPSS_3072, and TPM_ALG_SHA_256 for hashing and measurements. -/
def spdmAlgorithms : List (Nat × List Byte) := [(0, leBytes 4 (2 ^ 3)), (1, leBytes 4 1), (2, leBytes 4 2)]

/-- SPDM_NEGOTIATE_ALGORITHMS. -/
def execSpdmNegotiateAlgorithms (port : Nat) (s : State) : Host.Outcome State Fault Refusal :=
  doeRow port s (s.emit (.spdm port 0x63 spdmAlgorithms false))

-- fleet keys (R362 to R364)

/-- The response to a fleet-key request. -/
def fleetReply (s : State) (port status : Nat) : State := s.emit (.doe port (BitVec.ofNat 8 status :: List.replicate 7 0))

/-- OP, SLOT and the reserved bytes of a fleet-key request are well formed. -/
def fleetHead (body : List Byte) : Bool := (body.getD 1 0xFF).toNat < 4 && ((body.drop 2).take 6).all (· == 0)

/-- The slot belongs to the other host port. -/
def fleetForeign (s : State) (port slot : Nat) : Bool := match s.fleet? slot with | some f => f.port != port | none => false

/-- The primes of an install request, if its key-encryption key and its tag hold. -/
def fleetPrimes (body : List Byte) : Option (Nat × Nat) :=
  let cut := fun (a n : Nat) => (body.drop a).take n
  match oaepOpen Config.devN Config.devD (cut 8 384) with
  | some kek =>
    if kek.length = 32 then (gcmOpen kek (cut 392 12) (body.take 404) (cut 788 384) (cut 1172 16)).map (fun pq => (leNat (pq.take 192), leNat (pq.drop 192)))
    else none
  | none => none

/-- Meaning of FLEET_KEY_INSTALL. A request whose OP is neither install nor remove is malformed, and is answered here. -/
def fleetInstall (s : State) (port : Nat) (body : List Byte) : State :=
  let slot := (body.getD 1 0).toNat
  let n := leNat ((body.drop 404).take 384)
  if body.headD 0 = 2 then s
  else if body.headD 0 ≠ 1 ∨ body.length ≠ 1188 ∨ !fleetHead body then fleetReply s port stBadArgument
  else if fleetForeign s port slot then fleetReply s port stStateConflict
  else match fleetPrimes body with
    | none => fleetReply s port stAuthFailed
    | some (p, q) =>
      if p * q ≠ n then fleetReply s port stBadArgument
      else
        let k : Fleet := { port := port, keyId := keyId n, n := n, d := rsaPrivate p q }
        fleetReply (s.modGate (fun g => { g with fleet := SMap.put g.fleet slot k })) port stDone

/-- FLEET_KEY_INSTALL. -/
def execFleetKeyInstall (port : Nat) (body : List Byte) (s : State) : Host.Outcome State Fault Refusal :=
  doeRow port s (fleetInstall s port body)

/-- Meaning of FLEET_KEY_REMOVE. -/
def fleetRemove (s : State) (port : Nat) (body : List Byte) : State :=
  let slot := (body.getD 1 0).toNat
  if body.headD 0 ≠ 2 then s
  else if body.length ≠ 8 ∨ !fleetHead body then fleetReply s port stBadArgument
  else if fleetForeign s port slot then fleetReply s port stStateConflict
  else fleetReply (s.modGate (fun g => { g with fleet := SMap.del g.fleet slot })) port stDone

/-- FLEET_KEY_REMOVE. -/
def execFleetKeyRemove (port : Nat) (body : List Byte) (s : State) : Host.Outcome State Fault Refusal :=
  doeRow port s (fleetRemove s port body)

end Sys2Proof.Machine
end

