-- ==== Sys2Proof/Machine/Replay.lean ====
section
/-!
DEFINITION. Frame replay (R379 to R385), lasting faults and row-shift repair (R386 to R389), the Ranger (R390), and the tile reports of R397.
-/

namespace Sys2Proof.Machine
open Sys2Proof

-- the freeze point of a replay's hold (R380)

/-- A control word of the frame: credit returns and barrier messages are dropped, a refused slot tells of abandoned work, a revocation is never
dropped (R380). -/
def frameCtl : CtlBody → Bool
  | .revoke _ _ => false
  | _ => true

/-- The words of the frame that wait at a port for a block: barrier arrivals, releases and credits (R231). -/
def frameWord (c : W64 × W64) : Bool := bits c.1 7 0 == 3 || bits c.1 7 0 == 4 || bits c.1 7 0 == 6

/-- A port drops the frame's work and its slot claims (R380), and gives back the buffer space of the channel-0 flits that it drops; its numbered blocks
stay (R230). -/
def Port.abandon (q : Port) : Port :=
  { q with egress := [], claims := [], bulk := [], sched := [], inbound := [],
           ctl := q.ctl.filter (fun c => !frameWord c),
           giveBack := SMap.put (SMap.put q.giveBack 0 (SMap.look q.giveBack 0 0 + ingressHeld q 0)) 1 (SMap.look q.giveBack 1 0 + ingressHeld q 1) }

/-- A Lodge core hears of the replay (R255, R380). -/
def replayIrq (s : State) (k : Nat) : State :=
  s.setLodge k (((s.lodge k).raise LG_IRQ_REPLAY).wr LG_FRAME_REPLAY_FRAME s.frame)

/-- A flit of an abandoned transfer is carried on in a stand, where channel 1 goes by the tick timer (R206, R380). -/
def carriedOn (s : State) (x : Transfer) (f : MeshFlit) : MeshFlit :=
  if f.car = 1 then
    let now_ := if x.leg = 1 then s.sun.ctr else s.now (s.phys x.dstTile)
    { f with car := 0, hop := x.path.length, due := s.sun.tick + (f.due - now_) }
  else f

/-- The transfers that an abandoned frame leaves in the mesh (R380): what was not injected never is. -/
def abandoned (s : State) : List Transfer :=
  (s.die.transfers.map (fun x => { x with stale := true, left := 0, air := x.air.map (carriedOn s x) })).filter (fun x => !x.air.isEmpty)

/-- The attempt at the frame ends (R380). -/
def abandonFrame (s : State) : State :=
  let s1 := bandAbandon (commitDrop s (fun _ => true))
  let d := s1.die
  let s2 : State := { s1 with
    tiles := s1.tiles.map (fun x => (x.1, { x.2 with seq := { x.2.seq with window := [] } })),
    die := { d with transfers := abandoned s1, windows := [],
                    ctls := d.ctls.map (fun c => if frameCtl c.body then { c with stale := true } else c),
                    ports := d.ports.map (fun q => (q.1, q.2.abandon)) },
    replay := { s1.replay with standing := true } }
  (List.range 16).foldl replayIrq s2

/-- The freeze point of a KIND 5 hold has been reached in every domain (R380). -/
def replayStands (s : State) : Bool :=
  s.replay.marked && !s.replay.standing && s.sun.stopped && s.sun.regionsAt.length == 8 && replayStand s.sun

-- quiet (R381)

/-- A send channel's CREDITS and WPTR from the tick copy; a closed channel keeps CREDITS 0 (R381). -/
def restoreSend (t : Tile) (n : Nat) : Tile :=
  let w := SMap.look t.tick.send n 0
  if t.rd (TW_SEND_STATE_OPEN n) = 1 then
    (t.wr (TW_SEND_STATE_CREDITS n) (bits w (TW_SEND_STATE_CREDITS 0).hi (TW_SEND_STATE_CREDITS 0).lo)).wr (TW_SEND_STATE_WPTR n)
      (bits w (TW_SEND_STATE_WPTR 0).hi (TW_SEND_STATE_WPTR 0).lo)
  else t

/-- A receive channel's RPTR from the tick copy (R381). -/
def restoreRecv (t : Tile) (n : Nat) : Tile :=
  if t.rd (TW_RECV_STATE_OPEN n) = 1 then
    t.wr (TW_RECV_STATE_RPTR n) (bits (SMap.look t.tick.recv n 0) (TW_RECV_STATE_RPTR 0).hi (TW_RECV_STATE_RPTR 0).lo)
  else t

/-- A tile returns to its tick copy (R381). A tile that waits for its context's first tick has run nothing in this frame and keeps the state of its
start (R66; log entry 38). -/
def Tile.restored (t : Tile) : Tile :=
  if t.seq.run = .waitTick then t
  else
    let t1 := (List.range 32).foldl restoreRecv ((List.range 32).foldl restoreSend t)
    { t1 with tc := t.tick.tc,
              seq := { t1.seq with head := t.tick.head, ready := 0, atEnd := false, mainBuf := [], hBuf := [], handler := none, hq := [], window := [],
                                   holdSeq := none, holdReleased := false, issuedAt := none } }

/-- The module returns to the tick that began the frame (R381). -/
def restoreFrame (s : State) : State :=
  { s with tiles := s.tiles.map (fun x => (x.1, x.2.restored)),
           die := { s.die with barriers := s.die.barriers.map (fun b => (b.1, { b.2 with total := b.2.tickTotal, pend := [] })) } }

-- lines and beats that the Warden rewrites (R200, R387)

/-- A line lies in half `h` of a valid frame-carried pair. -/
def inHalf (t : Tile) (line h : Nat) : Bool := (fcPairs t).any (fun n => (fcHalf t n h).1 ≤ line && line ≤ (fcHalf t n h).2)

/-- The bytes of a line from the placed image, its REBASE fields at the values of the frames in which its copies run next (R387). -/
def imageLine (s : State) (q : Nat) (i : Image) (t line : Nat) : List Byte :=
  Mem.rdN (rebased i t s.frame (s.pv q).run.f0 (i.tileBytes (s.pv q).run.barriers t [])) (512 * line) 512

/-- The line of an uncorrectable scratchpad word, by its class (R387): lost data aborts the context, a line of the image is rewritten, any other needs
nothing. -/
def answerLine (s : State) (t line : Nat) : State :=
  let p := s.phys t
  match s.pvOfCluster (clusterOf t) with
  | none => s
  | some q =>
    if inHalf (s.tile p) line ((s.frame + 1) % 2) then contextAbort s q causeDataLost p
    else match (s.pv q).run.image with
      | none => s
      | some i =>
        if (i.dataAt t (512 * line)).isSome && !inHalf (s.tile p) line (s.frame % 2) then
          s.modTile p (fun x => { x with sp := Mem.wrN x.sp (512 * line) (imageLine s q i t line) })
        else s

/-- The Warden's answer to a site whose first error this replay follows (R378, R387). -/
def answerSite (s : State) (x : Site) : State :=
  match s.logical x.place with
  | none => s
  | some t =>
    if x.kind = siteSp then answerLine s t (x.addr / 64)
    else if x.kind = siteTerrace ∧ (s.pvOfCluster (clusterOf t)).isSome then
      s.modTile x.place (fun y => { y with tr := Mem.wrN y.tr (512 * x.addr) (beatSource s x.place x.addr) })
    else s

-- row-shift repair (R388, R389)

/-- Uncorrectable words of a physical tile's scratchpad (R378). -/
def badWords (s : State) (p : Nat) : List Nat := (s.replay.lasting.filter (fun x => x.kind == siteSp && x.place == p)).map (·.addr)

/-- What a move copies from physical tile (r, j) to (r, j + 1) (R388): scratchpad, counters with tick copies and ORPHANED, head, handler entries, log
pointer. The target waits for the tick if a context ran on the source. -/
def moved (bad : List Nat) (x y : Tile) : Tile :=
  let on := x.rd TL_SEQ_CONFIG_ENABLE
  let y1 := ((y.wr TL_SEQ_CONFIG_HANDLER_ENTRIES (x.rd TL_SEQ_CONFIG_HANDLER_ENTRIES)).wr TL_SEQ_CONFIG_ENABLE on).wr TL_RP_CTRL_LOG_NEXT
    (x.rd TL_RP_CTRL_LOG_NEXT)
  { y1 with sp := bad.foldl (fun m a => Mem.clear m (8 * a) 8) x.sp, tc := x.tc, orphaned := x.orphaned, tick := x.tick,
            seq := { Seq.reset with run := if on = 1 then .waitTick else .idle, head := if x.seq.run = .waitTick then x.seq.head else x.tick.head } }

/-- The source of a move is left idle (R388). -/
def Tile.movedAway (x : Tile) : Tile := { x.wr TL_SEQ_CONFIG_ENABLE 0 with seq := Seq.reset }

/-- A move to the east neighbour in a quiet period (R388): a write of MOVE_EAST at any other time is ignored. The move is
one step, and MOVE_BUSY reads 0 (DESIGN CHOICE, log entry 33). -/
def moveEast (s : State) (p : Nat) : State :=
  if s.replay.standing && !s.replay.released && p % 17 < 16 then
    let x := s.tile p
    let ran := x.rd TL_SEQ_CONFIG_ENABLE == 1 && x.seq.run != .waitTick
    let s1 := (s.setTile (p + 1) (moved (badWords s p) x (s.tile (p + 1)))).setTile p x.movedAway
    { s1 with replay := { s1.replay with moved := s1.replay.moved ++ [(p, ran)] } }
  else s

/-- Meaning of MOVE_EAST. -/
def execMoveEast (p : Nat) (s : State) : Host.Outcome State Fault Refusal :=
  if p < 272 then .next (moveEast s p) else .fault (.noSuch "physical tile")

/-- The window registers that the Warden copies through its own port (R388). -/
def copiedRegs : List Nat :=
  [TL_SP_WINDOW_OFF] ++ (List.range 4).map TL_SP_BANK_OFF ++ (List.range 4).map TL_FC_OFF ++ [TL_EPOCH_OFF, TL_TR_CTRL_OFF]
    ++ (List.range 32).flatMap (fun n => (List.range 4).map (fun k => TW_SEND_CFG_OFF n + 8 * k))
    ++ (List.range 32).flatMap (fun n => (List.range 5).map (fun k => TW_RECV_CFG_OFF n + 8 * k))

/-- Those registers copied to the east neighbour. -/
def copyRegs (s : State) (p : Nat) : State :=
  s.modTile (p + 1) (fun y => copiedRegs.foldl (fun y off => y.setReg off ((s.tile p).regW off)) y)

/-- The OY_TERRACE moves of the frame before, in order of retirement (R388). -/
def movesOf (t : Tile) (f : Nat) : List (W64 × W64) :=
  ((List.range 64).map (fun k => (t.rd TL_RP_CTRL_LOG_NEXT + k) % 64)).filterMap (fun n =>
    if t.rd (TL_TR_LOG_A_VALID n) = 1 ∧ t.rd (TL_TR_LOG_B_FRAME n) = f then some (t.regW (TL_TR_LOG_A_OFF n), t.regW (TL_TR_LOG_B_OFF n)) else none)

/-- A move repeated on a tile, and entered in its log under its own frame (log entry 39). -/
def repeatMove (q p : Nat) (s : State) (e : W64 × W64) : State :=
  let beat := bits e.1 62 48
  let data := oyRead s q (bits e.1 37 0) (512 * (bits e.2 14 0 + 1)) .clean
  s.modTile p (fun t =>
    let n := t.rd TL_RP_CTRL_LOG_NEXT
    let t1 := ((t.setReg (TL_TR_LOG_A_OFF n) e.1).setReg (TL_TR_LOG_B_OFF n) e.2).wr TL_RP_CTRL_LOG_NEXT ((n + 1) % 64)
    { t1 with tr := Mem.wrN t1.tr (512 * beat) data })

/-- One column of a repair: the tile moves unless a command has moved it, its registers follow, and the log of its moves is kept for the reload. -/
def shiftColumn (f r : Nat) (acc : State × List (Nat × List (W64 × W64))) (j : Nat) : State × List (Nat × List (W64 × W64)) :=
  let p := 17 * r + j
  let logs := movesOf (acc.1.tile p) f
  let s1 := if acc.1.replay.moved.any (fun m => m.1 == p) then acc.1 else moveEast acc.1 p
  (copyRegs s1 p, acc.2 ++ [(p + 1, logs)])

/-- A moved tile's Terrace: reloaded from the slice, then the logged moves (R388 step 3). -/
def reloadMoved (s : State) (x : Nat × List (W64 × W64)) : State :=
  match s.logical x.1 with
  | none => s
  | some t =>
    match s.pvOfCluster (clusterOf t) with
    | none => s
    | some q => x.2.foldl (repeatMove q x.1) (reloadTile s q t)

/-- A repair entry (R408). -/
def repairEntry (column : Nat) : W64 := setBits (setBits 0 63 63 1) 4 0 column

/-- A cluster is recorded as lost (R389, R408). -/
def recordLost (s : State) (k : Nat) : State :=
  summary (shedPut s 0x29 (s.shedNext 0x29 ||| w64 (2 ^ k)) none) 6 k 0

/-- A row's entry is written into the Shed, and the device steers by it (R388 step 1). A worn entry serves for this boot, and a lost cluster is
recorded for the next (R406; log entry 40). -/
def writeEntry (s : State) (r column : Nat) (lost : Option Nat) : State :=
  let s1 : State := shedPut { s with rows := SMap.put s.rows r column } r (repairEntry column) none
  match lost with
  | some k => if shedWorn s r then recordLost s1 k else s1
  | none => s1

/-- What the stacks found in the slice that a repair's reloads read (R274, R388). Each pavilion whose tiles move repairs its rows; the check is of the
slice of the failed tile's pavilion, whose context is aborted where a unit is flagged (DESIGN CHOICE, log entry 39). -/
def repairCheck (s : State) (t r c : Nat) (chk : Check) : State :=
  let s1 := (List.range 4).foldl (fun s q => if (s.pvTiles q).any (fun p => p / 17 == r && c < p % 17) then repairUnits s q else s) s
  match s1.pvOfCluster (clusterOf t) with
  | none => s1
  | some q =>
    let s2 := noteReload s1 q chk
    if flagged chk then contextAbort s2 q causeDataLost (s2.phys t) else s2

/-- A row-shift repair of physical tile (r, c) (R388). -/
def repairRow (s : State) (t r c : Nat) (chk : Check) : State :=
  let bad := badWords s (17 * r + c)
  let cols := ((List.range (16 - c)).map (fun k => 15 - k))
  let m := cols.foldl (shiftColumn ((s.frame + 4294967295) % 4294967296) r) (s, [])
  let s1 := writeEntry m.1 r c (some (clusterOf t))
  let s2 := m.2.foldl reloadMoved s1
  let s3 := bad.foldl (fun s a => answerLine s t (a / 64)) s2
  summary ((repairCheck s3 t r c chk).inc RG_REPLAY_REPAIRS 1) 5 r c

/-- A logical tile that no repair can save: its cluster is lost (R389). -/
def loseCluster (s : State) (t p : Nat) : State :=
  let k := clusterOf t
  let s1 := match s.pvOfCluster k with
    | some q => contextAbort s q causeRepair p
    | none => s
  let s2 := (recordLost s1 k).wr RG_STATUS_LOST_CLUSTERS (s1.rd RG_STATUS_LOST_CLUSTERS ||| 2 ^ k)
  (setAlert s2 alertReplace).emit (.request alertReplace)

/-- The pavilion whose window holds a unit of a group (R261). -/
def unitOwner (s : State) (g unit : Nat) : Option Nat :=
  (List.range 4).find? (fun q => s.rd (OY_PV_CFG_VALID q) == 1 && (s.rd (OY_PV_CFG_GROUPS q)).testBit g
    && s.rd (OY_PV_CFG_WIN_FIRST q) ≤ unit / 32768 && unit / 32768 < s.rd (OY_PV_CFG_WIN_FIRST q) + s.rd (OY_PV_CFG_WIN_EXTENTS q))

/-- The response to a lasting fault (R386, R389). What the stacks find in the slice that a repair reads is a free value (log entry 11). -/
def answerLasting (s : State) (x : Site) : State :=
  if x.kind ≤ 1 then
    match s.logical x.place with
    | none => if (SMap.look? s.rows (x.place / 17)).isNone then writeEntry s (x.place / 17) (x.place % 17) none else s
    | some t =>
      if (SMap.look? s.rows (x.place / 17)).isSome then loseCluster s t x.place
      else (repairRow s t (x.place / 17) (x.place % 17) (Config.sliceCheck s.free)).drawn
  else if x.kind = siteOrangery then
    match unitOwner s x.place x.addr with
    | some q => contextAbort { s with replay := { s.replay with ppr := s.replay.ppr ++ [(x.place, x.addr)] } } q causeDataLost 0x1FF
    | none => s
  else portDown s x.place

/-- The fourth failure of a frame, found on this module (R384): the contexts that run on it are aborted. -/
def replayLimit (s : State) : State :=
  let own := bits s.replay.report 63 61 != 4 || !s.replay.fresh.isEmpty || !s.replay.lasting.isEmpty
  if 3 ≤ s.replay.attempts ∧ own then
    ((List.range 4).filter (fun q => (s.pv q).run.st != pvHeld)).foldl (fun s q => contextAbort s q causeReplayLimit 0x1FF) s
  else s

/-- No abandoned work is left on this module: the mesh holds no flit of the frame, and channel 2 no word of it (R381). -/
def quiet (s : State) : Bool := !s.die.transfers.any (·.stale) && !s.die.ctls.any (·.stale)

/-- The release of the module's own KIND 5 hold, which carries the tick timer (R381). -/
def releaseReplay (s : State) : State :=
  match s.sun.holds.find? (fun h => h.kind == kindReplay && h.origin == s.index && h.relAt == none) with
  | none => s
  | some h =>
    let s1 := (releaseHold s s.index h.seq (s.sun.tick + 2)).flood none (fun p => .release p s.index h.seq s.sun.tick)
    { s1 with replay := { s1.replay with released := true, stamps := s1.replay.stamps ++ [s.sun.tick] } }

/-- The module is quiet (R381): it restores its tick state, rewrites and repairs, and sends its release. -/
def replayQuiet (s : State) : State :=
  if s.replay.standing && !s.replay.released && quiet s then
    let s1 := replayLimit (restoreFrame s)
    let s2 := s.replay.fresh.foldl answerSite s1
    let s3 := s.replay.lasting.foldl answerLasting s2
    releaseReplay { s3 with replay := { s3.replay with restored := true, fresh := [], lasting := [] } }
  else s

/-- Meaning of REPLAY_QUIET. -/
def execReplayQuiet (s : State) : Host.Outcome State Fault Refusal := .next (replayQuiet s)

-- the replay tick (R382)

/-- What every tile copies at a tick (R381). -/
def Tile.copies (t : Tile) : TickCopy :=
  { tc := t.tc, send := (List.range 32).map (fun n => (n, t.regW (TW_SEND_STATE_OFF n))),
    recv := (List.range 32).map (fun n => (n, t.regW (TW_RECV_STATE_OFF n))), head := t.seq.head }

/-- A tile at a replay tick: its tick copy, and its restored head from frame cycle 2 on (R56, R382). -/
def Tile.replayed (resumes : Bool) (t : Tile) : Tile :=
  let t1 := { t with seq := { t.seq with run := if resumes && t.seq.run == RunState.waitTick then .running else t.seq.run, ready := 2 } }
  { t1 with tick := t1.copies }

/-- The ports in DOWN that belong to the machine (R241). -/
def State.downPorts (s : State) : List Nat := s.machinePorts.filter (fun p => s.rd (FB_STATUS_STATE p) == portDownCode)

/-- T_r, once every release of the replay's holds has arrived (R382). -/
def replayDue (s : State) : Option Nat :=
  if s.replay.released && (s.sun.holds.filter (fun h => h.kind == kindReplay)).all (fun h => h.relAt.isSome) then
    some (maxOf s.replay.stamps + s.rd RG_CFG_REACH) else none

/-- The stand ends as one hold of KIND 5 (R382). -/
def recordReplay (s : State) : State :=
  match s.sun.holds.find? (fun h => h.kind == kindReplay) with
  | some h => recordHold s h (s.sun.tick - s.sun.standAt) (s.sun.freeze.getD 0)
  | none => s

/-- Every frame counter returns to zero, the tick timer and H restart, every hold ends (R382). -/
def Sun.replayed (u : Sun) : Sun :=
  { u with tick := 0, ctr := 0, lags := [], holds := [], freeze := none, stopped := false, regionsAt := [], standAt := 0, lastAtF := 0, later := [] }

/-- What is left of abandoned work is gone; what a replay never drops keeps its distance from now (R380). -/
def dieReplayed (tick : Nat) (resumes : List Nat) (s : State) : State :=
  { s with
    tiles := s.tiles.map (fun x => (x.1, x.2.replayed (resumes.contains x.1))),
    die := { s.die with
      transfers := s.die.transfers.filter (fun x => !x.stale),
      ctls := (s.die.ctls.filter (fun c => !c.stale)).map (fun c => { c with due := c.due - tick }),
      barriers := s.die.barriers.map (fun b => (b.1, { b.2 with tickTotal := b.2.total })),
      band := { s.die.band with lands := s.die.band.lands.map (fun r => { r with landed := false }) } } }

/-- The replay logic after a replay tick: what has been attempted counts on, and the sites wait for their next read. -/
def Replay.ended (r : Replay) : Replay :=
  { Replay.reset with attempts := r.attempts + 1, sites := r.sites, fresh := r.fresh, lasting := r.lasting, ppr := r.ppr }

/-- REPLAY_TICK (R382). -/
def replayTick (s : State) : State :=
  match replayDue s with
  | none => s
  | some t =>
    if s.sun.tick < t then s
    else
      let s1 := lifeEvent (((recordReplay s).inc RG_REPLAY_REPLAYS 1).setReg RG_LAST_REPLAY_OFF s.replay.report) 3 1
      let s2 := s1.raise RG_STATUS_REPLAY_SEEN
      let s3 := dieReplayed s.sun.tick ((s.replay.moved.filter (·.2)).map (·.1 + 1)) { s2 with sun := s2.sun.replayed, replay := s2.replay.ended }
      s3.downPorts.foldl downHold s3

/-- Meaning of REPLAY_TICK. -/
def execReplayTick (s : State) : Host.Outcome State Fault Refusal := .next (replayTick s)

-- the Ranger (R390)

/-- A tile is ready for the tick (R27, R390): no context, a context that waits for its first tick, or its frame-end link retired. -/
def tileReady (t : Tile) : Bool :=
  (t.rd TL_SEQ_CONFIG_ENABLE == 0 || t.seq.run == .waitTick || t.seq.atEnd) && t.seq.holdSeq.isNone

/-- A pavilion's context is ready (R390). -/
def contextReady (s : State) (q : Nat) : Bool := (s.pvTiles q).all (fun p => tileReady (s.tile p))

/-- A context runs on the die. -/
def contextRuns (s : State) : Bool :=
  (List.range 4).any (fun q => abortable s q && (s.pvTiles q).any (fun p => (s.tile p).rd TL_SEQ_CONFIG_ENABLE == 1))

/-- The Ranger counts (R384, R390). -/
def rangerCounts (s : State) : Bool := contextRuns s && !s.replay.marked && !replayStand s.sun

/-- The hold of a port in DOWN is withdrawn (R241, R390). -/
def withdrawPort (s : State) (p : Nat) : State :=
  match s.sun.holds.find? (fun h => h.kind == kindSched && h.origin == s.index && h.source == p && h.relAt == none) with
  | none => s
  | some h => (releaseHold s s.index h.seq (s.sun.tick + 2)).flood none (fun k => .release k s.index h.seq s.sun.tick)

/-- RANGER_FIRE (R390). -/
def rangerFire (s : State) : State :=
  if 0 < s.frameLen ∧ 2 * s.frameLen ≤ s.replay.idle ∧ rangerCounts s then
    let late := (List.range 4).filter (fun q => abortable s q && !contextReady s q)
    let s1 := lifeEvent ((s.raise RG_STATUS_RANGER_SEEN).inc RG_STATUS_RANGER_FIRES 1) 5 1
    let s2 := collectDump s1 causeRanger 0 (late.headD 0) 0x1FF (List.range 16)
    let s3 := late.foldl (fun s q => contextAbort s q causeRanger 0x1FF) s2
    noteProgress (if late.isEmpty then s3 else s3.downPorts.foldl withdrawPort s3)
  else s

/-- Meaning of RANGER_FIRE. -/
def execRangerFire (s : State) : Host.Outcome State Fault Refusal := .next (rangerFire s)

-- what a tile reports (R397)

/-- TILE_FAULT_REPORT: the Warden takes the oldest report of a tile. A recorded fault or a broken wait aborts the tile's context. -/
def tileReport (s : State) (p : Nat) : State :=
  match s.die.reports.find? (fun r => r.p == p) with
  | none => s
  | some r =>
    let s1 : State := { s with die := { s.die with reports := dropFirst (fun x => x.p == p) s.die.reports } }
    match s1.pvOfTile p with
    | none => s1
    | some q => if r.kind = 0 then contextAbort s1 q causeCaught p else if r.kind = 1 then contextAbort s1 q causeWaitBroken p else s1

/-- Meaning of TILE_FAULT_REPORT. -/
def execTileFaultReport (p : Nat) (s : State) : Host.Outcome State Fault Refusal :=
  if p < 272 then .next (tileReport s p) else .fault (.noSuch "physical tile")

end Sys2Proof.Machine
end

