-- ==== Sys2Proof/Machine/Vector.lean ====
section
/-!
DEFINITION. The vector engine (chapter 5, R129 to R143): operand rows, lane operations, the reduction tree, masks, interlocks and timing.
-/

namespace Sys2Proof.Machine
open Sys2Proof

/-- The tile in a tc of a vector descriptor, the scratchpad as the reads of the tc find it, and the flags of R98. -/
structure VxRun where
  tile : Tile
  view : Mem
  nan : Bool
  inf : Bool
  sat : Bool
  deriving DecidableEq, Repr

/-- A narrow scratchpad code as FP32 (R132). -/
def narrowIn (fmt code : Nat) : Nat :=
  match fmt with
  | 1 => fp32Of (decBf16 code)
  | 2 => fp32Of (decE4m3 code)
  | 3 => fp32Of (decE5m2 code)
  | 4 => fp32Of (decI8 code)
  | _ => code

/-- A result in the destination's scratchpad format (R132), and whether SAT_SEEN applies (R137). -/
def narrowOut (fmt : Nat) (sat : Bool) (x : Nat) : Nat × Bool :=
  match fmt with
  | 1 => cvtBf16 sat x
  | 2 => cvtE4m3 sat x
  | 3 => cvtE5m2 sat x
  | 4 => cvtInt8 x
  | _ => (x, false)

/-- Bytes of a lane in a scratchpad format. -/
def laneBytes : Nat → Nat
  | 0 => 4
  | 1 => 2
  | _ => 1

/-- A lane of an operand (R130, R132). -/
def VxRun.rd (r : VxRun) (d : Desc) (sel m l : Nat) : Nat :=
  match selKind sel with
  | 1 => (SMap.look r.tile.vx.v (64 * selIndex sel + l) 0).toNat
  | 2 => (SMap.look r.tile.vx.v (64 * ((selIndex sel + m) % 32) + l) 0).toNat
  | 3 => (SMap.look r.tile.mx.acc (64 * (d.accRow + m) + l) 0).toNat
  | 4 =>
    let w := laneBytes d.spFmt
    narrowIn d.spFmt (Mem.rdLe r.view (d.vxSpBase + m * fmtSpBytes d.spFmt + w * l) w)
  | 5 => d.immediate
  | _ => 0

/-- The place of a destination lane (R130). -/
def vxLoc (d : Desc) (m l : Nat) : VLoc :=
  match selKind d.dst with
  | 2 => .reg ((selIndex d.dst + m) % 32) l
  | 3 => .acc (d.accRow + m) l
  | _ => .sp (d.vxSpBase + m * fmtSpBytes d.spFmt + laneBytes d.spFmt * l) d.spFmt

/-- The 32 bits at a place. -/
def VxRun.old (r : VxRun) : VLoc → Nat
  | .reg v l => (SMap.look r.tile.vx.v (64 * v + l) 0).toNat
  | .acc row l => (SMap.look r.tile.mx.acc (64 * row + l) 0).toNat
  | .sp a fmt => narrowIn fmt (Mem.rdLe r.view a (laneBytes fmt))

/-- 32 bits put at a place; a narrow place takes the code. In the scratchpad the vector engine's bytes stand over those of every other writer (R147). -/
def VxRun.put (r : VxRun) (loc : VLoc) (x : Nat) : VxRun :=
  match loc with
  | .reg v l => { r with tile := { r.tile with vx := { r.tile.vx with v := SMap.put r.tile.vx.v (64 * v + l) (w32 x) } } }
  | .acc row l => { r with tile := { r.tile with mx := { r.tile.mx with acc := SMap.put r.tile.mx.acc (64 * row + l) (w32 x) } } }
  | .sp a fmt => { r with tile := r.tile.spPut byVector a (leBytes (laneBytes fmt) x) }

/-- The places that convert (R132). -/
def VLoc.fmt : VLoc → Nat
  | .sp _ f => f
  | _ => 0

/-- An FP32 result written through its destination's conversion, with its flags (R98, R137). -/
def VxRun.putFp (r : VxRun) (sat : Bool) (loc : VLoc) (x : Nat) (finite : Bool) : VxRun :=
  let c := narrowOut loc.fmt sat x
  let narrowInf := (dec32 x).isFin && (dec32 (narrowIn loc.fmt c.1)).isInf
  let r1 := r.put loc c.1
  { r1 with nan := r1.nan || x == nan32, inf := r1.inf || ((dec32 x).isInf && finite) || narrowInf, sat := r1.sat || c.2 }

/-- The combination of an accumulating reduction (R102, R141). -/
def redComb (op a b : Nat) : Nat :=
  match op with
  | 0 => rne32 (Fp.add false (dec32 a) (dec32 b))
  | 1 => minMax true a b
  | _ => minMax false a b

/-- Mask bits written (R100). -/
def VxRun.putMask (r : VxRun) (m : Nat) (en val : W64) : VxRun :=
  { r with tile := { r.tile with vx := { r.tile.vx with m := SMap.put r.tile.vx.m m ((SMap.look r.tile.vx.m m 0 &&& ~~~en) ||| (val &&& en)) } } }

/-- One lane's write made. -/
def VxRun.apply (sat : Bool) (r : VxRun) : VWrite → VxRun
  | .zero loc => r.put loc 0
  | .set loc x fp => if fp then r.putFp sat loc x false else r.put loc (narrowOut loc.fmt sat x).1
  | .comb _ _ _ => r
  | .mask m en val => r.putMask m en val

/-- The writes of one row made. -/
def VxRun.applyRow (sat : Bool) (r : VxRun) (ws : List VWrite) : VxRun := ws.foldl (VxRun.apply sat) r

/-- An accumulating write meets the old value of its place (R141): a plain write of their combination, and whether it makes an infinity of finite
numbers (R98). -/
def VxRun.meet (r : VxRun) : VWrite → VWrite × Bool
  | .comb loc op x =>
    let old := r.old loc
    let y := redComb op old x
    (.set loc y true, (dec32 old).isFin && (dec32 x).isFin && (dec32 y).isInf)
  | w => (w, false)

/-- Lane `l` is active (R99). -/
def laneActive (t : Tile) (d : Desc) (l : Nat) : Bool := !d.maskEn || bit (SMap.look t.vx.m d.maskSel 0) l

/-- An FP32 number from two operands, and whether its inputs were finite. -/
def fpOp (v a b c : Nat) : Nat × Bool :=
  let x := dec32 a
  let y := dec32 b
  let z := dec32 c
  match v with
  | 0 => (rne32 (Fp.add false x y), x.isFin && y.isFin)
  | 1 => (rne32 (Fp.add false x y.negate), x.isFin && y.isFin)
  | 2 => (rne32 (Fp.mul x y), x.isFin && y.isFin)
  | 3 => (rne32 (Fp.add false (Fp.mul x y) z), x.isFin && y.isFin && z.isFin)
  | 4 => (minMax false a b, false)
  | 5 => (minMax true a b, false)
  | 6 => (if x.isNan then nan32 else a % 2147483648, false)
  | 7 => (if x.isNan then nan32 else if a < 2147483648 then a + 2147483648 else a - 2147483648, false)
  | _ => (if x.isNan then nan32 else a, false)

/-- VX_INT (R97, R136). -/
def intOp (v : Nat) (a b : W32) : W32 :=
  let n := b.toNat % 32
  match v with
  | 0 => a + b
  | 1 => a - b
  | 2 => a * b
  | 3 => a &&& b
  | 4 => a ||| b
  | 5 => a ^^^ b
  | 6 => a <<< n
  | 7 => a >>> n
  | 8 => a.sshiftRight n
  | _ => a

/-- VX_CVT (R137): the result, whether SAT_SEEN applies, and whether an infinity came from a finite input. -/
def cvtOp (v : Nat) (sat : Bool) (a : Nat) : Nat × Bool × Bool :=
  match v with
  | 0 => ((f2i a).1, (f2i a).2, false)
  | 1 => (i2f a, false, false)
  | 2 => (u2f a, false, false)
  | 3 => (narrowIn 1 (cvtBf16 sat a).1, (cvtBf16 sat a).2, true)
  | 4 => (narrowIn 2 (cvtE4m3 sat a).1, (cvtE4m3 sat a).2, true)
  | _ => (narrowIn 3 (cvtE5m2 sat a).1, (cvtE5m2 sat a).2, true)

/-- One lane of an element-wise opcode: the result, whether it has FP32 type, SAT_SEEN, INF_SEEN. -/
def laneOp (d : Desc) (a b c : Nat) : Nat × Bool × Bool × Bool :=
  if d.opcode = opVxFp then
    let r := fpOp d.variant a b c
    (r.1, true, false, r.2 && (dec32 r.1).isInf)
  else if d.opcode = opVxInt then ((intOp d.variant (w32 a) (w32 b)).toNat, false, false, false)
  else if d.opcode = opVxCvt then
    let r := cvtOp d.variant d.vxSat a
    (r.1, d.variant != 0, r.2.1, r.2.2 && (dec32 a).isFin && (dec32 r.1).isInf)
  else
    let r := vxFunction d.variant a
    (r, true, false, (dec32 a).isFin && (dec32 r).isInf)

/-- A row of an element-wise descriptor (R133): its writes, INF_SEEN and SAT_SEEN. -/
def elementRow (d : Desc) (r : VxRun) (m : Nat) : List VWrite × Bool × Bool :=
  (List.range 64).foldl (fun acc l =>
    if laneActive r.tile d l then
      let x := laneOp d (r.rd d d.srcA m l) (r.rd d d.srcB m l) (r.rd d d.srcC m l)
      (acc.1 ++ [.set (vxLoc d m l) x.1 x.2.1], acc.2.1 || x.2.2.2, acc.2.2 || x.2.2.1)
    else if d.maskZero then (acc.1 ++ [.zero (vxLoc d m l)], acc.2)
    else acc) ([], false, false)

/-- A node of the reduction tree (R101): empty, or a value with its lane. -/
def treeComb (op : Nat) : Option (Nat × Nat) → Option (Nat × Nat) → Option (Nat × Nat)
  | none, b => b
  | a, none => a
  | some a, some b =>
    if op = 3 then
      let x := dec32 a.1
      let y := dec32 b.1
      let c := Fp.cmp y x
      if (y.isNan && !x.isNan) || (!x.isNan && !y.isNan && (0 < c || (c == 0 && x.sign && !y.sign))) then some b else some a
    else some (redComb op a.1 b.1, 0)

/-- One level of the tree. -/
def treeLevel (op : Nat) : List (Option (Nat × Nat)) → List (Option (Nat × Nat))
  | a :: b :: rest => treeComb op a b :: treeLevel op rest
  | l => l

/-- The tree value of a row (R101). -/
def treeValue (d : Desc) (r : VxRun) (m : Nat) : Option Nat :=
  let leaves := (List.range 64).map (fun l => if laneActive r.tile d l then some (r.rd d d.srcA m l, l) else none)
  let l6 := treeLevel d.redOp (treeLevel d.redOp (treeLevel d.redOp (treeLevel d.redOp (treeLevel d.redOp (treeLevel d.redOp leaves)))))
  (l6.headD none).map (fun x => if d.redOp = 3 then x.2 else x.1)

/-- The result of an empty tree (R102). -/
def treeEmpty : Nat → Nat
  | 0 => 0
  | 1 => 0xFF800000
  | 2 => 0x7F800000
  | _ => 0xFFFFFFFF

/-- The places of a reduction's row (R141). -/
def redLocs (d : Desc) (m : Nat) : List VLoc :=
  if d.redSpread then (List.range 64).map (vxLoc d m)
  else if selKind d.dst = 2 then [.reg ((selIndex d.dst + m / 64) % 32) (m % 64)]
  else [.sp (d.vxSpBase + 4 * m) 0]

/-- A row of VX_RED (R141), and whether its tree made an infinity from finite lanes (R98). The result of an empty tree sets no flag, not even SAT_SEEN
where a narrow place saturates it (DESIGN CHOICE, log entry 29). -/
def redRow (d : Desc) (r : VxRun) (m : Nat) : List VWrite × Bool × Bool :=
  match treeValue d r m with
  | none => if d.redAccum then ([], false, false) else ((redLocs d m).map (fun k => .set k (treeEmpty d.redOp) false), false, false)
  | some t =>
    let finite := (List.range 64).all (fun l => !laneActive r.tile d l || (dec32 (r.rd d d.srcA m l)).isFin)
    ((redLocs d m).map (fun k => if d.redAccum then .comb k d.redOp t else .set k t (d.redOp != 3)),
     d.redOp != 3 && finite && (dec32 t).isInf, false)

/-- A compare of two lanes (R142). -/
def cmpLane (type rel a b : Nat) : Bool :=
  let x : Int := if type = 1 then (w32 a).toInt else a
  let y : Int := if type = 1 then (w32 b).toInt else b
  let fa := dec32 a
  let fb := dec32 b
  let bad := type == 0 && (fa.isNan || fb.isNan)
  let c : Int := if type = 0 then Fp.cmp fa fb else if x < y then -1 else if x = y then 0 else 1
  !bad && (match rel with
    | 0 => c == 0
    | 1 => c != 0
    | 2 => c < 0
    | 3 => c ≤ 0
    | 4 => 0 < c
    | _ => 0 ≤ c)

/-- Mask logic on one bit (R143). -/
def maskLane (v : Nat) (a b : Bool) : Bool :=
  match v with
  | 0 => a && b
  | 1 => a || b
  | 2 => a != b
  | 3 => a && !b
  | _ => !a

/-- The lanes for which `f` holds, as a mask. -/
def laneMask (f : Nat → Bool) : W64 := (List.range 64).foldl (fun w l => setBits w l l (ofBool (f l))) 0

/-- The mask write of VX_CMP or VX_MASK (R142, R143): active lanes take the result, inactive ones 0 or their old bits (R99). -/
def maskWrite (d : Desc) (r : VxRun) : VWrite :=
  let ma := SMap.look r.tile.vx.m (selIndex d.srcA % 8) 0
  let mb := SMap.look r.tile.vx.m (selIndex d.srcB % 8) 0
  .mask (selIndex d.dst % 8) (laneMask (fun l => laneActive r.tile d l || d.maskZero)) (laneMask (fun l => laneActive r.tile d l &&
    (if d.opcode = opVxMask then maskLane d.variant (bit ma l) (bit mb l)
     else cmpLane (d.variant / 8) (d.variant % 8) (r.rd d d.srcA 0 l) (r.rd d d.srcB 0 l))))

/-- The writes that row `m` of a descriptor leads to, INF_SEEN and SAT_SEEN (R133, R141 to R143). -/
def vxRow (d : Desc) (r : VxRun) (m : Nat) : List VWrite × Bool × Bool :=
  if d.opcode = opVxCmp ∨ d.opcode = opVxMask then ([maskWrite d r], false, false)
  else if d.opcode = opVxRed then redRow d r m
  else elementRow d r m

/-- The registers (0 to 31) and masks (32 to 39) that a descriptor reads, each with the row in which it reads it. An accumulating reduction takes the old
value of a register in the tc of its write, as it does in the accumulator (R72), so that R107 does not count it (DESIGN CHOICE, log entry 29). -/
def vxReads (d : Desc) : List (Nat × Nat) :=
  let sel := fun x => (List.range d.rows).flatMap (fun m =>
    match selKind x with
    | 1 => [(selIndex x, m)]
    | 2 => [((selIndex x + m) % 32, m)]
    | 6 => [(32 + selIndex x % 8, m)]
    | _ => [])
  sel d.srcA ++ sel d.srcB ++ sel d.srcC ++ (if d.maskEn then (List.range d.rows).map (fun m => (32 + d.maskSel, m)) else [])

/-- The registers and masks that a descriptor writes, each with the row that writes it. -/
def vxWrites (d : Desc) : List (Nat × Nat) :=
  if selKind d.dst = 6 then [(32 + selIndex d.dst % 8, 0)]
  else if selKind d.dst = 2 then
    (List.range d.rows).map (fun m =>
      if d.opcode = opVxRed ∧ !d.redSpread then ((selIndex d.dst + m / 64) % 32, m) else ((selIndex d.dst + m) % 32, m))
  else []

/-- The earlier vector descriptors in the window. -/
def vxEarlier (s : State) (p i : Nat) : List WinEntry := ((s.tile p).seq.window.take i).filter (fun x => x.unit == unitVector)

/-- R107 lets a descriptor start now: what it reads was written by the tc before, and its own writes land after every earlier one. -/
def vxReady (s : State) (p i : Nat) (d : Desc) : Bool :=
  (vxEarlier s p i).all (fun x => (vxWrites x.desc).all (fun w =>
    (vxReads d).all (fun r => r.1 != w.1 || w.2 + x.desc.vxLat < x.pos + r.2)
      && (vxWrites d).all (fun o => o.1 != w.1 || w.2 + x.desc.vxLat < x.pos + o.2 + d.vxLat)))

/-- The scratchpad rows of a vector descriptor (R189): reads and writes. -/
def vxIntervals (d : Desc) : List (Nat × Nat) × List (Nat × Nat) :=
  let b := fmtSpBytes d.spFmt
  let whole := (d.vxSpBase, d.vxSpBase + d.rows * b - 1)
  let packed := (d.vxSpBase, d.vxSpBase + 4 * d.rows - 1)
  let src := selKind d.srcA == 4 || selKind d.srcB == 4 || selKind d.srcC == 4
  let dst := selKind d.dst == 4
  (if src then [whole] else [],
   if dst then [if d.opcode == opVxRed && !d.redSpread then packed else whole] else [])

/-- A vector descriptor of one opcode starts (R107, R116). -/
def vxStart (s : State) (t op : Nat) (chk : Check) : State :=
  let p := s.phys t
  match nextOf s t unitVector [op] with
  | none => s
  | some (i, e) =>
    if s.tileStands p ∨ !unitFree s p i ∨ !vxReady s p i e.desc then s
    else match spFault (s.tile p) s.frame e.desc.frameCarried false (vxIntervals e.desc).1 (vxIntervals e.desc).2 with
      | some k => failStart s p i e k
      | none => beginEntry s p i .running chk Stage.reset 0

/-- Meaning of VX_FP. -/
def execVxFp (t : Nat) (chk : Check) (_wait : Unit) (s : State) : Host.Outcome State Fault Refusal :=
  if t < 256 then .next (vxStart s t opVxFp chk) else .fault (.noSuch "tile")

/-- Meaning of VX_INT. -/
def execVxInt (t : Nat) (chk : Check) (_wait : Unit) (s : State) : Host.Outcome State Fault Refusal :=
  if t < 256 then .next (vxStart s t opVxInt chk) else .fault (.noSuch "tile")

/-- Meaning of VX_CVT. -/
def execVxCvt (t : Nat) (chk : Check) (_wait : Unit) (s : State) : Host.Outcome State Fault Refusal :=
  if t < 256 then .next (vxStart s t opVxCvt chk) else .fault (.noSuch "tile")

/-- Meaning of VX_FN. -/
def execVxFn (t : Nat) (chk : Check) (_wait : Unit) (s : State) : Host.Outcome State Fault Refusal :=
  if t < 256 then .next (vxStart s t opVxFn chk) else .fault (.noSuch "tile")

/-- Meaning of VX_RED. -/
def execVxRed (t : Nat) (chk : Check) (_wait : Unit) (s : State) : Host.Outcome State Fault Refusal :=
  if t < 256 then .next (vxStart s t opVxRed chk) else .fault (.noSuch "tile")

/-- Meaning of VX_CMP. -/
def execVxCmp (t : Nat) (chk : Check) (_wait : Unit) (s : State) : Host.Outcome State Fault Refusal :=
  if t < 256 then .next (vxStart s t opVxCmp chk) else .fault (.noSuch "tile")

/-- Meaning of VX_MASK. -/
def execVxMask (t : Nat) (s : State) : Host.Outcome State Fault Refusal :=
  if t < 256 then .next (vxStart s t opVxMask .clean) else .fault (.noSuch "tile")

/-- The sticky flags of TL_VX_STATUS take what a tc has found (R98). -/
def Tile.vxFlags (t : Tile) (nan inf sat : Bool) : Tile :=
  let t1 := if nan then t.raise TL_VX_STATUS_NAN_SEEN else t
  let t2 := if inf then t1.raise TL_VX_STATUS_INF_SEEN else t1
  if sat then t2.raise TL_VX_STATUS_SAT_SEEN else t2

/-- The scratchpad row of this tc read on port A, if a source lies there; the view that the row's lanes are read from. -/
def vxFetch (s : State) (p : Nat) (e : WinEntry) (from_ : Bool) (a : Nat × Nat) : State × Mem :=
  if from_ then (let c := chkIn e.chk (a.1 / 8) ((a.1 + a.2 + 7) / 8); (noteSp s p 0 (a.1 / 8) ((a.1 + a.2 + 7) / 8) c true, spView s p c))
  else (s, [])

/-- The operands of row `e.pos` are read, and its lanes computed (R106, R113, R134); flags of lane operations are set here (log entry 18). -/
def vxRead (s : State) (p i : Nat) (e : WinEntry) : State :=
  let d := e.desc
  let r := vxFetch s p e (vxFromSp d) (vxSrcRow d e.pos)
  let w := vxRow d { tile := r.1.tile p, view := r.2, nan := false, inf := false, sat := false } e.pos
  (setEntry r.1 p i (fun e => { e with lanes := e.lanes ++ [w.1] })).modTile p (fun t => (t.inc TL_VX_STATS_ROWS 1).vxFlags false w.2.1 w.2.2)

/-- Row `at_` of a window entry's pipeline meets the old values of its places (R141). -/
def vxMeet (s : State) (p i at_ : Nat) (view : Mem) : State :=
  match (s.tile p).seq.window[i]? with
  | none => s
  | some e =>
    let r : VxRun := { tile := s.tile p, view := view, nan := false, inf := false, sat := false }
    let l := (e.lanes.getD at_ []).map r.meet
    (setEntry s p i (fun e => { e with lanes := modAt (fun _ => l.map (·.1)) e.lanes at_ })).modTile p (fun t => t.vxFlags false (l.any (·.2)) false)

/-- The old destination row of an accumulating reduction is read from the scratchpad, in the tc before its write (R141, R180). -/
def vxOldSp (s : State) (p i : Nat) (e : WinEntry) : State :=
  let d := e.desc
  let r := vxFetch s p e true (vxDstRow d (e.pos + 1 - d.vxLat))
  vxMeet r.1 p i (if d.vxLat ≤ e.pos ∧ !e.part.testBit 1 then 1 else 0) r.2

/-- Accumulator and registers give the old value in the tc of the write, before its writes (R72, log entry 29). -/
def vxOld (s : State) (p i : Nat) : State := vxMeet s p i 0 []

/-- The scratchpad bytes of a lane's write. -/
def VWrite.bytes : VWrite → List Nat
  | .set (.sp a f) _ _ => (List.range (laneBytes f)).map (a + ·)
  | .zero (.sp a f) => (List.range (laneBytes f)).map (a + ·)
  | _ => []

/-- The words of the scratchpad that a row's writes cover in part (R186). -/
def partWords (ws : List VWrite) : List Nat :=
  let b := ws.flatMap VWrite.bytes
  ((b.map (· / 8)).eraseDups).filter (fun w => (b.filter (fun a => a / 8 == w)).length < 8)

/-- The old words of partial writes are read inside their banks; a word that is found uncorrectable is not written (R186, R187). -/
def vxWords (s : State) (p : Nat) (chk : Check) (ws : List VWrite) : State × List VWrite :=
  (partWords ws).foldl (fun r w =>
    let c := chkIn chk w (w + 1)
    (noteSp r.1 p 2 w (w + 1) c true,
     match c with
     | .uncorrectable _ _ => r.2.filter (fun x => !(x.bytes.any (fun a => a / 8 == w)))
     | _ => r.2)) (s, ws)

/-- The oldest row of a descriptor's pipeline is written (R106, R132, R133, R141). -/
def vxWrite (s : State) (p i : Nat) (e : WinEntry) : State :=
  match (s.tile p).seq.window[i]? with
  | none => s
  | some x =>
    let r := vxWords (setEntry s p i (fun e => { e with lanes := e.lanes.drop 1 })) p e.chk (x.lanes.headD [])
    let v := VxRun.applyRow e.desc.vxSat { tile := r.1.tile p, view := [], nan := false, inf := false, sat := false } r.2
    r.1.setTile p (v.tile.vxFlags v.nan v.inf v.sat)

end Sys2Proof.Machine
end

