-- ==== Sys2Proof/Machine/Tilework.lean ====
section
/-!
DEFINITION. What tiles, ports and channel 2 do in a tc by themselves: the claims on the scratchpad's ports are granted (R181), started descriptors read,
write and move on, transfers are injected and land, GET windows are read, zero fills go on. A started descriptor does the work of one tc where Sundial's
cycle ends the tc, so that commands of the tc, its starts among them, come before that work (log entry 18).
-/

namespace Sys2Proof.Machine
open Sys2Proof

-- one access of a started descriptor

/-- An access of part 1: what it reads. -/
def readAccess (s : State) (p t i : Nat) (e : WinEntry) : State :=
  let d := e.desc
  if d.unit = unitMatrix then (if d.opcode = opMxLoad then loadBeat s p i e else if d.opcode = opMxPass then passRead s p i e else storeRead s p i e)
  else if d.unit = unitVector then vxRead s p i e
  else if d.unit = unitSp then spRead s p i e
  else if d.unit = unitNet then putFlit s p e
  else if d.unit = unitOy then (if d.opcode = opOyWrite then oyFetch s p i e else oyLand s p e)
  else if d.opcode = opCtHash then hashRead s p i e
  else sampleRead s p t i e

/-- An accumulating reduction reads the old values of registers or of the accumulator with its write (R72). -/
def oldAccess (s : State) (p i : Nat) (e : WinEntry) : State :=
  if e.desc.opcode = opVxRed ∧ e.desc.redAccum ∧ !vxToSp e.desc then vxOld s p i else s

/-- An access of part 2: what it writes. -/
def writeAccess (s : State) (p i : Nat) (e : WinEntry) : State :=
  let d := e.desc
  if d.unit = unitMatrix then (if d.opcode = opMxPass then passWrite s p i e else if d.opcode = opMxZero then zeroRow s p e else storeWrite s p i e)
  else if d.unit = unitVector then vxWrite s p i e
  else if d.unit = unitSp then spStore s p i e
  else if d.unit = unitOy then oyLand s p e
  else hashWrite s p i e

/-- The order of writes to one accumulator entry in one tc: a pass, a move, the vector engine, whose value stays (R72). -/
def writeRank (e : WinEntry) : Nat :=
  if e.unit = unitVector then 2 else if e.desc.opcode = opMxPass then 0 else 1

/-- The granted accesses of a part of the window's entries. -/
def grantedPart (g : List (Claimant × Claim)) (part : Nat) : List Nat :=
  g.filterMap (fun c => match c.1 with | .entry i a => if a = part then some i else none | _ => none)

/-- A window entry's work in the state before the tc's work. -/
def onEntry (w : List WinEntry) (f : State → Nat → WinEntry → State) (s : State) (i : Nat) : State :=
  match w[i]? with | some e => f s i e | none => s

/-- The reads of a tc: all of them find what stood at the end of the previous tc (R147). -/
def readAll (s : State) (p t : Nat) (w : List WinEntry) (g : List (Claimant × Claim)) : State :=
  let s1 := (grantedPart g 1).foldl (onEntry w (fun s i e => readAccess s p t i e)) s
  let s2 := (grantedPart g 4).foldl (onEntry w (fun s i e => vxOldSp s p i e)) s1
  (grantedPart g 2).foldl (onEntry w (fun s i e => oldAccess s p i e)) s2

/-- The writes of a tc (R72, R147). -/
def writeAll (s : State) (p : Nat) (w : List WinEntry) (g : List (Claimant × Claim)) : State :=
  let l := grantedPart g 2
  (List.range 3).foldl (fun s r =>
    (l.filter (fun i => match w[i]? with | some e => writeRank e == r | none => false)).foldl (onEntry w (fun s i e => writeAccess s p i e)) s) s

/-- The accesses of an entry's tc that have been granted, as a number of bits. -/
def grantedBits (g : List (Claimant × Claim)) (i : Nat) : Nat :=
  ofBool ((grantedPart g 1).contains i) + 2 * ofBool ((grantedPart g 2).contains i) + 4 * ofBool ((grantedPart g 4).contains i)

/-- The unit of an entry works in this tc: in a stand only the Orangery unit and channel 0 go on (R29, R183). -/
def worksNow (stands : Bool) (e : WinEntry) : Bool :=
  e.phase == .running && e.pos < e.span && (!stands || e.unit == unitOy || (e.unit == unitNet && e.desc.vc == 0))

/-- An entry after the tc: it moves on once every access of the tc has been granted; a refused one holds it (R182). -/
def advanceEntry (s : State) (p : Nat) (stands : Bool) (w : List WinEntry) (g : List (Claimant × Claim)) (i : Nat) : State :=
  onEntry w (fun s i e =>
    if !worksNow stands e then s
    else
      let part := e.part ||| grantedBits g i
      if e.accesses.all (fun a => part.testBit (a.1 / 2)) then
        let s1 := setEntry s p i (fun e => { e with pos := e.pos + 1, part := 0 })
        if e.desc.opcode = opMxLoad ∧ e.pos + 1 = e.span then (match (s1.tile p).seq.window[i]? with | some x => loadDone s1 p x | none => s1) else s1
      else setEntry s p i (fun e => { e with part := part })) s i

-- what a tile starts by itself, and what it counts

/-- Channel-1 transfers start in the tc in which they issue, or fail (R158, R172). -/
def autoStart (s : State) (t : Nat) : State :=
  let s1 := match nextScheduled s (s.phys t) [opNetPut, opNetPutMsg] with
    | some (i, e) => putScheduled s t i e .clean
    | none => s
  match addScheduled s1 t with
  | some (i, e) => addRun s1 t i e
  | none => s1

/-- TL_SP_STALL counts a tc with a refused claim of port A, and one with a refused claim of priority 1 to 4 of port W (R201). -/
def countRefused (s : State) (p : Nat) (l g : List (Claimant × Claim)) : State :=
  let refused := l.filter (fun c => !g.any (fun x => x.1 == c.1))
  s.modTile p (fun t =>
    let t1 := if refused.any (fun c => c.2.port == 0) then t.inc TL_SP_STALL_READ_WAIT 1 else t
    if refused.any (fun c => c.2.port == 2 && 1 ≤ c.2.prio && c.2.prio ≤ 4) then t1.inc TL_SP_STALL_WRITE_WAIT 1 else t1)

/-- A pass is next and held only by the load of its stage (R73, R92). -/
def loadWaits (s : State) (p : Nat) : Bool :=
  match oldestIssued (s.tile p).seq unitMatrix with
  | some (i, e) => e.desc.opcode == opMxPass && streamed s p i && !stageLoaded s p i e.desc.stage
  | none => false

/-- The next vector descriptor is issued and the engine free, but R107 holds its start (R113). -/
def interlockWaits (s : State) (p : Nat) : Bool :=
  match oldestIssued (s.tile p).seq unitVector with
  | some (i, e) => unitFree s p i && !vxReady s p i e.desc
  | none => false

/-- The waits of the engines in a tc, counted. -/
def countWaits (s : State) (p : Nat) : State :=
  let a := loadWaits s p
  let b := interlockWaits s p
  s.modTile p (fun t =>
    let t1 := if a then t.inc TL_MX_STATS_LOAD_WAIT 1 else t
    if b then t1.inc TL_VX_STATS_INTERLOCK_WAIT 1 else t1)

/-- A head names a send channel and waits on its CREDIT_CTR (R222). -/
def stalledChannel (t : Tile) (d : Desc) : Option Nat :=
  let names := d.unit == unitNet || (d.opcode == opCtSignal && d.variant == 1)
  let c := t.rd (TW_SEND_STATE_CREDIT_CTR d.chan)
  if names && t.rd (TW_SEND_STATE_CREDIT_CTR_EN d.chan) == 1
      && ((d.waitA == c && !waitMet t d.waitA d.valueA) || (d.waitB == c && !waitMet t d.waitB d.valueB)) then some d.chan else none

/-- A running tile's credit stalls of one tc, one for each channel. -/
def Tile.stalls (t : Tile) : Tile :=
  if t.seq.run = .running then
    let hs := (if t.seq.atEnd then [] else (mainHead t.seq).toList) ++ (handlerHead t.seq).toList
    (hs.filterMap (stalledChannel t)).eraseDups.foldl (fun t n => t.inc (TW_SEND_CNT0_CREDIT_STALLS n) 1) t
  else t

-- the injection port (R158, R164, R165)

/-- The transfers of one flit that logical tile `t` injects on a channel in this tc. -/
def singleFlit (s : State) (t vc : Nat) (x : Transfer) : State := enterFlit s x.id vc (s.now (s.phys t)) 0 []

/-- Channel 1 takes the port: transfers of one flit, and a window's reply. -/
def injectSched (s : State) (t : Nat) : State :=
  let held := schedInjects s t
  let s1 := (s.die.transfers.filter (fun x => singleNow x t 1)).foldl (fun s x => singleFlit s t 1 x) s
  let reply := schedWindow s t
  -- a first flit that finds the port held collides (R165)
  let s2 := (List.range s.die.windows.length).foldl (fun s1 i =>
    match s.die.windows[i]? with
    | some w => if replyNow w t 1 && w.rows.length == 2 * w.pos && (held || reply != some i) then windowCollide s1 i w else s1
    | none => s1) s1
  match reply with
  | some i => if held then s2 else windowInject s2 i
  | none => s2

/-- Channel 0 takes the port that channel 1 leaves; a PUT's flit is injected with its claim. -/
def injectBulk (s : State) (t : Nat) : State :=
  match bulkWindow s t with
  | some i => windowInject s i
  | none => match bulkSingle s t with
    | some x => singleFlit s t 0 x
    | none => s

/-- The injection port in one tc. What starts in a tc injects its first flit in the next. -/
def injectPort (s : State) (t : Nat) (stands : Bool) : State :=
  let bulk := bulkPort s t
  let s1 := if stands then s else injectSched s t
  let s2 := if bulk then injectBulk s1 t else s1
  { s2 with die := { s2.die with transfers := s2.die.transfers.map (fun x =>
      if (singleWaits x t 0 || (singleWaits x t 1 && !stands)) && x.left == 2 then { x with left := 1 } else x) } }

-- GET windows (R164)

/-- A window of age 16 that no command has started begins to read. -/
def autoWindows (s : State) (t : Nat) (stands : Bool) : State :=
  (List.range s.die.windows.length).foldl (fun s i =>
    match s.die.windows[i]? with
    | some w => if w.owner = t ∧ 16 ≤ w.age ∧ !w.started ∧ !(stands && w.vc == 1) then windowStart s i w .clean else s
    | none => s) s

/-- The granted reads of windows. -/
def readWindows (s : State) (g : List (Claimant × Claim)) : State :=
  g.foldl (fun s c => match c.1 with
    | .window i => (match s.die.windows[i]? with | some w => windowRead s i w | none => s)
    | _ => s) s

/-- A tile's windows after a tc: their age, which stands for channel 1 in a stand, and those that have replied whole are gone. -/
def ageWindows (s : State) (t : Nat) (stands : Bool) : State :=
  let older := fun (w : GetWindow) => if w.owner = t ∧ !(stands && w.vc == 1) then { w with age := w.age + 1 } else w
  let done := fun (w : GetWindow) => w.owner == t && w.started && w.pos == w.lines && w.rows.isEmpty
  { s with die := { s.die with windows := (s.die.windows.filter (fun w => !done w)).map older } }

-- landings

/-- The flits of a transfer that land without a claim of port W: what writes nothing, and work of an abandoned frame. -/
def landsFree (s : State) (x : Transfer) (f : MeshFlit) : Bool :=
  flitLands s x f && (x.stale || (landCount f == 0 && !flitWaits x f))

/-- The flits of a transfer that land in this tc. -/
def landed (s : State) (g : List (Claimant × Claim)) (x : Transfer) : List MeshFlit :=
  x.air.filter (fun f => landsFree s x f || g.any (fun c => c.1 == .flit x.id f.off f.pad))

/-- The landings of a tile in a tc; a transfer whose flits have all landed has its effect. -/
def landAll (s : State) (p t : Nat) (g : List (Claimant × Claim)) : State :=
  let l := (s.die.transfers.filter (fun x => x.dstTile == t && x.leg == 0)).map (fun x => (x, landed s g x))
  l.foldl (fun s x => if x.2.isEmpty then s else finishIfDone (x.2.foldl (fun s f => takeFlit s p x.1 f) s) p x.1.id) s

-- zero fills (R193)

/-- The zero fills of a tile go on by a line and by a beat. -/
def fillStep (granted : Bool) (t : Tile) : Tile :=
  let t1 := match t.spClear with
    | some 0 => { t with spClear := some 1 }
    | some (n + 1) =>
      if granted then { t.spPut bySpUnit (512 * n) (List.replicate 512 0) with spClear := if n = 4095 then none else some (n + 2) } else t
    | none => t
  match t1.trClear with
  | some 0 => { t1 with trClear := some 1 }
  | some (n + 1) => { t1.trPut (512 * n) (List.replicate 512 0) with trClear := if n = 32767 then none else some (n + 2) }
  | none => t1

-- one tc of a tile

/-- The tc of a tile that holds logical tile `t`. -/
def logicalWork (s : State) (p t : Nat) : State :=
  let stands := s.tileStands p
  let s1 := autoWindows (if stands then s else autoStart s t) t stands
  let l := claimsAt s1 p
  let g := grants (s1.tile p).claims l
  let w := (s1.tile p).seq.window
  let s2 := readAll s1 p t w g
  let s3 := writeAll (injectPort (if stands then s2 else countWaits s2 p) t stands) p w g
  let s4 := (List.range w.length).foldl (fun s i => advanceEntry s p stands w g i) (countRefused (readWindows s3 g) p l g)
  let s5 := (landAll s4 p t g).modTile p (fillStep (g.any (fun c => c.1 == .fill)))
  (ageWindows s5 t stands).modTile p (fun t => if stands then t else t.stalls)

/-- A tile out of use only goes on with its fills. -/
def tileWork (s : State) (p : Nat) : State :=
  if !regionRuns s (regionOf p) then s
  else match s.logical p with
    | some t => logicalWork s p t
    | none => s.modTile p (fillStep ((grants (s.tile p).claims (claimsAt s p)).any (fun c => c.1 == .fill)))

/-- The end of a tile's tc: what it kept of the values before it goes, and the scrubbers' waits run. -/
def Tile.tcEnd (t : Tile) : Tile :=
  { t with tcPrev := [], chPrev := [], spNew := [], trNew := [], claims := [], hqNew := 0, spScrubGap := t.spScrubGap - 1, trScrubGap := t.trScrubGap - 1 }

/-- The physical tiles on which something may happen. -/
def workTiles (s : State) : List Nat :=
  (s.tiles.map (·.1) ++ (s.die.transfers.filter (fun x => x.leg == 0)).map (fun x => s.phys x.dstTile) ++ s.die.windows.map (fun w => s.phys w.owner)).eraseDups

/-- One tc of every tile whose region does not stretch it (R36). -/
def tilesWork (s : State) : State :=
  let s1 := (workTiles s).foldl tileWork s
  { s1 with tiles := s1.tiles.map (fun x => if regionRuns s1 (regionOf x.1) then (x.1, x.2.tcEnd) else x) }

-- store buffers of the Lodge cores (R244, R248)

/-- The store leaves the buffer of core `k`. -/
def storeGone (s : State) (k : Nat) : State := s.setLodge k { s.lodge k with stores := (s.lodge k).stores.drop 1 }

/-- The oldest store of core `k` is made: a narrow write claims port W, an add waits out a replay's stand (R380). -/
def drainStore (s : State) (k : Nat) : State :=
  match (s.lodge k).stores with
  | .bytes t a b :: _ =>
    let p := s.phys t
    let c : Claim := .row 2 9 a b.length
    if claimOk s p c then spWrite (takeClaim (storeGone s k) p c) p bySpUnit a b else s
  | .add t ctr inc :: _ => if s.replay.standing then s else tcAdd (storeGone s k) (s.phys t) ctr inc 2 0
  | [] => s

-- control words that arrive (R207)

/-- A refused slot's word takes effect at the sending tile (R233). -/
def refusedArrival (s : State) (i : Nat) : State :=
  match s.die.ctls[i]? with
  | some ⟨.refused t, _, stale⟩ => if stale then dropCtl s i else raiseCollision (dropCtl s i) (s.phys t) 7
  | _ => s

/-- A control word whose tc has come takes effect. -/
def takeCtl (s : State) (i : Nat) : State :=
  match s.die.ctls[i]? with
  | some c =>
    (match c.body with
     | .credit _ _ _ => creditArrival s i
     | .revoke _ _ => revocationArrival s i
     | .arrive _ _ _ _ => barrierArrival s i
     | .release _ _ => barrierRelease s i
     | .refused _ => refusedArrival s i)
  | none => s

/-- The words that no command has taken take effect at the end of their tc, `n` of them at most. -/
def ctlArrivals : Nat → State → State
  | 0, s => s
  | n + 1, s =>
    match s.die.ctls.findIdx? (fun c => c.due ≤ s.sun.tick) with
    | none => s
    | some i => ctlArrivals n (takeCtl s i)

-- ports

/-- The first transfer of a port whose slot begins by now and has not begun. -/
def slotDue (s : State) (p : Nat) : Option Nat := ((s.port p).egress.find? (fun e => !e.started && slotCycle s p e.tr.fbSlot ≤ s.sun.ctr)).map (fun e => e.tr.fbSlot)

/-- The slots of a port that are due begin, `n` of them at most. -/
def slotsBegin (p : Nat) : Nat → State → State
  | 0, s => s
  | n + 1, s => match slotDue s p with
    | none => s
    | some k => slotsBegin p n (slotBegin s p k)

/-- Port `p` has presented a flit in this tc: its attach link belongs to channel 1. -/
def presentedNow (s : State) (p : Nat) : Bool :=
  s.die.transfers.any (fun x => x.inPort == p && x.air.any (fun f => f.car == 1 && f.came == s.sun.time + 1))

/-- One tc of a port (R229, R232, R235, R236, R239). -/
def portWork (s : State) (p : Nat) : State :=
  let s1 := slotsBegin p (s.port p).egress.length s
  let s2 := present (lateCheck s1 p) p
  trainStep (if presentedNow s2 p then s2 else bulkInject s2 p) p

/-- The flits that have reached their egress ports, and one tc of every port. -/
def portsWork (s : State) : State :=
  let s1 := (s.die.transfers.filter (fun x => x.leg == 1)).foldl portTake s
  (List.range 16).foldl portWork s1

/-- One tc of channel 2, the store buffers, the ports, the mesh and the tiles, and of the commit buffer's drain. -/
def dieWork (s : State) : State :=
  let s1 := ctlArrivals s.die.ctls.length s
  let s2 := (s.die.lodges.map (·.1)).foldl drainStore s1
  commitDrain (tilesWork (meshCycle (portsWork s2)))

end Sys2Proof.Machine
end

