-- ==== Sys2Proof/Machine/Sundial.lean ====
section
/-!
DEFINITION. Sundial (R22 to R44): holds at the root, droop stretches, alignment, the frame tick with all that acts at it, the stop of a frequency
change, and what one Sundial cycle brings.
-/

namespace Sys2Proof.Machine
open Sys2Proof

-- requests (R30)

/-- The module's own outstanding hold of a kind. -/
def ownHold (s : State) (kind : Nat) : Bool :=
  (s.sun.holds ++ s.sun.later).any (fun h => h.kind == kind && h.origin == s.index && h.relAt == none)

/-- A scheduled transfer on its way to its egress port, in the mesh. -/
def towardPort (x : Transfer) : Bool := x.vc == 1 && x.leg == 1 && !x.stale

/-- The readiness of the module for the tick (R27, R35): every tile is ready, and no scheduled flit is still on its way to its port or in it. -/
def moduleReady (s : State) : Bool :=
  s.tiles.all (fun x => tileReady x.2) && s.die.ports.all (fun q => q.2.egress.isEmpty) && !s.die.transfers.any towardPort

/-- T = max(L, W + H + 4) (R34), where H is the tick timer less the Sundial frame counter (R26). -/
def tickDue (s : State) : Nat := max s.frameLen (s.span + (s.sun.tick - s.sun.ctr) + 4)

/-- No hold is in force. -/
def noHold (s : State) : Bool := s.sun.freeze.isNone && s.sun.holds.isEmpty && s.sun.later.isEmpty

/-- The tick falls due (R34). -/
def tickFalls (s : State) : Bool :=
  s.rd SD_STATUS_RUNNING == 1 && s.rd SD_STATUS_FREQ_STOP == 0 && noHold s && tickDue s ≤ s.sun.tick

/-- SOURCE of a skew hold of region `g` (R43). -/
def skewSource (g : Nat) : Nat := 256 * (8 + g) + 255

/-- A may-wait head that meets the conditions of R51 sends its request (R58). -/
def askMayWait (s : State) (t : Nat) : State :=
  let p := s.phys t
  if seqActive s p ∧ mainTurn (s.tile p) s.frameLen (s.now p) (settle (s.tile p).seq.mainBuf (s.tile p).seq.head) = .hold then
    requestHold (s.modSeq p (fun q => { q with holdSeq := some s.sun.nextSeq })) kindMayWait t
  else s

/-- The hold of a port in DOWN is out (R241). -/
def downHeld (s : State) (p : Nat) : Bool :=
  (s.sun.holds ++ s.sun.later).any (fun h => h.origin == s.index && some h.seq == (s.port p).downHold && h.relAt == none)

/-- A port that cannot deliver a flit, or that is down (R236, R241). -/
def askPort (s : State) (p : Nat) : State :=
  if s.rd (FB_STATUS_STATE p) = portDownCode then (if downHeld s p then s else downHold s p) else lateCheck s p

/-- The lasting site for which the Warden needs the machine stopped (R379). -/
def askReplay (s : State) : State :=
  match s.replay.lasting with
  | [] => s
  | x :: _ => startReplay s (replayWord x.kind 1 (sitePlace x).1 (sitePlace x).2 (siteAddr x) s.sun.ctr)

/-- HOLD_REQUEST (R30): a source whose condition holds sends its request to the root. -/
def holdRequest (s : State) (kind source : Nat) : State :=
  if s.rd SD_STATUS_RUNNING = 0 then s
  else if kind = kindMayWait then askMayWait s source
  else if kind = kindSched then askPort s source
  else if kind = kindSkew then (if 4 ≤ s.lag (source / 256 - 8) ∧ !ownHold s kindSkew then requestHold s kindSkew source else s)
  else if kind = kindOverrun then (if tickFalls s ∧ !moduleReady s then requestHold s kindOverrun 0 else s)
  else askReplay s

/-- The sources that R43 lists for a kind; a tick hold is requested by nobody (R34). -/
def sourceOk (kind source : Nat) : Bool :=
  match kind with
  | 0 => source < 256
  | 1 => source < 16
  | 2 => (List.range 8).any (fun g => skewSource g == source)
  | 4 => source == 0
  | 5 => source == 0
  | _ => false

/-- Meaning of HOLD_REQUEST. -/
def execHoldRequest (kind source : Nat) (s : State) : Host.Outcome State Fault Refusal :=
  if sourceOk kind source then .next (holdRequest s kind source) else .fault (.noSuch "hold source")

-- the freeze point (R30)

/-- The Sundial domain stops at F. -/
def sundialStops (s : State) : State :=
  if s.standing ∧ s.sun.stopped = false then { s with sun := { s.sun with stopped := true, standAt := s.sun.tick } } else s

/-- The skew holds of this die end once every region stands at F (R30, R38). -/
def releaseSkew (s : State) : State :=
  (s.sun.holds.filter (fun h => h.kind == kindSkew && h.origin == s.index && h.relAt == none)).foldl
    (fun s h => (releaseHold s s.index h.seq (s.sun.tick + 2)).flood none (fun p => .release p s.index h.seq s.sun.tick)) s

/-- Region `g` reaches F and stops. -/
def regionStops (s : State) (g : Nat) : State :=
  if s.sun.stopped ∧ s.regionStands g ∧ g ∉ s.sun.regionsAt then
    let s1 : State := { s with sun := { s.sun with regionsAt := s.sun.regionsAt ++ [g], lastAtF := s.sun.tick } }
    if s1.sun.regionsAt.length = 8 then releaseSkew s1 else s1
  else s

/-- FREEZE_POINT_REACHED (R30): the Sundial domain, or a region; the stand of a replay ends its attempt (R380). -/
def freezeReached (s : State) (region : Option Nat) : State :=
  let s1 := match region with
    | none => sundialStops s
    | some g => regionStops s g
  if replayStands s1 then abandonFrame s1 else s1

/-- Meaning of FREEZE_POINT_REACHED. -/
def execFreezePointReached (region : Option Nat) (s : State) : Host.Outcome State Fault Refusal :=
  match region with
  | none => .next (freezeReached s none)
  | some g => if g < 8 then .next (freezeReached s (some g)) else .fault (.noSuch "region")

-- releases and the resumption (R30, R33)

/-- The head of a tile's main stream has its waits met (R58). -/
def headMet (t : Tile) : Bool := match mainHead t.seq with | some d => d.met t | none => false

/-- The late flit for which a hold was requested is whole (R236). -/
def lateWhole (q : Port) (seq : Nat) : Bool :=
  q.sched.all (fun e => match e.asked with | some (n, f) => n != seq || f < e.got | none => true)

/-- The source of a hold has what it waited for (R30, R35, R38, R236). The hold of a port that left UP is never released (R241), and a replay's release
is that of R381. -/
def sourceDone (s : State) (h : Hold) : Bool :=
  if h.kind = kindMayWait then headMet (s.tile (s.phys h.source))
  else if h.kind = kindSched then
    (s.port h.source).downHold != some h.seq && lateWhole (s.port h.source) h.seq
  else if h.kind = kindSkew then s.sun.regionsAt.length == 8
  else if h.kind = kindOverrun then moduleReady s
  else false

/-- HOLD_RELEASE (R30): a source of this die sends its release, which takes 2 tc to the root. -/
def holdRelease (s : State) (seq : Nat) : State :=
  match (s.sun.holds ++ s.sun.later).find? (fun h => h.origin == s.index && h.seq == seq && h.relAt == none) with
  | none => s
  | some h =>
    if sourceDone s h then (releaseHold s s.index seq (s.sun.tick + 2)).flood none (fun p => .release p s.index seq s.sun.tick) else s

/-- Meaning of HOLD_RELEASE. -/
def execHoldRelease (seq : Nat) (s : State) : Host.Outcome State Fault Refusal :=
  if seq < 65536 then .next (holdRelease s seq) else .fault (.noSuch "hold")

/-- The held descriptor of a tile may issue in the first tc after the hold (R58). -/
def freeHeld (ended : List Hold) (me : Nat) (t : Tile) : Tile :=
  match t.seq.holdSeq with
  | none => t
  | some n => if ended.any (fun h => h.origin == me && h.seq == n) then { t with seq := { t.seq with holdReleased := true } } else t

/-- Sundial after the end of a stand (R30): no lag is left, and a hold that came after the release's broadcast takes its own freeze point. -/
def Sun.resumed (u : Sun) : Sun :=
  { u with lags := [], holds := u.later, later := [], stopped := false, regionsAt := [], freeze := if u.later.isEmpty then none else some (u.ctr + 6) }

/-- HOLD_RESUME (R30): every domain resumes at F, and what is left to record is recorded (R33). -/
def holdResume (s : State) : State :=
  match resumeAt s.sun with
  | none => s
  | some r =>
    if s.sun.tick < r then s
    else
      let s1 := recordDue s s.sun.tick
      let s2 : State := { s1 with tiles := s1.tiles.map (fun x => (x.1, freeHeld s.sun.holds s.index x.2)), sun := s1.sun.resumed }
      let s3 := s2.emit (.resume s.sun.ctr)
      if s.sun.later.isEmpty then s3 else s3.emit (.freeze (s.sun.ctr + 6))

/-- Meaning of HOLD_RESUME. -/
def execHoldResume (s : State) : Host.Outcome State Fault Refusal := .next (holdResume s)

-- messages from other modules (R32, R238)

/-- The first copy of a message (R238); the model keeps the last 4,096 (log entry 42). -/
def firstCopy (s : State) (type origin seq : Nat) : Bool := origin != s.index && !s.sun.seen.contains (type, origin, seq)

/-- A message is noted. -/
def noteCopy (s : State) (type origin seq : Nat) : State :=
  let l := s.sun.seen ++ [(type, origin, seq)]
  { s with sun := { s.sun with seen := l.drop (l.length - 4096) } }

/-- A KIND 5 hold of another module marks the frame here too, and this module requests its own (R379, R402). -/
def markRemote (s : State) (origin : Nat) : State :=
  startReplay s (replayWord 4 0 0 0 origin (s.sun.freeze.getD 0))

/-- REMOTE_HOLD_MESSAGE (R32, R238): presented to the root, forwarded to the other ports. -/
def remoteHold (s : State) (port origin seq kind source : Nat) : State :=
  let s0 := takeHeard s port 1 origin seq
  if firstCopy s 1 origin seq then
    let h : Hold := { origin := origin, seq := seq, kind := kind, source := source, reqAt := s.sun.tick, relAt := none, recorded := false }
    let s1 := (joinHold (noteCopy s0 1 origin seq) h).flood (some port) (fun p => .hold p origin seq kind source)
    if kind = kindReplay then markRemote s1 origin else s1
  else s0

/-- Meaning of REMOTE_HOLD_MESSAGE. -/
def execRemoteHoldMessage (port origin seq kind source : Nat) (s : State) : Host.Outcome State Fault Refusal :=
  if port < 16 ∧ origin < 4096 ∧ seq < 65536 ∧ kind < 6 ∧ source < 4096 then .next (remoteHold s port origin seq kind source)
  else .fault (.noSuch "hold")

/-- A replay's release carries its sender's tick timer (R381, R382). -/
def noteStamp (s : State) (origin seq stamp : Nat) : State :=
  if s.sun.holds.any (fun h => h.kind == kindReplay && h.origin == origin && h.seq == seq && h.relAt == none) then
    { s with replay := { s.replay with stamps := s.replay.stamps ++ [stamp] } }
  else s

/-- REMOTE_RELEASE_MESSAGE (R32). -/
def remoteRelease (s : State) (port origin seq stamp : Nat) : State :=
  let s0 := takeHeard s port 2 origin seq
  if firstCopy s 2 origin seq then
    let s1 := noteStamp (noteCopy s0 2 origin seq) origin seq stamp
    (releaseHold s1 origin seq s.sun.tick).flood (some port) (fun p => .release p origin seq stamp)
  else s0

/-- Meaning of REMOTE_RELEASE_MESSAGE. -/
def execRemoteReleaseMessage (port origin seq stamp : Nat) (s : State) : Host.Outcome State Fault Refusal :=
  if port < 16 ∧ origin < 4096 ∧ seq < 65536 ∧ stamp < 268435456 then .next (remoteRelease s port origin seq stamp) else .fault (.noSuch "hold")

-- droop (R36, R38)

/-- DROOP_STRETCH (R36): once in any 8 region cycles; the lag grows while the region's frame counter runs, and a lag of 4 starts a skew hold. -/
def droopStretch (s : State) (g : Nat) : State :=
  if 0 < SMap.look s.sun.gaps g 0 ∨ s.rd SD_STATUS_FREQ_STOP = 1 then s
  else
    let s1 : State := (s.inc (SD_STRETCH_CNT_STRETCHES g) 1)
    let s2 : State := { s1 with sun := { s1.sun with gaps := SMap.put s1.sun.gaps g 9 } }
    if s.regionStands g ∨ s.rd SD_STATUS_RUNNING = 0 then s2
    else
      let lag := s.lag g + 1
      let s3 : State := { s2 with sun := { s2.sun with lags := SMap.put s2.sun.lags g lag } }
      if lag = 4 then requestHold s3 kindSkew (skewSource g) else s3

/-- Meaning of DROOP_STRETCH. -/
def execDroopStretch (g : Nat) (s : State) : Host.Outcome State Fault Refusal :=
  if g < 8 then .next (droopStretch s g) else .fault (.noSuch "region")

-- alignment (R41, R42, R234, R383)

/-- A period of SYSREF156, 6.4 ns, in units of 1/21,840 ps (R22). -/
def refPeriod : Nat := 6400 * 21840

/-- SYNC_IN_PULSE (R41): during alignment the edge, sampled on SYSREF156, is the module's reference epoch. -/
def syncIn (s : State) : State :=
  if aligning s then { s with sun := { s.sun with epochMark := some (ceilDiv s.sun.time refPeriod * refPeriod, 0) } } else s

/-- Meaning of SYNC_IN_PULSE. -/
def execSyncInPulse (s : State) : Host.Outcome State Fault Refusal := .next (syncIn s)

/-- 8 ns in tc of a bin (R23, R42). -/
def alignLimit (bin : Nat) : Nat := 2 * (16 - bin)

/-- The distance of two ticks, taken around the frame. -/
def tickDistance (l a b : Nat) : Nat :=
  let d := ((a - b) + (b - a)) % l
  min d (l - d)

/-- SD_STATUS.ALIGN_LOST is set (R42, R354, R397): every running context is aborted, and the module leaves the machine. -/
def alignLost (s : State) : State :=
  let s1 := (s.raise SD_STATUS_ALIGN_LOST).wr SD_STATUS_ALIGNED 0
  let s2 := (List.range 34).foldl (fun s n => setEvent s n 5) s1
  let s3 := (List.range 4).foldl (fun s q => contextAbort s q causeAlignLost 0x1FF) s2
  (List.range 16).foldl (fun s p => s.wr (FB_CTRL_IN_MACHINE p) 0) s3

/-- A count of the tick timer when the timer goes from `old` to `new`: it keeps its distance from now. -/
def tickShift (old new x : Nat) : Nat := x + new - old

/-- A flit of channel 0 counts its time on the tick timer. -/
def MeshFlit.rebased (old new : Nat) (f : MeshFlit) : MeshFlit := if f.car = 0 then { f with due := tickShift old new f.due } else f

/-- A hold's moments, counted on the tick timer. -/
def Hold.rebased (old new : Nat) (h : Hold) : Hold := { h with reqAt := tickShift old new h.reqAt, relAt := h.relAt.map (tickShift old new) }

/-- The tick timer is set: channel 0, control words and holds keep their distance from now. -/
def retime (s : State) (new : Nat) : State :=
  let old := s.sun.tick
  let u := s.sun
  { s with
    sun := { u with tick := new, holds := u.holds.map (Hold.rebased old new), later := u.later.map (Hold.rebased old new), standAt := tickShift old new u.standAt,
                    lastAtF := tickShift old new u.lastAtF },
    die := { s.die with transfers := s.die.transfers.map (fun x => { x with air := x.air.map (MeshFlit.rebased old new) }),
                        ctls := s.die.ctls.map (fun c => { c with due := tickShift old new c.due }) } }

/-- The module's tick timer leaves on every port but one (R238). -/
def sendTime (s : State) (except : Option Nat) : State := ctlNumbered (s.flood except (fun p => .time p s.sun.tick)) 5

/-- A time message of the alignment reaches a module that has learnt no time yet (R41 step 4): its tick timer takes the root's time, which is the
sender's with the delay of the link, its epoch is this moment, and it passes its own time on (DEDUCED, log entry 44). -/
def learnTime (s : State) (port sample : Nat) : State :=
  let now_ := sample + s.rd (FB_LINK_HP_DELAY port)
  let s1 := retime s now_
  sendTime { s1 with sun := { s1.sun with epochMark := some (s.sun.time, now_) } } (some port)

/-- TIME_MESSAGE: during alignment it sets the epoch and goes on to the modules beyond; afterwards it checks the neighbour's tick (R41, R42). -/
def timeMessage (s : State) (port origin sample : Nat) : State :=
  let s0 := takeHeard s port 5 origin 0
  let s1 : State := { s0 with sun := { s0.sun with neighbours := SMap.put s0.sun.neighbours port sample } }
  if s.rd SD_STATUS_ALIGNED = 1 then
    if alignLimit (s.rd SD_CONFIG_BIN) < tickDistance s.frameLen (sample + s.rd (FB_LINK_HP_DELAY port)) s.sun.tick then alignLost s1 else s1
  else if aligning s ∧ s.rd SD_MACHINE_ROOT = 0 ∧ s.sun.epochMark.isNone then learnTime s1 port sample
  else s1

/-- Meaning of TIME_MESSAGE. -/
def execTimeMessage (port origin sample : Nat) (s : State) : Host.Outcome State Fault Refusal :=
  if port < 16 ∧ origin < 4096 ∧ sample < 2 ^ 64 then .next (timeMessage s port origin sample) else .fault (.noSuch "port")

/-- One link is measured (R234): DELAY is free, HP_DELAY follows from it, and the second component says whether the link may carry scheduled
traffic. -/
def measureLink (r : State × Bool) (p : Nat) : State × Bool :=
  let d := Config.freeNat r.1.free % 65536
  let s1 := ((r.1.drawn.wr (FB_LINK_DELAY p) d).wr (FB_LINK_HP_DELAY p) (d + 96))
  if d + 112 ≤ s1.rd (FB_LINK_SCHED_LAT p) then (s1, r.2) else (s1.raise (FB_EVENT_DELAY_EXCEEDED p), false)

/-- REACH (R383): the longest one-way path of hold messages, which the module learns from the machine, in multiples of 1,024 tc. -/
def setReach (s : State) : State := s.drawn.wr RG_CFG_REACH (1024 * (Config.freeNat s.free % 16384))

/-- The starting moment, at least 1 ms ahead (R41): on the root's tick timer how many tc ahead it lies is free. -/
def startAhead (s : State) : Nat := ceilDiv milli (tcUnits (s.rd SD_CONFIG_BIN)) + Config.freeNat s.free

/-- The root drives SYNC_OUT, sends its time and announces the starting moment; another module learns a moment that is free, as no command brings it
(R41; log entry 44). -/
def announce (s : State) : State :=
  let n := startAhead s
  let s1 := if s.rd SD_MACHINE_ROOT = 1 then (sendTime (s.emit .syncPulse) none).emit (.start (s.sun.tick + n)) else s
  { s1.drawn with sun := { s1.sun with startAt := some (s.sun.time + n * tcUnits (s.rd SD_CONFIG_BIN)) } }

/-- The alignment sequence up to the announced moment (R41), or its failure (R234, R352, R383). -/
def alignRun (s : State) (n t : Nat) : State :=
  if s.machinePorts.any (fun p => s.rd (FB_STATUS_STATE p) != portUpCode) then endAsync s n t stFault 0 0
  else
    let m := s.machinePorts.foldl measureLink (s, true)
    let s1 := setReach m.1
    if !m.2 ∨ s1.frameLen - s1.span < s1.rd RG_CFG_REACH then endAsync s1 n t stFault 0 0 else announce s1

/-- Meaning of ALIGN (R41, R351, R352). After ALIGN_LOST only a chip reset lets a module be aligned again (R43): the command then runs into its limit. -/
def alignCommand (s : State) (f : Func) : State :=
  let n := fnNum f
  serveModule s f 0x04 anyArgs [] (fun _ _ => false) (s.frameLen != 0 && s.rd SD_STATUS_ALIGNED == 0) (fun _ =>
    if flightsFull s n then answerFail s n stBusyRetry 0
    else
      let s1 := accept s n 0x04 none 5000 []
      if s.rd SD_STATUS_RUNNING = 1 then s1 else alignRun (alignKept s1) n (ticketOf s n))

/-- ALIGN. -/
def execAlign (f : Func) (s : State) : Host.Outcome State Fault Refusal :=
  if fnOk f then .next (alignCommand s f) else .fault (.noSuch "function")

/-- The counts of R43 and the traffic counts of R242 run from alignment. -/
def zeroCounts (s : State) : State :=
  let s1 := (List.range 8).foldl (fun s g => s.setReg (SD_STRETCH_CNT_OFF g) 0)
    (((s.setReg SD_HOLD_COUNT_OFF 0).setReg SD_HOLD_TC_OFF 0).setReg SD_LAST_HOLD_OFF 0)
  (List.range 16).foldl (fun s p => (s.setReg (FB_TRAFFIC_TX_OFF p) 0).setReg (FB_TRAFFIC_RX_OFF p) 0) s1

/-- Alignment tells the machine indices of the peers (R239), and a link that had left UP carries traffic again (R241). -/
def alignPort (s : State) (p : Nat) : State :=
  (s.wr (FB_STATUS_PEER_MODULE p) (s.port p).peer).modPort p (fun q => { q with cut := false })

/-- The ALIGN commands in flight: function, ticket. -/
def alignFlights (s : State) : List (Nat × Nat) :=
  s.fns.flatMap (fun m => (m.2.flights.filter (fun x => x.opcode == 0x04)).map (fun x => (m.1, x.ticket)))

/-- FRAME_ZERO_START (R41 step 5). A module that has marked no epoch fails (R451). -/
def frameZero (s : State) : State :=
  match s.sun.startAt with
  | none => s
  | some t =>
    if s.sun.time < t ∨ s.rd SD_STATUS_RUNNING = 1 then s
    else if s.sun.epochMark.isNone then
      (alignFlights s).foldl (fun s x => endAsync s x.1 x.2 stFault 0 0) { s with sun := { s.sun with startAt := none } }
    else
      let s1 := ((s.machinePorts.foldl alignPort (zeroCounts s)).wr SD_STATUS_ALIGNED 1).wr SD_STATUS_RUNNING 1
      let s2 := retime (s1.wr SD_FRAME_NUM_FRAME 0) 0
      let s3 : State := { s2 with sun := { s2.sun with ctr := 0, lags := [], startAt := none, epochMark := none, undo := [], lastRefill := s.sun.time } }
      (alignFlights s3).foldl (fun s x => endAsync s x.1 x.2 stDone 0 0) s3

/-- Meaning of FRAME_ZERO_START. -/
def execFrameZeroStart (s : State) : Host.Outcome State Fault Refusal := .next (frameZero s)

-- the tick (R27, R34)

/-- The tick hold, if T lies beyond L (R34), and the slack of the frame (R43). -/
def recordTick (s : State) : State :=
  let l := s.frameLen
  let t := tickDue s
  let h := s.sun.tick - s.sun.ctr
  let least := min (s.rd SD_SLACK_MIN_MIN_SLACK) (l - s.span - h - 4)
  if l < t then
    let s1 := ((s.inc SD_HOLD_COUNT_HOLDS 1).inc SD_HOLD_COUNT_TICK_HOLDS 1).inc SD_HOLD_TC_HELD_TC (t - l)
    ((s1.raise SD_STATUS_TICK_HOLD_SEEN).setReg SD_LAST_HOLD_OFF
      (packed [(SD_LAST_HOLD_LENGTH, min (t - l) 0xFFFFFF), (SD_LAST_HOLD_KIND, kindTick), (SD_LAST_HOLD_CYCLE, l)] 0)).wr SD_SLACK_MIN_MIN_SLACK 0
  else s.wr SD_SLACK_MIN_MIN_SLACK least

/-- The frame cycles that a tile's sequencer keeps, counted from a tick that falls in its frame cycle `c`. -/
def Tile.since (c : Nat) (t : Tile) : Tile :=
  { t with seq := { t.seq with issuedAt := none, handler := t.seq.handler.map (fun h => { h with ready := h.ready - c }) } }

/-- The tick begins the frame that TL_EPOCH names, and the tile is armed (R324). -/
def epochBegins (f : Nat) (t : Tile) : Bool :=
  t.rd TL_EPOCH_ARM == 1 && t.rd TL_EPOCH_FRAME == f % 4294967296

/-- A tile at a tick that begins frame `f` (R27, R56, R66, R196, R324): scrub rewrites, an epoch start, the head from cycle 2 on, the tick copy. -/
def Tile.ticked (f c : Nat) (t : Tile) : Tile :=
  let t1 := (rewriteBeats t).since c
  let t2 := if epochBegins f t1 then t1.startClear else t1
  let t3 := if t2.seq.run = .waitTick ∨ t2.seq.run = .running then
      { t2 with seq := { t2.seq with run := .running, ready := 2, atEnd := false } } else t2
  { t3 with tick := t3.copies }

/-- The next epoch of the tiles that began one is armed (R324). -/
def armNext (f : Nat) (began : List Nat) (s : State) : State :=
  began.foldl (fun s p =>
    match (s.pvOfTile p).bind (fun q => (s.pv q).run.image) with
    | some i => s.modTile p (fun t => t.arm (f + i.epochFrames))
    | none => s) s

/-- Every tile at the tick. -/
def tickTiles (s : State) (f : Nat) : State :=
  let began := (s.tiles.filter (fun x => epochBegins f x.2)).map (·.1)
  armNext f began { s with tiles := s.tiles.map (fun x => (x.1, x.2.ticked f (s.now x.1))) }

/-- A flit's time from the tick on: channel 1 counts it on the frame counters, channel 0 on the tick timer. -/
def MeshFlit.since (tick ctr : Nat) (f : MeshFlit) : MeshFlit := { f with due := f.due - (if f.car = 1 then ctr else tick) }

/-- What is in flight keeps its distance from now; barrier totals are copied, slot claims cleared (R233, R381). -/
def tickDie (s : State) : State :=
  let d := s.die
  { s with die := { d with
      transfers := d.transfers.map (fun x => { x with air := x.air.map (MeshFlit.since s.sun.tick s.sun.ctr) }),
      ctls := d.ctls.map (fun c => { c with due := c.due - s.sun.tick }),
      barriers := d.barriers.map (fun b => (b.1, { b.2 with tickTotal := b.2.total })),
      ports := d.ports.map (fun q => (q.1, { q.2 with claims := [] })) } }

/-- The step of a commit landing goes to the front module (R303), and a slot whose step carries END closes (R306). -/
def sendEmission (s : State) (r : BsLand) : State :=
  match r.emission with
  | none => s
  | some e =>
    let s1 := match (s.pv e.pv).run.image with
      | none => s
      | some i =>
        if i.frontModule = s.index then s.modFront e.pv (fun f => { f with arrived := f.arrived ++ [e] })
        else s.tellWarden i.frontModule (.emission e)
    if e.fin then closeSlot s1 r.slot else s1

/-- The Bandstand at a committing tick: the frame's deliveries and commits may be scanned (R295), and its landings are final (R303). -/
def tickBand (s : State) : State :=
  let done := s.die.band.lands.filter (·.landed)
  let s1 := done.foldl sendEmission (s.modBand (fun b => { b with lands := b.lands.filter (fun r => !r.landed) }))
  s1.modBand (fun b => { b with staging := b.staging.map (fun d => { d with open_ := false }), commits := b.commits.map (fun c => { c with open_ := false }) })

/-- A monitor's code as a signed number (R415). -/
def margin (v : Nat) : Int := if v < 2048 then v else (v : Int) - 4096

/-- The lesser of two codes. -/
def lessMargin (a b : Nat) : Nat := if margin a < margin b then a else b

/-- A monitor's sample of the new frame, which is free; one taken in a stretched cycle is discarded (R409). -/
def sampleMonitor (s : State) (m : Nat) : State :=
  let v := Config.freeNat s.free % 4096
  let g := regionOf (m / 2)
  if !regionRuns s g then s
  else (((s.drawn.wr (WV_MON_LAST m) v).wr (WV_MON_MIN m) (lessMargin v (s.rd (WV_MON_MIN m)))).wr (WV_REGION_MIN_MARGIN g)
    (lessMargin v (s.rd (WV_REGION_MIN_MARGIN g))))

/-- Every monitor and ring oscillator at the start of a frame (R409). -/
def sampleAll (s : State) : State :=
  (List.range 544).foldl sampleMonitor
    ((List.range 8).foldl (fun s g => s.drawn.wr (WV_REGION_RO_COUNT g) (Config.freeNat s.free)) s)

/-- The tiles of a pavilion stand at their frame-end targets with nothing running: its contexts can be stopped at this tick (R345). -/
def quiescent (s : State) (q : Nat) : Bool :=
  (s.pvTiles q).all (fun p =>
    let t := s.tile p
    t.rd TL_SEQ_CONFIG_ENABLE == 0 || t.seq.run == .waitTick || (t.seq.atEnd && t.seq.run == .running && t.seq.window.isEmpty && t.seq.handler.isNone))

/-- The head that each tile of an image has reached. -/
def heads (s : State) (i : Image) : SMap Nat := i.tiles.foldl (fun m t => SMap.put m t (s.tile (s.phys t)).seq.head) []

/-- A pause takes its contexts before the tick that begins frame P, or moves to the next epoch (R345). -/
def pauseAt (f : Nat) (s : State) (q : Nat) : State :=
  let r := (s.pv q).run
  match r.pause, r.image with
  | some p, some i =>
    if r.st = pvRunning ∧ p = f then
      if quiescent s q then
        let s1 := (s.pvTiles q).foldl (fun s p => (stopTile s p).modTile p (fun t => t.wr TL_EPOCH_ARM 0)) (s.modRun q (fun r => { r with heads := heads s i }))
        enterState s1 q pvHeld
      else s.modRun q (fun r => { r with pause := some (p + i.epochFrames) })
    else s
  | _, _ => s

/-- A drained pavilion's contexts stop at the tick that begins its stop frame (R346). -/
def stopAtTick (f : Nat) (s : State) (q : Nat) : State :=
  let r := (s.pv q).run
  if r.st = pvDraining ∧ r.stopAt = some f then
    enterState (((s.pvTiles q).foldl stopTile s).modRun q (fun r => { r with stopAt := none, drained := false, startAt := none })) q pvLoaded
  else s

/-- Contexts are started between the two ticks that precede their first frame (R344, R345). -/
def startAtTick (f : Nat) (s : State) (q : Nat) : State :=
  let r := (s.pv q).run
  match r.startAt, r.image with
  | some g, some i =>
    if g = f + 1 ∧ (r.st = pvRunning ∨ r.st = pvDraining) then
      let s1 := if r.heads.isEmpty then startContexts s q i g else resumeContexts s q i r.heads g
      s1.modRun q (fun r => { r with startAt := none, heads := [] })
    else s
  | _, _ => s

/-- A change of bin begins with its frame (R39): every clock stops. -/
def startBin (s : State) (f : Nat) : State :=
  match s.sun.newBin with
  | some (bin, g) =>
    if g = f then
      let s1 : State := { s with sun := { s.sun with newBin := none } }
      (s1.wr SD_CONFIG_BIN bin).wr SD_STATUS_FREQ_STOP 1
    else s
  | none => s

/-- Every frame counter returns to zero, and the tick timer restarts (R27). -/
def Sun.ticked (u : Sun) : Sun := { u with tick := 0, ctr := 0, lags := [], regionsAt := [], stopped := false, standAt := 0, lastAtF := 0 }

/-- The committing tick that ends a frame (R27, R267, R278, R289, R295, R303, R324, R345, R346). -/
def frameTick (s : State) : State :=
  let f := s.frame + 1
  let s1 := (List.range 4).foldl (stopAtTick f) ((List.range 4).foldl (pauseAt f) (recordTick s))
  let s2 := (tickTiles (tickDie (commitFrame ((List.range 4).foldl blocksAtCommit s1))) f).wr SD_FRAME_NUM_FRAME f
  let s3 : State := { s2 with sun := s2.sun.ticked, replay := { s2.replay with attempts := 0 } }
  let s4 := (List.range 4).foldl (fun s q => applyDecisions s q f) (tickBand (serveTick s3))
  let s5 := (List.range 4).foldl (startAtTick f) s4
  startBin (sendTime (sampleAll s5) none) f

/-- FRAME_TICK: a module that is not ready when its tick falls due raises its frame-overrun hold (R35). -/
def tickStep (s : State) : State :=
  if tickFalls s then (if moduleReady s then frameTick s else requestHold s kindOverrun 0) else s

/-- Meaning of FRAME_TICK. -/
def execFrameTick (s : State) : Host.Outcome State Fault Refusal := .next (tickStep s)

/-- 460 SYSREF156 periods, 2.944 µs, in units of 1/21,840 ps (R39). -/
def stopTime : Nat := 2944 * unitsPerNs

/-- FREQUENCY_STOP_END (R39): the frame starts at cycle 0 in the new bin, every lag cleared. -/
def frequencyStopEnd (s : State) : State :=
  if s.rd SD_STATUS_FREQ_STOP = 1 then
    let s1 := s.wr SD_STATUS_FREQ_STOP 0
    { s1 with sun := { s1.sun with tick := 0, ctr := 0, lags := [], gaps := [], time := s1.sun.time + stopTime } }
  else s

/-- Meaning of FREQUENCY_STOP_END. -/
def execFrequencyStopEnd (s : State) : Host.Outcome State Fault Refusal := .next (frequencyStopEnd s)

-- one Sundial cycle (log entry 1)

/-- The counts of R26 over one Sundial cycle: a domain that stands does not count, a late region catches up with F. -/
def Sun.cycle (running standing : Bool) (period : Nat) (u : Sun) : Sun :=
  { u with tick := u.tick + 1, ctr := if running && !standing then u.ctr + 1 else u.ctr,
           lags := if standing then (u.lags.map (fun x => (x.1, x.2 - 1))).filter (fun x => x.2 != 0) else u.lags,
           gaps := (u.gaps.map (fun x => (x.1, x.2 - 1))).filter (fun x => x.2 != 0), time := u.time + period }

/-- The W1C bits that the present cycle has set (R426) are those of an earlier one from now on. -/
def forgetJust (s : State) : State :=
  { s with
    just := [], mod := { s.mod with alertJust := 0 },
    tiles := s.tiles.map (fun x => (x.1, { x.2 with just := [] })),
    fns := s.fns.map (fun x => (x.1, { x.2 with just := [] })),
    die := { s.die with lodges := s.die.lodges.map (fun x => (x.1, { x.2 with just := [] })) } }

/-- One Sundial cycle passes: first the work of its tc, then the counters. Nothing passes without supply, in reset, or while every clock stops for a
change of bin (R39, R442). -/
def cycle (s : State) : State :=
  if !s.mod.power || s.mod.inReset || s.rd SD_STATUS_FREQ_STOP == 1 then s
  else
    let s0 := dieWork s
    let s1 := forgetJust (if s0.standing then s0.inc SD_HOLD_TC_HELD_TC 1 else s0)
    let s2 : State := { s1 with
      sun := s1.sun.cycle (s.rd SD_STATUS_RUNNING == 1) s0.standing (tcUnits (s.rd SD_CONFIG_BIN)),
      replay := { s1.replay with idle := if rangerCounts s1 then s1.replay.idle + 1 else 0 } }
    recordDue (rootRequests s2) s2.sun.tick

end Sys2Proof.Machine
end

