-- ==== Sys2Proof/Machine/Weathervane.lean ====
section
/-!
DEFINITION. Weathervane (R409 to R413): margin plans, end of margin, the rails; and the hourly writes of the lifetime counters (R407).
-/

namespace Sys2Proof.Machine
open Sys2Proof

/-- Quotient rounded up, of a number by a positive one. -/
def ceilInt (a b : Int) : Int := -((-a) / b)

/-- Steps that region `g` needs in bin `b` while bin `c` is in force (R410), exact: margins and GUARD in units of 0.25 ps, the period of bin b
4,000/(16 − b) ps, the sensitivity `sens` in units of 1/64 ps. A sensitivity of 0 gives no quotient: the need is then a free value (log entry 3). -/
def stepsNeeded (now : Nat) (guard least : Int) (b c sens free : Nat) : Int :=
  if sens = 0 then Config.freeNat free
  else now + ceilInt (16 * ((guard - least) * (16 - b) * (16 - c) - 16000 * ((b : Int) - c))) (sens * (16 - b) * (16 - c))

/-- The need of region `g` in bin `b`. -/
def regionNeed (s : State) (g b : Nat) : Int :=
  stepsNeeded (s.rd (WV_REGION_STEPS g)) (s.rd WV_CFG_GUARD) (margin (s.rd (WV_REGION_MIN_MARGIN g))) b (s.rd SD_CONFIG_BIN)
    (bits (s.shedWord (0x300 + g)) 15 0) (s.free + 5 * g + b)

/-- The plan word of region `g` that firmware applies in this boot. -/
def State.planWord (s : State) (g : Nat) : W64 := SMap.look s.shed.plan g 0

/-- The new plan word of a region (R410): a plan never lowers a step, and more than 24 are not stored. -/
def newPlan (s : State) (g : Nat) : W64 :=
  (List.range 5).foldl (fun w b => setBits w (5 * b + 4) (5 * b) (min 24 (max (planSteps (s.planWord g) b) (regionNeed s g b).toNat)))
    (setBits 0 63 63 1)

/-- Regions that need more than 24 steps in a bin (R410, R413). -/
def beyond (s : State) (b : Nat) : List Nat := (List.range 8).filter (fun g => 24 < regionNeed s g b)

/-- The first bin below the one in force in which every region fits, or 7 (R413). -/
def recommended (s : State) : Nat :=
  let c := s.rd SD_CONFIG_BIN
  ((List.range 5).find? (fun b => c < b && (beyond s b).isEmpty)).getD 7

/-- The eight region words and then the header are written; a worn region word leaves the header unwritten (R406, R410). -/
def writePlan (s : State) (ws : List W64) : State :=
  let worn := (List.range 8).any (fun g => shedWorn s (0x20 + g))
  let s1 := (List.range 8).foldl (fun s g => shedPut s (0x20 + g) (ws.getD g 0) none) s
  let old := s.shedNext 0x28
  let head := setBits (setBits (setBits 0 63 63 1) 47 32 (if bit old 63 then bits old 47 32 + 1 else 1)) 31 0 (opHours s)
  let s2 := if worn then s1 else shedPut s1 0x28 head none
  { s2 with shed := { s2.shed with plan := (List.range 8).map (fun g => (g, ws.getD g 0)) } }

/-- The least margins start again (R410). -/
def clearMargins (s : State) : State :=
  (List.range 544).foldl (fun s m => s.wr (WV_MON_MIN m) 0x7FF) ((List.range 8).foldl (fun s g => s.wr (WV_REGION_MIN_MARGIN g) 0x7FF) s)

/-- End of margin in some regions (R413). -/
def endOfMargin (s : State) (out : List Nat) (rec : Nat) : State :=
  let s1 := ((s.raise WV_STATUS_END_OF_MARGIN).wr WV_STATUS_REC_BIN rec)
  setAlert (out.foldl (fun s g => summary s 9 g 0) (setEvent s1 0 6)) alertMarginEnd

/-- A plan is computed and stored (R410, R413); the rails follow it (R411). -/
def makePlan (s : State) : State :=
  let ws := (List.range 8).map (newPlan s)
  let out := beyond s (s.rd SD_CONFIG_BIN)
  let rec_ := recommended s
  let s1 : State := clearMargins (writePlan { s with free := s.free + 40 } ws)
  let s2 := (s1.wr WV_STATUS_REGIONS_OUT ((out.map (fun g => 2 ^ g)).foldl (· + ·) 0)).wr WV_STATUS_PLAN_BUSY 1
  let s3 := s2.wr WV_STATUS_NEXT_PLAN (opHours s + s.rd WV_CFG_PLAN_HOURS)
  if out.isEmpty then s3 else endOfMargin s3 out rec_

/-- Meaning of WV_PLAN (R352, R410): the async entry carries end of margin and the recommended bin. -/
def wvPlan (s : State) (f : Func) : State :=
  let n := fnNum f
  serveModule s f 0x0A anyArgs [] (fun _ _ => false) true (fun _ =>
    if flightsFull s n then answerFail s n stBusyRetry 0
    else
      let ended := !(beyond s (s.rd SD_CONFIG_BIN)).isEmpty
      let s1 := makePlan (accept s n 0x0A none 100 [])
      endAsync s1 n (ticketOf s n) stDone 0 (ofBool ended + 2 * s1.rd WV_STATUS_REC_BIN))

/-- WV_PLAN. -/
def execWvPlan (f : Func) (s : State) : Host.Outcome State Fault Refusal :=
  if fnOk f then .next (wvPlan s f) else .fault (.noSuch "function")

/-- Meaning of PLAN_DUE (R410): every PLAN_HOURS operating hours. -/
def execPlanDue (s : State) : Host.Outcome State Fault Refusal :=
  .next (if s.gate.phase = phaseRunning ∧ s.rd WV_STATUS_NEXT_PLAN ≤ opHours s then makePlan s else s)

/-- Steps that the rail of region `g` moves toward (R411, R412): those of the bin in force, or of a pending bin that takes more. -/
def railTarget (s : State) (g : Nat) : Nat :=
  let now := planSteps (s.planWord g) (s.rd SD_CONFIG_BIN)
  match s.sun.newBin with
  | some (b, _) => max now (planSteps (s.planWord g) b)
  | none => now

/-- The words of the plan are durable (R411). -/
def planDurable (s : State) : Bool := !s.shed.queue.any (fun w => 0x20 ≤ w.word && w.word ≤ 0x28)

/-- One rail moves one step (R411). -/
def moveRail (s : State) (g : Nat) : State :=
  let now := s.rd (WV_REGION_STEPS g)
  let goal := railTarget s g
  if now < goal then s.wr (WV_REGION_STEPS g) (now + 1) else if goal < now then s.wr (WV_REGION_STEPS g) (now - 1) else s

/-- RAIL_STEP (R411, R412): 100 µs after the last. -/
def railStep (s : State) : State :=
  if s.gate.phase = phaseRunning ∧ planDurable s then
    let s1 := (List.range 8).foldl moveRail s
    if (List.range 8).all (fun g => s1.rd (WV_REGION_STEPS g) == railTarget s1 g) then s1.wr WV_STATUS_PLAN_BUSY 0 else s1
  else s

/-- Meaning of RAIL_STEP. -/
def execRailStep (s : State) : Host.Outcome State Fault Refusal := .next (railStep s)

/-- Meaning of LIFETIME_COUNTER_WRITE (R407). -/
def execLifetimeCounterWrite (c : Nat) (s : State) : Host.Outcome State Fault Refusal :=
  if c < 8 then .next (if s.gate.phase = phaseRunning then lifeWrite s c (lifeAdd s c) else s) else .fault (.noSuch "lifetime counter")

end Sys2Proof.Machine
end

