-- ==== Sys2Proof/Machine/ModuleHw.lean ====
section
/-!
DEFINITION. The module's hardware (R434 to R452): chip resets, supply and shutdown, temperatures, the MCTP endpoint and the test access port.
-/

namespace Sys2Proof.Machine
open Sys2Proof

/-- The module's own hardware changed. -/
def State.modMod (s : State) (f : Mod → Mod) : State := { s with mod := f s.mod }

-- chip reset (R401, R440, R442, R443)

/-- The repair map that the Gatehouse loads from the Shed (R16, R440). -/
def repairMap (s : State) : SMap Nat :=
  (List.range 16).filterMap (fun r => if bit (s.shedWord r) 63 then some (r, bits (s.shedWord r) 4 0) else none)

/-- The registers that a chip reset leaves as they are: OY_GROUPg_ECC (R401). -/
def keptAtReset (reg : SMap W64) : SMap W64 := reg.filter (fun x => (List.range 16).any (fun g => OY_GROUP_ECC_OFF g == x.1))

/-- Everything that a chip reset clears is at its Reset value; the Shed, the fuses, the dumps, the Orangery's bits, the straps and the outside world
stay (R401, R442). -/
def resetState (s : State) : State :=
  { State.reset with
    reg := keptAtReset s.reg, rows := repairMap s,
    sun := { Sun.reset with time := s.sun.time },
    die := { Die.reset with hbm := s.die.hbm },
    gate := { State.reset.gate with fuses := s.gate.fuses, failedBoots := s.gate.failedBoots },
    shed := s.shed, dumps := s.dumps,
    mod := { s.mod with alert := 0, alertJust := 0, eid := 0, links := [], bootAt := s.sun.time },
    out := s.out, free := s.free, pending := s.pending }

/-- A boot that did not reach RUNNING is recorded; after two in succession the Gatehouse asks for a power cycle (R397, R408). -/
def noteBoot (ran : Bool) (phase : Nat) (s : State) : State :=
  if ran then s
  else
    let n := s.gate.failedBoots + 1
    let s1 := summary { s with gate := { s.gate with failedBoots := n } } 7 phase 0
    if 2 ≤ n then askPowerCycle s1 else s1

/-- A chip reset (R442): the Shed's write under way completes, and boot follows R335. -/
def chipReset (s : State) : State := noteBoot s.gate.ran s.gate.phase (resetState (shedReset s))

/-- The writes that wait in the Shed complete, `n` of them at most. -/
def drainShed : Nat → State → State
  | 0, s => s
  | n + 1, s => drainShed n (shedDone s)

/-- The lifetime counters are written before a chip reset that firmware orders (R407), and the writes complete within its 1 ms. -/
def saveCounters (s : State) : State :=
  let s1 := (List.range 8).foldl (fun s c => lifeWrite s c (SMap.look s.shed.counts c 0)) s
  drainShed s1.shed.queue.length s1

/-- A chip reset that the Warden orders: dump, counters, then the reset 1 ms later (R351, R396, R443). -/
def orderedReset (s : State) (cause : Nat) : State :=
  let s1 := saveCounters (collectDump s cause 3 0 0x1FF (List.range 16))
  chipReset { s1 with sun := { s1.sun with time := s1.sun.time + milli } }

/-- Meaning of CHIP_RESET (R351, R443): the command is answered ACCEPTED before the reset clears its mailbox. -/
def chipResetCommand (s : State) (f : Func) : State :=
  serveModule s f 0x0B anyArgs [] (fun _ _ => false) true (fun _ => orderedReset (answer s (fnNum f) stAccepted 0 0 []) causeHost)

/-- CHIP_RESET. -/
def execChipReset (f : Func) (s : State) : Host.Outcome State Fault Refusal :=
  if fnOk f then .next (chipResetCommand s f) else .fault (.noSuch "function")

/-- A pavilion reset has run past its 200 ms (R395, R397). -/
def pavilionLate (s : State) (q : Nat) : Bool :=
  match (s.pv q).run.reset with
  | some j => j.unit == unitPavilion && (s.fn j.fn).flights.any (fun x => x.ticket == j.ticket && x.opcode == 0x12 && x.deadline ≤ s.sun.time)
  | none => false

/-- Meaning of PAVILION_RESET_TIMEOUT (R397). -/
def execPavilionResetTimeout (q : Nat) (s : State) : Host.Outcome State Fault Refusal :=
  if q < 4 then .next (if pavilionLate s q then orderedReset s causeEscalation else s) else .fault (.noSuch "pavilion")

/-- TRAY_RESET_N falls for `ns` nanoseconds at least (R442): no dump; the module stays in reset until the deassertion, with its stacks in
self-refresh (R272). -/
def trayAssert (s : State) : State := ((chipReset s).raise OY_STATUS_SELF_REFRESH).modMod (fun m => { m with inReset := true, mctp := false })

/-- Meaning of TRAY_RESET_ASSERT, of a signal that stands high: a pulse under 1 µs is ignored, one of 1 to 10 µs may be (R442). -/
def trayResetAssert (s : State) (ns : Nat) : State :=
  if !s.mod.power || s.mod.inReset || ns < 1000 then s
  else if ns < 10000 then (if Config.shortPulseResets s.free then trayAssert s.drawn else s.drawn)
  else trayAssert s

/-- TRAY_RESET_ASSERT. -/
def execTrayResetAssert (ns : Nat) (s : State) : Host.Outcome State Fault Refusal := .next (trayResetAssert s ns)

/-- Meaning of TRAY_RESET_DEASSERT (R416, R440, R446): the straps are sampled, the repair map loaded; the endpoint serves. -/
def trayDeassert (s : State) (split : Bool) (addr : Nat) : State :=
  if s.mod.power && s.mod.inReset then
    (({ s with rows := repairMap s } : State).wr OY_STATUS_SELF_REFRESH 0).modMod (fun m => { m with inReset := false, split := split, smb := 0x60 + addr, mctp := true, bootAt := s.sun.time })
  else s

/-- TRAY_RESET_DEASSERT. -/
def execTrayResetDeassert (split : Bool) (addr : Nat) (s : State) : Host.Outcome State Fault Refusal :=
  if addr < 8 then .next (trayDeassert s split addr) else .fault (.noSuch "SMBus address")

-- supply (R401, R438 to R440, R444)

/-- Power is lost in the middle of a Shed write: its word holds the old or the new value, which is free (R405). Queued writes and events since the last
write are lost (R407). -/
def shedLost (s : State) : State :=
  let s1 := match s.shed.queue with
    | [] => s
    | w :: _ => if Config.freeNat s.free % 2 = 1 then
        ({ s with shed := { s.shed with words := SMap.put s.shed.words w.word w.value } } : State).drawn else s.drawn
  { s1 with shed := { s1.shed with queue := [], counts := [], plan := [] } }

/-- The module without supply (R401, R449): the Shed, the fuses and the outside world stay. -/
def powerLost (s : State) : State :=
  let s1 := shedLost s
  { State.reset with
    gate := { State.reset.gate with fuses := s.gate.fuses }, shed := s1.shed,
    sun := { Sun.reset with time := s.sun.time },
    mod := { s.mod with power := false, inReset := true, alert := 0, alertJust := 0, eid := 0, mctp := false, links := [], cold := true, jtagIr := 0, jtagData := 0 },
    out := s.out, free := s1.free, pending := s.pending }

/-- Shutdown (R444): every rail goes off at once, and the shutdown latches. -/
def shutDown (s : State) (thermal : Bool) : State := (powerLost s).modMod (fun m => { m with latched := true, thermal := thermal })

/-- Meaning of POWER_INPUT_APPLIED (R440 steps 1 and 2): TRAY_RESET_N is low, the rails rise. -/
def powerApplied (s : State) : State :=
  if s.mod.power || s.mod.latched then s else s.modMod (fun m => { m with power := true, inReset := true })

/-- POWER_INPUT_APPLIED. -/
def execPowerInputApplied (s : State) : Host.Outcome State Fault Refusal := .next (powerApplied s)

/-- The place of a sensor among the temperatures of R447, and its trip limit in sixteenths of a degree (R444). -/
def sensorPlace : Sensor → Nat
  | .region g => g
  | .stack n => 8 + n
  | .stage => 10

def tripLimit : Sensor → Nat
  | .region _ => 115 * 16
  | .stack _ => 105 * 16
  | .stage => 125 * 16

/-- The sensors that exist. -/
def sensorOk : Sensor → Bool
  | .region g => g < 8
  | .stack n => n < 2
  | .stage => true

/-- Meaning of THERMAL_TRIP (R444). -/
def thermalTrip (s : State) (z : Sensor) (temp : Nat) : State :=
  if s.mod.power && tripLimit z < temp then shutDown (s.setTemp (sensorPlace z) temp) true else s

/-- THERMAL_TRIP. -/
def execThermalTrip (z : Sensor) (temp : Nat) (s : State) : Host.Outcome State Fault Refusal :=
  if sensorOk z then .next (thermalTrip s z temp) else .fault (.noSuch "sensor")

/-- Meaning of UNDER_VOLTAGE_SHUTDOWN (R438, R444): THERM_TRIP_N stays high. -/
def execUnderVoltageShutdown (s : State) : Host.Outcome State Fault Refusal :=
  .next (if s.mod.power then shutDown s false else s)

/-- Meaning of SHUTDOWN_LATCH_RELEASE (R444): the input has stayed below 10 V for 1 s. The sideband supply is gone, THERM_TRIP_N with it (R437). -/
def execShutdownLatchRelease (s : State) : Host.Outcome State Fault Refusal :=
  .next (if s.mod.latched then s.modMod (fun m => { m with latched := false, thermal := false }) else s)

/-- READY of a stack (R282). -/
def readyField (stack : Nat) : Fld := if stack = 0 then OY_STATUS_READY0 else OY_STATUS_READY1

/-- The staging key is drawn from the true random source, which has passed its tests (R270, R440): 64 free bytes. -/
def drawKey (s : State) : State :=
  let s1 := (s.drawn.modGate (fun g => { g with trngOk := true })).wr OY_STATUS_KEY_VALID 1
  { s1 with die := { s1.die with oyKey := (List.range 64).map (Config.freeByte s.free) } }

/-- Meaning of HBM_INIT_COMPLETE (R440 step 7): the stack is ready; with both, the staging key is drawn from the true random source (R270, R376). -/
def hbmInit (s : State) (stack : Nat) : State :=
  if s.mod.power && !s.mod.inReset then
    let s1 := s.wr (readyField stack) 1
    if s1.rd OY_STATUS_READY0 = 1 ∧ s1.rd OY_STATUS_READY1 = 1 ∧ s.rd OY_STATUS_KEY_VALID = 0 then drawKey s1 else s1
  else s

/-- HBM_INIT_COMPLETE. -/
def execHbmInitComplete (stack : Nat) (s : State) : Host.Outcome State Fault Refusal :=
  if stack < 2 then .next (hbmInit s stack) else .fault (.noSuch "stack")

/-- Meaning of THERM_WARN (R448): a region sensor above 100 °C. -/
def execThermWarn (g temp : Nat) (s : State) : Host.Outcome State Fault Refusal :=
  if g < 8 then .next (if 100 * 16 < temp then setAlert (s.setTemp g temp) alertThermWarn else s) else .fault (.noSuch "region")

-- what the connectors show (R435, R448, R449)

/-- A signal driven low or high, or left alone. -/
inductive Level where
  | low
  | high
  | hiZ
  deriving DecidableEq, Repr

/-- PWR_GOOD. -/
def pwrGood (s : State) : Level := if s.mod.power then .high else .low

/-- THERM_TRIP_N: low after a thermal shutdown, until the input is removed. -/
def thermTripN (s : State) : Level := if s.mod.thermal then .low else .hiZ

/-- ALERT_N: low while any bit of the alert word is 1; released in reset. -/
def alertN (s : State) : Level := if s.mod.power && !s.mod.inReset && s.mod.alert != 0 then .low else .hiZ

/-- The PCIe link of a port is up. -/
def pcieUp (s : State) (port : Nat) : Bool := s.mod.power && !s.mod.inReset && SMap.look s.mod.links port 0 == 1

/-- The transmitter of a Footbridge port is electrically idle (R239, R440, R442). -/
def txIdle (s : State) (p : Nat) : Bool := !s.mod.power || s.mod.inReset || s.rd (FB_CTRL_ENABLE p) == 0

/-- The test access port serves (R452). -/
def jtagServes (s : State) : Bool := s.mod.power

-- MCTP (R445 to R448)

/-- The endpoint serves (R445). -/
def mctpUp (s : State) : Bool := s.mod.power && !s.mod.inReset && s.mod.mctp

/-- A vendor-defined response after the vendor ID (R447): command, status, data. -/
def respond (s : State) (cmd status : Nat) (data : List Byte) : State :=
  if mctpUp s then s.emit (.mctp (leBytes 1 cmd ++ leBytes 1 status ++ data)) else s

/-- Meaning of MCTP_SET_ENDPOINT_ID (R445): 0 and 0xFF name no endpoint (PRESUMED, DSP0236). -/
def execMctpSetEndpointId (eid : Nat) (s : State) : Host.Outcome State Fault Refusal :=
  if eid < 256 then .next (if mctpUp s ∧ 0 < eid ∧ eid < 255 then s.modMod (fun m => { m with eid := eid }) else s) else .fault (.noSuch "endpoint")

/-- Meaning of GET_IDENTITY (R447). -/
def execGetIdentity (s : State) : Host.Outcome State Fault Refusal :=
  .next (respond s 1 stDone (bytesOf [partId, Config.serial]))

/-- The state codes of the pavilions, four bits each. -/
def pvStates (s : State) : Nat := ((List.range 4).map (fun q => (s.pv q).run.st * 16 ^ q)).foldl (· + ·) 0

/-- Meaning of GET_STATUS (R447). -/
def execGetStatus (s : State) : Host.Outcome State Fault Refusal :=
  .next (respond s 2 stDone (leBytes 1 s.gate.phase ++ leBytes 1 (barRead s SD_STATUS_OFF).toNat ++ leBytes 2 (pvStates s)
    ++ leBytes 2 (s.rd RG_STATUS_LOST_CLUSTERS) ++ leBytes 1 (bits (s.regW WV_STATUS_OFF) 11 8)))

/-- Meaning of GET_TEMPS (R447). -/
def execGetTemps (s : State) : Host.Outcome State Fault Refusal :=
  .next (respond s 3 stDone ((List.range 13).flatMap (fun n => leBytes 2 (SMap.look s.mod.temps n 0))))

/-- Meaning of GET_ALERT (R447, R448): the bits reported are cleared, but for those that a cause has set in this cycle. -/
def execGetAlert (s : State) : Host.Outcome State Fault Refusal :=
  .next (if mctpUp s then (respond s 4 stDone (leBytes 2 s.mod.alert)).modMod (fun m => { m with alert := m.alert &&& m.alertJust }) else s)

/-- Meaning of GET_SUMMARY (R408, R447). -/
def execGetSummary (index : Nat) (s : State) : Host.Outcome State Fault Refusal :=
  if index < 256 then .next (respond s 5 stDone (leBytes 8 (s.shedWord (0x100 + index)).toNat)) else .fault (.noSuch "summary entry")

/-- Meaning of MCTP_UNDEFINED_COMMAND (R447). -/
def execMctpUndefinedCommand (cmd : Nat) (s : State) : Host.Outcome State Fault Refusal :=
  if cmd < 256 then .next (if 1 ≤ cmd ∧ cmd ≤ 5 then s else respond s cmd stBadOpcode []) else .fault (.noSuch "command")

-- the test access port (R449, R452)

/-- The instruction that the port holds, in the model's own numbers (log entry 43): 0 IDCODE, 1 BYPASS, 2 SAMPLE/PRELOAD, 3 EXTEST. -/
def jtagLoad (s : State) (ir data out : Nat) : State :=
  if jtagServes s then (s.modMod (fun m => { m with jtagIr := ir, jtagData := data })).emit (.jtag ir out) else s

/-- Meaning of BYPASS. -/
def execJtagBypass (s : State) : Host.Outcome State Fault Refusal := .next (jtagLoad s 1 s.mod.jtagData 0)

/-- Meaning of SAMPLE/PRELOAD: the contacts are sampled, which is free, and the boundary register loaded. -/
def execJtagSamplePreload (data : Nat) (s : State) : Host.Outcome State Fault Refusal :=
  .next (if s.mod.power then (jtagLoad s 2 data (Config.boundarySample s.free)).drawn else s)

/-- Meaning of EXTEST: the contacts take the boundary register. -/
def execJtagExtest (s : State) : Host.Outcome State Fault Refusal := .next (jtagLoad s 3 s.mod.jtagData s.mod.jtagData)

/-- Meaning of IDCODE. -/
def execJtagIdcode (s : State) : Host.Outcome State Fault Refusal := .next (jtagLoad s 0 s.mod.jtagData 0x107407A7)

/-- Meaning of Test-Logic-Reset: the port holds IDCODE (IEEE 1149.1). -/
def execJtagTestLogicReset (s : State) : Host.Outcome State Fault Refusal :=
  .next (if s.mod.power then s.modMod (fun m => { m with jtagIr := 0 }) else s)

end Sys2Proof.Machine
end

