-- ==== Sys2Proof/Machine/Hostif.lean ====
section
/-!
DEFINITION. The host interface (R417 to R425): resets of a function, links, failed DMA, and writes of registers that have no row of their own (R9).
-/

namespace Sys2Proof.Machine
open Sys2Proof

-- resets of a function (R425)

/-- A pavilion whose doorbell function is reset: the rings and the hold store are forgotten, and a context that runs is aborted; without rings the
records of the abort go nowhere. The command that waits for the abort is nobody's: ticket 256 is never given. -/
def forgetRings (s : State) (q : Nat) : State :=
  let live := abortable s q
  let s1 := s.modFront q (fun f => { f with rings := none, store := [] })
  if live then beginReset (endPvFlights s1 q) q unitAbort 0 (17 * (s.pv q).res.port) 256 else s1

/-- The mailbox of a function returns to its reset values; its commands in flight run on, but their results are discarded. -/
def Fn.cleared (m : Fn) : Fn :=
  { Fn.reset with flights := m.flights.map (fun x => { x with discard := true }), nextTicket := m.nextTicket }

/-- Function number `n` is reset: its pavilions, then its mailbox, and a SHED_WRITE of it that waits is answered to nobody. -/
def resetFn (s : State) (n : Nat) : State :=
  let s1 := ((List.range 4).filter (fun q => ringFn s q == some n)).foldl forgetRings s
  let s2 := s1.modFn n Fn.cleared
  { s2 with shed := { s2.shed with queue := s2.shed.queue.map (fun w => if w.fn = some n then { w with fn := none } else w) } }

/-- A Function Level Reset: that of a physical function takes its virtual functions with it. -/
def flr (s : State) (f : Func) : State :=
  match f with
  | .pf port => (List.range 17).foldl (fun s k => resetFn s (17 * port + k)) s
  | .vf port n => resetFn s (17 * port + n)

/-- Meaning of FUNCTION_LEVEL_RESET. -/
def execFunctionLevelReset (f : Func) (s : State) : Host.Outcome State Fault Refusal :=
  if fnOk f then .next (flr s f) else .fault (.noSuch "function")

/-- Meaning of PCIE_HOT_RESET. -/
def execPcieHotReset (port : Nat) (s : State) : Host.Outcome State Fault Refusal :=
  if port < 2 then .next (flr s (.pf port)) else .fault (.noSuch "host port")

/-- A port's link is up or down (R432, PV_HOST). -/
def setLink (s : State) (port up : Nat) : State := s.modMod (fun m => { m with links := SMap.put m.links port up })

/-- Meaning of PCIE_LINK_LOSS. -/
def execPcieLinkLoss (port : Nat) (s : State) : Host.Outcome State Fault Refusal :=
  if port < 2 then .next (flr (setLink s port 0) (.pf port)) else .fault (.noSuch "host port")

/-- Meaning of PCIE_LINK_UP (R359, R416): a port that the module presents, out of reset. -/
def execPcieLinkUp (port : Nat) (s : State) : Host.Outcome State Fault Refusal :=
  if port < 2 then
    .next (if s.mod.power && !s.mod.inReset && (port == 0 || s.mod.split) then setLink s port 1 else s)
  else .fault (.noSuch "host port")

/-- Meaning of D3HOT_TO_D0: it acts on the physical function of the function's port, as R425 says. -/
def execD3hotToD0 (f : Func) (s : State) : Host.Outcome State Fault Refusal :=
  if fnOk f then .next (flr s (.pf (fnPort f))) else .fault (.noSuch "function")

-- failed DMA (R424)

/-- A shard that is being fetched does not arrive: a corrupt shard. -/
def shardLost (s : State) (q i : Nat) : State := shardStep s q i none

/-- The copy of a firmware image fails: FW_LOAD ends with FAULT, and what was copied is written to zero (R336, R424). -/
def firmwareLost (s : State) : State :=
  match s.gate.fwJob with
  | none => s
  | some (n, t, _) => endFw s n t stFault

/-- The read of a Krexel image fails: the LOAD_MODEL that was accepted ends with FAULT, and the pavilion returns to the state that it left (R343). -/
def imageLost (s : State) (f : Func) : State :=
  loadWith s f (fun s q n t _ =>
    let back := (s.pv q).run.st
    enterState (endAsync (enterState s q pvStaging) n t stFault 0 0) q back)

/-- The read of a machine plan fails: MACHINE_CONFIG ends with FAULT. -/
def planLost (s : State) (f : Func) : State :=
  serveModule s f 0x03 anyArgs configMasks configBad (s.rd SD_STATUS_ALIGNED == 0) (fun _ => answerFail s (fnNum f) stFault 0)

/-- The read of a request record or of its prompt fails: it is not consumed, and reading waits for the next MB_REQ_DB write. -/
def requestLost (s : State) (q : Nat) : State :=
  match mayRead s q, (s.pv q).front.rings with
  | some _, some r => ringEvent (s.modFront q (fun f => { f with rings := some { r with stalled := true } })) q 4
  | _, _ => s

/-- A DMA fails. -/
def dmaLost (s : State) (k : DmaKind) : State :=
  match k with
  | .shard q i => shardLost s q i
  | .firmware => firmwareLost s
  | .krexel f => imageLost s f
  | .plan f => planLost s f
  | .request q => requestLost s q
  | .completion q => ringEvent s q 4
  | .dump f => setEvent s (fnNum f) 4

/-- The numbers of a DMA lie in range. -/
def dmaOk : DmaKind → Bool
  | .shard q i => q < 4 && i < 8192
  | .firmware => true
  | .krexel f => fnOk f
  | .plan f => fnOk f
  | .request q => q < 4
  | .completion q => q < 4
  | .dump f => fnOk f

/-- Meaning of DMA_FAILURE. -/
def execDmaFailure (k : DmaKind) (s : State) : Host.Outcome State Fault Refusal :=
  if dmaOk k then .next (dmaLost s k) else .fault (.noSuch "function, pavilion or shard")

/-- Meaning of DMA_TIMEOUT: no completion within 50 ms is handled as a failure. -/
def execDmaTimeout (k : DmaKind) (s : State) : Host.Outcome State Fault Refusal :=
  if dmaOk k then .next (dmaLost s k) else .fault (.noSuch "function, pavilion or shard")

-- writes of registers (R9, R10)

/-- MB_EVENT.CPL_WAIT stays set while a record of a ring of function `n` is held, whatever its host clears (R350). -/
def heldWait (s : State) (n off : Nat) : W64 :=
  if off = MB_EVENT_OFF ∧ (List.range 4).any (fun q =>
      !(s.pv q).front.store.isEmpty && (match (s.pv q).front.rings with | some r => r.fn == n | none => false)) = true
  then maskBits MB_EVENT_CPL_WAIT.hi MB_EVENT_CPL_WAIT.lo else 0

/-- A write of a register of the mailbox window by its function (R337, R354): ignored while BUSY is 1, but for the flags. -/
def mailWrite (s : State) (n off : Nat) (v : W64) : State :=
  let m := s.fn n
  if off = MB_DOORBELL_OFF then (if bit v 0 then doorbell s n else s)
  else
    let rw := if m.rd MB_STATUS_BUSY = 1 then 0 else w64 (rowVal rwMb off)
    let w1c := w64 (rowVal w1cMb off)
    if rw ||| w1c = 0 then s else s.setFn n (m.setReg off (mergedNow m.just off (m.regW off) v rw w1c ||| heldWait s n off))

/-- A write of the MSI-X table of function `n` (R421, log entry 21): a pending vector that is unmasked is sent. -/
def msixWrite (s : State) (n w : Nat) (v : W64) : State :=
  let m := s.fn n
  let m1 : Fn := { m with msix := SMap.put m.msix w v }
  let vec := w / 2
  if vec ∈ m.pendingVec ∧ !vecMasked m1 vec then
    (s.setFn n { m1 with pendingVec := m1.pendingVec.filter (· != vec) }).emit (.msix n vec)
  else s.setFn n m1

/-- The pavilion that a doorbell page of a function's BAR2 stands for (R355, R421). -/
def doorbellPv (s : State) (f : Func) (page : Nat) : Option Nat :=
  match f with
  | .pf _ => if page < 4 ∧ seesPv s f page then some page else none
  | .vf _ _ => if page = 0 then (List.range 4).find? (seesPv s f) else none

/-- A write to BAR2 (R421). -/
def bar2Write (s : State) (f : Func) (off : Nat) (v : W64) : State :=
  if 0x8000 ≤ off ∧ off < 0x8400 then msixWrite s (fnNum f) ((off - 0x8000) / 8) v
  else match doorbellPv s f (off / 0x1000) with
    | none => s
    | some q => if off % 0x1000 = 0 then reqDoorbell s f q v else if off % 0x1000 = 8 then cplDoorbell s f q v else s

/-- The RW and W1C bits of a BAR0 register written; a register without them, or no register, ignores the write (R9, R10). -/
def plainWrite (s : State) (off : Nat) (v : W64) : State :=
  let rw := w64 (rowVal rwState off)
  let w1c := w64 (rowVal w1cState off)
  if rw ||| w1c = 0 then s else s.setReg off (mergedNow s.just off (s.regW off) v rw w1c)

/-- A write by a host function (R43, R354, R420): its mailbox window, its BAR2, and for the primary physical function the Sundial registers. -/
def hostWrite (s : State) (f : Func) (off : Nat) (v : W64) : State :=
  if bar2Base ≤ off then bar2Write s f (off - bar2Base) v
  else if 0x10000 ≤ off ∧ off < 0x11000 then mailWrite s (fnNum f) (off - 0x10000) v
  else if 0x4000 ≤ off ∧ off < 0x5000 ∧ f = .pf 0 then plainWrite s off v
  else s

/-- A write of FB_CTRL of port `p` (R239, R241, R242). Clearing ENABLE puts the port in DOWN as a loss of signal does, with LINK_DOWN where it was UP and
a hold where it belongs to a machine (DESIGN CHOICE, log entry 17); setting it, or RETRAIN, trains the port. -/
def fbWrite (s : State) (p : Nat) (v : W64) : State :=
  let was := s.rd (FB_CTRL_ENABLE p)
  let s1 := plainWrite s (FB_CTRL_OFF p) v
  if was = 1 ∧ !bit v 0 then portDown s1 p
  else if bit v 2 ∨ (was = 0 ∧ bit v 0) then trainPort s1 p (bit v 2 && bit v 3)
  else s1

/-- The RW and W1C bits of a tile-window register written. TL_FAULT_INFO keeps its record when TL_FAULT has become all clear (DESIGN CHOICE, log entry
46). -/
def plainTileWrite (s : State) (p off : Nat) (v : W64) : State :=
  let t := s.tile p
  let rw := w64 (rowVal rwTile off)
  let w1c := w64 (rowVal w1cTile off)
  if rw ||| w1c = 0 then s else s.setTile p (t.setReg off (mergedNow t.just off (t.regW off) v rw w1c))

/-- A write of TL_SEQ_CONFIG (R66, R67). -/
def seqWrite (s : State) (p : Nat) (v : W64) : State :=
  if (s.tile p).rd TL_SEQ_CONFIG_ENABLE = 1 then (if bit v 16 then s else stopTile s p)
  else if bit v 16 then startTile s p (bits v 14 0) (bits v 35 32)
  else plainTileWrite s p TL_SEQ_CONFIG_OFF v

/-- The counters of a channel are cleared (R222). -/
def Tile.clearCounts (t : Tile) (send : Bool) (n : Nat) : Tile :=
  if send then (t.setReg (TW_SEND_CNT0_OFF n) 0).setReg (TW_SEND_CNT1_OFF n) 0
  else ((t.setReg (TW_RECV_CNT0_OFF n) 0).setReg (TW_RECV_CNT1_OFF n) 0).setReg (TW_RECV_CNT2_OFF n) 0

/-- A channel's CFG written, with which its counters are cleared (R211, R222). -/
def cfgWrite (s : State) (p off : Nat) (v : W64) : State :=
  let send := off < TW_RECV_CFG_OFF 0
  (plainTileWrite s p off v).modTile p (fun t => t.clearCounts send ((off - (if send then TW_SEND_CFG_OFF 0 else TW_RECV_CFG_OFF 0)) / 64))

/-- A receive channel's STATE written: OPEN 0 over 1 closes it (R217). -/
def recvWrite (s : State) (p n : Nat) (v : W64) : State :=
  plainTileWrite (if bit v 48 then s else closeRecv s p n) p (TW_RECV_STATE_OFF n) v

/-- A write of a tile window by the Warden (R68, R201, R223, R334, R403). -/
def tileWrite (s : State) (p off : Nat) (v : W64) : State :=
  if off = TL_SEQ_CONFIG_OFF then seqWrite s p v
  else if off = TL_TC_ADD_OFF then writeTcAdd s .warden p (bits v 21 16) (bits v 15 0)
  else if off = TL_SP_CTRL_OFF then (if bit v 0 ∧ (s.tile p).seq.run = .idle then clearSp s p else s)
  else if off = TL_TR_CTRL_OFF then
    let s1 := plainTileWrite s p off v
    if bit v 0 ∧ (s.tile p).seq.run = .idle then clearTr s1 p else s1
  else if off = TL_RP_CTRL_OFF then (if bit v 0 then moveEast s p else s)
  else if TW_RECV_STATE_OFF 0 ≤ off ∧ off < TW_RECV_STATE_OFF 32 ∧ (off - TW_RECV_STATE_OFF 0) % 64 = 0 then
    recvWrite s p ((off - TW_RECV_STATE_OFF 0) / 64) v
  else if TW_SEND_CFG_OFF 0 ≤ off ∧ off < TW_RECV_CFG_OFF 32 ∧ off % 64 = 0 then cfgWrite s p off v
  else plainTileWrite s p off v

/-- A Shed word written by the Warden (R405, R406, R414): customer words only through SHED_WRITE; manufacturing and Reserved words never (R404). -/
def shedWordWrite (s : State) (n : Nat) (v : W64) : State := if (0x200 ≤ n ∧ n < 0x300) ∨ shedBits n = 0 then s else shedPut s n v none

/-- A BAR0 write by the Warden: every RW, RWP, WO and W1C field. -/
def wardenWrite (s : State) (off : Nat) (v : W64) : State :=
  if 0x2000000 ≤ off ∧ off < 0x2440000 then tileWrite s ((off - 0x2000000) / 0x4000) (off % 0x4000) v
  else if 0xC0000 ≤ off ∧ off < 0xD0000 then lodgeWrite s ((off - 0xC0000) / 4096) (off % 4096) v (BitVec.allOnes 64) true
  else if 0x80000 ≤ off ∧ off < 0x90000 ∧ off % 0x1000 = 0 then fbWrite s ((off - 0x80000) / 0x1000) v
  else if 0x20000 ≤ off ∧ off < 0x30000 then shedWordWrite s ((off - 0x20000) / 8) v
  else if 0xF0108 ≤ off ∧ off < 0xF1100 ∧ 0 < (off - 0xF0100) % 64 ∧ (off - 0xF0100) % 64 ≤ 32 then s.setReg off v
  else if 0x10000 ≤ off ∧ off < 0x11000 then s
  else plainWrite s off v

/-- A write by Lodge core `k` (R68, R257): its own registers, and TL_TC_ADD of its cluster's tiles. -/
def coreWrite (s : State) (k off : Nat) (v : W64) : State :=
  if 0xC0000 + 4096 * k ≤ off ∧ off < 0xC1000 + 4096 * k then lodgeWrite s k (off % 4096) v (BitVec.allOnes 64) false
  else if 0x2000000 ≤ off ∧ off < 0x2440000 ∧ off % 0x4000 = TL_TC_ADD_OFF then
    writeTcAdd s (.lodge k) ((off - 0x2000000) / 0x4000) (bits v 21 16) (bits v 15 0)
  else s

/-- A register write. -/
def regWrite (s : State) (a : Agent) (off : Nat) (v : W64) : State :=
  match a with
  | .host f => hostWrite s f off v
  | .warden => wardenWrite s off v
  | .lodge k => coreWrite s k off v

/-- Meaning of REGISTER_WRITE: a whole 8-byte register of BAR0 or BAR2. -/
def execRegisterWrite (a : Agent) (off : Nat) (v : W64) (s : State) : Host.Outcome State Fault Refusal :=
  if agentOk a ∧ off % 8 = 0 ∧ off < bar2Base + 0x10000 then .next (regWrite s a off v) else .fault (.noSuch "register")

end Sys2Proof.Machine
end

