-- ==== Sys2Proof/Machine/Dispatch.lean ====
section
/-!
DEFINITION. One arm for each command of the table, each a call of its meaning.
-/

namespace Sys2Proof.Machine
open Sys2Proof

/-- The effect of a command on everything but the queue. -/
def exec (i : Instr) (s : State) : Host.Outcome State Fault Refusal :=
  match i with
  -- Sundial (R22 to R42)
  | .frameTick => Sys2Proof.Machine.execFrameTick s
  | .frequencyStopEnd => Sys2Proof.Machine.execFrequencyStopEnd s
  | .holdRequest kind source => Sys2Proof.Machine.execHoldRequest kind source s
  | .freezePointReached region => Sys2Proof.Machine.execFreezePointReached region s
  | .holdRelease seq => Sys2Proof.Machine.execHoldRelease seq s
  | .holdResume => Sys2Proof.Machine.execHoldResume s
  | .remoteHoldMessage port origin seq kind source => Sys2Proof.Machine.execRemoteHoldMessage port origin seq kind source s
  | .remoteReleaseMessage port origin seq stamp => Sys2Proof.Machine.execRemoteReleaseMessage port origin seq stamp s
  | .droopStretch g => Sys2Proof.Machine.execDroopStretch g s
  | .syncInPulse => Sys2Proof.Machine.execSyncInPulse s
  | .timeMessage port origin sample => Sys2Proof.Machine.execTimeMessage port origin sample s
  | .frameZeroStart => Sys2Proof.Machine.execFrameZeroStart s
  -- the tile sequencer (R45 to R68)
  | .descriptorIssue t chk => Sys2Proof.Machine.execDescriptorIssue t chk s
  | .descriptorRetire t n => Sys2Proof.Machine.execDescriptorRetire t n s
  | .handlerListStart t chk => Sys2Proof.Machine.execHandlerListStart t chk s
  | .contextStart p start handlers => Sys2Proof.Machine.execContextStart p start handlers s
  | .tileStop p => Sys2Proof.Machine.execTileStop p s
  | .tcAdd a p ctr inc => Sys2Proof.Machine.execTcAdd a p ctr inc s
  -- the matrix and vector engines (R69 to R113)
  | .mxLoad t chk => Sys2Proof.Machine.execMxLoad t chk s
  | .mxPass t chk wait => Sys2Proof.Machine.execMxPass t chk wait s
  | .mxZero t => Sys2Proof.Machine.execMxZero t s
  | .mxStore t wait room => Sys2Proof.Machine.execMxStore t wait room s
  | .vxFp t chk wait => Sys2Proof.Machine.execVxFp t chk wait s
  | .vxInt t chk wait => Sys2Proof.Machine.execVxInt t chk wait s
  | .vxCvt t chk wait => Sys2Proof.Machine.execVxCvt t chk wait s
  | .vxFn t chk wait => Sys2Proof.Machine.execVxFn t chk wait s
  | .vxRed t chk wait => Sys2Proof.Machine.execVxRed t chk wait s
  | .vxCmp t chk wait => Sys2Proof.Machine.execVxCmp t chk wait s
  | .vxMask t => Sys2Proof.Machine.execVxMask t s
  -- links, memory, network, Orangery and control descriptors (R142 to R176)
  | .linkOrdinary t handler => Sys2Proof.Machine.execLinkOrdinary t handler s
  | .linkFrameEnd t => Sys2Proof.Machine.execLinkFrameEnd t s
  | .linkHandlerReturn t => Sys2Proof.Machine.execLinkHandlerReturn t s
  | .spFill t wait => Sys2Proof.Machine.execSpFill t wait s
  | .spCopy t chk wait => Sys2Proof.Machine.execSpCopy t chk wait s
  | .spColgather t chk wait => Sys2Proof.Machine.execSpColgather t chk wait s
  | .spColscatter t chk wait => Sys2Proof.Machine.execSpColscatter t chk wait s
  | .netPut t chk wait => Sys2Proof.Machine.execNetPut t chk wait s
  | .netPutMsg t chk wait => Sys2Proof.Machine.execNetPutMsg t chk wait s
  | .netGet t => Sys2Proof.Machine.execNetGet t s
  | .oyRead t chk => Sys2Proof.Machine.execOyRead t chk s
  | .oyWrite t chk => Sys2Proof.Machine.execOyWrite t chk s
  | .oyTerrace t chk => Sys2Proof.Machine.execOyTerrace t chk s
  | .ctBarrierWait t => Sys2Proof.Machine.execCtBarrierWait t s
  | .ctBarrierArriveOnly t => Sys2Proof.Machine.execCtBarrierArriveOnly t s
  | .ctSignalJoin t => Sys2Proof.Machine.execCtSignalJoin t s
  | .ctSignalRemoteAdd t => Sys2Proof.Machine.execCtSignalRemoteAdd t s
  | .ctSignalCreditReturn t => Sys2Proof.Machine.execCtSignalCreditReturn t s
  | .ctHash t chk => Sys2Proof.Machine.execCtHash t chk s
  | .ctSampleTarget t chk => Sys2Proof.Machine.execCtSampleTarget t chk s
  | .ctSampleDraft t chk => Sys2Proof.Machine.execCtSampleDraft t chk s
  | .ctSampleCommit t => Sys2Proof.Machine.execCtSampleCommit t s
  -- arrivals, clears and scrubbers (R184 to R222)
  | .transferLanding n wait => Sys2Proof.Machine.execTransferLanding n wait s
  | .messageLanding n wait => Sys2Proof.Machine.execMessageLanding n wait s
  | .getRequestArrival n => Sys2Proof.Machine.execGetRequestArrival n s
  | .getWindowReply n chk => Sys2Proof.Machine.execGetWindowReply n chk s
  | .creditArrival n => Sys2Proof.Machine.execCreditArrival n s
  | .revocationArrival n => Sys2Proof.Machine.execRevocationArrival n s
  | .barrierRootArrival n => Sys2Proof.Machine.execBarrierRootArrival n s
  | .barrierReleaseArrival n => Sys2Proof.Machine.execBarrierReleaseArrival n s
  | .scratchpadClear p => Sys2Proof.Machine.execScratchpadClear p s
  | .terraceClear p => Sys2Proof.Machine.execTerraceClear p s
  | .scratchpadScrub p chk => Sys2Proof.Machine.execScratchpadScrub p chk s
  | .terraceScrub p chk => Sys2Proof.Machine.execTerraceScrub p chk s
  -- the Footbridge (R224 to R242)
  | .linkBlockReceive port sent raw => Sys2Proof.Machine.execLinkBlockReceive port sent raw s
  | .scheduledFlitAtPort n => Sys2Proof.Machine.execScheduledFlitAtPort n s
  | .scheduledSlotTransmit port slot => Sys2Proof.Machine.execScheduledSlotTransmit port slot s
  | .lateFlitCheck port => Sys2Proof.Machine.execLateFlitCheck port s
  | .scheduledFlitPresent port => Sys2Proof.Machine.execScheduledFlitPresent port s
  | .bulkTransferRoute port n => Sys2Proof.Machine.execBulkTransferRoute port n s
  | .portRetrain port full => Sys2Proof.Machine.execPortRetrain port full s
  | .trainingComplete port ok peerSerial peerPort peerModule lanes => Sys2Proof.Machine.execTrainingComplete port ok peerSerial peerPort peerModule lanes s
  | .lossOfSignal port => Sys2Proof.Machine.execLossOfSignal port s
  | .signalReturn port => Sys2Proof.Machine.execSignalReturn port s
  -- Lodge cores (R243 to R257)
  | .lodgeRun k run => Sys2Proof.Machine.execLodgeRun k run s
  | .lodgeInstruction k chk => Sys2Proof.Machine.execLodgeInstruction k chk s
  | .bsmaskDone a k slot positions => Sys2Proof.Machine.execBsmaskDone a k slot positions s
  | .watchArm a k n v => Sys2Proof.Machine.execWatchArm a k n v s
  | .watchFire k n => Sys2Proof.Machine.execWatchFire k n s
  | .bseventRead k => Sys2Proof.Machine.execBseventRead k s
  -- the Orangery and the Icehouse (R258 to R282)
  | .stackHot stack temp => Sys2Proof.Machine.execStackHot stack temp s
  | .icehouseLookup pv tag => Sys2Proof.Machine.execIcehouseLookup pv tag s
  | .shiftInComplete pv chk => Sys2Proof.Machine.execShiftInComplete pv chk s
  -- serving and the Bandstand (R283 to R307)
  | .submitRecord pv rec prompt => Sys2Proof.Machine.execSubmitRecord pv rec prompt s
  | .cancelRecord pv rec => Sys2Proof.Machine.execCancelRecord pv rec s
  | .mbReqDb f pv v => Sys2Proof.Machine.execMbReqDb f pv v s
  | .mbCplDb f pv v => Sys2Proof.Machine.execMbCplDb f pv v s
  | .completionFlush pv => Sys2Proof.Machine.execCompletionFlush pv s
  | .bandstandScan => Sys2Proof.Machine.execBandstandScan s
  | .draftDerivation slot => Sys2Proof.Machine.execDraftDerivation slot s
  | .targetCommit slot => Sys2Proof.Machine.execTargetCommit slot s
  | .draftSlotCommit slot => Sys2Proof.Machine.execDraftSlotCommit slot s
  | .tokenRecordLanding n => Sys2Proof.Machine.execTokenRecordLanding n s
  | .draftRecordLanding n => Sys2Proof.Machine.execDraftRecordLanding n s
  | .wardenMessage m => Sys2Proof.Machine.execWardenMessage m s
  -- the mailbox and the Warden (R335 to R355)
  | .mbUndefinedOpcode f => Sys2Proof.Machine.execMbUndefinedOpcode f s
  | .mbDoorbellIgnored f => Sys2Proof.Machine.execMbDoorbellIgnored f s
  | .mbAsyncRead f => Sys2Proof.Machine.execMbAsyncRead f s
  | .asyncCommandTimeout f ticket => Sys2Proof.Machine.execAsyncCommandTimeout f ticket s
  | .getInfo f => Sys2Proof.Machine.execGetInfo f s
  | .fwLoad f => Sys2Proof.Machine.execFwLoad f s
  | .fwLoadVerify image => Sys2Proof.Machine.execFwLoadVerify image s
  | .firmwareRunning bad => Sys2Proof.Machine.execFirmwareRunning bad s
  | .machineConfig f plan => Sys2Proof.Machine.execMachineConfig f plan s
  | .align f => Sys2Proof.Machine.execAlign f s
  | .freqBin f => Sys2Proof.Machine.execFreqBin f s
  | .ageing f => Sys2Proof.Machine.execAgeing f s
  | .readDumpCrash f => Sys2Proof.Machine.execReadDumpCrash f s
  | .readDumpSummary f => Sys2Proof.Machine.execReadDumpSummary f s
  | .shedRead f ue => Sys2Proof.Machine.execShedRead f ue s
  | .shedWrite f => Sys2Proof.Machine.execShedWrite f s
  | .shedWriteComplete => Sys2Proof.Machine.execShedWriteComplete s
  | .wvPlan f => Sys2Proof.Machine.execWvPlan f s
  | .planDue => Sys2Proof.Machine.execPlanDue s
  | .railStep => Sys2Proof.Machine.execRailStep s
  | .lifetimeCounterWrite c => Sys2Proof.Machine.execLifetimeCounterWrite c s
  | .chipReset f => Sys2Proof.Machine.execChipReset f s
  | .pvCreate f => Sys2Proof.Machine.execPvCreate f s
  | .pvDestroy f => Sys2Proof.Machine.execPvDestroy f s
  | .pvResetAbort f => Sys2Proof.Machine.execPvResetAbort f s
  | .pvResetCluster f => Sys2Proof.Machine.execPvResetCluster f s
  | .pvResetPavilion f => Sys2Proof.Machine.execPvResetPavilion f s
  | .pvStatus f => Sys2Proof.Machine.execPvStatus f s
  | .ringSetup f => Sys2Proof.Machine.execRingSetup f s
  | .hamperStage f manifest => Sys2Proof.Machine.execHamperStage f manifest s
  | .shardTablePoll pv table => Sys2Proof.Machine.execShardTablePoll pv table s
  | .shardVerify pv entry cipher => Sys2Proof.Machine.execShardVerify pv entry cipher s
  | .stagingTimeout pv => Sys2Proof.Machine.execStagingTimeout pv s
  | .sliceDrop f => Sys2Proof.Machine.execSliceDrop f s
  | .loadModel f image => Sys2Proof.Machine.execLoadModel f image s
  | .run f => Sys2Proof.Machine.execRun f s
  | .pause f => Sys2Proof.Machine.execPause f s
  | .resume f => Sys2Proof.Machine.execResume f s
  | .drain f => Sys2Proof.Machine.execDrain f s
  | .tenantSet f => Sys2Proof.Machine.execTenantSet f s
  | .tenantBudgetSet f => Sys2Proof.Machine.execTenantBudgetSet f s
  | .tenantBudgetAdd f => Sys2Proof.Machine.execTenantBudgetAdd f s
  | .groupSet f => Sys2Proof.Machine.execGroupSet f s
  | .groupRemove f => Sys2Proof.Machine.execGroupRemove f s
  | .poolCreate f => Sys2Proof.Machine.execPoolCreate f s
  | .poolDestroy f => Sys2Proof.Machine.execPoolDestroy f s
  | .balanceOn f => Sys2Proof.Machine.execBalanceOn f s
  | .balanceOff f => Sys2Proof.Machine.execBalanceOff f s
  -- the Gatehouse (R356 to R376)
  | .fleetKeyInstall port body => Sys2Proof.Machine.execFleetKeyInstall port body s
  | .fleetKeyRemove port body => Sys2Proof.Machine.execFleetKeyRemove port body s
  | .doeDiscovery port index => Sys2Proof.Machine.execDoeDiscovery port index s
  | .spdmGetCertificate port slot offset len => Sys2Proof.Machine.execSpdmGetCertificate port slot offset len s
  | .spdmChallenge port slot nonce => Sys2Proof.Machine.execSpdmChallenge port slot nonce s
  | .spdmGetMeasurements port op nonce => Sys2Proof.Machine.execSpdmGetMeasurements port op nonce s
  -- replay and recovery (R377 to R403)
  | .replayQuiet => Sys2Proof.Machine.execReplayQuiet s
  | .moveEast p => Sys2Proof.Machine.execMoveEast p s
  | .replayTick => Sys2Proof.Machine.execReplayTick s
  | .rangerFire => Sys2Proof.Machine.execRangerFire s
  | .tileFaultReport p => Sys2Proof.Machine.execTileFaultReport p s
  | .orphanNotice module pv => Sys2Proof.Machine.execOrphanNotice module pv s
  | .abortEscalation pv p => Sys2Proof.Machine.execAbortEscalation pv p s
  | .pavilionResetTimeout pv => Sys2Proof.Machine.execPavilionResetTimeout pv s
  | .firmwareInternalError => Sys2Proof.Machine.execFirmwareInternalError s
  -- the host interface (R416 to R433)
  | .functionLevelReset f => Sys2Proof.Machine.execFunctionLevelReset f s
  | .pcieHotReset port => Sys2Proof.Machine.execPcieHotReset port s
  | .pcieLinkLoss port => Sys2Proof.Machine.execPcieLinkLoss port s
  | .d3hotToD0 f => Sys2Proof.Machine.execD3hotToD0 f s
  | .dmaFailure k => Sys2Proof.Machine.execDmaFailure k s
  | .dmaTimeout k => Sys2Proof.Machine.execDmaTimeout k s
  | .registerWrite a off v => Sys2Proof.Machine.execRegisterWrite a off v s
  -- module hardware (R434 to R452)
  | .powerInputApplied => Sys2Proof.Machine.execPowerInputApplied s
  | .trayResetDeassert split addr => Sys2Proof.Machine.execTrayResetDeassert split addr s
  | .trayResetAssert ns => Sys2Proof.Machine.execTrayResetAssert ns s
  | .hbmInitComplete stack => Sys2Proof.Machine.execHbmInitComplete stack s
  | .thermalTrip z temp => Sys2Proof.Machine.execThermalTrip z temp s
  | .underVoltageShutdown => Sys2Proof.Machine.execUnderVoltageShutdown s
  | .shutdownLatchRelease => Sys2Proof.Machine.execShutdownLatchRelease s
  | .mctpSetEndpointId eid => Sys2Proof.Machine.execMctpSetEndpointId eid s
  | .getIdentity => Sys2Proof.Machine.execGetIdentity s
  | .getStatus => Sys2Proof.Machine.execGetStatus s
  | .getTemps => Sys2Proof.Machine.execGetTemps s
  | .getAlert => Sys2Proof.Machine.execGetAlert s
  | .getSummary index => Sys2Proof.Machine.execGetSummary index s
  | .mctpUndefinedCommand cmd => Sys2Proof.Machine.execMctpUndefinedCommand cmd s
  | .jtagBypass => Sys2Proof.Machine.execJtagBypass s
  | .jtagSamplePreload data => Sys2Proof.Machine.execJtagSamplePreload data s
  | .jtagExtest => Sys2Proof.Machine.execJtagExtest s
  | .jtagIdcode => Sys2Proof.Machine.execJtagIdcode s
  | .jtagTestLogicReset => Sys2Proof.Machine.execJtagTestLogicReset s
  | .linkBlockTransmit port => Sys2Proof.Machine.execLinkBlockTransmit port s
  | .stackCooled stack temp => Sys2Proof.Machine.execStackCooled stack temp s
  | .thermWarn g temp => Sys2Proof.Machine.execThermWarn g temp s
  | .resetUnitEnd pv ok => Sys2Proof.Machine.execResetUnitEnd pv ok s
  | .channelClose p n => Sys2Proof.Machine.execChannelClose p n s
  | .pcieLinkUp port => Sys2Proof.Machine.execPcieLinkUp port s
  | .spdmGetCapabilities port => Sys2Proof.Machine.execSpdmGetCapabilities port s
  | .spdmNegotiateAlgorithms port => Sys2Proof.Machine.execSpdmNegotiateAlgorithms port s

end Sys2Proof.Machine
end

