-- ==== Sys2Proof/Safety.lean ====
section
/-!
DEFINITION. What counts as a safe run: a step that ends in a next state, and the standing facts about the module's own hardware that every step keeps.
-/

namespace Sys2Proof.Machine
open Sys2Proof

/-- What the Gatehouse and the module hardware always keep: the anti-rollback counter within its 64 fuses (R356), a boot phase of R335, an
endpoint ID of R449, and a test-access instruction of R452. -/
structure HwInv (s : State) : Prop where
  fuses : s.gate.fuses ≤ 64
  phase : s.gate.phase ≤ 4
  eid : s.mod.eid < 255
  ir : s.mod.jtagIr ≤ 3

/-- Function `f` has submitted a command of opcode `op` with arguments `a`; it may send it, and commands are answered (R335, R337, R351). -/
structure Submitted (s : State) (f : Func) (op : Nat) (cmd : W64) (a : SMap W64) : Prop where
  function : fnOk f = true
  copied : (s.fn (fnNum f)).latched = some (cmd, a)
  opcode : bits cmd 7 0 = op
  allowed : available s f op = true
  answered : answering s = true

/-- A window entry that has started: phase `ph`, no tc of its work done, `chk` what its reads will find, `g` the weights that it streams against, `x` the
transfer that it injects. -/
def WinEntry.began (ph : Phase) (chk : Check) (g : Stage) (x : Nat) (w : WinEntry) : WinEntry :=
  { w with phase := ph, pos := 0, part := 0, chk := chk, stage := g, xfer := x }

/-- Window entry `i` of physical tile `p` has started, and nothing else has changed. -/
def begun (s : State) (p i : Nat) (ph : Phase) (chk : Check) (g : Stage) (x : Nat) : State :=
  s.setTile p { s.tile p with seq := { (s.tile p).seq with window := modAt (WinEntry.began ph chk g x) (s.tile p).seq.window i } }

/-- The module outside its tiles and its die is the same: registers, pavilions, functions, Sundial, outputs. -/
structure SameModule (s t : State) : Prop where
  reg : t.reg = s.reg
  pvs : t.pvs = s.pvs
  fns : t.fns = s.fns
  sun : t.sun = s.sun
  out : t.out = s.out

/-- What a tile holds beside its sequencer, its registers and its scratchpad is the same: Terrace, counters, engines, the orphan marks. -/
structure SameEngines (t u : Tile) : Prop where
  tr : u.tr = t.tr
  tc : u.tc = t.tc
  mx : u.mx = t.mx
  vx : u.vx = t.vx
  orphaned : u.orphaned = t.orphaned

/-- Every flit that transfer `x` still has in the mesh is at its landing on physical tile `p` and finds port W free for it (R150, R181, R204); the number
of `x` names `x` and no other transfer before it. -/
structure AtItsTile (s : State) (x : Transfer) (p : Nat) : Prop where
  place : p = s.phys x.dstTile
  chan : x.rchan < 32
  leg : x.leg = 0
  injected : x.left = 0
  flits : x.air ≠ []
  named : s.xfer x.id = some x
  arrived : ∀ f ∈ x.air, if f.car = 1 then f.due ≤ s.now p ∧ s.tileStands p = false else x.path.length ≤ f.hop ∧ f.due ≤ s.sun.tick
  port : ∀ f ∈ x.air, f.car ≠ 1 → landCount f ≠ 0 → claimOk s p (landClaim (s.tile p) x f) = true

/-- The bytes that the flits of `x` write on a tile: what each one carries, or for a pad record the record, where no writer that R147 places later has
written in this tc and no other flit of `x` writes; every byte that none of them covers keeps its value. -/
structure FlitsLanded (t u : Tile) (x : Transfer) (cls : Nat) (bytes : MeshFlit → List Byte) : Prop where
  inside : ∀ f ∈ x.air, ∀ k, k < (bytes f).length → (SMap.look t.spNew (landAt t x f + k) (0, 0)).2 ≤ cls →
    (∀ g ∈ x.air, g ≠ f → landAt t x g + (bytes g).length ≤ landAt t x f + k ∨ landAt t x f + k < landAt t x g) →
    u.sp.rd (landAt t x f + k) = (bytes f).getD k 0
  outside : ∀ a, (∀ f ∈ x.air, a < landAt t x f ∨ landAt t x f + (bytes f).length ≤ a) → u.sp.rd a = t.sp.rd a

end Sys2Proof.Machine
end

