-- ==== Sys2Proof/Certificates/Slice0/Obligations.lean ====
section
/-!
DEFINITION. The statements about the block: what its steps and its commands do, said through the model's own reads of registers, tiles and memories.
-/

open Sys2Proof Sys2Proof.Machine

-- the step

/-- A step takes the command at the front of the queue and runs it with the queue's rest; an empty queue lets one Sundial cycle pass
(log entry 1). -/
def Obligations.StepRunsFrontCommand : Prop :=
  (∀ (c : Instr) (rest : List Instr) (s : State), step { s with pending := c :: rest } = exec c { s with pending := rest })
  ∧ ∀ s : State, s.pending = [] → step s = .next (cycle s)

/-- A command whose numbers name something of the module answers a next state and leaves the queue alone; any other stops with a fault.
The model's own choices behind it: log entry 5. -/
def Obligations.WellFormedCommandsRun : Prop :=
  ∀ (c : Instr) (s : State),
    (c.wf = true → ∃ t, exec c s = .next t ∧ t.pending = s.pending) ∧ (c.wf = false → ∃ what, exec c s = .fault (.noSuch what))

/-- Every step keeps the standing facts of the Gatehouse and the module hardware, from every state that has them, and never lowers the
anti-rollback counter (R356, R358). The model's own choices behind it: log entries 16, 43. -/
def Obligations.HardwareInvariantKept : Prop :=
  ∀ s t : State, HwInv s → step s = .next t → HwInv t ∧ s.gate.fuses ≤ t.gate.fuses

/-- The state after reset has the standing facts. The model's own choices behind it: log entries 2, 9. -/
def Obligations.HardwareInvariantAtReset : Prop := HwInv State.reset

/-- What reset leaves: every scratchpad and Terrace byte zero (R193), every tile idle with window 0 to 0xFFF, the boot ROM waiting (R335), no
pavilion, every Lodge core held in reset (R254), every port DOWN, Sundial not running. The model's own choices behind it: log entries 2, 9. -/
def Obligations.ResetState : Prop :=
  (∀ p a, ((State.reset.tile p).sp).rd a = 0 ∧ ((State.reset.tile p).tr).rd a = 0)
  ∧ (∀ p, (State.reset.tile p).seq.run = .idle ∧ (State.reset.tile p).rd TL_SP_WINDOW_LO_LINE = 0
      ∧ (State.reset.tile p).rd TL_SP_WINDOW_HI_LINE = 0xFFF ∧ ∀ n, (State.reset.tile p).tcVal n = 0)
  ∧ State.reset.gate.phase = 0 ∧ (∀ q, pvExists State.reset q = false) ∧ (∀ k, lodgeState (State.reset.lodge k) = 0)
  ∧ (∀ p, p < 16 → State.reset.rd (FB_STATUS_STATE p) = 0) ∧ State.reset.rd SD_STATUS_RUNNING = 0 ∧ State.reset.pending = []

-- Sundial

/-- A hold request with no freeze point set takes F = the Sundial frame counter + 6 (R30): a region whose lag is 4 or more asks with SKEW, and its request
leaves on every port of the machine that carries traffic; the first copy of another module's request counts from its arrival and goes on through
every other such port (R32, R238). The model's own choices behind it: log entries 22, 26, 42. -/
def Obligations.HoldRequestsSetFreezePoint : Prop :=
  (∀ (s : State) (g : Nat), g < 8 → s.rd SD_STATUS_RUNNING = 1 → s.sun.freeze = none → 4 ≤ s.lag g → ownHold s kindSkew = false →
    ∃ t, exec (.holdRequest 2 (skewSource g)) s = .next t ∧ t.sun.freeze = some (s.sun.ctr + 6)
      ∧ (∃ h, t.sun.holds = [h] ∧ h.origin = s.index ∧ h.seq = s.sun.nextSeq ∧ h.kind = kindSkew ∧ h.source = skewSource g
          ∧ h.reqAt = s.sun.tick + 2 ∧ h.relAt = none)
      ∧ t.rd SD_STATUS_SKEW_HOLD_SEEN = 1 ∧ t.rd SD_HOLD_COUNT_SKEW_HOLDS = (s.rd SD_HOLD_COUNT_SKEW_HOLDS + 1) % 2 ^ 16
      ∧ .freeze (s.sun.ctr + 6) ∈ t.out
      ∧ (∀ p ∈ s.machinePorts, portCarries s p = true → .hold p s.index s.sun.nextSeq kindSkew (skewSource g) ∈ t.out)
      ∧ t.tiles = s.tiles ∧ t.pvs = s.pvs ∧ t.fns = s.fns ∧ t.sun.ctr = s.sun.ctr ∧ t.sun.tick = s.sun.tick ∧ t.sun.lags = s.sun.lags)
  ∧ ∀ (s : State) (port origin seq kind source : Nat), port < 16 → origin < 4096 → seq < 65536 → kind < 5 → source < 4096 →
    s.sun.freeze = none → firstCopy s 1 origin seq = true →
    ∃ t, exec (.remoteHoldMessage port origin seq kind source) s = .next t ∧ t.sun.freeze = some (s.sun.ctr + 6)
      ∧ (∃ h, t.sun.holds = [h] ∧ h.origin = origin ∧ h.seq = seq ∧ h.kind = kind ∧ h.source = source ∧ h.reqAt = s.sun.tick ∧ h.relAt = none)
      ∧ .freeze (s.sun.ctr + 6) ∈ t.out
      ∧ (∀ p ∈ s.machinePorts, p ≠ port → portCarries s p = true → .hold p origin seq kind source ∈ t.out)
      ∧ firstCopy t 1 origin seq = false ∧ t.tiles = s.tiles ∧ t.pvs = s.pvs ∧ t.fns = s.fns ∧ t.reg = s.reg
      ∧ t.sun.ctr = s.sun.ctr ∧ t.sun.tick = s.sun.tick

/-- The stand and its end (R30, R32, R33): at F the Sundial domain stops; a region that reaches F is noted, and the eighth ends the skew holds of this die,
whose releases reach the root 2 tc later. A source of this die whose wait has ended sends its release, 2 tc from the root, on every port of the
machine that carries traffic; another module's release counts from its arrival and goes on through the other ports. Once every hold of the stand is
released and the moment of the resumption has come, every domain resumes with no lag, the held descriptors may issue, a hold that came after the
release's broadcast takes its own freeze point, and SD_LAST_HOLD holds the length of a hold that stood alone.
The model's own choices behind it: log entries 22, 26. -/
def Obligations.HoldsStandAndResume : Prop :=
  (∀ s : State, s.standing = true → s.sun.stopped = false → s.replay.marked = false →
    exec (.freezePointReached none) s = .next { s with sun := { s.sun with stopped := true, standAt := s.sun.tick } })
  ∧ (∀ (s : State) (g : Nat), g < 8 → s.sun.stopped = true → s.regionStands g = true → g ∉ s.sun.regionsAt → s.replay.marked = false →
    (s.sun.regionsAt.length < 7 → exec (.freezePointReached (some g)) s
      = .next { s with sun := { s.sun with regionsAt := s.sun.regionsAt ++ [g], lastAtF := s.sun.tick } })
    ∧ (s.sun.regionsAt.length = 7 → ∃ t, exec (.freezePointReached (some g)) s = .next t ∧ t.sun.regionsAt = s.sun.regionsAt ++ [g]
        ∧ t.sun.lastAtF = s.sun.tick ∧ t.sun.holds.length = s.sun.holds.length
        ∧ (∀ h ∈ t.sun.holds, h.kind = kindSkew → h.origin = s.index → h.relAt ≠ none)
        ∧ (∀ h ∈ s.sun.holds, h.relAt = none → h.kind = kindSkew → h.origin = s.index → { h with relAt := some (s.sun.tick + 2) } ∈ t.sun.holds
            ∧ ∀ p ∈ s.machinePorts, portCarries s p = true → .release p s.index h.seq s.sun.tick ∈ t.out)
        ∧ t.sun.freeze = s.sun.freeze ∧ t.sun.ctr = s.sun.ctr ∧ t.tiles = s.tiles ∧ t.pvs = s.pvs ∧ t.fns = s.fns ∧ t.reg = s.reg))
  ∧ (∀ (s : State) (seq : Nat) (h : Hold), seq < 65536 →
    (s.sun.holds ++ s.sun.later).find? (fun h => h.origin == s.index && h.seq == seq && h.relAt == none) = some h →
    (h.kind = kindMayWait ∧ headMet (s.tile (s.phys h.source)) = true)
      ∨ (h.kind = kindSched ∧ (s.port h.source).downHold ≠ some h.seq ∧ lateWhole (s.port h.source) h.seq = true)
      ∨ (h.kind = kindSkew ∧ s.sun.regionsAt.length = 8) ∨ (h.kind = kindOverrun ∧ moduleReady s = true) →
    ∃ t, exec (.holdRelease seq) s = .next t
      ∧ t.sun.holds = s.sun.holds.map (fun x => if x.origin = s.index ∧ x.seq = seq ∧ x.relAt = none then { x with relAt := some (s.sun.tick + 2) } else x)
      ∧ t.sun.later = s.sun.later.map (fun x => if x.origin = s.index ∧ x.seq = seq ∧ x.relAt = none then { x with relAt := some (s.sun.tick + 2) } else x)
      ∧ (∀ p ∈ s.machinePorts, portCarries s p = true → .release p s.index seq s.sun.tick ∈ t.out)
      ∧ t.sun.freeze = s.sun.freeze ∧ t.sun.ctr = s.sun.ctr ∧ t.sun.tick = s.sun.tick ∧ t.tiles = s.tiles ∧ t.pvs = s.pvs ∧ t.fns = s.fns ∧ t.reg = s.reg)
  ∧ (∀ (s : State) (port origin seq stamp : Nat), port < 16 → origin < 4096 → seq < 65536 → stamp < 268435456 → firstCopy s 2 origin seq = true →
    ∃ t, exec (.remoteReleaseMessage port origin seq stamp) s = .next t
      ∧ t.sun.holds = s.sun.holds.map (fun x => if x.origin = origin ∧ x.seq = seq ∧ x.relAt = none then { x with relAt := some s.sun.tick } else x)
      ∧ t.sun.later = s.sun.later.map (fun x => if x.origin = origin ∧ x.seq = seq ∧ x.relAt = none then { x with relAt := some s.sun.tick } else x)
      ∧ (∀ p ∈ s.machinePorts, p ≠ port → portCarries s p = true → .release p origin seq stamp ∈ t.out) ∧ firstCopy t 2 origin seq = false
      ∧ t.sun.freeze = s.sun.freeze ∧ t.sun.ctr = s.sun.ctr ∧ t.sun.tick = s.sun.tick ∧ t.tiles = s.tiles ∧ t.pvs = s.pvs ∧ t.fns = s.fns ∧ t.reg = s.reg)
  ∧ ∀ (s : State) (r : Nat), resumeAt s.sun = some r → r ≤ s.sun.tick →
    ∃ t, exec .holdResume s = .next t ∧ (∀ g, t.lag g = 0) ∧ t.sun.holds = s.sun.later ∧ t.sun.later = [] ∧ t.sun.stopped = false
      ∧ t.sun.regionsAt = [] ∧ .resume s.sun.ctr ∈ t.out
      ∧ (s.sun.later = [] → t.sun.freeze = none ∧ t.standing = false)
      ∧ (s.sun.later ≠ [] → t.sun.freeze = some (s.sun.ctr + 6) ∧ .freeze (s.sun.ctr + 6) ∈ t.out)
      ∧ t.tiles = s.tiles.map (fun x => (x.1, freeHeld s.sun.holds s.index x.2))
      ∧ (∀ h, s.sun.holds = [h] → h.recorded = false → t.rd SD_HOLD_COUNT_HOLDS = (s.rd SD_HOLD_COUNT_HOLDS + 1) % 2 ^ 32
          ∧ t.rd SD_LAST_HOLD_LENGTH = min (holdLength s.sun h) 0xFFFFFF ∧ t.rd SD_LAST_HOLD_KIND = h.kind % 8
          ∧ t.rd SD_LAST_HOLD_REMOTE = ofBool (h.origin != s.index))
      ∧ (∀ f : Fld, f.off ≠ SD_HOLD_COUNT_OFF → f.off ≠ SD_LAST_HOLD_OFF → t.rd f = s.rd f)
      ∧ t.sun.ctr = s.sun.ctr ∧ t.sun.tick = s.sun.tick ∧ t.die = s.die ∧ t.pvs = s.pvs ∧ t.fns = s.fns

/-- A droop stretch (R36, R38) of a running region that does not stand is counted and adds one to the region's lag; the stop of a frequency change
ends with every count at zero and every lag cleared (R39). The model's own choices behind it: log entry 19. -/
def Obligations.StretchesAndFrequencyStop : Prop :=
  (∀ (s : State) (g : Nat), g < 8 → SMap.look s.sun.gaps g 0 = 0 → s.rd SD_STATUS_FREQ_STOP = 0 → s.rd SD_STATUS_RUNNING = 1 →
    s.regionStands g = false →
    ∃ t, exec (.droopStretch g) s = .next t ∧ t.lag g = s.lag g + 1
      ∧ t.rd (SD_STRETCH_CNT_STRETCHES g) = (s.rd (SD_STRETCH_CNT_STRETCHES g) + 1) % 2 ^ 32
      ∧ (∀ x, x ≠ g → t.lag x = s.lag x) ∧ (s.lag g + 1 ≠ 4 → t.sun.holds = s.sun.holds ∧ t.sun.freeze = s.sun.freeze)
      ∧ t.tiles = s.tiles ∧ t.pvs = s.pvs ∧ t.fns = s.fns ∧ t.sun.ctr = s.sun.ctr)
  ∧ ∀ s : State, s.rd SD_STATUS_FREQ_STOP = 1 →
    ∃ t, exec .frequencyStopEnd s = .next t ∧ t.rd SD_STATUS_FREQ_STOP = 0 ∧ t.sun.tick = 0 ∧ t.sun.ctr = 0 ∧ (∀ g, t.lag g = 0)
      ∧ t.rd SD_STATUS_RUNNING = s.rd SD_STATUS_RUNNING ∧ t.frame = s.frame ∧ t.tiles = s.tiles ∧ t.die = s.die ∧ t.pvs = s.pvs ∧ t.fns = s.fns

/-- The committing tick of a module that is ready (R27, R34): the frame number goes up by one, every frame counter and the tick timer return to zero, no
region lags, the frame's replay attempts are forgotten, and every port of the machine that carries traffic sends its time. A tile that runs or waits
for its first tick may issue from frame cycle 2 on, from where its frame-end link has put its head, with its state copied for a replay (R56, R66, R381).
A module that is not ready asks for a hold of KIND 4 instead (R35). The model's own choices behind it: log entry 26. -/
def Obligations.FrameTickBeginsFrame : Prop :=
  (∀ s : State, s.rd SD_STATUS_RUNNING = 1 → s.rd SD_STATUS_FREQ_STOP = 0 → noHold s = true → tickDue s ≤ s.sun.tick → moduleReady s = true →
    ∃ t, exec .frameTick s = .next t ∧ t.frame = (s.frame + 1) % 2 ^ 64 ∧ t.sun.tick = 0 ∧ t.sun.ctr = 0 ∧ (∀ g, t.lag g = 0) ∧ t.sun.stopped = false
      ∧ t.sun.freeze = none ∧ t.replay.attempts = 0 ∧ (∀ p ∈ t.machinePorts, portCarries t p = true → .time p 0 ∈ t.out)
      ∧ t.sun.time = s.sun.time ∧ t.gate = s.gate ∧ t.mod = s.mod ∧ t.rows = s.rows)
  ∧ (∀ (f c : Nat) (t : Tile), epochBegins f t = false → t.seq.run = .waitTick ∨ t.seq.run = .running →
    (t.ticked f c).seq.run = .running ∧ (t.ticked f c).seq.ready = 2 ∧ (t.ticked f c).seq.atEnd = false ∧ (t.ticked f c).seq.head = t.seq.head
      ∧ (t.ticked f c).seq.window = t.seq.window ∧ (t.ticked f c).tick.head = t.seq.head ∧ (t.ticked f c).tick.tc = t.tc
      ∧ (t.ticked f c).tc = t.tc ∧ (t.ticked f c).sp = t.sp ∧ (t.ticked f c).mx = t.mx ∧ (t.ticked f c).vx = t.vx ∧ (t.ticked f c).reg = t.reg)
  ∧ ∀ s : State, s.rd SD_STATUS_RUNNING = 1 → s.rd SD_STATUS_FREQ_STOP = 0 → noHold s = true → tickDue s ≤ s.sun.tick → moduleReady s = false →
    ∃ t, exec .frameTick s = .next t ∧ t.sun.freeze = some (s.sun.ctr + 6) ∧ t.rd SD_STATUS_OVERRUN_SEEN = 1
      ∧ (∃ h, t.sun.holds = [h] ∧ h.origin = s.index ∧ h.kind = kindOverrun ∧ h.reqAt = s.sun.tick + 2 ∧ h.relAt = none)
      ∧ t.frame = s.frame ∧ t.sun.tick = s.sun.tick ∧ t.sun.ctr = s.sun.ctr ∧ t.tiles = s.tiles ∧ t.pvs = s.pvs ∧ t.fns = s.fns

/-- Alignment (R41, R42): the edge on SYNC_IN, sampled on SYSREF156, is the epoch of a module that is aligning. The first time message of an alignment
sets the tick timer of a module that is not the root to the root's time, which is the sample with the link's delay, and goes on through every other
port of the machine. A module whose starting moment has come and that has an epoch becomes ALIGNED and RUNNING with frame 0 at cycle 0, its counts at
zero and its links carrying machine traffic (R43, R241). An aligned module that finds its neighbour's tick within 8 ns only notes it.
The model's own choices behind it: log entries 22, 44. -/
def Obligations.AlignmentAndTime : Prop :=
  (∀ s : State, aligning s = true →
    exec .syncInPulse s = .next { s with sun := { s.sun with epochMark := some (ceilDiv s.sun.time refPeriod * refPeriod, 0) } })
  ∧ (∀ (s : State) (port origin sample : Nat), port < 16 → origin < 4096 → sample < 2 ^ 64 → s.rd SD_STATUS_ALIGNED = 0 → aligning s = true →
    s.rd SD_MACHINE_ROOT = 0 → s.sun.epochMark = none →
    ∃ t, exec (.timeMessage port origin sample) s = .next t ∧ t.sun.tick = sample + s.rd (FB_LINK_HP_DELAY port)
      ∧ t.sun.epochMark = some (s.sun.time, sample + s.rd (FB_LINK_HP_DELAY port))
      ∧ (∀ p ∈ s.machinePorts, p ≠ port → portCarries s p = true → .time p (sample + s.rd (FB_LINK_HP_DELAY port)) ∈ t.out)
      ∧ t.sun.ctr = s.sun.ctr ∧ t.sun.time = s.sun.time ∧ t.reg = s.reg ∧ t.tiles = s.tiles ∧ t.pvs = s.pvs ∧ t.fns = s.fns)
  ∧ (∀ (s : State) (m : Nat) (e : Nat × Nat), s.sun.startAt = some m → m ≤ s.sun.time → s.sun.epochMark = some e → s.rd SD_STATUS_RUNNING = 0 →
    ∃ t, exec .frameZeroStart s = .next t ∧ t.rd SD_STATUS_ALIGNED = 1 ∧ t.rd SD_STATUS_RUNNING = 1 ∧ t.frame = 0 ∧ t.sun.tick = 0
      ∧ t.sun.ctr = 0 ∧ (∀ g, t.lag g = 0) ∧ t.sun.startAt = none ∧ t.rd SD_HOLD_COUNT_HOLDS = 0 ∧ t.rd SD_HOLD_TC_HELD_TC = 0
      ∧ (∀ g, g < 8 → t.rd (SD_STRETCH_CNT_STRETCHES g) = 0) ∧ (∀ p, p < 16 → t.regW (FB_TRAFFIC_TX_OFF p) = 0 ∧ t.regW (FB_TRAFFIC_RX_OFF p) = 0)
      ∧ (∀ p ∈ s.machinePorts, (t.port p).cut = false ∧ t.rd (FB_STATUS_PEER_MODULE p) = (s.port p).peer % 2 ^ 12)
      ∧ t.tiles = s.tiles ∧ t.die.hbm = s.die.hbm ∧ t.pvs = s.pvs)
  ∧ ∀ (s : State) (port origin sample : Nat), port < 16 → origin < 4096 → sample < 2 ^ 64 → s.rd SD_STATUS_ALIGNED = 1 →
    tickDistance s.frameLen (sample + s.rd (FB_LINK_HP_DELAY port)) s.sun.tick ≤ alignLimit (s.rd SD_CONFIG_BIN) →
    ∃ t, exec (.timeMessage port origin sample) s = .next t ∧ t.sun = { s.sun with neighbours := SMap.put s.sun.neighbours port sample }
      ∧ t.reg = s.reg ∧ t.tiles = s.tiles ∧ t.pvs = s.pvs ∧ t.fns = s.fns ∧ t.out = s.out ∧ t.die.transfers = s.die.transfers
      ∧ t.die.ctls = s.die.ctls

-- the sequencer

/-- A descriptor that heads the main stream issues to its unit when both waits were met at the end of the previous tc, the window has room and its issue
cycle has come (R46, R49, R50, R51, R52, R54): it enters the window, the head moves on, MAIN_ISSUED counts it, and nothing else of the module changes but
what the fetch of the tc brings into the buffers. The model's own choices behind it: log entry 28. -/
def Obligations.DescriptorsIssue : Prop :=
  ∀ (s s1 : State) (tl p : Nat) (chk : Check) (cur : FetchLine) (rest : List FetchLine) (d : Desc), tl < 256 → p = s.phys tl →
    seqActive s p = true → s1 = fillBoth s p chk → (s1.tile p).seq.mainBuf = cur :: rest → d = cur.at (s1.tile p).seq.head →
    (s1.tile p).seq.atEnd = false → (s1.tile p).seq.holdSeq = none → cur.outside = false →
    fetchOk s1.frameLen false (s1.tile p).seq.head d = true → d.isLink = false →
    (∀ w ∈ [(d.waitA, d.valueA), (d.waitB, d.valueB)], 64 ≤ w.1 ∨ w.2 ≤ (s1.tile p).tcSeen w.1) →
    (s1.tile p).seq.inFlight false < 32 - (s1.tile p).entries → (s1.tile p).seq.ready ≤ s1.now p →
    (d.issueCycle = 0 ∨ d.issueCycle = s1.now p) → firstSlip (s1.now p) true (buffered (s1.tile p).seq.head (cur :: rest)) = none →
    (∀ b, handlerNow s1 p ≠ .range b) → handlerNow s1 p ≠ .broken →
    ∃ x : Tile, exec (.descriptorIssue tl chk) s = .next (s1.setTile p { x with seq := { x.seq with
        window := (s1.tile p).seq.window ++ [WinEntry.new false (s1.tile p).seq.head d (16777216 * s1.frame + s1.now p)],
        head := (s1.tile p).seq.head + 1, issuedAt := some (s1.now p), holdSeq := none, holdReleased := false } })
      ∧ x = (s1.tile p).wr TL_ISSUE_CNT_MAIN_ISSUED ((s1.tile p).rd TL_ISSUE_CNT_MAIN_ISSUED + 1)

/-- A slip (R57): a buffered descriptor whose issue cycle has passed raises SLIP with its address, the tile freezes, and nothing issues; so does a head
whose issue cycle lies behind. The model's own choices behind it: log entries 28, 41. -/
def Obligations.SlipsFreezeTheTile : Prop :=
  (∀ (s s1 : State) (tl p a : Nat) (chk : Check), tl < 256 → p = s.phys tl → seqActive s p = true → s1 = fillBoth s p chk →
    mainNow s1 p = .slip a → (∀ b, handlerNow s1 p ≠ .range b) → handlerNow s1 p ≠ .broken →
    (s1.tile p).rd TL_SEQ_CONFIG_ENABLE = 1 → (s1.tile p).regW TL_FAULT_OFF = 0 →
    ∃ t, exec (.descriptorIssue tl chk) s = .next t ∧ (t.tile p).rd (faultField faultSlip) = 1 ∧ (t.tile p).seq.run = .frozen
      ∧ (t.tile p).rd TL_FAULT_INFO_KIND = faultSlip ∧ (t.tile p).rd TL_FAULT_INFO_ADDRESS = a % 2 ^ 15
      ∧ (t.tile p).rd TL_FAULT_INFO_STREAM = 0 ∧ (t.tile p).rd TL_FAULT_INFO_CYCLE = s1.now p % 2 ^ 24
      ∧ (t.tile p).seq.window = (s1.tile p).seq.window ∧ (t.tile p).seq.head = (s1.tile p).seq.head ∧ (t.tile p).tc = (s1.tile p).tc
      ∧ (t.tile p).sp = (s1.tile p).sp ∧ (∀ x, x ≠ p → t.tile x = s1.tile x) ∧ t.reg = s1.reg ∧ t.pvs = s1.pvs ∧ t.fns = s1.fns
      ∧ t.die.reports = s1.die.reports ++ [{ p := p, kind := 0 }])
  ∧ ∀ (t : Tile) (frameLen now : Nat) (cur : FetchLine) (rest : List FetchLine) (d : Desc), t.seq.atEnd = false → t.seq.holdSeq = none →
    t.seq.holdReleased = false → cur.line = t.seq.head / 8 → cur.descs[t.seq.head % 8]? = some d → cur.outside = false →
    fetchOk frameLen false t.seq.head d = true → d.broken t = false → d.issueCycle ≠ 0 → d.issueCycle < now →
    mainTurn t frameLen now (cur :: rest) = .slip t.seq.head

/-- Links (R56, R152): an ordinary link moves its stream's head to its target, from which the stream may issue 2 tc later; a frame-end link
stands at its target until the next frame; a handler-return link ends its list, moves RPTR past the message and gives its credits back. Each
retires at its issue with its signal, no unit sees it, and only the fetch of the tc changes anything else. -/
def Obligations.LinksMoveTheHead : Prop :=
  (∀ (s s1 : State) (tl p v : Nat) (cur : FetchLine) (rest : List FetchLine) (d : Desc), tl < 256 → p = s.phys tl → seqActive s p = true →
    s1 = fillBoth s p .clean → (s1.tile p).seq.mainBuf = cur :: rest → d = cur.at (s1.tile p).seq.head → (s1.tile p).seq.atEnd = false →
    (s1.tile p).seq.holdSeq = none → cur.outside = false → fetchOk s1.frameLen false (s1.tile p).seq.head d = true → d.isLink = true →
    d.variant = v → v < 2 → d.met (s1.tile p) = true → (v = 1 → (s1.tile p).seq.inFlight false = 0) → (s1.tile p).seq.ready ≤ s1.now p →
    (d.issueCycle = 0 ∨ d.issueCycle = s1.now p) → firstSlip (s1.now p) true (buffered (s1.tile p).seq.head (cur :: rest)) = none →
    (∀ b, handlerNow s1 p ≠ .range b) → handlerNow s1 p ≠ .broken →
    ∃ x : Tile, exec (if v = 0 then .linkOrdinary tl false else .linkFrameEnd tl) s
        = .next (tcAddField ({ s1 with replay := { s1.replay with idle := 0 } }.setTile p { x with seq := { x.seq with
            head := d.target, mainBuf := (s1.tile p).seq.mainBuf.drop 1, ready := s1.now p + 2, atEnd := v == 1, issuedAt := some (s1.now p),
            holdSeq := none, holdReleased := false } }) p d.signal d.signalInc 0 (s1.tile p).seq.head)
      ∧ x = (s1.tile p).wr TL_ISSUE_CNT_MAIN_ISSUED ((s1.tile p).rd TL_ISSUE_CNT_MAIN_ISSUED + 1))
  ∧ (∀ (s s1 : State) (tl p a : Nat) (h : HandlerRun) (d : Desc), tl < 256 → p = s.phys tl → seqActive s p = true → s1 = fillBoth s p .clean →
    (s1.tile p).seq.handler = some h → mainNow s1 p = .wait → handlerNow s1 p = .issue a d → d.isLink = true → d.variant = 0 →
    ∃ x : Tile, exec (.linkOrdinary tl true) s
        = .next (tcAddField ({ s1 with replay := { s1.replay with idle := 0 } }.setTile p { x with seq := { x.seq with
            handler := some { h with head := d.target, ready := s1.now p + 2 }, hBuf := (s1.tile p).seq.hBuf.drop 1, issuedAt := some (s1.now p) } })
            p d.signal d.signalInc 1 a)
      ∧ x = (s1.tile p).wr TL_ISSUE_CNT_HANDLER_ISSUED ((s1.tile p).rd TL_ISSUE_CNT_HANDLER_ISSUED + 1))
  ∧ ∀ (s s1 : State) (tl p a : Nat) (h : HandlerRun) (d : Desc), tl < 256 → p = s.phys tl → seqActive s p = true → s1 = fillBoth s p .clean →
    (s1.tile p).seq.handler = some h → mainNow s1 p = .wait → handlerNow s1 p = .issue a d → d.isLink = true → d.variant = 2 →
    ∃ x : Tile, exec (.linkHandlerReturn tl) s
        = .next (tcAddField (returnCredits ({ s1 with replay := { s1.replay with idle := 0 } }.setTile p { x with seq := { x.seq with
            handler := none, hBuf := [], issuedAt := some (s1.now p) } }) p tl h.entry.rchan (h.entry.n + h.entry.pad)) p d.signal d.signalInc 1 a)
      ∧ x = ((s1.tile p).wr TL_ISSUE_CNT_HANDLER_ISSUED ((s1.tile p).rd TL_ISSUE_CNT_HANDLER_ISSUED + 1)).wr
          (TW_RECV_STATE_RPTR h.entry.rchan) ((h.entry.pos + h.entry.n) % (s1.tile p).rd (TW_RECV_CFG_SLOTS h.entry.rchan))

/-- A descriptor whose work is done retires (R55, R62, R116): it leaves the window, and its SIGNAL counter takes SIGNAL_INC, held at 0xFFFF_FFFF; the
other counters, the memories, the engines, the other tiles and the module's registers are as they were. The handler stream takes the oldest queued list
of a running tile (R64, R216). -/
def Obligations.RetirementsAndHandlerStarts : Prop :=
  (∀ (s : State) (tl p i n : Nat) (e : WinEntry), tl < 256 → p = s.phys tl → (s.tile p).seq.window[i]? = some e → e.phase = .running →
    e.span ≤ e.pos → s.tileStands p = false → e.desc.signal = n → n < 64 → e.desc.opcode ≠ opOyTerrace →
    ∃ t, exec (.descriptorRetire tl i) s = .next t ∧ (t.tile p).seq.window = (s.tile p).seq.window.eraseIdx i
      ∧ (t.tile p).tcVal n = min ((s.tile p).tcVal n + e.desc.signalInc) 0xFFFFFFFF
      ∧ (∀ m, m ≠ n → (t.tile p).tcVal m = (s.tile p).tcVal m) ∧ (∀ x, x ≠ p → t.tile x = s.tile x)
      ∧ (t.tile p).sp = (s.tile p).sp ∧ (t.tile p).tr = (s.tile p).tr ∧ (t.tile p).mx = (s.tile p).mx ∧ (t.tile p).vx = (s.tile p).vx
      ∧ t.reg = s.reg ∧ t.pvs = s.pvs ∧ t.fns = s.fns ∧ t.sun = s.sun ∧ t.out = s.out)
  ∧ ∀ (s : State) (tl p : Nat) (chk : Check) (e : HqEntry) (rest : List HqEntry), tl < 256 → p = s.phys tl → (s.tile p).seq.hq = e :: rest →
    (s.tile p).seq.handler = none → (s.tile p).entries ≠ 0 → (s.tile p).seq.run = .running → (s.tile p).rd TL_SEQ_CONFIG_ENABLE = 1 →
    ∃ t b, exec (.handlerListStart tl chk) s = .next t
      ∧ t = (fillBuf s p e.handler [] chk).1.setTile p { (fillBuf s p e.handler [] chk).1.tile p with
          seq := { ((fillBuf s p e.handler [] chk).1.tile p).seq with
            handler := some { entry := e, head := e.handler, ready := s.now p + (if (s.tile p).seq.issuedAt = some (s.now p) then 2 else 1) },
            hq := rest, hBuf := b } }

/-- A tile's start (R66) clears its counters, engines and queues, points the main stream at START and waits for the tick; a start while ENABLE is 1
changes nothing (R67); its stop ends issue, gives up a hold that its may-wait head has asked for, and with an empty window the tile is idle. Memories
keep their contents. The model's own choices behind it: log entries 5, 41. -/
def Obligations.TilesStartAndStop : Prop :=
  (∀ (s : State) (p start handlers : Nat), p < 272 → (s.tile p).rd TL_SEQ_CONFIG_ENABLE = 0 →
    ∃ t, exec (.contextStart p start handlers) s = .next t ∧ t = s.setTile p (t.tile p) ∧ (t.tile p).rd TL_SEQ_CONFIG_ENABLE = 1
      ∧ (t.tile p).rd TL_SEQ_CONFIG_START = start % 2 ^ 15 ∧ (t.tile p).rd TL_SEQ_CONFIG_HANDLER_ENTRIES = handlers % 2 ^ 4
      ∧ (t.tile p).seq.run = .waitTick ∧ (t.tile p).seq.head = start % 0x8000 ∧ (∀ n, (t.tile p).tcVal n = 0) ∧ (t.tile p).orphaned = 0
      ∧ (t.tile p).mx = Mx.reset ∧ (t.tile p).vx = Vx.reset ∧ (t.tile p).seq.hq = [] ∧ (t.tile p).seq.handler = none
      ∧ (t.tile p).seq.mainBuf = [] ∧ (t.tile p).sp = (s.tile p).sp ∧ (t.tile p).tr = (s.tile p).tr ∧ (t.tile p).rd TL_ISSUE_CNT_MAIN_ISSUED = 0)
  ∧ (∀ (s : State) (p start handlers : Nat), p < 272 → (s.tile p).rd TL_SEQ_CONFIG_ENABLE = 1 →
    exec (.contextStart p start handlers) s = .next s)
  ∧ (∀ (s : State) (p : Nat), p < 272 → (s.tile p).seq.holdSeq = none →
    ∃ t, exec (.tileStop p) s = .next t ∧ t = s.setTile p (t.tile p) ∧ (t.tile p).rd TL_SEQ_CONFIG_ENABLE = 0
      ∧ (t.tile p).seq.window = (s.tile p).seq.window ∧ ((s.tile p).seq.window = [] → (t.tile p).seq.run = .idle)
      ∧ ((s.tile p).seq.window ≠ [] → (t.tile p).seq.run = (s.tile p).seq.run)
      ∧ (t.tile p).sp = (s.tile p).sp ∧ (t.tile p).tr = (s.tile p).tr ∧ (t.tile p).tc = (s.tile p).tc
      ∧ (t.tile p).rd TL_SEQ_CONFIG_START = (s.tile p).rd TL_SEQ_CONFIG_START)
  ∧ ∀ (s : State) (p n : Nat), p < 272 → (s.tile p).seq.holdSeq = some n →
    ∃ t, exec (.tileStop p) s = .next t ∧ (t.tile p).rd TL_SEQ_CONFIG_ENABLE = 0 ∧ (t.tile p).seq.holdSeq = none
      ∧ (∀ x ∈ t.sun.holds, x.origin = s.index → x.seq = n → x.relAt ≠ none)
      ∧ (∀ q ∈ s.machinePorts, portCarries s q = true → .release q s.index n s.sun.tick ∈ t.out)
      ∧ (t.tile p).sp = (s.tile p).sp ∧ (t.tile p).tr = (s.tile p).tr ∧ (t.tile p).tc = (s.tile p).tc ∧ (∀ x, x ≠ p → t.tile x = s.tile x)
      ∧ t.reg = s.reg ∧ t.pvs = s.pvs ∧ t.fns = s.fns

/-- A write of TL_TC_ADD (R61, R62): the Warden's adds to the counter, at most to 0xFFFF_FFFF, and a value above 0xFFFF_FF00 is a counter-limit fault that
freezes the tile; the comparators see the new value from the next tc on (R52). The store of the Lodge core of the tile's cluster enters its buffer of
8 stores, and waits where that is full (R244, R248); a store at the buffer's head adds as the Warden's write does, unless the module stands in a replay
(R380). A host's write is ignored (R420). The model's own choices behind it: log entry 46. -/
def Obligations.CounterAdds : Prop :=
  (∀ (s : State) (p n inc : Nat), p < 272 → n < 64 → inc < 2 ^ 16 → 0 < inc →
    ∃ t, exec (.tcAdd .warden p n inc) s = .next t ∧ (t.tile p).tcVal n = min ((s.tile p).tcVal n + inc) 0xFFFFFFFF
      ∧ (∀ m, m ≠ n → (t.tile p).tcVal m = (s.tile p).tcVal m) ∧ (∀ m, (t.tile p).tcSeen m = (s.tile p).tcSeen m)
      ∧ (∀ x, x ≠ p → t.tile x = s.tile x)
      ∧ (t.tile p).sp = (s.tile p).sp ∧ (t.tile p).tr = (s.tile p).tr ∧ (t.tile p).seq.window = (s.tile p).seq.window
      ∧ ((s.tile p).tcVal n + inc ≤ 0xFFFFFF00 → t = s.setTile p (t.tile p) ∧ (t.tile p).seq = (s.tile p).seq ∧ (t.tile p).reg = (s.tile p).reg)
      ∧ (0xFFFFFF00 < (s.tile p).tcVal n + inc → (t.tile p).rd (faultField faultTcLimit) = 1 ∧ (t.tile p).seq.run = .frozen))
  ∧ (∀ (s : State) (k tl p n inc : Nat), k < 16 → p < 272 → n < 64 → inc < 2 ^ 16 → s.logical p = some tl → tl ∈ tilesOf k →
    ((s.lodge k).stores.length < 8 → exec (.tcAdd (.lodge k) p n inc) s
        = .next (s.setLodge k { s.lodge k with stores := (s.lodge k).stores ++ [.add tl n inc] }))
    ∧ (8 ≤ (s.lodge k).stores.length → exec (.tcAdd (.lodge k) p n inc) s = .next s))
  ∧ (∀ (s : State) (k tl n inc : Nat) (rest : List Store), (s.lodge k).stores = .add tl n inc :: rest →
    (s.replay.standing = true → drainStore s k = s)
    ∧ (s.replay.standing = false → drainStore s k = tcAdd (s.setLodge k { s.lodge k with stores := rest }) (s.phys tl) n inc 2 0))
  ∧ ∀ (s : State) (f : Func) (p n inc : Nat), fnOk f = true → p < 272 → n < 64 → inc < 2 ^ 16 → exec (.tcAdd (.host f) p n inc) s = .next s


-- the matrix engine

/-- MX_LOAD (R120, R121): it starts when passes on its stage have streamed their last rows, loads into it have retired and other loads have read their
last beats; it holds the port for the block's beats and retires T_load tc after its start. In each tc it reads a beat of 512 bytes as the Terrace stood
at the end of the previous tc, and with its last tc the stage takes the format and the block's bytes; nothing else of the tile's data changes.
The model's own choices behind it: log entry 18. -/
def Obligations.MatrixLoads : Prop :=
  (∀ (s : State) (tl p i : Nat) (e : WinEntry) (d : Desc) (chk : Check), tl < 256 → p = s.phys tl → nextOf s tl unitMatrix [opMxLoad] = some (i, e) →
    d = e.desc → s.tileStands p = false →
    (∀ x ∈ (s.tile p).seq.window.take i, x.unit = unitMatrix → (x.desc.opcode = opMxPass → x.desc.stage = d.stage → x.held ≤ x.pos)
      ∧ (x.desc.opcode = opMxLoad → x.held ≤ x.pos ∧ (x.desc.stage = d.stage → x.span ≤ x.pos))) →
    exec (.mxLoad tl chk) s = .next (begun s p i .running chk Stage.reset 0) ∧ e.held = fmtBeats d.loadFmt ∧ e.span = fmtLoad d.loadFmt)
  ∧ (∀ (s : State) (p i k : Nat) (e x : WinEntry), (s.tile p).seq.window[i]? = some x → e.chk = .clean → k < 512 →
    ∃ y, ((loadBeat s p i e).tile p).seq.window[i]? = some y ∧ y.rows.length = x.rows.length + 1
      ∧ (y.rows.getLastD []).getD k 0 = (s.tile p).trSeen.rd (512 * (e.desc.beat + e.pos) + k)
      ∧ ((loadBeat s p i e).tile p).sp = (s.tile p).sp ∧ SameEngines (s.tile p) ((loadBeat s p i e).tile p))
  ∧ ∀ (s : State) (p : Nat) (e : WinEntry) (d : Desc) (t : State), d = e.desc → t = loadDone s p e →
    ((t.tile p).mx.stage d.stage).fmt = d.loadFmt
    ∧ (∀ k, k < fmtBytes d.loadFmt → ((t.tile p).mx.stage d.stage).blk.rd k = e.rows.flatten.getD k 0)
    ∧ (∀ n, n < 2 → d.stage < 2 → n ≠ d.stage → (t.tile p).mx.stage n = (s.tile p).mx.stage n) ∧ (t.tile p).mx.acc = (s.tile p).mx.acc
    ∧ (t.tile p).sp = (s.tile p).sp ∧ (t.tile p).tr = (s.tile p).tr ∧ (t.tile p).vx = (s.tile p).vx ∧ (t.tile p).tc = (s.tile p).tc
    ∧ (t.tile p).reg = (s.tile p).reg ∧ (∀ x, x ≠ p → t.tile x = s.tile x) ∧ t.die = s.die ∧ SameModule s t

/-- MX_PASS (R83, R85, R87, R122 to R124): it starts when earlier passes and moves have streamed and loads into its stage have completed, names its
layout in TL_MX_STATUS, streams a row every t_row tc and retires λ + 1 tc after its last row. It reads an activation row and counts it; λ tc later every
accumulator entry of that row takes the sum of products of the row and the block row, with its old value where ACCUMULATE is set; every other entry, the
vector registers and the memories keep their values. The model's own choices behind it: log entry 18. -/
def Obligations.MatrixPasses : Prop :=
  (∀ (s : State) (tl p i : Nat) (e : WinEntry) (d : Desc) (g : Stage) (chk : Check), tl < 256 → p = s.phys tl →
    nextOf s tl unitMatrix [opMxPass] = some (i, e) → d = e.desc → g = (s.tile p).mx.stage d.stage → s.tileStands p = false →
    (∀ x ∈ (s.tile p).seq.window.take i, x.unit = unitMatrix →
      if x.desc.opcode = opMxLoad then x.desc.stage = d.stage → x.span ≤ x.pos else x.held ≤ x.pos) →
    (g.fmt = 6 → d.accRow + d.rows ≤ 128) → (g.fmt = 3 → d.mxSpBase % 128 = 0 ∧ passStride d g.fmt % 128 = 0) →
    spFault (s.tile p) s.frame d.frameCarried false [passReads d g.fmt] [] = none →
    exec (.mxPass tl chk) s = .next ((begun s p i .running chk g 0).setTile p (((begun s p i .running chk g 0).tile p).wr TL_MX_STATUS_ACC_MXFP4
        (if g.fmt = 6 then 1 else 0)))
      ∧ ({ e with stage := g } : WinEntry).held = d.rows * fmtRow g.fmt
      ∧ ({ e with stage := g } : WinEntry).span = (d.rows - 1) * fmtRow g.fmt + fmtLat g.fmt + 1)
  ∧ (∀ (s : State) (p i a k : Nat) (e x : WinEntry) (t : State), (s.tile p).seq.window[i]? = some x → e.chk = .clean → t = passRead s p i e →
    a = e.desc.mxSpBase + e.pos / fmtRow e.stage.fmt * passStride e.desc e.stage.fmt → k < fmtRowBytes e.stage.fmt →
    ∃ y, (t.tile p).seq.window[i]? = some y ∧ y.rows.length = x.rows.length + 1 ∧ (y.rows.getLastD []).getD k 0 = (s.tile p).spSeen.rd (a + k)
      ∧ (t.tile p).rd TL_MX_STATS_ROWS = ((s.tile p).rd TL_MX_STATS_ROWS + 1) % 2 ^ 32
      ∧ (t.tile p).sp = (s.tile p).sp ∧ SameEngines (s.tile p) (t.tile p))
  ∧ ∀ (s : State) (p i r : Nat) (e x : WinEntry) (d : Desc) (g : Stage) (row : List Byte) (rest : List (List Byte)) (t : State),
    (s.tile p).seq.window[i]? = some x → x.rows = row :: rest → d = e.desc → g = e.stage → r = d.accRow + (e.pos - fmtLat g.fmt) / fmtRow g.fmt →
    t = passWrite s p i e →
    (∀ n, n < fmtN g.fmt → SMap.look (t.tile p).mx.acc (accIndex g.fmt r n) 0
        = w32 (mxEntry (activations g.fmt d.actE5m2 row) (weights g n)
            (if d.accumulate then some (dec32 (SMap.look (s.tile p).mx.acc (accIndex g.fmt r n) 0).toNat) else none)).1)
    ∧ (∀ k, (∀ n, n < fmtN g.fmt → k ≠ accIndex g.fmt r n) → SMap.look (t.tile p).mx.acc k 0 = SMap.look (s.tile p).mx.acc k 0)
    ∧ (t.tile p).mx.st0 = (s.tile p).mx.st0 ∧ (t.tile p).mx.st1 = (s.tile p).mx.st1 ∧ (t.tile p).sp = (s.tile p).sp
    ∧ (t.tile p).tr = (s.tile p).tr ∧ (t.tile p).vx = (s.tile p).vx ∧ (t.tile p).tc = (s.tile p).tc
    ∧ (∀ x, x ≠ p → t.tile x = s.tile x) ∧ t.die = s.die ∧ SameModule s t

/-- round_fp32_sat (R84), for the exact real (−1)^neg × m × 2^e: an exact zero is +0.0; any other is the FP32 number of its sign whose magnitude is
nearest, and the even one of two that are equally near, with the largest finite one where the rounded magnitude would exceed it, which alone
saturates. A code below 0x7F80_0000 is its magnitude: code × 2^−149 for a subnormal, and with the hidden bit above; both sides are compared in units
of 2^−149, or of 2^e where that is finer. -/
def Obligations.ExactSumsRoundOnce : Prop :=
  (∀ (neg : Bool) (e : Int), roundSat (.fin neg 0 e) = (0, false))
  ∧ ∀ (neg : Bool) (m : Nat) (e : Int) (val : Nat → Int), 0 < m →
    (∀ c, val c = if c < 2 ^ 23 then c else ((2 ^ 23 + c % 2 ^ 23) * 2 ^ (c / 2 ^ 23 - 1) : Nat)) →
    ∃ (c k : Nat) (x : Int), k = (-149 - e).toNat ∧ x = (m * 2 ^ (e + 149).toNat : Nat) ∧ c ≤ 0x7F7FFFFF
      ∧ (roundSat (.fin neg m e)).1 = (if neg then 0x80000000 + c else c)
      ∧ (∀ y, y ≤ 0x7F7FFFFF → (x - val c * 2 ^ k).natAbs ≤ (x - val y * 2 ^ k).natAbs)
      ∧ (∀ y, y ≤ 0x7F7FFFFF → y ≠ c → (x - val c * 2 ^ k).natAbs = (x - val y * 2 ^ k).natAbs → c % 2 = 0)
      ∧ ((roundSat (.fin neg m e)).2 = true ↔ (2 ^ 25 - 1) * 2 ^ 252 * 2 ^ k ≤ x)

/-- MX_ZERO and MX_STORE (R125 to R128): each starts when earlier passes and moves have streamed and no row of it would be accessed before an earlier
descriptor has written it. Zeroing clears a row of the accumulator in each tc from the one after its start, and no other entry; storing reads a row in
each tc and writes it 3 tc later, as FP32 or converted to BF16, to its place and to no other byte of the scratchpad, where a vector write of the same tc
stands over it (R147); the accumulator keeps its entries. The model's own choices behind it: log entry 18. -/
def Obligations.AccumulatorMoves : Prop :=
  (∀ (s : State) (tl p i : Nat) (e : WinEntry) (d : Desc), tl < 256 → p = s.phys tl → nextOf s tl unitMatrix [opMxZero] = some (i, e) →
    d = e.desc → s.tileStands p = false →
    (∀ x ∈ (s.tile p).seq.window.take i, x.unit = unitMatrix → (x.desc.opcode = opMxLoad ∨ x.held ≤ x.pos)
      ∧ ∀ w ∈ rowWrites x, w.1 < d.accRow ∨ d.accRow + d.rows ≤ w.1 ∨ w.2 < x.pos + (w.1 - d.accRow) + 1) →
    exec (.mxZero tl) s = .next (begun s p i .running .clean Stage.reset 0) ∧ e.held = d.rows ∧ e.span = d.rows + 1)
  ∧ (∀ (s : State) (p : Nat) (e : WinEntry) (t : State), 1 ≤ e.pos → t = zeroRow s p e →
    (∀ x, SMap.look (t.tile p).mx.acc x 0
        = if 64 * (e.desc.accRow + e.pos - 1) ≤ x ∧ x < 64 * (e.desc.accRow + e.pos - 1) + 64 then 0 else SMap.look (s.tile p).mx.acc x 0)
    ∧ t = s.setTile p { s.tile p with mx := { (s.tile p).mx with acc := (t.tile p).mx.acc } })
  ∧ (∀ (s : State) (tl p i : Nat) (e : WinEntry) (d : Desc), tl < 256 → p = s.phys tl → nextOf s tl unitMatrix [opMxStore] = some (i, e) →
    d = e.desc → s.tileStands p = false →
    (∀ x ∈ (s.tile p).seq.window.take i, x.unit = unitMatrix → (x.desc.opcode = opMxLoad ∨ x.held ≤ x.pos)
      ∧ ∀ w ∈ rowWrites x, w.1 < d.accRow ∨ d.accRow + d.rows ≤ w.1 ∨ w.2 < x.pos + (w.1 - d.accRow)) →
    spFault (s.tile p) s.frame d.frameCarried false [] [storeWrites d] = none →
    exec (.mxStore tl) s = .next (begun s p i .running .clean Stage.reset 0) ∧ e.held = d.rows ∧ e.span = d.rows + 3)
  ∧ (∀ (s : State) (p i l : Nat) (e x : WinEntry) (d : Desc) (t : State), (s.tile p).seq.window[i]? = some x → d = e.desc → l < 64 →
    t = storeRead s p i e →
    ∃ y row, (t.tile p).seq.window[i]? = some y ∧ y.rows = x.rows ++ [row]
      ∧ (row.drop (l * (storeRow d / 64))).take (storeRow d / 64) = storeEntry d (SMap.look (s.tile p).mx.acc (64 * (d.accRow + e.pos) + l) 0)
      ∧ (t.tile p).sp = (s.tile p).sp ∧ SameEngines (s.tile p) (t.tile p))
  ∧ ∀ (s : State) (p i a : Nat) (e x : WinEntry) (row : List Byte) (rest : List (List Byte)) (t : State), (s.tile p).seq.window[i]? = some x →
    x.rows = row :: rest → a = e.desc.mxSpBase + (e.pos - 3) * storeRow e.desc → t = storeWrite s p i e →
    (∀ b, (t.tile p).sp.rd b = if a ≤ b ∧ b < a + row.length ∧ (SMap.look (s.tile p).spNew b (0, 0)).2 ≤ byMatrix then row.getD (b - a) 0
        else (s.tile p).sp.rd b)
    ∧ SameEngines (s.tile p) (t.tile p) ∧ (t.tile p).reg = (s.tile p).reg ∧ (∀ x, x ≠ p → t.tile x = s.tile x) ∧ t.die = s.die ∧ SameModule s t

-- the vector engine

/-- A vector descriptor starts when the engine has read the rows of every earlier one and R107 holds; it holds the engine for one tc a row and retires
λ + 1 tc after its last row (R106, R107, R113). In each tc it reads a row's operands as they stood at the end of the previous tc and counts the row, and
λ tc later that row's writes are made; every other tile and the rest of the module are left alone. The model's own choices behind it: log entries
13, 18. -/
def Obligations.VectorDescriptorsRun : Prop :=
  (∀ (s : State) (tl p i op : Nat) (e : WinEntry) (d : Desc) (chk : Check) (c : Instr), tl < 256 → p = s.phys tl →
    (c, op) ∈ [(.vxFp tl chk, opVxFp), (.vxInt tl chk, opVxInt), (.vxCvt tl chk, opVxCvt), (.vxFn tl chk, opVxFn), (.vxRed tl chk, opVxRed),
      (.vxCmp tl chk, opVxCmp), (.vxMask tl, opVxMask)] → (op = opVxMask → chk = .clean) →
    nextOf s tl unitVector [op] = some (i, e) → d = e.desc → s.tileStands p = false →
    (∀ x ∈ (s.tile p).seq.window.take i, x.unit = unitVector → x.held ≤ x.pos ∧ ∀ w ∈ vxWrites x.desc,
      (∀ r ∈ vxReads d, r.1 = w.1 → w.2 + x.desc.vxLat < x.pos + r.2)
      ∧ ∀ o ∈ vxWrites d, o.1 = w.1 → w.2 + x.desc.vxLat < x.pos + o.2 + d.vxLat) →
    spFault (s.tile p) s.frame d.frameCarried false (vxIntervals d).1 (vxIntervals d).2 = none →
    exec c s = .next (begun s p i .running chk Stage.reset 0) ∧ e.held = d.rows ∧ e.span = (d.rows - 1) + d.vxLat + 1)
  ∧ (∀ (s : State) (p i : Nat) (e x : WinEntry) (t : State), (s.tile p).seq.window[i]? = some x → e.chk = .clean → t = vxRead s p i e →
    ∃ y view, (t.tile p).seq.window[i]? = some y ∧ (vxFromSp e.desc = true → view = (s.tile p).spSeen)
      ∧ y.lanes = x.lanes ++ [(vxRow e.desc { tile := s.tile p, view := view, nan := false, inf := false, sat := false } e.pos).1]
      ∧ (t.tile p).rd TL_VX_STATS_ROWS = ((s.tile p).rd TL_VX_STATS_ROWS + 1) % 2 ^ 32
      ∧ (t.tile p).sp = (s.tile p).sp ∧ SameEngines (s.tile p) (t.tile p) ∧ (∀ k, k ≠ p → t.tile k = s.tile k) ∧ t.die = s.die ∧ SameModule s t)
  ∧ ∀ (s : State) (p i : Nat) (e x : WinEntry) (w : List VWrite) (rest : List (List VWrite)) (r : VxRun) (t : State),
    (s.tile p).seq.window[i]? = some x → x.lanes = w :: rest → e.chk = .clean → t = vxWrite s p i e →
    r = VxRun.applyRow e.desc.vxSat { tile := s.tile p, view := [], nan := false, inf := false, sat := false } w →
    (t.tile p).vx = r.tile.vx ∧ (t.tile p).mx = r.tile.mx ∧ (t.tile p).sp = r.tile.sp
      ∧ (t.tile p).seq.window[i]? = some { x with lanes := rest }
      ∧ (r.nan = true → (t.tile p).rd TL_VX_STATUS_NAN_SEEN = 1) ∧ (r.inf = true → (t.tile p).rd TL_VX_STATUS_INF_SEEN = 1)
      ∧ (r.sat = true → (t.tile p).rd TL_VX_STATUS_SAT_SEEN = 1)
      ∧ (t.tile p).tr = (s.tile p).tr ∧ (t.tile p).tc = (s.tile p).tc ∧ (∀ k, k ≠ p → t.tile k = s.tile k) ∧ t.die = s.die ∧ SameModule s t

/-- What one row of a vector descriptor writes (R133, R135 to R138, R141): an element-wise opcode gives every active lane of its destination the
operation's result, converted where it lies in the scratchpad (R132), an inactive lane zero or its old value; a reduction gives its place the value of
the tree, and an accumulating one the combination with the old value there. The model's own choices behind it: log entry 29. -/
def Obligations.VectorRowResults : Prop :=
  (∀ (d : Desc) (r u v : VxRun) (m l x : Nat), d.opcode ∈ [opVxFp, opVxInt, opVxCvt, opVxFn] → (selKind d.dst = 2 ∨ selKind d.dst = 3) → l < 64 →
    x = (laneOp d (r.rd d d.srcA m l) (r.rd d d.srcB m l) (r.rd d d.srcC m l)).1 → v = VxRun.applyRow d.vxSat u (vxRow d r m).1 →
    v.old (vxLoc d m l) = if laneActive r.tile d l then x % 2 ^ 32 else if d.maskZero then 0 else u.old (vxLoc d m l))
  ∧ (∀ (d : Desc) (r u v : VxRun) (m l x b : Nat), d.opcode ∈ [opVxFp, opVxInt, opVxCvt, opVxFn] → selKind d.dst = 4 → l < 64 →
    x = (laneOp d (r.rd d d.srcA m l) (r.rd d d.srcB m l) (r.rd d d.srcC m l)).1 → v = VxRun.applyRow d.vxSat u (vxRow d r m).1 →
    b < laneBytes d.spFmt → (∀ a, (SMap.look u.tile.spNew a (0, 0)).2 ≤ byVector) →
    v.tile.sp.rd (d.vxSpBase + m * fmtSpBytes d.spFmt + laneBytes d.spFmt * l + b)
      = if laneActive r.tile d l then BitVec.ofNat 8 ((narrowOut d.spFmt d.vxSat x).1 / 256 ^ b) else if d.maskZero then 0
        else u.tile.sp.rd (d.vxSpBase + m * fmtSpBytes d.spFmt + laneBytes d.spFmt * l + b))
  ∧ (∀ (d : Desc) (r u v : VxRun) (m x : Nat), d.opcode ∈ [opVxFp, opVxInt, opVxCvt, opVxFn] → selKind d.dst = 2 →
    v = VxRun.applyRow d.vxSat u (vxRow d r m).1 →
    (x < 64 * ((selIndex d.dst + m) % 32) ∨ 64 * ((selIndex d.dst + m) % 32) + 64 ≤ x) →
    SMap.look v.tile.vx.v x 0 = SMap.look u.tile.vx.v x 0 ∧ v.tile.vx.m = u.tile.vx.m ∧ v.tile.sp = u.tile.sp ∧ v.tile.mx = u.tile.mx)
  ∧ (∀ (d : Desc) (r u v : VxRun) (m : Nat), d.opcode = opVxRed → selKind d.dst = 2 → d.redSpread = false → d.redAccum = false →
    v = VxRun.applyRow d.vxSat u (vxRow d r m).1 →
    SMap.look v.tile.vx.v (64 * ((selIndex d.dst + m / 64) % 32) + m % 64) 0 = w32 ((treeValue d r m).getD (treeEmpty d.redOp)))
  ∧ ∀ (d : Desc) (r u v : VxRun) (m k : Nat), d.opcode = opVxRed → selKind d.dst = 2 → d.redSpread = false → d.redAccum = true →
    k = 64 * ((selIndex d.dst + m / 64) % 32) + m % 64 → v = VxRun.applyRow d.vxSat u (((vxRow d r m).1.map u.meet).map (·.1)) →
    SMap.look v.tile.vx.v k 0 = match treeValue d r m with
      | some t => w32 (redComb d.redOp (SMap.look u.tile.vx.v k 0).toNat t)
      | none => SMap.look u.tile.vx.v k 0

/-- VX_INT (R136): every variant's result on 32-bit operands, wrapping; a variant from 0x0A on is undefined; its class is simple; it sets no status
flag. -/
def Obligations.IntegerLanesWrap : Prop :=
  (∀ (d : Desc) (a b c : Nat), d.opcode = opVxInt → a < 2 ^ 32 → b < 2 ^ 32 →
    (d.variant = 0 → (laneOp d a b c).1 = (a + b) % 2 ^ 32)
    ∧ (d.variant = 1 → (laneOp d a b c).1 = (a + 2 ^ 32 - b) % 2 ^ 32)
    ∧ (d.variant = 2 → (laneOp d a b c).1 = a * b % 2 ^ 32)
    ∧ (d.variant = 3 → ∀ k, k < 32 → (laneOp d a b c).1.testBit k = (a.testBit k && b.testBit k))
    ∧ (d.variant = 4 → ∀ k, k < 32 → (laneOp d a b c).1.testBit k = (a.testBit k || b.testBit k))
    ∧ (d.variant = 5 → ∀ k, k < 32 → (laneOp d a b c).1.testBit k = (a.testBit k != b.testBit k))
    ∧ (d.variant = 6 → (laneOp d a b c).1 = a * 2 ^ (b % 32) % 2 ^ 32)
    ∧ (d.variant = 7 → (laneOp d a b c).1 = a / 2 ^ (b % 32))
    ∧ (d.variant = 8 → ∀ k, k < 32 → (laneOp d a b c).1.testBit k = a.testBit (min (k + b % 32) 31))
    ∧ (d.variant = 9 → (laneOp d a b c).1 = a)
    ∧ (laneOp d a b c).1 < 2 ^ 32)
  ∧ (∀ d : Desc, d.opcode = opVxInt → d.vxLat = 5 ∧ (0x0A ≤ d.variant → vectorOk d = false))
  ∧ ∀ (d : Desc) (r u v : VxRun) (m : Nat), d.opcode = opVxInt → v = VxRun.applyRow d.vxSat u (vxRow d r m).1 →
    (vxRow d r m).2 = (false, false) ∧ v.nan = u.nan ∧ v.inf = u.inf ∧ v.sat = u.sat

/-- VX_CMP and VX_MASK write their mask register bit by bit (R99, R142, R143), and no other mask, register, accumulator entry or byte. -/
def Obligations.MasksAreWritten : Prop :=
  ∀ (d : Desc) (r u v : VxRun) (l x : Nat), (d.opcode = opVxCmp ∨ d.opcode = opVxMask) → l < 64 → v = VxRun.applyRow d.vxSat u (vxRow d r 0).1 →
    bit (SMap.look v.tile.vx.m (selIndex d.dst % 8) 0) l
      = (if laneActive r.tile d l then
          (if d.opcode = opVxMask then maskLane d.variant (bit (SMap.look r.tile.vx.m (selIndex d.srcA % 8) 0) l)
              (bit (SMap.look r.tile.vx.m (selIndex d.srcB % 8) 0) l)
           else cmpLane (d.variant / 8) (d.variant % 8) (r.rd d d.srcA 0 l) (r.rd d d.srcB 0 l))
         else if d.maskZero then false else bit (SMap.look u.tile.vx.m (selIndex d.dst % 8) 0) l)
      ∧ (x ≠ selIndex d.dst % 8 → SMap.look v.tile.vx.m x 0 = SMap.look u.tile.vx.m x 0)
      ∧ v.tile.vx.v = u.tile.vx.v ∧ v.tile.mx = u.tile.mx ∧ v.tile.sp = u.tile.sp

-- the scratchpad's ports and the scratchpad unit

/-- The scratchpad's banks and ports (R178, R181, R182, R184): chunk `c` of line `L` lies in bank (c + L) mod 16, so that a chunk column of 16 lines takes
every bank once; the granted claims of a tc do not meet each other, and a refused one meets a granted one of no lower priority; a started descriptor
moves on when every access of its tc has been granted, and stays with those that it still needs otherwise. -/
def Obligations.PortClaimsAreGranted : Prop :=
  (∀ c L, c < 16 → bankOf (16 * L + c) = ((c + L) % 16, L))
  ∧ (∀ L c b, c < 16 → b < 16 → ∃ x ∈ colBanks L c, x.1 = b)
  ∧ (∀ (given : List Claim) (l : List (Claimant × Claim)), given.Pairwise (fun x y => x.meets y = false) →
    (grants given l).Pairwise (fun x y => x.2.meets y.2 = false) ∧ (∀ x ∈ grants given l, x ∈ l ∨ (x.1 = .command ∧ x.2 ∈ given))
      ∧ ∀ x ∈ l, x.2.prio ≤ 10 → x ∉ grants given l → ∃ y ∈ grants given l, y.2.meets x.2 = true ∧ (y.1 = .command ∨ y.2.prio ≤ x.2.prio))
  ∧ ∀ (s : State) (p i : Nat) (e : WinEntry) (w : List WinEntry) (g : List (Claimant × Claim)) (t : State), w[i]? = some e →
    (s.tile p).seq.window[i]? = some e → e.phase = .running → e.pos < e.span → e.desc.opcode ≠ opMxLoad → t = advanceEntry s p false w g i →
    ((∀ a ∈ e.accesses, e.part.testBit (a.1 / 2) = true ∨ ∃ c, (Claimant.entry i a.1, c) ∈ g) →
      (t.tile p).seq.window[i]? = some { e with pos := e.pos + 1, part := 0 })
    ∧ ((∃ a ∈ e.accesses, e.part.testBit (a.1 / 2) = false ∧ ∀ c, (Claimant.entry i a.1, c) ∉ g) →
      ∃ k, (t.tile p).seq.window[i]? = some { e with part := k })

/-- SP_FILL, SP_COPY, SP_COLGATHER and SP_COLSCATTER (R145, R153 to R156): each starts when the unit has done with every earlier one and its operands lie
where R189 to R191 and R317 let them; it holds the unit for one tc a line or column. A read takes a line, or a chunk column of 16 lines, as it stood at
the end of the previous tc; the write puts the immediate, or the bytes read 2 tc before, to the destination line or chunk column, where a writer that
R147 places later keeps its bytes; every other byte of the scratchpad, the tile's other data, every other tile and the rest of the module keep theirs.
The model's own choices behind it: log entry 18. -/
def Obligations.ScratchpadLinesMove : Prop :=
  (∀ (t : Tile) (frame : Nat) (carried listOk : Bool) (reads writes : List (Nat × Nat)), spFault t frame carried listOk reads writes = none ↔
    (∀ iv ∈ reads ++ writes, t.rd TL_SP_WINDOW_LO_LINE ≤ iv.1 / 512 ∧ iv.2 / 512 ≤ t.rd TL_SP_WINDOW_HI_LINE ∧ iv.1 ≤ iv.2 ∧ iv.2 < spBytes)
      ∧ ∀ iv ∈ writes, (∀ n, n < 4 → bankRefuses t listOk iv n = false) ∧ fcBreaks t frame carried iv = false)
  ∧ (∀ (s : State) (tl p i op : Nat) (e : WinEntry) (d : Desc) (chk : Check) (c : Instr), tl < 256 → p = s.phys tl →
    (c, op) ∈ [(.spFill tl, opSpFill), (.spCopy tl chk, opSpCopy), (.spColgather tl chk, opSpGather), (.spColscatter tl chk, opSpScatter)] →
    (op = opSpFill → chk = .clean) → nextOf s tl unitSp [op] = some (i, e) → d = e.desc → s.tileStands p = false →
    (∀ x ∈ (s.tile p).seq.window.take i, x.unit = unitSp → x.held ≤ x.pos) →
    spFault (s.tile p) s.frame d.frameCarried true (spReads d) (spWrites d) = none →
    exec c s = .next (begun s p i .running chk Stage.reset 0)
      ∧ e.held = (if op = opSpFill ∨ op = opSpCopy then d.linesM else d.colK) ∧ e.span = e.held + (if op = opSpFill then 1 else 2))
  ∧ (∀ (s : State) (p i : Nat) (e x : WinEntry) (d : Desc) (t : State), (s.tile p).seq.window[i]? = some x → d = e.desc → e.chk = .clean →
    t = spRead s p i e →
    ∃ y row, (t.tile p).seq.window[i]? = some y ∧ y.rows = x.rows ++ [row] ∧ row.length = 512
      ∧ (∀ k, k < 512 → row.getD k 0 = (s.tile p).spSeen.rd (if d.opcode = opSpGather then 512 * (d.firstLine + k / 32) + 32 * (d.colChunk + e.pos) + k % 32
          else 512 * (d.firstLine + e.pos) + k))
      ∧ (t.tile p).sp = (s.tile p).sp ∧ SameEngines (s.tile p) (t.tile p) ∧ (∀ x, x ≠ p → t.tile x = s.tile x) ∧ t.die = s.die ∧ SameModule s t)
  ∧ ∀ (s : State) (p i : Nat) (e x : WinEntry) (d : Desc) (row : List Byte) (rest : List (List Byte)) (place : Nat → Nat) (t : State),
    (s.tile p).seq.window[i]? = some x → d = e.desc → (d.opcode ≠ opSpFill → x.rows = row :: rest ∧ row.length = 512) →
    (∀ k, place k = if d.opcode = opSpFill then 512 * (d.firstLine + (e.pos - 1)) + k else if d.opcode = opSpCopy then 512 * (d.copyDst + (e.pos - 2)) + k
      else if d.opcode = opSpGather then 512 * (d.colDst + (e.pos - 2)) + k else 512 * (d.colDst + k / 32) + 32 * (d.colChunk + (e.pos - 2)) + k % 32) →
    d.opcode ∈ [opSpFill, opSpCopy, opSpGather, opSpScatter] → t = spStore s p i e →
    (∀ k, k < 512 → (t.tile p).sp.rd (place k) = if (SMap.look (s.tile p).spNew (place k) (0, 0)).2 ≤ bySpUnit
        then (if d.opcode = opSpFill then BitVec.ofNat 8 (d.immediate / 256 ^ (k % 4)) else row.getD k 0) else (s.tile p).sp.rd (place k))
    ∧ (∀ a, (∀ k, k < 512 → a ≠ place k) → (t.tile p).sp.rd a = (s.tile p).sp.rd a)
    ∧ SameEngines (s.tile p) (t.tile p) ∧ (t.tile p).reg = (s.tile p).reg ∧ (∀ x, x ≠ p → t.tile x = s.tile x) ∧ t.die = s.die ∧ SameModule s t

-- the network unit

/-- A PUT or PUT_MSG (R150, R157, R158, R160, R161): on channel 0 in its turn, on channel 1 in its issue tc, it takes its credits, counts in the send
channel, and its transfer, with the header of R214 before a message's payload, begins; each of the following tc injects a flit, whose bytes are read as
they stood at the end of the previous tc. NET_GET (R163, R164): one request of 64 bytes is injected in the next tc for the channel's owner, naming the
lines that it asks for and its descriptor, which waits for the reply; no data changes. The model's own choices behind it: log entries 18, 27. -/
def Obligations.TransfersAndGetRequestsLeave : Prop :=
  (∀ (s : State) (tl p i op : Nat) (e : WinEntry) (d : Desc) (x : Transfer) (u : Tile) (c : Instr) (chk : Check), tl < 256 → p = s.phys tl → u = s.tile p →
    (c, op) ∈ [(.netPut tl chk, opNetPut), (.netPutMsg tl chk, opNetPutMsg)] → d = e.desc →
    ((nextScheduled s p [op] = some (i, e) ∧ s.tileStands p = false)
      ∨ (nextScheduled s p [op] = none ∧ nextOf s tl unitNet [op] = some (i, e) ∧ d.vc = 0
          ∧ ∀ y ∈ u.seq.window.take i, y.unit = unitNet → y.held ≤ y.pos)) →
    (op = opNetPut → u.rd (TW_SEND_CFG_KIND d.chan) = kindBuffer ∧ d.dstOff + 64 * d.putUnits ≤ 64 * u.rd (TW_SEND_CFG_SLOTS d.chan)) →
    (op = opNetPutMsg → u.rd (TW_SEND_CFG_KIND d.chan) = kindRing ∧ d.putSlots ≤ u.rd (TW_SEND_CFG_SLOTS d.chan)) →
    (d.vc = 1 → u.rd (TW_SEND_CFG_SCHED_OK d.chan) = 1 ∧ (u.rd (TW_SEND_CFG_REMOTE d.chan) = 1 → 64 * d.putSlots ≤ 0x80000)
        ∧ injectBusy s p tl i d.flits = false) →
    spFault u s.frame false true [(d.netSrc, d.netSrc + 64 * d.putUnits - 1)] [] = none →
    u.chSeen (TW_SEND_STATE_OPEN d.chan) = 1 → putCredits u d ≤ u.chSeen (TW_SEND_STATE_CREDITS d.chan) → x = putTransfer s p tl d →
    ∃ t, exec c s = .next t
      ∧ t.die = { s.die with transfers := s.die.transfers ++ [{ x with id := s.die.nextXfer }], nextXfer := s.die.nextXfer + 1 }
      ∧ (t.tile p).seq = { u.seq with window := modAt (WinEntry.began .running chk Stage.reset s.die.nextXfer) u.seq.window i }
      ∧ (t.tile p).rd (TW_SEND_STATE_CREDITS d.chan) = u.rd (TW_SEND_STATE_CREDITS d.chan) - putCredits u d
      ∧ (t.tile p).rd (TW_SEND_CNT0_MSGS d.chan) = (u.rd (TW_SEND_CNT0_MSGS d.chan) + 1) % 2 ^ 32
      ∧ x.op = (if op = opNetPut then 0 else 1) ∧ x.n = 64 * d.putSlots ∧ x.rctr = d.remoteCtr ∧ x.rinc = d.remoteInc ∧ x.left = d.flits
      ∧ x.dstTile = 16 * u.rd (TW_SEND_CFG_DEST_I d.chan) + u.rd (TW_SEND_CFG_DEST_J d.chan) ∧ (op = opNetPut → x.off = d.dstOff)
      ∧ (op = opNetPutMsg → x.head.length = 64 ∧ x.handler = d.netHandler ∧ x.off = (ringPlace u d.chan d.putSlots).2)
      ∧ (t.tile p).sp = u.sp ∧ SameEngines u (t.tile p) ∧ (∀ y, y ≠ p → t.tile y = s.tile y) ∧ SameModule s t)
  ∧ (∀ (s : State) (p : Nat) (e : WinEntry) (x : Transfer) (t : State), s.xfer e.xfer = some x → e.chk = .clean → t = putFlit s p e →
    ∃ y f, t.xfer e.xfer = some y ∧ y.left = x.left - 1 ∧ y.air.getLast? = some f ∧ f.off = 256 * (e.pos - 1) ∧ f.car = e.desc.vc
      ∧ f.due = (if e.desc.vc = 1 then s.now p + x.flight else s.sun.tick + 3)
      ∧ f.data = (if e.pos - 1 = 0 then x.head else []) ++ Mem.rdN (s.tile p).spSeen (putBytes e.desc (e.pos - 1)).1 (putBytes e.desc (e.pos - 1)).2
      ∧ t.tiles = s.tiles ∧ SameModule s t)
  ∧ ∀ (s : State) (tl p i : Nat) (e : WinEntry) (d : Desc) (u : Tile), tl < 256 → p = s.phys tl → u = s.tile p → nextOf s tl unitNet [opNetGet] = some (i, e) →
    d = e.desc → (∀ y ∈ u.seq.window.take i, y.unit = unitNet → y.held ≤ y.pos) →
    (d.vc = 1 → s.tileStands p = false ∧ u.rd (TW_SEND_CFG_REMOTE d.chan) = 0 ∧ u.rd (TW_SEND_CFG_SCHED_OK d.chan) = 1) →
    u.rd (TW_SEND_CFG_KIND d.chan) = kindRead → d.getSrcLine + d.getLines ≤ u.rd (TW_SEND_CFG_SLOTS d.chan) / 8 →
    spFault u s.frame d.frameCarried false [] [(d.getDst, d.getDst + 512 * d.getLines - 1)] = none →
    u.chSeen (TW_SEND_STATE_OPEN d.chan) = 1 →
    ∃ t x, exec (.netGet tl) s = .next t
      ∧ t.die = { s.die with transfers := s.die.transfers ++ [x], nextXfer := s.die.nextXfer + 1 }
      ∧ x.op = 2 ∧ x.vc = d.vc ∧ x.n = 64 ∧ x.left = 2 ∧ x.line = d.getSrcLine ∧ x.lines = d.getLines ∧ x.off = d.getDst ∧ x.getAddr = e.addr
      ∧ x.getHandler = e.handler ∧ x.srcMod = s.index ∧ x.srcTile = tl ∧ x.srcChan = d.chan
      ∧ x.dstTile = 16 * u.rd (TW_SEND_CFG_DEST_I d.chan) + u.rd (TW_SEND_CFG_DEST_J d.chan)
      ∧ (t.tile p).seq = { u.seq with window := modAt (WinEntry.began .waiting .clean Stage.reset s.die.nextXfer) u.seq.window i }
      ∧ (t.tile p).rd (TW_SEND_CNT0_MSGS d.chan) = (u.rd (TW_SEND_CNT0_MSGS d.chan) + 1) % 2 ^ 32
      ∧ (t.tile p).sp = u.sp ∧ SameEngines u (t.tile p) ∧ (∀ y, y ≠ p → t.tile y = s.tile y) ∧ SameModule s t

-- the Orangery unit

/-- OY_READ and OY_TERRACE (R148, R167, R268): each starts with at most 7 others under way, its bytes inside the pavilion's window; then a flit, or in
every second tc a beat, takes the bytes of the window, the commit buffer's where it holds them, at its place in the scratchpad or the Terrace and
nowhere else; HBM and the buffer keep their contents. The model's own choices behind it: log entries 6, 18, 27. -/
def Obligations.OrangeryReads : Prop :=
  (∀ (s : State) (tl p i q op : Nat) (e : WinEntry) (d : Desc) (c : Instr), tl < 256 → p = s.phys tl →
    (c, op) ∈ [(.oyRead tl .clean, opOyRead), (.oyTerrace tl .clean, opOyTerrace)] → nextOf s tl unitOy [op] = some (i, e) → d = e.desc →
    ((s.tile p).seq.window.filter (fun x => x.unit == unitOy && x.phase != .issued)).length < 8 → q = oyPv s p →
    d.oyAddr + d.oyBytes ≤ windowBytes s q →
    (op = opOyRead → spFault (s.tile p) s.frame d.frameCarried true [] [(d.oySp, d.oySp + d.oyBytes - 1)] = none) →
    (∃ r, exec c s = .next (begun { s with replay := r } p i .running .clean Stage.reset 0))
      ∧ e.span = (if op = opOyRead then d.flits else 2 * d.oyUnits))
  ∧ (∀ (s : State) (p q a n : Nat) (e : WinEntry) (d : Desc) (t : State), d = e.desc → d.opcode = opOyRead → e.chk = .clean → q = oyPv s p →
    a = d.oySp + 256 * e.pos → n = min 256 (d.oyBytes - 256 * e.pos) → t = oyLand s p e →
    (∀ b, (t.tile p).sp.rd b = if a ≤ b ∧ b < a + n ∧ (SMap.look (s.tile p).spNew b (0, 0)).2 ≤ byOrangery
        then oyByte s q (d.oyAddr + (b - d.oySp)) else (s.tile p).sp.rd b)
    ∧ SameEngines (s.tile p) (t.tile p) ∧ (t.tile p).seq = (s.tile p).seq ∧ (t.tile p).reg = (s.tile p).reg ∧ (∀ y, y ≠ p → t.tile y = s.tile y)
      ∧ t.die = s.die ∧ SameModule s t)
  ∧ ∀ (s : State) (p q a : Nat) (e : WinEntry) (d : Desc) (t : State), d = e.desc → d.opcode = opOyTerrace → e.chk = .clean → q = oyPv s p →
    a = 512 * (d.oyBeat + e.pos / 2) → t = oyLand s p e →
    (∀ b, (t.tile p).tr.rd b = if a ≤ b ∧ b < a + 512 then oyByte s q (d.oyAddr + (b - 512 * d.oyBeat)) else (s.tile p).tr.rd b)
    ∧ (t.tile p).sp = (s.tile p).sp ∧ (t.tile p).mx = (s.tile p).mx ∧ (t.tile p).vx = (s.tile p).vx ∧ (t.tile p).tc = (s.tile p).tc
      ∧ (t.tile p).seq = (s.tile p).seq ∧ (t.tile p).reg = (s.tile p).reg ∧ (∀ y, y ≠ p → t.tile y = s.tile y) ∧ t.die = s.die ∧ SameModule s t

/-- OY_WRITE (R148, R167, R168, R266): it starts in its turn; its source leaves the scratchpad 256 bytes a tc; with room in the quota the bytes then
enter the frame commit buffer, where later reads of the pavilion find them, and HBM does not change. Without room it waits, ROOM_WAITS counts, nothing
enters the buffer, and the oldest one that waits is accepted once it fits. The model's own choices behind it: log entries 18, 27. -/
def Obligations.OrangeryWrites : Prop :=
  (∀ (s : State) (tl p i q : Nat) (e : WinEntry) (d : Desc) (chk : Check), tl < 256 → p = s.phys tl → q = oyPv s p →
    (∀ j x, oldestWaiting (s.tile p).seq = some (j, x) → commitRoom s q x.desc.oyBytes = false) →
    nextOf s tl unitOy [opOyWrite] = some (i, e) → d = e.desc →
    ((s.tile p).seq.window.filter (fun x => x.unit == unitOy && x.phase != .issued)).length < 8 → d.oyAddr + d.oyBytes ≤ windowBytes s q →
    spFault (s.tile p) s.frame d.frameCarried true [(d.oySp, d.oySp + d.oyBytes - 1)] [] = none →
    exec (.oyWrite tl chk) s = .next (begun s p i .running chk Stage.reset 0) ∧ e.span = d.flits + 1)
  ∧ (∀ (s : State) (p i q a : Nat) (e : WinEntry) (d : Desc) (b : List Byte) (t : State), (s.tile p).seq.window[i]? = some e → d = e.desc → e.chk = .clean →
    q = oyPv s p → q < 4 → a = d.oySp + 256 * (e.pos - 1) → b = Mem.rdN (s.tile p).spSeen a (min 256 (d.oyBytes - 256 * (e.pos - 1))) →
    t = oyFetch s p i e →
    (t.tile p).sp = (s.tile p).sp ∧ SameEngines (s.tile p) (t.tile p) ∧ t.die.hbm = s.die.hbm ∧ (∀ y, y ≠ p → t.tile y = s.tile y)
      ∧ t.pvs = s.pvs ∧ t.fns = s.fns ∧ t.out = s.out
      ∧ (e.pos < d.flits → t.die = s.die ∧ (t.tile p).seq.window = modAt (fun w => { w with rows := w.rows ++ [b] }) (s.tile p).seq.window i)
      ∧ (d.flits ≤ e.pos → commitRoom s q d.oyBytes = true →
          t.die = { s.die with commit := s.die.commit ++ [{ pv := q, addr := d.oyAddr, data := (e.rows ++ [b]).flatten, committed := false }] }
          ∧ (∀ k, k < (e.rows ++ [b]).flatten.length → oyByte t q (d.oyAddr + k) = (e.rows ++ [b]).flatten.getD k 0)
          ∧ (t.tile p).seq.window = modAt (fun w => { w with phase := .running, rows := [] }) (s.tile p).seq.window i
          ∧ ∀ off, off ≠ OY_PV_COMMIT_OFF q → t.regW off = s.regW off)
      ∧ (d.flits ≤ e.pos → commitRoom s q d.oyBytes = false → t.die = s.die
          ∧ t.rd (OY_PV_COMMIT_ROOM_WAITS q) = min (s.rd (OY_PV_COMMIT_ROOM_WAITS q) + 1) (fldMax (OY_PV_COMMIT_ROOM_WAITS q))
          ∧ (t.tile p).seq.window = modAt (fun w => { w with rows := w.rows ++ [b], phase := .waiting, roomWaited := true }) (s.tile p).seq.window i))
  ∧ ∀ (s : State) (tl p i q : Nat) (e : WinEntry) (d : Desc) (chk : Check), tl < 256 → p = s.phys tl → q = oyPv s p → q < 4 →
    oldestWaiting (s.tile p).seq = some (i, e) → d = e.desc → commitRoom s q d.oyBytes = true →
    ∃ t, exec (.oyWrite tl chk) s = .next t
      ∧ t.die = { s.die with commit := s.die.commit ++ [{ pv := q, addr := d.oyAddr, data := e.rows.flatten, committed := false }] }
      ∧ (t.tile p).seq.window = modAt (fun w => { w with phase := .running, rows := [] }) (s.tile p).seq.window i
      ∧ (t.tile p).sp = (s.tile p).sp ∧ SameEngines (s.tile p) (t.tile p) ∧ (∀ y, y ≠ p → t.tile y = s.tile y) ∧ t.pvs = s.pvs ∧ t.fns = s.fns
      ∧ t.out = s.out

-- the control unit

/-- CT_BARRIER (R170, R171): the arrival leaves for the root, which it reaches 20 cycles after its start; a MODE-0 descriptor waits for the release, a
MODE-1 one retires 1 tc later. On an entry that its pavilion does not hold it is a DESC_RANGE fault, leaves the window and sends nothing (R145, R149).
The model's own choices behind it: log entry 27. -/
def Obligations.BarriersArrive : Prop :=
  (∀ (s : State) (tl p i mode : Nat) (e : WinEntry) (d : Desc) (arr : Arrival), tl < 256 → p = s.phys tl → mode < 2 →
    nextOf s tl unitCt [opCtBarrier] = some (i, e) → d = e.desc → d.barMode = mode → s.tileStands p = false →
    (s.barrier d.barEntry).pv ≠ none → (s.barrier d.barEntry).pv = s.pvOfTile p →
    arr = ⟨s.index, tl, e.addr, e.handler, mode, d.barNotify, d.barAdd, d.barTarget⟩ →
    exec (if mode = 0 then .ctBarrierWait tl else .ctBarrierArriveOnly tl) s
        = .next (begun { s with die := { s.die with ctls := s.die.ctls ++
            [⟨.arrive d.barEntry (s.barrier d.barEntry).machine 0 arr, s.sun.tick + 20, false⟩] } } p i (if mode = 0 then .waiting else .running) .clean
            Stage.reset 0)
      ∧ e.span = 1)
  ∧ ∀ (s : State) (tl p i mode : Nat) (e : WinEntry), tl < 256 → p = s.phys tl → mode < 2 →
    nextOf s tl unitCt [opCtBarrier] = some (i, e) → e.desc.barMode = mode → s.tileStands p = false →
    ((s.barrier e.desc.barEntry).pv = none ∨ (s.barrier e.desc.barEntry).pv ≠ s.pvOfTile p) →
    ∃ t, exec (if mode = 0 then .ctBarrierWait tl else .ctBarrierArriveOnly tl) s = .next t
      ∧ (t.tile p).seq.window = (s.tile p).seq.window.eraseIdx i ∧ (t.tile p).rd (faultField faultDescRange) = 1
      ∧ ((s.tile p).rd TL_SEQ_CONFIG_ENABLE = 1 → (t.tile p).seq.run = .frozen) ∧ (t.tile p).sp = (s.tile p).sp
      ∧ SameEngines (s.tile p) (t.tile p) ∧ (∀ y, y ≠ p → t.tile y = s.tile y) ∧ t.die.ctls = s.die.ctls
      ∧ t.die.reports = s.die.reports ++ [{ p := p, kind := 0 }] ∧ SameModule s t

/-- CT_SIGNAL (R158, R172): JOIN only starts and retires 1 tc later; REMOTE_ADD sends the increment to its receiver's counter, on channel 1 in its issue tc;
CREDIT_RETURN gives a BUFFER receive channel's credits back to its sender, on this die or by the port of the route toward its module.
The model's own choices behind it: log entries 22, 27. -/
def Obligations.SignalsAct : Prop :=
  (∀ (s : State) (tl p i : Nat) (e : WinEntry), tl < 256 → p = s.phys tl → nextOf s tl unitCt [opCtSignal] = some (i, e) → e.desc.variant = 0 →
    s.tileStands p = false → exec (.ctSignalJoin tl) s = .next (begun s p i .running .clean Stage.reset 0) ∧ e.span = 1)
  ∧ (∀ (s : State) (tl p i : Nat) (e : WinEntry) (d : Desc) (u : Tile), tl < 256 → p = s.phys tl → u = s.tile p → d = e.desc → s.tileStands p = false →
    (addScheduled s tl = some (i, e) ∨ (addScheduled s tl = none ∧ nextOf s tl unitCt [opCtSignal] = some (i, e) ∧ d.variant = 1)) →
    (d.vc = 1 → u.rd (TW_SEND_CFG_SCHED_OK d.chan) = 1 ∧ injectBusy s p tl i 1 = false) → u.chSeen (TW_SEND_STATE_OPEN d.chan) = 1 →
    ∃ t x, exec (.ctSignalRemoteAdd tl) s = .next t
      ∧ t.die = { s.die with transfers := s.die.transfers ++ [x], nextXfer := s.die.nextXfer + 1 } ∧ x.op = 4 ∧ x.left = 2 ∧ x.vc = d.vc
      ∧ x.rctr = d.remoteCtr ∧ x.rinc = d.remoteInc
      ∧ x.dstTile = 16 * u.rd (TW_SEND_CFG_DEST_I d.chan) + u.rd (TW_SEND_CFG_DEST_J d.chan)
      ∧ (t.tile p).seq = { u.seq with window := modAt (WinEntry.began .running .clean Stage.reset 0) u.seq.window i }
      ∧ (t.tile p).rd (TW_SEND_CNT0_MSGS d.chan) = (u.rd (TW_SEND_CNT0_MSGS d.chan) + 1) % 2 ^ 32
      ∧ (t.tile p).sp = u.sp ∧ SameEngines u (t.tile p) ∧ (∀ y, y ≠ p → t.tile y = s.tile y) ∧ SameModule s t)
  ∧ (∀ (s : State) (tl p i src : Nat) (e : WinEntry) (d : Desc), tl < 256 → p = s.phys tl →
    nextOf s tl unitCt [opCtSignal] = some (i, e) → d = e.desc → d.variant = 2 → s.tileStands p = false →
    (s.tile p).rd (TW_RECV_CFG_KIND d.chan) = kindBuffer → (s.tile p).rd (TW_RECV_CFG_REMOTE d.chan) = 0 →
    src = 16 * (s.tile p).rd (TW_RECV_CFG_SRC_I d.chan) + (s.tile p).rd (TW_RECV_CFG_SRC_J d.chan) →
    exec (.ctSignalCreditReturn tl) s = .next (begun { s with die := { s.die with ctls := s.die.ctls ++
        [⟨.credit src ((s.tile p).rd (TW_RECV_CFG_SRC_SCHAN d.chan)) d.creditCount, s.sun.tick + 3 + hops tl src, false⟩] } } p i .running .clean
        Stage.reset 0))
  ∧ ∀ (s : State) (tl p i src port : Nat) (e : WinEntry) (d : Desc) (w : W64), tl < 256 → p = s.phys tl →
    nextOf s tl unitCt [opCtSignal] = some (i, e) → d = e.desc → d.variant = 2 → s.tileStands p = false →
    (s.tile p).rd (TW_RECV_CFG_KIND d.chan) = kindBuffer → (s.tile p).rd (TW_RECV_CFG_REMOTE d.chan) = 1 → 0 < d.creditCount → d.creditCount ≤ 32767 →
    src = 16 * (s.tile p).rd (TW_RECV_CFG_SRC_I d.chan) + (s.tile p).rd (TW_RECV_CFG_SRC_J d.chan) →
    portToward s ((s.tile p).rd (TW_RECV_CFG_SRC_MODULE d.chan)) = some port → portCarries s port = true →
    w = ctlWord 0x06 s.index (ctlNumber s 0x06) (src + 256 * (s.tile p).rd (TW_RECV_CFG_SRC_SCHAN d.chan) + 8192 * d.creditCount) →
    ∃ t, exec (.ctSignalCreditReturn tl) s = .next t ∧ (t.port port).ctl = (s.port port).ctl ++ [(w, 0)] ∧ .ctl port w 0 ∈ t.out
      ∧ t.tile p = (begun s p i .running .clean Stage.reset 0).tile p ∧ (∀ y, y ≠ p → t.tile y = s.tile y) ∧ t.reg = s.reg ∧ t.pvs = s.pvs

/-- CT_HASH (R148, R173, R174): it starts when its cluster's lane is free and no tile of the cluster has issued one earlier, with its chain at the salt,
or at the previous digest, which its first tc reads; each block of 1,024 bytes is hashed behind the latest digest, and its digest is written at its
place and to no other byte; the lane is held 4 + 1,088 tc a block. The model's own choices behind it: log entries 16, 18. -/
def Obligations.HashesAreWritten : Prop :=
  (∀ (s : State) (tl p i : Nat) (e : WinEntry) (d : Desc) (chk : Check), tl < 256 → p = s.phys tl → nextOf s tl unitCt [opCtHash] = some (i, e) →
    d = e.desc → s.tileStands p = false →
    (∀ u ∈ tilesOf (clusterOf tl), (∀ x ∈ (s.tile (s.phys u)).seq.window, x.desc.opcode = opCtHash → x.phase = .issued ∨ x.held ≤ x.pos)
      ∧ ∀ j x, nextOf s u unitCt [opCtHash] = some (j, x) → e.issuedAt < x.issuedAt ∨ (e.issuedAt = x.issuedAt ∧ tl ≤ u)) →
    s.rd (IH_SALT_CFG_VALID d.saltId) = 1 → s.pvOfTile p = some (s.rd (IH_SALT_CFG_PAVILION d.saltId)) →
    spFault (s.tile p) s.frame d.frameCarried false (hashReads d) [(d.hashDst, d.hashDst + 32 * d.hashBlocks - 1)] = none →
    exec (.ctHash tl chk) s = .next (s.setTile p { s.tile p with seq := { (s.tile p).seq with
        window := modAt (fun w => { WinEntry.began .running chk Stage.reset 0 w with rows := if d.hashFirst then w.rows ++ [saltBytes s d.saltId] else w.rows })
          (s.tile p).seq.window i } })
      ∧ e.held = 4 + 1088 * d.hashBlocks ∧ e.span = 4 + 1088 * d.hashBlocks)
  ∧ (∀ (s : State) (p i : Nat) (e x : WinEntry) (d : Desc) (t : State), (s.tile p).seq.window[i]? = some x → d = e.desc → e.chk = .clean →
    t = hashRead s p i e →
    ∃ y, (t.tile p).seq.window[i]? = some y
      ∧ y.rows = x.rows ++ [if e.pos = 1 then Mem.rdN (s.tile p).spSeen d.hashPrev 32
          else sha256 (e.rows.getLastD [] ++ Mem.rdN (s.tile p).spSeen (512 * d.firstLine + 1024 * ((e.pos - 2) / 1088)) 1024)]
      ∧ (t.tile p).sp = (s.tile p).sp ∧ SameEngines (s.tile p) (t.tile p) ∧ (t.tile p).reg = (s.tile p).reg ∧ t.die = s.die ∧ SameModule s t)
  ∧ ∀ (s : State) (p i a : Nat) (e x : WinEntry) (old row : List Byte) (rest : List (List Byte)) (t : State), (s.tile p).seq.window[i]? = some x →
    x.rows = old :: row :: rest → a = e.desc.hashDst + 32 * ((e.pos - 3) / 1088 - 1) → t = hashWrite s p i e →
    (∀ b, (t.tile p).sp.rd b = if a ≤ b ∧ b < a + row.length ∧ (SMap.look (s.tile p).spNew b (0, 0)).2 ≤ bySpUnit then row.getD (b - a) 0
        else (s.tile p).sp.rd b)
    ∧ SameEngines (s.tile p) (t.tile p) ∧ (t.tile p).reg = (s.tile p).reg ∧ (∀ y, y ≠ p → t.tile y = s.tile y) ∧ t.die = s.die ∧ SameModule s t

/-- CT_SAMPLE (R148, R175, R176, R295): it starts when its cluster's intake port is free and no tile of the cluster has issued one earlier; it reads 256
bytes of logits a tc, and with the last ones the target or draft values enter the Bandstand's staging store under the slot's present step; a commit ends
the slot's step at once. The tile keeps its data. The model's own choices behind it: log entry 18. -/
def Obligations.SamplesAreDelivered : Prop :=
  (∀ (s : State) (tl p i part : Nat) (e : WinEntry) (d : Desc) (chk : Check), tl < 256 → p = s.phys tl → part < 2 →
    nextOf s tl unitCt [opCtSample] = some (i, e) → d = e.desc → d.samplePart = part → s.tileStands p = false →
    (∀ u ∈ tilesOf (clusterOf tl), (∀ x ∈ (s.tile (s.phys u)).seq.window, x.desc.opcode = opCtSample → x.phase = .issued ∨ x.held ≤ x.pos)
      ∧ ∀ j x, nextOf s u unitCt [opCtSample] = some (j, x) → e.issuedAt < x.issuedAt ∨ (e.issuedAt = x.issuedAt ∧ tl ≤ u)) →
    s.pvOfTile p = some (s.rd (BS_SLOT_CFG_PAVILION d.sampleSlot)) → d.sampleVoff + d.sampleCount ≤ s.rd (BS_SLOT_CFG_VOCAB d.sampleSlot) →
    spFault (s.tile p) s.frame false true [(d.netSrc, d.netSrc + 4 * d.sampleCount - 1)] [] = none →
    exec (if part = 0 then .ctSampleTarget tl chk else .ctSampleDraft tl chk) s = .next (begun s p i .running chk Stage.reset 0)
      ∧ e.held = d.flits ∧ e.span = d.flits + 12)
  ∧ (∀ (s : State) (p tl i : Nat) (e x : WinEntry) (d : Desc) (b : List Byte) (t : State), (s.tile p).seq.window[i]? = some x → d = e.desc →
    e.chk = .clean → b = Mem.rdN (s.tile p).spSeen (d.netSrc + 256 * e.pos) (min 256 (4 * d.sampleCount - 256 * e.pos)) → t = sampleRead s p tl i e →
    (t.tile p).sp = (s.tile p).sp ∧ SameEngines (s.tile p) (t.tile p) ∧ (∀ y, y ≠ p → t.tile y = s.tile y) ∧ t.pvs = s.pvs ∧ t.fns = s.fns
      ∧ t.out = s.out
      ∧ (e.pos + 1 < d.flits → t.die = s.die ∧ ∃ y, (t.tile p).seq.window[i]? = some y ∧ y.rows = x.rows ++ [b])
      ∧ (d.flits ≤ e.pos + 1 → deliveryRefused s d.sampleSlot (d.samplePart == 1) d.samplePos d.sampleCount ((s.pvOfTile p).getD 0) = false →
          ∃ v ∈ t.die.band.staging, v.slot = d.sampleSlot ∧ v.draft = (d.samplePart == 1) ∧ v.pos = d.samplePos ∧ v.voff = d.sampleVoff ∧ v.open_ = true
            ∧ v.port = clusterOf tl ∧ v.vals.length = d.sampleCount
            ∧ (∀ k, k < d.sampleCount → v.vals.getD k 0 = w32 (leNat (((e.rows.flatten ++ b).drop (4 * k)).take 4)))
            ∧ ((∀ c ∈ s.die.band.commits, c.slot = d.sampleSlot → c.cycle ≠ bandCycle s) → v.step = (s.slot d.sampleSlot).collect)
            ∧ t.die.band.staging.length = s.die.band.staging.length + 1 ∧ (∀ y ∈ s.die.band.staging, y ∈ t.die.band.staging)))
  ∧ ∀ (s : State) (tl p i : Nat) (e : WinEntry) (d : Desc), tl < 256 → p = s.phys tl → nextOf s tl unitCt [opCtSample] = some (i, e) → d = e.desc →
    d.samplePart = 2 → s.tileStands p = false →
    (∀ u ∈ tilesOf (clusterOf tl), (∀ x ∈ (s.tile (s.phys u)).seq.window, x.desc.opcode = opCtSample → x.phase = .issued ∨ x.held ≤ x.pos)
      ∧ ∀ j x, nextOf s u unitCt [opCtSample] = some (j, x) → e.issuedAt < x.issuedAt ∨ (e.issuedAt = x.issuedAt ∧ tl ≤ u)) →
    s.pvOfTile p = some (s.rd (BS_SLOT_CFG_PAVILION d.sampleSlot)) → slotOpen s d.sampleSlot = true →
    (slotDraft s d.sampleSlot = true ∨ s.rd (BS_SLOT_STATE_PHASE d.sampleSlot) ≠ bsEnded) →
    ∃ t, exec (.ctSampleCommit tl) s = .next t
      ∧ (∃ c ∈ t.die.band.commits, c.slot = d.sampleSlot ∧ c.open_ = true ∧ c.port = clusterOf tl ∧ c.cycle = bandCycle s
          ∧ ((∀ c ∈ s.die.band.commits, c.slot = d.sampleSlot → c.cycle ≠ bandCycle s) → c.step = (s.slot d.sampleSlot).collect))
      ∧ t.die.band.commits.length = s.die.band.commits.length + 1
      ∧ (t.slot d.sampleSlot).collect = (s.slot d.sampleSlot).collect + 1 ∧ t.die.band.staging.length = s.die.band.staging.length
      ∧ (t.tile p).seq.window = modAt (WinEntry.began .running .clean Stage.reset 0)
          (s.tile p).seq.window i
      ∧ (t.tile p).sp = (s.tile p).sp ∧ SameEngines (s.tile p) (t.tile p) ∧ (∀ y, y ≠ p → t.tile y = s.tile y) ∧ t.pvs = s.pvs ∧ t.fns = s.fns
      ∧ t.out = s.out

-- landings and arrivals

/-- A PUT that lands in an open channel of its generation writes its bytes at their place in the receiver's buffer and no other byte, counts, and
adds to its counter; a REMOTE_ADD only adds (R147, R159, R172, R222); a transfer for a closed channel or another generation is dropped, counted, and
writes nothing (R218); a GET reply lands at the GET's place, and the GET retires with its signal (R164).
The model's own choices behind it: log entry 27. -/
def Obligations.TransfersLand : Prop :=
  (∀ (s : State) (i p : Nat) (x : Transfer), s.die.transfers[i]? = some x → x.op = 0 → x.stale = false → AtItsTile s x p →
    (s.tile p).chSeen (TW_RECV_STATE_OPEN x.rchan) = 1 → (s.tile p).chSeen (TW_RECV_STATE_GEN x.rchan) = x.gen → (∀ f ∈ x.air, f.pad = false) →
    ∃ t, exec (.transferLanding i) s = .next t ∧ FlitsLanded (s.tile p) (t.tile p) x byLanding (·.data)
      ∧ (∀ n, (t.tile p).tcVal n = if n = x.rctr ∧ n < 64 then min ((s.tile p).tcVal n + x.rinc) 0xFFFFFFFF else (s.tile p).tcVal n)
      ∧ (t.tile p).rd (TW_RECV_CNT0_MSGS x.rchan) = ((s.tile p).rd (TW_RECV_CNT0_MSGS x.rchan) + 1) % 2 ^ 32
      ∧ (t.tile p).tr = (s.tile p).tr ∧ (t.tile p).mx = (s.tile p).mx ∧ (t.tile p).vx = (s.tile p).vx
      ∧ (t.tile p).seq.window = (s.tile p).seq.window ∧ t.die.transfers = s.die.transfers.filter (fun y => y.id != x.id)
      ∧ (∀ y, y ≠ p → t.tile y = s.tile y) ∧ SameModule s t)
  ∧ (∀ (s : State) (i p : Nat) (x : Transfer), s.die.transfers[i]? = some x → x.op = 4 → x.stale = false → AtItsTile s x p →
    (s.tile p).chSeen (TW_RECV_STATE_OPEN x.rchan) = 1 → (s.tile p).chSeen (TW_RECV_STATE_GEN x.rchan) = x.gen →
    ∃ t, exec (.transferLanding i) s = .next t ∧ (t.tile p).sp = (s.tile p).sp
      ∧ (∀ n, (t.tile p).tcVal n = if n = x.rctr ∧ n < 64 then min ((s.tile p).tcVal n + x.rinc) 0xFFFFFFFF else (s.tile p).tcVal n)
      ∧ (t.tile p).rd (TW_RECV_CNT0_MSGS x.rchan) = ((s.tile p).rd (TW_RECV_CNT0_MSGS x.rchan) + 1) % 2 ^ 32
      ∧ t.die.transfers = s.die.transfers.filter (fun y => y.id != x.id) ∧ (∀ y, y ≠ p → t.tile y = s.tile y) ∧ SameModule s t)
  ∧ (∀ (s : State) (i p : Nat) (x : Transfer), s.die.transfers[i]? = some x → (x.op = 0 ∨ x.op = 4) → x.stale = false → AtItsTile s x p →
    ((s.tile p).chSeen (TW_RECV_STATE_OPEN x.rchan) ≠ 1 ∨ (s.tile p).chSeen (TW_RECV_STATE_GEN x.rchan) ≠ x.gen) →
    ∃ t, exec (.transferLanding i) s = .next t ∧ (t.tile p).sp = (s.tile p).sp ∧ (t.tile p).tc = (s.tile p).tc
      ∧ (t.tile p).rd (TW_RECV_CNT0_DROPPED_MSGS x.rchan) = ((s.tile p).rd (TW_RECV_CNT0_DROPPED_MSGS x.rchan) + 1) % 2 ^ 32
      ∧ (∀ y, y ≠ p → t.tile y = s.tile y) ∧ SameModule s t)
  ∧ ∀ (s : State) (i p k : Nat) (x : Transfer) (e : WinEntry), s.die.transfers[i]? = some x → x.op = 3 → x.stale = false → AtItsTile s x p →
    getEntry s (s.tile p).seq x = some k → (s.tile p).seq.window[k]? = some e →
    ∃ t, exec (.transferLanding i) s = .next t ∧ FlitsLanded (s.tile p) (t.tile p) x byReply (·.data)
      ∧ (t.tile p).seq.window = (s.tile p).seq.window.eraseIdx k
      ∧ (∀ n, (t.tile p).tcVal n
          = if n = e.desc.signal ∧ n < 64 then min ((s.tile p).tcVal n + e.desc.signalInc) 0xFFFFFFFF else (s.tile p).tcVal n)
      ∧ t.die.transfers = s.die.transfers.filter (fun y => y.id != x.id) ∧ (∀ y, y ≠ p → t.tile y = s.tile y) ∧ SameModule s t

/-- A transfer that reaches a receive channel with OPEN 0, or with another GEN, is dropped (R218): nothing of it is written, no counter is raised and no
handler queued; it is counted once in DROPPED_MSGS, and what has not landed of a PUT's or PUT_MSG's payload in DROPPED_BYTES; the tile raises no fault,
and nothing else of the module changes. -/
def Obligations.ClosedChannelsDropTransfers : Prop :=
  ∀ (s : State) (i p : Nat) (x : Transfer) (c : Instr), s.die.transfers[i]? = some x → x.stale = false → AtItsTile s x p →
    ((x.op = 0 ∨ x.op = 4) ∧ c = .transferLanding i ∨ x.op = 1 ∧ c = .messageLanding i ∨ x.op = 2 ∧ c = .getRequestArrival i) →
    ((s.tile p).chSeen (TW_RECV_STATE_OPEN x.rchan) ≠ 1 ∨ (s.tile p).chSeen (TW_RECV_STATE_GEN x.rchan) ≠ x.gen) →
    ∃ t, exec c s = .next t
      ∧ t = ({ s with die := { s.die with transfers := s.die.transfers.filter (fun y => y.id != x.id) } } : State).setTile p (t.tile p)
      ∧ (t.tile p).sp = (s.tile p).sp ∧ SameEngines (s.tile p) (t.tile p) ∧ (t.tile p).seq = (s.tile p).seq
      ∧ (t.tile p).rd (TW_RECV_CNT0_DROPPED_MSGS x.rchan) = ((s.tile p).rd (TW_RECV_CNT0_DROPPED_MSGS x.rchan) + 1) % 2 ^ 32
      ∧ (x.op < 2 → (t.tile p).rd (TW_RECV_CNT2_DROPPED_BYTES x.rchan)
          = ((s.tile p).rd (TW_RECV_CNT2_DROPPED_BYTES x.rchan) + (x.n - x.got)) % 2 ^ 48)
      ∧ (t.tile p).rd (TW_RECV_CNT0_MSGS x.rchan) = (s.tile p).rd (TW_RECV_CNT0_MSGS x.rchan)
      ∧ (∀ off, off ≠ TW_RECV_CNT0_OFF x.rchan → off ≠ TW_RECV_CNT2_OFF x.rchan → (t.tile p).regW off = (s.tile p).regW off)

/-- A message that lands in its ring (R162, R214 to R216): its header and payload fill its slots, a pad record the first slot that it skips, nothing else
of the scratchpad changes; its handler list is queued, behind those of earlier tc and, among those of this tc, in order of receive channels; its
counter is raised. A reset of this tc has emptied the queue, and nothing enters it (R219). The model's own choices behind it: log entry 27. -/
def Obligations.MessagesLand : Prop :=
  ∀ (s : State) (i p : Nat) (x : Transfer) (e : HqEntry), s.die.transfers[i]? = some x → x.op = 1 → x.stale = false → AtItsTile s x p →
    (s.tile p).chSeen (TW_RECV_STATE_OPEN x.rchan) = 1 → (s.tile p).chSeen (TW_RECV_STATE_GEN x.rchan) = x.gen →
    e = { rchan := x.rchan, pos := x.off, n := x.n / 64, pad := x.pad, handler := x.handler } →
    ∃ t, exec (.messageLanding i) s = .next t
      ∧ FlitsLanded (s.tile p) (t.tile p) x byLanding (fun f => if f.pad then padRecord x ((s.tile p).rd (TW_RECV_CFG_SLOTS x.rchan)) else f.data)
      ∧ ((s.tile p).hqNew = 0 → SMap.look (s.tile p).chPrev resetMark 0 ≠ 1 → (t.tile p).seq.hq = (s.tile p).seq.hq ++ [e])
      ∧ (SMap.look (s.tile p).chPrev resetMark 0 ≠ 1 → ∃ l r, (t.tile p).seq.hq = l ++ [e] ++ r
          ∧ (∀ y ∈ r, e.rchan < y.rchan) ∧ (t.tile p).seq.hq.length = (s.tile p).seq.hq.length + 1)
      ∧ (SMap.look (s.tile p).chPrev resetMark 0 = 1 → (t.tile p).seq.hq = (s.tile p).seq.hq)
      ∧ (∀ n, (t.tile p).tcVal n = if n = x.rctr ∧ n < 64 then min ((s.tile p).tcVal n + x.rinc) 0xFFFFFFFF else (s.tile p).tcVal n)
      ∧ (t.tile p).rd (TW_RECV_CNT0_MSGS x.rchan) = ((s.tile p).rd (TW_RECV_CNT0_MSGS x.rchan) + 1) % 2 ^ 32
      ∧ (t.tile p).tr = (s.tile p).tr ∧ (t.tile p).seq.window = (s.tile p).seq.window
      ∧ t.die.transfers = s.die.transfers.filter (fun y => y.id != x.id) ∧ (∀ y, y ≠ p → t.tile y = s.tile y) ∧ SameModule s t

/-- GET windows (R164, R165): a request that arrives at an open read channel counts, and opens a window or joins one of its key that is younger than 16
tc; from age 16 the owner reads the lines once, one each tc, and sends every requester its reply in flits of 256 bytes, on the die or by the port of the
route toward its module. None of this changes the owner's data. The model's own choices behind it: log entries 26, 27. -/
def Obligations.GetWindowsAnswer : Prop :=
  (∀ (s : State) (i p line : Nat) (x : Transfer), s.die.transfers[i]? = some x → x.op = 2 → x.stale = false → AtItsTile s x p →
    (s.tile p).chSeen (TW_RECV_STATE_OPEN x.rchan) = 1 → (s.tile p).chSeen (TW_RECV_STATE_GEN x.rchan) = x.gen →
    line = (s.tile p).rd (TW_RECV_CFG_BASE x.rchan) / 8 + x.line →
    ∃ t, exec (.getRequestArrival i) s = .next t ∧ t.die.transfers = s.die.transfers.filter (fun y => y.id != x.id)
      ∧ ((∀ w ∈ s.die.windows, ¬(w.owner = x.dstTile ∧ w.vc = x.vc ∧ w.line = line ∧ w.lines = x.lines ∧ w.age < 16)) →
          t.die.windows = s.die.windows ++ [⟨x.dstTile, x.vc, line, x.lines, 0, [{ x with air := [] }], false, 0, x.vc, .clean, [], []⟩])
      ∧ ((∃ w ∈ s.die.windows, w.owner = x.dstTile ∧ w.vc = x.vc ∧ w.line = line ∧ w.lines = x.lines ∧ w.age < 16) →
          t.die.windows.length = s.die.windows.length ∧ ∃ w ∈ t.die.windows, { x with air := [] } ∈ w.reqs ∧ w.age < 16)
      ∧ (t.tile p).rd (TW_RECV_CNT0_MSGS x.rchan) = ((s.tile p).rd (TW_RECV_CNT0_MSGS x.rchan) + 1) % 2 ^ 32
      ∧ (t.tile p).sp = (s.tile p).sp ∧ SameEngines (s.tile p) (t.tile p) ∧ (t.tile p).seq = (s.tile p).seq ∧ (∀ y, y ≠ p → t.tile y = s.tile y)
      ∧ SameModule s t)
  ∧ (∀ (s : State) (i : Nat) (w : GetWindow) (chk : Check), s.die.windows[i]? = some w → 16 ≤ w.age → w.started = false →
    (w.vc = 1 → s.tileStands (s.phys w.owner) = false) → (∀ x ∈ w.reqs, x.srcMod = s.index ∨ ∃ port, portToward s x.srcMod = some port) →
    ∃ t rs, exec (.getWindowReply i chk) s = .next t ∧ t.die.transfers = s.die.transfers ++ rs ∧ rs.length = w.reqs.length
      ∧ (∀ k x, w.reqs[k]? = some x → ∃ r, rs[k]? = some r ∧ r.id = s.die.nextXfer + k ∧ r.op = 3 ∧ r.vc = w.vc ∧ r.dstMod = x.srcMod
          ∧ r.dstTile = x.srcTile ∧ r.n = 512 * w.lines ∧ r.left = 2 * w.lines
          ∧ (x.srcMod = s.index → r.leg = 0 ∧ r.off = x.off ∧ r.getAddr = x.getAddr ∧ r.getHandler = x.getHandler)
          ∧ (x.srcMod ≠ s.index → r.leg = 1 ∧ portToward s x.srcMod = some r.port))
      ∧ t.die.windows = modAt (fun w => { w with started := true, chk := chk, replies := (List.range rs.length).map (s.die.nextXfer + ·) }) s.die.windows i
      ∧ t.tiles = s.tiles ∧ SameModule s t)
  ∧ (∀ (s : State) (i : Nat) (w : GetWindow) (b : List Byte) (t : State), s.die.windows[i]? = some w → w.chk = .clean → t = windowRead s i w →
    b = Mem.rdN (s.tile (s.phys w.owner)).spSeen (512 * (w.line + w.pos)) 512 →
    t.die.windows = modAt (fun w => { w with pos := w.pos + 1, rows := w.rows ++ [b.take 256, b.drop 256] }) s.die.windows i
      ∧ t.die.transfers = s.die.transfers ∧ t.tiles = s.tiles ∧ SameModule s t)
  ∧ ∀ (s : State) (i id : Nat) (w : GetWindow) (x : Transfer) (row : List Byte) (rest : List (List Byte)) (t : State), s.die.windows[i]? = some w →
    w.rows = row :: rest → w.replies.Nodup → id ∈ w.replies → s.xfer id = some x → t = windowInject s i →
    ∃ y f, t.xfer id = some y ∧ y.left = x.left - 1 ∧ y.air.getLast? = some f ∧ f.data = row ∧ f.off = 512 * w.pos - 256 * w.rows.length ∧ f.car = w.car
      ∧ t.die.windows = modAt (fun w => { w with rows := rest }) s.die.windows i ∧ t.tiles = s.tiles ∧ SameModule s t

/-- Control words (R171, R212, R217, R219, R231, R238): credits are added to an open send channel up to its SLOTS, and their number to its CREDIT_CTR where
that is enabled; a revocation closes the channel and takes its credits; an arrival at the root adds its ADD and pends, and a total that meets a pending
target leaves as a release; one of machine scope goes on from a module that is not the root; a release retires the waiting descriptors that it meets
and keeps the others. The model's own choices behind it: log entries 22, 27. -/
def Obligations.ControlWordsTakeEffect : Prop :=
  (∀ (s : State) (i p chan count due tl now_ : Nat), s.die.ctls[i]? = some ⟨.credit tl chan count, due, false⟩ → due ≤ s.sun.tick → p = s.phys tl →
    chan < 32 → (s.tile p).rd (TW_SEND_STATE_OPEN chan) = 1 → revokedNow s p chan = false →
    now_ = min ((s.tile p).rd (TW_SEND_STATE_CREDITS chan) + count)
      (max ((s.tile p).rd (TW_SEND_STATE_CREDITS chan)) ((s.tile p).rd (TW_SEND_CFG_SLOTS chan))) →
    ∃ t, exec (.creditArrival i) s = .next t ∧ t.die.ctls = s.die.ctls.eraseIdx i
      ∧ (t.tile p).rd (TW_SEND_STATE_CREDITS chan) = now_
      ∧ (∀ n, (t.tile p).tcVal n = if (s.tile p).rd (TW_SEND_STATE_CREDIT_CTR_EN chan) = 1 ∧ n = (s.tile p).rd (TW_SEND_STATE_CREDIT_CTR chan)
          then min ((s.tile p).tcVal n + (now_ - (s.tile p).rd (TW_SEND_STATE_CREDITS chan))) 0xFFFFFFFF else (s.tile p).tcVal n)
      ∧ (t.tile p).chSeen (TW_SEND_STATE_CREDITS chan) = (s.tile p).chSeen (TW_SEND_STATE_CREDITS chan)
      ∧ (t.tile p).sp = (s.tile p).sp ∧ (t.tile p).tr = (s.tile p).tr ∧ (t.tile p).seq.window = (s.tile p).seq.window
      ∧ (∀ y, y ≠ p → t.tile y = s.tile y) ∧ SameModule s t)
  ∧ (∀ (s : State) (i p chan count due tl : Nat), s.die.ctls[i]? = some ⟨.credit tl chan count, due, false⟩ → due ≤ s.sun.tick → p = s.phys tl →
    (s.tile p).rd (TW_SEND_STATE_OPEN chan) ≠ 1 →
    exec (.creditArrival i) s = .next { s with die := { s.die with ctls := s.die.ctls.eraseIdx i } })
  ∧ (∀ (s : State) (i p chan due tl : Nat) (stale : Bool), s.die.ctls[i]? = some ⟨.revoke tl chan, due, stale⟩ → due ≤ s.sun.tick → p = s.phys tl →
    ∃ t, exec (.revocationArrival i) s = .next t ∧ (t.tile p).rd (TW_SEND_STATE_OPEN chan) = 0 ∧ (t.tile p).rd (TW_SEND_STATE_CREDITS chan) = 0
      ∧ (t.tile p).rd (TW_SEND_STATE_REVOKED chan) = 1 ∧ (t.tile p).chSeen (TW_SEND_STATE_OPEN chan) = (s.tile p).chSeen (TW_SEND_STATE_OPEN chan)
      ∧ t.die = { s.die with ctls := s.die.ctls.eraseIdx i, reports := s.die.reports ++ [{ p := p, kind := 2 }] }
      ∧ (t.tile p).sp = (s.tile p).sp ∧ SameEngines (s.tile p) (t.tile p) ∧ (t.tile p).seq = (s.tile p).seq ∧ (∀ y, y ≠ p → t.tile y = s.tile y)
      ∧ SameModule s t)
  ∧ (∀ (s : State) (i entry seq due : Nat) (a : Arrival), s.die.ctls[i]? = some ⟨.arrive entry false seq a, due, false⟩ → due ≤ s.sun.tick →
    (s.barrier entry).total.toNat + a.add ≤ 0xFFFFFF00 →
    ∃ t, exec (.barrierRootArrival i) s = .next t ∧ (t.barrier entry).total.toNat = (s.barrier entry).total.toNat + a.add
      ∧ (t.barrier entry).pend = (s.barrier entry).pend ++ [a]
      ∧ t.die.ctls = s.die.ctls.eraseIdx i ++
          (if ((s.barrier entry).pend ++ [a]).any (fun x => x.target ≤ (s.barrier entry).total.toNat + a.add)
           then [Ctl.mk (.release entry ((s.barrier entry).total.toNat + a.add)) (due + 20) false] else [])
      ∧ (∀ x, x ≠ entry → t.barrier x = s.barrier x) ∧ t.tiles = s.tiles ∧ SameModule s t)
  ∧ (∀ (s : State) (i entry seq due up : Nat) (a : Arrival) (w : W64), s.die.ctls[i]? = some ⟨.arrive entry true seq a, due, false⟩ → due ≤ s.sun.tick →
    s.rd FB_TREE_ROOT = 0 → up = s.rd FB_TREE_UP_PORT → portCarries s up = true →
    w = ctlWord 0x03 a.module (if a.module = s.index then ctlNumber s 0x03 else seq) (barrierLow entry true a.add) →
    ∃ t, exec (.barrierRootArrival i) s = .next t ∧ t.die.ctls = s.die.ctls.eraseIdx i ∧ (t.port up).ctl = (s.port up).ctl ++ [(w, w64 a.target)]
      ∧ (t.barrier entry).pend = (s.barrier entry).pend ++ (if a.module = s.index then [a] else [])
      ∧ (t.barrier entry).total = (s.barrier entry).total ∧ t.tiles = s.tiles ∧ t.reg = s.reg ∧ t.pvs = s.pvs)
  ∧ ∀ (s : State) (i entry due total p k : Nat) (a : Arrival) (e : WinEntry), s.die.ctls[i]? = some ⟨.release entry total, due, false⟩ →
    due ≤ s.sun.tick → (s.barrier entry).pend = [a] → a.target ≤ total → a.module = s.index → a.mode = 0 → p = s.phys a.tile →
    (s.tile p).seq.window.findIdx? (fun e => e.desc.opcode == opCtBarrier && e.phase == .waiting && e.handler == a.handler && e.addr == a.addr)
      = some k → (s.tile p).seq.window[k]? = some e →
    ∃ t, exec (.barrierReleaseArrival i) s = .next t ∧ (t.barrier entry).pend = [] ∧ t.die.ctls = s.die.ctls.eraseIdx i
      ∧ (t.tile p).seq.window = (s.tile p).seq.window.eraseIdx k
      ∧ (∀ n, (t.tile p).tcVal n
          = if n = e.desc.signal ∧ n < 64 then min ((s.tile p).tcVal n + e.desc.signalInc) 0xFFFFFFFF else (s.tile p).tcVal n)
      ∧ (∀ y, y ≠ p → t.tile y = s.tile y) ∧ SameModule s t

/-- Clears, scrubs and the close of a channel (R180, R188, R193, R200, R217): a clear of an idle tile begins, and then fills a line of the scratchpad or a
beat of the Terrace with zeros in each tc, ascending, until the last one; a tile that is not idle keeps its memory. A scrubber reads its next line 4,096
tc after the last one when port B is free for it, its next beat SCRUB_INTERVAL tc after the last one when MX_LOAD does not read, changes no data, and
before that does nothing. A channel that closes keeps its generation and tells its sender. The model's own choices behind it: log entries 5, 13, 18. -/
def Obligations.TileMemoryUpkeep : Prop :=
  (∀ (s : State) (p : Nat), p < 272 →
    ((s.tile p).seq.run = .idle → exec (.scratchpadClear p) s = .next (s.setTile p { s.tile p with spClear := some 0 })
      ∧ exec (.terraceClear p) s = .next (s.setTile p { s.tile p with trClear := some 0 }))
    ∧ ((s.tile p).seq.run ≠ .idle → exec (.scratchpadClear p) s = .next s ∧ exec (.terraceClear p) s = .next s))
  ∧ (∀ (t : Tile) (n : Nat), t.spClear = some (n + 1) → t.trClear = none →
    (∀ a, (fillStep true t).sp.rd a = if 512 * n ≤ a ∧ a < 512 * n + 512 ∧ (SMap.look t.spNew a (0, 0)).2 ≤ bySpUnit then 0 else t.sp.rd a)
    ∧ (fillStep true t).spClear = (if n = 4095 then none else some (n + 2)) ∧ fillStep false t = t ∧ (fillStep true t).tr = t.tr
    ∧ SameEngines t (fillStep true t))
  ∧ (∀ (t : Tile) (n : Nat) (b : Bool), t.spClear = none → t.trClear = some (n + 1) →
    (∀ a, (fillStep b t).tr.rd a = if 512 * n ≤ a ∧ a < 512 * n + 512 then 0 else t.tr.rd a)
    ∧ (fillStep b t).trClear = (if n = 32767 then none else some (n + 2)) ∧ (fillStep b t).sp = t.sp ∧ (fillStep b t).mx = t.mx
    ∧ (fillStep b t).vx = t.vx ∧ (fillStep b t).tc = t.tc)
  ∧ (∀ (s : State) (p : Nat) (read : Claim), p < 272 → s.retired p = false → read = .row 1 6 (512 * (s.tile p).spScrub) 512 →
    ((s.tile p).spScrubGap = 0 → claimOk s p read = true →
      exec (.scratchpadScrub p .clean) s = .next ((siteClean s siteSp p (64 * (s.tile p).spScrub) (64 * (s.tile p).spScrub + 64)).setTile p
        { s.tile p with spScrub := ((s.tile p).spScrub + 1) % 4096, spScrubGap := 4096, claims := (s.tile p).claims ++ [read] }))
    ∧ (∀ chk, (s.tile p).spScrubGap ≠ 0 ∨ claimOk s p read = false → exec (.scratchpadScrub p chk) s = .next s))
  ∧ (∀ (s : State) (p : Nat), p < 272 → s.retired p = false →
    ((s.tile p).rd TL_TR_CTRL_SCRUB_INTERVAL ≠ 0 → (s.tile p).trScrubGap = 0 →
      (∀ e ∈ (s.tile p).seq.window, e.desc.opcode = opMxLoad → e.phase = .running → e.held ≤ e.pos) →
      ∀ src, exec (.terraceScrub p (.clean, src)) s = .next ((siteClean s siteTerrace p (s.tile p).trScrub ((s.tile p).trScrub + 1)).setTile p
        { s.tile p with trScrub := ((s.tile p).trScrub + 1) % 32768, trScrubGap := (s.tile p).rd TL_TR_CTRL_SCRUB_INTERVAL }))
    ∧ (∀ chk src, (s.tile p).rd TL_TR_CTRL_SCRUB_INTERVAL = 0 ∨ (s.tile p).trScrubGap ≠ 0 → exec (.terraceScrub p (chk, src)) s = .next s))
  ∧ ∀ (s : State) (p n src chan tl : Nat), p < 272 → n < 32 → (s.tile p).rd (TW_RECV_STATE_OPEN n) = 1 → (s.tile p).rd (TW_RECV_CFG_REMOTE n) = 0 →
    src = 16 * (s.tile p).rd (TW_RECV_CFG_SRC_I n) + (s.tile p).rd (TW_RECV_CFG_SRC_J n) → chan = (s.tile p).rd (TW_RECV_CFG_SRC_SCHAN n) →
    s.logical p = some tl →
    ∃ t, exec (.channelClose p n) s = .next t ∧ (t.tile p).rd (TW_RECV_STATE_OPEN n) = 0
      ∧ (t.tile p).rd (TW_RECV_STATE_GEN n) = (s.tile p).rd (TW_RECV_STATE_GEN n)
      ∧ t.die = { s.die with ctls := s.die.ctls ++ [⟨.revoke src chan, s.sun.tick + 3 + hops tl src, false⟩] }
      ∧ (t.tile p).sp = (s.tile p).sp ∧ SameEngines (s.tile p) (t.tile p) ∧ (t.tile p).seq = (s.tile p).seq ∧ (∀ y, y ≠ p → t.tile y = s.tile y)
      ∧ SameModule s t

-- the Footbridge

/-- Transfers cross a link (R229, R232, R233, R235 to R237). A scheduled transfer's first flit claims its slots at the port if it comes in time and they are
free; otherwise the port discards the transfer and its tile is told. A slot that begins outside a hold starts its transfer. A flit that is due 6 tc from
now and is not whole requests a KIND 1 hold. Each mesh flit is injected at its presentation cycle. A channel-0 transfer takes its way to a tile or to the
next port through this module's Trellis, or, without a route, is dropped and counted. The model's own choices behind it: log entries 17, 22, 27. -/
def Obligations.TransfersCrossLinks : Prop :=
  (∀ (s : State) (i : Nat) (x : Transfer) (f : MeshFlit), s.die.transfers[i]? = some x → s.xfer x.id = some x → x.leg = 1 → x.vc = 1 → x.stale = false →
    x.air.filter (atPort s x) = [f] → f.off = 0 → (∀ e ∈ (s.port x.port).egress ++ (s.port x.port).bulk, e.tr.id ≠ x.id) →
    slotCycle s x.port x.fbSlot ≤ s.sun.ctr + 256 → s.sun.ctr < slotCycle s x.port x.fbSlot →
    x.fbSlot + (slotsOf s x.port x).length ≤ 1024 → (∀ k ∈ slotsOf s x.port x, k ∉ (s.port x.port).claims) →
    ∃ t, exec (.scheduledFlitAtPort i) s = .next t ∧ (t.port x.port).claims = (s.port x.port).claims ++ slotsOf s x.port x
      ∧ (t.port x.port).egress = (s.port x.port).egress ++ [⟨x, linkData x + 1, (slotsOf s x.port x).length, false, 0, [(0, f.data)]⟩]
      ∧ (∀ y ∈ t.die.transfers, y.id = x.id → ∀ g ∈ y.air, g.off ≠ 0) ∧ (∀ q, q ≠ x.port → t.port q = s.port q) ∧ t.tiles = s.tiles ∧ SameModule s t)
  ∧ (∀ (s : State) (i : Nat) (x : Transfer) (f : MeshFlit), s.die.transfers[i]? = some x → s.xfer x.id = some x → x.leg = 1 → x.vc = 1 →
    x.stale = false → x.air.filter (atPort s x) = [f] → f.off = 0 → (∀ e ∈ (s.port x.port).egress ++ (s.port x.port).bulk, e.tr.id ≠ x.id) →
    (s.sun.ctr + 256 < slotCycle s x.port x.fbSlot ∨ slotCycle s x.port x.fbSlot ≤ s.sun.ctr ∨ 1024 < x.fbSlot + (slotsOf s x.port x).length
      ∨ ∃ k ∈ slotsOf s x.port x, k ∈ (s.port x.port).claims) →
    ∃ t, exec (.scheduledFlitAtPort i) s = .next t ∧ t.rd (FB_EVENT_SLOT_REFUSED x.port) = 1
      ∧ (∀ y ∈ t.die.transfers, y.id = x.id → y.stale = true)
      ∧ t.die.ctls = s.die.ctls ++ [⟨.refused x.srcTile, s.sun.tick + 3 + portHops x.srcTile x.port, false⟩]
      ∧ (∀ q, t.port q = s.port q) ∧ t.tiles = s.tiles ∧ t.pvs = s.pvs ∧ t.fns = s.fns ∧ t.out = s.out)
  ∧ (∀ (s : State) (p k : Nat), p < 16 → k < 1024 →
    (s.standing = false → slotCycle s p k ≤ s.sun.ctr → exec (.scheduledSlotTransmit p k) s = .next (s.setPort p { s.port p with
      egress := (s.port p).egress.map (fun e => if e.tr.fbSlot = k then { e with started := true } else e) }))
    ∧ (s.standing = true ∨ s.sun.ctr < slotCycle s p k → exec (.scheduledSlotTransmit p k) s = .next s))
  ∧ (∀ (s : State) (p i f : Nat) (e : Ingress), p < 16 → s.rd SD_STATUS_RUNNING = 1 → s.sun.freeze = none → (s.port p).sched[i]? = some e →
    f < e.flits → presentCycle s p e f = s.sun.ctr + 6 → e.got ≤ f → e.asked = none →
    (∀ j x g, j ≠ i → (s.port p).sched[j]? = some x → g < x.flits → presentCycle s p x g = s.sun.ctr + 6 → g < x.got) →
    ∃ t, exec (.lateFlitCheck p) s = .next t ∧ t.rd (FB_EVENT_LATE_SCHED p) = 1 ∧ t.sun.freeze = some (s.sun.ctr + 6)
      ∧ t.sun.holds = [⟨s.index, s.sun.nextSeq, kindSched, p, s.sun.tick + 2, none, false⟩]
      ∧ (t.port p).sched = modAt (fun w => { w with asked := some (s.sun.nextSeq, f) }) (s.port p).sched i
      ∧ t.tiles = s.tiles ∧ t.pvs = s.pvs ∧ t.fns = s.fns ∧ t.die.transfers = s.die.transfers)
  ∧ (∀ (s : State) (p i : Nat) (e : Ingress) (y : Transfer), p < 16 → s.standing = false → (s.port p).sched[i]? = some e →
    (∀ j x, j < i → (s.port p).sched[j]? = some x → presents s p x = false) → e.shown < meshFlits e.tr.n → nextFlit e < e.got → e.drop_ = false →
    presentCycle s p e (nextFlit e) ≤ s.sun.ctr →
    ((e.xfer = none ∧ (∀ z ∈ s.die.transfers, z.id ≠ s.die.nextXfer) ∧ y = { enteringTransfer s p none e with id := s.die.nextXfer })
      ∨ (e.xfer = some y.id ∧ s.xfer y.id = some y)) →
    ∃ t z f, exec (.scheduledFlitPresent p) s = .next t ∧ t.xfer y.id = some z ∧ z.left = y.left - 1 ∧ z.dstTile = y.dstTile ∧ z.air.getLast? = some f
      ∧ f.car = 1 ∧ f.off = 256 * e.shown ∧ f.due = s.sun.ctr + y.flight
      ∧ f.data = (if linkData e.tr = 0 then [] else (e.tr.data.drop (256 * e.shown)).take 256)
      ∧ (t.port p).sched = (if e.shown + 1 = meshFlits e.tr.n then (s.port p).sched.eraseIdx i
          else modAt (fun w => { w with shown := w.shown + 1, xfer := some y.id }) (s.port p).sched i)
      ∧ (∀ q, q ≠ p → t.port q = s.port q) ∧ t.tiles = s.tiles ∧ SameModule s t)
  ∧ (∀ (s : State) (p i : Nat) (e : Ingress), p < 16 → (s.port p).inbound[i]? = some e → e.xfer = none → e.drop_ = false →
    s.rd (FB_ROUTE_VALID e.tr.dstMod) = 0 →
    ∃ t, exec (.bulkTransferRoute p i) s = .next t
      ∧ t.rd (FB_ERR_UNROUTED p) = min (s.rd (FB_ERR_UNROUTED p) + 1) (fldMax (FB_ERR_UNROUTED p))
      ∧ (t.port p).inbound = (if e.got = e.flits then (s.port p).inbound.eraseIdx i
          else modAt (fun w => { w with drop_ := true }) (s.port p).inbound i)
      ∧ SMap.look (t.port p).giveBack e.tr.cls 0 = SMap.look (s.port p).giveBack e.tr.cls 0 + e.got
      ∧ (∀ q, q ≠ p → t.port q = s.port q) ∧ t.die.transfers = s.die.transfers ∧ t.tiles = s.tiles ∧ t.pvs = s.pvs ∧ t.fns = s.fns ∧ t.out = s.out)
  ∧ ∀ (s : State) (p i : Nat) (e : Ingress), p < 16 → (s.port p).inbound[i]? = some e → e.xfer = none → e.drop_ = false →
    s.rd (FB_ROUTE_VALID e.tr.dstMod) ≠ 0 →
    ∃ t y, exec (.bulkTransferRoute p i) s = .next t
      ∧ t.die.transfers = s.die.transfers ++ [y] ∧ t.die.nextXfer = s.die.nextXfer + 1 ∧ y.id = s.die.nextXfer ∧ y.inPort = p
      ∧ y.left = meshFlits e.tr.n ∧ y.dstTile = e.tr.dstTile ∧ y.op = e.tr.op ∧ y.n = e.tr.n
      ∧ (if e.tr.dstMod = s.index then y.leg = e.tr.leg else y.leg = 1 ∧ y.port = s.rd (FB_ROUTE_PORT e.tr.dstMod))
      ∧ (t.port p).inbound = modAt (fun w => { w with xfer := some s.die.nextXfer }) (s.port p).inbound i
      ∧ (∀ q, q ≠ p → t.port q = s.port q) ∧ t.tiles = s.tiles ∧ SameModule s t

/-- Link blocks (R225, R227 to R231): a block that does not decode asks for itself again, and the eighth failure takes the port DOWN; a later block than the
next one is discarded and awaited again; one in order moves the port's number on, its flits enter, and its control words go to their agents; a block
leaves with the next number and is kept, or is one that was asked for again and keeps its number, flits and credits; a test pattern replaces all
traffic. The model's own choices behind it: log entries 17, 22, 33. -/
def Obligations.LinkBlocksCross : Prop :=
  (∀ (s : State) (p n : Nat) (sent raw : List Byte) (b : Block), p < 16 → s.rd (FB_STATUS_STATE p) = 5 → decodeBlock raw = none → b = parseBlock sent →
    n = (if b.seq.toNat = (s.port p).rxSeq then (s.port p).fails + 1 else (s.port p).fails) → n < 8 →
    ∃ t, exec (.linkBlockReceive p sent raw) s = .next t ∧ (t.port p).nak = true ∧ (t.port p).fails = n ∧ (t.port p).rxSeq = (s.port p).rxSeq
      ∧ (2147483648 ≤ ((s.port p).rxSeq + 4294967296 - b.seq.toNat - 1) % 4294967296 → b.seq.toNat ∈ (t.port p).missed)
      ∧ (t.port p).inbound = (s.port p).inbound ∧ (∀ q, q ≠ p → t.port q = s.port q) ∧ t.die.transfers = s.die.transfers ∧ t.tiles = s.tiles
      ∧ SameModule s t)
  ∧ (∀ (s : State) (p : Nat) (sent raw : List Byte), p < 16 → s.rd (FB_STATUS_STATE p) = 5 → decodeBlock raw = none →
    (parseBlock sent).seq.toNat = (s.port p).rxSeq → 7 ≤ (s.port p).fails →
    ∃ t, exec (.linkBlockReceive p sent raw) s = .next t ∧ t.rd (FB_STATUS_STATE p) = 0 ∧ t.rd (FB_EVENT_RETRY_LIMIT p) = 1
      ∧ t.rd (FB_EVENT_LINK_DOWN p) = 1 ∧ t.tiles = s.tiles ∧ t.pvs = s.pvs ∧ t.fns = s.fns)
  ∧ (∀ (s : State) (p n : Nat) (sent raw : List Byte) (b : Block), p < 16 → s.rd (FB_STATUS_STATE p) = 5 → decodeBlock raw = some (b, n) →
    b.seq.toNat ≠ (s.port p).rxSeq → 2147483648 ≤ ((s.port p).rxSeq + 4294967296 - b.seq.toNat - 1) % 4294967296 →
    ∃ t, exec (.linkBlockReceive p sent raw) s = .next t ∧ (t.port p).rxSeq = (s.port p).rxSeq
      ∧ ((s.port p).asking = false → (t.port p).nak = true) ∧ b.seq.toNat ∈ (t.port p).missed ∧ (t.port p).inbound = (s.port p).inbound
      ∧ t.rd (FB_ERR_FEC_CORRECTED p) = min (s.rd (FB_ERR_FEC_CORRECTED p) + n) (fldMax (FB_ERR_FEC_CORRECTED p))
      ∧ (∀ q, q ≠ p → t.port q = s.port q) ∧ t.die.transfers = s.die.transfers ∧ t.tiles = s.tiles ∧ t.pvs = s.pvs ∧ t.fns = s.fns ∧ t.out = s.out)
  ∧ (∀ (s : State) (p n : Nat) (sent raw : List Byte) (b : Block) (f : Flit), p < 16 → s.rd (FB_STATUS_STATE p) = 5 → decodeBlock raw = some (b, n) →
    b.seq.toNat = (s.port p).rxSeq → b.seq.toNat ∉ (s.port p).missed → b.flits.filterMap id = [f] → f.vc < 2 → f.first = true →
    s.replay.standing = false → (∀ e ∈ (s.port p).sched, e.asked = none ∧ e.got ≠ 0) →
    ∃ t e, exec (.linkBlockReceive p sent raw) s = .next t ∧ (t.port p).rxSeq = (b.seq.toNat + 1) % 2 ^ 32 ∧ (t.port p).fails = 0
      ∧ e = ⟨(parseRoute p f.cls f.body).1, (parseRoute p f.cls f.body).2 + 1, 1, 0, none, none, false⟩
      ∧ (f.vc = 1 → (t.port p).sched = (s.port p).sched ++ [e] ∧ (t.port p).inbound = (s.port p).inbound
          ∧ t.rd (FB_TRAFFIC_RX_SCHED_FLITS p) = (s.rd (FB_TRAFFIC_RX_SCHED_FLITS p) + 1) % 2 ^ 32)
      ∧ (f.vc = 0 → (t.port p).inbound = (s.port p).inbound ++ [e] ∧ (t.port p).sched = (s.port p).sched
          ∧ t.rd (FB_TRAFFIC_RX_BULK_FLITS p) = (s.rd (FB_TRAFFIC_RX_BULK_FLITS p) + 1) % 2 ^ 32)
      ∧ SMap.look (t.port p).credits b.creditCls 0 = SMap.look (s.port p).credits b.creditCls 0 + b.credits
      ∧ (∀ q, q ≠ p → t.port q = s.port q) ∧ t.tiles = s.tiles ∧ t.pvs = s.pvs ∧ t.fns = s.fns ∧ t.out = s.out)
  ∧ (∀ (s : State) (p n low : Nat) (sent raw : List Byte) (b : Block) (f : Flit) (w : W64), p < 16 → s.rd (FB_STATUS_STATE p) = 5 →
    decodeBlock raw = some (b, n) → b.seq.toNat = (s.port p).rxSeq → b.seq.toNat ∉ (s.port p).missed → b.flits.filterMap id = [f] → f.vc = 2 →
    f.body = [w, 0, 0, 0, 0, 0, 0, 0] → bits w 7 0 = 6 → low = bits w 63 36 → (∀ e ∈ (s.port p).sched, e.asked = none) →
    ∃ t, exec (.linkBlockReceive p sent raw) s = .next t ∧ (t.port p).rxSeq = (b.seq.toNat + 1) % 2 ^ 32
      ∧ t.die.ctls = s.die.ctls ++ [⟨.credit (low % 256) (low / 256 % 32) (low / 8192), s.sun.tick + 3 + portHops (low % 256) p, s.replay.standing⟩]
      ∧ (t.port p).sched = (s.port p).sched ∧ t.tiles = s.tiles ∧ t.pvs = s.pvs ∧ t.fns = s.fns ∧ t.out = s.out)
  ∧ (∀ (s : State) (p : Nat) (b : Block) (rest : List Block), p < 16 → portCarries s p = true → (s.port p).retry = b :: rest →
    ∃ t y, exec (.linkBlockTransmit p) s = .next t ∧ t.out = s.out ++ [.block p (encodeBlock y)] ∧ y.seq = b.seq ∧ y.flits = b.flits
      ∧ y.credits = b.credits ∧ y.creditCls = b.creditCls ∧ y.nak = (s.port p).nak ∧ y.ack = ((s.port p).rxSeq + 32767) % 32768
      ∧ (t.port p).retry = rest ∧ (t.port p).nak = false ∧ (t.port p).txSeq = (s.port p).txSeq ∧ t.tiles = s.tiles ∧ t.reg = s.reg ∧ t.pvs = s.pvs
      ∧ t.fns = s.fns)
  ∧ (∀ (s : State) (p : Nat), p < 16 → portCarries s p = true → (s.port p).retry = [] →
    ∃ t y, exec (.linkBlockTransmit p) s = .next t ∧ t.out = s.out ++ [.block p (encodeBlock y)] ∧ y.seq.toNat = (s.port p).txSeq % 2 ^ 32
      ∧ y.flits.length = 32 ∧ y.nak = (s.port p).nak ∧ (∃ z ∈ (t.port p).resend, z.seq = y.seq ∧ z.flits = y.flits ∧ z.credits = y.credits)
      ∧ (t.port p).txSeq = ((s.port p).txSeq + 1) % 2 ^ 32 ∧ t.tiles = s.tiles ∧ t.pvs = s.pvs ∧ t.fns = s.fns)
  ∧ ∀ (s : State) (p : Nat), p < 16 → s.rd (FB_CTRL_ENABLE p) = 1 → 0 < s.rd (FB_CTRL_TEST_PATTERN p) → s.rd (FB_CTRL_TEST_PATTERN p) < 4 →
    exec (.linkBlockTransmit p) s = .next { s with out := s.out ++ [.pattern p (s.rd (FB_CTRL_TEST_PATTERN p))] }

/-- The layout of a link block (R226) loses nothing: the block that a port reads from the bytes of a block that another port laid out is that block, its
32 flits with their tags, its number, ACK, NAK and credits. -/
def Obligations.LinkBlocksReadBack : Prop :=
  ∀ (b : Block) (rest : List Byte), b.flits.length = 32 → (∀ f ∈ b.flits.filterMap id, f.vc < 3 ∧ f.cls < 2 ∧ f.body.length = 8) → b.ack < 32768 →
    b.credits < 4096 → b.creditCls < 2 → (blockHead b).length = 2108 ∧ parseBlock (blockHead b ++ rest) = b

/-- Training and loss of signal (R239 to R242): an enabled port begins training in DETECT and goes on state by state; training that succeeds brings it UP
with its peer known, its numbers at 0 and 2,048 credits in each class; training that fails leaves it FAILED; loss of signal takes it DOWN, and a machine's
port requests a hold that it never releases and needs a new alignment; a signal that returns to a DOWN port trains it again, and to another port only
shows in LANES_SIGNAL. The model's own choices behind it: log entries 5, 17, 37. -/
def Obligations.PortsTrain : Prop :=
  (∀ (s : State) (p : Nat) (full : Bool), p < 16 → s.rd (FB_CTRL_ENABLE p) = 1 →
    ∃ t, exec (.portRetrain p full) s = .next t ∧ t.rd (FB_STATUS_STATE p) = 1 ∧ (t.port p).fullAdapt = full
      ∧ (s.rd (FB_STATUS_STATE p) = 5 → t.rd (FB_EVENT_LINK_DOWN p) = 1 ∧ (s.rd (FB_CTRL_IN_MACHINE p) = 1 → (t.port p).cut = true))
      ∧ t.sun = s.sun ∧ t.tiles = s.tiles ∧ t.pvs = s.pvs ∧ t.fns = s.fns ∧ t.out = s.out)
  ∧ (∀ (s : State) (p : Nat), 1 ≤ s.rd (FB_STATUS_STATE p) → s.rd (FB_STATUS_STATE p) < 4 → s.rd (FB_STATUS_LANES_SIGNAL p) = 0xFF →
    s.rd (FB_CTRL_ENABLE p) = 1 → (trainStep s p).rd (FB_STATUS_STATE p) = s.rd (FB_STATUS_STATE p) + 1)
  ∧ (∀ (s : State) (p peerPort peerModule : Nat) (serial : W64) (lanes : W32), p < 16 → peerPort < 16 → peerModule < 4096 →
    0 < s.rd (FB_STATUS_STATE p) → s.rd (FB_STATUS_STATE p) < 5 →
    ∃ t, exec (.trainingComplete p true serial peerPort peerModule lanes) s = .next t ∧ t.rd (FB_STATUS_STATE p) = 5
      ∧ t.rd (FB_STATUS_PEER_PORT p) = peerPort ∧ (t.port p).peer = peerModule ∧ (t.port p).txSeq = 0 ∧ (t.port p).rxSeq = 0
      ∧ (t.port p).credits = [(0, 2048), (1, 2048)] ∧ (t.port p).resend = [] ∧ t.tiles = s.tiles ∧ t.pvs = s.pvs ∧ t.fns = s.fns ∧ t.out = s.out)
  ∧ (∀ (s : State) (p peerPort peerModule : Nat) (serial : W64) (lanes : W32), p < 16 →
    0 < s.rd (FB_STATUS_STATE p) → s.rd (FB_STATUS_STATE p) < 5 →
    exec (.trainingComplete p false serial peerPort peerModule lanes) s = .next (s.wr (FB_STATUS_STATE p) 6))
  ∧ (∀ (s : State) (p : Nat), p < 16 →
    ∃ t, exec (.lossOfSignal p) s = .next t ∧ t.rd (FB_STATUS_STATE p) = 0 ∧ t.rd (FB_EVENT_LOS p) = 1 ∧ t.rd (FB_STATUS_LANES_SIGNAL p) = 0
      ∧ (s.rd (FB_STATUS_STATE p) = 5 → t.rd (FB_EVENT_LINK_DOWN p) = 1)
      ∧ (s.rd (FB_CTRL_IN_MACHINE p) = 1 → s.replay.standing = false → s.sun.freeze = none → (s.rd (FB_STATUS_STATE p) ≠ 0 ∨ (s.port p).downHold = none) →
          t.sun.holds = [⟨s.index, s.sun.nextSeq, kindSched, p, s.sun.tick + 2, none, false⟩] ∧ (t.port p).downHold = some s.sun.nextSeq)
      ∧ (s.rd (FB_CTRL_IN_MACHINE p) = 0 → t.sun = s.sun) ∧ t.tiles = s.tiles ∧ t.pvs = s.pvs ∧ t.fns = s.fns)
  ∧ (∀ (s : State) (p : Nat), p < 16 → s.rd (FB_STATUS_STATE p) = 0 → s.rd (FB_CTRL_ENABLE p) = 1 →
    ∃ t, exec (.signalReturn p) s = .next t ∧ t.rd (FB_STATUS_STATE p) = 1 ∧ t.rd (FB_STATUS_LANES_SIGNAL p) = 0xFF
      ∧ (t.port p).fullAdapt = false ∧ t.tiles = s.tiles ∧ t.pvs = s.pvs ∧ t.fns = s.fns ∧ t.out = s.out)
  ∧ ∀ (s : State) (p : Nat), p < 16 → s.rd (FB_STATUS_STATE p) ≠ 0 →
    exec (.signalReturn p) s = .next (s.wr (FB_STATUS_LANES_SIGNAL p) 0xFF)

-- the Lodge cores

/-- A Lodge core (R243 to R248, R250, R257): released, it starts at its reset vector with its SRAM kept; held in reset it runs nothing; an instruction has
its RV64IMAFC effect (here ADDI, LD and SD on a tile's scratchpad, ECALL) and counts in minstret; a store enters the buffer of 8, waits when it is full
and is written to its bank when port W grants it; an enabled interrupt that is pending is taken instead.
The model's own choices behind it: log entries 5, 7, 15, 36. -/
def Obligations.LodgeCoresRun : Prop :=
  (∀ (s : State) (k : Nat), k < 16 → (s.lodge k).rd LG_CTRL_RUN = 0 →
    ∃ l, exec (.lodgeRun k true) s = .next (s.setLodge k l) ∧ l.rd LG_CTRL_RUN = 1 ∧ lodgeState l = 1 ∧ l.pc = 0 ∧ (∀ n, l.xr n = 0) ∧ l.reserve = none
      ∧ l.isram = (s.lodge k).isram ∧ l.dsram = (s.lodge k).dsram ∧ l.evq = (s.lodge k).evq ∧ l.msgs = (s.lodge k).msgs ∧ l.stores = (s.lodge k).stores
      ∧ (∀ o, o ≠ LG_CTRL_OFF → l.regW o = (s.lodge k).regW o))
  ∧ (∀ (s : State) (k : Nat), k < 16 →
    ∃ l, exec (.lodgeRun k false) s = .next (s.setLodge k l) ∧ lodgeState l = 0 ∧ l.isram = (s.lodge k).isram ∧ l.dsram = (s.lodge k).dsram
      ∧ l.stores = (s.lodge k).stores ∧ l.evq = (s.lodge k).evq ∧ (∀ o, o ≠ LG_CTRL_OFF → l.regW o = (s.lodge k).regW o))
  ∧ (∀ (s : State) (k : Nat) (chk : Check), k < 16 → (s.lodge k).rd LG_CTRL_RUN = 0 → exec (.lodgeInstruction k chk) s = .next s)
  ∧ (∀ (s : State) (k w a : Nat) (l : Lodge), k < 16 → l = s.lodge k → l.rd LG_CTRL_RUN = 1 → l.wfi = false → lodgePending l = false →
    a = l.pc.toNat → a + 4 ≤ 0x10000 → w = Mem.rdLe l.isram a 4 → w % 128 = 0x13 → rvF3 w = 0 →
    ∃ m, exec (.lodgeInstruction k .clean) s = .next (s.setLodge k m) ∧ m.pc = l.pc + 4
      ∧ (∀ n, m.xr n = if n = rvRd w ∧ n ≠ 0 then l.xr (rvRs1 w) + rvImmI w else l.xr n)
      ∧ (∀ n, n ≠ 0xB02 → m.csrW n = l.csrW n) ∧ m.csrW 0xB02 = l.csrW 0xB02 + 1
      ∧ m.isram = l.isram ∧ m.dsram = l.dsram ∧ m.f = l.f ∧ m.reg = l.reg ∧ m.evq = l.evq ∧ m.stores = l.stores)
  ∧ (∀ (s : State) (k w a t x : Nat) (v : W64) (l : Lodge), k < 16 → l = s.lodge k → l.rd LG_CTRL_RUN = 1 → l.wfi = false → lodgePending l = false →
    a = l.pc.toNat → a + 4 ≤ 0x10000 → w = Mem.rdLe l.isram a 4 → w % 128 = 0x03 → rvF3 w = 3 → v = l.xr (rvRs1 w) + rvImmI w → v.toNat % 8 = 0 →
    lodgeMap s k v.toNat = .pad t x → windowOk (s.tile (s.phys t)) (x, x + 7) = true → claimOk s (s.phys t) (padRead x 8) = true →
    ∃ u, exec (.lodgeInstruction k .clean) s = .next u ∧ (u.lodge k).pc = l.pc + 4
      ∧ (∀ n, (u.lodge k).xr n = if n = rvRd w ∧ n ≠ 0 then w64 (Mem.rdLe (padSeen s k t) x 8) else l.xr n)
      ∧ (u.lodge k).dsram = l.dsram ∧ (u.lodge k).stores = l.stores ∧ (∀ p, (u.tile p).sp = (s.tile p).sp) ∧ SameModule s u)
  ∧ (∀ (s : State) (k w a t x : Nat) (v : W64) (l : Lodge), k < 16 → l = s.lodge k → l.rd LG_CTRL_RUN = 1 → l.wfi = false → lodgePending l = false →
    a = l.pc.toNat → a + 4 ≤ 0x10000 → w = Mem.rdLe l.isram a 4 → w % 128 = 0x23 → rvF3 w = 3 → v = l.xr (rvRs1 w) + rvImmS w → v.toNat % 8 = 0 →
    lodgeMap s k v.toNat = .pad t x →
    (l.stores.length = 8 → exec (.lodgeInstruction k .clean) s = .next s)
    ∧ (l.stores.length < 8 → windowOk (s.tile (s.phys t)) (x, x + 7) = true →
      ∃ m, exec (.lodgeInstruction k .clean) s = .next (s.setLodge k m) ∧ m.stores = l.stores ++ [.bytes t x (leBytes 8 (l.xr (rvRs2 w)).toNat)]
        ∧ m.pc = l.pc + 4 ∧ m.x = l.x ∧ m.isram = l.isram ∧ m.dsram = l.dsram ∧ m.reg = l.reg ∧ m.csrW 0xB02 = l.csrW 0xB02 + 1)
    ∧ (l.stores.length < 8 → windowOk (s.tile (s.phys t)) (x, x + 7) = false →
      ∃ m, exec (.lodgeInstruction k .clean) s = .next (s.setLodge k m) ∧ m.stores = l.stores ∧ m.pc = l.csrW 0x305 &&& ~~~ 3 ∧ m.csrW 0x341 = l.pc
        ∧ m.csrW 0x342 = 7 ∧ m.csrW 0x343 = v ∧ m.rd LG_ERR_VALID = 1 ∧ (l.rd LG_ERR_VALID = 0 → m.rd LG_ERR_KIND = 1) ∧ m.x = l.x ∧ m.dsram = l.dsram))
  ∧ (∀ (s : State) (k t x : Nat) (b : List Byte) (r : List Store), (s.lodge k).stores = .bytes t x b :: r → x + b.length ≤ 2 ^ 21 →
    claimOk s (s.phys t) (.row 2 9 x b.length) = true → (s.tile (s.phys t)).spNew = [] →
    ((drainStore s k).lodge k).stores = r
      ∧ (∀ n, ((drainStore s k).tile (s.phys t)).sp.rd n = if x ≤ n ∧ n < x + b.length then b.getD (n - x) 0 else (s.tile (s.phys t)).sp.rd n)
      ∧ (∀ y, y ≠ s.phys t → (drainStore s k).tile y = s.tile y) ∧ SameModule s (drainStore s k))
  ∧ (∀ (s : State) (k a : Nat) (l : Lodge), k < 16 → l = s.lodge k → l.rd LG_CTRL_RUN = 1 → l.wfi = false → lodgePending l = false →
    a = l.pc.toNat → a + 4 ≤ 0x10000 → Mem.rdLe l.isram a 4 = 0x73 →
    ∃ m, exec (.lodgeInstruction k .clean) s = .next (s.setLodge k m) ∧ m.pc = l.csrW 0x305 &&& ~~~ 3 ∧ m.csrW 0x341 = l.pc ∧ m.csrW 0x342 = 11
      ∧ m.csrW 0x343 = 0 ∧ m.csrW 0xB02 = l.csrW 0xB02 ∧ m.x = l.x ∧ m.isram = l.isram ∧ m.dsram = l.dsram ∧ m.reg = l.reg ∧ m.stores = l.stores)
  ∧ ∀ (s : State) (k : Nat) (chk : Check) (l : Lodge), k < 16 → l = s.lodge k → l.rd LG_CTRL_RUN = 1 → lodgePending l = true →
    bit (l.csrW 0x300) 3 = true → bit (l.csrW 0x304) 11 = true → bit (l.csrW 0x305) 0 = false →
    ∃ m, exec (.lodgeInstruction k chk) s = .next (s.setLodge k m) ∧ m.pc = l.csrW 0x305 &&& ~~~ 3 ∧ m.csrW 0x341 = l.pc
      ∧ m.csrW 0x342 = w64 (2 ^ 63 + 11) ∧ bit (m.csrW 0x300) 3 = false ∧ m.wfi = false ∧ m.x = l.x ∧ m.isram = l.isram ∧ m.dsram = l.dsram
      ∧ m.reg = l.reg ∧ m.stores = l.stores

/-- Masks, watches and events (R250, R252, R257): positions that the slot's mask core reports are complete, others change nothing; a watch is armed
with its tile, counter and value; it fires once the counter has its value, and with BROKEN if the counter is orphaned; a read of LG_BSEVENT takes the
head; a host's writes change nothing. The model's own choices behind it: log entries 5, 33. -/
def Obligations.MaskCoresAreServed : Prop :=
  (∀ (s : State) (k slot positions : Nat), k < 16 → slot < 1024 → positions < 512 →
    (maskBuilder s k slot = true →
      ∃ t, exec (.bsmaskDone (.lodge k) k slot positions) s = .next t ∧ (t.slot slot).done = (s.slot slot).done ||| w64 positions
        ∧ (t.slot slot).mask = (s.slot slot).mask ∧ (∀ x, x ≠ slot → t.slot x = s.slot x) ∧ t.die.lodges = s.die.lodges ∧ t.tiles = s.tiles
        ∧ SameModule s t)
    ∧ (maskBuilder s k slot = false → exec (.bsmaskDone (.lodge k) k slot positions) s = .next s)
    ∧ ∀ f, fnOk f = true → exec (.bsmaskDone (.host f) k slot positions) s = .next s)
  ∧ (∀ (s : State) (k n : Nat) (v : W64), k < 16 → n < 8 → bits v 62 62 = 0 →
    (∃ l, exec (.watchArm (.lodge k) k n v) s = .next (s.setLodge k l) ∧ l.rd (LG_WATCH_ARM n) = bits v 63 63
      ∧ l.rd (LG_WATCH_TILE n) = bits v 55 52 ∧ l.rd (LG_WATCH_COUNTER n) = bits v 51 46 ∧ l.rd (LG_WATCH_VALUE n) = bits v 31 0
      ∧ l.rd (LG_WATCH_FIRED n) = (s.lodge k).rd (LG_WATCH_FIRED n) ∧ (∀ o, o ≠ LG_WATCH_OFF n → l.regW o = (s.lodge k).regW o)
      ∧ l.x = (s.lodge k).x ∧ l.pc = (s.lodge k).pc ∧ l.stores = (s.lodge k).stores ∧ l.msgs = (s.lodge k).msgs)
    ∧ ∀ f, fnOk f = true → exec (.watchArm (.host f) k n v) s = .next s)
  ∧ (∀ (s : State) (k n p c : Nat), k < 16 → n < 8 → (s.lodge k).rd (LG_WATCH_ARM n) = 1 →
    p = s.phys ((tilesOf k).getD ((s.lodge k).rd (LG_WATCH_TILE n)) 0) → c = (s.lodge k).rd (LG_WATCH_COUNTER n) →
    (((s.tile p).orphaned.getLsbD c = true ∨ (s.lodge k).rd (LG_WATCH_VALUE n) ≤ (s.tile p).tcSeen c) →
      ∃ l, exec (.watchFire k n) s = .next (s.setLodge k l) ∧ l.rd (LG_WATCH_ARM n) = 0 ∧ l.rd (LG_WATCH_FIRED n) = 1
        ∧ l.rd (LG_WATCH_BROKEN n) = (if (s.tile p).orphaned.getLsbD c then 1 else 0) ∧ bit (lodgeIrq l) 0 = true
        ∧ (∀ o, o ≠ LG_WATCH_OFF n → l.regW o = (s.lodge k).regW o) ∧ l.x = (s.lodge k).x ∧ l.pc = (s.lodge k).pc ∧ l.evq = (s.lodge k).evq)
    ∧ ((s.tile p).orphaned.getLsbD c = false → (s.tile p).tcSeen c < (s.lodge k).rd (LG_WATCH_VALUE n) → exec (.watchFire k n) s = .next s))
  ∧ (∀ (s : State) (k n : Nat), k < 16 → n < 8 → (s.lodge k).rd (LG_WATCH_ARM n) = 0 → exec (.watchFire k n) s = .next s)
  ∧ ∀ (s : State) (k : Nat) (e : BsEvent) (r : List BsEvent), k < 16 → (s.lodge k).evq = e :: r → e.kind < 8 → e.count < 16 → e.slot < 1024 →
    ∃ v, exec (.bseventRead k) s = .next { (s.setLodge k { s.lodge k with evq := r }) with out := s.out ++ [.lodgeRead k v] }
      ∧ bits v 63 63 = 1 ∧ bits v 62 60 = e.kind ∧ bits v 59 56 = e.count ∧ bits v 41 32 = e.slot ∧ bits v 31 0 = e.frame.toNat

-- loading

/-- Staging and loading (R352, R353, R369 to R371, R373, R374): an entry of the shard table gives its shard an address; a shard that decrypts is staged
under the stacks' own encryption, and the last one ends the command with DONE; one that does not is asked for once more, and then ends it with INTEGRITY_FAILED; its limit ends it
with TIMEOUT; a staged slice that nothing holds can be dropped; LOAD_MODEL with an image that passes its checks takes the pavilion to
STAGING with its Terraces cleared, and the end of the shift-in to LOADED with that image placed, or to EMPTY after an error.
The model's own choices behind it: log entries 13, 14, 20, 32, 48. -/
def Obligations.SlicesStageAndLoad : Prop :=
  (∀ (s : State) (q k : Nat) (x : Slice) (table : List (W64 × W64)), q < 4 → stagingOf s q = some (k, x) →
    ∃ y, exec (.shardTablePoll q table) s = .next (s.setSlice k y) ∧ y.key = x.key ∧ y.stripes = x.stripes ∧ y.ready = x.ready ∧ y.shards.length = x.shards.length
      ∧ ∀ (i : Nat) (e : Shard) (a b : W64), x.shards[i]? = some e → e.addr = none → table[i]? = some (a, b) → bit b 63 = true →
          bits b 31 0 = e.length → bits a 5 0 = 0 → y.shards[i]? = some { e with addr := some a.toNat })
  ∧ (∀ (s : State) (q k i : Nat) (x : Slice) (e : Shard) (c : Option (List Byte)), q < 4 → i < 8192 → stagingOf s q = some (k, x) →
    x.shards[i]? = some e → i ∈ fetching x → s.sun.time ≤ x.deadline →
    exec (.shardVerify q i c) s = .next (match shardPlain x e c with
      | some p =>
        if (x.shards.set i { e with verified := true }).all (·.verified) then
          endStaging ((stageUnits x (e.length / 512) (e.offset / 512) p s).setSlice k { x with shards := x.shards.set i { e with verified := true } })
            k stDone 0
        else (stageUnits x (e.length / 512) (e.offset / 512) p s).setSlice k { x with shards := x.shards.set i { e with verified := true } }
      | none =>
        if e.tries = 0 then s.setSlice k { x with shards := x.shards.set i { e with tries := 1 } } else endStaging s k stIntegrityFailed i))
  ∧ (∀ (x : Slice) (e : Shard), shardPlain x e none = none)
  ∧ (∀ (s : State) (x : Slice) (n u : Nat) (b : List Byte), stageUnits x (n + 1) u b s = stageUnits x n (u + 1) (b.drop 512) (stageUnit s x u (b.take 512))
    ∧ (stageUnit s x u (b.take 512)).die.hbm
        = Mem.wrN s.die.hbm (hbmKey (slicePlace s x (512 * u))) (xtsUnit false s.die.oyKey (unitTweak (slicePlace s x (512 * u))) (b.take 512))
    ∧ (stageUnit s x u (b.take 512)).tiles = s.tiles ∧ SameModule s (stageUnit s x u (b.take 512)))
  ∧ (∀ (s : State) (q k : Nat) (x : Slice), q < 4 → stagingOf s q = some (k, x) → x.deadline ≤ s.sun.time →
    exec (.stagingTimeout q) s = .next (endStaging s k stTimeout ((x.shards.findIdx? (fun e => !e.verified)).getD 0)))
  ∧ (∀ (s : State) (k status detail : Nat) (x : Slice), s.slice? k = some x → status ≠ stDone →
    (endStaging s k status detail).slice? k = none ∧ (endStaging s k status detail).tiles = s.tiles
      ∧ (endStaging s k status detail).pvs = s.pvs ∧ (endStaging s k status detail).die.hbm = s.die.hbm)
  ∧ (∀ (s : State) (f : Func) (cmd : W64) (a : SMap W64) (q : Nat) (x : Slice), Submitted s f 0x23 cmd a → namedPv s f cmd = some q →
    faulty a [0x3F] (fun w => w == 0 && (ownSlice s q (arg a 0 5 0)).isNone) = none → (s.pv q).run.st ∈ [1, 2, 3, 4, 5, 6] →
    ownSlice s q (arg a 0 5 0) = some x → sliceHeld s q (arg a 0 5 0) x = false →
    exec (.sliceDrop f) s = .next (answer (s.dropSlice (arg a 0 5 0)) (fnNum f) stDone 0 0 []))
  ∧ (∀ (s : State) (f : Func) (manifest : List Byte) (cmd : W64) (a : SMap W64) (q k : Nat), Submitted s f 0x22 cmd a → namedPv s f cmd = some q →
    faulty a [wholeWord, 0xFFFFFFFF, wholeWord, 0xFFFFFFFF] (stageBad s manifest q a) = none → (s.pv q).run.st ∈ [1, 2, 3, 4, 5, 6] →
    flightsFull s (fnNum f) = false → pvBusy s q = false → k = firstFree s.die.slices 0 → k < 50 →
    stripesNeeded s q ((mWord (manifest.take (arg a 1 31 0)) 2).toNat + (mWord (manifest.take (arg a 1 31 0)) 3).toNat)
      ≤ (freeStripes s q).length →
    ∃ u, exec (.hamperStage f manifest) s = .next (unwrap u q k (manifest.take (arg a 1 31 0)))
      ∧ u = (accept s (fnNum f) 0x22 (some q) (loadTimeout a * 1000) [w64 k]).setSlice k (newSlice s q (fnNum f) (manifest.take (arg a 1 31 0)) a)
      ∧ (u.fn (fnNum f)).rd MB_STATUS_STATUS = stAccepted ∧ u.reg = s.reg ∧ u.tiles = s.tiles ∧ u.pvs = s.pvs
      ∧ (∀ key, (unwrap u q k (manifest.take (arg a 1 31 0))).slice? k = some key → key.pv = q ∧ key.ready = false))
  ∧ (∀ (s : State) (f : Func) (image : Image) (cmd : W64) (a : SMap W64) (q : Nat), Submitted s f 0x24 cmd a → namedPv s f cmd = some q →
    faulty a [0x3F, wholeWord, 0xFFFFFFFF] (fun w => w == 1 && arg a 1 5 0 != 0) = none → (s.pv q).run.st = 1 →
    stagedFor s q (arg a 0 5 0) = true → flightsFull s (fnNum f) = false → pvBusy s q = false →
    q < 4 → ∃ t, exec (.loadModel f image) s = .next t ∧ (∀ x, x ≠ q → t.pv x = s.pv x) ∧ t.gate = s.gate ∧ t.mod = s.mod
      ∧ (loadCheck (enterState (accept s (fnNum f) 0x24 (some q) 2000 []) q pvStaging) q image = none → (t.pv q).run.st = pvStaging
        ∧ (t.pv q).run.load = some ⟨fnNum f, (s.fn (fnNum f)).nextTicket, arg a 0 5 0, image⟩ ∧ (∀ p ∈ s.pvTiles q, (t.tile p).tr = [])
        ∧ (∀ p, (t.tile p).sp = (s.tile p).sp))
      ∧ (loadCheck (enterState (accept s (fnNum f) 0x24 (some q) 2000 []) q pvStaging) q image ≠ none →
        (t.pv q).run.st = 1 ∧ (t.pv q).run.load = (s.pv q).run.load ∧ t.tiles = s.tiles))
  ∧ (∀ (s : State) (q : Nat) (j : LoadJob) (x : Slice), q < 4 → (s.pv q).run.load = some j → s.slice? j.slice = some x →
    ∃ t, exec (.shiftInComplete q .clean) s = .next t ∧ (t.pv q).run.st = pvLoaded ∧ (t.pv q).run.load = none
      ∧ (t.pv q).run.loaded = some j.slice ∧ (t.pv q).run.image = some j.image
      ∧ (∀ (pos u : Nat), (s.sliceTiles q)[pos]? = some u → (t.tile (s.phys u)).tr = sliceTerrace s x pos)
      ∧ (∀ y, y ≠ q → t.pv y = s.pv y) ∧ t.sun.ctr = s.sun.ctr ∧ t.gate = s.gate ∧ t.mod = s.mod)
  ∧ ∀ (s : State) (q u n : Nat) (j : LoadJob) (x : Slice), q < 4 → (s.pv q).run.load = some j → s.slice? j.slice = some x →
    ∃ t, exec (.shiftInComplete q (.uncorrectable u n)) s = .next t ∧ (t.pv q).run.st = pvEmpty ∧ (t.pv q).run.load = none
      ∧ (t.pv q).run.loaded = none ∧ (t.pv q).run.image = none ∧ (∀ p ∈ s.pvTiles q, (t.tile p).tr = []) ∧ (∀ p, (t.tile p).sp = (s.tile p).sp)
      ∧ (∀ y, y ≠ q → t.pv y = s.pv y)

-- serving

/-- Request and completion rings (R285, R286, R304, R348 to R350, R355): a record that the checks accept joins the end of the waiting list, one
that they do not gets a record of KIND REFUSED; both advance REQ_CI in the write-back record. A CANCEL of a known tag waits for the tick. A doorbell
moves its index, or sets RING_ERROR and moves nothing. Held records move to the ring in order.
The lead of a pool looks a request up (R278, R279), another module passes it to the lead.
The model's own choices behind it: log entries 5, 14, 31. -/
def Obligations.RequestsEnterAndLeave : Prop :=
  (∀ (s : State) (q : Nat) (i : Image) (r : Rings) (rec : List W64) (tokens : List Nat) (prompt : List Nat), q < 4 → mayRead s q = some i →
    (s.pv q).front.rings = some r → bits (rec.getD 0 0) 7 0 ≠ 2 → prompt = (List.range (bits (rec.getD 2 0) 18 0)).map (fun k => tokens.getD k 0) →
    refusing s q = false → submitBad s q i rec prompt = false →
    hopeless s (bits (rec.getD 0 0) 27 16) (bits (rec.getD 2 0) 18 0) (s.rd (TS_TENANT_CFG_CLASS (bits (rec.getD 0 0) 27 16))) = false →
    ∃ t x, exec (.submitRecord q rec tokens) s = .next t ∧ (t.pv q).front.waiting = (s.pv q).front.waiting ++ [x]
      ∧ x.tag = bits (rec.getD 0 0) 63 32 ∧ x.tenant = bits (rec.getD 0 0) 27 16 ∧ x.words = rec ∧ x.prompt = prompt
      ∧ x.cls = s.rd (TS_TENANT_CFG_CLASS x.tenant) ∧ x.since = s.sun.time ∧ x.cancelled = false ∧ x.emitted = 0
      ∧ (t.pv q).front.rings = some { r with reqCi := r.reqCi + 1 }
      ∧ t.out = s.out ++ [.hostWrite r.fn r.wb [setBits (setBits 0 31 0 (r.reqCi + 1).toNat) 63 32 r.cplPi.toNat, 0]]
      ∧ (t.pv q).front.live = (s.pv q).front.live ∧ (t.pv q).run = (s.pv q).run ∧ (∀ y, y ≠ q → t.pv y = s.pv y)
      ∧ t.reg = s.reg ∧ t.tiles = s.tiles ∧ t.fns = s.fns ∧ t.die = s.die)
  ∧ (∀ (s : State) (q : Nat) (i : Image) (r : Rings) (rec : List W64) (tokens : List Nat) (prompt : List Nat) (status : Nat), q < 4 →
    mayRead s q = some i → (s.pv q).front.rings = some r → (s.pv q).front.store = [] → ringRoom r = true → bits (rec.getD 0 0) 7 0 ≠ 2 →
    prompt = (List.range (bits (rec.getD 2 0) 18 0)).map (fun k => tokens.getD k 0) →
    (status = stStateConflict ∧ refusing s q = true ∨ status = stBadArgument ∧ refusing s q = false ∧ submitBad s q i rec prompt = true
      ∨ status = stNoResource ∧ refusing s q = false ∧ submitBad s q i rec prompt = false
        ∧ hopeless s (bits (rec.getD 0 0) 27 16) (bits (rec.getD 2 0) 18 0) (s.rd (TS_TENANT_CFG_CLASS (bits (rec.getD 0 0) 27 16))) = true) →
    ∃ t ws, exec (.submitRecord q rec tokens) s = .next t
      ∧ .hostWrite r.fn (r.cplBase + 64 * (r.cplPi.toNat % 2 ^ r.cplN)) ws ∈ t.out
      ∧ bits (ws.getD 0 0) 7 0 = 3 ∧ bits (ws.getD 0 0) 15 8 = status ∧ bits (ws.getD 0 0) 63 32 = bits (rec.getD 0 0) 63 32
      ∧ bits (ws.getD 0 0) 19 16 = 0 ∧ bits (ws.getD 5 0) 59 48 = bits (rec.getD 0 0) 27 16 ∧ ws.getD 7 0 = w64 s.frame
      ∧ (t.pv q).front.rings = some { r with reqCi := r.reqCi + 1, cplPi := r.cplPi + 1 }
      ∧ (t.pv q).front.waiting = (s.pv q).front.waiting ∧ (t.pv q).front.live = (s.pv q).front.live ∧ (t.pv q).run = (s.pv q).run
      ∧ t.reg = s.reg ∧ t.tiles = s.tiles ∧ t.die = s.die)
  ∧ (∀ (s : State) (q : Nat) (rec : List W64) (tokens : List Nat), q < 4 → mayRead s q = none →
    exec (.submitRecord q rec tokens) s = .next s ∧ exec (.cancelRecord q rec) s = .next s)
  ∧ (∀ (s : State) (q tag : Nat) (i : Image) (x : Req) (r : Rings) (rec : List W64), q < 4 → mayRead s q = some i →
    (s.pv q).front.rings = some r → bits (rec.getD 0 0) 7 0 = 2 → bits (rec.getD 0 0) 31 28 = 0 → bits (rec.getD 0 0) 15 8 = 0 →
    (rec.drop 1).all (· == 0) = true → tenantOf s q (bits (rec.getD 0 0) 27 16) = true → refusing s q = false → tag = bits (rec.getD 0 0) 63 32 →
    findReq s q tag = some x → x.cancelled = false → tag ∉ (s.pv q).front.cancels →
    ∃ t, exec (.cancelRecord q rec) s = .next t ∧ (t.pv q).front.cancels = (s.pv q).front.cancels ++ [tag]
      ∧ (t.pv q).front.rings = some { r with reqCi := r.reqCi + 1 } ∧ (t.pv q).front.waiting = (s.pv q).front.waiting
      ∧ (t.pv q).front.live = (s.pv q).front.live ∧ (t.pv q).run = (s.pv q).run ∧ t.reg = s.reg ∧ t.tiles = s.tiles ∧ t.fns = s.fns ∧ t.die = s.die)
  ∧ (∀ (s : State) (f : Func) (q : Nat) (r : Rings) (v : W64) (x : W32), fnOk f = true → q < 4 → (s.pv q).front.rings = some r → r.fn = fnNum f →
    x = v.setWidth 32 →
    ((x - r.reqCi).toNat ≤ 2 ^ r.reqN ∧ (r.reqPi - r.reqCi).toNat ≤ (x - r.reqCi).toNat →
      ∃ t, exec (.mbReqDb f q v) s = .next t ∧ (t.pv q).front.rings = some { r with reqPi := x, stalled := false } ∧ t.fns = s.fns
        ∧ (t.pv q).front.waiting = (s.pv q).front.waiting ∧ (t.pv q).run = (s.pv q).run ∧ t.reg = s.reg ∧ t.tiles = s.tiles ∧ t.out = s.out)
    ∧ (2 ^ r.reqN < (x - r.reqCi).toNat ∨ (x - r.reqCi).toNat < (r.reqPi - r.reqCi).toNat →
      ∃ t, exec (.mbReqDb f q v) s = .next t ∧ (t.pv q).front.rings = some { r with stalled := false } ∧ (t.fn r.fn).rd MB_EVENT_RING_ERROR = 1
        ∧ t.reg = s.reg ∧ t.tiles = s.tiles)
    ∧ ((x - r.cplCi).toNat ≤ (r.cplPi - r.cplCi).toNat →
      ∃ t, exec (.mbCplDb f q v) s = .next t ∧ (t.pv q).front.rings = some { r with cplCi := x } ∧ t.fns = s.fns
        ∧ (t.pv q).front.waiting = (s.pv q).front.waiting ∧ (t.pv q).run = (s.pv q).run ∧ t.reg = s.reg ∧ t.tiles = s.tiles ∧ t.out = s.out)
    ∧ ((r.cplPi - r.cplCi).toNat < (x - r.cplCi).toNat →
      ∃ t, exec (.mbCplDb f q v) s = .next t ∧ t.pv q = s.pv q ∧ (t.fn r.fn).rd MB_EVENT_RING_ERROR = 1 ∧ t.reg = s.reg ∧ t.tiles = s.tiles))
  ∧ (∀ (s : State) (q : Nat) (r : Rings), q < 4 → (s.pv q).front.rings = some r → r.cplN ≤ 16 →
    (r.cplPi - r.cplCi).toNat + (s.pv q).front.store.length ≤ 2 ^ r.cplN →
    ∃ t, exec (.completionFlush q) s = .next t ∧ (t.pv q).front.store = []
      ∧ (t.pv q).front.rings = some { r with cplPi := r.cplPi + BitVec.ofNat 32 (s.pv q).front.store.length }
      ∧ (t.pv q).front.waiting = (s.pv q).front.waiting ∧ (t.pv q).front.live = (s.pv q).front.live ∧ (t.pv q).run = (s.pv q).run
      ∧ (∀ k ws, (s.pv q).front.store[k]? = some ws →
          .hostWrite r.fn (r.cplBase + 64 * ((r.cplPi + BitVec.ofNat 32 k).toNat % 2 ^ r.cplN)) (stamped s ws) ∈ t.out)
      ∧ t.reg = s.reg ∧ t.tiles = s.tiles ∧ t.die = s.die)
  ∧ (∀ (s : State) (q : Nat) (r : Rings), q < 4 → (s.pv q).front.rings = some r → ringRoom r = false → exec (.completionFlush q) s = .next s)
  ∧ (∀ (s : State) (q : Nat) (i : Image) (x : Req), q < 4 → (s.pv q).run.image = some i → x ∈ (s.pv q).front.live → x.looked = false →
    (s.pv q).front.live.find? (fun r => r.tag == x.tag && !r.looked) = some x →
    ∃ t, exec (.icehouseLookup q x.tag) s = .next t
      ∧ (∀ y ∈ (t.pv q).front.live, y.tag = x.tag → y.looked = true) ∧ (t.pv q).front.waiting = (s.pv q).front.waiting
      ∧ (∀ y ∈ (s.pv q).front.live, y.tag ≠ x.tag → y ∈ (t.pv q).front.live)
      ∧ (t.pv q).run = (s.pv q).run ∧ (∀ y, y ≠ q → t.pv y = s.pv y) ∧ t.tiles = s.tiles ∧ t.fns = s.fns ∧ t.sun = s.sun
      ∧ (∀ p, (s.pv q).front.pool = some p → p.lead ≠ s.index → .warden p.lead (.lookup (askOf s q x)) ∈ t.out ∧ t.reg = s.reg)
      ∧ ((s.pv q).front.pool = none → t.reg = s.reg ∧ ∀ y ∈ (t.pv q).front.live, y.tag = x.tag → y.matched = 0)
      ∧ (∀ p g ds, (s.pv q).front.pool = some p → p.lead = s.index → s.rd (TS_TENANT_CFG_GROUP_VALID x.tenant) = 1 →
          g = s.rd (TS_TENANT_CFG_SALT x.tenant) → ds = digests x.prompt (promptBlocks x.prompt) 0 (saltBytes s g) →
          t.rd (IH_PV_STATS_LOOKUP_BLOCKS q) = (s.rd (IH_PV_STATS_LOOKUP_BLOCKS q) + ds.length) % 2 ^ 32
          ∧ t.rd (IH_PV_STATS_HIT_BLOCKS q) = (s.rd (IH_PV_STATS_HIT_BLOCKS q) + (matchedSlots p.index g ds).length) % 2 ^ 32
          ∧ ∀ y ∈ (t.pv q).front.live, y.tag = x.tag → y.matched = 256 * (matchedSlots p.index g ds).length ∧ y.hashes = ds))
  ∧ (∀ (s : State) (q : Nat) (i : Image) (p : Pool) (a : Ask) (g : Nat) (ds : List (List Byte)), q < 4 → (s.pv q).run.image = some i →
    (∀ r ∈ (s.pv q).front.live, r.tag ≠ a.tag) → (s.pv q).front.asks = [a] → a.pv = q → a.front ≠ s.index → (s.pv q).front.pool = some p →
    p.lead = s.index → a.group = some g → ds = digests a.prompt (promptBlocks a.prompt) 0 (saltBytes s g) →
    ∃ t, exec (.icehouseLookup q a.tag) s = .next t ∧ (t.pv q).front.asks = []
      ∧ .warden a.front (.matched q a.tag (matchedSlots p.index g ds).length) ∈ t.out
      ∧ t.rd (IH_PV_STATS_LOOKUP_BLOCKS q) = (s.rd (IH_PV_STATS_LOOKUP_BLOCKS q) + ds.length) % 2 ^ 32
      ∧ (t.pv q).front.live = (s.pv q).front.live ∧ (t.pv q).run = (s.pv q).run ∧ t.tiles = s.tiles ∧ t.fns = s.fns)
  ∧ ∀ (s : State) (q tag : Nat), q < 4 → (s.pv q).front.live.find? (fun r => r.tag == tag && !r.looked) = none →
    (∀ a ∈ (s.pv q).front.asks, a.tag ≠ tag) → exec (.icehouseLookup q tag) s = .next s

/-- The Bandstand (R253, R278, R283, R294 to R303, R306, R346): an entry that is held back is not scanned, one that is not leaves the staging store into its row;
draft rows that are whole give the drafts; a commit that is due queues a token record with what the step drew and begins the next step, PHASE
ended with FIN; a record lands as its words, a commit's with one count; a Warden message opens or closes the slot it names,
brings an emission, a prompt to look up, a decision or a stop frame. The model's own choices behind it: log entries 5, 18, 22, 31, 47. -/
def Obligations.BandstandSteps : Prop :=
  (∀ (s : State) (d : Deliv), s.die.band.staging = [d] → heldBack s d = true → exec .bandstandScan s = .next s)
  ∧ (∀ (s : State) (d : Deliv) (x : W32), s.die.band.staging = [d] → heldBack s d = false → d.vals = [x] →
    ∃ t, exec .bandstandScan s = .next t ∧ t.die.band.staging = []
      ∧ (rowsUsed s.die.band none < 2048 → rowsUsed s.die.band (some d.pv) < bandShare s d.pv 128 →
          s.die.band.rows.any (fun r => r.is d.slot d.draft d.pos) = false →
          ∃ r ∈ t.die.band.rows, r.is d.slot d.draft d.pos = true ∧ r.count = 1 ∧ r.none_ = false
            ∧ r.cands = (match scanValue s d.slot d.draft d.pos d.voff x.toNat with | some y => [(w32 y, d.voff)] | none => []))
      ∧ t.die.band.slots = s.die.band.slots ∧ t.die.band.commits = s.die.band.commits ∧ t.die.band.lands = s.die.band.lands
      ∧ t.tiles = s.tiles ∧ t.pvs = s.pvs ∧ t.fns = s.fns ∧ t.out = s.out)
  ∧ (∀ (s : State) (n : Nat), n < 1024 → slotOpen s n = true → slotDraft s n = false → 0 < slotDepth s n → (s.slot n).derived = false →
    draftsReady s n = true →
    ∃ t r, exec (.draftDerivation n) s = .next t ∧ (t.slot n).derived = true
      ∧ (t.slot n).drafts = draftsFrom s n (slotDepth s n) (slotStep s n) (slotDepth s n) 0
      ∧ t.die.band.lands = s.die.band.lands ++ [r] ∧ r.slot = n ∧ r.draft = true ∧ r.landed = false
      ∧ r.tile = 16 * s.rd (BS_SLOT_CFG_RESULT_I n) + s.rd (BS_SLOT_CFG_RESULT_J n) ∧ r.addr = 64 * s.rd (BS_SLOT_CFG_RESULT_REC n) + 32
      ∧ r.words.take 3 = tokWords (t.slot n).drafts ∧ r.words.length = 4 ∧ bits (r.words.getD 3 0) 63 32 = slotStep s n
      ∧ (∀ m, m ≠ n → t.slot m = s.slot m) ∧ t.tiles = s.tiles ∧ t.pvs = s.pvs ∧ t.reg = s.reg ∧ t.fns = s.fns)
  ∧ (∀ (s : State) (n : Nat), n < 1024 → (s.slot n).derived = true → exec (.draftDerivation n) s = .next s)
  ∧ (∀ (s u v : State) (n : Nat) (x : List Nat × Nat × Bool) (c : List Nat × Bool) (toks : List Nat) (maxed fin : Bool), n < 1024 →
    slotOpen s n = true → slotDraft s n = false → commitDue s n = true → s.rd (BS_SLOT_STATE_PHASE n) ≠ bsEnded →
    u = scanRest s n true →
    v = scanRest (if 0 < slotDepth s n ∧ (u.slot n).derived = false then deriveDrafts u n else u) n false → x = sampleTarget v n →
    c = cutStop (stopTokens s n) x.1 → maxed = decide ((s.slot n).maxTokens ≤ (s.slot n).emitted + c.1.length) →
    toks = c.1.take ((s.slot n).maxTokens - (s.slot n).emitted) → fin = (c.2 || maxed || x.2.2) →
    ∃ t r, exec (.targetCommit n) s = .next t ∧ t.die.band.lands = v.die.band.lands ++ [r] ∧ r.slot = n ∧ r.draft = false ∧ r.landed = false
      ∧ r.words = recordK0 (slotStep s n) x.2.1 toks.length x.2.2 maxed c.2 fin :: tokWords toks
      ∧ r.emission = some { pv := s.rd (BS_SLOT_CFG_PAVILION n), tag := (s.slot n).tag, step := slotStep s n, accepted := x.2.1, tokens := toks, stopped := c.2, maxReached := maxed, emptyRow := x.2.2, fin := fin }
      ∧ slotStep t n = (slotStep s n + 1) % 2 ^ 32 ∧ t.rd (BS_SLOT_STATE_PHASE n) = (if fin then bsEnded else s.rd (BS_SLOT_STATE_PHASE n))
      ∧ (t.slot n).emitted = (s.slot n).emitted + toks.length ∧ (t.slot n).derived = false ∧ (∀ y ∈ t.die.band.rows, y.slot ≠ n)
      ∧ (fin = true → ∀ y ∈ t.die.band.commits, y.slot ≠ n) ∧ (∀ y ∈ s.die.band.commits, y.slot ≠ n → y ∈ t.die.band.commits)
      ∧ (∀ m, m ≠ n → t.slot m = s.slot m) ∧ t.tiles = s.tiles ∧ t.pvs = s.pvs ∧ t.fns = s.fns)
  ∧ (∀ (s v : State) (n : Nat), n < 1024 → slotOpen s n = true → slotDraft s n = true → commitDue s n = true → v = scanRest s n false →
    ∃ t r, exec (.draftSlotCommit n) s = .next t ∧ t.die.band.lands = s.die.band.lands ++ [r] ∧ r.slot = n ∧ r.draft = false ∧ r.emission = none
      ∧ (let x := draw (distribution v n false 0) (chachaWord (slotSeed s n) (slotStep s n) 1 0)
         r.words = recordK0 (slotStep s n) 0 1 x.isNone false false false :: tokWords [x.getD 0])
      ∧ slotStep t n = (slotStep s n + 1) % 2 ^ 32 ∧ (∀ m, m ≠ n → t.slot m = s.slot m) ∧ t.tiles = s.tiles ∧ t.pvs = s.pvs ∧ t.fns = s.fns)
  ∧ (∀ (s : State) (n : Nat), n < 1024 → commitDue s n = false →
    exec (.targetCommit n) s = .next s ∧ exec (.draftSlotCommit n) s = .next s)
  ∧ (∀ (s : State) (i p : Nat) (r : BsLand), s.die.band.lands[i]? = some r → r.landed = false → p = s.phys r.tile → (s.tile p).spNew = [] →
    (r.draft = false → ∃ t, exec (.tokenRecordLanding i) s = .next t
      ∧ (∀ a, (t.tile p).sp.rd a = if r.addr ≤ a ∧ a < r.addr + 8 * r.words.length then (bytesOf r.words).getD (a - r.addr) 0 else (s.tile p).sp.rd a)
      ∧ (t.tile p).tcVal r.ctr = min ((s.tile p).tcVal r.ctr + 1) 0xFFFFFFFF ∧ t.die.band.lands[i]? = some { r with landed := true }
      ∧ (∀ n, n ≠ r.ctr → (t.tile p).tcVal n = (s.tile p).tcVal n) ∧ (∀ y, y ≠ p → t.tile y = s.tile y) ∧ SameModule s t)
    ∧ (r.draft = true → ∃ t, exec (.draftRecordLanding i) s = .next t
      ∧ (∀ a, (t.tile p).sp.rd a = if r.addr ≤ a ∧ a < r.addr + 8 * r.words.length then (bytesOf r.words).getD (a - r.addr) 0 else (s.tile p).sp.rd a)
      ∧ (t.tile p).tc = (s.tile p).tc ∧ t.die.band.lands[i]? = some { r with landed := true } ∧ (∀ y, y ≠ p → t.tile y = s.tile y)
      ∧ SameModule s t))
  ∧ (∀ (s : State) (o : SlotOpen), o.slot < 1024 → o.pv < 4 → o.resI < 16 → o.resJ < 16 →
    ∃ t, exec (.wardenMessage (.openSlot o)) s = .next t ∧ slotOpen t o.slot = true ∧ slotDraft t o.slot = o.draft
      ∧ t.rd (BS_SLOT_CFG_PAVILION o.slot) = o.pv ∧ t.rd (BS_SLOT_STATE_PHASE o.slot) = bsCollecting ∧ slotStep t o.slot = 0
      ∧ slotSeed t o.slot = o.words.getD 6 0 ∧ (t.slot o.slot).tag = o.tag ∧ (t.slot o.slot).emitted = 0
      ∧ (t.slot o.slot).pen = (if o.draft then [] else o.seeds) ∧ (∀ m, m ≠ o.slot → t.slot m = s.slot m) ∧ t.tiles = s.tiles ∧ t.pvs = s.pvs
      ∧ (∀ y ∈ t.die.band.rows, y.slot ≠ o.slot) ∧ (∀ y ∈ t.die.band.staging, y.slot ≠ o.slot) ∧ (∀ y ∈ t.die.band.commits, y.slot ≠ o.slot)
      ∧ (o.draft = false → bits (o.words.getD 2 0) 52 52 = 1 → t.rd (BS_SLOT_CFG_MASK_CORE o.slot) = clusterOf (16 * o.resI + o.resJ)
          ∧ (t.lodge (clusterOf (16 * o.resI + o.resJ))).msgs
              = (s.lodge (clusterOf (16 * o.resI + o.resJ))).msgs ++ [.grammar (bits (o.words.getD 5 0) 63 48) o.slot])
      ∧ (o.draft = true ∨ bits (o.words.getD 2 0) 52 52 = 0 → t.die.lodges = s.die.lodges))
  ∧ (∀ (s : State) (n : Nat), n < 1024 → slotOpen s n = true →
    ∃ t, exec (.wardenMessage (.closeSlot n)) s = .next t ∧ slotOpen t n = false
      ∧ t.rd (BS_SLOT_CFG_PAVILION n) = s.rd (BS_SLOT_CFG_PAVILION n) ∧ t.rd (BS_SLOT_STATE_PHASE n) = 0
      ∧ (∀ y ∈ t.die.band.rows, y.slot ≠ n) ∧ (∀ y ∈ t.die.band.commits, y.slot ≠ n) ∧ t.tiles = s.tiles ∧ t.pvs = s.pvs)
  ∧ (∀ (s : State) (e : Emission), e.pv < 4 →
    ∃ t, exec (.wardenMessage (.emission e)) s = .next t ∧ (t.pv e.pv).front.arrived = (s.pv e.pv).front.arrived ++ [e]
      ∧ (t.pv e.pv).run = (s.pv e.pv).run ∧ t.reg = s.reg ∧ t.tiles = s.tiles ∧ t.die = s.die)
  ∧ (∀ (s : State) (a : Ask), a.pv < 4 →
    ∃ t, exec (.wardenMessage (.lookup a)) s = .next t ∧ (t.pv a.pv).front.asks = (s.pv a.pv).front.asks ++ [a]
      ∧ (t.pv a.pv).run = (s.pv a.pv).run ∧ t.reg = s.reg ∧ t.tiles = s.tiles ∧ t.die = s.die)
  ∧ (∀ (s : State) (q f : Nat) (d : IhDecision), q < 4 →
    ∃ t, exec (.wardenMessage (.decision q f d)) s = .next t ∧ (t.pv q).front.decisions = (s.pv q).front.decisions ++ [(f, d)]
      ∧ (∀ p, (s.pv q).front.pool = some p → ∃ r, (t.pv q).front.pool = some r ∧ r.index = p.index)
      ∧ (t.pv q).run = (s.pv q).run ∧ t.reg = s.reg ∧ t.tiles = s.tiles ∧ t.die = s.die)
  ∧ ∀ (s : State) (q f : Nat), q < 4 →
    ∃ t, exec (.wardenMessage (.stopFrame q f)) s = .next t ∧ t.reg = s.reg ∧ t.tiles = s.tiles ∧ t.die = s.die
      ∧ ((s.pv q).run.st = pvRunning → (t.pv q).run.st = pvDraining ∧ (t.pv q).run.stopAt = some f ∧ (t.pv q).run.drained = true)
      ∧ ((s.pv q).run.st = pvDraining → (t.pv q).run.st = pvDraining ∧ (t.pv q).run.stopAt = some f)
      ∧ ((s.pv q).run.st ≠ pvRunning → (s.pv q).run.st ≠ pvDraining → t = s)

-- the mailbox

/-- Commands and answers (R337, R338, R340, R354): an answer writes its result words, sets STATUS, DETAIL, TICKET, TOKEN and DONE, clears BUSY and raises
vector 0, and touches no other function; an opcode that is not defined or not available is answered so; a doorbell over BUSY is only counted; the async
queue gives its oldest entry; a command in flight that reaches its limit ends with TIMEOUT in that queue.
The model's own choices behind it: log entries 5, 10. -/
def Obligations.CommandsAreAnswered : Prop :=
  (∀ (s t : State) (n status detail ticket : Nat) (res : List W64) (cmd : W64) (a : SMap W64), (s.fn n).latched = some (cmd, a) → status < 256 →
    detail < 65536 → ticket < 256 → res.length ≤ 32 → t = answer s n status detail ticket res →
    (t.fn n).rd MB_STATUS_STATUS = status ∧ (t.fn n).rd MB_STATUS_DETAIL = detail ∧ (t.fn n).rd MB_STATUS_TICKET = ticket
      ∧ (t.fn n).rd MB_STATUS_TOKEN = bits cmd 31 16 ∧ (t.fn n).rd MB_STATUS_DONE = 1 ∧ (t.fn n).rd MB_STATUS_BUSY = 0 ∧ (t.fn n).latched = none
      ∧ (∀ w, w < res.length → (t.fn n).regW (MB_RES_OFF w) = res.getD w 0)
      ∧ (t.fn n).async = (s.fn n).async ∧ (t.fn n).flights = (s.fn n).flights
      ∧ (vecMasked (s.fn n) 0 = false → t.out = s.out ++ [.msix n 0]) ∧ (vecMasked (s.fn n) 0 = true → t.out = s.out ∧ 0 ∈ (t.fn n).pendingVec)
      ∧ (∀ k, k ≠ n → t.fn k = s.fn k) ∧ t.reg = s.reg ∧ t.tiles = s.tiles ∧ t.pvs = s.pvs ∧ t.die = s.die ∧ t.sun = s.sun ∧ t.gate = s.gate
      ∧ t.mod = s.mod ∧ t.shed = s.shed)
  ∧ (∀ (s : State) (f : Func) (cmd : W64) (a : SMap W64), fnOk f = true → (s.fn (fnNum f)).latched = some (cmd, a) →
    available s f (bits cmd 7 0) = false → answering s = true →
    exec (.mbUndefinedOpcode f) s = .next (answer s (fnNum f) stBadOpcode 0 0 []))
  ∧ (∀ (s : State) (f : Func), fnOk f = true → (s.fn (fnNum f)).rd MB_STATUS_BUSY = 1 →
    ∃ m, exec (.mbDoorbellIgnored f) s = .next (s.setFn (fnNum f) m) ∧ m.rd MB_STATUS_DOORBELL_LOST = 1 ∧ m.rd MB_STATUS_BUSY = 1
      ∧ m.rd MB_FLAG_CNT1_DOORBELL_LOST = ((s.fn (fnNum f)).rd MB_FLAG_CNT1_DOORBELL_LOST + 1) % 2 ^ 16
      ∧ m.latched = (s.fn (fnNum f)).latched ∧ m.rd MB_EVENT_ASYNC = (s.fn (fnNum f)).rd MB_EVENT_ASYNC)
  ∧ (∀ (s : State) (f : Func), fnOk f = true → (s.fn (fnNum f)).rd MB_STATUS_BUSY ≠ 1 → exec (.mbDoorbellIgnored f) s = .next s)
  ∧ (∀ (s : State) (f : Func), fnOk f = true →
    exec (.mbAsyncRead f) s = .next { s.setFn (fnNum f) { s.fn (fnNum f) with async := (s.fn (fnNum f)).async.drop 1 } with
      out := s.out ++ [.asyncRead (fnNum f) ((s.fn (fnNum f)).async.headD 0)] })
  ∧ (∀ (s t : State) (n ticket status detail value : Nat) (x : Flight), (s.fn n).flights.find? (fun y => y.ticket == ticket) = some x → x.discard = false →
    x.opcode < 256 → ticket < 256 → status < 256 → detail < 65536 → value < 65536 → t = endAsync s n ticket status detail value →
    ∃ e, (t.fn n).async = (s.fn n).async ++ [e] ∧ bits e 63 63 = 1 ∧ bits e 55 48 = x.opcode ∧ bits e 47 40 = ticket ∧ bits e 39 32 = status
      ∧ bits e 31 16 = detail ∧ bits e 15 0 = value ∧ (t.fn n).flights = (s.fn n).flights.filter (fun y => y.ticket != ticket)
      ∧ (t.fn n).rd MB_EVENT_ASYNC = 1 ∧ (∀ k, k ≠ n → t.fn k = s.fn k) ∧ t.reg = s.reg ∧ t.tiles = s.tiles ∧ t.pvs = s.pvs ∧ t.die = s.die)
  ∧ (∀ (s : State) (f : Func) (x : Flight), fnOk f = true → x.ticket < 256 → (s.fn (fnNum f)).flights.find? (fun y => y.ticket == x.ticket) = some x →
    (s.sun.time < x.deadline → exec (.asyncCommandTimeout f x.ticket) s = .next s)
    ∧ (x.deadline ≤ s.sun.time → x.opcode ∉ [0x02, 0x04, 0x12, 0x22, 0x24] →
      exec (.asyncCommandTimeout f x.ticket) s = .next (endAsync s (fnNum f) x.ticket stTimeout 0 0))
    ∧ (x.deadline ≤ s.sun.time → x.opcode = 0x02 → ∃ u, exec (.asyncCommandTimeout f x.ticket) s = .next (endAsync u (fnNum f) x.ticket stTimeout 0 0)
      ∧ u.gate.phase = 0 ∧ u.gate.fwJob = none ∧ u.gate.sram = [] ∧ u.gate.fuses = s.gate.fuses ∧ u.fns = s.fns ∧ u.reg = s.reg)
    ∧ (x.deadline ≤ s.sun.time → x.opcode = 0x04 → ∃ u, exec (.asyncCommandTimeout f x.ticket) s = .next (endAsync u (fnNum f) x.ticket stTimeout 0 0)
      ∧ u.sun.startAt = none ∧ u.sun.epochMark = none ∧ ((s.sun.undo.map (·.1)).Nodup →
        (∀ p w, p < 16 → SMap.look? s.sun.undo (FB_LINK_OFF p) = some w →
          u.rd (FB_LINK_DELAY p) = bits w 47 32 ∧ u.rd (FB_LINK_HP_DELAY p) = bits w 31 16 ∧ u.rd (FB_LINK_SCHED_LAT p) = s.rd (FB_LINK_SCHED_LAT p))
        ∧ ∀ w, SMap.look? s.sun.undo RG_CFG_OFF = some w → u.rd RG_CFG_REACH = bits w RG_CFG_REACH.hi RG_CFG_REACH.lo)
      ∧ (∀ o, o ∉ s.sun.undo.map (·.1) → u.regW o = s.regW o) ∧ u.fns = s.fns ∧ u.tiles = s.tiles))
  ∧ ∀ (s : State) (f : Func) (ticket : Nat), fnOk f = true → ticket < 256 → (s.fn (fnNum f)).flights.find? (fun y => y.ticket == ticket) = none →
    exec (.asyncCommandTimeout f ticket) s = .next s

-- module commands

/-- Module commands that set the module up (R40, R41, R232, R351, R352): GET_INFO reports; MACHINE_CONFIG writes the machine's shape; ALIGN is accepted and
learns a starting moment at least 1 ms ahead, or ends with FAULT where a port is not UP; FREQ_BIN and AGEING set what takes effect later; an argument
out of range is answered with its word. The model's own choices behind it: log entries 32, 44. -/
def Obligations.ModuleCommandsAct : Prop :=
  (∀ (s : State) (f : Func) (cmd : W64) (a : SMap W64), Submitted s f 0x01 cmd a → faulty a [] (fun _ => false) = none → s.gate.fuses ≤ 64 →
    s.gate.phase ≤ 4 → (∀ q, (s.pv q).run.st < 16) →
    ∃ j0 j1, exec (.getInfo f) s = .next (answer s (fnNum f) stDone 0 0 [j0, j1]) ∧ bits j0 47 32 = s.gate.fuses ∧ bits j0 50 48 = s.gate.phase
      ∧ bits j0 15 0 = (if 2 ≤ s.gate.phase then s.gate.version % 65536 else 0) ∧ bits j0 31 16 = (if 2 ≤ s.gate.phase then s.gate.svn % 65536 else 0)
      ∧ (∀ q, q < 4 → bits j1 (4 * q + 3) (4 * q) = (s.pv q).run.st) ∧ bits j1 16 16 = s.rd SD_STATUS_ALIGNED)
  ∧ (∀ (s : State) (f : Func) (plan : List W64) (cmd : W64) (a : SMap W64), Submitted s f 0x03 cmd a → faulty a configMasks (configBad a) = none →
    s.rd SD_STATUS_ALIGNED = 0 →
    ∃ u, exec (.machineConfig f plan) s = .next (answer u (fnNum f) stDone 0 0 []) ∧ u.frameLen = arg a 0 23 0 ∧ u.span = arg a 0 47 24
      ∧ u.rd SD_MACHINE_MODULES = arg a 1 28 16 ∧ u.index = arg a 1 43 32 ∧ u.rd SD_MACHINE_ROOT = arg a 1 48 48
      ∧ (∀ p, p < 16 → u.rd (FB_LINK_SCHED_LAT p) = arg a 1 15 0 ∧ u.rd (FB_SLOTS_SLOT_LEN p) = arg a 0 23 0 / 1024
          ∧ u.rd (FB_SLOTS_CAPACITY p) = 3 * (arg a 0 23 0 / 1024) / 4 ∧ u.rd (FB_CTRL_IN_MACHINE p) = bits (plan.getD 513 0) p p
          ∧ (u.port p).dateline = bit (plan.getD 513 0) (16 + p))
      ∧ (∀ w, w < 512 → u.regW (FB_ROUTE_OFF w) = plan.getD w 0 &&& 0x8F8F8F8F8F8F8F8F) ∧ u.regW FB_TREE_OFF = plan.getD 512 0 &&& 0xF8000FFFF
      ∧ u.tiles = s.tiles ∧ u.pvs = s.pvs ∧ u.fns = s.fns ∧ u.gate = s.gate ∧ u.mod = s.mod)
  ∧ (∀ (s : State) (f : Func) (cmd : W64) (a : SMap W64), Submitted s f 0x04 cmd a → faulty a [] (fun _ => false) = none → s.frameLen ≠ 0 →
    s.rd SD_STATUS_ALIGNED = 0 → s.rd SD_STATUS_RUNNING = 0 → flightsFull s (fnNum f) = false →
    ∃ t, exec (.align f) s = .next t ∧ (t.fn (fnNum f)).rd MB_STATUS_STATUS = stAccepted ∧ t.tiles = s.tiles ∧ t.pvs = s.pvs
      ∧ (s.machinePorts = [] → t.rd RG_CFG_REACH ≤ t.frameLen - t.span →
          (∃ m, t.sun.startAt = some m ∧ s.sun.time + milli ≤ m) 
            ∧ (s.rd SD_MACHINE_ROOT = 1 → .syncPulse ∈ t.out ∧ ∃ n, .start (s.sun.tick + n) ∈ t.out
                ∧ t.sun.startAt = some (s.sun.time + n * tcUnits (s.rd SD_CONFIG_BIN))))
      ∧ (s.machinePorts.any (fun p => s.rd (FB_STATUS_STATE p) != portUpCode) = true →
          t = endAsync (alignKept (accept s (fnNum f) 0x04 none 5000 [])) (fnNum f) (s.fn (fnNum f)).nextTicket stFault 0 0))
  ∧ (∀ (s : State) (f : Func) (cmd : W64) (a : SMap W64), Submitted s f 0x05 cmd a → s.rd SD_STATUS_ALIGNED = 1 →
    faulty a [7, 0xFFFFFFFFFFFFFFFF] (fun w => (w == 0 && 4 < arg a 0 2 0) || (w == 1 && arg a 1 63 0 < earliest s)) = none →
    (s.sun.newBin = none →
      exec (.freqBin f) s = .next (answer { s with sun := { s.sun with newBin := some (arg a 0 2 0, arg a 1 63 0) } } (fnNum f) stDone 0 0 []))
    ∧ (∀ b g, s.sun.newBin = some (b, g) → g < earliest s → exec (.freqBin f) s = .next (answer s (fnNum f) stBusyRetry 0 0 [])))
  ∧ (∀ (s : State) (f : Func) (cmd : W64) (a : SMap W64) (w : Nat), Submitted s f 0x05 cmd a →
    faulty a [7, 0xFFFFFFFFFFFFFFFF] (fun w => (w == 0 && 4 < arg a 0 2 0) || (w == 1 && arg a 1 63 0 < earliest s)) = some w →
    exec (.freqBin f) s = .next (answer s (fnNum f) stBadArgument w 0 []))
  ∧ ∀ (s : State) (f : Func) (cmd : W64) (a : SMap W64), Submitted s f 0x06 cmd a → faulty a [0xFFFFFFFFFFFF] (fun _ => false) = none →
    exec (.ageing f) s = .next (answer { s with die := { s.die with atTick := s.die.atTick ++ [.age (w64 (arg a 0 47 0))] } } (fnNum f) stDone 0 0 [])

/-- Dumps, durable words and margin plans (R352, R396 to R398, R404 to R412): READ_DUMP writes its part of an area to the host and ends with DONE;
SHED_READ gives a word and its wear; SHED_WRITE is queued, and answered when its word is durable; a worn word is refused; lifetime counters and plans are
written; each rail moves one step toward its target; CHIP_RESET is recorded and starts a boot. The model's own choices behind it: log entries 5, 34. -/
def Obligations.DurableStateActs : Prop :=
  (∀ (s : State) (f : Func) (cmd : W64) (a : SMap W64), Submitted s f 0x07 cmd a →
    faulty a [1, 0xFFFFFFFFFFFFFFFF, 0xFFFFFFFF, 0xFFFFFFFF] (readDumpBad a) = none → flightsFull s (fnNum f) = false →
    ∀ area, area = arg a 0 0 0 →
    ∃ t, exec (if area = 0 then .readDumpCrash f else .readDumpSummary f) s = .next t
      ∧ .hostWrite (fnNum f) (arg a 1 63 0) ((List.range (arg a 3 31 0 / 8)).map (fun k => areaWord s area (arg a 2 31 0 + 8 * k))) ∈ t.out
      ∧ (t.fn (fnNum f)).rd MB_STATUS_STATUS = stAccepted ∧ (t.fn (fnNum f)).rd MB_STATUS_TICKET = (s.fn (fnNum f)).nextTicket % 256
      ∧ t.dumps = s.dumps ∧ t.shed = s.shed ∧ t.reg = s.reg ∧ t.tiles = s.tiles ∧ t.pvs = s.pvs)
  ∧ (∀ (s : State) (f : Func) (cmd : W64) (a : SMap W64) (n : Nat), Submitted s f 0x08 cmd a → faulty a [0xFF] (fun _ => false) = none →
    n = 0x200 + arg a 0 7 0 →
    exec (.shedRead f false) s = .next (answer s (fnNum f) stDone 0 0 [s.shedWord n, w64 (s.shedWear n)])
    ∧ ∃ u, exec (.shedRead f true) s = .next (answer u (fnNum f) stDone 0 0 [0, w64 (s.shedWear n)]) ∧ u.rd SH_STATUS_UE_SEEN = 1
        ∧ u.shed.words = s.shed.words ∧ u.tiles = s.tiles ∧ u.fns = s.fns)
  ∧ (∀ (s : State) (f : Func) (cmd : W64) (a : SMap W64) (n : Nat), Submitted s f 0x09 cmd a →
    faulty a [0xFF, 0xFFFFFFFFFFFFFFFF] (fun _ => false) = none → n = 0x200 + arg a 0 7 0 → s.shed.queue.any (fun w => w.fn == some (fnNum f)) = false →
    (shedWorn s n = false → ∃ t, exec (.shedWrite f) s = .next t ∧ t.shed.queue = s.shed.queue ++ [⟨n, SMap.look a 1 0, some (fnNum f)⟩]
      ∧ t.shed.words = s.shed.words ∧ (s.shed.queue = [] → t.shedWear n = s.shedWear n + 1) ∧ t.fns = s.fns ∧ t.reg = s.reg ∧ t.tiles = s.tiles)
    ∧ (shedWorn s n = true → ∃ u, exec (.shedWrite f) s = .next (answer u (fnNum f) stWearLimit 0 0 []) ∧ u.rd SH_STATUS_REFUSED_SEEN = 1
      ∧ u.shed = s.shed ∧ u.fns = s.fns ∧ u.tiles = s.tiles))
  ∧ (∀ (s : State) (w : ShedWrite) (ws : List ShedWrite), s.shed.queue = w :: ws →
    ∃ u, exec .shedWriteComplete s = .next (match w.fn with | some n => answer u n stDone 0 0 [] | none => u) ∧ u.shedWord w.word = w.value
      ∧ (∀ n, n ≠ w.word → u.shedWord n = s.shedWord n) ∧ u.shed.queue = ws ∧ u.fns = s.fns ∧ u.reg = s.reg ∧ u.tiles = s.tiles)
  ∧ (∀ s : State, s.shed.queue = [] → exec .shedWriteComplete s = .next s)
  ∧ (∀ (s : State) (c n : Nat), c < 8 → s.gate.phase = 3 → lifeNext s c = some n →
    ∃ t, exec (.lifetimeCounterWrite c) s = .next t ∧ n ∈ lifeWords c
      ∧ t.shed.queue = s.shed.queue ++ [⟨n, setBits 0 47 0 (lifeValue s c + lifeAdd s c), none⟩] ∧ SMap.look t.shed.counts c 0 = 0
      ∧ t.shed.words = s.shed.words ∧ t.reg = s.reg ∧ t.tiles = s.tiles ∧ t.fns = s.fns)
  ∧ (∀ s : State, s.gate.phase = 3 →
    (opHours s < s.rd WV_STATUS_NEXT_PLAN → exec .planDue s = .next s)
    ∧ (s.rd WV_STATUS_NEXT_PLAN ≤ opHours s → ∃ t, exec .planDue s = .next t ∧ (∀ g, g < 8 → t.planWord g = newPlan s g)
        ∧ t.rd WV_STATUS_NEXT_PLAN = (opHours s + s.rd WV_CFG_PLAN_HOURS) % 2 ^ 32 ∧ t.rd WV_STATUS_PLAN_BUSY = 1
        ∧ (∀ g, g < 8 → t.rd (WV_REGION_MIN_MARGIN g) = 0x7FF) ∧ t.tiles = s.tiles ∧ t.pvs = s.pvs))
  ∧ (∀ (s : State) (f : Func) (cmd : W64) (a : SMap W64), Submitted s f 0x0A cmd a → faulty a [] (fun _ => false) = none →
    flightsFull s (fnNum f) = false →
    ∃ t, exec (.wvPlan f) s = .next t ∧ (t.fn (fnNum f)).rd MB_STATUS_STATUS = stAccepted ∧ (∀ g, g < 8 → t.planWord g = newPlan s g)
      ∧ t.tiles = s.tiles ∧ t.pvs = s.pvs)
  ∧ (∀ s : State, s.gate.phase = 3 → planDurable s = true →
    ∃ t, exec .railStep s = .next t ∧ (∀ g, g < 8 → t.rd (WV_REGION_STEPS g)
        = (if s.rd (WV_REGION_STEPS g) < railTarget s g then s.rd (WV_REGION_STEPS g) + 1
           else if railTarget s g < s.rd (WV_REGION_STEPS g) then s.rd (WV_REGION_STEPS g) - 1 else s.rd (WV_REGION_STEPS g)))
      ∧ t.shed = s.shed ∧ t.tiles = s.tiles ∧ t.sun = s.sun)
  ∧ ∀ (s : State) (f : Func) (cmd : W64) (a : SMap W64), Submitted s f 0x0B cmd a → faulty a [] (fun _ => false) = none → s.gate.ran = true →
    ∃ t, exec (.chipReset f) s = .next t ∧ t.gate.phase = 0 ∧ t.gate.fuses = s.gate.fuses ∧ t.fns = [] ∧ t.pvs = [] ∧ t.tiles = []
      ∧ t.dumps.seq = s.dumps.seq + dumpsAdded s ∧ t.mod.alert = 0 ∧ t.die.hbm = s.die.hbm ∧ t.shed.queue = [] ∧ t.sun.time = s.sun.time + milli
      ∧ t.rd SD_STATUS_RUNNING = 0 ∧ t.rd RG_STATUS_LAST_CAUSE = 0 ∧ t.pending = s.pending

/-- Firmware (R335, R336, R356 to R358, R397, R407): FW_LOAD moves PHASE 0 to VERIFY; an accepted image moves it to FW_START, its SVN fused where COMMIT is set,
another back to ROM_WAIT with AUTH_FAILED, one past
its limit with TIMEOUT, and the copy is then zero; firmware then runs, or halts over an unreadable repair word; a stack that
fails its training asks for a power cycle; firmware's own error halts it.
The model's own choices behind it: log entries 5, 32. -/
def Obligations.FirmwareStarts : Prop :=
  (∀ (s : State) (f : Func) (cmd : W64) (a : SMap W64), Submitted s f 0x02 cmd a → s.gate.phase = 0 → flightsFull s (fnNum f) = false →
    faulty a [wholeWord, 0xFFFFFFFF] (fun w => (w == 0 && arg a 0 11 0 != 0) || (w == 1 && 1572864 < arg a 1 31 0)) = none →
    ∃ t, exec (.fwLoad f) s = .next t ∧ t.gate = { s.gate with phase := 1, fwJob := some (fnNum f, (s.fn (fnNum f)).nextTicket, arg a 1 31 0) }
      ∧ (t.fn (fnNum f)).rd MB_STATUS_STATUS = stAccepted ∧ t.reg = s.reg ∧ t.tiles = s.tiles ∧ t.pvs = s.pvs ∧ t.mod = s.mod)
  ∧ (∀ (s : State) (f : Func) (cmd : W64) (a : SMap W64), Submitted s f 0x02 cmd a → s.gate.phase ≠ 0 →
    faulty a [wholeWord, 0xFFFFFFFF] (fun w => (w == 0 && arg a 0 11 0 != 0) || (w == 1 && 1572864 < arg a 1 31 0)) = none →
    exec (.fwLoad f) s = .next (answer s (fnNum f) stStateConflict 0 0 []))
  ∧ (∀ (s : State) (n t len : Nat) (image : List Byte), s.gate.fwJob = some (n, t, len) →
    (∃ x ∈ (s.fn n).flights, x.ticket = t ∧ x.deadline ≤ s.sun.time) →
    ∃ u, exec (.fwLoadVerify image) s = .next (endAsync u n t stTimeout 0 0) ∧ u.gate = { s.gate with phase := 0, fwJob := none, sram := [] }
      ∧ u.fns = s.fns ∧ u.reg = s.reg ∧ u.tiles = s.tiles ∧ u.mod = s.mod)
  ∧ (∀ s : State, ∀ image, s.gate.fwJob = none → exec (.fwLoadVerify image) s = .next s)
  ∧ (∀ (s : State) (n t len : Nat) (image : List Byte), s.gate.fwJob = some (n, t, len) → (∀ x ∈ (s.fn n).flights, x.ticket = t → s.sun.time < x.deadline) →
    ∃ u, exec (.fwLoadVerify image) s = .next (endAsync u n t (if fwAccepted s.gate len (image.take len) then stDone else stAuthFailed) 0 0)
      ∧ u.gate.phase = (if fwAccepted s.gate len (image.take len) then 2 else 0) ∧ u.gate.fwJob = none
      ∧ u.gate.fuses = (if fwAccepted s.gate len (image.take len) then fusesAfter s.gate (image.take len) else s.gate.fuses)
      ∧ u.gate.sram = (if fwAccepted s.gate len (image.take len) then Mem.wrN [] 0 (image.take len) else [])
      ∧ (fwAccepted s.gate len (image.take len) = true → u.gate.coresHeld = false ∧ u.gate.fwHash = sha256 (image.take len))
      ∧ u.fns = s.fns ∧ u.reg = s.reg ∧ u.tiles = s.tiles ∧ u.mod = s.mod)
  ∧ (∀ (g : Gate) (m : List Byte), g.fuses ≤ fusesAfter g m ∧ (bits (mWord m 1) 0 0 = 0 → fusesAfter g m = g.fuses))
  ∧ (∀ (g : Gate) (len : Nat) (m : List Byte), bits (mWord m 1) 47 32 < g.fuses → fwAccepted g len m = false)
  ∧ (∀ (s : State) (bad : List Nat), s.gate.phase = 2 → bad.all (· < 8192) = true → bad.any (· < 16) = false →
    ∃ t, exec (.firmwareRunning bad) s = .next t ∧ t.gate.phase = 3 ∧ t.gate.ran = true ∧ t.gate.failedBoots = 0 ∧ t.gate.fuses = s.gate.fuses
      ∧ (stackFailed s = false → t.mod = { s.mod with cold := false }) ∧ (stackFailed s = true → t.mod.alert = s.mod.alert ||| 2 ^ alertPowerCycle)
      ∧ t.tiles = s.tiles ∧ t.pvs = s.pvs
      ∧ t.rd RG_STATUS_LOST_CLUSTERS = (if bad.contains 0x29 then 0 else bits (s.shedWord 0x29) 15 0))
  ∧ (∀ (s : State) (bad : List Nat), s.gate.phase = 2 → bad.all (· < 8192) = true → bad.any (· < 16) = true →
    ∃ t, exec (.firmwareRunning bad) s = .next t ∧ t.gate.phase = 4 ∧ t.mod.alert = s.mod.alert ||| 2 ^ alertHalted ∧ t.tiles = s.tiles ∧ t.pvs = s.pvs)
  ∧ (∀ s : State, s.gate.phase = 2 ∨ s.gate.phase = 3 →
    ∃ t, exec .firmwareInternalError s = .next t ∧ t.gate = { s.gate with phase := 4 } ∧ t.mod = { s.mod with alert := s.mod.alert ||| 2 ^ alertHalted, alertJust := s.mod.alertJust ||| 2 ^ alertHalted }
      ∧ t.fns = s.fns ∧ t.reg = s.reg ∧ t.tiles = s.tiles ∧ t.pvs = s.pvs)
  ∧ ∀ (s : State) (f : Func), 4 ≤ s.gate.phase → fnOk f = true → exec (.mbUndefinedOpcode f) s = .next s ∧ exec (.getInfo f) s = .next s

-- pavilions

/-- Pavilions (R341 to R343, R347, R395, R397, R427, R428): PV_CREATE with free resources makes one in EMPTY, without them answers NO_RESOURCE;
PV_DESTROY frees all that it held; PV_RESET is accepted and takes it to RESETTING with its requests ended, and the end of the unit to EMPTY, LOADED
or FAULTED; a tile left busy by an abort takes its cluster's reset, or its pavilion's if the reload finds a flagged unit; a pavilion reset past its limit resets the chip; PV_STATUS reports.
The model's own choices behind it: log entries 5, 12, 30. -/
def Obligations.PavilionsComeAndGo : Prop :=
  (∀ (s : State) (f : Func) (cmd : W64) (a : SMap W64) (q : Nat), Submitted s f 0x10 cmd a → q = bits cmd 9 8 →
    faulty a [0x1FFFFFFFFFFFFF, 0x13F01FFFFFF] (createBad s a) = none →
    (pvExists s q = true → exec (.pvCreate f) s = .next (answer s (fnNum f) stStateConflict 0 0 []))
    ∧ (pvExists s q = false → flightsFull s (fnNum f) = false → pvBusy s q = false →
      (∀ w, createLacks s (wanted a) = some w → exec (.pvCreate f) s = .next (answer s (fnNum f) stNoResource w 0 []))
      ∧ (createLacks s (wanted a) = none → ∃ t, exec (.pvCreate f) s = .next t ∧ (t.pv q).res = wanted a ∧ (t.pv q).run.st = pvEmpty
          ∧ (t.pv q).run.balance = true ∧ (t.pv q).front.rings = none ∧ (t.pv q).front.waiting = [] ∧ t.regW (OY_PV_CFG_OFF q) = pvCfg (wanted a)
          ∧ (t.fn (fnNum f)).rd MB_STATUS_STATUS = stAccepted ∧ (∀ x, x ≠ q → t.pv x = s.pv x) ∧ t.gate = s.gate ∧ t.mod = s.mod ∧ t.shed = s.shed)))
  ∧ (∀ (s : State) (f : Func) (cmd : W64) (a : SMap W64) (q : Nat), Submitted s f 0x11 cmd a → q = bits cmd 9 8 → pvExists s q = true →
    faulty a [] (fun _ => false) = none →
    ((s.pv q).run.st ≠ pvEmpty → exec (.pvDestroy f) s = .next (answer s (fnNum f) stStateConflict 0 0 []))
    ∧ ((s.pv q).run.st = pvEmpty → ∃ u, exec (.pvDestroy f) s = .next (answer u (fnNum f) stDone 0 0 []) ∧ u.pv q = Pv.reset ∧ pvExists u q = false
      ∧ u.regW (OY_PV_CFG_OFF q) = 0 ∧ (∀ n x, u.slice? n = some x → x.pv ≠ q) ∧ (∀ x, x ≠ q → u.pv x = s.pv x) ∧ u.tiles = s.tiles
      ∧ u.gate = s.gate ∧ u.mod = s.mod ∧ u.shed = s.shed))
  ∧ (∀ (s : State) (f : Func) (cmd : W64) (a : SMap W64) (q unit : Nat) (c : Instr), Submitted s f 0x12 cmd a → namedPv s f cmd = some q →
    unit = arg a 0 1 0 → (unit = 0 ∧ c = .pvResetAbort f ∨ unit = 1 ∧ c = .pvResetCluster f ∨ unit = 2 ∧ c = .pvResetPavilion f) →
    faulty a [0xF03] (fun w => w == 0 && (arg a 0 1 0 == 3 || (arg a 0 1 0 == unitCluster && !(s.pv q).res.clusters.testBit (arg a 0 11 8)))) = none →
    (s.pv q).run.st ∈ notResetting → flightsFull s (fnNum f) = false →
    ∃ t, exec c s = .next t ∧ (t.pv q).run.st = pvResetting ∧ (t.pv q).front.live = [] ∧ (t.pv q).front.waiting = []
      ∧ (t.pv q).run.startAt = none ∧ (t.pv q).run.pause = none ∧ (∃ j, (t.pv q).run.reset = some j ∧ j.fn = fnNum f ∧ j.unit = unit)
      ∧ (t.fn (fnNum f)).rd MB_STATUS_STATUS = stAccepted ∧ t.dumps.seq = s.dumps.seq + dumpsAdded s
      ∧ (unit = 2 → ∀ p ∈ s.pvTiles q, (t.tile p).sp = [] ∧ (t.tile p).tr = []) ∧ (unit ≠ 0 → t.rd OY_STATUS_SELF_REFRESH = 1) ∧ (∀ x, x ≠ q → (t.pv x).run = (s.pv x).run)
      ∧ t.gate = s.gate ∧ t.mod = s.mod ∧ t.shed = s.shed)
  ∧ (∀ (s : State) (q : Nat) (j : ResetJob), q < 4 → (s.pv q).run.reset = some j →
    (∀ chk, (j.unit = 1 → j.had = true → flagged chk = false) → ∃ t, exec (.resetUnitEnd q (true, chk)) s = .next t ∧ (t.pv q).run.reset = none
      ∧ (t.pv q).run.st = (if j.unit = 2 then pvEmpty else if j.had then pvLoaded else pvEmpty) ∧ (∀ x, x ≠ q → t.pv x = s.pv x)
      ∧ ((∀ x, x < 4 → x ≠ q → (s.pv x).run.reset = none) → t.rd OY_STATUS_SELF_REFRESH = 0) ∧ t.sun = s.sun ∧ t.gate = s.gate)
    ∧ ∀ ok chk, (ok = false ∨ j.unit = 1 ∧ j.had = true ∧ flagged chk = true) → ∃ t, exec (.resetUnitEnd q (ok, chk)) s = .next t
      ∧ (t.pv q).run.reset = none ∧ (t.pv q).run.st = pvFaulted ∧ (j.unit = 1 → (t.pv q).run.loaded = none) ∧ t.dumps.seq = s.dumps.seq + dumpsAdded s
      ∧ (∀ x, x ≠ q → (t.pv x).run = (s.pv x).run) ∧ t.gate = s.gate)
  ∧ (∀ (s : State) (q : Nat) (ok : Bool) (chk : Check), q < 4 → (s.pv q).run.reset = none → exec (.resetUnitEnd q (ok, chk)) s = .next s)
  ∧ (∀ (s : State) (q p x : Nat) (chk : Check), q < 4 → p < 272 → p ∈ (s.pv q).run.abortTiles → (s.tile p).seq.run ≠ .idle → s.logical p = some x →
    s.phys x = p → (s.pv q).run.abortAt + milli / 10 ≤ s.sun.time →
    ∃ t, exec (.abortEscalation q (p, chk)) s = .next t ∧ (t.tile p).seq.run = .idle ∧ p ∉ (t.pv q).run.abortTiles
      ∧ (flagged chk = false ∨ (s.pv q).run.loaded = none ∨ (s.pv q).run.image = none →
          t.dumps.seq = s.dumps.seq + dumpsAdded s ∧ (t.pv q).run.loaded = (s.pv q).run.loaded ∧ (t.pv q).run.image = (s.pv q).run.image)
      ∧ (flagged chk = true → (s.pv q).run.loaded.isSome = true → (s.pv q).run.image.isSome = true →
          t.dumps.seq = s.dumps.seq + 2 * dumpsAdded s ∧ (t.pv q).run.loaded = none ∧ (t.pv q).run.image = none)
      ∧ (t.pv q).run.st = (s.pv q).run.st ∧ (∀ y, y ≠ q → t.pv y = s.pv y) ∧ t.fns = s.fns ∧ t.gate = s.gate)
  ∧ (∀ (s : State) (q p : Nat) (chk : Check), q < 4 → p < 272 → (p ∉ (s.pv q).run.abortTiles ∨ (s.tile p).seq.run = .idle ∨ s.sun.time < (s.pv q).run.abortAt + milli / 10) →
    exec (.abortEscalation q (p, chk)) s = .next s)
  ∧ (∀ (s : State) (q : Nat), q < 4 → (pavilionLate s q = false → exec (.pavilionResetTimeout q) s = .next s)
    ∧ (pavilionLate s q = true → s.gate.ran = true → ∃ t, exec (.pavilionResetTimeout q) s = .next t ∧ t.gate.phase = 0 ∧ t.gate.fuses = s.gate.fuses
      ∧ t.fns = [] ∧ t.pvs = [] ∧ t.tiles = [] ∧ t.dumps.seq = s.dumps.seq + dumpsAdded s))
  ∧ ∀ (s : State) (f : Func) (cmd : W64) (a : SMap W64) (q : Nat), Submitted s f 0x20 cmd a → namedPv s f cmd = some q →
    faulty a [] (fun _ => false) = none → (s.pv q).run.st ∈ allStates →
    ∃ ws, exec (.pvStatus f) s = .next (answer s (fnNum f) stDone 0 0 ws) ∧ ws.length = 4 ∧ bits (ws.getD 0 0) 3 0 = (s.pv q).run.st
      ∧ bits (ws.getD 0 0) 27 16 = min (s.pv q).front.waiting.length 4095 ∧ bits (ws.getD 0 0) 43 32 = min (s.pv q).front.live.length 4095
      ∧ bits (ws.getD 2 0) 6 6 = (if (s.pv q).run.loaded.isSome then 1 else 0) ∧ bits (ws.getD 3 0) 14 0 = (s.pv q).front.store.length % 32768

/-- A pavilion's commands (R275, R276, R287, R333, R344 to R346, R348, R352): rings, runs, pauses and drains; tenants, budgets and balancing, which take
effect at the next tick; groups and pools, which take effect at once; each ends with DONE where its conditions hold.
The model's own choices behind it: log entry 30. -/
def Obligations.PavilionCommandsAct : Prop :=
  (∀ (s : State) (f : Func) (cmd : W64) (a : SMap W64) (q : Nat), Submitted s f 0x21 cmd a → namedPv s f cmd = some q →
    faulty a [wholeWord, wholeWord, wholeWord, 0x3F011F1F] (ringBad s q a) = none → (s.pv q).run.st ∈ [pvEmpty, pvLoaded] →
    ∃ u r, exec (.ringSetup f) s = .next (answer u (fnNum f) stDone 0 0 []) ∧ (u.pv q).front = { (s.pv q).front with rings := some r }
      ∧ r.reqBase = arg a 0 63 0 ∧ r.cplBase = arg a 1 63 0 ∧ r.wb = arg a 2 63 0 ∧ r.reqN = arg a 3 4 0 ∧ r.cplN = arg a 3 12 8
      ∧ r.vector = arg a 3 29 24 ∧ r.reqPi = 0 ∧ r.reqCi = 0 ∧ r.cplPi = 0 ∧ r.cplCi = 0
      ∧ r.fn = 17 * (s.pv q).res.port + (if arg a 3 16 16 = 1 then (s.pv q).res.vf else 0)
      ∧ (u.pv q).run = (s.pv q).run ∧ (∀ x, x ≠ q → u.pv x = s.pv x) ∧ u.reg = s.reg ∧ u.tiles = s.tiles ∧ u.fns = s.fns ∧ u.die = s.die)
  ∧ (∀ (s : State) (f : Func) (cmd : W64) (a : SMap W64) (q : Nat), Submitted s f 0x25 cmd a → namedPv s f cmd = some q →
    faulty a [wholeWord] (fun w => w == 0 && arg a 0 63 0 < earliest s) = none → (s.pv q).run.st = pvLoaded →
    (s.rd SD_STATUS_ALIGNED = 0 → exec (.run f) s = .next (answer s (fnNum f) stStateConflict 0 0 []))
    ∧ (s.rd SD_STATUS_ALIGNED = 1 → (s.pv q).front.rings = none → exec (.run f) s = .next (answer s (fnNum f) stNoResource 0 0 []))
    ∧ (s.rd SD_STATUS_ALIGNED = 1 → (s.pv q).front.rings.isSome = true → ∃ u, exec (.run f) s = .next (answer u (fnNum f) stDone 0 0 [])
      ∧ (u.pv q).run.st = pvRunning ∧ (u.pv q).run.f0 = arg a 0 63 0 ∧ (u.pv q).run.startAt = some (arg a 0 63 0)
      ∧ (u.pv q).front = (s.pv q).front ∧ (∀ x, x ≠ q → u.pv x = s.pv x) ∧ u.reg = s.reg ∧ u.tiles = s.tiles ∧ u.die = s.die))
  ∧ (∀ (s : State) (f : Func) (cmd : W64) (a : SMap W64) (q P e : Nat), Submitted s f 0x26 cmd a → namedPv s f cmd = some q →
    faulty a [] (fun _ => false) = none → (s.pv q).run.st = pvRunning → P = pauseFrame s q → e = epochLen s q → 0 < e →
    earliest s ≤ P ∧ (s.pv q).run.f0 ≤ P ∧ P < max (earliest s) (s.pv q).run.f0 + e ∧ (P - (s.pv q).run.f0) % e = 0
      ∧ ∃ u, exec (.pause f) s = .next (answer u (fnNum f) stDone 0 0 [w64 P]) ∧ (u.pv q).run = { (s.pv q).run with pause := some P }
        ∧ (u.pv q).front = (s.pv q).front ∧ (∀ x, x ≠ q → u.pv x = s.pv x) ∧ u.reg = s.reg ∧ u.tiles = s.tiles ∧ u.fns = s.fns ∧ u.die = s.die)
  ∧ (∀ (s : State) (f : Func) (cmd : W64) (a : SMap W64) (q : Nat), Submitted s f 0x27 cmd a → namedPv s f cmd = some q →
    faulty a [wholeWord] (resumeBad s q a) = none → (s.pv q).run.st = pvHeld →
    ∃ u, exec (.resume f) s = .next (answer u (fnNum f) stDone 0 0 []) ∧ (u.pv q).run.st = pvRunning ∧ (u.pv q).run.pause = none
      ∧ (u.pv q).run.f0 = arg a 0 63 0 ∧ (u.pv q).run.startAt = some (arg a 0 63 0) ∧ (u.pv q).run.heads = (s.pv q).run.heads
      ∧ (u.pv q).front = (s.pv q).front ∧ (∀ x, x ≠ q → u.pv x = s.pv x) ∧ u.reg = s.reg ∧ u.tiles = s.tiles ∧ u.die = s.die)
  ∧ (∀ (s : State) (f : Func) (cmd : W64) (a : SMap W64) (q : Nat), Submitted s f 0x28 cmd a → namedPv s f cmd = some q →
    faulty a [] (fun _ => false) = none → (s.pv q).run.st ∈ [pvRunning, pvDraining] →
    (isFront s q = false → exec (.drain f) s = .next (answer s (fnNum f) stBadArgument 0 0 []))
    ∧ (isFront s q = true → ∃ u, exec (.drain f) s = .next (answer u (fnNum f) stDone 0 0 []) ∧ (u.pv q).run.st = pvDraining
      ∧ ((s.pv q).run.st = pvRunning → (u.pv q).run.pause = none) ∧ (u.pv q).front = (s.pv q).front ∧ (∀ x, x ≠ q → u.pv x = s.pv x)
      ∧ u.reg = s.reg ∧ u.tiles = s.tiles ∧ u.die = s.die))
  ∧ (∀ (s : State) (f : Func) (cmd : W64) (a : SMap W64) (q n : Nat), Submitted s f 0x29 cmd a → namedPv s f cmd = some q →
    faulty a [0x3FFFFF, 0xFFFFFFFFFFFF, 0xFFFFFFFF] (tenantBad s q a) = none → (s.pv q).run.st ∈ notResetting → n = arg a 0 11 0 →
    (tenantBusy s q n = false → exec (.tenantSet f) s
      = .next (answer { s with die := { s.die with atTick := s.die.atTick ++ [.tenant n (tenantCfg q a) (w64 (arg a 2 31 0))] } } (fnNum f) stDone 0 0 []))
    ∧ (tenantBusy s q n = true → arg a 0 12 12 = 0 → exec (.tenantSet f) s = .next (answer s (fnNum f) stStateConflict 0 0 [])))
  ∧ (∀ (s : State) (f : Func) (cmd : W64) (a : SMap W64) (q : Nat), Submitted s f 0x2A cmd a → namedPv s f cmd = some q →
    faulty a [0x1FFF, 0xFFFFFFFFFFFF] (fun w => w == 0 && tenantOut s q (arg a 0 11 0)) = none → (s.pv q).run.st ∈ notResetting →
    (arg a 0 12 12 = 0 → exec (.tenantBudgetSet f) s
      = .next (answer { s with die := { s.die with atTick := s.die.atTick ++ [.budget (arg a 0 11 0) (w64 (arg a 1 47 0))] } } (fnNum f) stDone 0 0 []))
    ∧ (arg a 0 12 12 = 1 → exec (.tenantBudgetAdd f) s
      = .next (answer { s with die := { s.die with atTick := s.die.atTick ++ [.budgetAdd (arg a 0 11 0) (w64 (arg a 1 47 0))] } } (fnNum f) stDone 0 0 [])))
  ∧ (∀ (s : State) (f : Func) (cmd : W64) (a : SMap W64) (q n : Nat), Submitted s f 0x2B cmd a → namedPv s f cmd = some q →
    faulty a [0x3F, wholeWord, wholeWord, wholeWord, wholeWord] (fun _ => false) = none → (s.pv q).run.st ∈ notResetting → n = arg a 0 5 0 →
    (s.rd (IH_SALT_CFG_VALID n) = 0 → ∃ u, exec (.groupSet f) s = .next (answer u (fnNum f) stDone 0 0 []) ∧ u.rd (IH_SALT_CFG_VALID n) = 1
      ∧ u.rd (IH_SALT_CFG_PAVILION n) = q ∧ u.regW (IH_SALT_KEY0_OFF n) = SMap.look a 1 0 ∧ u.regW (IH_SALT_KEY1_OFF n) = SMap.look a 2 0
      ∧ u.regW (IH_SALT_KEY2_OFF n) = SMap.look a 3 0 ∧ u.regW (IH_SALT_KEY3_OFF n) = SMap.look a 4 0
      ∧ (∀ m, m < 64 → m ≠ n → u.regW (IH_SALT_CFG_OFF m) = s.regW (IH_SALT_CFG_OFF m)) ∧ u.tiles = s.tiles ∧ u.pvs = s.pvs ∧ u.fns = s.fns)
    ∧ (s.rd (IH_SALT_CFG_VALID n) = 1 → s.rd (IH_SALT_CFG_PAVILION n) ≠ q → exec (.groupSet f) s = .next (answer s (fnNum f) stNoResource 0 0 []))
    ∧ (s.rd (IH_SALT_CFG_VALID n) = 1 → s.rd (IH_SALT_CFG_PAVILION n) = q →
      exec (.groupSet f) s = .next (answer s (fnNum f) (if sameSalt s n a then stDone else stStateConflict) 0 0 [])))
  ∧ (∀ (s : State) (f : Func) (cmd : W64) (a : SMap W64) (q n : Nat), Submitted s f 0x2C cmd a → namedPv s f cmd = some q →
    faulty a [0x3F] (fun w => w == 0 && !saltOf s q (arg a 0 5 0)) = none → (s.pv q).run.st ∈ notResetting → n = arg a 0 5 0 →
    ((s.pv q).front.live.any (fun r => inGroup s n r.tenant) = true → exec (.groupRemove f) s = .next (answer s (fnNum f) stStateConflict 0 0 []))
    ∧ ((s.pv q).front.live.any (fun r => inGroup s n r.tenant) = false → ∃ u, exec (.groupRemove f) s = .next (answer u (fnNum f) stDone 0 0 [])
      ∧ u.rd (IH_SALT_CFG_VALID n) = 0 ∧ u.regW (IH_SALT_KEY0_OFF n) = 0
      ∧ (∀ x, (s.pv q).res.firstTenant ≤ x → x < (s.pv q).res.firstTenant + (s.pv q).res.tenants → x < 4096 → inGroup u n x = false)
      ∧ (∀ p, (u.pv q).front.pool = some p → ∀ e ∈ p.index, e.2.group ≠ n) ∧ (u.pv q).run = (s.pv q).run
      ∧ (u.pv q).front.live = (s.pv q).front.live ∧ u.tiles = s.tiles ∧ u.fns = s.fns))
  ∧ (∀ (s : State) (f : Func) (cmd : W64) (a : SMap W64) (q : Nat), Submitted s f 0x2D cmd a → namedPv s f cmd = some q →
    faulty a [0xFFFF0000FFFF, 0xFFF] (poolBad s q a) = none → (s.pv q).run.st ∈ [pvEmpty, pvLoaded] → flightsFull s (fnNum f) = false →
    pvBusy s q = false → (s.pv q).front.pool = none →
    ∃ t, exec (.poolCreate f) s = .next t ∧ (t.fn (fnNum f)).rd MB_STATUS_STATUS = stAccepted
      ∧ (t.pv q).front.pool = some ⟨arg a 0 7 0, arg a 0 15 8, arg a 0 47 32, arg a 1 11 0, [], [], []⟩ ∧ (t.pv q).run = (s.pv q).run
      ∧ (∀ x, x ≠ q → t.pv x = s.pv x) ∧ t.reg = s.reg ∧ t.tiles = s.tiles ∧ t.die = s.die)
  ∧ (∀ (s : State) (f : Func) (cmd : W64) (a : SMap W64) (q : Nat), Submitted s f 0x2E cmd a → namedPv s f cmd = some q →
    faulty a [] (fun _ => false) = none → (s.pv q).run.st ∈ [pvEmpty, pvLoaded] →
    ((s.pv q).front.pool = none → exec (.poolDestroy f) s = .next (answer s (fnNum f) stStateConflict 0 0 []))
    ∧ ((s.pv q).front.pool.isSome = true → ∃ u, exec (.poolDestroy f) s = .next (answer u (fnNum f) stDone 0 0 []) ∧ (u.pv q).front.pool = none
      ∧ (u.pv q).run = (s.pv q).run ∧ (∀ x, x ≠ q → u.pv x = s.pv x) ∧ u.reg = s.reg ∧ u.tiles = s.tiles ∧ u.fns = s.fns ∧ u.die = s.die))
  ∧ ∀ (s : State) (f : Func) (cmd : W64) (a : SMap W64) (q : Nat), Submitted s f 0x2F cmd a → namedPv s f cmd = some q →
    faulty a [1] (fun _ => false) = none → (s.pv q).run.st ∈ notResetting →
    (arg a 0 0 0 = 1 → exec (.balanceOn f) s
      = .next (answer { s with die := { s.die with atTick := s.die.atTick ++ [.balance q true] } } (fnNum f) stDone 0 0 []))
    ∧ (arg a 0 0 0 = 0 → exec (.balanceOff f) s
      = .next (answer { s with die := { s.die with atTick := s.die.atTick ++ [.balance q false] } } (fnNum f) stDone 0 0 []))

-- the Gatehouse's answers

/-- DOE, SPDM and fleet keys (R359 to R364): over a link that is up, discovery lists three objects; SPDM answers certificates, challenges, measurements,
capabilities and algorithms, signed where it signs; a fleet key is installed in a free or own slot if its primes hold, and removed; another port's slot
answers STATE_CONFLICT. Without a link nothing happens. The model's own choices behind it: log entries 5, 16. -/
def Obligations.GatehouseAnswers : Prop :=
  (∀ (s : State) (port : Nat), port < 2 → doeUp s port = true →
    exec (.doeDiscovery port 0) s = .next { s with out := s.out ++ [.doe port [0x01, 0x00, 0x00, 0x01]] }
    ∧ exec (.doeDiscovery port 1) s = .next { s with out := s.out ++ [.doe port [0x01, 0x00, 0x01, 0x02]] }
    ∧ exec (.doeDiscovery port 2) s = .next { s with out := s.out ++ [.doe port [0x3C, 0x1F, 0x01, 0x00]] }
    ∧ (∀ slot off len, exec (.spdmGetCertificate port slot off len) s = .next { s with out := s.out ++
        [if slot = 0 ∧ off < Config.certChain.length then .spdm port 0x02 [(0, (Config.certChain.drop off).take len)] false else .spdm port 0x7F [] false] })
    ∧ (∀ slot nonce, exec (.spdmChallenge port slot nonce) s = .next { s with out := s.out ++
        [if slot = 0 then .spdm port 0x03 [(0, sha256 Config.certChain), (1, nonce)] true else .spdm port 0x7F [] false] })
    ∧ (∀ nonce, exec (.spdmGetMeasurements port 0 nonce) s = .next { s with out := s.out ++ [.spdm port 0x60 [(0, [9]), (0xFE, nonce)] true] })
    ∧ (∀ k nonce, 1 ≤ k → k ≤ 9 →
        exec (.spdmGetMeasurements port k nonce) s = .next { s with out := s.out ++ [.spdm port 0x60 [(k, measurement s port k), (0xFE, nonce)] true] })
    ∧ (∀ k nonce, 10 ≤ k → k < 0xFF → exec (.spdmGetMeasurements port k nonce) s = .next { s with out := s.out ++ [.spdm port 0x7F [] false] })
    ∧ (∀ nonce, ∃ bs, exec (.spdmGetMeasurements port 0xFF nonce) s = .next { s with out := s.out ++ [.spdm port 0x60 bs true] }
        ∧ bs.map (·.1) = [1, 2, 3, 4, 5, 6, 7, 8, 9, 0xFE] ∧ (∀ k, 1 ≤ k → k ≤ 9 → (k, measurement s port k) ∈ bs))
    ∧ exec (.spdmGetCapabilities port) s = .next { s with out := s.out ++ [.spdm port 0x61 [(0, [0x16, 0, 0, 0])] false] }
    ∧ exec (.spdmNegotiateAlgorithms port) s
        = .next { s with out := s.out ++ [.spdm port 0x63 [(0, [8, 0, 0, 0]), (1, [1, 0, 0, 0]), (2, [2, 0, 0, 0])] false] })
  ∧ (∀ s port, measurement s port 3 = [BitVec.ofNat 8 s.gate.svn, BitVec.ofNat 8 s.gate.fuses])
  ∧ (∀ (s : State) (port slot : Nat) (body : List Byte), port < 2 → doeUp s port = true → body.headD 0 = 1 → body.length = 1188 →
    fleetHead body = true → slot = (body.getD 1 0).toNat →
    (fleetForeign s port slot = true → exec (.fleetKeyInstall port body) s = .next { s with out := s.out ++ [.doe port [0x04, 0, 0, 0, 0, 0, 0, 0]] })
    ∧ (fleetForeign s port slot = false → exec (.fleetKeyInstall port body) s = .next (match fleetPrimes body with
        | none => { s with out := s.out ++ [.doe port [0x06, 0, 0, 0, 0, 0, 0, 0]] }
        | some (p, q) =>
          if p * q ≠ leNat ((body.drop 404).take 384) then { s with out := s.out ++ [.doe port [0x03, 0, 0, 0, 0, 0, 0, 0]] }
          else { s with gate := { s.gate with fleet := SMap.put s.gate.fleet slot ⟨port, keyId (p * q), p * q, rsaPrivate p q⟩ }, out := s.out ++ [.doe port [0, 0, 0, 0, 0, 0, 0, 0]] })))
  ∧ (∀ (s : State) (port : Nat) (body : List Byte), port < 2 → doeUp s port = true → body.headD 0 ≠ 2 →
    (body.headD 0 ≠ 1 ∨ body.length ≠ 1188 ∨ fleetHead body = false) →
    exec (.fleetKeyInstall port body) s = .next { s with out := s.out ++ [.doe port [0x03, 0, 0, 0, 0, 0, 0, 0]] })
  ∧ (∀ (s : State) (port slot : Nat) (body : List Byte), port < 2 → doeUp s port = true → body.headD 0 = 2 → slot = (body.getD 1 0).toNat →
    (body.length ≠ 8 ∨ fleetHead body = false →
      exec (.fleetKeyRemove port body) s = .next { s with out := s.out ++ [.doe port [0x03, 0, 0, 0, 0, 0, 0, 0]] })
    ∧ (body.length = 8 → fleetHead body = true → fleetForeign s port slot = true →
      exec (.fleetKeyRemove port body) s = .next { s with out := s.out ++ [.doe port [0x04, 0, 0, 0, 0, 0, 0, 0]] })
    ∧ (body.length = 8 → fleetHead body = true → fleetForeign s port slot = false →
      ∃ t, exec (.fleetKeyRemove port body) s = .next t ∧ t.fleet? slot = none ∧ (∀ k, k ≠ slot → t.fleet? k = s.fleet? k)
        ∧ t.out = s.out ++ [.doe port [0, 0, 0, 0, 0, 0, 0, 0]] ∧ t.reg = s.reg ∧ t.tiles = s.tiles ∧ t.pvs = s.pvs ∧ t.fns = s.fns))
  ∧ ∀ (s : State) (port k : Nat) (body : List Byte), port < 2 → doeUp s port = false →
    exec (.doeDiscovery port k) s = .next s ∧ exec (.spdmChallenge port k body) s = .next s ∧ exec (.spdmGetMeasurements port k body) s = .next s
      ∧ exec (.fleetKeyInstall port body) s = .next s ∧ exec (.fleetKeyRemove port body) s = .next s ∧ exec (.spdmGetCapabilities port) s = .next s

-- replay and recovery

/-- Replay, repair and the Ranger (R381, R382, R388, R390 to R393, R397): a module with none of the frame's work left restores its tick state and
sends its release; a tile moves to its
east neighbour only in a quiet period; at T_r every counter returns to zero and the replay is counted; the Ranger aborts the contexts that are not
ready; a tile's report aborts its context, and an orphan notice breaks its waits. The model's own choices behind it: log entries 5, 33. -/
def Obligations.ReplaysAndTheRanger : Prop :=
  (∀ (s : State), s.replay.standing = true → s.replay.released = false → quiet s = true → s.replay.fresh = [] → s.replay.lasting = [] →
    s.replay.attempts < 3 →
    ∃ t, exec .replayQuiet s = .next t ∧ t.replay.restored = true ∧ t.replay.attempts = s.replay.attempts
      ∧ (∀ p, (s.tile p).seq.run ≠ .waitTick → (t.tile p).tc = (s.tile p).tick.tc ∧ (t.tile p).seq.head = (s.tile p).tick.head
          ∧ (t.tile p).seq.window = [] ∧ (t.tile p).seq.handler = none)
      ∧ (∀ p, (t.tile p).sp = (s.tile p).sp ∧ (t.tile p).tr = (s.tile p).tr)
      ∧ (∀ e, (t.barrier e).total = (s.barrier e).tickTotal)
      ∧ (∀ h, s.sun.holds.find? (fun h => h.kind == kindReplay && h.origin == s.index && h.relAt == none) = some h →
          t.replay.released = true ∧ ∀ p ∈ s.machinePorts, portCarries s p = true → .release p s.index h.seq s.sun.tick ∈ t.out)
      ∧ t.pvs = s.pvs ∧ t.fns = s.fns ∧ t.reg = s.reg ∧ t.rows = s.rows)
  ∧ (∀ (s : State), s.replay.standing = false ∨ s.replay.released = true ∨ quiet s = false → exec .replayQuiet s = .next s)
  ∧ (∀ (s : State) (p : Nat), p < 272 → p % 17 < 16 → s.replay.standing = true → s.replay.released = false →
    ∃ t, exec (.moveEast p) s = .next t ∧ (t.tile (p + 1)).tc = (s.tile p).tc ∧ (badWords s p = [] → (t.tile (p + 1)).sp = (s.tile p).sp)
      ∧ (t.tile (p + 1)).rd TL_SEQ_CONFIG_ENABLE = (s.tile p).rd TL_SEQ_CONFIG_ENABLE ∧ (t.tile (p + 1)).orphaned = (s.tile p).orphaned
      ∧ (t.tile p).rd TL_SEQ_CONFIG_ENABLE = 0 ∧ (t.tile p).seq.run = .idle ∧ (∀ x, x ≠ p → x ≠ p + 1 → t.tile x = s.tile x)
      ∧ t.reg = s.reg ∧ t.pvs = s.pvs ∧ t.fns = s.fns ∧ t.die = s.die ∧ t.rows = s.rows)
  ∧ (∀ (s : State) (p : Nat), p < 272 → (p % 17 = 16 ∨ s.replay.standing = false ∨ s.replay.released = true) → exec (.moveEast p) s = .next s)
  ∧ (∀ (s : State) (r : Nat), replayDue s = some r → r ≤ s.sun.tick → s.downPorts = [] →
    ∃ t, exec .replayTick s = .next t ∧ t.sun.tick = 0 ∧ t.sun.ctr = 0 ∧ (∀ g, t.lag g = 0) ∧ t.sun.holds = [] ∧ t.sun.freeze = none
      ∧ t.replay.attempts = s.replay.attempts + 1 ∧ t.replay.standing = false ∧ t.frame = s.frame
      ∧ t.rd RG_REPLAY_REPLAYS = (s.rd RG_REPLAY_REPLAYS + 1) % 2 ^ 32 ∧ t.rd RG_STATUS_REPLAY_SEEN = 1 ∧ t.regW RG_LAST_REPLAY_OFF = s.replay.report
      ∧ (∀ x ∈ t.die.transfers, x.stale = false) ∧ (∀ p, (t.tile p).sp = (s.tile p).sp ∧ (t.tile p).tr = (s.tile p).tr)
      ∧ t.pvs = s.pvs ∧ t.fns = s.fns ∧ t.out = s.out)
  ∧ (∀ s : State, (replayDue s = none ∨ ∃ r, replayDue s = some r ∧ s.sun.tick < r) → exec .replayTick s = .next s)
  ∧ (∀ s : State, 0 < s.frameLen → 2 * s.frameLen ≤ s.replay.idle → rangerCounts s = true →
    ∃ t, exec .rangerFire s = .next t ∧ t.rd RG_STATUS_RANGER_SEEN = 1 ∧ t.rd RG_STATUS_RANGER_FIRES = (s.rd RG_STATUS_RANGER_FIRES + 1) % 2 ^ 32
      ∧ (∀ q, q < 4 → abortable s q = true → contextReady s q = false → (t.pv q).run.st = pvFaulted ∧ (t.pv q).run.cause = causeRanger)
      ∧ (∀ q, q < 4 → abortable s q = false ∨ contextReady s q = true → (t.pv q).run = (s.pv q).run) ∧ t.gate = s.gate ∧ t.mod = s.mod)
  ∧ (∀ s : State, s.replay.idle < 2 * s.frameLen → exec .rangerFire s = .next s)
  ∧ (∀ (s : State) (p q : Nat) (r : Report), p < 272 → s.die.reports.find? (fun r => r.p == p) = some r → s.pvOfTile p = some q → r.kind < 2 →
    abortable s q = true →
    ∃ t, exec (.tileFaultReport p) s = .next t ∧ (t.pv q).run.st = pvFaulted
      ∧ (t.pv q).run.cause = (if r.kind = 0 then causeCaught else causeWaitBroken) ∧ (t.pv q).front.live = [] ∧ (t.pv q).front.waiting = []
      ∧ t.dumps.seq = s.dumps.seq + dumpsAdded s ∧ (∀ x, x ≠ q → (t.pv x).run = (s.pv x).run) ∧ t.gate = s.gate ∧ t.mod = s.mod)
  ∧ (∀ (s : State) (p : Nat), p < 272 → s.die.reports.find? (fun r => r.p == p) = none → exec (.tileFaultReport p) s = .next s)
  ∧ ∀ (s : State) (module q : Nat), module < 4096 → q < 4 →
    (pvExists s q = true → (s.pv q).run.st ≠ pvHeld → ∃ t, exec (.orphanNotice module q) s = .next t ∧ t.rd RG_STATUS_ORPHAN_SEEN = 1
      ∧ (∀ p ∈ s.pvTiles q, (t.tile p).orphaned = BitVec.allOnes 64 ∧ (t.tile p).rd TL_EPOCH_ARM = 0 ∧ (t.tile p).sp = (s.tile p).sp)
      ∧ t.pvs = s.pvs ∧ t.fns = s.fns)
    ∧ (s.pvs = [] → ∃ t, exec (.orphanNotice module q) s = .next t ∧ t.rd RG_STATUS_ORPHAN_SEEN = 1 ∧ t.tiles = s.tiles ∧ t.pvs = s.pvs)
    ∧ ((s.pv q).run.st = pvHeld → ∃ t, exec (.orphanNotice module q) s = .next t ∧ (t.pv q).run.st = pvFaulted ∧ (t.pv q).run.cause = causeWaitBroken)

-- the host interface

/-- Resets, links and failed transfers (R9, R424, R425, R432): a reset clears a function's mailbox and discards what it has in flight, and takes the
rings of its pavilions; a port's resets act on its physical function and every virtual one; a failed or late DMA ends what waited for it.
The model's own choices behind it: log entry 35. -/
def Obligations.HostInterfaceActs : Prop :=
  (∀ (s : State) (port n k : Nat), port < 2 → 1 ≤ n → n ≤ 16 → k = 17 * port + n → (∀ q, q < 4 → ringFn s q ≠ some k) →
    ∃ t, exec (.functionLevelReset (.vf port n)) s = .next t ∧ (t.fn k).reg = [] ∧ (t.fn k).latched = none ∧ (t.fn k).async = []
      ∧ (t.fn k).nextTicket = (s.fn k).nextTicket ∧ (t.fn k).flights = (s.fn k).flights.map (fun x => { x with discard := true })
      ∧ (∀ m, m ≠ k → t.fn m = s.fn m) ∧ t.pvs = s.pvs ∧ t.reg = s.reg ∧ t.tiles = s.tiles ∧ t.die = s.die ∧ t.gate = s.gate)
  ∧ (∀ (s : State) (port n q : Nat), port < 2 → 1 ≤ n → n ≤ 16 → q < 4 → ringFn s q = some (17 * port + n) →
    ∃ t, exec (.functionLevelReset (.vf port n)) s = .next t ∧ (t.pv q).front.rings = none ∧ (t.pv q).front.store = []
      ∧ (t.pv q).run.st = (if abortable s q then pvResetting else (s.pv q).run.st) ∧ t.gate = s.gate ∧ t.mod = s.mod)
  ∧ (∀ (s : State) (port : Nat) (c : Instr), port < 2 →
    (c = .functionLevelReset (.pf port) ∨ c = .pcieHotReset port ∨ c = .pcieLinkLoss port ∨ c = .d3hotToD0 (.pf port) ∨ ∃ n, 1 ≤ n ∧ n ≤ 16 ∧ c = .d3hotToD0 (.vf port n)) →
    ∃ t, exec c s = .next t ∧ (∀ k, k < 17 → (t.fn (17 * port + k)).latched = none ∧ (t.fn (17 * port + k)).async = []
        ∧ ∀ x ∈ (t.fn (17 * port + k)).flights, x.discard = true)
      ∧ (c = .pcieLinkLoss port → SMap.look t.mod.links port 0 = 0) ∧ (c ≠ .pcieLinkLoss port → t.mod = s.mod) ∧ t.gate = s.gate)
  ∧ (∀ (s : State) (port : Nat), port < 2 →
    (s.mod.power = true → s.mod.inReset = false → (port = 0 ∨ s.mod.split = true) →
      exec (.pcieLinkUp port) s = .next { s with mod := { s.mod with links := SMap.put s.mod.links port 1 } })
    ∧ ((s.mod.power = false ∨ s.mod.inReset = true ∨ (port = 1 ∧ s.mod.split = false)) → exec (.pcieLinkUp port) s = .next s))
  ∧ (∀ (s : State) (k : DmaKind), dmaOk k = true → ∃ t, exec (.dmaTimeout k) s = .next t ∧ exec (.dmaFailure k) s = .next t)
  ∧ (∀ (s : State) (n t len : Nat), s.gate.fwJob = some (n, t, len) →
    ∃ u, exec (.dmaFailure .firmware) s = .next (endAsync u n t stFault 0 0) ∧ u.gate = { s.gate with phase := 0, fwJob := none, sram := [] } ∧ u.fns = s.fns
      ∧ u.reg = s.reg ∧ u.tiles = s.tiles)
  ∧ (∀ (s : State) (q i : Nat), q < 4 → i < 8192 → exec (.dmaFailure (.shard q i)) s = exec (.shardVerify q i none) s)
  ∧ (∀ (s : State) (f : Func) (cmd : W64) (a : SMap W64), Submitted s f 0x03 cmd a → faulty a configMasks (configBad a) = none →
    s.rd SD_STATUS_ALIGNED = 0 → exec (.dmaFailure (.plan f)) s = .next (answer s (fnNum f) stFault 0 0 []))
  ∧ (∀ (s : State) (f : Func) (cmd : W64) (a : SMap W64) (q : Nat), Submitted s f 0x24 cmd a → namedPv s f cmd = some q →
    faulty a [0x3F, wholeWord, 0xFFFFFFFF] (fun w => w == 1 && arg a 1 5 0 != 0) = none → (s.pv q).run.st ∈ [pvEmpty, pvLoaded] →
    stagedFor s q (arg a 0 5 0) = true → flightsFull s (fnNum f) = false → pvBusy s q = false →
    ∃ t, exec (.dmaFailure (.krexel f)) s = .next t ∧ (t.pv q).run = (s.pv q).run ∧ (t.fn (fnNum f)).rd MB_STATUS_STATUS = stAccepted
      ∧ t.tiles = s.tiles ∧ t.reg = s.reg ∧ t.gate = s.gate ∧ t.mod = s.mod)
  ∧ (∀ (s : State) (q : Nat) (i : Image) (r : Rings), q < 4 → mayRead s q = some i → (s.pv q).front.rings = some r →
    ∃ t, exec (.dmaFailure (.request q)) s = .next t ∧ (t.pv q).front.rings = some { r with stalled := true }
      ∧ (t.fn r.fn).rd MB_EVENT_RING_ERROR = 1 ∧ mayRead t q = none ∧ t.reg = s.reg ∧ t.tiles = s.tiles)
  ∧ (∀ (s : State) (q n : Nat), q < 4 → ringFn s q = some n →
    ∃ t, exec (.dmaFailure (.completion q)) s = .next t ∧ (t.fn n).rd MB_EVENT_RING_ERROR = 1 ∧ t.pvs = s.pvs ∧ t.reg = s.reg ∧ t.tiles = s.tiles)
  ∧ (∀ (s : State) (f : Func), fnOk f = true →
    ∃ t, exec (.dmaFailure (.dump f)) s = .next t ∧ (t.fn (fnNum f)).rd MB_EVENT_RING_ERROR = 1 ∧ t.pvs = s.pvs ∧ t.reg = s.reg ∧ t.tiles = s.tiles)

/-- Register writes (R9, R10, R337, R354, R420, R421): a doorbell copies the command and its arguments and sets BUSY; while BUSY the window's fields stay;
a host reaches its own windows only, the primary physical function the Sundial registers too; the Warden writes the RW bits of a register and clears its
W1C bits, and no other register moves; a channel configured anew counts from zero (R211, R222); reserved bits of the Shed take nothing (R404, R408). The model's own choices behind it: log entries 5, 21, 34, 35. -/
def Obligations.RegisterWritesAct : Prop :=
  (∀ (s : State) (f : Func) (n : Nat) (v : W64), fnOk f = true → n = fnNum f → bit v 0 = true → (s.fn n).rd MB_STATUS_BUSY = 0 →
    ∃ m args, exec (.registerWrite (.host f) (0x10000 + MB_DOORBELL_OFF) v) s = .next (s.setFn n m) ∧ m.rd MB_STATUS_BUSY = 1
      ∧ m.latched = some ((s.fn n).regW MB_CMD_OFF, args) ∧ m.rungAt = s.sun.time ∧ (∀ w, w < 32 → SMap.look args w 0 = (s.fn n).regW (MB_ARG_OFF w))
      ∧ (∀ w, w < 32 → m.regW (MB_RES_OFF w) = 0) ∧ m.async = (s.fn n).async ∧ m.flights = (s.fn n).flights)
  ∧ (∀ (s : State) (f : Func) (n w : Nat) (v : W64), fnOk f = true → n = fnNum f → w < 32 →
    ((s.fn n).rd MB_STATUS_BUSY = 1 → exec (.registerWrite (.host f) (0x10000 + MB_ARG_OFF w) v) s = .next s)
    ∧ ((s.fn n).rd MB_STATUS_BUSY = 0 → ∃ m, exec (.registerWrite (.host f) (0x10000 + MB_ARG_OFF w) v) s = .next (s.setFn n m)
      ∧ m.regW (MB_ARG_OFF w) = v ∧ (∀ off, off ≠ MB_ARG_OFF w → m.regW off = (s.fn n).regW off) ∧ m.latched = (s.fn n).latched))
  ∧ (∀ (s : State) (f : Func) (off : Nat) (v : W64), fnOk f = true → off % 8 = 0 → (off < 0x10000 ∨ 0x11000 ≤ off) → off < 0x4000000 →
    (f ≠ .pf 0 ∨ off < 0x4000 ∨ 0x5000 ≤ off) → exec (.registerWrite (.host f) off v) s = .next s)
  ∧ (∀ (s : State) (a : Agent) (off : Nat) (v : W64), (a = .warden ∨ a = .host (.pf 0)) → off % 8 = 0 → 0x4000 ≤ off → off < 0x5000 →
    ∃ t, exec (.registerWrite a off v) s = .next t ∧ t.regW off = mergedNow s.just off (s.regW off) v (w64 (rowVal rwState off)) (w64 (rowVal w1cState off))
      ∧ (∀ x, x ≠ off → t.regW x = s.regW x) ∧ t.tiles = s.tiles ∧ t.pvs = s.pvs ∧ t.fns = s.fns ∧ t.die = s.die ∧ t.sun = s.sun)
  ∧ (∀ (s : State) (n : Nat) (v : W64), n < 0x2000 →
    (shedBits n = 0 ∨ 0x200 ≤ n → exec (.registerWrite .warden (0x20000 + 8 * n) v) s = .next s)
    ∧ (shedBits n ≠ 0 → n < 0x200 → shedWorn s n = false →
      ∃ t, exec (.registerWrite .warden (0x20000 + 8 * n) v) s = .next t ∧ t.shed.queue = s.shed.queue ++ [⟨n, v &&& shedBits n, none⟩]
        ∧ t.shed.words = s.shed.words ∧ t.reg = s.reg ∧ t.tiles = s.tiles))
  ∧ (∀ (s : State) (p n : Nat) (v : W64), p < 272 → n < 32 →
    (∃ t, exec (.registerWrite .warden (0x2000000 + 0x4000 * p + TW_SEND_CFG_OFF n) v) s = .next t
      ∧ (t.tile p).regW (TW_SEND_CNT0_OFF n) = 0 ∧ (t.tile p).regW (TW_SEND_CNT1_OFF n) = 0 ∧ (∀ x, x ≠ p → t.tile x = s.tile x)
      ∧ (∀ m, (t.tile p).regW (TW_RECV_STATE_OFF m) = (s.tile p).regW (TW_RECV_STATE_OFF m)) ∧ (t.tile p).sp = (s.tile p).sp ∧ t.reg = s.reg)
    ∧ ∃ t, exec (.registerWrite .warden (0x2000000 + 0x4000 * p + TW_RECV_CFG_OFF n) v) s = .next t
      ∧ (t.tile p).regW (TW_RECV_CNT0_OFF n) = 0 ∧ (t.tile p).regW (TW_RECV_CNT1_OFF n) = 0 ∧ (t.tile p).regW (TW_RECV_CNT2_OFF n) = 0
      ∧ (∀ x, x ≠ p → t.tile x = s.tile x) ∧ (t.tile p).sp = (s.tile p).sp ∧ t.reg = s.reg)
  ∧ (∀ (s : State) (p c k : Nat) (v : W64), p < 272 → c = bits v 21 16 → k = bits v 15 0 →
    exec (.registerWrite .warden (0x2000000 + 0x4000 * p + TL_TC_ADD_OFF) v) s = .next (writeTcAdd s .warden p c k))
  ∧ ∀ (s : State) (a : Agent) (off : Nat) (v : W64), (agentOk a = false ∨ off % 8 ≠ 0 ∨ 0x4010000 ≤ off) →
    exec (.registerWrite a off v) s = .fault (.noSuch "register")

-- supply, resets and temperatures

/-- Supply, tray reset, shutdown and temperatures (R265, R416, R437 to R444, R448): power leaves the module in reset; the deassertion samples the straps;
a tray reset starts a boot; a trip or an under-voltage takes the supply, and latches; a stack that is ready, hot or cool says so.
The model's own choices behind it: log entries 5, 8, 11, 36. -/
def Obligations.PowerAndResetAct : Prop :=
  (∀ s : State, (s.mod.power = false → s.mod.latched = false →
      exec .powerInputApplied s = .next { s with mod := { s.mod with power := true, inReset := true } })
    ∧ (s.mod.power = true ∨ s.mod.latched = true → exec .powerInputApplied s = .next s))
  ∧ (∀ (s : State) (split : Bool) (addr : Nat), addr < 8 →
    (s.mod.power = true → s.mod.inReset = true → ∃ t, exec (.trayResetDeassert split addr) s = .next t ∧ t.rows = repairMap s
      ∧ t.mod = { s.mod with inReset := false, split := split, smb := 0x60 + addr, mctp := true, bootAt := s.sun.time } ∧ t.rd OY_STATUS_SELF_REFRESH = 0
      ∧ (∀ off, off ≠ OY_STATUS_OFF → t.regW off = s.regW off) ∧ t.tiles = s.tiles ∧ t.pvs = s.pvs ∧ t.fns = s.fns ∧ t.die = s.die ∧ t.gate = s.gate)
    ∧ (s.mod.power = false ∨ s.mod.inReset = false → exec (.trayResetDeassert split addr) s = .next s))
  ∧ (∀ (s : State) (ns : Nat), s.mod.power = true → s.mod.inReset = false →
    (ns < 1000 → exec (.trayResetAssert ns) s = .next s)
    ∧ (10000 ≤ ns → ∃ t, exec (.trayResetAssert ns) s = .next t ∧ t.mod.inReset = true ∧ t.mod.mctp = false ∧ t.mod.eid = 0 ∧ t.rd OY_STATUS_SELF_REFRESH = 1 ∧ t.gate.phase = 0
      ∧ t.gate.fuses = s.gate.fuses ∧ t.gate.failedBoots = (if s.gate.ran then s.gate.failedBoots else s.gate.failedBoots + 1) ∧ t.fns = []
      ∧ t.pvs = [] ∧ t.tiles = [] ∧ t.die.hbm = s.die.hbm ∧ t.dumps = s.dumps ∧ t.sun.time = s.sun.time)
    ∧ (1000 ≤ ns → ns < 10000 → ∃ t, exec (.trayResetAssert ns) s = .next t
      ∧ (t = { s with free := s.free + 1 } ∨ t.gate.phase = 0 ∧ t.mod.inReset = true)))
  ∧ (∀ (s : State) (ns : Nat), s.mod.power = false ∨ s.mod.inReset = true → exec (.trayResetAssert ns) s = .next s)
  ∧ (∀ (s : State) (c : Instr) (hot : Bool), s.mod.power = true →
    (c = .underVoltageShutdown ∧ hot = false ∨ ∃ z temp, c = .thermalTrip z temp ∧ sensorOk z = true ∧ tripLimit z < temp ∧ hot = true) →
    ∃ t, exec c s = .next t ∧ t.mod.power = false ∧ t.mod.latched = true ∧ t.mod.thermal = hot ∧ t.mod.alert = 0 ∧ t.mod.cold = true
      ∧ t.gate.fuses = s.gate.fuses ∧ t.fns = [] ∧ t.pvs = [] ∧ t.tiles = [] ∧ t.reg = [] ∧ t.shed.queue = []
      ∧ (s.shed.queue = [] → t.shed.words = s.shed.words) ∧ t.shed.wear = s.shed.wear ∧ t.pending = s.pending)
  ∧ (∀ (s : State) (z : Sensor) (temp : Nat), sensorOk z = true → (s.mod.power = false ∨ temp ≤ tripLimit z) → exec (.thermalTrip z temp) s = .next s)
  ∧ (∀ s : State, s.mod.power = false → exec .underVoltageShutdown s = .next s)
  ∧ (∀ s : State, exec .shutdownLatchRelease s
      = .next (if s.mod.latched then { s with mod := { s.mod with latched := false, thermal := false } } else s))
  ∧ (∀ (s : State) (k : Nat), k < 2 → s.mod.power = true → s.mod.inReset = false →
    ∃ t, exec (.hbmInitComplete k) s = .next t ∧ t.rd (if k = 0 then OY_STATUS_READY0 else OY_STATUS_READY1) = 1
      ∧ (t.rd OY_STATUS_READY0 = 1 → t.rd OY_STATUS_READY1 = 1 → s.rd OY_STATUS_KEY_VALID = 0 →
          t.rd OY_STATUS_KEY_VALID = 1 ∧ t.die.oyKey.length = 64 ∧ t.gate.trngOk = true)
      ∧ (t.rd OY_STATUS_READY0 = 0 ∨ t.rd OY_STATUS_READY1 = 0 ∨ s.rd OY_STATUS_KEY_VALID = 1 → t.gate = s.gate ∧ t.die = s.die)
      ∧ (∃ key, t.die = { s.die with oyKey := key }) ∧ t.gate.phase = s.gate.phase ∧ t.tiles = s.tiles ∧ t.pvs = s.pvs ∧ t.fns = s.fns)
  ∧ (∀ (s : State) (k temp : Nat), k < 2 →
    (1520 < temp → ∃ t, exec (.stackHot k temp) s = .next t ∧ t.rd (if k = 0 then OY_STATUS_HOT0 else OY_STATUS_HOT1) = 1
      ∧ (s.rd (if k = 0 then OY_STATUS_HOT0 else OY_STATUS_HOT1) = 0 → t.rd OY_STATUS_HOT_SEEN = 1)
      ∧ t.mod = { s.mod with temps := SMap.put s.mod.temps (8 + k) temp, alert := s.mod.alert ||| 2 ^ alertThermWarn, alertJust := s.mod.alertJust ||| 2 ^ alertThermWarn }
      ∧ t.tiles = s.tiles ∧ t.die = s.die)
    ∧ (temp ≤ 1520 → exec (.stackHot k temp) s = .next s)
    ∧ (temp ≤ 1520 → ∃ t, exec (.stackCooled k temp) s = .next t ∧ t.rd (if k = 0 then OY_STATUS_HOT0 else OY_STATUS_HOT1) = 0
      ∧ t.rd OY_STATUS_HOT_SEEN = s.rd OY_STATUS_HOT_SEEN ∧ t.mod = { s.mod with temps := SMap.put s.mod.temps (8 + k) temp } ∧ t.tiles = s.tiles
      ∧ t.die = s.die)
    ∧ (1520 < temp → exec (.stackCooled k temp) s = .next s))
  ∧ ∀ (s : State) (g temp : Nat), g < 8 → exec (.thermWarn g temp) s
      = .next (if 1600 < temp then
          { s with mod := { s.mod with temps := SMap.put s.mod.temps g temp, alert := s.mod.alert ||| 2 ^ alertThermWarn, alertJust := s.mod.alertJust ||| 2 ^ alertThermWarn } }
        else s)

/-- The MCTP endpoint and the test access port (R445, R447, R449, R452): each response carries its command byte, a status byte and the data of its row;
GET_ALERT clears the bits that it reports but those set in its own cycle, and any other command is answered with BAD_OPCODE; the endpoint takes a legal address, and without power or
in reset it answers nothing; the port holds the instruction that was loaded, and IDCODE reads 0x1074_07A7. The model's own choices behind it: log entries 5, 11, 16, 43. -/
def Obligations.MctpAndTestAccessAnswer : Prop :=
  (∀ s : State, mctpUp s = true →
    exec .getIdentity s = .next { s with out := s.out ++ [.mctp ([1, 0] ++ leBytes 8 partId.toNat ++ leBytes 8 Config.serial.toNat)] }
    ∧ ((∀ q, (s.pv q).run.st < 16) → exec .getStatus s = .next { s with out := s.out ++ [.mctp ([2, 0, BitVec.ofNat 8 s.gate.phase]
        ++ leBytes 1 (barRead s SD_STATUS_OFF).toNat
        ++ leBytes 2 ((s.pv 0).run.st + 16 * (s.pv 1).run.st + 256 * (s.pv 2).run.st + 4096 * (s.pv 3).run.st)
        ++ leBytes 2 (s.rd RG_STATUS_LOST_CLUSTERS) ++ [BitVec.ofNat 8 (bits (s.regW WV_STATUS_OFF) 11 8)])] })
    ∧ (∃ ts : List Nat, ts.length = 13 ∧ (∀ n, n < 13 → ts.getD n 0 = SMap.look s.mod.temps n 0)
        ∧ exec .getTemps s = .next { s with out := s.out ++ [.mctp ([3, 0] ++ ts.flatMap (leBytes 2))] })
    ∧ exec .getAlert s = .next { s with out := s.out ++ [.mctp ([4, 0] ++ leBytes 2 s.mod.alert)], mod := { s.mod with alert := s.mod.alert &&& s.mod.alertJust } }
    ∧ (∀ k, k < 256 → exec (.getSummary k) s = .next { s with out := s.out ++ [.mctp ([5, 0] ++ leBytes 8 (s.shedWord (0x100 + k)).toNat)] })
    ∧ ∀ cmd, cmd < 256 → cmd = 0 ∨ 5 < cmd →
        exec (.mctpUndefinedCommand cmd) s = .next { s with out := s.out ++ [.mctp [BitVec.ofNat 8 cmd, BitVec.ofNat 8 stBadOpcode]] })
  ∧ (∀ (s : State) (eid : Nat), eid < 256 → mctpUp s = true → exec (.mctpSetEndpointId eid) s
      = .next (if 0 < eid ∧ eid < 255 then { s with mod := { s.mod with eid := eid } } else s))
  ∧ (∀ (s : State) (k : Nat), mctpUp s = false → k < 256 → exec .getIdentity s = .next s ∧ exec .getStatus s = .next s ∧ exec .getTemps s = .next s
    ∧ exec .getAlert s = .next s ∧ exec (.getSummary k) s = .next s ∧ exec (.mctpSetEndpointId k) s = .next s ∧ exec (.mctpUndefinedCommand k) s = .next s)
  ∧ (∀ s : State, s.mod.power = true →
    exec .jtagIdcode s = .next { s with mod := { s.mod with jtagIr := 0 }, out := s.out ++ [.jtag 0 0x107407A7] }
    ∧ exec .jtagBypass s = .next { s with mod := { s.mod with jtagIr := 1 }, out := s.out ++ [.jtag 1 0] }
    ∧ exec .jtagExtest s = .next { s with mod := { s.mod with jtagIr := 3 }, out := s.out ++ [.jtag 3 s.mod.jtagData] }
    ∧ exec .jtagTestLogicReset s = .next { s with mod := { s.mod with jtagIr := 0 } }
    ∧ ∀ data, exec (.jtagSamplePreload data) s = .next { s with mod := { s.mod with jtagIr := 2, jtagData := data }, out := s.out ++ [.jtag 2 (Config.boundarySample s.free)], free := s.free + 1 })
  ∧ ∀ (s : State) (data : Nat), s.mod.power = false → exec .jtagIdcode s = .next s ∧ exec .jtagBypass s = .next s ∧ exec .jtagExtest s = .next s
    ∧ exec .jtagTestLogicReset s = .next s ∧ exec (.jtagSamplePreload data) s = .next s
end

