-- ==== Sys2Proof/Laws/Tables.lean ====
section
/-!
SUPPORT. Laws of bit fields, tables by number and byte memories: a read after a write, other entries unchanged, and the canonical form kept.
-/

namespace Sys2Proof.Machine
open Sys2Proof

-- tables by number

@[simp] theorem SMap.look?_put_same {α : Type} (m : SMap α) (k : Nat) (v : α) : SMap.look? (SMap.put m k v) k = some v := by
  induction m with
  | nil => simp [SMap.put, SMap.look?]
  | cons e r ih =>
    obtain ⟨j, w⟩ := e
    simp only [SMap.put]
    split
    · simp [SMap.look?]
    · split
      · simp [SMap.look?]
      · next h => simp [SMap.look?, h, ih]

theorem SMap.look?_put_ne {α : Type} (m : SMap α) {k l : Nat} (v : α) (h : l ≠ k) : SMap.look? (SMap.put m k v) l = SMap.look? m l := by
  induction m with
  | nil => simp [SMap.put, SMap.look?, Ne.symm h]
  | cons e r ih =>
    obtain ⟨j, w⟩ := e
    simp only [SMap.put]
    split
    · simp [SMap.look?, Ne.symm h]
    · split
      · next hj => subst hj; simp [SMap.look?, Ne.symm h]
      · simp [SMap.look?, ih]

@[simp] theorem SMap.look_put_same {α : Type} (m : SMap α) (k : Nat) (v d : α) : SMap.look (SMap.put m k v) k d = v := by
  simp [SMap.look]

theorem SMap.look_put_ne {α : Type} (m : SMap α) {k l : Nat} (v d : α) (h : l ≠ k) : SMap.look (SMap.put m k v) l d = SMap.look m l d := by
  simp [SMap.look, SMap.look?_put_ne m v h]

/-- One law for both cases. -/
theorem SMap.look_put {α : Type} (m : SMap α) (k l : Nat) (v d : α) :
    SMap.look (SMap.put m k v) l d = if l = k then v else SMap.look m l d := by
  by_cases h : l = k
  · subst h; simp
  · simp [h, SMap.look_put_ne m v d h]

@[simp] theorem SMap.put_put {α : Type} (m : SMap α) (k : Nat) (v w : α) : SMap.put (SMap.put m k v) k w = SMap.put m k w := by
  induction m with
  | nil => simp [SMap.put]
  | cons e r ih =>
    obtain ⟨j, x⟩ := e
    rcases Nat.lt_trichotomy k j with h | h | h
    · simp [SMap.put, h]
    · subst h; simp [SMap.put]
    · have h1 : ¬ k < j := by omega
      have h2 : ¬ j = k := by omega
      simp [SMap.put, h1, h2, ih]

/-- Keys strictly rising. -/
abbrev SMap.sorted {α : Type} (m : SMap α) : Prop := m.Pairwise (fun x y => x.1 < y.1)

theorem SMap.key_put {α : Type} {m : SMap α} {k : Nat} {v : α} {e : Nat × α} (h : e ∈ SMap.put m k v) : e = (k, v) ∨ e ∈ m := by
  induction m with
  | nil => left; simpa [SMap.put] using h
  | cons x r ih =>
    obtain ⟨j, w⟩ := x
    simp only [SMap.put] at h
    split at h
    · rcases List.mem_cons.1 h with h | h
      · exact .inl h
      · exact .inr h
    · split at h
      · rcases List.mem_cons.1 h with h | h
        · exact .inl h
        · exact .inr (List.mem_cons_of_mem _ h)
      · rcases List.mem_cons.1 h with h | h
        · exact .inr (h ▸ List.mem_cons_self ..)
        · rcases ih h with h | h
          · exact .inl h
          · exact .inr (List.mem_cons_of_mem _ h)

theorem SMap.sorted_put {α : Type} {m : SMap α} (k : Nat) (v : α) (h : SMap.sorted m) : SMap.sorted (SMap.put m k v) := by
  induction m with
  | nil => simp [SMap.put, SMap.sorted]
  | cons x r ih =>
    obtain ⟨j, w⟩ := x
    obtain ⟨h1, h2⟩ := List.pairwise_cons.1 h
    simp only [SMap.put]
    split
    · next hk =>
      refine List.pairwise_cons.2 ⟨fun e he => ?_, h⟩
      rcases List.mem_cons.1 he with rfl | he
      · exact hk
      · exact Nat.lt_trans hk (h1 e he)
    · split
      · next hk hj => subst hj; exact List.pairwise_cons.2 ⟨fun e he => h1 e he, h2⟩
      · next hk hj =>
        refine List.pairwise_cons.2 ⟨fun e he => ?_, ih h2⟩
        rcases SMap.key_put he with rfl | he
        · exact Nat.lt_of_le_of_ne (Nat.not_lt.1 hk) hj
        · exact h1 e he

theorem SMap.look?_filter {α : Type} {m : SMap α} (p : Nat × α → Bool) (k : Nat) (hp : ∀ e ∈ m, e.1 = k → p e = true) :
    SMap.look? (m.filter p) k = SMap.look? m k := by
  induction m with
  | nil => rfl
  | cons x r ih =>
    obtain ⟨j, w⟩ := x
    have ih' := ih (fun e he => hp e (List.mem_cons_of_mem _ he))
    by_cases hj : j = k
    · have := hp (j, w) (List.mem_cons_self ..) hj
      rw [List.filter_cons_of_pos this]
      simp [SMap.look?, hj]
    · by_cases hq : p (j, w) = true
      · simp [hq, SMap.look?, hj, ih']
      · simp [hq, SMap.look?, hj, ih']

theorem SMap.look?_del_same {α : Type} (m : SMap α) (k : Nat) : SMap.look? (SMap.del m k) k = none := by
  induction m with
  | nil => rfl
  | cons x r ih =>
    obtain ⟨j, w⟩ := x
    by_cases hj : j = k
    · subst hj; simpa [SMap.del, List.filter_cons] using ih
    · simpa [SMap.del, List.filter_cons, hj, SMap.look?] using ih

theorem SMap.look?_del_ne {α : Type} (m : SMap α) {k l : Nat} (h : l ≠ k) : SMap.look? (SMap.del m k) l = SMap.look? m l := by
  refine SMap.look?_filter _ l (fun e _ he => ?_)
  subst he
  simpa using h

-- memories

/-- A byte reads as it was written. -/
@[simp] theorem Mem.rd_wr_same (m : Mem) (a : Nat) (b : Byte) : (m.wr a b).rd a = b := by
  unfold Mem.wr
  split
  · next h => simp [Mem.rd, SMap.look, SMap.look?_del_same, h]
  · simp [Mem.rd]

/-- A write leaves every other byte alone. -/
theorem Mem.rd_wr_ne (m : Mem) {a x : Nat} (b : Byte) (h : x ≠ a) : (m.wr a b).rd x = m.rd x := by
  unfold Mem.wr
  split
  · simp [Mem.rd, SMap.look, SMap.look?_del_ne m h]
  · exact SMap.look_put_ne m b 0 h

theorem Mem.rd_wr (m : Mem) (a x : Nat) (b : Byte) : (m.wr a b).rd x = if x = a then b else m.rd x := by
  by_cases h : x = a
  · subst h; simp
  · simp [h, Mem.rd_wr_ne m b h]

/-- Bytes outside a write are unchanged. -/
theorem Mem.rd_wrN_out (m : Mem) (a x : Nat) (bs : List Byte) (h : x < a ∨ a + bs.length ≤ x) : (m.wrN a bs).rd x = m.rd x := by
  induction bs generalizing m a with
  | nil => rfl
  | cons b bs ih =>
    simp only [List.length_cons] at h
    simp only [Mem.wrN]
    rw [ih _ _ (by omega), Mem.rd_wr_ne m b (by omega)]

/-- Bytes inside a write read as written. -/
theorem Mem.rd_wrN_in (m : Mem) (a i : Nat) (bs : List Byte) (h : i < bs.length) : (m.wrN a bs).rd (a + i) = bs[i] := by
  induction bs generalizing m a i with
  | nil => simp at h
  | cons b bs ih =>
    simp only [Mem.wrN]
    cases i with
    | zero => rw [Mem.rd_wrN_out _ _ _ _ (by omega)]; simp
    | succ i =>
      have := ih (m.wr a b) (a + 1) i (by simpa using h)
      rw [show a + (i + 1) = a + 1 + i by omega, this]; simp

/-- A cleared range reads as zero, and the rest is unchanged. -/
theorem Mem.rd_clear (m : Mem) (a n x : Nat) : (m.clear a n).rd x = if a ≤ x ∧ x < a + n then 0 else m.rd x := by
  unfold Mem.clear Mem.rd SMap.look
  split
  · next h =>
    have : SMap.look? (m.filter (fun c => decide (c.1 < a) || decide (a + n ≤ c.1))) x = none := by
      induction m with
      | nil => rfl
      | cons e r ih =>
        obtain ⟨j, w⟩ := e
        by_cases hq : (decide (j < a) || decide (a + n ≤ j)) = true
        · have hj : j ≠ x := by
            intro e; subst e; simp at hq; omega
          rw [List.filter_cons, if_pos hq]
          simp only [SMap.look?, hj, if_false]
          exact ih
        · rw [List.filter_cons, if_neg hq]
          exact ih
    rw [this]; rfl
  · next h =>
    rw [SMap.look?_filter]
    intro e _ he
    subst he
    simp; omega

theorem Mem.wf_nil : Mem.wf [] := ⟨List.Pairwise.nil, by simp⟩

theorem Mem.wf_filter {m : Mem} (p : Host.Cell → Bool) (h : m.wf) : Mem.wf (m.filter p) :=
  ⟨h.1.filter p, fun c hc => h.2 c (List.mem_filter.1 hc).1⟩

/-- A write keeps the canonical form. -/
theorem Mem.wf_wr {m : Mem} (a : Nat) (b : Byte) (h : m.wf) : (m.wr a b).wf := by
  unfold Mem.wr
  split
  · exact Mem.wf_filter _ h
  · next hb =>
    refine ⟨SMap.sorted_put a b h.1, fun c hc => ?_⟩
    rcases SMap.key_put hc with rfl | hc
    · exact hb
    · exact h.2 c hc

theorem Mem.wf_wrN {m : Mem} (a : Nat) (bs : List Byte) (h : m.wf) : (m.wrN a bs).wf := by
  induction bs generalizing m a with
  | nil => exact h
  | cons b bs ih => exact ih _ (Mem.wf_wr a b h)

theorem Mem.wf_wrLe {m : Mem} (a n v : Nat) (h : m.wf) : (m.wrLe a n v).wf := Mem.wf_wrN _ _ h

theorem Mem.wf_clear {m : Mem} (a n : Nat) (h : m.wf) : (m.clear a n).wf := Mem.wf_filter _ h

-- bit fields

theorem maskBits_getLsbD (hi lo i : Nat) (h : hi < 64) (hl : lo ≤ hi) : (maskBits hi lo).getLsbD i = (decide (lo ≤ i) && decide (i ≤ hi)) := by
  unfold maskBits
  rw [BitVec.getLsbD_shiftLeft, BitVec.getLsbD_ofNat, Nat.testBit_two_pow_sub_one]
  by_cases h1 : i < 64 <;> by_cases h2 : lo ≤ i <;> by_cases h3 : i ≤ hi <;> simp [h1, h2, h3] <;> omega

theorem setBits_getLsbD (w : W64) (hi lo v i : Nat) (h : hi < 64) (hl : lo ≤ hi) :
    (setBits w hi lo v).getLsbD i = if lo ≤ i ∧ i ≤ hi then v.testBit (i - lo) else w.getLsbD i := by
  unfold setBits
  simp only [BitVec.getLsbD_or, BitVec.getLsbD_and, BitVec.getLsbD_not, maskBits_getLsbD hi lo i h hl, BitVec.getLsbD_shiftLeft, BitVec.getLsbD_ofNat]
  by_cases h2 : lo ≤ i <;> by_cases h3 : i ≤ hi
  · have h4 : i < 64 := by omega
    have h5 : ¬ i < lo := by omega
    have h6 : i - lo < 64 := by omega
    simp [h2, h3, h4, h5, h6]
  · simp [h2, h3]; intro hw; exact BitVec.lt_of_getLsbD hw
  · simp [h2, h3]; intro hw; exact BitVec.lt_of_getLsbD hw
  · simp [h2, h3]; intro hw; exact BitVec.lt_of_getLsbD hw

/-- A field reads as it was set, cut to its width. -/
theorem bits_setBits_same (w : W64) (hi lo v : Nat) (h : hi < 64) (hl : lo ≤ hi) : bits (setBits w hi lo v) hi lo = v % 2 ^ (hi + 1 - lo) := by
  unfold bits
  apply Nat.eq_of_testBit_eq
  intro i
  rw [Nat.testBit_mod_two_pow, BitVec.testBit_toNat, BitVec.getLsbD_extractLsb', setBits_getLsbD w hi lo v _ h hl]
  by_cases hi' : i < hi + 1 - lo
  · simp [hi', show lo + i ≤ hi by omega]
  · simp [hi']

/-- A field that does not overlap the one set is unchanged. -/
theorem bits_setBits_ne (w : W64) (hi lo v hi' lo' : Nat) (h : hi < 64) (hl : lo ≤ hi) (hd : hi' < lo ∨ hi < lo') :
    bits (setBits w hi lo v) hi' lo' = bits w hi' lo' := by
  unfold bits
  apply Nat.eq_of_testBit_eq
  intro i
  rw [BitVec.testBit_toNat, BitVec.testBit_toNat, BitVec.getLsbD_extractLsb', BitVec.getLsbD_extractLsb', setBits_getLsbD w hi lo v _ h hl]
  by_cases hi' : i < hi' + 1 - lo'
  · have : ¬ (lo ≤ lo' + i ∧ lo' + i ≤ hi) := by omega
    simp [this]
  · simp [hi']

/-- A field lies below the power of its width. -/
theorem bits_lt (w : W64) (hi lo : Nat) : bits w hi lo < 2 ^ (hi + 1 - lo) := BitVec.isLt _

end Sys2Proof.Machine
end

