-- ==== Sys2Proof/Laws/Canonical.lean ====
section
/-!
SUPPORT. The canonical form of the byte memories is kept by every operation that builds one, and the memories after reset have it.
The operations on single bytes and runs of bytes are in Laws/Tables.lean.
-/

namespace Sys2Proof.Machine
open Sys2Proof

/-- A fold each of whose steps keeps the canonical form keeps it. -/
theorem Mem.wf_foldl {α : Type} (g : Mem → α → Mem) (hg : ∀ (m : Mem) (x : α), m.wf → (g m x).wf) (l : List α) {m : Mem} (h : m.wf) : Mem.wf (l.foldl g m) := by
  induction l generalizing m with
  | nil => exact h
  | cons x l ih => exact ih (hg m x h)

/-- The keys of the memory that a list of bytes fills start at its address. -/
theorem memOf_le (a : Nat) (bs : List Byte) : ∀ c ∈ memOf a bs, a ≤ c.1 := by
  induction bs generalizing a with
  | nil => simp [memOf]
  | cons b bs ih =>
    intro c hc
    unfold memOf at hc
    split at hc
    · have := ih (a + 1) c hc; omega
    · rcases List.mem_cons.1 hc with rfl | hc
      · exact Nat.le_refl _
      · have := ih (a + 1) c hc; omega

theorem wf_memOf (a : Nat) (bs : List Byte) : (memOf a bs).wf := by
  induction bs generalizing a with
  | nil => exact Mem.wf_nil
  | cons b bs ih =>
    unfold memOf
    split
    · exact ih _
    · next hb =>
      refine ⟨List.pairwise_cons.2 ⟨fun c hc => memOf_le (a + 1) bs c hc, (ih _).1⟩, fun c hc => ?_⟩
      rcases List.mem_cons.1 hc with rfl | hc
      · exact hb
      · exact (ih _).2 c hc

/-- What a tile's reads of one tc find keeps the form: the old bytes put back over the new. -/
theorem wf_spSeen (t : Tile) (h : t.sp.wf) : t.spSeen.wf := Mem.wf_foldl _ (fun _ _ h => Mem.wf_wr _ _ h) _ h

theorem wf_trSeen (t : Tile) (h : t.tr.wf) : t.trSeen.wf := Mem.wf_foldl _ (fun _ _ h => Mem.wf_wr _ _ h) _ h

/-- Every write of a scratchpad. -/
theorem wf_spPut (t : Tile) (cls a : Nat) (bs : List Byte) (h : t.sp.wf) : (t.spPut cls a bs).sp.wf := by
  induction bs generalizing t a with
  | nil => exact h
  | cons b bs ih =>
    unfold Tile.spPut
    refine ih _ _ ?_
    split
    · exact Mem.wf_wr _ _ h
    · exact h

/-- Every write of a Terrace. -/
theorem wf_trPut (t : Tile) (a : Nat) (bs : List Byte) (h : t.tr.wf) : (t.trPut a bs).tr.wf := by
  induction bs generalizing t a with
  | nil => exact h
  | cons b bs ih => exact ih _ _ (Mem.wf_wr _ _ h)

theorem wf_spView (s : State) (p : Nat) (chk : Check) (h : (s.tile p).sp.wf) : (spView s p chk).wf := by
  unfold spView; split
  · exact Mem.wf_wrN _ _ (wf_spSeen _ h)
  · exact wf_spSeen _ h

theorem wf_trView (s : State) (p : Nat) (chk : Check) (h : (s.tile p).tr.wf) : (trView s p chk).wf := by
  unfold trView; split
  · exact Mem.wf_wrN _ _ (wf_trSeen _ h)
  · exact wf_trSeen _ h

/-- A reload of a Terrace. -/
theorem wf_sliceTerrace (s : State) (x : Slice) (pos : Nat) : (sliceTerrace s x pos).wf := Mem.wf_wrN _ _ Mem.wf_nil

/-- A data unit staged into HBM. -/
theorem wf_stageUnit (s : State) (x : Slice) (u : Nat) (b : List Byte) (h : s.die.hbm.wf) : (stageUnit s x u b).die.hbm.wf := by
  have e : (stageUnit s x u b).die.hbm
      = Mem.wrN s.die.hbm (hbmKey (slicePlace s x (512 * u))) (xtsUnit false s.die.oyKey (unitTweak (slicePlace s x (512 * u))) b) := by simp only [stageUnit]
  rw [e]; exact Mem.wf_wrN _ _ h

/-- A write of a pavilion's window. -/
theorem wf_windowWrite (s : State) (q a : Nat) (b : List Byte) (h : s.die.hbm.wf) : (windowWrite s q a b).die.hbm.wf := by
  have e : (windowWrite s q a b).die.hbm = (b.zip (List.range b.length)).foldl (fun m x => Mem.wr m (hbmKey (windowPlace s q (a + x.2))) x.1) s.die.hbm := by
    simp only [windowWrite]
  rw [e]; exact Mem.wf_foldl _ (fun _ _ h => Mem.wf_wr _ _ h) _ h

theorem wf_tileBytes (i : Image) (barriers : SMap Nat) (t : Nat) {m : Mem} (h : m.wf) : (i.tileBytes barriers t m).wf := by
  unfold Image.tileBytes
  refine Mem.wf_foldl _ (fun m r h => ?_) _ (Mem.wf_foldl _ (fun m x h => ?_) _ h)
  · split
    · exact Mem.wf_wrLe _ _ _ h
    · exact h
  · split
    · split
      · exact Mem.wf_wrN _ _ h
      · exact h
    · exact h

theorem wf_rebased (i : Image) (t f f0 : Nat) {m : Mem} (h : m.wf) : (rebased i t f f0 m).wf := by
  unfold rebased
  refine Mem.wf_foldl _ (fun m r h => ?_) _ h
  dsimp only; split
  · exact Mem.wf_wrLe _ _ _ h
  · exact h

/-- The memories after reset have the canonical form. -/
theorem wf_reset : State.reset.die.hbm.wf ∧ (∀ p, (State.reset.tile p).sp.wf ∧ (State.reset.tile p).tr.wf)
    ∧ (∀ k, (State.reset.lodge k).isram.wf ∧ (State.reset.lodge k).dsram.wf) := by
  have ht : ∀ p, State.reset.tile p = Tile.reset := fun _ => rfl
  have hl : ∀ k, State.reset.lodge k = Lodge.reset := fun _ => rfl
  refine ⟨Mem.wf_nil, fun p => ?_, fun k => ?_⟩
  · rw [ht]; exact ⟨Mem.wf_nil, Mem.wf_nil⟩
  · rw [hl]; exact ⟨Mem.wf_nil, Mem.wf_nil⟩

end Sys2Proof.Machine
end

