-- ==== Sys2Proof/Laws/State.lean ====
section
/-!
SUPPORT. What the named updates of the state leave alone, one lemma per field and update, and what they make of the part that they name.
-/

namespace Sys2Proof.Machine
open Sys2Proof

-- State.setReg
@[simp] theorem State.setReg_just (s : State) (off : Nat) (v : W64) : (s.setReg off v).just = s.just := by rfl
@[simp] theorem State.setReg_rows (s : State) (off : Nat) (v : W64) : (s.setReg off v).rows = s.rows := by rfl
@[simp] theorem State.setReg_sun (s : State) (off : Nat) (v : W64) : (s.setReg off v).sun = s.sun := by rfl
@[simp] theorem State.setReg_tiles (s : State) (off : Nat) (v : W64) : (s.setReg off v).tiles = s.tiles := by rfl
@[simp] theorem State.setReg_die (s : State) (off : Nat) (v : W64) : (s.setReg off v).die = s.die := by rfl
@[simp] theorem State.setReg_pvs (s : State) (off : Nat) (v : W64) : (s.setReg off v).pvs = s.pvs := by rfl
@[simp] theorem State.setReg_fns (s : State) (off : Nat) (v : W64) : (s.setReg off v).fns = s.fns := by rfl
@[simp] theorem State.setReg_gate (s : State) (off : Nat) (v : W64) : (s.setReg off v).gate = s.gate := by rfl
@[simp] theorem State.setReg_shed (s : State) (off : Nat) (v : W64) : (s.setReg off v).shed = s.shed := by rfl
@[simp] theorem State.setReg_replay (s : State) (off : Nat) (v : W64) : (s.setReg off v).replay = s.replay := by rfl
@[simp] theorem State.setReg_dumps (s : State) (off : Nat) (v : W64) : (s.setReg off v).dumps = s.dumps := by rfl
@[simp] theorem State.setReg_mod (s : State) (off : Nat) (v : W64) : (s.setReg off v).mod = s.mod := by rfl
@[simp] theorem State.setReg_out (s : State) (off : Nat) (v : W64) : (s.setReg off v).out = s.out := by rfl
@[simp] theorem State.setReg_free (s : State) (off : Nat) (v : W64) : (s.setReg off v).free = s.free := by rfl
@[simp] theorem State.setReg_pending (s : State) (off : Nat) (v : W64) : (s.setReg off v).pending = s.pending := by rfl
-- State.wr
@[simp] theorem State.wr_just (s : State) (f : Fld) (v : Nat) : (s.wr f v).just = s.just := by rfl
@[simp] theorem State.wr_rows (s : State) (f : Fld) (v : Nat) : (s.wr f v).rows = s.rows := by rfl
@[simp] theorem State.wr_sun (s : State) (f : Fld) (v : Nat) : (s.wr f v).sun = s.sun := by rfl
@[simp] theorem State.wr_tiles (s : State) (f : Fld) (v : Nat) : (s.wr f v).tiles = s.tiles := by rfl
@[simp] theorem State.wr_die (s : State) (f : Fld) (v : Nat) : (s.wr f v).die = s.die := by rfl
@[simp] theorem State.wr_pvs (s : State) (f : Fld) (v : Nat) : (s.wr f v).pvs = s.pvs := by rfl
@[simp] theorem State.wr_fns (s : State) (f : Fld) (v : Nat) : (s.wr f v).fns = s.fns := by rfl
@[simp] theorem State.wr_gate (s : State) (f : Fld) (v : Nat) : (s.wr f v).gate = s.gate := by rfl
@[simp] theorem State.wr_shed (s : State) (f : Fld) (v : Nat) : (s.wr f v).shed = s.shed := by rfl
@[simp] theorem State.wr_replay (s : State) (f : Fld) (v : Nat) : (s.wr f v).replay = s.replay := by rfl
@[simp] theorem State.wr_dumps (s : State) (f : Fld) (v : Nat) : (s.wr f v).dumps = s.dumps := by rfl
@[simp] theorem State.wr_mod (s : State) (f : Fld) (v : Nat) : (s.wr f v).mod = s.mod := by rfl
@[simp] theorem State.wr_out (s : State) (f : Fld) (v : Nat) : (s.wr f v).out = s.out := by rfl
@[simp] theorem State.wr_free (s : State) (f : Fld) (v : Nat) : (s.wr f v).free = s.free := by rfl
@[simp] theorem State.wr_pending (s : State) (f : Fld) (v : Nat) : (s.wr f v).pending = s.pending := by rfl
-- State.inc
@[simp] theorem State.inc_just (s : State) (f : Fld) (n : Nat) : (s.inc f n).just = s.just := by rfl
@[simp] theorem State.inc_rows (s : State) (f : Fld) (n : Nat) : (s.inc f n).rows = s.rows := by rfl
@[simp] theorem State.inc_sun (s : State) (f : Fld) (n : Nat) : (s.inc f n).sun = s.sun := by rfl
@[simp] theorem State.inc_tiles (s : State) (f : Fld) (n : Nat) : (s.inc f n).tiles = s.tiles := by rfl
@[simp] theorem State.inc_die (s : State) (f : Fld) (n : Nat) : (s.inc f n).die = s.die := by rfl
@[simp] theorem State.inc_pvs (s : State) (f : Fld) (n : Nat) : (s.inc f n).pvs = s.pvs := by rfl
@[simp] theorem State.inc_fns (s : State) (f : Fld) (n : Nat) : (s.inc f n).fns = s.fns := by rfl
@[simp] theorem State.inc_gate (s : State) (f : Fld) (n : Nat) : (s.inc f n).gate = s.gate := by rfl
@[simp] theorem State.inc_shed (s : State) (f : Fld) (n : Nat) : (s.inc f n).shed = s.shed := by rfl
@[simp] theorem State.inc_replay (s : State) (f : Fld) (n : Nat) : (s.inc f n).replay = s.replay := by rfl
@[simp] theorem State.inc_dumps (s : State) (f : Fld) (n : Nat) : (s.inc f n).dumps = s.dumps := by rfl
@[simp] theorem State.inc_mod (s : State) (f : Fld) (n : Nat) : (s.inc f n).mod = s.mod := by rfl
@[simp] theorem State.inc_out (s : State) (f : Fld) (n : Nat) : (s.inc f n).out = s.out := by rfl
@[simp] theorem State.inc_free (s : State) (f : Fld) (n : Nat) : (s.inc f n).free = s.free := by rfl
@[simp] theorem State.inc_pending (s : State) (f : Fld) (n : Nat) : (s.inc f n).pending = s.pending := by rfl
-- State.incSat
@[simp] theorem State.incSat_just (s : State) (f : Fld) (n : Nat) : (s.incSat f n).just = s.just := by rfl
@[simp] theorem State.incSat_rows (s : State) (f : Fld) (n : Nat) : (s.incSat f n).rows = s.rows := by rfl
@[simp] theorem State.incSat_sun (s : State) (f : Fld) (n : Nat) : (s.incSat f n).sun = s.sun := by rfl
@[simp] theorem State.incSat_tiles (s : State) (f : Fld) (n : Nat) : (s.incSat f n).tiles = s.tiles := by rfl
@[simp] theorem State.incSat_die (s : State) (f : Fld) (n : Nat) : (s.incSat f n).die = s.die := by rfl
@[simp] theorem State.incSat_pvs (s : State) (f : Fld) (n : Nat) : (s.incSat f n).pvs = s.pvs := by rfl
@[simp] theorem State.incSat_fns (s : State) (f : Fld) (n : Nat) : (s.incSat f n).fns = s.fns := by rfl
@[simp] theorem State.incSat_gate (s : State) (f : Fld) (n : Nat) : (s.incSat f n).gate = s.gate := by rfl
@[simp] theorem State.incSat_shed (s : State) (f : Fld) (n : Nat) : (s.incSat f n).shed = s.shed := by rfl
@[simp] theorem State.incSat_replay (s : State) (f : Fld) (n : Nat) : (s.incSat f n).replay = s.replay := by rfl
@[simp] theorem State.incSat_dumps (s : State) (f : Fld) (n : Nat) : (s.incSat f n).dumps = s.dumps := by rfl
@[simp] theorem State.incSat_mod (s : State) (f : Fld) (n : Nat) : (s.incSat f n).mod = s.mod := by rfl
@[simp] theorem State.incSat_out (s : State) (f : Fld) (n : Nat) : (s.incSat f n).out = s.out := by rfl
@[simp] theorem State.incSat_free (s : State) (f : Fld) (n : Nat) : (s.incSat f n).free = s.free := by rfl
@[simp] theorem State.incSat_pending (s : State) (f : Fld) (n : Nat) : (s.incSat f n).pending = s.pending := by rfl
-- State.raise
@[simp] theorem State.raise_rows (s : State) (f : Fld) : (s.raise f).rows = s.rows := by rfl
@[simp] theorem State.raise_sun (s : State) (f : Fld) : (s.raise f).sun = s.sun := by rfl
@[simp] theorem State.raise_tiles (s : State) (f : Fld) : (s.raise f).tiles = s.tiles := by rfl
@[simp] theorem State.raise_die (s : State) (f : Fld) : (s.raise f).die = s.die := by rfl
@[simp] theorem State.raise_pvs (s : State) (f : Fld) : (s.raise f).pvs = s.pvs := by rfl
@[simp] theorem State.raise_fns (s : State) (f : Fld) : (s.raise f).fns = s.fns := by rfl
@[simp] theorem State.raise_gate (s : State) (f : Fld) : (s.raise f).gate = s.gate := by rfl
@[simp] theorem State.raise_shed (s : State) (f : Fld) : (s.raise f).shed = s.shed := by rfl
@[simp] theorem State.raise_replay (s : State) (f : Fld) : (s.raise f).replay = s.replay := by rfl
@[simp] theorem State.raise_dumps (s : State) (f : Fld) : (s.raise f).dumps = s.dumps := by rfl
@[simp] theorem State.raise_mod (s : State) (f : Fld) : (s.raise f).mod = s.mod := by rfl
@[simp] theorem State.raise_out (s : State) (f : Fld) : (s.raise f).out = s.out := by rfl
@[simp] theorem State.raise_free (s : State) (f : Fld) : (s.raise f).free = s.free := by rfl
@[simp] theorem State.raise_pending (s : State) (f : Fld) : (s.raise f).pending = s.pending := by rfl
-- State.setTile
@[simp] theorem State.setTile_reg (s : State) (p : Nat) (t : Tile) : (s.setTile p t).reg = s.reg := by rfl
@[simp] theorem State.setTile_just (s : State) (p : Nat) (t : Tile) : (s.setTile p t).just = s.just := by rfl
@[simp] theorem State.setTile_rows (s : State) (p : Nat) (t : Tile) : (s.setTile p t).rows = s.rows := by rfl
@[simp] theorem State.setTile_sun (s : State) (p : Nat) (t : Tile) : (s.setTile p t).sun = s.sun := by rfl
@[simp] theorem State.setTile_die (s : State) (p : Nat) (t : Tile) : (s.setTile p t).die = s.die := by rfl
@[simp] theorem State.setTile_pvs (s : State) (p : Nat) (t : Tile) : (s.setTile p t).pvs = s.pvs := by rfl
@[simp] theorem State.setTile_fns (s : State) (p : Nat) (t : Tile) : (s.setTile p t).fns = s.fns := by rfl
@[simp] theorem State.setTile_gate (s : State) (p : Nat) (t : Tile) : (s.setTile p t).gate = s.gate := by rfl
@[simp] theorem State.setTile_shed (s : State) (p : Nat) (t : Tile) : (s.setTile p t).shed = s.shed := by rfl
@[simp] theorem State.setTile_replay (s : State) (p : Nat) (t : Tile) : (s.setTile p t).replay = s.replay := by rfl
@[simp] theorem State.setTile_dumps (s : State) (p : Nat) (t : Tile) : (s.setTile p t).dumps = s.dumps := by rfl
@[simp] theorem State.setTile_mod (s : State) (p : Nat) (t : Tile) : (s.setTile p t).mod = s.mod := by rfl
@[simp] theorem State.setTile_out (s : State) (p : Nat) (t : Tile) : (s.setTile p t).out = s.out := by rfl
@[simp] theorem State.setTile_free (s : State) (p : Nat) (t : Tile) : (s.setTile p t).free = s.free := by rfl
@[simp] theorem State.setTile_pending (s : State) (p : Nat) (t : Tile) : (s.setTile p t).pending = s.pending := by rfl
-- State.modTile
@[simp] theorem State.modTile_reg (s : State) (p : Nat) (f : Tile → Tile) : (s.modTile p f).reg = s.reg := by rfl
@[simp] theorem State.modTile_just (s : State) (p : Nat) (f : Tile → Tile) : (s.modTile p f).just = s.just := by rfl
@[simp] theorem State.modTile_rows (s : State) (p : Nat) (f : Tile → Tile) : (s.modTile p f).rows = s.rows := by rfl
@[simp] theorem State.modTile_sun (s : State) (p : Nat) (f : Tile → Tile) : (s.modTile p f).sun = s.sun := by rfl
@[simp] theorem State.modTile_die (s : State) (p : Nat) (f : Tile → Tile) : (s.modTile p f).die = s.die := by rfl
@[simp] theorem State.modTile_pvs (s : State) (p : Nat) (f : Tile → Tile) : (s.modTile p f).pvs = s.pvs := by rfl
@[simp] theorem State.modTile_fns (s : State) (p : Nat) (f : Tile → Tile) : (s.modTile p f).fns = s.fns := by rfl
@[simp] theorem State.modTile_gate (s : State) (p : Nat) (f : Tile → Tile) : (s.modTile p f).gate = s.gate := by rfl
@[simp] theorem State.modTile_shed (s : State) (p : Nat) (f : Tile → Tile) : (s.modTile p f).shed = s.shed := by rfl
@[simp] theorem State.modTile_replay (s : State) (p : Nat) (f : Tile → Tile) : (s.modTile p f).replay = s.replay := by rfl
@[simp] theorem State.modTile_dumps (s : State) (p : Nat) (f : Tile → Tile) : (s.modTile p f).dumps = s.dumps := by rfl
@[simp] theorem State.modTile_mod (s : State) (p : Nat) (f : Tile → Tile) : (s.modTile p f).mod = s.mod := by rfl
@[simp] theorem State.modTile_out (s : State) (p : Nat) (f : Tile → Tile) : (s.modTile p f).out = s.out := by rfl
@[simp] theorem State.modTile_free (s : State) (p : Nat) (f : Tile → Tile) : (s.modTile p f).free = s.free := by rfl
@[simp] theorem State.modTile_pending (s : State) (p : Nat) (f : Tile → Tile) : (s.modTile p f).pending = s.pending := by rfl
-- State.setPort
@[simp] theorem State.setPort_reg (s : State) (p : Nat) (q : Port) : (s.setPort p q).reg = s.reg := by rfl
@[simp] theorem State.setPort_just (s : State) (p : Nat) (q : Port) : (s.setPort p q).just = s.just := by rfl
@[simp] theorem State.setPort_rows (s : State) (p : Nat) (q : Port) : (s.setPort p q).rows = s.rows := by rfl
@[simp] theorem State.setPort_sun (s : State) (p : Nat) (q : Port) : (s.setPort p q).sun = s.sun := by rfl
@[simp] theorem State.setPort_tiles (s : State) (p : Nat) (q : Port) : (s.setPort p q).tiles = s.tiles := by rfl
@[simp] theorem State.setPort_pvs (s : State) (p : Nat) (q : Port) : (s.setPort p q).pvs = s.pvs := by rfl
@[simp] theorem State.setPort_fns (s : State) (p : Nat) (q : Port) : (s.setPort p q).fns = s.fns := by rfl
@[simp] theorem State.setPort_gate (s : State) (p : Nat) (q : Port) : (s.setPort p q).gate = s.gate := by rfl
@[simp] theorem State.setPort_shed (s : State) (p : Nat) (q : Port) : (s.setPort p q).shed = s.shed := by rfl
@[simp] theorem State.setPort_replay (s : State) (p : Nat) (q : Port) : (s.setPort p q).replay = s.replay := by rfl
@[simp] theorem State.setPort_dumps (s : State) (p : Nat) (q : Port) : (s.setPort p q).dumps = s.dumps := by rfl
@[simp] theorem State.setPort_mod (s : State) (p : Nat) (q : Port) : (s.setPort p q).mod = s.mod := by rfl
@[simp] theorem State.setPort_out (s : State) (p : Nat) (q : Port) : (s.setPort p q).out = s.out := by rfl
@[simp] theorem State.setPort_free (s : State) (p : Nat) (q : Port) : (s.setPort p q).free = s.free := by rfl
@[simp] theorem State.setPort_pending (s : State) (p : Nat) (q : Port) : (s.setPort p q).pending = s.pending := by rfl
-- State.setLodge
@[simp] theorem State.setLodge_reg (s : State) (k : Nat) (l : Lodge) : (s.setLodge k l).reg = s.reg := by rfl
@[simp] theorem State.setLodge_just (s : State) (k : Nat) (l : Lodge) : (s.setLodge k l).just = s.just := by rfl
@[simp] theorem State.setLodge_rows (s : State) (k : Nat) (l : Lodge) : (s.setLodge k l).rows = s.rows := by rfl
@[simp] theorem State.setLodge_sun (s : State) (k : Nat) (l : Lodge) : (s.setLodge k l).sun = s.sun := by rfl
@[simp] theorem State.setLodge_tiles (s : State) (k : Nat) (l : Lodge) : (s.setLodge k l).tiles = s.tiles := by rfl
@[simp] theorem State.setLodge_pvs (s : State) (k : Nat) (l : Lodge) : (s.setLodge k l).pvs = s.pvs := by rfl
@[simp] theorem State.setLodge_fns (s : State) (k : Nat) (l : Lodge) : (s.setLodge k l).fns = s.fns := by rfl
@[simp] theorem State.setLodge_gate (s : State) (k : Nat) (l : Lodge) : (s.setLodge k l).gate = s.gate := by rfl
@[simp] theorem State.setLodge_shed (s : State) (k : Nat) (l : Lodge) : (s.setLodge k l).shed = s.shed := by rfl
@[simp] theorem State.setLodge_replay (s : State) (k : Nat) (l : Lodge) : (s.setLodge k l).replay = s.replay := by rfl
@[simp] theorem State.setLodge_dumps (s : State) (k : Nat) (l : Lodge) : (s.setLodge k l).dumps = s.dumps := by rfl
@[simp] theorem State.setLodge_mod (s : State) (k : Nat) (l : Lodge) : (s.setLodge k l).mod = s.mod := by rfl
@[simp] theorem State.setLodge_out (s : State) (k : Nat) (l : Lodge) : (s.setLodge k l).out = s.out := by rfl
@[simp] theorem State.setLodge_free (s : State) (k : Nat) (l : Lodge) : (s.setLodge k l).free = s.free := by rfl
@[simp] theorem State.setLodge_pending (s : State) (k : Nat) (l : Lodge) : (s.setLodge k l).pending = s.pending := by rfl
-- State.setBarrier
@[simp] theorem State.setBarrier_reg (s : State) (e : Nat) (b : Barrier) : (s.setBarrier e b).reg = s.reg := by rfl
@[simp] theorem State.setBarrier_just (s : State) (e : Nat) (b : Barrier) : (s.setBarrier e b).just = s.just := by rfl
@[simp] theorem State.setBarrier_rows (s : State) (e : Nat) (b : Barrier) : (s.setBarrier e b).rows = s.rows := by rfl
@[simp] theorem State.setBarrier_sun (s : State) (e : Nat) (b : Barrier) : (s.setBarrier e b).sun = s.sun := by rfl
@[simp] theorem State.setBarrier_tiles (s : State) (e : Nat) (b : Barrier) : (s.setBarrier e b).tiles = s.tiles := by rfl
@[simp] theorem State.setBarrier_pvs (s : State) (e : Nat) (b : Barrier) : (s.setBarrier e b).pvs = s.pvs := by rfl
@[simp] theorem State.setBarrier_fns (s : State) (e : Nat) (b : Barrier) : (s.setBarrier e b).fns = s.fns := by rfl
@[simp] theorem State.setBarrier_gate (s : State) (e : Nat) (b : Barrier) : (s.setBarrier e b).gate = s.gate := by rfl
@[simp] theorem State.setBarrier_shed (s : State) (e : Nat) (b : Barrier) : (s.setBarrier e b).shed = s.shed := by rfl
@[simp] theorem State.setBarrier_replay (s : State) (e : Nat) (b : Barrier) : (s.setBarrier e b).replay = s.replay := by rfl
@[simp] theorem State.setBarrier_dumps (s : State) (e : Nat) (b : Barrier) : (s.setBarrier e b).dumps = s.dumps := by rfl
@[simp] theorem State.setBarrier_mod (s : State) (e : Nat) (b : Barrier) : (s.setBarrier e b).mod = s.mod := by rfl
@[simp] theorem State.setBarrier_out (s : State) (e : Nat) (b : Barrier) : (s.setBarrier e b).out = s.out := by rfl
@[simp] theorem State.setBarrier_free (s : State) (e : Nat) (b : Barrier) : (s.setBarrier e b).free = s.free := by rfl
@[simp] theorem State.setBarrier_pending (s : State) (e : Nat) (b : Barrier) : (s.setBarrier e b).pending = s.pending := by rfl
-- State.setPv
@[simp] theorem State.setPv_reg (s : State) (q : Nat) (v : Pv) : (s.setPv q v).reg = s.reg := by rfl
@[simp] theorem State.setPv_just (s : State) (q : Nat) (v : Pv) : (s.setPv q v).just = s.just := by rfl
@[simp] theorem State.setPv_rows (s : State) (q : Nat) (v : Pv) : (s.setPv q v).rows = s.rows := by rfl
@[simp] theorem State.setPv_sun (s : State) (q : Nat) (v : Pv) : (s.setPv q v).sun = s.sun := by rfl
@[simp] theorem State.setPv_tiles (s : State) (q : Nat) (v : Pv) : (s.setPv q v).tiles = s.tiles := by rfl
@[simp] theorem State.setPv_die (s : State) (q : Nat) (v : Pv) : (s.setPv q v).die = s.die := by rfl
@[simp] theorem State.setPv_fns (s : State) (q : Nat) (v : Pv) : (s.setPv q v).fns = s.fns := by rfl
@[simp] theorem State.setPv_gate (s : State) (q : Nat) (v : Pv) : (s.setPv q v).gate = s.gate := by rfl
@[simp] theorem State.setPv_shed (s : State) (q : Nat) (v : Pv) : (s.setPv q v).shed = s.shed := by rfl
@[simp] theorem State.setPv_replay (s : State) (q : Nat) (v : Pv) : (s.setPv q v).replay = s.replay := by rfl
@[simp] theorem State.setPv_dumps (s : State) (q : Nat) (v : Pv) : (s.setPv q v).dumps = s.dumps := by rfl
@[simp] theorem State.setPv_mod (s : State) (q : Nat) (v : Pv) : (s.setPv q v).mod = s.mod := by rfl
@[simp] theorem State.setPv_out (s : State) (q : Nat) (v : Pv) : (s.setPv q v).out = s.out := by rfl
@[simp] theorem State.setPv_free (s : State) (q : Nat) (v : Pv) : (s.setPv q v).free = s.free := by rfl
@[simp] theorem State.setPv_pending (s : State) (q : Nat) (v : Pv) : (s.setPv q v).pending = s.pending := by rfl
-- State.modRun
@[simp] theorem State.modRun_reg (s : State) (q : Nat) (f : PvRun → PvRun) : (s.modRun q f).reg = s.reg := by rfl
@[simp] theorem State.modRun_just (s : State) (q : Nat) (f : PvRun → PvRun) : (s.modRun q f).just = s.just := by rfl
@[simp] theorem State.modRun_rows (s : State) (q : Nat) (f : PvRun → PvRun) : (s.modRun q f).rows = s.rows := by rfl
@[simp] theorem State.modRun_sun (s : State) (q : Nat) (f : PvRun → PvRun) : (s.modRun q f).sun = s.sun := by rfl
@[simp] theorem State.modRun_tiles (s : State) (q : Nat) (f : PvRun → PvRun) : (s.modRun q f).tiles = s.tiles := by rfl
@[simp] theorem State.modRun_die (s : State) (q : Nat) (f : PvRun → PvRun) : (s.modRun q f).die = s.die := by rfl
@[simp] theorem State.modRun_fns (s : State) (q : Nat) (f : PvRun → PvRun) : (s.modRun q f).fns = s.fns := by rfl
@[simp] theorem State.modRun_gate (s : State) (q : Nat) (f : PvRun → PvRun) : (s.modRun q f).gate = s.gate := by rfl
@[simp] theorem State.modRun_shed (s : State) (q : Nat) (f : PvRun → PvRun) : (s.modRun q f).shed = s.shed := by rfl
@[simp] theorem State.modRun_replay (s : State) (q : Nat) (f : PvRun → PvRun) : (s.modRun q f).replay = s.replay := by rfl
@[simp] theorem State.modRun_dumps (s : State) (q : Nat) (f : PvRun → PvRun) : (s.modRun q f).dumps = s.dumps := by rfl
@[simp] theorem State.modRun_mod (s : State) (q : Nat) (f : PvRun → PvRun) : (s.modRun q f).mod = s.mod := by rfl
@[simp] theorem State.modRun_out (s : State) (q : Nat) (f : PvRun → PvRun) : (s.modRun q f).out = s.out := by rfl
@[simp] theorem State.modRun_free (s : State) (q : Nat) (f : PvRun → PvRun) : (s.modRun q f).free = s.free := by rfl
@[simp] theorem State.modRun_pending (s : State) (q : Nat) (f : PvRun → PvRun) : (s.modRun q f).pending = s.pending := by rfl
-- State.modFront
@[simp] theorem State.modFront_reg (s : State) (q : Nat) (f : PvFront → PvFront) : (s.modFront q f).reg = s.reg := by rfl
@[simp] theorem State.modFront_just (s : State) (q : Nat) (f : PvFront → PvFront) : (s.modFront q f).just = s.just := by rfl
@[simp] theorem State.modFront_rows (s : State) (q : Nat) (f : PvFront → PvFront) : (s.modFront q f).rows = s.rows := by rfl
@[simp] theorem State.modFront_sun (s : State) (q : Nat) (f : PvFront → PvFront) : (s.modFront q f).sun = s.sun := by rfl
@[simp] theorem State.modFront_tiles (s : State) (q : Nat) (f : PvFront → PvFront) : (s.modFront q f).tiles = s.tiles := by rfl
@[simp] theorem State.modFront_die (s : State) (q : Nat) (f : PvFront → PvFront) : (s.modFront q f).die = s.die := by rfl
@[simp] theorem State.modFront_fns (s : State) (q : Nat) (f : PvFront → PvFront) : (s.modFront q f).fns = s.fns := by rfl
@[simp] theorem State.modFront_gate (s : State) (q : Nat) (f : PvFront → PvFront) : (s.modFront q f).gate = s.gate := by rfl
@[simp] theorem State.modFront_shed (s : State) (q : Nat) (f : PvFront → PvFront) : (s.modFront q f).shed = s.shed := by rfl
@[simp] theorem State.modFront_replay (s : State) (q : Nat) (f : PvFront → PvFront) : (s.modFront q f).replay = s.replay := by rfl
@[simp] theorem State.modFront_dumps (s : State) (q : Nat) (f : PvFront → PvFront) : (s.modFront q f).dumps = s.dumps := by rfl
@[simp] theorem State.modFront_mod (s : State) (q : Nat) (f : PvFront → PvFront) : (s.modFront q f).mod = s.mod := by rfl
@[simp] theorem State.modFront_out (s : State) (q : Nat) (f : PvFront → PvFront) : (s.modFront q f).out = s.out := by rfl
@[simp] theorem State.modFront_free (s : State) (q : Nat) (f : PvFront → PvFront) : (s.modFront q f).free = s.free := by rfl
@[simp] theorem State.modFront_pending (s : State) (q : Nat) (f : PvFront → PvFront) : (s.modFront q f).pending = s.pending := by rfl
-- State.setFn
@[simp] theorem State.setFn_reg (s : State) (n : Nat) (m : Fn) : (s.setFn n m).reg = s.reg := by rfl
@[simp] theorem State.setFn_just (s : State) (n : Nat) (m : Fn) : (s.setFn n m).just = s.just := by rfl
@[simp] theorem State.setFn_rows (s : State) (n : Nat) (m : Fn) : (s.setFn n m).rows = s.rows := by rfl
@[simp] theorem State.setFn_sun (s : State) (n : Nat) (m : Fn) : (s.setFn n m).sun = s.sun := by rfl
@[simp] theorem State.setFn_tiles (s : State) (n : Nat) (m : Fn) : (s.setFn n m).tiles = s.tiles := by rfl
@[simp] theorem State.setFn_die (s : State) (n : Nat) (m : Fn) : (s.setFn n m).die = s.die := by rfl
@[simp] theorem State.setFn_pvs (s : State) (n : Nat) (m : Fn) : (s.setFn n m).pvs = s.pvs := by rfl
@[simp] theorem State.setFn_gate (s : State) (n : Nat) (m : Fn) : (s.setFn n m).gate = s.gate := by rfl
@[simp] theorem State.setFn_shed (s : State) (n : Nat) (m : Fn) : (s.setFn n m).shed = s.shed := by rfl
@[simp] theorem State.setFn_replay (s : State) (n : Nat) (m : Fn) : (s.setFn n m).replay = s.replay := by rfl
@[simp] theorem State.setFn_dumps (s : State) (n : Nat) (m : Fn) : (s.setFn n m).dumps = s.dumps := by rfl
@[simp] theorem State.setFn_mod (s : State) (n : Nat) (m : Fn) : (s.setFn n m).mod = s.mod := by rfl
@[simp] theorem State.setFn_out (s : State) (n : Nat) (m : Fn) : (s.setFn n m).out = s.out := by rfl
@[simp] theorem State.setFn_free (s : State) (n : Nat) (m : Fn) : (s.setFn n m).free = s.free := by rfl
@[simp] theorem State.setFn_pending (s : State) (n : Nat) (m : Fn) : (s.setFn n m).pending = s.pending := by rfl
-- State.modFn
@[simp] theorem State.modFn_reg (s : State) (n : Nat) (f : Fn → Fn) : (s.modFn n f).reg = s.reg := by rfl
@[simp] theorem State.modFn_just (s : State) (n : Nat) (f : Fn → Fn) : (s.modFn n f).just = s.just := by rfl
@[simp] theorem State.modFn_rows (s : State) (n : Nat) (f : Fn → Fn) : (s.modFn n f).rows = s.rows := by rfl
@[simp] theorem State.modFn_sun (s : State) (n : Nat) (f : Fn → Fn) : (s.modFn n f).sun = s.sun := by rfl
@[simp] theorem State.modFn_tiles (s : State) (n : Nat) (f : Fn → Fn) : (s.modFn n f).tiles = s.tiles := by rfl
@[simp] theorem State.modFn_die (s : State) (n : Nat) (f : Fn → Fn) : (s.modFn n f).die = s.die := by rfl
@[simp] theorem State.modFn_pvs (s : State) (n : Nat) (f : Fn → Fn) : (s.modFn n f).pvs = s.pvs := by rfl
@[simp] theorem State.modFn_gate (s : State) (n : Nat) (f : Fn → Fn) : (s.modFn n f).gate = s.gate := by rfl
@[simp] theorem State.modFn_shed (s : State) (n : Nat) (f : Fn → Fn) : (s.modFn n f).shed = s.shed := by rfl
@[simp] theorem State.modFn_replay (s : State) (n : Nat) (f : Fn → Fn) : (s.modFn n f).replay = s.replay := by rfl
@[simp] theorem State.modFn_dumps (s : State) (n : Nat) (f : Fn → Fn) : (s.modFn n f).dumps = s.dumps := by rfl
@[simp] theorem State.modFn_mod (s : State) (n : Nat) (f : Fn → Fn) : (s.modFn n f).mod = s.mod := by rfl
@[simp] theorem State.modFn_out (s : State) (n : Nat) (f : Fn → Fn) : (s.modFn n f).out = s.out := by rfl
@[simp] theorem State.modFn_free (s : State) (n : Nat) (f : Fn → Fn) : (s.modFn n f).free = s.free := by rfl
@[simp] theorem State.modFn_pending (s : State) (n : Nat) (f : Fn → Fn) : (s.modFn n f).pending = s.pending := by rfl
-- State.emit
@[simp] theorem State.emit_reg (s : State) (o : Out) : (s.emit o).reg = s.reg := by rfl
@[simp] theorem State.emit_just (s : State) (o : Out) : (s.emit o).just = s.just := by rfl
@[simp] theorem State.emit_rows (s : State) (o : Out) : (s.emit o).rows = s.rows := by rfl
@[simp] theorem State.emit_sun (s : State) (o : Out) : (s.emit o).sun = s.sun := by rfl
@[simp] theorem State.emit_tiles (s : State) (o : Out) : (s.emit o).tiles = s.tiles := by rfl
@[simp] theorem State.emit_die (s : State) (o : Out) : (s.emit o).die = s.die := by rfl
@[simp] theorem State.emit_pvs (s : State) (o : Out) : (s.emit o).pvs = s.pvs := by rfl
@[simp] theorem State.emit_fns (s : State) (o : Out) : (s.emit o).fns = s.fns := by rfl
@[simp] theorem State.emit_gate (s : State) (o : Out) : (s.emit o).gate = s.gate := by rfl
@[simp] theorem State.emit_shed (s : State) (o : Out) : (s.emit o).shed = s.shed := by rfl
@[simp] theorem State.emit_replay (s : State) (o : Out) : (s.emit o).replay = s.replay := by rfl
@[simp] theorem State.emit_dumps (s : State) (o : Out) : (s.emit o).dumps = s.dumps := by rfl
@[simp] theorem State.emit_mod (s : State) (o : Out) : (s.emit o).mod = s.mod := by rfl
@[simp] theorem State.emit_free (s : State) (o : Out) : (s.emit o).free = s.free := by rfl
@[simp] theorem State.emit_pending (s : State) (o : Out) : (s.emit o).pending = s.pending := by rfl
-- State.drawn
@[simp] theorem State.drawn_reg (s : State) : (s.drawn).reg = s.reg := by rfl
@[simp] theorem State.drawn_just (s : State) : (s.drawn).just = s.just := by rfl
@[simp] theorem State.drawn_rows (s : State) : (s.drawn).rows = s.rows := by rfl
@[simp] theorem State.drawn_sun (s : State) : (s.drawn).sun = s.sun := by rfl
@[simp] theorem State.drawn_tiles (s : State) : (s.drawn).tiles = s.tiles := by rfl
@[simp] theorem State.drawn_die (s : State) : (s.drawn).die = s.die := by rfl
@[simp] theorem State.drawn_pvs (s : State) : (s.drawn).pvs = s.pvs := by rfl
@[simp] theorem State.drawn_fns (s : State) : (s.drawn).fns = s.fns := by rfl
@[simp] theorem State.drawn_gate (s : State) : (s.drawn).gate = s.gate := by rfl
@[simp] theorem State.drawn_shed (s : State) : (s.drawn).shed = s.shed := by rfl
@[simp] theorem State.drawn_replay (s : State) : (s.drawn).replay = s.replay := by rfl
@[simp] theorem State.drawn_dumps (s : State) : (s.drawn).dumps = s.dumps := by rfl
@[simp] theorem State.drawn_mod (s : State) : (s.drawn).mod = s.mod := by rfl
@[simp] theorem State.drawn_out (s : State) : (s.drawn).out = s.out := by rfl
@[simp] theorem State.drawn_pending (s : State) : (s.drawn).pending = s.pending := by rfl
-- State.setPort, the other parts of the die
@[simp] theorem State.setPort_die_transfers (s : State) (p : Nat) (q : Port) : (s.setPort p q).die.transfers = s.die.transfers := by rfl
@[simp] theorem State.setPort_die_ctls (s : State) (p : Nat) (q : Port) : (s.setPort p q).die.ctls = s.die.ctls := by rfl
@[simp] theorem State.setPort_die_windows (s : State) (p : Nat) (q : Port) : (s.setPort p q).die.windows = s.die.windows := by rfl
@[simp] theorem State.setPort_die_barriers (s : State) (p : Nat) (q : Port) : (s.setPort p q).die.barriers = s.die.barriers := by rfl
@[simp] theorem State.setPort_die_nextXfer (s : State) (p : Nat) (q : Port) : (s.setPort p q).die.nextXfer = s.die.nextXfer := by rfl
@[simp] theorem State.setPort_die_ctlSeq (s : State) (p : Nat) (q : Port) : (s.setPort p q).die.ctlSeq = s.die.ctlSeq := by rfl
@[simp] theorem State.setPort_die_pointers (s : State) (p : Nat) (q : Port) : (s.setPort p q).die.pointers = s.die.pointers := by rfl
@[simp] theorem State.setPort_die_lodges (s : State) (p : Nat) (q : Port) : (s.setPort p q).die.lodges = s.die.lodges := by rfl
@[simp] theorem State.setPort_die_hbm (s : State) (p : Nat) (q : Port) : (s.setPort p q).die.hbm = s.die.hbm := by rfl
@[simp] theorem State.setPort_die_oyKey (s : State) (p : Nat) (q : Port) : (s.setPort p q).die.oyKey = s.die.oyKey := by rfl
@[simp] theorem State.setPort_die_commit (s : State) (p : Nat) (q : Port) : (s.setPort p q).die.commit = s.die.commit := by rfl
@[simp] theorem State.setPort_die_slices (s : State) (p : Nat) (q : Port) : (s.setPort p q).die.slices = s.die.slices := by rfl
@[simp] theorem State.setPort_die_band (s : State) (p : Nat) (q : Port) : (s.setPort p q).die.band = s.die.band := by rfl
@[simp] theorem State.setPort_die_remainder (s : State) (p : Nat) (q : Port) : (s.setPort p q).die.remainder = s.die.remainder := by rfl
@[simp] theorem State.setPort_die_atTick (s : State) (p : Nat) (q : Port) : (s.setPort p q).die.atTick = s.die.atTick := by rfl
@[simp] theorem State.setPort_die_reports (s : State) (p : Nat) (q : Port) : (s.setPort p q).die.reports = s.die.reports := by rfl
-- State.setLodge, the other parts of the die
@[simp] theorem State.setLodge_die_transfers (s : State) (k : Nat) (l : Lodge) : (s.setLodge k l).die.transfers = s.die.transfers := by rfl
@[simp] theorem State.setLodge_die_ctls (s : State) (k : Nat) (l : Lodge) : (s.setLodge k l).die.ctls = s.die.ctls := by rfl
@[simp] theorem State.setLodge_die_windows (s : State) (k : Nat) (l : Lodge) : (s.setLodge k l).die.windows = s.die.windows := by rfl
@[simp] theorem State.setLodge_die_barriers (s : State) (k : Nat) (l : Lodge) : (s.setLodge k l).die.barriers = s.die.barriers := by rfl
@[simp] theorem State.setLodge_die_nextXfer (s : State) (k : Nat) (l : Lodge) : (s.setLodge k l).die.nextXfer = s.die.nextXfer := by rfl
@[simp] theorem State.setLodge_die_ctlSeq (s : State) (k : Nat) (l : Lodge) : (s.setLodge k l).die.ctlSeq = s.die.ctlSeq := by rfl
@[simp] theorem State.setLodge_die_pointers (s : State) (k : Nat) (l : Lodge) : (s.setLodge k l).die.pointers = s.die.pointers := by rfl
@[simp] theorem State.setLodge_die_ports (s : State) (k : Nat) (l : Lodge) : (s.setLodge k l).die.ports = s.die.ports := by rfl
@[simp] theorem State.setLodge_die_hbm (s : State) (k : Nat) (l : Lodge) : (s.setLodge k l).die.hbm = s.die.hbm := by rfl
@[simp] theorem State.setLodge_die_oyKey (s : State) (k : Nat) (l : Lodge) : (s.setLodge k l).die.oyKey = s.die.oyKey := by rfl
@[simp] theorem State.setLodge_die_commit (s : State) (k : Nat) (l : Lodge) : (s.setLodge k l).die.commit = s.die.commit := by rfl
@[simp] theorem State.setLodge_die_slices (s : State) (k : Nat) (l : Lodge) : (s.setLodge k l).die.slices = s.die.slices := by rfl
@[simp] theorem State.setLodge_die_band (s : State) (k : Nat) (l : Lodge) : (s.setLodge k l).die.band = s.die.band := by rfl
@[simp] theorem State.setLodge_die_remainder (s : State) (k : Nat) (l : Lodge) : (s.setLodge k l).die.remainder = s.die.remainder := by rfl
@[simp] theorem State.setLodge_die_atTick (s : State) (k : Nat) (l : Lodge) : (s.setLodge k l).die.atTick = s.die.atTick := by rfl
@[simp] theorem State.setLodge_die_reports (s : State) (k : Nat) (l : Lodge) : (s.setLodge k l).die.reports = s.die.reports := by rfl
-- State.setBarrier, the other parts of the die
@[simp] theorem State.setBarrier_die_transfers (s : State) (e : Nat) (b : Barrier) : (s.setBarrier e b).die.transfers = s.die.transfers := by rfl
@[simp] theorem State.setBarrier_die_ctls (s : State) (e : Nat) (b : Barrier) : (s.setBarrier e b).die.ctls = s.die.ctls := by rfl
@[simp] theorem State.setBarrier_die_windows (s : State) (e : Nat) (b : Barrier) : (s.setBarrier e b).die.windows = s.die.windows := by rfl
@[simp] theorem State.setBarrier_die_nextXfer (s : State) (e : Nat) (b : Barrier) : (s.setBarrier e b).die.nextXfer = s.die.nextXfer := by rfl
@[simp] theorem State.setBarrier_die_ctlSeq (s : State) (e : Nat) (b : Barrier) : (s.setBarrier e b).die.ctlSeq = s.die.ctlSeq := by rfl
@[simp] theorem State.setBarrier_die_pointers (s : State) (e : Nat) (b : Barrier) : (s.setBarrier e b).die.pointers = s.die.pointers := by rfl
@[simp] theorem State.setBarrier_die_ports (s : State) (e : Nat) (b : Barrier) : (s.setBarrier e b).die.ports = s.die.ports := by rfl
@[simp] theorem State.setBarrier_die_lodges (s : State) (e : Nat) (b : Barrier) : (s.setBarrier e b).die.lodges = s.die.lodges := by rfl
@[simp] theorem State.setBarrier_die_hbm (s : State) (e : Nat) (b : Barrier) : (s.setBarrier e b).die.hbm = s.die.hbm := by rfl
@[simp] theorem State.setBarrier_die_oyKey (s : State) (e : Nat) (b : Barrier) : (s.setBarrier e b).die.oyKey = s.die.oyKey := by rfl
@[simp] theorem State.setBarrier_die_commit (s : State) (e : Nat) (b : Barrier) : (s.setBarrier e b).die.commit = s.die.commit := by rfl
@[simp] theorem State.setBarrier_die_slices (s : State) (e : Nat) (b : Barrier) : (s.setBarrier e b).die.slices = s.die.slices := by rfl
@[simp] theorem State.setBarrier_die_band (s : State) (e : Nat) (b : Barrier) : (s.setBarrier e b).die.band = s.die.band := by rfl
@[simp] theorem State.setBarrier_die_remainder (s : State) (e : Nat) (b : Barrier) : (s.setBarrier e b).die.remainder = s.die.remainder := by rfl
@[simp] theorem State.setBarrier_die_atTick (s : State) (e : Nat) (b : Barrier) : (s.setBarrier e b).die.atTick = s.die.atTick := by rfl
@[simp] theorem State.setBarrier_die_reports (s : State) (e : Nat) (b : Barrier) : (s.setBarrier e b).die.reports = s.die.reports := by rfl

-- what the updates make of their own part

@[simp] theorem State.tile_setTile_same (s : State) (p : Nat) (t : Tile) : (s.setTile p t).tile p = t := SMap.look_put_same ..
@[simp] theorem State.setTile_setTile (s : State) (p : Nat) (t u : Tile) : (s.setTile p t).setTile p u = s.setTile p u := by
  simp [State.setTile]
@[simp] theorem State.setPort_setPort (s : State) (p : Nat) (t u : Port) : (s.setPort p t).setPort p u = s.setPort p u := by
  simp [State.setPort]
@[simp] theorem State.setLodge_setLodge (s : State) (p : Nat) (t u : Lodge) : (s.setLodge p t).setLodge p u = s.setLodge p u := by
  simp [State.setLodge]
@[simp] theorem State.setPv_setPv (s : State) (p : Nat) (t u : Pv) : (s.setPv p t).setPv p u = s.setPv p u := by
  simp [State.setPv]
@[simp] theorem State.setFn_setFn (s : State) (p : Nat) (t u : Fn) : (s.setFn p t).setFn p u = s.setFn p u := by
  simp [State.setFn]
@[simp] theorem State.setBarrier_setBarrier (s : State) (p : Nat) (t u : Barrier) : (s.setBarrier p t).setBarrier p u = s.setBarrier p u := by
  simp [State.setBarrier]
@[simp] theorem State.setReg_setReg (s : State) (p : Nat) (t u : W64) : (s.setReg p t).setReg p u = s.setReg p u := by
  simp [State.setReg]
theorem State.tile_setTile_ne (s : State) {p x : Nat} (t : Tile) (h : x ≠ p) : (s.setTile p t).tile x = s.tile x := SMap.look_put_ne _ _ _ h
theorem State.tile_setTile (s : State) (p x : Nat) (t : Tile) : (s.setTile p t).tile x = if x = p then t else s.tile x := SMap.look_put ..
@[simp] theorem State.tile_modTile_same (s : State) (p : Nat) (f : Tile → Tile) : (s.modTile p f).tile p = f (s.tile p) := SMap.look_put_same ..
theorem State.tile_modTile_ne (s : State) {p x : Nat} (f : Tile → Tile) (h : x ≠ p) : (s.modTile p f).tile x = s.tile x :=
  SMap.look_put_ne _ _ _ h
@[simp] theorem State.port_setPort_same (s : State) (p : Nat) (q : Port) : (s.setPort p q).port p = q := SMap.look_put_same ..
theorem State.port_setPort_ne (s : State) {p x : Nat} (q : Port) (h : x ≠ p) : (s.setPort p q).port x = s.port x := SMap.look_put_ne _ _ _ h
@[simp] theorem State.lodge_setLodge_same (s : State) (k : Nat) (l : Lodge) : (s.setLodge k l).lodge k = l := SMap.look_put_same ..
theorem State.lodge_setLodge_ne (s : State) {k x : Nat} (l : Lodge) (h : x ≠ k) : (s.setLodge k l).lodge x = s.lodge x :=
  SMap.look_put_ne _ _ _ h
@[simp] theorem State.barrier_setBarrier_same (s : State) (e : Nat) (b : Barrier) : (s.setBarrier e b).barrier e = b := SMap.look_put_same ..
theorem State.barrier_setBarrier_ne (s : State) {e x : Nat} (b : Barrier) (h : x ≠ e) : (s.setBarrier e b).barrier x = s.barrier x :=
  SMap.look_put_ne _ _ _ h
@[simp] theorem State.pv_setPv_same (s : State) (q : Nat) (v : Pv) : (s.setPv q v).pv q = v := SMap.look_put_same ..
theorem State.pv_setPv_ne (s : State) {q x : Nat} (v : Pv) (h : x ≠ q) : (s.setPv q v).pv x = s.pv x := SMap.look_put_ne _ _ _ h
@[simp] theorem State.pv_modRun_same (s : State) (q : Nat) (f : PvRun → PvRun) : (s.modRun q f).pv q = { s.pv q with run := f (s.pv q).run } :=
  SMap.look_put_same ..
theorem State.pv_modRun_ne (s : State) {q x : Nat} (f : PvRun → PvRun) (h : x ≠ q) : (s.modRun q f).pv x = s.pv x := SMap.look_put_ne _ _ _ h
@[simp] theorem State.pv_modFront_same (s : State) (q : Nat) (f : PvFront → PvFront) :
    (s.modFront q f).pv q = { s.pv q with front := f (s.pv q).front } := SMap.look_put_same ..
theorem State.pv_modFront_ne (s : State) {q x : Nat} (f : PvFront → PvFront) (h : x ≠ q) : (s.modFront q f).pv x = s.pv x :=
  SMap.look_put_ne _ _ _ h
@[simp] theorem State.fn_setFn_same (s : State) (n : Nat) (m : Fn) : (s.setFn n m).fn n = m := SMap.look_put_same ..
theorem State.fn_setFn_ne (s : State) {n x : Nat} (m : Fn) (h : x ≠ n) : (s.setFn n m).fn x = s.fn x := SMap.look_put_ne _ _ _ h
@[simp] theorem State.fn_modFn_same (s : State) (n : Nat) (f : Fn → Fn) : (s.modFn n f).fn n = f (s.fn n) := SMap.look_put_same ..
theorem State.fn_modFn_ne (s : State) {n x : Nat} (f : Fn → Fn) (h : x ≠ n) : (s.modFn n f).fn x = s.fn x := SMap.look_put_ne _ _ _ h
@[simp] theorem State.out_emit (s : State) (o : Out) : (s.emit o).out = s.out ++ [o] := by rfl
@[simp] theorem State.free_drawn (s : State) : s.drawn.free = s.free + 1 := by rfl

-- registers of BAR0

@[simp] theorem State.regW_setReg_same (s : State) (off : Nat) (v : W64) : (s.setReg off v).regW off = v := SMap.look_put_same ..
theorem State.regW_setReg_ne (s : State) {off x : Nat} (v : W64) (h : x ≠ off) : (s.setReg off v).regW x = s.regW x := SMap.look_put_ne _ _ _ h
theorem State.regW_wr_ne (s : State) {f : Fld} {x : Nat} (v : Nat) (h : x ≠ f.off) : (s.wr f v).regW x = s.regW x := SMap.look_put_ne _ _ _ h

/-- A field that has been set reads as set, cut to its width. -/
theorem State.rd_wr_same (s : State) (f : Fld) (v : Nat) (h : f.hi < 64) (hl : f.lo ≤ f.hi) : (s.wr f v).rd f = v % 2 ^ (f.hi + 1 - f.lo) := by
  simp [State.rd, State.wr, bits_setBits_same _ _ _ _ h hl]

/-- Fields of other registers are unchanged. -/
theorem State.rd_wr_off (s : State) {f g : Fld} (v : Nat) (h : g.off ≠ f.off) : (s.wr f v).rd g = s.rd g := by
  simp [State.rd, State.regW_wr_ne s v h]

/-- Fields of the same register that do not overlap are unchanged. -/
theorem State.rd_wr_ne (s : State) {f g : Fld} (v : Nat) (h : f.hi < 64) (hl : f.lo ≤ f.hi) (hd : g.hi < f.lo ∨ f.hi < g.lo) :
    (s.wr f v).rd g = s.rd g := by
  by_cases ho : g.off = f.off
  · simp [State.rd, State.wr, ho, bits_setBits_ne _ _ _ _ _ _ h hl hd]
  · exact State.rd_wr_off s v ho

-- registers of a tile window, a Lodge window and a mailbox window

@[simp] theorem Tile.regW_setReg_same (t : Tile) (off : Nat) (v : W64) : (t.setReg off v).regW off = v := SMap.look_put_same ..
theorem Tile.regW_setReg_ne (t : Tile) {off x : Nat} (v : W64) (h : x ≠ off) : (t.setReg off v).regW x = t.regW x := SMap.look_put_ne _ _ _ h
theorem Tile.regW_wr_ne (t : Tile) {f : Fld} {x : Nat} (v : Nat) (h : x ≠ f.off) : (t.wr f v).regW x = t.regW x := SMap.look_put_ne _ _ _ h
theorem Tile.rd_wr_same (t : Tile) (f : Fld) (v : Nat) (h : f.hi < 64) (hl : f.lo ≤ f.hi) : (t.wr f v).rd f = v % 2 ^ (f.hi + 1 - f.lo) := by
  simp [Tile.rd, Tile.wr, bits_setBits_same _ _ _ _ h hl]
theorem Tile.rd_wr_off (t : Tile) {f g : Fld} (v : Nat) (h : g.off ≠ f.off) : (t.wr f v).rd g = t.rd g := by
  simp [Tile.rd, Tile.regW_wr_ne t v h]
theorem Tile.rd_wr_ne (t : Tile) {f g : Fld} (v : Nat) (h : f.hi < 64) (hl : f.lo ≤ f.hi) (hd : g.hi < f.lo ∨ f.hi < g.lo) :
    (t.wr f v).rd g = t.rd g := by
  by_cases ho : g.off = f.off
  · simp [Tile.rd, Tile.wr, ho, bits_setBits_ne _ _ _ _ _ _ h hl hd]
  · exact Tile.rd_wr_off t v ho

@[simp] theorem Lodge.regW_wr_same (l : Lodge) (f : Fld) (v : Nat) : (l.wr f v).regW f.off = setBits (l.regW f.off) f.hi f.lo v := SMap.look_put_same ..
theorem Lodge.regW_wr_ne (l : Lodge) {f : Fld} {x : Nat} (v : Nat) (h : x ≠ f.off) : (l.wr f v).regW x = l.regW x := SMap.look_put_ne _ _ _ h
theorem Lodge.rd_wr_same (l : Lodge) (f : Fld) (v : Nat) (h : f.hi < 64) (hl : f.lo ≤ f.hi) : (l.wr f v).rd f = v % 2 ^ (f.hi + 1 - f.lo) := by
  simp [Lodge.rd, bits_setBits_same _ _ _ _ h hl]
theorem Lodge.rd_wr_off (l : Lodge) {f g : Fld} (v : Nat) (h : g.off ≠ f.off) : (l.wr f v).rd g = l.rd g := by
  simp [Lodge.rd, Lodge.regW_wr_ne l v h]
theorem Lodge.rd_wr_ne (l : Lodge) {f g : Fld} (v : Nat) (h : f.hi < 64) (hl : f.lo ≤ f.hi) (hd : g.hi < f.lo ∨ f.hi < g.lo) :
    (l.wr f v).rd g = l.rd g := by
  by_cases ho : g.off = f.off
  · simp [Lodge.rd, ho, bits_setBits_ne _ _ _ _ _ _ h hl hd]
  · exact Lodge.rd_wr_off l v ho

@[simp] theorem Fn.regW_setReg_same (m : Fn) (off : Nat) (v : W64) : (m.setReg off v).regW off = v := SMap.look_put_same ..
theorem Fn.regW_setReg_ne (m : Fn) {off x : Nat} (v : W64) (h : x ≠ off) : (m.setReg off v).regW x = m.regW x := SMap.look_put_ne _ _ _ h
theorem Fn.regW_wr_ne (m : Fn) {f : Fld} {x : Nat} (v : Nat) (h : x ≠ f.off) : (m.wr f v).regW x = m.regW x := SMap.look_put_ne _ _ _ h
theorem Fn.rd_wr_same (m : Fn) (f : Fld) (v : Nat) (h : f.hi < 64) (hl : f.lo ≤ f.hi) : (m.wr f v).rd f = v % 2 ^ (f.hi + 1 - f.lo) := by
  simp [Fn.rd, Fn.wr, bits_setBits_same _ _ _ _ h hl]
theorem Fn.rd_wr_off (m : Fn) {f g : Fld} (v : Nat) (h : g.off ≠ f.off) : (m.wr f v).rd g = m.rd g := by
  simp [Fn.rd, Fn.regW_wr_ne m v h]
theorem Fn.rd_wr_ne (m : Fn) {f g : Fld} (v : Nat) (h : f.hi < 64) (hl : f.lo ≤ f.hi) (hd : g.hi < f.lo ∨ f.hi < g.lo) :
    (m.wr f v).rd g = m.rd g := by
  by_cases ho : g.off = f.off
  · simp [Fn.rd, Fn.wr, ho, bits_setBits_ne _ _ _ _ _ _ h hl hd]
  · exact Fn.rd_wr_off m v ho

-- Tile.setReg
@[simp] theorem Tile.setReg_sp (t : Tile) (off : Nat) (v : W64) : (t.setReg off v).sp = t.sp := by rfl
@[simp] theorem Tile.setReg_tr (t : Tile) (off : Nat) (v : W64) : (t.setReg off v).tr = t.tr := by rfl
@[simp] theorem Tile.setReg_tc (t : Tile) (off : Nat) (v : W64) : (t.setReg off v).tc = t.tc := by rfl
@[simp] theorem Tile.setReg_orphaned (t : Tile) (off : Nat) (v : W64) : (t.setReg off v).orphaned = t.orphaned := by rfl
@[simp] theorem Tile.setReg_seq (t : Tile) (off : Nat) (v : W64) : (t.setReg off v).seq = t.seq := by rfl
@[simp] theorem Tile.setReg_mx (t : Tile) (off : Nat) (v : W64) : (t.setReg off v).mx = t.mx := by rfl
@[simp] theorem Tile.setReg_vx (t : Tile) (off : Nat) (v : W64) : (t.setReg off v).vx = t.vx := by rfl
@[simp] theorem Tile.setReg_tcPrev (t : Tile) (off : Nat) (v : W64) : (t.setReg off v).tcPrev = t.tcPrev := by rfl
@[simp] theorem Tile.setReg_chPrev (t : Tile) (off : Nat) (v : W64) : (t.setReg off v).chPrev = t.chPrev := by rfl
@[simp] theorem Tile.setReg_spNew (t : Tile) (off : Nat) (v : W64) : (t.setReg off v).spNew = t.spNew := by rfl
@[simp] theorem Tile.setReg_trNew (t : Tile) (off : Nat) (v : W64) : (t.setReg off v).trNew = t.trNew := by rfl
@[simp] theorem Tile.setReg_claims (t : Tile) (off : Nat) (v : W64) : (t.setReg off v).claims = t.claims := by rfl
@[simp] theorem Tile.setReg_hqNew (t : Tile) (off : Nat) (v : W64) : (t.setReg off v).hqNew = t.hqNew := by rfl
@[simp] theorem Tile.setReg_tick (t : Tile) (off : Nat) (v : W64) : (t.setReg off v).tick = t.tick := by rfl
@[simp] theorem Tile.setReg_spScrub (t : Tile) (off : Nat) (v : W64) : (t.setReg off v).spScrub = t.spScrub := by rfl
@[simp] theorem Tile.setReg_trScrub (t : Tile) (off : Nat) (v : W64) : (t.setReg off v).trScrub = t.trScrub := by rfl
@[simp] theorem Tile.setReg_spScrubGap (t : Tile) (off : Nat) (v : W64) : (t.setReg off v).spScrubGap = t.spScrubGap := by rfl
@[simp] theorem Tile.setReg_trScrubGap (t : Tile) (off : Nat) (v : W64) : (t.setReg off v).trScrubGap = t.trScrubGap := by rfl
@[simp] theorem Tile.setReg_spClear (t : Tile) (off : Nat) (v : W64) : (t.setReg off v).spClear = t.spClear := by rfl
@[simp] theorem Tile.setReg_trClear (t : Tile) (off : Nat) (v : W64) : (t.setReg off v).trClear = t.trClear := by rfl
@[simp] theorem Tile.setReg_trRewrite (t : Tile) (off : Nat) (v : W64) : (t.setReg off v).trRewrite = t.trRewrite := by rfl
@[simp] theorem Tile.setReg_just (t : Tile) (off : Nat) (v : W64) : (t.setReg off v).just = t.just := by rfl
-- Tile.wr
@[simp] theorem Tile.wr_sp (t : Tile) (f : Fld) (v : Nat) : (t.wr f v).sp = t.sp := by rfl
@[simp] theorem Tile.wr_tr (t : Tile) (f : Fld) (v : Nat) : (t.wr f v).tr = t.tr := by rfl
@[simp] theorem Tile.wr_tc (t : Tile) (f : Fld) (v : Nat) : (t.wr f v).tc = t.tc := by rfl
@[simp] theorem Tile.wr_orphaned (t : Tile) (f : Fld) (v : Nat) : (t.wr f v).orphaned = t.orphaned := by rfl
@[simp] theorem Tile.wr_seq (t : Tile) (f : Fld) (v : Nat) : (t.wr f v).seq = t.seq := by rfl
@[simp] theorem Tile.wr_mx (t : Tile) (f : Fld) (v : Nat) : (t.wr f v).mx = t.mx := by rfl
@[simp] theorem Tile.wr_vx (t : Tile) (f : Fld) (v : Nat) : (t.wr f v).vx = t.vx := by rfl
@[simp] theorem Tile.wr_tcPrev (t : Tile) (f : Fld) (v : Nat) : (t.wr f v).tcPrev = t.tcPrev := by rfl
@[simp] theorem Tile.wr_chPrev (t : Tile) (f : Fld) (v : Nat) : (t.wr f v).chPrev = t.chPrev := by rfl
@[simp] theorem Tile.wr_spNew (t : Tile) (f : Fld) (v : Nat) : (t.wr f v).spNew = t.spNew := by rfl
@[simp] theorem Tile.wr_trNew (t : Tile) (f : Fld) (v : Nat) : (t.wr f v).trNew = t.trNew := by rfl
@[simp] theorem Tile.wr_claims (t : Tile) (f : Fld) (v : Nat) : (t.wr f v).claims = t.claims := by rfl
@[simp] theorem Tile.wr_hqNew (t : Tile) (f : Fld) (v : Nat) : (t.wr f v).hqNew = t.hqNew := by rfl
@[simp] theorem Tile.wr_tick (t : Tile) (f : Fld) (v : Nat) : (t.wr f v).tick = t.tick := by rfl
@[simp] theorem Tile.wr_spScrub (t : Tile) (f : Fld) (v : Nat) : (t.wr f v).spScrub = t.spScrub := by rfl
@[simp] theorem Tile.wr_trScrub (t : Tile) (f : Fld) (v : Nat) : (t.wr f v).trScrub = t.trScrub := by rfl
@[simp] theorem Tile.wr_spScrubGap (t : Tile) (f : Fld) (v : Nat) : (t.wr f v).spScrubGap = t.spScrubGap := by rfl
@[simp] theorem Tile.wr_trScrubGap (t : Tile) (f : Fld) (v : Nat) : (t.wr f v).trScrubGap = t.trScrubGap := by rfl
@[simp] theorem Tile.wr_spClear (t : Tile) (f : Fld) (v : Nat) : (t.wr f v).spClear = t.spClear := by rfl
@[simp] theorem Tile.wr_trClear (t : Tile) (f : Fld) (v : Nat) : (t.wr f v).trClear = t.trClear := by rfl
@[simp] theorem Tile.wr_trRewrite (t : Tile) (f : Fld) (v : Nat) : (t.wr f v).trRewrite = t.trRewrite := by rfl
@[simp] theorem Tile.wr_just (t : Tile) (f : Fld) (v : Nat) : (t.wr f v).just = t.just := by rfl
-- Tile.inc
@[simp] theorem Tile.inc_sp (t : Tile) (f : Fld) (n : Nat) : (t.inc f n).sp = t.sp := by rfl
@[simp] theorem Tile.inc_tr (t : Tile) (f : Fld) (n : Nat) : (t.inc f n).tr = t.tr := by rfl
@[simp] theorem Tile.inc_tc (t : Tile) (f : Fld) (n : Nat) : (t.inc f n).tc = t.tc := by rfl
@[simp] theorem Tile.inc_orphaned (t : Tile) (f : Fld) (n : Nat) : (t.inc f n).orphaned = t.orphaned := by rfl
@[simp] theorem Tile.inc_seq (t : Tile) (f : Fld) (n : Nat) : (t.inc f n).seq = t.seq := by rfl
@[simp] theorem Tile.inc_mx (t : Tile) (f : Fld) (n : Nat) : (t.inc f n).mx = t.mx := by rfl
@[simp] theorem Tile.inc_vx (t : Tile) (f : Fld) (n : Nat) : (t.inc f n).vx = t.vx := by rfl
@[simp] theorem Tile.inc_tcPrev (t : Tile) (f : Fld) (n : Nat) : (t.inc f n).tcPrev = t.tcPrev := by rfl
@[simp] theorem Tile.inc_chPrev (t : Tile) (f : Fld) (n : Nat) : (t.inc f n).chPrev = t.chPrev := by rfl
@[simp] theorem Tile.inc_spNew (t : Tile) (f : Fld) (n : Nat) : (t.inc f n).spNew = t.spNew := by rfl
@[simp] theorem Tile.inc_trNew (t : Tile) (f : Fld) (n : Nat) : (t.inc f n).trNew = t.trNew := by rfl
@[simp] theorem Tile.inc_claims (t : Tile) (f : Fld) (n : Nat) : (t.inc f n).claims = t.claims := by rfl
@[simp] theorem Tile.inc_hqNew (t : Tile) (f : Fld) (n : Nat) : (t.inc f n).hqNew = t.hqNew := by rfl
@[simp] theorem Tile.inc_tick (t : Tile) (f : Fld) (n : Nat) : (t.inc f n).tick = t.tick := by rfl
@[simp] theorem Tile.inc_spScrub (t : Tile) (f : Fld) (n : Nat) : (t.inc f n).spScrub = t.spScrub := by rfl
@[simp] theorem Tile.inc_trScrub (t : Tile) (f : Fld) (n : Nat) : (t.inc f n).trScrub = t.trScrub := by rfl
@[simp] theorem Tile.inc_spScrubGap (t : Tile) (f : Fld) (n : Nat) : (t.inc f n).spScrubGap = t.spScrubGap := by rfl
@[simp] theorem Tile.inc_trScrubGap (t : Tile) (f : Fld) (n : Nat) : (t.inc f n).trScrubGap = t.trScrubGap := by rfl
@[simp] theorem Tile.inc_spClear (t : Tile) (f : Fld) (n : Nat) : (t.inc f n).spClear = t.spClear := by rfl
@[simp] theorem Tile.inc_trClear (t : Tile) (f : Fld) (n : Nat) : (t.inc f n).trClear = t.trClear := by rfl
@[simp] theorem Tile.inc_trRewrite (t : Tile) (f : Fld) (n : Nat) : (t.inc f n).trRewrite = t.trRewrite := by rfl
@[simp] theorem Tile.inc_just (t : Tile) (f : Fld) (n : Nat) : (t.inc f n).just = t.just := by rfl
-- Tile.incSat
@[simp] theorem Tile.incSat_sp (t : Tile) (f : Fld) (n : Nat) : (t.incSat f n).sp = t.sp := by rfl
@[simp] theorem Tile.incSat_tr (t : Tile) (f : Fld) (n : Nat) : (t.incSat f n).tr = t.tr := by rfl
@[simp] theorem Tile.incSat_tc (t : Tile) (f : Fld) (n : Nat) : (t.incSat f n).tc = t.tc := by rfl
@[simp] theorem Tile.incSat_orphaned (t : Tile) (f : Fld) (n : Nat) : (t.incSat f n).orphaned = t.orphaned := by rfl
@[simp] theorem Tile.incSat_seq (t : Tile) (f : Fld) (n : Nat) : (t.incSat f n).seq = t.seq := by rfl
@[simp] theorem Tile.incSat_mx (t : Tile) (f : Fld) (n : Nat) : (t.incSat f n).mx = t.mx := by rfl
@[simp] theorem Tile.incSat_vx (t : Tile) (f : Fld) (n : Nat) : (t.incSat f n).vx = t.vx := by rfl
@[simp] theorem Tile.incSat_tcPrev (t : Tile) (f : Fld) (n : Nat) : (t.incSat f n).tcPrev = t.tcPrev := by rfl
@[simp] theorem Tile.incSat_chPrev (t : Tile) (f : Fld) (n : Nat) : (t.incSat f n).chPrev = t.chPrev := by rfl
@[simp] theorem Tile.incSat_spNew (t : Tile) (f : Fld) (n : Nat) : (t.incSat f n).spNew = t.spNew := by rfl
@[simp] theorem Tile.incSat_trNew (t : Tile) (f : Fld) (n : Nat) : (t.incSat f n).trNew = t.trNew := by rfl
@[simp] theorem Tile.incSat_claims (t : Tile) (f : Fld) (n : Nat) : (t.incSat f n).claims = t.claims := by rfl
@[simp] theorem Tile.incSat_hqNew (t : Tile) (f : Fld) (n : Nat) : (t.incSat f n).hqNew = t.hqNew := by rfl
@[simp] theorem Tile.incSat_tick (t : Tile) (f : Fld) (n : Nat) : (t.incSat f n).tick = t.tick := by rfl
@[simp] theorem Tile.incSat_spScrub (t : Tile) (f : Fld) (n : Nat) : (t.incSat f n).spScrub = t.spScrub := by rfl
@[simp] theorem Tile.incSat_trScrub (t : Tile) (f : Fld) (n : Nat) : (t.incSat f n).trScrub = t.trScrub := by rfl
@[simp] theorem Tile.incSat_spScrubGap (t : Tile) (f : Fld) (n : Nat) : (t.incSat f n).spScrubGap = t.spScrubGap := by rfl
@[simp] theorem Tile.incSat_trScrubGap (t : Tile) (f : Fld) (n : Nat) : (t.incSat f n).trScrubGap = t.trScrubGap := by rfl
@[simp] theorem Tile.incSat_spClear (t : Tile) (f : Fld) (n : Nat) : (t.incSat f n).spClear = t.spClear := by rfl
@[simp] theorem Tile.incSat_trClear (t : Tile) (f : Fld) (n : Nat) : (t.incSat f n).trClear = t.trClear := by rfl
@[simp] theorem Tile.incSat_trRewrite (t : Tile) (f : Fld) (n : Nat) : (t.incSat f n).trRewrite = t.trRewrite := by rfl
@[simp] theorem Tile.incSat_just (t : Tile) (f : Fld) (n : Nat) : (t.incSat f n).just = t.just := by rfl
-- Tile.raise
@[simp] theorem Tile.raise_sp (t : Tile) (f : Fld) : (t.raise f).sp = t.sp := by rfl
@[simp] theorem Tile.raise_tr (t : Tile) (f : Fld) : (t.raise f).tr = t.tr := by rfl
@[simp] theorem Tile.raise_tc (t : Tile) (f : Fld) : (t.raise f).tc = t.tc := by rfl
@[simp] theorem Tile.raise_orphaned (t : Tile) (f : Fld) : (t.raise f).orphaned = t.orphaned := by rfl
@[simp] theorem Tile.raise_seq (t : Tile) (f : Fld) : (t.raise f).seq = t.seq := by rfl
@[simp] theorem Tile.raise_mx (t : Tile) (f : Fld) : (t.raise f).mx = t.mx := by rfl
@[simp] theorem Tile.raise_vx (t : Tile) (f : Fld) : (t.raise f).vx = t.vx := by rfl
@[simp] theorem Tile.raise_tcPrev (t : Tile) (f : Fld) : (t.raise f).tcPrev = t.tcPrev := by rfl
@[simp] theorem Tile.raise_chPrev (t : Tile) (f : Fld) : (t.raise f).chPrev = t.chPrev := by rfl
@[simp] theorem Tile.raise_spNew (t : Tile) (f : Fld) : (t.raise f).spNew = t.spNew := by rfl
@[simp] theorem Tile.raise_trNew (t : Tile) (f : Fld) : (t.raise f).trNew = t.trNew := by rfl
@[simp] theorem Tile.raise_claims (t : Tile) (f : Fld) : (t.raise f).claims = t.claims := by rfl
@[simp] theorem Tile.raise_hqNew (t : Tile) (f : Fld) : (t.raise f).hqNew = t.hqNew := by rfl
@[simp] theorem Tile.raise_tick (t : Tile) (f : Fld) : (t.raise f).tick = t.tick := by rfl
@[simp] theorem Tile.raise_spScrub (t : Tile) (f : Fld) : (t.raise f).spScrub = t.spScrub := by rfl
@[simp] theorem Tile.raise_trScrub (t : Tile) (f : Fld) : (t.raise f).trScrub = t.trScrub := by rfl
@[simp] theorem Tile.raise_spScrubGap (t : Tile) (f : Fld) : (t.raise f).spScrubGap = t.spScrubGap := by rfl
@[simp] theorem Tile.raise_trScrubGap (t : Tile) (f : Fld) : (t.raise f).trScrubGap = t.trScrubGap := by rfl
@[simp] theorem Tile.raise_spClear (t : Tile) (f : Fld) : (t.raise f).spClear = t.spClear := by rfl
@[simp] theorem Tile.raise_trClear (t : Tile) (f : Fld) : (t.raise f).trClear = t.trClear := by rfl
@[simp] theorem Tile.raise_trRewrite (t : Tile) (f : Fld) : (t.raise f).trRewrite = t.trRewrite := by rfl
-- Lodge.wr
@[simp] theorem Lodge.wr_isram (l : Lodge) (f : Fld) (v : Nat) : (l.wr f v).isram = l.isram := by rfl
@[simp] theorem Lodge.wr_dsram (l : Lodge) (f : Fld) (v : Nat) : (l.wr f v).dsram = l.dsram := by rfl
@[simp] theorem Lodge.wr_pc (l : Lodge) (f : Fld) (v : Nat) : (l.wr f v).pc = l.pc := by rfl
@[simp] theorem Lodge.wr_x (l : Lodge) (f : Fld) (v : Nat) : (l.wr f v).x = l.x := by rfl
@[simp] theorem Lodge.wr_f (l : Lodge) (f : Fld) (v : Nat) : (l.wr f v).f = l.f := by rfl
@[simp] theorem Lodge.wr_csr (l : Lodge) (f : Fld) (v : Nat) : (l.wr f v).csr = l.csr := by rfl
@[simp] theorem Lodge.wr_reserve (l : Lodge) (f : Fld) (v : Nat) : (l.wr f v).reserve = l.reserve := by rfl
@[simp] theorem Lodge.wr_wfi (l : Lodge) (f : Fld) (v : Nat) : (l.wr f v).wfi = l.wfi := by rfl
@[simp] theorem Lodge.wr_evq (l : Lodge) (f : Fld) (v : Nat) : (l.wr f v).evq = l.evq := by rfl
@[simp] theorem Lodge.wr_msgs (l : Lodge) (f : Fld) (v : Nat) : (l.wr f v).msgs = l.msgs := by rfl
@[simp] theorem Lodge.wr_stores (l : Lodge) (f : Fld) (v : Nat) : (l.wr f v).stores = l.stores := by rfl
@[simp] theorem Lodge.wr_just (l : Lodge) (f : Fld) (v : Nat) : (l.wr f v).just = l.just := by rfl
-- Lodge.raise
@[simp] theorem Lodge.raise_isram (l : Lodge) (f : Fld) : (l.raise f).isram = l.isram := by rfl
@[simp] theorem Lodge.raise_dsram (l : Lodge) (f : Fld) : (l.raise f).dsram = l.dsram := by rfl
@[simp] theorem Lodge.raise_pc (l : Lodge) (f : Fld) : (l.raise f).pc = l.pc := by rfl
@[simp] theorem Lodge.raise_x (l : Lodge) (f : Fld) : (l.raise f).x = l.x := by rfl
@[simp] theorem Lodge.raise_f (l : Lodge) (f : Fld) : (l.raise f).f = l.f := by rfl
@[simp] theorem Lodge.raise_csr (l : Lodge) (f : Fld) : (l.raise f).csr = l.csr := by rfl
@[simp] theorem Lodge.raise_reserve (l : Lodge) (f : Fld) : (l.raise f).reserve = l.reserve := by rfl
@[simp] theorem Lodge.raise_wfi (l : Lodge) (f : Fld) : (l.raise f).wfi = l.wfi := by rfl
@[simp] theorem Lodge.raise_evq (l : Lodge) (f : Fld) : (l.raise f).evq = l.evq := by rfl
@[simp] theorem Lodge.raise_msgs (l : Lodge) (f : Fld) : (l.raise f).msgs = l.msgs := by rfl
@[simp] theorem Lodge.raise_stores (l : Lodge) (f : Fld) : (l.raise f).stores = l.stores := by rfl
-- Fn.setReg
@[simp] theorem Fn.setReg_latched (m : Fn) (off : Nat) (v : W64) : (m.setReg off v).latched = m.latched := by rfl
@[simp] theorem Fn.setReg_rungAt (m : Fn) (off : Nat) (v : W64) : (m.setReg off v).rungAt = m.rungAt := by rfl
@[simp] theorem Fn.setReg_async (m : Fn) (off : Nat) (v : W64) : (m.setReg off v).async = m.async := by rfl
@[simp] theorem Fn.setReg_flights (m : Fn) (off : Nat) (v : W64) : (m.setReg off v).flights = m.flights := by rfl
@[simp] theorem Fn.setReg_nextTicket (m : Fn) (off : Nat) (v : W64) : (m.setReg off v).nextTicket = m.nextTicket := by rfl
@[simp] theorem Fn.setReg_msix (m : Fn) (off : Nat) (v : W64) : (m.setReg off v).msix = m.msix := by rfl
@[simp] theorem Fn.setReg_pendingVec (m : Fn) (off : Nat) (v : W64) : (m.setReg off v).pendingVec = m.pendingVec := by rfl
@[simp] theorem Fn.setReg_vfEnable (m : Fn) (off : Nat) (v : W64) : (m.setReg off v).vfEnable = m.vfEnable := by rfl
@[simp] theorem Fn.setReg_just (m : Fn) (off : Nat) (v : W64) : (m.setReg off v).just = m.just := by rfl
-- Fn.wr
@[simp] theorem Fn.wr_latched (m : Fn) (f : Fld) (v : Nat) : (m.wr f v).latched = m.latched := by rfl
@[simp] theorem Fn.wr_rungAt (m : Fn) (f : Fld) (v : Nat) : (m.wr f v).rungAt = m.rungAt := by rfl
@[simp] theorem Fn.wr_async (m : Fn) (f : Fld) (v : Nat) : (m.wr f v).async = m.async := by rfl
@[simp] theorem Fn.wr_flights (m : Fn) (f : Fld) (v : Nat) : (m.wr f v).flights = m.flights := by rfl
@[simp] theorem Fn.wr_nextTicket (m : Fn) (f : Fld) (v : Nat) : (m.wr f v).nextTicket = m.nextTicket := by rfl
@[simp] theorem Fn.wr_msix (m : Fn) (f : Fld) (v : Nat) : (m.wr f v).msix = m.msix := by rfl
@[simp] theorem Fn.wr_pendingVec (m : Fn) (f : Fld) (v : Nat) : (m.wr f v).pendingVec = m.pendingVec := by rfl
@[simp] theorem Fn.wr_vfEnable (m : Fn) (f : Fld) (v : Nat) : (m.wr f v).vfEnable = m.vfEnable := by rfl
@[simp] theorem Fn.wr_just (m : Fn) (f : Fld) (v : Nat) : (m.wr f v).just = m.just := by rfl
-- Fn.raise
@[simp] theorem Fn.raise_latched (m : Fn) (f : Fld) : (m.raise f).latched = m.latched := by rfl
@[simp] theorem Fn.raise_rungAt (m : Fn) (f : Fld) : (m.raise f).rungAt = m.rungAt := by rfl
@[simp] theorem Fn.raise_async (m : Fn) (f : Fld) : (m.raise f).async = m.async := by rfl
@[simp] theorem Fn.raise_flights (m : Fn) (f : Fld) : (m.raise f).flights = m.flights := by rfl
@[simp] theorem Fn.raise_nextTicket (m : Fn) (f : Fld) : (m.raise f).nextTicket = m.nextTicket := by rfl
@[simp] theorem Fn.raise_msix (m : Fn) (f : Fld) : (m.raise f).msix = m.msix := by rfl
@[simp] theorem Fn.raise_pendingVec (m : Fn) (f : Fld) : (m.raise f).pendingVec = m.pendingVec := by rfl
@[simp] theorem Fn.raise_vfEnable (m : Fn) (f : Fld) : (m.raise f).vfEnable = m.vfEnable := by rfl

-- a W1C bit set is a field written
theorem State.rd_raise (s : State) (f g : Fld) : (s.raise f).rd g = (s.wr f 1).rd g := by rfl
theorem State.regW_raise (s : State) (f : Fld) (x : Nat) : (s.raise f).regW x = (s.wr f 1).regW x := by rfl
theorem Tile.rd_raise (t : Tile) (f g : Fld) : (t.raise f).rd g = (t.wr f 1).rd g := by rfl
theorem Fn.rd_raise (m : Fn) (f g : Fld) : (m.raise f).rd g = (m.wr f 1).rd g := by rfl
theorem Lodge.rd_raise (l : Lodge) (f g : Fld) : (l.raise f).rd g = (l.wr f 1).rd g := by rfl
theorem State.reg_raise (s : State) (f : Fld) : (s.raise f).reg = (s.wr f 1).reg := by rfl
theorem Tile.reg_raise (t : Tile) (f : Fld) : (t.raise f).reg = (t.wr f 1).reg := by rfl
theorem Fn.reg_raise (m : Fn) (f : Fld) : (m.raise f).reg = (m.wr f 1).reg := by rfl

end Sys2Proof.Machine
end

