-- ==== Sys2Proof/Laws/Flags.lean ====
section
/-!
SUPPORT. Laws of the flags: what a tile fault, an increment of a tally counter, an interrupt and a mailbox event do, each said once.
-/

namespace Sys2Proof.Machine
open Sys2Proof

-- reads through updates that leave the registers alone

theorem Tile.rd_congr {t u : Tile} (h : t.reg = u.reg) (f : Fld) : t.rd f = u.rd f := by simp only [Tile.rd, Tile.regW, h]
theorem State.rd_congr {s u : State} (h : s.reg = u.reg) (f : Fld) : s.rd f = u.rd f := by simp only [State.rd, State.regW, h]

@[simp] theorem Tile.rd_seq (t : Tile) (q : Seq) (f : Fld) : Tile.rd { t with seq := q } f = t.rd f := rfl
@[simp] theorem Tile.rd_tc (t : Tile) (c : SMap W32) (f : Fld) : Tile.rd { t with tc := c } f = t.rd f := rfl
@[simp] theorem Tile.rd_sp (t : Tile) (m : Mem) (f : Fld) : Tile.rd { t with sp := m } f = t.rd f := rfl
@[simp] theorem Tile.rd_tr (t : Tile) (m : Mem) (f : Fld) : Tile.rd { t with tr := m } f = t.rd f := rfl
@[simp] theorem State.rd_die (s : State) (d : Die) (f : Fld) : State.rd { s with die := d } f = s.rd f := rfl
@[simp] theorem State.rd_sun (s : State) (d : Sun) (f : Fld) : State.rd { s with sun := d } f = s.rd f := rfl
@[simp] theorem State.rd_setTile (s : State) (p : Nat) (t : Tile) (f : Fld) : (s.setTile p t).rd f = s.rd f := rfl
@[simp] theorem State.tile_die (s : State) (d : Die) (p : Nat) : State.tile { s with die := d } p = s.tile p := rfl
@[simp] theorem State.tile_sun (s : State) (d : Sun) (p : Nat) : State.tile { s with sun := d } p = s.tile p := rfl
@[simp] theorem State.now_setTile (s : State) (p : Nat) (t : Tile) (x : Nat) : (s.setTile p t).now x = s.now x := rfl

-- tile faults

/-- A fault changes registers of the tile with their log of W1C sets and, unless a descriptor of a stopped tile raised it, its run state, and nothing
else (R60, R67). -/
theorem Tile.fault_eq (t : Tile) (k cy c st a : Nat) :
    ∃ r j, t.fault k cy c st a =
      { t with reg := r, just := j, seq := { t.seq with run := if t.rd TL_SEQ_CONFIG_ENABLE = 1 ∨ st = 2 then .frozen else t.seq.run } } := by
  unfold Tile.fault
  dsimp only
  split <;> split <;> exact ⟨_, _, rfl⟩

@[simp] theorem Tile.fault_sp (t : Tile) (k cy c st a : Nat) : (t.fault k cy c st a).sp = t.sp := by
  obtain ⟨r, j, h⟩ := t.fault_eq k cy c st a; rw [h]
@[simp] theorem Tile.fault_tr (t : Tile) (k cy c st a : Nat) : (t.fault k cy c st a).tr = t.tr := by
  obtain ⟨r, j, h⟩ := t.fault_eq k cy c st a; rw [h]
@[simp] theorem Tile.fault_tc (t : Tile) (k cy c st a : Nat) : (t.fault k cy c st a).tc = t.tc := by
  obtain ⟨r, j, h⟩ := t.fault_eq k cy c st a; rw [h]
@[simp] theorem Tile.fault_mx (t : Tile) (k cy c st a : Nat) : (t.fault k cy c st a).mx = t.mx := by
  obtain ⟨r, j, h⟩ := t.fault_eq k cy c st a; rw [h]
@[simp] theorem Tile.fault_vx (t : Tile) (k cy c st a : Nat) : (t.fault k cy c st a).vx = t.vx := by
  obtain ⟨r, j, h⟩ := t.fault_eq k cy c st a; rw [h]
@[simp] theorem Tile.fault_window (t : Tile) (k cy c st a : Nat) : (t.fault k cy c st a).seq.window = t.seq.window := by
  obtain ⟨r, j, h⟩ := t.fault_eq k cy c st a; rw [h]
@[simp] theorem Tile.fault_run (t : Tile) (k cy c st a : Nat) :
    (t.fault k cy c st a).seq.run = if t.rd TL_SEQ_CONFIG_ENABLE = 1 ∨ st = 2 then .frozen else t.seq.run := by
  obtain ⟨r, j, h⟩ := t.fault_eq k cy c st a; rw [h]

/-- The registers of a fault: its bit of TL_FAULT, and TL_FAULT_INFO where it is the first. -/
theorem Tile.fault_regs (t : Tile) (k cy c st a : Nat) (f : Fld) : (t.fault k cy c st a).rd f =
    (if t.regW TL_FAULT_OFF = 0 then
      (((((t.wr (faultField k) 1).wr TL_FAULT_INFO_CYCLE cy).wr TL_FAULT_INFO_COUNTER c).wr TL_FAULT_INFO_STREAM (st % 2)).wr TL_FAULT_INFO_KIND k).wr
        TL_FAULT_INFO_ADDRESS a
    else t.wr (faultField k) 1).rd f := by
  apply Tile.rd_congr
  unfold Tile.fault
  dsimp only
  by_cases h : t.regW TL_FAULT_OFF = 0
  · rw [show (t.regW TL_FAULT_OFF == 0) = true by simp [h], if_pos rfl, if_pos h]; split <;> rfl
  · rw [show (t.regW TL_FAULT_OFF == 0) = false from beq_false_of_ne h, if_neg h]; split <;> rfl

/-- The bit of the fault is set. -/
theorem Tile.fault_bit (t : Tile) (k cy c st a : Nat) (hk : k < 8) : (t.fault k cy c st a).rd (faultField k) = 1 := by
  have h1 : (t.wr (faultField k) 1).rd (faultField k) = 1 := by
    rw [Tile.rd_wr_same _ _ _ (by simp [faultField]; omega) (by simp [faultField])]; simp [faultField]
  rw [Tile.fault_regs]
  split
  · iterate 5 rw [Tile.rd_wr_off _ _ (by simp [faultField, TL_FAULT_OFF, TL_FAULT_INFO_ADDRESS, TL_FAULT_INFO_KIND, TL_FAULT_INFO_STREAM, TL_FAULT_INFO_COUNTER, TL_FAULT_INFO_CYCLE, TL_FAULT_INFO_OFF])]
    exact h1
  · exact h1

/-- The first fault of a tile is described by TL_FAULT_INFO. -/
theorem Tile.fault_info (t : Tile) (k cy c st a : Nat) (h : t.regW TL_FAULT_OFF = 0) :
    (t.fault k cy c st a).rd TL_FAULT_INFO_KIND = k % 2 ^ 4 ∧ (t.fault k cy c st a).rd TL_FAULT_INFO_ADDRESS = a % 2 ^ 15
      ∧ (t.fault k cy c st a).rd TL_FAULT_INFO_CYCLE = cy % 2 ^ 24 ∧ (t.fault k cy c st a).rd TL_FAULT_INFO_COUNTER = c % 2 ^ 8
      ∧ (t.fault k cy c st a).rd TL_FAULT_INFO_STREAM = st % 2 := by
  simp only [Tile.fault_regs, h, if_true]
  refine ⟨?_, ?_, ?_, ?_, ?_⟩ <;> simp (disch := decide) only [Tile.rd_wr_same, Tile.rd_wr_ne] <;> first | rfl | exact Nat.mod_mod _ _

/-- A fault at one tile: that tile's fault, and a report to the Warden. -/
theorem raiseFault_eq (s : State) (p k c st a : Nat) :
    raiseFault s p k c st a = { s.setTile p ((s.tile p).fault k (s.now p) c st a) with
      die := { s.die with reports := s.die.reports ++ [{ p := p, kind := 0 }] } } := rfl
@[simp] theorem raiseFault_tile (s : State) (p k c st a : Nat) : (raiseFault s p k c st a).tile p = (s.tile p).fault k (s.now p) c st a :=
  State.tile_setTile_same ..
theorem raiseFault_tile_ne (s : State) {p x : Nat} (k c st a : Nat) (h : x ≠ p) : (raiseFault s p k c st a).tile x = s.tile x :=
  State.tile_setTile_ne s _ h
@[simp] theorem raiseFault_die (s : State) (p k c st a : Nat) :
    (raiseFault s p k c st a).die = { s.die with reports := s.die.reports ++ [{ p := p, kind := 0 }] } := rfl
@[simp] theorem raiseFault_reg (s : State) (p k c st a : Nat) : (raiseFault s p k c st a).reg = s.reg := rfl
@[simp] theorem raiseFault_rows (s : State) (p k c st a : Nat) : (raiseFault s p k c st a).rows = s.rows := rfl
@[simp] theorem raiseFault_sun (s : State) (p k c st a : Nat) : (raiseFault s p k c st a).sun = s.sun := rfl
@[simp] theorem raiseFault_pvs (s : State) (p k c st a : Nat) : (raiseFault s p k c st a).pvs = s.pvs := rfl
@[simp] theorem raiseFault_fns (s : State) (p k c st a : Nat) : (raiseFault s p k c st a).fns = s.fns := rfl
@[simp] theorem raiseFault_shed (s : State) (p k c st a : Nat) : (raiseFault s p k c st a).shed = s.shed := rfl
@[simp] theorem raiseFault_replay (s : State) (p k c st a : Nat) : (raiseFault s p k c st a).replay = s.replay := rfl
@[simp] theorem raiseFault_out (s : State) (p k c st a : Nat) : (raiseFault s p k c st a).out = s.out := rfl

-- tally counters

theorem Tile.tcVal_put (t : Tile) (n m : Nat) (v : W32) (l : SMap W32) : Tile.tcVal { t with tc := SMap.put t.tc n v, tcPrev := l } m = if m = n then v.toNat else t.tcVal m := by
  simp only [Tile.tcVal, SMap.look_put]; split <;> rfl

@[simp] theorem Tile.tcVal_fault (t : Tile) (k cy c st a n : Nat) : (t.fault k cy c st a).tcVal n = t.tcVal n := by simp [Tile.tcVal]

theorem Tile.tcVal_lt (t : Tile) (n : Nat) : t.tcVal n < 2 ^ 32 := BitVec.isLt _

theorem w32_toNat {v : Nat} (h : v < 2 ^ 32) : (w32 v).toNat = v := by
  simp only [w32, BitVec.toNat_ofNat]
  exact Nat.mod_eq_of_lt h

/-- What increments do to one counter (R61, R62): the sum held at 0xFFFF_FFFF, a counter-limit fault above 0xFFFF_FF00, no other tile touched. -/
theorem tcAdd_eq (s : State) (p n inc st a : Nat) (h : 0 < inc) :
    tcAdd s p n inc st a =
      let t := s.tile p
      let s1 := s.setTile p { t with tc := SMap.put t.tc n (w32 (tcSum (t.tcVal n) inc)),
                                     tcPrev := SMap.put t.tcPrev n (SMap.look t.tcPrev n (SMap.look t.tc n 0)) }
      if 0xFFFFFF00 < tcSum ((s.tile p).tcVal n) inc then raiseFault s1 p faultTcLimit n st a else s1 := by
  simp [tcAdd, Nat.ne_of_gt h]

theorem tcAdd_tile_ne (s : State) {p x : Nat} (n inc st a : Nat) (h : x ≠ p) : (tcAdd s p n inc st a).tile x = s.tile x := by
  unfold tcAdd
  split
  · rfl
  · dsimp only; split <;> simp [raiseFault_tile_ne _ _ _ _ _ h, State.tile_setTile_ne _ _ h]

/-- Every counter after increments of one. -/
theorem tcAdd_tcVal (s : State) (p n inc st a m : Nat) :
    ((tcAdd s p n inc st a).tile p).tcVal m = if m = n then min ((s.tile p).tcVal n + inc) 0xFFFFFFFF else (s.tile p).tcVal m := by
  have hlt := (s.tile p).tcVal_lt n
  have hs : tcSum ((s.tile p).tcVal n) inc < 2 ^ 32 := by unfold tcSum; omega
  unfold tcAdd
  split
  · next h => subst h; split <;> simp_all; omega
  · dsimp only; split <;> simp [Tile.tcVal_put, w32_toNat hs] <;> simp [tcSum]

@[simp] theorem tcAdd_sp (s : State) (p n inc st a x : Nat) : ((tcAdd s p n inc st a).tile x).sp = (s.tile x).sp := by
  by_cases h : x = p
  · subst h; unfold tcAdd; split; rfl; dsimp only; split <;> simp
  · rw [tcAdd_tile_ne s n inc st a h]
@[simp] theorem tcAdd_tr (s : State) (p n inc st a x : Nat) : ((tcAdd s p n inc st a).tile x).tr = (s.tile x).tr := by
  by_cases h : x = p
  · subst h; unfold tcAdd; split; rfl; dsimp only; split <;> simp
  · rw [tcAdd_tile_ne s n inc st a h]
@[simp] theorem tcAdd_mx (s : State) (p n inc st a x : Nat) : ((tcAdd s p n inc st a).tile x).mx = (s.tile x).mx := by
  by_cases h : x = p
  · subst h; unfold tcAdd; split; rfl; dsimp only; split <;> simp
  · rw [tcAdd_tile_ne s n inc st a h]
@[simp] theorem tcAdd_vx (s : State) (p n inc st a x : Nat) : ((tcAdd s p n inc st a).tile x).vx = (s.tile x).vx := by
  by_cases h : x = p
  · subst h; unfold tcAdd; split; rfl; dsimp only; split <;> simp
  · rw [tcAdd_tile_ne s n inc st a h]
@[simp] theorem tcAdd_window (s : State) (p n inc st a x : Nat) : ((tcAdd s p n inc st a).tile x).seq.window = (s.tile x).seq.window := by
  by_cases h : x = p
  · subst h; unfold tcAdd; split; rfl; dsimp only; split <;> simp
  · rw [tcAdd_tile_ne s n inc st a h]

end Sys2Proof.Machine
end

