-- ==== Sys2Proof/Laws/Kept.lean ====
section
/-!
SUPPORT. What each shared operation leaves alone: one lemma per operation, a conjunction of the parts of the state that it keeps, tagged for simp so that
a frame needs no unfolding.
-/

namespace Sys2Proof.Machine
open Sys2Proof

set_option Elab.async false
set_option linter.all false

/-- A part of the state that every step of a fold keeps, the fold keeps. -/
theorem foldl_keep {α β : Type} (g : State → β) (f : State → α → State) (h : ∀ s x, g (f s x) = g s) (l : List α) (s : State) : g (l.foldl f s) = g s := by
  induction l generalizing s with
  | nil => rfl
  | cons x l ih => rw [List.foldl_cons, ih, h]

@[simp] theorem foldl_keeps_pending {α : Type} (f : State → α → State) (h : ∀ s x, (f s x).pending = s.pending) (l : List α) (s : State) :
    (l.foldl f s).pending = s.pending := foldl_keep (fun s => s.pending) f h l s

@[simp] theorem ite_keeps_pending (c : Prop) [Decidable c] (a b : State) : (if c then a else b).pending = if c then a.pending else b.pending := by
  split <;> rfl

@[simp] theorem foldl_keeps_gate {α : Type} (f : State → α → State) (h : ∀ s x, (f s x).gate = s.gate) (l : List α) (s : State) :
    (l.foldl f s).gate = s.gate := foldl_keep (fun s => s.gate) f h l s

@[simp] theorem ite_keeps_gate (c : Prop) [Decidable c] (a b : State) : (if c then a else b).gate = if c then a.gate else b.gate := by
  split <;> rfl

@[simp] theorem foldl_keeps_mod {α : Type} (f : State → α → State) (h : ∀ s x, (f s x).mod = s.mod) (l : List α) (s : State) :
    (l.foldl f s).mod = s.mod := foldl_keep (fun s => s.mod) f h l s

@[simp] theorem ite_keeps_mod (c : Prop) [Decidable c] (a b : State) : (if c then a else b).mod = if c then a.mod else b.mod := by
  split <;> rfl

@[simp] theorem foldl_keeps_rows {α : Type} (f : State → α → State) (h : ∀ s x, (f s x).rows = s.rows) (l : List α) (s : State) :
    (l.foldl f s).rows = s.rows := foldl_keep (fun s => s.rows) f h l s

@[simp] theorem ite_keeps_rows (c : Prop) [Decidable c] (a b : State) : (if c then a else b).rows = if c then a.rows else b.rows := by
  split <;> rfl

@[simp] theorem foldl_keeps_dumps {α : Type} (f : State → α → State) (h : ∀ s x, (f s x).dumps = s.dumps) (l : List α) (s : State) :
    (l.foldl f s).dumps = s.dumps := foldl_keep (fun s => s.dumps) f h l s

@[simp] theorem ite_keeps_dumps (c : Prop) [Decidable c] (a b : State) : (if c then a else b).dumps = if c then a.dumps else b.dumps := by
  split <;> rfl

@[simp] theorem foldl_keeps_shed {α : Type} (f : State → α → State) (h : ∀ s x, (f s x).shed = s.shed) (l : List α) (s : State) :
    (l.foldl f s).shed = s.shed := foldl_keep (fun s => s.shed) f h l s

@[simp] theorem ite_keeps_shed (c : Prop) [Decidable c] (a b : State) : (if c then a else b).shed = if c then a.shed else b.shed := by
  split <;> rfl

@[simp] theorem foldl_keeps_replay {α : Type} (f : State → α → State) (h : ∀ s x, (f s x).replay = s.replay) (l : List α) (s : State) :
    (l.foldl f s).replay = s.replay := foldl_keep (fun s => s.replay) f h l s

@[simp] theorem ite_keeps_replay (c : Prop) [Decidable c] (a b : State) : (if c then a else b).replay = if c then a.replay else b.replay := by
  split <;> rfl

@[simp] theorem foldl_keeps_reg {α : Type} (f : State → α → State) (h : ∀ s x, (f s x).reg = s.reg) (l : List α) (s : State) :
    (l.foldl f s).reg = s.reg := foldl_keep (fun s => s.reg) f h l s

@[simp] theorem ite_keeps_reg (c : Prop) [Decidable c] (a b : State) : (if c then a else b).reg = if c then a.reg else b.reg := by
  split <;> rfl

@[simp] theorem foldl_keeps_just {α : Type} (f : State → α → State) (h : ∀ s x, (f s x).just = s.just) (l : List α) (s : State) :
    (l.foldl f s).just = s.just := foldl_keep (fun s => s.just) f h l s

@[simp] theorem ite_keeps_just (c : Prop) [Decidable c] (a b : State) : (if c then a else b).just = if c then a.just else b.just := by
  split <;> rfl

@[simp] theorem foldl_keeps_tiles {α : Type} (f : State → α → State) (h : ∀ s x, (f s x).tiles = s.tiles) (l : List α) (s : State) :
    (l.foldl f s).tiles = s.tiles := foldl_keep (fun s => s.tiles) f h l s

@[simp] theorem ite_keeps_tiles (c : Prop) [Decidable c] (a b : State) : (if c then a else b).tiles = if c then a.tiles else b.tiles := by
  split <;> rfl

@[simp] theorem foldl_keeps_pvs {α : Type} (f : State → α → State) (h : ∀ s x, (f s x).pvs = s.pvs) (l : List α) (s : State) :
    (l.foldl f s).pvs = s.pvs := foldl_keep (fun s => s.pvs) f h l s

@[simp] theorem ite_keeps_pvs (c : Prop) [Decidable c] (a b : State) : (if c then a else b).pvs = if c then a.pvs else b.pvs := by
  split <;> rfl

@[simp] theorem foldl_keeps_fns {α : Type} (f : State → α → State) (h : ∀ s x, (f s x).fns = s.fns) (l : List α) (s : State) :
    (l.foldl f s).fns = s.fns := foldl_keep (fun s => s.fns) f h l s

@[simp] theorem ite_keeps_fns (c : Prop) [Decidable c] (a b : State) : (if c then a else b).fns = if c then a.fns else b.fns := by
  split <;> rfl

@[simp] theorem foldl_keeps_out {α : Type} (f : State → α → State) (h : ∀ s x, (f s x).out = s.out) (l : List α) (s : State) :
    (l.foldl f s).out = s.out := foldl_keep (fun s => s.out) f h l s

@[simp] theorem ite_keeps_out (c : Prop) [Decidable c] (a b : State) : (if c then a else b).out = if c then a.out else b.out := by
  split <;> rfl

@[simp] theorem foldl_keeps_free {α : Type} (f : State → α → State) (h : ∀ s x, (f s x).free = s.free) (l : List α) (s : State) :
    (l.foldl f s).free = s.free := foldl_keep (fun s => s.free) f h l s

@[simp] theorem ite_keeps_free (c : Prop) [Decidable c] (a b : State) : (if c then a else b).free = if c then a.free else b.free := by
  split <;> rfl

@[simp] theorem foldl_keeps_sun {α : Type} (f : State → α → State) (h : ∀ s x, (f s x).sun = s.sun) (l : List α) (s : State) :
    (l.foldl f s).sun = s.sun := foldl_keep (fun s => s.sun) f h l s

@[simp] theorem ite_keeps_sun (c : Prop) [Decidable c] (a b : State) : (if c then a else b).sun = if c then a.sun else b.sun := by
  split <;> rfl

@[simp] theorem foldl_keeps_die {α : Type} (f : State → α → State) (h : ∀ s x, (f s x).die = s.die) (l : List α) (s : State) :
    (l.foldl f s).die = s.die := foldl_keep (fun s => s.die) f h l s

@[simp] theorem ite_keeps_die (c : Prop) [Decidable c] (a b : State) : (if c then a else b).die = if c then a.die else b.die := by
  split <;> rfl

@[simp] theorem foldl_keeps_sun_ctr {α : Type} (f : State → α → State) (h : ∀ s x, (f s x).sun.ctr = s.sun.ctr) (l : List α) (s : State) :
    (l.foldl f s).sun.ctr = s.sun.ctr := foldl_keep (fun s => s.sun.ctr) f h l s

@[simp] theorem ite_keeps_sun_ctr (c : Prop) [Decidable c] (a b : State) : (if c then a else b).sun.ctr = if c then a.sun.ctr else b.sun.ctr := by
  split <;> rfl

@[simp] theorem foldl_keeps_sun_lags {α : Type} (f : State → α → State) (h : ∀ s x, (f s x).sun.lags = s.sun.lags) (l : List α) (s : State) :
    (l.foldl f s).sun.lags = s.sun.lags := foldl_keep (fun s => s.sun.lags) f h l s

@[simp] theorem ite_keeps_sun_lags (c : Prop) [Decidable c] (a b : State) : (if c then a else b).sun.lags = if c then a.sun.lags else b.sun.lags := by
  split <;> rfl

@[simp] theorem foldl_keeps_sun_tick {α : Type} (f : State → α → State) (h : ∀ s x, (f s x).sun.tick = s.sun.tick) (l : List α) (s : State) :
    (l.foldl f s).sun.tick = s.sun.tick := foldl_keep (fun s => s.sun.tick) f h l s

@[simp] theorem ite_keeps_sun_tick (c : Prop) [Decidable c] (a b : State) : (if c then a else b).sun.tick = if c then a.sun.tick else b.sun.tick := by
  split <;> rfl

@[simp] theorem foldl_keeps_sun_time {α : Type} (f : State → α → State) (h : ∀ s x, (f s x).sun.time = s.sun.time) (l : List α) (s : State) :
    (l.foldl f s).sun.time = s.sun.time := foldl_keep (fun s => s.sun.time) f h l s

@[simp] theorem ite_keeps_sun_time (c : Prop) [Decidable c] (a b : State) : (if c then a else b).sun.time = if c then a.sun.time else b.sun.time := by
  split <;> rfl

@[simp] theorem foldl_keeps_sun_holds {α : Type} (f : State → α → State) (h : ∀ s x, (f s x).sun.holds = s.sun.holds) (l : List α) (s : State) :
    (l.foldl f s).sun.holds = s.sun.holds := foldl_keep (fun s => s.sun.holds) f h l s

@[simp] theorem ite_keeps_sun_holds (c : Prop) [Decidable c] (a b : State) : (if c then a else b).sun.holds = if c then a.sun.holds else b.sun.holds := by
  split <;> rfl

@[simp] theorem foldl_keeps_sun_freeze {α : Type} (f : State → α → State) (h : ∀ s x, (f s x).sun.freeze = s.sun.freeze) (l : List α) (s : State) :
    (l.foldl f s).sun.freeze = s.sun.freeze := foldl_keep (fun s => s.sun.freeze) f h l s

@[simp] theorem ite_keeps_sun_freeze (c : Prop) [Decidable c] (a b : State) : (if c then a else b).sun.freeze = if c then a.sun.freeze else b.sun.freeze := by
  split <;> rfl

@[simp] theorem foldl_keeps_sun_stopped {α : Type} (f : State → α → State) (h : ∀ s x, (f s x).sun.stopped = s.sun.stopped) (l : List α) (s : State) :
    (l.foldl f s).sun.stopped = s.sun.stopped := foldl_keep (fun s => s.sun.stopped) f h l s

@[simp] theorem ite_keeps_sun_stopped (c : Prop) [Decidable c] (a b : State) : (if c then a else b).sun.stopped = if c then a.sun.stopped else b.sun.stopped := by
  split <;> rfl

@[simp] theorem foldl_keeps_die_hbm {α : Type} (f : State → α → State) (h : ∀ s x, (f s x).die.hbm = s.die.hbm) (l : List α) (s : State) :
    (l.foldl f s).die.hbm = s.die.hbm := foldl_keep (fun s => s.die.hbm) f h l s

@[simp] theorem ite_keeps_die_hbm (c : Prop) [Decidable c] (a b : State) : (if c then a else b).die.hbm = if c then a.die.hbm else b.die.hbm := by
  split <;> rfl

@[simp] theorem foldl_keeps_die_oyKey {α : Type} (f : State → α → State) (h : ∀ s x, (f s x).die.oyKey = s.die.oyKey) (l : List α) (s : State) :
    (l.foldl f s).die.oyKey = s.die.oyKey := foldl_keep (fun s => s.die.oyKey) f h l s

@[simp] theorem ite_keeps_die_oyKey (c : Prop) [Decidable c] (a b : State) : (if c then a else b).die.oyKey = if c then a.die.oyKey else b.die.oyKey := by
  split <;> rfl

@[simp] theorem foldl_keeps_die_slices {α : Type} (f : State → α → State) (h : ∀ s x, (f s x).die.slices = s.die.slices) (l : List α) (s : State) :
    (l.foldl f s).die.slices = s.die.slices := foldl_keep (fun s => s.die.slices) f h l s

@[simp] theorem ite_keeps_die_slices (c : Prop) [Decidable c] (a b : State) : (if c then a else b).die.slices = if c then a.die.slices else b.die.slices := by
  split <;> rfl

@[simp] theorem foldl_keeps_die_transfers {α : Type} (f : State → α → State) (h : ∀ s x, (f s x).die.transfers = s.die.transfers) (l : List α) (s : State) :
    (l.foldl f s).die.transfers = s.die.transfers := foldl_keep (fun s => s.die.transfers) f h l s

@[simp] theorem ite_keeps_die_transfers (c : Prop) [Decidable c] (a b : State) : (if c then a else b).die.transfers = if c then a.die.transfers else b.die.transfers := by
  split <;> rfl

@[simp] theorem foldl_keeps_die_commit {α : Type} (f : State → α → State) (h : ∀ s x, (f s x).die.commit = s.die.commit) (l : List α) (s : State) :
    (l.foldl f s).die.commit = s.die.commit := foldl_keep (fun s => s.die.commit) f h l s

@[simp] theorem ite_keeps_die_commit (c : Prop) [Decidable c] (a b : State) : (if c then a else b).die.commit = if c then a.die.commit else b.die.commit := by
  split <;> rfl

@[simp] theorem foldl_keeps_die_barriers {α : Type} (f : State → α → State) (h : ∀ s x, (f s x).die.barriers = s.die.barriers) (l : List α) (s : State) :
    (l.foldl f s).die.barriers = s.die.barriers := foldl_keep (fun s => s.die.barriers) f h l s

@[simp] theorem ite_keeps_die_barriers (c : Prop) [Decidable c] (a b : State) : (if c then a else b).die.barriers = if c then a.die.barriers else b.die.barriers := by
  split <;> rfl

@[simp] theorem foldl_keeps_die_windows {α : Type} (f : State → α → State) (h : ∀ s x, (f s x).die.windows = s.die.windows) (l : List α) (s : State) :
    (l.foldl f s).die.windows = s.die.windows := foldl_keep (fun s => s.die.windows) f h l s

@[simp] theorem ite_keeps_die_windows (c : Prop) [Decidable c] (a b : State) : (if c then a else b).die.windows = if c then a.die.windows else b.die.windows := by
  split <;> rfl

@[simp] theorem foldl_keeps_die_ctls {α : Type} (f : State → α → State) (h : ∀ s x, (f s x).die.ctls = s.die.ctls) (l : List α) (s : State) :
    (l.foldl f s).die.ctls = s.die.ctls := foldl_keep (fun s => s.die.ctls) f h l s

@[simp] theorem ite_keeps_die_ctls (c : Prop) [Decidable c] (a b : State) : (if c then a else b).die.ctls = if c then a.die.ctls else b.die.ctls := by
  split <;> rfl

@[simp] theorem foldl_keeps_die_ports {α : Type} (f : State → α → State) (h : ∀ s x, (f s x).die.ports = s.die.ports) (l : List α) (s : State) :
    (l.foldl f s).die.ports = s.die.ports := foldl_keep (fun s => s.die.ports) f h l s

@[simp] theorem ite_keeps_die_ports (c : Prop) [Decidable c] (a b : State) : (if c then a else b).die.ports = if c then a.die.ports else b.die.ports := by
  split <;> rfl

@[simp] theorem foldl_keeps_die_lodges {α : Type} (f : State → α → State) (h : ∀ s x, (f s x).die.lodges = s.die.lodges) (l : List α) (s : State) :
    (l.foldl f s).die.lodges = s.die.lodges := foldl_keep (fun s => s.die.lodges) f h l s

@[simp] theorem ite_keeps_die_lodges (c : Prop) [Decidable c] (a b : State) : (if c then a else b).die.lodges = if c then a.die.lodges else b.die.lodges := by
  split <;> rfl

@[simp] theorem foldl_keeps_die_band {α : Type} (f : State → α → State) (h : ∀ s x, (f s x).die.band = s.die.band) (l : List α) (s : State) :
    (l.foldl f s).die.band = s.die.band := foldl_keep (fun s => s.die.band) f h l s

@[simp] theorem ite_keeps_die_band (c : Prop) [Decidable c] (a b : State) : (if c then a else b).die.band = if c then a.die.band else b.die.band := by
  split <;> rfl

@[simp] theorem foldl_keeps_die_reports {α : Type} (f : State → α → State) (h : ∀ s x, (f s x).die.reports = s.die.reports) (l : List α) (s : State) :
    (l.foldl f s).die.reports = s.die.reports := foldl_keep (fun s => s.die.reports) f h l s

@[simp] theorem ite_keeps_die_reports (c : Prop) [Decidable c] (a b : State) : (if c then a else b).die.reports = if c then a.die.reports else b.die.reports := by
  split <;> rfl

@[simp] theorem foldl_keeps_die_atTick {α : Type} (f : State → α → State) (h : ∀ s x, (f s x).die.atTick = s.die.atTick) (l : List α) (s : State) :
    (l.foldl f s).die.atTick = s.die.atTick := foldl_keep (fun s => s.die.atTick) f h l s

@[simp] theorem ite_keeps_die_atTick (c : Prop) [Decidable c] (a b : State) : (if c then a else b).die.atTick = if c then a.die.atTick else b.die.atTick := by
  split <;> rfl

@[simp] theorem alignKept_keeps (s : State) :
    (alignKept s).pending = s.pending ∧ (alignKept s).gate = s.gate ∧ (alignKept s).mod = s.mod ∧ (alignKept s).rows = s.rows
      ∧ (alignKept s).dumps = s.dumps ∧ (alignKept s).shed = s.shed ∧ (alignKept s).replay = s.replay ∧ (alignKept s).reg = s.reg
      ∧ (alignKept s).just = s.just ∧ (alignKept s).tiles = s.tiles ∧ (alignKept s).pvs = s.pvs ∧ (alignKept s).fns = s.fns
      ∧ (alignKept s).out = s.out ∧ (alignKept s).free = s.free ∧ (alignKept s).die = s.die ∧ (alignKept s).sun.ctr = s.sun.ctr
      ∧ (alignKept s).sun.lags = s.sun.lags ∧ (alignKept s).sun.tick = s.sun.tick ∧ (alignKept s).sun.time = s.sun.time
      ∧ (alignKept s).sun.holds = s.sun.holds ∧ (alignKept s).sun.freeze = s.sun.freeze ∧ (alignKept s).sun.stopped = s.sun.stopped := by
  unfold alignKept; simp

@[simp] theorem linkUndone_keeps (s : State) (x : Nat × W64) :
    (linkUndone s x).pending = s.pending ∧ (linkUndone s x).gate = s.gate ∧ (linkUndone s x).mod = s.mod ∧ (linkUndone s x).rows = s.rows
      ∧ (linkUndone s x).dumps = s.dumps ∧ (linkUndone s x).shed = s.shed ∧ (linkUndone s x).replay = s.replay ∧ (linkUndone s x).just = s.just
      ∧ (linkUndone s x).tiles = s.tiles ∧ (linkUndone s x).pvs = s.pvs ∧ (linkUndone s x).fns = s.fns ∧ (linkUndone s x).out = s.out
      ∧ (linkUndone s x).free = s.free ∧ (linkUndone s x).sun = s.sun ∧ (linkUndone s x).die = s.die := by
  unfold linkUndone; split <;> simp

@[simp] theorem alignUndone_keeps (s : State) :
    (alignUndone s).pending = s.pending ∧ (alignUndone s).gate = s.gate ∧ (alignUndone s).mod = s.mod ∧ (alignUndone s).rows = s.rows
      ∧ (alignUndone s).dumps = s.dumps ∧ (alignUndone s).shed = s.shed ∧ (alignUndone s).replay = s.replay ∧ (alignUndone s).just = s.just
      ∧ (alignUndone s).tiles = s.tiles ∧ (alignUndone s).pvs = s.pvs ∧ (alignUndone s).fns = s.fns ∧ (alignUndone s).out = s.out
      ∧ (alignUndone s).free = s.free ∧ (alignUndone s).die = s.die ∧ (alignUndone s).sun.ctr = s.sun.ctr ∧ (alignUndone s).sun.lags = s.sun.lags
      ∧ (alignUndone s).sun.tick = s.sun.tick ∧ (alignUndone s).sun.time = s.sun.time ∧ (alignUndone s).sun.holds = s.sun.holds
      ∧ (alignUndone s).sun.freeze = s.sun.freeze ∧ (alignUndone s).sun.stopped = s.sun.stopped := by
  unfold alignUndone; simp

@[simp] theorem raiseFault_keeps (s : State) (p kind counter stream addr : Nat) :
    (raiseFault s p kind counter stream addr).pending = s.pending ∧ (raiseFault s p kind counter stream addr).gate = s.gate
      ∧ (raiseFault s p kind counter stream addr).mod = s.mod ∧ (raiseFault s p kind counter stream addr).rows = s.rows
      ∧ (raiseFault s p kind counter stream addr).dumps = s.dumps ∧ (raiseFault s p kind counter stream addr).shed = s.shed
      ∧ (raiseFault s p kind counter stream addr).replay = s.replay ∧ (raiseFault s p kind counter stream addr).reg = s.reg
      ∧ (raiseFault s p kind counter stream addr).just = s.just ∧ (raiseFault s p kind counter stream addr).pvs = s.pvs
      ∧ (raiseFault s p kind counter stream addr).fns = s.fns ∧ (raiseFault s p kind counter stream addr).out = s.out
      ∧ (raiseFault s p kind counter stream addr).free = s.free ∧ (raiseFault s p kind counter stream addr).sun = s.sun
      ∧ (raiseFault s p kind counter stream addr).die.hbm = s.die.hbm ∧ (raiseFault s p kind counter stream addr).die.oyKey = s.die.oyKey
      ∧ (raiseFault s p kind counter stream addr).die.slices = s.die.slices
      ∧ (raiseFault s p kind counter stream addr).die.transfers = s.die.transfers
      ∧ (raiseFault s p kind counter stream addr).die.commit = s.die.commit
      ∧ (raiseFault s p kind counter stream addr).die.barriers = s.die.barriers
      ∧ (raiseFault s p kind counter stream addr).die.windows = s.die.windows ∧ (raiseFault s p kind counter stream addr).die.ctls = s.die.ctls
      ∧ (raiseFault s p kind counter stream addr).die.ports = s.die.ports ∧ (raiseFault s p kind counter stream addr).die.lodges = s.die.lodges
      ∧ (raiseFault s p kind counter stream addr).die.band = s.die.band ∧ (raiseFault s p kind counter stream addr).die.atTick = s.die.atTick := by
  unfold raiseFault; first | (simp; done) | ((try dsimp only); (repeat' split) <;> simp; done) | (refine ⟨?_, ?_, ?_, ?_, ?_, ?_, ?_, ?_, ?_, ?_, ?_, ?_, ?_, ?_, ?_, ?_, ?_, ?_, ?_, ?_, ?_, ?_, ?_, ?_, ?_, ?_⟩ <;> first | (simp; done) | ((try dsimp only); (repeat' split) <;> simp; done))

@[simp] theorem report_keeps (s : State) (p kind : Nat) :
    (report s p kind).pending = s.pending ∧ (report s p kind).gate = s.gate ∧ (report s p kind).mod = s.mod ∧ (report s p kind).rows = s.rows
      ∧ (report s p kind).dumps = s.dumps ∧ (report s p kind).shed = s.shed ∧ (report s p kind).replay = s.replay ∧ (report s p kind).reg = s.reg
      ∧ (report s p kind).just = s.just ∧ (report s p kind).tiles = s.tiles ∧ (report s p kind).pvs = s.pvs ∧ (report s p kind).fns = s.fns
      ∧ (report s p kind).out = s.out ∧ (report s p kind).free = s.free ∧ (report s p kind).sun = s.sun ∧ (report s p kind).die.hbm = s.die.hbm
      ∧ (report s p kind).die.oyKey = s.die.oyKey ∧ (report s p kind).die.slices = s.die.slices
      ∧ (report s p kind).die.transfers = s.die.transfers ∧ (report s p kind).die.commit = s.die.commit
      ∧ (report s p kind).die.barriers = s.die.barriers ∧ (report s p kind).die.windows = s.die.windows ∧ (report s p kind).die.ctls = s.die.ctls
      ∧ (report s p kind).die.ports = s.die.ports ∧ (report s p kind).die.lodges = s.die.lodges ∧ (report s p kind).die.band = s.die.band
      ∧ (report s p kind).die.atTick = s.die.atTick := by
  unfold report; first | (simp; done) | ((try dsimp only); (repeat' split) <;> simp; done) | (refine ⟨?_, ?_, ?_, ?_, ?_, ?_, ?_, ?_, ?_, ?_, ?_, ?_, ?_, ?_, ?_, ?_, ?_, ?_, ?_, ?_, ?_, ?_, ?_, ?_, ?_, ?_, ?_⟩ <;> first | (simp; done) | ((try dsimp only); (repeat' split) <;> simp; done))

@[simp] theorem tcAdd_keeps (s : State) (p n inc stream addr : Nat) :
    (tcAdd s p n inc stream addr).pending = s.pending ∧ (tcAdd s p n inc stream addr).gate = s.gate ∧ (tcAdd s p n inc stream addr).mod = s.mod
      ∧ (tcAdd s p n inc stream addr).rows = s.rows ∧ (tcAdd s p n inc stream addr).dumps = s.dumps ∧ (tcAdd s p n inc stream addr).shed = s.shed
      ∧ (tcAdd s p n inc stream addr).replay = s.replay ∧ (tcAdd s p n inc stream addr).reg = s.reg ∧ (tcAdd s p n inc stream addr).just = s.just
      ∧ (tcAdd s p n inc stream addr).pvs = s.pvs ∧ (tcAdd s p n inc stream addr).fns = s.fns ∧ (tcAdd s p n inc stream addr).out = s.out
      ∧ (tcAdd s p n inc stream addr).free = s.free ∧ (tcAdd s p n inc stream addr).sun = s.sun
      ∧ (tcAdd s p n inc stream addr).die.hbm = s.die.hbm ∧ (tcAdd s p n inc stream addr).die.oyKey = s.die.oyKey
      ∧ (tcAdd s p n inc stream addr).die.slices = s.die.slices ∧ (tcAdd s p n inc stream addr).die.transfers = s.die.transfers
      ∧ (tcAdd s p n inc stream addr).die.commit = s.die.commit ∧ (tcAdd s p n inc stream addr).die.barriers = s.die.barriers
      ∧ (tcAdd s p n inc stream addr).die.windows = s.die.windows ∧ (tcAdd s p n inc stream addr).die.ctls = s.die.ctls
      ∧ (tcAdd s p n inc stream addr).die.ports = s.die.ports ∧ (tcAdd s p n inc stream addr).die.lodges = s.die.lodges
      ∧ (tcAdd s p n inc stream addr).die.band = s.die.band ∧ (tcAdd s p n inc stream addr).die.atTick = s.die.atTick := by
  unfold tcAdd; first | (simp; done) | ((try dsimp only); (repeat' split) <;> simp; done) | (refine ⟨?_, ?_, ?_, ?_, ?_, ?_, ?_, ?_, ?_, ?_, ?_, ?_, ?_, ?_, ?_, ?_, ?_, ?_, ?_, ?_, ?_, ?_, ?_, ?_, ?_, ?_⟩ <;> first | (simp; done) | ((try dsimp only); (repeat' split) <;> simp; done))

@[simp] theorem tcAddField_keeps (s : State) (p field inc stream addr : Nat) :
    (tcAddField s p field inc stream addr).pending = s.pending ∧ (tcAddField s p field inc stream addr).gate = s.gate
      ∧ (tcAddField s p field inc stream addr).mod = s.mod ∧ (tcAddField s p field inc stream addr).rows = s.rows
      ∧ (tcAddField s p field inc stream addr).dumps = s.dumps ∧ (tcAddField s p field inc stream addr).shed = s.shed
      ∧ (tcAddField s p field inc stream addr).replay = s.replay ∧ (tcAddField s p field inc stream addr).reg = s.reg
      ∧ (tcAddField s p field inc stream addr).just = s.just ∧ (tcAddField s p field inc stream addr).pvs = s.pvs
      ∧ (tcAddField s p field inc stream addr).fns = s.fns ∧ (tcAddField s p field inc stream addr).out = s.out
      ∧ (tcAddField s p field inc stream addr).free = s.free ∧ (tcAddField s p field inc stream addr).sun = s.sun
      ∧ (tcAddField s p field inc stream addr).die.hbm = s.die.hbm ∧ (tcAddField s p field inc stream addr).die.oyKey = s.die.oyKey
      ∧ (tcAddField s p field inc stream addr).die.slices = s.die.slices ∧ (tcAddField s p field inc stream addr).die.transfers = s.die.transfers
      ∧ (tcAddField s p field inc stream addr).die.commit = s.die.commit ∧ (tcAddField s p field inc stream addr).die.barriers = s.die.barriers
      ∧ (tcAddField s p field inc stream addr).die.windows = s.die.windows ∧ (tcAddField s p field inc stream addr).die.ctls = s.die.ctls
      ∧ (tcAddField s p field inc stream addr).die.ports = s.die.ports ∧ (tcAddField s p field inc stream addr).die.lodges = s.die.lodges
      ∧ (tcAddField s p field inc stream addr).die.band = s.die.band ∧ (tcAddField s p field inc stream addr).die.atTick = s.die.atTick := by
  unfold tcAddField; first | (simp; done) | ((try dsimp only); (repeat' split) <;> simp; done) | (refine ⟨?_, ?_, ?_, ?_, ?_, ?_, ?_, ?_, ?_, ?_, ?_, ?_, ?_, ?_, ?_, ?_, ?_, ?_, ?_, ?_, ?_, ?_, ?_, ?_, ?_, ?_⟩ <;> first | (simp; done) | ((try dsimp only); (repeat' split) <;> simp; done))

@[simp] theorem raiseVec_keeps (s : State) (n v : Nat) :
    (raiseVec s n v).pending = s.pending ∧ (raiseVec s n v).gate = s.gate ∧ (raiseVec s n v).mod = s.mod ∧ (raiseVec s n v).rows = s.rows
      ∧ (raiseVec s n v).dumps = s.dumps ∧ (raiseVec s n v).shed = s.shed ∧ (raiseVec s n v).replay = s.replay ∧ (raiseVec s n v).reg = s.reg
      ∧ (raiseVec s n v).just = s.just ∧ (raiseVec s n v).tiles = s.tiles ∧ (raiseVec s n v).pvs = s.pvs ∧ (raiseVec s n v).free = s.free
      ∧ (raiseVec s n v).sun = s.sun ∧ (raiseVec s n v).die = s.die := by
  unfold raiseVec; first | (simp; done) | ((try dsimp only); (repeat' split) <;> simp; done) | (refine ⟨?_, ?_, ?_, ?_, ?_, ?_, ?_, ?_, ?_, ?_, ?_, ?_, ?_, ?_⟩ <;> first | (simp; done) | ((try dsimp only); (repeat' split) <;> simp; done))

@[simp] theorem setEvent_keeps (s : State) (n b : Nat) :
    (setEvent s n b).pending = s.pending ∧ (setEvent s n b).gate = s.gate ∧ (setEvent s n b).mod = s.mod ∧ (setEvent s n b).rows = s.rows
      ∧ (setEvent s n b).dumps = s.dumps ∧ (setEvent s n b).shed = s.shed ∧ (setEvent s n b).replay = s.replay ∧ (setEvent s n b).reg = s.reg
      ∧ (setEvent s n b).just = s.just ∧ (setEvent s n b).tiles = s.tiles ∧ (setEvent s n b).pvs = s.pvs ∧ (setEvent s n b).free = s.free
      ∧ (setEvent s n b).sun = s.sun ∧ (setEvent s n b).die = s.die := by
  unfold setEvent; first | (simp; done) | ((try dsimp only); (repeat' split) <;> simp; done) | (refine ⟨?_, ?_, ?_, ?_, ?_, ?_, ?_, ?_, ?_, ?_, ?_, ?_, ?_, ?_⟩ <;> first | (simp; done) | ((try dsimp only); (repeat' split) <;> simp; done))

@[simp] theorem pvEvent_keeps (s : State) (q b : Nat) :
    (pvEvent s q b).pending = s.pending ∧ (pvEvent s q b).gate = s.gate ∧ (pvEvent s q b).mod = s.mod ∧ (pvEvent s q b).rows = s.rows
      ∧ (pvEvent s q b).dumps = s.dumps ∧ (pvEvent s q b).shed = s.shed ∧ (pvEvent s q b).replay = s.replay ∧ (pvEvent s q b).reg = s.reg
      ∧ (pvEvent s q b).just = s.just ∧ (pvEvent s q b).tiles = s.tiles ∧ (pvEvent s q b).pvs = s.pvs ∧ (pvEvent s q b).free = s.free
      ∧ (pvEvent s q b).sun = s.sun ∧ (pvEvent s q b).die = s.die := by
  unfold pvEvent; first | (simp; done) | ((try dsimp only); (repeat' split) <;> simp; done) | (refine ⟨?_, ?_, ?_, ?_, ?_, ?_, ?_, ?_, ?_, ?_, ?_, ?_, ?_, ?_⟩ <;> first | (simp; done) | ((try dsimp only); (repeat' split) <;> simp; done))

@[simp] theorem ringEvent_keeps (s : State) (q b : Nat) :
    (ringEvent s q b).pending = s.pending ∧ (ringEvent s q b).gate = s.gate ∧ (ringEvent s q b).mod = s.mod ∧ (ringEvent s q b).rows = s.rows
      ∧ (ringEvent s q b).dumps = s.dumps ∧ (ringEvent s q b).shed = s.shed ∧ (ringEvent s q b).replay = s.replay ∧ (ringEvent s q b).reg = s.reg
      ∧ (ringEvent s q b).just = s.just ∧ (ringEvent s q b).tiles = s.tiles ∧ (ringEvent s q b).pvs = s.pvs ∧ (ringEvent s q b).free = s.free
      ∧ (ringEvent s q b).sun = s.sun ∧ (ringEvent s q b).die = s.die := by
  unfold ringEvent; first | (simp; done) | ((try dsimp only); (repeat' split) <;> simp; done) | (refine ⟨?_, ?_, ?_, ?_, ?_, ?_, ?_, ?_, ?_, ?_, ?_, ?_, ?_, ?_⟩ <;> first | (simp; done) | ((try dsimp only); (repeat' split) <;> simp; done))

@[simp] theorem endAsync_keeps (s : State) (n ticket status detail value : Nat) :
    (endAsync s n ticket status detail value).pending = s.pending ∧ (endAsync s n ticket status detail value).gate = s.gate
      ∧ (endAsync s n ticket status detail value).mod = s.mod ∧ (endAsync s n ticket status detail value).rows = s.rows
      ∧ (endAsync s n ticket status detail value).dumps = s.dumps ∧ (endAsync s n ticket status detail value).shed = s.shed
      ∧ (endAsync s n ticket status detail value).replay = s.replay ∧ (endAsync s n ticket status detail value).reg = s.reg
      ∧ (endAsync s n ticket status detail value).just = s.just ∧ (endAsync s n ticket status detail value).tiles = s.tiles
      ∧ (endAsync s n ticket status detail value).pvs = s.pvs ∧ (endAsync s n ticket status detail value).free = s.free
      ∧ (endAsync s n ticket status detail value).sun = s.sun ∧ (endAsync s n ticket status detail value).die = s.die := by
  unfold endAsync; first | (simp; done) | ((try dsimp only); (repeat' split) <;> simp; done) | (refine ⟨?_, ?_, ?_, ?_, ?_, ?_, ?_, ?_, ?_, ?_, ?_, ?_, ?_, ?_⟩ <;> first | (simp; done) | ((try dsimp only); (repeat' split) <;> simp; done))

@[simp] theorem setAlert_keeps (s : State) (b : Nat) :
    (setAlert s b).pending = s.pending ∧ (setAlert s b).gate = s.gate ∧ (setAlert s b).rows = s.rows ∧ (setAlert s b).dumps = s.dumps
      ∧ (setAlert s b).shed = s.shed ∧ (setAlert s b).replay = s.replay ∧ (setAlert s b).reg = s.reg ∧ (setAlert s b).just = s.just
      ∧ (setAlert s b).tiles = s.tiles ∧ (setAlert s b).pvs = s.pvs ∧ (setAlert s b).fns = s.fns ∧ (setAlert s b).out = s.out
      ∧ (setAlert s b).free = s.free ∧ (setAlert s b).sun = s.sun ∧ (setAlert s b).die = s.die := by
  unfold setAlert; first | (simp; done) | ((try dsimp only); (repeat' split) <;> simp; done) | (refine ⟨?_, ?_, ?_, ?_, ?_, ?_, ?_, ?_, ?_, ?_, ?_, ?_, ?_, ?_, ?_⟩ <;> first | (simp; done) | ((try dsimp only); (repeat' split) <;> simp; done))

@[simp] theorem enterState_keeps (s : State) (q st : Nat) :
    (enterState s q st).pending = s.pending ∧ (enterState s q st).gate = s.gate ∧ (enterState s q st).mod = s.mod
      ∧ (enterState s q st).rows = s.rows ∧ (enterState s q st).dumps = s.dumps ∧ (enterState s q st).shed = s.shed
      ∧ (enterState s q st).replay = s.replay ∧ (enterState s q st).reg = s.reg ∧ (enterState s q st).just = s.just
      ∧ (enterState s q st).tiles = s.tiles ∧ (enterState s q st).free = s.free ∧ (enterState s q st).sun = s.sun
      ∧ (enterState s q st).die = s.die := by
  unfold enterState; first | (simp; done) | ((try dsimp only); (repeat' split) <;> simp; done) | (refine ⟨?_, ?_, ?_, ?_, ?_, ?_, ?_, ?_, ?_, ?_, ?_, ?_, ?_⟩ <;> first | (simp; done) | ((try dsimp only); (repeat' split) <;> simp; done))

@[simp] theorem shedBegin_keeps (s : State) :
    (shedBegin s).pending = s.pending ∧ (shedBegin s).gate = s.gate ∧ (shedBegin s).mod = s.mod ∧ (shedBegin s).rows = s.rows
      ∧ (shedBegin s).dumps = s.dumps ∧ (shedBegin s).replay = s.replay ∧ (shedBegin s).reg = s.reg ∧ (shedBegin s).just = s.just
      ∧ (shedBegin s).tiles = s.tiles ∧ (shedBegin s).pvs = s.pvs ∧ (shedBegin s).fns = s.fns ∧ (shedBegin s).out = s.out
      ∧ (shedBegin s).free = s.free ∧ (shedBegin s).sun = s.sun ∧ (shedBegin s).die = s.die := by
  unfold shedBegin; first | (simp; done) | ((try dsimp only); (repeat' split) <;> simp; done) | (refine ⟨?_, ?_, ?_, ?_, ?_, ?_, ?_, ?_, ?_, ?_, ?_, ?_, ?_, ?_, ?_⟩ <;> first | (simp; done) | ((try dsimp only); (repeat' split) <;> simp; done))

@[simp] theorem shedPut_keeps (s : State) (n : Nat) (v : W64) (fn : Option Nat) :
    (shedPut s n v fn).pending = s.pending ∧ (shedPut s n v fn).gate = s.gate ∧ (shedPut s n v fn).mod = s.mod ∧ (shedPut s n v fn).rows = s.rows
      ∧ (shedPut s n v fn).dumps = s.dumps ∧ (shedPut s n v fn).replay = s.replay ∧ (shedPut s n v fn).tiles = s.tiles
      ∧ (shedPut s n v fn).pvs = s.pvs ∧ (shedPut s n v fn).fns = s.fns ∧ (shedPut s n v fn).out = s.out ∧ (shedPut s n v fn).free = s.free
      ∧ (shedPut s n v fn).sun = s.sun ∧ (shedPut s n v fn).die = s.die := by
  unfold shedPut; first | (simp; done) | ((try dsimp only); (repeat' split) <;> simp; done) | (refine ⟨?_, ?_, ?_, ?_, ?_, ?_, ?_, ?_, ?_, ?_, ?_, ?_, ?_⟩ <;> first | (simp; done) | ((try dsimp only); (repeat' split) <;> simp; done))

@[simp] theorem shedDone_keeps (s : State) :
    (shedDone s).pending = s.pending ∧ (shedDone s).gate = s.gate ∧ (shedDone s).mod = s.mod ∧ (shedDone s).rows = s.rows
      ∧ (shedDone s).dumps = s.dumps ∧ (shedDone s).replay = s.replay ∧ (shedDone s).reg = s.reg ∧ (shedDone s).just = s.just
      ∧ (shedDone s).tiles = s.tiles ∧ (shedDone s).pvs = s.pvs ∧ (shedDone s).fns = s.fns ∧ (shedDone s).out = s.out
      ∧ (shedDone s).free = s.free ∧ (shedDone s).sun = s.sun ∧ (shedDone s).die = s.die := by
  unfold shedDone; first | (simp; done) | ((try dsimp only); (repeat' split) <;> simp; done) | (refine ⟨?_, ?_, ?_, ?_, ?_, ?_, ?_, ?_, ?_, ?_, ?_, ?_, ?_, ?_, ?_⟩ <;> first | (simp; done) | ((try dsimp only); (repeat' split) <;> simp; done))

@[simp] theorem lifeEvent_keeps (s : State) (c n : Nat) :
    (lifeEvent s c n).pending = s.pending ∧ (lifeEvent s c n).gate = s.gate ∧ (lifeEvent s c n).mod = s.mod ∧ (lifeEvent s c n).rows = s.rows
      ∧ (lifeEvent s c n).dumps = s.dumps ∧ (lifeEvent s c n).replay = s.replay ∧ (lifeEvent s c n).reg = s.reg ∧ (lifeEvent s c n).just = s.just
      ∧ (lifeEvent s c n).tiles = s.tiles ∧ (lifeEvent s c n).pvs = s.pvs ∧ (lifeEvent s c n).fns = s.fns ∧ (lifeEvent s c n).out = s.out
      ∧ (lifeEvent s c n).free = s.free ∧ (lifeEvent s c n).sun = s.sun ∧ (lifeEvent s c n).die = s.die := by
  unfold lifeEvent; first | (simp; done) | ((try dsimp only); (repeat' split) <;> simp; done) | (refine ⟨?_, ?_, ?_, ?_, ?_, ?_, ?_, ?_, ?_, ?_, ?_, ?_, ?_, ?_, ?_⟩ <;> first | (simp; done) | ((try dsimp only); (repeat' split) <;> simp; done))

@[simp] theorem lifeWrite_keeps (s : State) (c add : Nat) :
    (lifeWrite s c add).pending = s.pending ∧ (lifeWrite s c add).gate = s.gate ∧ (lifeWrite s c add).mod = s.mod
      ∧ (lifeWrite s c add).rows = s.rows ∧ (lifeWrite s c add).dumps = s.dumps ∧ (lifeWrite s c add).replay = s.replay
      ∧ (lifeWrite s c add).tiles = s.tiles ∧ (lifeWrite s c add).pvs = s.pvs ∧ (lifeWrite s c add).fns = s.fns ∧ (lifeWrite s c add).out = s.out
      ∧ (lifeWrite s c add).free = s.free ∧ (lifeWrite s c add).sun = s.sun ∧ (lifeWrite s c add).die = s.die := by
  unfold lifeWrite; first | (simp; done) | ((try dsimp only); (repeat' split) <;> simp; done) | (refine ⟨?_, ?_, ?_, ?_, ?_, ?_, ?_, ?_, ?_, ?_, ?_, ?_, ?_⟩ <;> first | (simp; done) | ((try dsimp only); (repeat' split) <;> simp; done))

@[simp] theorem summary_keeps (s : State) (kind place column : Nat) :
    (summary s kind place column).pending = s.pending ∧ (summary s kind place column).gate = s.gate ∧ (summary s kind place column).mod = s.mod
      ∧ (summary s kind place column).rows = s.rows ∧ (summary s kind place column).dumps = s.dumps
      ∧ (summary s kind place column).replay = s.replay ∧ (summary s kind place column).tiles = s.tiles
      ∧ (summary s kind place column).pvs = s.pvs ∧ (summary s kind place column).fns = s.fns ∧ (summary s kind place column).out = s.out
      ∧ (summary s kind place column).free = s.free ∧ (summary s kind place column).sun = s.sun ∧ (summary s kind place column).die = s.die := by
  unfold summary; first | (simp; done) | ((try dsimp only); (repeat' split) <;> simp; done) | (refine ⟨?_, ?_, ?_, ?_, ?_, ?_, ?_, ?_, ?_, ?_, ?_, ?_, ?_⟩ <;> first | (simp; done) | ((try dsimp only); (repeat' split) <;> simp; done))

@[simp] theorem shedUe_keeps (s : State) (n : Nat) :
    (shedUe s n).pending = s.pending ∧ (shedUe s n).gate = s.gate ∧ (shedUe s n).mod = s.mod ∧ (shedUe s n).rows = s.rows
      ∧ (shedUe s n).dumps = s.dumps ∧ (shedUe s n).replay = s.replay ∧ (shedUe s n).tiles = s.tiles ∧ (shedUe s n).pvs = s.pvs
      ∧ (shedUe s n).fns = s.fns ∧ (shedUe s n).out = s.out ∧ (shedUe s n).free = s.free ∧ (shedUe s n).sun = s.sun ∧ (shedUe s n).die = s.die := by
  unfold shedUe; first | (simp; done) | ((try dsimp only); (repeat' split) <;> simp; done) | (refine ⟨?_, ?_, ?_, ?_, ?_, ?_, ?_, ?_, ?_, ?_, ?_, ?_, ?_⟩ <;> first | (simp; done) | ((try dsimp only); (repeat' split) <;> simp; done))

@[simp] theorem shedReset_keeps (s : State) :
    (shedReset s).pending = s.pending ∧ (shedReset s).gate = s.gate ∧ (shedReset s).mod = s.mod ∧ (shedReset s).rows = s.rows
      ∧ (shedReset s).dumps = s.dumps ∧ (shedReset s).replay = s.replay ∧ (shedReset s).reg = s.reg ∧ (shedReset s).just = s.just
      ∧ (shedReset s).tiles = s.tiles ∧ (shedReset s).pvs = s.pvs ∧ (shedReset s).fns = s.fns ∧ (shedReset s).out = s.out
      ∧ (shedReset s).free = s.free ∧ (shedReset s).sun = s.sun ∧ (shedReset s).die = s.die := by
  unfold shedReset; first | (simp; done) | ((try dsimp only); (repeat' split) <;> simp; done) | (refine ⟨?_, ?_, ?_, ?_, ?_, ?_, ?_, ?_, ?_, ?_, ?_, ?_, ?_, ?_, ?_⟩ <;> first | (simp; done) | ((try dsimp only); (repeat' split) <;> simp; done))

@[simp] theorem ctlNumbered_keeps (s : State) (type : Nat) :
    (ctlNumbered s type).pending = s.pending ∧ (ctlNumbered s type).gate = s.gate ∧ (ctlNumbered s type).mod = s.mod
      ∧ (ctlNumbered s type).rows = s.rows ∧ (ctlNumbered s type).dumps = s.dumps ∧ (ctlNumbered s type).shed = s.shed
      ∧ (ctlNumbered s type).replay = s.replay ∧ (ctlNumbered s type).reg = s.reg ∧ (ctlNumbered s type).just = s.just
      ∧ (ctlNumbered s type).tiles = s.tiles ∧ (ctlNumbered s type).pvs = s.pvs ∧ (ctlNumbered s type).fns = s.fns
      ∧ (ctlNumbered s type).out = s.out ∧ (ctlNumbered s type).free = s.free ∧ (ctlNumbered s type).sun = s.sun
      ∧ (ctlNumbered s type).die.hbm = s.die.hbm ∧ (ctlNumbered s type).die.oyKey = s.die.oyKey ∧ (ctlNumbered s type).die.slices = s.die.slices
      ∧ (ctlNumbered s type).die.transfers = s.die.transfers ∧ (ctlNumbered s type).die.commit = s.die.commit
      ∧ (ctlNumbered s type).die.barriers = s.die.barriers ∧ (ctlNumbered s type).die.windows = s.die.windows
      ∧ (ctlNumbered s type).die.ctls = s.die.ctls ∧ (ctlNumbered s type).die.ports = s.die.ports
      ∧ (ctlNumbered s type).die.lodges = s.die.lodges ∧ (ctlNumbered s type).die.band = s.die.band
      ∧ (ctlNumbered s type).die.reports = s.die.reports ∧ (ctlNumbered s type).die.atTick = s.die.atTick := by
  unfold ctlNumbered; first | (simp; done) | ((try dsimp only); (repeat' split) <;> simp; done) | (refine ⟨?_, ?_, ?_, ?_, ?_, ?_, ?_, ?_, ?_, ?_, ?_, ?_, ?_, ?_, ?_, ?_, ?_, ?_, ?_, ?_, ?_, ?_, ?_, ?_, ?_, ?_, ?_, ?_⟩ <;> first | (simp; done) | ((try dsimp only); (repeat' split) <;> simp; done))

@[simp] theorem State.sendHp_keeps (s : State) (m : Out) :
    (State.sendHp s m).pending = s.pending ∧ (State.sendHp s m).gate = s.gate ∧ (State.sendHp s m).mod = s.mod ∧ (State.sendHp s m).rows = s.rows
      ∧ (State.sendHp s m).dumps = s.dumps ∧ (State.sendHp s m).shed = s.shed ∧ (State.sendHp s m).replay = s.replay
      ∧ (State.sendHp s m).reg = s.reg ∧ (State.sendHp s m).just = s.just ∧ (State.sendHp s m).tiles = s.tiles ∧ (State.sendHp s m).pvs = s.pvs
      ∧ (State.sendHp s m).fns = s.fns ∧ (State.sendHp s m).free = s.free ∧ (State.sendHp s m).sun = s.sun
      ∧ (State.sendHp s m).die.hbm = s.die.hbm ∧ (State.sendHp s m).die.oyKey = s.die.oyKey ∧ (State.sendHp s m).die.slices = s.die.slices
      ∧ (State.sendHp s m).die.transfers = s.die.transfers ∧ (State.sendHp s m).die.commit = s.die.commit
      ∧ (State.sendHp s m).die.barriers = s.die.barriers ∧ (State.sendHp s m).die.windows = s.die.windows
      ∧ (State.sendHp s m).die.ctls = s.die.ctls ∧ (State.sendHp s m).die.lodges = s.die.lodges ∧ (State.sendHp s m).die.band = s.die.band
      ∧ (State.sendHp s m).die.reports = s.die.reports ∧ (State.sendHp s m).die.atTick = s.die.atTick := by
  unfold State.sendHp; first | (simp; done) | ((try dsimp only); (repeat' split) <;> simp; done) | (refine ⟨?_, ?_, ?_, ?_, ?_, ?_, ?_, ?_, ?_, ?_, ?_, ?_, ?_, ?_, ?_, ?_, ?_, ?_, ?_, ?_, ?_, ?_, ?_, ?_, ?_, ?_⟩ <;> first | (simp; done) | ((try dsimp only); (repeat' split) <;> simp; done))

@[simp] theorem State.flood_keeps (s : State) (except : Option Nat) (m : Nat → Out) :
    (State.flood s except m).pending = s.pending ∧ (State.flood s except m).gate = s.gate ∧ (State.flood s except m).mod = s.mod
      ∧ (State.flood s except m).rows = s.rows ∧ (State.flood s except m).dumps = s.dumps ∧ (State.flood s except m).shed = s.shed
      ∧ (State.flood s except m).replay = s.replay ∧ (State.flood s except m).reg = s.reg ∧ (State.flood s except m).just = s.just
      ∧ (State.flood s except m).tiles = s.tiles ∧ (State.flood s except m).pvs = s.pvs ∧ (State.flood s except m).fns = s.fns
      ∧ (State.flood s except m).free = s.free ∧ (State.flood s except m).sun = s.sun ∧ (State.flood s except m).die.hbm = s.die.hbm
      ∧ (State.flood s except m).die.oyKey = s.die.oyKey ∧ (State.flood s except m).die.slices = s.die.slices
      ∧ (State.flood s except m).die.transfers = s.die.transfers ∧ (State.flood s except m).die.commit = s.die.commit
      ∧ (State.flood s except m).die.barriers = s.die.barriers ∧ (State.flood s except m).die.windows = s.die.windows
      ∧ (State.flood s except m).die.ctls = s.die.ctls ∧ (State.flood s except m).die.lodges = s.die.lodges
      ∧ (State.flood s except m).die.band = s.die.band ∧ (State.flood s except m).die.reports = s.die.reports
      ∧ (State.flood s except m).die.atTick = s.die.atTick := by
  unfold State.flood; first | (simp; done) | ((try dsimp only); (repeat' split) <;> simp; done) | (refine ⟨?_, ?_, ?_, ?_, ?_, ?_, ?_, ?_, ?_, ?_, ?_, ?_, ?_, ?_, ?_, ?_, ?_, ?_, ?_, ?_, ?_, ?_, ?_, ?_, ?_, ?_⟩ <;> first | (simp; done) | ((try dsimp only); (repeat' split) <;> simp; done))

@[simp] theorem rootRequests_keeps (s : State) :
    (rootRequests s).pending = s.pending ∧ (rootRequests s).gate = s.gate ∧ (rootRequests s).mod = s.mod ∧ (rootRequests s).rows = s.rows
      ∧ (rootRequests s).dumps = s.dumps ∧ (rootRequests s).shed = s.shed ∧ (rootRequests s).replay = s.replay ∧ (rootRequests s).reg = s.reg
      ∧ (rootRequests s).just = s.just ∧ (rootRequests s).tiles = s.tiles ∧ (rootRequests s).pvs = s.pvs ∧ (rootRequests s).fns = s.fns
      ∧ (rootRequests s).out = s.out ∧ (rootRequests s).free = s.free ∧ (rootRequests s).die = s.die := by
  unfold rootRequests; first | (simp; done) | ((try dsimp only); (repeat' split) <;> simp; done) | (refine ⟨?_, ?_, ?_, ?_, ?_, ?_, ?_, ?_, ?_, ?_, ?_, ?_, ?_, ?_, ?_⟩ <;> first | (simp; done) | ((try dsimp only); (repeat' split) <;> simp; done))

@[simp] theorem joinHold_keeps (s : State) (h : Hold) :
    (joinHold s h).pending = s.pending ∧ (joinHold s h).gate = s.gate ∧ (joinHold s h).mod = s.mod ∧ (joinHold s h).rows = s.rows
      ∧ (joinHold s h).dumps = s.dumps ∧ (joinHold s h).shed = s.shed ∧ (joinHold s h).replay = s.replay ∧ (joinHold s h).reg = s.reg
      ∧ (joinHold s h).just = s.just ∧ (joinHold s h).tiles = s.tiles ∧ (joinHold s h).pvs = s.pvs ∧ (joinHold s h).fns = s.fns
      ∧ (joinHold s h).free = s.free ∧ (joinHold s h).die = s.die := by
  unfold joinHold; first | (simp; done) | ((try dsimp only); (repeat' split) <;> simp; done) | (refine ⟨?_, ?_, ?_, ?_, ?_, ?_, ?_, ?_, ?_, ?_, ?_, ?_, ?_, ?_⟩ <;> first | (simp; done) | ((try dsimp only); (repeat' split) <;> simp; done))

@[simp] theorem requestHold_keeps (s : State) (kind source : Nat) :
    (requestHold s kind source).pending = s.pending ∧ (requestHold s kind source).gate = s.gate ∧ (requestHold s kind source).mod = s.mod
      ∧ (requestHold s kind source).rows = s.rows ∧ (requestHold s kind source).dumps = s.dumps ∧ (requestHold s kind source).shed = s.shed
      ∧ (requestHold s kind source).replay = s.replay ∧ (requestHold s kind source).tiles = s.tiles ∧ (requestHold s kind source).pvs = s.pvs
      ∧ (requestHold s kind source).fns = s.fns ∧ (requestHold s kind source).free = s.free ∧ (requestHold s kind source).die.hbm = s.die.hbm
      ∧ (requestHold s kind source).die.oyKey = s.die.oyKey ∧ (requestHold s kind source).die.slices = s.die.slices
      ∧ (requestHold s kind source).die.transfers = s.die.transfers ∧ (requestHold s kind source).die.commit = s.die.commit
      ∧ (requestHold s kind source).die.barriers = s.die.barriers ∧ (requestHold s kind source).die.windows = s.die.windows
      ∧ (requestHold s kind source).die.ctls = s.die.ctls ∧ (requestHold s kind source).die.lodges = s.die.lodges
      ∧ (requestHold s kind source).die.band = s.die.band ∧ (requestHold s kind source).die.reports = s.die.reports
      ∧ (requestHold s kind source).die.atTick = s.die.atTick := by
  unfold requestHold; first | (simp; done) | ((try dsimp only); (repeat' split) <;> simp; done) | (refine ⟨?_, ?_, ?_, ?_, ?_, ?_, ?_, ?_, ?_, ?_, ?_, ?_, ?_, ?_, ?_, ?_, ?_, ?_, ?_, ?_, ?_, ?_, ?_⟩ <;> first | (simp; done) | ((try dsimp only); (repeat' split) <;> simp; done))

@[simp] theorem recordHold_keeps (s : State) (h : Hold) (len cycle : Nat) :
    (recordHold s h len cycle).pending = s.pending ∧ (recordHold s h len cycle).gate = s.gate ∧ (recordHold s h len cycle).mod = s.mod
      ∧ (recordHold s h len cycle).rows = s.rows ∧ (recordHold s h len cycle).dumps = s.dumps ∧ (recordHold s h len cycle).shed = s.shed
      ∧ (recordHold s h len cycle).replay = s.replay ∧ (recordHold s h len cycle).just = s.just ∧ (recordHold s h len cycle).tiles = s.tiles
      ∧ (recordHold s h len cycle).pvs = s.pvs ∧ (recordHold s h len cycle).fns = s.fns ∧ (recordHold s h len cycle).out = s.out
      ∧ (recordHold s h len cycle).free = s.free ∧ (recordHold s h len cycle).sun = s.sun ∧ (recordHold s h len cycle).die = s.die := by
  unfold recordHold; first | (simp; done) | ((try dsimp only); (repeat' split) <;> simp; done) | (refine ⟨?_, ?_, ?_, ?_, ?_, ?_, ?_, ?_, ?_, ?_, ?_, ?_, ?_, ?_, ?_⟩ <;> first | (simp; done) | ((try dsimp only); (repeat' split) <;> simp; done))

@[simp] theorem releaseHold_keeps (s : State) (origin seq relAt : Nat) :
    (releaseHold s origin seq relAt).pending = s.pending ∧ (releaseHold s origin seq relAt).gate = s.gate
      ∧ (releaseHold s origin seq relAt).mod = s.mod ∧ (releaseHold s origin seq relAt).rows = s.rows
      ∧ (releaseHold s origin seq relAt).dumps = s.dumps ∧ (releaseHold s origin seq relAt).shed = s.shed
      ∧ (releaseHold s origin seq relAt).replay = s.replay ∧ (releaseHold s origin seq relAt).reg = s.reg
      ∧ (releaseHold s origin seq relAt).just = s.just ∧ (releaseHold s origin seq relAt).tiles = s.tiles
      ∧ (releaseHold s origin seq relAt).pvs = s.pvs ∧ (releaseHold s origin seq relAt).fns = s.fns
      ∧ (releaseHold s origin seq relAt).out = s.out ∧ (releaseHold s origin seq relAt).free = s.free
      ∧ (releaseHold s origin seq relAt).die = s.die ∧ (releaseHold s origin seq relAt).sun.ctr = s.sun.ctr
      ∧ (releaseHold s origin seq relAt).sun.lags = s.sun.lags ∧ (releaseHold s origin seq relAt).sun.tick = s.sun.tick
      ∧ (releaseHold s origin seq relAt).sun.time = s.sun.time ∧ (releaseHold s origin seq relAt).sun.freeze = s.sun.freeze
      ∧ (releaseHold s origin seq relAt).sun.stopped = s.sun.stopped := by
  unfold releaseHold; first | (simp; done) | ((try dsimp only); (repeat' split) <;> simp; done) | (refine ⟨?_, ?_, ?_, ?_, ?_, ?_, ?_, ?_, ?_, ?_, ?_, ?_, ?_, ?_, ?_, ?_, ?_, ?_, ?_, ?_, ?_⟩ <;> first | (simp; done) | ((try dsimp only); (repeat' split) <;> simp; done))

@[simp] theorem startReplay_keeps (s : State) (word : W64) :
    (startReplay s word).pending = s.pending ∧ (startReplay s word).gate = s.gate ∧ (startReplay s word).mod = s.mod
      ∧ (startReplay s word).rows = s.rows ∧ (startReplay s word).dumps = s.dumps ∧ (startReplay s word).shed = s.shed
      ∧ (startReplay s word).tiles = s.tiles ∧ (startReplay s word).pvs = s.pvs ∧ (startReplay s word).fns = s.fns
      ∧ (startReplay s word).free = s.free ∧ (startReplay s word).die.hbm = s.die.hbm ∧ (startReplay s word).die.oyKey = s.die.oyKey
      ∧ (startReplay s word).die.slices = s.die.slices ∧ (startReplay s word).die.transfers = s.die.transfers
      ∧ (startReplay s word).die.commit = s.die.commit ∧ (startReplay s word).die.barriers = s.die.barriers
      ∧ (startReplay s word).die.windows = s.die.windows ∧ (startReplay s word).die.ctls = s.die.ctls
      ∧ (startReplay s word).die.lodges = s.die.lodges ∧ (startReplay s word).die.band = s.die.band
      ∧ (startReplay s word).die.reports = s.die.reports ∧ (startReplay s word).die.atTick = s.die.atTick := by
  unfold startReplay; first | (simp; done) | ((try dsimp only); (repeat' split) <;> simp; done) | (refine ⟨?_, ?_, ?_, ?_, ?_, ?_, ?_, ?_, ?_, ?_, ?_, ?_, ?_, ?_, ?_, ?_, ?_, ?_, ?_, ?_, ?_, ?_⟩ <;> first | (simp; done) | ((try dsimp only); (repeat' split) <;> simp; done))

@[simp] theorem noteLasting_keeps (s : State) (x : Site) :
    (noteLasting s x).pending = s.pending ∧ (noteLasting s x).gate = s.gate ∧ (noteLasting s x).mod = s.mod ∧ (noteLasting s x).rows = s.rows
      ∧ (noteLasting s x).dumps = s.dumps ∧ (noteLasting s x).replay = s.replay ∧ (noteLasting s x).tiles = s.tiles
      ∧ (noteLasting s x).pvs = s.pvs ∧ (noteLasting s x).fns = s.fns ∧ (noteLasting s x).out = s.out ∧ (noteLasting s x).free = s.free
      ∧ (noteLasting s x).sun = s.sun ∧ (noteLasting s x).die = s.die := by
  unfold noteLasting; first | (simp; done) | ((try dsimp only); (repeat' split) <;> simp; done) | (refine ⟨?_, ?_, ?_, ?_, ?_, ?_, ?_, ?_, ?_, ?_, ?_, ?_, ?_⟩ <;> first | (simp; done) | ((try dsimp only); (repeat' split) <;> simp; done))

@[simp] theorem noteSite_keeps (s : State) (x : Site) :
    (noteSite s x).pending = s.pending ∧ (noteSite s x).gate = s.gate ∧ (noteSite s x).mod = s.mod ∧ (noteSite s x).rows = s.rows
      ∧ (noteSite s x).dumps = s.dumps ∧ (noteSite s x).tiles = s.tiles ∧ (noteSite s x).pvs = s.pvs ∧ (noteSite s x).fns = s.fns
      ∧ (noteSite s x).out = s.out ∧ (noteSite s x).free = s.free ∧ (noteSite s x).sun = s.sun ∧ (noteSite s x).die = s.die := by
  unfold noteSite; first | (simp; done) | ((try dsimp only); (repeat' split) <;> simp; done) | (refine ⟨?_, ?_, ?_, ?_, ?_, ?_, ?_, ?_, ?_, ?_, ?_, ?_⟩ <;> first | (simp; done) | ((try dsimp only); (repeat' split) <;> simp; done))

@[simp] theorem errorReplay_keeps (s : State) (x : Site) (cycle : Nat) :
    (errorReplay s x cycle).pending = s.pending ∧ (errorReplay s x cycle).gate = s.gate ∧ (errorReplay s x cycle).mod = s.mod
      ∧ (errorReplay s x cycle).rows = s.rows ∧ (errorReplay s x cycle).dumps = s.dumps ∧ (errorReplay s x cycle).tiles = s.tiles
      ∧ (errorReplay s x cycle).pvs = s.pvs ∧ (errorReplay s x cycle).fns = s.fns ∧ (errorReplay s x cycle).free = s.free
      ∧ (errorReplay s x cycle).die.hbm = s.die.hbm ∧ (errorReplay s x cycle).die.oyKey = s.die.oyKey
      ∧ (errorReplay s x cycle).die.slices = s.die.slices ∧ (errorReplay s x cycle).die.transfers = s.die.transfers
      ∧ (errorReplay s x cycle).die.commit = s.die.commit ∧ (errorReplay s x cycle).die.barriers = s.die.barriers
      ∧ (errorReplay s x cycle).die.windows = s.die.windows ∧ (errorReplay s x cycle).die.ctls = s.die.ctls
      ∧ (errorReplay s x cycle).die.lodges = s.die.lodges ∧ (errorReplay s x cycle).die.band = s.die.band
      ∧ (errorReplay s x cycle).die.reports = s.die.reports ∧ (errorReplay s x cycle).die.atTick = s.die.atTick := by
  unfold errorReplay; first | (simp; done) | ((try dsimp only); (repeat' split) <;> simp; done) | (refine ⟨?_, ?_, ?_, ?_, ?_, ?_, ?_, ?_, ?_, ?_, ?_, ?_, ?_, ?_, ?_, ?_, ?_, ?_, ?_, ?_, ?_⟩ <;> first | (simp; done) | ((try dsimp only); (repeat' split) <;> simp; done))

@[simp] theorem siteClean_keeps (s : State) (kind place lo hi : Nat) :
    (siteClean s kind place lo hi).pending = s.pending ∧ (siteClean s kind place lo hi).gate = s.gate
      ∧ (siteClean s kind place lo hi).mod = s.mod ∧ (siteClean s kind place lo hi).rows = s.rows
      ∧ (siteClean s kind place lo hi).dumps = s.dumps ∧ (siteClean s kind place lo hi).shed = s.shed
      ∧ (siteClean s kind place lo hi).reg = s.reg ∧ (siteClean s kind place lo hi).just = s.just
      ∧ (siteClean s kind place lo hi).tiles = s.tiles ∧ (siteClean s kind place lo hi).pvs = s.pvs ∧ (siteClean s kind place lo hi).fns = s.fns
      ∧ (siteClean s kind place lo hi).out = s.out ∧ (siteClean s kind place lo hi).free = s.free ∧ (siteClean s kind place lo hi).sun = s.sun
      ∧ (siteClean s kind place lo hi).die = s.die := by
  unfold siteClean; first | (simp; done) | ((try dsimp only); (repeat' split) <;> simp; done) | (refine ⟨?_, ?_, ?_, ?_, ?_, ?_, ?_, ?_, ?_, ?_, ?_, ?_, ?_, ?_, ?_⟩ <;> first | (simp; done) | ((try dsimp only); (repeat' split) <;> simp; done))

@[simp] theorem spWrite_keeps (s : State) (p cls a : Nat) (b : List Byte) :
    (spWrite s p cls a b).pending = s.pending ∧ (spWrite s p cls a b).gate = s.gate ∧ (spWrite s p cls a b).mod = s.mod
      ∧ (spWrite s p cls a b).rows = s.rows ∧ (spWrite s p cls a b).dumps = s.dumps ∧ (spWrite s p cls a b).shed = s.shed
      ∧ (spWrite s p cls a b).replay = s.replay ∧ (spWrite s p cls a b).reg = s.reg ∧ (spWrite s p cls a b).just = s.just
      ∧ (spWrite s p cls a b).pvs = s.pvs ∧ (spWrite s p cls a b).fns = s.fns ∧ (spWrite s p cls a b).out = s.out
      ∧ (spWrite s p cls a b).free = s.free ∧ (spWrite s p cls a b).sun = s.sun ∧ (spWrite s p cls a b).die = s.die := by
  unfold spWrite; first | (simp; done) | ((try dsimp only); (repeat' split) <;> simp; done) | (refine ⟨?_, ?_, ?_, ?_, ?_, ?_, ?_, ?_, ?_, ?_, ?_, ?_, ?_, ?_, ?_⟩ <;> first | (simp; done) | ((try dsimp only); (repeat' split) <;> simp; done))

@[simp] theorem trWrite_keeps (s : State) (p a : Nat) (b : List Byte) :
    (trWrite s p a b).pending = s.pending ∧ (trWrite s p a b).gate = s.gate ∧ (trWrite s p a b).mod = s.mod ∧ (trWrite s p a b).rows = s.rows
      ∧ (trWrite s p a b).dumps = s.dumps ∧ (trWrite s p a b).shed = s.shed ∧ (trWrite s p a b).replay = s.replay ∧ (trWrite s p a b).reg = s.reg
      ∧ (trWrite s p a b).just = s.just ∧ (trWrite s p a b).pvs = s.pvs ∧ (trWrite s p a b).fns = s.fns ∧ (trWrite s p a b).out = s.out
      ∧ (trWrite s p a b).free = s.free ∧ (trWrite s p a b).sun = s.sun ∧ (trWrite s p a b).die = s.die := by
  unfold trWrite; first | (simp; done) | ((try dsimp only); (repeat' split) <;> simp; done) | (refine ⟨?_, ?_, ?_, ?_, ?_, ?_, ?_, ?_, ?_, ?_, ?_, ?_, ?_, ?_, ?_⟩ <;> first | (simp; done) | ((try dsimp only); (repeat' split) <;> simp; done))

@[simp] theorem noteSp_keeps (s : State) (p port lo hi : Nat) (chk : Check) (replay : Bool) :
    (noteSp s p port lo hi chk replay).pending = s.pending ∧ (noteSp s p port lo hi chk replay).gate = s.gate
      ∧ (noteSp s p port lo hi chk replay).mod = s.mod ∧ (noteSp s p port lo hi chk replay).rows = s.rows
      ∧ (noteSp s p port lo hi chk replay).dumps = s.dumps ∧ (noteSp s p port lo hi chk replay).pvs = s.pvs
      ∧ (noteSp s p port lo hi chk replay).fns = s.fns ∧ (noteSp s p port lo hi chk replay).die.hbm = s.die.hbm
      ∧ (noteSp s p port lo hi chk replay).die.oyKey = s.die.oyKey ∧ (noteSp s p port lo hi chk replay).die.slices = s.die.slices
      ∧ (noteSp s p port lo hi chk replay).die.transfers = s.die.transfers ∧ (noteSp s p port lo hi chk replay).die.commit = s.die.commit
      ∧ (noteSp s p port lo hi chk replay).die.barriers = s.die.barriers ∧ (noteSp s p port lo hi chk replay).die.windows = s.die.windows
      ∧ (noteSp s p port lo hi chk replay).die.ctls = s.die.ctls ∧ (noteSp s p port lo hi chk replay).die.lodges = s.die.lodges
      ∧ (noteSp s p port lo hi chk replay).die.band = s.die.band ∧ (noteSp s p port lo hi chk replay).die.reports = s.die.reports
      ∧ (noteSp s p port lo hi chk replay).die.atTick = s.die.atTick := by
  unfold noteSp; first | (simp; done) | ((try dsimp only); (repeat' split) <;> simp; done) | (refine ⟨?_, ?_, ?_, ?_, ?_, ?_, ?_, ?_, ?_, ?_, ?_, ?_, ?_, ?_, ?_, ?_, ?_, ?_, ?_⟩ <;> first | (simp; done) | ((try dsimp only); (repeat' split) <;> simp; done))

@[simp] theorem noteTr_keeps (s : State) (p lo hi : Nat) (chk : Check) (scrub : Bool) :
    (noteTr s p lo hi chk scrub).pending = s.pending ∧ (noteTr s p lo hi chk scrub).gate = s.gate ∧ (noteTr s p lo hi chk scrub).mod = s.mod
      ∧ (noteTr s p lo hi chk scrub).rows = s.rows ∧ (noteTr s p lo hi chk scrub).dumps = s.dumps ∧ (noteTr s p lo hi chk scrub).pvs = s.pvs
      ∧ (noteTr s p lo hi chk scrub).fns = s.fns ∧ (noteTr s p lo hi chk scrub).die.hbm = s.die.hbm
      ∧ (noteTr s p lo hi chk scrub).die.oyKey = s.die.oyKey ∧ (noteTr s p lo hi chk scrub).die.slices = s.die.slices
      ∧ (noteTr s p lo hi chk scrub).die.transfers = s.die.transfers ∧ (noteTr s p lo hi chk scrub).die.commit = s.die.commit
      ∧ (noteTr s p lo hi chk scrub).die.barriers = s.die.barriers ∧ (noteTr s p lo hi chk scrub).die.windows = s.die.windows
      ∧ (noteTr s p lo hi chk scrub).die.ctls = s.die.ctls ∧ (noteTr s p lo hi chk scrub).die.lodges = s.die.lodges
      ∧ (noteTr s p lo hi chk scrub).die.band = s.die.band ∧ (noteTr s p lo hi chk scrub).die.reports = s.die.reports
      ∧ (noteTr s p lo hi chk scrub).die.atTick = s.die.atTick := by
  unfold noteTr; first | (simp; done) | ((try dsimp only); (repeat' split) <;> simp; done) | (refine ⟨?_, ?_, ?_, ?_, ?_, ?_, ?_, ?_, ?_, ?_, ?_, ?_, ?_, ?_, ?_, ?_, ?_, ?_, ?_⟩ <;> first | (simp; done) | ((try dsimp only); (repeat' split) <;> simp; done))

@[simp] theorem noteLanding_keeps (s : State) (p : Nat) (carried : Bool) (iv : Nat × Nat) :
    (noteLanding s p carried iv).pending = s.pending ∧ (noteLanding s p carried iv).gate = s.gate ∧ (noteLanding s p carried iv).mod = s.mod
      ∧ (noteLanding s p carried iv).rows = s.rows ∧ (noteLanding s p carried iv).dumps = s.dumps ∧ (noteLanding s p carried iv).shed = s.shed
      ∧ (noteLanding s p carried iv).replay = s.replay ∧ (noteLanding s p carried iv).reg = s.reg ∧ (noteLanding s p carried iv).just = s.just
      ∧ (noteLanding s p carried iv).pvs = s.pvs ∧ (noteLanding s p carried iv).fns = s.fns ∧ (noteLanding s p carried iv).out = s.out
      ∧ (noteLanding s p carried iv).free = s.free ∧ (noteLanding s p carried iv).sun = s.sun ∧ (noteLanding s p carried iv).die = s.die := by
  unfold noteLanding; first | (simp; done) | ((try dsimp only); (repeat' split) <;> simp; done) | (refine ⟨?_, ?_, ?_, ?_, ?_, ?_, ?_, ?_, ?_, ?_, ?_, ?_, ?_, ?_, ?_⟩ <;> first | (simp; done) | ((try dsimp only); (repeat' split) <;> simp; done))

@[simp] theorem clearSp_keeps (s : State) (p : Nat) :
    (clearSp s p).pending = s.pending ∧ (clearSp s p).gate = s.gate ∧ (clearSp s p).mod = s.mod ∧ (clearSp s p).rows = s.rows
      ∧ (clearSp s p).dumps = s.dumps ∧ (clearSp s p).shed = s.shed ∧ (clearSp s p).replay = s.replay ∧ (clearSp s p).reg = s.reg
      ∧ (clearSp s p).just = s.just ∧ (clearSp s p).pvs = s.pvs ∧ (clearSp s p).fns = s.fns ∧ (clearSp s p).out = s.out
      ∧ (clearSp s p).free = s.free ∧ (clearSp s p).sun = s.sun ∧ (clearSp s p).die = s.die := by
  unfold clearSp; first | (simp; done) | ((try dsimp only); (repeat' split) <;> simp; done) | (refine ⟨?_, ?_, ?_, ?_, ?_, ?_, ?_, ?_, ?_, ?_, ?_, ?_, ?_, ?_, ?_⟩ <;> first | (simp; done) | ((try dsimp only); (repeat' split) <;> simp; done))

@[simp] theorem clearTr_keeps (s : State) (p : Nat) :
    (clearTr s p).pending = s.pending ∧ (clearTr s p).gate = s.gate ∧ (clearTr s p).mod = s.mod ∧ (clearTr s p).rows = s.rows
      ∧ (clearTr s p).dumps = s.dumps ∧ (clearTr s p).shed = s.shed ∧ (clearTr s p).replay = s.replay ∧ (clearTr s p).reg = s.reg
      ∧ (clearTr s p).just = s.just ∧ (clearTr s p).pvs = s.pvs ∧ (clearTr s p).fns = s.fns ∧ (clearTr s p).out = s.out
      ∧ (clearTr s p).free = s.free ∧ (clearTr s p).sun = s.sun ∧ (clearTr s p).die = s.die := by
  unfold clearTr; first | (simp; done) | ((try dsimp only); (repeat' split) <;> simp; done) | (refine ⟨?_, ?_, ?_, ?_, ?_, ?_, ?_, ?_, ?_, ?_, ?_, ?_, ?_, ?_, ?_⟩ <;> first | (simp; done) | ((try dsimp only); (repeat' split) <;> simp; done))

@[simp] theorem State.modBand_keeps (s : State) (f : Band → Band) :
    (State.modBand s f).pending = s.pending ∧ (State.modBand s f).gate = s.gate ∧ (State.modBand s f).mod = s.mod
      ∧ (State.modBand s f).rows = s.rows ∧ (State.modBand s f).dumps = s.dumps ∧ (State.modBand s f).shed = s.shed
      ∧ (State.modBand s f).replay = s.replay ∧ (State.modBand s f).reg = s.reg ∧ (State.modBand s f).just = s.just
      ∧ (State.modBand s f).tiles = s.tiles ∧ (State.modBand s f).pvs = s.pvs ∧ (State.modBand s f).fns = s.fns ∧ (State.modBand s f).out = s.out
      ∧ (State.modBand s f).free = s.free ∧ (State.modBand s f).sun = s.sun ∧ (State.modBand s f).die.hbm = s.die.hbm
      ∧ (State.modBand s f).die.oyKey = s.die.oyKey ∧ (State.modBand s f).die.slices = s.die.slices
      ∧ (State.modBand s f).die.transfers = s.die.transfers ∧ (State.modBand s f).die.commit = s.die.commit
      ∧ (State.modBand s f).die.barriers = s.die.barriers ∧ (State.modBand s f).die.windows = s.die.windows
      ∧ (State.modBand s f).die.ctls = s.die.ctls ∧ (State.modBand s f).die.ports = s.die.ports ∧ (State.modBand s f).die.lodges = s.die.lodges
      ∧ (State.modBand s f).die.reports = s.die.reports ∧ (State.modBand s f).die.atTick = s.die.atTick := by
  unfold State.modBand; first | (simp; done) | ((try dsimp only); (repeat' split) <;> simp; done) | (refine ⟨?_, ?_, ?_, ?_, ?_, ?_, ?_, ?_, ?_, ?_, ?_, ?_, ?_, ?_, ?_, ?_, ?_, ?_, ?_, ?_, ?_, ?_, ?_, ?_, ?_, ?_, ?_⟩ <;> first | (simp; done) | ((try dsimp only); (repeat' split) <;> simp; done))

@[simp] theorem State.modSlot_keeps (s : State) (n : Nat) (f : BsSlot → BsSlot) :
    (State.modSlot s n f).pending = s.pending ∧ (State.modSlot s n f).gate = s.gate ∧ (State.modSlot s n f).mod = s.mod
      ∧ (State.modSlot s n f).rows = s.rows ∧ (State.modSlot s n f).dumps = s.dumps ∧ (State.modSlot s n f).shed = s.shed
      ∧ (State.modSlot s n f).replay = s.replay ∧ (State.modSlot s n f).reg = s.reg ∧ (State.modSlot s n f).just = s.just
      ∧ (State.modSlot s n f).tiles = s.tiles ∧ (State.modSlot s n f).pvs = s.pvs ∧ (State.modSlot s n f).fns = s.fns
      ∧ (State.modSlot s n f).out = s.out ∧ (State.modSlot s n f).free = s.free ∧ (State.modSlot s n f).sun = s.sun
      ∧ (State.modSlot s n f).die.hbm = s.die.hbm ∧ (State.modSlot s n f).die.oyKey = s.die.oyKey
      ∧ (State.modSlot s n f).die.slices = s.die.slices ∧ (State.modSlot s n f).die.transfers = s.die.transfers
      ∧ (State.modSlot s n f).die.commit = s.die.commit ∧ (State.modSlot s n f).die.barriers = s.die.barriers
      ∧ (State.modSlot s n f).die.windows = s.die.windows ∧ (State.modSlot s n f).die.ctls = s.die.ctls
      ∧ (State.modSlot s n f).die.ports = s.die.ports ∧ (State.modSlot s n f).die.lodges = s.die.lodges
      ∧ (State.modSlot s n f).die.reports = s.die.reports ∧ (State.modSlot s n f).die.atTick = s.die.atTick := by
  unfold State.modSlot; first | (simp; done) | ((try dsimp only); (repeat' split) <;> simp; done) | (refine ⟨?_, ?_, ?_, ?_, ?_, ?_, ?_, ?_, ?_, ?_, ?_, ?_, ?_, ?_, ?_, ?_, ?_, ?_, ?_, ?_, ?_, ?_, ?_, ?_, ?_, ?_, ?_⟩ <;> first | (simp; done) | ((try dsimp only); (repeat' split) <;> simp; done))

@[simp] theorem discard_keeps (s : State) (n : Nat) :
    (discard s n).pending = s.pending ∧ (discard s n).gate = s.gate ∧ (discard s n).mod = s.mod ∧ (discard s n).rows = s.rows
      ∧ (discard s n).dumps = s.dumps ∧ (discard s n).shed = s.shed ∧ (discard s n).replay = s.replay ∧ (discard s n).tiles = s.tiles
      ∧ (discard s n).pvs = s.pvs ∧ (discard s n).fns = s.fns ∧ (discard s n).out = s.out ∧ (discard s n).free = s.free
      ∧ (discard s n).sun = s.sun ∧ (discard s n).die = s.die := by
  unfold discard; first | (simp; done) | ((try dsimp only); (repeat' split) <;> simp; done) | (refine ⟨?_, ?_, ?_, ?_, ?_, ?_, ?_, ?_, ?_, ?_, ?_, ?_, ?_, ?_⟩ <;> first | (simp; done) | ((try dsimp only); (repeat' split) <;> simp; done))

@[simp] theorem deliver_keeps (s : State) (slot : Nat) (draft : Bool) (pos voff pv port : Nat) (vals : List W32) :
    (deliver s slot draft pos voff pv port vals).pending = s.pending ∧ (deliver s slot draft pos voff pv port vals).gate = s.gate
      ∧ (deliver s slot draft pos voff pv port vals).mod = s.mod ∧ (deliver s slot draft pos voff pv port vals).rows = s.rows
      ∧ (deliver s slot draft pos voff pv port vals).dumps = s.dumps ∧ (deliver s slot draft pos voff pv port vals).shed = s.shed
      ∧ (deliver s slot draft pos voff pv port vals).replay = s.replay ∧ (deliver s slot draft pos voff pv port vals).tiles = s.tiles
      ∧ (deliver s slot draft pos voff pv port vals).pvs = s.pvs ∧ (deliver s slot draft pos voff pv port vals).fns = s.fns
      ∧ (deliver s slot draft pos voff pv port vals).out = s.out ∧ (deliver s slot draft pos voff pv port vals).free = s.free
      ∧ (deliver s slot draft pos voff pv port vals).sun = s.sun ∧ (deliver s slot draft pos voff pv port vals).die.hbm = s.die.hbm
      ∧ (deliver s slot draft pos voff pv port vals).die.oyKey = s.die.oyKey
      ∧ (deliver s slot draft pos voff pv port vals).die.slices = s.die.slices
      ∧ (deliver s slot draft pos voff pv port vals).die.transfers = s.die.transfers
      ∧ (deliver s slot draft pos voff pv port vals).die.commit = s.die.commit
      ∧ (deliver s slot draft pos voff pv port vals).die.barriers = s.die.barriers
      ∧ (deliver s slot draft pos voff pv port vals).die.windows = s.die.windows
      ∧ (deliver s slot draft pos voff pv port vals).die.ctls = s.die.ctls ∧ (deliver s slot draft pos voff pv port vals).die.ports = s.die.ports
      ∧ (deliver s slot draft pos voff pv port vals).die.lodges = s.die.lodges
      ∧ (deliver s slot draft pos voff pv port vals).die.reports = s.die.reports
      ∧ (deliver s slot draft pos voff pv port vals).die.atTick = s.die.atTick := by
  unfold deliver; first | (simp; done) | ((try dsimp only); (repeat' split) <;> simp; done) | (refine ⟨?_, ?_, ?_, ?_, ?_, ?_, ?_, ?_, ?_, ?_, ?_, ?_, ?_, ?_, ?_, ?_, ?_, ?_, ?_, ?_, ?_, ?_, ?_, ?_, ?_⟩ <;> first | (simp; done) | ((try dsimp only); (repeat' split) <;> simp; done))

@[simp] theorem bandCommit_keeps (s : State) (slot port : Nat) :
    (bandCommit s slot port).pending = s.pending ∧ (bandCommit s slot port).gate = s.gate ∧ (bandCommit s slot port).mod = s.mod
      ∧ (bandCommit s slot port).rows = s.rows ∧ (bandCommit s slot port).dumps = s.dumps ∧ (bandCommit s slot port).shed = s.shed
      ∧ (bandCommit s slot port).replay = s.replay ∧ (bandCommit s slot port).reg = s.reg ∧ (bandCommit s slot port).just = s.just
      ∧ (bandCommit s slot port).tiles = s.tiles ∧ (bandCommit s slot port).pvs = s.pvs ∧ (bandCommit s slot port).fns = s.fns
      ∧ (bandCommit s slot port).out = s.out ∧ (bandCommit s slot port).free = s.free ∧ (bandCommit s slot port).sun = s.sun
      ∧ (bandCommit s slot port).die.hbm = s.die.hbm ∧ (bandCommit s slot port).die.oyKey = s.die.oyKey
      ∧ (bandCommit s slot port).die.slices = s.die.slices ∧ (bandCommit s slot port).die.transfers = s.die.transfers
      ∧ (bandCommit s slot port).die.commit = s.die.commit ∧ (bandCommit s slot port).die.barriers = s.die.barriers
      ∧ (bandCommit s slot port).die.windows = s.die.windows ∧ (bandCommit s slot port).die.ctls = s.die.ctls
      ∧ (bandCommit s slot port).die.ports = s.die.ports ∧ (bandCommit s slot port).die.lodges = s.die.lodges
      ∧ (bandCommit s slot port).die.reports = s.die.reports ∧ (bandCommit s slot port).die.atTick = s.die.atTick := by
  unfold bandCommit; first | (simp; done) | ((try dsimp only); (repeat' split) <;> simp; done) | (refine ⟨?_, ?_, ?_, ?_, ?_, ?_, ?_, ?_, ?_, ?_, ?_, ?_, ?_, ?_, ?_, ?_, ?_, ?_, ?_, ?_, ?_, ?_, ?_, ?_, ?_, ?_, ?_⟩ <;> first | (simp; done) | ((try dsimp only); (repeat' split) <;> simp; done))

@[simp] theorem bandAbandon_keeps (s : State) :
    (bandAbandon s).pending = s.pending ∧ (bandAbandon s).gate = s.gate ∧ (bandAbandon s).mod = s.mod ∧ (bandAbandon s).rows = s.rows
      ∧ (bandAbandon s).dumps = s.dumps ∧ (bandAbandon s).shed = s.shed ∧ (bandAbandon s).replay = s.replay ∧ (bandAbandon s).reg = s.reg
      ∧ (bandAbandon s).just = s.just ∧ (bandAbandon s).tiles = s.tiles ∧ (bandAbandon s).pvs = s.pvs ∧ (bandAbandon s).fns = s.fns
      ∧ (bandAbandon s).out = s.out ∧ (bandAbandon s).free = s.free ∧ (bandAbandon s).sun = s.sun ∧ (bandAbandon s).die.hbm = s.die.hbm
      ∧ (bandAbandon s).die.oyKey = s.die.oyKey ∧ (bandAbandon s).die.slices = s.die.slices ∧ (bandAbandon s).die.transfers = s.die.transfers
      ∧ (bandAbandon s).die.commit = s.die.commit ∧ (bandAbandon s).die.barriers = s.die.barriers ∧ (bandAbandon s).die.windows = s.die.windows
      ∧ (bandAbandon s).die.ctls = s.die.ctls ∧ (bandAbandon s).die.ports = s.die.ports ∧ (bandAbandon s).die.lodges = s.die.lodges
      ∧ (bandAbandon s).die.reports = s.die.reports ∧ (bandAbandon s).die.atTick = s.die.atTick := by
  unfold bandAbandon; first | (simp; done) | ((try dsimp only); (repeat' split) <;> simp; done) | (refine ⟨?_, ?_, ?_, ?_, ?_, ?_, ?_, ?_, ?_, ?_, ?_, ?_, ?_, ?_, ?_, ?_, ?_, ?_, ?_, ?_, ?_, ?_, ?_, ?_, ?_, ?_, ?_⟩ <;> first | (simp; done) | ((try dsimp only); (repeat' split) <;> simp; done))

@[simp] theorem pushEvent_keeps (s : State) (k kind count slot : Nat) :
    (pushEvent s k kind count slot).pending = s.pending ∧ (pushEvent s k kind count slot).gate = s.gate
      ∧ (pushEvent s k kind count slot).mod = s.mod ∧ (pushEvent s k kind count slot).rows = s.rows
      ∧ (pushEvent s k kind count slot).dumps = s.dumps ∧ (pushEvent s k kind count slot).shed = s.shed
      ∧ (pushEvent s k kind count slot).replay = s.replay ∧ (pushEvent s k kind count slot).reg = s.reg
      ∧ (pushEvent s k kind count slot).just = s.just ∧ (pushEvent s k kind count slot).tiles = s.tiles
      ∧ (pushEvent s k kind count slot).pvs = s.pvs ∧ (pushEvent s k kind count slot).fns = s.fns ∧ (pushEvent s k kind count slot).out = s.out
      ∧ (pushEvent s k kind count slot).free = s.free ∧ (pushEvent s k kind count slot).sun = s.sun
      ∧ (pushEvent s k kind count slot).die.hbm = s.die.hbm ∧ (pushEvent s k kind count slot).die.oyKey = s.die.oyKey
      ∧ (pushEvent s k kind count slot).die.slices = s.die.slices ∧ (pushEvent s k kind count slot).die.transfers = s.die.transfers
      ∧ (pushEvent s k kind count slot).die.commit = s.die.commit ∧ (pushEvent s k kind count slot).die.barriers = s.die.barriers
      ∧ (pushEvent s k kind count slot).die.windows = s.die.windows ∧ (pushEvent s k kind count slot).die.ctls = s.die.ctls
      ∧ (pushEvent s k kind count slot).die.ports = s.die.ports ∧ (pushEvent s k kind count slot).die.band = s.die.band
      ∧ (pushEvent s k kind count slot).die.reports = s.die.reports ∧ (pushEvent s k kind count slot).die.atTick = s.die.atTick := by
  unfold pushEvent; first | (simp; done) | ((try dsimp only); (repeat' split) <;> simp; done) | (refine ⟨?_, ?_, ?_, ?_, ?_, ?_, ?_, ?_, ?_, ?_, ?_, ?_, ?_, ?_, ?_, ?_, ?_, ?_, ?_, ?_, ?_, ?_, ?_, ?_, ?_, ?_, ?_⟩ <;> first | (simp; done) | ((try dsimp only); (repeat' split) <;> simp; done))

@[simp] theorem slotEvent_keeps (s : State) (slot kind count : Nat) :
    (slotEvent s slot kind count).pending = s.pending ∧ (slotEvent s slot kind count).gate = s.gate ∧ (slotEvent s slot kind count).mod = s.mod
      ∧ (slotEvent s slot kind count).rows = s.rows ∧ (slotEvent s slot kind count).dumps = s.dumps ∧ (slotEvent s slot kind count).shed = s.shed
      ∧ (slotEvent s slot kind count).replay = s.replay ∧ (slotEvent s slot kind count).reg = s.reg ∧ (slotEvent s slot kind count).just = s.just
      ∧ (slotEvent s slot kind count).tiles = s.tiles ∧ (slotEvent s slot kind count).pvs = s.pvs ∧ (slotEvent s slot kind count).fns = s.fns
      ∧ (slotEvent s slot kind count).out = s.out ∧ (slotEvent s slot kind count).free = s.free ∧ (slotEvent s slot kind count).sun = s.sun
      ∧ (slotEvent s slot kind count).die.hbm = s.die.hbm ∧ (slotEvent s slot kind count).die.oyKey = s.die.oyKey
      ∧ (slotEvent s slot kind count).die.slices = s.die.slices ∧ (slotEvent s slot kind count).die.transfers = s.die.transfers
      ∧ (slotEvent s slot kind count).die.commit = s.die.commit ∧ (slotEvent s slot kind count).die.barriers = s.die.barriers
      ∧ (slotEvent s slot kind count).die.windows = s.die.windows ∧ (slotEvent s slot kind count).die.ctls = s.die.ctls
      ∧ (slotEvent s slot kind count).die.ports = s.die.ports ∧ (slotEvent s slot kind count).die.band = s.die.band
      ∧ (slotEvent s slot kind count).die.reports = s.die.reports ∧ (slotEvent s slot kind count).die.atTick = s.die.atTick := by
  unfold slotEvent; first | (simp; done) | ((try dsimp only); (repeat' split) <;> simp; done) | (refine ⟨?_, ?_, ?_, ?_, ?_, ?_, ?_, ?_, ?_, ?_, ?_, ?_, ?_, ?_, ?_, ?_, ?_, ?_, ?_, ?_, ?_, ?_, ?_, ?_, ?_, ?_, ?_⟩ <;> first | (simp; done) | ((try dsimp only); (repeat' split) <;> simp; done))

@[simp] theorem takeRow_keeps (s : State) (d : Deliv) :
    (takeRow s d).pending = s.pending ∧ (takeRow s d).gate = s.gate ∧ (takeRow s d).mod = s.mod ∧ (takeRow s d).rows = s.rows
      ∧ (takeRow s d).dumps = s.dumps ∧ (takeRow s d).shed = s.shed ∧ (takeRow s d).replay = s.replay ∧ (takeRow s d).reg = s.reg
      ∧ (takeRow s d).just = s.just ∧ (takeRow s d).tiles = s.tiles ∧ (takeRow s d).pvs = s.pvs ∧ (takeRow s d).fns = s.fns
      ∧ (takeRow s d).out = s.out ∧ (takeRow s d).free = s.free ∧ (takeRow s d).sun = s.sun ∧ (takeRow s d).die.hbm = s.die.hbm
      ∧ (takeRow s d).die.oyKey = s.die.oyKey ∧ (takeRow s d).die.slices = s.die.slices ∧ (takeRow s d).die.transfers = s.die.transfers
      ∧ (takeRow s d).die.commit = s.die.commit ∧ (takeRow s d).die.barriers = s.die.barriers ∧ (takeRow s d).die.windows = s.die.windows
      ∧ (takeRow s d).die.ctls = s.die.ctls ∧ (takeRow s d).die.ports = s.die.ports ∧ (takeRow s d).die.lodges = s.die.lodges
      ∧ (takeRow s d).die.reports = s.die.reports ∧ (takeRow s d).die.atTick = s.die.atTick := by
  unfold takeRow; first | (simp; done) | ((try dsimp only); (repeat' split) <;> simp; done) | (refine ⟨?_, ?_, ?_, ?_, ?_, ?_, ?_, ?_, ?_, ?_, ?_, ?_, ?_, ?_, ?_, ?_, ?_, ?_, ?_, ?_, ?_, ?_, ?_, ?_, ?_, ?_, ?_⟩ <;> first | (simp; done) | ((try dsimp only); (repeat' split) <;> simp; done))

@[simp] theorem scanEntry_keeps (d : Deliv) (s : State) (i : Nat) (x : W32) :
    (scanEntry d s i x).pending = s.pending ∧ (scanEntry d s i x).gate = s.gate ∧ (scanEntry d s i x).mod = s.mod
      ∧ (scanEntry d s i x).rows = s.rows ∧ (scanEntry d s i x).dumps = s.dumps ∧ (scanEntry d s i x).shed = s.shed
      ∧ (scanEntry d s i x).replay = s.replay ∧ (scanEntry d s i x).tiles = s.tiles ∧ (scanEntry d s i x).pvs = s.pvs
      ∧ (scanEntry d s i x).fns = s.fns ∧ (scanEntry d s i x).out = s.out ∧ (scanEntry d s i x).free = s.free ∧ (scanEntry d s i x).sun = s.sun
      ∧ (scanEntry d s i x).die.hbm = s.die.hbm ∧ (scanEntry d s i x).die.oyKey = s.die.oyKey ∧ (scanEntry d s i x).die.slices = s.die.slices
      ∧ (scanEntry d s i x).die.transfers = s.die.transfers ∧ (scanEntry d s i x).die.commit = s.die.commit
      ∧ (scanEntry d s i x).die.barriers = s.die.barriers ∧ (scanEntry d s i x).die.windows = s.die.windows
      ∧ (scanEntry d s i x).die.ctls = s.die.ctls ∧ (scanEntry d s i x).die.ports = s.die.ports ∧ (scanEntry d s i x).die.lodges = s.die.lodges
      ∧ (scanEntry d s i x).die.reports = s.die.reports ∧ (scanEntry d s i x).die.atTick = s.die.atTick := by
  unfold scanEntry; first | (simp; done) | ((try dsimp only); (repeat' split) <;> simp; done) | (refine ⟨?_, ?_, ?_, ?_, ?_, ?_, ?_, ?_, ?_, ?_, ?_, ?_, ?_, ?_, ?_, ?_, ?_, ?_, ?_, ?_, ?_, ?_, ?_, ?_, ?_⟩ <;> first | (simp; done) | ((try dsimp only); (repeat' split) <;> simp; done))

@[simp] theorem queueLanding_keeps (s : State) (slot : Nat) (draft : Bool) (words : List W64) (em : Option Emission) :
    (queueLanding s slot draft words em).pending = s.pending ∧ (queueLanding s slot draft words em).gate = s.gate
      ∧ (queueLanding s slot draft words em).mod = s.mod ∧ (queueLanding s slot draft words em).rows = s.rows
      ∧ (queueLanding s slot draft words em).dumps = s.dumps ∧ (queueLanding s slot draft words em).shed = s.shed
      ∧ (queueLanding s slot draft words em).replay = s.replay ∧ (queueLanding s slot draft words em).reg = s.reg
      ∧ (queueLanding s slot draft words em).just = s.just ∧ (queueLanding s slot draft words em).tiles = s.tiles
      ∧ (queueLanding s slot draft words em).pvs = s.pvs ∧ (queueLanding s slot draft words em).fns = s.fns
      ∧ (queueLanding s slot draft words em).out = s.out ∧ (queueLanding s slot draft words em).free = s.free
      ∧ (queueLanding s slot draft words em).sun = s.sun ∧ (queueLanding s slot draft words em).die.hbm = s.die.hbm
      ∧ (queueLanding s slot draft words em).die.oyKey = s.die.oyKey ∧ (queueLanding s slot draft words em).die.slices = s.die.slices
      ∧ (queueLanding s slot draft words em).die.transfers = s.die.transfers ∧ (queueLanding s slot draft words em).die.commit = s.die.commit
      ∧ (queueLanding s slot draft words em).die.barriers = s.die.barriers ∧ (queueLanding s slot draft words em).die.windows = s.die.windows
      ∧ (queueLanding s slot draft words em).die.ctls = s.die.ctls ∧ (queueLanding s slot draft words em).die.ports = s.die.ports
      ∧ (queueLanding s slot draft words em).die.lodges = s.die.lodges ∧ (queueLanding s slot draft words em).die.reports = s.die.reports
      ∧ (queueLanding s slot draft words em).die.atTick = s.die.atTick := by
  unfold queueLanding; first | (simp; done) | ((try dsimp only); (repeat' split) <;> simp; done) | (refine ⟨?_, ?_, ?_, ?_, ?_, ?_, ?_, ?_, ?_, ?_, ?_, ?_, ?_, ?_, ?_, ?_, ?_, ?_, ?_, ?_, ?_, ?_, ?_, ?_, ?_, ?_, ?_⟩ <;> first | (simp; done) | ((try dsimp only); (repeat' split) <;> simp; done))

@[simp] theorem deriveDrafts_keeps (s : State) (slot : Nat) :
    (deriveDrafts s slot).pending = s.pending ∧ (deriveDrafts s slot).gate = s.gate ∧ (deriveDrafts s slot).mod = s.mod
      ∧ (deriveDrafts s slot).rows = s.rows ∧ (deriveDrafts s slot).dumps = s.dumps ∧ (deriveDrafts s slot).shed = s.shed
      ∧ (deriveDrafts s slot).replay = s.replay ∧ (deriveDrafts s slot).reg = s.reg ∧ (deriveDrafts s slot).just = s.just
      ∧ (deriveDrafts s slot).tiles = s.tiles ∧ (deriveDrafts s slot).pvs = s.pvs ∧ (deriveDrafts s slot).fns = s.fns
      ∧ (deriveDrafts s slot).out = s.out ∧ (deriveDrafts s slot).free = s.free ∧ (deriveDrafts s slot).sun = s.sun
      ∧ (deriveDrafts s slot).die.hbm = s.die.hbm ∧ (deriveDrafts s slot).die.oyKey = s.die.oyKey
      ∧ (deriveDrafts s slot).die.slices = s.die.slices ∧ (deriveDrafts s slot).die.transfers = s.die.transfers
      ∧ (deriveDrafts s slot).die.commit = s.die.commit ∧ (deriveDrafts s slot).die.barriers = s.die.barriers
      ∧ (deriveDrafts s slot).die.windows = s.die.windows ∧ (deriveDrafts s slot).die.ctls = s.die.ctls
      ∧ (deriveDrafts s slot).die.ports = s.die.ports ∧ (deriveDrafts s slot).die.reports = s.die.reports
      ∧ (deriveDrafts s slot).die.atTick = s.die.atTick := by
  unfold deriveDrafts; first | (simp; done) | ((try dsimp only); (repeat' split) <;> simp; done) | (refine ⟨?_, ?_, ?_, ?_, ?_, ?_, ?_, ?_, ?_, ?_, ?_, ?_, ?_, ?_, ?_, ?_, ?_, ?_, ?_, ?_, ?_, ?_, ?_, ?_, ?_, ?_⟩ <;> first | (simp; done) | ((try dsimp only); (repeat' split) <;> simp; done))

@[simp] theorem endStep_keeps (s : State) (slot : Nat) :
    (endStep s slot).pending = s.pending ∧ (endStep s slot).gate = s.gate ∧ (endStep s slot).mod = s.mod ∧ (endStep s slot).rows = s.rows
      ∧ (endStep s slot).dumps = s.dumps ∧ (endStep s slot).shed = s.shed ∧ (endStep s slot).replay = s.replay ∧ (endStep s slot).just = s.just
      ∧ (endStep s slot).tiles = s.tiles ∧ (endStep s slot).pvs = s.pvs ∧ (endStep s slot).fns = s.fns ∧ (endStep s slot).out = s.out
      ∧ (endStep s slot).free = s.free ∧ (endStep s slot).sun = s.sun ∧ (endStep s slot).die.hbm = s.die.hbm
      ∧ (endStep s slot).die.oyKey = s.die.oyKey ∧ (endStep s slot).die.slices = s.die.slices ∧ (endStep s slot).die.transfers = s.die.transfers
      ∧ (endStep s slot).die.commit = s.die.commit ∧ (endStep s slot).die.barriers = s.die.barriers
      ∧ (endStep s slot).die.windows = s.die.windows ∧ (endStep s slot).die.ctls = s.die.ctls ∧ (endStep s slot).die.ports = s.die.ports
      ∧ (endStep s slot).die.lodges = s.die.lodges ∧ (endStep s slot).die.reports = s.die.reports ∧ (endStep s slot).die.atTick = s.die.atTick := by
  unfold endStep; first | (simp; done) | ((try dsimp only); (repeat' split) <;> simp; done) | (refine ⟨?_, ?_, ?_, ?_, ?_, ?_, ?_, ?_, ?_, ?_, ?_, ?_, ?_, ?_, ?_, ?_, ?_, ?_, ?_, ?_, ?_, ?_, ?_, ?_, ?_, ?_⟩ <;> first | (simp; done) | ((try dsimp only); (repeat' split) <;> simp; done))

@[simp] theorem endSlot_keeps (s : State) (slot : Nat) :
    (endSlot s slot).pending = s.pending ∧ (endSlot s slot).gate = s.gate ∧ (endSlot s slot).mod = s.mod ∧ (endSlot s slot).rows = s.rows
      ∧ (endSlot s slot).dumps = s.dumps ∧ (endSlot s slot).shed = s.shed ∧ (endSlot s slot).replay = s.replay ∧ (endSlot s slot).just = s.just
      ∧ (endSlot s slot).tiles = s.tiles ∧ (endSlot s slot).pvs = s.pvs ∧ (endSlot s slot).fns = s.fns ∧ (endSlot s slot).out = s.out
      ∧ (endSlot s slot).free = s.free ∧ (endSlot s slot).sun = s.sun ∧ (endSlot s slot).die.hbm = s.die.hbm
      ∧ (endSlot s slot).die.oyKey = s.die.oyKey ∧ (endSlot s slot).die.slices = s.die.slices ∧ (endSlot s slot).die.transfers = s.die.transfers
      ∧ (endSlot s slot).die.commit = s.die.commit ∧ (endSlot s slot).die.barriers = s.die.barriers
      ∧ (endSlot s slot).die.windows = s.die.windows ∧ (endSlot s slot).die.ctls = s.die.ctls ∧ (endSlot s slot).die.ports = s.die.ports
      ∧ (endSlot s slot).die.lodges = s.die.lodges ∧ (endSlot s slot).die.reports = s.die.reports ∧ (endSlot s slot).die.atTick = s.die.atTick := by
  unfold endSlot; first | (simp; done) | ((try dsimp only); (repeat' split) <;> simp; done) | (refine ⟨?_, ?_, ?_, ?_, ?_, ?_, ?_, ?_, ?_, ?_, ?_, ?_, ?_, ?_, ?_, ?_, ?_, ?_, ?_, ?_, ?_, ?_, ?_, ?_, ?_, ?_⟩ <;> first | (simp; done) | ((try dsimp only); (repeat' split) <;> simp; done))

@[simp] theorem targetCommit_keeps (s : State) (slot : Nat) :
    (targetCommit s slot).pending = s.pending ∧ (targetCommit s slot).gate = s.gate ∧ (targetCommit s slot).mod = s.mod
      ∧ (targetCommit s slot).rows = s.rows ∧ (targetCommit s slot).dumps = s.dumps ∧ (targetCommit s slot).shed = s.shed
      ∧ (targetCommit s slot).replay = s.replay ∧ (targetCommit s slot).just = s.just ∧ (targetCommit s slot).tiles = s.tiles
      ∧ (targetCommit s slot).pvs = s.pvs ∧ (targetCommit s slot).fns = s.fns ∧ (targetCommit s slot).out = s.out
      ∧ (targetCommit s slot).free = s.free ∧ (targetCommit s slot).sun = s.sun ∧ (targetCommit s slot).die.hbm = s.die.hbm
      ∧ (targetCommit s slot).die.oyKey = s.die.oyKey ∧ (targetCommit s slot).die.slices = s.die.slices
      ∧ (targetCommit s slot).die.transfers = s.die.transfers ∧ (targetCommit s slot).die.commit = s.die.commit
      ∧ (targetCommit s slot).die.barriers = s.die.barriers ∧ (targetCommit s slot).die.windows = s.die.windows
      ∧ (targetCommit s slot).die.ctls = s.die.ctls ∧ (targetCommit s slot).die.ports = s.die.ports
      ∧ (targetCommit s slot).die.reports = s.die.reports ∧ (targetCommit s slot).die.atTick = s.die.atTick := by
  unfold targetCommit; first | (simp; done) | ((try dsimp only); (repeat' split) <;> simp; done) | (refine ⟨?_, ?_, ?_, ?_, ?_, ?_, ?_, ?_, ?_, ?_, ?_, ?_, ?_, ?_, ?_, ?_, ?_, ?_, ?_, ?_, ?_, ?_, ?_, ?_, ?_⟩ <;> first | (simp; done) | ((try dsimp only); (repeat' split) <;> simp; done))

@[simp] theorem draftCommit_keeps (s : State) (slot : Nat) :
    (draftCommit s slot).pending = s.pending ∧ (draftCommit s slot).gate = s.gate ∧ (draftCommit s slot).mod = s.mod
      ∧ (draftCommit s slot).rows = s.rows ∧ (draftCommit s slot).dumps = s.dumps ∧ (draftCommit s slot).shed = s.shed
      ∧ (draftCommit s slot).replay = s.replay ∧ (draftCommit s slot).just = s.just ∧ (draftCommit s slot).tiles = s.tiles
      ∧ (draftCommit s slot).pvs = s.pvs ∧ (draftCommit s slot).fns = s.fns ∧ (draftCommit s slot).out = s.out
      ∧ (draftCommit s slot).free = s.free ∧ (draftCommit s slot).sun = s.sun ∧ (draftCommit s slot).die.hbm = s.die.hbm
      ∧ (draftCommit s slot).die.oyKey = s.die.oyKey ∧ (draftCommit s slot).die.slices = s.die.slices
      ∧ (draftCommit s slot).die.transfers = s.die.transfers ∧ (draftCommit s slot).die.commit = s.die.commit
      ∧ (draftCommit s slot).die.barriers = s.die.barriers ∧ (draftCommit s slot).die.windows = s.die.windows
      ∧ (draftCommit s slot).die.ctls = s.die.ctls ∧ (draftCommit s slot).die.ports = s.die.ports
      ∧ (draftCommit s slot).die.lodges = s.die.lodges ∧ (draftCommit s slot).die.reports = s.die.reports
      ∧ (draftCommit s slot).die.atTick = s.die.atTick := by
  unfold draftCommit; first | (simp; done) | ((try dsimp only); (repeat' split) <;> simp; done) | (refine ⟨?_, ?_, ?_, ?_, ?_, ?_, ?_, ?_, ?_, ?_, ?_, ?_, ?_, ?_, ?_, ?_, ?_, ?_, ?_, ?_, ?_, ?_, ?_, ?_, ?_, ?_⟩ <;> first | (simp; done) | ((try dsimp only); (repeat' split) <;> simp; done))

@[simp] theorem landRecord_keeps (s : State) (i : Nat) (draft : Bool) :
    (landRecord s i draft).pending = s.pending ∧ (landRecord s i draft).gate = s.gate ∧ (landRecord s i draft).mod = s.mod
      ∧ (landRecord s i draft).rows = s.rows ∧ (landRecord s i draft).dumps = s.dumps ∧ (landRecord s i draft).shed = s.shed
      ∧ (landRecord s i draft).replay = s.replay ∧ (landRecord s i draft).reg = s.reg ∧ (landRecord s i draft).just = s.just
      ∧ (landRecord s i draft).pvs = s.pvs ∧ (landRecord s i draft).fns = s.fns ∧ (landRecord s i draft).out = s.out
      ∧ (landRecord s i draft).free = s.free ∧ (landRecord s i draft).sun = s.sun ∧ (landRecord s i draft).die.hbm = s.die.hbm
      ∧ (landRecord s i draft).die.oyKey = s.die.oyKey ∧ (landRecord s i draft).die.slices = s.die.slices
      ∧ (landRecord s i draft).die.transfers = s.die.transfers ∧ (landRecord s i draft).die.commit = s.die.commit
      ∧ (landRecord s i draft).die.barriers = s.die.barriers ∧ (landRecord s i draft).die.windows = s.die.windows
      ∧ (landRecord s i draft).die.ctls = s.die.ctls ∧ (landRecord s i draft).die.ports = s.die.ports
      ∧ (landRecord s i draft).die.lodges = s.die.lodges ∧ (landRecord s i draft).die.atTick = s.die.atTick := by
  unfold landRecord; first | (simp; done) | ((try dsimp only); (repeat' split) <;> simp; done) | (refine ⟨?_, ?_, ?_, ?_, ?_, ?_, ?_, ?_, ?_, ?_, ?_, ?_, ?_, ?_, ?_, ?_, ?_, ?_, ?_, ?_, ?_, ?_, ?_, ?_, ?_⟩ <;> first | (simp; done) | ((try dsimp only); (repeat' split) <;> simp; done))

@[simp] theorem dropSlotWork_keeps (s : State) (slot : Nat) :
    (dropSlotWork s slot).pending = s.pending ∧ (dropSlotWork s slot).gate = s.gate ∧ (dropSlotWork s slot).mod = s.mod
      ∧ (dropSlotWork s slot).rows = s.rows ∧ (dropSlotWork s slot).dumps = s.dumps ∧ (dropSlotWork s slot).shed = s.shed
      ∧ (dropSlotWork s slot).replay = s.replay ∧ (dropSlotWork s slot).reg = s.reg ∧ (dropSlotWork s slot).just = s.just
      ∧ (dropSlotWork s slot).tiles = s.tiles ∧ (dropSlotWork s slot).pvs = s.pvs ∧ (dropSlotWork s slot).fns = s.fns
      ∧ (dropSlotWork s slot).out = s.out ∧ (dropSlotWork s slot).free = s.free ∧ (dropSlotWork s slot).sun = s.sun
      ∧ (dropSlotWork s slot).die.hbm = s.die.hbm ∧ (dropSlotWork s slot).die.oyKey = s.die.oyKey
      ∧ (dropSlotWork s slot).die.slices = s.die.slices ∧ (dropSlotWork s slot).die.transfers = s.die.transfers
      ∧ (dropSlotWork s slot).die.commit = s.die.commit ∧ (dropSlotWork s slot).die.barriers = s.die.barriers
      ∧ (dropSlotWork s slot).die.windows = s.die.windows ∧ (dropSlotWork s slot).die.ctls = s.die.ctls
      ∧ (dropSlotWork s slot).die.ports = s.die.ports ∧ (dropSlotWork s slot).die.lodges = s.die.lodges
      ∧ (dropSlotWork s slot).die.reports = s.die.reports ∧ (dropSlotWork s slot).die.atTick = s.die.atTick := by
  unfold dropSlotWork; first | (simp; done) | ((try dsimp only); (repeat' split) <;> simp; done) | (refine ⟨?_, ?_, ?_, ?_, ?_, ?_, ?_, ?_, ?_, ?_, ?_, ?_, ?_, ?_, ?_, ?_, ?_, ?_, ?_, ?_, ?_, ?_, ?_, ?_, ?_, ?_, ?_⟩ <;> first | (simp; done) | ((try dsimp only); (repeat' split) <;> simp; done))

@[simp] theorem closeSlot_keeps (s : State) (slot : Nat) :
    (closeSlot s slot).pending = s.pending ∧ (closeSlot s slot).gate = s.gate ∧ (closeSlot s slot).mod = s.mod ∧ (closeSlot s slot).rows = s.rows
      ∧ (closeSlot s slot).dumps = s.dumps ∧ (closeSlot s slot).shed = s.shed ∧ (closeSlot s slot).replay = s.replay
      ∧ (closeSlot s slot).just = s.just ∧ (closeSlot s slot).tiles = s.tiles ∧ (closeSlot s slot).pvs = s.pvs ∧ (closeSlot s slot).fns = s.fns
      ∧ (closeSlot s slot).out = s.out ∧ (closeSlot s slot).free = s.free ∧ (closeSlot s slot).sun = s.sun
      ∧ (closeSlot s slot).die.hbm = s.die.hbm ∧ (closeSlot s slot).die.oyKey = s.die.oyKey ∧ (closeSlot s slot).die.slices = s.die.slices
      ∧ (closeSlot s slot).die.transfers = s.die.transfers ∧ (closeSlot s slot).die.commit = s.die.commit
      ∧ (closeSlot s slot).die.barriers = s.die.barriers ∧ (closeSlot s slot).die.windows = s.die.windows
      ∧ (closeSlot s slot).die.ctls = s.die.ctls ∧ (closeSlot s slot).die.ports = s.die.ports ∧ (closeSlot s slot).die.reports = s.die.reports
      ∧ (closeSlot s slot).die.atTick = s.die.atTick := by
  unfold closeSlot; first | (simp; done) | ((try dsimp only); (repeat' split) <;> simp; done) | (refine ⟨?_, ?_, ?_, ?_, ?_, ?_, ?_, ?_, ?_, ?_, ?_, ?_, ?_, ?_, ?_, ?_, ?_, ?_, ?_, ?_, ?_, ?_, ?_, ?_, ?_⟩ <;> first | (simp; done) | ((try dsimp only); (repeat' split) <;> simp; done))

@[simp] theorem raiseCollision_keeps (s : State) (p site : Nat) :
    (raiseCollision s p site).pending = s.pending ∧ (raiseCollision s p site).gate = s.gate ∧ (raiseCollision s p site).mod = s.mod
      ∧ (raiseCollision s p site).rows = s.rows ∧ (raiseCollision s p site).dumps = s.dumps ∧ (raiseCollision s p site).shed = s.shed
      ∧ (raiseCollision s p site).replay = s.replay ∧ (raiseCollision s p site).reg = s.reg ∧ (raiseCollision s p site).just = s.just
      ∧ (raiseCollision s p site).pvs = s.pvs ∧ (raiseCollision s p site).fns = s.fns ∧ (raiseCollision s p site).out = s.out
      ∧ (raiseCollision s p site).free = s.free ∧ (raiseCollision s p site).sun = s.sun ∧ (raiseCollision s p site).die.hbm = s.die.hbm
      ∧ (raiseCollision s p site).die.oyKey = s.die.oyKey ∧ (raiseCollision s p site).die.slices = s.die.slices
      ∧ (raiseCollision s p site).die.transfers = s.die.transfers ∧ (raiseCollision s p site).die.commit = s.die.commit
      ∧ (raiseCollision s p site).die.barriers = s.die.barriers ∧ (raiseCollision s p site).die.windows = s.die.windows
      ∧ (raiseCollision s p site).die.ctls = s.die.ctls ∧ (raiseCollision s p site).die.ports = s.die.ports
      ∧ (raiseCollision s p site).die.lodges = s.die.lodges ∧ (raiseCollision s p site).die.band = s.die.band
      ∧ (raiseCollision s p site).die.atTick = s.die.atTick := by
  unfold raiseCollision; first | (simp; done) | ((try dsimp only); (repeat' split) <;> simp; done) | (refine ⟨?_, ?_, ?_, ?_, ?_, ?_, ?_, ?_, ?_, ?_, ?_, ?_, ?_, ?_, ?_, ?_, ?_, ?_, ?_, ?_, ?_, ?_, ?_, ?_, ?_, ?_⟩ <;> first | (simp; done) | ((try dsimp only); (repeat' split) <;> simp; done))

@[simp] theorem State.modXfer_keeps (s : State) (id : Nat) (f : Transfer → Transfer) :
    (State.modXfer s id f).pending = s.pending ∧ (State.modXfer s id f).gate = s.gate ∧ (State.modXfer s id f).mod = s.mod
      ∧ (State.modXfer s id f).rows = s.rows ∧ (State.modXfer s id f).dumps = s.dumps ∧ (State.modXfer s id f).shed = s.shed
      ∧ (State.modXfer s id f).replay = s.replay ∧ (State.modXfer s id f).reg = s.reg ∧ (State.modXfer s id f).just = s.just
      ∧ (State.modXfer s id f).tiles = s.tiles ∧ (State.modXfer s id f).pvs = s.pvs ∧ (State.modXfer s id f).fns = s.fns
      ∧ (State.modXfer s id f).out = s.out ∧ (State.modXfer s id f).free = s.free ∧ (State.modXfer s id f).sun = s.sun
      ∧ (State.modXfer s id f).die.hbm = s.die.hbm ∧ (State.modXfer s id f).die.oyKey = s.die.oyKey
      ∧ (State.modXfer s id f).die.slices = s.die.slices ∧ (State.modXfer s id f).die.commit = s.die.commit
      ∧ (State.modXfer s id f).die.barriers = s.die.barriers ∧ (State.modXfer s id f).die.windows = s.die.windows
      ∧ (State.modXfer s id f).die.ctls = s.die.ctls ∧ (State.modXfer s id f).die.ports = s.die.ports
      ∧ (State.modXfer s id f).die.lodges = s.die.lodges ∧ (State.modXfer s id f).die.band = s.die.band
      ∧ (State.modXfer s id f).die.reports = s.die.reports ∧ (State.modXfer s id f).die.atTick = s.die.atTick := by
  unfold State.modXfer; first | (simp; done) | ((try dsimp only); (repeat' split) <;> simp; done) | (refine ⟨?_, ?_, ?_, ?_, ?_, ?_, ?_, ?_, ?_, ?_, ?_, ?_, ?_, ?_, ?_, ?_, ?_, ?_, ?_, ?_, ?_, ?_, ?_, ?_, ?_, ?_, ?_⟩ <;> first | (simp; done) | ((try dsimp only); (repeat' split) <;> simp; done))

@[simp] theorem runOutput_keeps (all heads : List Waiter) (s : State) (site : Nat × Nat) :
    (runOutput all heads s site).pending = s.pending ∧ (runOutput all heads s site).gate = s.gate ∧ (runOutput all heads s site).mod = s.mod
      ∧ (runOutput all heads s site).rows = s.rows ∧ (runOutput all heads s site).dumps = s.dumps ∧ (runOutput all heads s site).shed = s.shed
      ∧ (runOutput all heads s site).replay = s.replay ∧ (runOutput all heads s site).reg = s.reg ∧ (runOutput all heads s site).just = s.just
      ∧ (runOutput all heads s site).tiles = s.tiles ∧ (runOutput all heads s site).pvs = s.pvs ∧ (runOutput all heads s site).fns = s.fns
      ∧ (runOutput all heads s site).out = s.out ∧ (runOutput all heads s site).free = s.free ∧ (runOutput all heads s site).sun = s.sun
      ∧ (runOutput all heads s site).die.hbm = s.die.hbm ∧ (runOutput all heads s site).die.oyKey = s.die.oyKey
      ∧ (runOutput all heads s site).die.slices = s.die.slices ∧ (runOutput all heads s site).die.commit = s.die.commit
      ∧ (runOutput all heads s site).die.barriers = s.die.barriers ∧ (runOutput all heads s site).die.windows = s.die.windows
      ∧ (runOutput all heads s site).die.ctls = s.die.ctls ∧ (runOutput all heads s site).die.ports = s.die.ports
      ∧ (runOutput all heads s site).die.lodges = s.die.lodges ∧ (runOutput all heads s site).die.band = s.die.band
      ∧ (runOutput all heads s site).die.reports = s.die.reports ∧ (runOutput all heads s site).die.atTick = s.die.atTick := by
  unfold runOutput; first | (simp; done) | ((try dsimp only); (repeat' split) <;> simp; done) | (refine ⟨?_, ?_, ?_, ?_, ?_, ?_, ?_, ?_, ?_, ?_, ?_, ?_, ?_, ?_, ?_, ?_, ?_, ?_, ?_, ?_, ?_, ?_, ?_, ?_, ?_, ?_, ?_⟩ <;> first | (simp; done) | ((try dsimp only); (repeat' split) <;> simp; done))

@[simp] theorem newTransfer_keeps (s : State) (x : Transfer) :
    (newTransfer s x).pending = s.pending ∧ (newTransfer s x).gate = s.gate ∧ (newTransfer s x).mod = s.mod ∧ (newTransfer s x).rows = s.rows
      ∧ (newTransfer s x).dumps = s.dumps ∧ (newTransfer s x).shed = s.shed ∧ (newTransfer s x).replay = s.replay ∧ (newTransfer s x).reg = s.reg
      ∧ (newTransfer s x).just = s.just ∧ (newTransfer s x).tiles = s.tiles ∧ (newTransfer s x).pvs = s.pvs ∧ (newTransfer s x).fns = s.fns
      ∧ (newTransfer s x).out = s.out ∧ (newTransfer s x).free = s.free ∧ (newTransfer s x).sun = s.sun ∧ (newTransfer s x).die.hbm = s.die.hbm
      ∧ (newTransfer s x).die.oyKey = s.die.oyKey ∧ (newTransfer s x).die.slices = s.die.slices ∧ (newTransfer s x).die.commit = s.die.commit
      ∧ (newTransfer s x).die.barriers = s.die.barriers ∧ (newTransfer s x).die.windows = s.die.windows ∧ (newTransfer s x).die.ctls = s.die.ctls
      ∧ (newTransfer s x).die.ports = s.die.ports ∧ (newTransfer s x).die.lodges = s.die.lodges ∧ (newTransfer s x).die.band = s.die.band
      ∧ (newTransfer s x).die.reports = s.die.reports ∧ (newTransfer s x).die.atTick = s.die.atTick := by
  unfold newTransfer; first | (simp; done) | ((try dsimp only); (repeat' split) <;> simp; done) | (refine ⟨?_, ?_, ?_, ?_, ?_, ?_, ?_, ?_, ?_, ?_, ?_, ?_, ?_, ?_, ?_, ?_, ?_, ?_, ?_, ?_, ?_, ?_, ?_, ?_, ?_, ?_, ?_⟩ <;> first | (simp; done) | ((try dsimp only); (repeat' split) <;> simp; done))

@[simp] theorem enterFlit_keeps (s : State) (id car i off : Nat) (data : List Byte) :
    (enterFlit s id car i off data).pending = s.pending ∧ (enterFlit s id car i off data).gate = s.gate
      ∧ (enterFlit s id car i off data).mod = s.mod ∧ (enterFlit s id car i off data).rows = s.rows
      ∧ (enterFlit s id car i off data).dumps = s.dumps ∧ (enterFlit s id car i off data).shed = s.shed
      ∧ (enterFlit s id car i off data).replay = s.replay ∧ (enterFlit s id car i off data).reg = s.reg
      ∧ (enterFlit s id car i off data).just = s.just ∧ (enterFlit s id car i off data).tiles = s.tiles
      ∧ (enterFlit s id car i off data).pvs = s.pvs ∧ (enterFlit s id car i off data).fns = s.fns ∧ (enterFlit s id car i off data).out = s.out
      ∧ (enterFlit s id car i off data).free = s.free ∧ (enterFlit s id car i off data).sun = s.sun
      ∧ (enterFlit s id car i off data).die.hbm = s.die.hbm ∧ (enterFlit s id car i off data).die.oyKey = s.die.oyKey
      ∧ (enterFlit s id car i off data).die.slices = s.die.slices ∧ (enterFlit s id car i off data).die.commit = s.die.commit
      ∧ (enterFlit s id car i off data).die.barriers = s.die.barriers ∧ (enterFlit s id car i off data).die.windows = s.die.windows
      ∧ (enterFlit s id car i off data).die.ctls = s.die.ctls ∧ (enterFlit s id car i off data).die.ports = s.die.ports
      ∧ (enterFlit s id car i off data).die.lodges = s.die.lodges ∧ (enterFlit s id car i off data).die.band = s.die.band
      ∧ (enterFlit s id car i off data).die.reports = s.die.reports ∧ (enterFlit s id car i off data).die.atTick = s.die.atTick := by
  unfold enterFlit; first | (simp; done) | ((try dsimp only); (repeat' split) <;> simp; done) | (refine ⟨?_, ?_, ?_, ?_, ?_, ?_, ?_, ?_, ?_, ?_, ?_, ?_, ?_, ?_, ?_, ?_, ?_, ?_, ?_, ?_, ?_, ?_, ?_, ?_, ?_, ?_, ?_⟩ <;> first | (simp; done) | ((try dsimp only); (repeat' split) <;> simp; done))

@[simp] theorem sendCtl_keeps (s : State) (body : CtlBody) (h : Nat) :
    (sendCtl s body h).pending = s.pending ∧ (sendCtl s body h).gate = s.gate ∧ (sendCtl s body h).mod = s.mod ∧ (sendCtl s body h).rows = s.rows
      ∧ (sendCtl s body h).dumps = s.dumps ∧ (sendCtl s body h).shed = s.shed ∧ (sendCtl s body h).replay = s.replay
      ∧ (sendCtl s body h).reg = s.reg ∧ (sendCtl s body h).just = s.just ∧ (sendCtl s body h).tiles = s.tiles ∧ (sendCtl s body h).pvs = s.pvs
      ∧ (sendCtl s body h).fns = s.fns ∧ (sendCtl s body h).out = s.out ∧ (sendCtl s body h).free = s.free ∧ (sendCtl s body h).sun = s.sun
      ∧ (sendCtl s body h).die.hbm = s.die.hbm ∧ (sendCtl s body h).die.oyKey = s.die.oyKey ∧ (sendCtl s body h).die.slices = s.die.slices
      ∧ (sendCtl s body h).die.transfers = s.die.transfers ∧ (sendCtl s body h).die.commit = s.die.commit
      ∧ (sendCtl s body h).die.barriers = s.die.barriers ∧ (sendCtl s body h).die.windows = s.die.windows
      ∧ (sendCtl s body h).die.ports = s.die.ports ∧ (sendCtl s body h).die.lodges = s.die.lodges ∧ (sendCtl s body h).die.band = s.die.band
      ∧ (sendCtl s body h).die.reports = s.die.reports ∧ (sendCtl s body h).die.atTick = s.die.atTick := by
  unfold sendCtl; first | (simp; done) | ((try dsimp only); (repeat' split) <;> simp; done) | (refine ⟨?_, ?_, ?_, ?_, ?_, ?_, ?_, ?_, ?_, ?_, ?_, ?_, ?_, ?_, ?_, ?_, ?_, ?_, ?_, ?_, ?_, ?_, ?_, ?_, ?_, ?_, ?_⟩ <;> first | (simp; done) | ((try dsimp only); (repeat' split) <;> simp; done))

@[simp] theorem queueCtl_keeps (s : State) (port : Nat) (c0 c1 : W64) :
    (queueCtl s port c0 c1).pending = s.pending ∧ (queueCtl s port c0 c1).gate = s.gate ∧ (queueCtl s port c0 c1).mod = s.mod
      ∧ (queueCtl s port c0 c1).rows = s.rows ∧ (queueCtl s port c0 c1).dumps = s.dumps ∧ (queueCtl s port c0 c1).shed = s.shed
      ∧ (queueCtl s port c0 c1).replay = s.replay ∧ (queueCtl s port c0 c1).reg = s.reg ∧ (queueCtl s port c0 c1).just = s.just
      ∧ (queueCtl s port c0 c1).tiles = s.tiles ∧ (queueCtl s port c0 c1).pvs = s.pvs ∧ (queueCtl s port c0 c1).fns = s.fns
      ∧ (queueCtl s port c0 c1).free = s.free ∧ (queueCtl s port c0 c1).sun = s.sun ∧ (queueCtl s port c0 c1).die.hbm = s.die.hbm
      ∧ (queueCtl s port c0 c1).die.oyKey = s.die.oyKey ∧ (queueCtl s port c0 c1).die.slices = s.die.slices
      ∧ (queueCtl s port c0 c1).die.transfers = s.die.transfers ∧ (queueCtl s port c0 c1).die.commit = s.die.commit
      ∧ (queueCtl s port c0 c1).die.barriers = s.die.barriers ∧ (queueCtl s port c0 c1).die.windows = s.die.windows
      ∧ (queueCtl s port c0 c1).die.ctls = s.die.ctls ∧ (queueCtl s port c0 c1).die.lodges = s.die.lodges
      ∧ (queueCtl s port c0 c1).die.band = s.die.band ∧ (queueCtl s port c0 c1).die.reports = s.die.reports
      ∧ (queueCtl s port c0 c1).die.atTick = s.die.atTick := by
  unfold queueCtl; first | (simp; done) | ((try dsimp only); (repeat' split) <;> simp; done) | (refine ⟨?_, ?_, ?_, ?_, ?_, ?_, ?_, ?_, ?_, ?_, ?_, ?_, ?_, ?_, ?_, ?_, ?_, ?_, ?_, ?_, ?_, ?_, ?_, ?_, ?_, ?_⟩ <;> first | (simp; done) | ((try dsimp only); (repeat' split) <;> simp; done))

@[simp] theorem sendWord_keeps (s : State) (ports : List Nat) (type low : Nat) (c1 : W64) :
    (sendWord s ports type low c1).pending = s.pending ∧ (sendWord s ports type low c1).gate = s.gate
      ∧ (sendWord s ports type low c1).mod = s.mod ∧ (sendWord s ports type low c1).rows = s.rows
      ∧ (sendWord s ports type low c1).dumps = s.dumps ∧ (sendWord s ports type low c1).shed = s.shed
      ∧ (sendWord s ports type low c1).replay = s.replay ∧ (sendWord s ports type low c1).reg = s.reg
      ∧ (sendWord s ports type low c1).just = s.just ∧ (sendWord s ports type low c1).tiles = s.tiles
      ∧ (sendWord s ports type low c1).pvs = s.pvs ∧ (sendWord s ports type low c1).fns = s.fns ∧ (sendWord s ports type low c1).free = s.free
      ∧ (sendWord s ports type low c1).sun = s.sun ∧ (sendWord s ports type low c1).die.hbm = s.die.hbm
      ∧ (sendWord s ports type low c1).die.oyKey = s.die.oyKey ∧ (sendWord s ports type low c1).die.slices = s.die.slices
      ∧ (sendWord s ports type low c1).die.transfers = s.die.transfers ∧ (sendWord s ports type low c1).die.commit = s.die.commit
      ∧ (sendWord s ports type low c1).die.barriers = s.die.barriers ∧ (sendWord s ports type low c1).die.windows = s.die.windows
      ∧ (sendWord s ports type low c1).die.ctls = s.die.ctls ∧ (sendWord s ports type low c1).die.lodges = s.die.lodges
      ∧ (sendWord s ports type low c1).die.band = s.die.band ∧ (sendWord s ports type low c1).die.reports = s.die.reports
      ∧ (sendWord s ports type low c1).die.atTick = s.die.atTick := by
  unfold sendWord; first | (simp; done) | ((try dsimp only); (repeat' split) <;> simp; done) | (refine ⟨?_, ?_, ?_, ?_, ?_, ?_, ?_, ?_, ?_, ?_, ?_, ?_, ?_, ?_, ?_, ?_, ?_, ?_, ?_, ?_, ?_, ?_, ?_, ?_, ?_, ?_⟩ <;> first | (simp; done) | ((try dsimp only); (repeat' split) <;> simp; done))

@[simp] theorem State.tellWarden_keeps (s : State) (module : Nat) (m : WMsg) :
    (State.tellWarden s module m).pending = s.pending ∧ (State.tellWarden s module m).gate = s.gate ∧ (State.tellWarden s module m).mod = s.mod
      ∧ (State.tellWarden s module m).rows = s.rows ∧ (State.tellWarden s module m).dumps = s.dumps ∧ (State.tellWarden s module m).shed = s.shed
      ∧ (State.tellWarden s module m).replay = s.replay ∧ (State.tellWarden s module m).reg = s.reg ∧ (State.tellWarden s module m).just = s.just
      ∧ (State.tellWarden s module m).tiles = s.tiles ∧ (State.tellWarden s module m).pvs = s.pvs ∧ (State.tellWarden s module m).fns = s.fns
      ∧ (State.tellWarden s module m).free = s.free ∧ (State.tellWarden s module m).sun = s.sun
      ∧ (State.tellWarden s module m).die.hbm = s.die.hbm ∧ (State.tellWarden s module m).die.oyKey = s.die.oyKey
      ∧ (State.tellWarden s module m).die.slices = s.die.slices ∧ (State.tellWarden s module m).die.transfers = s.die.transfers
      ∧ (State.tellWarden s module m).die.commit = s.die.commit ∧ (State.tellWarden s module m).die.barriers = s.die.barriers
      ∧ (State.tellWarden s module m).die.windows = s.die.windows ∧ (State.tellWarden s module m).die.ctls = s.die.ctls
      ∧ (State.tellWarden s module m).die.lodges = s.die.lodges ∧ (State.tellWarden s module m).die.band = s.die.band
      ∧ (State.tellWarden s module m).die.reports = s.die.reports ∧ (State.tellWarden s module m).die.atTick = s.die.atTick := by
  unfold State.tellWarden; first | (simp; done) | ((try dsimp only); (repeat' split) <;> simp; done) | (refine ⟨?_, ?_, ?_, ?_, ?_, ?_, ?_, ?_, ?_, ?_, ?_, ?_, ?_, ?_, ?_, ?_, ?_, ?_, ?_, ?_, ?_, ?_, ?_, ?_, ?_, ?_⟩ <;> first | (simp; done) | ((try dsimp only); (repeat' split) <;> simp; done))

@[simp] theorem addCredits_keeps (s : State) (p n count : Nat) :
    (addCredits s p n count).pending = s.pending ∧ (addCredits s p n count).gate = s.gate ∧ (addCredits s p n count).mod = s.mod
      ∧ (addCredits s p n count).rows = s.rows ∧ (addCredits s p n count).dumps = s.dumps ∧ (addCredits s p n count).shed = s.shed
      ∧ (addCredits s p n count).replay = s.replay ∧ (addCredits s p n count).reg = s.reg ∧ (addCredits s p n count).just = s.just
      ∧ (addCredits s p n count).pvs = s.pvs ∧ (addCredits s p n count).fns = s.fns ∧ (addCredits s p n count).out = s.out
      ∧ (addCredits s p n count).free = s.free ∧ (addCredits s p n count).sun = s.sun ∧ (addCredits s p n count).die.hbm = s.die.hbm
      ∧ (addCredits s p n count).die.oyKey = s.die.oyKey ∧ (addCredits s p n count).die.slices = s.die.slices
      ∧ (addCredits s p n count).die.transfers = s.die.transfers ∧ (addCredits s p n count).die.commit = s.die.commit
      ∧ (addCredits s p n count).die.barriers = s.die.barriers ∧ (addCredits s p n count).die.windows = s.die.windows
      ∧ (addCredits s p n count).die.ctls = s.die.ctls ∧ (addCredits s p n count).die.ports = s.die.ports
      ∧ (addCredits s p n count).die.lodges = s.die.lodges ∧ (addCredits s p n count).die.band = s.die.band
      ∧ (addCredits s p n count).die.atTick = s.die.atTick := by
  unfold addCredits; first | (simp; done) | ((try dsimp only); (repeat' split) <;> simp; done) | (refine ⟨?_, ?_, ?_, ?_, ?_, ?_, ?_, ?_, ?_, ?_, ?_, ?_, ?_, ?_, ?_, ?_, ?_, ?_, ?_, ?_, ?_, ?_, ?_, ?_, ?_, ?_⟩ <;> first | (simp; done) | ((try dsimp only); (repeat' split) <;> simp; done))

@[simp] theorem revoke_keeps (s : State) (p n : Nat) :
    (revoke s p n).pending = s.pending ∧ (revoke s p n).gate = s.gate ∧ (revoke s p n).mod = s.mod ∧ (revoke s p n).rows = s.rows
      ∧ (revoke s p n).dumps = s.dumps ∧ (revoke s p n).shed = s.shed ∧ (revoke s p n).replay = s.replay ∧ (revoke s p n).reg = s.reg
      ∧ (revoke s p n).just = s.just ∧ (revoke s p n).pvs = s.pvs ∧ (revoke s p n).fns = s.fns ∧ (revoke s p n).out = s.out
      ∧ (revoke s p n).free = s.free ∧ (revoke s p n).sun = s.sun ∧ (revoke s p n).die.hbm = s.die.hbm ∧ (revoke s p n).die.oyKey = s.die.oyKey
      ∧ (revoke s p n).die.slices = s.die.slices ∧ (revoke s p n).die.transfers = s.die.transfers ∧ (revoke s p n).die.commit = s.die.commit
      ∧ (revoke s p n).die.barriers = s.die.barriers ∧ (revoke s p n).die.windows = s.die.windows ∧ (revoke s p n).die.ctls = s.die.ctls
      ∧ (revoke s p n).die.ports = s.die.ports ∧ (revoke s p n).die.lodges = s.die.lodges ∧ (revoke s p n).die.band = s.die.band
      ∧ (revoke s p n).die.atTick = s.die.atTick := by
  unfold revoke; first | (simp; done) | ((try dsimp only); (repeat' split) <;> simp; done) | (refine ⟨?_, ?_, ?_, ?_, ?_, ?_, ?_, ?_, ?_, ?_, ?_, ?_, ?_, ?_, ?_, ?_, ?_, ?_, ?_, ?_, ?_, ?_, ?_, ?_, ?_, ?_⟩ <;> first | (simp; done) | ((try dsimp only); (repeat' split) <;> simp; done))

@[simp] theorem closeRecv_keeps (s : State) (p n : Nat) :
    (closeRecv s p n).pending = s.pending ∧ (closeRecv s p n).gate = s.gate ∧ (closeRecv s p n).mod = s.mod ∧ (closeRecv s p n).rows = s.rows
      ∧ (closeRecv s p n).dumps = s.dumps ∧ (closeRecv s p n).shed = s.shed ∧ (closeRecv s p n).replay = s.replay ∧ (closeRecv s p n).reg = s.reg
      ∧ (closeRecv s p n).just = s.just ∧ (closeRecv s p n).pvs = s.pvs ∧ (closeRecv s p n).fns = s.fns ∧ (closeRecv s p n).free = s.free
      ∧ (closeRecv s p n).sun = s.sun ∧ (closeRecv s p n).die.hbm = s.die.hbm ∧ (closeRecv s p n).die.oyKey = s.die.oyKey
      ∧ (closeRecv s p n).die.slices = s.die.slices ∧ (closeRecv s p n).die.transfers = s.die.transfers
      ∧ (closeRecv s p n).die.commit = s.die.commit ∧ (closeRecv s p n).die.barriers = s.die.barriers
      ∧ (closeRecv s p n).die.windows = s.die.windows ∧ (closeRecv s p n).die.lodges = s.die.lodges ∧ (closeRecv s p n).die.band = s.die.band
      ∧ (closeRecv s p n).die.reports = s.die.reports ∧ (closeRecv s p n).die.atTick = s.die.atTick := by
  unfold closeRecv; first | (simp; done) | ((try dsimp only); (repeat' split) <;> simp; done) | (refine ⟨?_, ?_, ?_, ?_, ?_, ?_, ?_, ?_, ?_, ?_, ?_, ?_, ?_, ?_, ?_, ?_, ?_, ?_, ?_, ?_, ?_, ?_, ?_, ?_⟩ <;> first | (simp; done) | ((try dsimp only); (repeat' split) <;> simp; done))

@[simp] theorem closeChannels_keeps (s : State) (p : Nat) :
    (closeChannels s p).pending = s.pending ∧ (closeChannels s p).gate = s.gate ∧ (closeChannels s p).mod = s.mod
      ∧ (closeChannels s p).rows = s.rows ∧ (closeChannels s p).dumps = s.dumps ∧ (closeChannels s p).shed = s.shed
      ∧ (closeChannels s p).replay = s.replay ∧ (closeChannels s p).reg = s.reg ∧ (closeChannels s p).just = s.just
      ∧ (closeChannels s p).pvs = s.pvs ∧ (closeChannels s p).fns = s.fns ∧ (closeChannels s p).free = s.free ∧ (closeChannels s p).sun = s.sun
      ∧ (closeChannels s p).die.hbm = s.die.hbm ∧ (closeChannels s p).die.oyKey = s.die.oyKey ∧ (closeChannels s p).die.slices = s.die.slices
      ∧ (closeChannels s p).die.transfers = s.die.transfers ∧ (closeChannels s p).die.commit = s.die.commit
      ∧ (closeChannels s p).die.barriers = s.die.barriers ∧ (closeChannels s p).die.windows = s.die.windows
      ∧ (closeChannels s p).die.lodges = s.die.lodges ∧ (closeChannels s p).die.band = s.die.band
      ∧ (closeChannels s p).die.reports = s.die.reports ∧ (closeChannels s p).die.atTick = s.die.atTick := by
  unfold closeChannels; first | (simp; done) | ((try dsimp only); (repeat' split) <;> simp; done) | (refine ⟨?_, ?_, ?_, ?_, ?_, ?_, ?_, ?_, ?_, ?_, ?_, ?_, ?_, ?_, ?_, ?_, ?_, ?_, ?_, ?_, ?_, ?_, ?_, ?_⟩ <;> first | (simp; done) | ((try dsimp only); (repeat' split) <;> simp; done))

@[simp] theorem takeClaim_keeps (s : State) (p : Nat) (c : Claim) :
    (takeClaim s p c).pending = s.pending ∧ (takeClaim s p c).gate = s.gate ∧ (takeClaim s p c).mod = s.mod ∧ (takeClaim s p c).rows = s.rows
      ∧ (takeClaim s p c).dumps = s.dumps ∧ (takeClaim s p c).shed = s.shed ∧ (takeClaim s p c).replay = s.replay ∧ (takeClaim s p c).reg = s.reg
      ∧ (takeClaim s p c).just = s.just ∧ (takeClaim s p c).pvs = s.pvs ∧ (takeClaim s p c).fns = s.fns ∧ (takeClaim s p c).out = s.out
      ∧ (takeClaim s p c).free = s.free ∧ (takeClaim s p c).sun = s.sun ∧ (takeClaim s p c).die = s.die := by
  unfold takeClaim; first | (simp; done) | ((try dsimp only); (repeat' split) <;> simp; done) | (refine ⟨?_, ?_, ?_, ?_, ?_, ?_, ?_, ?_, ?_, ?_, ?_, ?_, ?_, ?_, ?_⟩ <;> first | (simp; done) | ((try dsimp only); (repeat' split) <;> simp; done))

@[simp] theorem State.modSeq_keeps (s : State) (p : Nat) (f : Seq → Seq) :
    (State.modSeq s p f).pending = s.pending ∧ (State.modSeq s p f).gate = s.gate ∧ (State.modSeq s p f).mod = s.mod
      ∧ (State.modSeq s p f).rows = s.rows ∧ (State.modSeq s p f).dumps = s.dumps ∧ (State.modSeq s p f).shed = s.shed
      ∧ (State.modSeq s p f).replay = s.replay ∧ (State.modSeq s p f).reg = s.reg ∧ (State.modSeq s p f).just = s.just
      ∧ (State.modSeq s p f).pvs = s.pvs ∧ (State.modSeq s p f).fns = s.fns ∧ (State.modSeq s p f).out = s.out
      ∧ (State.modSeq s p f).free = s.free ∧ (State.modSeq s p f).sun = s.sun ∧ (State.modSeq s p f).die = s.die := by
  unfold State.modSeq; first | (simp; done) | ((try dsimp only); (repeat' split) <;> simp; done) | (refine ⟨?_, ?_, ?_, ?_, ?_, ?_, ?_, ?_, ?_, ?_, ?_, ?_, ?_, ?_, ?_⟩ <;> first | (simp; done) | ((try dsimp only); (repeat' split) <;> simp; done))

@[simp] theorem fetchLine_keeps (s : State) (p line : Nat) (forLink : Bool) (chk : Check) :
    (fetchLine s p line forLink chk).1.pending = s.pending ∧ (fetchLine s p line forLink chk).1.gate = s.gate
      ∧ (fetchLine s p line forLink chk).1.mod = s.mod ∧ (fetchLine s p line forLink chk).1.rows = s.rows
      ∧ (fetchLine s p line forLink chk).1.dumps = s.dumps ∧ (fetchLine s p line forLink chk).1.pvs = s.pvs
      ∧ (fetchLine s p line forLink chk).1.fns = s.fns ∧ (fetchLine s p line forLink chk).1.die.hbm = s.die.hbm
      ∧ (fetchLine s p line forLink chk).1.die.oyKey = s.die.oyKey ∧ (fetchLine s p line forLink chk).1.die.slices = s.die.slices
      ∧ (fetchLine s p line forLink chk).1.die.transfers = s.die.transfers ∧ (fetchLine s p line forLink chk).1.die.commit = s.die.commit
      ∧ (fetchLine s p line forLink chk).1.die.barriers = s.die.barriers ∧ (fetchLine s p line forLink chk).1.die.windows = s.die.windows
      ∧ (fetchLine s p line forLink chk).1.die.ctls = s.die.ctls ∧ (fetchLine s p line forLink chk).1.die.lodges = s.die.lodges
      ∧ (fetchLine s p line forLink chk).1.die.band = s.die.band ∧ (fetchLine s p line forLink chk).1.die.reports = s.die.reports
      ∧ (fetchLine s p line forLink chk).1.die.atTick = s.die.atTick := by
  unfold fetchLine; first | (simp; done) | ((try dsimp only); (repeat' split) <;> simp; done) | (refine ⟨?_, ?_, ?_, ?_, ?_, ?_, ?_, ?_, ?_, ?_, ?_, ?_, ?_, ?_, ?_, ?_, ?_, ?_, ?_⟩ <;> first | (simp; done) | ((try dsimp only); (repeat' split) <;> simp; done))

@[simp] theorem fillBuf_keeps (s : State) (p head : Nat) (buf : List FetchLine) (chk : Check) :
    (fillBuf s p head buf chk).1.pending = s.pending ∧ (fillBuf s p head buf chk).1.gate = s.gate ∧ (fillBuf s p head buf chk).1.mod = s.mod
      ∧ (fillBuf s p head buf chk).1.rows = s.rows ∧ (fillBuf s p head buf chk).1.dumps = s.dumps ∧ (fillBuf s p head buf chk).1.pvs = s.pvs
      ∧ (fillBuf s p head buf chk).1.fns = s.fns ∧ (fillBuf s p head buf chk).1.die.hbm = s.die.hbm
      ∧ (fillBuf s p head buf chk).1.die.oyKey = s.die.oyKey ∧ (fillBuf s p head buf chk).1.die.slices = s.die.slices
      ∧ (fillBuf s p head buf chk).1.die.transfers = s.die.transfers ∧ (fillBuf s p head buf chk).1.die.commit = s.die.commit
      ∧ (fillBuf s p head buf chk).1.die.barriers = s.die.barriers ∧ (fillBuf s p head buf chk).1.die.windows = s.die.windows
      ∧ (fillBuf s p head buf chk).1.die.ctls = s.die.ctls ∧ (fillBuf s p head buf chk).1.die.lodges = s.die.lodges
      ∧ (fillBuf s p head buf chk).1.die.band = s.die.band ∧ (fillBuf s p head buf chk).1.die.reports = s.die.reports
      ∧ (fillBuf s p head buf chk).1.die.atTick = s.die.atTick := by
  unfold fillBuf; first | (simp; done) | ((try dsimp only); (repeat' split) <;> simp; done) | (refine ⟨?_, ?_, ?_, ?_, ?_, ?_, ?_, ?_, ?_, ?_, ?_, ?_, ?_, ?_, ?_, ?_, ?_, ?_, ?_⟩ <;> first | (simp; done) | ((try dsimp only); (repeat' split) <;> simp; done))

@[simp] theorem breakWait_keeps (s : State) (p : Nat) :
    (breakWait s p).pending = s.pending ∧ (breakWait s p).gate = s.gate ∧ (breakWait s p).mod = s.mod ∧ (breakWait s p).rows = s.rows
      ∧ (breakWait s p).dumps = s.dumps ∧ (breakWait s p).shed = s.shed ∧ (breakWait s p).replay = s.replay ∧ (breakWait s p).reg = s.reg
      ∧ (breakWait s p).just = s.just ∧ (breakWait s p).pvs = s.pvs ∧ (breakWait s p).fns = s.fns ∧ (breakWait s p).out = s.out
      ∧ (breakWait s p).free = s.free ∧ (breakWait s p).sun = s.sun ∧ (breakWait s p).die.hbm = s.die.hbm
      ∧ (breakWait s p).die.oyKey = s.die.oyKey ∧ (breakWait s p).die.slices = s.die.slices ∧ (breakWait s p).die.transfers = s.die.transfers
      ∧ (breakWait s p).die.commit = s.die.commit ∧ (breakWait s p).die.barriers = s.die.barriers ∧ (breakWait s p).die.windows = s.die.windows
      ∧ (breakWait s p).die.ctls = s.die.ctls ∧ (breakWait s p).die.ports = s.die.ports ∧ (breakWait s p).die.lodges = s.die.lodges
      ∧ (breakWait s p).die.band = s.die.band ∧ (breakWait s p).die.atTick = s.die.atTick := by
  unfold breakWait; first | (simp; done) | ((try dsimp only); (repeat' split) <;> simp; done) | (refine ⟨?_, ?_, ?_, ?_, ?_, ?_, ?_, ?_, ?_, ?_, ?_, ?_, ?_, ?_, ?_, ?_, ?_, ?_, ?_, ?_, ?_, ?_, ?_, ?_, ?_, ?_⟩ <;> first | (simp; done) | ((try dsimp only); (repeat' split) <;> simp; done))

@[simp] theorem noteProgress_keeps (s : State) :
    (noteProgress s).pending = s.pending ∧ (noteProgress s).gate = s.gate ∧ (noteProgress s).mod = s.mod ∧ (noteProgress s).rows = s.rows
      ∧ (noteProgress s).dumps = s.dumps ∧ (noteProgress s).shed = s.shed ∧ (noteProgress s).reg = s.reg ∧ (noteProgress s).just = s.just
      ∧ (noteProgress s).tiles = s.tiles ∧ (noteProgress s).pvs = s.pvs ∧ (noteProgress s).fns = s.fns ∧ (noteProgress s).out = s.out
      ∧ (noteProgress s).free = s.free ∧ (noteProgress s).sun = s.sun ∧ (noteProgress s).die = s.die := by
  unfold noteProgress; first | (simp; done) | ((try dsimp only); (repeat' split) <;> simp; done) | (refine ⟨?_, ?_, ?_, ?_, ?_, ?_, ?_, ?_, ?_, ?_, ?_, ?_, ?_, ?_, ?_⟩ <;> first | (simp; done) | ((try dsimp only); (repeat' split) <;> simp; done))

@[simp] theorem leaveWindow_keeps (s : State) (p i : Nat) :
    (leaveWindow s p i).pending = s.pending ∧ (leaveWindow s p i).gate = s.gate ∧ (leaveWindow s p i).mod = s.mod
      ∧ (leaveWindow s p i).rows = s.rows ∧ (leaveWindow s p i).dumps = s.dumps ∧ (leaveWindow s p i).shed = s.shed
      ∧ (leaveWindow s p i).replay = s.replay ∧ (leaveWindow s p i).reg = s.reg ∧ (leaveWindow s p i).just = s.just
      ∧ (leaveWindow s p i).pvs = s.pvs ∧ (leaveWindow s p i).fns = s.fns ∧ (leaveWindow s p i).out = s.out ∧ (leaveWindow s p i).free = s.free
      ∧ (leaveWindow s p i).sun = s.sun ∧ (leaveWindow s p i).die = s.die := by
  unfold leaveWindow; first | (simp; done) | ((try dsimp only); (repeat' split) <;> simp; done) | (refine ⟨?_, ?_, ?_, ?_, ?_, ?_, ?_, ?_, ?_, ?_, ?_, ?_, ?_, ?_, ?_⟩ <;> first | (simp; done) | ((try dsimp only); (repeat' split) <;> simp; done))

@[simp] theorem logMove_keeps (s : State) (p : Nat) (d : Desc) :
    (logMove s p d).pending = s.pending ∧ (logMove s p d).gate = s.gate ∧ (logMove s p d).mod = s.mod ∧ (logMove s p d).rows = s.rows
      ∧ (logMove s p d).dumps = s.dumps ∧ (logMove s p d).shed = s.shed ∧ (logMove s p d).replay = s.replay ∧ (logMove s p d).reg = s.reg
      ∧ (logMove s p d).just = s.just ∧ (logMove s p d).pvs = s.pvs ∧ (logMove s p d).fns = s.fns ∧ (logMove s p d).out = s.out
      ∧ (logMove s p d).free = s.free ∧ (logMove s p d).sun = s.sun ∧ (logMove s p d).die = s.die := by
  unfold logMove; first | (simp; done) | ((try dsimp only); (repeat' split) <;> simp; done) | (refine ⟨?_, ?_, ?_, ?_, ?_, ?_, ?_, ?_, ?_, ?_, ?_, ?_, ?_, ?_, ?_⟩ <;> first | (simp; done) | ((try dsimp only); (repeat' split) <;> simp; done))

@[simp] theorem retireEntry_keeps (s : State) (p i : Nat) :
    (retireEntry s p i).pending = s.pending ∧ (retireEntry s p i).gate = s.gate ∧ (retireEntry s p i).mod = s.mod
      ∧ (retireEntry s p i).rows = s.rows ∧ (retireEntry s p i).dumps = s.dumps ∧ (retireEntry s p i).shed = s.shed
      ∧ (retireEntry s p i).reg = s.reg ∧ (retireEntry s p i).just = s.just ∧ (retireEntry s p i).pvs = s.pvs ∧ (retireEntry s p i).fns = s.fns
      ∧ (retireEntry s p i).out = s.out ∧ (retireEntry s p i).free = s.free ∧ (retireEntry s p i).sun = s.sun
      ∧ (retireEntry s p i).die.hbm = s.die.hbm ∧ (retireEntry s p i).die.oyKey = s.die.oyKey ∧ (retireEntry s p i).die.slices = s.die.slices
      ∧ (retireEntry s p i).die.transfers = s.die.transfers ∧ (retireEntry s p i).die.commit = s.die.commit
      ∧ (retireEntry s p i).die.barriers = s.die.barriers ∧ (retireEntry s p i).die.windows = s.die.windows
      ∧ (retireEntry s p i).die.ctls = s.die.ctls ∧ (retireEntry s p i).die.ports = s.die.ports ∧ (retireEntry s p i).die.lodges = s.die.lodges
      ∧ (retireEntry s p i).die.band = s.die.band ∧ (retireEntry s p i).die.atTick = s.die.atTick := by
  unfold retireEntry; first | (simp; done) | ((try dsimp only); (repeat' split) <;> simp; done) | (refine ⟨?_, ?_, ?_, ?_, ?_, ?_, ?_, ?_, ?_, ?_, ?_, ?_, ?_, ?_, ?_, ?_, ?_, ?_, ?_, ?_, ?_, ?_, ?_, ?_, ?_⟩ <;> first | (simp; done) | ((try dsimp only); (repeat' split) <;> simp; done))

@[simp] theorem countIssue_keeps (s : State) (p : Nat) (handler : Bool) :
    (countIssue s p handler).pending = s.pending ∧ (countIssue s p handler).gate = s.gate ∧ (countIssue s p handler).mod = s.mod
      ∧ (countIssue s p handler).rows = s.rows ∧ (countIssue s p handler).dumps = s.dumps ∧ (countIssue s p handler).shed = s.shed
      ∧ (countIssue s p handler).replay = s.replay ∧ (countIssue s p handler).reg = s.reg ∧ (countIssue s p handler).just = s.just
      ∧ (countIssue s p handler).pvs = s.pvs ∧ (countIssue s p handler).fns = s.fns ∧ (countIssue s p handler).out = s.out
      ∧ (countIssue s p handler).free = s.free ∧ (countIssue s p handler).sun = s.sun ∧ (countIssue s p handler).die = s.die := by
  unfold countIssue; first | (simp; done) | ((try dsimp only); (repeat' split) <;> simp; done) | (refine ⟨?_, ?_, ?_, ?_, ?_, ?_, ?_, ?_, ?_, ?_, ?_, ?_, ?_, ?_, ?_⟩ <;> first | (simp; done) | ((try dsimp only); (repeat' split) <;> simp; done))

@[simp] theorem issueUnit_keeps (s : State) (p : Nat) (handler : Bool) (addr : Nat) (d : Desc) :
    (issueUnit s p handler addr d).pending = s.pending ∧ (issueUnit s p handler addr d).gate = s.gate
      ∧ (issueUnit s p handler addr d).mod = s.mod ∧ (issueUnit s p handler addr d).rows = s.rows
      ∧ (issueUnit s p handler addr d).dumps = s.dumps ∧ (issueUnit s p handler addr d).shed = s.shed
      ∧ (issueUnit s p handler addr d).replay = s.replay ∧ (issueUnit s p handler addr d).reg = s.reg
      ∧ (issueUnit s p handler addr d).just = s.just ∧ (issueUnit s p handler addr d).pvs = s.pvs ∧ (issueUnit s p handler addr d).fns = s.fns
      ∧ (issueUnit s p handler addr d).out = s.out ∧ (issueUnit s p handler addr d).free = s.free ∧ (issueUnit s p handler addr d).sun = s.sun
      ∧ (issueUnit s p handler addr d).die = s.die := by
  unfold issueUnit; first | (simp; done) | ((try dsimp only); (repeat' split) <;> simp; done) | (refine ⟨?_, ?_, ?_, ?_, ?_, ?_, ?_, ?_, ?_, ?_, ?_, ?_, ?_, ?_, ?_⟩ <;> first | (simp; done) | ((try dsimp only); (repeat' split) <;> simp; done))

@[simp] theorem fillMain_keeps (s : State) (p : Nat) (chk : Check) :
    (fillMain s p chk).pending = s.pending ∧ (fillMain s p chk).gate = s.gate ∧ (fillMain s p chk).mod = s.mod ∧ (fillMain s p chk).rows = s.rows
      ∧ (fillMain s p chk).dumps = s.dumps ∧ (fillMain s p chk).pvs = s.pvs ∧ (fillMain s p chk).fns = s.fns
      ∧ (fillMain s p chk).die.hbm = s.die.hbm ∧ (fillMain s p chk).die.oyKey = s.die.oyKey ∧ (fillMain s p chk).die.slices = s.die.slices
      ∧ (fillMain s p chk).die.transfers = s.die.transfers ∧ (fillMain s p chk).die.commit = s.die.commit
      ∧ (fillMain s p chk).die.barriers = s.die.barriers ∧ (fillMain s p chk).die.windows = s.die.windows
      ∧ (fillMain s p chk).die.ctls = s.die.ctls ∧ (fillMain s p chk).die.lodges = s.die.lodges ∧ (fillMain s p chk).die.band = s.die.band
      ∧ (fillMain s p chk).die.reports = s.die.reports ∧ (fillMain s p chk).die.atTick = s.die.atTick := by
  unfold fillMain; first | (simp; done) | ((try dsimp only); (repeat' split) <;> simp; done) | (refine ⟨?_, ?_, ?_, ?_, ?_, ?_, ?_, ?_, ?_, ?_, ?_, ?_, ?_, ?_, ?_, ?_, ?_, ?_, ?_⟩ <;> first | (simp; done) | ((try dsimp only); (repeat' split) <;> simp; done))

@[simp] theorem fillHandler_keeps (s : State) (p : Nat) (chk : Check) :
    (fillHandler s p chk).pending = s.pending ∧ (fillHandler s p chk).gate = s.gate ∧ (fillHandler s p chk).mod = s.mod
      ∧ (fillHandler s p chk).rows = s.rows ∧ (fillHandler s p chk).dumps = s.dumps ∧ (fillHandler s p chk).pvs = s.pvs
      ∧ (fillHandler s p chk).fns = s.fns ∧ (fillHandler s p chk).die.hbm = s.die.hbm ∧ (fillHandler s p chk).die.oyKey = s.die.oyKey
      ∧ (fillHandler s p chk).die.slices = s.die.slices ∧ (fillHandler s p chk).die.transfers = s.die.transfers
      ∧ (fillHandler s p chk).die.commit = s.die.commit ∧ (fillHandler s p chk).die.barriers = s.die.barriers
      ∧ (fillHandler s p chk).die.windows = s.die.windows ∧ (fillHandler s p chk).die.ctls = s.die.ctls
      ∧ (fillHandler s p chk).die.lodges = s.die.lodges ∧ (fillHandler s p chk).die.band = s.die.band
      ∧ (fillHandler s p chk).die.reports = s.die.reports ∧ (fillHandler s p chk).die.atTick = s.die.atTick := by
  unfold fillHandler; first | (simp; done) | ((try dsimp only); (repeat' split) <;> simp; done) | (refine ⟨?_, ?_, ?_, ?_, ?_, ?_, ?_, ?_, ?_, ?_, ?_, ?_, ?_, ?_, ?_, ?_, ?_, ?_, ?_⟩ <;> first | (simp; done) | ((try dsimp only); (repeat' split) <;> simp; done))

@[simp] theorem fillBoth_keeps (s : State) (p : Nat) (chk : Check) :
    (fillBoth s p chk).pending = s.pending ∧ (fillBoth s p chk).gate = s.gate ∧ (fillBoth s p chk).mod = s.mod ∧ (fillBoth s p chk).rows = s.rows
      ∧ (fillBoth s p chk).dumps = s.dumps ∧ (fillBoth s p chk).pvs = s.pvs ∧ (fillBoth s p chk).fns = s.fns
      ∧ (fillBoth s p chk).die.hbm = s.die.hbm ∧ (fillBoth s p chk).die.oyKey = s.die.oyKey ∧ (fillBoth s p chk).die.slices = s.die.slices
      ∧ (fillBoth s p chk).die.transfers = s.die.transfers ∧ (fillBoth s p chk).die.commit = s.die.commit
      ∧ (fillBoth s p chk).die.barriers = s.die.barriers ∧ (fillBoth s p chk).die.windows = s.die.windows
      ∧ (fillBoth s p chk).die.ctls = s.die.ctls ∧ (fillBoth s p chk).die.lodges = s.die.lodges ∧ (fillBoth s p chk).die.band = s.die.band
      ∧ (fillBoth s p chk).die.reports = s.die.reports ∧ (fillBoth s p chk).die.atTick = s.die.atTick := by
  unfold fillBoth; first | (simp; done) | ((try dsimp only); (repeat' split) <;> simp; done) | (refine ⟨?_, ?_, ?_, ?_, ?_, ?_, ?_, ?_, ?_, ?_, ?_, ?_, ?_, ?_, ?_, ?_, ?_, ?_, ?_⟩ <;> first | (simp; done) | ((try dsimp only); (repeat' split) <;> simp; done))

@[simp] theorem startHandler_keeps (s : State) (t : Nat) (chk : Check) :
    (startHandler s t chk).pending = s.pending ∧ (startHandler s t chk).gate = s.gate ∧ (startHandler s t chk).mod = s.mod
      ∧ (startHandler s t chk).rows = s.rows ∧ (startHandler s t chk).dumps = s.dumps ∧ (startHandler s t chk).pvs = s.pvs
      ∧ (startHandler s t chk).fns = s.fns ∧ (startHandler s t chk).die.hbm = s.die.hbm ∧ (startHandler s t chk).die.oyKey = s.die.oyKey
      ∧ (startHandler s t chk).die.slices = s.die.slices ∧ (startHandler s t chk).die.transfers = s.die.transfers
      ∧ (startHandler s t chk).die.commit = s.die.commit ∧ (startHandler s t chk).die.barriers = s.die.barriers
      ∧ (startHandler s t chk).die.windows = s.die.windows ∧ (startHandler s t chk).die.ctls = s.die.ctls
      ∧ (startHandler s t chk).die.lodges = s.die.lodges ∧ (startHandler s t chk).die.band = s.die.band
      ∧ (startHandler s t chk).die.reports = s.die.reports ∧ (startHandler s t chk).die.atTick = s.die.atTick := by
  unfold startHandler; first | (simp; done) | ((try dsimp only); (repeat' split) <;> simp; done) | (refine ⟨?_, ?_, ?_, ?_, ?_, ?_, ?_, ?_, ?_, ?_, ?_, ?_, ?_, ?_, ?_, ?_, ?_, ?_, ?_⟩ <;> first | (simp; done) | ((try dsimp only); (repeat' split) <;> simp; done))

@[simp] theorem startTile_keeps (s : State) (p start handlers : Nat) :
    (startTile s p start handlers).pending = s.pending ∧ (startTile s p start handlers).gate = s.gate
      ∧ (startTile s p start handlers).mod = s.mod ∧ (startTile s p start handlers).rows = s.rows
      ∧ (startTile s p start handlers).dumps = s.dumps ∧ (startTile s p start handlers).shed = s.shed
      ∧ (startTile s p start handlers).replay = s.replay ∧ (startTile s p start handlers).reg = s.reg
      ∧ (startTile s p start handlers).just = s.just ∧ (startTile s p start handlers).pvs = s.pvs ∧ (startTile s p start handlers).fns = s.fns
      ∧ (startTile s p start handlers).out = s.out ∧ (startTile s p start handlers).free = s.free ∧ (startTile s p start handlers).sun = s.sun
      ∧ (startTile s p start handlers).die = s.die := by
  unfold startTile; first | (simp; done) | ((try dsimp only); (repeat' split) <;> simp; done) | (refine ⟨?_, ?_, ?_, ?_, ?_, ?_, ?_, ?_, ?_, ?_, ?_, ?_, ?_, ?_, ?_⟩ <;> first | (simp; done) | ((try dsimp only); (repeat' split) <;> simp; done))

@[simp] theorem withdrawHold_keeps (s : State) (p : Nat) :
    (withdrawHold s p).pending = s.pending ∧ (withdrawHold s p).gate = s.gate ∧ (withdrawHold s p).mod = s.mod ∧ (withdrawHold s p).rows = s.rows
      ∧ (withdrawHold s p).dumps = s.dumps ∧ (withdrawHold s p).shed = s.shed ∧ (withdrawHold s p).replay = s.replay
      ∧ (withdrawHold s p).reg = s.reg ∧ (withdrawHold s p).just = s.just ∧ (withdrawHold s p).pvs = s.pvs ∧ (withdrawHold s p).fns = s.fns
      ∧ (withdrawHold s p).free = s.free ∧ (withdrawHold s p).sun.ctr = s.sun.ctr ∧ (withdrawHold s p).sun.lags = s.sun.lags
      ∧ (withdrawHold s p).sun.tick = s.sun.tick ∧ (withdrawHold s p).sun.time = s.sun.time ∧ (withdrawHold s p).sun.freeze = s.sun.freeze
      ∧ (withdrawHold s p).sun.stopped = s.sun.stopped ∧ (withdrawHold s p).die.hbm = s.die.hbm ∧ (withdrawHold s p).die.oyKey = s.die.oyKey
      ∧ (withdrawHold s p).die.slices = s.die.slices ∧ (withdrawHold s p).die.transfers = s.die.transfers
      ∧ (withdrawHold s p).die.commit = s.die.commit ∧ (withdrawHold s p).die.barriers = s.die.barriers
      ∧ (withdrawHold s p).die.windows = s.die.windows ∧ (withdrawHold s p).die.ctls = s.die.ctls ∧ (withdrawHold s p).die.lodges = s.die.lodges
      ∧ (withdrawHold s p).die.band = s.die.band ∧ (withdrawHold s p).die.reports = s.die.reports ∧ (withdrawHold s p).die.atTick = s.die.atTick := by
  unfold withdrawHold; first | (simp; done) | ((try dsimp only); (repeat' split) <;> simp; done) | (refine ⟨?_, ?_, ?_, ?_, ?_, ?_, ?_, ?_, ?_, ?_, ?_, ?_, ?_, ?_, ?_, ?_, ?_, ?_, ?_, ?_, ?_, ?_, ?_, ?_, ?_, ?_, ?_, ?_, ?_, ?_⟩ <;> first | (simp; done) | ((try dsimp only); (repeat' split) <;> simp; done))

@[simp] theorem stopTile_keeps (s : State) (p : Nat) :
    (stopTile s p).pending = s.pending ∧ (stopTile s p).gate = s.gate ∧ (stopTile s p).mod = s.mod ∧ (stopTile s p).rows = s.rows
      ∧ (stopTile s p).dumps = s.dumps ∧ (stopTile s p).shed = s.shed ∧ (stopTile s p).replay = s.replay ∧ (stopTile s p).reg = s.reg
      ∧ (stopTile s p).just = s.just ∧ (stopTile s p).pvs = s.pvs ∧ (stopTile s p).fns = s.fns ∧ (stopTile s p).free = s.free
      ∧ (stopTile s p).sun.ctr = s.sun.ctr ∧ (stopTile s p).sun.lags = s.sun.lags ∧ (stopTile s p).sun.tick = s.sun.tick
      ∧ (stopTile s p).sun.time = s.sun.time ∧ (stopTile s p).sun.freeze = s.sun.freeze ∧ (stopTile s p).sun.stopped = s.sun.stopped
      ∧ (stopTile s p).die.hbm = s.die.hbm ∧ (stopTile s p).die.oyKey = s.die.oyKey ∧ (stopTile s p).die.slices = s.die.slices
      ∧ (stopTile s p).die.transfers = s.die.transfers ∧ (stopTile s p).die.commit = s.die.commit ∧ (stopTile s p).die.barriers = s.die.barriers
      ∧ (stopTile s p).die.windows = s.die.windows ∧ (stopTile s p).die.ctls = s.die.ctls ∧ (stopTile s p).die.lodges = s.die.lodges
      ∧ (stopTile s p).die.band = s.die.band ∧ (stopTile s p).die.reports = s.die.reports ∧ (stopTile s p).die.atTick = s.die.atTick := by
  unfold stopTile; first | (simp; done) | ((try dsimp only); (repeat' split) <;> simp; done) | (refine ⟨?_, ?_, ?_, ?_, ?_, ?_, ?_, ?_, ?_, ?_, ?_, ?_, ?_, ?_, ?_, ?_, ?_, ?_, ?_, ?_, ?_, ?_, ?_, ?_, ?_, ?_, ?_, ?_, ?_, ?_⟩ <;> first | (simp; done) | ((try dsimp only); (repeat' split) <;> simp; done))

@[simp] theorem setEntry_keeps (s : State) (p i : Nat) (f : WinEntry → WinEntry) :
    (setEntry s p i f).pending = s.pending ∧ (setEntry s p i f).gate = s.gate ∧ (setEntry s p i f).mod = s.mod ∧ (setEntry s p i f).rows = s.rows
      ∧ (setEntry s p i f).dumps = s.dumps ∧ (setEntry s p i f).shed = s.shed ∧ (setEntry s p i f).replay = s.replay
      ∧ (setEntry s p i f).reg = s.reg ∧ (setEntry s p i f).just = s.just ∧ (setEntry s p i f).pvs = s.pvs ∧ (setEntry s p i f).fns = s.fns
      ∧ (setEntry s p i f).out = s.out ∧ (setEntry s p i f).free = s.free ∧ (setEntry s p i f).sun = s.sun ∧ (setEntry s p i f).die = s.die := by
  unfold setEntry; first | (simp; done) | ((try dsimp only); (repeat' split) <;> simp; done) | (refine ⟨?_, ?_, ?_, ?_, ?_, ?_, ?_, ?_, ?_, ?_, ?_, ?_, ?_, ?_, ?_⟩ <;> first | (simp; done) | ((try dsimp only); (repeat' split) <;> simp; done))

@[simp] theorem beginEntry_keeps (s : State) (p i : Nat) (ph : Phase) (chk : Check) (stage : Stage) (xfer : Nat) :
    (beginEntry s p i ph chk stage xfer).pending = s.pending ∧ (beginEntry s p i ph chk stage xfer).gate = s.gate
      ∧ (beginEntry s p i ph chk stage xfer).mod = s.mod ∧ (beginEntry s p i ph chk stage xfer).rows = s.rows
      ∧ (beginEntry s p i ph chk stage xfer).dumps = s.dumps ∧ (beginEntry s p i ph chk stage xfer).shed = s.shed
      ∧ (beginEntry s p i ph chk stage xfer).replay = s.replay ∧ (beginEntry s p i ph chk stage xfer).reg = s.reg
      ∧ (beginEntry s p i ph chk stage xfer).just = s.just ∧ (beginEntry s p i ph chk stage xfer).pvs = s.pvs
      ∧ (beginEntry s p i ph chk stage xfer).fns = s.fns ∧ (beginEntry s p i ph chk stage xfer).out = s.out
      ∧ (beginEntry s p i ph chk stage xfer).free = s.free ∧ (beginEntry s p i ph chk stage xfer).sun = s.sun
      ∧ (beginEntry s p i ph chk stage xfer).die = s.die := by
  unfold beginEntry; first | (simp; done) | ((try dsimp only); (repeat' split) <;> simp; done) | (refine ⟨?_, ?_, ?_, ?_, ?_, ?_, ?_, ?_, ?_, ?_, ?_, ?_, ?_, ?_, ?_⟩ <;> first | (simp; done) | ((try dsimp only); (repeat' split) <;> simp; done))

@[simp] theorem failStart_keeps (s : State) (p i : Nat) (e : WinEntry) (kind : Nat) :
    (failStart s p i e kind).pending = s.pending ∧ (failStart s p i e kind).gate = s.gate ∧ (failStart s p i e kind).mod = s.mod
      ∧ (failStart s p i e kind).rows = s.rows ∧ (failStart s p i e kind).dumps = s.dumps ∧ (failStart s p i e kind).shed = s.shed
      ∧ (failStart s p i e kind).replay = s.replay ∧ (failStart s p i e kind).reg = s.reg ∧ (failStart s p i e kind).just = s.just
      ∧ (failStart s p i e kind).pvs = s.pvs ∧ (failStart s p i e kind).fns = s.fns ∧ (failStart s p i e kind).out = s.out
      ∧ (failStart s p i e kind).free = s.free ∧ (failStart s p i e kind).sun = s.sun ∧ (failStart s p i e kind).die.hbm = s.die.hbm
      ∧ (failStart s p i e kind).die.oyKey = s.die.oyKey ∧ (failStart s p i e kind).die.slices = s.die.slices
      ∧ (failStart s p i e kind).die.transfers = s.die.transfers ∧ (failStart s p i e kind).die.commit = s.die.commit
      ∧ (failStart s p i e kind).die.barriers = s.die.barriers ∧ (failStart s p i e kind).die.windows = s.die.windows
      ∧ (failStart s p i e kind).die.ctls = s.die.ctls ∧ (failStart s p i e kind).die.ports = s.die.ports
      ∧ (failStart s p i e kind).die.lodges = s.die.lodges ∧ (failStart s p i e kind).die.band = s.die.band
      ∧ (failStart s p i e kind).die.atTick = s.die.atTick := by
  unfold failStart; first | (simp; done) | ((try dsimp only); (repeat' split) <;> simp; done) | (refine ⟨?_, ?_, ?_, ?_, ?_, ?_, ?_, ?_, ?_, ?_, ?_, ?_, ?_, ?_, ?_, ?_, ?_, ?_, ?_, ?_, ?_, ?_, ?_, ?_, ?_, ?_⟩ <;> first | (simp; done) | ((try dsimp only); (repeat' split) <;> simp; done))

@[simp] theorem readRow_keeps (s : State) (p port : Nat) (chk : Check) (a n : Nat) :
    (readRow s p port chk a n).1.pending = s.pending ∧ (readRow s p port chk a n).1.gate = s.gate ∧ (readRow s p port chk a n).1.mod = s.mod
      ∧ (readRow s p port chk a n).1.rows = s.rows ∧ (readRow s p port chk a n).1.dumps = s.dumps ∧ (readRow s p port chk a n).1.pvs = s.pvs
      ∧ (readRow s p port chk a n).1.fns = s.fns ∧ (readRow s p port chk a n).1.die.hbm = s.die.hbm
      ∧ (readRow s p port chk a n).1.die.oyKey = s.die.oyKey ∧ (readRow s p port chk a n).1.die.slices = s.die.slices
      ∧ (readRow s p port chk a n).1.die.transfers = s.die.transfers ∧ (readRow s p port chk a n).1.die.commit = s.die.commit
      ∧ (readRow s p port chk a n).1.die.barriers = s.die.barriers ∧ (readRow s p port chk a n).1.die.windows = s.die.windows
      ∧ (readRow s p port chk a n).1.die.ctls = s.die.ctls ∧ (readRow s p port chk a n).1.die.lodges = s.die.lodges
      ∧ (readRow s p port chk a n).1.die.band = s.die.band ∧ (readRow s p port chk a n).1.die.reports = s.die.reports
      ∧ (readRow s p port chk a n).1.die.atTick = s.die.atTick := by
  unfold readRow; first | (simp; done) | ((try dsimp only); (repeat' split) <;> simp; done) | (refine ⟨?_, ?_, ?_, ?_, ?_, ?_, ?_, ?_, ?_, ?_, ?_, ?_, ?_, ?_, ?_, ?_, ?_, ?_, ?_⟩ <;> first | (simp; done) | ((try dsimp only); (repeat' split) <;> simp; done))

@[simp] theorem pushRow_keeps (s : State) (p i : Nat) (row : List Byte) :
    (pushRow s p i row).pending = s.pending ∧ (pushRow s p i row).gate = s.gate ∧ (pushRow s p i row).mod = s.mod
      ∧ (pushRow s p i row).rows = s.rows ∧ (pushRow s p i row).dumps = s.dumps ∧ (pushRow s p i row).shed = s.shed
      ∧ (pushRow s p i row).replay = s.replay ∧ (pushRow s p i row).reg = s.reg ∧ (pushRow s p i row).just = s.just
      ∧ (pushRow s p i row).pvs = s.pvs ∧ (pushRow s p i row).fns = s.fns ∧ (pushRow s p i row).out = s.out ∧ (pushRow s p i row).free = s.free
      ∧ (pushRow s p i row).sun = s.sun ∧ (pushRow s p i row).die = s.die := by
  unfold pushRow; first | (simp; done) | ((try dsimp only); (repeat' split) <;> simp; done) | (refine ⟨?_, ?_, ?_, ?_, ?_, ?_, ?_, ?_, ?_, ?_, ?_, ?_, ?_, ?_, ?_⟩ <;> first | (simp; done) | ((try dsimp only); (repeat' split) <;> simp; done))

@[simp] theorem popRow_keeps (s : State) (p i : Nat) :
    (popRow s p i).pending = s.pending ∧ (popRow s p i).gate = s.gate ∧ (popRow s p i).mod = s.mod ∧ (popRow s p i).rows = s.rows
      ∧ (popRow s p i).dumps = s.dumps ∧ (popRow s p i).shed = s.shed ∧ (popRow s p i).replay = s.replay ∧ (popRow s p i).reg = s.reg
      ∧ (popRow s p i).just = s.just ∧ (popRow s p i).pvs = s.pvs ∧ (popRow s p i).fns = s.fns ∧ (popRow s p i).out = s.out
      ∧ (popRow s p i).free = s.free ∧ (popRow s p i).sun = s.sun ∧ (popRow s p i).die = s.die := by
  unfold popRow; first | (simp; done) | ((try dsimp only); (repeat' split) <;> simp; done) | (refine ⟨?_, ?_, ?_, ?_, ?_, ?_, ?_, ?_, ?_, ?_, ?_, ?_, ?_, ?_, ?_⟩ <;> first | (simp; done) | ((try dsimp only); (repeat' split) <;> simp; done))

@[simp] theorem spStart_keeps (s : State) (t op : Nat) (chk : Check) :
    (spStart s t op chk).pending = s.pending ∧ (spStart s t op chk).gate = s.gate ∧ (spStart s t op chk).mod = s.mod
      ∧ (spStart s t op chk).rows = s.rows ∧ (spStart s t op chk).dumps = s.dumps ∧ (spStart s t op chk).shed = s.shed
      ∧ (spStart s t op chk).replay = s.replay ∧ (spStart s t op chk).reg = s.reg ∧ (spStart s t op chk).just = s.just
      ∧ (spStart s t op chk).pvs = s.pvs ∧ (spStart s t op chk).fns = s.fns ∧ (spStart s t op chk).out = s.out
      ∧ (spStart s t op chk).free = s.free ∧ (spStart s t op chk).sun = s.sun ∧ (spStart s t op chk).die.hbm = s.die.hbm
      ∧ (spStart s t op chk).die.oyKey = s.die.oyKey ∧ (spStart s t op chk).die.slices = s.die.slices
      ∧ (spStart s t op chk).die.transfers = s.die.transfers ∧ (spStart s t op chk).die.commit = s.die.commit
      ∧ (spStart s t op chk).die.barriers = s.die.barriers ∧ (spStart s t op chk).die.windows = s.die.windows
      ∧ (spStart s t op chk).die.ctls = s.die.ctls ∧ (spStart s t op chk).die.ports = s.die.ports
      ∧ (spStart s t op chk).die.lodges = s.die.lodges ∧ (spStart s t op chk).die.band = s.die.band
      ∧ (spStart s t op chk).die.atTick = s.die.atTick := by
  unfold spStart; first | (simp; done) | ((try dsimp only); (repeat' split) <;> simp; done) | (refine ⟨?_, ?_, ?_, ?_, ?_, ?_, ?_, ?_, ?_, ?_, ?_, ?_, ?_, ?_, ?_, ?_, ?_, ?_, ?_, ?_, ?_, ?_, ?_, ?_, ?_, ?_⟩ <;> first | (simp; done) | ((try dsimp only); (repeat' split) <;> simp; done))

@[simp] theorem countSend_keeps (s : State) (p n b pad : Nat) :
    (countSend s p n b pad).pending = s.pending ∧ (countSend s p n b pad).gate = s.gate ∧ (countSend s p n b pad).mod = s.mod
      ∧ (countSend s p n b pad).rows = s.rows ∧ (countSend s p n b pad).dumps = s.dumps ∧ (countSend s p n b pad).shed = s.shed
      ∧ (countSend s p n b pad).replay = s.replay ∧ (countSend s p n b pad).reg = s.reg ∧ (countSend s p n b pad).just = s.just
      ∧ (countSend s p n b pad).pvs = s.pvs ∧ (countSend s p n b pad).fns = s.fns ∧ (countSend s p n b pad).out = s.out
      ∧ (countSend s p n b pad).free = s.free ∧ (countSend s p n b pad).sun = s.sun ∧ (countSend s p n b pad).die = s.die := by
  unfold countSend; first | (simp; done) | ((try dsimp only); (repeat' split) <;> simp; done) | (refine ⟨?_, ?_, ?_, ?_, ?_, ?_, ?_, ?_, ?_, ?_, ?_, ?_, ?_, ?_, ?_⟩ <;> first | (simp; done) | ((try dsimp only); (repeat' split) <;> simp; done))

@[simp] theorem failNet_keeps (s : State) (p i : Nat) (e : WinEntry) (kind : Nat) :
    (failNet s p i e kind).pending = s.pending ∧ (failNet s p i e kind).gate = s.gate ∧ (failNet s p i e kind).mod = s.mod
      ∧ (failNet s p i e kind).rows = s.rows ∧ (failNet s p i e kind).dumps = s.dumps ∧ (failNet s p i e kind).shed = s.shed
      ∧ (failNet s p i e kind).replay = s.replay ∧ (failNet s p i e kind).reg = s.reg ∧ (failNet s p i e kind).just = s.just
      ∧ (failNet s p i e kind).pvs = s.pvs ∧ (failNet s p i e kind).fns = s.fns ∧ (failNet s p i e kind).out = s.out
      ∧ (failNet s p i e kind).free = s.free ∧ (failNet s p i e kind).sun = s.sun ∧ (failNet s p i e kind).die.hbm = s.die.hbm
      ∧ (failNet s p i e kind).die.oyKey = s.die.oyKey ∧ (failNet s p i e kind).die.slices = s.die.slices
      ∧ (failNet s p i e kind).die.transfers = s.die.transfers ∧ (failNet s p i e kind).die.commit = s.die.commit
      ∧ (failNet s p i e kind).die.barriers = s.die.barriers ∧ (failNet s p i e kind).die.windows = s.die.windows
      ∧ (failNet s p i e kind).die.ctls = s.die.ctls ∧ (failNet s p i e kind).die.ports = s.die.ports
      ∧ (failNet s p i e kind).die.lodges = s.die.lodges ∧ (failNet s p i e kind).die.band = s.die.band
      ∧ (failNet s p i e kind).die.atTick = s.die.atTick := by
  unfold failNet; first | (simp; done) | ((try dsimp only); (repeat' split) <;> simp; done) | (refine ⟨?_, ?_, ?_, ?_, ?_, ?_, ?_, ?_, ?_, ?_, ?_, ?_, ?_, ?_, ?_, ?_, ?_, ?_, ?_, ?_, ?_, ?_, ?_, ?_, ?_, ?_⟩ <;> first | (simp; done) | ((try dsimp only); (repeat' split) <;> simp; done))

@[simp] theorem putRun_keeps (s : State) (p t i : Nat) (e : WinEntry) (chk : Check) :
    (putRun s p t i e chk).pending = s.pending ∧ (putRun s p t i e chk).gate = s.gate ∧ (putRun s p t i e chk).mod = s.mod
      ∧ (putRun s p t i e chk).rows = s.rows ∧ (putRun s p t i e chk).dumps = s.dumps ∧ (putRun s p t i e chk).shed = s.shed
      ∧ (putRun s p t i e chk).replay = s.replay ∧ (putRun s p t i e chk).reg = s.reg ∧ (putRun s p t i e chk).just = s.just
      ∧ (putRun s p t i e chk).pvs = s.pvs ∧ (putRun s p t i e chk).fns = s.fns ∧ (putRun s p t i e chk).out = s.out
      ∧ (putRun s p t i e chk).free = s.free ∧ (putRun s p t i e chk).sun = s.sun ∧ (putRun s p t i e chk).die.hbm = s.die.hbm
      ∧ (putRun s p t i e chk).die.oyKey = s.die.oyKey ∧ (putRun s p t i e chk).die.slices = s.die.slices
      ∧ (putRun s p t i e chk).die.commit = s.die.commit ∧ (putRun s p t i e chk).die.barriers = s.die.barriers
      ∧ (putRun s p t i e chk).die.windows = s.die.windows ∧ (putRun s p t i e chk).die.ctls = s.die.ctls
      ∧ (putRun s p t i e chk).die.ports = s.die.ports ∧ (putRun s p t i e chk).die.lodges = s.die.lodges
      ∧ (putRun s p t i e chk).die.band = s.die.band ∧ (putRun s p t i e chk).die.reports = s.die.reports
      ∧ (putRun s p t i e chk).die.atTick = s.die.atTick := by
  unfold putRun; first | (simp; done) | ((try dsimp only); (repeat' split) <;> simp; done) | (refine ⟨?_, ?_, ?_, ?_, ?_, ?_, ?_, ?_, ?_, ?_, ?_, ?_, ?_, ?_, ?_, ?_, ?_, ?_, ?_, ?_, ?_, ?_, ?_, ?_, ?_, ?_⟩ <;> first | (simp; done) | ((try dsimp only); (repeat' split) <;> simp; done))

@[simp] theorem putScheduled_keeps (s : State) (t i : Nat) (e : WinEntry) (chk : Check) :
    (putScheduled s t i e chk).pending = s.pending ∧ (putScheduled s t i e chk).gate = s.gate ∧ (putScheduled s t i e chk).mod = s.mod
      ∧ (putScheduled s t i e chk).rows = s.rows ∧ (putScheduled s t i e chk).dumps = s.dumps ∧ (putScheduled s t i e chk).shed = s.shed
      ∧ (putScheduled s t i e chk).replay = s.replay ∧ (putScheduled s t i e chk).reg = s.reg ∧ (putScheduled s t i e chk).just = s.just
      ∧ (putScheduled s t i e chk).pvs = s.pvs ∧ (putScheduled s t i e chk).fns = s.fns ∧ (putScheduled s t i e chk).out = s.out
      ∧ (putScheduled s t i e chk).free = s.free ∧ (putScheduled s t i e chk).sun = s.sun ∧ (putScheduled s t i e chk).die.hbm = s.die.hbm
      ∧ (putScheduled s t i e chk).die.oyKey = s.die.oyKey ∧ (putScheduled s t i e chk).die.slices = s.die.slices
      ∧ (putScheduled s t i e chk).die.commit = s.die.commit ∧ (putScheduled s t i e chk).die.barriers = s.die.barriers
      ∧ (putScheduled s t i e chk).die.windows = s.die.windows ∧ (putScheduled s t i e chk).die.ctls = s.die.ctls
      ∧ (putScheduled s t i e chk).die.ports = s.die.ports ∧ (putScheduled s t i e chk).die.lodges = s.die.lodges
      ∧ (putScheduled s t i e chk).die.band = s.die.band ∧ (putScheduled s t i e chk).die.atTick = s.die.atTick := by
  unfold putScheduled; first | (simp; done) | ((try dsimp only); (repeat' split) <;> simp; done) | (refine ⟨?_, ?_, ?_, ?_, ?_, ?_, ?_, ?_, ?_, ?_, ?_, ?_, ?_, ?_, ?_, ?_, ?_, ?_, ?_, ?_, ?_, ?_, ?_, ?_, ?_⟩ <;> first | (simp; done) | ((try dsimp only); (repeat' split) <;> simp; done))

@[simp] theorem putStart_keeps (s : State) (t op : Nat) (chk : Check) :
    (putStart s t op chk).pending = s.pending ∧ (putStart s t op chk).gate = s.gate ∧ (putStart s t op chk).mod = s.mod
      ∧ (putStart s t op chk).rows = s.rows ∧ (putStart s t op chk).dumps = s.dumps ∧ (putStart s t op chk).shed = s.shed
      ∧ (putStart s t op chk).replay = s.replay ∧ (putStart s t op chk).reg = s.reg ∧ (putStart s t op chk).just = s.just
      ∧ (putStart s t op chk).pvs = s.pvs ∧ (putStart s t op chk).fns = s.fns ∧ (putStart s t op chk).out = s.out
      ∧ (putStart s t op chk).free = s.free ∧ (putStart s t op chk).sun = s.sun ∧ (putStart s t op chk).die.hbm = s.die.hbm
      ∧ (putStart s t op chk).die.oyKey = s.die.oyKey ∧ (putStart s t op chk).die.slices = s.die.slices
      ∧ (putStart s t op chk).die.commit = s.die.commit ∧ (putStart s t op chk).die.barriers = s.die.barriers
      ∧ (putStart s t op chk).die.windows = s.die.windows ∧ (putStart s t op chk).die.ctls = s.die.ctls
      ∧ (putStart s t op chk).die.ports = s.die.ports ∧ (putStart s t op chk).die.lodges = s.die.lodges
      ∧ (putStart s t op chk).die.band = s.die.band ∧ (putStart s t op chk).die.atTick = s.die.atTick := by
  unfold putStart; first | (simp; done) | ((try dsimp only); (repeat' split) <;> simp; done) | (refine ⟨?_, ?_, ?_, ?_, ?_, ?_, ?_, ?_, ?_, ?_, ?_, ?_, ?_, ?_, ?_, ?_, ?_, ?_, ?_, ?_, ?_, ?_, ?_, ?_, ?_⟩ <;> first | (simp; done) | ((try dsimp only); (repeat' split) <;> simp; done))

@[simp] theorem putFlit_keeps (s : State) (p : Nat) (e : WinEntry) :
    (putFlit s p e).pending = s.pending ∧ (putFlit s p e).gate = s.gate ∧ (putFlit s p e).mod = s.mod ∧ (putFlit s p e).rows = s.rows
      ∧ (putFlit s p e).dumps = s.dumps ∧ (putFlit s p e).pvs = s.pvs ∧ (putFlit s p e).fns = s.fns ∧ (putFlit s p e).die.hbm = s.die.hbm
      ∧ (putFlit s p e).die.oyKey = s.die.oyKey ∧ (putFlit s p e).die.slices = s.die.slices ∧ (putFlit s p e).die.commit = s.die.commit
      ∧ (putFlit s p e).die.barriers = s.die.barriers ∧ (putFlit s p e).die.windows = s.die.windows ∧ (putFlit s p e).die.ctls = s.die.ctls
      ∧ (putFlit s p e).die.lodges = s.die.lodges ∧ (putFlit s p e).die.band = s.die.band ∧ (putFlit s p e).die.reports = s.die.reports
      ∧ (putFlit s p e).die.atTick = s.die.atTick := by
  unfold putFlit; first | (simp; done) | ((try dsimp only); (repeat' split) <;> simp; done) | (refine ⟨?_, ?_, ?_, ?_, ?_, ?_, ?_, ?_, ?_, ?_, ?_, ?_, ?_, ?_, ?_, ?_, ?_, ?_⟩ <;> first | (simp; done) | ((try dsimp only); (repeat' split) <;> simp; done))

@[simp] theorem getRun_keeps (s : State) (p t i : Nat) (e : WinEntry) :
    (getRun s p t i e).pending = s.pending ∧ (getRun s p t i e).gate = s.gate ∧ (getRun s p t i e).mod = s.mod ∧ (getRun s p t i e).rows = s.rows
      ∧ (getRun s p t i e).dumps = s.dumps ∧ (getRun s p t i e).shed = s.shed ∧ (getRun s p t i e).replay = s.replay
      ∧ (getRun s p t i e).reg = s.reg ∧ (getRun s p t i e).just = s.just ∧ (getRun s p t i e).pvs = s.pvs ∧ (getRun s p t i e).fns = s.fns
      ∧ (getRun s p t i e).out = s.out ∧ (getRun s p t i e).free = s.free ∧ (getRun s p t i e).sun = s.sun
      ∧ (getRun s p t i e).die.hbm = s.die.hbm ∧ (getRun s p t i e).die.oyKey = s.die.oyKey ∧ (getRun s p t i e).die.slices = s.die.slices
      ∧ (getRun s p t i e).die.commit = s.die.commit ∧ (getRun s p t i e).die.barriers = s.die.barriers
      ∧ (getRun s p t i e).die.windows = s.die.windows ∧ (getRun s p t i e).die.ctls = s.die.ctls ∧ (getRun s p t i e).die.ports = s.die.ports
      ∧ (getRun s p t i e).die.lodges = s.die.lodges ∧ (getRun s p t i e).die.band = s.die.band ∧ (getRun s p t i e).die.reports = s.die.reports
      ∧ (getRun s p t i e).die.atTick = s.die.atTick := by
  unfold getRun; first | (simp; done) | ((try dsimp only); (repeat' split) <;> simp; done) | (refine ⟨?_, ?_, ?_, ?_, ?_, ?_, ?_, ?_, ?_, ?_, ?_, ?_, ?_, ?_, ?_, ?_, ?_, ?_, ?_, ?_, ?_, ?_, ?_, ?_, ?_, ?_⟩ <;> first | (simp; done) | ((try dsimp only); (repeat' split) <;> simp; done))

@[simp] theorem getStart_keeps (s : State) (t : Nat) :
    (getStart s t).pending = s.pending ∧ (getStart s t).gate = s.gate ∧ (getStart s t).mod = s.mod ∧ (getStart s t).rows = s.rows
      ∧ (getStart s t).dumps = s.dumps ∧ (getStart s t).shed = s.shed ∧ (getStart s t).replay = s.replay ∧ (getStart s t).reg = s.reg
      ∧ (getStart s t).just = s.just ∧ (getStart s t).pvs = s.pvs ∧ (getStart s t).fns = s.fns ∧ (getStart s t).out = s.out
      ∧ (getStart s t).free = s.free ∧ (getStart s t).sun = s.sun ∧ (getStart s t).die.hbm = s.die.hbm ∧ (getStart s t).die.oyKey = s.die.oyKey
      ∧ (getStart s t).die.slices = s.die.slices ∧ (getStart s t).die.commit = s.die.commit ∧ (getStart s t).die.barriers = s.die.barriers
      ∧ (getStart s t).die.windows = s.die.windows ∧ (getStart s t).die.ctls = s.die.ctls ∧ (getStart s t).die.ports = s.die.ports
      ∧ (getStart s t).die.lodges = s.die.lodges ∧ (getStart s t).die.band = s.die.band ∧ (getStart s t).die.atTick = s.die.atTick := by
  unfold getStart; first | (simp; done) | ((try dsimp only); (repeat' split) <;> simp; done) | (refine ⟨?_, ?_, ?_, ?_, ?_, ?_, ?_, ?_, ?_, ?_, ?_, ?_, ?_, ?_, ?_, ?_, ?_, ?_, ?_, ?_, ?_, ?_, ?_, ?_, ?_⟩ <;> first | (simp; done) | ((try dsimp only); (repeat' split) <;> simp; done))

@[simp] theorem ctBegin_keeps (s : State) (p i : Nat) (ph : Phase) :
    (ctBegin s p i ph).pending = s.pending ∧ (ctBegin s p i ph).gate = s.gate ∧ (ctBegin s p i ph).mod = s.mod ∧ (ctBegin s p i ph).rows = s.rows
      ∧ (ctBegin s p i ph).dumps = s.dumps ∧ (ctBegin s p i ph).shed = s.shed ∧ (ctBegin s p i ph).replay = s.replay
      ∧ (ctBegin s p i ph).reg = s.reg ∧ (ctBegin s p i ph).just = s.just ∧ (ctBegin s p i ph).pvs = s.pvs ∧ (ctBegin s p i ph).fns = s.fns
      ∧ (ctBegin s p i ph).out = s.out ∧ (ctBegin s p i ph).free = s.free ∧ (ctBegin s p i ph).sun = s.sun ∧ (ctBegin s p i ph).die = s.die := by
  unfold ctBegin; first | (simp; done) | ((try dsimp only); (repeat' split) <;> simp; done) | (refine ⟨?_, ?_, ?_, ?_, ?_, ?_, ?_, ?_, ?_, ?_, ?_, ?_, ?_, ?_, ?_⟩ <;> first | (simp; done) | ((try dsimp only); (repeat' split) <;> simp; done))

@[simp] theorem barrierStep_keeps (s : State) (t mode : Nat) :
    (barrierStep s t mode).pending = s.pending ∧ (barrierStep s t mode).gate = s.gate ∧ (barrierStep s t mode).mod = s.mod
      ∧ (barrierStep s t mode).rows = s.rows ∧ (barrierStep s t mode).dumps = s.dumps ∧ (barrierStep s t mode).shed = s.shed
      ∧ (barrierStep s t mode).replay = s.replay ∧ (barrierStep s t mode).reg = s.reg ∧ (barrierStep s t mode).just = s.just
      ∧ (barrierStep s t mode).pvs = s.pvs ∧ (barrierStep s t mode).fns = s.fns ∧ (barrierStep s t mode).out = s.out
      ∧ (barrierStep s t mode).free = s.free ∧ (barrierStep s t mode).sun = s.sun ∧ (barrierStep s t mode).die.hbm = s.die.hbm
      ∧ (barrierStep s t mode).die.oyKey = s.die.oyKey ∧ (barrierStep s t mode).die.slices = s.die.slices
      ∧ (barrierStep s t mode).die.transfers = s.die.transfers ∧ (barrierStep s t mode).die.commit = s.die.commit
      ∧ (barrierStep s t mode).die.barriers = s.die.barriers ∧ (barrierStep s t mode).die.windows = s.die.windows
      ∧ (barrierStep s t mode).die.ports = s.die.ports ∧ (barrierStep s t mode).die.lodges = s.die.lodges
      ∧ (barrierStep s t mode).die.band = s.die.band ∧ (barrierStep s t mode).die.atTick = s.die.atTick := by
  unfold barrierStep; first | (simp; done) | ((try dsimp only); (repeat' split) <;> simp; done) | (refine ⟨?_, ?_, ?_, ?_, ?_, ?_, ?_, ?_, ?_, ?_, ?_, ?_, ?_, ?_, ?_, ?_, ?_, ?_, ?_, ?_, ?_, ?_, ?_, ?_, ?_⟩ <;> first | (simp; done) | ((try dsimp only); (repeat' split) <;> simp; done))

@[simp] theorem joinStep_keeps (s : State) (t : Nat) :
    (joinStep s t).pending = s.pending ∧ (joinStep s t).gate = s.gate ∧ (joinStep s t).mod = s.mod ∧ (joinStep s t).rows = s.rows
      ∧ (joinStep s t).dumps = s.dumps ∧ (joinStep s t).shed = s.shed ∧ (joinStep s t).replay = s.replay ∧ (joinStep s t).reg = s.reg
      ∧ (joinStep s t).just = s.just ∧ (joinStep s t).pvs = s.pvs ∧ (joinStep s t).fns = s.fns ∧ (joinStep s t).out = s.out
      ∧ (joinStep s t).free = s.free ∧ (joinStep s t).sun = s.sun ∧ (joinStep s t).die = s.die := by
  unfold joinStep; first | (simp; done) | ((try dsimp only); (repeat' split) <;> simp; done) | (refine ⟨?_, ?_, ?_, ?_, ?_, ?_, ?_, ?_, ?_, ?_, ?_, ?_, ?_, ?_, ?_⟩ <;> first | (simp; done) | ((try dsimp only); (repeat' split) <;> simp; done))

@[simp] theorem addRun_keeps (s : State) (t i : Nat) (e : WinEntry) :
    (addRun s t i e).pending = s.pending ∧ (addRun s t i e).gate = s.gate ∧ (addRun s t i e).mod = s.mod ∧ (addRun s t i e).rows = s.rows
      ∧ (addRun s t i e).dumps = s.dumps ∧ (addRun s t i e).shed = s.shed ∧ (addRun s t i e).replay = s.replay ∧ (addRun s t i e).reg = s.reg
      ∧ (addRun s t i e).just = s.just ∧ (addRun s t i e).pvs = s.pvs ∧ (addRun s t i e).fns = s.fns ∧ (addRun s t i e).out = s.out
      ∧ (addRun s t i e).free = s.free ∧ (addRun s t i e).sun = s.sun ∧ (addRun s t i e).die.hbm = s.die.hbm
      ∧ (addRun s t i e).die.oyKey = s.die.oyKey ∧ (addRun s t i e).die.slices = s.die.slices ∧ (addRun s t i e).die.commit = s.die.commit
      ∧ (addRun s t i e).die.barriers = s.die.barriers ∧ (addRun s t i e).die.windows = s.die.windows ∧ (addRun s t i e).die.ctls = s.die.ctls
      ∧ (addRun s t i e).die.ports = s.die.ports ∧ (addRun s t i e).die.lodges = s.die.lodges ∧ (addRun s t i e).die.band = s.die.band
      ∧ (addRun s t i e).die.atTick = s.die.atTick := by
  unfold addRun; first | (simp; done) | ((try dsimp only); (repeat' split) <;> simp; done) | (refine ⟨?_, ?_, ?_, ?_, ?_, ?_, ?_, ?_, ?_, ?_, ?_, ?_, ?_, ?_, ?_, ?_, ?_, ?_, ?_, ?_, ?_, ?_, ?_, ?_, ?_⟩ <;> first | (simp; done) | ((try dsimp only); (repeat' split) <;> simp; done))

@[simp] theorem addStep_keeps (s : State) (t : Nat) :
    (addStep s t).pending = s.pending ∧ (addStep s t).gate = s.gate ∧ (addStep s t).mod = s.mod ∧ (addStep s t).rows = s.rows
      ∧ (addStep s t).dumps = s.dumps ∧ (addStep s t).shed = s.shed ∧ (addStep s t).replay = s.replay ∧ (addStep s t).reg = s.reg
      ∧ (addStep s t).just = s.just ∧ (addStep s t).pvs = s.pvs ∧ (addStep s t).fns = s.fns ∧ (addStep s t).out = s.out
      ∧ (addStep s t).free = s.free ∧ (addStep s t).sun = s.sun ∧ (addStep s t).die.hbm = s.die.hbm ∧ (addStep s t).die.oyKey = s.die.oyKey
      ∧ (addStep s t).die.slices = s.die.slices ∧ (addStep s t).die.commit = s.die.commit ∧ (addStep s t).die.barriers = s.die.barriers
      ∧ (addStep s t).die.windows = s.die.windows ∧ (addStep s t).die.ctls = s.die.ctls ∧ (addStep s t).die.ports = s.die.ports
      ∧ (addStep s t).die.lodges = s.die.lodges ∧ (addStep s t).die.band = s.die.band ∧ (addStep s t).die.atTick = s.die.atTick := by
  unfold addStep; first | (simp; done) | ((try dsimp only); (repeat' split) <;> simp; done) | (refine ⟨?_, ?_, ?_, ?_, ?_, ?_, ?_, ?_, ?_, ?_, ?_, ?_, ?_, ?_, ?_, ?_, ?_, ?_, ?_, ?_, ?_, ?_, ?_, ?_, ?_⟩ <;> first | (simp; done) | ((try dsimp only); (repeat' split) <;> simp; done))

@[simp] theorem hashStep_keeps (s : State) (t : Nat) (chk : Check) :
    (hashStep s t chk).pending = s.pending ∧ (hashStep s t chk).gate = s.gate ∧ (hashStep s t chk).mod = s.mod ∧ (hashStep s t chk).rows = s.rows
      ∧ (hashStep s t chk).dumps = s.dumps ∧ (hashStep s t chk).shed = s.shed ∧ (hashStep s t chk).replay = s.replay
      ∧ (hashStep s t chk).reg = s.reg ∧ (hashStep s t chk).just = s.just ∧ (hashStep s t chk).pvs = s.pvs ∧ (hashStep s t chk).fns = s.fns
      ∧ (hashStep s t chk).out = s.out ∧ (hashStep s t chk).free = s.free ∧ (hashStep s t chk).sun = s.sun
      ∧ (hashStep s t chk).die.hbm = s.die.hbm ∧ (hashStep s t chk).die.oyKey = s.die.oyKey ∧ (hashStep s t chk).die.slices = s.die.slices
      ∧ (hashStep s t chk).die.transfers = s.die.transfers ∧ (hashStep s t chk).die.commit = s.die.commit
      ∧ (hashStep s t chk).die.barriers = s.die.barriers ∧ (hashStep s t chk).die.windows = s.die.windows
      ∧ (hashStep s t chk).die.ctls = s.die.ctls ∧ (hashStep s t chk).die.ports = s.die.ports ∧ (hashStep s t chk).die.lodges = s.die.lodges
      ∧ (hashStep s t chk).die.band = s.die.band ∧ (hashStep s t chk).die.atTick = s.die.atTick := by
  unfold hashStep; first | (simp; done) | ((try dsimp only); (repeat' split) <;> simp; done) | (refine ⟨?_, ?_, ?_, ?_, ?_, ?_, ?_, ?_, ?_, ?_, ?_, ?_, ?_, ?_, ?_, ?_, ?_, ?_, ?_, ?_, ?_, ?_, ?_, ?_, ?_, ?_⟩ <;> first | (simp; done) | ((try dsimp only); (repeat' split) <;> simp; done))

@[simp] theorem hashRead_keeps (s : State) (p i : Nat) (e : WinEntry) :
    (hashRead s p i e).pending = s.pending ∧ (hashRead s p i e).gate = s.gate ∧ (hashRead s p i e).mod = s.mod ∧ (hashRead s p i e).rows = s.rows
      ∧ (hashRead s p i e).dumps = s.dumps ∧ (hashRead s p i e).pvs = s.pvs ∧ (hashRead s p i e).fns = s.fns
      ∧ (hashRead s p i e).die.hbm = s.die.hbm ∧ (hashRead s p i e).die.oyKey = s.die.oyKey ∧ (hashRead s p i e).die.slices = s.die.slices
      ∧ (hashRead s p i e).die.transfers = s.die.transfers ∧ (hashRead s p i e).die.commit = s.die.commit
      ∧ (hashRead s p i e).die.barriers = s.die.barriers ∧ (hashRead s p i e).die.windows = s.die.windows
      ∧ (hashRead s p i e).die.ctls = s.die.ctls ∧ (hashRead s p i e).die.lodges = s.die.lodges ∧ (hashRead s p i e).die.band = s.die.band
      ∧ (hashRead s p i e).die.reports = s.die.reports ∧ (hashRead s p i e).die.atTick = s.die.atTick := by
  unfold hashRead; first | (simp; done) | ((try dsimp only); (repeat' split) <;> simp; done) | (refine ⟨?_, ?_, ?_, ?_, ?_, ?_, ?_, ?_, ?_, ?_, ?_, ?_, ?_, ?_, ?_, ?_, ?_, ?_, ?_⟩ <;> first | (simp; done) | ((try dsimp only); (repeat' split) <;> simp; done))

@[simp] theorem hashWrite_keeps (s : State) (p i : Nat) (e : WinEntry) :
    (hashWrite s p i e).pending = s.pending ∧ (hashWrite s p i e).gate = s.gate ∧ (hashWrite s p i e).mod = s.mod
      ∧ (hashWrite s p i e).rows = s.rows ∧ (hashWrite s p i e).dumps = s.dumps ∧ (hashWrite s p i e).shed = s.shed
      ∧ (hashWrite s p i e).replay = s.replay ∧ (hashWrite s p i e).reg = s.reg ∧ (hashWrite s p i e).just = s.just
      ∧ (hashWrite s p i e).pvs = s.pvs ∧ (hashWrite s p i e).fns = s.fns ∧ (hashWrite s p i e).out = s.out ∧ (hashWrite s p i e).free = s.free
      ∧ (hashWrite s p i e).sun = s.sun ∧ (hashWrite s p i e).die = s.die := by
  unfold hashWrite; first | (simp; done) | ((try dsimp only); (repeat' split) <;> simp; done) | (refine ⟨?_, ?_, ?_, ?_, ?_, ?_, ?_, ?_, ?_, ?_, ?_, ?_, ?_, ?_, ?_⟩ <;> first | (simp; done) | ((try dsimp only); (repeat' split) <;> simp; done))

@[simp] theorem sampleStep_keeps (s : State) (t part : Nat) (chk : Check) :
    (sampleStep s t part chk).pending = s.pending ∧ (sampleStep s t part chk).gate = s.gate ∧ (sampleStep s t part chk).mod = s.mod
      ∧ (sampleStep s t part chk).rows = s.rows ∧ (sampleStep s t part chk).dumps = s.dumps ∧ (sampleStep s t part chk).shed = s.shed
      ∧ (sampleStep s t part chk).replay = s.replay ∧ (sampleStep s t part chk).reg = s.reg ∧ (sampleStep s t part chk).just = s.just
      ∧ (sampleStep s t part chk).pvs = s.pvs ∧ (sampleStep s t part chk).fns = s.fns ∧ (sampleStep s t part chk).out = s.out
      ∧ (sampleStep s t part chk).free = s.free ∧ (sampleStep s t part chk).sun = s.sun ∧ (sampleStep s t part chk).die.hbm = s.die.hbm
      ∧ (sampleStep s t part chk).die.oyKey = s.die.oyKey ∧ (sampleStep s t part chk).die.slices = s.die.slices
      ∧ (sampleStep s t part chk).die.transfers = s.die.transfers ∧ (sampleStep s t part chk).die.commit = s.die.commit
      ∧ (sampleStep s t part chk).die.barriers = s.die.barriers ∧ (sampleStep s t part chk).die.windows = s.die.windows
      ∧ (sampleStep s t part chk).die.ctls = s.die.ctls ∧ (sampleStep s t part chk).die.ports = s.die.ports
      ∧ (sampleStep s t part chk).die.lodges = s.die.lodges ∧ (sampleStep s t part chk).die.atTick = s.die.atTick := by
  unfold sampleStep; first | (simp; done) | ((try dsimp only); (repeat' split) <;> simp; done) | (refine ⟨?_, ?_, ?_, ?_, ?_, ?_, ?_, ?_, ?_, ?_, ?_, ?_, ?_, ?_, ?_, ?_, ?_, ?_, ?_, ?_, ?_, ?_, ?_, ?_, ?_⟩ <;> first | (simp; done) | ((try dsimp only); (repeat' split) <;> simp; done))

@[simp] theorem sampleRead_keeps (s : State) (p t i : Nat) (e : WinEntry) :
    (sampleRead s p t i e).pending = s.pending ∧ (sampleRead s p t i e).gate = s.gate ∧ (sampleRead s p t i e).mod = s.mod
      ∧ (sampleRead s p t i e).rows = s.rows ∧ (sampleRead s p t i e).dumps = s.dumps ∧ (sampleRead s p t i e).pvs = s.pvs
      ∧ (sampleRead s p t i e).fns = s.fns ∧ (sampleRead s p t i e).die.hbm = s.die.hbm ∧ (sampleRead s p t i e).die.oyKey = s.die.oyKey
      ∧ (sampleRead s p t i e).die.slices = s.die.slices ∧ (sampleRead s p t i e).die.transfers = s.die.transfers
      ∧ (sampleRead s p t i e).die.commit = s.die.commit ∧ (sampleRead s p t i e).die.barriers = s.die.barriers
      ∧ (sampleRead s p t i e).die.windows = s.die.windows ∧ (sampleRead s p t i e).die.ctls = s.die.ctls
      ∧ (sampleRead s p t i e).die.lodges = s.die.lodges ∧ (sampleRead s p t i e).die.reports = s.die.reports
      ∧ (sampleRead s p t i e).die.atTick = s.die.atTick := by
  unfold sampleRead; first | (simp; done) | ((try dsimp only); (repeat' split) <;> simp; done) | (refine ⟨?_, ?_, ?_, ?_, ?_, ?_, ?_, ?_, ?_, ?_, ?_, ?_, ?_, ?_, ?_, ?_, ?_, ?_⟩ <;> first | (simp; done) | ((try dsimp only); (repeat' split) <;> simp; done))

@[simp] theorem windowWrite_keeps (s : State) (q a : Nat) (b : List Byte) :
    (windowWrite s q a b).pending = s.pending ∧ (windowWrite s q a b).gate = s.gate ∧ (windowWrite s q a b).mod = s.mod
      ∧ (windowWrite s q a b).rows = s.rows ∧ (windowWrite s q a b).dumps = s.dumps ∧ (windowWrite s q a b).shed = s.shed
      ∧ (windowWrite s q a b).replay = s.replay ∧ (windowWrite s q a b).reg = s.reg ∧ (windowWrite s q a b).just = s.just
      ∧ (windowWrite s q a b).tiles = s.tiles ∧ (windowWrite s q a b).pvs = s.pvs ∧ (windowWrite s q a b).fns = s.fns
      ∧ (windowWrite s q a b).out = s.out ∧ (windowWrite s q a b).free = s.free ∧ (windowWrite s q a b).sun = s.sun
      ∧ (windowWrite s q a b).die.oyKey = s.die.oyKey ∧ (windowWrite s q a b).die.slices = s.die.slices
      ∧ (windowWrite s q a b).die.transfers = s.die.transfers ∧ (windowWrite s q a b).die.commit = s.die.commit
      ∧ (windowWrite s q a b).die.barriers = s.die.barriers ∧ (windowWrite s q a b).die.windows = s.die.windows
      ∧ (windowWrite s q a b).die.ctls = s.die.ctls ∧ (windowWrite s q a b).die.ports = s.die.ports
      ∧ (windowWrite s q a b).die.lodges = s.die.lodges ∧ (windowWrite s q a b).die.band = s.die.band
      ∧ (windowWrite s q a b).die.reports = s.die.reports ∧ (windowWrite s q a b).die.atTick = s.die.atTick := by
  unfold windowWrite; first | (simp; done) | ((try dsimp only); (repeat' split) <;> simp; done) | (refine ⟨?_, ?_, ?_, ?_, ?_, ?_, ?_, ?_, ?_, ?_, ?_, ?_, ?_, ?_, ?_, ?_, ?_, ?_, ?_, ?_, ?_, ?_, ?_, ?_, ?_, ?_, ?_⟩ <;> first | (simp; done) | ((try dsimp only); (repeat' split) <;> simp; done))

@[simp] theorem oyErrlog_keeps (s : State) (kind group loc : Nat) :
    (oyErrlog s kind group loc).pending = s.pending ∧ (oyErrlog s kind group loc).gate = s.gate ∧ (oyErrlog s kind group loc).mod = s.mod
      ∧ (oyErrlog s kind group loc).rows = s.rows ∧ (oyErrlog s kind group loc).dumps = s.dumps ∧ (oyErrlog s kind group loc).shed = s.shed
      ∧ (oyErrlog s kind group loc).replay = s.replay ∧ (oyErrlog s kind group loc).tiles = s.tiles ∧ (oyErrlog s kind group loc).pvs = s.pvs
      ∧ (oyErrlog s kind group loc).fns = s.fns ∧ (oyErrlog s kind group loc).out = s.out ∧ (oyErrlog s kind group loc).sun = s.sun
      ∧ (oyErrlog s kind group loc).die = s.die := by
  unfold oyErrlog; first | (simp; done) | ((try dsimp only); (repeat' split) <;> simp; done) | (refine ⟨?_, ?_, ?_, ?_, ?_, ?_, ?_, ?_, ?_, ?_, ?_, ?_, ?_⟩ <;> first | (simp; done) | ((try dsimp only); (repeat' split) <;> simp; done))

@[simp] theorem flagUnit_keeps (s : State) (kind : Nat) (at_ : Nat × Nat) :
    (flagUnit s kind at_).pending = s.pending ∧ (flagUnit s kind at_).gate = s.gate ∧ (flagUnit s kind at_).mod = s.mod
      ∧ (flagUnit s kind at_).rows = s.rows ∧ (flagUnit s kind at_).dumps = s.dumps ∧ (flagUnit s kind at_).shed = s.shed
      ∧ (flagUnit s kind at_).replay = s.replay ∧ (flagUnit s kind at_).tiles = s.tiles ∧ (flagUnit s kind at_).pvs = s.pvs
      ∧ (flagUnit s kind at_).fns = s.fns ∧ (flagUnit s kind at_).out = s.out ∧ (flagUnit s kind at_).sun = s.sun
      ∧ (flagUnit s kind at_).die = s.die := by
  unfold flagUnit; first | (simp; done) | ((try dsimp only); (repeat' split) <;> simp; done) | (refine ⟨?_, ?_, ?_, ?_, ?_, ?_, ?_, ?_, ?_, ?_, ?_, ?_, ?_⟩ <;> first | (simp; done) | ((try dsimp only); (repeat' split) <;> simp; done))

@[simp] theorem unitsClean_keeps (s : State) (q lo hi : Nat) :
    (unitsClean s q lo hi).pending = s.pending ∧ (unitsClean s q lo hi).gate = s.gate ∧ (unitsClean s q lo hi).mod = s.mod
      ∧ (unitsClean s q lo hi).rows = s.rows ∧ (unitsClean s q lo hi).dumps = s.dumps ∧ (unitsClean s q lo hi).shed = s.shed
      ∧ (unitsClean s q lo hi).reg = s.reg ∧ (unitsClean s q lo hi).just = s.just ∧ (unitsClean s q lo hi).tiles = s.tiles
      ∧ (unitsClean s q lo hi).pvs = s.pvs ∧ (unitsClean s q lo hi).fns = s.fns ∧ (unitsClean s q lo hi).out = s.out
      ∧ (unitsClean s q lo hi).free = s.free ∧ (unitsClean s q lo hi).sun = s.sun ∧ (unitsClean s q lo hi).die = s.die := by
  unfold unitsClean; first | (simp; done) | ((try dsimp only); (repeat' split) <;> simp; done) | (refine ⟨?_, ?_, ?_, ?_, ?_, ?_, ?_, ?_, ?_, ?_, ?_, ?_, ?_, ?_, ?_⟩ <;> first | (simp; done) | ((try dsimp only); (repeat' split) <;> simp; done))

@[simp] theorem noteOy_keeps (s : State) (p q lo hi kind : Nat) (chk : Check) :
    (noteOy s p q lo hi kind chk).pending = s.pending ∧ (noteOy s p q lo hi kind chk).gate = s.gate ∧ (noteOy s p q lo hi kind chk).mod = s.mod
      ∧ (noteOy s p q lo hi kind chk).rows = s.rows ∧ (noteOy s p q lo hi kind chk).dumps = s.dumps
      ∧ (noteOy s p q lo hi kind chk).tiles = s.tiles ∧ (noteOy s p q lo hi kind chk).pvs = s.pvs ∧ (noteOy s p q lo hi kind chk).fns = s.fns
      ∧ (noteOy s p q lo hi kind chk).die.hbm = s.die.hbm ∧ (noteOy s p q lo hi kind chk).die.oyKey = s.die.oyKey
      ∧ (noteOy s p q lo hi kind chk).die.slices = s.die.slices ∧ (noteOy s p q lo hi kind chk).die.transfers = s.die.transfers
      ∧ (noteOy s p q lo hi kind chk).die.commit = s.die.commit ∧ (noteOy s p q lo hi kind chk).die.barriers = s.die.barriers
      ∧ (noteOy s p q lo hi kind chk).die.windows = s.die.windows ∧ (noteOy s p q lo hi kind chk).die.ctls = s.die.ctls
      ∧ (noteOy s p q lo hi kind chk).die.lodges = s.die.lodges ∧ (noteOy s p q lo hi kind chk).die.band = s.die.band
      ∧ (noteOy s p q lo hi kind chk).die.reports = s.die.reports ∧ (noteOy s p q lo hi kind chk).die.atTick = s.die.atTick := by
  unfold noteOy; first | (simp; done) | ((try dsimp only); (repeat' split) <;> simp; done) | (refine ⟨?_, ?_, ?_, ?_, ?_, ?_, ?_, ?_, ?_, ?_, ?_, ?_, ?_, ?_, ?_, ?_, ?_, ?_, ?_, ?_⟩ <;> first | (simp; done) | ((try dsimp only); (repeat' split) <;> simp; done))

@[simp] theorem oyReadStep_keeps (s : State) (t op : Nat) (chk : Check) :
    (oyReadStep s t op chk).pending = s.pending ∧ (oyReadStep s t op chk).gate = s.gate ∧ (oyReadStep s t op chk).mod = s.mod
      ∧ (oyReadStep s t op chk).rows = s.rows ∧ (oyReadStep s t op chk).dumps = s.dumps ∧ (oyReadStep s t op chk).pvs = s.pvs
      ∧ (oyReadStep s t op chk).fns = s.fns ∧ (oyReadStep s t op chk).die.hbm = s.die.hbm ∧ (oyReadStep s t op chk).die.oyKey = s.die.oyKey
      ∧ (oyReadStep s t op chk).die.slices = s.die.slices ∧ (oyReadStep s t op chk).die.transfers = s.die.transfers
      ∧ (oyReadStep s t op chk).die.commit = s.die.commit ∧ (oyReadStep s t op chk).die.barriers = s.die.barriers
      ∧ (oyReadStep s t op chk).die.windows = s.die.windows ∧ (oyReadStep s t op chk).die.ctls = s.die.ctls
      ∧ (oyReadStep s t op chk).die.lodges = s.die.lodges ∧ (oyReadStep s t op chk).die.band = s.die.band
      ∧ (oyReadStep s t op chk).die.atTick = s.die.atTick := by
  unfold oyReadStep; first | (simp; done) | ((try dsimp only); (repeat' split) <;> simp; done) | (refine ⟨?_, ?_, ?_, ?_, ?_, ?_, ?_, ?_, ?_, ?_, ?_, ?_, ?_, ?_, ?_, ?_, ?_, ?_⟩ <;> first | (simp; done) | ((try dsimp only); (repeat' split) <;> simp; done))

@[simp] theorem oyLand_keeps (s : State) (p : Nat) (e : WinEntry) :
    (oyLand s p e).pending = s.pending ∧ (oyLand s p e).gate = s.gate ∧ (oyLand s p e).mod = s.mod ∧ (oyLand s p e).rows = s.rows
      ∧ (oyLand s p e).dumps = s.dumps ∧ (oyLand s p e).shed = s.shed ∧ (oyLand s p e).replay = s.replay ∧ (oyLand s p e).reg = s.reg
      ∧ (oyLand s p e).just = s.just ∧ (oyLand s p e).pvs = s.pvs ∧ (oyLand s p e).fns = s.fns ∧ (oyLand s p e).out = s.out
      ∧ (oyLand s p e).free = s.free ∧ (oyLand s p e).sun = s.sun ∧ (oyLand s p e).die = s.die := by
  unfold oyLand; first | (simp; done) | ((try dsimp only); (repeat' split) <;> simp; done) | (refine ⟨?_, ?_, ?_, ?_, ?_, ?_, ?_, ?_, ?_, ?_, ?_, ?_, ?_, ?_, ?_⟩ <;> first | (simp; done) | ((try dsimp only); (repeat' split) <;> simp; done))

@[simp] theorem commitAccept_keeps (s : State) (q a : Nat) (data : List Byte) :
    (commitAccept s q a data).pending = s.pending ∧ (commitAccept s q a data).gate = s.gate ∧ (commitAccept s q a data).mod = s.mod
      ∧ (commitAccept s q a data).rows = s.rows ∧ (commitAccept s q a data).dumps = s.dumps ∧ (commitAccept s q a data).shed = s.shed
      ∧ (commitAccept s q a data).replay = s.replay ∧ (commitAccept s q a data).just = s.just ∧ (commitAccept s q a data).tiles = s.tiles
      ∧ (commitAccept s q a data).pvs = s.pvs ∧ (commitAccept s q a data).fns = s.fns ∧ (commitAccept s q a data).out = s.out
      ∧ (commitAccept s q a data).free = s.free ∧ (commitAccept s q a data).sun = s.sun ∧ (commitAccept s q a data).die.hbm = s.die.hbm
      ∧ (commitAccept s q a data).die.oyKey = s.die.oyKey ∧ (commitAccept s q a data).die.slices = s.die.slices
      ∧ (commitAccept s q a data).die.transfers = s.die.transfers ∧ (commitAccept s q a data).die.barriers = s.die.barriers
      ∧ (commitAccept s q a data).die.windows = s.die.windows ∧ (commitAccept s q a data).die.ctls = s.die.ctls
      ∧ (commitAccept s q a data).die.ports = s.die.ports ∧ (commitAccept s q a data).die.lodges = s.die.lodges
      ∧ (commitAccept s q a data).die.band = s.die.band ∧ (commitAccept s q a data).die.reports = s.die.reports
      ∧ (commitAccept s q a data).die.atTick = s.die.atTick := by
  unfold commitAccept; first | (simp; done) | ((try dsimp only); (repeat' split) <;> simp; done) | (refine ⟨?_, ?_, ?_, ?_, ?_, ?_, ?_, ?_, ?_, ?_, ?_, ?_, ?_, ?_, ?_, ?_, ?_, ?_, ?_, ?_, ?_, ?_, ?_, ?_, ?_, ?_⟩ <;> first | (simp; done) | ((try dsimp only); (repeat' split) <;> simp; done))

@[simp] theorem oyAccept_keeps (s : State) (p i : Nat) (e : WinEntry) :
    (oyAccept s p i e).pending = s.pending ∧ (oyAccept s p i e).gate = s.gate ∧ (oyAccept s p i e).mod = s.mod ∧ (oyAccept s p i e).rows = s.rows
      ∧ (oyAccept s p i e).dumps = s.dumps ∧ (oyAccept s p i e).shed = s.shed ∧ (oyAccept s p i e).replay = s.replay
      ∧ (oyAccept s p i e).just = s.just ∧ (oyAccept s p i e).pvs = s.pvs ∧ (oyAccept s p i e).fns = s.fns ∧ (oyAccept s p i e).out = s.out
      ∧ (oyAccept s p i e).free = s.free ∧ (oyAccept s p i e).sun = s.sun ∧ (oyAccept s p i e).die.hbm = s.die.hbm
      ∧ (oyAccept s p i e).die.oyKey = s.die.oyKey ∧ (oyAccept s p i e).die.slices = s.die.slices
      ∧ (oyAccept s p i e).die.transfers = s.die.transfers ∧ (oyAccept s p i e).die.barriers = s.die.barriers
      ∧ (oyAccept s p i e).die.windows = s.die.windows ∧ (oyAccept s p i e).die.ctls = s.die.ctls ∧ (oyAccept s p i e).die.ports = s.die.ports
      ∧ (oyAccept s p i e).die.lodges = s.die.lodges ∧ (oyAccept s p i e).die.band = s.die.band ∧ (oyAccept s p i e).die.reports = s.die.reports
      ∧ (oyAccept s p i e).die.atTick = s.die.atTick := by
  unfold oyAccept; first | (simp; done) | ((try dsimp only); (repeat' split) <;> simp; done) | (refine ⟨?_, ?_, ?_, ?_, ?_, ?_, ?_, ?_, ?_, ?_, ?_, ?_, ?_, ?_, ?_, ?_, ?_, ?_, ?_, ?_, ?_, ?_, ?_, ?_, ?_⟩ <;> first | (simp; done) | ((try dsimp only); (repeat' split) <;> simp; done))

@[simp] theorem oyWait_keeps (s : State) (p q i : Nat) :
    (oyWait s p q i).pending = s.pending ∧ (oyWait s p q i).gate = s.gate ∧ (oyWait s p q i).mod = s.mod ∧ (oyWait s p q i).rows = s.rows
      ∧ (oyWait s p q i).dumps = s.dumps ∧ (oyWait s p q i).shed = s.shed ∧ (oyWait s p q i).replay = s.replay ∧ (oyWait s p q i).just = s.just
      ∧ (oyWait s p q i).pvs = s.pvs ∧ (oyWait s p q i).fns = s.fns ∧ (oyWait s p q i).out = s.out ∧ (oyWait s p q i).free = s.free
      ∧ (oyWait s p q i).sun = s.sun ∧ (oyWait s p q i).die = s.die := by
  unfold oyWait; first | (simp; done) | ((try dsimp only); (repeat' split) <;> simp; done) | (refine ⟨?_, ?_, ?_, ?_, ?_, ?_, ?_, ?_, ?_, ?_, ?_, ?_, ?_, ?_⟩ <;> first | (simp; done) | ((try dsimp only); (repeat' split) <;> simp; done))

@[simp] theorem oyFetch_keeps (s : State) (p i : Nat) (e : WinEntry) :
    (oyFetch s p i e).pending = s.pending ∧ (oyFetch s p i e).gate = s.gate ∧ (oyFetch s p i e).mod = s.mod ∧ (oyFetch s p i e).rows = s.rows
      ∧ (oyFetch s p i e).dumps = s.dumps ∧ (oyFetch s p i e).pvs = s.pvs ∧ (oyFetch s p i e).fns = s.fns ∧ (oyFetch s p i e).die.hbm = s.die.hbm
      ∧ (oyFetch s p i e).die.oyKey = s.die.oyKey ∧ (oyFetch s p i e).die.slices = s.die.slices
      ∧ (oyFetch s p i e).die.transfers = s.die.transfers ∧ (oyFetch s p i e).die.barriers = s.die.barriers
      ∧ (oyFetch s p i e).die.windows = s.die.windows ∧ (oyFetch s p i e).die.ctls = s.die.ctls ∧ (oyFetch s p i e).die.lodges = s.die.lodges
      ∧ (oyFetch s p i e).die.band = s.die.band ∧ (oyFetch s p i e).die.reports = s.die.reports ∧ (oyFetch s p i e).die.atTick = s.die.atTick := by
  unfold oyFetch; first | (simp; done) | ((try dsimp only); (repeat' split) <;> simp; done) | (refine ⟨?_, ?_, ?_, ?_, ?_, ?_, ?_, ?_, ?_, ?_, ?_, ?_, ?_, ?_, ?_, ?_, ?_, ?_⟩ <;> first | (simp; done) | ((try dsimp only); (repeat' split) <;> simp; done))

@[simp] theorem oyWriteStart_keeps (s : State) (t q : Nat) (chk : Check) :
    (oyWriteStart s t q chk).pending = s.pending ∧ (oyWriteStart s t q chk).gate = s.gate ∧ (oyWriteStart s t q chk).mod = s.mod
      ∧ (oyWriteStart s t q chk).rows = s.rows ∧ (oyWriteStart s t q chk).dumps = s.dumps ∧ (oyWriteStart s t q chk).shed = s.shed
      ∧ (oyWriteStart s t q chk).replay = s.replay ∧ (oyWriteStart s t q chk).reg = s.reg ∧ (oyWriteStart s t q chk).just = s.just
      ∧ (oyWriteStart s t q chk).pvs = s.pvs ∧ (oyWriteStart s t q chk).fns = s.fns ∧ (oyWriteStart s t q chk).out = s.out
      ∧ (oyWriteStart s t q chk).free = s.free ∧ (oyWriteStart s t q chk).sun = s.sun ∧ (oyWriteStart s t q chk).die.hbm = s.die.hbm
      ∧ (oyWriteStart s t q chk).die.oyKey = s.die.oyKey ∧ (oyWriteStart s t q chk).die.slices = s.die.slices
      ∧ (oyWriteStart s t q chk).die.transfers = s.die.transfers ∧ (oyWriteStart s t q chk).die.commit = s.die.commit
      ∧ (oyWriteStart s t q chk).die.barriers = s.die.barriers ∧ (oyWriteStart s t q chk).die.windows = s.die.windows
      ∧ (oyWriteStart s t q chk).die.ctls = s.die.ctls ∧ (oyWriteStart s t q chk).die.ports = s.die.ports
      ∧ (oyWriteStart s t q chk).die.lodges = s.die.lodges ∧ (oyWriteStart s t q chk).die.band = s.die.band
      ∧ (oyWriteStart s t q chk).die.atTick = s.die.atTick := by
  unfold oyWriteStart; first | (simp; done) | ((try dsimp only); (repeat' split) <;> simp; done) | (refine ⟨?_, ?_, ?_, ?_, ?_, ?_, ?_, ?_, ?_, ?_, ?_, ?_, ?_, ?_, ?_, ?_, ?_, ?_, ?_, ?_, ?_, ?_, ?_, ?_, ?_, ?_⟩ <;> first | (simp; done) | ((try dsimp only); (repeat' split) <;> simp; done))

@[simp] theorem oyWriteStep_keeps (s : State) (t : Nat) (chk : Check) :
    (oyWriteStep s t chk).pending = s.pending ∧ (oyWriteStep s t chk).gate = s.gate ∧ (oyWriteStep s t chk).mod = s.mod
      ∧ (oyWriteStep s t chk).rows = s.rows ∧ (oyWriteStep s t chk).dumps = s.dumps ∧ (oyWriteStep s t chk).shed = s.shed
      ∧ (oyWriteStep s t chk).replay = s.replay ∧ (oyWriteStep s t chk).just = s.just ∧ (oyWriteStep s t chk).pvs = s.pvs
      ∧ (oyWriteStep s t chk).fns = s.fns ∧ (oyWriteStep s t chk).out = s.out ∧ (oyWriteStep s t chk).free = s.free
      ∧ (oyWriteStep s t chk).sun = s.sun ∧ (oyWriteStep s t chk).die.hbm = s.die.hbm ∧ (oyWriteStep s t chk).die.oyKey = s.die.oyKey
      ∧ (oyWriteStep s t chk).die.slices = s.die.slices ∧ (oyWriteStep s t chk).die.transfers = s.die.transfers
      ∧ (oyWriteStep s t chk).die.barriers = s.die.barriers ∧ (oyWriteStep s t chk).die.windows = s.die.windows
      ∧ (oyWriteStep s t chk).die.ctls = s.die.ctls ∧ (oyWriteStep s t chk).die.ports = s.die.ports
      ∧ (oyWriteStep s t chk).die.lodges = s.die.lodges ∧ (oyWriteStep s t chk).die.band = s.die.band
      ∧ (oyWriteStep s t chk).die.atTick = s.die.atTick := by
  unfold oyWriteStep; first | (simp; done) | ((try dsimp only); (repeat' split) <;> simp; done) | (refine ⟨?_, ?_, ?_, ?_, ?_, ?_, ?_, ?_, ?_, ?_, ?_, ?_, ?_, ?_, ?_, ?_, ?_, ?_, ?_, ?_, ?_, ?_, ?_, ?_⟩ <;> first | (simp; done) | ((try dsimp only); (repeat' split) <;> simp; done))

@[simp] theorem commitFrame_keeps (s : State) :
    (commitFrame s).pending = s.pending ∧ (commitFrame s).gate = s.gate ∧ (commitFrame s).mod = s.mod ∧ (commitFrame s).rows = s.rows
      ∧ (commitFrame s).dumps = s.dumps ∧ (commitFrame s).shed = s.shed ∧ (commitFrame s).replay = s.replay ∧ (commitFrame s).reg = s.reg
      ∧ (commitFrame s).just = s.just ∧ (commitFrame s).tiles = s.tiles ∧ (commitFrame s).pvs = s.pvs ∧ (commitFrame s).fns = s.fns
      ∧ (commitFrame s).out = s.out ∧ (commitFrame s).free = s.free ∧ (commitFrame s).sun = s.sun ∧ (commitFrame s).die.hbm = s.die.hbm
      ∧ (commitFrame s).die.oyKey = s.die.oyKey ∧ (commitFrame s).die.slices = s.die.slices ∧ (commitFrame s).die.transfers = s.die.transfers
      ∧ (commitFrame s).die.barriers = s.die.barriers ∧ (commitFrame s).die.windows = s.die.windows ∧ (commitFrame s).die.ctls = s.die.ctls
      ∧ (commitFrame s).die.ports = s.die.ports ∧ (commitFrame s).die.lodges = s.die.lodges ∧ (commitFrame s).die.band = s.die.band
      ∧ (commitFrame s).die.reports = s.die.reports ∧ (commitFrame s).die.atTick = s.die.atTick := by
  unfold commitFrame; first | (simp; done) | ((try dsimp only); (repeat' split) <;> simp; done) | (refine ⟨?_, ?_, ?_, ?_, ?_, ?_, ?_, ?_, ?_, ?_, ?_, ?_, ?_, ?_, ?_, ?_, ?_, ?_, ?_, ?_, ?_, ?_, ?_, ?_, ?_, ?_, ?_⟩ <;> first | (simp; done) | ((try dsimp only); (repeat' split) <;> simp; done))

@[simp] theorem commitDrain_keeps (s : State) :
    (commitDrain s).pending = s.pending ∧ (commitDrain s).gate = s.gate ∧ (commitDrain s).mod = s.mod ∧ (commitDrain s).rows = s.rows
      ∧ (commitDrain s).dumps = s.dumps ∧ (commitDrain s).shed = s.shed ∧ (commitDrain s).replay = s.replay ∧ (commitDrain s).reg = s.reg
      ∧ (commitDrain s).just = s.just ∧ (commitDrain s).tiles = s.tiles ∧ (commitDrain s).pvs = s.pvs ∧ (commitDrain s).fns = s.fns
      ∧ (commitDrain s).out = s.out ∧ (commitDrain s).free = s.free ∧ (commitDrain s).sun = s.sun ∧ (commitDrain s).die.oyKey = s.die.oyKey
      ∧ (commitDrain s).die.slices = s.die.slices ∧ (commitDrain s).die.transfers = s.die.transfers
      ∧ (commitDrain s).die.barriers = s.die.barriers ∧ (commitDrain s).die.windows = s.die.windows ∧ (commitDrain s).die.ctls = s.die.ctls
      ∧ (commitDrain s).die.ports = s.die.ports ∧ (commitDrain s).die.lodges = s.die.lodges ∧ (commitDrain s).die.band = s.die.band
      ∧ (commitDrain s).die.reports = s.die.reports ∧ (commitDrain s).die.atTick = s.die.atTick := by
  unfold commitDrain; first | (simp; done) | ((try dsimp only); (repeat' split) <;> simp; done) | (refine ⟨?_, ?_, ?_, ?_, ?_, ?_, ?_, ?_, ?_, ?_, ?_, ?_, ?_, ?_, ?_, ?_, ?_, ?_, ?_, ?_, ?_, ?_, ?_, ?_, ?_, ?_⟩ <;> first | (simp; done) | ((try dsimp only); (repeat' split) <;> simp; done))

@[simp] theorem commitFlush_keeps (s : State) (q : Nat) :
    (commitFlush s q).pending = s.pending ∧ (commitFlush s q).gate = s.gate ∧ (commitFlush s q).mod = s.mod ∧ (commitFlush s q).rows = s.rows
      ∧ (commitFlush s q).dumps = s.dumps ∧ (commitFlush s q).shed = s.shed ∧ (commitFlush s q).replay = s.replay ∧ (commitFlush s q).reg = s.reg
      ∧ (commitFlush s q).just = s.just ∧ (commitFlush s q).tiles = s.tiles ∧ (commitFlush s q).pvs = s.pvs ∧ (commitFlush s q).fns = s.fns
      ∧ (commitFlush s q).out = s.out ∧ (commitFlush s q).free = s.free ∧ (commitFlush s q).sun = s.sun
      ∧ (commitFlush s q).die.oyKey = s.die.oyKey ∧ (commitFlush s q).die.slices = s.die.slices
      ∧ (commitFlush s q).die.transfers = s.die.transfers ∧ (commitFlush s q).die.barriers = s.die.barriers
      ∧ (commitFlush s q).die.windows = s.die.windows ∧ (commitFlush s q).die.ctls = s.die.ctls ∧ (commitFlush s q).die.ports = s.die.ports
      ∧ (commitFlush s q).die.lodges = s.die.lodges ∧ (commitFlush s q).die.band = s.die.band ∧ (commitFlush s q).die.reports = s.die.reports
      ∧ (commitFlush s q).die.atTick = s.die.atTick := by
  unfold commitFlush; first | (simp; done) | ((try dsimp only); (repeat' split) <;> simp; done) | (refine ⟨?_, ?_, ?_, ?_, ?_, ?_, ?_, ?_, ?_, ?_, ?_, ?_, ?_, ?_, ?_, ?_, ?_, ?_, ?_, ?_, ?_, ?_, ?_, ?_, ?_, ?_⟩ <;> first | (simp; done) | ((try dsimp only); (repeat' split) <;> simp; done))

@[simp] theorem commitDrop_keeps (s : State) (drop : Nat → Bool) :
    (commitDrop s drop).pending = s.pending ∧ (commitDrop s drop).gate = s.gate ∧ (commitDrop s drop).mod = s.mod
      ∧ (commitDrop s drop).rows = s.rows ∧ (commitDrop s drop).dumps = s.dumps ∧ (commitDrop s drop).shed = s.shed
      ∧ (commitDrop s drop).replay = s.replay ∧ (commitDrop s drop).reg = s.reg ∧ (commitDrop s drop).just = s.just
      ∧ (commitDrop s drop).tiles = s.tiles ∧ (commitDrop s drop).pvs = s.pvs ∧ (commitDrop s drop).fns = s.fns ∧ (commitDrop s drop).out = s.out
      ∧ (commitDrop s drop).free = s.free ∧ (commitDrop s drop).sun = s.sun ∧ (commitDrop s drop).die.hbm = s.die.hbm
      ∧ (commitDrop s drop).die.oyKey = s.die.oyKey ∧ (commitDrop s drop).die.slices = s.die.slices
      ∧ (commitDrop s drop).die.transfers = s.die.transfers ∧ (commitDrop s drop).die.barriers = s.die.barriers
      ∧ (commitDrop s drop).die.windows = s.die.windows ∧ (commitDrop s drop).die.ctls = s.die.ctls ∧ (commitDrop s drop).die.ports = s.die.ports
      ∧ (commitDrop s drop).die.lodges = s.die.lodges ∧ (commitDrop s drop).die.band = s.die.band
      ∧ (commitDrop s drop).die.reports = s.die.reports ∧ (commitDrop s drop).die.atTick = s.die.atTick := by
  unfold commitDrop; first | (simp; done) | ((try dsimp only); (repeat' split) <;> simp; done) | (refine ⟨?_, ?_, ?_, ?_, ?_, ?_, ?_, ?_, ?_, ?_, ?_, ?_, ?_, ?_, ?_, ?_, ?_, ?_, ?_, ?_, ?_, ?_, ?_, ?_, ?_, ?_, ?_⟩ <;> first | (simp; done) | ((try dsimp only); (repeat' split) <;> simp; done))

@[simp] theorem clearGroups_keeps (s : State) (groups : Nat) :
    (clearGroups s groups).pending = s.pending ∧ (clearGroups s groups).gate = s.gate ∧ (clearGroups s groups).mod = s.mod
      ∧ (clearGroups s groups).rows = s.rows ∧ (clearGroups s groups).dumps = s.dumps ∧ (clearGroups s groups).shed = s.shed
      ∧ (clearGroups s groups).replay = s.replay ∧ (clearGroups s groups).reg = s.reg ∧ (clearGroups s groups).just = s.just
      ∧ (clearGroups s groups).tiles = s.tiles ∧ (clearGroups s groups).pvs = s.pvs ∧ (clearGroups s groups).fns = s.fns
      ∧ (clearGroups s groups).out = s.out ∧ (clearGroups s groups).free = s.free ∧ (clearGroups s groups).sun = s.sun
      ∧ (clearGroups s groups).die.oyKey = s.die.oyKey ∧ (clearGroups s groups).die.slices = s.die.slices
      ∧ (clearGroups s groups).die.transfers = s.die.transfers ∧ (clearGroups s groups).die.commit = s.die.commit
      ∧ (clearGroups s groups).die.barriers = s.die.barriers ∧ (clearGroups s groups).die.windows = s.die.windows
      ∧ (clearGroups s groups).die.ctls = s.die.ctls ∧ (clearGroups s groups).die.ports = s.die.ports
      ∧ (clearGroups s groups).die.lodges = s.die.lodges ∧ (clearGroups s groups).die.band = s.die.band
      ∧ (clearGroups s groups).die.reports = s.die.reports ∧ (clearGroups s groups).die.atTick = s.die.atTick := by
  unfold clearGroups; first | (simp; done) | ((try dsimp only); (repeat' split) <;> simp; done) | (refine ⟨?_, ?_, ?_, ?_, ?_, ?_, ?_, ?_, ?_, ?_, ?_, ?_, ?_, ?_, ?_, ?_, ?_, ?_, ?_, ?_, ?_, ?_, ?_, ?_, ?_, ?_, ?_⟩ <;> first | (simp; done) | ((try dsimp only); (repeat' split) <;> simp; done))

@[simp] theorem State.setTemp_keeps (s : State) (n temp : Nat) :
    (State.setTemp s n temp).pending = s.pending ∧ (State.setTemp s n temp).gate = s.gate ∧ (State.setTemp s n temp).rows = s.rows
      ∧ (State.setTemp s n temp).dumps = s.dumps ∧ (State.setTemp s n temp).shed = s.shed ∧ (State.setTemp s n temp).replay = s.replay
      ∧ (State.setTemp s n temp).reg = s.reg ∧ (State.setTemp s n temp).just = s.just ∧ (State.setTemp s n temp).tiles = s.tiles
      ∧ (State.setTemp s n temp).pvs = s.pvs ∧ (State.setTemp s n temp).fns = s.fns ∧ (State.setTemp s n temp).out = s.out
      ∧ (State.setTemp s n temp).free = s.free ∧ (State.setTemp s n temp).sun = s.sun ∧ (State.setTemp s n temp).die = s.die := by
  unfold State.setTemp; first | (simp; done) | ((try dsimp only); (repeat' split) <;> simp; done) | (refine ⟨?_, ?_, ?_, ?_, ?_, ?_, ?_, ?_, ?_, ?_, ?_, ?_, ?_, ?_, ?_⟩ <;> first | (simp; done) | ((try dsimp only); (repeat' split) <;> simp; done))

@[simp] theorem stackHot_keeps (s : State) (stack temp : Nat) :
    (stackHot s stack temp).pending = s.pending ∧ (stackHot s stack temp).gate = s.gate ∧ (stackHot s stack temp).rows = s.rows
      ∧ (stackHot s stack temp).dumps = s.dumps ∧ (stackHot s stack temp).shed = s.shed ∧ (stackHot s stack temp).replay = s.replay
      ∧ (stackHot s stack temp).tiles = s.tiles ∧ (stackHot s stack temp).pvs = s.pvs ∧ (stackHot s stack temp).fns = s.fns
      ∧ (stackHot s stack temp).out = s.out ∧ (stackHot s stack temp).free = s.free ∧ (stackHot s stack temp).sun = s.sun
      ∧ (stackHot s stack temp).die = s.die := by
  unfold stackHot; first | (simp; done) | ((try dsimp only); (repeat' split) <;> simp; done) | (refine ⟨?_, ?_, ?_, ?_, ?_, ?_, ?_, ?_, ?_, ?_, ?_, ?_, ?_⟩ <;> first | (simp; done) | ((try dsimp only); (repeat' split) <;> simp; done))

@[simp] theorem stackCooled_keeps (s : State) (stack temp : Nat) :
    (stackCooled s stack temp).pending = s.pending ∧ (stackCooled s stack temp).gate = s.gate ∧ (stackCooled s stack temp).rows = s.rows
      ∧ (stackCooled s stack temp).dumps = s.dumps ∧ (stackCooled s stack temp).shed = s.shed ∧ (stackCooled s stack temp).replay = s.replay
      ∧ (stackCooled s stack temp).just = s.just ∧ (stackCooled s stack temp).tiles = s.tiles ∧ (stackCooled s stack temp).pvs = s.pvs
      ∧ (stackCooled s stack temp).fns = s.fns ∧ (stackCooled s stack temp).out = s.out ∧ (stackCooled s stack temp).free = s.free
      ∧ (stackCooled s stack temp).sun = s.sun ∧ (stackCooled s stack temp).die = s.die := by
  unfold stackCooled; first | (simp; done) | ((try dsimp only); (repeat' split) <;> simp; done) | (refine ⟨?_, ?_, ?_, ?_, ?_, ?_, ?_, ?_, ?_, ?_, ?_, ?_, ?_, ?_⟩ <;> first | (simp; done) | ((try dsimp only); (repeat' split) <;> simp; done))

@[simp] theorem State.setSlice_keeps (s : State) (n : Nat) (x : Slice) :
    (State.setSlice s n x).pending = s.pending ∧ (State.setSlice s n x).gate = s.gate ∧ (State.setSlice s n x).mod = s.mod
      ∧ (State.setSlice s n x).rows = s.rows ∧ (State.setSlice s n x).dumps = s.dumps ∧ (State.setSlice s n x).shed = s.shed
      ∧ (State.setSlice s n x).replay = s.replay ∧ (State.setSlice s n x).reg = s.reg ∧ (State.setSlice s n x).just = s.just
      ∧ (State.setSlice s n x).tiles = s.tiles ∧ (State.setSlice s n x).pvs = s.pvs ∧ (State.setSlice s n x).fns = s.fns
      ∧ (State.setSlice s n x).out = s.out ∧ (State.setSlice s n x).free = s.free ∧ (State.setSlice s n x).sun = s.sun
      ∧ (State.setSlice s n x).die.hbm = s.die.hbm ∧ (State.setSlice s n x).die.oyKey = s.die.oyKey
      ∧ (State.setSlice s n x).die.transfers = s.die.transfers ∧ (State.setSlice s n x).die.commit = s.die.commit
      ∧ (State.setSlice s n x).die.barriers = s.die.barriers ∧ (State.setSlice s n x).die.windows = s.die.windows
      ∧ (State.setSlice s n x).die.ctls = s.die.ctls ∧ (State.setSlice s n x).die.ports = s.die.ports
      ∧ (State.setSlice s n x).die.lodges = s.die.lodges ∧ (State.setSlice s n x).die.band = s.die.band
      ∧ (State.setSlice s n x).die.reports = s.die.reports ∧ (State.setSlice s n x).die.atTick = s.die.atTick := by
  unfold State.setSlice; first | (simp; done) | ((try dsimp only); (repeat' split) <;> simp; done) | (refine ⟨?_, ?_, ?_, ?_, ?_, ?_, ?_, ?_, ?_, ?_, ?_, ?_, ?_, ?_, ?_, ?_, ?_, ?_, ?_, ?_, ?_, ?_, ?_, ?_, ?_, ?_, ?_⟩ <;> first | (simp; done) | ((try dsimp only); (repeat' split) <;> simp; done))

@[simp] theorem State.dropSlice_keeps (s : State) (n : Nat) :
    (State.dropSlice s n).pending = s.pending ∧ (State.dropSlice s n).gate = s.gate ∧ (State.dropSlice s n).mod = s.mod
      ∧ (State.dropSlice s n).rows = s.rows ∧ (State.dropSlice s n).dumps = s.dumps ∧ (State.dropSlice s n).shed = s.shed
      ∧ (State.dropSlice s n).replay = s.replay ∧ (State.dropSlice s n).reg = s.reg ∧ (State.dropSlice s n).just = s.just
      ∧ (State.dropSlice s n).tiles = s.tiles ∧ (State.dropSlice s n).pvs = s.pvs ∧ (State.dropSlice s n).fns = s.fns
      ∧ (State.dropSlice s n).out = s.out ∧ (State.dropSlice s n).free = s.free ∧ (State.dropSlice s n).sun = s.sun
      ∧ (State.dropSlice s n).die.hbm = s.die.hbm ∧ (State.dropSlice s n).die.oyKey = s.die.oyKey
      ∧ (State.dropSlice s n).die.transfers = s.die.transfers ∧ (State.dropSlice s n).die.commit = s.die.commit
      ∧ (State.dropSlice s n).die.barriers = s.die.barriers ∧ (State.dropSlice s n).die.windows = s.die.windows
      ∧ (State.dropSlice s n).die.ctls = s.die.ctls ∧ (State.dropSlice s n).die.ports = s.die.ports
      ∧ (State.dropSlice s n).die.lodges = s.die.lodges ∧ (State.dropSlice s n).die.band = s.die.band
      ∧ (State.dropSlice s n).die.reports = s.die.reports ∧ (State.dropSlice s n).die.atTick = s.die.atTick := by
  unfold State.dropSlice; first | (simp; done) | ((try dsimp only); (repeat' split) <;> simp; done) | (refine ⟨?_, ?_, ?_, ?_, ?_, ?_, ?_, ?_, ?_, ?_, ?_, ?_, ?_, ?_, ?_, ?_, ?_, ?_, ?_, ?_, ?_, ?_, ?_, ?_, ?_, ?_, ?_⟩ <;> first | (simp; done) | ((try dsimp only); (repeat' split) <;> simp; done))

@[simp] theorem stageUnit_keeps (s : State) (x : Slice) (u : Nat) (b : List Byte) :
    (stageUnit s x u b).pending = s.pending ∧ (stageUnit s x u b).gate = s.gate ∧ (stageUnit s x u b).mod = s.mod
      ∧ (stageUnit s x u b).rows = s.rows ∧ (stageUnit s x u b).dumps = s.dumps ∧ (stageUnit s x u b).shed = s.shed
      ∧ (stageUnit s x u b).replay = s.replay ∧ (stageUnit s x u b).reg = s.reg ∧ (stageUnit s x u b).just = s.just
      ∧ (stageUnit s x u b).tiles = s.tiles ∧ (stageUnit s x u b).pvs = s.pvs ∧ (stageUnit s x u b).fns = s.fns ∧ (stageUnit s x u b).out = s.out
      ∧ (stageUnit s x u b).free = s.free ∧ (stageUnit s x u b).sun = s.sun ∧ (stageUnit s x u b).die.oyKey = s.die.oyKey
      ∧ (stageUnit s x u b).die.slices = s.die.slices ∧ (stageUnit s x u b).die.transfers = s.die.transfers
      ∧ (stageUnit s x u b).die.commit = s.die.commit ∧ (stageUnit s x u b).die.barriers = s.die.barriers
      ∧ (stageUnit s x u b).die.windows = s.die.windows ∧ (stageUnit s x u b).die.ctls = s.die.ctls ∧ (stageUnit s x u b).die.ports = s.die.ports
      ∧ (stageUnit s x u b).die.lodges = s.die.lodges ∧ (stageUnit s x u b).die.band = s.die.band
      ∧ (stageUnit s x u b).die.reports = s.die.reports ∧ (stageUnit s x u b).die.atTick = s.die.atTick := by
  unfold stageUnit; first | (simp; done) | ((try dsimp only); (repeat' split) <;> simp; done) | (refine ⟨?_, ?_, ?_, ?_, ?_, ?_, ?_, ?_, ?_, ?_, ?_, ?_, ?_, ?_, ?_, ?_, ?_, ?_, ?_, ?_, ?_, ?_, ?_, ?_, ?_, ?_, ?_⟩ <;> first | (simp; done) | ((try dsimp only); (repeat' split) <;> simp; done))

@[simp] theorem sliceClean_keeps (s : State) (x : Slice) :
    (sliceClean s x).pending = s.pending ∧ (sliceClean s x).gate = s.gate ∧ (sliceClean s x).mod = s.mod ∧ (sliceClean s x).rows = s.rows
      ∧ (sliceClean s x).dumps = s.dumps ∧ (sliceClean s x).shed = s.shed ∧ (sliceClean s x).reg = s.reg ∧ (sliceClean s x).just = s.just
      ∧ (sliceClean s x).tiles = s.tiles ∧ (sliceClean s x).pvs = s.pvs ∧ (sliceClean s x).fns = s.fns ∧ (sliceClean s x).out = s.out
      ∧ (sliceClean s x).free = s.free ∧ (sliceClean s x).sun = s.sun ∧ (sliceClean s x).die = s.die := by
  unfold sliceClean; first | (simp; done) | ((try dsimp only); (repeat' split) <;> simp; done) | (refine ⟨?_, ?_, ?_, ?_, ?_, ?_, ?_, ?_, ?_, ?_, ?_, ?_, ?_, ?_, ?_⟩ <;> first | (simp; done) | ((try dsimp only); (repeat' split) <;> simp; done))

@[simp] theorem flagTwice_keeps (s : State) (y : Site) :
    (flagTwice s y).pending = s.pending ∧ (flagTwice s y).gate = s.gate ∧ (flagTwice s y).mod = s.mod ∧ (flagTwice s y).rows = s.rows
      ∧ (flagTwice s y).dumps = s.dumps ∧ (flagTwice s y).tiles = s.tiles ∧ (flagTwice s y).pvs = s.pvs ∧ (flagTwice s y).fns = s.fns
      ∧ (flagTwice s y).out = s.out ∧ (flagTwice s y).free = s.free ∧ (flagTwice s y).sun = s.sun ∧ (flagTwice s y).die = s.die := by
  unfold flagTwice; first | (simp; done) | ((try dsimp only); (repeat' split) <;> simp; done) | (refine ⟨?_, ?_, ?_, ?_, ?_, ?_, ?_, ?_, ?_, ?_, ?_, ?_⟩ <;> first | (simp; done) | ((try dsimp only); (repeat' split) <;> simp; done))

@[simp] theorem noteSlice_keeps (s : State) (x : Slice) (chk : Check) :
    (noteSlice s x chk).pending = s.pending ∧ (noteSlice s x chk).gate = s.gate ∧ (noteSlice s x chk).mod = s.mod
      ∧ (noteSlice s x chk).rows = s.rows ∧ (noteSlice s x chk).dumps = s.dumps ∧ (noteSlice s x chk).tiles = s.tiles
      ∧ (noteSlice s x chk).pvs = s.pvs ∧ (noteSlice s x chk).fns = s.fns ∧ (noteSlice s x chk).out = s.out ∧ (noteSlice s x chk).sun = s.sun
      ∧ (noteSlice s x chk).die = s.die := by
  unfold noteSlice; first | (simp; done) | ((try dsimp only); (repeat' split) <;> simp; done) | (refine ⟨?_, ?_, ?_, ?_, ?_, ?_, ?_, ?_, ?_, ?_, ?_⟩ <;> first | (simp; done) | ((try dsimp only); (repeat' split) <;> simp; done))

@[simp] theorem noteReload_keeps (s : State) (q : Nat) (chk : Check) :
    (noteReload s q chk).pending = s.pending ∧ (noteReload s q chk).gate = s.gate ∧ (noteReload s q chk).mod = s.mod
      ∧ (noteReload s q chk).rows = s.rows ∧ (noteReload s q chk).dumps = s.dumps ∧ (noteReload s q chk).tiles = s.tiles
      ∧ (noteReload s q chk).pvs = s.pvs ∧ (noteReload s q chk).fns = s.fns ∧ (noteReload s q chk).out = s.out ∧ (noteReload s q chk).sun = s.sun
      ∧ (noteReload s q chk).die = s.die := by
  unfold noteReload; first | (simp; done) | ((try dsimp only); (repeat' split) <;> simp; done) | (refine ⟨?_, ?_, ?_, ?_, ?_, ?_, ?_, ?_, ?_, ?_, ?_⟩ <;> first | (simp; done) | ((try dsimp only); (repeat' split) <;> simp; done))

@[simp] theorem repairUnits_keeps (s : State) (q : Nat) :
    (repairUnits s q).pending = s.pending ∧ (repairUnits s q).gate = s.gate ∧ (repairUnits s q).mod = s.mod ∧ (repairUnits s q).rows = s.rows
      ∧ (repairUnits s q).dumps = s.dumps ∧ (repairUnits s q).shed = s.shed ∧ (repairUnits s q).just = s.just ∧ (repairUnits s q).tiles = s.tiles
      ∧ (repairUnits s q).pvs = s.pvs ∧ (repairUnits s q).fns = s.fns ∧ (repairUnits s q).out = s.out ∧ (repairUnits s q).free = s.free
      ∧ (repairUnits s q).sun = s.sun ∧ (repairUnits s q).die = s.die := by
  unfold repairUnits; first | (simp; done) | ((try dsimp only); (repeat' split) <;> simp; done) | (refine ⟨?_, ?_, ?_, ?_, ?_, ?_, ?_, ?_, ?_, ?_, ?_, ?_, ?_, ?_⟩ <;> first | (simp; done) | ((try dsimp only); (repeat' split) <;> simp; done))

@[simp] theorem reloadTile_keeps (s : State) (q t : Nat) :
    (reloadTile s q t).pending = s.pending ∧ (reloadTile s q t).gate = s.gate ∧ (reloadTile s q t).mod = s.mod ∧ (reloadTile s q t).rows = s.rows
      ∧ (reloadTile s q t).dumps = s.dumps ∧ (reloadTile s q t).shed = s.shed ∧ (reloadTile s q t).replay = s.replay
      ∧ (reloadTile s q t).reg = s.reg ∧ (reloadTile s q t).just = s.just ∧ (reloadTile s q t).pvs = s.pvs ∧ (reloadTile s q t).fns = s.fns
      ∧ (reloadTile s q t).out = s.out ∧ (reloadTile s q t).free = s.free ∧ (reloadTile s q t).sun = s.sun ∧ (reloadTile s q t).die = s.die := by
  unfold reloadTile; first | (simp; done) | ((try dsimp only); (repeat' split) <;> simp; done) | (refine ⟨?_, ?_, ?_, ?_, ?_, ?_, ?_, ?_, ?_, ?_, ?_, ?_, ?_, ?_, ?_⟩ <;> first | (simp; done) | ((try dsimp only); (repeat' split) <;> simp; done))

@[simp] theorem copyWindow_keeps (s : State) (q : Nat) (x : Slice) :
    (copyWindow s q x).pending = s.pending ∧ (copyWindow s q x).gate = s.gate ∧ (copyWindow s q x).mod = s.mod ∧ (copyWindow s q x).rows = s.rows
      ∧ (copyWindow s q x).dumps = s.dumps ∧ (copyWindow s q x).shed = s.shed ∧ (copyWindow s q x).replay = s.replay
      ∧ (copyWindow s q x).reg = s.reg ∧ (copyWindow s q x).just = s.just ∧ (copyWindow s q x).tiles = s.tiles ∧ (copyWindow s q x).pvs = s.pvs
      ∧ (copyWindow s q x).fns = s.fns ∧ (copyWindow s q x).out = s.out ∧ (copyWindow s q x).free = s.free ∧ (copyWindow s q x).sun = s.sun
      ∧ (copyWindow s q x).die.oyKey = s.die.oyKey ∧ (copyWindow s q x).die.slices = s.die.slices
      ∧ (copyWindow s q x).die.transfers = s.die.transfers ∧ (copyWindow s q x).die.commit = s.die.commit
      ∧ (copyWindow s q x).die.barriers = s.die.barriers ∧ (copyWindow s q x).die.windows = s.die.windows
      ∧ (copyWindow s q x).die.ctls = s.die.ctls ∧ (copyWindow s q x).die.ports = s.die.ports ∧ (copyWindow s q x).die.lodges = s.die.lodges
      ∧ (copyWindow s q x).die.band = s.die.band ∧ (copyWindow s q x).die.reports = s.die.reports ∧ (copyWindow s q x).die.atTick = s.die.atTick := by
  unfold copyWindow; first | (simp; done) | ((try dsimp only); (repeat' split) <;> simp; done) | (refine ⟨?_, ?_, ?_, ?_, ?_, ?_, ?_, ?_, ?_, ?_, ?_, ?_, ?_, ?_, ?_, ?_, ?_, ?_, ?_, ?_, ?_, ?_, ?_, ?_, ?_, ?_, ?_⟩ <;> first | (simp; done) | ((try dsimp only); (repeat' split) <;> simp; done))

@[simp] theorem dropTransfer_keeps (s : State) (id : Nat) :
    (dropTransfer s id).pending = s.pending ∧ (dropTransfer s id).gate = s.gate ∧ (dropTransfer s id).mod = s.mod
      ∧ (dropTransfer s id).rows = s.rows ∧ (dropTransfer s id).dumps = s.dumps ∧ (dropTransfer s id).shed = s.shed
      ∧ (dropTransfer s id).replay = s.replay ∧ (dropTransfer s id).reg = s.reg ∧ (dropTransfer s id).just = s.just
      ∧ (dropTransfer s id).tiles = s.tiles ∧ (dropTransfer s id).pvs = s.pvs ∧ (dropTransfer s id).fns = s.fns ∧ (dropTransfer s id).out = s.out
      ∧ (dropTransfer s id).free = s.free ∧ (dropTransfer s id).sun = s.sun ∧ (dropTransfer s id).die.hbm = s.die.hbm
      ∧ (dropTransfer s id).die.oyKey = s.die.oyKey ∧ (dropTransfer s id).die.slices = s.die.slices
      ∧ (dropTransfer s id).die.commit = s.die.commit ∧ (dropTransfer s id).die.barriers = s.die.barriers
      ∧ (dropTransfer s id).die.windows = s.die.windows ∧ (dropTransfer s id).die.ctls = s.die.ctls ∧ (dropTransfer s id).die.ports = s.die.ports
      ∧ (dropTransfer s id).die.lodges = s.die.lodges ∧ (dropTransfer s id).die.band = s.die.band
      ∧ (dropTransfer s id).die.reports = s.die.reports ∧ (dropTransfer s id).die.atTick = s.die.atTick := by
  unfold dropTransfer; first | (simp; done) | ((try dsimp only); (repeat' split) <;> simp; done) | (refine ⟨?_, ?_, ?_, ?_, ?_, ?_, ?_, ?_, ?_, ?_, ?_, ?_, ?_, ?_, ?_, ?_, ?_, ?_, ?_, ?_, ?_, ?_, ?_, ?_, ?_, ?_, ?_⟩ <;> first | (simp; done) | ((try dsimp only); (repeat' split) <;> simp; done))

@[simp] theorem dropLanding_keeps (s : State) (p : Nat) (x : Transfer) :
    (dropLanding s p x).pending = s.pending ∧ (dropLanding s p x).gate = s.gate ∧ (dropLanding s p x).mod = s.mod
      ∧ (dropLanding s p x).rows = s.rows ∧ (dropLanding s p x).dumps = s.dumps ∧ (dropLanding s p x).shed = s.shed
      ∧ (dropLanding s p x).replay = s.replay ∧ (dropLanding s p x).reg = s.reg ∧ (dropLanding s p x).just = s.just
      ∧ (dropLanding s p x).pvs = s.pvs ∧ (dropLanding s p x).fns = s.fns ∧ (dropLanding s p x).out = s.out ∧ (dropLanding s p x).free = s.free
      ∧ (dropLanding s p x).sun = s.sun ∧ (dropLanding s p x).die = s.die := by
  unfold dropLanding; first | (simp; done) | ((try dsimp only); (repeat' split) <;> simp; done) | (refine ⟨?_, ?_, ?_, ?_, ?_, ?_, ?_, ?_, ?_, ?_, ?_, ?_, ?_, ?_, ?_⟩ <;> first | (simp; done) | ((try dsimp only); (repeat' split) <;> simp; done))

@[simp] theorem landBytes_keeps (s : State) (p : Nat) (x : Transfer) (a : Nat) (b : List Byte) :
    (landBytes s p x a b).pending = s.pending ∧ (landBytes s p x a b).gate = s.gate ∧ (landBytes s p x a b).mod = s.mod
      ∧ (landBytes s p x a b).rows = s.rows ∧ (landBytes s p x a b).dumps = s.dumps ∧ (landBytes s p x a b).shed = s.shed
      ∧ (landBytes s p x a b).replay = s.replay ∧ (landBytes s p x a b).reg = s.reg ∧ (landBytes s p x a b).just = s.just
      ∧ (landBytes s p x a b).pvs = s.pvs ∧ (landBytes s p x a b).fns = s.fns ∧ (landBytes s p x a b).out = s.out
      ∧ (landBytes s p x a b).free = s.free ∧ (landBytes s p x a b).sun = s.sun ∧ (landBytes s p x a b).die = s.die := by
  unfold landBytes; first | (simp; done) | ((try dsimp only); (repeat' split) <;> simp; done) | (refine ⟨?_, ?_, ?_, ?_, ?_, ?_, ?_, ?_, ?_, ?_, ?_, ?_, ?_, ?_, ?_⟩ <;> first | (simp; done) | ((try dsimp only); (repeat' split) <;> simp; done))

@[simp] theorem landFlit_keeps (s : State) (p : Nat) (x : Transfer) (f : MeshFlit) :
    (landFlit s p x f).pending = s.pending ∧ (landFlit s p x f).gate = s.gate ∧ (landFlit s p x f).mod = s.mod ∧ (landFlit s p x f).rows = s.rows
      ∧ (landFlit s p x f).dumps = s.dumps ∧ (landFlit s p x f).shed = s.shed ∧ (landFlit s p x f).replay = s.replay
      ∧ (landFlit s p x f).reg = s.reg ∧ (landFlit s p x f).just = s.just ∧ (landFlit s p x f).pvs = s.pvs ∧ (landFlit s p x f).fns = s.fns
      ∧ (landFlit s p x f).out = s.out ∧ (landFlit s p x f).free = s.free ∧ (landFlit s p x f).sun = s.sun
      ∧ (landFlit s p x f).die.hbm = s.die.hbm ∧ (landFlit s p x f).die.oyKey = s.die.oyKey ∧ (landFlit s p x f).die.slices = s.die.slices
      ∧ (landFlit s p x f).die.commit = s.die.commit ∧ (landFlit s p x f).die.barriers = s.die.barriers
      ∧ (landFlit s p x f).die.windows = s.die.windows ∧ (landFlit s p x f).die.ctls = s.die.ctls ∧ (landFlit s p x f).die.ports = s.die.ports
      ∧ (landFlit s p x f).die.lodges = s.die.lodges ∧ (landFlit s p x f).die.band = s.die.band ∧ (landFlit s p x f).die.reports = s.die.reports
      ∧ (landFlit s p x f).die.atTick = s.die.atTick := by
  unfold landFlit; first | (simp; done) | ((try dsimp only); (repeat' split) <;> simp; done) | (refine ⟨?_, ?_, ?_, ?_, ?_, ?_, ?_, ?_, ?_, ?_, ?_, ?_, ?_, ?_, ?_, ?_, ?_, ?_, ?_, ?_, ?_, ?_, ?_, ?_, ?_, ?_⟩ <;> first | (simp; done) | ((try dsimp only); (repeat' split) <;> simp; done))

@[simp] theorem takeFlit_keeps (s : State) (p : Nat) (x : Transfer) (f : MeshFlit) :
    (takeFlit s p x f).pending = s.pending ∧ (takeFlit s p x f).gate = s.gate ∧ (takeFlit s p x f).mod = s.mod ∧ (takeFlit s p x f).rows = s.rows
      ∧ (takeFlit s p x f).dumps = s.dumps ∧ (takeFlit s p x f).shed = s.shed ∧ (takeFlit s p x f).replay = s.replay
      ∧ (takeFlit s p x f).reg = s.reg ∧ (takeFlit s p x f).just = s.just ∧ (takeFlit s p x f).pvs = s.pvs ∧ (takeFlit s p x f).fns = s.fns
      ∧ (takeFlit s p x f).out = s.out ∧ (takeFlit s p x f).free = s.free ∧ (takeFlit s p x f).sun = s.sun
      ∧ (takeFlit s p x f).die.hbm = s.die.hbm ∧ (takeFlit s p x f).die.oyKey = s.die.oyKey ∧ (takeFlit s p x f).die.slices = s.die.slices
      ∧ (takeFlit s p x f).die.commit = s.die.commit ∧ (takeFlit s p x f).die.barriers = s.die.barriers
      ∧ (takeFlit s p x f).die.windows = s.die.windows ∧ (takeFlit s p x f).die.ctls = s.die.ctls ∧ (takeFlit s p x f).die.ports = s.die.ports
      ∧ (takeFlit s p x f).die.lodges = s.die.lodges ∧ (takeFlit s p x f).die.band = s.die.band ∧ (takeFlit s p x f).die.reports = s.die.reports
      ∧ (takeFlit s p x f).die.atTick = s.die.atTick := by
  unfold takeFlit; first | (simp; done) | ((try dsimp only); (repeat' split) <;> simp; done) | (refine ⟨?_, ?_, ?_, ?_, ?_, ?_, ?_, ?_, ?_, ?_, ?_, ?_, ?_, ?_, ?_, ?_, ?_, ?_, ?_, ?_, ?_, ?_, ?_, ?_, ?_, ?_⟩ <;> first | (simp; done) | ((try dsimp only); (repeat' split) <;> simp; done))

@[simp] theorem landDone_keeps (s : State) (p : Nat) (x : Transfer) :
    (landDone s p x).pending = s.pending ∧ (landDone s p x).gate = s.gate ∧ (landDone s p x).mod = s.mod ∧ (landDone s p x).rows = s.rows
      ∧ (landDone s p x).dumps = s.dumps ∧ (landDone s p x).shed = s.shed ∧ (landDone s p x).replay = s.replay ∧ (landDone s p x).reg = s.reg
      ∧ (landDone s p x).just = s.just ∧ (landDone s p x).pvs = s.pvs ∧ (landDone s p x).fns = s.fns ∧ (landDone s p x).out = s.out
      ∧ (landDone s p x).free = s.free ∧ (landDone s p x).sun = s.sun ∧ (landDone s p x).die.hbm = s.die.hbm
      ∧ (landDone s p x).die.oyKey = s.die.oyKey ∧ (landDone s p x).die.slices = s.die.slices ∧ (landDone s p x).die.transfers = s.die.transfers
      ∧ (landDone s p x).die.commit = s.die.commit ∧ (landDone s p x).die.barriers = s.die.barriers
      ∧ (landDone s p x).die.windows = s.die.windows ∧ (landDone s p x).die.ctls = s.die.ctls ∧ (landDone s p x).die.ports = s.die.ports
      ∧ (landDone s p x).die.lodges = s.die.lodges ∧ (landDone s p x).die.band = s.die.band ∧ (landDone s p x).die.atTick = s.die.atTick := by
  unfold landDone; first | (simp; done) | ((try dsimp only); (repeat' split) <;> simp; done) | (refine ⟨?_, ?_, ?_, ?_, ?_, ?_, ?_, ?_, ?_, ?_, ?_, ?_, ?_, ?_, ?_, ?_, ?_, ?_, ?_, ?_, ?_, ?_, ?_, ?_, ?_, ?_⟩ <;> first | (simp; done) | ((try dsimp only); (repeat' split) <;> simp; done))

@[simp] theorem replyDone_keeps (s : State) (p : Nat) (x : Transfer) :
    (replyDone s p x).pending = s.pending ∧ (replyDone s p x).gate = s.gate ∧ (replyDone s p x).mod = s.mod ∧ (replyDone s p x).rows = s.rows
      ∧ (replyDone s p x).dumps = s.dumps ∧ (replyDone s p x).shed = s.shed ∧ (replyDone s p x).reg = s.reg ∧ (replyDone s p x).just = s.just
      ∧ (replyDone s p x).pvs = s.pvs ∧ (replyDone s p x).fns = s.fns ∧ (replyDone s p x).out = s.out ∧ (replyDone s p x).free = s.free
      ∧ (replyDone s p x).sun = s.sun ∧ (replyDone s p x).die.hbm = s.die.hbm ∧ (replyDone s p x).die.oyKey = s.die.oyKey
      ∧ (replyDone s p x).die.slices = s.die.slices ∧ (replyDone s p x).die.transfers = s.die.transfers
      ∧ (replyDone s p x).die.commit = s.die.commit ∧ (replyDone s p x).die.barriers = s.die.barriers
      ∧ (replyDone s p x).die.windows = s.die.windows ∧ (replyDone s p x).die.ctls = s.die.ctls ∧ (replyDone s p x).die.ports = s.die.ports
      ∧ (replyDone s p x).die.lodges = s.die.lodges ∧ (replyDone s p x).die.band = s.die.band ∧ (replyDone s p x).die.atTick = s.die.atTick := by
  unfold replyDone; first | (simp; done) | ((try dsimp only); (repeat' split) <;> simp; done) | (refine ⟨?_, ?_, ?_, ?_, ?_, ?_, ?_, ?_, ?_, ?_, ?_, ?_, ?_, ?_, ?_, ?_, ?_, ?_, ?_, ?_, ?_, ?_, ?_, ?_, ?_⟩ <;> first | (simp; done) | ((try dsimp only); (repeat' split) <;> simp; done))

@[simp] theorem openWindow_keeps (s : State) (owner line : Nat) (x : Transfer) :
    (openWindow s owner line x).pending = s.pending ∧ (openWindow s owner line x).gate = s.gate ∧ (openWindow s owner line x).mod = s.mod
      ∧ (openWindow s owner line x).rows = s.rows ∧ (openWindow s owner line x).dumps = s.dumps ∧ (openWindow s owner line x).shed = s.shed
      ∧ (openWindow s owner line x).replay = s.replay ∧ (openWindow s owner line x).reg = s.reg ∧ (openWindow s owner line x).just = s.just
      ∧ (openWindow s owner line x).tiles = s.tiles ∧ (openWindow s owner line x).pvs = s.pvs ∧ (openWindow s owner line x).fns = s.fns
      ∧ (openWindow s owner line x).out = s.out ∧ (openWindow s owner line x).free = s.free ∧ (openWindow s owner line x).sun = s.sun
      ∧ (openWindow s owner line x).die.hbm = s.die.hbm ∧ (openWindow s owner line x).die.oyKey = s.die.oyKey
      ∧ (openWindow s owner line x).die.slices = s.die.slices ∧ (openWindow s owner line x).die.transfers = s.die.transfers
      ∧ (openWindow s owner line x).die.commit = s.die.commit ∧ (openWindow s owner line x).die.barriers = s.die.barriers
      ∧ (openWindow s owner line x).die.ctls = s.die.ctls ∧ (openWindow s owner line x).die.ports = s.die.ports
      ∧ (openWindow s owner line x).die.lodges = s.die.lodges ∧ (openWindow s owner line x).die.band = s.die.band
      ∧ (openWindow s owner line x).die.reports = s.die.reports ∧ (openWindow s owner line x).die.atTick = s.die.atTick := by
  unfold openWindow; first | (simp; done) | ((try dsimp only); (repeat' split) <;> simp; done) | (refine ⟨?_, ?_, ?_, ?_, ?_, ?_, ?_, ?_, ?_, ?_, ?_, ?_, ?_, ?_, ?_, ?_, ?_, ?_, ?_, ?_, ?_, ?_, ?_, ?_, ?_, ?_, ?_⟩ <;> first | (simp; done) | ((try dsimp only); (repeat' split) <;> simp; done))

@[simp] theorem requestDone_keeps (s : State) (p : Nat) (x : Transfer) :
    (requestDone s p x).pending = s.pending ∧ (requestDone s p x).gate = s.gate ∧ (requestDone s p x).mod = s.mod
      ∧ (requestDone s p x).rows = s.rows ∧ (requestDone s p x).dumps = s.dumps ∧ (requestDone s p x).shed = s.shed
      ∧ (requestDone s p x).replay = s.replay ∧ (requestDone s p x).reg = s.reg ∧ (requestDone s p x).just = s.just
      ∧ (requestDone s p x).pvs = s.pvs ∧ (requestDone s p x).fns = s.fns ∧ (requestDone s p x).out = s.out ∧ (requestDone s p x).free = s.free
      ∧ (requestDone s p x).sun = s.sun ∧ (requestDone s p x).die.hbm = s.die.hbm ∧ (requestDone s p x).die.oyKey = s.die.oyKey
      ∧ (requestDone s p x).die.slices = s.die.slices ∧ (requestDone s p x).die.transfers = s.die.transfers
      ∧ (requestDone s p x).die.commit = s.die.commit ∧ (requestDone s p x).die.barriers = s.die.barriers
      ∧ (requestDone s p x).die.ctls = s.die.ctls ∧ (requestDone s p x).die.ports = s.die.ports ∧ (requestDone s p x).die.lodges = s.die.lodges
      ∧ (requestDone s p x).die.band = s.die.band ∧ (requestDone s p x).die.reports = s.die.reports
      ∧ (requestDone s p x).die.atTick = s.die.atTick := by
  unfold requestDone; first | (simp; done) | ((try dsimp only); (repeat' split) <;> simp; done) | (refine ⟨?_, ?_, ?_, ?_, ?_, ?_, ?_, ?_, ?_, ?_, ?_, ?_, ?_, ?_, ?_, ?_, ?_, ?_, ?_, ?_, ?_, ?_, ?_, ?_, ?_, ?_⟩ <;> first | (simp; done) | ((try dsimp only); (repeat' split) <;> simp; done))

@[simp] theorem finishTransfer_keeps (s : State) (p : Nat) (x : Transfer) :
    (finishTransfer s p x).pending = s.pending ∧ (finishTransfer s p x).gate = s.gate ∧ (finishTransfer s p x).mod = s.mod
      ∧ (finishTransfer s p x).rows = s.rows ∧ (finishTransfer s p x).dumps = s.dumps ∧ (finishTransfer s p x).shed = s.shed
      ∧ (finishTransfer s p x).reg = s.reg ∧ (finishTransfer s p x).just = s.just ∧ (finishTransfer s p x).pvs = s.pvs
      ∧ (finishTransfer s p x).fns = s.fns ∧ (finishTransfer s p x).out = s.out ∧ (finishTransfer s p x).free = s.free
      ∧ (finishTransfer s p x).sun = s.sun ∧ (finishTransfer s p x).die.hbm = s.die.hbm ∧ (finishTransfer s p x).die.oyKey = s.die.oyKey
      ∧ (finishTransfer s p x).die.slices = s.die.slices ∧ (finishTransfer s p x).die.commit = s.die.commit
      ∧ (finishTransfer s p x).die.barriers = s.die.barriers ∧ (finishTransfer s p x).die.ctls = s.die.ctls
      ∧ (finishTransfer s p x).die.ports = s.die.ports ∧ (finishTransfer s p x).die.lodges = s.die.lodges
      ∧ (finishTransfer s p x).die.band = s.die.band ∧ (finishTransfer s p x).die.atTick = s.die.atTick := by
  unfold finishTransfer; first | (simp; done) | ((try dsimp only); (repeat' split) <;> simp; done) | (refine ⟨?_, ?_, ?_, ?_, ?_, ?_, ?_, ?_, ?_, ?_, ?_, ?_, ?_, ?_, ?_, ?_, ?_, ?_, ?_, ?_, ?_, ?_, ?_⟩ <;> first | (simp; done) | ((try dsimp only); (repeat' split) <;> simp; done))

@[simp] theorem finishIfDone_keeps (s : State) (p id : Nat) :
    (finishIfDone s p id).pending = s.pending ∧ (finishIfDone s p id).gate = s.gate ∧ (finishIfDone s p id).mod = s.mod
      ∧ (finishIfDone s p id).rows = s.rows ∧ (finishIfDone s p id).dumps = s.dumps ∧ (finishIfDone s p id).shed = s.shed
      ∧ (finishIfDone s p id).reg = s.reg ∧ (finishIfDone s p id).just = s.just ∧ (finishIfDone s p id).pvs = s.pvs
      ∧ (finishIfDone s p id).fns = s.fns ∧ (finishIfDone s p id).out = s.out ∧ (finishIfDone s p id).free = s.free
      ∧ (finishIfDone s p id).sun = s.sun ∧ (finishIfDone s p id).die.hbm = s.die.hbm ∧ (finishIfDone s p id).die.oyKey = s.die.oyKey
      ∧ (finishIfDone s p id).die.slices = s.die.slices ∧ (finishIfDone s p id).die.commit = s.die.commit
      ∧ (finishIfDone s p id).die.barriers = s.die.barriers ∧ (finishIfDone s p id).die.ctls = s.die.ctls
      ∧ (finishIfDone s p id).die.ports = s.die.ports ∧ (finishIfDone s p id).die.lodges = s.die.lodges
      ∧ (finishIfDone s p id).die.band = s.die.band ∧ (finishIfDone s p id).die.atTick = s.die.atTick := by
  unfold finishIfDone; first | (simp; done) | ((try dsimp only); (repeat' split) <;> simp; done) | (refine ⟨?_, ?_, ?_, ?_, ?_, ?_, ?_, ?_, ?_, ?_, ?_, ?_, ?_, ?_, ?_, ?_, ?_, ?_, ?_, ?_, ?_, ?_, ?_⟩ <;> first | (simp; done) | ((try dsimp only); (repeat' split) <;> simp; done))

@[simp] theorem landByCommand_keeps (p : Nat) (x : Transfer) (s : State) (f : MeshFlit) :
    (landByCommand p x s f).pending = s.pending ∧ (landByCommand p x s f).gate = s.gate ∧ (landByCommand p x s f).mod = s.mod
      ∧ (landByCommand p x s f).rows = s.rows ∧ (landByCommand p x s f).dumps = s.dumps ∧ (landByCommand p x s f).shed = s.shed
      ∧ (landByCommand p x s f).replay = s.replay ∧ (landByCommand p x s f).reg = s.reg ∧ (landByCommand p x s f).just = s.just
      ∧ (landByCommand p x s f).pvs = s.pvs ∧ (landByCommand p x s f).fns = s.fns ∧ (landByCommand p x s f).out = s.out
      ∧ (landByCommand p x s f).free = s.free ∧ (landByCommand p x s f).sun = s.sun ∧ (landByCommand p x s f).die.hbm = s.die.hbm
      ∧ (landByCommand p x s f).die.oyKey = s.die.oyKey ∧ (landByCommand p x s f).die.slices = s.die.slices
      ∧ (landByCommand p x s f).die.commit = s.die.commit ∧ (landByCommand p x s f).die.barriers = s.die.barriers
      ∧ (landByCommand p x s f).die.windows = s.die.windows ∧ (landByCommand p x s f).die.ctls = s.die.ctls
      ∧ (landByCommand p x s f).die.ports = s.die.ports ∧ (landByCommand p x s f).die.lodges = s.die.lodges
      ∧ (landByCommand p x s f).die.band = s.die.band ∧ (landByCommand p x s f).die.reports = s.die.reports
      ∧ (landByCommand p x s f).die.atTick = s.die.atTick := by
  unfold landByCommand; first | (simp; done) | ((try dsimp only); (repeat' split) <;> simp; done) | (refine ⟨?_, ?_, ?_, ?_, ?_, ?_, ?_, ?_, ?_, ?_, ?_, ?_, ?_, ?_, ?_, ?_, ?_, ?_, ?_, ?_, ?_, ?_, ?_, ?_, ?_, ?_⟩ <;> first | (simp; done) | ((try dsimp only); (repeat' split) <;> simp; done))

@[simp] theorem landing_keeps (s : State) (i : Nat) (ops : List Nat) :
    (landing s i ops).pending = s.pending ∧ (landing s i ops).gate = s.gate ∧ (landing s i ops).mod = s.mod ∧ (landing s i ops).rows = s.rows
      ∧ (landing s i ops).dumps = s.dumps ∧ (landing s i ops).shed = s.shed ∧ (landing s i ops).reg = s.reg ∧ (landing s i ops).just = s.just
      ∧ (landing s i ops).pvs = s.pvs ∧ (landing s i ops).fns = s.fns ∧ (landing s i ops).out = s.out ∧ (landing s i ops).free = s.free
      ∧ (landing s i ops).sun = s.sun ∧ (landing s i ops).die.hbm = s.die.hbm ∧ (landing s i ops).die.oyKey = s.die.oyKey
      ∧ (landing s i ops).die.slices = s.die.slices ∧ (landing s i ops).die.commit = s.die.commit
      ∧ (landing s i ops).die.barriers = s.die.barriers ∧ (landing s i ops).die.ctls = s.die.ctls ∧ (landing s i ops).die.ports = s.die.ports
      ∧ (landing s i ops).die.lodges = s.die.lodges ∧ (landing s i ops).die.band = s.die.band ∧ (landing s i ops).die.atTick = s.die.atTick := by
  unfold landing; first | (simp; done) | ((try dsimp only); (repeat' split) <;> simp; done) | (refine ⟨?_, ?_, ?_, ?_, ?_, ?_, ?_, ?_, ?_, ?_, ?_, ?_, ?_, ?_, ?_, ?_, ?_, ?_, ?_, ?_, ?_, ?_, ?_⟩ <;> first | (simp; done) | ((try dsimp only); (repeat' split) <;> simp; done))

@[simp] theorem windowStart_keeps (s : State) (i : Nat) (w : GetWindow) (chk : Check) :
    (windowStart s i w chk).pending = s.pending ∧ (windowStart s i w chk).gate = s.gate ∧ (windowStart s i w chk).mod = s.mod
      ∧ (windowStart s i w chk).rows = s.rows ∧ (windowStart s i w chk).dumps = s.dumps ∧ (windowStart s i w chk).shed = s.shed
      ∧ (windowStart s i w chk).replay = s.replay ∧ (windowStart s i w chk).reg = s.reg ∧ (windowStart s i w chk).just = s.just
      ∧ (windowStart s i w chk).tiles = s.tiles ∧ (windowStart s i w chk).pvs = s.pvs ∧ (windowStart s i w chk).fns = s.fns
      ∧ (windowStart s i w chk).out = s.out ∧ (windowStart s i w chk).free = s.free ∧ (windowStart s i w chk).sun = s.sun
      ∧ (windowStart s i w chk).die.hbm = s.die.hbm ∧ (windowStart s i w chk).die.oyKey = s.die.oyKey
      ∧ (windowStart s i w chk).die.slices = s.die.slices ∧ (windowStart s i w chk).die.commit = s.die.commit
      ∧ (windowStart s i w chk).die.barriers = s.die.barriers ∧ (windowStart s i w chk).die.ctls = s.die.ctls
      ∧ (windowStart s i w chk).die.ports = s.die.ports ∧ (windowStart s i w chk).die.lodges = s.die.lodges
      ∧ (windowStart s i w chk).die.band = s.die.band ∧ (windowStart s i w chk).die.reports = s.die.reports
      ∧ (windowStart s i w chk).die.atTick = s.die.atTick := by
  unfold windowStart; first | (simp; done) | ((try dsimp only); (repeat' split) <;> simp; done) | (refine ⟨?_, ?_, ?_, ?_, ?_, ?_, ?_, ?_, ?_, ?_, ?_, ?_, ?_, ?_, ?_, ?_, ?_, ?_, ?_, ?_, ?_, ?_, ?_, ?_, ?_, ?_⟩ <;> first | (simp; done) | ((try dsimp only); (repeat' split) <;> simp; done))

@[simp] theorem windowReply_keeps (s : State) (i : Nat) (chk : Check) :
    (windowReply s i chk).pending = s.pending ∧ (windowReply s i chk).gate = s.gate ∧ (windowReply s i chk).mod = s.mod
      ∧ (windowReply s i chk).rows = s.rows ∧ (windowReply s i chk).dumps = s.dumps ∧ (windowReply s i chk).shed = s.shed
      ∧ (windowReply s i chk).replay = s.replay ∧ (windowReply s i chk).reg = s.reg ∧ (windowReply s i chk).just = s.just
      ∧ (windowReply s i chk).tiles = s.tiles ∧ (windowReply s i chk).pvs = s.pvs ∧ (windowReply s i chk).fns = s.fns
      ∧ (windowReply s i chk).out = s.out ∧ (windowReply s i chk).free = s.free ∧ (windowReply s i chk).sun = s.sun
      ∧ (windowReply s i chk).die.hbm = s.die.hbm ∧ (windowReply s i chk).die.oyKey = s.die.oyKey
      ∧ (windowReply s i chk).die.slices = s.die.slices ∧ (windowReply s i chk).die.commit = s.die.commit
      ∧ (windowReply s i chk).die.barriers = s.die.barriers ∧ (windowReply s i chk).die.ctls = s.die.ctls
      ∧ (windowReply s i chk).die.ports = s.die.ports ∧ (windowReply s i chk).die.lodges = s.die.lodges
      ∧ (windowReply s i chk).die.band = s.die.band ∧ (windowReply s i chk).die.reports = s.die.reports
      ∧ (windowReply s i chk).die.atTick = s.die.atTick := by
  unfold windowReply; first | (simp; done) | ((try dsimp only); (repeat' split) <;> simp; done) | (refine ⟨?_, ?_, ?_, ?_, ?_, ?_, ?_, ?_, ?_, ?_, ?_, ?_, ?_, ?_, ?_, ?_, ?_, ?_, ?_, ?_, ?_, ?_, ?_, ?_, ?_, ?_⟩ <;> first | (simp; done) | ((try dsimp only); (repeat' split) <;> simp; done))

@[simp] theorem windowRead_keeps (s : State) (i : Nat) (w : GetWindow) :
    (windowRead s i w).pending = s.pending ∧ (windowRead s i w).gate = s.gate ∧ (windowRead s i w).mod = s.mod ∧ (windowRead s i w).rows = s.rows
      ∧ (windowRead s i w).dumps = s.dumps ∧ (windowRead s i w).pvs = s.pvs ∧ (windowRead s i w).fns = s.fns
      ∧ (windowRead s i w).die.hbm = s.die.hbm ∧ (windowRead s i w).die.oyKey = s.die.oyKey ∧ (windowRead s i w).die.slices = s.die.slices
      ∧ (windowRead s i w).die.transfers = s.die.transfers ∧ (windowRead s i w).die.commit = s.die.commit
      ∧ (windowRead s i w).die.barriers = s.die.barriers ∧ (windowRead s i w).die.ctls = s.die.ctls
      ∧ (windowRead s i w).die.lodges = s.die.lodges ∧ (windowRead s i w).die.band = s.die.band ∧ (windowRead s i w).die.reports = s.die.reports
      ∧ (windowRead s i w).die.atTick = s.die.atTick := by
  unfold windowRead; first | (simp; done) | ((try dsimp only); (repeat' split) <;> simp; done) | (refine ⟨?_, ?_, ?_, ?_, ?_, ?_, ?_, ?_, ?_, ?_, ?_, ?_, ?_, ?_, ?_, ?_, ?_, ?_⟩ <;> first | (simp; done) | ((try dsimp only); (repeat' split) <;> simp; done))

@[simp] theorem windowInject_keeps (s : State) (i : Nat) :
    (windowInject s i).pending = s.pending ∧ (windowInject s i).gate = s.gate ∧ (windowInject s i).mod = s.mod ∧ (windowInject s i).rows = s.rows
      ∧ (windowInject s i).dumps = s.dumps ∧ (windowInject s i).shed = s.shed ∧ (windowInject s i).replay = s.replay
      ∧ (windowInject s i).reg = s.reg ∧ (windowInject s i).just = s.just ∧ (windowInject s i).tiles = s.tiles ∧ (windowInject s i).pvs = s.pvs
      ∧ (windowInject s i).fns = s.fns ∧ (windowInject s i).out = s.out ∧ (windowInject s i).free = s.free ∧ (windowInject s i).sun = s.sun
      ∧ (windowInject s i).die.hbm = s.die.hbm ∧ (windowInject s i).die.oyKey = s.die.oyKey ∧ (windowInject s i).die.slices = s.die.slices
      ∧ (windowInject s i).die.commit = s.die.commit ∧ (windowInject s i).die.barriers = s.die.barriers
      ∧ (windowInject s i).die.ctls = s.die.ctls ∧ (windowInject s i).die.ports = s.die.ports ∧ (windowInject s i).die.lodges = s.die.lodges
      ∧ (windowInject s i).die.band = s.die.band ∧ (windowInject s i).die.reports = s.die.reports ∧ (windowInject s i).die.atTick = s.die.atTick := by
  unfold windowInject; first | (simp; done) | ((try dsimp only); (repeat' split) <;> simp; done) | (refine ⟨?_, ?_, ?_, ?_, ?_, ?_, ?_, ?_, ?_, ?_, ?_, ?_, ?_, ?_, ?_, ?_, ?_, ?_, ?_, ?_, ?_, ?_, ?_, ?_, ?_, ?_⟩ <;> first | (simp; done) | ((try dsimp only); (repeat' split) <;> simp; done))

@[simp] theorem windowCollide_keeps (s : State) (i : Nat) (w : GetWindow) :
    (windowCollide s i w).pending = s.pending ∧ (windowCollide s i w).gate = s.gate ∧ (windowCollide s i w).mod = s.mod
      ∧ (windowCollide s i w).rows = s.rows ∧ (windowCollide s i w).dumps = s.dumps ∧ (windowCollide s i w).shed = s.shed
      ∧ (windowCollide s i w).replay = s.replay ∧ (windowCollide s i w).reg = s.reg ∧ (windowCollide s i w).just = s.just
      ∧ (windowCollide s i w).pvs = s.pvs ∧ (windowCollide s i w).fns = s.fns ∧ (windowCollide s i w).out = s.out
      ∧ (windowCollide s i w).free = s.free ∧ (windowCollide s i w).sun = s.sun ∧ (windowCollide s i w).die.hbm = s.die.hbm
      ∧ (windowCollide s i w).die.oyKey = s.die.oyKey ∧ (windowCollide s i w).die.slices = s.die.slices
      ∧ (windowCollide s i w).die.transfers = s.die.transfers ∧ (windowCollide s i w).die.commit = s.die.commit
      ∧ (windowCollide s i w).die.barriers = s.die.barriers ∧ (windowCollide s i w).die.ctls = s.die.ctls
      ∧ (windowCollide s i w).die.ports = s.die.ports ∧ (windowCollide s i w).die.lodges = s.die.lodges
      ∧ (windowCollide s i w).die.band = s.die.band ∧ (windowCollide s i w).die.atTick = s.die.atTick := by
  unfold windowCollide; first | (simp; done) | ((try dsimp only); (repeat' split) <;> simp; done) | (refine ⟨?_, ?_, ?_, ?_, ?_, ?_, ?_, ?_, ?_, ?_, ?_, ?_, ?_, ?_, ?_, ?_, ?_, ?_, ?_, ?_, ?_, ?_, ?_, ?_, ?_⟩ <;> first | (simp; done) | ((try dsimp only); (repeat' split) <;> simp; done))

@[simp] theorem dropCtl_keeps (s : State) (i : Nat) :
    (dropCtl s i).pending = s.pending ∧ (dropCtl s i).gate = s.gate ∧ (dropCtl s i).mod = s.mod ∧ (dropCtl s i).rows = s.rows
      ∧ (dropCtl s i).dumps = s.dumps ∧ (dropCtl s i).shed = s.shed ∧ (dropCtl s i).replay = s.replay ∧ (dropCtl s i).reg = s.reg
      ∧ (dropCtl s i).just = s.just ∧ (dropCtl s i).tiles = s.tiles ∧ (dropCtl s i).pvs = s.pvs ∧ (dropCtl s i).fns = s.fns
      ∧ (dropCtl s i).out = s.out ∧ (dropCtl s i).free = s.free ∧ (dropCtl s i).sun = s.sun ∧ (dropCtl s i).die.hbm = s.die.hbm
      ∧ (dropCtl s i).die.oyKey = s.die.oyKey ∧ (dropCtl s i).die.slices = s.die.slices ∧ (dropCtl s i).die.transfers = s.die.transfers
      ∧ (dropCtl s i).die.commit = s.die.commit ∧ (dropCtl s i).die.barriers = s.die.barriers ∧ (dropCtl s i).die.windows = s.die.windows
      ∧ (dropCtl s i).die.ports = s.die.ports ∧ (dropCtl s i).die.lodges = s.die.lodges ∧ (dropCtl s i).die.band = s.die.band
      ∧ (dropCtl s i).die.reports = s.die.reports ∧ (dropCtl s i).die.atTick = s.die.atTick := by
  unfold dropCtl; first | (simp; done) | ((try dsimp only); (repeat' split) <;> simp; done) | (refine ⟨?_, ?_, ?_, ?_, ?_, ?_, ?_, ?_, ?_, ?_, ?_, ?_, ?_, ?_, ?_, ?_, ?_, ?_, ?_, ?_, ?_, ?_, ?_, ?_, ?_, ?_, ?_⟩ <;> first | (simp; done) | ((try dsimp only); (repeat' split) <;> simp; done))

@[simp] theorem creditArrival_keeps (s : State) (i : Nat) :
    (creditArrival s i).pending = s.pending ∧ (creditArrival s i).gate = s.gate ∧ (creditArrival s i).mod = s.mod
      ∧ (creditArrival s i).rows = s.rows ∧ (creditArrival s i).dumps = s.dumps ∧ (creditArrival s i).shed = s.shed
      ∧ (creditArrival s i).replay = s.replay ∧ (creditArrival s i).reg = s.reg ∧ (creditArrival s i).just = s.just
      ∧ (creditArrival s i).pvs = s.pvs ∧ (creditArrival s i).fns = s.fns ∧ (creditArrival s i).out = s.out ∧ (creditArrival s i).free = s.free
      ∧ (creditArrival s i).sun = s.sun ∧ (creditArrival s i).die.hbm = s.die.hbm ∧ (creditArrival s i).die.oyKey = s.die.oyKey
      ∧ (creditArrival s i).die.slices = s.die.slices ∧ (creditArrival s i).die.transfers = s.die.transfers
      ∧ (creditArrival s i).die.commit = s.die.commit ∧ (creditArrival s i).die.barriers = s.die.barriers
      ∧ (creditArrival s i).die.windows = s.die.windows ∧ (creditArrival s i).die.ports = s.die.ports
      ∧ (creditArrival s i).die.lodges = s.die.lodges ∧ (creditArrival s i).die.band = s.die.band ∧ (creditArrival s i).die.atTick = s.die.atTick := by
  unfold creditArrival; first | (simp; done) | ((try dsimp only); (repeat' split) <;> simp; done) | (refine ⟨?_, ?_, ?_, ?_, ?_, ?_, ?_, ?_, ?_, ?_, ?_, ?_, ?_, ?_, ?_, ?_, ?_, ?_, ?_, ?_, ?_, ?_, ?_, ?_, ?_⟩ <;> first | (simp; done) | ((try dsimp only); (repeat' split) <;> simp; done))

@[simp] theorem revocationArrival_keeps (s : State) (i : Nat) :
    (revocationArrival s i).pending = s.pending ∧ (revocationArrival s i).gate = s.gate ∧ (revocationArrival s i).mod = s.mod
      ∧ (revocationArrival s i).rows = s.rows ∧ (revocationArrival s i).dumps = s.dumps ∧ (revocationArrival s i).shed = s.shed
      ∧ (revocationArrival s i).replay = s.replay ∧ (revocationArrival s i).reg = s.reg ∧ (revocationArrival s i).just = s.just
      ∧ (revocationArrival s i).pvs = s.pvs ∧ (revocationArrival s i).fns = s.fns ∧ (revocationArrival s i).out = s.out
      ∧ (revocationArrival s i).free = s.free ∧ (revocationArrival s i).sun = s.sun ∧ (revocationArrival s i).die.hbm = s.die.hbm
      ∧ (revocationArrival s i).die.oyKey = s.die.oyKey ∧ (revocationArrival s i).die.slices = s.die.slices
      ∧ (revocationArrival s i).die.transfers = s.die.transfers ∧ (revocationArrival s i).die.commit = s.die.commit
      ∧ (revocationArrival s i).die.barriers = s.die.barriers ∧ (revocationArrival s i).die.windows = s.die.windows
      ∧ (revocationArrival s i).die.ports = s.die.ports ∧ (revocationArrival s i).die.lodges = s.die.lodges
      ∧ (revocationArrival s i).die.band = s.die.band ∧ (revocationArrival s i).die.atTick = s.die.atTick := by
  unfold revocationArrival; first | (simp; done) | ((try dsimp only); (repeat' split) <;> simp; done) | (refine ⟨?_, ?_, ?_, ?_, ?_, ?_, ?_, ?_, ?_, ?_, ?_, ?_, ?_, ?_, ?_, ?_, ?_, ?_, ?_, ?_, ?_, ?_, ?_, ?_, ?_⟩ <;> first | (simp; done) | ((try dsimp only); (repeat' split) <;> simp; done))

@[simp] theorem sendRelease_keeps (s : State) (entry : Nat) (machine : Bool) (total due : Nat) :
    (sendRelease s entry machine total due).pending = s.pending ∧ (sendRelease s entry machine total due).gate = s.gate
      ∧ (sendRelease s entry machine total due).mod = s.mod ∧ (sendRelease s entry machine total due).rows = s.rows
      ∧ (sendRelease s entry machine total due).dumps = s.dumps ∧ (sendRelease s entry machine total due).shed = s.shed
      ∧ (sendRelease s entry machine total due).replay = s.replay ∧ (sendRelease s entry machine total due).reg = s.reg
      ∧ (sendRelease s entry machine total due).just = s.just ∧ (sendRelease s entry machine total due).tiles = s.tiles
      ∧ (sendRelease s entry machine total due).pvs = s.pvs ∧ (sendRelease s entry machine total due).fns = s.fns
      ∧ (sendRelease s entry machine total due).free = s.free ∧ (sendRelease s entry machine total due).sun = s.sun
      ∧ (sendRelease s entry machine total due).die.hbm = s.die.hbm ∧ (sendRelease s entry machine total due).die.oyKey = s.die.oyKey
      ∧ (sendRelease s entry machine total due).die.slices = s.die.slices
      ∧ (sendRelease s entry machine total due).die.transfers = s.die.transfers
      ∧ (sendRelease s entry machine total due).die.commit = s.die.commit ∧ (sendRelease s entry machine total due).die.barriers = s.die.barriers
      ∧ (sendRelease s entry machine total due).die.windows = s.die.windows ∧ (sendRelease s entry machine total due).die.lodges = s.die.lodges
      ∧ (sendRelease s entry machine total due).die.band = s.die.band ∧ (sendRelease s entry machine total due).die.reports = s.die.reports
      ∧ (sendRelease s entry machine total due).die.atTick = s.die.atTick := by
  unfold sendRelease; first | (simp; done) | ((try dsimp only); (repeat' split) <;> simp; done) | (refine ⟨?_, ?_, ?_, ?_, ?_, ?_, ?_, ?_, ?_, ?_, ?_, ?_, ?_, ?_, ?_, ?_, ?_, ?_, ?_, ?_, ?_, ?_, ?_, ?_, ?_⟩ <;> first | (simp; done) | ((try dsimp only); (repeat' split) <;> simp; done))

@[simp] theorem barrierLimit_keeps (s : State) (entry total : Nat) (a : Arrival) :
    (barrierLimit s entry total a).pending = s.pending ∧ (barrierLimit s entry total a).gate = s.gate
      ∧ (barrierLimit s entry total a).mod = s.mod ∧ (barrierLimit s entry total a).rows = s.rows
      ∧ (barrierLimit s entry total a).dumps = s.dumps ∧ (barrierLimit s entry total a).shed = s.shed
      ∧ (barrierLimit s entry total a).replay = s.replay ∧ (barrierLimit s entry total a).reg = s.reg
      ∧ (barrierLimit s entry total a).just = s.just ∧ (barrierLimit s entry total a).pvs = s.pvs ∧ (barrierLimit s entry total a).fns = s.fns
      ∧ (barrierLimit s entry total a).out = s.out ∧ (barrierLimit s entry total a).free = s.free ∧ (barrierLimit s entry total a).sun = s.sun
      ∧ (barrierLimit s entry total a).die.hbm = s.die.hbm ∧ (barrierLimit s entry total a).die.oyKey = s.die.oyKey
      ∧ (barrierLimit s entry total a).die.slices = s.die.slices ∧ (barrierLimit s entry total a).die.transfers = s.die.transfers
      ∧ (barrierLimit s entry total a).die.commit = s.die.commit ∧ (barrierLimit s entry total a).die.barriers = s.die.barriers
      ∧ (barrierLimit s entry total a).die.windows = s.die.windows ∧ (barrierLimit s entry total a).die.ctls = s.die.ctls
      ∧ (barrierLimit s entry total a).die.ports = s.die.ports ∧ (barrierLimit s entry total a).die.lodges = s.die.lodges
      ∧ (barrierLimit s entry total a).die.band = s.die.band ∧ (barrierLimit s entry total a).die.atTick = s.die.atTick := by
  unfold barrierLimit; first | (simp; done) | ((try dsimp only); (repeat' split) <;> simp; done) | (refine ⟨?_, ?_, ?_, ?_, ?_, ?_, ?_, ?_, ?_, ?_, ?_, ?_, ?_, ?_, ?_, ?_, ?_, ?_, ?_, ?_, ?_, ?_, ?_, ?_, ?_, ?_⟩ <;> first | (simp; done) | ((try dsimp only); (repeat' split) <;> simp; done))

@[simp] theorem rootAdd_keeps (s : State) (entry : Nat) (machine : Bool) (due : Nat) (a : Arrival) :
    (rootAdd s entry machine due a).pending = s.pending ∧ (rootAdd s entry machine due a).gate = s.gate
      ∧ (rootAdd s entry machine due a).mod = s.mod ∧ (rootAdd s entry machine due a).rows = s.rows
      ∧ (rootAdd s entry machine due a).dumps = s.dumps ∧ (rootAdd s entry machine due a).shed = s.shed
      ∧ (rootAdd s entry machine due a).replay = s.replay ∧ (rootAdd s entry machine due a).reg = s.reg
      ∧ (rootAdd s entry machine due a).just = s.just ∧ (rootAdd s entry machine due a).pvs = s.pvs ∧ (rootAdd s entry machine due a).fns = s.fns
      ∧ (rootAdd s entry machine due a).free = s.free ∧ (rootAdd s entry machine due a).sun = s.sun
      ∧ (rootAdd s entry machine due a).die.hbm = s.die.hbm ∧ (rootAdd s entry machine due a).die.oyKey = s.die.oyKey
      ∧ (rootAdd s entry machine due a).die.slices = s.die.slices ∧ (rootAdd s entry machine due a).die.transfers = s.die.transfers
      ∧ (rootAdd s entry machine due a).die.commit = s.die.commit ∧ (rootAdd s entry machine due a).die.windows = s.die.windows
      ∧ (rootAdd s entry machine due a).die.lodges = s.die.lodges ∧ (rootAdd s entry machine due a).die.band = s.die.band
      ∧ (rootAdd s entry machine due a).die.atTick = s.die.atTick := by
  unfold rootAdd; first | (simp; done) | ((try dsimp only); (repeat' split) <;> simp; done) | (refine ⟨?_, ?_, ?_, ?_, ?_, ?_, ?_, ?_, ?_, ?_, ?_, ?_, ?_, ?_, ?_, ?_, ?_, ?_, ?_, ?_, ?_, ?_⟩ <;> first | (simp; done) | ((try dsimp only); (repeat' split) <;> simp; done))

@[simp] theorem forwardArrival_keeps (s : State) (entry seq : Nat) (a : Arrival) :
    (forwardArrival s entry seq a).pending = s.pending ∧ (forwardArrival s entry seq a).gate = s.gate
      ∧ (forwardArrival s entry seq a).mod = s.mod ∧ (forwardArrival s entry seq a).rows = s.rows
      ∧ (forwardArrival s entry seq a).dumps = s.dumps ∧ (forwardArrival s entry seq a).shed = s.shed
      ∧ (forwardArrival s entry seq a).replay = s.replay ∧ (forwardArrival s entry seq a).reg = s.reg
      ∧ (forwardArrival s entry seq a).just = s.just ∧ (forwardArrival s entry seq a).tiles = s.tiles
      ∧ (forwardArrival s entry seq a).pvs = s.pvs ∧ (forwardArrival s entry seq a).fns = s.fns ∧ (forwardArrival s entry seq a).free = s.free
      ∧ (forwardArrival s entry seq a).sun = s.sun ∧ (forwardArrival s entry seq a).die.hbm = s.die.hbm
      ∧ (forwardArrival s entry seq a).die.oyKey = s.die.oyKey ∧ (forwardArrival s entry seq a).die.slices = s.die.slices
      ∧ (forwardArrival s entry seq a).die.transfers = s.die.transfers ∧ (forwardArrival s entry seq a).die.commit = s.die.commit
      ∧ (forwardArrival s entry seq a).die.windows = s.die.windows ∧ (forwardArrival s entry seq a).die.ctls = s.die.ctls
      ∧ (forwardArrival s entry seq a).die.lodges = s.die.lodges ∧ (forwardArrival s entry seq a).die.band = s.die.band
      ∧ (forwardArrival s entry seq a).die.reports = s.die.reports ∧ (forwardArrival s entry seq a).die.atTick = s.die.atTick := by
  unfold forwardArrival; first | (simp; done) | ((try dsimp only); (repeat' split) <;> simp; done) | (refine ⟨?_, ?_, ?_, ?_, ?_, ?_, ?_, ?_, ?_, ?_, ?_, ?_, ?_, ?_, ?_, ?_, ?_, ?_, ?_, ?_, ?_, ?_, ?_, ?_, ?_⟩ <;> first | (simp; done) | ((try dsimp only); (repeat' split) <;> simp; done))

@[simp] theorem barrierArrival_keeps (s : State) (i : Nat) :
    (barrierArrival s i).pending = s.pending ∧ (barrierArrival s i).gate = s.gate ∧ (barrierArrival s i).mod = s.mod
      ∧ (barrierArrival s i).rows = s.rows ∧ (barrierArrival s i).dumps = s.dumps ∧ (barrierArrival s i).shed = s.shed
      ∧ (barrierArrival s i).replay = s.replay ∧ (barrierArrival s i).reg = s.reg ∧ (barrierArrival s i).just = s.just
      ∧ (barrierArrival s i).pvs = s.pvs ∧ (barrierArrival s i).fns = s.fns ∧ (barrierArrival s i).free = s.free
      ∧ (barrierArrival s i).sun = s.sun ∧ (barrierArrival s i).die.hbm = s.die.hbm ∧ (barrierArrival s i).die.oyKey = s.die.oyKey
      ∧ (barrierArrival s i).die.slices = s.die.slices ∧ (barrierArrival s i).die.transfers = s.die.transfers
      ∧ (barrierArrival s i).die.commit = s.die.commit ∧ (barrierArrival s i).die.windows = s.die.windows
      ∧ (barrierArrival s i).die.lodges = s.die.lodges ∧ (barrierArrival s i).die.band = s.die.band
      ∧ (barrierArrival s i).die.atTick = s.die.atTick := by
  unfold barrierArrival; first | (simp; done) | ((try dsimp only); (repeat' split) <;> simp; done) | (refine ⟨?_, ?_, ?_, ?_, ?_, ?_, ?_, ?_, ?_, ?_, ?_, ?_, ?_, ?_, ?_, ?_, ?_, ?_, ?_, ?_, ?_, ?_⟩ <;> first | (simp; done) | ((try dsimp only); (repeat' split) <;> simp; done))

@[simp] theorem releaseOne_keeps (s : State) (a : Arrival) :
    (releaseOne s a).pending = s.pending ∧ (releaseOne s a).gate = s.gate ∧ (releaseOne s a).mod = s.mod ∧ (releaseOne s a).rows = s.rows
      ∧ (releaseOne s a).dumps = s.dumps ∧ (releaseOne s a).shed = s.shed ∧ (releaseOne s a).reg = s.reg ∧ (releaseOne s a).just = s.just
      ∧ (releaseOne s a).pvs = s.pvs ∧ (releaseOne s a).fns = s.fns ∧ (releaseOne s a).out = s.out ∧ (releaseOne s a).free = s.free
      ∧ (releaseOne s a).sun = s.sun ∧ (releaseOne s a).die.hbm = s.die.hbm ∧ (releaseOne s a).die.oyKey = s.die.oyKey
      ∧ (releaseOne s a).die.slices = s.die.slices ∧ (releaseOne s a).die.transfers = s.die.transfers
      ∧ (releaseOne s a).die.commit = s.die.commit ∧ (releaseOne s a).die.barriers = s.die.barriers
      ∧ (releaseOne s a).die.windows = s.die.windows ∧ (releaseOne s a).die.ctls = s.die.ctls ∧ (releaseOne s a).die.ports = s.die.ports
      ∧ (releaseOne s a).die.lodges = s.die.lodges ∧ (releaseOne s a).die.band = s.die.band ∧ (releaseOne s a).die.atTick = s.die.atTick := by
  unfold releaseOne; first | (simp; done) | ((try dsimp only); (repeat' split) <;> simp; done) | (refine ⟨?_, ?_, ?_, ?_, ?_, ?_, ?_, ?_, ?_, ?_, ?_, ?_, ?_, ?_, ?_, ?_, ?_, ?_, ?_, ?_, ?_, ?_, ?_, ?_, ?_⟩ <;> first | (simp; done) | ((try dsimp only); (repeat' split) <;> simp; done))

@[simp] theorem releaseAll_keeps (s : State) (entry total : Nat) :
    (releaseAll s entry total).pending = s.pending ∧ (releaseAll s entry total).gate = s.gate ∧ (releaseAll s entry total).mod = s.mod
      ∧ (releaseAll s entry total).rows = s.rows ∧ (releaseAll s entry total).dumps = s.dumps ∧ (releaseAll s entry total).shed = s.shed
      ∧ (releaseAll s entry total).reg = s.reg ∧ (releaseAll s entry total).just = s.just ∧ (releaseAll s entry total).pvs = s.pvs
      ∧ (releaseAll s entry total).fns = s.fns ∧ (releaseAll s entry total).out = s.out ∧ (releaseAll s entry total).free = s.free
      ∧ (releaseAll s entry total).sun = s.sun ∧ (releaseAll s entry total).die.hbm = s.die.hbm
      ∧ (releaseAll s entry total).die.oyKey = s.die.oyKey ∧ (releaseAll s entry total).die.slices = s.die.slices
      ∧ (releaseAll s entry total).die.transfers = s.die.transfers ∧ (releaseAll s entry total).die.commit = s.die.commit
      ∧ (releaseAll s entry total).die.windows = s.die.windows ∧ (releaseAll s entry total).die.ctls = s.die.ctls
      ∧ (releaseAll s entry total).die.ports = s.die.ports ∧ (releaseAll s entry total).die.lodges = s.die.lodges
      ∧ (releaseAll s entry total).die.band = s.die.band ∧ (releaseAll s entry total).die.atTick = s.die.atTick := by
  unfold releaseAll; first | (simp; done) | ((try dsimp only); (repeat' split) <;> simp; done) | (refine ⟨?_, ?_, ?_, ?_, ?_, ?_, ?_, ?_, ?_, ?_, ?_, ?_, ?_, ?_, ?_, ?_, ?_, ?_, ?_, ?_, ?_, ?_, ?_, ?_⟩ <;> first | (simp; done) | ((try dsimp only); (repeat' split) <;> simp; done))

@[simp] theorem barrierRelease_keeps (s : State) (i : Nat) :
    (barrierRelease s i).pending = s.pending ∧ (barrierRelease s i).gate = s.gate ∧ (barrierRelease s i).mod = s.mod
      ∧ (barrierRelease s i).rows = s.rows ∧ (barrierRelease s i).dumps = s.dumps ∧ (barrierRelease s i).shed = s.shed
      ∧ (barrierRelease s i).reg = s.reg ∧ (barrierRelease s i).just = s.just ∧ (barrierRelease s i).pvs = s.pvs
      ∧ (barrierRelease s i).fns = s.fns ∧ (barrierRelease s i).out = s.out ∧ (barrierRelease s i).free = s.free
      ∧ (barrierRelease s i).sun = s.sun ∧ (barrierRelease s i).die.hbm = s.die.hbm ∧ (barrierRelease s i).die.oyKey = s.die.oyKey
      ∧ (barrierRelease s i).die.slices = s.die.slices ∧ (barrierRelease s i).die.transfers = s.die.transfers
      ∧ (barrierRelease s i).die.commit = s.die.commit ∧ (barrierRelease s i).die.windows = s.die.windows
      ∧ (barrierRelease s i).die.ports = s.die.ports ∧ (barrierRelease s i).die.lodges = s.die.lodges
      ∧ (barrierRelease s i).die.band = s.die.band ∧ (barrierRelease s i).die.atTick = s.die.atTick := by
  unfold barrierRelease; first | (simp; done) | ((try dsimp only); (repeat' split) <;> simp; done) | (refine ⟨?_, ?_, ?_, ?_, ?_, ?_, ?_, ?_, ?_, ?_, ?_, ?_, ?_, ?_, ?_, ?_, ?_, ?_, ?_, ?_, ?_, ?_, ?_⟩ <;> first | (simp; done) | ((try dsimp only); (repeat' split) <;> simp; done))

@[simp] theorem scrubSp_keeps (s : State) (p : Nat) (chk : Check) :
    (scrubSp s p chk).pending = s.pending ∧ (scrubSp s p chk).gate = s.gate ∧ (scrubSp s p chk).mod = s.mod ∧ (scrubSp s p chk).rows = s.rows
      ∧ (scrubSp s p chk).dumps = s.dumps ∧ (scrubSp s p chk).pvs = s.pvs ∧ (scrubSp s p chk).fns = s.fns ∧ (scrubSp s p chk).die.hbm = s.die.hbm
      ∧ (scrubSp s p chk).die.oyKey = s.die.oyKey ∧ (scrubSp s p chk).die.slices = s.die.slices
      ∧ (scrubSp s p chk).die.transfers = s.die.transfers ∧ (scrubSp s p chk).die.commit = s.die.commit
      ∧ (scrubSp s p chk).die.barriers = s.die.barriers ∧ (scrubSp s p chk).die.windows = s.die.windows ∧ (scrubSp s p chk).die.ctls = s.die.ctls
      ∧ (scrubSp s p chk).die.lodges = s.die.lodges ∧ (scrubSp s p chk).die.band = s.die.band ∧ (scrubSp s p chk).die.reports = s.die.reports
      ∧ (scrubSp s p chk).die.atTick = s.die.atTick := by
  unfold scrubSp; first | (simp; done) | ((try dsimp only); (repeat' split) <;> simp; done) | (refine ⟨?_, ?_, ?_, ?_, ?_, ?_, ?_, ?_, ?_, ?_, ?_, ?_, ?_, ?_, ?_, ?_, ?_, ?_, ?_⟩ <;> first | (simp; done) | ((try dsimp only); (repeat' split) <;> simp; done))

@[simp] theorem readSource_keeps (s : State) (p beat : Nat) (src : Check) :
    (readSource s p beat src).pending = s.pending ∧ (readSource s p beat src).gate = s.gate ∧ (readSource s p beat src).mod = s.mod
      ∧ (readSource s p beat src).rows = s.rows ∧ (readSource s p beat src).dumps = s.dumps ∧ (readSource s p beat src).shed = s.shed
      ∧ (readSource s p beat src).replay = s.replay ∧ (readSource s p beat src).pvs = s.pvs ∧ (readSource s p beat src).fns = s.fns
      ∧ (readSource s p beat src).out = s.out ∧ (readSource s p beat src).sun = s.sun ∧ (readSource s p beat src).die = s.die := by
  unfold readSource; first | (simp; done) | ((try dsimp only); (repeat' split) <;> simp; done) | (refine ⟨?_, ?_, ?_, ?_, ?_, ?_, ?_, ?_, ?_, ?_, ?_, ?_⟩ <;> first | (simp; done) | ((try dsimp only); (repeat' split) <;> simp; done))

@[simp] theorem answerBeat_keeps (s : State) (p beat : Nat) (src : Check) :
    (answerBeat s p beat src).pending = s.pending ∧ (answerBeat s p beat src).gate = s.gate ∧ (answerBeat s p beat src).mod = s.mod
      ∧ (answerBeat s p beat src).rows = s.rows ∧ (answerBeat s p beat src).dumps = s.dumps ∧ (answerBeat s p beat src).pvs = s.pvs
      ∧ (answerBeat s p beat src).fns = s.fns ∧ (answerBeat s p beat src).die.hbm = s.die.hbm ∧ (answerBeat s p beat src).die.oyKey = s.die.oyKey
      ∧ (answerBeat s p beat src).die.slices = s.die.slices ∧ (answerBeat s p beat src).die.transfers = s.die.transfers
      ∧ (answerBeat s p beat src).die.commit = s.die.commit ∧ (answerBeat s p beat src).die.barriers = s.die.barriers
      ∧ (answerBeat s p beat src).die.windows = s.die.windows ∧ (answerBeat s p beat src).die.ctls = s.die.ctls
      ∧ (answerBeat s p beat src).die.lodges = s.die.lodges ∧ (answerBeat s p beat src).die.band = s.die.band
      ∧ (answerBeat s p beat src).die.reports = s.die.reports ∧ (answerBeat s p beat src).die.atTick = s.die.atTick := by
  unfold answerBeat; first | (simp; done) | ((try dsimp only); (repeat' split) <;> simp; done) | (refine ⟨?_, ?_, ?_, ?_, ?_, ?_, ?_, ?_, ?_, ?_, ?_, ?_, ?_, ?_, ?_, ?_, ?_, ?_, ?_⟩ <;> first | (simp; done) | ((try dsimp only); (repeat' split) <;> simp; done))

@[simp] theorem scrubTr_keeps (s : State) (p : Nat) (chk src : Check) :
    (scrubTr s p chk src).pending = s.pending ∧ (scrubTr s p chk src).gate = s.gate ∧ (scrubTr s p chk src).mod = s.mod
      ∧ (scrubTr s p chk src).rows = s.rows ∧ (scrubTr s p chk src).dumps = s.dumps ∧ (scrubTr s p chk src).pvs = s.pvs
      ∧ (scrubTr s p chk src).fns = s.fns ∧ (scrubTr s p chk src).die.hbm = s.die.hbm ∧ (scrubTr s p chk src).die.oyKey = s.die.oyKey
      ∧ (scrubTr s p chk src).die.slices = s.die.slices ∧ (scrubTr s p chk src).die.transfers = s.die.transfers
      ∧ (scrubTr s p chk src).die.commit = s.die.commit ∧ (scrubTr s p chk src).die.barriers = s.die.barriers
      ∧ (scrubTr s p chk src).die.windows = s.die.windows ∧ (scrubTr s p chk src).die.ctls = s.die.ctls
      ∧ (scrubTr s p chk src).die.lodges = s.die.lodges ∧ (scrubTr s p chk src).die.band = s.die.band
      ∧ (scrubTr s p chk src).die.reports = s.die.reports ∧ (scrubTr s p chk src).die.atTick = s.die.atTick := by
  unfold scrubTr; first | (simp; done) | ((try dsimp only); (repeat' split) <;> simp; done) | (refine ⟨?_, ?_, ?_, ?_, ?_, ?_, ?_, ?_, ?_, ?_, ?_, ?_, ?_, ?_, ?_, ?_, ?_, ?_, ?_⟩ <;> first | (simp; done) | ((try dsimp only); (repeat' split) <;> simp; done))

@[simp] theorem pushStore_keeps (s : State) (k : Nat) (x : Store) :
    (pushStore s k x).pending = s.pending ∧ (pushStore s k x).gate = s.gate ∧ (pushStore s k x).mod = s.mod ∧ (pushStore s k x).rows = s.rows
      ∧ (pushStore s k x).dumps = s.dumps ∧ (pushStore s k x).shed = s.shed ∧ (pushStore s k x).replay = s.replay ∧ (pushStore s k x).reg = s.reg
      ∧ (pushStore s k x).just = s.just ∧ (pushStore s k x).tiles = s.tiles ∧ (pushStore s k x).pvs = s.pvs ∧ (pushStore s k x).fns = s.fns
      ∧ (pushStore s k x).out = s.out ∧ (pushStore s k x).free = s.free ∧ (pushStore s k x).sun = s.sun ∧ (pushStore s k x).die.hbm = s.die.hbm
      ∧ (pushStore s k x).die.oyKey = s.die.oyKey ∧ (pushStore s k x).die.slices = s.die.slices
      ∧ (pushStore s k x).die.transfers = s.die.transfers ∧ (pushStore s k x).die.commit = s.die.commit
      ∧ (pushStore s k x).die.barriers = s.die.barriers ∧ (pushStore s k x).die.windows = s.die.windows ∧ (pushStore s k x).die.ctls = s.die.ctls
      ∧ (pushStore s k x).die.ports = s.die.ports ∧ (pushStore s k x).die.band = s.die.band ∧ (pushStore s k x).die.reports = s.die.reports
      ∧ (pushStore s k x).die.atTick = s.die.atTick := by
  unfold pushStore; first | (simp; done) | ((try dsimp only); (repeat' split) <;> simp; done) | (refine ⟨?_, ?_, ?_, ?_, ?_, ?_, ?_, ?_, ?_, ?_, ?_, ?_, ?_, ?_, ?_, ?_, ?_, ?_, ?_, ?_, ?_, ?_, ?_, ?_, ?_, ?_, ?_⟩ <;> first | (simp; done) | ((try dsimp only); (repeat' split) <;> simp; done))

@[simp] theorem writeTcAdd_keeps (s : State) (a : Agent) (p ctr inc : Nat) :
    (writeTcAdd s a p ctr inc).pending = s.pending ∧ (writeTcAdd s a p ctr inc).gate = s.gate ∧ (writeTcAdd s a p ctr inc).mod = s.mod
      ∧ (writeTcAdd s a p ctr inc).rows = s.rows ∧ (writeTcAdd s a p ctr inc).dumps = s.dumps ∧ (writeTcAdd s a p ctr inc).shed = s.shed
      ∧ (writeTcAdd s a p ctr inc).replay = s.replay ∧ (writeTcAdd s a p ctr inc).reg = s.reg ∧ (writeTcAdd s a p ctr inc).just = s.just
      ∧ (writeTcAdd s a p ctr inc).pvs = s.pvs ∧ (writeTcAdd s a p ctr inc).fns = s.fns ∧ (writeTcAdd s a p ctr inc).out = s.out
      ∧ (writeTcAdd s a p ctr inc).free = s.free ∧ (writeTcAdd s a p ctr inc).sun = s.sun ∧ (writeTcAdd s a p ctr inc).die.hbm = s.die.hbm
      ∧ (writeTcAdd s a p ctr inc).die.oyKey = s.die.oyKey ∧ (writeTcAdd s a p ctr inc).die.slices = s.die.slices
      ∧ (writeTcAdd s a p ctr inc).die.transfers = s.die.transfers ∧ (writeTcAdd s a p ctr inc).die.commit = s.die.commit
      ∧ (writeTcAdd s a p ctr inc).die.barriers = s.die.barriers ∧ (writeTcAdd s a p ctr inc).die.windows = s.die.windows
      ∧ (writeTcAdd s a p ctr inc).die.ctls = s.die.ctls ∧ (writeTcAdd s a p ctr inc).die.ports = s.die.ports
      ∧ (writeTcAdd s a p ctr inc).die.band = s.die.band ∧ (writeTcAdd s a p ctr inc).die.atTick = s.die.atTick := by
  unfold writeTcAdd; first | (simp; done) | ((try dsimp only); (repeat' split) <;> simp; done) | (refine ⟨?_, ?_, ?_, ?_, ?_, ?_, ?_, ?_, ?_, ?_, ?_, ?_, ?_, ?_, ?_, ?_, ?_, ?_, ?_, ?_, ?_, ?_, ?_, ?_, ?_⟩ <;> first | (simp; done) | ((try dsimp only); (repeat' split) <;> simp; done))

@[simp] theorem State.modPort_keeps (s : State) (p : Nat) (f : Port → Port) :
    (State.modPort s p f).pending = s.pending ∧ (State.modPort s p f).gate = s.gate ∧ (State.modPort s p f).mod = s.mod
      ∧ (State.modPort s p f).rows = s.rows ∧ (State.modPort s p f).dumps = s.dumps ∧ (State.modPort s p f).shed = s.shed
      ∧ (State.modPort s p f).replay = s.replay ∧ (State.modPort s p f).reg = s.reg ∧ (State.modPort s p f).just = s.just
      ∧ (State.modPort s p f).tiles = s.tiles ∧ (State.modPort s p f).pvs = s.pvs ∧ (State.modPort s p f).fns = s.fns
      ∧ (State.modPort s p f).out = s.out ∧ (State.modPort s p f).free = s.free ∧ (State.modPort s p f).sun = s.sun
      ∧ (State.modPort s p f).die.hbm = s.die.hbm ∧ (State.modPort s p f).die.oyKey = s.die.oyKey
      ∧ (State.modPort s p f).die.slices = s.die.slices ∧ (State.modPort s p f).die.transfers = s.die.transfers
      ∧ (State.modPort s p f).die.commit = s.die.commit ∧ (State.modPort s p f).die.barriers = s.die.barriers
      ∧ (State.modPort s p f).die.windows = s.die.windows ∧ (State.modPort s p f).die.ctls = s.die.ctls
      ∧ (State.modPort s p f).die.lodges = s.die.lodges ∧ (State.modPort s p f).die.band = s.die.band
      ∧ (State.modPort s p f).die.reports = s.die.reports ∧ (State.modPort s p f).die.atTick = s.die.atTick := by
  unfold State.modPort; first | (simp; done) | ((try dsimp only); (repeat' split) <;> simp; done) | (refine ⟨?_, ?_, ?_, ?_, ?_, ?_, ?_, ?_, ?_, ?_, ?_, ?_, ?_, ?_, ?_, ?_, ?_, ?_, ?_, ?_, ?_, ?_, ?_, ?_, ?_, ?_, ?_⟩ <;> first | (simp; done) | ((try dsimp only); (repeat' split) <;> simp; done))

@[simp] theorem refuseSlot_keeps (s : State) (x : Transfer) :
    (refuseSlot s x).pending = s.pending ∧ (refuseSlot s x).gate = s.gate ∧ (refuseSlot s x).mod = s.mod ∧ (refuseSlot s x).rows = s.rows
      ∧ (refuseSlot s x).dumps = s.dumps ∧ (refuseSlot s x).shed = s.shed ∧ (refuseSlot s x).replay = s.replay ∧ (refuseSlot s x).tiles = s.tiles
      ∧ (refuseSlot s x).pvs = s.pvs ∧ (refuseSlot s x).fns = s.fns ∧ (refuseSlot s x).out = s.out ∧ (refuseSlot s x).free = s.free
      ∧ (refuseSlot s x).sun = s.sun ∧ (refuseSlot s x).die.hbm = s.die.hbm ∧ (refuseSlot s x).die.oyKey = s.die.oyKey
      ∧ (refuseSlot s x).die.slices = s.die.slices ∧ (refuseSlot s x).die.commit = s.die.commit ∧ (refuseSlot s x).die.barriers = s.die.barriers
      ∧ (refuseSlot s x).die.windows = s.die.windows ∧ (refuseSlot s x).die.ports = s.die.ports ∧ (refuseSlot s x).die.lodges = s.die.lodges
      ∧ (refuseSlot s x).die.band = s.die.band ∧ (refuseSlot s x).die.reports = s.die.reports ∧ (refuseSlot s x).die.atTick = s.die.atTick := by
  unfold refuseSlot; first | (simp; done) | ((try dsimp only); (repeat' split) <;> simp; done) | (refine ⟨?_, ?_, ?_, ?_, ?_, ?_, ?_, ?_, ?_, ?_, ?_, ?_, ?_, ?_, ?_, ?_, ?_, ?_, ?_, ?_, ?_, ?_, ?_, ?_⟩ <;> first | (simp; done) | ((try dsimp only); (repeat' split) <;> simp; done))

@[simp] theorem admitTransfer_keeps (s : State) (x : Transfer) :
    (admitTransfer s x).pending = s.pending ∧ (admitTransfer s x).gate = s.gate ∧ (admitTransfer s x).mod = s.mod
      ∧ (admitTransfer s x).rows = s.rows ∧ (admitTransfer s x).dumps = s.dumps ∧ (admitTransfer s x).shed = s.shed
      ∧ (admitTransfer s x).replay = s.replay ∧ (admitTransfer s x).tiles = s.tiles ∧ (admitTransfer s x).pvs = s.pvs
      ∧ (admitTransfer s x).fns = s.fns ∧ (admitTransfer s x).out = s.out ∧ (admitTransfer s x).free = s.free ∧ (admitTransfer s x).sun = s.sun
      ∧ (admitTransfer s x).die.hbm = s.die.hbm ∧ (admitTransfer s x).die.oyKey = s.die.oyKey ∧ (admitTransfer s x).die.slices = s.die.slices
      ∧ (admitTransfer s x).die.commit = s.die.commit ∧ (admitTransfer s x).die.barriers = s.die.barriers
      ∧ (admitTransfer s x).die.windows = s.die.windows ∧ (admitTransfer s x).die.lodges = s.die.lodges
      ∧ (admitTransfer s x).die.band = s.die.band ∧ (admitTransfer s x).die.reports = s.die.reports
      ∧ (admitTransfer s x).die.atTick = s.die.atTick := by
  unfold admitTransfer; first | (simp; done) | ((try dsimp only); (repeat' split) <;> simp; done) | (refine ⟨?_, ?_, ?_, ?_, ?_, ?_, ?_, ?_, ?_, ?_, ?_, ?_, ?_, ?_, ?_, ?_, ?_, ?_, ?_, ?_, ?_, ?_, ?_⟩ <;> first | (simp; done) | ((try dsimp only); (repeat' split) <;> simp; done))

@[simp] theorem portTakeFlit_keeps (id : Nat) (s : State) (f : MeshFlit) :
    (portTakeFlit id s f).pending = s.pending ∧ (portTakeFlit id s f).gate = s.gate ∧ (portTakeFlit id s f).mod = s.mod
      ∧ (portTakeFlit id s f).rows = s.rows ∧ (portTakeFlit id s f).dumps = s.dumps ∧ (portTakeFlit id s f).shed = s.shed
      ∧ (portTakeFlit id s f).replay = s.replay ∧ (portTakeFlit id s f).tiles = s.tiles ∧ (portTakeFlit id s f).pvs = s.pvs
      ∧ (portTakeFlit id s f).fns = s.fns ∧ (portTakeFlit id s f).out = s.out ∧ (portTakeFlit id s f).free = s.free
      ∧ (portTakeFlit id s f).sun = s.sun ∧ (portTakeFlit id s f).die.hbm = s.die.hbm ∧ (portTakeFlit id s f).die.oyKey = s.die.oyKey
      ∧ (portTakeFlit id s f).die.slices = s.die.slices ∧ (portTakeFlit id s f).die.commit = s.die.commit
      ∧ (portTakeFlit id s f).die.barriers = s.die.barriers ∧ (portTakeFlit id s f).die.windows = s.die.windows
      ∧ (portTakeFlit id s f).die.lodges = s.die.lodges ∧ (portTakeFlit id s f).die.band = s.die.band
      ∧ (portTakeFlit id s f).die.reports = s.die.reports ∧ (portTakeFlit id s f).die.atTick = s.die.atTick := by
  unfold portTakeFlit; first | (simp; done) | ((try dsimp only); (repeat' split) <;> simp; done) | (refine ⟨?_, ?_, ?_, ?_, ?_, ?_, ?_, ?_, ?_, ?_, ?_, ?_, ?_, ?_, ?_, ?_, ?_, ?_, ?_, ?_, ?_, ?_, ?_⟩ <;> first | (simp; done) | ((try dsimp only); (repeat' split) <;> simp; done))

@[simp] theorem portTake_keeps (s : State) (x : Transfer) :
    (portTake s x).pending = s.pending ∧ (portTake s x).gate = s.gate ∧ (portTake s x).mod = s.mod ∧ (portTake s x).rows = s.rows
      ∧ (portTake s x).dumps = s.dumps ∧ (portTake s x).shed = s.shed ∧ (portTake s x).replay = s.replay ∧ (portTake s x).tiles = s.tiles
      ∧ (portTake s x).pvs = s.pvs ∧ (portTake s x).fns = s.fns ∧ (portTake s x).out = s.out ∧ (portTake s x).free = s.free
      ∧ (portTake s x).sun = s.sun ∧ (portTake s x).die.hbm = s.die.hbm ∧ (portTake s x).die.oyKey = s.die.oyKey
      ∧ (portTake s x).die.slices = s.die.slices ∧ (portTake s x).die.commit = s.die.commit ∧ (portTake s x).die.barriers = s.die.barriers
      ∧ (portTake s x).die.windows = s.die.windows ∧ (portTake s x).die.lodges = s.die.lodges ∧ (portTake s x).die.band = s.die.band
      ∧ (portTake s x).die.reports = s.die.reports ∧ (portTake s x).die.atTick = s.die.atTick := by
  unfold portTake; first | (simp; done) | ((try dsimp only); (repeat' split) <;> simp; done) | (refine ⟨?_, ?_, ?_, ?_, ?_, ?_, ?_, ?_, ?_, ?_, ?_, ?_, ?_, ?_, ?_, ?_, ?_, ?_, ?_, ?_, ?_, ?_, ?_⟩ <;> first | (simp; done) | ((try dsimp only); (repeat' split) <;> simp; done))

@[simp] theorem scheduledAtPort_keeps (s : State) (i : Nat) :
    (scheduledAtPort s i).pending = s.pending ∧ (scheduledAtPort s i).gate = s.gate ∧ (scheduledAtPort s i).mod = s.mod
      ∧ (scheduledAtPort s i).rows = s.rows ∧ (scheduledAtPort s i).dumps = s.dumps ∧ (scheduledAtPort s i).shed = s.shed
      ∧ (scheduledAtPort s i).replay = s.replay ∧ (scheduledAtPort s i).tiles = s.tiles ∧ (scheduledAtPort s i).pvs = s.pvs
      ∧ (scheduledAtPort s i).fns = s.fns ∧ (scheduledAtPort s i).out = s.out ∧ (scheduledAtPort s i).free = s.free
      ∧ (scheduledAtPort s i).sun = s.sun ∧ (scheduledAtPort s i).die.hbm = s.die.hbm ∧ (scheduledAtPort s i).die.oyKey = s.die.oyKey
      ∧ (scheduledAtPort s i).die.slices = s.die.slices ∧ (scheduledAtPort s i).die.commit = s.die.commit
      ∧ (scheduledAtPort s i).die.barriers = s.die.barriers ∧ (scheduledAtPort s i).die.windows = s.die.windows
      ∧ (scheduledAtPort s i).die.lodges = s.die.lodges ∧ (scheduledAtPort s i).die.band = s.die.band
      ∧ (scheduledAtPort s i).die.reports = s.die.reports ∧ (scheduledAtPort s i).die.atTick = s.die.atTick := by
  unfold scheduledAtPort; first | (simp; done) | ((try dsimp only); (repeat' split) <;> simp; done) | (refine ⟨?_, ?_, ?_, ?_, ?_, ?_, ?_, ?_, ?_, ?_, ?_, ?_, ?_, ?_, ?_, ?_, ?_, ?_, ?_, ?_, ?_, ?_, ?_⟩ <;> first | (simp; done) | ((try dsimp only); (repeat' split) <;> simp; done))

@[simp] theorem slotBegin_keeps (s : State) (p k : Nat) :
    (slotBegin s p k).pending = s.pending ∧ (slotBegin s p k).gate = s.gate ∧ (slotBegin s p k).mod = s.mod ∧ (slotBegin s p k).rows = s.rows
      ∧ (slotBegin s p k).dumps = s.dumps ∧ (slotBegin s p k).shed = s.shed ∧ (slotBegin s p k).replay = s.replay ∧ (slotBegin s p k).reg = s.reg
      ∧ (slotBegin s p k).just = s.just ∧ (slotBegin s p k).tiles = s.tiles ∧ (slotBegin s p k).pvs = s.pvs ∧ (slotBegin s p k).fns = s.fns
      ∧ (slotBegin s p k).out = s.out ∧ (slotBegin s p k).free = s.free ∧ (slotBegin s p k).sun = s.sun ∧ (slotBegin s p k).die.hbm = s.die.hbm
      ∧ (slotBegin s p k).die.oyKey = s.die.oyKey ∧ (slotBegin s p k).die.slices = s.die.slices
      ∧ (slotBegin s p k).die.transfers = s.die.transfers ∧ (slotBegin s p k).die.commit = s.die.commit
      ∧ (slotBegin s p k).die.barriers = s.die.barriers ∧ (slotBegin s p k).die.windows = s.die.windows ∧ (slotBegin s p k).die.ctls = s.die.ctls
      ∧ (slotBegin s p k).die.lodges = s.die.lodges ∧ (slotBegin s p k).die.band = s.die.band ∧ (slotBegin s p k).die.reports = s.die.reports
      ∧ (slotBegin s p k).die.atTick = s.die.atTick := by
  unfold slotBegin; first | (simp; done) | ((try dsimp only); (repeat' split) <;> simp; done) | (refine ⟨?_, ?_, ?_, ?_, ?_, ?_, ?_, ?_, ?_, ?_, ?_, ?_, ?_, ?_, ?_, ?_, ?_, ?_, ?_, ?_, ?_, ?_, ?_, ?_, ?_, ?_, ?_⟩ <;> first | (simp; done) | ((try dsimp only); (repeat' split) <;> simp; done))

@[simp] theorem enterFromPort_keeps (s : State) (e : Ingress) (id car : Nat) :
    (enterFromPort s e id car).pending = s.pending ∧ (enterFromPort s e id car).gate = s.gate ∧ (enterFromPort s e id car).mod = s.mod
      ∧ (enterFromPort s e id car).rows = s.rows ∧ (enterFromPort s e id car).dumps = s.dumps ∧ (enterFromPort s e id car).shed = s.shed
      ∧ (enterFromPort s e id car).replay = s.replay ∧ (enterFromPort s e id car).reg = s.reg ∧ (enterFromPort s e id car).just = s.just
      ∧ (enterFromPort s e id car).tiles = s.tiles ∧ (enterFromPort s e id car).pvs = s.pvs ∧ (enterFromPort s e id car).fns = s.fns
      ∧ (enterFromPort s e id car).out = s.out ∧ (enterFromPort s e id car).free = s.free ∧ (enterFromPort s e id car).sun = s.sun
      ∧ (enterFromPort s e id car).die.hbm = s.die.hbm ∧ (enterFromPort s e id car).die.oyKey = s.die.oyKey
      ∧ (enterFromPort s e id car).die.slices = s.die.slices ∧ (enterFromPort s e id car).die.commit = s.die.commit
      ∧ (enterFromPort s e id car).die.barriers = s.die.barriers ∧ (enterFromPort s e id car).die.windows = s.die.windows
      ∧ (enterFromPort s e id car).die.ctls = s.die.ctls ∧ (enterFromPort s e id car).die.ports = s.die.ports
      ∧ (enterFromPort s e id car).die.lodges = s.die.lodges ∧ (enterFromPort s e id car).die.band = s.die.band
      ∧ (enterFromPort s e id car).die.reports = s.die.reports ∧ (enterFromPort s e id car).die.atTick = s.die.atTick := by
  unfold enterFromPort; first | (simp; done) | ((try dsimp only); (repeat' split) <;> simp; done) | (refine ⟨?_, ?_, ?_, ?_, ?_, ?_, ?_, ?_, ?_, ?_, ?_, ?_, ?_, ?_, ?_, ?_, ?_, ?_, ?_, ?_, ?_, ?_, ?_, ?_, ?_, ?_, ?_⟩ <;> first | (simp; done) | ((try dsimp only); (repeat' split) <;> simp; done))

@[simp] theorem present_keeps (s : State) (p : Nat) :
    (present s p).pending = s.pending ∧ (present s p).gate = s.gate ∧ (present s p).mod = s.mod ∧ (present s p).rows = s.rows
      ∧ (present s p).dumps = s.dumps ∧ (present s p).shed = s.shed ∧ (present s p).replay = s.replay ∧ (present s p).reg = s.reg
      ∧ (present s p).just = s.just ∧ (present s p).tiles = s.tiles ∧ (present s p).pvs = s.pvs ∧ (present s p).fns = s.fns
      ∧ (present s p).out = s.out ∧ (present s p).free = s.free ∧ (present s p).sun = s.sun ∧ (present s p).die.hbm = s.die.hbm
      ∧ (present s p).die.oyKey = s.die.oyKey ∧ (present s p).die.slices = s.die.slices ∧ (present s p).die.commit = s.die.commit
      ∧ (present s p).die.barriers = s.die.barriers ∧ (present s p).die.windows = s.die.windows ∧ (present s p).die.ctls = s.die.ctls
      ∧ (present s p).die.lodges = s.die.lodges ∧ (present s p).die.band = s.die.band ∧ (present s p).die.reports = s.die.reports
      ∧ (present s p).die.atTick = s.die.atTick := by
  unfold present; first | (simp; done) | ((try dsimp only); (repeat' split) <;> simp; done) | (refine ⟨?_, ?_, ?_, ?_, ?_, ?_, ?_, ?_, ?_, ?_, ?_, ?_, ?_, ?_, ?_, ?_, ?_, ?_, ?_, ?_, ?_, ?_, ?_, ?_, ?_, ?_⟩ <;> first | (simp; done) | ((try dsimp only); (repeat' split) <;> simp; done))

@[simp] theorem lateEntry_keeps (p : Nat) (s : State) (i : Nat) :
    (lateEntry p s i).pending = s.pending ∧ (lateEntry p s i).gate = s.gate ∧ (lateEntry p s i).mod = s.mod ∧ (lateEntry p s i).rows = s.rows
      ∧ (lateEntry p s i).dumps = s.dumps ∧ (lateEntry p s i).shed = s.shed ∧ (lateEntry p s i).replay = s.replay
      ∧ (lateEntry p s i).tiles = s.tiles ∧ (lateEntry p s i).pvs = s.pvs ∧ (lateEntry p s i).fns = s.fns ∧ (lateEntry p s i).free = s.free
      ∧ (lateEntry p s i).die.hbm = s.die.hbm ∧ (lateEntry p s i).die.oyKey = s.die.oyKey ∧ (lateEntry p s i).die.slices = s.die.slices
      ∧ (lateEntry p s i).die.transfers = s.die.transfers ∧ (lateEntry p s i).die.commit = s.die.commit
      ∧ (lateEntry p s i).die.barriers = s.die.barriers ∧ (lateEntry p s i).die.windows = s.die.windows ∧ (lateEntry p s i).die.ctls = s.die.ctls
      ∧ (lateEntry p s i).die.lodges = s.die.lodges ∧ (lateEntry p s i).die.band = s.die.band ∧ (lateEntry p s i).die.reports = s.die.reports
      ∧ (lateEntry p s i).die.atTick = s.die.atTick := by
  unfold lateEntry; first | (simp; done) | ((try dsimp only); (repeat' split) <;> simp; done) | (refine ⟨?_, ?_, ?_, ?_, ?_, ?_, ?_, ?_, ?_, ?_, ?_, ?_, ?_, ?_, ?_, ?_, ?_, ?_, ?_, ?_, ?_, ?_, ?_⟩ <;> first | (simp; done) | ((try dsimp only); (repeat' split) <;> simp; done))

@[simp] theorem lateCheck_keeps (s : State) (p : Nat) :
    (lateCheck s p).pending = s.pending ∧ (lateCheck s p).gate = s.gate ∧ (lateCheck s p).mod = s.mod ∧ (lateCheck s p).rows = s.rows
      ∧ (lateCheck s p).dumps = s.dumps ∧ (lateCheck s p).shed = s.shed ∧ (lateCheck s p).replay = s.replay ∧ (lateCheck s p).tiles = s.tiles
      ∧ (lateCheck s p).pvs = s.pvs ∧ (lateCheck s p).fns = s.fns ∧ (lateCheck s p).free = s.free ∧ (lateCheck s p).die.hbm = s.die.hbm
      ∧ (lateCheck s p).die.oyKey = s.die.oyKey ∧ (lateCheck s p).die.slices = s.die.slices ∧ (lateCheck s p).die.transfers = s.die.transfers
      ∧ (lateCheck s p).die.commit = s.die.commit ∧ (lateCheck s p).die.barriers = s.die.barriers ∧ (lateCheck s p).die.windows = s.die.windows
      ∧ (lateCheck s p).die.ctls = s.die.ctls ∧ (lateCheck s p).die.lodges = s.die.lodges ∧ (lateCheck s p).die.band = s.die.band
      ∧ (lateCheck s p).die.reports = s.die.reports ∧ (lateCheck s p).die.atTick = s.die.atTick := by
  unfold lateCheck; first | (simp; done) | ((try dsimp only); (repeat' split) <;> simp; done) | (refine ⟨?_, ?_, ?_, ?_, ?_, ?_, ?_, ?_, ?_, ?_, ?_, ?_, ?_, ?_, ?_, ?_, ?_, ?_, ?_, ?_, ?_, ?_, ?_⟩ <;> first | (simp; done) | ((try dsimp only); (repeat' split) <;> simp; done))

@[simp] theorem giveBack_keeps (s : State) (p cls n : Nat) :
    (giveBack s p cls n).pending = s.pending ∧ (giveBack s p cls n).gate = s.gate ∧ (giveBack s p cls n).mod = s.mod
      ∧ (giveBack s p cls n).rows = s.rows ∧ (giveBack s p cls n).dumps = s.dumps ∧ (giveBack s p cls n).shed = s.shed
      ∧ (giveBack s p cls n).replay = s.replay ∧ (giveBack s p cls n).reg = s.reg ∧ (giveBack s p cls n).just = s.just
      ∧ (giveBack s p cls n).tiles = s.tiles ∧ (giveBack s p cls n).pvs = s.pvs ∧ (giveBack s p cls n).fns = s.fns
      ∧ (giveBack s p cls n).out = s.out ∧ (giveBack s p cls n).free = s.free ∧ (giveBack s p cls n).sun = s.sun
      ∧ (giveBack s p cls n).die.hbm = s.die.hbm ∧ (giveBack s p cls n).die.oyKey = s.die.oyKey ∧ (giveBack s p cls n).die.slices = s.die.slices
      ∧ (giveBack s p cls n).die.transfers = s.die.transfers ∧ (giveBack s p cls n).die.commit = s.die.commit
      ∧ (giveBack s p cls n).die.barriers = s.die.barriers ∧ (giveBack s p cls n).die.windows = s.die.windows
      ∧ (giveBack s p cls n).die.ctls = s.die.ctls ∧ (giveBack s p cls n).die.lodges = s.die.lodges ∧ (giveBack s p cls n).die.band = s.die.band
      ∧ (giveBack s p cls n).die.reports = s.die.reports ∧ (giveBack s p cls n).die.atTick = s.die.atTick := by
  unfold giveBack; first | (simp; done) | ((try dsimp only); (repeat' split) <;> simp; done) | (refine ⟨?_, ?_, ?_, ?_, ?_, ?_, ?_, ?_, ?_, ?_, ?_, ?_, ?_, ?_, ?_, ?_, ?_, ?_, ?_, ?_, ?_, ?_, ?_, ?_, ?_, ?_, ?_⟩ <;> first | (simp; done) | ((try dsimp only); (repeat' split) <;> simp; done))

@[simp] theorem dropBulk_keeps (s : State) (p i : Nat) (e : Ingress) :
    (dropBulk s p i e).pending = s.pending ∧ (dropBulk s p i e).gate = s.gate ∧ (dropBulk s p i e).mod = s.mod ∧ (dropBulk s p i e).rows = s.rows
      ∧ (dropBulk s p i e).dumps = s.dumps ∧ (dropBulk s p i e).shed = s.shed ∧ (dropBulk s p i e).replay = s.replay
      ∧ (dropBulk s p i e).reg = s.reg ∧ (dropBulk s p i e).just = s.just ∧ (dropBulk s p i e).tiles = s.tiles ∧ (dropBulk s p i e).pvs = s.pvs
      ∧ (dropBulk s p i e).fns = s.fns ∧ (dropBulk s p i e).out = s.out ∧ (dropBulk s p i e).free = s.free ∧ (dropBulk s p i e).sun = s.sun
      ∧ (dropBulk s p i e).die.hbm = s.die.hbm ∧ (dropBulk s p i e).die.oyKey = s.die.oyKey ∧ (dropBulk s p i e).die.slices = s.die.slices
      ∧ (dropBulk s p i e).die.transfers = s.die.transfers ∧ (dropBulk s p i e).die.commit = s.die.commit
      ∧ (dropBulk s p i e).die.barriers = s.die.barriers ∧ (dropBulk s p i e).die.windows = s.die.windows
      ∧ (dropBulk s p i e).die.ctls = s.die.ctls ∧ (dropBulk s p i e).die.lodges = s.die.lodges ∧ (dropBulk s p i e).die.band = s.die.band
      ∧ (dropBulk s p i e).die.reports = s.die.reports ∧ (dropBulk s p i e).die.atTick = s.die.atTick := by
  unfold dropBulk; first | (simp; done) | ((try dsimp only); (repeat' split) <;> simp; done) | (refine ⟨?_, ?_, ?_, ?_, ?_, ?_, ?_, ?_, ?_, ?_, ?_, ?_, ?_, ?_, ?_, ?_, ?_, ?_, ?_, ?_, ?_, ?_, ?_, ?_, ?_, ?_, ?_⟩ <;> first | (simp; done) | ((try dsimp only); (repeat' split) <;> simp; done))

@[simp] theorem enterBulk_keeps (s : State) (p i : Nat) (q : Option Nat) (e : Ingress) :
    (enterBulk s p i q e).pending = s.pending ∧ (enterBulk s p i q e).gate = s.gate ∧ (enterBulk s p i q e).mod = s.mod
      ∧ (enterBulk s p i q e).rows = s.rows ∧ (enterBulk s p i q e).dumps = s.dumps ∧ (enterBulk s p i q e).shed = s.shed
      ∧ (enterBulk s p i q e).replay = s.replay ∧ (enterBulk s p i q e).reg = s.reg ∧ (enterBulk s p i q e).just = s.just
      ∧ (enterBulk s p i q e).tiles = s.tiles ∧ (enterBulk s p i q e).pvs = s.pvs ∧ (enterBulk s p i q e).fns = s.fns
      ∧ (enterBulk s p i q e).out = s.out ∧ (enterBulk s p i q e).free = s.free ∧ (enterBulk s p i q e).sun = s.sun
      ∧ (enterBulk s p i q e).die.hbm = s.die.hbm ∧ (enterBulk s p i q e).die.oyKey = s.die.oyKey
      ∧ (enterBulk s p i q e).die.slices = s.die.slices ∧ (enterBulk s p i q e).die.commit = s.die.commit
      ∧ (enterBulk s p i q e).die.barriers = s.die.barriers ∧ (enterBulk s p i q e).die.windows = s.die.windows
      ∧ (enterBulk s p i q e).die.ctls = s.die.ctls ∧ (enterBulk s p i q e).die.lodges = s.die.lodges
      ∧ (enterBulk s p i q e).die.band = s.die.band ∧ (enterBulk s p i q e).die.reports = s.die.reports
      ∧ (enterBulk s p i q e).die.atTick = s.die.atTick := by
  unfold enterBulk; first | (simp; done) | ((try dsimp only); (repeat' split) <;> simp; done) | (refine ⟨?_, ?_, ?_, ?_, ?_, ?_, ?_, ?_, ?_, ?_, ?_, ?_, ?_, ?_, ?_, ?_, ?_, ?_, ?_, ?_, ?_, ?_, ?_, ?_, ?_, ?_⟩ <;> first | (simp; done) | ((try dsimp only); (repeat' split) <;> simp; done))

@[simp] theorem routeBulk_keeps (s : State) (p i : Nat) :
    (routeBulk s p i).pending = s.pending ∧ (routeBulk s p i).gate = s.gate ∧ (routeBulk s p i).mod = s.mod ∧ (routeBulk s p i).rows = s.rows
      ∧ (routeBulk s p i).dumps = s.dumps ∧ (routeBulk s p i).shed = s.shed ∧ (routeBulk s p i).replay = s.replay
      ∧ (routeBulk s p i).just = s.just ∧ (routeBulk s p i).tiles = s.tiles ∧ (routeBulk s p i).pvs = s.pvs ∧ (routeBulk s p i).fns = s.fns
      ∧ (routeBulk s p i).out = s.out ∧ (routeBulk s p i).free = s.free ∧ (routeBulk s p i).sun = s.sun ∧ (routeBulk s p i).die.hbm = s.die.hbm
      ∧ (routeBulk s p i).die.oyKey = s.die.oyKey ∧ (routeBulk s p i).die.slices = s.die.slices ∧ (routeBulk s p i).die.commit = s.die.commit
      ∧ (routeBulk s p i).die.barriers = s.die.barriers ∧ (routeBulk s p i).die.windows = s.die.windows ∧ (routeBulk s p i).die.ctls = s.die.ctls
      ∧ (routeBulk s p i).die.lodges = s.die.lodges ∧ (routeBulk s p i).die.band = s.die.band ∧ (routeBulk s p i).die.reports = s.die.reports
      ∧ (routeBulk s p i).die.atTick = s.die.atTick := by
  unfold routeBulk; first | (simp; done) | ((try dsimp only); (repeat' split) <;> simp; done) | (refine ⟨?_, ?_, ?_, ?_, ?_, ?_, ?_, ?_, ?_, ?_, ?_, ?_, ?_, ?_, ?_, ?_, ?_, ?_, ?_, ?_, ?_, ?_, ?_, ?_, ?_⟩ <;> first | (simp; done) | ((try dsimp only); (repeat' split) <;> simp; done))

@[simp] theorem bulkInject_keeps (s : State) (p : Nat) :
    (bulkInject s p).pending = s.pending ∧ (bulkInject s p).gate = s.gate ∧ (bulkInject s p).mod = s.mod ∧ (bulkInject s p).rows = s.rows
      ∧ (bulkInject s p).dumps = s.dumps ∧ (bulkInject s p).shed = s.shed ∧ (bulkInject s p).replay = s.replay ∧ (bulkInject s p).reg = s.reg
      ∧ (bulkInject s p).just = s.just ∧ (bulkInject s p).tiles = s.tiles ∧ (bulkInject s p).pvs = s.pvs ∧ (bulkInject s p).fns = s.fns
      ∧ (bulkInject s p).out = s.out ∧ (bulkInject s p).free = s.free ∧ (bulkInject s p).sun = s.sun ∧ (bulkInject s p).die.hbm = s.die.hbm
      ∧ (bulkInject s p).die.oyKey = s.die.oyKey ∧ (bulkInject s p).die.slices = s.die.slices ∧ (bulkInject s p).die.commit = s.die.commit
      ∧ (bulkInject s p).die.barriers = s.die.barriers ∧ (bulkInject s p).die.windows = s.die.windows ∧ (bulkInject s p).die.ctls = s.die.ctls
      ∧ (bulkInject s p).die.lodges = s.die.lodges ∧ (bulkInject s p).die.band = s.die.band ∧ (bulkInject s p).die.reports = s.die.reports
      ∧ (bulkInject s p).die.atTick = s.die.atTick := by
  unfold bulkInject; first | (simp; done) | ((try dsimp only); (repeat' split) <;> simp; done) | (refine ⟨?_, ?_, ?_, ?_, ?_, ?_, ?_, ?_, ?_, ?_, ?_, ?_, ?_, ?_, ?_, ?_, ?_, ?_, ?_, ?_, ?_, ?_, ?_, ?_, ?_, ?_⟩ <;> first | (simp; done) | ((try dsimp only); (repeat' split) <;> simp; done))

@[simp] theorem downHold_keeps (s : State) (p : Nat) :
    (downHold s p).pending = s.pending ∧ (downHold s p).gate = s.gate ∧ (downHold s p).mod = s.mod ∧ (downHold s p).rows = s.rows
      ∧ (downHold s p).dumps = s.dumps ∧ (downHold s p).shed = s.shed ∧ (downHold s p).replay = s.replay ∧ (downHold s p).tiles = s.tiles
      ∧ (downHold s p).pvs = s.pvs ∧ (downHold s p).fns = s.fns ∧ (downHold s p).free = s.free ∧ (downHold s p).die.hbm = s.die.hbm
      ∧ (downHold s p).die.oyKey = s.die.oyKey ∧ (downHold s p).die.slices = s.die.slices ∧ (downHold s p).die.transfers = s.die.transfers
      ∧ (downHold s p).die.commit = s.die.commit ∧ (downHold s p).die.barriers = s.die.barriers ∧ (downHold s p).die.windows = s.die.windows
      ∧ (downHold s p).die.ctls = s.die.ctls ∧ (downHold s p).die.lodges = s.die.lodges ∧ (downHold s p).die.band = s.die.band
      ∧ (downHold s p).die.reports = s.die.reports ∧ (downHold s p).die.atTick = s.die.atTick := by
  unfold downHold; first | (simp; done) | ((try dsimp only); (repeat' split) <;> simp; done) | (refine ⟨?_, ?_, ?_, ?_, ?_, ?_, ?_, ?_, ?_, ?_, ?_, ?_, ?_, ?_, ?_, ?_, ?_, ?_, ?_, ?_, ?_, ?_, ?_⟩ <;> first | (simp; done) | ((try dsimp only); (repeat' split) <;> simp; done))

@[simp] theorem leaveUp_keeps (s : State) (p : Nat) :
    (leaveUp s p).pending = s.pending ∧ (leaveUp s p).gate = s.gate ∧ (leaveUp s p).mod = s.mod ∧ (leaveUp s p).rows = s.rows
      ∧ (leaveUp s p).dumps = s.dumps ∧ (leaveUp s p).shed = s.shed ∧ (leaveUp s p).replay = s.replay ∧ (leaveUp s p).tiles = s.tiles
      ∧ (leaveUp s p).pvs = s.pvs ∧ (leaveUp s p).fns = s.fns ∧ (leaveUp s p).out = s.out ∧ (leaveUp s p).free = s.free
      ∧ (leaveUp s p).sun = s.sun ∧ (leaveUp s p).die.hbm = s.die.hbm ∧ (leaveUp s p).die.oyKey = s.die.oyKey
      ∧ (leaveUp s p).die.slices = s.die.slices ∧ (leaveUp s p).die.transfers = s.die.transfers ∧ (leaveUp s p).die.commit = s.die.commit
      ∧ (leaveUp s p).die.barriers = s.die.barriers ∧ (leaveUp s p).die.windows = s.die.windows ∧ (leaveUp s p).die.ctls = s.die.ctls
      ∧ (leaveUp s p).die.lodges = s.die.lodges ∧ (leaveUp s p).die.band = s.die.band ∧ (leaveUp s p).die.reports = s.die.reports
      ∧ (leaveUp s p).die.atTick = s.die.atTick := by
  unfold leaveUp; first | (simp; done) | ((try dsimp only); (repeat' split) <;> simp; done) | (refine ⟨?_, ?_, ?_, ?_, ?_, ?_, ?_, ?_, ?_, ?_, ?_, ?_, ?_, ?_, ?_, ?_, ?_, ?_, ?_, ?_, ?_, ?_, ?_, ?_, ?_⟩ <;> first | (simp; done) | ((try dsimp only); (repeat' split) <;> simp; done))

@[simp] theorem portDown_keeps (s : State) (p : Nat) :
    (portDown s p).pending = s.pending ∧ (portDown s p).gate = s.gate ∧ (portDown s p).mod = s.mod ∧ (portDown s p).rows = s.rows
      ∧ (portDown s p).dumps = s.dumps ∧ (portDown s p).shed = s.shed ∧ (portDown s p).replay = s.replay ∧ (portDown s p).tiles = s.tiles
      ∧ (portDown s p).pvs = s.pvs ∧ (portDown s p).fns = s.fns ∧ (portDown s p).free = s.free ∧ (portDown s p).die.hbm = s.die.hbm
      ∧ (portDown s p).die.oyKey = s.die.oyKey ∧ (portDown s p).die.slices = s.die.slices ∧ (portDown s p).die.transfers = s.die.transfers
      ∧ (portDown s p).die.commit = s.die.commit ∧ (portDown s p).die.barriers = s.die.barriers ∧ (portDown s p).die.windows = s.die.windows
      ∧ (portDown s p).die.ctls = s.die.ctls ∧ (portDown s p).die.lodges = s.die.lodges ∧ (portDown s p).die.band = s.die.band
      ∧ (portDown s p).die.reports = s.die.reports ∧ (portDown s p).die.atTick = s.die.atTick := by
  unfold portDown; first | (simp; done) | ((try dsimp only); (repeat' split) <;> simp; done) | (refine ⟨?_, ?_, ?_, ?_, ?_, ?_, ?_, ?_, ?_, ?_, ?_, ?_, ?_, ?_, ?_, ?_, ?_, ?_, ?_, ?_, ?_, ?_, ?_⟩ <;> first | (simp; done) | ((try dsimp only); (repeat' split) <;> simp; done))

@[simp] theorem recvSched_keeps (s : State) (p : Nat) (f : Flit) :
    (recvSched s p f).pending = s.pending ∧ (recvSched s p f).gate = s.gate ∧ (recvSched s p f).mod = s.mod ∧ (recvSched s p f).rows = s.rows
      ∧ (recvSched s p f).dumps = s.dumps ∧ (recvSched s p f).shed = s.shed ∧ (recvSched s p f).replay = s.replay
      ∧ (recvSched s p f).just = s.just ∧ (recvSched s p f).tiles = s.tiles ∧ (recvSched s p f).pvs = s.pvs ∧ (recvSched s p f).fns = s.fns
      ∧ (recvSched s p f).out = s.out ∧ (recvSched s p f).free = s.free ∧ (recvSched s p f).sun = s.sun ∧ (recvSched s p f).die.hbm = s.die.hbm
      ∧ (recvSched s p f).die.oyKey = s.die.oyKey ∧ (recvSched s p f).die.slices = s.die.slices
      ∧ (recvSched s p f).die.transfers = s.die.transfers ∧ (recvSched s p f).die.commit = s.die.commit
      ∧ (recvSched s p f).die.barriers = s.die.barriers ∧ (recvSched s p f).die.windows = s.die.windows ∧ (recvSched s p f).die.ctls = s.die.ctls
      ∧ (recvSched s p f).die.lodges = s.die.lodges ∧ (recvSched s p f).die.band = s.die.band ∧ (recvSched s p f).die.reports = s.die.reports
      ∧ (recvSched s p f).die.atTick = s.die.atTick := by
  unfold recvSched; first | (simp; done) | ((try dsimp only); (repeat' split) <;> simp; done) | (refine ⟨?_, ?_, ?_, ?_, ?_, ?_, ?_, ?_, ?_, ?_, ?_, ?_, ?_, ?_, ?_, ?_, ?_, ?_, ?_, ?_, ?_, ?_, ?_, ?_, ?_, ?_⟩ <;> first | (simp; done) | ((try dsimp only); (repeat' split) <;> simp; done))

@[simp] theorem addBulk_keeps (s : State) (p : Nat) (f : Flit) (i : Nat) (e : Ingress) :
    (addBulk s p f i e).pending = s.pending ∧ (addBulk s p f i e).gate = s.gate ∧ (addBulk s p f i e).mod = s.mod
      ∧ (addBulk s p f i e).rows = s.rows ∧ (addBulk s p f i e).dumps = s.dumps ∧ (addBulk s p f i e).shed = s.shed
      ∧ (addBulk s p f i e).replay = s.replay ∧ (addBulk s p f i e).reg = s.reg ∧ (addBulk s p f i e).just = s.just
      ∧ (addBulk s p f i e).tiles = s.tiles ∧ (addBulk s p f i e).pvs = s.pvs ∧ (addBulk s p f i e).fns = s.fns ∧ (addBulk s p f i e).out = s.out
      ∧ (addBulk s p f i e).free = s.free ∧ (addBulk s p f i e).sun = s.sun ∧ (addBulk s p f i e).die.hbm = s.die.hbm
      ∧ (addBulk s p f i e).die.oyKey = s.die.oyKey ∧ (addBulk s p f i e).die.slices = s.die.slices
      ∧ (addBulk s p f i e).die.transfers = s.die.transfers ∧ (addBulk s p f i e).die.commit = s.die.commit
      ∧ (addBulk s p f i e).die.barriers = s.die.barriers ∧ (addBulk s p f i e).die.windows = s.die.windows
      ∧ (addBulk s p f i e).die.ctls = s.die.ctls ∧ (addBulk s p f i e).die.lodges = s.die.lodges ∧ (addBulk s p f i e).die.band = s.die.band
      ∧ (addBulk s p f i e).die.reports = s.die.reports ∧ (addBulk s p f i e).die.atTick = s.die.atTick := by
  unfold addBulk; first | (simp; done) | ((try dsimp only); (repeat' split) <;> simp; done) | (refine ⟨?_, ?_, ?_, ?_, ?_, ?_, ?_, ?_, ?_, ?_, ?_, ?_, ?_, ?_, ?_, ?_, ?_, ?_, ?_, ?_, ?_, ?_, ?_, ?_, ?_, ?_, ?_⟩ <;> first | (simp; done) | ((try dsimp only); (repeat' split) <;> simp; done))

@[simp] theorem recvBulk_keeps (s : State) (p : Nat) (f : Flit) :
    (recvBulk s p f).pending = s.pending ∧ (recvBulk s p f).gate = s.gate ∧ (recvBulk s p f).mod = s.mod ∧ (recvBulk s p f).rows = s.rows
      ∧ (recvBulk s p f).dumps = s.dumps ∧ (recvBulk s p f).shed = s.shed ∧ (recvBulk s p f).replay = s.replay ∧ (recvBulk s p f).just = s.just
      ∧ (recvBulk s p f).tiles = s.tiles ∧ (recvBulk s p f).pvs = s.pvs ∧ (recvBulk s p f).fns = s.fns ∧ (recvBulk s p f).out = s.out
      ∧ (recvBulk s p f).free = s.free ∧ (recvBulk s p f).sun = s.sun ∧ (recvBulk s p f).die.hbm = s.die.hbm
      ∧ (recvBulk s p f).die.oyKey = s.die.oyKey ∧ (recvBulk s p f).die.slices = s.die.slices ∧ (recvBulk s p f).die.transfers = s.die.transfers
      ∧ (recvBulk s p f).die.commit = s.die.commit ∧ (recvBulk s p f).die.barriers = s.die.barriers
      ∧ (recvBulk s p f).die.windows = s.die.windows ∧ (recvBulk s p f).die.ctls = s.die.ctls ∧ (recvBulk s p f).die.lodges = s.die.lodges
      ∧ (recvBulk s p f).die.band = s.die.band ∧ (recvBulk s p f).die.reports = s.die.reports ∧ (recvBulk s p f).die.atTick = s.die.atTick := by
  unfold recvBulk; first | (simp; done) | ((try dsimp only); (repeat' split) <;> simp; done) | (refine ⟨?_, ?_, ?_, ?_, ?_, ?_, ?_, ?_, ?_, ?_, ?_, ?_, ?_, ?_, ?_, ?_, ?_, ?_, ?_, ?_, ?_, ?_, ?_, ?_, ?_, ?_⟩ <;> first | (simp; done) | ((try dsimp only); (repeat' split) <;> simp; done))

@[simp] theorem takeHeard_keeps (s : State) (p type origin seq : Nat) :
    (takeHeard s p type origin seq).pending = s.pending ∧ (takeHeard s p type origin seq).gate = s.gate
      ∧ (takeHeard s p type origin seq).mod = s.mod ∧ (takeHeard s p type origin seq).rows = s.rows
      ∧ (takeHeard s p type origin seq).dumps = s.dumps ∧ (takeHeard s p type origin seq).shed = s.shed
      ∧ (takeHeard s p type origin seq).replay = s.replay ∧ (takeHeard s p type origin seq).reg = s.reg
      ∧ (takeHeard s p type origin seq).just = s.just ∧ (takeHeard s p type origin seq).tiles = s.tiles
      ∧ (takeHeard s p type origin seq).pvs = s.pvs ∧ (takeHeard s p type origin seq).fns = s.fns ∧ (takeHeard s p type origin seq).out = s.out
      ∧ (takeHeard s p type origin seq).free = s.free ∧ (takeHeard s p type origin seq).sun = s.sun
      ∧ (takeHeard s p type origin seq).die.hbm = s.die.hbm ∧ (takeHeard s p type origin seq).die.oyKey = s.die.oyKey
      ∧ (takeHeard s p type origin seq).die.slices = s.die.slices ∧ (takeHeard s p type origin seq).die.transfers = s.die.transfers
      ∧ (takeHeard s p type origin seq).die.commit = s.die.commit ∧ (takeHeard s p type origin seq).die.barriers = s.die.barriers
      ∧ (takeHeard s p type origin seq).die.windows = s.die.windows ∧ (takeHeard s p type origin seq).die.ctls = s.die.ctls
      ∧ (takeHeard s p type origin seq).die.lodges = s.die.lodges ∧ (takeHeard s p type origin seq).die.band = s.die.band
      ∧ (takeHeard s p type origin seq).die.reports = s.die.reports ∧ (takeHeard s p type origin seq).die.atTick = s.die.atTick := by
  unfold takeHeard; first | (simp; done) | ((try dsimp only); (repeat' split) <;> simp; done) | (refine ⟨?_, ?_, ?_, ?_, ?_, ?_, ?_, ?_, ?_, ?_, ?_, ?_, ?_, ?_, ?_, ?_, ?_, ?_, ?_, ?_, ?_, ?_, ?_, ?_, ?_, ?_, ?_⟩ <;> first | (simp; done) | ((try dsimp only); (repeat' split) <;> simp; done))

@[simp] theorem pushCtl_keeps (s : State) (body : CtlBody) (due : Nat) :
    (pushCtl s body due).pending = s.pending ∧ (pushCtl s body due).gate = s.gate ∧ (pushCtl s body due).mod = s.mod
      ∧ (pushCtl s body due).rows = s.rows ∧ (pushCtl s body due).dumps = s.dumps ∧ (pushCtl s body due).shed = s.shed
      ∧ (pushCtl s body due).replay = s.replay ∧ (pushCtl s body due).reg = s.reg ∧ (pushCtl s body due).just = s.just
      ∧ (pushCtl s body due).tiles = s.tiles ∧ (pushCtl s body due).pvs = s.pvs ∧ (pushCtl s body due).fns = s.fns
      ∧ (pushCtl s body due).out = s.out ∧ (pushCtl s body due).free = s.free ∧ (pushCtl s body due).sun = s.sun
      ∧ (pushCtl s body due).die.hbm = s.die.hbm ∧ (pushCtl s body due).die.oyKey = s.die.oyKey ∧ (pushCtl s body due).die.slices = s.die.slices
      ∧ (pushCtl s body due).die.transfers = s.die.transfers ∧ (pushCtl s body due).die.commit = s.die.commit
      ∧ (pushCtl s body due).die.barriers = s.die.barriers ∧ (pushCtl s body due).die.windows = s.die.windows
      ∧ (pushCtl s body due).die.ports = s.die.ports ∧ (pushCtl s body due).die.lodges = s.die.lodges
      ∧ (pushCtl s body due).die.band = s.die.band ∧ (pushCtl s body due).die.reports = s.die.reports
      ∧ (pushCtl s body due).die.atTick = s.die.atTick := by
  unfold pushCtl; first | (simp; done) | ((try dsimp only); (repeat' split) <;> simp; done) | (refine ⟨?_, ?_, ?_, ?_, ?_, ?_, ?_, ?_, ?_, ?_, ?_, ?_, ?_, ?_, ?_, ?_, ?_, ?_, ?_, ?_, ?_, ?_, ?_, ?_, ?_, ?_, ?_⟩ <;> first | (simp; done) | ((try dsimp only); (repeat' split) <;> simp; done))

@[simp] theorem recvCtl_keeps (s : State) (p : Nat) (c : W64 × W64) :
    (recvCtl s p c).pending = s.pending ∧ (recvCtl s p c).gate = s.gate ∧ (recvCtl s p c).mod = s.mod ∧ (recvCtl s p c).rows = s.rows
      ∧ (recvCtl s p c).dumps = s.dumps ∧ (recvCtl s p c).shed = s.shed ∧ (recvCtl s p c).replay = s.replay ∧ (recvCtl s p c).reg = s.reg
      ∧ (recvCtl s p c).just = s.just ∧ (recvCtl s p c).tiles = s.tiles ∧ (recvCtl s p c).pvs = s.pvs ∧ (recvCtl s p c).fns = s.fns
      ∧ (recvCtl s p c).free = s.free ∧ (recvCtl s p c).sun = s.sun ∧ (recvCtl s p c).die.hbm = s.die.hbm
      ∧ (recvCtl s p c).die.oyKey = s.die.oyKey ∧ (recvCtl s p c).die.slices = s.die.slices ∧ (recvCtl s p c).die.transfers = s.die.transfers
      ∧ (recvCtl s p c).die.commit = s.die.commit ∧ (recvCtl s p c).die.barriers = s.die.barriers ∧ (recvCtl s p c).die.windows = s.die.windows
      ∧ (recvCtl s p c).die.lodges = s.die.lodges ∧ (recvCtl s p c).die.band = s.die.band ∧ (recvCtl s p c).die.reports = s.die.reports
      ∧ (recvCtl s p c).die.atTick = s.die.atTick := by
  unfold recvCtl; first | (simp; done) | ((try dsimp only); (repeat' split) <;> simp; done) | (refine ⟨?_, ?_, ?_, ?_, ?_, ?_, ?_, ?_, ?_, ?_, ?_, ?_, ?_, ?_, ?_, ?_, ?_, ?_, ?_, ?_, ?_, ?_, ?_, ?_, ?_⟩ <;> first | (simp; done) | ((try dsimp only); (repeat' split) <;> simp; done))

@[simp] theorem recvFlit_keeps (p : Nat) (s : State) (f : Option Flit) :
    (recvFlit p s f).pending = s.pending ∧ (recvFlit p s f).gate = s.gate ∧ (recvFlit p s f).mod = s.mod ∧ (recvFlit p s f).rows = s.rows
      ∧ (recvFlit p s f).dumps = s.dumps ∧ (recvFlit p s f).shed = s.shed ∧ (recvFlit p s f).replay = s.replay ∧ (recvFlit p s f).just = s.just
      ∧ (recvFlit p s f).tiles = s.tiles ∧ (recvFlit p s f).pvs = s.pvs ∧ (recvFlit p s f).fns = s.fns ∧ (recvFlit p s f).free = s.free
      ∧ (recvFlit p s f).sun = s.sun ∧ (recvFlit p s f).die.hbm = s.die.hbm ∧ (recvFlit p s f).die.oyKey = s.die.oyKey
      ∧ (recvFlit p s f).die.slices = s.die.slices ∧ (recvFlit p s f).die.transfers = s.die.transfers
      ∧ (recvFlit p s f).die.commit = s.die.commit ∧ (recvFlit p s f).die.barriers = s.die.barriers
      ∧ (recvFlit p s f).die.windows = s.die.windows ∧ (recvFlit p s f).die.lodges = s.die.lodges ∧ (recvFlit p s f).die.band = s.die.band
      ∧ (recvFlit p s f).die.reports = s.die.reports ∧ (recvFlit p s f).die.atTick = s.die.atTick := by
  unfold recvFlit; first | (simp; done) | ((try dsimp only); (repeat' split) <;> simp; done) | (refine ⟨?_, ?_, ?_, ?_, ?_, ?_, ?_, ?_, ?_, ?_, ?_, ?_, ?_, ?_, ?_, ?_, ?_, ?_, ?_, ?_, ?_, ?_, ?_, ?_⟩ <;> first | (simp; done) | ((try dsimp only); (repeat' split) <;> simp; done))

@[simp] theorem noteLost_keeps (s : State) (p n : Nat) (b : Block) :
    (noteLost s p n b).pending = s.pending ∧ (noteLost s p n b).gate = s.gate ∧ (noteLost s p n b).mod = s.mod ∧ (noteLost s p n b).rows = s.rows
      ∧ (noteLost s p n b).dumps = s.dumps ∧ (noteLost s p n b).tiles = s.tiles ∧ (noteLost s p n b).pvs = s.pvs ∧ (noteLost s p n b).fns = s.fns
      ∧ (noteLost s p n b).free = s.free ∧ (noteLost s p n b).die.hbm = s.die.hbm ∧ (noteLost s p n b).die.oyKey = s.die.oyKey
      ∧ (noteLost s p n b).die.slices = s.die.slices ∧ (noteLost s p n b).die.transfers = s.die.transfers
      ∧ (noteLost s p n b).die.commit = s.die.commit ∧ (noteLost s p n b).die.barriers = s.die.barriers
      ∧ (noteLost s p n b).die.windows = s.die.windows ∧ (noteLost s p n b).die.ctls = s.die.ctls ∧ (noteLost s p n b).die.lodges = s.die.lodges
      ∧ (noteLost s p n b).die.band = s.die.band ∧ (noteLost s p n b).die.reports = s.die.reports ∧ (noteLost s p n b).die.atTick = s.die.atTick := by
  unfold noteLost; first | (simp; done) | ((try dsimp only); (repeat' split) <;> simp; done) | (refine ⟨?_, ?_, ?_, ?_, ?_, ?_, ?_, ?_, ?_, ?_, ?_, ?_, ?_, ?_, ?_, ?_, ?_, ?_, ?_, ?_, ?_⟩ <;> first | (simp; done) | ((try dsimp only); (repeat' split) <;> simp; done))

@[simp] theorem releaseLate_keeps (p : Nat) (s : State) (i : Nat) :
    (releaseLate p s i).pending = s.pending ∧ (releaseLate p s i).gate = s.gate ∧ (releaseLate p s i).mod = s.mod
      ∧ (releaseLate p s i).rows = s.rows ∧ (releaseLate p s i).dumps = s.dumps ∧ (releaseLate p s i).shed = s.shed
      ∧ (releaseLate p s i).replay = s.replay ∧ (releaseLate p s i).reg = s.reg ∧ (releaseLate p s i).just = s.just
      ∧ (releaseLate p s i).tiles = s.tiles ∧ (releaseLate p s i).pvs = s.pvs ∧ (releaseLate p s i).fns = s.fns
      ∧ (releaseLate p s i).free = s.free ∧ (releaseLate p s i).sun.ctr = s.sun.ctr ∧ (releaseLate p s i).sun.lags = s.sun.lags
      ∧ (releaseLate p s i).sun.tick = s.sun.tick ∧ (releaseLate p s i).sun.time = s.sun.time ∧ (releaseLate p s i).sun.freeze = s.sun.freeze
      ∧ (releaseLate p s i).sun.stopped = s.sun.stopped ∧ (releaseLate p s i).die.hbm = s.die.hbm ∧ (releaseLate p s i).die.oyKey = s.die.oyKey
      ∧ (releaseLate p s i).die.slices = s.die.slices ∧ (releaseLate p s i).die.transfers = s.die.transfers
      ∧ (releaseLate p s i).die.commit = s.die.commit ∧ (releaseLate p s i).die.barriers = s.die.barriers
      ∧ (releaseLate p s i).die.windows = s.die.windows ∧ (releaseLate p s i).die.ctls = s.die.ctls
      ∧ (releaseLate p s i).die.lodges = s.die.lodges ∧ (releaseLate p s i).die.band = s.die.band
      ∧ (releaseLate p s i).die.reports = s.die.reports ∧ (releaseLate p s i).die.atTick = s.die.atTick := by
  unfold releaseLate; first | (simp; done) | ((try dsimp only); (repeat' split) <;> simp; done) | (refine ⟨?_, ?_, ?_, ?_, ?_, ?_, ?_, ?_, ?_, ?_, ?_, ?_, ?_, ?_, ?_, ?_, ?_, ?_, ?_, ?_, ?_, ?_, ?_, ?_, ?_, ?_, ?_, ?_, ?_, ?_, ?_⟩ <;> first | (simp; done) | ((try dsimp only); (repeat' split) <;> simp; done))

@[simp] theorem acceptBlock_keeps (s : State) (p : Nat) (b : Block) :
    (acceptBlock s p b).pending = s.pending ∧ (acceptBlock s p b).gate = s.gate ∧ (acceptBlock s p b).mod = s.mod
      ∧ (acceptBlock s p b).rows = s.rows ∧ (acceptBlock s p b).dumps = s.dumps ∧ (acceptBlock s p b).tiles = s.tiles
      ∧ (acceptBlock s p b).pvs = s.pvs ∧ (acceptBlock s p b).fns = s.fns ∧ (acceptBlock s p b).free = s.free
      ∧ (acceptBlock s p b).die.hbm = s.die.hbm ∧ (acceptBlock s p b).die.oyKey = s.die.oyKey ∧ (acceptBlock s p b).die.slices = s.die.slices
      ∧ (acceptBlock s p b).die.transfers = s.die.transfers ∧ (acceptBlock s p b).die.commit = s.die.commit
      ∧ (acceptBlock s p b).die.barriers = s.die.barriers ∧ (acceptBlock s p b).die.windows = s.die.windows
      ∧ (acceptBlock s p b).die.lodges = s.die.lodges ∧ (acceptBlock s p b).die.band = s.die.band
      ∧ (acceptBlock s p b).die.reports = s.die.reports ∧ (acceptBlock s p b).die.atTick = s.die.atTick := by
  unfold acceptBlock; first | (simp; done) | ((try dsimp only); (repeat' split) <;> simp; done) | (refine ⟨?_, ?_, ?_, ?_, ?_, ?_, ?_, ?_, ?_, ?_, ?_, ?_, ?_, ?_, ?_, ?_, ?_, ?_, ?_, ?_⟩ <;> first | (simp; done) | ((try dsimp only); (repeat' split) <;> simp; done))

@[simp] theorem missBlock_keeps (s : State) (p : Nat) (b : Block) :
    (missBlock s p b).pending = s.pending ∧ (missBlock s p b).gate = s.gate ∧ (missBlock s p b).mod = s.mod ∧ (missBlock s p b).rows = s.rows
      ∧ (missBlock s p b).dumps = s.dumps ∧ (missBlock s p b).shed = s.shed ∧ (missBlock s p b).replay = s.replay ∧ (missBlock s p b).reg = s.reg
      ∧ (missBlock s p b).just = s.just ∧ (missBlock s p b).tiles = s.tiles ∧ (missBlock s p b).pvs = s.pvs ∧ (missBlock s p b).fns = s.fns
      ∧ (missBlock s p b).out = s.out ∧ (missBlock s p b).free = s.free ∧ (missBlock s p b).sun = s.sun ∧ (missBlock s p b).die.hbm = s.die.hbm
      ∧ (missBlock s p b).die.oyKey = s.die.oyKey ∧ (missBlock s p b).die.slices = s.die.slices
      ∧ (missBlock s p b).die.transfers = s.die.transfers ∧ (missBlock s p b).die.commit = s.die.commit
      ∧ (missBlock s p b).die.barriers = s.die.barriers ∧ (missBlock s p b).die.windows = s.die.windows ∧ (missBlock s p b).die.ctls = s.die.ctls
      ∧ (missBlock s p b).die.lodges = s.die.lodges ∧ (missBlock s p b).die.band = s.die.band ∧ (missBlock s p b).die.reports = s.die.reports
      ∧ (missBlock s p b).die.atTick = s.die.atTick := by
  unfold missBlock; first | (simp; done) | ((try dsimp only); (repeat' split) <;> simp; done) | (refine ⟨?_, ?_, ?_, ?_, ?_, ?_, ?_, ?_, ?_, ?_, ?_, ?_, ?_, ?_, ?_, ?_, ?_, ?_, ?_, ?_, ?_, ?_, ?_, ?_, ?_, ?_, ?_⟩ <;> first | (simp; done) | ((try dsimp only); (repeat' split) <;> simp; done))

@[simp] theorem skipBlock_keeps (s : State) (p : Nat) (b : Block) :
    (skipBlock s p b).pending = s.pending ∧ (skipBlock s p b).gate = s.gate ∧ (skipBlock s p b).mod = s.mod ∧ (skipBlock s p b).rows = s.rows
      ∧ (skipBlock s p b).dumps = s.dumps ∧ (skipBlock s p b).shed = s.shed ∧ (skipBlock s p b).replay = s.replay ∧ (skipBlock s p b).reg = s.reg
      ∧ (skipBlock s p b).just = s.just ∧ (skipBlock s p b).tiles = s.tiles ∧ (skipBlock s p b).pvs = s.pvs ∧ (skipBlock s p b).fns = s.fns
      ∧ (skipBlock s p b).out = s.out ∧ (skipBlock s p b).free = s.free ∧ (skipBlock s p b).sun = s.sun ∧ (skipBlock s p b).die.hbm = s.die.hbm
      ∧ (skipBlock s p b).die.oyKey = s.die.oyKey ∧ (skipBlock s p b).die.slices = s.die.slices
      ∧ (skipBlock s p b).die.transfers = s.die.transfers ∧ (skipBlock s p b).die.commit = s.die.commit
      ∧ (skipBlock s p b).die.barriers = s.die.barriers ∧ (skipBlock s p b).die.windows = s.die.windows ∧ (skipBlock s p b).die.ctls = s.die.ctls
      ∧ (skipBlock s p b).die.lodges = s.die.lodges ∧ (skipBlock s p b).die.band = s.die.band ∧ (skipBlock s p b).die.reports = s.die.reports
      ∧ (skipBlock s p b).die.atTick = s.die.atTick := by
  unfold skipBlock; first | (simp; done) | ((try dsimp only); (repeat' split) <;> simp; done) | (refine ⟨?_, ?_, ?_, ?_, ?_, ?_, ?_, ?_, ?_, ?_, ?_, ?_, ?_, ?_, ?_, ?_, ?_, ?_, ?_, ?_, ?_, ?_, ?_, ?_, ?_, ?_, ?_⟩ <;> first | (simp; done) | ((try dsimp only); (repeat' split) <;> simp; done))

@[simp] theorem failBlock_keeps (s : State) (p : Nat) (b : Block) :
    (failBlock s p b).pending = s.pending ∧ (failBlock s p b).gate = s.gate ∧ (failBlock s p b).mod = s.mod ∧ (failBlock s p b).rows = s.rows
      ∧ (failBlock s p b).dumps = s.dumps ∧ (failBlock s p b).replay = s.replay ∧ (failBlock s p b).tiles = s.tiles
      ∧ (failBlock s p b).pvs = s.pvs ∧ (failBlock s p b).fns = s.fns ∧ (failBlock s p b).free = s.free ∧ (failBlock s p b).die.hbm = s.die.hbm
      ∧ (failBlock s p b).die.oyKey = s.die.oyKey ∧ (failBlock s p b).die.slices = s.die.slices
      ∧ (failBlock s p b).die.transfers = s.die.transfers ∧ (failBlock s p b).die.commit = s.die.commit
      ∧ (failBlock s p b).die.barriers = s.die.barriers ∧ (failBlock s p b).die.windows = s.die.windows ∧ (failBlock s p b).die.ctls = s.die.ctls
      ∧ (failBlock s p b).die.lodges = s.die.lodges ∧ (failBlock s p b).die.band = s.die.band ∧ (failBlock s p b).die.reports = s.die.reports
      ∧ (failBlock s p b).die.atTick = s.die.atTick := by
  unfold failBlock; first | (simp; done) | ((try dsimp only); (repeat' split) <;> simp; done) | (refine ⟨?_, ?_, ?_, ?_, ?_, ?_, ?_, ?_, ?_, ?_, ?_, ?_, ?_, ?_, ?_, ?_, ?_, ?_, ?_, ?_, ?_, ?_⟩ <;> first | (simp; done) | ((try dsimp only); (repeat' split) <;> simp; done))

@[simp] theorem blockReceive_keeps (s : State) (p : Nat) (sent raw : List Byte) :
    (blockReceive s p sent raw).pending = s.pending ∧ (blockReceive s p sent raw).gate = s.gate ∧ (blockReceive s p sent raw).mod = s.mod
      ∧ (blockReceive s p sent raw).rows = s.rows ∧ (blockReceive s p sent raw).dumps = s.dumps ∧ (blockReceive s p sent raw).tiles = s.tiles
      ∧ (blockReceive s p sent raw).pvs = s.pvs ∧ (blockReceive s p sent raw).fns = s.fns ∧ (blockReceive s p sent raw).free = s.free
      ∧ (blockReceive s p sent raw).die.hbm = s.die.hbm ∧ (blockReceive s p sent raw).die.oyKey = s.die.oyKey
      ∧ (blockReceive s p sent raw).die.slices = s.die.slices ∧ (blockReceive s p sent raw).die.transfers = s.die.transfers
      ∧ (blockReceive s p sent raw).die.commit = s.die.commit ∧ (blockReceive s p sent raw).die.barriers = s.die.barriers
      ∧ (blockReceive s p sent raw).die.windows = s.die.windows ∧ (blockReceive s p sent raw).die.lodges = s.die.lodges
      ∧ (blockReceive s p sent raw).die.band = s.die.band ∧ (blockReceive s p sent raw).die.reports = s.die.reports
      ∧ (blockReceive s p sent raw).die.atTick = s.die.atTick := by
  unfold blockReceive; first | (simp; done) | ((try dsimp only); (repeat' split) <;> simp; done) | (refine ⟨?_, ?_, ?_, ?_, ?_, ?_, ?_, ?_, ?_, ?_, ?_, ?_, ?_, ?_, ?_, ?_, ?_, ?_, ?_, ?_⟩ <;> first | (simp; done) | ((try dsimp only); (repeat' split) <;> simp; done))

@[simp] theorem blockTransmit_keeps (s : State) (p : Nat) :
    (blockTransmit s p).pending = s.pending ∧ (blockTransmit s p).gate = s.gate ∧ (blockTransmit s p).mod = s.mod
      ∧ (blockTransmit s p).rows = s.rows ∧ (blockTransmit s p).dumps = s.dumps ∧ (blockTransmit s p).shed = s.shed
      ∧ (blockTransmit s p).replay = s.replay ∧ (blockTransmit s p).just = s.just ∧ (blockTransmit s p).tiles = s.tiles
      ∧ (blockTransmit s p).pvs = s.pvs ∧ (blockTransmit s p).fns = s.fns ∧ (blockTransmit s p).free = s.free ∧ (blockTransmit s p).sun = s.sun
      ∧ (blockTransmit s p).die.hbm = s.die.hbm ∧ (blockTransmit s p).die.oyKey = s.die.oyKey ∧ (blockTransmit s p).die.slices = s.die.slices
      ∧ (blockTransmit s p).die.transfers = s.die.transfers ∧ (blockTransmit s p).die.commit = s.die.commit
      ∧ (blockTransmit s p).die.barriers = s.die.barriers ∧ (blockTransmit s p).die.windows = s.die.windows
      ∧ (blockTransmit s p).die.ctls = s.die.ctls ∧ (blockTransmit s p).die.lodges = s.die.lodges ∧ (blockTransmit s p).die.band = s.die.band
      ∧ (blockTransmit s p).die.reports = s.die.reports ∧ (blockTransmit s p).die.atTick = s.die.atTick := by
  unfold blockTransmit; first | (simp; done) | ((try dsimp only); (repeat' split) <;> simp; done) | (refine ⟨?_, ?_, ?_, ?_, ?_, ?_, ?_, ?_, ?_, ?_, ?_, ?_, ?_, ?_, ?_, ?_, ?_, ?_, ?_, ?_, ?_, ?_, ?_, ?_, ?_⟩ <;> first | (simp; done) | ((try dsimp only); (repeat' split) <;> simp; done))

@[simp] theorem trainPort_keeps (s : State) (p : Nat) (full : Bool) :
    (trainPort s p full).pending = s.pending ∧ (trainPort s p full).gate = s.gate ∧ (trainPort s p full).mod = s.mod
      ∧ (trainPort s p full).rows = s.rows ∧ (trainPort s p full).dumps = s.dumps ∧ (trainPort s p full).shed = s.shed
      ∧ (trainPort s p full).replay = s.replay ∧ (trainPort s p full).tiles = s.tiles ∧ (trainPort s p full).pvs = s.pvs
      ∧ (trainPort s p full).fns = s.fns ∧ (trainPort s p full).out = s.out ∧ (trainPort s p full).free = s.free
      ∧ (trainPort s p full).sun = s.sun ∧ (trainPort s p full).die.hbm = s.die.hbm ∧ (trainPort s p full).die.oyKey = s.die.oyKey
      ∧ (trainPort s p full).die.slices = s.die.slices ∧ (trainPort s p full).die.transfers = s.die.transfers
      ∧ (trainPort s p full).die.commit = s.die.commit ∧ (trainPort s p full).die.barriers = s.die.barriers
      ∧ (trainPort s p full).die.windows = s.die.windows ∧ (trainPort s p full).die.ctls = s.die.ctls
      ∧ (trainPort s p full).die.lodges = s.die.lodges ∧ (trainPort s p full).die.band = s.die.band
      ∧ (trainPort s p full).die.reports = s.die.reports ∧ (trainPort s p full).die.atTick = s.die.atTick := by
  unfold trainPort; first | (simp; done) | ((try dsimp only); (repeat' split) <;> simp; done) | (refine ⟨?_, ?_, ?_, ?_, ?_, ?_, ?_, ?_, ?_, ?_, ?_, ?_, ?_, ?_, ?_, ?_, ?_, ?_, ?_, ?_, ?_, ?_, ?_, ?_, ?_⟩ <;> first | (simp; done) | ((try dsimp only); (repeat' split) <;> simp; done))

@[simp] theorem signalReturn_keeps (s : State) (p : Nat) :
    (signalReturn s p).pending = s.pending ∧ (signalReturn s p).gate = s.gate ∧ (signalReturn s p).mod = s.mod ∧ (signalReturn s p).rows = s.rows
      ∧ (signalReturn s p).dumps = s.dumps ∧ (signalReturn s p).shed = s.shed ∧ (signalReturn s p).replay = s.replay
      ∧ (signalReturn s p).tiles = s.tiles ∧ (signalReturn s p).pvs = s.pvs ∧ (signalReturn s p).fns = s.fns ∧ (signalReturn s p).out = s.out
      ∧ (signalReturn s p).free = s.free ∧ (signalReturn s p).sun = s.sun ∧ (signalReturn s p).die.hbm = s.die.hbm
      ∧ (signalReturn s p).die.oyKey = s.die.oyKey ∧ (signalReturn s p).die.slices = s.die.slices
      ∧ (signalReturn s p).die.transfers = s.die.transfers ∧ (signalReturn s p).die.commit = s.die.commit
      ∧ (signalReturn s p).die.barriers = s.die.barriers ∧ (signalReturn s p).die.windows = s.die.windows
      ∧ (signalReturn s p).die.ctls = s.die.ctls ∧ (signalReturn s p).die.lodges = s.die.lodges ∧ (signalReturn s p).die.band = s.die.band
      ∧ (signalReturn s p).die.reports = s.die.reports ∧ (signalReturn s p).die.atTick = s.die.atTick := by
  unfold signalReturn; first | (simp; done) | ((try dsimp only); (repeat' split) <;> simp; done) | (refine ⟨?_, ?_, ?_, ?_, ?_, ?_, ?_, ?_, ?_, ?_, ?_, ?_, ?_, ?_, ?_, ?_, ?_, ?_, ?_, ?_, ?_, ?_, ?_, ?_, ?_⟩ <;> first | (simp; done) | ((try dsimp only); (repeat' split) <;> simp; done))

@[simp] theorem trainStep_keeps (s : State) (p : Nat) :
    (trainStep s p).pending = s.pending ∧ (trainStep s p).gate = s.gate ∧ (trainStep s p).mod = s.mod ∧ (trainStep s p).rows = s.rows
      ∧ (trainStep s p).dumps = s.dumps ∧ (trainStep s p).shed = s.shed ∧ (trainStep s p).replay = s.replay ∧ (trainStep s p).just = s.just
      ∧ (trainStep s p).tiles = s.tiles ∧ (trainStep s p).pvs = s.pvs ∧ (trainStep s p).fns = s.fns ∧ (trainStep s p).out = s.out
      ∧ (trainStep s p).free = s.free ∧ (trainStep s p).sun = s.sun ∧ (trainStep s p).die = s.die := by
  unfold trainStep; first | (simp; done) | ((try dsimp only); (repeat' split) <;> simp; done) | (refine ⟨?_, ?_, ?_, ?_, ?_, ?_, ?_, ?_, ?_, ?_, ?_, ?_, ?_, ?_, ?_⟩ <;> first | (simp; done) | ((try dsimp only); (repeat' split) <;> simp; done))

@[simp] theorem portUp_keeps (s : State) (p id peerPort peerModule lanes : Nat) :
    (portUp s p id peerPort peerModule lanes).pending = s.pending ∧ (portUp s p id peerPort peerModule lanes).gate = s.gate
      ∧ (portUp s p id peerPort peerModule lanes).mod = s.mod ∧ (portUp s p id peerPort peerModule lanes).rows = s.rows
      ∧ (portUp s p id peerPort peerModule lanes).dumps = s.dumps ∧ (portUp s p id peerPort peerModule lanes).replay = s.replay
      ∧ (portUp s p id peerPort peerModule lanes).tiles = s.tiles ∧ (portUp s p id peerPort peerModule lanes).pvs = s.pvs
      ∧ (portUp s p id peerPort peerModule lanes).fns = s.fns ∧ (portUp s p id peerPort peerModule lanes).out = s.out
      ∧ (portUp s p id peerPort peerModule lanes).free = s.free ∧ (portUp s p id peerPort peerModule lanes).sun = s.sun
      ∧ (portUp s p id peerPort peerModule lanes).die.hbm = s.die.hbm ∧ (portUp s p id peerPort peerModule lanes).die.oyKey = s.die.oyKey
      ∧ (portUp s p id peerPort peerModule lanes).die.slices = s.die.slices
      ∧ (portUp s p id peerPort peerModule lanes).die.transfers = s.die.transfers
      ∧ (portUp s p id peerPort peerModule lanes).die.commit = s.die.commit
      ∧ (portUp s p id peerPort peerModule lanes).die.barriers = s.die.barriers
      ∧ (portUp s p id peerPort peerModule lanes).die.windows = s.die.windows ∧ (portUp s p id peerPort peerModule lanes).die.ctls = s.die.ctls
      ∧ (portUp s p id peerPort peerModule lanes).die.lodges = s.die.lodges ∧ (portUp s p id peerPort peerModule lanes).die.band = s.die.band
      ∧ (portUp s p id peerPort peerModule lanes).die.reports = s.die.reports
      ∧ (portUp s p id peerPort peerModule lanes).die.atTick = s.die.atTick := by
  unfold portUp; first | (simp; done) | ((try dsimp only); (repeat' split) <;> simp; done) | (refine ⟨?_, ?_, ?_, ?_, ?_, ?_, ?_, ?_, ?_, ?_, ?_, ?_, ?_, ?_, ?_, ?_, ?_, ?_, ?_, ?_, ?_, ?_, ?_, ?_⟩ <;> first | (simp; done) | ((try dsimp only); (repeat' split) <;> simp; done))

@[simp] theorem trained_keeps (s : State) (p : Nat) (ok : Bool) (serial : W64) (peerPort peerModule lanes : Nat) :
    (trained s p ok serial peerPort peerModule lanes).pending = s.pending ∧ (trained s p ok serial peerPort peerModule lanes).gate = s.gate
      ∧ (trained s p ok serial peerPort peerModule lanes).mod = s.mod ∧ (trained s p ok serial peerPort peerModule lanes).rows = s.rows
      ∧ (trained s p ok serial peerPort peerModule lanes).dumps = s.dumps ∧ (trained s p ok serial peerPort peerModule lanes).replay = s.replay
      ∧ (trained s p ok serial peerPort peerModule lanes).tiles = s.tiles ∧ (trained s p ok serial peerPort peerModule lanes).pvs = s.pvs
      ∧ (trained s p ok serial peerPort peerModule lanes).fns = s.fns ∧ (trained s p ok serial peerPort peerModule lanes).out = s.out
      ∧ (trained s p ok serial peerPort peerModule lanes).free = s.free ∧ (trained s p ok serial peerPort peerModule lanes).sun = s.sun
      ∧ (trained s p ok serial peerPort peerModule lanes).die.hbm = s.die.hbm
      ∧ (trained s p ok serial peerPort peerModule lanes).die.oyKey = s.die.oyKey
      ∧ (trained s p ok serial peerPort peerModule lanes).die.slices = s.die.slices
      ∧ (trained s p ok serial peerPort peerModule lanes).die.transfers = s.die.transfers
      ∧ (trained s p ok serial peerPort peerModule lanes).die.commit = s.die.commit
      ∧ (trained s p ok serial peerPort peerModule lanes).die.barriers = s.die.barriers
      ∧ (trained s p ok serial peerPort peerModule lanes).die.windows = s.die.windows
      ∧ (trained s p ok serial peerPort peerModule lanes).die.ctls = s.die.ctls
      ∧ (trained s p ok serial peerPort peerModule lanes).die.lodges = s.die.lodges
      ∧ (trained s p ok serial peerPort peerModule lanes).die.band = s.die.band
      ∧ (trained s p ok serial peerPort peerModule lanes).die.reports = s.die.reports
      ∧ (trained s p ok serial peerPort peerModule lanes).die.atTick = s.die.atTick := by
  unfold trained; first | (simp; done) | ((try dsimp only); (repeat' split) <;> simp; done) | (refine ⟨?_, ?_, ?_, ?_, ?_, ?_, ?_, ?_, ?_, ?_, ?_, ?_, ?_, ?_, ?_, ?_, ?_, ?_, ?_, ?_, ?_, ?_, ?_, ?_⟩ <;> first | (simp; done) | ((try dsimp only); (repeat' split) <;> simp; done))

@[simp] theorem setRun_keeps (s : State) (k : Nat) (run : Bool) :
    (setRun s k run).pending = s.pending ∧ (setRun s k run).gate = s.gate ∧ (setRun s k run).mod = s.mod ∧ (setRun s k run).rows = s.rows
      ∧ (setRun s k run).dumps = s.dumps ∧ (setRun s k run).shed = s.shed ∧ (setRun s k run).replay = s.replay ∧ (setRun s k run).reg = s.reg
      ∧ (setRun s k run).just = s.just ∧ (setRun s k run).tiles = s.tiles ∧ (setRun s k run).pvs = s.pvs ∧ (setRun s k run).fns = s.fns
      ∧ (setRun s k run).out = s.out ∧ (setRun s k run).free = s.free ∧ (setRun s k run).sun = s.sun ∧ (setRun s k run).die.hbm = s.die.hbm
      ∧ (setRun s k run).die.oyKey = s.die.oyKey ∧ (setRun s k run).die.slices = s.die.slices ∧ (setRun s k run).die.transfers = s.die.transfers
      ∧ (setRun s k run).die.commit = s.die.commit ∧ (setRun s k run).die.barriers = s.die.barriers
      ∧ (setRun s k run).die.windows = s.die.windows ∧ (setRun s k run).die.ctls = s.die.ctls ∧ (setRun s k run).die.ports = s.die.ports
      ∧ (setRun s k run).die.band = s.die.band ∧ (setRun s k run).die.reports = s.die.reports ∧ (setRun s k run).die.atTick = s.die.atTick := by
  unfold setRun; first | (simp; done) | ((try dsimp only); (repeat' split) <;> simp; done) | (refine ⟨?_, ?_, ?_, ?_, ?_, ?_, ?_, ?_, ?_, ?_, ?_, ?_, ?_, ?_, ?_, ?_, ?_, ?_, ?_, ?_, ?_, ?_, ?_, ?_, ?_, ?_, ?_⟩ <;> first | (simp; done) | ((try dsimp only); (repeat' split) <;> simp; done))

@[simp] theorem setBudget_keeps (s : State) (n : Nat) (z : Int) :
    (setBudget s n z).pending = s.pending ∧ (setBudget s n z).gate = s.gate ∧ (setBudget s n z).mod = s.mod ∧ (setBudget s n z).rows = s.rows
      ∧ (setBudget s n z).dumps = s.dumps ∧ (setBudget s n z).shed = s.shed ∧ (setBudget s n z).replay = s.replay
      ∧ (setBudget s n z).just = s.just ∧ (setBudget s n z).tiles = s.tiles ∧ (setBudget s n z).pvs = s.pvs ∧ (setBudget s n z).fns = s.fns
      ∧ (setBudget s n z).out = s.out ∧ (setBudget s n z).free = s.free ∧ (setBudget s n z).sun = s.sun ∧ (setBudget s n z).die = s.die := by
  unfold setBudget; first | (simp; done) | ((try dsimp only); (repeat' split) <;> simp; done) | (refine ⟨?_, ?_, ?_, ?_, ?_, ?_, ?_, ?_, ?_, ?_, ?_, ?_, ?_, ?_, ?_⟩ <;> first | (simp; done) | ((try dsimp only); (repeat' split) <;> simp; done))

@[simp] theorem chargePrompt_keeps (s : State) (n tokens : Nat) :
    (chargePrompt s n tokens).pending = s.pending ∧ (chargePrompt s n tokens).gate = s.gate ∧ (chargePrompt s n tokens).mod = s.mod
      ∧ (chargePrompt s n tokens).rows = s.rows ∧ (chargePrompt s n tokens).dumps = s.dumps ∧ (chargePrompt s n tokens).shed = s.shed
      ∧ (chargePrompt s n tokens).replay = s.replay ∧ (chargePrompt s n tokens).just = s.just ∧ (chargePrompt s n tokens).tiles = s.tiles
      ∧ (chargePrompt s n tokens).pvs = s.pvs ∧ (chargePrompt s n tokens).fns = s.fns ∧ (chargePrompt s n tokens).out = s.out
      ∧ (chargePrompt s n tokens).free = s.free ∧ (chargePrompt s n tokens).sun = s.sun ∧ (chargePrompt s n tokens).die = s.die := by
  unfold chargePrompt; first | (simp; done) | ((try dsimp only); (repeat' split) <;> simp; done) | (refine ⟨?_, ?_, ?_, ?_, ?_, ?_, ?_, ?_, ?_, ?_, ?_, ?_, ?_, ?_, ?_⟩ <;> first | (simp; done) | ((try dsimp only); (repeat' split) <;> simp; done))

@[simp] theorem chargeEmitted_keeps (s : State) (n tokens : Nat) :
    (chargeEmitted s n tokens).pending = s.pending ∧ (chargeEmitted s n tokens).gate = s.gate ∧ (chargeEmitted s n tokens).mod = s.mod
      ∧ (chargeEmitted s n tokens).rows = s.rows ∧ (chargeEmitted s n tokens).dumps = s.dumps ∧ (chargeEmitted s n tokens).shed = s.shed
      ∧ (chargeEmitted s n tokens).replay = s.replay ∧ (chargeEmitted s n tokens).just = s.just ∧ (chargeEmitted s n tokens).tiles = s.tiles
      ∧ (chargeEmitted s n tokens).pvs = s.pvs ∧ (chargeEmitted s n tokens).fns = s.fns ∧ (chargeEmitted s n tokens).out = s.out
      ∧ (chargeEmitted s n tokens).free = s.free ∧ (chargeEmitted s n tokens).sun = s.sun ∧ (chargeEmitted s n tokens).die = s.die := by
  unfold chargeEmitted; first | (simp; done) | ((try dsimp only); (repeat' split) <;> simp; done) | (refine ⟨?_, ?_, ?_, ?_, ?_, ?_, ?_, ?_, ?_, ?_, ?_, ?_, ?_, ?_, ?_⟩ <;> first | (simp; done) | ((try dsimp only); (repeat' split) <;> simp; done))

@[simp] theorem ringWrite_keeps (s : State) (q : Nat) (r : Rings) (ws : List W64) :
    (ringWrite s q r ws).pending = s.pending ∧ (ringWrite s q r ws).gate = s.gate ∧ (ringWrite s q r ws).mod = s.mod
      ∧ (ringWrite s q r ws).rows = s.rows ∧ (ringWrite s q r ws).dumps = s.dumps ∧ (ringWrite s q r ws).shed = s.shed
      ∧ (ringWrite s q r ws).replay = s.replay ∧ (ringWrite s q r ws).reg = s.reg ∧ (ringWrite s q r ws).just = s.just
      ∧ (ringWrite s q r ws).tiles = s.tiles ∧ (ringWrite s q r ws).free = s.free ∧ (ringWrite s q r ws).sun = s.sun
      ∧ (ringWrite s q r ws).die = s.die := by
  unfold ringWrite; first | (simp; done) | ((try dsimp only); (repeat' split) <;> simp; done) | (refine ⟨?_, ?_, ?_, ?_, ?_, ?_, ?_, ?_, ?_, ?_, ?_, ?_, ?_⟩ <;> first | (simp; done) | ((try dsimp only); (repeat' split) <;> simp; done))

@[simp] theorem putRecord_keeps (s : State) (q : Nat) (ws : List W64) :
    (putRecord s q ws).1.pending = s.pending ∧ (putRecord s q ws).1.gate = s.gate ∧ (putRecord s q ws).1.mod = s.mod
      ∧ (putRecord s q ws).1.rows = s.rows ∧ (putRecord s q ws).1.dumps = s.dumps ∧ (putRecord s q ws).1.shed = s.shed
      ∧ (putRecord s q ws).1.replay = s.replay ∧ (putRecord s q ws).1.reg = s.reg ∧ (putRecord s q ws).1.just = s.just
      ∧ (putRecord s q ws).1.tiles = s.tiles ∧ (putRecord s q ws).1.free = s.free ∧ (putRecord s q ws).1.sun = s.sun
      ∧ (putRecord s q ws).1.die = s.die := by
  unfold putRecord; first | (simp; done) | ((try dsimp only); (repeat' split) <;> simp; done) | (refine ⟨?_, ?_, ?_, ?_, ?_, ?_, ?_, ?_, ?_, ?_, ?_, ?_, ?_⟩ <;> first | (simp; done) | ((try dsimp only); (repeat' split) <;> simp; done))

@[simp] theorem finish_keeps (s : State) (q : Nat) (r : Req) (status : Nat) :
    (finish s q r status).1.pending = s.pending ∧ (finish s q r status).1.gate = s.gate ∧ (finish s q r status).1.mod = s.mod
      ∧ (finish s q r status).1.rows = s.rows ∧ (finish s q r status).1.dumps = s.dumps ∧ (finish s q r status).1.shed = s.shed
      ∧ (finish s q r status).1.replay = s.replay ∧ (finish s q r status).1.reg = s.reg ∧ (finish s q r status).1.just = s.just
      ∧ (finish s q r status).1.tiles = s.tiles ∧ (finish s q r status).1.free = s.free ∧ (finish s q r status).1.sun = s.sun
      ∧ (finish s q r status).1.die = s.die := by
  unfold finish; first | (simp; done) | ((try dsimp only); (repeat' split) <;> simp; done) | (refine ⟨?_, ?_, ?_, ?_, ?_, ?_, ?_, ?_, ?_, ?_, ?_, ?_, ?_⟩ <;> first | (simp; done) | ((try dsimp only); (repeat' split) <;> simp; done))

@[simp] theorem State.modPool_keeps (s : State) (q : Nat) (f : Pool → Pool) :
    (State.modPool s q f).pending = s.pending ∧ (State.modPool s q f).gate = s.gate ∧ (State.modPool s q f).mod = s.mod
      ∧ (State.modPool s q f).rows = s.rows ∧ (State.modPool s q f).dumps = s.dumps ∧ (State.modPool s q f).shed = s.shed
      ∧ (State.modPool s q f).replay = s.replay ∧ (State.modPool s q f).reg = s.reg ∧ (State.modPool s q f).just = s.just
      ∧ (State.modPool s q f).tiles = s.tiles ∧ (State.modPool s q f).fns = s.fns ∧ (State.modPool s q f).out = s.out
      ∧ (State.modPool s q f).free = s.free ∧ (State.modPool s q f).sun = s.sun ∧ (State.modPool s q f).die = s.die := by
  unfold State.modPool; first | (simp; done) | ((try dsimp only); (repeat' split) <;> simp; done) | (refine ⟨?_, ?_, ?_, ?_, ?_, ?_, ?_, ?_, ?_, ?_, ?_, ?_, ?_, ?_, ?_⟩ <;> first | (simp; done) | ((try dsimp only); (repeat' split) <;> simp; done))

@[simp] theorem unpin_keeps (s : State) (q tag : Nat) (aborted : Bool) :
    (unpin s q tag aborted).pending = s.pending ∧ (unpin s q tag aborted).gate = s.gate ∧ (unpin s q tag aborted).mod = s.mod
      ∧ (unpin s q tag aborted).rows = s.rows ∧ (unpin s q tag aborted).dumps = s.dumps ∧ (unpin s q tag aborted).shed = s.shed
      ∧ (unpin s q tag aborted).replay = s.replay ∧ (unpin s q tag aborted).reg = s.reg ∧ (unpin s q tag aborted).just = s.just
      ∧ (unpin s q tag aborted).tiles = s.tiles ∧ (unpin s q tag aborted).fns = s.fns ∧ (unpin s q tag aborted).free = s.free
      ∧ (unpin s q tag aborted).sun = s.sun ∧ (unpin s q tag aborted).die.hbm = s.die.hbm ∧ (unpin s q tag aborted).die.oyKey = s.die.oyKey
      ∧ (unpin s q tag aborted).die.slices = s.die.slices ∧ (unpin s q tag aborted).die.transfers = s.die.transfers
      ∧ (unpin s q tag aborted).die.commit = s.die.commit ∧ (unpin s q tag aborted).die.barriers = s.die.barriers
      ∧ (unpin s q tag aborted).die.windows = s.die.windows ∧ (unpin s q tag aborted).die.ctls = s.die.ctls
      ∧ (unpin s q tag aborted).die.lodges = s.die.lodges ∧ (unpin s q tag aborted).die.band = s.die.band
      ∧ (unpin s q tag aborted).die.reports = s.die.reports ∧ (unpin s q tag aborted).die.atTick = s.die.atTick := by
  unfold unpin; first | (simp; done) | ((try dsimp only); (repeat' split) <;> simp; done) | (refine ⟨?_, ?_, ?_, ?_, ?_, ?_, ?_, ?_, ?_, ?_, ?_, ?_, ?_, ?_, ?_, ?_, ?_, ?_, ?_, ?_, ?_, ?_, ?_, ?_, ?_⟩ <;> first | (simp; done) | ((try dsimp only); (repeat' split) <;> simp; done))

@[simp] theorem releaseSlots_keeps (s : State) (q : Nat) (r : Req) :
    (releaseSlots s q r).pending = s.pending ∧ (releaseSlots s q r).gate = s.gate ∧ (releaseSlots s q r).mod = s.mod
      ∧ (releaseSlots s q r).rows = s.rows ∧ (releaseSlots s q r).dumps = s.dumps ∧ (releaseSlots s q r).shed = s.shed
      ∧ (releaseSlots s q r).replay = s.replay ∧ (releaseSlots s q r).just = s.just ∧ (releaseSlots s q r).tiles = s.tiles
      ∧ (releaseSlots s q r).pvs = s.pvs ∧ (releaseSlots s q r).fns = s.fns ∧ (releaseSlots s q r).free = s.free
      ∧ (releaseSlots s q r).sun = s.sun ∧ (releaseSlots s q r).die.hbm = s.die.hbm ∧ (releaseSlots s q r).die.oyKey = s.die.oyKey
      ∧ (releaseSlots s q r).die.slices = s.die.slices ∧ (releaseSlots s q r).die.transfers = s.die.transfers
      ∧ (releaseSlots s q r).die.commit = s.die.commit ∧ (releaseSlots s q r).die.barriers = s.die.barriers
      ∧ (releaseSlots s q r).die.windows = s.die.windows ∧ (releaseSlots s q r).die.ctls = s.die.ctls
      ∧ (releaseSlots s q r).die.reports = s.die.reports ∧ (releaseSlots s q r).die.atTick = s.die.atTick := by
  unfold releaseSlots; first | (simp; done) | ((try dsimp only); (repeat' split) <;> simp; done) | (refine ⟨?_, ?_, ?_, ?_, ?_, ?_, ?_, ?_, ?_, ?_, ?_, ?_, ?_, ?_, ?_, ?_, ?_, ?_, ?_, ?_, ?_, ?_, ?_⟩ <;> first | (simp; done) | ((try dsimp only); (repeat' split) <;> simp; done))

@[simp] theorem endRequests_keeps (s : State) (q status : Nat) :
    (endRequests s q status).pending = s.pending ∧ (endRequests s q status).gate = s.gate ∧ (endRequests s q status).mod = s.mod
      ∧ (endRequests s q status).rows = s.rows ∧ (endRequests s q status).dumps = s.dumps ∧ (endRequests s q status).shed = s.shed
      ∧ (endRequests s q status).replay = s.replay ∧ (endRequests s q status).just = s.just ∧ (endRequests s q status).tiles = s.tiles
      ∧ (endRequests s q status).free = s.free ∧ (endRequests s q status).sun = s.sun := by
  unfold endRequests; first | (simp; done) | ((try dsimp only); (repeat' split) <;> simp; done) | (refine ⟨?_, ?_, ?_, ?_, ?_, ?_, ?_, ?_, ?_, ?_, ?_⟩ <;> first | (simp; done) | ((try dsimp only); (repeat' split) <;> simp; done))

@[simp] theorem freePvBarriers_keeps (s : State) (q : Nat) :
    (freePvBarriers s q).pending = s.pending ∧ (freePvBarriers s q).gate = s.gate ∧ (freePvBarriers s q).mod = s.mod
      ∧ (freePvBarriers s q).rows = s.rows ∧ (freePvBarriers s q).dumps = s.dumps ∧ (freePvBarriers s q).shed = s.shed
      ∧ (freePvBarriers s q).replay = s.replay ∧ (freePvBarriers s q).reg = s.reg ∧ (freePvBarriers s q).just = s.just
      ∧ (freePvBarriers s q).tiles = s.tiles ∧ (freePvBarriers s q).fns = s.fns ∧ (freePvBarriers s q).out = s.out
      ∧ (freePvBarriers s q).free = s.free ∧ (freePvBarriers s q).sun = s.sun ∧ (freePvBarriers s q).die.hbm = s.die.hbm
      ∧ (freePvBarriers s q).die.oyKey = s.die.oyKey ∧ (freePvBarriers s q).die.slices = s.die.slices
      ∧ (freePvBarriers s q).die.transfers = s.die.transfers ∧ (freePvBarriers s q).die.commit = s.die.commit
      ∧ (freePvBarriers s q).die.windows = s.die.windows ∧ (freePvBarriers s q).die.ctls = s.die.ctls
      ∧ (freePvBarriers s q).die.ports = s.die.ports ∧ (freePvBarriers s q).die.lodges = s.die.lodges
      ∧ (freePvBarriers s q).die.band = s.die.band ∧ (freePvBarriers s q).die.reports = s.die.reports
      ∧ (freePvBarriers s q).die.atTick = s.die.atTick := by
  unfold freePvBarriers; first | (simp; done) | ((try dsimp only); (repeat' split) <;> simp; done) | (refine ⟨?_, ?_, ?_, ?_, ?_, ?_, ?_, ?_, ?_, ?_, ?_, ?_, ?_, ?_, ?_, ?_, ?_, ?_, ?_, ?_, ?_, ?_, ?_, ?_, ?_, ?_⟩ <;> first | (simp; done) | ((try dsimp only); (repeat' split) <;> simp; done))

@[simp] theorem grantBarriers_keeps (s : State) (q : Nat) (i : Image) :
    (grantBarriers s q i).pending = s.pending ∧ (grantBarriers s q i).gate = s.gate ∧ (grantBarriers s q i).mod = s.mod
      ∧ (grantBarriers s q i).rows = s.rows ∧ (grantBarriers s q i).dumps = s.dumps ∧ (grantBarriers s q i).shed = s.shed
      ∧ (grantBarriers s q i).replay = s.replay ∧ (grantBarriers s q i).reg = s.reg ∧ (grantBarriers s q i).just = s.just
      ∧ (grantBarriers s q i).tiles = s.tiles ∧ (grantBarriers s q i).fns = s.fns ∧ (grantBarriers s q i).out = s.out
      ∧ (grantBarriers s q i).free = s.free ∧ (grantBarriers s q i).sun = s.sun ∧ (grantBarriers s q i).die.hbm = s.die.hbm
      ∧ (grantBarriers s q i).die.oyKey = s.die.oyKey ∧ (grantBarriers s q i).die.slices = s.die.slices
      ∧ (grantBarriers s q i).die.transfers = s.die.transfers ∧ (grantBarriers s q i).die.commit = s.die.commit
      ∧ (grantBarriers s q i).die.windows = s.die.windows ∧ (grantBarriers s q i).die.ctls = s.die.ctls
      ∧ (grantBarriers s q i).die.ports = s.die.ports ∧ (grantBarriers s q i).die.lodges = s.die.lodges
      ∧ (grantBarriers s q i).die.band = s.die.band ∧ (grantBarriers s q i).die.reports = s.die.reports
      ∧ (grantBarriers s q i).die.atTick = s.die.atTick := by
  unfold grantBarriers; first | (simp; done) | ((try dsimp only); (repeat' split) <;> simp; done) | (refine ⟨?_, ?_, ?_, ?_, ?_, ?_, ?_, ?_, ?_, ?_, ?_, ?_, ?_, ?_, ?_, ?_, ?_, ?_, ?_, ?_, ?_, ?_, ?_, ?_, ?_, ?_⟩ <;> first | (simp; done) | ((try dsimp only); (repeat' split) <;> simp; done))

@[simp] theorem placeTile_keeps (s : State) (q : Nat) (i : Image) (t : Nat) :
    (placeTile s q i t).pending = s.pending ∧ (placeTile s q i t).gate = s.gate ∧ (placeTile s q i t).mod = s.mod
      ∧ (placeTile s q i t).rows = s.rows ∧ (placeTile s q i t).dumps = s.dumps ∧ (placeTile s q i t).shed = s.shed
      ∧ (placeTile s q i t).replay = s.replay ∧ (placeTile s q i t).reg = s.reg ∧ (placeTile s q i t).just = s.just
      ∧ (placeTile s q i t).pvs = s.pvs ∧ (placeTile s q i t).fns = s.fns ∧ (placeTile s q i t).out = s.out ∧ (placeTile s q i t).free = s.free
      ∧ (placeTile s q i t).sun = s.sun ∧ (placeTile s q i t).die = s.die := by
  unfold placeTile; first | (simp; done) | ((try dsimp only); (repeat' split) <;> simp; done) | (refine ⟨?_, ?_, ?_, ?_, ?_, ?_, ?_, ?_, ?_, ?_, ?_, ?_, ?_, ?_, ?_⟩ <;> first | (simp; done) | ((try dsimp only); (repeat' split) <;> simp; done))

@[simp] theorem openRecv_keeps (s : State) (c : ChanEntry) :
    (openRecv s c).pending = s.pending ∧ (openRecv s c).gate = s.gate ∧ (openRecv s c).mod = s.mod ∧ (openRecv s c).rows = s.rows
      ∧ (openRecv s c).dumps = s.dumps ∧ (openRecv s c).shed = s.shed ∧ (openRecv s c).replay = s.replay ∧ (openRecv s c).reg = s.reg
      ∧ (openRecv s c).just = s.just ∧ (openRecv s c).pvs = s.pvs ∧ (openRecv s c).fns = s.fns ∧ (openRecv s c).out = s.out
      ∧ (openRecv s c).free = s.free ∧ (openRecv s c).sun = s.sun ∧ (openRecv s c).die = s.die := by
  unfold openRecv; first | (simp; done) | ((try dsimp only); (repeat' split) <;> simp; done) | (refine ⟨?_, ?_, ?_, ?_, ?_, ?_, ?_, ?_, ?_, ?_, ?_, ?_, ?_, ?_, ?_⟩ <;> first | (simp; done) | ((try dsimp only); (repeat' split) <;> simp; done))

@[simp] theorem openSend_keeps (s : State) (c : ChanEntry) :
    (openSend s c).pending = s.pending ∧ (openSend s c).gate = s.gate ∧ (openSend s c).mod = s.mod ∧ (openSend s c).rows = s.rows
      ∧ (openSend s c).dumps = s.dumps ∧ (openSend s c).shed = s.shed ∧ (openSend s c).replay = s.replay ∧ (openSend s c).reg = s.reg
      ∧ (openSend s c).just = s.just ∧ (openSend s c).pvs = s.pvs ∧ (openSend s c).fns = s.fns ∧ (openSend s c).out = s.out
      ∧ (openSend s c).sun = s.sun ∧ (openSend s c).die = s.die := by
  unfold openSend; first | (simp; done) | ((try dsimp only); (repeat' split) <;> simp; done) | (refine ⟨?_, ?_, ?_, ?_, ?_, ?_, ?_, ?_, ?_, ?_, ?_, ?_, ?_, ?_⟩ <;> first | (simp; done) | ((try dsimp only); (repeat' split) <;> simp; done))

@[simp] theorem openPair_keeps (s : State) (c : ChanEntry) :
    (openPair s c).pending = s.pending ∧ (openPair s c).gate = s.gate ∧ (openPair s c).mod = s.mod ∧ (openPair s c).rows = s.rows
      ∧ (openPair s c).dumps = s.dumps ∧ (openPair s c).shed = s.shed ∧ (openPair s c).replay = s.replay ∧ (openPair s c).reg = s.reg
      ∧ (openPair s c).just = s.just ∧ (openPair s c).pvs = s.pvs ∧ (openPair s c).fns = s.fns ∧ (openPair s c).out = s.out
      ∧ (openPair s c).sun = s.sun ∧ (openPair s c).die = s.die := by
  unfold openPair; first | (simp; done) | ((try dsimp only); (repeat' split) <;> simp; done) | (refine ⟨?_, ?_, ?_, ?_, ?_, ?_, ?_, ?_, ?_, ?_, ?_, ?_, ?_, ?_⟩ <;> first | (simp; done) | ((try dsimp only); (repeat' split) <;> simp; done))

@[simp] theorem prepareTile_keeps (s : State) (i : Image) (t f0 : Nat) :
    (prepareTile s i t f0).pending = s.pending ∧ (prepareTile s i t f0).gate = s.gate ∧ (prepareTile s i t f0).mod = s.mod
      ∧ (prepareTile s i t f0).rows = s.rows ∧ (prepareTile s i t f0).dumps = s.dumps ∧ (prepareTile s i t f0).shed = s.shed
      ∧ (prepareTile s i t f0).replay = s.replay ∧ (prepareTile s i t f0).reg = s.reg ∧ (prepareTile s i t f0).just = s.just
      ∧ (prepareTile s i t f0).pvs = s.pvs ∧ (prepareTile s i t f0).fns = s.fns ∧ (prepareTile s i t f0).out = s.out
      ∧ (prepareTile s i t f0).free = s.free ∧ (prepareTile s i t f0).sun = s.sun ∧ (prepareTile s i t f0).die = s.die := by
  unfold prepareTile; first | (simp; done) | ((try dsimp only); (repeat' split) <;> simp; done) | (refine ⟨?_, ?_, ?_, ?_, ?_, ?_, ?_, ?_, ?_, ?_, ?_, ?_, ?_, ?_, ?_⟩ <;> first | (simp; done) | ((try dsimp only); (repeat' split) <;> simp; done))

@[simp] theorem tellLodge_keeps (s : State) (k : Nat) (m : LodgeMsg) :
    (tellLodge s k m).pending = s.pending ∧ (tellLodge s k m).gate = s.gate ∧ (tellLodge s k m).mod = s.mod ∧ (tellLodge s k m).rows = s.rows
      ∧ (tellLodge s k m).dumps = s.dumps ∧ (tellLodge s k m).shed = s.shed ∧ (tellLodge s k m).replay = s.replay ∧ (tellLodge s k m).reg = s.reg
      ∧ (tellLodge s k m).just = s.just ∧ (tellLodge s k m).tiles = s.tiles ∧ (tellLodge s k m).pvs = s.pvs ∧ (tellLodge s k m).fns = s.fns
      ∧ (tellLodge s k m).out = s.out ∧ (tellLodge s k m).free = s.free ∧ (tellLodge s k m).sun = s.sun ∧ (tellLodge s k m).die.hbm = s.die.hbm
      ∧ (tellLodge s k m).die.oyKey = s.die.oyKey ∧ (tellLodge s k m).die.slices = s.die.slices
      ∧ (tellLodge s k m).die.transfers = s.die.transfers ∧ (tellLodge s k m).die.commit = s.die.commit
      ∧ (tellLodge s k m).die.barriers = s.die.barriers ∧ (tellLodge s k m).die.windows = s.die.windows ∧ (tellLodge s k m).die.ctls = s.die.ctls
      ∧ (tellLodge s k m).die.ports = s.die.ports ∧ (tellLodge s k m).die.band = s.die.band ∧ (tellLodge s k m).die.reports = s.die.reports
      ∧ (tellLodge s k m).die.atTick = s.die.atTick := by
  unfold tellLodge; first | (simp; done) | ((try dsimp only); (repeat' split) <;> simp; done) | (refine ⟨?_, ?_, ?_, ?_, ?_, ?_, ?_, ?_, ?_, ?_, ?_, ?_, ?_, ?_, ?_, ?_, ?_, ?_, ?_, ?_, ?_, ?_, ?_, ?_, ?_, ?_, ?_⟩ <;> first | (simp; done) | ((try dsimp only); (repeat' split) <;> simp; done))

@[simp] theorem armAll_keeps (s : State) (q f : Nat) :
    (armAll s q f).pending = s.pending ∧ (armAll s q f).gate = s.gate ∧ (armAll s q f).mod = s.mod ∧ (armAll s q f).rows = s.rows
      ∧ (armAll s q f).dumps = s.dumps ∧ (armAll s q f).shed = s.shed ∧ (armAll s q f).replay = s.replay ∧ (armAll s q f).reg = s.reg
      ∧ (armAll s q f).just = s.just ∧ (armAll s q f).pvs = s.pvs ∧ (armAll s q f).fns = s.fns ∧ (armAll s q f).out = s.out
      ∧ (armAll s q f).free = s.free ∧ (armAll s q f).sun = s.sun ∧ (armAll s q f).die = s.die := by
  unfold armAll; first | (simp; done) | ((try dsimp only); (repeat' split) <;> simp; done) | (refine ⟨?_, ?_, ?_, ?_, ?_, ?_, ?_, ?_, ?_, ?_, ?_, ?_, ?_, ?_, ?_⟩ <;> first | (simp; done) | ((try dsimp only); (repeat' split) <;> simp; done))

@[simp] theorem collectDump_keeps (s : State) (cause action pv tile : Nat) (clusters : List Nat) :
    (collectDump s cause action pv tile clusters).pending = s.pending ∧ (collectDump s cause action pv tile clusters).gate = s.gate
      ∧ (collectDump s cause action pv tile clusters).mod = s.mod ∧ (collectDump s cause action pv tile clusters).rows = s.rows
      ∧ (collectDump s cause action pv tile clusters).shed = s.shed ∧ (collectDump s cause action pv tile clusters).replay = s.replay
      ∧ (collectDump s cause action pv tile clusters).just = s.just ∧ (collectDump s cause action pv tile clusters).tiles = s.tiles
      ∧ (collectDump s cause action pv tile clusters).pvs = s.pvs ∧ (collectDump s cause action pv tile clusters).fns = s.fns
      ∧ (collectDump s cause action pv tile clusters).out = s.out ∧ (collectDump s cause action pv tile clusters).free = s.free
      ∧ (collectDump s cause action pv tile clusters).sun = s.sun ∧ (collectDump s cause action pv tile clusters).die = s.die := by
  unfold collectDump; first | (simp; done) | ((try dsimp only); (repeat' split) <;> simp; done) | (refine ⟨?_, ?_, ?_, ?_, ?_, ?_, ?_, ?_, ?_, ?_, ?_, ?_, ?_, ?_⟩ <;> first | (simp; done) | ((try dsimp only); (repeat' split) <;> simp; done))

@[simp] theorem sendOrphans_keeps (s : State) (q : Nat) :
    (sendOrphans s q).pending = s.pending ∧ (sendOrphans s q).gate = s.gate ∧ (sendOrphans s q).mod = s.mod ∧ (sendOrphans s q).rows = s.rows
      ∧ (sendOrphans s q).dumps = s.dumps ∧ (sendOrphans s q).shed = s.shed ∧ (sendOrphans s q).replay = s.replay ∧ (sendOrphans s q).reg = s.reg
      ∧ (sendOrphans s q).just = s.just ∧ (sendOrphans s q).tiles = s.tiles ∧ (sendOrphans s q).pvs = s.pvs ∧ (sendOrphans s q).fns = s.fns
      ∧ (sendOrphans s q).free = s.free ∧ (sendOrphans s q).sun = s.sun ∧ (sendOrphans s q).die = s.die := by
  unfold sendOrphans; first | (simp; done) | ((try dsimp only); (repeat' split) <;> simp; done) | (refine ⟨?_, ?_, ?_, ?_, ?_, ?_, ?_, ?_, ?_, ?_, ?_, ?_, ?_, ?_, ?_⟩ <;> first | (simp; done) | ((try dsimp only); (repeat' split) <;> simp; done))

@[simp] theorem haltLodge_keeps (s : State) (k : Nat) :
    (haltLodge s k).pending = s.pending ∧ (haltLodge s k).gate = s.gate ∧ (haltLodge s k).mod = s.mod ∧ (haltLodge s k).rows = s.rows
      ∧ (haltLodge s k).dumps = s.dumps ∧ (haltLodge s k).shed = s.shed ∧ (haltLodge s k).replay = s.replay ∧ (haltLodge s k).reg = s.reg
      ∧ (haltLodge s k).just = s.just ∧ (haltLodge s k).tiles = s.tiles ∧ (haltLodge s k).pvs = s.pvs ∧ (haltLodge s k).fns = s.fns
      ∧ (haltLodge s k).out = s.out ∧ (haltLodge s k).free = s.free ∧ (haltLodge s k).sun = s.sun ∧ (haltLodge s k).die.hbm = s.die.hbm
      ∧ (haltLodge s k).die.oyKey = s.die.oyKey ∧ (haltLodge s k).die.slices = s.die.slices ∧ (haltLodge s k).die.transfers = s.die.transfers
      ∧ (haltLodge s k).die.commit = s.die.commit ∧ (haltLodge s k).die.barriers = s.die.barriers ∧ (haltLodge s k).die.windows = s.die.windows
      ∧ (haltLodge s k).die.ctls = s.die.ctls ∧ (haltLodge s k).die.ports = s.die.ports ∧ (haltLodge s k).die.band = s.die.band
      ∧ (haltLodge s k).die.reports = s.die.reports ∧ (haltLodge s k).die.atTick = s.die.atTick := by
  unfold haltLodge; first | (simp; done) | ((try dsimp only); (repeat' split) <;> simp; done) | (refine ⟨?_, ?_, ?_, ?_, ?_, ?_, ?_, ?_, ?_, ?_, ?_, ?_, ?_, ?_, ?_, ?_, ?_, ?_, ?_, ?_, ?_, ?_, ?_, ?_, ?_, ?_, ?_⟩ <;> first | (simp; done) | ((try dsimp only); (repeat' split) <;> simp; done))

@[simp] theorem stopContext_keeps (s : State) (q : Nat) :
    (stopContext s q).pending = s.pending ∧ (stopContext s q).gate = s.gate ∧ (stopContext s q).mod = s.mod ∧ (stopContext s q).rows = s.rows
      ∧ (stopContext s q).dumps = s.dumps ∧ (stopContext s q).shed = s.shed ∧ (stopContext s q).replay = s.replay ∧ (stopContext s q).reg = s.reg
      ∧ (stopContext s q).just = s.just ∧ (stopContext s q).fns = s.fns ∧ (stopContext s q).free = s.free ∧ (stopContext s q).sun.ctr = s.sun.ctr
      ∧ (stopContext s q).sun.lags = s.sun.lags ∧ (stopContext s q).sun.tick = s.sun.tick ∧ (stopContext s q).sun.time = s.sun.time
      ∧ (stopContext s q).sun.freeze = s.sun.freeze ∧ (stopContext s q).sun.stopped = s.sun.stopped ∧ (stopContext s q).die.hbm = s.die.hbm
      ∧ (stopContext s q).die.oyKey = s.die.oyKey ∧ (stopContext s q).die.slices = s.die.slices
      ∧ (stopContext s q).die.transfers = s.die.transfers ∧ (stopContext s q).die.barriers = s.die.barriers
      ∧ (stopContext s q).die.windows = s.die.windows ∧ (stopContext s q).die.band = s.die.band ∧ (stopContext s q).die.reports = s.die.reports
      ∧ (stopContext s q).die.atTick = s.die.atTick := by
  unfold stopContext; first | (simp; done) | ((try dsimp only); (repeat' split) <;> simp; done) | (refine ⟨?_, ?_, ?_, ?_, ?_, ?_, ?_, ?_, ?_, ?_, ?_, ?_, ?_, ?_, ?_, ?_, ?_, ?_, ?_, ?_, ?_, ?_, ?_, ?_, ?_, ?_⟩ <;> first | (simp; done) | ((try dsimp only); (repeat' split) <;> simp; done))

@[simp] theorem endStaging_keeps (s : State) (n status detail : Nat) :
    (endStaging s n status detail).pending = s.pending ∧ (endStaging s n status detail).gate = s.gate
      ∧ (endStaging s n status detail).mod = s.mod ∧ (endStaging s n status detail).rows = s.rows
      ∧ (endStaging s n status detail).dumps = s.dumps ∧ (endStaging s n status detail).shed = s.shed
      ∧ (endStaging s n status detail).replay = s.replay ∧ (endStaging s n status detail).reg = s.reg
      ∧ (endStaging s n status detail).just = s.just ∧ (endStaging s n status detail).tiles = s.tiles
      ∧ (endStaging s n status detail).pvs = s.pvs ∧ (endStaging s n status detail).free = s.free ∧ (endStaging s n status detail).sun = s.sun
      ∧ (endStaging s n status detail).die.hbm = s.die.hbm ∧ (endStaging s n status detail).die.oyKey = s.die.oyKey
      ∧ (endStaging s n status detail).die.transfers = s.die.transfers ∧ (endStaging s n status detail).die.commit = s.die.commit
      ∧ (endStaging s n status detail).die.barriers = s.die.barriers ∧ (endStaging s n status detail).die.windows = s.die.windows
      ∧ (endStaging s n status detail).die.ctls = s.die.ctls ∧ (endStaging s n status detail).die.ports = s.die.ports
      ∧ (endStaging s n status detail).die.lodges = s.die.lodges ∧ (endStaging s n status detail).die.band = s.die.band
      ∧ (endStaging s n status detail).die.reports = s.die.reports ∧ (endStaging s n status detail).die.atTick = s.die.atTick := by
  unfold endStaging; first | (simp; done) | ((try dsimp only); (repeat' split) <;> simp; done) | (refine ⟨?_, ?_, ?_, ?_, ?_, ?_, ?_, ?_, ?_, ?_, ?_, ?_, ?_, ?_, ?_, ?_, ?_, ?_, ?_, ?_, ?_, ?_, ?_, ?_, ?_⟩ <;> first | (simp; done) | ((try dsimp only); (repeat' split) <;> simp; done))

@[simp] theorem endLoad_keeps (s : State) (q status detail : Nat) :
    (endLoad s q status detail).pending = s.pending ∧ (endLoad s q status detail).gate = s.gate ∧ (endLoad s q status detail).mod = s.mod
      ∧ (endLoad s q status detail).rows = s.rows ∧ (endLoad s q status detail).dumps = s.dumps ∧ (endLoad s q status detail).shed = s.shed
      ∧ (endLoad s q status detail).replay = s.replay ∧ (endLoad s q status detail).reg = s.reg ∧ (endLoad s q status detail).just = s.just
      ∧ (endLoad s q status detail).tiles = s.tiles ∧ (endLoad s q status detail).free = s.free ∧ (endLoad s q status detail).sun = s.sun
      ∧ (endLoad s q status detail).die = s.die := by
  unfold endLoad; first | (simp; done) | ((try dsimp only); (repeat' split) <;> simp; done) | (refine ⟨?_, ?_, ?_, ?_, ?_, ?_, ?_, ?_, ?_, ?_, ?_, ?_, ?_⟩ <;> first | (simp; done) | ((try dsimp only); (repeat' split) <;> simp; done))

@[simp] theorem endPvFlights_keeps (s : State) (q : Nat) :
    (endPvFlights s q).pending = s.pending ∧ (endPvFlights s q).gate = s.gate ∧ (endPvFlights s q).mod = s.mod ∧ (endPvFlights s q).rows = s.rows
      ∧ (endPvFlights s q).dumps = s.dumps ∧ (endPvFlights s q).shed = s.shed ∧ (endPvFlights s q).replay = s.replay
      ∧ (endPvFlights s q).reg = s.reg ∧ (endPvFlights s q).just = s.just ∧ (endPvFlights s q).tiles = s.tiles ∧ (endPvFlights s q).free = s.free
      ∧ (endPvFlights s q).sun = s.sun ∧ (endPvFlights s q).die.hbm = s.die.hbm ∧ (endPvFlights s q).die.oyKey = s.die.oyKey
      ∧ (endPvFlights s q).die.transfers = s.die.transfers ∧ (endPvFlights s q).die.commit = s.die.commit
      ∧ (endPvFlights s q).die.barriers = s.die.barriers ∧ (endPvFlights s q).die.windows = s.die.windows
      ∧ (endPvFlights s q).die.ctls = s.die.ctls ∧ (endPvFlights s q).die.ports = s.die.ports ∧ (endPvFlights s q).die.lodges = s.die.lodges
      ∧ (endPvFlights s q).die.band = s.die.band ∧ (endPvFlights s q).die.reports = s.die.reports ∧ (endPvFlights s q).die.atTick = s.die.atTick := by
  unfold endPvFlights; first | (simp; done) | ((try dsimp only); (repeat' split) <;> simp; done) | (refine ⟨?_, ?_, ?_, ?_, ?_, ?_, ?_, ?_, ?_, ?_, ?_, ?_, ?_, ?_, ?_, ?_, ?_, ?_, ?_, ?_, ?_, ?_, ?_, ?_⟩ <;> first | (simp; done) | ((try dsimp only); (repeat' split) <;> simp; done))

@[simp] theorem enterFaulted_keeps (s : State) (q cause : Nat) :
    (enterFaulted s q cause).pending = s.pending ∧ (enterFaulted s q cause).gate = s.gate ∧ (enterFaulted s q cause).mod = s.mod
      ∧ (enterFaulted s q cause).rows = s.rows ∧ (enterFaulted s q cause).dumps = s.dumps ∧ (enterFaulted s q cause).shed = s.shed
      ∧ (enterFaulted s q cause).replay = s.replay ∧ (enterFaulted s q cause).reg = s.reg ∧ (enterFaulted s q cause).just = s.just
      ∧ (enterFaulted s q cause).tiles = s.tiles ∧ (enterFaulted s q cause).free = s.free ∧ (enterFaulted s q cause).sun = s.sun
      ∧ (enterFaulted s q cause).die = s.die := by
  unfold enterFaulted; first | (simp; done) | ((try dsimp only); (repeat' split) <;> simp; done) | (refine ⟨?_, ?_, ?_, ?_, ?_, ?_, ?_, ?_, ?_, ?_, ?_, ?_, ?_⟩ <;> first | (simp; done) | ((try dsimp only); (repeat' split) <;> simp; done))

@[simp] theorem contextAbort_keeps (s : State) (q cause tile : Nat) :
    (contextAbort s q cause tile).pending = s.pending ∧ (contextAbort s q cause tile).gate = s.gate ∧ (contextAbort s q cause tile).mod = s.mod
      ∧ (contextAbort s q cause tile).rows = s.rows ∧ (contextAbort s q cause tile).shed = s.shed
      ∧ (contextAbort s q cause tile).replay = s.replay ∧ (contextAbort s q cause tile).just = s.just
      ∧ (contextAbort s q cause tile).free = s.free ∧ (contextAbort s q cause tile).sun.ctr = s.sun.ctr
      ∧ (contextAbort s q cause tile).sun.lags = s.sun.lags ∧ (contextAbort s q cause tile).sun.tick = s.sun.tick
      ∧ (contextAbort s q cause tile).sun.time = s.sun.time ∧ (contextAbort s q cause tile).sun.freeze = s.sun.freeze
      ∧ (contextAbort s q cause tile).sun.stopped = s.sun.stopped := by
  unfold contextAbort; first | (simp; done) | ((try dsimp only); (repeat' split) <;> simp; done) | (refine ⟨?_, ?_, ?_, ?_, ?_, ?_, ?_, ?_, ?_, ?_, ?_, ?_, ?_, ?_⟩ <;> first | (simp; done) | ((try dsimp only); (repeat' split) <;> simp; done))

@[simp] theorem complete_keeps (s : State) (q : Nat) (ws : List W64) :
    (complete s q ws).pending = s.pending ∧ (complete s q ws).gate = s.gate ∧ (complete s q ws).mod = s.mod ∧ (complete s q ws).rows = s.rows
      ∧ (complete s q ws).shed = s.shed ∧ (complete s q ws).replay = s.replay ∧ (complete s q ws).just = s.just ∧ (complete s q ws).free = s.free
      ∧ (complete s q ws).sun.ctr = s.sun.ctr ∧ (complete s q ws).sun.lags = s.sun.lags ∧ (complete s q ws).sun.tick = s.sun.tick
      ∧ (complete s q ws).sun.time = s.sun.time ∧ (complete s q ws).sun.freeze = s.sun.freeze ∧ (complete s q ws).sun.stopped = s.sun.stopped := by
  unfold complete; first | (simp; done) | ((try dsimp only); (repeat' split) <;> simp; done) | (refine ⟨?_, ?_, ?_, ?_, ?_, ?_, ?_, ?_, ?_, ?_, ?_, ?_, ?_, ?_⟩ <;> first | (simp; done) | ((try dsimp only); (repeat' split) <;> simp; done))

@[simp] theorem dropEntry_keeps (s : State) (p i : Nat) :
    (dropEntry s p i).pending = s.pending ∧ (dropEntry s p i).gate = s.gate ∧ (dropEntry s p i).mod = s.mod ∧ (dropEntry s p i).rows = s.rows
      ∧ (dropEntry s p i).dumps = s.dumps ∧ (dropEntry s p i).shed = s.shed ∧ (dropEntry s p i).reg = s.reg ∧ (dropEntry s p i).just = s.just
      ∧ (dropEntry s p i).pvs = s.pvs ∧ (dropEntry s p i).fns = s.fns ∧ (dropEntry s p i).out = s.out ∧ (dropEntry s p i).free = s.free
      ∧ (dropEntry s p i).sun = s.sun ∧ (dropEntry s p i).die = s.die := by
  unfold dropEntry; first | (simp; done) | ((try dsimp only); (repeat' split) <;> simp; done) | (refine ⟨?_, ?_, ?_, ?_, ?_, ?_, ?_, ?_, ?_, ?_, ?_, ?_, ?_, ?_⟩ <;> first | (simp; done) | ((try dsimp only); (repeat' split) <;> simp; done))

@[simp] theorem wipeTile_keeps (s : State) (p : Nat) :
    (wipeTile s p).pending = s.pending ∧ (wipeTile s p).gate = s.gate ∧ (wipeTile s p).mod = s.mod ∧ (wipeTile s p).rows = s.rows
      ∧ (wipeTile s p).dumps = s.dumps ∧ (wipeTile s p).shed = s.shed ∧ (wipeTile s p).replay = s.replay ∧ (wipeTile s p).reg = s.reg
      ∧ (wipeTile s p).just = s.just ∧ (wipeTile s p).pvs = s.pvs ∧ (wipeTile s p).fns = s.fns ∧ (wipeTile s p).free = s.free
      ∧ (wipeTile s p).sun.ctr = s.sun.ctr ∧ (wipeTile s p).sun.lags = s.sun.lags ∧ (wipeTile s p).sun.tick = s.sun.tick
      ∧ (wipeTile s p).sun.time = s.sun.time ∧ (wipeTile s p).sun.freeze = s.sun.freeze ∧ (wipeTile s p).sun.stopped = s.sun.stopped
      ∧ (wipeTile s p).die.hbm = s.die.hbm ∧ (wipeTile s p).die.oyKey = s.die.oyKey ∧ (wipeTile s p).die.slices = s.die.slices
      ∧ (wipeTile s p).die.transfers = s.die.transfers ∧ (wipeTile s p).die.commit = s.die.commit ∧ (wipeTile s p).die.barriers = s.die.barriers
      ∧ (wipeTile s p).die.windows = s.die.windows ∧ (wipeTile s p).die.lodges = s.die.lodges ∧ (wipeTile s p).die.band = s.die.band
      ∧ (wipeTile s p).die.reports = s.die.reports ∧ (wipeTile s p).die.atTick = s.die.atTick := by
  unfold wipeTile; first | (simp; done) | ((try dsimp only); (repeat' split) <;> simp; done) | (refine ⟨?_, ?_, ?_, ?_, ?_, ?_, ?_, ?_, ?_, ?_, ?_, ?_, ?_, ?_, ?_, ?_, ?_, ?_, ?_, ?_, ?_, ?_, ?_, ?_, ?_, ?_, ?_, ?_, ?_⟩ <;> first | (simp; done) | ((try dsimp only); (repeat' split) <;> simp; done))

@[simp] theorem resetLodge_keeps (s : State) (k : Nat) :
    (resetLodge s k).pending = s.pending ∧ (resetLodge s k).gate = s.gate ∧ (resetLodge s k).mod = s.mod ∧ (resetLodge s k).rows = s.rows
      ∧ (resetLodge s k).dumps = s.dumps ∧ (resetLodge s k).shed = s.shed ∧ (resetLodge s k).replay = s.replay ∧ (resetLodge s k).reg = s.reg
      ∧ (resetLodge s k).just = s.just ∧ (resetLodge s k).tiles = s.tiles ∧ (resetLodge s k).pvs = s.pvs ∧ (resetLodge s k).fns = s.fns
      ∧ (resetLodge s k).out = s.out ∧ (resetLodge s k).free = s.free ∧ (resetLodge s k).sun = s.sun ∧ (resetLodge s k).die.hbm = s.die.hbm
      ∧ (resetLodge s k).die.oyKey = s.die.oyKey ∧ (resetLodge s k).die.slices = s.die.slices ∧ (resetLodge s k).die.transfers = s.die.transfers
      ∧ (resetLodge s k).die.commit = s.die.commit ∧ (resetLodge s k).die.barriers = s.die.barriers
      ∧ (resetLodge s k).die.windows = s.die.windows ∧ (resetLodge s k).die.ctls = s.die.ctls ∧ (resetLodge s k).die.ports = s.die.ports
      ∧ (resetLodge s k).die.band = s.die.band ∧ (resetLodge s k).die.reports = s.die.reports ∧ (resetLodge s k).die.atTick = s.die.atTick := by
  unfold resetLodge; first | (simp; done) | ((try dsimp only); (repeat' split) <;> simp; done) | (refine ⟨?_, ?_, ?_, ?_, ?_, ?_, ?_, ?_, ?_, ?_, ?_, ?_, ?_, ?_, ?_, ?_, ?_, ?_, ?_, ?_, ?_, ?_, ?_, ?_, ?_, ?_, ?_⟩ <;> first | (simp; done) | ((try dsimp only); (repeat' split) <;> simp; done))

@[simp] theorem resetCluster_keeps (s : State) (k : Nat) :
    (resetCluster s k).pending = s.pending ∧ (resetCluster s k).gate = s.gate ∧ (resetCluster s k).mod = s.mod ∧ (resetCluster s k).rows = s.rows
      ∧ (resetCluster s k).dumps = s.dumps ∧ (resetCluster s k).shed = s.shed ∧ (resetCluster s k).replay = s.replay
      ∧ (resetCluster s k).reg = s.reg ∧ (resetCluster s k).just = s.just ∧ (resetCluster s k).pvs = s.pvs ∧ (resetCluster s k).fns = s.fns
      ∧ (resetCluster s k).free = s.free ∧ (resetCluster s k).sun.ctr = s.sun.ctr ∧ (resetCluster s k).sun.lags = s.sun.lags
      ∧ (resetCluster s k).sun.tick = s.sun.tick ∧ (resetCluster s k).sun.time = s.sun.time ∧ (resetCluster s k).sun.freeze = s.sun.freeze
      ∧ (resetCluster s k).sun.stopped = s.sun.stopped ∧ (resetCluster s k).die.hbm = s.die.hbm ∧ (resetCluster s k).die.oyKey = s.die.oyKey
      ∧ (resetCluster s k).die.slices = s.die.slices ∧ (resetCluster s k).die.transfers = s.die.transfers
      ∧ (resetCluster s k).die.commit = s.die.commit ∧ (resetCluster s k).die.barriers = s.die.barriers
      ∧ (resetCluster s k).die.windows = s.die.windows ∧ (resetCluster s k).die.band = s.die.band
      ∧ (resetCluster s k).die.reports = s.die.reports ∧ (resetCluster s k).die.atTick = s.die.atTick := by
  unfold resetCluster; first | (simp; done) | ((try dsimp only); (repeat' split) <;> simp; done) | (refine ⟨?_, ?_, ?_, ?_, ?_, ?_, ?_, ?_, ?_, ?_, ?_, ?_, ?_, ?_, ?_, ?_, ?_, ?_, ?_, ?_, ?_, ?_, ?_, ?_, ?_, ?_, ?_, ?_⟩ <;> first | (simp; done) | ((try dsimp only); (repeat' split) <;> simp; done))

@[simp] theorem State.modMx_keeps (s : State) (p : Nat) (f : Mx → Mx) :
    (State.modMx s p f).pending = s.pending ∧ (State.modMx s p f).gate = s.gate ∧ (State.modMx s p f).mod = s.mod
      ∧ (State.modMx s p f).rows = s.rows ∧ (State.modMx s p f).dumps = s.dumps ∧ (State.modMx s p f).shed = s.shed
      ∧ (State.modMx s p f).replay = s.replay ∧ (State.modMx s p f).reg = s.reg ∧ (State.modMx s p f).just = s.just
      ∧ (State.modMx s p f).pvs = s.pvs ∧ (State.modMx s p f).fns = s.fns ∧ (State.modMx s p f).out = s.out ∧ (State.modMx s p f).free = s.free
      ∧ (State.modMx s p f).sun = s.sun ∧ (State.modMx s p f).die = s.die := by
  unfold State.modMx; first | (simp; done) | ((try dsimp only); (repeat' split) <;> simp; done) | (refine ⟨?_, ?_, ?_, ?_, ?_, ?_, ?_, ?_, ?_, ?_, ?_, ?_, ?_, ?_, ?_⟩ <;> first | (simp; done) | ((try dsimp only); (repeat' split) <;> simp; done))

@[simp] theorem mxLoadStart_keeps (s : State) (t : Nat) (chk : Check) :
    (mxLoadStart s t chk).pending = s.pending ∧ (mxLoadStart s t chk).gate = s.gate ∧ (mxLoadStart s t chk).mod = s.mod
      ∧ (mxLoadStart s t chk).rows = s.rows ∧ (mxLoadStart s t chk).dumps = s.dumps ∧ (mxLoadStart s t chk).shed = s.shed
      ∧ (mxLoadStart s t chk).replay = s.replay ∧ (mxLoadStart s t chk).reg = s.reg ∧ (mxLoadStart s t chk).just = s.just
      ∧ (mxLoadStart s t chk).pvs = s.pvs ∧ (mxLoadStart s t chk).fns = s.fns ∧ (mxLoadStart s t chk).out = s.out
      ∧ (mxLoadStart s t chk).free = s.free ∧ (mxLoadStart s t chk).sun = s.sun ∧ (mxLoadStart s t chk).die = s.die := by
  unfold mxLoadStart; first | (simp; done) | ((try dsimp only); (repeat' split) <;> simp; done) | (refine ⟨?_, ?_, ?_, ?_, ?_, ?_, ?_, ?_, ?_, ?_, ?_, ?_, ?_, ?_, ?_⟩ <;> first | (simp; done) | ((try dsimp only); (repeat' split) <;> simp; done))

@[simp] theorem loadBeat_keeps (s : State) (p i : Nat) (e : WinEntry) :
    (loadBeat s p i e).pending = s.pending ∧ (loadBeat s p i e).gate = s.gate ∧ (loadBeat s p i e).mod = s.mod ∧ (loadBeat s p i e).rows = s.rows
      ∧ (loadBeat s p i e).dumps = s.dumps ∧ (loadBeat s p i e).pvs = s.pvs ∧ (loadBeat s p i e).fns = s.fns
      ∧ (loadBeat s p i e).die.hbm = s.die.hbm ∧ (loadBeat s p i e).die.oyKey = s.die.oyKey ∧ (loadBeat s p i e).die.slices = s.die.slices
      ∧ (loadBeat s p i e).die.transfers = s.die.transfers ∧ (loadBeat s p i e).die.commit = s.die.commit
      ∧ (loadBeat s p i e).die.barriers = s.die.barriers ∧ (loadBeat s p i e).die.windows = s.die.windows
      ∧ (loadBeat s p i e).die.ctls = s.die.ctls ∧ (loadBeat s p i e).die.lodges = s.die.lodges ∧ (loadBeat s p i e).die.band = s.die.band
      ∧ (loadBeat s p i e).die.reports = s.die.reports ∧ (loadBeat s p i e).die.atTick = s.die.atTick := by
  unfold loadBeat; first | (simp; done) | ((try dsimp only); (repeat' split) <;> simp; done) | (refine ⟨?_, ?_, ?_, ?_, ?_, ?_, ?_, ?_, ?_, ?_, ?_, ?_, ?_, ?_, ?_, ?_, ?_, ?_, ?_⟩ <;> first | (simp; done) | ((try dsimp only); (repeat' split) <;> simp; done))

@[simp] theorem loadDone_keeps (s : State) (p : Nat) (e : WinEntry) :
    (loadDone s p e).pending = s.pending ∧ (loadDone s p e).gate = s.gate ∧ (loadDone s p e).mod = s.mod ∧ (loadDone s p e).rows = s.rows
      ∧ (loadDone s p e).dumps = s.dumps ∧ (loadDone s p e).shed = s.shed ∧ (loadDone s p e).replay = s.replay ∧ (loadDone s p e).reg = s.reg
      ∧ (loadDone s p e).just = s.just ∧ (loadDone s p e).pvs = s.pvs ∧ (loadDone s p e).fns = s.fns ∧ (loadDone s p e).out = s.out
      ∧ (loadDone s p e).free = s.free ∧ (loadDone s p e).sun = s.sun ∧ (loadDone s p e).die = s.die := by
  unfold loadDone; first | (simp; done) | ((try dsimp only); (repeat' split) <;> simp; done) | (refine ⟨?_, ?_, ?_, ?_, ?_, ?_, ?_, ?_, ?_, ?_, ?_, ?_, ?_, ?_, ?_⟩ <;> first | (simp; done) | ((try dsimp only); (repeat' split) <;> simp; done))

@[simp] theorem mxPassStart_keeps (s : State) (t : Nat) (chk : Check) :
    (mxPassStart s t chk).pending = s.pending ∧ (mxPassStart s t chk).gate = s.gate ∧ (mxPassStart s t chk).mod = s.mod
      ∧ (mxPassStart s t chk).rows = s.rows ∧ (mxPassStart s t chk).dumps = s.dumps ∧ (mxPassStart s t chk).shed = s.shed
      ∧ (mxPassStart s t chk).replay = s.replay ∧ (mxPassStart s t chk).reg = s.reg ∧ (mxPassStart s t chk).just = s.just
      ∧ (mxPassStart s t chk).pvs = s.pvs ∧ (mxPassStart s t chk).fns = s.fns ∧ (mxPassStart s t chk).out = s.out
      ∧ (mxPassStart s t chk).free = s.free ∧ (mxPassStart s t chk).sun = s.sun ∧ (mxPassStart s t chk).die.hbm = s.die.hbm
      ∧ (mxPassStart s t chk).die.oyKey = s.die.oyKey ∧ (mxPassStart s t chk).die.slices = s.die.slices
      ∧ (mxPassStart s t chk).die.transfers = s.die.transfers ∧ (mxPassStart s t chk).die.commit = s.die.commit
      ∧ (mxPassStart s t chk).die.barriers = s.die.barriers ∧ (mxPassStart s t chk).die.windows = s.die.windows
      ∧ (mxPassStart s t chk).die.ctls = s.die.ctls ∧ (mxPassStart s t chk).die.ports = s.die.ports
      ∧ (mxPassStart s t chk).die.lodges = s.die.lodges ∧ (mxPassStart s t chk).die.band = s.die.band
      ∧ (mxPassStart s t chk).die.atTick = s.die.atTick := by
  unfold mxPassStart; first | (simp; done) | ((try dsimp only); (repeat' split) <;> simp; done) | (refine ⟨?_, ?_, ?_, ?_, ?_, ?_, ?_, ?_, ?_, ?_, ?_, ?_, ?_, ?_, ?_, ?_, ?_, ?_, ?_, ?_, ?_, ?_, ?_, ?_, ?_, ?_⟩ <;> first | (simp; done) | ((try dsimp only); (repeat' split) <;> simp; done))

@[simp] theorem passRead_keeps (s : State) (p i : Nat) (e : WinEntry) :
    (passRead s p i e).pending = s.pending ∧ (passRead s p i e).gate = s.gate ∧ (passRead s p i e).mod = s.mod ∧ (passRead s p i e).rows = s.rows
      ∧ (passRead s p i e).dumps = s.dumps ∧ (passRead s p i e).pvs = s.pvs ∧ (passRead s p i e).fns = s.fns
      ∧ (passRead s p i e).die.hbm = s.die.hbm ∧ (passRead s p i e).die.oyKey = s.die.oyKey ∧ (passRead s p i e).die.slices = s.die.slices
      ∧ (passRead s p i e).die.transfers = s.die.transfers ∧ (passRead s p i e).die.commit = s.die.commit
      ∧ (passRead s p i e).die.barriers = s.die.barriers ∧ (passRead s p i e).die.windows = s.die.windows
      ∧ (passRead s p i e).die.ctls = s.die.ctls ∧ (passRead s p i e).die.lodges = s.die.lodges ∧ (passRead s p i e).die.band = s.die.band
      ∧ (passRead s p i e).die.reports = s.die.reports ∧ (passRead s p i e).die.atTick = s.die.atTick := by
  unfold passRead; first | (simp; done) | ((try dsimp only); (repeat' split) <;> simp; done) | (refine ⟨?_, ?_, ?_, ?_, ?_, ?_, ?_, ?_, ?_, ?_, ?_, ?_, ?_, ?_, ?_, ?_, ?_, ?_, ?_⟩ <;> first | (simp; done) | ((try dsimp only); (repeat' split) <;> simp; done))

@[simp] theorem passWrite_keeps (s : State) (p i : Nat) (e : WinEntry) :
    (passWrite s p i e).pending = s.pending ∧ (passWrite s p i e).gate = s.gate ∧ (passWrite s p i e).mod = s.mod
      ∧ (passWrite s p i e).rows = s.rows ∧ (passWrite s p i e).dumps = s.dumps ∧ (passWrite s p i e).shed = s.shed
      ∧ (passWrite s p i e).replay = s.replay ∧ (passWrite s p i e).reg = s.reg ∧ (passWrite s p i e).just = s.just
      ∧ (passWrite s p i e).pvs = s.pvs ∧ (passWrite s p i e).fns = s.fns ∧ (passWrite s p i e).out = s.out ∧ (passWrite s p i e).free = s.free
      ∧ (passWrite s p i e).sun = s.sun ∧ (passWrite s p i e).die = s.die := by
  unfold passWrite; first | (simp; done) | ((try dsimp only); (repeat' split) <;> simp; done) | (refine ⟨?_, ?_, ?_, ?_, ?_, ?_, ?_, ?_, ?_, ?_, ?_, ?_, ?_, ?_, ?_⟩ <;> first | (simp; done) | ((try dsimp only); (repeat' split) <;> simp; done))

@[simp] theorem mxZeroStart_keeps (s : State) (t : Nat) :
    (mxZeroStart s t).pending = s.pending ∧ (mxZeroStart s t).gate = s.gate ∧ (mxZeroStart s t).mod = s.mod ∧ (mxZeroStart s t).rows = s.rows
      ∧ (mxZeroStart s t).dumps = s.dumps ∧ (mxZeroStart s t).shed = s.shed ∧ (mxZeroStart s t).replay = s.replay ∧ (mxZeroStart s t).reg = s.reg
      ∧ (mxZeroStart s t).just = s.just ∧ (mxZeroStart s t).pvs = s.pvs ∧ (mxZeroStart s t).fns = s.fns ∧ (mxZeroStart s t).out = s.out
      ∧ (mxZeroStart s t).free = s.free ∧ (mxZeroStart s t).sun = s.sun ∧ (mxZeroStart s t).die = s.die := by
  unfold mxZeroStart; first | (simp; done) | ((try dsimp only); (repeat' split) <;> simp; done) | (refine ⟨?_, ?_, ?_, ?_, ?_, ?_, ?_, ?_, ?_, ?_, ?_, ?_, ?_, ?_, ?_⟩ <;> first | (simp; done) | ((try dsimp only); (repeat' split) <;> simp; done))

@[simp] theorem zeroRow_keeps (s : State) (p : Nat) (e : WinEntry) :
    (zeroRow s p e).pending = s.pending ∧ (zeroRow s p e).gate = s.gate ∧ (zeroRow s p e).mod = s.mod ∧ (zeroRow s p e).rows = s.rows
      ∧ (zeroRow s p e).dumps = s.dumps ∧ (zeroRow s p e).shed = s.shed ∧ (zeroRow s p e).replay = s.replay ∧ (zeroRow s p e).reg = s.reg
      ∧ (zeroRow s p e).just = s.just ∧ (zeroRow s p e).pvs = s.pvs ∧ (zeroRow s p e).fns = s.fns ∧ (zeroRow s p e).out = s.out
      ∧ (zeroRow s p e).free = s.free ∧ (zeroRow s p e).sun = s.sun ∧ (zeroRow s p e).die = s.die := by
  unfold zeroRow; first | (simp; done) | ((try dsimp only); (repeat' split) <;> simp; done) | (refine ⟨?_, ?_, ?_, ?_, ?_, ?_, ?_, ?_, ?_, ?_, ?_, ?_, ?_, ?_, ?_⟩ <;> first | (simp; done) | ((try dsimp only); (repeat' split) <;> simp; done))

@[simp] theorem mxStoreStart_keeps (s : State) (t : Nat) :
    (mxStoreStart s t).pending = s.pending ∧ (mxStoreStart s t).gate = s.gate ∧ (mxStoreStart s t).mod = s.mod ∧ (mxStoreStart s t).rows = s.rows
      ∧ (mxStoreStart s t).dumps = s.dumps ∧ (mxStoreStart s t).shed = s.shed ∧ (mxStoreStart s t).replay = s.replay
      ∧ (mxStoreStart s t).reg = s.reg ∧ (mxStoreStart s t).just = s.just ∧ (mxStoreStart s t).pvs = s.pvs ∧ (mxStoreStart s t).fns = s.fns
      ∧ (mxStoreStart s t).out = s.out ∧ (mxStoreStart s t).free = s.free ∧ (mxStoreStart s t).sun = s.sun
      ∧ (mxStoreStart s t).die.hbm = s.die.hbm ∧ (mxStoreStart s t).die.oyKey = s.die.oyKey ∧ (mxStoreStart s t).die.slices = s.die.slices
      ∧ (mxStoreStart s t).die.transfers = s.die.transfers ∧ (mxStoreStart s t).die.commit = s.die.commit
      ∧ (mxStoreStart s t).die.barriers = s.die.barriers ∧ (mxStoreStart s t).die.windows = s.die.windows
      ∧ (mxStoreStart s t).die.ctls = s.die.ctls ∧ (mxStoreStart s t).die.ports = s.die.ports ∧ (mxStoreStart s t).die.lodges = s.die.lodges
      ∧ (mxStoreStart s t).die.band = s.die.band ∧ (mxStoreStart s t).die.atTick = s.die.atTick := by
  unfold mxStoreStart; first | (simp; done) | ((try dsimp only); (repeat' split) <;> simp; done) | (refine ⟨?_, ?_, ?_, ?_, ?_, ?_, ?_, ?_, ?_, ?_, ?_, ?_, ?_, ?_, ?_, ?_, ?_, ?_, ?_, ?_, ?_, ?_, ?_, ?_, ?_, ?_⟩ <;> first | (simp; done) | ((try dsimp only); (repeat' split) <;> simp; done))

@[simp] theorem storeRead_keeps (s : State) (p i : Nat) (e : WinEntry) :
    (storeRead s p i e).pending = s.pending ∧ (storeRead s p i e).gate = s.gate ∧ (storeRead s p i e).mod = s.mod
      ∧ (storeRead s p i e).rows = s.rows ∧ (storeRead s p i e).dumps = s.dumps ∧ (storeRead s p i e).shed = s.shed
      ∧ (storeRead s p i e).replay = s.replay ∧ (storeRead s p i e).reg = s.reg ∧ (storeRead s p i e).just = s.just
      ∧ (storeRead s p i e).pvs = s.pvs ∧ (storeRead s p i e).fns = s.fns ∧ (storeRead s p i e).out = s.out ∧ (storeRead s p i e).free = s.free
      ∧ (storeRead s p i e).sun = s.sun ∧ (storeRead s p i e).die = s.die := by
  unfold storeRead; first | (simp; done) | ((try dsimp only); (repeat' split) <;> simp; done) | (refine ⟨?_, ?_, ?_, ?_, ?_, ?_, ?_, ?_, ?_, ?_, ?_, ?_, ?_, ?_, ?_⟩ <;> first | (simp; done) | ((try dsimp only); (repeat' split) <;> simp; done))

@[simp] theorem storeWrite_keeps (s : State) (p i : Nat) (e : WinEntry) :
    (storeWrite s p i e).pending = s.pending ∧ (storeWrite s p i e).gate = s.gate ∧ (storeWrite s p i e).mod = s.mod
      ∧ (storeWrite s p i e).rows = s.rows ∧ (storeWrite s p i e).dumps = s.dumps ∧ (storeWrite s p i e).shed = s.shed
      ∧ (storeWrite s p i e).replay = s.replay ∧ (storeWrite s p i e).reg = s.reg ∧ (storeWrite s p i e).just = s.just
      ∧ (storeWrite s p i e).pvs = s.pvs ∧ (storeWrite s p i e).fns = s.fns ∧ (storeWrite s p i e).out = s.out
      ∧ (storeWrite s p i e).free = s.free ∧ (storeWrite s p i e).sun = s.sun ∧ (storeWrite s p i e).die = s.die := by
  unfold storeWrite; first | (simp; done) | ((try dsimp only); (repeat' split) <;> simp; done) | (refine ⟨?_, ?_, ?_, ?_, ?_, ?_, ?_, ?_, ?_, ?_, ?_, ?_, ?_, ?_, ?_⟩ <;> first | (simp; done) | ((try dsimp only); (repeat' split) <;> simp; done))

@[simp] theorem vxStart_keeps (s : State) (t op : Nat) (chk : Check) :
    (vxStart s t op chk).pending = s.pending ∧ (vxStart s t op chk).gate = s.gate ∧ (vxStart s t op chk).mod = s.mod
      ∧ (vxStart s t op chk).rows = s.rows ∧ (vxStart s t op chk).dumps = s.dumps ∧ (vxStart s t op chk).shed = s.shed
      ∧ (vxStart s t op chk).replay = s.replay ∧ (vxStart s t op chk).reg = s.reg ∧ (vxStart s t op chk).just = s.just
      ∧ (vxStart s t op chk).pvs = s.pvs ∧ (vxStart s t op chk).fns = s.fns ∧ (vxStart s t op chk).out = s.out
      ∧ (vxStart s t op chk).free = s.free ∧ (vxStart s t op chk).sun = s.sun ∧ (vxStart s t op chk).die.hbm = s.die.hbm
      ∧ (vxStart s t op chk).die.oyKey = s.die.oyKey ∧ (vxStart s t op chk).die.slices = s.die.slices
      ∧ (vxStart s t op chk).die.transfers = s.die.transfers ∧ (vxStart s t op chk).die.commit = s.die.commit
      ∧ (vxStart s t op chk).die.barriers = s.die.barriers ∧ (vxStart s t op chk).die.windows = s.die.windows
      ∧ (vxStart s t op chk).die.ctls = s.die.ctls ∧ (vxStart s t op chk).die.ports = s.die.ports
      ∧ (vxStart s t op chk).die.lodges = s.die.lodges ∧ (vxStart s t op chk).die.band = s.die.band
      ∧ (vxStart s t op chk).die.atTick = s.die.atTick := by
  unfold vxStart; first | (simp; done) | ((try dsimp only); (repeat' split) <;> simp; done) | (refine ⟨?_, ?_, ?_, ?_, ?_, ?_, ?_, ?_, ?_, ?_, ?_, ?_, ?_, ?_, ?_, ?_, ?_, ?_, ?_, ?_, ?_, ?_, ?_, ?_, ?_, ?_⟩ <;> first | (simp; done) | ((try dsimp only); (repeat' split) <;> simp; done))

@[simp] theorem vxFetch_keeps (s : State) (p : Nat) (e : WinEntry) (from_ : Bool) (a : Nat × Nat) :
    (vxFetch s p e from_ a).1.pending = s.pending ∧ (vxFetch s p e from_ a).1.gate = s.gate ∧ (vxFetch s p e from_ a).1.mod = s.mod
      ∧ (vxFetch s p e from_ a).1.rows = s.rows ∧ (vxFetch s p e from_ a).1.dumps = s.dumps ∧ (vxFetch s p e from_ a).1.pvs = s.pvs
      ∧ (vxFetch s p e from_ a).1.fns = s.fns ∧ (vxFetch s p e from_ a).1.die.hbm = s.die.hbm ∧ (vxFetch s p e from_ a).1.die.oyKey = s.die.oyKey
      ∧ (vxFetch s p e from_ a).1.die.slices = s.die.slices ∧ (vxFetch s p e from_ a).1.die.transfers = s.die.transfers
      ∧ (vxFetch s p e from_ a).1.die.commit = s.die.commit ∧ (vxFetch s p e from_ a).1.die.barriers = s.die.barriers
      ∧ (vxFetch s p e from_ a).1.die.windows = s.die.windows ∧ (vxFetch s p e from_ a).1.die.ctls = s.die.ctls
      ∧ (vxFetch s p e from_ a).1.die.lodges = s.die.lodges ∧ (vxFetch s p e from_ a).1.die.band = s.die.band
      ∧ (vxFetch s p e from_ a).1.die.reports = s.die.reports ∧ (vxFetch s p e from_ a).1.die.atTick = s.die.atTick := by
  unfold vxFetch; first | (simp; done) | ((try dsimp only); (repeat' split) <;> simp; done) | (refine ⟨?_, ?_, ?_, ?_, ?_, ?_, ?_, ?_, ?_, ?_, ?_, ?_, ?_, ?_, ?_, ?_, ?_, ?_, ?_⟩ <;> first | (simp; done) | ((try dsimp only); (repeat' split) <;> simp; done))

@[simp] theorem vxRead_keeps (s : State) (p i : Nat) (e : WinEntry) :
    (vxRead s p i e).pending = s.pending ∧ (vxRead s p i e).gate = s.gate ∧ (vxRead s p i e).mod = s.mod ∧ (vxRead s p i e).rows = s.rows
      ∧ (vxRead s p i e).dumps = s.dumps ∧ (vxRead s p i e).pvs = s.pvs ∧ (vxRead s p i e).fns = s.fns ∧ (vxRead s p i e).die.hbm = s.die.hbm
      ∧ (vxRead s p i e).die.oyKey = s.die.oyKey ∧ (vxRead s p i e).die.slices = s.die.slices ∧ (vxRead s p i e).die.transfers = s.die.transfers
      ∧ (vxRead s p i e).die.commit = s.die.commit ∧ (vxRead s p i e).die.barriers = s.die.barriers
      ∧ (vxRead s p i e).die.windows = s.die.windows ∧ (vxRead s p i e).die.ctls = s.die.ctls ∧ (vxRead s p i e).die.lodges = s.die.lodges
      ∧ (vxRead s p i e).die.band = s.die.band ∧ (vxRead s p i e).die.reports = s.die.reports ∧ (vxRead s p i e).die.atTick = s.die.atTick := by
  unfold vxRead; first | (simp; done) | ((try dsimp only); (repeat' split) <;> simp; done) | (refine ⟨?_, ?_, ?_, ?_, ?_, ?_, ?_, ?_, ?_, ?_, ?_, ?_, ?_, ?_, ?_, ?_, ?_, ?_, ?_⟩ <;> first | (simp; done) | ((try dsimp only); (repeat' split) <;> simp; done))

@[simp] theorem vxMeet_keeps (s : State) (p i at_ : Nat) (view : Mem) :
    (vxMeet s p i at_ view).pending = s.pending ∧ (vxMeet s p i at_ view).gate = s.gate ∧ (vxMeet s p i at_ view).mod = s.mod
      ∧ (vxMeet s p i at_ view).rows = s.rows ∧ (vxMeet s p i at_ view).dumps = s.dumps ∧ (vxMeet s p i at_ view).shed = s.shed
      ∧ (vxMeet s p i at_ view).replay = s.replay ∧ (vxMeet s p i at_ view).reg = s.reg ∧ (vxMeet s p i at_ view).just = s.just
      ∧ (vxMeet s p i at_ view).pvs = s.pvs ∧ (vxMeet s p i at_ view).fns = s.fns ∧ (vxMeet s p i at_ view).out = s.out
      ∧ (vxMeet s p i at_ view).free = s.free ∧ (vxMeet s p i at_ view).sun = s.sun ∧ (vxMeet s p i at_ view).die = s.die := by
  unfold vxMeet; first | (simp; done) | ((try dsimp only); (repeat' split) <;> simp; done) | (refine ⟨?_, ?_, ?_, ?_, ?_, ?_, ?_, ?_, ?_, ?_, ?_, ?_, ?_, ?_, ?_⟩ <;> first | (simp; done) | ((try dsimp only); (repeat' split) <;> simp; done))

@[simp] theorem vxOldSp_keeps (s : State) (p i : Nat) (e : WinEntry) :
    (vxOldSp s p i e).pending = s.pending ∧ (vxOldSp s p i e).gate = s.gate ∧ (vxOldSp s p i e).mod = s.mod ∧ (vxOldSp s p i e).rows = s.rows
      ∧ (vxOldSp s p i e).dumps = s.dumps ∧ (vxOldSp s p i e).pvs = s.pvs ∧ (vxOldSp s p i e).fns = s.fns ∧ (vxOldSp s p i e).die.hbm = s.die.hbm
      ∧ (vxOldSp s p i e).die.oyKey = s.die.oyKey ∧ (vxOldSp s p i e).die.slices = s.die.slices
      ∧ (vxOldSp s p i e).die.transfers = s.die.transfers ∧ (vxOldSp s p i e).die.commit = s.die.commit
      ∧ (vxOldSp s p i e).die.barriers = s.die.barriers ∧ (vxOldSp s p i e).die.windows = s.die.windows ∧ (vxOldSp s p i e).die.ctls = s.die.ctls
      ∧ (vxOldSp s p i e).die.lodges = s.die.lodges ∧ (vxOldSp s p i e).die.band = s.die.band ∧ (vxOldSp s p i e).die.reports = s.die.reports
      ∧ (vxOldSp s p i e).die.atTick = s.die.atTick := by
  unfold vxOldSp; first | (simp; done) | ((try dsimp only); (repeat' split) <;> simp; done) | (refine ⟨?_, ?_, ?_, ?_, ?_, ?_, ?_, ?_, ?_, ?_, ?_, ?_, ?_, ?_, ?_, ?_, ?_, ?_, ?_⟩ <;> first | (simp; done) | ((try dsimp only); (repeat' split) <;> simp; done))

@[simp] theorem vxOld_keeps (s : State) (p i : Nat) :
    (vxOld s p i).pending = s.pending ∧ (vxOld s p i).gate = s.gate ∧ (vxOld s p i).mod = s.mod ∧ (vxOld s p i).rows = s.rows
      ∧ (vxOld s p i).dumps = s.dumps ∧ (vxOld s p i).shed = s.shed ∧ (vxOld s p i).replay = s.replay ∧ (vxOld s p i).reg = s.reg
      ∧ (vxOld s p i).just = s.just ∧ (vxOld s p i).pvs = s.pvs ∧ (vxOld s p i).fns = s.fns ∧ (vxOld s p i).out = s.out
      ∧ (vxOld s p i).free = s.free ∧ (vxOld s p i).sun = s.sun ∧ (vxOld s p i).die = s.die := by
  unfold vxOld; first | (simp; done) | ((try dsimp only); (repeat' split) <;> simp; done) | (refine ⟨?_, ?_, ?_, ?_, ?_, ?_, ?_, ?_, ?_, ?_, ?_, ?_, ?_, ?_, ?_⟩ <;> first | (simp; done) | ((try dsimp only); (repeat' split) <;> simp; done))

@[simp] theorem lodgeTrap_keeps (s : State) (k cause : Nat) (tval : W64) :
    (lodgeTrap s k cause tval).pending = s.pending ∧ (lodgeTrap s k cause tval).gate = s.gate ∧ (lodgeTrap s k cause tval).mod = s.mod
      ∧ (lodgeTrap s k cause tval).rows = s.rows ∧ (lodgeTrap s k cause tval).dumps = s.dumps ∧ (lodgeTrap s k cause tval).shed = s.shed
      ∧ (lodgeTrap s k cause tval).replay = s.replay ∧ (lodgeTrap s k cause tval).reg = s.reg ∧ (lodgeTrap s k cause tval).just = s.just
      ∧ (lodgeTrap s k cause tval).tiles = s.tiles ∧ (lodgeTrap s k cause tval).pvs = s.pvs ∧ (lodgeTrap s k cause tval).fns = s.fns
      ∧ (lodgeTrap s k cause tval).out = s.out ∧ (lodgeTrap s k cause tval).free = s.free ∧ (lodgeTrap s k cause tval).sun = s.sun
      ∧ (lodgeTrap s k cause tval).die.hbm = s.die.hbm ∧ (lodgeTrap s k cause tval).die.oyKey = s.die.oyKey
      ∧ (lodgeTrap s k cause tval).die.slices = s.die.slices ∧ (lodgeTrap s k cause tval).die.transfers = s.die.transfers
      ∧ (lodgeTrap s k cause tval).die.commit = s.die.commit ∧ (lodgeTrap s k cause tval).die.barriers = s.die.barriers
      ∧ (lodgeTrap s k cause tval).die.windows = s.die.windows ∧ (lodgeTrap s k cause tval).die.ctls = s.die.ctls
      ∧ (lodgeTrap s k cause tval).die.ports = s.die.ports ∧ (lodgeTrap s k cause tval).die.band = s.die.band
      ∧ (lodgeTrap s k cause tval).die.reports = s.die.reports ∧ (lodgeTrap s k cause tval).die.atTick = s.die.atTick := by
  unfold lodgeTrap; first | (simp; done) | ((try dsimp only); (repeat' split) <;> simp; done) | (refine ⟨?_, ?_, ?_, ?_, ?_, ?_, ?_, ?_, ?_, ?_, ?_, ?_, ?_, ?_, ?_, ?_, ?_, ?_, ?_, ?_, ?_, ?_, ?_, ?_, ?_, ?_, ?_⟩ <;> first | (simp; done) | ((try dsimp only); (repeat' split) <;> simp; done))

@[simp] theorem lodgeRetire_keeps (s : State) (k : Nat) (l : Lodge) (next : W64) :
    (lodgeRetire s k l next).pending = s.pending ∧ (lodgeRetire s k l next).gate = s.gate ∧ (lodgeRetire s k l next).mod = s.mod
      ∧ (lodgeRetire s k l next).rows = s.rows ∧ (lodgeRetire s k l next).dumps = s.dumps ∧ (lodgeRetire s k l next).shed = s.shed
      ∧ (lodgeRetire s k l next).replay = s.replay ∧ (lodgeRetire s k l next).reg = s.reg ∧ (lodgeRetire s k l next).just = s.just
      ∧ (lodgeRetire s k l next).tiles = s.tiles ∧ (lodgeRetire s k l next).pvs = s.pvs ∧ (lodgeRetire s k l next).fns = s.fns
      ∧ (lodgeRetire s k l next).out = s.out ∧ (lodgeRetire s k l next).free = s.free ∧ (lodgeRetire s k l next).sun = s.sun
      ∧ (lodgeRetire s k l next).die.hbm = s.die.hbm ∧ (lodgeRetire s k l next).die.oyKey = s.die.oyKey
      ∧ (lodgeRetire s k l next).die.slices = s.die.slices ∧ (lodgeRetire s k l next).die.transfers = s.die.transfers
      ∧ (lodgeRetire s k l next).die.commit = s.die.commit ∧ (lodgeRetire s k l next).die.barriers = s.die.barriers
      ∧ (lodgeRetire s k l next).die.windows = s.die.windows ∧ (lodgeRetire s k l next).die.ctls = s.die.ctls
      ∧ (lodgeRetire s k l next).die.ports = s.die.ports ∧ (lodgeRetire s k l next).die.band = s.die.band
      ∧ (lodgeRetire s k l next).die.reports = s.die.reports ∧ (lodgeRetire s k l next).die.atTick = s.die.atTick := by
  unfold lodgeRetire; first | (simp; done) | ((try dsimp only); (repeat' split) <;> simp; done) | (refine ⟨?_, ?_, ?_, ?_, ?_, ?_, ?_, ?_, ?_, ?_, ?_, ?_, ?_, ?_, ?_, ?_, ?_, ?_, ?_, ?_, ?_, ?_, ?_, ?_, ?_, ?_, ?_⟩ <;> first | (simp; done) | ((try dsimp only); (repeat' split) <;> simp; done))

@[simp] theorem lodgeErr_keeps (s : State) (k kind a : Nat) :
    (lodgeErr s k kind a).pending = s.pending ∧ (lodgeErr s k kind a).gate = s.gate ∧ (lodgeErr s k kind a).mod = s.mod
      ∧ (lodgeErr s k kind a).rows = s.rows ∧ (lodgeErr s k kind a).dumps = s.dumps ∧ (lodgeErr s k kind a).shed = s.shed
      ∧ (lodgeErr s k kind a).replay = s.replay ∧ (lodgeErr s k kind a).reg = s.reg ∧ (lodgeErr s k kind a).just = s.just
      ∧ (lodgeErr s k kind a).tiles = s.tiles ∧ (lodgeErr s k kind a).pvs = s.pvs ∧ (lodgeErr s k kind a).fns = s.fns
      ∧ (lodgeErr s k kind a).out = s.out ∧ (lodgeErr s k kind a).free = s.free ∧ (lodgeErr s k kind a).sun = s.sun
      ∧ (lodgeErr s k kind a).die.hbm = s.die.hbm ∧ (lodgeErr s k kind a).die.oyKey = s.die.oyKey
      ∧ (lodgeErr s k kind a).die.slices = s.die.slices ∧ (lodgeErr s k kind a).die.transfers = s.die.transfers
      ∧ (lodgeErr s k kind a).die.commit = s.die.commit ∧ (lodgeErr s k kind a).die.barriers = s.die.barriers
      ∧ (lodgeErr s k kind a).die.windows = s.die.windows ∧ (lodgeErr s k kind a).die.ctls = s.die.ctls
      ∧ (lodgeErr s k kind a).die.ports = s.die.ports ∧ (lodgeErr s k kind a).die.band = s.die.band
      ∧ (lodgeErr s k kind a).die.reports = s.die.reports ∧ (lodgeErr s k kind a).die.atTick = s.die.atTick := by
  unfold lodgeErr; first | (simp; done) | ((try dsimp only); (repeat' split) <;> simp; done) | (refine ⟨?_, ?_, ?_, ?_, ?_, ?_, ?_, ?_, ?_, ?_, ?_, ?_, ?_, ?_, ?_, ?_, ?_, ?_, ?_, ?_, ?_, ?_, ?_, ?_, ?_, ?_, ?_⟩ <;> first | (simp; done) | ((try dsimp only); (repeat' split) <;> simp; done))

@[simp] theorem lodgeFault_keeps (s : State) (k cause kind : Nat) (a : W64) :
    (lodgeFault s k cause kind a).pending = s.pending ∧ (lodgeFault s k cause kind a).gate = s.gate ∧ (lodgeFault s k cause kind a).mod = s.mod
      ∧ (lodgeFault s k cause kind a).rows = s.rows ∧ (lodgeFault s k cause kind a).dumps = s.dumps ∧ (lodgeFault s k cause kind a).shed = s.shed
      ∧ (lodgeFault s k cause kind a).replay = s.replay ∧ (lodgeFault s k cause kind a).reg = s.reg ∧ (lodgeFault s k cause kind a).just = s.just
      ∧ (lodgeFault s k cause kind a).tiles = s.tiles ∧ (lodgeFault s k cause kind a).pvs = s.pvs ∧ (lodgeFault s k cause kind a).fns = s.fns
      ∧ (lodgeFault s k cause kind a).out = s.out ∧ (lodgeFault s k cause kind a).free = s.free ∧ (lodgeFault s k cause kind a).sun = s.sun
      ∧ (lodgeFault s k cause kind a).die.hbm = s.die.hbm ∧ (lodgeFault s k cause kind a).die.oyKey = s.die.oyKey
      ∧ (lodgeFault s k cause kind a).die.slices = s.die.slices ∧ (lodgeFault s k cause kind a).die.transfers = s.die.transfers
      ∧ (lodgeFault s k cause kind a).die.commit = s.die.commit ∧ (lodgeFault s k cause kind a).die.barriers = s.die.barriers
      ∧ (lodgeFault s k cause kind a).die.windows = s.die.windows ∧ (lodgeFault s k cause kind a).die.ctls = s.die.ctls
      ∧ (lodgeFault s k cause kind a).die.ports = s.die.ports ∧ (lodgeFault s k cause kind a).die.band = s.die.band
      ∧ (lodgeFault s k cause kind a).die.reports = s.die.reports ∧ (lodgeFault s k cause kind a).die.atTick = s.die.atTick := by
  unfold lodgeFault; first | (simp; done) | ((try dsimp only); (repeat' split) <;> simp; done) | (refine ⟨?_, ?_, ?_, ?_, ?_, ?_, ?_, ?_, ?_, ?_, ?_, ?_, ?_, ?_, ?_, ?_, ?_, ?_, ?_, ?_, ?_, ?_, ?_, ?_, ?_, ?_, ?_⟩ <;> first | (simp; done) | ((try dsimp only); (repeat' split) <;> simp; done))

@[simp] theorem lodgeSramError_keeps (s : State) (k cause : Nat) (a : W64) :
    (lodgeSramError s k cause a).pending = s.pending ∧ (lodgeSramError s k cause a).gate = s.gate ∧ (lodgeSramError s k cause a).mod = s.mod
      ∧ (lodgeSramError s k cause a).rows = s.rows ∧ (lodgeSramError s k cause a).shed = s.shed ∧ (lodgeSramError s k cause a).replay = s.replay
      ∧ (lodgeSramError s k cause a).just = s.just ∧ (lodgeSramError s k cause a).free = s.free
      ∧ (lodgeSramError s k cause a).sun.ctr = s.sun.ctr ∧ (lodgeSramError s k cause a).sun.lags = s.sun.lags
      ∧ (lodgeSramError s k cause a).sun.tick = s.sun.tick ∧ (lodgeSramError s k cause a).sun.time = s.sun.time
      ∧ (lodgeSramError s k cause a).sun.freeze = s.sun.freeze ∧ (lodgeSramError s k cause a).sun.stopped = s.sun.stopped := by
  unfold lodgeSramError; first | (simp; done) | ((try dsimp only); (repeat' split) <;> simp; done) | (refine ⟨?_, ?_, ?_, ?_, ?_, ?_, ?_, ?_, ?_, ?_, ?_, ?_, ?_, ?_⟩ <;> first | (simp; done) | ((try dsimp only); (repeat' split) <;> simp; done))

@[simp] theorem lodgeLoad_keeps (s : State) (k n : Nat) (a : W64) (chk : Check) :
    (lodgeLoad s k n a chk).1.pending = s.pending ∧ (lodgeLoad s k n a chk).1.gate = s.gate ∧ (lodgeLoad s k n a chk).1.mod = s.mod
      ∧ (lodgeLoad s k n a chk).1.rows = s.rows := by
  unfold lodgeLoad; first | (simp; done) | ((try dsimp only); (repeat' split) <;> simp; done) | (refine ⟨?_, ?_, ?_, ?_⟩ <;> first | (simp; done) | ((try dsimp only); (repeat' split) <;> simp; done))

@[simp] theorem maskDone_keeps (s : State) (k slot positions : Nat) :
    (maskDone s k slot positions).pending = s.pending ∧ (maskDone s k slot positions).gate = s.gate ∧ (maskDone s k slot positions).mod = s.mod
      ∧ (maskDone s k slot positions).rows = s.rows ∧ (maskDone s k slot positions).dumps = s.dumps ∧ (maskDone s k slot positions).shed = s.shed
      ∧ (maskDone s k slot positions).replay = s.replay ∧ (maskDone s k slot positions).reg = s.reg ∧ (maskDone s k slot positions).just = s.just
      ∧ (maskDone s k slot positions).tiles = s.tiles ∧ (maskDone s k slot positions).pvs = s.pvs ∧ (maskDone s k slot positions).fns = s.fns
      ∧ (maskDone s k slot positions).out = s.out ∧ (maskDone s k slot positions).free = s.free ∧ (maskDone s k slot positions).sun = s.sun
      ∧ (maskDone s k slot positions).die.hbm = s.die.hbm ∧ (maskDone s k slot positions).die.oyKey = s.die.oyKey
      ∧ (maskDone s k slot positions).die.slices = s.die.slices ∧ (maskDone s k slot positions).die.transfers = s.die.transfers
      ∧ (maskDone s k slot positions).die.commit = s.die.commit ∧ (maskDone s k slot positions).die.barriers = s.die.barriers
      ∧ (maskDone s k slot positions).die.windows = s.die.windows ∧ (maskDone s k slot positions).die.ctls = s.die.ctls
      ∧ (maskDone s k slot positions).die.ports = s.die.ports ∧ (maskDone s k slot positions).die.lodges = s.die.lodges
      ∧ (maskDone s k slot positions).die.reports = s.die.reports ∧ (maskDone s k slot positions).die.atTick = s.die.atTick := by
  unfold maskDone; first | (simp; done) | ((try dsimp only); (repeat' split) <;> simp; done) | (refine ⟨?_, ?_, ?_, ?_, ?_, ?_, ?_, ?_, ?_, ?_, ?_, ?_, ?_, ?_, ?_, ?_, ?_, ?_, ?_, ?_, ?_, ?_, ?_, ?_, ?_, ?_, ?_⟩ <;> first | (simp; done) | ((try dsimp only); (repeat' split) <;> simp; done))

@[simp] theorem maskStore_keeps (s : State) (slot pos word : Nat) (v : W64) :
    (maskStore s slot pos word v).pending = s.pending ∧ (maskStore s slot pos word v).gate = s.gate ∧ (maskStore s slot pos word v).mod = s.mod
      ∧ (maskStore s slot pos word v).rows = s.rows ∧ (maskStore s slot pos word v).dumps = s.dumps ∧ (maskStore s slot pos word v).shed = s.shed
      ∧ (maskStore s slot pos word v).replay = s.replay ∧ (maskStore s slot pos word v).reg = s.reg ∧ (maskStore s slot pos word v).just = s.just
      ∧ (maskStore s slot pos word v).tiles = s.tiles ∧ (maskStore s slot pos word v).pvs = s.pvs ∧ (maskStore s slot pos word v).fns = s.fns
      ∧ (maskStore s slot pos word v).out = s.out ∧ (maskStore s slot pos word v).free = s.free ∧ (maskStore s slot pos word v).sun = s.sun
      ∧ (maskStore s slot pos word v).die.hbm = s.die.hbm ∧ (maskStore s slot pos word v).die.oyKey = s.die.oyKey
      ∧ (maskStore s slot pos word v).die.slices = s.die.slices ∧ (maskStore s slot pos word v).die.transfers = s.die.transfers
      ∧ (maskStore s slot pos word v).die.commit = s.die.commit ∧ (maskStore s slot pos word v).die.barriers = s.die.barriers
      ∧ (maskStore s slot pos word v).die.windows = s.die.windows ∧ (maskStore s slot pos word v).die.ctls = s.die.ctls
      ∧ (maskStore s slot pos word v).die.ports = s.die.ports ∧ (maskStore s slot pos word v).die.lodges = s.die.lodges
      ∧ (maskStore s slot pos word v).die.reports = s.die.reports ∧ (maskStore s slot pos word v).die.atTick = s.die.atTick := by
  unfold maskStore; first | (simp; done) | ((try dsimp only); (repeat' split) <;> simp; done) | (refine ⟨?_, ?_, ?_, ?_, ?_, ?_, ?_, ?_, ?_, ?_, ?_, ?_, ?_, ?_, ?_, ?_, ?_, ?_, ?_, ?_, ?_, ?_, ?_, ?_, ?_, ?_, ?_⟩ <;> first | (simp; done) | ((try dsimp only); (repeat' split) <;> simp; done))

@[simp] theorem lodgeWrite_keeps (s : State) (k off : Nat) (v en : W64) (warden : Bool) :
    (lodgeWrite s k off v en warden).pending = s.pending ∧ (lodgeWrite s k off v en warden).gate = s.gate
      ∧ (lodgeWrite s k off v en warden).mod = s.mod ∧ (lodgeWrite s k off v en warden).rows = s.rows
      ∧ (lodgeWrite s k off v en warden).dumps = s.dumps ∧ (lodgeWrite s k off v en warden).shed = s.shed
      ∧ (lodgeWrite s k off v en warden).replay = s.replay ∧ (lodgeWrite s k off v en warden).reg = s.reg
      ∧ (lodgeWrite s k off v en warden).just = s.just ∧ (lodgeWrite s k off v en warden).tiles = s.tiles
      ∧ (lodgeWrite s k off v en warden).pvs = s.pvs ∧ (lodgeWrite s k off v en warden).fns = s.fns
      ∧ (lodgeWrite s k off v en warden).out = s.out ∧ (lodgeWrite s k off v en warden).free = s.free
      ∧ (lodgeWrite s k off v en warden).sun = s.sun ∧ (lodgeWrite s k off v en warden).die.hbm = s.die.hbm
      ∧ (lodgeWrite s k off v en warden).die.oyKey = s.die.oyKey ∧ (lodgeWrite s k off v en warden).die.slices = s.die.slices
      ∧ (lodgeWrite s k off v en warden).die.transfers = s.die.transfers ∧ (lodgeWrite s k off v en warden).die.commit = s.die.commit
      ∧ (lodgeWrite s k off v en warden).die.barriers = s.die.barriers ∧ (lodgeWrite s k off v en warden).die.windows = s.die.windows
      ∧ (lodgeWrite s k off v en warden).die.ctls = s.die.ctls ∧ (lodgeWrite s k off v en warden).die.ports = s.die.ports
      ∧ (lodgeWrite s k off v en warden).die.reports = s.die.reports ∧ (lodgeWrite s k off v en warden).die.atTick = s.die.atTick := by
  unfold lodgeWrite; first | (simp; done) | ((try dsimp only); (repeat' split) <;> simp; done) | (refine ⟨?_, ?_, ?_, ?_, ?_, ?_, ?_, ?_, ?_, ?_, ?_, ?_, ?_, ?_, ?_, ?_, ?_, ?_, ?_, ?_, ?_, ?_, ?_, ?_, ?_, ?_⟩ <;> first | (simp; done) | ((try dsimp only); (repeat' split) <;> simp; done))

@[simp] theorem lodgeStore_keeps (s : State) (k n : Nat) (a : W64) (v : Nat) (chk : Check) :
    (lodgeStore s k n a v chk).1.pending = s.pending ∧ (lodgeStore s k n a v chk).1.gate = s.gate ∧ (lodgeStore s k n a v chk).1.mod = s.mod
      ∧ (lodgeStore s k n a v chk).1.rows = s.rows ∧ (lodgeStore s k n a v chk).1.dumps = s.dumps ∧ (lodgeStore s k n a v chk).1.pvs = s.pvs
      ∧ (lodgeStore s k n a v chk).1.fns = s.fns ∧ (lodgeStore s k n a v chk).1.die.hbm = s.die.hbm
      ∧ (lodgeStore s k n a v chk).1.die.oyKey = s.die.oyKey ∧ (lodgeStore s k n a v chk).1.die.slices = s.die.slices
      ∧ (lodgeStore s k n a v chk).1.die.transfers = s.die.transfers ∧ (lodgeStore s k n a v chk).1.die.commit = s.die.commit
      ∧ (lodgeStore s k n a v chk).1.die.barriers = s.die.barriers ∧ (lodgeStore s k n a v chk).1.die.windows = s.die.windows
      ∧ (lodgeStore s k n a v chk).1.die.ctls = s.die.ctls ∧ (lodgeStore s k n a v chk).1.die.atTick = s.die.atTick := by
  unfold lodgeStore; first | (simp; done) | ((try dsimp only); (repeat' split) <;> simp; done) | (refine ⟨?_, ?_, ?_, ?_, ?_, ?_, ?_, ?_, ?_, ?_, ?_, ?_, ?_, ?_, ?_, ?_⟩ <;> first | (simp; done) | ((try dsimp only); (repeat' split) <;> simp; done))

@[simp] theorem lodgeIllegal_keeps (s : State) (k w : Nat) :
    (lodgeIllegal s k w).pending = s.pending ∧ (lodgeIllegal s k w).gate = s.gate ∧ (lodgeIllegal s k w).mod = s.mod
      ∧ (lodgeIllegal s k w).rows = s.rows ∧ (lodgeIllegal s k w).dumps = s.dumps ∧ (lodgeIllegal s k w).shed = s.shed
      ∧ (lodgeIllegal s k w).replay = s.replay ∧ (lodgeIllegal s k w).reg = s.reg ∧ (lodgeIllegal s k w).just = s.just
      ∧ (lodgeIllegal s k w).tiles = s.tiles ∧ (lodgeIllegal s k w).pvs = s.pvs ∧ (lodgeIllegal s k w).fns = s.fns
      ∧ (lodgeIllegal s k w).out = s.out ∧ (lodgeIllegal s k w).free = s.free ∧ (lodgeIllegal s k w).sun = s.sun
      ∧ (lodgeIllegal s k w).die.hbm = s.die.hbm ∧ (lodgeIllegal s k w).die.oyKey = s.die.oyKey ∧ (lodgeIllegal s k w).die.slices = s.die.slices
      ∧ (lodgeIllegal s k w).die.transfers = s.die.transfers ∧ (lodgeIllegal s k w).die.commit = s.die.commit
      ∧ (lodgeIllegal s k w).die.barriers = s.die.barriers ∧ (lodgeIllegal s k w).die.windows = s.die.windows
      ∧ (lodgeIllegal s k w).die.ctls = s.die.ctls ∧ (lodgeIllegal s k w).die.ports = s.die.ports ∧ (lodgeIllegal s k w).die.band = s.die.band
      ∧ (lodgeIllegal s k w).die.reports = s.die.reports ∧ (lodgeIllegal s k w).die.atTick = s.die.atTick := by
  unfold lodgeIllegal; first | (simp; done) | ((try dsimp only); (repeat' split) <;> simp; done) | (refine ⟨?_, ?_, ?_, ?_, ?_, ?_, ?_, ?_, ?_, ?_, ?_, ?_, ?_, ?_, ?_, ?_, ?_, ?_, ?_, ?_, ?_, ?_, ?_, ?_, ?_, ?_, ?_⟩ <;> first | (simp; done) | ((try dsimp only); (repeat' split) <;> simp; done))

@[simp] theorem lodgePut_keeps (s : State) (k w len : Nat) (v : Option W64) :
    (lodgePut s k w len v).pending = s.pending ∧ (lodgePut s k w len v).gate = s.gate ∧ (lodgePut s k w len v).mod = s.mod
      ∧ (lodgePut s k w len v).rows = s.rows ∧ (lodgePut s k w len v).dumps = s.dumps ∧ (lodgePut s k w len v).shed = s.shed
      ∧ (lodgePut s k w len v).replay = s.replay ∧ (lodgePut s k w len v).reg = s.reg ∧ (lodgePut s k w len v).just = s.just
      ∧ (lodgePut s k w len v).tiles = s.tiles ∧ (lodgePut s k w len v).pvs = s.pvs ∧ (lodgePut s k w len v).fns = s.fns
      ∧ (lodgePut s k w len v).out = s.out ∧ (lodgePut s k w len v).free = s.free ∧ (lodgePut s k w len v).sun = s.sun
      ∧ (lodgePut s k w len v).die.hbm = s.die.hbm ∧ (lodgePut s k w len v).die.oyKey = s.die.oyKey
      ∧ (lodgePut s k w len v).die.slices = s.die.slices ∧ (lodgePut s k w len v).die.transfers = s.die.transfers
      ∧ (lodgePut s k w len v).die.commit = s.die.commit ∧ (lodgePut s k w len v).die.barriers = s.die.barriers
      ∧ (lodgePut s k w len v).die.windows = s.die.windows ∧ (lodgePut s k w len v).die.ctls = s.die.ctls
      ∧ (lodgePut s k w len v).die.ports = s.die.ports ∧ (lodgePut s k w len v).die.band = s.die.band
      ∧ (lodgePut s k w len v).die.reports = s.die.reports ∧ (lodgePut s k w len v).die.atTick = s.die.atTick := by
  unfold lodgePut; first | (simp; done) | ((try dsimp only); (repeat' split) <;> simp; done) | (refine ⟨?_, ?_, ?_, ?_, ?_, ?_, ?_, ?_, ?_, ?_, ?_, ?_, ?_, ?_, ?_, ?_, ?_, ?_, ?_, ?_, ?_, ?_, ?_, ?_, ?_, ?_, ?_⟩ <;> first | (simp; done) | ((try dsimp only); (repeat' split) <;> simp; done))

@[simp] theorem lodgeJump_keeps (s : State) (k : Nat) (l : Lodge) (a : W64) :
    (lodgeJump s k l a).pending = s.pending ∧ (lodgeJump s k l a).gate = s.gate ∧ (lodgeJump s k l a).mod = s.mod
      ∧ (lodgeJump s k l a).rows = s.rows ∧ (lodgeJump s k l a).dumps = s.dumps ∧ (lodgeJump s k l a).shed = s.shed
      ∧ (lodgeJump s k l a).replay = s.replay ∧ (lodgeJump s k l a).reg = s.reg ∧ (lodgeJump s k l a).just = s.just
      ∧ (lodgeJump s k l a).tiles = s.tiles ∧ (lodgeJump s k l a).pvs = s.pvs ∧ (lodgeJump s k l a).fns = s.fns ∧ (lodgeJump s k l a).out = s.out
      ∧ (lodgeJump s k l a).free = s.free ∧ (lodgeJump s k l a).sun = s.sun ∧ (lodgeJump s k l a).die.hbm = s.die.hbm
      ∧ (lodgeJump s k l a).die.oyKey = s.die.oyKey ∧ (lodgeJump s k l a).die.slices = s.die.slices
      ∧ (lodgeJump s k l a).die.transfers = s.die.transfers ∧ (lodgeJump s k l a).die.commit = s.die.commit
      ∧ (lodgeJump s k l a).die.barriers = s.die.barriers ∧ (lodgeJump s k l a).die.windows = s.die.windows
      ∧ (lodgeJump s k l a).die.ctls = s.die.ctls ∧ (lodgeJump s k l a).die.ports = s.die.ports ∧ (lodgeJump s k l a).die.band = s.die.band
      ∧ (lodgeJump s k l a).die.reports = s.die.reports ∧ (lodgeJump s k l a).die.atTick = s.die.atTick := by
  unfold lodgeJump; first | (simp; done) | ((try dsimp only); (repeat' split) <;> simp; done) | (refine ⟨?_, ?_, ?_, ?_, ?_, ?_, ?_, ?_, ?_, ?_, ?_, ?_, ?_, ?_, ?_, ?_, ?_, ?_, ?_, ?_, ?_, ?_, ?_, ?_, ?_, ?_, ?_⟩ <;> first | (simp; done) | ((try dsimp only); (repeat' split) <;> simp; done))

@[simp] theorem lodgeDoAmo_keeps (s : State) (k w len : Nat) (chk : Check) :
    (lodgeDoAmo s k w len chk).pending = s.pending ∧ (lodgeDoAmo s k w len chk).gate = s.gate ∧ (lodgeDoAmo s k w len chk).mod = s.mod
      ∧ (lodgeDoAmo s k w len chk).rows = s.rows ∧ (lodgeDoAmo s k w len chk).shed = s.shed ∧ (lodgeDoAmo s k w len chk).replay = s.replay
      ∧ (lodgeDoAmo s k w len chk).just = s.just ∧ (lodgeDoAmo s k w len chk).free = s.free ∧ (lodgeDoAmo s k w len chk).sun.ctr = s.sun.ctr
      ∧ (lodgeDoAmo s k w len chk).sun.lags = s.sun.lags ∧ (lodgeDoAmo s k w len chk).sun.tick = s.sun.tick
      ∧ (lodgeDoAmo s k w len chk).sun.time = s.sun.time ∧ (lodgeDoAmo s k w len chk).sun.freeze = s.sun.freeze
      ∧ (lodgeDoAmo s k w len chk).sun.stopped = s.sun.stopped := by
  unfold lodgeDoAmo; first | (simp; done) | ((try dsimp only); (repeat' split) <;> simp; done) | (refine ⟨?_, ?_, ?_, ?_, ?_, ?_, ?_, ?_, ?_, ?_, ?_, ?_, ?_, ?_⟩ <;> first | (simp; done) | ((try dsimp only); (repeat' split) <;> simp; done))

@[simp] theorem lodgeDoCsr_keeps (s : State) (k w len : Nat) :
    (lodgeDoCsr s k w len).pending = s.pending ∧ (lodgeDoCsr s k w len).gate = s.gate ∧ (lodgeDoCsr s k w len).mod = s.mod
      ∧ (lodgeDoCsr s k w len).rows = s.rows ∧ (lodgeDoCsr s k w len).dumps = s.dumps ∧ (lodgeDoCsr s k w len).shed = s.shed
      ∧ (lodgeDoCsr s k w len).replay = s.replay ∧ (lodgeDoCsr s k w len).reg = s.reg ∧ (lodgeDoCsr s k w len).just = s.just
      ∧ (lodgeDoCsr s k w len).tiles = s.tiles ∧ (lodgeDoCsr s k w len).pvs = s.pvs ∧ (lodgeDoCsr s k w len).fns = s.fns
      ∧ (lodgeDoCsr s k w len).out = s.out ∧ (lodgeDoCsr s k w len).free = s.free ∧ (lodgeDoCsr s k w len).sun = s.sun
      ∧ (lodgeDoCsr s k w len).die.hbm = s.die.hbm ∧ (lodgeDoCsr s k w len).die.oyKey = s.die.oyKey
      ∧ (lodgeDoCsr s k w len).die.slices = s.die.slices ∧ (lodgeDoCsr s k w len).die.transfers = s.die.transfers
      ∧ (lodgeDoCsr s k w len).die.commit = s.die.commit ∧ (lodgeDoCsr s k w len).die.barriers = s.die.barriers
      ∧ (lodgeDoCsr s k w len).die.windows = s.die.windows ∧ (lodgeDoCsr s k w len).die.ctls = s.die.ctls
      ∧ (lodgeDoCsr s k w len).die.ports = s.die.ports ∧ (lodgeDoCsr s k w len).die.band = s.die.band
      ∧ (lodgeDoCsr s k w len).die.reports = s.die.reports ∧ (lodgeDoCsr s k w len).die.atTick = s.die.atTick := by
  unfold lodgeDoCsr; first | (simp; done) | ((try dsimp only); (repeat' split) <;> simp; done) | (refine ⟨?_, ?_, ?_, ?_, ?_, ?_, ?_, ?_, ?_, ?_, ?_, ?_, ?_, ?_, ?_, ?_, ?_, ?_, ?_, ?_, ?_, ?_, ?_, ?_, ?_, ?_, ?_⟩ <;> first | (simp; done) | ((try dsimp only); (repeat' split) <;> simp; done))

@[simp] theorem lodgeDoSystem_keeps (s : State) (k w len : Nat) :
    (lodgeDoSystem s k w len).pending = s.pending ∧ (lodgeDoSystem s k w len).gate = s.gate ∧ (lodgeDoSystem s k w len).mod = s.mod
      ∧ (lodgeDoSystem s k w len).rows = s.rows ∧ (lodgeDoSystem s k w len).dumps = s.dumps ∧ (lodgeDoSystem s k w len).shed = s.shed
      ∧ (lodgeDoSystem s k w len).replay = s.replay ∧ (lodgeDoSystem s k w len).reg = s.reg ∧ (lodgeDoSystem s k w len).just = s.just
      ∧ (lodgeDoSystem s k w len).tiles = s.tiles ∧ (lodgeDoSystem s k w len).pvs = s.pvs ∧ (lodgeDoSystem s k w len).fns = s.fns
      ∧ (lodgeDoSystem s k w len).out = s.out ∧ (lodgeDoSystem s k w len).free = s.free ∧ (lodgeDoSystem s k w len).sun = s.sun
      ∧ (lodgeDoSystem s k w len).die.hbm = s.die.hbm ∧ (lodgeDoSystem s k w len).die.oyKey = s.die.oyKey
      ∧ (lodgeDoSystem s k w len).die.slices = s.die.slices ∧ (lodgeDoSystem s k w len).die.transfers = s.die.transfers
      ∧ (lodgeDoSystem s k w len).die.commit = s.die.commit ∧ (lodgeDoSystem s k w len).die.barriers = s.die.barriers
      ∧ (lodgeDoSystem s k w len).die.windows = s.die.windows ∧ (lodgeDoSystem s k w len).die.ctls = s.die.ctls
      ∧ (lodgeDoSystem s k w len).die.ports = s.die.ports ∧ (lodgeDoSystem s k w len).die.band = s.die.band
      ∧ (lodgeDoSystem s k w len).die.reports = s.die.reports ∧ (lodgeDoSystem s k w len).die.atTick = s.die.atTick := by
  unfold lodgeDoSystem; first | (simp; done) | ((try dsimp only); (repeat' split) <;> simp; done) | (refine ⟨?_, ?_, ?_, ?_, ?_, ?_, ?_, ?_, ?_, ?_, ?_, ?_, ?_, ?_, ?_, ?_, ?_, ?_, ?_, ?_, ?_, ?_, ?_, ?_, ?_, ?_, ?_⟩ <;> first | (simp; done) | ((try dsimp only); (repeat' split) <;> simp; done))

@[simp] theorem lodgePutF_keeps (s : State) (k w len : Nat) (r : Option (Nat × Nat)) :
    (lodgePutF s k w len r).pending = s.pending ∧ (lodgePutF s k w len r).gate = s.gate ∧ (lodgePutF s k w len r).mod = s.mod
      ∧ (lodgePutF s k w len r).rows = s.rows ∧ (lodgePutF s k w len r).dumps = s.dumps ∧ (lodgePutF s k w len r).shed = s.shed
      ∧ (lodgePutF s k w len r).replay = s.replay ∧ (lodgePutF s k w len r).reg = s.reg ∧ (lodgePutF s k w len r).just = s.just
      ∧ (lodgePutF s k w len r).tiles = s.tiles ∧ (lodgePutF s k w len r).pvs = s.pvs ∧ (lodgePutF s k w len r).fns = s.fns
      ∧ (lodgePutF s k w len r).out = s.out ∧ (lodgePutF s k w len r).free = s.free ∧ (lodgePutF s k w len r).sun = s.sun
      ∧ (lodgePutF s k w len r).die.hbm = s.die.hbm ∧ (lodgePutF s k w len r).die.oyKey = s.die.oyKey
      ∧ (lodgePutF s k w len r).die.slices = s.die.slices ∧ (lodgePutF s k w len r).die.transfers = s.die.transfers
      ∧ (lodgePutF s k w len r).die.commit = s.die.commit ∧ (lodgePutF s k w len r).die.barriers = s.die.barriers
      ∧ (lodgePutF s k w len r).die.windows = s.die.windows ∧ (lodgePutF s k w len r).die.ctls = s.die.ctls
      ∧ (lodgePutF s k w len r).die.ports = s.die.ports ∧ (lodgePutF s k w len r).die.band = s.die.band
      ∧ (lodgePutF s k w len r).die.reports = s.die.reports ∧ (lodgePutF s k w len r).die.atTick = s.die.atTick := by
  unfold lodgePutF; first | (simp; done) | ((try dsimp only); (repeat' split) <;> simp; done) | (refine ⟨?_, ?_, ?_, ?_, ?_, ?_, ?_, ?_, ?_, ?_, ?_, ?_, ?_, ?_, ?_, ?_, ?_, ?_, ?_, ?_, ?_, ?_, ?_, ?_, ?_, ?_, ?_⟩ <;> first | (simp; done) | ((try dsimp only); (repeat' split) <;> simp; done))

@[simp] theorem lodgeDoFp_keeps (s : State) (k w len : Nat) :
    (lodgeDoFp s k w len).pending = s.pending ∧ (lodgeDoFp s k w len).gate = s.gate ∧ (lodgeDoFp s k w len).mod = s.mod
      ∧ (lodgeDoFp s k w len).rows = s.rows ∧ (lodgeDoFp s k w len).dumps = s.dumps ∧ (lodgeDoFp s k w len).shed = s.shed
      ∧ (lodgeDoFp s k w len).replay = s.replay ∧ (lodgeDoFp s k w len).reg = s.reg ∧ (lodgeDoFp s k w len).just = s.just
      ∧ (lodgeDoFp s k w len).tiles = s.tiles ∧ (lodgeDoFp s k w len).pvs = s.pvs ∧ (lodgeDoFp s k w len).fns = s.fns
      ∧ (lodgeDoFp s k w len).out = s.out ∧ (lodgeDoFp s k w len).free = s.free ∧ (lodgeDoFp s k w len).sun = s.sun
      ∧ (lodgeDoFp s k w len).die.hbm = s.die.hbm ∧ (lodgeDoFp s k w len).die.oyKey = s.die.oyKey
      ∧ (lodgeDoFp s k w len).die.slices = s.die.slices ∧ (lodgeDoFp s k w len).die.transfers = s.die.transfers
      ∧ (lodgeDoFp s k w len).die.commit = s.die.commit ∧ (lodgeDoFp s k w len).die.barriers = s.die.barriers
      ∧ (lodgeDoFp s k w len).die.windows = s.die.windows ∧ (lodgeDoFp s k w len).die.ctls = s.die.ctls
      ∧ (lodgeDoFp s k w len).die.ports = s.die.ports ∧ (lodgeDoFp s k w len).die.band = s.die.band
      ∧ (lodgeDoFp s k w len).die.reports = s.die.reports ∧ (lodgeDoFp s k w len).die.atTick = s.die.atTick := by
  unfold lodgeDoFp; first | (simp; done) | ((try dsimp only); (repeat' split) <;> simp; done) | (refine ⟨?_, ?_, ?_, ?_, ?_, ?_, ?_, ?_, ?_, ?_, ?_, ?_, ?_, ?_, ?_, ?_, ?_, ?_, ?_, ?_, ?_, ?_, ?_, ?_, ?_, ?_, ?_⟩ <;> first | (simp; done) | ((try dsimp only); (repeat' split) <;> simp; done))

@[simp] theorem lodgeDoFma_keeps (s : State) (k w len : Nat) :
    (lodgeDoFma s k w len).pending = s.pending ∧ (lodgeDoFma s k w len).gate = s.gate ∧ (lodgeDoFma s k w len).mod = s.mod
      ∧ (lodgeDoFma s k w len).rows = s.rows ∧ (lodgeDoFma s k w len).dumps = s.dumps ∧ (lodgeDoFma s k w len).shed = s.shed
      ∧ (lodgeDoFma s k w len).replay = s.replay ∧ (lodgeDoFma s k w len).reg = s.reg ∧ (lodgeDoFma s k w len).just = s.just
      ∧ (lodgeDoFma s k w len).tiles = s.tiles ∧ (lodgeDoFma s k w len).pvs = s.pvs ∧ (lodgeDoFma s k w len).fns = s.fns
      ∧ (lodgeDoFma s k w len).out = s.out ∧ (lodgeDoFma s k w len).free = s.free ∧ (lodgeDoFma s k w len).sun = s.sun
      ∧ (lodgeDoFma s k w len).die.hbm = s.die.hbm ∧ (lodgeDoFma s k w len).die.oyKey = s.die.oyKey
      ∧ (lodgeDoFma s k w len).die.slices = s.die.slices ∧ (lodgeDoFma s k w len).die.transfers = s.die.transfers
      ∧ (lodgeDoFma s k w len).die.commit = s.die.commit ∧ (lodgeDoFma s k w len).die.barriers = s.die.barriers
      ∧ (lodgeDoFma s k w len).die.windows = s.die.windows ∧ (lodgeDoFma s k w len).die.ctls = s.die.ctls
      ∧ (lodgeDoFma s k w len).die.ports = s.die.ports ∧ (lodgeDoFma s k w len).die.band = s.die.band
      ∧ (lodgeDoFma s k w len).die.reports = s.die.reports ∧ (lodgeDoFma s k w len).die.atTick = s.die.atTick := by
  unfold lodgeDoFma; first | (simp; done) | ((try dsimp only); (repeat' split) <;> simp; done) | (refine ⟨?_, ?_, ?_, ?_, ?_, ?_, ?_, ?_, ?_, ?_, ?_, ?_, ?_, ?_, ?_, ?_, ?_, ?_, ?_, ?_, ?_, ?_, ?_, ?_, ?_, ?_, ?_⟩ <;> first | (simp; done) | ((try dsimp only); (repeat' split) <;> simp; done))

@[simp] theorem lodgeDoOp_keeps (s : State) (k w len : Nat) :
    (lodgeDoOp s k w len).pending = s.pending ∧ (lodgeDoOp s k w len).gate = s.gate ∧ (lodgeDoOp s k w len).mod = s.mod
      ∧ (lodgeDoOp s k w len).rows = s.rows ∧ (lodgeDoOp s k w len).dumps = s.dumps ∧ (lodgeDoOp s k w len).shed = s.shed
      ∧ (lodgeDoOp s k w len).replay = s.replay ∧ (lodgeDoOp s k w len).reg = s.reg ∧ (lodgeDoOp s k w len).just = s.just
      ∧ (lodgeDoOp s k w len).tiles = s.tiles ∧ (lodgeDoOp s k w len).pvs = s.pvs ∧ (lodgeDoOp s k w len).fns = s.fns
      ∧ (lodgeDoOp s k w len).out = s.out ∧ (lodgeDoOp s k w len).free = s.free ∧ (lodgeDoOp s k w len).sun = s.sun
      ∧ (lodgeDoOp s k w len).die.hbm = s.die.hbm ∧ (lodgeDoOp s k w len).die.oyKey = s.die.oyKey
      ∧ (lodgeDoOp s k w len).die.slices = s.die.slices ∧ (lodgeDoOp s k w len).die.transfers = s.die.transfers
      ∧ (lodgeDoOp s k w len).die.commit = s.die.commit ∧ (lodgeDoOp s k w len).die.barriers = s.die.barriers
      ∧ (lodgeDoOp s k w len).die.windows = s.die.windows ∧ (lodgeDoOp s k w len).die.ctls = s.die.ctls
      ∧ (lodgeDoOp s k w len).die.ports = s.die.ports ∧ (lodgeDoOp s k w len).die.band = s.die.band
      ∧ (lodgeDoOp s k w len).die.reports = s.die.reports ∧ (lodgeDoOp s k w len).die.atTick = s.die.atTick := by
  unfold lodgeDoOp; first | (simp; done) | ((try dsimp only); (repeat' split) <;> simp; done) | (refine ⟨?_, ?_, ?_, ?_, ?_, ?_, ?_, ?_, ?_, ?_, ?_, ?_, ?_, ?_, ?_, ?_, ?_, ?_, ?_, ?_, ?_, ?_, ?_, ?_, ?_, ?_, ?_⟩ <;> first | (simp; done) | ((try dsimp only); (repeat' split) <;> simp; done))

@[simp] theorem lodgeDoImm_keeps (s : State) (k w len : Nat) :
    (lodgeDoImm s k w len).pending = s.pending ∧ (lodgeDoImm s k w len).gate = s.gate ∧ (lodgeDoImm s k w len).mod = s.mod
      ∧ (lodgeDoImm s k w len).rows = s.rows ∧ (lodgeDoImm s k w len).dumps = s.dumps ∧ (lodgeDoImm s k w len).shed = s.shed
      ∧ (lodgeDoImm s k w len).replay = s.replay ∧ (lodgeDoImm s k w len).reg = s.reg ∧ (lodgeDoImm s k w len).just = s.just
      ∧ (lodgeDoImm s k w len).tiles = s.tiles ∧ (lodgeDoImm s k w len).pvs = s.pvs ∧ (lodgeDoImm s k w len).fns = s.fns
      ∧ (lodgeDoImm s k w len).out = s.out ∧ (lodgeDoImm s k w len).free = s.free ∧ (lodgeDoImm s k w len).sun = s.sun
      ∧ (lodgeDoImm s k w len).die.hbm = s.die.hbm ∧ (lodgeDoImm s k w len).die.oyKey = s.die.oyKey
      ∧ (lodgeDoImm s k w len).die.slices = s.die.slices ∧ (lodgeDoImm s k w len).die.transfers = s.die.transfers
      ∧ (lodgeDoImm s k w len).die.commit = s.die.commit ∧ (lodgeDoImm s k w len).die.barriers = s.die.barriers
      ∧ (lodgeDoImm s k w len).die.windows = s.die.windows ∧ (lodgeDoImm s k w len).die.ctls = s.die.ctls
      ∧ (lodgeDoImm s k w len).die.ports = s.die.ports ∧ (lodgeDoImm s k w len).die.band = s.die.band
      ∧ (lodgeDoImm s k w len).die.reports = s.die.reports ∧ (lodgeDoImm s k w len).die.atTick = s.die.atTick := by
  unfold lodgeDoImm; first | (simp; done) | ((try dsimp only); (repeat' split) <;> simp; done) | (refine ⟨?_, ?_, ?_, ?_, ?_, ?_, ?_, ?_, ?_, ?_, ?_, ?_, ?_, ?_, ?_, ?_, ?_, ?_, ?_, ?_, ?_, ?_, ?_, ?_, ?_, ?_, ?_⟩ <;> first | (simp; done) | ((try dsimp only); (repeat' split) <;> simp; done))

@[simp] theorem hearDecision_keeps (s : State) (q f : Nat) (d : IhDecision) :
    (hearDecision s q f d).pending = s.pending ∧ (hearDecision s q f d).gate = s.gate ∧ (hearDecision s q f d).mod = s.mod
      ∧ (hearDecision s q f d).rows = s.rows ∧ (hearDecision s q f d).dumps = s.dumps ∧ (hearDecision s q f d).shed = s.shed
      ∧ (hearDecision s q f d).replay = s.replay ∧ (hearDecision s q f d).reg = s.reg ∧ (hearDecision s q f d).just = s.just
      ∧ (hearDecision s q f d).tiles = s.tiles ∧ (hearDecision s q f d).fns = s.fns ∧ (hearDecision s q f d).out = s.out
      ∧ (hearDecision s q f d).free = s.free ∧ (hearDecision s q f d).sun = s.sun ∧ (hearDecision s q f d).die = s.die := by
  unfold hearDecision; first | (simp; done) | ((try dsimp only); (repeat' split) <;> simp; done) | (refine ⟨?_, ?_, ?_, ?_, ?_, ?_, ?_, ?_, ?_, ?_, ?_, ?_, ?_, ?_, ?_⟩ <;> first | (simp; done) | ((try dsimp only); (repeat' split) <;> simp; done))

@[simp] theorem decide__keeps (s : State) (q : Nat) (modules : List Nat) (d : IhDecision) :
    (decide_ s q modules d).pending = s.pending ∧ (decide_ s q modules d).gate = s.gate ∧ (decide_ s q modules d).mod = s.mod
      ∧ (decide_ s q modules d).rows = s.rows ∧ (decide_ s q modules d).dumps = s.dumps ∧ (decide_ s q modules d).shed = s.shed
      ∧ (decide_ s q modules d).replay = s.replay ∧ (decide_ s q modules d).reg = s.reg ∧ (decide_ s q modules d).just = s.just
      ∧ (decide_ s q modules d).tiles = s.tiles ∧ (decide_ s q modules d).fns = s.fns ∧ (decide_ s q modules d).free = s.free
      ∧ (decide_ s q modules d).sun = s.sun ∧ (decide_ s q modules d).die.hbm = s.die.hbm ∧ (decide_ s q modules d).die.oyKey = s.die.oyKey
      ∧ (decide_ s q modules d).die.slices = s.die.slices ∧ (decide_ s q modules d).die.transfers = s.die.transfers
      ∧ (decide_ s q modules d).die.commit = s.die.commit ∧ (decide_ s q modules d).die.barriers = s.die.barriers
      ∧ (decide_ s q modules d).die.windows = s.die.windows ∧ (decide_ s q modules d).die.ctls = s.die.ctls
      ∧ (decide_ s q modules d).die.lodges = s.die.lodges ∧ (decide_ s q modules d).die.band = s.die.band
      ∧ (decide_ s q modules d).die.reports = s.die.reports ∧ (decide_ s q modules d).die.atTick = s.die.atTick := by
  unfold decide_; first | (simp; done) | ((try dsimp only); (repeat' split) <;> simp; done) | (refine ⟨?_, ?_, ?_, ?_, ?_, ?_, ?_, ?_, ?_, ?_, ?_, ?_, ?_, ?_, ?_, ?_, ?_, ?_, ?_, ?_, ?_, ?_, ?_, ?_, ?_⟩ <;> first | (simp; done) | ((try dsimp only); (repeat' split) <;> simp; done))

@[simp] theorem applyDecisions_keeps (s : State) (q f : Nat) :
    (applyDecisions s q f).pending = s.pending ∧ (applyDecisions s q f).gate = s.gate ∧ (applyDecisions s q f).mod = s.mod
      ∧ (applyDecisions s q f).rows = s.rows ∧ (applyDecisions s q f).dumps = s.dumps ∧ (applyDecisions s q f).shed = s.shed
      ∧ (applyDecisions s q f).replay = s.replay ∧ (applyDecisions s q f).reg = s.reg ∧ (applyDecisions s q f).just = s.just
      ∧ (applyDecisions s q f).tiles = s.tiles ∧ (applyDecisions s q f).fns = s.fns ∧ (applyDecisions s q f).out = s.out
      ∧ (applyDecisions s q f).free = s.free ∧ (applyDecisions s q f).sun = s.sun ∧ (applyDecisions s q f).die = s.die := by
  unfold applyDecisions; first | (simp; done) | ((try dsimp only); (repeat' split) <;> simp; done) | (refine ⟨?_, ?_, ?_, ?_, ?_, ?_, ?_, ?_, ?_, ?_, ?_, ?_, ?_, ?_, ?_⟩ <;> first | (simp; done) | ((try dsimp only); (repeat' split) <;> simp; done))

@[simp] theorem writeTable_keeps (s : State) (q : Nat) (i : Image) (t : TableMsg) :
    (writeTable s q i t).pending = s.pending ∧ (writeTable s q i t).gate = s.gate ∧ (writeTable s q i t).mod = s.mod
      ∧ (writeTable s q i t).rows = s.rows ∧ (writeTable s q i t).dumps = s.dumps ∧ (writeTable s q i t).shed = s.shed
      ∧ (writeTable s q i t).replay = s.replay ∧ (writeTable s q i t).reg = s.reg ∧ (writeTable s q i t).just = s.just
      ∧ (writeTable s q i t).tiles = s.tiles ∧ (writeTable s q i t).pvs = s.pvs ∧ (writeTable s q i t).fns = s.fns
      ∧ (writeTable s q i t).out = s.out ∧ (writeTable s q i t).free = s.free ∧ (writeTable s q i t).sun = s.sun
      ∧ (writeTable s q i t).die.oyKey = s.die.oyKey ∧ (writeTable s q i t).die.slices = s.die.slices
      ∧ (writeTable s q i t).die.transfers = s.die.transfers ∧ (writeTable s q i t).die.commit = s.die.commit
      ∧ (writeTable s q i t).die.barriers = s.die.barriers ∧ (writeTable s q i t).die.windows = s.die.windows
      ∧ (writeTable s q i t).die.ctls = s.die.ctls ∧ (writeTable s q i t).die.ports = s.die.ports
      ∧ (writeTable s q i t).die.lodges = s.die.lodges ∧ (writeTable s q i t).die.band = s.die.band
      ∧ (writeTable s q i t).die.reports = s.die.reports ∧ (writeTable s q i t).die.atTick = s.die.atTick := by
  unfold writeTable; first | (simp; done) | ((try dsimp only); (repeat' split) <;> simp; done) | (refine ⟨?_, ?_, ?_, ?_, ?_, ?_, ?_, ?_, ?_, ?_, ?_, ?_, ?_, ?_, ?_, ?_, ?_, ?_, ?_, ?_, ?_, ?_, ?_, ?_, ?_, ?_, ?_⟩ <;> first | (simp; done) | ((try dsimp only); (repeat' split) <;> simp; done))

@[simp] theorem noteMatched_keeps (s : State) (q tag blocks : Nat) (hs : List (List Byte)) :
    (noteMatched s q tag blocks hs).pending = s.pending ∧ (noteMatched s q tag blocks hs).gate = s.gate
      ∧ (noteMatched s q tag blocks hs).mod = s.mod ∧ (noteMatched s q tag blocks hs).rows = s.rows
      ∧ (noteMatched s q tag blocks hs).dumps = s.dumps ∧ (noteMatched s q tag blocks hs).shed = s.shed
      ∧ (noteMatched s q tag blocks hs).replay = s.replay ∧ (noteMatched s q tag blocks hs).reg = s.reg
      ∧ (noteMatched s q tag blocks hs).just = s.just ∧ (noteMatched s q tag blocks hs).tiles = s.tiles
      ∧ (noteMatched s q tag blocks hs).fns = s.fns ∧ (noteMatched s q tag blocks hs).out = s.out ∧ (noteMatched s q tag blocks hs).free = s.free
      ∧ (noteMatched s q tag blocks hs).sun = s.sun ∧ (noteMatched s q tag blocks hs).die = s.die := by
  unfold noteMatched; first | (simp; done) | ((try dsimp only); (repeat' split) <;> simp; done) | (refine ⟨?_, ?_, ?_, ?_, ?_, ?_, ?_, ?_, ?_, ?_, ?_, ?_, ?_, ?_, ?_⟩ <;> first | (simp; done) | ((try dsimp only); (repeat' split) <;> simp; done))

@[simp] theorem tellMatched_keeps (s : State) (a : Ask) (blocks : Nat) (hs : List (List Byte)) :
    (tellMatched s a blocks hs).pending = s.pending ∧ (tellMatched s a blocks hs).gate = s.gate ∧ (tellMatched s a blocks hs).mod = s.mod
      ∧ (tellMatched s a blocks hs).rows = s.rows ∧ (tellMatched s a blocks hs).dumps = s.dumps ∧ (tellMatched s a blocks hs).shed = s.shed
      ∧ (tellMatched s a blocks hs).replay = s.replay ∧ (tellMatched s a blocks hs).reg = s.reg ∧ (tellMatched s a blocks hs).just = s.just
      ∧ (tellMatched s a blocks hs).tiles = s.tiles ∧ (tellMatched s a blocks hs).fns = s.fns ∧ (tellMatched s a blocks hs).free = s.free
      ∧ (tellMatched s a blocks hs).sun = s.sun ∧ (tellMatched s a blocks hs).die.hbm = s.die.hbm
      ∧ (tellMatched s a blocks hs).die.oyKey = s.die.oyKey ∧ (tellMatched s a blocks hs).die.slices = s.die.slices
      ∧ (tellMatched s a blocks hs).die.transfers = s.die.transfers ∧ (tellMatched s a blocks hs).die.commit = s.die.commit
      ∧ (tellMatched s a blocks hs).die.barriers = s.die.barriers ∧ (tellMatched s a blocks hs).die.windows = s.die.windows
      ∧ (tellMatched s a blocks hs).die.ctls = s.die.ctls ∧ (tellMatched s a blocks hs).die.lodges = s.die.lodges
      ∧ (tellMatched s a blocks hs).die.band = s.die.band ∧ (tellMatched s a blocks hs).die.reports = s.die.reports
      ∧ (tellMatched s a blocks hs).die.atTick = s.die.atTick := by
  unfold tellMatched; first | (simp; done) | ((try dsimp only); (repeat' split) <;> simp; done) | (refine ⟨?_, ?_, ?_, ?_, ?_, ?_, ?_, ?_, ?_, ?_, ?_, ?_, ?_, ?_, ?_, ?_, ?_, ?_, ?_, ?_, ?_, ?_, ?_, ?_, ?_⟩ <;> first | (simp; done) | ((try dsimp only); (repeat' split) <;> simp; done))

@[simp] theorem sendTable_keeps (s : State) (i : Image) (a : Ask) (t : TableMsg) :
    (sendTable s i a t).pending = s.pending ∧ (sendTable s i a t).gate = s.gate ∧ (sendTable s i a t).mod = s.mod
      ∧ (sendTable s i a t).rows = s.rows ∧ (sendTable s i a t).dumps = s.dumps ∧ (sendTable s i a t).shed = s.shed
      ∧ (sendTable s i a t).replay = s.replay ∧ (sendTable s i a t).reg = s.reg ∧ (sendTable s i a t).just = s.just
      ∧ (sendTable s i a t).tiles = s.tiles ∧ (sendTable s i a t).pvs = s.pvs ∧ (sendTable s i a t).fns = s.fns
      ∧ (sendTable s i a t).free = s.free ∧ (sendTable s i a t).sun = s.sun ∧ (sendTable s i a t).die.oyKey = s.die.oyKey
      ∧ (sendTable s i a t).die.slices = s.die.slices ∧ (sendTable s i a t).die.transfers = s.die.transfers
      ∧ (sendTable s i a t).die.commit = s.die.commit ∧ (sendTable s i a t).die.barriers = s.die.barriers
      ∧ (sendTable s i a t).die.windows = s.die.windows ∧ (sendTable s i a t).die.ctls = s.die.ctls
      ∧ (sendTable s i a t).die.lodges = s.die.lodges ∧ (sendTable s i a t).die.band = s.die.band
      ∧ (sendTable s i a t).die.reports = s.die.reports ∧ (sendTable s i a t).die.atTick = s.die.atTick := by
  unfold sendTable; first | (simp; done) | ((try dsimp only); (repeat' split) <;> simp; done) | (refine ⟨?_, ?_, ?_, ?_, ?_, ?_, ?_, ?_, ?_, ?_, ?_, ?_, ?_, ?_, ?_, ?_, ?_, ?_, ?_, ?_, ?_, ?_, ?_, ?_, ?_⟩ <;> first | (simp; done) | ((try dsimp only); (repeat' split) <;> simp; done))

@[simp] theorem leadLookup_keeps (s : State) (i : Image) (p : Pool) (a : Ask) :
    (leadLookup s i p a).pending = s.pending ∧ (leadLookup s i p a).gate = s.gate ∧ (leadLookup s i p a).mod = s.mod
      ∧ (leadLookup s i p a).rows = s.rows ∧ (leadLookup s i p a).dumps = s.dumps ∧ (leadLookup s i p a).shed = s.shed
      ∧ (leadLookup s i p a).replay = s.replay ∧ (leadLookup s i p a).just = s.just ∧ (leadLookup s i p a).tiles = s.tiles
      ∧ (leadLookup s i p a).fns = s.fns ∧ (leadLookup s i p a).free = s.free ∧ (leadLookup s i p a).sun = s.sun
      ∧ (leadLookup s i p a).die.oyKey = s.die.oyKey ∧ (leadLookup s i p a).die.slices = s.die.slices
      ∧ (leadLookup s i p a).die.transfers = s.die.transfers ∧ (leadLookup s i p a).die.commit = s.die.commit
      ∧ (leadLookup s i p a).die.barriers = s.die.barriers ∧ (leadLookup s i p a).die.windows = s.die.windows
      ∧ (leadLookup s i p a).die.ctls = s.die.ctls ∧ (leadLookup s i p a).die.lodges = s.die.lodges ∧ (leadLookup s i p a).die.band = s.die.band
      ∧ (leadLookup s i p a).die.reports = s.die.reports ∧ (leadLookup s i p a).die.atTick = s.die.atTick := by
  unfold leadLookup; first | (simp; done) | ((try dsimp only); (repeat' split) <;> simp; done) | (refine ⟨?_, ?_, ?_, ?_, ?_, ?_, ?_, ?_, ?_, ?_, ?_, ?_, ?_, ?_, ?_, ?_, ?_, ?_, ?_, ?_, ?_, ?_, ?_⟩ <;> first | (simp; done) | ((try dsimp only); (repeat' split) <;> simp; done))

@[simp] theorem lookupAsk_keeps (s : State) (i : Image) (a : Ask) :
    (lookupAsk s i a).pending = s.pending ∧ (lookupAsk s i a).gate = s.gate ∧ (lookupAsk s i a).mod = s.mod ∧ (lookupAsk s i a).rows = s.rows
      ∧ (lookupAsk s i a).dumps = s.dumps ∧ (lookupAsk s i a).shed = s.shed ∧ (lookupAsk s i a).replay = s.replay
      ∧ (lookupAsk s i a).just = s.just ∧ (lookupAsk s i a).tiles = s.tiles ∧ (lookupAsk s i a).fns = s.fns ∧ (lookupAsk s i a).free = s.free
      ∧ (lookupAsk s i a).sun = s.sun ∧ (lookupAsk s i a).die.oyKey = s.die.oyKey ∧ (lookupAsk s i a).die.slices = s.die.slices
      ∧ (lookupAsk s i a).die.transfers = s.die.transfers ∧ (lookupAsk s i a).die.commit = s.die.commit
      ∧ (lookupAsk s i a).die.barriers = s.die.barriers ∧ (lookupAsk s i a).die.windows = s.die.windows ∧ (lookupAsk s i a).die.ctls = s.die.ctls
      ∧ (lookupAsk s i a).die.lodges = s.die.lodges ∧ (lookupAsk s i a).die.band = s.die.band ∧ (lookupAsk s i a).die.reports = s.die.reports
      ∧ (lookupAsk s i a).die.atTick = s.die.atTick := by
  unfold lookupAsk; first | (simp; done) | ((try dsimp only); (repeat' split) <;> simp; done) | (refine ⟨?_, ?_, ?_, ?_, ?_, ?_, ?_, ?_, ?_, ?_, ?_, ?_, ?_, ?_, ?_, ?_, ?_, ?_, ?_, ?_, ?_, ?_, ?_⟩ <;> first | (simp; done) | ((try dsimp only); (repeat' split) <;> simp; done))

@[simp] theorem marked_keeps (s : State) (q tag : Nat) :
    (marked s q tag).pending = s.pending ∧ (marked s q tag).gate = s.gate ∧ (marked s q tag).mod = s.mod ∧ (marked s q tag).rows = s.rows
      ∧ (marked s q tag).dumps = s.dumps ∧ (marked s q tag).shed = s.shed ∧ (marked s q tag).replay = s.replay ∧ (marked s q tag).reg = s.reg
      ∧ (marked s q tag).just = s.just ∧ (marked s q tag).tiles = s.tiles ∧ (marked s q tag).fns = s.fns ∧ (marked s q tag).out = s.out
      ∧ (marked s q tag).free = s.free ∧ (marked s q tag).sun = s.sun ∧ (marked s q tag).die = s.die := by
  unfold marked; first | (simp; done) | ((try dsimp only); (repeat' split) <;> simp; done) | (refine ⟨?_, ?_, ?_, ?_, ?_, ?_, ?_, ?_, ?_, ?_, ?_, ?_, ?_, ?_, ?_⟩ <;> first | (simp; done) | ((try dsimp only); (repeat' split) <;> simp; done))

@[simp] theorem blockCommitted_keeps (s : State) (q slot module : Nat) :
    (blockCommitted s q slot module).pending = s.pending ∧ (blockCommitted s q slot module).gate = s.gate
      ∧ (blockCommitted s q slot module).mod = s.mod ∧ (blockCommitted s q slot module).rows = s.rows
      ∧ (blockCommitted s q slot module).dumps = s.dumps ∧ (blockCommitted s q slot module).shed = s.shed
      ∧ (blockCommitted s q slot module).replay = s.replay ∧ (blockCommitted s q slot module).reg = s.reg
      ∧ (blockCommitted s q slot module).just = s.just ∧ (blockCommitted s q slot module).tiles = s.tiles
      ∧ (blockCommitted s q slot module).fns = s.fns ∧ (blockCommitted s q slot module).free = s.free
      ∧ (blockCommitted s q slot module).sun = s.sun ∧ (blockCommitted s q slot module).die.hbm = s.die.hbm
      ∧ (blockCommitted s q slot module).die.oyKey = s.die.oyKey ∧ (blockCommitted s q slot module).die.slices = s.die.slices
      ∧ (blockCommitted s q slot module).die.transfers = s.die.transfers ∧ (blockCommitted s q slot module).die.commit = s.die.commit
      ∧ (blockCommitted s q slot module).die.barriers = s.die.barriers ∧ (blockCommitted s q slot module).die.windows = s.die.windows
      ∧ (blockCommitted s q slot module).die.ctls = s.die.ctls ∧ (blockCommitted s q slot module).die.lodges = s.die.lodges
      ∧ (blockCommitted s q slot module).die.band = s.die.band ∧ (blockCommitted s q slot module).die.reports = s.die.reports
      ∧ (blockCommitted s q slot module).die.atTick = s.die.atTick := by
  unfold blockCommitted; first | (simp; done) | ((try dsimp only); (repeat' split) <;> simp; done) | (refine ⟨?_, ?_, ?_, ?_, ?_, ?_, ?_, ?_, ?_, ?_, ?_, ?_, ?_, ?_, ?_, ?_, ?_, ?_, ?_, ?_, ?_, ?_, ?_, ?_, ?_⟩ <;> first | (simp; done) | ((try dsimp only); (repeat' split) <;> simp; done))

@[simp] theorem reportBlock_keeps (s : State) (q : Nat) (p : Pool) (n : Nat) :
    (reportBlock s q p n).pending = s.pending ∧ (reportBlock s q p n).gate = s.gate ∧ (reportBlock s q p n).mod = s.mod
      ∧ (reportBlock s q p n).rows = s.rows ∧ (reportBlock s q p n).dumps = s.dumps ∧ (reportBlock s q p n).shed = s.shed
      ∧ (reportBlock s q p n).replay = s.replay ∧ (reportBlock s q p n).reg = s.reg ∧ (reportBlock s q p n).just = s.just
      ∧ (reportBlock s q p n).tiles = s.tiles ∧ (reportBlock s q p n).fns = s.fns ∧ (reportBlock s q p n).free = s.free
      ∧ (reportBlock s q p n).sun = s.sun ∧ (reportBlock s q p n).die.hbm = s.die.hbm ∧ (reportBlock s q p n).die.oyKey = s.die.oyKey
      ∧ (reportBlock s q p n).die.slices = s.die.slices ∧ (reportBlock s q p n).die.transfers = s.die.transfers
      ∧ (reportBlock s q p n).die.commit = s.die.commit ∧ (reportBlock s q p n).die.barriers = s.die.barriers
      ∧ (reportBlock s q p n).die.windows = s.die.windows ∧ (reportBlock s q p n).die.ctls = s.die.ctls
      ∧ (reportBlock s q p n).die.lodges = s.die.lodges ∧ (reportBlock s q p n).die.band = s.die.band
      ∧ (reportBlock s q p n).die.reports = s.die.reports ∧ (reportBlock s q p n).die.atTick = s.die.atTick := by
  unfold reportBlock; first | (simp; done) | ((try dsimp only); (repeat' split) <;> simp; done) | (refine ⟨?_, ?_, ?_, ?_, ?_, ?_, ?_, ?_, ?_, ?_, ?_, ?_, ?_, ?_, ?_, ?_, ?_, ?_, ?_, ?_, ?_, ?_, ?_, ?_, ?_⟩ <;> first | (simp; done) | ((try dsimp only); (repeat' split) <;> simp; done))

@[simp] theorem blockAtCommit_keeps (q : Nat) (p : Pool) (s : State) (x : Nat × Nat) :
    (blockAtCommit q p s x).pending = s.pending ∧ (blockAtCommit q p s x).gate = s.gate ∧ (blockAtCommit q p s x).mod = s.mod
      ∧ (blockAtCommit q p s x).rows = s.rows ∧ (blockAtCommit q p s x).dumps = s.dumps ∧ (blockAtCommit q p s x).shed = s.shed
      ∧ (blockAtCommit q p s x).replay = s.replay ∧ (blockAtCommit q p s x).reg = s.reg ∧ (blockAtCommit q p s x).just = s.just
      ∧ (blockAtCommit q p s x).tiles = s.tiles ∧ (blockAtCommit q p s x).fns = s.fns ∧ (blockAtCommit q p s x).free = s.free
      ∧ (blockAtCommit q p s x).sun = s.sun ∧ (blockAtCommit q p s x).die.hbm = s.die.hbm ∧ (blockAtCommit q p s x).die.oyKey = s.die.oyKey
      ∧ (blockAtCommit q p s x).die.slices = s.die.slices ∧ (blockAtCommit q p s x).die.transfers = s.die.transfers
      ∧ (blockAtCommit q p s x).die.commit = s.die.commit ∧ (blockAtCommit q p s x).die.barriers = s.die.barriers
      ∧ (blockAtCommit q p s x).die.windows = s.die.windows ∧ (blockAtCommit q p s x).die.ctls = s.die.ctls
      ∧ (blockAtCommit q p s x).die.lodges = s.die.lodges ∧ (blockAtCommit q p s x).die.band = s.die.band
      ∧ (blockAtCommit q p s x).die.reports = s.die.reports ∧ (blockAtCommit q p s x).die.atTick = s.die.atTick := by
  unfold blockAtCommit; first | (simp; done) | ((try dsimp only); (repeat' split) <;> simp; done) | (refine ⟨?_, ?_, ?_, ?_, ?_, ?_, ?_, ?_, ?_, ?_, ?_, ?_, ?_, ?_, ?_, ?_, ?_, ?_, ?_, ?_, ?_, ?_, ?_, ?_, ?_⟩ <;> first | (simp; done) | ((try dsimp only); (repeat' split) <;> simp; done))

@[simp] theorem blocksAtCommit_keeps (s : State) (q : Nat) :
    (blocksAtCommit s q).pending = s.pending ∧ (blocksAtCommit s q).gate = s.gate ∧ (blocksAtCommit s q).mod = s.mod
      ∧ (blocksAtCommit s q).rows = s.rows ∧ (blocksAtCommit s q).dumps = s.dumps ∧ (blocksAtCommit s q).shed = s.shed
      ∧ (blocksAtCommit s q).replay = s.replay ∧ (blocksAtCommit s q).reg = s.reg ∧ (blocksAtCommit s q).just = s.just
      ∧ (blocksAtCommit s q).tiles = s.tiles ∧ (blocksAtCommit s q).fns = s.fns ∧ (blocksAtCommit s q).free = s.free
      ∧ (blocksAtCommit s q).sun = s.sun ∧ (blocksAtCommit s q).die.hbm = s.die.hbm ∧ (blocksAtCommit s q).die.oyKey = s.die.oyKey
      ∧ (blocksAtCommit s q).die.slices = s.die.slices ∧ (blocksAtCommit s q).die.transfers = s.die.transfers
      ∧ (blocksAtCommit s q).die.commit = s.die.commit ∧ (blocksAtCommit s q).die.barriers = s.die.barriers
      ∧ (blocksAtCommit s q).die.windows = s.die.windows ∧ (blocksAtCommit s q).die.ctls = s.die.ctls
      ∧ (blocksAtCommit s q).die.lodges = s.die.lodges ∧ (blocksAtCommit s q).die.band = s.die.band
      ∧ (blocksAtCommit s q).die.reports = s.die.reports ∧ (blocksAtCommit s q).die.atTick = s.die.atTick := by
  unfold blocksAtCommit; first | (simp; done) | ((try dsimp only); (repeat' split) <;> simp; done) | (refine ⟨?_, ?_, ?_, ?_, ?_, ?_, ?_, ?_, ?_, ?_, ?_, ?_, ?_, ?_, ?_, ?_, ?_, ?_, ?_, ?_, ?_, ?_, ?_, ?_, ?_⟩ <;> first | (simp; done) | ((try dsimp only); (repeat' split) <;> simp; done))

@[simp] theorem openSlot_keeps (s0 : State) (o : SlotOpen) :
    (openSlot s0 o).pending = s0.pending ∧ (openSlot s0 o).gate = s0.gate ∧ (openSlot s0 o).mod = s0.mod ∧ (openSlot s0 o).rows = s0.rows
      ∧ (openSlot s0 o).dumps = s0.dumps ∧ (openSlot s0 o).shed = s0.shed ∧ (openSlot s0 o).replay = s0.replay ∧ (openSlot s0 o).just = s0.just
      ∧ (openSlot s0 o).tiles = s0.tiles ∧ (openSlot s0 o).pvs = s0.pvs ∧ (openSlot s0 o).fns = s0.fns ∧ (openSlot s0 o).out = s0.out
      ∧ (openSlot s0 o).free = s0.free ∧ (openSlot s0 o).sun = s0.sun ∧ (openSlot s0 o).die.hbm = s0.die.hbm
      ∧ (openSlot s0 o).die.oyKey = s0.die.oyKey ∧ (openSlot s0 o).die.slices = s0.die.slices ∧ (openSlot s0 o).die.transfers = s0.die.transfers
      ∧ (openSlot s0 o).die.commit = s0.die.commit ∧ (openSlot s0 o).die.barriers = s0.die.barriers
      ∧ (openSlot s0 o).die.windows = s0.die.windows ∧ (openSlot s0 o).die.ctls = s0.die.ctls ∧ (openSlot s0 o).die.ports = s0.die.ports
      ∧ (openSlot s0 o).die.reports = s0.die.reports ∧ (openSlot s0 o).die.atTick = s0.die.atTick := by
  unfold openSlot; first | (simp; done) | ((try dsimp only); (repeat' split) <;> simp; done) | (refine ⟨?_, ?_, ?_, ?_, ?_, ?_, ?_, ?_, ?_, ?_, ?_, ?_, ?_, ?_, ?_, ?_, ?_, ?_, ?_, ?_, ?_, ?_, ?_, ?_, ?_⟩ <;> first | (simp; done) | ((try dsimp only); (repeat' split) <;> simp; done))

@[simp] theorem openOn_keeps (s : State) (module : Nat) (o : SlotOpen) :
    (openOn s module o).pending = s.pending ∧ (openOn s module o).gate = s.gate ∧ (openOn s module o).mod = s.mod
      ∧ (openOn s module o).rows = s.rows ∧ (openOn s module o).dumps = s.dumps ∧ (openOn s module o).shed = s.shed
      ∧ (openOn s module o).replay = s.replay ∧ (openOn s module o).just = s.just ∧ (openOn s module o).tiles = s.tiles
      ∧ (openOn s module o).pvs = s.pvs ∧ (openOn s module o).fns = s.fns ∧ (openOn s module o).free = s.free ∧ (openOn s module o).sun = s.sun
      ∧ (openOn s module o).die.hbm = s.die.hbm ∧ (openOn s module o).die.oyKey = s.die.oyKey ∧ (openOn s module o).die.slices = s.die.slices
      ∧ (openOn s module o).die.transfers = s.die.transfers ∧ (openOn s module o).die.commit = s.die.commit
      ∧ (openOn s module o).die.barriers = s.die.barriers ∧ (openOn s module o).die.windows = s.die.windows
      ∧ (openOn s module o).die.ctls = s.die.ctls ∧ (openOn s module o).die.reports = s.die.reports
      ∧ (openOn s module o).die.atTick = s.die.atTick := by
  unfold openOn; first | (simp; done) | ((try dsimp only); (repeat' split) <;> simp; done) | (refine ⟨?_, ?_, ?_, ?_, ?_, ?_, ?_, ?_, ?_, ?_, ?_, ?_, ?_, ?_, ?_, ?_, ?_, ?_, ?_, ?_, ?_, ?_, ?_⟩ <;> first | (simp; done) | ((try dsimp only); (repeat' split) <;> simp; done))

@[simp] theorem refuse_keeps (s : State) (q : Nat) (rec : List W64) (status : Nat) :
    (refuse s q rec status).pending = s.pending ∧ (refuse s q rec status).gate = s.gate ∧ (refuse s q rec status).mod = s.mod
      ∧ (refuse s q rec status).rows = s.rows ∧ (refuse s q rec status).shed = s.shed ∧ (refuse s q rec status).replay = s.replay
      ∧ (refuse s q rec status).just = s.just ∧ (refuse s q rec status).sun.ctr = s.sun.ctr ∧ (refuse s q rec status).sun.lags = s.sun.lags
      ∧ (refuse s q rec status).sun.tick = s.sun.tick ∧ (refuse s q rec status).sun.time = s.sun.time
      ∧ (refuse s q rec status).sun.freeze = s.sun.freeze ∧ (refuse s q rec status).sun.stopped = s.sun.stopped := by
  unfold refuse; first | (simp; done) | ((try dsimp only); (repeat' split) <;> simp; done) | (refine ⟨?_, ?_, ?_, ?_, ?_, ?_, ?_, ?_, ?_, ?_, ?_, ?_, ?_⟩ <;> first | (simp; done) | ((try dsimp only); (repeat' split) <;> simp; done))

@[simp] theorem advance_keeps (s : State) (q : Nat) :
    (advance s q).pending = s.pending ∧ (advance s q).gate = s.gate ∧ (advance s q).mod = s.mod ∧ (advance s q).rows = s.rows
      ∧ (advance s q).dumps = s.dumps ∧ (advance s q).shed = s.shed ∧ (advance s q).replay = s.replay ∧ (advance s q).reg = s.reg
      ∧ (advance s q).just = s.just ∧ (advance s q).tiles = s.tiles ∧ (advance s q).fns = s.fns ∧ (advance s q).free = s.free
      ∧ (advance s q).sun = s.sun ∧ (advance s q).die = s.die := by
  unfold advance; first | (simp; done) | ((try dsimp only); (repeat' split) <;> simp; done) | (refine ⟨?_, ?_, ?_, ?_, ?_, ?_, ?_, ?_, ?_, ?_, ?_, ?_, ?_, ?_⟩ <;> first | (simp; done) | ((try dsimp only); (repeat' split) <;> simp; done))

@[simp] theorem enqueue_keeps (s : State) (q : Nat) (rec : List W64) (prompt : List Nat) :
    (enqueue s q rec prompt).pending = s.pending ∧ (enqueue s q rec prompt).gate = s.gate ∧ (enqueue s q rec prompt).mod = s.mod
      ∧ (enqueue s q rec prompt).rows = s.rows ∧ (enqueue s q rec prompt).dumps = s.dumps ∧ (enqueue s q rec prompt).shed = s.shed
      ∧ (enqueue s q rec prompt).replay = s.replay ∧ (enqueue s q rec prompt).reg = s.reg ∧ (enqueue s q rec prompt).just = s.just
      ∧ (enqueue s q rec prompt).tiles = s.tiles ∧ (enqueue s q rec prompt).fns = s.fns ∧ (enqueue s q rec prompt).out = s.out
      ∧ (enqueue s q rec prompt).free = s.free ∧ (enqueue s q rec prompt).sun = s.sun ∧ (enqueue s q rec prompt).die = s.die := by
  unfold enqueue; first | (simp; done) | ((try dsimp only); (repeat' split) <;> simp; done) | (refine ⟨?_, ?_, ?_, ?_, ?_, ?_, ?_, ?_, ?_, ?_, ?_, ?_, ?_, ?_, ?_⟩ <;> first | (simp; done) | ((try dsimp only); (repeat' split) <;> simp; done))

@[simp] theorem submit_keeps (s : State) (q : Nat) (i : Image) (rec : List W64) (tokens : List Nat) :
    (submit s q i rec tokens).pending = s.pending ∧ (submit s q i rec tokens).gate = s.gate ∧ (submit s q i rec tokens).mod = s.mod
      ∧ (submit s q i rec tokens).rows = s.rows ∧ (submit s q i rec tokens).shed = s.shed ∧ (submit s q i rec tokens).replay = s.replay
      ∧ (submit s q i rec tokens).just = s.just ∧ (submit s q i rec tokens).sun.ctr = s.sun.ctr ∧ (submit s q i rec tokens).sun.lags = s.sun.lags
      ∧ (submit s q i rec tokens).sun.tick = s.sun.tick ∧ (submit s q i rec tokens).sun.time = s.sun.time
      ∧ (submit s q i rec tokens).sun.freeze = s.sun.freeze ∧ (submit s q i rec tokens).sun.stopped = s.sun.stopped := by
  unfold submit; first | (simp; done) | ((try dsimp only); (repeat' split) <;> simp; done) | (refine ⟨?_, ?_, ?_, ?_, ?_, ?_, ?_, ?_, ?_, ?_, ?_, ?_, ?_⟩ <;> first | (simp; done) | ((try dsimp only); (repeat' split) <;> simp; done))

@[simp] theorem cancel_keeps (s : State) (q : Nat) (rec : List W64) :
    (cancel s q rec).pending = s.pending ∧ (cancel s q rec).gate = s.gate ∧ (cancel s q rec).mod = s.mod ∧ (cancel s q rec).rows = s.rows
      ∧ (cancel s q rec).shed = s.shed ∧ (cancel s q rec).replay = s.replay ∧ (cancel s q rec).just = s.just
      ∧ (cancel s q rec).sun.ctr = s.sun.ctr ∧ (cancel s q rec).sun.lags = s.sun.lags ∧ (cancel s q rec).sun.tick = s.sun.tick
      ∧ (cancel s q rec).sun.time = s.sun.time ∧ (cancel s q rec).sun.freeze = s.sun.freeze ∧ (cancel s q rec).sun.stopped = s.sun.stopped := by
  unfold cancel; first | (simp; done) | ((try dsimp only); (repeat' split) <;> simp; done) | (refine ⟨?_, ?_, ?_, ?_, ?_, ?_, ?_, ?_, ?_, ?_, ?_, ?_, ?_⟩ <;> first | (simp; done) | ((try dsimp only); (repeat' split) <;> simp; done))

@[simp] theorem reqDoorbell_keeps (s : State) (f : Func) (q : Nat) (v : W64) :
    (reqDoorbell s f q v).pending = s.pending ∧ (reqDoorbell s f q v).gate = s.gate ∧ (reqDoorbell s f q v).mod = s.mod
      ∧ (reqDoorbell s f q v).rows = s.rows ∧ (reqDoorbell s f q v).dumps = s.dumps ∧ (reqDoorbell s f q v).shed = s.shed
      ∧ (reqDoorbell s f q v).replay = s.replay ∧ (reqDoorbell s f q v).reg = s.reg ∧ (reqDoorbell s f q v).just = s.just
      ∧ (reqDoorbell s f q v).tiles = s.tiles ∧ (reqDoorbell s f q v).free = s.free ∧ (reqDoorbell s f q v).sun = s.sun
      ∧ (reqDoorbell s f q v).die = s.die := by
  unfold reqDoorbell; first | (simp; done) | ((try dsimp only); (repeat' split) <;> simp; done) | (refine ⟨?_, ?_, ?_, ?_, ?_, ?_, ?_, ?_, ?_, ?_, ?_, ?_, ?_⟩ <;> first | (simp; done) | ((try dsimp only); (repeat' split) <;> simp; done))

@[simp] theorem cplDoorbell_keeps (s : State) (f : Func) (q : Nat) (v : W64) :
    (cplDoorbell s f q v).pending = s.pending ∧ (cplDoorbell s f q v).gate = s.gate ∧ (cplDoorbell s f q v).mod = s.mod
      ∧ (cplDoorbell s f q v).rows = s.rows ∧ (cplDoorbell s f q v).dumps = s.dumps ∧ (cplDoorbell s f q v).shed = s.shed
      ∧ (cplDoorbell s f q v).replay = s.replay ∧ (cplDoorbell s f q v).reg = s.reg ∧ (cplDoorbell s f q v).just = s.just
      ∧ (cplDoorbell s f q v).tiles = s.tiles ∧ (cplDoorbell s f q v).free = s.free ∧ (cplDoorbell s f q v).sun = s.sun
      ∧ (cplDoorbell s f q v).die = s.die := by
  unfold cplDoorbell; first | (simp; done) | ((try dsimp only); (repeat' split) <;> simp; done) | (refine ⟨?_, ?_, ?_, ?_, ?_, ?_, ?_, ?_, ?_, ?_, ?_, ?_, ?_⟩ <;> first | (simp; done) | ((try dsimp only); (repeat' split) <;> simp; done))

@[simp] theorem stopAnnounced_keeps (s : State) (q frame : Nat) :
    (stopAnnounced s q frame).pending = s.pending ∧ (stopAnnounced s q frame).gate = s.gate ∧ (stopAnnounced s q frame).mod = s.mod
      ∧ (stopAnnounced s q frame).rows = s.rows ∧ (stopAnnounced s q frame).dumps = s.dumps ∧ (stopAnnounced s q frame).shed = s.shed
      ∧ (stopAnnounced s q frame).replay = s.replay ∧ (stopAnnounced s q frame).reg = s.reg ∧ (stopAnnounced s q frame).just = s.just
      ∧ (stopAnnounced s q frame).tiles = s.tiles ∧ (stopAnnounced s q frame).free = s.free ∧ (stopAnnounced s q frame).sun = s.sun
      ∧ (stopAnnounced s q frame).die = s.die := by
  unfold stopAnnounced; first | (simp; done) | ((try dsimp only); (repeat' split) <;> simp; done) | (refine ⟨?_, ?_, ?_, ?_, ?_, ?_, ?_, ?_, ?_, ?_, ?_, ?_, ?_⟩ <;> first | (simp; done) | ((try dsimp only); (repeat' split) <;> simp; done))

@[simp] theorem wardenMessage_keeps (s : State) (m : WMsg) :
    (wardenMessage s m).pending = s.pending ∧ (wardenMessage s m).gate = s.gate ∧ (wardenMessage s m).mod = s.mod
      ∧ (wardenMessage s m).rows = s.rows ∧ (wardenMessage s m).dumps = s.dumps ∧ (wardenMessage s m).shed = s.shed
      ∧ (wardenMessage s m).replay = s.replay ∧ (wardenMessage s m).just = s.just ∧ (wardenMessage s m).tiles = s.tiles
      ∧ (wardenMessage s m).free = s.free ∧ (wardenMessage s m).sun = s.sun ∧ (wardenMessage s m).die.oyKey = s.die.oyKey
      ∧ (wardenMessage s m).die.slices = s.die.slices ∧ (wardenMessage s m).die.transfers = s.die.transfers
      ∧ (wardenMessage s m).die.commit = s.die.commit ∧ (wardenMessage s m).die.barriers = s.die.barriers
      ∧ (wardenMessage s m).die.windows = s.die.windows ∧ (wardenMessage s m).die.ctls = s.die.ctls
      ∧ (wardenMessage s m).die.reports = s.die.reports ∧ (wardenMessage s m).die.atTick = s.die.atTick := by
  unfold wardenMessage; first | (simp; done) | ((try dsimp only); (repeat' split) <;> simp; done) | (refine ⟨?_, ?_, ?_, ?_, ?_, ?_, ?_, ?_, ?_, ?_, ?_, ?_, ?_, ?_, ?_, ?_, ?_, ?_, ?_, ?_⟩ <;> first | (simp; done) | ((try dsimp only); (repeat' split) <;> simp; done))

@[simp] theorem applyAtTick_keeps (s : State) (x : AtTick) :
    (applyAtTick s x).pending = s.pending ∧ (applyAtTick s x).gate = s.gate ∧ (applyAtTick s x).mod = s.mod ∧ (applyAtTick s x).rows = s.rows
      ∧ (applyAtTick s x).dumps = s.dumps ∧ (applyAtTick s x).shed = s.shed ∧ (applyAtTick s x).replay = s.replay
      ∧ (applyAtTick s x).just = s.just ∧ (applyAtTick s x).tiles = s.tiles ∧ (applyAtTick s x).fns = s.fns ∧ (applyAtTick s x).out = s.out
      ∧ (applyAtTick s x).free = s.free ∧ (applyAtTick s x).sun = s.sun ∧ (applyAtTick s x).die = s.die := by
  unfold applyAtTick; first | (simp; done) | ((try dsimp only); (repeat' split) <;> simp; done) | (refine ⟨?_, ?_, ?_, ?_, ?_, ?_, ?_, ?_, ?_, ?_, ?_, ?_, ?_, ?_⟩ <;> first | (simp; done) | ((try dsimp only); (repeat' split) <;> simp; done))

@[simp] theorem applySettings_keeps (s : State) :
    (applySettings s).pending = s.pending ∧ (applySettings s).gate = s.gate ∧ (applySettings s).mod = s.mod ∧ (applySettings s).rows = s.rows
      ∧ (applySettings s).dumps = s.dumps ∧ (applySettings s).shed = s.shed ∧ (applySettings s).replay = s.replay
      ∧ (applySettings s).just = s.just ∧ (applySettings s).tiles = s.tiles ∧ (applySettings s).fns = s.fns ∧ (applySettings s).out = s.out
      ∧ (applySettings s).free = s.free ∧ (applySettings s).sun = s.sun ∧ (applySettings s).die.hbm = s.die.hbm
      ∧ (applySettings s).die.oyKey = s.die.oyKey ∧ (applySettings s).die.slices = s.die.slices
      ∧ (applySettings s).die.transfers = s.die.transfers ∧ (applySettings s).die.commit = s.die.commit
      ∧ (applySettings s).die.barriers = s.die.barriers ∧ (applySettings s).die.windows = s.die.windows ∧ (applySettings s).die.ctls = s.die.ctls
      ∧ (applySettings s).die.ports = s.die.ports ∧ (applySettings s).die.lodges = s.die.lodges ∧ (applySettings s).die.band = s.die.band
      ∧ (applySettings s).die.reports = s.die.reports := by
  unfold applySettings; first | (simp; done) | ((try dsimp only); (repeat' split) <;> simp; done) | (refine ⟨?_, ?_, ?_, ?_, ?_, ?_, ?_, ?_, ?_, ?_, ?_, ?_, ?_, ?_, ?_, ?_, ?_, ?_, ?_, ?_, ?_, ?_, ?_, ?_, ?_⟩ <;> first | (simp; done) | ((try dsimp only); (repeat' split) <;> simp; done))

@[simp] theorem refill_keeps (d : Nat) (s : State) (n : Nat) :
    (refill d s n).pending = s.pending ∧ (refill d s n).gate = s.gate ∧ (refill d s n).mod = s.mod ∧ (refill d s n).rows = s.rows
      ∧ (refill d s n).dumps = s.dumps ∧ (refill d s n).shed = s.shed ∧ (refill d s n).replay = s.replay ∧ (refill d s n).just = s.just
      ∧ (refill d s n).tiles = s.tiles ∧ (refill d s n).pvs = s.pvs ∧ (refill d s n).fns = s.fns ∧ (refill d s n).out = s.out
      ∧ (refill d s n).free = s.free ∧ (refill d s n).sun = s.sun ∧ (refill d s n).die.hbm = s.die.hbm ∧ (refill d s n).die.oyKey = s.die.oyKey
      ∧ (refill d s n).die.slices = s.die.slices ∧ (refill d s n).die.transfers = s.die.transfers ∧ (refill d s n).die.commit = s.die.commit
      ∧ (refill d s n).die.barriers = s.die.barriers ∧ (refill d s n).die.windows = s.die.windows ∧ (refill d s n).die.ctls = s.die.ctls
      ∧ (refill d s n).die.ports = s.die.ports ∧ (refill d s n).die.lodges = s.die.lodges ∧ (refill d s n).die.band = s.die.band
      ∧ (refill d s n).die.reports = s.die.reports ∧ (refill d s n).die.atTick = s.die.atTick := by
  unfold refill; first | (simp; done) | ((try dsimp only); (repeat' split) <;> simp; done) | (refine ⟨?_, ?_, ?_, ?_, ?_, ?_, ?_, ?_, ?_, ?_, ?_, ?_, ?_, ?_, ?_, ?_, ?_, ?_, ?_, ?_, ?_, ?_, ?_, ?_, ?_, ?_, ?_⟩ <;> first | (simp; done) | ((try dsimp only); (repeat' split) <;> simp; done))

@[simp] theorem refillAll_keeps (s : State) :
    (refillAll s).pending = s.pending ∧ (refillAll s).gate = s.gate ∧ (refillAll s).mod = s.mod ∧ (refillAll s).rows = s.rows
      ∧ (refillAll s).dumps = s.dumps ∧ (refillAll s).shed = s.shed ∧ (refillAll s).replay = s.replay ∧ (refillAll s).just = s.just
      ∧ (refillAll s).tiles = s.tiles ∧ (refillAll s).pvs = s.pvs ∧ (refillAll s).fns = s.fns ∧ (refillAll s).out = s.out
      ∧ (refillAll s).free = s.free ∧ (refillAll s).sun.ctr = s.sun.ctr ∧ (refillAll s).sun.lags = s.sun.lags
      ∧ (refillAll s).sun.tick = s.sun.tick ∧ (refillAll s).sun.time = s.sun.time ∧ (refillAll s).sun.holds = s.sun.holds
      ∧ (refillAll s).sun.freeze = s.sun.freeze ∧ (refillAll s).sun.stopped = s.sun.stopped ∧ (refillAll s).die.hbm = s.die.hbm
      ∧ (refillAll s).die.oyKey = s.die.oyKey ∧ (refillAll s).die.slices = s.die.slices ∧ (refillAll s).die.transfers = s.die.transfers
      ∧ (refillAll s).die.commit = s.die.commit ∧ (refillAll s).die.barriers = s.die.barriers ∧ (refillAll s).die.windows = s.die.windows
      ∧ (refillAll s).die.ctls = s.die.ctls ∧ (refillAll s).die.ports = s.die.ports ∧ (refillAll s).die.lodges = s.die.lodges
      ∧ (refillAll s).die.band = s.die.band ∧ (refillAll s).die.reports = s.die.reports ∧ (refillAll s).die.atTick = s.die.atTick := by
  unfold refillAll; first | (simp; done) | ((try dsimp only); (repeat' split) <;> simp; done) | (refine ⟨?_, ?_, ?_, ?_, ?_, ?_, ?_, ?_, ?_, ?_, ?_, ?_, ?_, ?_, ?_, ?_, ?_, ?_, ?_, ?_, ?_, ?_, ?_, ?_, ?_, ?_, ?_, ?_, ?_, ?_, ?_, ?_, ?_⟩ <;> first | (simp; done) | ((try dsimp only); (repeat' split) <;> simp; done))

@[simp] theorem cancelOne_keeps (q : Nat) (late : List Nat) (s : State) (tag : Nat) :
    (cancelOne q late s tag).pending = s.pending ∧ (cancelOne q late s tag).gate = s.gate ∧ (cancelOne q late s tag).mod = s.mod
      ∧ (cancelOne q late s tag).rows = s.rows ∧ (cancelOne q late s tag).shed = s.shed ∧ (cancelOne q late s tag).replay = s.replay
      ∧ (cancelOne q late s tag).just = s.just ∧ (cancelOne q late s tag).free = s.free ∧ (cancelOne q late s tag).sun.ctr = s.sun.ctr
      ∧ (cancelOne q late s tag).sun.lags = s.sun.lags ∧ (cancelOne q late s tag).sun.tick = s.sun.tick
      ∧ (cancelOne q late s tag).sun.time = s.sun.time ∧ (cancelOne q late s tag).sun.freeze = s.sun.freeze
      ∧ (cancelOne q late s tag).sun.stopped = s.sun.stopped := by
  unfold cancelOne; first | (simp; done) | ((try dsimp only); (repeat' split) <;> simp; done) | (refine ⟨?_, ?_, ?_, ?_, ?_, ?_, ?_, ?_, ?_, ?_, ?_, ?_, ?_, ?_⟩ <;> first | (simp; done) | ((try dsimp only); (repeat' split) <;> simp; done))

@[simp] theorem recordEmission_keeps (q : Nat) (late : List Nat) (s : State) (e : Emission) :
    (recordEmission q late s e).pending = s.pending ∧ (recordEmission q late s e).gate = s.gate ∧ (recordEmission q late s e).mod = s.mod
      ∧ (recordEmission q late s e).rows = s.rows ∧ (recordEmission q late s e).shed = s.shed ∧ (recordEmission q late s e).replay = s.replay
      ∧ (recordEmission q late s e).just = s.just ∧ (recordEmission q late s e).free = s.free ∧ (recordEmission q late s e).sun.ctr = s.sun.ctr
      ∧ (recordEmission q late s e).sun.lags = s.sun.lags ∧ (recordEmission q late s e).sun.tick = s.sun.tick
      ∧ (recordEmission q late s e).sun.time = s.sun.time ∧ (recordEmission q late s e).sun.freeze = s.sun.freeze
      ∧ (recordEmission q late s e).sun.stopped = s.sun.stopped := by
  unfold recordEmission; first | (simp; done) | ((try dsimp only); (repeat' split) <;> simp; done) | (refine ⟨?_, ?_, ?_, ?_, ?_, ?_, ?_, ?_, ?_, ?_, ?_, ?_, ?_, ?_⟩ <;> first | (simp; done) | ((try dsimp only); (repeat' split) <;> simp; done))

@[simp] theorem cancelsAndEmissions_keeps (s : State) (q : Nat) :
    (cancelsAndEmissions s q).pending = s.pending ∧ (cancelsAndEmissions s q).gate = s.gate ∧ (cancelsAndEmissions s q).mod = s.mod
      ∧ (cancelsAndEmissions s q).rows = s.rows ∧ (cancelsAndEmissions s q).shed = s.shed ∧ (cancelsAndEmissions s q).replay = s.replay
      ∧ (cancelsAndEmissions s q).just = s.just ∧ (cancelsAndEmissions s q).free = s.free ∧ (cancelsAndEmissions s q).sun.ctr = s.sun.ctr
      ∧ (cancelsAndEmissions s q).sun.lags = s.sun.lags ∧ (cancelsAndEmissions s q).sun.tick = s.sun.tick
      ∧ (cancelsAndEmissions s q).sun.time = s.sun.time ∧ (cancelsAndEmissions s q).sun.freeze = s.sun.freeze
      ∧ (cancelsAndEmissions s q).sun.stopped = s.sun.stopped := by
  unfold cancelsAndEmissions; first | (simp; done) | ((try dsimp only); (repeat' split) <;> simp; done) | (refine ⟨?_, ?_, ?_, ?_, ?_, ?_, ?_, ?_, ?_, ?_, ?_, ?_, ?_, ?_⟩ <;> first | (simp; done) | ((try dsimp only); (repeat' split) <;> simp; done))

@[simp] theorem endWaiting_keeps (s : State) (q status : Nat) (which : Req → Bool) :
    (endWaiting s q status which).pending = s.pending ∧ (endWaiting s q status which).gate = s.gate ∧ (endWaiting s q status which).mod = s.mod
      ∧ (endWaiting s q status which).rows = s.rows ∧ (endWaiting s q status which).shed = s.shed
      ∧ (endWaiting s q status which).replay = s.replay ∧ (endWaiting s q status which).just = s.just
      ∧ (endWaiting s q status which).free = s.free ∧ (endWaiting s q status which).sun.ctr = s.sun.ctr
      ∧ (endWaiting s q status which).sun.lags = s.sun.lags ∧ (endWaiting s q status which).sun.tick = s.sun.tick
      ∧ (endWaiting s q status which).sun.time = s.sun.time ∧ (endWaiting s q status which).sun.freeze = s.sun.freeze
      ∧ (endWaiting s q status which).sun.stopped = s.sun.stopped := by
  unfold endWaiting; first | (simp; done) | ((try dsimp only); (repeat' split) <;> simp; done) | (refine ⟨?_, ?_, ?_, ?_, ?_, ?_, ?_, ?_, ?_, ?_, ?_, ?_, ?_, ?_⟩ <;> first | (simp; done) | ((try dsimp only); (repeat' split) <;> simp; done))

@[simp] theorem ageing_keeps (s : State) (q : Nat) :
    (ageing s q).pending = s.pending ∧ (ageing s q).gate = s.gate ∧ (ageing s q).mod = s.mod ∧ (ageing s q).rows = s.rows
      ∧ (ageing s q).shed = s.shed ∧ (ageing s q).replay = s.replay ∧ (ageing s q).just = s.just ∧ (ageing s q).free = s.free
      ∧ (ageing s q).sun.ctr = s.sun.ctr ∧ (ageing s q).sun.lags = s.sun.lags ∧ (ageing s q).sun.tick = s.sun.tick
      ∧ (ageing s q).sun.time = s.sun.time ∧ (ageing s q).sun.freeze = s.sun.freeze ∧ (ageing s q).sun.stopped = s.sun.stopped := by
  unfold ageing; first | (simp; done) | ((try dsimp only); (repeat' split) <;> simp; done) | (refine ⟨?_, ?_, ?_, ?_, ?_, ?_, ?_, ?_, ?_, ?_, ?_, ?_, ?_, ?_⟩ <;> first | (simp; done) | ((try dsimp only); (repeat' split) <;> simp; done))

@[simp] theorem admitOne_keeps (s : State) (q : Nat) (i : Image) (r : Req) (x : Nat × Nat × Nat × Option Nat) :
    (admitOne s q i r x).pending = s.pending ∧ (admitOne s q i r x).gate = s.gate ∧ (admitOne s q i r x).mod = s.mod
      ∧ (admitOne s q i r x).rows = s.rows ∧ (admitOne s q i r x).dumps = s.dumps ∧ (admitOne s q i r x).shed = s.shed
      ∧ (admitOne s q i r x).replay = s.replay ∧ (admitOne s q i r x).just = s.just ∧ (admitOne s q i r x).tiles = s.tiles
      ∧ (admitOne s q i r x).fns = s.fns ∧ (admitOne s q i r x).free = s.free ∧ (admitOne s q i r x).sun = s.sun
      ∧ (admitOne s q i r x).die.hbm = s.die.hbm ∧ (admitOne s q i r x).die.oyKey = s.die.oyKey ∧ (admitOne s q i r x).die.slices = s.die.slices
      ∧ (admitOne s q i r x).die.transfers = s.die.transfers ∧ (admitOne s q i r x).die.commit = s.die.commit
      ∧ (admitOne s q i r x).die.barriers = s.die.barriers ∧ (admitOne s q i r x).die.windows = s.die.windows
      ∧ (admitOne s q i r x).die.ctls = s.die.ctls ∧ (admitOne s q i r x).die.reports = s.die.reports
      ∧ (admitOne s q i r x).die.atTick = s.die.atTick := by
  unfold admitOne; first | (simp; done) | ((try dsimp only); (repeat' split) <;> simp; done) | (refine ⟨?_, ?_, ?_, ?_, ?_, ?_, ?_, ?_, ?_, ?_, ?_, ?_, ?_, ?_, ?_, ?_, ?_, ?_, ?_, ?_, ?_, ?_⟩ <;> first | (simp; done) | ((try dsimp only); (repeat' split) <;> simp; done))

@[simp] theorem drainTick_keeps (s : State) (q : Nat) :
    (drainTick s q).pending = s.pending ∧ (drainTick s q).gate = s.gate ∧ (drainTick s q).mod = s.mod ∧ (drainTick s q).rows = s.rows
      ∧ (drainTick s q).shed = s.shed ∧ (drainTick s q).replay = s.replay ∧ (drainTick s q).just = s.just ∧ (drainTick s q).free = s.free
      ∧ (drainTick s q).sun.ctr = s.sun.ctr ∧ (drainTick s q).sun.lags = s.sun.lags ∧ (drainTick s q).sun.tick = s.sun.tick
      ∧ (drainTick s q).sun.time = s.sun.time ∧ (drainTick s q).sun.freeze = s.sun.freeze ∧ (drainTick s q).sun.stopped = s.sun.stopped := by
  unfold drainTick; first | (simp; done) | ((try dsimp only); (repeat' split) <;> simp; done) | (refine ⟨?_, ?_, ?_, ?_, ?_, ?_, ?_, ?_, ?_, ?_, ?_, ?_, ?_, ?_⟩ <;> first | (simp; done) | ((try dsimp only); (repeat' split) <;> simp; done))

@[simp] theorem doorbellLost_keeps (s : State) (n : Nat) :
    (doorbellLost s n).pending = s.pending ∧ (doorbellLost s n).gate = s.gate ∧ (doorbellLost s n).mod = s.mod ∧ (doorbellLost s n).rows = s.rows
      ∧ (doorbellLost s n).dumps = s.dumps ∧ (doorbellLost s n).shed = s.shed ∧ (doorbellLost s n).replay = s.replay
      ∧ (doorbellLost s n).reg = s.reg ∧ (doorbellLost s n).just = s.just ∧ (doorbellLost s n).tiles = s.tiles ∧ (doorbellLost s n).pvs = s.pvs
      ∧ (doorbellLost s n).out = s.out ∧ (doorbellLost s n).free = s.free ∧ (doorbellLost s n).sun = s.sun ∧ (doorbellLost s n).die = s.die := by
  unfold doorbellLost; first | (simp; done) | ((try dsimp only); (repeat' split) <;> simp; done) | (refine ⟨?_, ?_, ?_, ?_, ?_, ?_, ?_, ?_, ?_, ?_, ?_, ?_, ?_, ?_, ?_⟩ <;> first | (simp; done) | ((try dsimp only); (repeat' split) <;> simp; done))

@[simp] theorem doorbell_keeps (s : State) (n : Nat) :
    (doorbell s n).pending = s.pending ∧ (doorbell s n).gate = s.gate ∧ (doorbell s n).mod = s.mod ∧ (doorbell s n).rows = s.rows
      ∧ (doorbell s n).dumps = s.dumps ∧ (doorbell s n).shed = s.shed ∧ (doorbell s n).replay = s.replay ∧ (doorbell s n).reg = s.reg
      ∧ (doorbell s n).just = s.just ∧ (doorbell s n).tiles = s.tiles ∧ (doorbell s n).pvs = s.pvs ∧ (doorbell s n).out = s.out
      ∧ (doorbell s n).free = s.free ∧ (doorbell s n).sun = s.sun ∧ (doorbell s n).die = s.die := by
  unfold doorbell; first | (simp; done) | ((try dsimp only); (repeat' split) <;> simp; done) | (refine ⟨?_, ?_, ?_, ?_, ?_, ?_, ?_, ?_, ?_, ?_, ?_, ?_, ?_, ?_, ?_⟩ <;> first | (simp; done) | ((try dsimp only); (repeat' split) <;> simp; done))

@[simp] theorem answer_keeps (s : State) (n status detail ticket : Nat) (res : List W64) :
    (answer s n status detail ticket res).pending = s.pending ∧ (answer s n status detail ticket res).gate = s.gate
      ∧ (answer s n status detail ticket res).mod = s.mod ∧ (answer s n status detail ticket res).rows = s.rows
      ∧ (answer s n status detail ticket res).dumps = s.dumps ∧ (answer s n status detail ticket res).shed = s.shed
      ∧ (answer s n status detail ticket res).replay = s.replay ∧ (answer s n status detail ticket res).reg = s.reg
      ∧ (answer s n status detail ticket res).just = s.just ∧ (answer s n status detail ticket res).tiles = s.tiles
      ∧ (answer s n status detail ticket res).pvs = s.pvs ∧ (answer s n status detail ticket res).free = s.free
      ∧ (answer s n status detail ticket res).sun = s.sun ∧ (answer s n status detail ticket res).die = s.die := by
  unfold answer; first | (simp; done) | ((try dsimp only); (repeat' split) <;> simp; done) | (refine ⟨?_, ?_, ?_, ?_, ?_, ?_, ?_, ?_, ?_, ?_, ?_, ?_, ?_, ?_⟩ <;> first | (simp; done) | ((try dsimp only); (repeat' split) <;> simp; done))

@[simp] theorem answerDone_keeps (s : State) (n : Nat) (res : List W64) :
    (answerDone s n res).pending = s.pending ∧ (answerDone s n res).gate = s.gate ∧ (answerDone s n res).mod = s.mod
      ∧ (answerDone s n res).rows = s.rows ∧ (answerDone s n res).dumps = s.dumps ∧ (answerDone s n res).shed = s.shed
      ∧ (answerDone s n res).replay = s.replay ∧ (answerDone s n res).reg = s.reg ∧ (answerDone s n res).just = s.just
      ∧ (answerDone s n res).tiles = s.tiles ∧ (answerDone s n res).pvs = s.pvs ∧ (answerDone s n res).free = s.free
      ∧ (answerDone s n res).sun = s.sun ∧ (answerDone s n res).die = s.die := by
  unfold answerDone; first | (simp; done) | ((try dsimp only); (repeat' split) <;> simp; done) | (refine ⟨?_, ?_, ?_, ?_, ?_, ?_, ?_, ?_, ?_, ?_, ?_, ?_, ?_, ?_⟩ <;> first | (simp; done) | ((try dsimp only); (repeat' split) <;> simp; done))

@[simp] theorem answerFail_keeps (s : State) (n status detail : Nat) :
    (answerFail s n status detail).pending = s.pending ∧ (answerFail s n status detail).gate = s.gate
      ∧ (answerFail s n status detail).mod = s.mod ∧ (answerFail s n status detail).rows = s.rows
      ∧ (answerFail s n status detail).dumps = s.dumps ∧ (answerFail s n status detail).shed = s.shed
      ∧ (answerFail s n status detail).replay = s.replay ∧ (answerFail s n status detail).reg = s.reg
      ∧ (answerFail s n status detail).just = s.just ∧ (answerFail s n status detail).tiles = s.tiles
      ∧ (answerFail s n status detail).pvs = s.pvs ∧ (answerFail s n status detail).free = s.free ∧ (answerFail s n status detail).sun = s.sun
      ∧ (answerFail s n status detail).die = s.die := by
  unfold answerFail; first | (simp; done) | ((try dsimp only); (repeat' split) <;> simp; done) | (refine ⟨?_, ?_, ?_, ?_, ?_, ?_, ?_, ?_, ?_, ?_, ?_, ?_, ?_, ?_⟩ <;> first | (simp; done) | ((try dsimp only); (repeat' split) <;> simp; done))

@[simp] theorem accept_keeps (s : State) (n op : Nat) (q : Option Nat) (ms : Nat) (res : List W64) :
    (accept s n op q ms res).pending = s.pending ∧ (accept s n op q ms res).gate = s.gate ∧ (accept s n op q ms res).mod = s.mod
      ∧ (accept s n op q ms res).rows = s.rows ∧ (accept s n op q ms res).dumps = s.dumps ∧ (accept s n op q ms res).shed = s.shed
      ∧ (accept s n op q ms res).replay = s.replay ∧ (accept s n op q ms res).reg = s.reg ∧ (accept s n op q ms res).just = s.just
      ∧ (accept s n op q ms res).tiles = s.tiles ∧ (accept s n op q ms res).pvs = s.pvs ∧ (accept s n op q ms res).free = s.free
      ∧ (accept s n op q ms res).sun = s.sun ∧ (accept s n op q ms res).die = s.die := by
  unfold accept; first | (simp; done) | ((try dsimp only); (repeat' split) <;> simp; done) | (refine ⟨?_, ?_, ?_, ?_, ?_, ?_, ?_, ?_, ?_, ?_, ?_, ?_, ?_, ?_⟩ <;> first | (simp; done) | ((try dsimp only); (repeat' split) <;> simp; done))

@[simp] theorem undefinedOpcode_keeps (s : State) (f : Func) :
    (undefinedOpcode s f).pending = s.pending ∧ (undefinedOpcode s f).gate = s.gate ∧ (undefinedOpcode s f).mod = s.mod
      ∧ (undefinedOpcode s f).rows = s.rows ∧ (undefinedOpcode s f).dumps = s.dumps ∧ (undefinedOpcode s f).shed = s.shed
      ∧ (undefinedOpcode s f).replay = s.replay ∧ (undefinedOpcode s f).reg = s.reg ∧ (undefinedOpcode s f).just = s.just
      ∧ (undefinedOpcode s f).tiles = s.tiles ∧ (undefinedOpcode s f).pvs = s.pvs ∧ (undefinedOpcode s f).free = s.free
      ∧ (undefinedOpcode s f).sun = s.sun ∧ (undefinedOpcode s f).die = s.die := by
  unfold undefinedOpcode; first | (simp; done) | ((try dsimp only); (repeat' split) <;> simp; done) | (refine ⟨?_, ?_, ?_, ?_, ?_, ?_, ?_, ?_, ?_, ?_, ?_, ?_, ?_, ?_⟩ <;> first | (simp; done) | ((try dsimp only); (repeat' split) <;> simp; done))

@[simp] theorem asyncRead_keeps (s : State) (n : Nat) :
    (asyncRead s n).pending = s.pending ∧ (asyncRead s n).gate = s.gate ∧ (asyncRead s n).mod = s.mod ∧ (asyncRead s n).rows = s.rows
      ∧ (asyncRead s n).dumps = s.dumps ∧ (asyncRead s n).shed = s.shed ∧ (asyncRead s n).replay = s.replay ∧ (asyncRead s n).reg = s.reg
      ∧ (asyncRead s n).just = s.just ∧ (asyncRead s n).tiles = s.tiles ∧ (asyncRead s n).pvs = s.pvs ∧ (asyncRead s n).free = s.free
      ∧ (asyncRead s n).sun = s.sun ∧ (asyncRead s n).die = s.die := by
  unfold asyncRead; first | (simp; done) | ((try dsimp only); (repeat' split) <;> simp; done) | (refine ⟨?_, ?_, ?_, ?_, ?_, ?_, ?_, ?_, ?_, ?_, ?_, ?_, ?_, ?_⟩ <;> first | (simp; done) | ((try dsimp only); (repeat' split) <;> simp; done))

@[simp] theorem configure_keeps (s : State) (a : SMap W64) (plan : List W64) :
    (configure s a plan).pending = s.pending ∧ (configure s a plan).gate = s.gate ∧ (configure s a plan).mod = s.mod
      ∧ (configure s a plan).rows = s.rows ∧ (configure s a plan).dumps = s.dumps ∧ (configure s a plan).shed = s.shed
      ∧ (configure s a plan).replay = s.replay ∧ (configure s a plan).just = s.just ∧ (configure s a plan).tiles = s.tiles
      ∧ (configure s a plan).pvs = s.pvs ∧ (configure s a plan).fns = s.fns ∧ (configure s a plan).out = s.out
      ∧ (configure s a plan).free = s.free ∧ (configure s a plan).sun = s.sun ∧ (configure s a plan).die.hbm = s.die.hbm
      ∧ (configure s a plan).die.oyKey = s.die.oyKey ∧ (configure s a plan).die.slices = s.die.slices
      ∧ (configure s a plan).die.transfers = s.die.transfers ∧ (configure s a plan).die.commit = s.die.commit
      ∧ (configure s a plan).die.barriers = s.die.barriers ∧ (configure s a plan).die.windows = s.die.windows
      ∧ (configure s a plan).die.ctls = s.die.ctls ∧ (configure s a plan).die.lodges = s.die.lodges ∧ (configure s a plan).die.band = s.die.band
      ∧ (configure s a plan).die.reports = s.die.reports ∧ (configure s a plan).die.atTick = s.die.atTick := by
  unfold configure; first | (simp; done) | ((try dsimp only); (repeat' split) <;> simp; done) | (refine ⟨?_, ?_, ?_, ?_, ?_, ?_, ?_, ?_, ?_, ?_, ?_, ?_, ?_, ?_, ?_, ?_, ?_, ?_, ?_, ?_, ?_, ?_, ?_, ?_, ?_, ?_⟩ <;> first | (simp; done) | ((try dsimp only); (repeat' split) <;> simp; done))

@[simp] theorem setBin_keeps (s : State) (n : Nat) (a : SMap W64) :
    (setBin s n a).pending = s.pending ∧ (setBin s n a).gate = s.gate ∧ (setBin s n a).mod = s.mod ∧ (setBin s n a).rows = s.rows
      ∧ (setBin s n a).dumps = s.dumps ∧ (setBin s n a).shed = s.shed ∧ (setBin s n a).replay = s.replay ∧ (setBin s n a).reg = s.reg
      ∧ (setBin s n a).just = s.just ∧ (setBin s n a).tiles = s.tiles ∧ (setBin s n a).pvs = s.pvs ∧ (setBin s n a).free = s.free
      ∧ (setBin s n a).die = s.die ∧ (setBin s n a).sun.ctr = s.sun.ctr ∧ (setBin s n a).sun.lags = s.sun.lags
      ∧ (setBin s n a).sun.tick = s.sun.tick ∧ (setBin s n a).sun.time = s.sun.time ∧ (setBin s n a).sun.holds = s.sun.holds
      ∧ (setBin s n a).sun.freeze = s.sun.freeze ∧ (setBin s n a).sun.stopped = s.sun.stopped := by
  unfold setBin; first | (simp; done) | ((try dsimp only); (repeat' split) <;> simp; done) | (refine ⟨?_, ?_, ?_, ?_, ?_, ?_, ?_, ?_, ?_, ?_, ?_, ?_, ?_, ?_, ?_, ?_, ?_, ?_, ?_, ?_⟩ <;> first | (simp; done) | ((try dsimp only); (repeat' split) <;> simp; done))

@[simp] theorem atNextTick_keeps (s : State) (x : AtTick) :
    (atNextTick s x).pending = s.pending ∧ (atNextTick s x).gate = s.gate ∧ (atNextTick s x).mod = s.mod ∧ (atNextTick s x).rows = s.rows
      ∧ (atNextTick s x).dumps = s.dumps ∧ (atNextTick s x).shed = s.shed ∧ (atNextTick s x).replay = s.replay ∧ (atNextTick s x).reg = s.reg
      ∧ (atNextTick s x).just = s.just ∧ (atNextTick s x).tiles = s.tiles ∧ (atNextTick s x).pvs = s.pvs ∧ (atNextTick s x).fns = s.fns
      ∧ (atNextTick s x).out = s.out ∧ (atNextTick s x).free = s.free ∧ (atNextTick s x).sun = s.sun ∧ (atNextTick s x).die.hbm = s.die.hbm
      ∧ (atNextTick s x).die.oyKey = s.die.oyKey ∧ (atNextTick s x).die.slices = s.die.slices ∧ (atNextTick s x).die.transfers = s.die.transfers
      ∧ (atNextTick s x).die.commit = s.die.commit ∧ (atNextTick s x).die.barriers = s.die.barriers
      ∧ (atNextTick s x).die.windows = s.die.windows ∧ (atNextTick s x).die.ctls = s.die.ctls ∧ (atNextTick s x).die.ports = s.die.ports
      ∧ (atNextTick s x).die.lodges = s.die.lodges ∧ (atNextTick s x).die.band = s.die.band ∧ (atNextTick s x).die.reports = s.die.reports := by
  unfold atNextTick; first | (simp; done) | ((try dsimp only); (repeat' split) <;> simp; done) | (refine ⟨?_, ?_, ?_, ?_, ?_, ?_, ?_, ?_, ?_, ?_, ?_, ?_, ?_, ?_, ?_, ?_, ?_, ?_, ?_, ?_, ?_, ?_, ?_, ?_, ?_, ?_, ?_⟩ <;> first | (simp; done) | ((try dsimp only); (repeat' split) <;> simp; done))

@[simp] theorem shedWriteComplete_keeps (s : State) :
    (shedWriteComplete s).pending = s.pending ∧ (shedWriteComplete s).gate = s.gate ∧ (shedWriteComplete s).mod = s.mod
      ∧ (shedWriteComplete s).rows = s.rows ∧ (shedWriteComplete s).dumps = s.dumps ∧ (shedWriteComplete s).replay = s.replay
      ∧ (shedWriteComplete s).reg = s.reg ∧ (shedWriteComplete s).just = s.just ∧ (shedWriteComplete s).tiles = s.tiles
      ∧ (shedWriteComplete s).pvs = s.pvs ∧ (shedWriteComplete s).free = s.free ∧ (shedWriteComplete s).sun = s.sun
      ∧ (shedWriteComplete s).die = s.die := by
  unfold shedWriteComplete; first | (simp; done) | ((try dsimp only); (repeat' split) <;> simp; done) | (refine ⟨?_, ?_, ?_, ?_, ?_, ?_, ?_, ?_, ?_, ?_, ?_, ?_, ?_⟩ <;> first | (simp; done) | ((try dsimp only); (repeat' split) <;> simp; done))

@[simp] theorem clearTenants_keeps (s : State) (r : PvRes) :
    (clearTenants s r).pending = s.pending ∧ (clearTenants s r).gate = s.gate ∧ (clearTenants s r).mod = s.mod ∧ (clearTenants s r).rows = s.rows
      ∧ (clearTenants s r).dumps = s.dumps ∧ (clearTenants s r).shed = s.shed ∧ (clearTenants s r).replay = s.replay
      ∧ (clearTenants s r).just = s.just ∧ (clearTenants s r).tiles = s.tiles ∧ (clearTenants s r).pvs = s.pvs ∧ (clearTenants s r).fns = s.fns
      ∧ (clearTenants s r).out = s.out ∧ (clearTenants s r).free = s.free ∧ (clearTenants s r).sun = s.sun
      ∧ (clearTenants s r).die.hbm = s.die.hbm ∧ (clearTenants s r).die.oyKey = s.die.oyKey ∧ (clearTenants s r).die.slices = s.die.slices
      ∧ (clearTenants s r).die.transfers = s.die.transfers ∧ (clearTenants s r).die.commit = s.die.commit
      ∧ (clearTenants s r).die.barriers = s.die.barriers ∧ (clearTenants s r).die.windows = s.die.windows
      ∧ (clearTenants s r).die.ctls = s.die.ctls ∧ (clearTenants s r).die.ports = s.die.ports ∧ (clearTenants s r).die.lodges = s.die.lodges
      ∧ (clearTenants s r).die.band = s.die.band ∧ (clearTenants s r).die.reports = s.die.reports := by
  unfold clearTenants; first | (simp; done) | ((try dsimp only); (repeat' split) <;> simp; done) | (refine ⟨?_, ?_, ?_, ?_, ?_, ?_, ?_, ?_, ?_, ?_, ?_, ?_, ?_, ?_, ?_, ?_, ?_, ?_, ?_, ?_, ?_, ?_, ?_, ?_, ?_, ?_⟩ <;> first | (simp; done) | ((try dsimp only); (repeat' split) <;> simp; done))

@[simp] theorem createPv_keeps (s : State) (q : Nat) (r : PvRes) :
    (createPv s q r).pending = s.pending ∧ (createPv s q r).gate = s.gate ∧ (createPv s q r).mod = s.mod ∧ (createPv s q r).rows = s.rows
      ∧ (createPv s q r).dumps = s.dumps ∧ (createPv s q r).shed = s.shed ∧ (createPv s q r).replay = s.replay ∧ (createPv s q r).just = s.just
      ∧ (createPv s q r).free = s.free ∧ (createPv s q r).sun.ctr = s.sun.ctr ∧ (createPv s q r).sun.lags = s.sun.lags
      ∧ (createPv s q r).sun.tick = s.sun.tick ∧ (createPv s q r).sun.time = s.sun.time ∧ (createPv s q r).sun.freeze = s.sun.freeze
      ∧ (createPv s q r).sun.stopped = s.sun.stopped ∧ (createPv s q r).die.oyKey = s.die.oyKey ∧ (createPv s q r).die.slices = s.die.slices
      ∧ (createPv s q r).die.transfers = s.die.transfers ∧ (createPv s q r).die.commit = s.die.commit
      ∧ (createPv s q r).die.barriers = s.die.barriers ∧ (createPv s q r).die.windows = s.die.windows ∧ (createPv s q r).die.band = s.die.band
      ∧ (createPv s q r).die.reports = s.die.reports := by
  unfold createPv; first | (simp; done) | ((try dsimp only); (repeat' split) <;> simp; done) | (refine ⟨?_, ?_, ?_, ?_, ?_, ?_, ?_, ?_, ?_, ?_, ?_, ?_, ?_, ?_, ?_, ?_, ?_, ?_, ?_, ?_, ?_, ?_, ?_⟩ <;> first | (simp; done) | ((try dsimp only); (repeat' split) <;> simp; done))

@[simp] theorem freeSalt_keeps (s : State) (n : Nat) :
    (freeSalt s n).pending = s.pending ∧ (freeSalt s n).gate = s.gate ∧ (freeSalt s n).mod = s.mod ∧ (freeSalt s n).rows = s.rows
      ∧ (freeSalt s n).dumps = s.dumps ∧ (freeSalt s n).shed = s.shed ∧ (freeSalt s n).replay = s.replay ∧ (freeSalt s n).just = s.just
      ∧ (freeSalt s n).tiles = s.tiles ∧ (freeSalt s n).pvs = s.pvs ∧ (freeSalt s n).fns = s.fns ∧ (freeSalt s n).out = s.out
      ∧ (freeSalt s n).free = s.free ∧ (freeSalt s n).sun = s.sun ∧ (freeSalt s n).die = s.die := by
  unfold freeSalt; first | (simp; done) | ((try dsimp only); (repeat' split) <;> simp; done) | (refine ⟨?_, ?_, ?_, ?_, ?_, ?_, ?_, ?_, ?_, ?_, ?_, ?_, ?_, ?_, ?_⟩ <;> first | (simp; done) | ((try dsimp only); (repeat' split) <;> simp; done))

@[simp] theorem destroyPv_keeps (s : State) (q : Nat) :
    (destroyPv s q).pending = s.pending ∧ (destroyPv s q).gate = s.gate ∧ (destroyPv s q).mod = s.mod ∧ (destroyPv s q).rows = s.rows
      ∧ (destroyPv s q).dumps = s.dumps ∧ (destroyPv s q).shed = s.shed ∧ (destroyPv s q).replay = s.replay ∧ (destroyPv s q).just = s.just
      ∧ (destroyPv s q).tiles = s.tiles ∧ (destroyPv s q).free = s.free ∧ (destroyPv s q).sun = s.sun ∧ (destroyPv s q).die.oyKey = s.die.oyKey
      ∧ (destroyPv s q).die.transfers = s.die.transfers ∧ (destroyPv s q).die.windows = s.die.windows ∧ (destroyPv s q).die.ctls = s.die.ctls
      ∧ (destroyPv s q).die.ports = s.die.ports ∧ (destroyPv s q).die.lodges = s.die.lodges ∧ (destroyPv s q).die.band = s.die.band
      ∧ (destroyPv s q).die.reports = s.die.reports := by
  unfold destroyPv; first | (simp; done) | ((try dsimp only); (repeat' split) <;> simp; done) | (refine ⟨?_, ?_, ?_, ?_, ?_, ?_, ?_, ?_, ?_, ?_, ?_, ?_, ?_, ?_, ?_, ?_, ?_, ?_, ?_⟩ <;> first | (simp; done) | ((try dsimp only); (repeat' split) <;> simp; done))

@[simp] theorem unload_keeps (s : State) (q : Nat) :
    (unload s q).pending = s.pending ∧ (unload s q).gate = s.gate ∧ (unload s q).mod = s.mod ∧ (unload s q).rows = s.rows
      ∧ (unload s q).dumps = s.dumps ∧ (unload s q).shed = s.shed ∧ (unload s q).replay = s.replay ∧ (unload s q).reg = s.reg
      ∧ (unload s q).just = s.just ∧ (unload s q).fns = s.fns ∧ (unload s q).out = s.out ∧ (unload s q).free = s.free ∧ (unload s q).sun = s.sun
      ∧ (unload s q).die.hbm = s.die.hbm ∧ (unload s q).die.oyKey = s.die.oyKey ∧ (unload s q).die.slices = s.die.slices
      ∧ (unload s q).die.transfers = s.die.transfers ∧ (unload s q).die.commit = s.die.commit ∧ (unload s q).die.windows = s.die.windows
      ∧ (unload s q).die.ctls = s.die.ctls ∧ (unload s q).die.ports = s.die.ports ∧ (unload s q).die.lodges = s.die.lodges
      ∧ (unload s q).die.band = s.die.band ∧ (unload s q).die.reports = s.die.reports ∧ (unload s q).die.atTick = s.die.atTick := by
  unfold unload; first | (simp; done) | ((try dsimp only); (repeat' split) <;> simp; done) | (refine ⟨?_, ?_, ?_, ?_, ?_, ?_, ?_, ?_, ?_, ?_, ?_, ?_, ?_, ?_, ?_, ?_, ?_, ?_, ?_, ?_, ?_, ?_, ?_, ?_, ?_⟩ <;> first | (simp; done) | ((try dsimp only); (repeat' split) <;> simp; done))

@[simp] theorem resetPavilion_keeps (s : State) (q : Nat) :
    (resetPavilion s q).pending = s.pending ∧ (resetPavilion s q).gate = s.gate ∧ (resetPavilion s q).mod = s.mod
      ∧ (resetPavilion s q).rows = s.rows ∧ (resetPavilion s q).dumps = s.dumps ∧ (resetPavilion s q).shed = s.shed
      ∧ (resetPavilion s q).just = s.just ∧ (resetPavilion s q).fns = s.fns ∧ (resetPavilion s q).free = s.free
      ∧ (resetPavilion s q).sun.ctr = s.sun.ctr ∧ (resetPavilion s q).sun.lags = s.sun.lags ∧ (resetPavilion s q).sun.tick = s.sun.tick
      ∧ (resetPavilion s q).sun.time = s.sun.time ∧ (resetPavilion s q).sun.freeze = s.sun.freeze
      ∧ (resetPavilion s q).sun.stopped = s.sun.stopped ∧ (resetPavilion s q).die.hbm = s.die.hbm ∧ (resetPavilion s q).die.oyKey = s.die.oyKey
      ∧ (resetPavilion s q).die.slices = s.die.slices ∧ (resetPavilion s q).die.transfers = s.die.transfers
      ∧ (resetPavilion s q).die.commit = s.die.commit ∧ (resetPavilion s q).die.windows = s.die.windows
      ∧ (resetPavilion s q).die.band = s.die.band ∧ (resetPavilion s q).die.reports = s.die.reports
      ∧ (resetPavilion s q).die.atTick = s.die.atTick := by
  unfold resetPavilion; first | (simp; done) | ((try dsimp only); (repeat' split) <;> simp; done) | (refine ⟨?_, ?_, ?_, ?_, ?_, ?_, ?_, ?_, ?_, ?_, ?_, ?_, ?_, ?_, ?_, ?_, ?_, ?_, ?_, ?_, ?_, ?_, ?_, ?_⟩ <;> first | (simp; done) | ((try dsimp only); (repeat' split) <;> simp; done))

@[simp] theorem escalatePavilion_keeps (s : State) (q tile : Nat) :
    (escalatePavilion s q tile).pending = s.pending ∧ (escalatePavilion s q tile).gate = s.gate ∧ (escalatePavilion s q tile).mod = s.mod
      ∧ (escalatePavilion s q tile).rows = s.rows ∧ (escalatePavilion s q tile).shed = s.shed ∧ (escalatePavilion s q tile).just = s.just
      ∧ (escalatePavilion s q tile).fns = s.fns ∧ (escalatePavilion s q tile).free = s.free ∧ (escalatePavilion s q tile).sun.ctr = s.sun.ctr
      ∧ (escalatePavilion s q tile).sun.lags = s.sun.lags ∧ (escalatePavilion s q tile).sun.tick = s.sun.tick
      ∧ (escalatePavilion s q tile).sun.time = s.sun.time ∧ (escalatePavilion s q tile).sun.freeze = s.sun.freeze
      ∧ (escalatePavilion s q tile).sun.stopped = s.sun.stopped ∧ (escalatePavilion s q tile).die.hbm = s.die.hbm
      ∧ (escalatePavilion s q tile).die.oyKey = s.die.oyKey ∧ (escalatePavilion s q tile).die.slices = s.die.slices
      ∧ (escalatePavilion s q tile).die.transfers = s.die.transfers ∧ (escalatePavilion s q tile).die.windows = s.die.windows
      ∧ (escalatePavilion s q tile).die.band = s.die.band ∧ (escalatePavilion s q tile).die.reports = s.die.reports
      ∧ (escalatePavilion s q tile).die.atTick = s.die.atTick := by
  unfold escalatePavilion; first | (simp; done) | ((try dsimp only); (repeat' split) <;> simp; done) | (refine ⟨?_, ?_, ?_, ?_, ?_, ?_, ?_, ?_, ?_, ?_, ?_, ?_, ?_, ?_, ?_, ?_, ?_, ?_, ?_, ?_, ?_, ?_⟩ <;> first | (simp; done) | ((try dsimp only); (repeat' split) <;> simp; done))

@[simp] theorem failReset_keeps (s : State) (q unit : Nat) :
    (failReset s q unit).pending = s.pending ∧ (failReset s q unit).gate = s.gate ∧ (failReset s q unit).mod = s.mod
      ∧ (failReset s q unit).rows = s.rows ∧ (failReset s q unit).shed = s.shed ∧ (failReset s q unit).just = s.just
      ∧ (failReset s q unit).free = s.free ∧ (failReset s q unit).sun.ctr = s.sun.ctr ∧ (failReset s q unit).sun.lags = s.sun.lags
      ∧ (failReset s q unit).sun.tick = s.sun.tick ∧ (failReset s q unit).sun.time = s.sun.time ∧ (failReset s q unit).sun.freeze = s.sun.freeze
      ∧ (failReset s q unit).sun.stopped = s.sun.stopped ∧ (failReset s q unit).die.hbm = s.die.hbm
      ∧ (failReset s q unit).die.oyKey = s.die.oyKey ∧ (failReset s q unit).die.slices = s.die.slices
      ∧ (failReset s q unit).die.transfers = s.die.transfers ∧ (failReset s q unit).die.windows = s.die.windows
      ∧ (failReset s q unit).die.band = s.die.band ∧ (failReset s q unit).die.reports = s.die.reports
      ∧ (failReset s q unit).die.atTick = s.die.atTick := by
  unfold failReset; first | (simp; done) | ((try dsimp only); (repeat' split) <;> simp; done) | (refine ⟨?_, ?_, ?_, ?_, ?_, ?_, ?_, ?_, ?_, ?_, ?_, ?_, ?_, ?_, ?_, ?_, ?_, ?_, ?_, ?_, ?_⟩ <;> first | (simp; done) | ((try dsimp only); (repeat' split) <;> simp; done))

@[simp] theorem endRefresh_keeps (s : State) :
    (endRefresh s).pending = s.pending ∧ (endRefresh s).gate = s.gate ∧ (endRefresh s).mod = s.mod ∧ (endRefresh s).rows = s.rows
      ∧ (endRefresh s).dumps = s.dumps ∧ (endRefresh s).shed = s.shed ∧ (endRefresh s).replay = s.replay ∧ (endRefresh s).just = s.just
      ∧ (endRefresh s).tiles = s.tiles ∧ (endRefresh s).pvs = s.pvs ∧ (endRefresh s).fns = s.fns ∧ (endRefresh s).out = s.out
      ∧ (endRefresh s).free = s.free ∧ (endRefresh s).sun = s.sun ∧ (endRefresh s).die = s.die := by
  unfold endRefresh; first | (simp; done) | ((try dsimp only); (repeat' split) <;> simp; done) | (refine ⟨?_, ?_, ?_, ?_, ?_, ?_, ?_, ?_, ?_, ?_, ?_, ?_, ?_, ?_, ?_⟩ <;> first | (simp; done) | ((try dsimp only); (repeat' split) <;> simp; done))

@[simp] theorem resetUnitEnd_keeps (s : State) (q : Nat) (ok : Bool) (chk : Check) :
    (resetUnitEnd s q ok chk).pending = s.pending ∧ (resetUnitEnd s q ok chk).gate = s.gate ∧ (resetUnitEnd s q ok chk).mod = s.mod
      ∧ (resetUnitEnd s q ok chk).rows = s.rows ∧ (resetUnitEnd s q ok chk).sun.ctr = s.sun.ctr ∧ (resetUnitEnd s q ok chk).sun.lags = s.sun.lags
      ∧ (resetUnitEnd s q ok chk).sun.tick = s.sun.tick ∧ (resetUnitEnd s q ok chk).sun.time = s.sun.time
      ∧ (resetUnitEnd s q ok chk).sun.freeze = s.sun.freeze ∧ (resetUnitEnd s q ok chk).sun.stopped = s.sun.stopped
      ∧ (resetUnitEnd s q ok chk).die.hbm = s.die.hbm ∧ (resetUnitEnd s q ok chk).die.oyKey = s.die.oyKey
      ∧ (resetUnitEnd s q ok chk).die.slices = s.die.slices ∧ (resetUnitEnd s q ok chk).die.transfers = s.die.transfers
      ∧ (resetUnitEnd s q ok chk).die.windows = s.die.windows ∧ (resetUnitEnd s q ok chk).die.band = s.die.band
      ∧ (resetUnitEnd s q ok chk).die.reports = s.die.reports ∧ (resetUnitEnd s q ok chk).die.atTick = s.die.atTick := by
  unfold resetUnitEnd; first | (simp; done) | ((try dsimp only); (repeat' split) <;> simp; done) | (refine ⟨?_, ?_, ?_, ?_, ?_, ?_, ?_, ?_, ?_, ?_, ?_, ?_, ?_, ?_, ?_, ?_, ?_, ?_⟩ <;> first | (simp; done) | ((try dsimp only); (repeat' split) <;> simp; done))

@[simp] theorem bindSalt_keeps (s : State) (q n : Nat) (a : SMap W64) :
    (bindSalt s q n a).pending = s.pending ∧ (bindSalt s q n a).gate = s.gate ∧ (bindSalt s q n a).mod = s.mod ∧ (bindSalt s q n a).rows = s.rows
      ∧ (bindSalt s q n a).dumps = s.dumps ∧ (bindSalt s q n a).shed = s.shed ∧ (bindSalt s q n a).replay = s.replay
      ∧ (bindSalt s q n a).just = s.just ∧ (bindSalt s q n a).tiles = s.tiles ∧ (bindSalt s q n a).pvs = s.pvs ∧ (bindSalt s q n a).fns = s.fns
      ∧ (bindSalt s q n a).out = s.out ∧ (bindSalt s q n a).free = s.free ∧ (bindSalt s q n a).sun = s.sun ∧ (bindSalt s q n a).die = s.die := by
  unfold bindSalt; first | (simp; done) | ((try dsimp only); (repeat' split) <;> simp; done) | (refine ⟨?_, ?_, ?_, ?_, ?_, ?_, ?_, ?_, ?_, ?_, ?_, ?_, ?_, ?_, ?_⟩ <;> first | (simp; done) | ((try dsimp only); (repeat' split) <;> simp; done))

@[simp] theorem removeGroup_keeps (s : State) (q n : Nat) :
    (removeGroup s q n).pending = s.pending ∧ (removeGroup s q n).gate = s.gate ∧ (removeGroup s q n).mod = s.mod
      ∧ (removeGroup s q n).rows = s.rows ∧ (removeGroup s q n).dumps = s.dumps ∧ (removeGroup s q n).shed = s.shed
      ∧ (removeGroup s q n).replay = s.replay ∧ (removeGroup s q n).just = s.just ∧ (removeGroup s q n).tiles = s.tiles
      ∧ (removeGroup s q n).fns = s.fns ∧ (removeGroup s q n).out = s.out ∧ (removeGroup s q n).free = s.free ∧ (removeGroup s q n).sun = s.sun
      ∧ (removeGroup s q n).die = s.die := by
  unfold removeGroup; first | (simp; done) | ((try dsimp only); (repeat' split) <;> simp; done) | (refine ⟨?_, ?_, ?_, ?_, ?_, ?_, ?_, ?_, ?_, ?_, ?_, ?_, ?_, ?_⟩ <;> first | (simp; done) | ((try dsimp only); (repeat' split) <;> simp; done))

@[simp] theorem unwrap_keeps (s : State) (q k : Nat) (m : List Byte) :
    (unwrap s q k m).pending = s.pending ∧ (unwrap s q k m).gate = s.gate ∧ (unwrap s q k m).mod = s.mod ∧ (unwrap s q k m).rows = s.rows
      ∧ (unwrap s q k m).dumps = s.dumps ∧ (unwrap s q k m).shed = s.shed ∧ (unwrap s q k m).replay = s.replay ∧ (unwrap s q k m).reg = s.reg
      ∧ (unwrap s q k m).just = s.just ∧ (unwrap s q k m).tiles = s.tiles ∧ (unwrap s q k m).pvs = s.pvs ∧ (unwrap s q k m).free = s.free
      ∧ (unwrap s q k m).sun = s.sun ∧ (unwrap s q k m).die.hbm = s.die.hbm ∧ (unwrap s q k m).die.oyKey = s.die.oyKey
      ∧ (unwrap s q k m).die.transfers = s.die.transfers ∧ (unwrap s q k m).die.commit = s.die.commit
      ∧ (unwrap s q k m).die.barriers = s.die.barriers ∧ (unwrap s q k m).die.windows = s.die.windows ∧ (unwrap s q k m).die.ctls = s.die.ctls
      ∧ (unwrap s q k m).die.ports = s.die.ports ∧ (unwrap s q k m).die.lodges = s.die.lodges ∧ (unwrap s q k m).die.band = s.die.band
      ∧ (unwrap s q k m).die.reports = s.die.reports ∧ (unwrap s q k m).die.atTick = s.die.atTick := by
  unfold unwrap; first | (simp; done) | ((try dsimp only); (repeat' split) <;> simp; done) | (refine ⟨?_, ?_, ?_, ?_, ?_, ?_, ?_, ?_, ?_, ?_, ?_, ?_, ?_, ?_, ?_, ?_, ?_, ?_, ?_, ?_, ?_, ?_, ?_, ?_, ?_⟩ <;> first | (simp; done) | ((try dsimp only); (repeat' split) <;> simp; done))

@[simp] theorem tablePoll_keeps (s : State) (q : Nat) (table : List (W64 × W64)) :
    (tablePoll s q table).pending = s.pending ∧ (tablePoll s q table).gate = s.gate ∧ (tablePoll s q table).mod = s.mod
      ∧ (tablePoll s q table).rows = s.rows ∧ (tablePoll s q table).dumps = s.dumps ∧ (tablePoll s q table).shed = s.shed
      ∧ (tablePoll s q table).replay = s.replay ∧ (tablePoll s q table).reg = s.reg ∧ (tablePoll s q table).just = s.just
      ∧ (tablePoll s q table).tiles = s.tiles ∧ (tablePoll s q table).pvs = s.pvs ∧ (tablePoll s q table).fns = s.fns
      ∧ (tablePoll s q table).out = s.out ∧ (tablePoll s q table).free = s.free ∧ (tablePoll s q table).sun = s.sun
      ∧ (tablePoll s q table).die.hbm = s.die.hbm ∧ (tablePoll s q table).die.oyKey = s.die.oyKey
      ∧ (tablePoll s q table).die.transfers = s.die.transfers ∧ (tablePoll s q table).die.commit = s.die.commit
      ∧ (tablePoll s q table).die.barriers = s.die.barriers ∧ (tablePoll s q table).die.windows = s.die.windows
      ∧ (tablePoll s q table).die.ctls = s.die.ctls ∧ (tablePoll s q table).die.ports = s.die.ports
      ∧ (tablePoll s q table).die.lodges = s.die.lodges ∧ (tablePoll s q table).die.band = s.die.band
      ∧ (tablePoll s q table).die.reports = s.die.reports ∧ (tablePoll s q table).die.atTick = s.die.atTick := by
  unfold tablePoll; first | (simp; done) | ((try dsimp only); (repeat' split) <;> simp; done) | (refine ⟨?_, ?_, ?_, ?_, ?_, ?_, ?_, ?_, ?_, ?_, ?_, ?_, ?_, ?_, ?_, ?_, ?_, ?_, ?_, ?_, ?_, ?_, ?_, ?_, ?_, ?_, ?_⟩ <;> first | (simp; done) | ((try dsimp only); (repeat' split) <;> simp; done))

@[simp] theorem shardCorrupt_keeps (s : State) (k i : Nat) (x : Slice) (e : Shard) :
    (shardCorrupt s k i x e).pending = s.pending ∧ (shardCorrupt s k i x e).gate = s.gate ∧ (shardCorrupt s k i x e).mod = s.mod
      ∧ (shardCorrupt s k i x e).rows = s.rows ∧ (shardCorrupt s k i x e).dumps = s.dumps ∧ (shardCorrupt s k i x e).shed = s.shed
      ∧ (shardCorrupt s k i x e).replay = s.replay ∧ (shardCorrupt s k i x e).reg = s.reg ∧ (shardCorrupt s k i x e).just = s.just
      ∧ (shardCorrupt s k i x e).tiles = s.tiles ∧ (shardCorrupt s k i x e).pvs = s.pvs ∧ (shardCorrupt s k i x e).free = s.free
      ∧ (shardCorrupt s k i x e).sun = s.sun ∧ (shardCorrupt s k i x e).die.hbm = s.die.hbm ∧ (shardCorrupt s k i x e).die.oyKey = s.die.oyKey
      ∧ (shardCorrupt s k i x e).die.transfers = s.die.transfers ∧ (shardCorrupt s k i x e).die.commit = s.die.commit
      ∧ (shardCorrupt s k i x e).die.barriers = s.die.barriers ∧ (shardCorrupt s k i x e).die.windows = s.die.windows
      ∧ (shardCorrupt s k i x e).die.ctls = s.die.ctls ∧ (shardCorrupt s k i x e).die.ports = s.die.ports
      ∧ (shardCorrupt s k i x e).die.lodges = s.die.lodges ∧ (shardCorrupt s k i x e).die.band = s.die.band
      ∧ (shardCorrupt s k i x e).die.reports = s.die.reports ∧ (shardCorrupt s k i x e).die.atTick = s.die.atTick := by
  unfold shardCorrupt; first | (simp; done) | ((try dsimp only); (repeat' split) <;> simp; done) | (refine ⟨?_, ?_, ?_, ?_, ?_, ?_, ?_, ?_, ?_, ?_, ?_, ?_, ?_, ?_, ?_, ?_, ?_, ?_, ?_, ?_, ?_, ?_, ?_, ?_, ?_⟩ <;> first | (simp; done) | ((try dsimp only); (repeat' split) <;> simp; done))

@[simp] theorem stagingTimeout_keeps (s : State) (q : Nat) :
    (stagingTimeout s q).pending = s.pending ∧ (stagingTimeout s q).gate = s.gate ∧ (stagingTimeout s q).mod = s.mod
      ∧ (stagingTimeout s q).rows = s.rows ∧ (stagingTimeout s q).dumps = s.dumps ∧ (stagingTimeout s q).shed = s.shed
      ∧ (stagingTimeout s q).replay = s.replay ∧ (stagingTimeout s q).reg = s.reg ∧ (stagingTimeout s q).just = s.just
      ∧ (stagingTimeout s q).tiles = s.tiles ∧ (stagingTimeout s q).pvs = s.pvs ∧ (stagingTimeout s q).free = s.free
      ∧ (stagingTimeout s q).sun = s.sun ∧ (stagingTimeout s q).die.hbm = s.die.hbm ∧ (stagingTimeout s q).die.oyKey = s.die.oyKey
      ∧ (stagingTimeout s q).die.transfers = s.die.transfers ∧ (stagingTimeout s q).die.commit = s.die.commit
      ∧ (stagingTimeout s q).die.barriers = s.die.barriers ∧ (stagingTimeout s q).die.windows = s.die.windows
      ∧ (stagingTimeout s q).die.ctls = s.die.ctls ∧ (stagingTimeout s q).die.ports = s.die.ports
      ∧ (stagingTimeout s q).die.lodges = s.die.lodges ∧ (stagingTimeout s q).die.band = s.die.band
      ∧ (stagingTimeout s q).die.reports = s.die.reports ∧ (stagingTimeout s q).die.atTick = s.die.atTick := by
  unfold stagingTimeout; first | (simp; done) | ((try dsimp only); (repeat' split) <;> simp; done) | (refine ⟨?_, ?_, ?_, ?_, ?_, ?_, ?_, ?_, ?_, ?_, ?_, ?_, ?_, ?_, ?_, ?_, ?_, ?_, ?_, ?_, ?_, ?_, ?_, ?_, ?_⟩ <;> first | (simp; done) | ((try dsimp only); (repeat' split) <;> simp; done))

@[simp] theorem beginLoad_keeps (s : State) (q n t slice : Nat) (i : Image) :
    (beginLoad s q n t slice i).pending = s.pending ∧ (beginLoad s q n t slice i).gate = s.gate ∧ (beginLoad s q n t slice i).mod = s.mod
      ∧ (beginLoad s q n t slice i).rows = s.rows ∧ (beginLoad s q n t slice i).dumps = s.dumps ∧ (beginLoad s q n t slice i).shed = s.shed
      ∧ (beginLoad s q n t slice i).replay = s.replay ∧ (beginLoad s q n t slice i).reg = s.reg ∧ (beginLoad s q n t slice i).just = s.just
      ∧ (beginLoad s q n t slice i).free = s.free ∧ (beginLoad s q n t slice i).sun = s.sun ∧ (beginLoad s q n t slice i).die.hbm = s.die.hbm
      ∧ (beginLoad s q n t slice i).die.oyKey = s.die.oyKey ∧ (beginLoad s q n t slice i).die.slices = s.die.slices
      ∧ (beginLoad s q n t slice i).die.transfers = s.die.transfers ∧ (beginLoad s q n t slice i).die.commit = s.die.commit
      ∧ (beginLoad s q n t slice i).die.windows = s.die.windows ∧ (beginLoad s q n t slice i).die.ctls = s.die.ctls
      ∧ (beginLoad s q n t slice i).die.ports = s.die.ports ∧ (beginLoad s q n t slice i).die.lodges = s.die.lodges
      ∧ (beginLoad s q n t slice i).die.band = s.die.band ∧ (beginLoad s q n t slice i).die.reports = s.die.reports
      ∧ (beginLoad s q n t slice i).die.atTick = s.die.atTick := by
  unfold beginLoad; first | (simp; done) | ((try dsimp only); (repeat' split) <;> simp; done) | (refine ⟨?_, ?_, ?_, ?_, ?_, ?_, ?_, ?_, ?_, ?_, ?_, ?_, ?_, ?_, ?_, ?_, ?_, ?_, ?_, ?_, ?_, ?_, ?_⟩ <;> first | (simp; done) | ((try dsimp only); (repeat' split) <;> simp; done))

@[simp] theorem failLoad_keeps (s : State) (q status : Nat) :
    (failLoad s q status).pending = s.pending ∧ (failLoad s q status).gate = s.gate ∧ (failLoad s q status).mod = s.mod
      ∧ (failLoad s q status).rows = s.rows ∧ (failLoad s q status).dumps = s.dumps ∧ (failLoad s q status).shed = s.shed
      ∧ (failLoad s q status).replay = s.replay ∧ (failLoad s q status).reg = s.reg ∧ (failLoad s q status).just = s.just
      ∧ (failLoad s q status).free = s.free ∧ (failLoad s q status).sun = s.sun ∧ (failLoad s q status).die.hbm = s.die.hbm
      ∧ (failLoad s q status).die.oyKey = s.die.oyKey ∧ (failLoad s q status).die.slices = s.die.slices
      ∧ (failLoad s q status).die.transfers = s.die.transfers ∧ (failLoad s q status).die.commit = s.die.commit
      ∧ (failLoad s q status).die.windows = s.die.windows ∧ (failLoad s q status).die.ctls = s.die.ctls
      ∧ (failLoad s q status).die.ports = s.die.ports ∧ (failLoad s q status).die.lodges = s.die.lodges
      ∧ (failLoad s q status).die.band = s.die.band ∧ (failLoad s q status).die.reports = s.die.reports
      ∧ (failLoad s q status).die.atTick = s.die.atTick := by
  unfold failLoad; first | (simp; done) | ((try dsimp only); (repeat' split) <;> simp; done) | (refine ⟨?_, ?_, ?_, ?_, ?_, ?_, ?_, ?_, ?_, ?_, ?_, ?_, ?_, ?_, ?_, ?_, ?_, ?_, ?_, ?_, ?_, ?_, ?_⟩ <;> first | (simp; done) | ((try dsimp only); (repeat' split) <;> simp; done))

@[simp] theorem State.modGate_keeps (s : State) (f : Gate → Gate) :
    (State.modGate s f).pending = s.pending ∧ (State.modGate s f).mod = s.mod ∧ (State.modGate s f).rows = s.rows
      ∧ (State.modGate s f).dumps = s.dumps ∧ (State.modGate s f).shed = s.shed ∧ (State.modGate s f).replay = s.replay
      ∧ (State.modGate s f).reg = s.reg ∧ (State.modGate s f).just = s.just ∧ (State.modGate s f).tiles = s.tiles
      ∧ (State.modGate s f).pvs = s.pvs ∧ (State.modGate s f).fns = s.fns ∧ (State.modGate s f).out = s.out ∧ (State.modGate s f).free = s.free
      ∧ (State.modGate s f).sun = s.sun ∧ (State.modGate s f).die = s.die := by
  unfold State.modGate; first | (simp; done) | ((try dsimp only); (repeat' split) <;> simp; done) | (refine ⟨?_, ?_, ?_, ?_, ?_, ?_, ?_, ?_, ?_, ?_, ?_, ?_, ?_, ?_, ?_⟩ <;> first | (simp; done) | ((try dsimp only); (repeat' split) <;> simp; done))

@[simp] theorem endFw_keeps (s : State) (n t status : Nat) :
    (endFw s n t status).pending = s.pending ∧ (endFw s n t status).mod = s.mod ∧ (endFw s n t status).rows = s.rows
      ∧ (endFw s n t status).dumps = s.dumps ∧ (endFw s n t status).shed = s.shed ∧ (endFw s n t status).replay = s.replay
      ∧ (endFw s n t status).reg = s.reg ∧ (endFw s n t status).just = s.just ∧ (endFw s n t status).tiles = s.tiles
      ∧ (endFw s n t status).pvs = s.pvs ∧ (endFw s n t status).free = s.free ∧ (endFw s n t status).sun = s.sun
      ∧ (endFw s n t status).die = s.die := by
  unfold endFw; first | (simp; done) | ((try dsimp only); (repeat' split) <;> simp; done) | (refine ⟨?_, ?_, ?_, ?_, ?_, ?_, ?_, ?_, ?_, ?_, ?_, ?_, ?_⟩ <;> first | (simp; done) | ((try dsimp only); (repeat' split) <;> simp; done))

@[simp] theorem fwLoadVerify_keeps (s : State) (image : List Byte) :
    (fwLoadVerify s image).pending = s.pending ∧ (fwLoadVerify s image).mod = s.mod ∧ (fwLoadVerify s image).rows = s.rows
      ∧ (fwLoadVerify s image).dumps = s.dumps ∧ (fwLoadVerify s image).shed = s.shed ∧ (fwLoadVerify s image).replay = s.replay
      ∧ (fwLoadVerify s image).reg = s.reg ∧ (fwLoadVerify s image).just = s.just ∧ (fwLoadVerify s image).tiles = s.tiles
      ∧ (fwLoadVerify s image).pvs = s.pvs ∧ (fwLoadVerify s image).free = s.free ∧ (fwLoadVerify s image).sun = s.sun
      ∧ (fwLoadVerify s image).die = s.die := by
  unfold fwLoadVerify; first | (simp; done) | ((try dsimp only); (repeat' split) <;> simp; done) | (refine ⟨?_, ?_, ?_, ?_, ?_, ?_, ?_, ?_, ?_, ?_, ?_, ?_, ?_⟩ <;> first | (simp; done) | ((try dsimp only); (repeat' split) <;> simp; done))

@[simp] theorem haltFirmware_keeps (s : State) :
    (haltFirmware s).pending = s.pending ∧ (haltFirmware s).rows = s.rows ∧ (haltFirmware s).dumps = s.dumps ∧ (haltFirmware s).shed = s.shed
      ∧ (haltFirmware s).replay = s.replay ∧ (haltFirmware s).reg = s.reg ∧ (haltFirmware s).just = s.just ∧ (haltFirmware s).tiles = s.tiles
      ∧ (haltFirmware s).pvs = s.pvs ∧ (haltFirmware s).fns = s.fns ∧ (haltFirmware s).out = s.out ∧ (haltFirmware s).free = s.free
      ∧ (haltFirmware s).sun = s.sun ∧ (haltFirmware s).die = s.die := by
  unfold haltFirmware; first | (simp; done) | ((try dsimp only); (repeat' split) <;> simp; done) | (refine ⟨?_, ?_, ?_, ?_, ?_, ?_, ?_, ?_, ?_, ?_, ?_, ?_, ?_, ?_⟩ <;> first | (simp; done) | ((try dsimp only); (repeat' split) <;> simp; done))

@[simp] theorem applyPlan_keeps (s : State) (bad : List Nat) :
    (applyPlan s bad).pending = s.pending ∧ (applyPlan s bad).gate = s.gate ∧ (applyPlan s bad).mod = s.mod ∧ (applyPlan s bad).rows = s.rows
      ∧ (applyPlan s bad).dumps = s.dumps ∧ (applyPlan s bad).replay = s.replay ∧ (applyPlan s bad).just = s.just
      ∧ (applyPlan s bad).tiles = s.tiles ∧ (applyPlan s bad).pvs = s.pvs ∧ (applyPlan s bad).fns = s.fns ∧ (applyPlan s bad).out = s.out
      ∧ (applyPlan s bad).free = s.free ∧ (applyPlan s bad).sun = s.sun ∧ (applyPlan s bad).die = s.die := by
  unfold applyPlan; first | (simp; done) | ((try dsimp only); (repeat' split) <;> simp; done) | (refine ⟨?_, ?_, ?_, ?_, ?_, ?_, ?_, ?_, ?_, ?_, ?_, ?_, ?_, ?_⟩ <;> first | (simp; done) | ((try dsimp only); (repeat' split) <;> simp; done))

@[simp] theorem askPowerCycle_keeps (s : State) :
    (askPowerCycle s).pending = s.pending ∧ (askPowerCycle s).gate = s.gate ∧ (askPowerCycle s).rows = s.rows
      ∧ (askPowerCycle s).dumps = s.dumps ∧ (askPowerCycle s).replay = s.replay ∧ (askPowerCycle s).tiles = s.tiles
      ∧ (askPowerCycle s).pvs = s.pvs ∧ (askPowerCycle s).fns = s.fns ∧ (askPowerCycle s).free = s.free ∧ (askPowerCycle s).sun = s.sun
      ∧ (askPowerCycle s).die = s.die := by
  unfold askPowerCycle; first | (simp; done) | ((try dsimp only); (repeat' split) <;> simp; done) | (refine ⟨?_, ?_, ?_, ?_, ?_, ?_, ?_, ?_, ?_, ?_, ?_⟩ <;> first | (simp; done) | ((try dsimp only); (repeat' split) <;> simp; done))

@[simp] theorem checkStacks_keeps (s : State) :
    (checkStacks s).pending = s.pending ∧ (checkStacks s).gate = s.gate ∧ (checkStacks s).rows = s.rows ∧ (checkStacks s).dumps = s.dumps
      ∧ (checkStacks s).replay = s.replay ∧ (checkStacks s).tiles = s.tiles ∧ (checkStacks s).pvs = s.pvs ∧ (checkStacks s).fns = s.fns
      ∧ (checkStacks s).free = s.free ∧ (checkStacks s).sun = s.sun ∧ (checkStacks s).die = s.die := by
  unfold checkStacks; first | (simp; done) | ((try dsimp only); (repeat' split) <;> simp; done) | (refine ⟨?_, ?_, ?_, ?_, ?_, ?_, ?_, ?_, ?_, ?_, ?_⟩ <;> first | (simp; done) | ((try dsimp only); (repeat' split) <;> simp; done))

@[simp] theorem initFirmware_keeps (s : State) (bad : List Nat) :
    (initFirmware s bad).pending = s.pending ∧ (initFirmware s bad).rows = s.rows ∧ (initFirmware s bad).dumps = s.dumps
      ∧ (initFirmware s bad).replay = s.replay ∧ (initFirmware s bad).tiles = s.tiles ∧ (initFirmware s bad).pvs = s.pvs
      ∧ (initFirmware s bad).fns = s.fns ∧ (initFirmware s bad).free = s.free
      ∧ (initFirmware s bad).sun = s.sun ∧ (initFirmware s bad).die.hbm = s.die.hbm ∧ (initFirmware s bad).die.oyKey = s.die.oyKey
      ∧ (initFirmware s bad).die.slices = s.die.slices ∧ (initFirmware s bad).die.transfers = s.die.transfers
      ∧ (initFirmware s bad).die.commit = s.die.commit ∧ (initFirmware s bad).die.barriers = s.die.barriers
      ∧ (initFirmware s bad).die.windows = s.die.windows ∧ (initFirmware s bad).die.ctls = s.die.ctls
      ∧ (initFirmware s bad).die.lodges = s.die.lodges ∧ (initFirmware s bad).die.band = s.die.band
      ∧ (initFirmware s bad).die.reports = s.die.reports ∧ (initFirmware s bad).die.atTick = s.die.atTick := by
  unfold initFirmware; first | (simp; done) | ((try dsimp only); (repeat' split) <;> simp; done) | (refine ⟨?_, ?_, ?_, ?_, ?_, ?_, ?_, ?_, ?_, ?_, ?_, ?_, ?_, ?_, ?_, ?_, ?_, ?_, ?_, ?_, ?_⟩ <;> first | (simp; done) | ((try dsimp only); (repeat' split) <;> simp; done))

@[simp] theorem firmwareRunning_keeps (s : State) (bad : List Nat) :
    (firmwareRunning s bad).pending = s.pending ∧ (firmwareRunning s bad).rows = s.rows ∧ (firmwareRunning s bad).dumps = s.dumps
      ∧ (firmwareRunning s bad).replay = s.replay ∧ (firmwareRunning s bad).tiles = s.tiles ∧ (firmwareRunning s bad).pvs = s.pvs
      ∧ (firmwareRunning s bad).fns = s.fns ∧ (firmwareRunning s bad).free = s.free
      ∧ (firmwareRunning s bad).sun = s.sun ∧ (firmwareRunning s bad).die.hbm = s.die.hbm ∧ (firmwareRunning s bad).die.oyKey = s.die.oyKey
      ∧ (firmwareRunning s bad).die.slices = s.die.slices ∧ (firmwareRunning s bad).die.transfers = s.die.transfers
      ∧ (firmwareRunning s bad).die.commit = s.die.commit ∧ (firmwareRunning s bad).die.barriers = s.die.barriers
      ∧ (firmwareRunning s bad).die.windows = s.die.windows ∧ (firmwareRunning s bad).die.ctls = s.die.ctls
      ∧ (firmwareRunning s bad).die.lodges = s.die.lodges ∧ (firmwareRunning s bad).die.band = s.die.band
      ∧ (firmwareRunning s bad).die.reports = s.die.reports ∧ (firmwareRunning s bad).die.atTick = s.die.atTick := by
  unfold firmwareRunning; first | (simp; done) | ((try dsimp only); (repeat' split) <;> simp; done) | (refine ⟨?_, ?_, ?_, ?_, ?_, ?_, ?_, ?_, ?_, ?_, ?_, ?_, ?_, ?_, ?_, ?_, ?_, ?_, ?_, ?_, ?_⟩ <;> first | (simp; done) | ((try dsimp only); (repeat' split) <;> simp; done))

@[simp] theorem timeout_keeps (s : State) (n : Nat) (x : Flight) :
    (timeout s n x).pending = s.pending ∧ (timeout s n x).mod = s.mod ∧ (timeout s n x).rows = s.rows ∧ (timeout s n x).dumps = s.dumps
      ∧ (timeout s n x).shed = s.shed ∧ (timeout s n x).replay = s.replay ∧ (timeout s n x).just = s.just ∧ (timeout s n x).free = s.free
      ∧ (timeout s n x).sun.ctr = s.sun.ctr ∧ (timeout s n x).sun.lags = s.sun.lags ∧ (timeout s n x).sun.tick = s.sun.tick
      ∧ (timeout s n x).sun.time = s.sun.time ∧ (timeout s n x).sun.holds = s.sun.holds ∧ (timeout s n x).sun.freeze = s.sun.freeze
      ∧ (timeout s n x).sun.stopped = s.sun.stopped ∧ (timeout s n x).die.hbm = s.die.hbm ∧ (timeout s n x).die.oyKey = s.die.oyKey
      ∧ (timeout s n x).die.transfers = s.die.transfers ∧ (timeout s n x).die.commit = s.die.commit ∧ (timeout s n x).die.windows = s.die.windows
      ∧ (timeout s n x).die.ctls = s.die.ctls ∧ (timeout s n x).die.ports = s.die.ports ∧ (timeout s n x).die.lodges = s.die.lodges
      ∧ (timeout s n x).die.band = s.die.band ∧ (timeout s n x).die.reports = s.die.reports ∧ (timeout s n x).die.atTick = s.die.atTick := by
  unfold timeout; first | (simp; done) | ((try dsimp only); (repeat' split) <;> simp; done) | (refine ⟨?_, ?_, ?_, ?_, ?_, ?_, ?_, ?_, ?_, ?_, ?_, ?_, ?_, ?_, ?_, ?_, ?_, ?_, ?_, ?_, ?_, ?_, ?_, ?_, ?_, ?_⟩ <;> first | (simp; done) | ((try dsimp only); (repeat' split) <;> simp; done))

@[simp] theorem asyncTimeout_keeps (s : State) (n ticket : Nat) :
    (asyncTimeout s n ticket).pending = s.pending ∧ (asyncTimeout s n ticket).mod = s.mod ∧ (asyncTimeout s n ticket).rows = s.rows
      ∧ (asyncTimeout s n ticket).dumps = s.dumps ∧ (asyncTimeout s n ticket).shed = s.shed ∧ (asyncTimeout s n ticket).replay = s.replay
      ∧ (asyncTimeout s n ticket).just = s.just ∧ (asyncTimeout s n ticket).free = s.free ∧ (asyncTimeout s n ticket).sun.ctr = s.sun.ctr
      ∧ (asyncTimeout s n ticket).sun.lags = s.sun.lags ∧ (asyncTimeout s n ticket).sun.tick = s.sun.tick
      ∧ (asyncTimeout s n ticket).sun.time = s.sun.time ∧ (asyncTimeout s n ticket).sun.holds = s.sun.holds
      ∧ (asyncTimeout s n ticket).sun.freeze = s.sun.freeze ∧ (asyncTimeout s n ticket).sun.stopped = s.sun.stopped
      ∧ (asyncTimeout s n ticket).die.hbm = s.die.hbm ∧ (asyncTimeout s n ticket).die.oyKey = s.die.oyKey
      ∧ (asyncTimeout s n ticket).die.transfers = s.die.transfers ∧ (asyncTimeout s n ticket).die.commit = s.die.commit
      ∧ (asyncTimeout s n ticket).die.windows = s.die.windows ∧ (asyncTimeout s n ticket).die.ctls = s.die.ctls
      ∧ (asyncTimeout s n ticket).die.ports = s.die.ports ∧ (asyncTimeout s n ticket).die.lodges = s.die.lodges
      ∧ (asyncTimeout s n ticket).die.band = s.die.band ∧ (asyncTimeout s n ticket).die.reports = s.die.reports
      ∧ (asyncTimeout s n ticket).die.atTick = s.die.atTick := by
  unfold asyncTimeout; first | (simp; done) | ((try dsimp only); (repeat' split) <;> simp; done) | (refine ⟨?_, ?_, ?_, ?_, ?_, ?_, ?_, ?_, ?_, ?_, ?_, ?_, ?_, ?_, ?_, ?_, ?_, ?_, ?_, ?_, ?_, ?_, ?_, ?_, ?_, ?_⟩ <;> first | (simp; done) | ((try dsimp only); (repeat' split) <;> simp; done))

@[simp] theorem spdmError_keeps (s : State) (port : Nat) :
    (spdmError s port).pending = s.pending ∧ (spdmError s port).gate = s.gate ∧ (spdmError s port).mod = s.mod ∧ (spdmError s port).rows = s.rows
      ∧ (spdmError s port).dumps = s.dumps ∧ (spdmError s port).shed = s.shed ∧ (spdmError s port).replay = s.replay
      ∧ (spdmError s port).reg = s.reg ∧ (spdmError s port).just = s.just ∧ (spdmError s port).tiles = s.tiles ∧ (spdmError s port).pvs = s.pvs
      ∧ (spdmError s port).fns = s.fns ∧ (spdmError s port).free = s.free ∧ (spdmError s port).sun = s.sun ∧ (spdmError s port).die = s.die := by
  unfold spdmError; first | (simp; done) | ((try dsimp only); (repeat' split) <;> simp; done) | (refine ⟨?_, ?_, ?_, ?_, ?_, ?_, ?_, ?_, ?_, ?_, ?_, ?_, ?_, ?_, ?_⟩ <;> first | (simp; done) | ((try dsimp only); (repeat' split) <;> simp; done))

@[simp] theorem getCertificate_keeps (s : State) (port slot offset len : Nat) :
    (getCertificate s port slot offset len).pending = s.pending ∧ (getCertificate s port slot offset len).gate = s.gate
      ∧ (getCertificate s port slot offset len).mod = s.mod ∧ (getCertificate s port slot offset len).rows = s.rows
      ∧ (getCertificate s port slot offset len).dumps = s.dumps ∧ (getCertificate s port slot offset len).shed = s.shed
      ∧ (getCertificate s port slot offset len).replay = s.replay ∧ (getCertificate s port slot offset len).reg = s.reg
      ∧ (getCertificate s port slot offset len).just = s.just ∧ (getCertificate s port slot offset len).tiles = s.tiles
      ∧ (getCertificate s port slot offset len).pvs = s.pvs ∧ (getCertificate s port slot offset len).fns = s.fns
      ∧ (getCertificate s port slot offset len).free = s.free ∧ (getCertificate s port slot offset len).sun = s.sun
      ∧ (getCertificate s port slot offset len).die = s.die := by
  unfold getCertificate; first | (simp; done) | ((try dsimp only); (repeat' split) <;> simp; done) | (refine ⟨?_, ?_, ?_, ?_, ?_, ?_, ?_, ?_, ?_, ?_, ?_, ?_, ?_, ?_, ?_⟩ <;> first | (simp; done) | ((try dsimp only); (repeat' split) <;> simp; done))

@[simp] theorem challenge_keeps (s : State) (port slot : Nat) (nonce : List Byte) :
    (challenge s port slot nonce).pending = s.pending ∧ (challenge s port slot nonce).gate = s.gate ∧ (challenge s port slot nonce).mod = s.mod
      ∧ (challenge s port slot nonce).rows = s.rows ∧ (challenge s port slot nonce).dumps = s.dumps ∧ (challenge s port slot nonce).shed = s.shed
      ∧ (challenge s port slot nonce).replay = s.replay ∧ (challenge s port slot nonce).reg = s.reg ∧ (challenge s port slot nonce).just = s.just
      ∧ (challenge s port slot nonce).tiles = s.tiles ∧ (challenge s port slot nonce).pvs = s.pvs ∧ (challenge s port slot nonce).fns = s.fns
      ∧ (challenge s port slot nonce).free = s.free ∧ (challenge s port slot nonce).sun = s.sun ∧ (challenge s port slot nonce).die = s.die := by
  unfold challenge; first | (simp; done) | ((try dsimp only); (repeat' split) <;> simp; done) | (refine ⟨?_, ?_, ?_, ?_, ?_, ?_, ?_, ?_, ?_, ?_, ?_, ?_, ?_, ?_, ?_⟩ <;> first | (simp; done) | ((try dsimp only); (repeat' split) <;> simp; done))

@[simp] theorem getMeasurements_keeps (s : State) (port op : Nat) (nonce : List Byte) :
    (getMeasurements s port op nonce).pending = s.pending ∧ (getMeasurements s port op nonce).gate = s.gate
      ∧ (getMeasurements s port op nonce).mod = s.mod ∧ (getMeasurements s port op nonce).rows = s.rows
      ∧ (getMeasurements s port op nonce).dumps = s.dumps ∧ (getMeasurements s port op nonce).shed = s.shed
      ∧ (getMeasurements s port op nonce).replay = s.replay ∧ (getMeasurements s port op nonce).reg = s.reg
      ∧ (getMeasurements s port op nonce).just = s.just ∧ (getMeasurements s port op nonce).tiles = s.tiles
      ∧ (getMeasurements s port op nonce).pvs = s.pvs ∧ (getMeasurements s port op nonce).fns = s.fns
      ∧ (getMeasurements s port op nonce).free = s.free ∧ (getMeasurements s port op nonce).sun = s.sun
      ∧ (getMeasurements s port op nonce).die = s.die := by
  unfold getMeasurements; first | (simp; done) | ((try dsimp only); (repeat' split) <;> simp; done) | (refine ⟨?_, ?_, ?_, ?_, ?_, ?_, ?_, ?_, ?_, ?_, ?_, ?_, ?_, ?_, ?_⟩ <;> first | (simp; done) | ((try dsimp only); (repeat' split) <;> simp; done))

@[simp] theorem fleetReply_keeps (s : State) (port status : Nat) :
    (fleetReply s port status).pending = s.pending ∧ (fleetReply s port status).gate = s.gate ∧ (fleetReply s port status).mod = s.mod
      ∧ (fleetReply s port status).rows = s.rows ∧ (fleetReply s port status).dumps = s.dumps ∧ (fleetReply s port status).shed = s.shed
      ∧ (fleetReply s port status).replay = s.replay ∧ (fleetReply s port status).reg = s.reg ∧ (fleetReply s port status).just = s.just
      ∧ (fleetReply s port status).tiles = s.tiles ∧ (fleetReply s port status).pvs = s.pvs ∧ (fleetReply s port status).fns = s.fns
      ∧ (fleetReply s port status).free = s.free ∧ (fleetReply s port status).sun = s.sun ∧ (fleetReply s port status).die = s.die := by
  unfold fleetReply; first | (simp; done) | ((try dsimp only); (repeat' split) <;> simp; done) | (refine ⟨?_, ?_, ?_, ?_, ?_, ?_, ?_, ?_, ?_, ?_, ?_, ?_, ?_, ?_, ?_⟩ <;> first | (simp; done) | ((try dsimp only); (repeat' split) <;> simp; done))

@[simp] theorem fleetInstall_keeps (s : State) (port : Nat) (body : List Byte) :
    (fleetInstall s port body).pending = s.pending ∧ (fleetInstall s port body).mod = s.mod ∧ (fleetInstall s port body).rows = s.rows
      ∧ (fleetInstall s port body).dumps = s.dumps ∧ (fleetInstall s port body).shed = s.shed ∧ (fleetInstall s port body).replay = s.replay
      ∧ (fleetInstall s port body).reg = s.reg ∧ (fleetInstall s port body).just = s.just ∧ (fleetInstall s port body).tiles = s.tiles
      ∧ (fleetInstall s port body).pvs = s.pvs ∧ (fleetInstall s port body).fns = s.fns ∧ (fleetInstall s port body).free = s.free
      ∧ (fleetInstall s port body).sun = s.sun ∧ (fleetInstall s port body).die = s.die := by
  unfold fleetInstall; first | (simp; done) | ((try dsimp only); (repeat' split) <;> simp; done) | (refine ⟨?_, ?_, ?_, ?_, ?_, ?_, ?_, ?_, ?_, ?_, ?_, ?_, ?_, ?_⟩ <;> first | (simp; done) | ((try dsimp only); (repeat' split) <;> simp; done))

@[simp] theorem fleetRemove_keeps (s : State) (port : Nat) (body : List Byte) :
    (fleetRemove s port body).pending = s.pending ∧ (fleetRemove s port body).mod = s.mod ∧ (fleetRemove s port body).rows = s.rows
      ∧ (fleetRemove s port body).dumps = s.dumps ∧ (fleetRemove s port body).shed = s.shed ∧ (fleetRemove s port body).replay = s.replay
      ∧ (fleetRemove s port body).reg = s.reg ∧ (fleetRemove s port body).just = s.just ∧ (fleetRemove s port body).tiles = s.tiles
      ∧ (fleetRemove s port body).pvs = s.pvs ∧ (fleetRemove s port body).fns = s.fns ∧ (fleetRemove s port body).free = s.free
      ∧ (fleetRemove s port body).sun = s.sun ∧ (fleetRemove s port body).die = s.die := by
  unfold fleetRemove; first | (simp; done) | ((try dsimp only); (repeat' split) <;> simp; done) | (refine ⟨?_, ?_, ?_, ?_, ?_, ?_, ?_, ?_, ?_, ?_, ?_, ?_, ?_, ?_⟩ <;> first | (simp; done) | ((try dsimp only); (repeat' split) <;> simp; done))

@[simp] theorem replayIrq_keeps (s : State) (k : Nat) :
    (replayIrq s k).pending = s.pending ∧ (replayIrq s k).gate = s.gate ∧ (replayIrq s k).mod = s.mod ∧ (replayIrq s k).rows = s.rows
      ∧ (replayIrq s k).dumps = s.dumps ∧ (replayIrq s k).shed = s.shed ∧ (replayIrq s k).replay = s.replay ∧ (replayIrq s k).reg = s.reg
      ∧ (replayIrq s k).just = s.just ∧ (replayIrq s k).tiles = s.tiles ∧ (replayIrq s k).pvs = s.pvs ∧ (replayIrq s k).fns = s.fns
      ∧ (replayIrq s k).out = s.out ∧ (replayIrq s k).free = s.free ∧ (replayIrq s k).sun = s.sun ∧ (replayIrq s k).die.hbm = s.die.hbm
      ∧ (replayIrq s k).die.oyKey = s.die.oyKey ∧ (replayIrq s k).die.slices = s.die.slices ∧ (replayIrq s k).die.transfers = s.die.transfers
      ∧ (replayIrq s k).die.commit = s.die.commit ∧ (replayIrq s k).die.barriers = s.die.barriers ∧ (replayIrq s k).die.windows = s.die.windows
      ∧ (replayIrq s k).die.ctls = s.die.ctls ∧ (replayIrq s k).die.ports = s.die.ports ∧ (replayIrq s k).die.band = s.die.band
      ∧ (replayIrq s k).die.reports = s.die.reports ∧ (replayIrq s k).die.atTick = s.die.atTick := by
  unfold replayIrq; first | (simp; done) | ((try dsimp only); (repeat' split) <;> simp; done) | (refine ⟨?_, ?_, ?_, ?_, ?_, ?_, ?_, ?_, ?_, ?_, ?_, ?_, ?_, ?_, ?_, ?_, ?_, ?_, ?_, ?_, ?_, ?_, ?_, ?_, ?_, ?_, ?_⟩ <;> first | (simp; done) | ((try dsimp only); (repeat' split) <;> simp; done))

@[simp] theorem abandonFrame_keeps (s : State) :
    (abandonFrame s).pending = s.pending ∧ (abandonFrame s).gate = s.gate ∧ (abandonFrame s).mod = s.mod ∧ (abandonFrame s).rows = s.rows
      ∧ (abandonFrame s).dumps = s.dumps ∧ (abandonFrame s).shed = s.shed ∧ (abandonFrame s).reg = s.reg ∧ (abandonFrame s).just = s.just
      ∧ (abandonFrame s).pvs = s.pvs ∧ (abandonFrame s).fns = s.fns ∧ (abandonFrame s).out = s.out ∧ (abandonFrame s).free = s.free
      ∧ (abandonFrame s).sun = s.sun ∧ (abandonFrame s).die.hbm = s.die.hbm ∧ (abandonFrame s).die.oyKey = s.die.oyKey
      ∧ (abandonFrame s).die.slices = s.die.slices ∧ (abandonFrame s).die.barriers = s.die.barriers
      ∧ (abandonFrame s).die.reports = s.die.reports ∧ (abandonFrame s).die.atTick = s.die.atTick := by
  unfold abandonFrame; first | (simp; done) | ((try dsimp only); (repeat' split) <;> simp; done) | (refine ⟨?_, ?_, ?_, ?_, ?_, ?_, ?_, ?_, ?_, ?_, ?_, ?_, ?_, ?_, ?_, ?_, ?_, ?_, ?_⟩ <;> first | (simp; done) | ((try dsimp only); (repeat' split) <;> simp; done))

@[simp] theorem restoreFrame_keeps (s : State) :
    (restoreFrame s).pending = s.pending ∧ (restoreFrame s).gate = s.gate ∧ (restoreFrame s).mod = s.mod ∧ (restoreFrame s).rows = s.rows
      ∧ (restoreFrame s).dumps = s.dumps ∧ (restoreFrame s).shed = s.shed ∧ (restoreFrame s).replay = s.replay ∧ (restoreFrame s).reg = s.reg
      ∧ (restoreFrame s).just = s.just ∧ (restoreFrame s).pvs = s.pvs ∧ (restoreFrame s).fns = s.fns ∧ (restoreFrame s).out = s.out
      ∧ (restoreFrame s).free = s.free ∧ (restoreFrame s).sun = s.sun ∧ (restoreFrame s).die.hbm = s.die.hbm
      ∧ (restoreFrame s).die.oyKey = s.die.oyKey ∧ (restoreFrame s).die.slices = s.die.slices ∧ (restoreFrame s).die.transfers = s.die.transfers
      ∧ (restoreFrame s).die.commit = s.die.commit ∧ (restoreFrame s).die.windows = s.die.windows ∧ (restoreFrame s).die.ctls = s.die.ctls
      ∧ (restoreFrame s).die.ports = s.die.ports ∧ (restoreFrame s).die.lodges = s.die.lodges ∧ (restoreFrame s).die.band = s.die.band
      ∧ (restoreFrame s).die.reports = s.die.reports ∧ (restoreFrame s).die.atTick = s.die.atTick := by
  unfold restoreFrame; first | (simp; done) | ((try dsimp only); (repeat' split) <;> simp; done) | (refine ⟨?_, ?_, ?_, ?_, ?_, ?_, ?_, ?_, ?_, ?_, ?_, ?_, ?_, ?_, ?_, ?_, ?_, ?_, ?_, ?_, ?_, ?_, ?_, ?_, ?_, ?_⟩ <;> first | (simp; done) | ((try dsimp only); (repeat' split) <;> simp; done))

@[simp] theorem answerLine_keeps (s : State) (t line : Nat) :
    (answerLine s t line).pending = s.pending ∧ (answerLine s t line).gate = s.gate ∧ (answerLine s t line).mod = s.mod
      ∧ (answerLine s t line).rows = s.rows ∧ (answerLine s t line).shed = s.shed ∧ (answerLine s t line).replay = s.replay
      ∧ (answerLine s t line).just = s.just ∧ (answerLine s t line).free = s.free ∧ (answerLine s t line).sun.ctr = s.sun.ctr
      ∧ (answerLine s t line).sun.lags = s.sun.lags ∧ (answerLine s t line).sun.tick = s.sun.tick ∧ (answerLine s t line).sun.time = s.sun.time
      ∧ (answerLine s t line).sun.freeze = s.sun.freeze ∧ (answerLine s t line).sun.stopped = s.sun.stopped := by
  unfold answerLine; first | (simp; done) | ((try dsimp only); (repeat' split) <;> simp; done) | (refine ⟨?_, ?_, ?_, ?_, ?_, ?_, ?_, ?_, ?_, ?_, ?_, ?_, ?_, ?_⟩ <;> first | (simp; done) | ((try dsimp only); (repeat' split) <;> simp; done))

@[simp] theorem answerSite_keeps (s : State) (x : Site) :
    (answerSite s x).pending = s.pending ∧ (answerSite s x).gate = s.gate ∧ (answerSite s x).mod = s.mod ∧ (answerSite s x).rows = s.rows
      ∧ (answerSite s x).shed = s.shed ∧ (answerSite s x).replay = s.replay ∧ (answerSite s x).just = s.just ∧ (answerSite s x).free = s.free
      ∧ (answerSite s x).sun.ctr = s.sun.ctr ∧ (answerSite s x).sun.lags = s.sun.lags ∧ (answerSite s x).sun.tick = s.sun.tick
      ∧ (answerSite s x).sun.time = s.sun.time ∧ (answerSite s x).sun.freeze = s.sun.freeze ∧ (answerSite s x).sun.stopped = s.sun.stopped := by
  unfold answerSite; first | (simp; done) | ((try dsimp only); (repeat' split) <;> simp; done) | (refine ⟨?_, ?_, ?_, ?_, ?_, ?_, ?_, ?_, ?_, ?_, ?_, ?_, ?_, ?_⟩ <;> first | (simp; done) | ((try dsimp only); (repeat' split) <;> simp; done))

@[simp] theorem moveEast_keeps (s : State) (p : Nat) :
    (moveEast s p).pending = s.pending ∧ (moveEast s p).gate = s.gate ∧ (moveEast s p).mod = s.mod ∧ (moveEast s p).rows = s.rows
      ∧ (moveEast s p).dumps = s.dumps ∧ (moveEast s p).shed = s.shed ∧ (moveEast s p).reg = s.reg ∧ (moveEast s p).just = s.just
      ∧ (moveEast s p).pvs = s.pvs ∧ (moveEast s p).fns = s.fns ∧ (moveEast s p).out = s.out ∧ (moveEast s p).free = s.free
      ∧ (moveEast s p).sun = s.sun ∧ (moveEast s p).die = s.die := by
  unfold moveEast; first | (simp; done) | ((try dsimp only); (repeat' split) <;> simp; done) | (refine ⟨?_, ?_, ?_, ?_, ?_, ?_, ?_, ?_, ?_, ?_, ?_, ?_, ?_, ?_⟩ <;> first | (simp; done) | ((try dsimp only); (repeat' split) <;> simp; done))

@[simp] theorem copyRegs_keeps (s : State) (p : Nat) :
    (copyRegs s p).pending = s.pending ∧ (copyRegs s p).gate = s.gate ∧ (copyRegs s p).mod = s.mod ∧ (copyRegs s p).rows = s.rows
      ∧ (copyRegs s p).dumps = s.dumps ∧ (copyRegs s p).shed = s.shed ∧ (copyRegs s p).replay = s.replay ∧ (copyRegs s p).reg = s.reg
      ∧ (copyRegs s p).just = s.just ∧ (copyRegs s p).pvs = s.pvs ∧ (copyRegs s p).fns = s.fns ∧ (copyRegs s p).out = s.out
      ∧ (copyRegs s p).free = s.free ∧ (copyRegs s p).sun = s.sun ∧ (copyRegs s p).die = s.die := by
  unfold copyRegs; first | (simp; done) | ((try dsimp only); (repeat' split) <;> simp; done) | (refine ⟨?_, ?_, ?_, ?_, ?_, ?_, ?_, ?_, ?_, ?_, ?_, ?_, ?_, ?_, ?_⟩ <;> first | (simp; done) | ((try dsimp only); (repeat' split) <;> simp; done))

@[simp] theorem repeatMove_keeps (q p : Nat) (s : State) (e : W64 × W64) :
    (repeatMove q p s e).pending = s.pending ∧ (repeatMove q p s e).gate = s.gate ∧ (repeatMove q p s e).mod = s.mod
      ∧ (repeatMove q p s e).rows = s.rows ∧ (repeatMove q p s e).dumps = s.dumps ∧ (repeatMove q p s e).shed = s.shed
      ∧ (repeatMove q p s e).replay = s.replay ∧ (repeatMove q p s e).reg = s.reg ∧ (repeatMove q p s e).just = s.just
      ∧ (repeatMove q p s e).pvs = s.pvs ∧ (repeatMove q p s e).fns = s.fns ∧ (repeatMove q p s e).out = s.out
      ∧ (repeatMove q p s e).free = s.free ∧ (repeatMove q p s e).sun = s.sun ∧ (repeatMove q p s e).die = s.die := by
  unfold repeatMove; first | (simp; done) | ((try dsimp only); (repeat' split) <;> simp; done) | (refine ⟨?_, ?_, ?_, ?_, ?_, ?_, ?_, ?_, ?_, ?_, ?_, ?_, ?_, ?_, ?_⟩ <;> first | (simp; done) | ((try dsimp only); (repeat' split) <;> simp; done))

@[simp] theorem reloadMoved_keeps (s : State) (x : Nat × List (W64 × W64)) :
    (reloadMoved s x).pending = s.pending ∧ (reloadMoved s x).gate = s.gate ∧ (reloadMoved s x).mod = s.mod ∧ (reloadMoved s x).rows = s.rows
      ∧ (reloadMoved s x).dumps = s.dumps ∧ (reloadMoved s x).shed = s.shed ∧ (reloadMoved s x).replay = s.replay ∧ (reloadMoved s x).reg = s.reg
      ∧ (reloadMoved s x).just = s.just ∧ (reloadMoved s x).pvs = s.pvs ∧ (reloadMoved s x).fns = s.fns ∧ (reloadMoved s x).out = s.out
      ∧ (reloadMoved s x).free = s.free ∧ (reloadMoved s x).sun = s.sun ∧ (reloadMoved s x).die = s.die := by
  unfold reloadMoved; first | (simp; done) | ((try dsimp only); (repeat' split) <;> simp; done) | (refine ⟨?_, ?_, ?_, ?_, ?_, ?_, ?_, ?_, ?_, ?_, ?_, ?_, ?_, ?_, ?_⟩ <;> first | (simp; done) | ((try dsimp only); (repeat' split) <;> simp; done))

@[simp] theorem recordLost_keeps (s : State) (k : Nat) :
    (recordLost s k).pending = s.pending ∧ (recordLost s k).gate = s.gate ∧ (recordLost s k).mod = s.mod ∧ (recordLost s k).rows = s.rows
      ∧ (recordLost s k).dumps = s.dumps ∧ (recordLost s k).replay = s.replay ∧ (recordLost s k).tiles = s.tiles ∧ (recordLost s k).pvs = s.pvs
      ∧ (recordLost s k).fns = s.fns ∧ (recordLost s k).out = s.out ∧ (recordLost s k).free = s.free ∧ (recordLost s k).sun = s.sun
      ∧ (recordLost s k).die = s.die := by
  unfold recordLost; first | (simp; done) | ((try dsimp only); (repeat' split) <;> simp; done) | (refine ⟨?_, ?_, ?_, ?_, ?_, ?_, ?_, ?_, ?_, ?_, ?_, ?_, ?_⟩ <;> first | (simp; done) | ((try dsimp only); (repeat' split) <;> simp; done))

@[simp] theorem writeEntry_keeps (s : State) (r column : Nat) (lost : Option Nat) :
    (writeEntry s r column lost).pending = s.pending ∧ (writeEntry s r column lost).gate = s.gate ∧ (writeEntry s r column lost).mod = s.mod
      ∧ (writeEntry s r column lost).dumps = s.dumps ∧ (writeEntry s r column lost).replay = s.replay
      ∧ (writeEntry s r column lost).tiles = s.tiles ∧ (writeEntry s r column lost).pvs = s.pvs ∧ (writeEntry s r column lost).fns = s.fns
      ∧ (writeEntry s r column lost).out = s.out ∧ (writeEntry s r column lost).free = s.free ∧ (writeEntry s r column lost).sun = s.sun
      ∧ (writeEntry s r column lost).die = s.die := by
  unfold writeEntry; first | (simp; done) | ((try dsimp only); (repeat' split) <;> simp; done) | (refine ⟨?_, ?_, ?_, ?_, ?_, ?_, ?_, ?_, ?_, ?_, ?_, ?_⟩ <;> first | (simp; done) | ((try dsimp only); (repeat' split) <;> simp; done))

@[simp] theorem repairCheck_keeps (s : State) (t r c : Nat) (chk : Check) :
    (repairCheck s t r c chk).pending = s.pending ∧ (repairCheck s t r c chk).gate = s.gate ∧ (repairCheck s t r c chk).mod = s.mod
      ∧ (repairCheck s t r c chk).rows = s.rows ∧ (repairCheck s t r c chk).sun.ctr = s.sun.ctr ∧ (repairCheck s t r c chk).sun.lags = s.sun.lags
      ∧ (repairCheck s t r c chk).sun.tick = s.sun.tick ∧ (repairCheck s t r c chk).sun.time = s.sun.time
      ∧ (repairCheck s t r c chk).sun.freeze = s.sun.freeze ∧ (repairCheck s t r c chk).sun.stopped = s.sun.stopped := by
  unfold repairCheck; first | (simp; done) | ((try dsimp only); (repeat' split) <;> simp; done) | (refine ⟨?_, ?_, ?_, ?_, ?_, ?_, ?_, ?_, ?_, ?_⟩ <;> first | (simp; done) | ((try dsimp only); (repeat' split) <;> simp; done))

@[simp] theorem loseCluster_keeps (s : State) (t p : Nat) :
    (loseCluster s t p).pending = s.pending ∧ (loseCluster s t p).gate = s.gate ∧ (loseCluster s t p).rows = s.rows
      ∧ (loseCluster s t p).replay = s.replay ∧ (loseCluster s t p).free = s.free ∧ (loseCluster s t p).sun.ctr = s.sun.ctr
      ∧ (loseCluster s t p).sun.lags = s.sun.lags ∧ (loseCluster s t p).sun.tick = s.sun.tick ∧ (loseCluster s t p).sun.time = s.sun.time
      ∧ (loseCluster s t p).sun.freeze = s.sun.freeze ∧ (loseCluster s t p).sun.stopped = s.sun.stopped := by
  unfold loseCluster; first | (simp; done) | ((try dsimp only); (repeat' split) <;> simp; done) | (refine ⟨?_, ?_, ?_, ?_, ?_, ?_, ?_, ?_, ?_, ?_, ?_⟩ <;> first | (simp; done) | ((try dsimp only); (repeat' split) <;> simp; done))

@[simp] theorem replayLimit_keeps (s : State) :
    (replayLimit s).pending = s.pending ∧ (replayLimit s).gate = s.gate ∧ (replayLimit s).mod = s.mod ∧ (replayLimit s).rows = s.rows
      ∧ (replayLimit s).shed = s.shed ∧ (replayLimit s).replay = s.replay ∧ (replayLimit s).just = s.just ∧ (replayLimit s).free = s.free
      ∧ (replayLimit s).sun.ctr = s.sun.ctr ∧ (replayLimit s).sun.lags = s.sun.lags ∧ (replayLimit s).sun.tick = s.sun.tick
      ∧ (replayLimit s).sun.time = s.sun.time ∧ (replayLimit s).sun.freeze = s.sun.freeze ∧ (replayLimit s).sun.stopped = s.sun.stopped := by
  unfold replayLimit; first | (simp; done) | ((try dsimp only); (repeat' split) <;> simp; done) | (refine ⟨?_, ?_, ?_, ?_, ?_, ?_, ?_, ?_, ?_, ?_, ?_, ?_, ?_, ?_⟩ <;> first | (simp; done) | ((try dsimp only); (repeat' split) <;> simp; done))

@[simp] theorem releaseReplay_keeps (s : State) :
    (releaseReplay s).pending = s.pending ∧ (releaseReplay s).gate = s.gate ∧ (releaseReplay s).mod = s.mod ∧ (releaseReplay s).rows = s.rows
      ∧ (releaseReplay s).dumps = s.dumps ∧ (releaseReplay s).shed = s.shed ∧ (releaseReplay s).reg = s.reg ∧ (releaseReplay s).just = s.just
      ∧ (releaseReplay s).tiles = s.tiles ∧ (releaseReplay s).pvs = s.pvs ∧ (releaseReplay s).fns = s.fns ∧ (releaseReplay s).free = s.free
      ∧ (releaseReplay s).sun.ctr = s.sun.ctr ∧ (releaseReplay s).sun.lags = s.sun.lags ∧ (releaseReplay s).sun.tick = s.sun.tick
      ∧ (releaseReplay s).sun.time = s.sun.time ∧ (releaseReplay s).sun.freeze = s.sun.freeze ∧ (releaseReplay s).sun.stopped = s.sun.stopped
      ∧ (releaseReplay s).die.hbm = s.die.hbm ∧ (releaseReplay s).die.oyKey = s.die.oyKey ∧ (releaseReplay s).die.slices = s.die.slices
      ∧ (releaseReplay s).die.transfers = s.die.transfers ∧ (releaseReplay s).die.commit = s.die.commit
      ∧ (releaseReplay s).die.barriers = s.die.barriers ∧ (releaseReplay s).die.windows = s.die.windows ∧ (releaseReplay s).die.ctls = s.die.ctls
      ∧ (releaseReplay s).die.lodges = s.die.lodges ∧ (releaseReplay s).die.band = s.die.band ∧ (releaseReplay s).die.reports = s.die.reports
      ∧ (releaseReplay s).die.atTick = s.die.atTick := by
  unfold releaseReplay; first | (simp; done) | ((try dsimp only); (repeat' split) <;> simp; done) | (refine ⟨?_, ?_, ?_, ?_, ?_, ?_, ?_, ?_, ?_, ?_, ?_, ?_, ?_, ?_, ?_, ?_, ?_, ?_, ?_, ?_, ?_, ?_, ?_, ?_, ?_, ?_, ?_, ?_, ?_, ?_⟩ <;> first | (simp; done) | ((try dsimp only); (repeat' split) <;> simp; done))

@[simp] theorem recordReplay_keeps (s : State) :
    (recordReplay s).pending = s.pending ∧ (recordReplay s).gate = s.gate ∧ (recordReplay s).mod = s.mod ∧ (recordReplay s).rows = s.rows
      ∧ (recordReplay s).dumps = s.dumps ∧ (recordReplay s).shed = s.shed ∧ (recordReplay s).replay = s.replay ∧ (recordReplay s).just = s.just
      ∧ (recordReplay s).tiles = s.tiles ∧ (recordReplay s).pvs = s.pvs ∧ (recordReplay s).fns = s.fns ∧ (recordReplay s).out = s.out
      ∧ (recordReplay s).free = s.free ∧ (recordReplay s).sun = s.sun ∧ (recordReplay s).die = s.die := by
  unfold recordReplay; first | (simp; done) | ((try dsimp only); (repeat' split) <;> simp; done) | (refine ⟨?_, ?_, ?_, ?_, ?_, ?_, ?_, ?_, ?_, ?_, ?_, ?_, ?_, ?_, ?_⟩ <;> first | (simp; done) | ((try dsimp only); (repeat' split) <;> simp; done))

@[simp] theorem dieReplayed_keeps (tick : Nat) (resumes : List Nat) (s : State) :
    (dieReplayed tick resumes s).pending = s.pending ∧ (dieReplayed tick resumes s).gate = s.gate ∧ (dieReplayed tick resumes s).mod = s.mod
      ∧ (dieReplayed tick resumes s).rows = s.rows ∧ (dieReplayed tick resumes s).dumps = s.dumps ∧ (dieReplayed tick resumes s).shed = s.shed
      ∧ (dieReplayed tick resumes s).replay = s.replay ∧ (dieReplayed tick resumes s).reg = s.reg ∧ (dieReplayed tick resumes s).just = s.just
      ∧ (dieReplayed tick resumes s).pvs = s.pvs ∧ (dieReplayed tick resumes s).fns = s.fns ∧ (dieReplayed tick resumes s).out = s.out
      ∧ (dieReplayed tick resumes s).free = s.free ∧ (dieReplayed tick resumes s).sun = s.sun ∧ (dieReplayed tick resumes s).die.hbm = s.die.hbm
      ∧ (dieReplayed tick resumes s).die.oyKey = s.die.oyKey ∧ (dieReplayed tick resumes s).die.slices = s.die.slices
      ∧ (dieReplayed tick resumes s).die.commit = s.die.commit ∧ (dieReplayed tick resumes s).die.windows = s.die.windows
      ∧ (dieReplayed tick resumes s).die.ports = s.die.ports ∧ (dieReplayed tick resumes s).die.lodges = s.die.lodges
      ∧ (dieReplayed tick resumes s).die.reports = s.die.reports ∧ (dieReplayed tick resumes s).die.atTick = s.die.atTick := by
  unfold dieReplayed; first | (simp; done) | ((try dsimp only); (repeat' split) <;> simp; done) | (refine ⟨?_, ?_, ?_, ?_, ?_, ?_, ?_, ?_, ?_, ?_, ?_, ?_, ?_, ?_, ?_, ?_, ?_, ?_, ?_, ?_, ?_, ?_, ?_⟩ <;> first | (simp; done) | ((try dsimp only); (repeat' split) <;> simp; done))

@[simp] theorem replayTick_keeps (s : State) :
    (replayTick s).pending = s.pending ∧ (replayTick s).gate = s.gate ∧ (replayTick s).mod = s.mod ∧ (replayTick s).rows = s.rows
      ∧ (replayTick s).dumps = s.dumps ∧ (replayTick s).pvs = s.pvs ∧ (replayTick s).fns = s.fns ∧ (replayTick s).free = s.free
      ∧ (replayTick s).die.hbm = s.die.hbm ∧ (replayTick s).die.oyKey = s.die.oyKey ∧ (replayTick s).die.slices = s.die.slices
      ∧ (replayTick s).die.commit = s.die.commit ∧ (replayTick s).die.windows = s.die.windows ∧ (replayTick s).die.lodges = s.die.lodges
      ∧ (replayTick s).die.reports = s.die.reports ∧ (replayTick s).die.atTick = s.die.atTick := by
  unfold replayTick; first | (simp; done) | ((try dsimp only); (repeat' split) <;> simp; done) | (refine ⟨?_, ?_, ?_, ?_, ?_, ?_, ?_, ?_, ?_, ?_, ?_, ?_, ?_, ?_, ?_, ?_⟩ <;> first | (simp; done) | ((try dsimp only); (repeat' split) <;> simp; done))

@[simp] theorem withdrawPort_keeps (s : State) (p : Nat) :
    (withdrawPort s p).pending = s.pending ∧ (withdrawPort s p).gate = s.gate ∧ (withdrawPort s p).mod = s.mod ∧ (withdrawPort s p).rows = s.rows
      ∧ (withdrawPort s p).dumps = s.dumps ∧ (withdrawPort s p).shed = s.shed ∧ (withdrawPort s p).replay = s.replay
      ∧ (withdrawPort s p).reg = s.reg ∧ (withdrawPort s p).just = s.just ∧ (withdrawPort s p).tiles = s.tiles ∧ (withdrawPort s p).pvs = s.pvs
      ∧ (withdrawPort s p).fns = s.fns ∧ (withdrawPort s p).free = s.free ∧ (withdrawPort s p).sun.ctr = s.sun.ctr
      ∧ (withdrawPort s p).sun.lags = s.sun.lags ∧ (withdrawPort s p).sun.tick = s.sun.tick ∧ (withdrawPort s p).sun.time = s.sun.time
      ∧ (withdrawPort s p).sun.freeze = s.sun.freeze ∧ (withdrawPort s p).sun.stopped = s.sun.stopped ∧ (withdrawPort s p).die.hbm = s.die.hbm
      ∧ (withdrawPort s p).die.oyKey = s.die.oyKey ∧ (withdrawPort s p).die.slices = s.die.slices
      ∧ (withdrawPort s p).die.transfers = s.die.transfers ∧ (withdrawPort s p).die.commit = s.die.commit
      ∧ (withdrawPort s p).die.barriers = s.die.barriers ∧ (withdrawPort s p).die.windows = s.die.windows
      ∧ (withdrawPort s p).die.ctls = s.die.ctls ∧ (withdrawPort s p).die.lodges = s.die.lodges ∧ (withdrawPort s p).die.band = s.die.band
      ∧ (withdrawPort s p).die.reports = s.die.reports ∧ (withdrawPort s p).die.atTick = s.die.atTick := by
  unfold withdrawPort; first | (simp; done) | ((try dsimp only); (repeat' split) <;> simp; done) | (refine ⟨?_, ?_, ?_, ?_, ?_, ?_, ?_, ?_, ?_, ?_, ?_, ?_, ?_, ?_, ?_, ?_, ?_, ?_, ?_, ?_, ?_, ?_, ?_, ?_, ?_, ?_, ?_, ?_, ?_, ?_, ?_⟩ <;> first | (simp; done) | ((try dsimp only); (repeat' split) <;> simp; done))

@[simp] theorem rangerFire_keeps (s : State) :
    (rangerFire s).pending = s.pending ∧ (rangerFire s).gate = s.gate ∧ (rangerFire s).mod = s.mod ∧ (rangerFire s).rows = s.rows
      ∧ (rangerFire s).free = s.free ∧ (rangerFire s).sun.ctr = s.sun.ctr ∧ (rangerFire s).sun.lags = s.sun.lags
      ∧ (rangerFire s).sun.tick = s.sun.tick ∧ (rangerFire s).sun.time = s.sun.time ∧ (rangerFire s).sun.freeze = s.sun.freeze
      ∧ (rangerFire s).sun.stopped = s.sun.stopped := by
  unfold rangerFire; first | (simp; done) | ((try dsimp only); (repeat' split) <;> simp; done) | (refine ⟨?_, ?_, ?_, ?_, ?_, ?_, ?_, ?_, ?_, ?_, ?_⟩ <;> first | (simp; done) | ((try dsimp only); (repeat' split) <;> simp; done))

@[simp] theorem tileReport_keeps (s : State) (p : Nat) :
    (tileReport s p).pending = s.pending ∧ (tileReport s p).gate = s.gate ∧ (tileReport s p).mod = s.mod ∧ (tileReport s p).rows = s.rows
      ∧ (tileReport s p).shed = s.shed ∧ (tileReport s p).replay = s.replay ∧ (tileReport s p).just = s.just ∧ (tileReport s p).free = s.free
      ∧ (tileReport s p).sun.ctr = s.sun.ctr ∧ (tileReport s p).sun.lags = s.sun.lags ∧ (tileReport s p).sun.tick = s.sun.tick
      ∧ (tileReport s p).sun.time = s.sun.time ∧ (tileReport s p).sun.freeze = s.sun.freeze ∧ (tileReport s p).sun.stopped = s.sun.stopped := by
  unfold tileReport; first | (simp; done) | ((try dsimp only); (repeat' split) <;> simp; done) | (refine ⟨?_, ?_, ?_, ?_, ?_, ?_, ?_, ?_, ?_, ?_, ?_, ?_, ?_, ?_⟩ <;> first | (simp; done) | ((try dsimp only); (repeat' split) <;> simp; done))

@[simp] theorem oldAccess_keeps (s : State) (p i : Nat) (e : WinEntry) :
    (oldAccess s p i e).pending = s.pending ∧ (oldAccess s p i e).gate = s.gate ∧ (oldAccess s p i e).mod = s.mod
      ∧ (oldAccess s p i e).rows = s.rows ∧ (oldAccess s p i e).dumps = s.dumps ∧ (oldAccess s p i e).shed = s.shed
      ∧ (oldAccess s p i e).replay = s.replay ∧ (oldAccess s p i e).reg = s.reg ∧ (oldAccess s p i e).just = s.just
      ∧ (oldAccess s p i e).pvs = s.pvs ∧ (oldAccess s p i e).fns = s.fns ∧ (oldAccess s p i e).out = s.out ∧ (oldAccess s p i e).free = s.free
      ∧ (oldAccess s p i e).sun = s.sun ∧ (oldAccess s p i e).die = s.die := by
  unfold oldAccess; first | (simp; done) | ((try dsimp only); (repeat' split) <;> simp; done) | (refine ⟨?_, ?_, ?_, ?_, ?_, ?_, ?_, ?_, ?_, ?_, ?_, ?_, ?_, ?_, ?_⟩ <;> first | (simp; done) | ((try dsimp only); (repeat' split) <;> simp; done))

@[simp] theorem autoStart_keeps (s : State) (t : Nat) :
    (autoStart s t).pending = s.pending ∧ (autoStart s t).gate = s.gate ∧ (autoStart s t).mod = s.mod ∧ (autoStart s t).rows = s.rows
      ∧ (autoStart s t).dumps = s.dumps ∧ (autoStart s t).shed = s.shed ∧ (autoStart s t).replay = s.replay ∧ (autoStart s t).reg = s.reg
      ∧ (autoStart s t).just = s.just ∧ (autoStart s t).pvs = s.pvs ∧ (autoStart s t).fns = s.fns ∧ (autoStart s t).out = s.out
      ∧ (autoStart s t).free = s.free ∧ (autoStart s t).sun = s.sun ∧ (autoStart s t).die.hbm = s.die.hbm
      ∧ (autoStart s t).die.oyKey = s.die.oyKey ∧ (autoStart s t).die.slices = s.die.slices ∧ (autoStart s t).die.commit = s.die.commit
      ∧ (autoStart s t).die.barriers = s.die.barriers ∧ (autoStart s t).die.windows = s.die.windows ∧ (autoStart s t).die.ctls = s.die.ctls
      ∧ (autoStart s t).die.ports = s.die.ports ∧ (autoStart s t).die.lodges = s.die.lodges ∧ (autoStart s t).die.band = s.die.band
      ∧ (autoStart s t).die.atTick = s.die.atTick := by
  unfold autoStart; first | (simp; done) | ((try dsimp only); (repeat' split) <;> simp; done) | (refine ⟨?_, ?_, ?_, ?_, ?_, ?_, ?_, ?_, ?_, ?_, ?_, ?_, ?_, ?_, ?_, ?_, ?_, ?_, ?_, ?_, ?_, ?_, ?_, ?_, ?_⟩ <;> first | (simp; done) | ((try dsimp only); (repeat' split) <;> simp; done))

@[simp] theorem countRefused_keeps (s : State) (p : Nat) (l g : List (Claimant × Claim)) :
    (countRefused s p l g).pending = s.pending ∧ (countRefused s p l g).gate = s.gate ∧ (countRefused s p l g).mod = s.mod
      ∧ (countRefused s p l g).rows = s.rows ∧ (countRefused s p l g).dumps = s.dumps ∧ (countRefused s p l g).shed = s.shed
      ∧ (countRefused s p l g).replay = s.replay ∧ (countRefused s p l g).reg = s.reg ∧ (countRefused s p l g).just = s.just
      ∧ (countRefused s p l g).pvs = s.pvs ∧ (countRefused s p l g).fns = s.fns ∧ (countRefused s p l g).out = s.out
      ∧ (countRefused s p l g).free = s.free ∧ (countRefused s p l g).sun = s.sun ∧ (countRefused s p l g).die = s.die := by
  unfold countRefused; first | (simp; done) | ((try dsimp only); (repeat' split) <;> simp; done) | (refine ⟨?_, ?_, ?_, ?_, ?_, ?_, ?_, ?_, ?_, ?_, ?_, ?_, ?_, ?_, ?_⟩ <;> first | (simp; done) | ((try dsimp only); (repeat' split) <;> simp; done))

@[simp] theorem countWaits_keeps (s : State) (p : Nat) :
    (countWaits s p).pending = s.pending ∧ (countWaits s p).gate = s.gate ∧ (countWaits s p).mod = s.mod ∧ (countWaits s p).rows = s.rows
      ∧ (countWaits s p).dumps = s.dumps ∧ (countWaits s p).shed = s.shed ∧ (countWaits s p).replay = s.replay ∧ (countWaits s p).reg = s.reg
      ∧ (countWaits s p).just = s.just ∧ (countWaits s p).pvs = s.pvs ∧ (countWaits s p).fns = s.fns ∧ (countWaits s p).out = s.out
      ∧ (countWaits s p).free = s.free ∧ (countWaits s p).sun = s.sun ∧ (countWaits s p).die = s.die := by
  unfold countWaits; first | (simp; done) | ((try dsimp only); (repeat' split) <;> simp; done) | (refine ⟨?_, ?_, ?_, ?_, ?_, ?_, ?_, ?_, ?_, ?_, ?_, ?_, ?_, ?_, ?_⟩ <;> first | (simp; done) | ((try dsimp only); (repeat' split) <;> simp; done))

@[simp] theorem singleFlit_keeps (s : State) (t vc : Nat) (x : Transfer) :
    (singleFlit s t vc x).pending = s.pending ∧ (singleFlit s t vc x).gate = s.gate ∧ (singleFlit s t vc x).mod = s.mod
      ∧ (singleFlit s t vc x).rows = s.rows ∧ (singleFlit s t vc x).dumps = s.dumps ∧ (singleFlit s t vc x).shed = s.shed
      ∧ (singleFlit s t vc x).replay = s.replay ∧ (singleFlit s t vc x).reg = s.reg ∧ (singleFlit s t vc x).just = s.just
      ∧ (singleFlit s t vc x).tiles = s.tiles ∧ (singleFlit s t vc x).pvs = s.pvs ∧ (singleFlit s t vc x).fns = s.fns
      ∧ (singleFlit s t vc x).out = s.out ∧ (singleFlit s t vc x).free = s.free ∧ (singleFlit s t vc x).sun = s.sun
      ∧ (singleFlit s t vc x).die.hbm = s.die.hbm ∧ (singleFlit s t vc x).die.oyKey = s.die.oyKey
      ∧ (singleFlit s t vc x).die.slices = s.die.slices ∧ (singleFlit s t vc x).die.commit = s.die.commit
      ∧ (singleFlit s t vc x).die.barriers = s.die.barriers ∧ (singleFlit s t vc x).die.windows = s.die.windows
      ∧ (singleFlit s t vc x).die.ctls = s.die.ctls ∧ (singleFlit s t vc x).die.ports = s.die.ports
      ∧ (singleFlit s t vc x).die.lodges = s.die.lodges ∧ (singleFlit s t vc x).die.band = s.die.band
      ∧ (singleFlit s t vc x).die.reports = s.die.reports ∧ (singleFlit s t vc x).die.atTick = s.die.atTick := by
  unfold singleFlit; first | (simp; done) | ((try dsimp only); (repeat' split) <;> simp; done) | (refine ⟨?_, ?_, ?_, ?_, ?_, ?_, ?_, ?_, ?_, ?_, ?_, ?_, ?_, ?_, ?_, ?_, ?_, ?_, ?_, ?_, ?_, ?_, ?_, ?_, ?_, ?_, ?_⟩ <;> first | (simp; done) | ((try dsimp only); (repeat' split) <;> simp; done))

@[simp] theorem injectBulk_keeps (s : State) (t : Nat) :
    (injectBulk s t).pending = s.pending ∧ (injectBulk s t).gate = s.gate ∧ (injectBulk s t).mod = s.mod ∧ (injectBulk s t).rows = s.rows
      ∧ (injectBulk s t).dumps = s.dumps ∧ (injectBulk s t).shed = s.shed ∧ (injectBulk s t).replay = s.replay ∧ (injectBulk s t).reg = s.reg
      ∧ (injectBulk s t).just = s.just ∧ (injectBulk s t).tiles = s.tiles ∧ (injectBulk s t).pvs = s.pvs ∧ (injectBulk s t).fns = s.fns
      ∧ (injectBulk s t).out = s.out ∧ (injectBulk s t).free = s.free ∧ (injectBulk s t).sun = s.sun ∧ (injectBulk s t).die.hbm = s.die.hbm
      ∧ (injectBulk s t).die.oyKey = s.die.oyKey ∧ (injectBulk s t).die.slices = s.die.slices ∧ (injectBulk s t).die.commit = s.die.commit
      ∧ (injectBulk s t).die.barriers = s.die.barriers ∧ (injectBulk s t).die.ctls = s.die.ctls ∧ (injectBulk s t).die.ports = s.die.ports
      ∧ (injectBulk s t).die.lodges = s.die.lodges ∧ (injectBulk s t).die.band = s.die.band ∧ (injectBulk s t).die.reports = s.die.reports
      ∧ (injectBulk s t).die.atTick = s.die.atTick := by
  unfold injectBulk; first | (simp; done) | ((try dsimp only); (repeat' split) <;> simp; done) | (refine ⟨?_, ?_, ?_, ?_, ?_, ?_, ?_, ?_, ?_, ?_, ?_, ?_, ?_, ?_, ?_, ?_, ?_, ?_, ?_, ?_, ?_, ?_, ?_, ?_, ?_, ?_⟩ <;> first | (simp; done) | ((try dsimp only); (repeat' split) <;> simp; done))

@[simp] theorem ageWindows_keeps (s : State) (t : Nat) (stands : Bool) :
    (ageWindows s t stands).pending = s.pending ∧ (ageWindows s t stands).gate = s.gate ∧ (ageWindows s t stands).mod = s.mod
      ∧ (ageWindows s t stands).rows = s.rows ∧ (ageWindows s t stands).dumps = s.dumps ∧ (ageWindows s t stands).shed = s.shed
      ∧ (ageWindows s t stands).replay = s.replay ∧ (ageWindows s t stands).reg = s.reg ∧ (ageWindows s t stands).just = s.just
      ∧ (ageWindows s t stands).tiles = s.tiles ∧ (ageWindows s t stands).pvs = s.pvs ∧ (ageWindows s t stands).fns = s.fns
      ∧ (ageWindows s t stands).out = s.out ∧ (ageWindows s t stands).free = s.free ∧ (ageWindows s t stands).sun = s.sun
      ∧ (ageWindows s t stands).die.hbm = s.die.hbm ∧ (ageWindows s t stands).die.oyKey = s.die.oyKey
      ∧ (ageWindows s t stands).die.slices = s.die.slices ∧ (ageWindows s t stands).die.transfers = s.die.transfers
      ∧ (ageWindows s t stands).die.commit = s.die.commit ∧ (ageWindows s t stands).die.barriers = s.die.barriers
      ∧ (ageWindows s t stands).die.ctls = s.die.ctls ∧ (ageWindows s t stands).die.ports = s.die.ports
      ∧ (ageWindows s t stands).die.lodges = s.die.lodges ∧ (ageWindows s t stands).die.band = s.die.band
      ∧ (ageWindows s t stands).die.reports = s.die.reports ∧ (ageWindows s t stands).die.atTick = s.die.atTick := by
  unfold ageWindows; first | (simp; done) | ((try dsimp only); (repeat' split) <;> simp; done) | (refine ⟨?_, ?_, ?_, ?_, ?_, ?_, ?_, ?_, ?_, ?_, ?_, ?_, ?_, ?_, ?_, ?_, ?_, ?_, ?_, ?_, ?_, ?_, ?_, ?_, ?_, ?_, ?_⟩ <;> first | (simp; done) | ((try dsimp only); (repeat' split) <;> simp; done))

@[simp] theorem landAll_keeps (s : State) (p t : Nat) (g : List (Claimant × Claim)) :
    (landAll s p t g).pending = s.pending ∧ (landAll s p t g).gate = s.gate ∧ (landAll s p t g).mod = s.mod ∧ (landAll s p t g).rows = s.rows
      ∧ (landAll s p t g).dumps = s.dumps ∧ (landAll s p t g).shed = s.shed ∧ (landAll s p t g).reg = s.reg ∧ (landAll s p t g).just = s.just
      ∧ (landAll s p t g).pvs = s.pvs ∧ (landAll s p t g).fns = s.fns ∧ (landAll s p t g).out = s.out ∧ (landAll s p t g).free = s.free
      ∧ (landAll s p t g).sun = s.sun := by
  unfold landAll; first | (simp; done) | ((try dsimp only); (repeat' split) <;> simp; done) | (refine ⟨?_, ?_, ?_, ?_, ?_, ?_, ?_, ?_, ?_, ?_, ?_, ?_, ?_⟩ <;> first | (simp; done) | ((try dsimp only); (repeat' split) <;> simp; done))

@[simp] theorem storeGone_keeps (s : State) (k : Nat) :
    (storeGone s k).pending = s.pending ∧ (storeGone s k).gate = s.gate ∧ (storeGone s k).mod = s.mod ∧ (storeGone s k).rows = s.rows
      ∧ (storeGone s k).dumps = s.dumps ∧ (storeGone s k).shed = s.shed ∧ (storeGone s k).replay = s.replay ∧ (storeGone s k).reg = s.reg
      ∧ (storeGone s k).just = s.just ∧ (storeGone s k).tiles = s.tiles ∧ (storeGone s k).pvs = s.pvs ∧ (storeGone s k).fns = s.fns
      ∧ (storeGone s k).out = s.out ∧ (storeGone s k).free = s.free ∧ (storeGone s k).sun = s.sun ∧ (storeGone s k).die.hbm = s.die.hbm
      ∧ (storeGone s k).die.oyKey = s.die.oyKey ∧ (storeGone s k).die.slices = s.die.slices ∧ (storeGone s k).die.transfers = s.die.transfers
      ∧ (storeGone s k).die.commit = s.die.commit ∧ (storeGone s k).die.barriers = s.die.barriers ∧ (storeGone s k).die.windows = s.die.windows
      ∧ (storeGone s k).die.ctls = s.die.ctls ∧ (storeGone s k).die.ports = s.die.ports ∧ (storeGone s k).die.band = s.die.band
      ∧ (storeGone s k).die.reports = s.die.reports ∧ (storeGone s k).die.atTick = s.die.atTick := by
  unfold storeGone; first | (simp; done) | ((try dsimp only); (repeat' split) <;> simp; done) | (refine ⟨?_, ?_, ?_, ?_, ?_, ?_, ?_, ?_, ?_, ?_, ?_, ?_, ?_, ?_, ?_, ?_, ?_, ?_, ?_, ?_, ?_, ?_, ?_, ?_, ?_, ?_, ?_⟩ <;> first | (simp; done) | ((try dsimp only); (repeat' split) <;> simp; done))

@[simp] theorem drainStore_keeps (s : State) (k : Nat) :
    (drainStore s k).pending = s.pending ∧ (drainStore s k).gate = s.gate ∧ (drainStore s k).mod = s.mod ∧ (drainStore s k).rows = s.rows
      ∧ (drainStore s k).dumps = s.dumps ∧ (drainStore s k).shed = s.shed ∧ (drainStore s k).replay = s.replay ∧ (drainStore s k).reg = s.reg
      ∧ (drainStore s k).just = s.just ∧ (drainStore s k).pvs = s.pvs ∧ (drainStore s k).fns = s.fns ∧ (drainStore s k).out = s.out
      ∧ (drainStore s k).free = s.free ∧ (drainStore s k).sun = s.sun ∧ (drainStore s k).die.hbm = s.die.hbm
      ∧ (drainStore s k).die.oyKey = s.die.oyKey ∧ (drainStore s k).die.slices = s.die.slices ∧ (drainStore s k).die.transfers = s.die.transfers
      ∧ (drainStore s k).die.commit = s.die.commit ∧ (drainStore s k).die.barriers = s.die.barriers
      ∧ (drainStore s k).die.windows = s.die.windows ∧ (drainStore s k).die.ctls = s.die.ctls ∧ (drainStore s k).die.ports = s.die.ports
      ∧ (drainStore s k).die.band = s.die.band ∧ (drainStore s k).die.atTick = s.die.atTick := by
  unfold drainStore; first | (simp; done) | ((try dsimp only); (repeat' split) <;> simp; done) | (refine ⟨?_, ?_, ?_, ?_, ?_, ?_, ?_, ?_, ?_, ?_, ?_, ?_, ?_, ?_, ?_, ?_, ?_, ?_, ?_, ?_, ?_, ?_, ?_, ?_, ?_⟩ <;> first | (simp; done) | ((try dsimp only); (repeat' split) <;> simp; done))

@[simp] theorem refusedArrival_keeps (s : State) (i : Nat) :
    (refusedArrival s i).pending = s.pending ∧ (refusedArrival s i).gate = s.gate ∧ (refusedArrival s i).mod = s.mod
      ∧ (refusedArrival s i).rows = s.rows ∧ (refusedArrival s i).dumps = s.dumps ∧ (refusedArrival s i).shed = s.shed
      ∧ (refusedArrival s i).replay = s.replay ∧ (refusedArrival s i).reg = s.reg ∧ (refusedArrival s i).just = s.just
      ∧ (refusedArrival s i).pvs = s.pvs ∧ (refusedArrival s i).fns = s.fns ∧ (refusedArrival s i).out = s.out
      ∧ (refusedArrival s i).free = s.free ∧ (refusedArrival s i).sun = s.sun ∧ (refusedArrival s i).die.hbm = s.die.hbm
      ∧ (refusedArrival s i).die.oyKey = s.die.oyKey ∧ (refusedArrival s i).die.slices = s.die.slices
      ∧ (refusedArrival s i).die.transfers = s.die.transfers ∧ (refusedArrival s i).die.commit = s.die.commit
      ∧ (refusedArrival s i).die.barriers = s.die.barriers ∧ (refusedArrival s i).die.windows = s.die.windows
      ∧ (refusedArrival s i).die.ports = s.die.ports ∧ (refusedArrival s i).die.lodges = s.die.lodges
      ∧ (refusedArrival s i).die.band = s.die.band ∧ (refusedArrival s i).die.atTick = s.die.atTick := by
  unfold refusedArrival; first | (simp; done) | ((try dsimp only); (repeat' split) <;> simp; done) | (refine ⟨?_, ?_, ?_, ?_, ?_, ?_, ?_, ?_, ?_, ?_, ?_, ?_, ?_, ?_, ?_, ?_, ?_, ?_, ?_, ?_, ?_, ?_, ?_, ?_, ?_⟩ <;> first | (simp; done) | ((try dsimp only); (repeat' split) <;> simp; done))

@[simp] theorem takeCtl_keeps (s : State) (i : Nat) :
    (takeCtl s i).pending = s.pending ∧ (takeCtl s i).gate = s.gate ∧ (takeCtl s i).mod = s.mod ∧ (takeCtl s i).rows = s.rows
      ∧ (takeCtl s i).dumps = s.dumps ∧ (takeCtl s i).shed = s.shed ∧ (takeCtl s i).reg = s.reg ∧ (takeCtl s i).just = s.just
      ∧ (takeCtl s i).pvs = s.pvs ∧ (takeCtl s i).fns = s.fns ∧ (takeCtl s i).free = s.free ∧ (takeCtl s i).sun = s.sun
      ∧ (takeCtl s i).die.hbm = s.die.hbm ∧ (takeCtl s i).die.oyKey = s.die.oyKey ∧ (takeCtl s i).die.slices = s.die.slices
      ∧ (takeCtl s i).die.transfers = s.die.transfers ∧ (takeCtl s i).die.commit = s.die.commit ∧ (takeCtl s i).die.windows = s.die.windows
      ∧ (takeCtl s i).die.lodges = s.die.lodges ∧ (takeCtl s i).die.band = s.die.band ∧ (takeCtl s i).die.atTick = s.die.atTick := by
  unfold takeCtl; first | (simp; done) | ((try dsimp only); (repeat' split) <;> simp; done) | (refine ⟨?_, ?_, ?_, ?_, ?_, ?_, ?_, ?_, ?_, ?_, ?_, ?_, ?_, ?_, ?_, ?_, ?_, ?_, ?_, ?_, ?_⟩ <;> first | (simp; done) | ((try dsimp only); (repeat' split) <;> simp; done))

@[simp] theorem askMayWait_keeps (s : State) (t : Nat) :
    (askMayWait s t).pending = s.pending ∧ (askMayWait s t).gate = s.gate ∧ (askMayWait s t).mod = s.mod ∧ (askMayWait s t).rows = s.rows
      ∧ (askMayWait s t).dumps = s.dumps ∧ (askMayWait s t).shed = s.shed ∧ (askMayWait s t).replay = s.replay ∧ (askMayWait s t).pvs = s.pvs
      ∧ (askMayWait s t).fns = s.fns ∧ (askMayWait s t).free = s.free ∧ (askMayWait s t).die.hbm = s.die.hbm
      ∧ (askMayWait s t).die.oyKey = s.die.oyKey ∧ (askMayWait s t).die.slices = s.die.slices ∧ (askMayWait s t).die.transfers = s.die.transfers
      ∧ (askMayWait s t).die.commit = s.die.commit ∧ (askMayWait s t).die.barriers = s.die.barriers
      ∧ (askMayWait s t).die.windows = s.die.windows ∧ (askMayWait s t).die.ctls = s.die.ctls ∧ (askMayWait s t).die.lodges = s.die.lodges
      ∧ (askMayWait s t).die.band = s.die.band ∧ (askMayWait s t).die.reports = s.die.reports ∧ (askMayWait s t).die.atTick = s.die.atTick := by
  unfold askMayWait; first | (simp; done) | ((try dsimp only); (repeat' split) <;> simp; done) | (refine ⟨?_, ?_, ?_, ?_, ?_, ?_, ?_, ?_, ?_, ?_, ?_, ?_, ?_, ?_, ?_, ?_, ?_, ?_, ?_, ?_, ?_, ?_⟩ <;> first | (simp; done) | ((try dsimp only); (repeat' split) <;> simp; done))

@[simp] theorem askPort_keeps (s : State) (p : Nat) :
    (askPort s p).pending = s.pending ∧ (askPort s p).gate = s.gate ∧ (askPort s p).mod = s.mod ∧ (askPort s p).rows = s.rows
      ∧ (askPort s p).dumps = s.dumps ∧ (askPort s p).shed = s.shed ∧ (askPort s p).replay = s.replay ∧ (askPort s p).tiles = s.tiles
      ∧ (askPort s p).pvs = s.pvs ∧ (askPort s p).fns = s.fns ∧ (askPort s p).free = s.free ∧ (askPort s p).die.hbm = s.die.hbm
      ∧ (askPort s p).die.oyKey = s.die.oyKey ∧ (askPort s p).die.slices = s.die.slices ∧ (askPort s p).die.transfers = s.die.transfers
      ∧ (askPort s p).die.commit = s.die.commit ∧ (askPort s p).die.barriers = s.die.barriers ∧ (askPort s p).die.windows = s.die.windows
      ∧ (askPort s p).die.ctls = s.die.ctls ∧ (askPort s p).die.lodges = s.die.lodges ∧ (askPort s p).die.band = s.die.band
      ∧ (askPort s p).die.reports = s.die.reports ∧ (askPort s p).die.atTick = s.die.atTick := by
  unfold askPort; first | (simp; done) | ((try dsimp only); (repeat' split) <;> simp; done) | (refine ⟨?_, ?_, ?_, ?_, ?_, ?_, ?_, ?_, ?_, ?_, ?_, ?_, ?_, ?_, ?_, ?_, ?_, ?_, ?_, ?_, ?_, ?_, ?_⟩ <;> first | (simp; done) | ((try dsimp only); (repeat' split) <;> simp; done))

@[simp] theorem askReplay_keeps (s : State) :
    (askReplay s).pending = s.pending ∧ (askReplay s).gate = s.gate ∧ (askReplay s).mod = s.mod ∧ (askReplay s).rows = s.rows
      ∧ (askReplay s).dumps = s.dumps ∧ (askReplay s).shed = s.shed ∧ (askReplay s).tiles = s.tiles ∧ (askReplay s).pvs = s.pvs
      ∧ (askReplay s).fns = s.fns ∧ (askReplay s).free = s.free ∧ (askReplay s).die.hbm = s.die.hbm ∧ (askReplay s).die.oyKey = s.die.oyKey
      ∧ (askReplay s).die.slices = s.die.slices ∧ (askReplay s).die.transfers = s.die.transfers ∧ (askReplay s).die.commit = s.die.commit
      ∧ (askReplay s).die.barriers = s.die.barriers ∧ (askReplay s).die.windows = s.die.windows ∧ (askReplay s).die.ctls = s.die.ctls
      ∧ (askReplay s).die.lodges = s.die.lodges ∧ (askReplay s).die.band = s.die.band ∧ (askReplay s).die.reports = s.die.reports
      ∧ (askReplay s).die.atTick = s.die.atTick := by
  unfold askReplay; first | (simp; done) | ((try dsimp only); (repeat' split) <;> simp; done) | (refine ⟨?_, ?_, ?_, ?_, ?_, ?_, ?_, ?_, ?_, ?_, ?_, ?_, ?_, ?_, ?_, ?_, ?_, ?_, ?_, ?_, ?_, ?_⟩ <;> first | (simp; done) | ((try dsimp only); (repeat' split) <;> simp; done))

@[simp] theorem holdRequest_keeps (s : State) (kind source : Nat) :
    (holdRequest s kind source).pending = s.pending ∧ (holdRequest s kind source).gate = s.gate ∧ (holdRequest s kind source).mod = s.mod
      ∧ (holdRequest s kind source).rows = s.rows ∧ (holdRequest s kind source).dumps = s.dumps ∧ (holdRequest s kind source).shed = s.shed
      ∧ (holdRequest s kind source).pvs = s.pvs ∧ (holdRequest s kind source).fns = s.fns ∧ (holdRequest s kind source).free = s.free
      ∧ (holdRequest s kind source).die.hbm = s.die.hbm ∧ (holdRequest s kind source).die.oyKey = s.die.oyKey
      ∧ (holdRequest s kind source).die.slices = s.die.slices ∧ (holdRequest s kind source).die.transfers = s.die.transfers
      ∧ (holdRequest s kind source).die.commit = s.die.commit ∧ (holdRequest s kind source).die.barriers = s.die.barriers
      ∧ (holdRequest s kind source).die.windows = s.die.windows ∧ (holdRequest s kind source).die.ctls = s.die.ctls
      ∧ (holdRequest s kind source).die.lodges = s.die.lodges ∧ (holdRequest s kind source).die.band = s.die.band
      ∧ (holdRequest s kind source).die.reports = s.die.reports ∧ (holdRequest s kind source).die.atTick = s.die.atTick := by
  unfold holdRequest; first | (simp; done) | ((try dsimp only); (repeat' split) <;> simp; done) | (refine ⟨?_, ?_, ?_, ?_, ?_, ?_, ?_, ?_, ?_, ?_, ?_, ?_, ?_, ?_, ?_, ?_, ?_, ?_, ?_, ?_, ?_⟩ <;> first | (simp; done) | ((try dsimp only); (repeat' split) <;> simp; done))

@[simp] theorem sundialStops_keeps (s : State) :
    (sundialStops s).pending = s.pending ∧ (sundialStops s).gate = s.gate ∧ (sundialStops s).mod = s.mod ∧ (sundialStops s).rows = s.rows
      ∧ (sundialStops s).dumps = s.dumps ∧ (sundialStops s).shed = s.shed ∧ (sundialStops s).replay = s.replay ∧ (sundialStops s).reg = s.reg
      ∧ (sundialStops s).just = s.just ∧ (sundialStops s).tiles = s.tiles ∧ (sundialStops s).pvs = s.pvs ∧ (sundialStops s).fns = s.fns
      ∧ (sundialStops s).out = s.out ∧ (sundialStops s).free = s.free ∧ (sundialStops s).die = s.die ∧ (sundialStops s).sun.ctr = s.sun.ctr
      ∧ (sundialStops s).sun.lags = s.sun.lags ∧ (sundialStops s).sun.tick = s.sun.tick ∧ (sundialStops s).sun.time = s.sun.time
      ∧ (sundialStops s).sun.holds = s.sun.holds ∧ (sundialStops s).sun.freeze = s.sun.freeze := by
  unfold sundialStops; first | (simp; done) | ((try dsimp only); (repeat' split) <;> simp; done) | (refine ⟨?_, ?_, ?_, ?_, ?_, ?_, ?_, ?_, ?_, ?_, ?_, ?_, ?_, ?_, ?_, ?_, ?_, ?_, ?_, ?_, ?_⟩ <;> first | (simp; done) | ((try dsimp only); (repeat' split) <;> simp; done))

@[simp] theorem releaseSkew_keeps (s : State) :
    (releaseSkew s).pending = s.pending ∧ (releaseSkew s).gate = s.gate ∧ (releaseSkew s).mod = s.mod ∧ (releaseSkew s).rows = s.rows
      ∧ (releaseSkew s).dumps = s.dumps ∧ (releaseSkew s).shed = s.shed ∧ (releaseSkew s).replay = s.replay ∧ (releaseSkew s).reg = s.reg
      ∧ (releaseSkew s).just = s.just ∧ (releaseSkew s).tiles = s.tiles ∧ (releaseSkew s).pvs = s.pvs ∧ (releaseSkew s).fns = s.fns
      ∧ (releaseSkew s).free = s.free ∧ (releaseSkew s).sun.ctr = s.sun.ctr ∧ (releaseSkew s).sun.lags = s.sun.lags
      ∧ (releaseSkew s).sun.tick = s.sun.tick ∧ (releaseSkew s).sun.time = s.sun.time ∧ (releaseSkew s).sun.freeze = s.sun.freeze
      ∧ (releaseSkew s).sun.stopped = s.sun.stopped ∧ (releaseSkew s).die.hbm = s.die.hbm ∧ (releaseSkew s).die.oyKey = s.die.oyKey
      ∧ (releaseSkew s).die.slices = s.die.slices ∧ (releaseSkew s).die.transfers = s.die.transfers ∧ (releaseSkew s).die.commit = s.die.commit
      ∧ (releaseSkew s).die.barriers = s.die.barriers ∧ (releaseSkew s).die.windows = s.die.windows ∧ (releaseSkew s).die.ctls = s.die.ctls
      ∧ (releaseSkew s).die.lodges = s.die.lodges ∧ (releaseSkew s).die.band = s.die.band ∧ (releaseSkew s).die.reports = s.die.reports
      ∧ (releaseSkew s).die.atTick = s.die.atTick := by
  unfold releaseSkew; first | (simp; done) | ((try dsimp only); (repeat' split) <;> simp; done) | (refine ⟨?_, ?_, ?_, ?_, ?_, ?_, ?_, ?_, ?_, ?_, ?_, ?_, ?_, ?_, ?_, ?_, ?_, ?_, ?_, ?_, ?_, ?_, ?_, ?_, ?_, ?_, ?_, ?_, ?_, ?_, ?_⟩ <;> first | (simp; done) | ((try dsimp only); (repeat' split) <;> simp; done))

@[simp] theorem regionStops_keeps (s : State) (g : Nat) :
    (regionStops s g).pending = s.pending ∧ (regionStops s g).gate = s.gate ∧ (regionStops s g).mod = s.mod ∧ (regionStops s g).rows = s.rows
      ∧ (regionStops s g).dumps = s.dumps ∧ (regionStops s g).shed = s.shed ∧ (regionStops s g).replay = s.replay ∧ (regionStops s g).reg = s.reg
      ∧ (regionStops s g).just = s.just ∧ (regionStops s g).tiles = s.tiles ∧ (regionStops s g).pvs = s.pvs ∧ (regionStops s g).fns = s.fns
      ∧ (regionStops s g).free = s.free ∧ (regionStops s g).sun.ctr = s.sun.ctr ∧ (regionStops s g).sun.lags = s.sun.lags
      ∧ (regionStops s g).sun.tick = s.sun.tick ∧ (regionStops s g).sun.time = s.sun.time ∧ (regionStops s g).sun.freeze = s.sun.freeze
      ∧ (regionStops s g).sun.stopped = s.sun.stopped ∧ (regionStops s g).die.hbm = s.die.hbm ∧ (regionStops s g).die.oyKey = s.die.oyKey
      ∧ (regionStops s g).die.slices = s.die.slices ∧ (regionStops s g).die.transfers = s.die.transfers
      ∧ (regionStops s g).die.commit = s.die.commit ∧ (regionStops s g).die.barriers = s.die.barriers
      ∧ (regionStops s g).die.windows = s.die.windows ∧ (regionStops s g).die.ctls = s.die.ctls ∧ (regionStops s g).die.lodges = s.die.lodges
      ∧ (regionStops s g).die.band = s.die.band ∧ (regionStops s g).die.reports = s.die.reports ∧ (regionStops s g).die.atTick = s.die.atTick := by
  unfold regionStops; first | (simp; done) | ((try dsimp only); (repeat' split) <;> simp; done) | (refine ⟨?_, ?_, ?_, ?_, ?_, ?_, ?_, ?_, ?_, ?_, ?_, ?_, ?_, ?_, ?_, ?_, ?_, ?_, ?_, ?_, ?_, ?_, ?_, ?_, ?_, ?_, ?_, ?_, ?_, ?_, ?_⟩ <;> first | (simp; done) | ((try dsimp only); (repeat' split) <;> simp; done))

@[simp] theorem freezeReached_keeps (s : State) (region : Option Nat) :
    (freezeReached s region).pending = s.pending ∧ (freezeReached s region).gate = s.gate ∧ (freezeReached s region).mod = s.mod
      ∧ (freezeReached s region).rows = s.rows ∧ (freezeReached s region).dumps = s.dumps ∧ (freezeReached s region).shed = s.shed
      ∧ (freezeReached s region).reg = s.reg ∧ (freezeReached s region).just = s.just ∧ (freezeReached s region).pvs = s.pvs
      ∧ (freezeReached s region).fns = s.fns ∧ (freezeReached s region).free = s.free ∧ (freezeReached s region).sun.ctr = s.sun.ctr
      ∧ (freezeReached s region).sun.lags = s.sun.lags ∧ (freezeReached s region).sun.tick = s.sun.tick
      ∧ (freezeReached s region).sun.time = s.sun.time ∧ (freezeReached s region).sun.freeze = s.sun.freeze
      ∧ (freezeReached s region).die.hbm = s.die.hbm ∧ (freezeReached s region).die.oyKey = s.die.oyKey
      ∧ (freezeReached s region).die.slices = s.die.slices ∧ (freezeReached s region).die.barriers = s.die.barriers
      ∧ (freezeReached s region).die.reports = s.die.reports ∧ (freezeReached s region).die.atTick = s.die.atTick := by
  unfold freezeReached; first | (simp; done) | ((try dsimp only); (repeat' split) <;> simp; done) | (refine ⟨?_, ?_, ?_, ?_, ?_, ?_, ?_, ?_, ?_, ?_, ?_, ?_, ?_, ?_, ?_, ?_, ?_, ?_, ?_, ?_, ?_, ?_⟩ <;> first | (simp; done) | ((try dsimp only); (repeat' split) <;> simp; done))

@[simp] theorem holdRelease_keeps (s : State) (seq : Nat) :
    (holdRelease s seq).pending = s.pending ∧ (holdRelease s seq).gate = s.gate ∧ (holdRelease s seq).mod = s.mod
      ∧ (holdRelease s seq).rows = s.rows ∧ (holdRelease s seq).dumps = s.dumps ∧ (holdRelease s seq).shed = s.shed
      ∧ (holdRelease s seq).replay = s.replay ∧ (holdRelease s seq).reg = s.reg ∧ (holdRelease s seq).just = s.just
      ∧ (holdRelease s seq).tiles = s.tiles ∧ (holdRelease s seq).pvs = s.pvs ∧ (holdRelease s seq).fns = s.fns
      ∧ (holdRelease s seq).free = s.free ∧ (holdRelease s seq).sun.ctr = s.sun.ctr ∧ (holdRelease s seq).sun.lags = s.sun.lags
      ∧ (holdRelease s seq).sun.tick = s.sun.tick ∧ (holdRelease s seq).sun.time = s.sun.time ∧ (holdRelease s seq).sun.freeze = s.sun.freeze
      ∧ (holdRelease s seq).sun.stopped = s.sun.stopped ∧ (holdRelease s seq).die.hbm = s.die.hbm ∧ (holdRelease s seq).die.oyKey = s.die.oyKey
      ∧ (holdRelease s seq).die.slices = s.die.slices ∧ (holdRelease s seq).die.transfers = s.die.transfers
      ∧ (holdRelease s seq).die.commit = s.die.commit ∧ (holdRelease s seq).die.barriers = s.die.barriers
      ∧ (holdRelease s seq).die.windows = s.die.windows ∧ (holdRelease s seq).die.ctls = s.die.ctls
      ∧ (holdRelease s seq).die.lodges = s.die.lodges ∧ (holdRelease s seq).die.band = s.die.band
      ∧ (holdRelease s seq).die.reports = s.die.reports ∧ (holdRelease s seq).die.atTick = s.die.atTick := by
  unfold holdRelease; first | (simp; done) | ((try dsimp only); (repeat' split) <;> simp; done) | (refine ⟨?_, ?_, ?_, ?_, ?_, ?_, ?_, ?_, ?_, ?_, ?_, ?_, ?_, ?_, ?_, ?_, ?_, ?_, ?_, ?_, ?_, ?_, ?_, ?_, ?_, ?_, ?_, ?_, ?_, ?_, ?_⟩ <;> first | (simp; done) | ((try dsimp only); (repeat' split) <;> simp; done))

@[simp] theorem markRemote_keeps (s : State) (origin : Nat) :
    (markRemote s origin).pending = s.pending ∧ (markRemote s origin).gate = s.gate ∧ (markRemote s origin).mod = s.mod
      ∧ (markRemote s origin).rows = s.rows ∧ (markRemote s origin).dumps = s.dumps ∧ (markRemote s origin).shed = s.shed
      ∧ (markRemote s origin).tiles = s.tiles ∧ (markRemote s origin).pvs = s.pvs ∧ (markRemote s origin).fns = s.fns
      ∧ (markRemote s origin).free = s.free ∧ (markRemote s origin).die.hbm = s.die.hbm ∧ (markRemote s origin).die.oyKey = s.die.oyKey
      ∧ (markRemote s origin).die.slices = s.die.slices ∧ (markRemote s origin).die.transfers = s.die.transfers
      ∧ (markRemote s origin).die.commit = s.die.commit ∧ (markRemote s origin).die.barriers = s.die.barriers
      ∧ (markRemote s origin).die.windows = s.die.windows ∧ (markRemote s origin).die.ctls = s.die.ctls
      ∧ (markRemote s origin).die.lodges = s.die.lodges ∧ (markRemote s origin).die.band = s.die.band
      ∧ (markRemote s origin).die.reports = s.die.reports ∧ (markRemote s origin).die.atTick = s.die.atTick := by
  unfold markRemote; first | (simp; done) | ((try dsimp only); (repeat' split) <;> simp; done) | (refine ⟨?_, ?_, ?_, ?_, ?_, ?_, ?_, ?_, ?_, ?_, ?_, ?_, ?_, ?_, ?_, ?_, ?_, ?_, ?_, ?_, ?_, ?_⟩ <;> first | (simp; done) | ((try dsimp only); (repeat' split) <;> simp; done))

@[simp] theorem noteStamp_keeps (s : State) (origin seq stamp : Nat) :
    (noteStamp s origin seq stamp).pending = s.pending ∧ (noteStamp s origin seq stamp).gate = s.gate
      ∧ (noteStamp s origin seq stamp).mod = s.mod ∧ (noteStamp s origin seq stamp).rows = s.rows
      ∧ (noteStamp s origin seq stamp).dumps = s.dumps ∧ (noteStamp s origin seq stamp).shed = s.shed
      ∧ (noteStamp s origin seq stamp).reg = s.reg ∧ (noteStamp s origin seq stamp).just = s.just
      ∧ (noteStamp s origin seq stamp).tiles = s.tiles ∧ (noteStamp s origin seq stamp).pvs = s.pvs ∧ (noteStamp s origin seq stamp).fns = s.fns
      ∧ (noteStamp s origin seq stamp).out = s.out ∧ (noteStamp s origin seq stamp).free = s.free ∧ (noteStamp s origin seq stamp).sun = s.sun
      ∧ (noteStamp s origin seq stamp).die = s.die := by
  unfold noteStamp; first | (simp; done) | ((try dsimp only); (repeat' split) <;> simp; done) | (refine ⟨?_, ?_, ?_, ?_, ?_, ?_, ?_, ?_, ?_, ?_, ?_, ?_, ?_, ?_, ?_⟩ <;> first | (simp; done) | ((try dsimp only); (repeat' split) <;> simp; done))

@[simp] theorem droopStretch_keeps (s : State) (g : Nat) :
    (droopStretch s g).pending = s.pending ∧ (droopStretch s g).gate = s.gate ∧ (droopStretch s g).mod = s.mod ∧ (droopStretch s g).rows = s.rows
      ∧ (droopStretch s g).dumps = s.dumps ∧ (droopStretch s g).shed = s.shed ∧ (droopStretch s g).replay = s.replay
      ∧ (droopStretch s g).tiles = s.tiles ∧ (droopStretch s g).pvs = s.pvs ∧ (droopStretch s g).fns = s.fns ∧ (droopStretch s g).free = s.free
      ∧ (droopStretch s g).die.hbm = s.die.hbm ∧ (droopStretch s g).die.oyKey = s.die.oyKey ∧ (droopStretch s g).die.slices = s.die.slices
      ∧ (droopStretch s g).die.transfers = s.die.transfers ∧ (droopStretch s g).die.commit = s.die.commit
      ∧ (droopStretch s g).die.barriers = s.die.barriers ∧ (droopStretch s g).die.windows = s.die.windows
      ∧ (droopStretch s g).die.ctls = s.die.ctls ∧ (droopStretch s g).die.lodges = s.die.lodges ∧ (droopStretch s g).die.band = s.die.band
      ∧ (droopStretch s g).die.reports = s.die.reports ∧ (droopStretch s g).die.atTick = s.die.atTick := by
  unfold droopStretch; first | (simp; done) | ((try dsimp only); (repeat' split) <;> simp; done) | (refine ⟨?_, ?_, ?_, ?_, ?_, ?_, ?_, ?_, ?_, ?_, ?_, ?_, ?_, ?_, ?_, ?_, ?_, ?_, ?_, ?_, ?_, ?_, ?_⟩ <;> first | (simp; done) | ((try dsimp only); (repeat' split) <;> simp; done))

@[simp] theorem syncIn_keeps (s : State) :
    (syncIn s).pending = s.pending ∧ (syncIn s).gate = s.gate ∧ (syncIn s).mod = s.mod ∧ (syncIn s).rows = s.rows ∧ (syncIn s).dumps = s.dumps
      ∧ (syncIn s).shed = s.shed ∧ (syncIn s).replay = s.replay ∧ (syncIn s).reg = s.reg ∧ (syncIn s).just = s.just ∧ (syncIn s).tiles = s.tiles
      ∧ (syncIn s).pvs = s.pvs ∧ (syncIn s).fns = s.fns ∧ (syncIn s).out = s.out ∧ (syncIn s).free = s.free ∧ (syncIn s).die = s.die
      ∧ (syncIn s).sun.ctr = s.sun.ctr ∧ (syncIn s).sun.lags = s.sun.lags ∧ (syncIn s).sun.tick = s.sun.tick ∧ (syncIn s).sun.time = s.sun.time
      ∧ (syncIn s).sun.holds = s.sun.holds ∧ (syncIn s).sun.freeze = s.sun.freeze ∧ (syncIn s).sun.stopped = s.sun.stopped := by
  unfold syncIn; first | (simp; done) | ((try dsimp only); (repeat' split) <;> simp; done) | (refine ⟨?_, ?_, ?_, ?_, ?_, ?_, ?_, ?_, ?_, ?_, ?_, ?_, ?_, ?_, ?_, ?_, ?_, ?_, ?_, ?_, ?_, ?_⟩ <;> first | (simp; done) | ((try dsimp only); (repeat' split) <;> simp; done))

@[simp] theorem alignLost_keeps (s : State) :
    (alignLost s).pending = s.pending ∧ (alignLost s).gate = s.gate ∧ (alignLost s).mod = s.mod ∧ (alignLost s).rows = s.rows
      ∧ (alignLost s).shed = s.shed ∧ (alignLost s).replay = s.replay ∧ (alignLost s).free = s.free ∧ (alignLost s).sun.ctr = s.sun.ctr
      ∧ (alignLost s).sun.lags = s.sun.lags ∧ (alignLost s).sun.tick = s.sun.tick ∧ (alignLost s).sun.time = s.sun.time
      ∧ (alignLost s).sun.freeze = s.sun.freeze ∧ (alignLost s).sun.stopped = s.sun.stopped := by
  unfold alignLost; first | (simp; done) | ((try dsimp only); (repeat' split) <;> simp; done) | (refine ⟨?_, ?_, ?_, ?_, ?_, ?_, ?_, ?_, ?_, ?_, ?_, ?_, ?_⟩ <;> first | (simp; done) | ((try dsimp only); (repeat' split) <;> simp; done))

@[simp] theorem retime_keeps (s : State) (new : Nat) :
    (retime s new).pending = s.pending ∧ (retime s new).gate = s.gate ∧ (retime s new).mod = s.mod ∧ (retime s new).rows = s.rows
      ∧ (retime s new).dumps = s.dumps ∧ (retime s new).shed = s.shed ∧ (retime s new).replay = s.replay ∧ (retime s new).reg = s.reg
      ∧ (retime s new).just = s.just ∧ (retime s new).tiles = s.tiles ∧ (retime s new).pvs = s.pvs ∧ (retime s new).fns = s.fns
      ∧ (retime s new).out = s.out ∧ (retime s new).free = s.free ∧ (retime s new).sun.ctr = s.sun.ctr ∧ (retime s new).sun.lags = s.sun.lags
      ∧ (retime s new).sun.time = s.sun.time ∧ (retime s new).sun.freeze = s.sun.freeze ∧ (retime s new).sun.stopped = s.sun.stopped
      ∧ (retime s new).die.hbm = s.die.hbm ∧ (retime s new).die.oyKey = s.die.oyKey ∧ (retime s new).die.slices = s.die.slices
      ∧ (retime s new).die.commit = s.die.commit ∧ (retime s new).die.barriers = s.die.barriers ∧ (retime s new).die.windows = s.die.windows
      ∧ (retime s new).die.ports = s.die.ports ∧ (retime s new).die.lodges = s.die.lodges ∧ (retime s new).die.band = s.die.band
      ∧ (retime s new).die.reports = s.die.reports ∧ (retime s new).die.atTick = s.die.atTick := by
  unfold retime; first | (simp; done) | ((try dsimp only); (repeat' split) <;> simp; done) | (refine ⟨?_, ?_, ?_, ?_, ?_, ?_, ?_, ?_, ?_, ?_, ?_, ?_, ?_, ?_, ?_, ?_, ?_, ?_, ?_, ?_, ?_, ?_, ?_, ?_, ?_, ?_, ?_, ?_, ?_, ?_⟩ <;> first | (simp; done) | ((try dsimp only); (repeat' split) <;> simp; done))

@[simp] theorem sendTime_keeps (s : State) (except : Option Nat) :
    (sendTime s except).pending = s.pending ∧ (sendTime s except).gate = s.gate ∧ (sendTime s except).mod = s.mod
      ∧ (sendTime s except).rows = s.rows ∧ (sendTime s except).dumps = s.dumps ∧ (sendTime s except).shed = s.shed
      ∧ (sendTime s except).replay = s.replay ∧ (sendTime s except).reg = s.reg ∧ (sendTime s except).just = s.just
      ∧ (sendTime s except).tiles = s.tiles ∧ (sendTime s except).pvs = s.pvs ∧ (sendTime s except).fns = s.fns
      ∧ (sendTime s except).free = s.free ∧ (sendTime s except).sun = s.sun ∧ (sendTime s except).die.hbm = s.die.hbm
      ∧ (sendTime s except).die.oyKey = s.die.oyKey ∧ (sendTime s except).die.slices = s.die.slices
      ∧ (sendTime s except).die.transfers = s.die.transfers ∧ (sendTime s except).die.commit = s.die.commit
      ∧ (sendTime s except).die.barriers = s.die.barriers ∧ (sendTime s except).die.windows = s.die.windows
      ∧ (sendTime s except).die.ctls = s.die.ctls ∧ (sendTime s except).die.lodges = s.die.lodges ∧ (sendTime s except).die.band = s.die.band
      ∧ (sendTime s except).die.reports = s.die.reports ∧ (sendTime s except).die.atTick = s.die.atTick := by
  unfold sendTime; first | (simp; done) | ((try dsimp only); (repeat' split) <;> simp; done) | (refine ⟨?_, ?_, ?_, ?_, ?_, ?_, ?_, ?_, ?_, ?_, ?_, ?_, ?_, ?_, ?_, ?_, ?_, ?_, ?_, ?_, ?_, ?_, ?_, ?_, ?_, ?_⟩ <;> first | (simp; done) | ((try dsimp only); (repeat' split) <;> simp; done))

@[simp] theorem learnTime_keeps (s : State) (port sample : Nat) :
    (learnTime s port sample).pending = s.pending ∧ (learnTime s port sample).gate = s.gate ∧ (learnTime s port sample).mod = s.mod
      ∧ (learnTime s port sample).rows = s.rows ∧ (learnTime s port sample).dumps = s.dumps ∧ (learnTime s port sample).shed = s.shed
      ∧ (learnTime s port sample).replay = s.replay ∧ (learnTime s port sample).reg = s.reg ∧ (learnTime s port sample).just = s.just
      ∧ (learnTime s port sample).tiles = s.tiles ∧ (learnTime s port sample).pvs = s.pvs ∧ (learnTime s port sample).fns = s.fns
      ∧ (learnTime s port sample).free = s.free ∧ (learnTime s port sample).sun.ctr = s.sun.ctr ∧ (learnTime s port sample).sun.lags = s.sun.lags
      ∧ (learnTime s port sample).sun.time = s.sun.time ∧ (learnTime s port sample).sun.freeze = s.sun.freeze
      ∧ (learnTime s port sample).sun.stopped = s.sun.stopped ∧ (learnTime s port sample).die.hbm = s.die.hbm
      ∧ (learnTime s port sample).die.oyKey = s.die.oyKey ∧ (learnTime s port sample).die.slices = s.die.slices
      ∧ (learnTime s port sample).die.commit = s.die.commit ∧ (learnTime s port sample).die.barriers = s.die.barriers
      ∧ (learnTime s port sample).die.windows = s.die.windows ∧ (learnTime s port sample).die.lodges = s.die.lodges
      ∧ (learnTime s port sample).die.band = s.die.band ∧ (learnTime s port sample).die.reports = s.die.reports
      ∧ (learnTime s port sample).die.atTick = s.die.atTick := by
  unfold learnTime; first | (simp; done) | ((try dsimp only); (repeat' split) <;> simp; done) | (refine ⟨?_, ?_, ?_, ?_, ?_, ?_, ?_, ?_, ?_, ?_, ?_, ?_, ?_, ?_, ?_, ?_, ?_, ?_, ?_, ?_, ?_, ?_, ?_, ?_, ?_, ?_, ?_, ?_⟩ <;> first | (simp; done) | ((try dsimp only); (repeat' split) <;> simp; done))

@[simp] theorem timeMessage_keeps (s : State) (port origin sample : Nat) :
    (timeMessage s port origin sample).pending = s.pending ∧ (timeMessage s port origin sample).gate = s.gate
      ∧ (timeMessage s port origin sample).mod = s.mod ∧ (timeMessage s port origin sample).rows = s.rows
      ∧ (timeMessage s port origin sample).shed = s.shed ∧ (timeMessage s port origin sample).replay = s.replay
      ∧ (timeMessage s port origin sample).free = s.free ∧ (timeMessage s port origin sample).sun.ctr = s.sun.ctr
      ∧ (timeMessage s port origin sample).sun.lags = s.sun.lags ∧ (timeMessage s port origin sample).sun.time = s.sun.time
      ∧ (timeMessage s port origin sample).sun.freeze = s.sun.freeze ∧ (timeMessage s port origin sample).sun.stopped = s.sun.stopped := by
  unfold timeMessage; first | (simp; done) | ((try dsimp only); (repeat' split) <;> simp; done) | (refine ⟨?_, ?_, ?_, ?_, ?_, ?_, ?_, ?_, ?_, ?_, ?_, ?_⟩ <;> first | (simp; done) | ((try dsimp only); (repeat' split) <;> simp; done))

@[simp] theorem setReach_keeps (s : State) :
    (setReach s).pending = s.pending ∧ (setReach s).gate = s.gate ∧ (setReach s).mod = s.mod ∧ (setReach s).rows = s.rows
      ∧ (setReach s).dumps = s.dumps ∧ (setReach s).shed = s.shed ∧ (setReach s).replay = s.replay ∧ (setReach s).just = s.just
      ∧ (setReach s).tiles = s.tiles ∧ (setReach s).pvs = s.pvs ∧ (setReach s).fns = s.fns ∧ (setReach s).out = s.out ∧ (setReach s).sun = s.sun
      ∧ (setReach s).die = s.die := by
  unfold setReach; first | (simp; done) | ((try dsimp only); (repeat' split) <;> simp; done) | (refine ⟨?_, ?_, ?_, ?_, ?_, ?_, ?_, ?_, ?_, ?_, ?_, ?_, ?_, ?_⟩ <;> first | (simp; done) | ((try dsimp only); (repeat' split) <;> simp; done))

@[simp] theorem announce_keeps (s : State) :
    (announce s).pending = s.pending ∧ (announce s).gate = s.gate ∧ (announce s).mod = s.mod ∧ (announce s).rows = s.rows
      ∧ (announce s).dumps = s.dumps ∧ (announce s).shed = s.shed ∧ (announce s).replay = s.replay ∧ (announce s).reg = s.reg
      ∧ (announce s).just = s.just ∧ (announce s).tiles = s.tiles ∧ (announce s).pvs = s.pvs ∧ (announce s).fns = s.fns
      ∧ (announce s).sun.ctr = s.sun.ctr ∧ (announce s).sun.lags = s.sun.lags ∧ (announce s).sun.tick = s.sun.tick
      ∧ (announce s).sun.time = s.sun.time ∧ (announce s).sun.holds = s.sun.holds ∧ (announce s).sun.freeze = s.sun.freeze
      ∧ (announce s).sun.stopped = s.sun.stopped ∧ (announce s).die.hbm = s.die.hbm ∧ (announce s).die.oyKey = s.die.oyKey
      ∧ (announce s).die.slices = s.die.slices ∧ (announce s).die.transfers = s.die.transfers ∧ (announce s).die.commit = s.die.commit
      ∧ (announce s).die.barriers = s.die.barriers ∧ (announce s).die.windows = s.die.windows ∧ (announce s).die.ctls = s.die.ctls
      ∧ (announce s).die.lodges = s.die.lodges ∧ (announce s).die.band = s.die.band ∧ (announce s).die.reports = s.die.reports
      ∧ (announce s).die.atTick = s.die.atTick := by
  unfold announce; first | (simp; done) | ((try dsimp only); (repeat' split) <;> simp; done) | (refine ⟨?_, ?_, ?_, ?_, ?_, ?_, ?_, ?_, ?_, ?_, ?_, ?_, ?_, ?_, ?_, ?_, ?_, ?_, ?_, ?_, ?_, ?_, ?_, ?_, ?_, ?_, ?_, ?_, ?_, ?_, ?_⟩ <;> first | (simp; done) | ((try dsimp only); (repeat' split) <;> simp; done))

@[simp] theorem zeroCounts_keeps (s : State) :
    (zeroCounts s).pending = s.pending ∧ (zeroCounts s).gate = s.gate ∧ (zeroCounts s).mod = s.mod ∧ (zeroCounts s).rows = s.rows
      ∧ (zeroCounts s).dumps = s.dumps ∧ (zeroCounts s).shed = s.shed ∧ (zeroCounts s).replay = s.replay ∧ (zeroCounts s).just = s.just
      ∧ (zeroCounts s).tiles = s.tiles ∧ (zeroCounts s).pvs = s.pvs ∧ (zeroCounts s).fns = s.fns ∧ (zeroCounts s).out = s.out
      ∧ (zeroCounts s).free = s.free ∧ (zeroCounts s).sun = s.sun ∧ (zeroCounts s).die = s.die := by
  unfold zeroCounts; first | (simp; done) | ((try dsimp only); (repeat' split) <;> simp; done) | (refine ⟨?_, ?_, ?_, ?_, ?_, ?_, ?_, ?_, ?_, ?_, ?_, ?_, ?_, ?_, ?_⟩ <;> first | (simp; done) | ((try dsimp only); (repeat' split) <;> simp; done))

@[simp] theorem alignPort_keeps (s : State) (p : Nat) :
    (alignPort s p).pending = s.pending ∧ (alignPort s p).gate = s.gate ∧ (alignPort s p).mod = s.mod ∧ (alignPort s p).rows = s.rows
      ∧ (alignPort s p).dumps = s.dumps ∧ (alignPort s p).shed = s.shed ∧ (alignPort s p).replay = s.replay ∧ (alignPort s p).just = s.just
      ∧ (alignPort s p).tiles = s.tiles ∧ (alignPort s p).pvs = s.pvs ∧ (alignPort s p).fns = s.fns ∧ (alignPort s p).out = s.out
      ∧ (alignPort s p).free = s.free ∧ (alignPort s p).sun = s.sun ∧ (alignPort s p).die.hbm = s.die.hbm
      ∧ (alignPort s p).die.oyKey = s.die.oyKey ∧ (alignPort s p).die.slices = s.die.slices ∧ (alignPort s p).die.transfers = s.die.transfers
      ∧ (alignPort s p).die.commit = s.die.commit ∧ (alignPort s p).die.barriers = s.die.barriers ∧ (alignPort s p).die.windows = s.die.windows
      ∧ (alignPort s p).die.ctls = s.die.ctls ∧ (alignPort s p).die.lodges = s.die.lodges ∧ (alignPort s p).die.band = s.die.band
      ∧ (alignPort s p).die.reports = s.die.reports ∧ (alignPort s p).die.atTick = s.die.atTick := by
  unfold alignPort; first | (simp; done) | ((try dsimp only); (repeat' split) <;> simp; done) | (refine ⟨?_, ?_, ?_, ?_, ?_, ?_, ?_, ?_, ?_, ?_, ?_, ?_, ?_, ?_, ?_, ?_, ?_, ?_, ?_, ?_, ?_, ?_, ?_, ?_, ?_, ?_⟩ <;> first | (simp; done) | ((try dsimp only); (repeat' split) <;> simp; done))

@[simp] theorem frameZero_keeps (s : State) :
    (frameZero s).pending = s.pending ∧ (frameZero s).gate = s.gate ∧ (frameZero s).mod = s.mod ∧ (frameZero s).rows = s.rows
      ∧ (frameZero s).dumps = s.dumps ∧ (frameZero s).shed = s.shed ∧ (frameZero s).replay = s.replay ∧ (frameZero s).just = s.just
      ∧ (frameZero s).tiles = s.tiles ∧ (frameZero s).pvs = s.pvs ∧ (frameZero s).free = s.free ∧ (frameZero s).sun.time = s.sun.time
      ∧ (frameZero s).sun.freeze = s.sun.freeze ∧ (frameZero s).sun.stopped = s.sun.stopped ∧ (frameZero s).die.hbm = s.die.hbm
      ∧ (frameZero s).die.oyKey = s.die.oyKey ∧ (frameZero s).die.slices = s.die.slices ∧ (frameZero s).die.commit = s.die.commit
      ∧ (frameZero s).die.barriers = s.die.barriers ∧ (frameZero s).die.windows = s.die.windows ∧ (frameZero s).die.lodges = s.die.lodges
      ∧ (frameZero s).die.band = s.die.band ∧ (frameZero s).die.reports = s.die.reports ∧ (frameZero s).die.atTick = s.die.atTick := by
  unfold frameZero; first | (simp; done) | ((try dsimp only); (repeat' split) <;> simp; done) | (refine ⟨?_, ?_, ?_, ?_, ?_, ?_, ?_, ?_, ?_, ?_, ?_, ?_, ?_, ?_, ?_, ?_, ?_, ?_, ?_, ?_, ?_, ?_, ?_, ?_⟩ <;> first | (simp; done) | ((try dsimp only); (repeat' split) <;> simp; done))

@[simp] theorem recordTick_keeps (s : State) :
    (recordTick s).pending = s.pending ∧ (recordTick s).gate = s.gate ∧ (recordTick s).mod = s.mod ∧ (recordTick s).rows = s.rows
      ∧ (recordTick s).dumps = s.dumps ∧ (recordTick s).shed = s.shed ∧ (recordTick s).replay = s.replay ∧ (recordTick s).tiles = s.tiles
      ∧ (recordTick s).pvs = s.pvs ∧ (recordTick s).fns = s.fns ∧ (recordTick s).out = s.out ∧ (recordTick s).free = s.free
      ∧ (recordTick s).sun = s.sun ∧ (recordTick s).die = s.die := by
  unfold recordTick; first | (simp; done) | ((try dsimp only); (repeat' split) <;> simp; done) | (refine ⟨?_, ?_, ?_, ?_, ?_, ?_, ?_, ?_, ?_, ?_, ?_, ?_, ?_, ?_⟩ <;> first | (simp; done) | ((try dsimp only); (repeat' split) <;> simp; done))

@[simp] theorem tickDie_keeps (s : State) :
    (tickDie s).pending = s.pending ∧ (tickDie s).gate = s.gate ∧ (tickDie s).mod = s.mod ∧ (tickDie s).rows = s.rows
      ∧ (tickDie s).dumps = s.dumps ∧ (tickDie s).shed = s.shed ∧ (tickDie s).replay = s.replay ∧ (tickDie s).reg = s.reg
      ∧ (tickDie s).just = s.just ∧ (tickDie s).tiles = s.tiles ∧ (tickDie s).pvs = s.pvs ∧ (tickDie s).fns = s.fns ∧ (tickDie s).out = s.out
      ∧ (tickDie s).free = s.free ∧ (tickDie s).sun = s.sun ∧ (tickDie s).die.hbm = s.die.hbm ∧ (tickDie s).die.oyKey = s.die.oyKey
      ∧ (tickDie s).die.slices = s.die.slices ∧ (tickDie s).die.commit = s.die.commit ∧ (tickDie s).die.windows = s.die.windows
      ∧ (tickDie s).die.lodges = s.die.lodges ∧ (tickDie s).die.band = s.die.band ∧ (tickDie s).die.reports = s.die.reports
      ∧ (tickDie s).die.atTick = s.die.atTick := by
  unfold tickDie; first | (simp; done) | ((try dsimp only); (repeat' split) <;> simp; done) | (refine ⟨?_, ?_, ?_, ?_, ?_, ?_, ?_, ?_, ?_, ?_, ?_, ?_, ?_, ?_, ?_, ?_, ?_, ?_, ?_, ?_, ?_, ?_, ?_, ?_⟩ <;> first | (simp; done) | ((try dsimp only); (repeat' split) <;> simp; done))

@[simp] theorem sendEmission_keeps (s : State) (r : BsLand) :
    (sendEmission s r).pending = s.pending ∧ (sendEmission s r).gate = s.gate ∧ (sendEmission s r).mod = s.mod ∧ (sendEmission s r).rows = s.rows
      ∧ (sendEmission s r).dumps = s.dumps ∧ (sendEmission s r).shed = s.shed ∧ (sendEmission s r).replay = s.replay
      ∧ (sendEmission s r).just = s.just ∧ (sendEmission s r).tiles = s.tiles ∧ (sendEmission s r).fns = s.fns ∧ (sendEmission s r).free = s.free
      ∧ (sendEmission s r).sun = s.sun ∧ (sendEmission s r).die.hbm = s.die.hbm ∧ (sendEmission s r).die.oyKey = s.die.oyKey
      ∧ (sendEmission s r).die.slices = s.die.slices ∧ (sendEmission s r).die.transfers = s.die.transfers
      ∧ (sendEmission s r).die.commit = s.die.commit ∧ (sendEmission s r).die.barriers = s.die.barriers
      ∧ (sendEmission s r).die.windows = s.die.windows ∧ (sendEmission s r).die.ctls = s.die.ctls
      ∧ (sendEmission s r).die.reports = s.die.reports ∧ (sendEmission s r).die.atTick = s.die.atTick := by
  unfold sendEmission; first | (simp; done) | ((try dsimp only); (repeat' split) <;> simp; done) | (refine ⟨?_, ?_, ?_, ?_, ?_, ?_, ?_, ?_, ?_, ?_, ?_, ?_, ?_, ?_, ?_, ?_, ?_, ?_, ?_, ?_, ?_, ?_⟩ <;> first | (simp; done) | ((try dsimp only); (repeat' split) <;> simp; done))

@[simp] theorem tickBand_keeps (s : State) :
    (tickBand s).pending = s.pending ∧ (tickBand s).gate = s.gate ∧ (tickBand s).mod = s.mod ∧ (tickBand s).rows = s.rows
      ∧ (tickBand s).dumps = s.dumps ∧ (tickBand s).shed = s.shed ∧ (tickBand s).replay = s.replay ∧ (tickBand s).just = s.just
      ∧ (tickBand s).tiles = s.tiles ∧ (tickBand s).fns = s.fns ∧ (tickBand s).free = s.free ∧ (tickBand s).sun = s.sun
      ∧ (tickBand s).die.hbm = s.die.hbm ∧ (tickBand s).die.oyKey = s.die.oyKey ∧ (tickBand s).die.slices = s.die.slices
      ∧ (tickBand s).die.transfers = s.die.transfers ∧ (tickBand s).die.commit = s.die.commit ∧ (tickBand s).die.barriers = s.die.barriers
      ∧ (tickBand s).die.windows = s.die.windows ∧ (tickBand s).die.ctls = s.die.ctls ∧ (tickBand s).die.reports = s.die.reports
      ∧ (tickBand s).die.atTick = s.die.atTick := by
  unfold tickBand; first | (simp; done) | ((try dsimp only); (repeat' split) <;> simp; done) | (refine ⟨?_, ?_, ?_, ?_, ?_, ?_, ?_, ?_, ?_, ?_, ?_, ?_, ?_, ?_, ?_, ?_, ?_, ?_, ?_, ?_, ?_, ?_⟩ <;> first | (simp; done) | ((try dsimp only); (repeat' split) <;> simp; done))

@[simp] theorem sampleMonitor_keeps (s : State) (m : Nat) :
    (sampleMonitor s m).pending = s.pending ∧ (sampleMonitor s m).gate = s.gate ∧ (sampleMonitor s m).mod = s.mod
      ∧ (sampleMonitor s m).rows = s.rows ∧ (sampleMonitor s m).dumps = s.dumps ∧ (sampleMonitor s m).shed = s.shed
      ∧ (sampleMonitor s m).replay = s.replay ∧ (sampleMonitor s m).just = s.just ∧ (sampleMonitor s m).tiles = s.tiles
      ∧ (sampleMonitor s m).pvs = s.pvs ∧ (sampleMonitor s m).fns = s.fns ∧ (sampleMonitor s m).out = s.out ∧ (sampleMonitor s m).sun = s.sun
      ∧ (sampleMonitor s m).die = s.die := by
  unfold sampleMonitor; first | (simp; done) | ((try dsimp only); (repeat' split) <;> simp; done) | (refine ⟨?_, ?_, ?_, ?_, ?_, ?_, ?_, ?_, ?_, ?_, ?_, ?_, ?_, ?_⟩ <;> first | (simp; done) | ((try dsimp only); (repeat' split) <;> simp; done))

@[simp] theorem sampleAll_keeps (s : State) :
    (sampleAll s).pending = s.pending ∧ (sampleAll s).gate = s.gate ∧ (sampleAll s).mod = s.mod ∧ (sampleAll s).rows = s.rows
      ∧ (sampleAll s).dumps = s.dumps ∧ (sampleAll s).shed = s.shed ∧ (sampleAll s).replay = s.replay ∧ (sampleAll s).just = s.just
      ∧ (sampleAll s).tiles = s.tiles ∧ (sampleAll s).pvs = s.pvs ∧ (sampleAll s).fns = s.fns ∧ (sampleAll s).out = s.out
      ∧ (sampleAll s).sun = s.sun ∧ (sampleAll s).die = s.die := by
  unfold sampleAll; first | (simp; done) | ((try dsimp only); (repeat' split) <;> simp; done) | (refine ⟨?_, ?_, ?_, ?_, ?_, ?_, ?_, ?_, ?_, ?_, ?_, ?_, ?_, ?_⟩ <;> first | (simp; done) | ((try dsimp only); (repeat' split) <;> simp; done))

@[simp] theorem pauseAt_keeps (f : Nat) (s : State) (q : Nat) :
    (pauseAt f s q).pending = s.pending ∧ (pauseAt f s q).gate = s.gate ∧ (pauseAt f s q).mod = s.mod ∧ (pauseAt f s q).rows = s.rows
      ∧ (pauseAt f s q).dumps = s.dumps ∧ (pauseAt f s q).shed = s.shed ∧ (pauseAt f s q).replay = s.replay ∧ (pauseAt f s q).reg = s.reg
      ∧ (pauseAt f s q).just = s.just ∧ (pauseAt f s q).free = s.free ∧ (pauseAt f s q).sun.ctr = s.sun.ctr
      ∧ (pauseAt f s q).sun.lags = s.sun.lags ∧ (pauseAt f s q).sun.tick = s.sun.tick ∧ (pauseAt f s q).sun.time = s.sun.time
      ∧ (pauseAt f s q).sun.freeze = s.sun.freeze ∧ (pauseAt f s q).sun.stopped = s.sun.stopped ∧ (pauseAt f s q).die.hbm = s.die.hbm
      ∧ (pauseAt f s q).die.oyKey = s.die.oyKey ∧ (pauseAt f s q).die.slices = s.die.slices ∧ (pauseAt f s q).die.transfers = s.die.transfers
      ∧ (pauseAt f s q).die.commit = s.die.commit ∧ (pauseAt f s q).die.barriers = s.die.barriers ∧ (pauseAt f s q).die.windows = s.die.windows
      ∧ (pauseAt f s q).die.ctls = s.die.ctls ∧ (pauseAt f s q).die.lodges = s.die.lodges ∧ (pauseAt f s q).die.band = s.die.band
      ∧ (pauseAt f s q).die.reports = s.die.reports ∧ (pauseAt f s q).die.atTick = s.die.atTick := by
  unfold pauseAt; first | (simp; done) | ((try dsimp only); (repeat' split) <;> simp; done) | (refine ⟨?_, ?_, ?_, ?_, ?_, ?_, ?_, ?_, ?_, ?_, ?_, ?_, ?_, ?_, ?_, ?_, ?_, ?_, ?_, ?_, ?_, ?_, ?_, ?_, ?_, ?_, ?_, ?_⟩ <;> first | (simp; done) | ((try dsimp only); (repeat' split) <;> simp; done))

@[simp] theorem stopAtTick_keeps (f : Nat) (s : State) (q : Nat) :
    (stopAtTick f s q).pending = s.pending ∧ (stopAtTick f s q).gate = s.gate ∧ (stopAtTick f s q).mod = s.mod ∧ (stopAtTick f s q).rows = s.rows
      ∧ (stopAtTick f s q).dumps = s.dumps ∧ (stopAtTick f s q).shed = s.shed ∧ (stopAtTick f s q).replay = s.replay
      ∧ (stopAtTick f s q).reg = s.reg ∧ (stopAtTick f s q).just = s.just ∧ (stopAtTick f s q).free = s.free
      ∧ (stopAtTick f s q).sun.ctr = s.sun.ctr ∧ (stopAtTick f s q).sun.lags = s.sun.lags ∧ (stopAtTick f s q).sun.tick = s.sun.tick
      ∧ (stopAtTick f s q).sun.time = s.sun.time ∧ (stopAtTick f s q).sun.freeze = s.sun.freeze ∧ (stopAtTick f s q).sun.stopped = s.sun.stopped
      ∧ (stopAtTick f s q).die.hbm = s.die.hbm ∧ (stopAtTick f s q).die.oyKey = s.die.oyKey ∧ (stopAtTick f s q).die.slices = s.die.slices
      ∧ (stopAtTick f s q).die.transfers = s.die.transfers ∧ (stopAtTick f s q).die.commit = s.die.commit
      ∧ (stopAtTick f s q).die.barriers = s.die.barriers ∧ (stopAtTick f s q).die.windows = s.die.windows
      ∧ (stopAtTick f s q).die.ctls = s.die.ctls ∧ (stopAtTick f s q).die.lodges = s.die.lodges ∧ (stopAtTick f s q).die.band = s.die.band
      ∧ (stopAtTick f s q).die.reports = s.die.reports ∧ (stopAtTick f s q).die.atTick = s.die.atTick := by
  unfold stopAtTick; first | (simp; done) | ((try dsimp only); (repeat' split) <;> simp; done) | (refine ⟨?_, ?_, ?_, ?_, ?_, ?_, ?_, ?_, ?_, ?_, ?_, ?_, ?_, ?_, ?_, ?_, ?_, ?_, ?_, ?_, ?_, ?_, ?_, ?_, ?_, ?_, ?_, ?_⟩ <;> first | (simp; done) | ((try dsimp only); (repeat' split) <;> simp; done))

@[simp] theorem startBin_keeps (s : State) (f : Nat) :
    (startBin s f).pending = s.pending ∧ (startBin s f).gate = s.gate ∧ (startBin s f).mod = s.mod ∧ (startBin s f).rows = s.rows
      ∧ (startBin s f).dumps = s.dumps ∧ (startBin s f).shed = s.shed ∧ (startBin s f).replay = s.replay ∧ (startBin s f).just = s.just
      ∧ (startBin s f).tiles = s.tiles ∧ (startBin s f).pvs = s.pvs ∧ (startBin s f).fns = s.fns ∧ (startBin s f).out = s.out
      ∧ (startBin s f).free = s.free ∧ (startBin s f).die = s.die ∧ (startBin s f).sun.ctr = s.sun.ctr ∧ (startBin s f).sun.lags = s.sun.lags
      ∧ (startBin s f).sun.tick = s.sun.tick ∧ (startBin s f).sun.time = s.sun.time ∧ (startBin s f).sun.holds = s.sun.holds
      ∧ (startBin s f).sun.freeze = s.sun.freeze ∧ (startBin s f).sun.stopped = s.sun.stopped := by
  unfold startBin; first | (simp; done) | ((try dsimp only); (repeat' split) <;> simp; done) | (refine ⟨?_, ?_, ?_, ?_, ?_, ?_, ?_, ?_, ?_, ?_, ?_, ?_, ?_, ?_, ?_, ?_, ?_, ?_, ?_, ?_, ?_⟩ <;> first | (simp; done) | ((try dsimp only); (repeat' split) <;> simp; done))

@[simp] theorem frequencyStopEnd_keeps (s : State) :
    (frequencyStopEnd s).pending = s.pending ∧ (frequencyStopEnd s).gate = s.gate ∧ (frequencyStopEnd s).mod = s.mod
      ∧ (frequencyStopEnd s).rows = s.rows ∧ (frequencyStopEnd s).dumps = s.dumps ∧ (frequencyStopEnd s).shed = s.shed
      ∧ (frequencyStopEnd s).replay = s.replay ∧ (frequencyStopEnd s).just = s.just ∧ (frequencyStopEnd s).tiles = s.tiles
      ∧ (frequencyStopEnd s).pvs = s.pvs ∧ (frequencyStopEnd s).fns = s.fns ∧ (frequencyStopEnd s).out = s.out
      ∧ (frequencyStopEnd s).free = s.free ∧ (frequencyStopEnd s).die = s.die ∧ (frequencyStopEnd s).sun.holds = s.sun.holds
      ∧ (frequencyStopEnd s).sun.freeze = s.sun.freeze ∧ (frequencyStopEnd s).sun.stopped = s.sun.stopped := by
  unfold frequencyStopEnd; first | (simp; done) | ((try dsimp only); (repeat' split) <;> simp; done) | (refine ⟨?_, ?_, ?_, ?_, ?_, ?_, ?_, ?_, ?_, ?_, ?_, ?_, ?_, ?_, ?_, ?_, ?_⟩ <;> first | (simp; done) | ((try dsimp only); (repeat' split) <;> simp; done))

@[simp] theorem forgetJust_keeps (s : State) :
    (forgetJust s).pending = s.pending ∧ (forgetJust s).gate = s.gate ∧ (forgetJust s).mod = { s.mod with alertJust := 0 } ∧ (forgetJust s).rows = s.rows
      ∧ (forgetJust s).dumps = s.dumps ∧ (forgetJust s).shed = s.shed ∧ (forgetJust s).replay = s.replay ∧ (forgetJust s).reg = s.reg
      ∧ (forgetJust s).pvs = s.pvs ∧ (forgetJust s).out = s.out ∧ (forgetJust s).free = s.free ∧ (forgetJust s).sun = s.sun
      ∧ (forgetJust s).die.hbm = s.die.hbm ∧ (forgetJust s).die.oyKey = s.die.oyKey ∧ (forgetJust s).die.slices = s.die.slices
      ∧ (forgetJust s).die.transfers = s.die.transfers ∧ (forgetJust s).die.commit = s.die.commit ∧ (forgetJust s).die.barriers = s.die.barriers
      ∧ (forgetJust s).die.windows = s.die.windows ∧ (forgetJust s).die.ctls = s.die.ctls ∧ (forgetJust s).die.ports = s.die.ports
      ∧ (forgetJust s).die.band = s.die.band ∧ (forgetJust s).die.reports = s.die.reports ∧ (forgetJust s).die.atTick = s.die.atTick := by
  unfold forgetJust; first | (simp; done) | ((try dsimp only); (repeat' split) <;> simp; done) | (refine ⟨?_, ?_, ?_, ?_, ?_, ?_, ?_, ?_, ?_, ?_, ?_, ?_, ?_, ?_, ?_, ?_, ?_, ?_, ?_, ?_, ?_, ?_, ?_, ?_⟩ <;> first | (simp; done) | ((try dsimp only); (repeat' split) <;> simp; done))

@[simp] theorem writePlan_keeps (s : State) (ws : List W64) :
    (writePlan s ws).pending = s.pending ∧ (writePlan s ws).gate = s.gate ∧ (writePlan s ws).mod = s.mod ∧ (writePlan s ws).rows = s.rows
      ∧ (writePlan s ws).dumps = s.dumps ∧ (writePlan s ws).replay = s.replay ∧ (writePlan s ws).tiles = s.tiles ∧ (writePlan s ws).pvs = s.pvs
      ∧ (writePlan s ws).fns = s.fns ∧ (writePlan s ws).out = s.out ∧ (writePlan s ws).free = s.free ∧ (writePlan s ws).sun = s.sun
      ∧ (writePlan s ws).die = s.die := by
  unfold writePlan; first | (simp; done) | ((try dsimp only); (repeat' split) <;> simp; done) | (refine ⟨?_, ?_, ?_, ?_, ?_, ?_, ?_, ?_, ?_, ?_, ?_, ?_, ?_⟩ <;> first | (simp; done) | ((try dsimp only); (repeat' split) <;> simp; done))

@[simp] theorem clearMargins_keeps (s : State) :
    (clearMargins s).pending = s.pending ∧ (clearMargins s).gate = s.gate ∧ (clearMargins s).mod = s.mod ∧ (clearMargins s).rows = s.rows
      ∧ (clearMargins s).dumps = s.dumps ∧ (clearMargins s).shed = s.shed ∧ (clearMargins s).replay = s.replay ∧ (clearMargins s).just = s.just
      ∧ (clearMargins s).tiles = s.tiles ∧ (clearMargins s).pvs = s.pvs ∧ (clearMargins s).fns = s.fns ∧ (clearMargins s).out = s.out
      ∧ (clearMargins s).free = s.free ∧ (clearMargins s).sun = s.sun ∧ (clearMargins s).die = s.die := by
  unfold clearMargins; first | (simp; done) | ((try dsimp only); (repeat' split) <;> simp; done) | (refine ⟨?_, ?_, ?_, ?_, ?_, ?_, ?_, ?_, ?_, ?_, ?_, ?_, ?_, ?_, ?_⟩ <;> first | (simp; done) | ((try dsimp only); (repeat' split) <;> simp; done))

@[simp] theorem endOfMargin_keeps (s : State) (out : List Nat) (rec : Nat) :
    (endOfMargin s out rec).pending = s.pending ∧ (endOfMargin s out rec).gate = s.gate ∧ (endOfMargin s out rec).rows = s.rows
      ∧ (endOfMargin s out rec).dumps = s.dumps ∧ (endOfMargin s out rec).replay = s.replay ∧ (endOfMargin s out rec).tiles = s.tiles
      ∧ (endOfMargin s out rec).pvs = s.pvs ∧ (endOfMargin s out rec).free = s.free ∧ (endOfMargin s out rec).sun = s.sun
      ∧ (endOfMargin s out rec).die = s.die := by
  unfold endOfMargin; first | (simp; done) | ((try dsimp only); (repeat' split) <;> simp; done) | (refine ⟨?_, ?_, ?_, ?_, ?_, ?_, ?_, ?_, ?_, ?_⟩ <;> first | (simp; done) | ((try dsimp only); (repeat' split) <;> simp; done))

@[simp] theorem makePlan_keeps (s : State) :
    (makePlan s).pending = s.pending ∧ (makePlan s).gate = s.gate ∧ (makePlan s).rows = s.rows ∧ (makePlan s).dumps = s.dumps
      ∧ (makePlan s).replay = s.replay ∧ (makePlan s).tiles = s.tiles ∧ (makePlan s).pvs = s.pvs ∧ (makePlan s).sun = s.sun
      ∧ (makePlan s).die = s.die := by
  unfold makePlan; first | (simp; done) | ((try dsimp only); (repeat' split) <;> simp; done) | (refine ⟨?_, ?_, ?_, ?_, ?_, ?_, ?_, ?_, ?_⟩ <;> first | (simp; done) | ((try dsimp only); (repeat' split) <;> simp; done))

@[simp] theorem moveRail_keeps (s : State) (g : Nat) :
    (moveRail s g).pending = s.pending ∧ (moveRail s g).gate = s.gate ∧ (moveRail s g).mod = s.mod ∧ (moveRail s g).rows = s.rows
      ∧ (moveRail s g).dumps = s.dumps ∧ (moveRail s g).shed = s.shed ∧ (moveRail s g).replay = s.replay ∧ (moveRail s g).just = s.just
      ∧ (moveRail s g).tiles = s.tiles ∧ (moveRail s g).pvs = s.pvs ∧ (moveRail s g).fns = s.fns ∧ (moveRail s g).out = s.out
      ∧ (moveRail s g).free = s.free ∧ (moveRail s g).sun = s.sun ∧ (moveRail s g).die = s.die := by
  unfold moveRail; first | (simp; done) | ((try dsimp only); (repeat' split) <;> simp; done) | (refine ⟨?_, ?_, ?_, ?_, ?_, ?_, ?_, ?_, ?_, ?_, ?_, ?_, ?_, ?_, ?_⟩ <;> first | (simp; done) | ((try dsimp only); (repeat' split) <;> simp; done))

@[simp] theorem railStep_keeps (s : State) :
    (railStep s).pending = s.pending ∧ (railStep s).gate = s.gate ∧ (railStep s).mod = s.mod ∧ (railStep s).rows = s.rows
      ∧ (railStep s).dumps = s.dumps ∧ (railStep s).shed = s.shed ∧ (railStep s).replay = s.replay ∧ (railStep s).just = s.just
      ∧ (railStep s).tiles = s.tiles ∧ (railStep s).pvs = s.pvs ∧ (railStep s).fns = s.fns ∧ (railStep s).out = s.out
      ∧ (railStep s).free = s.free ∧ (railStep s).sun = s.sun ∧ (railStep s).die = s.die := by
  unfold railStep; first | (simp; done) | ((try dsimp only); (repeat' split) <;> simp; done) | (refine ⟨?_, ?_, ?_, ?_, ?_, ?_, ?_, ?_, ?_, ?_, ?_, ?_, ?_, ?_, ?_⟩ <;> first | (simp; done) | ((try dsimp only); (repeat' split) <;> simp; done))

@[simp] theorem State.modMod_keeps (s : State) (f : Mod → Mod) :
    (State.modMod s f).pending = s.pending ∧ (State.modMod s f).gate = s.gate ∧ (State.modMod s f).rows = s.rows
      ∧ (State.modMod s f).dumps = s.dumps ∧ (State.modMod s f).shed = s.shed ∧ (State.modMod s f).replay = s.replay
      ∧ (State.modMod s f).reg = s.reg ∧ (State.modMod s f).just = s.just ∧ (State.modMod s f).tiles = s.tiles ∧ (State.modMod s f).pvs = s.pvs
      ∧ (State.modMod s f).fns = s.fns ∧ (State.modMod s f).out = s.out ∧ (State.modMod s f).free = s.free ∧ (State.modMod s f).sun = s.sun
      ∧ (State.modMod s f).die = s.die := by
  unfold State.modMod; first | (simp; done) | ((try dsimp only); (repeat' split) <;> simp; done) | (refine ⟨?_, ?_, ?_, ?_, ?_, ?_, ?_, ?_, ?_, ?_, ?_, ?_, ?_, ?_, ?_⟩ <;> first | (simp; done) | ((try dsimp only); (repeat' split) <;> simp; done))

@[simp] theorem resetState_keeps (s : State) :
    (resetState s).pending = s.pending ∧ (resetState s).dumps = s.dumps ∧ (resetState s).shed = s.shed ∧ (resetState s).out = s.out
      ∧ (resetState s).free = s.free ∧ (resetState s).sun.time = s.sun.time ∧ (resetState s).die.hbm = s.die.hbm := by
  unfold resetState; first | (simp; done) | ((try dsimp only); (repeat' split) <;> simp; done) | (refine ⟨?_, ?_, ?_, ?_, ?_, ?_, ?_⟩ <;> first | (simp; done) | ((try dsimp only); (repeat' split) <;> simp; done))

@[simp] theorem noteBoot_keeps (ran : Bool) (phase : Nat) (s : State) :
    (noteBoot ran phase s).pending = s.pending ∧ (noteBoot ran phase s).rows = s.rows ∧ (noteBoot ran phase s).dumps = s.dumps
      ∧ (noteBoot ran phase s).replay = s.replay ∧ (noteBoot ran phase s).tiles = s.tiles ∧ (noteBoot ran phase s).pvs = s.pvs
      ∧ (noteBoot ran phase s).fns = s.fns ∧ (noteBoot ran phase s).free = s.free ∧ (noteBoot ran phase s).sun = s.sun
      ∧ (noteBoot ran phase s).die = s.die := by
  unfold noteBoot; first | (simp; done) | ((try dsimp only); (repeat' split) <;> simp; done) | (refine ⟨?_, ?_, ?_, ?_, ?_, ?_, ?_, ?_, ?_, ?_⟩ <;> first | (simp; done) | ((try dsimp only); (repeat' split) <;> simp; done))

@[simp] theorem chipReset_keeps (s : State) :
    (chipReset s).pending = s.pending ∧ (chipReset s).dumps = s.dumps ∧ (chipReset s).free = s.free ∧ (chipReset s).sun.time = s.sun.time
      ∧ (chipReset s).die.hbm = s.die.hbm := by
  unfold chipReset; first | (simp; done) | ((try dsimp only); (repeat' split) <;> simp; done) | (refine ⟨?_, ?_, ?_, ?_, ?_⟩ <;> first | (simp; done) | ((try dsimp only); (repeat' split) <;> simp; done))

@[simp] theorem trayAssert_keeps (s : State) :
    (trayAssert s).pending = s.pending ∧ (trayAssert s).dumps = s.dumps ∧ (trayAssert s).free = s.free ∧ (trayAssert s).sun.time = s.sun.time
      ∧ (trayAssert s).die.hbm = s.die.hbm := by
  unfold trayAssert; first | (simp; done) | ((try dsimp only); (repeat' split) <;> simp; done) | (refine ⟨?_, ?_, ?_, ?_, ?_⟩ <;> first | (simp; done) | ((try dsimp only); (repeat' split) <;> simp; done))

@[simp] theorem trayResetAssert_keeps (s : State) (ns : Nat) :
    (trayResetAssert s ns).pending = s.pending ∧ (trayResetAssert s ns).dumps = s.dumps ∧ (trayResetAssert s ns).sun.time = s.sun.time
      ∧ (trayResetAssert s ns).die.hbm = s.die.hbm := by
  unfold trayResetAssert; first | (simp; done) | ((try dsimp only); (repeat' split) <;> simp; done) | (refine ⟨?_, ?_, ?_, ?_⟩ <;> first | (simp; done) | ((try dsimp only); (repeat' split) <;> simp; done))

@[simp] theorem trayDeassert_keeps (s : State) (split : Bool) (addr : Nat) :
    (trayDeassert s split addr).pending = s.pending ∧ (trayDeassert s split addr).gate = s.gate ∧ (trayDeassert s split addr).dumps = s.dumps
      ∧ (trayDeassert s split addr).shed = s.shed ∧ (trayDeassert s split addr).replay = s.replay ∧ (trayDeassert s split addr).just = s.just
      ∧ (trayDeassert s split addr).tiles = s.tiles ∧ (trayDeassert s split addr).pvs = s.pvs ∧ (trayDeassert s split addr).fns = s.fns
      ∧ (trayDeassert s split addr).out = s.out ∧ (trayDeassert s split addr).free = s.free ∧ (trayDeassert s split addr).sun = s.sun
      ∧ (trayDeassert s split addr).die = s.die := by
  unfold trayDeassert; first | (simp; done) | ((try dsimp only); (repeat' split) <;> simp; done) | (refine ⟨?_, ?_, ?_, ?_, ?_, ?_, ?_, ?_, ?_, ?_, ?_, ?_, ?_⟩ <;> first | (simp; done) | ((try dsimp only); (repeat' split) <;> simp; done))

@[simp] theorem shedLost_keeps (s : State) :
    (shedLost s).pending = s.pending ∧ (shedLost s).gate = s.gate ∧ (shedLost s).mod = s.mod ∧ (shedLost s).rows = s.rows
      ∧ (shedLost s).dumps = s.dumps ∧ (shedLost s).replay = s.replay ∧ (shedLost s).reg = s.reg ∧ (shedLost s).just = s.just
      ∧ (shedLost s).tiles = s.tiles ∧ (shedLost s).pvs = s.pvs ∧ (shedLost s).fns = s.fns ∧ (shedLost s).out = s.out ∧ (shedLost s).sun = s.sun
      ∧ (shedLost s).die = s.die := by
  unfold shedLost; first | (simp; done) | ((try dsimp only); (repeat' split) <;> simp; done) | (refine ⟨?_, ?_, ?_, ?_, ?_, ?_, ?_, ?_, ?_, ?_, ?_, ?_, ?_, ?_⟩ <;> first | (simp; done) | ((try dsimp only); (repeat' split) <;> simp; done))

@[simp] theorem powerLost_keeps (s : State) :
    (powerLost s).pending = s.pending ∧ (powerLost s).out = s.out ∧ (powerLost s).sun.time = s.sun.time := by
  unfold powerLost; first | (simp; done) | ((try dsimp only); (repeat' split) <;> simp; done) | (refine ⟨?_, ?_, ?_⟩ <;> first | (simp; done) | ((try dsimp only); (repeat' split) <;> simp; done))

@[simp] theorem shutDown_keeps (s : State) (thermal : Bool) :
    (shutDown s thermal).pending = s.pending ∧ (shutDown s thermal).out = s.out ∧ (shutDown s thermal).sun.time = s.sun.time := by
  unfold shutDown; first | (simp; done) | ((try dsimp only); (repeat' split) <;> simp; done) | (refine ⟨?_, ?_, ?_⟩ <;> first | (simp; done) | ((try dsimp only); (repeat' split) <;> simp; done))

@[simp] theorem powerApplied_keeps (s : State) :
    (powerApplied s).pending = s.pending ∧ (powerApplied s).gate = s.gate ∧ (powerApplied s).rows = s.rows ∧ (powerApplied s).dumps = s.dumps
      ∧ (powerApplied s).shed = s.shed ∧ (powerApplied s).replay = s.replay ∧ (powerApplied s).reg = s.reg ∧ (powerApplied s).just = s.just
      ∧ (powerApplied s).tiles = s.tiles ∧ (powerApplied s).pvs = s.pvs ∧ (powerApplied s).fns = s.fns ∧ (powerApplied s).out = s.out
      ∧ (powerApplied s).free = s.free ∧ (powerApplied s).sun = s.sun ∧ (powerApplied s).die = s.die := by
  unfold powerApplied; first | (simp; done) | ((try dsimp only); (repeat' split) <;> simp; done) | (refine ⟨?_, ?_, ?_, ?_, ?_, ?_, ?_, ?_, ?_, ?_, ?_, ?_, ?_, ?_, ?_⟩ <;> first | (simp; done) | ((try dsimp only); (repeat' split) <;> simp; done))

@[simp] theorem thermalTrip_keeps (s : State) (z : Sensor) (temp : Nat) :
    (thermalTrip s z temp).pending = s.pending ∧ (thermalTrip s z temp).out = s.out ∧ (thermalTrip s z temp).sun.time = s.sun.time := by
  unfold thermalTrip; first | (simp; done) | ((try dsimp only); (repeat' split) <;> simp; done) | (refine ⟨?_, ?_, ?_⟩ <;> first | (simp; done) | ((try dsimp only); (repeat' split) <;> simp; done))

@[simp] theorem drawKey_keeps (s : State) :
    (drawKey s).pending = s.pending ∧ (drawKey s).mod = s.mod ∧ (drawKey s).rows = s.rows ∧ (drawKey s).dumps = s.dumps
      ∧ (drawKey s).shed = s.shed ∧ (drawKey s).replay = s.replay ∧ (drawKey s).just = s.just ∧ (drawKey s).tiles = s.tiles
      ∧ (drawKey s).pvs = s.pvs ∧ (drawKey s).fns = s.fns ∧ (drawKey s).out = s.out ∧ (drawKey s).sun = s.sun ∧ (drawKey s).die.hbm = s.die.hbm
      ∧ (drawKey s).die.slices = s.die.slices ∧ (drawKey s).die.transfers = s.die.transfers ∧ (drawKey s).die.commit = s.die.commit
      ∧ (drawKey s).die.barriers = s.die.barriers ∧ (drawKey s).die.windows = s.die.windows ∧ (drawKey s).die.ctls = s.die.ctls
      ∧ (drawKey s).die.ports = s.die.ports ∧ (drawKey s).die.lodges = s.die.lodges ∧ (drawKey s).die.band = s.die.band
      ∧ (drawKey s).die.reports = s.die.reports ∧ (drawKey s).die.atTick = s.die.atTick := by
  unfold drawKey; first | (simp; done) | ((try dsimp only); (repeat' split) <;> simp; done) | (refine ⟨?_, ?_, ?_, ?_, ?_, ?_, ?_, ?_, ?_, ?_, ?_, ?_, ?_, ?_, ?_, ?_, ?_, ?_, ?_, ?_, ?_, ?_, ?_, ?_⟩ <;> first | (simp; done) | ((try dsimp only); (repeat' split) <;> simp; done))

@[simp] theorem hbmInit_keeps (s : State) (stack : Nat) :
    (hbmInit s stack).pending = s.pending ∧ (hbmInit s stack).mod = s.mod ∧ (hbmInit s stack).rows = s.rows ∧ (hbmInit s stack).dumps = s.dumps
      ∧ (hbmInit s stack).shed = s.shed ∧ (hbmInit s stack).replay = s.replay ∧ (hbmInit s stack).just = s.just
      ∧ (hbmInit s stack).tiles = s.tiles ∧ (hbmInit s stack).pvs = s.pvs ∧ (hbmInit s stack).fns = s.fns ∧ (hbmInit s stack).out = s.out
      ∧ (hbmInit s stack).sun = s.sun ∧ (hbmInit s stack).die.hbm = s.die.hbm ∧ (hbmInit s stack).die.slices = s.die.slices
      ∧ (hbmInit s stack).die.transfers = s.die.transfers ∧ (hbmInit s stack).die.commit = s.die.commit
      ∧ (hbmInit s stack).die.barriers = s.die.barriers ∧ (hbmInit s stack).die.windows = s.die.windows ∧ (hbmInit s stack).die.ctls = s.die.ctls
      ∧ (hbmInit s stack).die.ports = s.die.ports ∧ (hbmInit s stack).die.lodges = s.die.lodges ∧ (hbmInit s stack).die.band = s.die.band
      ∧ (hbmInit s stack).die.reports = s.die.reports ∧ (hbmInit s stack).die.atTick = s.die.atTick := by
  unfold hbmInit; first | (simp; done) | ((try dsimp only); (repeat' split) <;> simp; done) | (refine ⟨?_, ?_, ?_, ?_, ?_, ?_, ?_, ?_, ?_, ?_, ?_, ?_, ?_, ?_, ?_, ?_, ?_, ?_, ?_, ?_, ?_, ?_, ?_, ?_⟩ <;> first | (simp; done) | ((try dsimp only); (repeat' split) <;> simp; done))

@[simp] theorem respond_keeps (s : State) (cmd status : Nat) (data : List Byte) :
    (respond s cmd status data).pending = s.pending ∧ (respond s cmd status data).gate = s.gate ∧ (respond s cmd status data).mod = s.mod
      ∧ (respond s cmd status data).rows = s.rows ∧ (respond s cmd status data).dumps = s.dumps ∧ (respond s cmd status data).shed = s.shed
      ∧ (respond s cmd status data).replay = s.replay ∧ (respond s cmd status data).reg = s.reg ∧ (respond s cmd status data).just = s.just
      ∧ (respond s cmd status data).tiles = s.tiles ∧ (respond s cmd status data).pvs = s.pvs ∧ (respond s cmd status data).fns = s.fns
      ∧ (respond s cmd status data).free = s.free ∧ (respond s cmd status data).sun = s.sun ∧ (respond s cmd status data).die = s.die := by
  unfold respond; first | (simp; done) | ((try dsimp only); (repeat' split) <;> simp; done) | (refine ⟨?_, ?_, ?_, ?_, ?_, ?_, ?_, ?_, ?_, ?_, ?_, ?_, ?_, ?_, ?_⟩ <;> first | (simp; done) | ((try dsimp only); (repeat' split) <;> simp; done))

@[simp] theorem jtagLoad_keeps (s : State) (ir data out : Nat) :
    (jtagLoad s ir data out).pending = s.pending ∧ (jtagLoad s ir data out).gate = s.gate ∧ (jtagLoad s ir data out).rows = s.rows
      ∧ (jtagLoad s ir data out).dumps = s.dumps ∧ (jtagLoad s ir data out).shed = s.shed ∧ (jtagLoad s ir data out).replay = s.replay
      ∧ (jtagLoad s ir data out).reg = s.reg ∧ (jtagLoad s ir data out).just = s.just ∧ (jtagLoad s ir data out).tiles = s.tiles
      ∧ (jtagLoad s ir data out).pvs = s.pvs ∧ (jtagLoad s ir data out).fns = s.fns ∧ (jtagLoad s ir data out).free = s.free
      ∧ (jtagLoad s ir data out).sun = s.sun ∧ (jtagLoad s ir data out).die = s.die := by
  unfold jtagLoad; first | (simp; done) | ((try dsimp only); (repeat' split) <;> simp; done) | (refine ⟨?_, ?_, ?_, ?_, ?_, ?_, ?_, ?_, ?_, ?_, ?_, ?_, ?_, ?_⟩ <;> first | (simp; done) | ((try dsimp only); (repeat' split) <;> simp; done))

@[simp] theorem setLink_keeps (s : State) (port up : Nat) :
    (setLink s port up).pending = s.pending ∧ (setLink s port up).gate = s.gate ∧ (setLink s port up).rows = s.rows
      ∧ (setLink s port up).dumps = s.dumps ∧ (setLink s port up).shed = s.shed ∧ (setLink s port up).replay = s.replay
      ∧ (setLink s port up).reg = s.reg ∧ (setLink s port up).just = s.just ∧ (setLink s port up).tiles = s.tiles
      ∧ (setLink s port up).pvs = s.pvs ∧ (setLink s port up).fns = s.fns ∧ (setLink s port up).out = s.out ∧ (setLink s port up).free = s.free
      ∧ (setLink s port up).sun = s.sun ∧ (setLink s port up).die = s.die := by
  unfold setLink; first | (simp; done) | ((try dsimp only); (repeat' split) <;> simp; done) | (refine ⟨?_, ?_, ?_, ?_, ?_, ?_, ?_, ?_, ?_, ?_, ?_, ?_, ?_, ?_, ?_⟩ <;> first | (simp; done) | ((try dsimp only); (repeat' split) <;> simp; done))

@[simp] theorem firmwareLost_keeps (s : State) :
    (firmwareLost s).pending = s.pending ∧ (firmwareLost s).mod = s.mod ∧ (firmwareLost s).rows = s.rows ∧ (firmwareLost s).dumps = s.dumps
      ∧ (firmwareLost s).shed = s.shed ∧ (firmwareLost s).replay = s.replay ∧ (firmwareLost s).reg = s.reg ∧ (firmwareLost s).just = s.just
      ∧ (firmwareLost s).tiles = s.tiles ∧ (firmwareLost s).pvs = s.pvs ∧ (firmwareLost s).free = s.free ∧ (firmwareLost s).sun = s.sun
      ∧ (firmwareLost s).die = s.die := by
  unfold firmwareLost; first | (simp; done) | ((try dsimp only); (repeat' split) <;> simp; done) | (refine ⟨?_, ?_, ?_, ?_, ?_, ?_, ?_, ?_, ?_, ?_, ?_, ?_, ?_⟩ <;> first | (simp; done) | ((try dsimp only); (repeat' split) <;> simp; done))

@[simp] theorem requestLost_keeps (s : State) (q : Nat) :
    (requestLost s q).pending = s.pending ∧ (requestLost s q).gate = s.gate ∧ (requestLost s q).mod = s.mod ∧ (requestLost s q).rows = s.rows
      ∧ (requestLost s q).dumps = s.dumps ∧ (requestLost s q).shed = s.shed ∧ (requestLost s q).replay = s.replay ∧ (requestLost s q).reg = s.reg
      ∧ (requestLost s q).just = s.just ∧ (requestLost s q).tiles = s.tiles ∧ (requestLost s q).free = s.free ∧ (requestLost s q).sun = s.sun
      ∧ (requestLost s q).die = s.die := by
  unfold requestLost; first | (simp; done) | ((try dsimp only); (repeat' split) <;> simp; done) | (refine ⟨?_, ?_, ?_, ?_, ?_, ?_, ?_, ?_, ?_, ?_, ?_, ?_, ?_⟩ <;> first | (simp; done) | ((try dsimp only); (repeat' split) <;> simp; done))

@[simp] theorem mailWrite_keeps (s : State) (n off : Nat) (v : W64) :
    (mailWrite s n off v).pending = s.pending ∧ (mailWrite s n off v).gate = s.gate ∧ (mailWrite s n off v).mod = s.mod
      ∧ (mailWrite s n off v).rows = s.rows ∧ (mailWrite s n off v).dumps = s.dumps ∧ (mailWrite s n off v).shed = s.shed
      ∧ (mailWrite s n off v).replay = s.replay ∧ (mailWrite s n off v).reg = s.reg ∧ (mailWrite s n off v).just = s.just
      ∧ (mailWrite s n off v).tiles = s.tiles ∧ (mailWrite s n off v).pvs = s.pvs ∧ (mailWrite s n off v).out = s.out
      ∧ (mailWrite s n off v).free = s.free ∧ (mailWrite s n off v).sun = s.sun ∧ (mailWrite s n off v).die = s.die := by
  unfold mailWrite; first | (simp; done) | ((try dsimp only); (repeat' split) <;> simp; done) | (refine ⟨?_, ?_, ?_, ?_, ?_, ?_, ?_, ?_, ?_, ?_, ?_, ?_, ?_, ?_, ?_⟩ <;> first | (simp; done) | ((try dsimp only); (repeat' split) <;> simp; done))

@[simp] theorem msixWrite_keeps (s : State) (n w : Nat) (v : W64) :
    (msixWrite s n w v).pending = s.pending ∧ (msixWrite s n w v).gate = s.gate ∧ (msixWrite s n w v).mod = s.mod
      ∧ (msixWrite s n w v).rows = s.rows ∧ (msixWrite s n w v).dumps = s.dumps ∧ (msixWrite s n w v).shed = s.shed
      ∧ (msixWrite s n w v).replay = s.replay ∧ (msixWrite s n w v).reg = s.reg ∧ (msixWrite s n w v).just = s.just
      ∧ (msixWrite s n w v).tiles = s.tiles ∧ (msixWrite s n w v).pvs = s.pvs ∧ (msixWrite s n w v).free = s.free
      ∧ (msixWrite s n w v).sun = s.sun ∧ (msixWrite s n w v).die = s.die := by
  unfold msixWrite; first | (simp; done) | ((try dsimp only); (repeat' split) <;> simp; done) | (refine ⟨?_, ?_, ?_, ?_, ?_, ?_, ?_, ?_, ?_, ?_, ?_, ?_, ?_, ?_⟩ <;> first | (simp; done) | ((try dsimp only); (repeat' split) <;> simp; done))

@[simp] theorem bar2Write_keeps (s : State) (f : Func) (off : Nat) (v : W64) :
    (bar2Write s f off v).pending = s.pending ∧ (bar2Write s f off v).gate = s.gate ∧ (bar2Write s f off v).mod = s.mod
      ∧ (bar2Write s f off v).rows = s.rows ∧ (bar2Write s f off v).dumps = s.dumps ∧ (bar2Write s f off v).shed = s.shed
      ∧ (bar2Write s f off v).replay = s.replay ∧ (bar2Write s f off v).reg = s.reg ∧ (bar2Write s f off v).just = s.just
      ∧ (bar2Write s f off v).tiles = s.tiles ∧ (bar2Write s f off v).free = s.free ∧ (bar2Write s f off v).sun = s.sun
      ∧ (bar2Write s f off v).die = s.die := by
  unfold bar2Write; first | (simp; done) | ((try dsimp only); (repeat' split) <;> simp; done) | (refine ⟨?_, ?_, ?_, ?_, ?_, ?_, ?_, ?_, ?_, ?_, ?_, ?_, ?_⟩ <;> first | (simp; done) | ((try dsimp only); (repeat' split) <;> simp; done))

@[simp] theorem plainWrite_keeps (s : State) (off : Nat) (v : W64) :
    (plainWrite s off v).pending = s.pending ∧ (plainWrite s off v).gate = s.gate ∧ (plainWrite s off v).mod = s.mod
      ∧ (plainWrite s off v).rows = s.rows ∧ (plainWrite s off v).dumps = s.dumps ∧ (plainWrite s off v).shed = s.shed
      ∧ (plainWrite s off v).replay = s.replay ∧ (plainWrite s off v).just = s.just ∧ (plainWrite s off v).tiles = s.tiles
      ∧ (plainWrite s off v).pvs = s.pvs ∧ (plainWrite s off v).fns = s.fns ∧ (plainWrite s off v).out = s.out
      ∧ (plainWrite s off v).free = s.free ∧ (plainWrite s off v).sun = s.sun ∧ (plainWrite s off v).die = s.die := by
  unfold plainWrite; first | (simp; done) | ((try dsimp only); (repeat' split) <;> simp; done) | (refine ⟨?_, ?_, ?_, ?_, ?_, ?_, ?_, ?_, ?_, ?_, ?_, ?_, ?_, ?_, ?_⟩ <;> first | (simp; done) | ((try dsimp only); (repeat' split) <;> simp; done))

@[simp] theorem hostWrite_keeps (s : State) (f : Func) (off : Nat) (v : W64) :
    (hostWrite s f off v).pending = s.pending ∧ (hostWrite s f off v).gate = s.gate ∧ (hostWrite s f off v).mod = s.mod
      ∧ (hostWrite s f off v).rows = s.rows ∧ (hostWrite s f off v).dumps = s.dumps ∧ (hostWrite s f off v).shed = s.shed
      ∧ (hostWrite s f off v).replay = s.replay ∧ (hostWrite s f off v).just = s.just ∧ (hostWrite s f off v).tiles = s.tiles
      ∧ (hostWrite s f off v).free = s.free ∧ (hostWrite s f off v).sun = s.sun ∧ (hostWrite s f off v).die = s.die := by
  unfold hostWrite; first | (simp; done) | ((try dsimp only); (repeat' split) <;> simp; done) | (refine ⟨?_, ?_, ?_, ?_, ?_, ?_, ?_, ?_, ?_, ?_, ?_, ?_⟩ <;> first | (simp; done) | ((try dsimp only); (repeat' split) <;> simp; done))

@[simp] theorem fbWrite_keeps (s : State) (p : Nat) (v : W64) :
    (fbWrite s p v).pending = s.pending ∧ (fbWrite s p v).gate = s.gate ∧ (fbWrite s p v).mod = s.mod ∧ (fbWrite s p v).rows = s.rows
      ∧ (fbWrite s p v).dumps = s.dumps ∧ (fbWrite s p v).shed = s.shed ∧ (fbWrite s p v).replay = s.replay ∧ (fbWrite s p v).tiles = s.tiles
      ∧ (fbWrite s p v).pvs = s.pvs ∧ (fbWrite s p v).fns = s.fns ∧ (fbWrite s p v).free = s.free ∧ (fbWrite s p v).die.hbm = s.die.hbm
      ∧ (fbWrite s p v).die.oyKey = s.die.oyKey ∧ (fbWrite s p v).die.slices = s.die.slices ∧ (fbWrite s p v).die.transfers = s.die.transfers
      ∧ (fbWrite s p v).die.commit = s.die.commit ∧ (fbWrite s p v).die.barriers = s.die.barriers ∧ (fbWrite s p v).die.windows = s.die.windows
      ∧ (fbWrite s p v).die.ctls = s.die.ctls ∧ (fbWrite s p v).die.lodges = s.die.lodges ∧ (fbWrite s p v).die.band = s.die.band
      ∧ (fbWrite s p v).die.reports = s.die.reports ∧ (fbWrite s p v).die.atTick = s.die.atTick := by
  unfold fbWrite; first | (simp; done) | ((try dsimp only); (repeat' split) <;> simp; done) | (refine ⟨?_, ?_, ?_, ?_, ?_, ?_, ?_, ?_, ?_, ?_, ?_, ?_, ?_, ?_, ?_, ?_, ?_, ?_, ?_, ?_, ?_, ?_, ?_⟩ <;> first | (simp; done) | ((try dsimp only); (repeat' split) <;> simp; done))

@[simp] theorem plainTileWrite_keeps (s : State) (p off : Nat) (v : W64) :
    (plainTileWrite s p off v).pending = s.pending ∧ (plainTileWrite s p off v).gate = s.gate ∧ (plainTileWrite s p off v).mod = s.mod
      ∧ (plainTileWrite s p off v).rows = s.rows ∧ (plainTileWrite s p off v).dumps = s.dumps ∧ (plainTileWrite s p off v).shed = s.shed
      ∧ (plainTileWrite s p off v).replay = s.replay ∧ (plainTileWrite s p off v).reg = s.reg ∧ (plainTileWrite s p off v).just = s.just
      ∧ (plainTileWrite s p off v).pvs = s.pvs ∧ (plainTileWrite s p off v).fns = s.fns ∧ (plainTileWrite s p off v).out = s.out
      ∧ (plainTileWrite s p off v).free = s.free ∧ (plainTileWrite s p off v).sun = s.sun ∧ (plainTileWrite s p off v).die = s.die := by
  unfold plainTileWrite; first | (simp; done) | ((try dsimp only); (repeat' split) <;> simp; done) | (refine ⟨?_, ?_, ?_, ?_, ?_, ?_, ?_, ?_, ?_, ?_, ?_, ?_, ?_, ?_, ?_⟩ <;> first | (simp; done) | ((try dsimp only); (repeat' split) <;> simp; done))

@[simp] theorem seqWrite_keeps (s : State) (p : Nat) (v : W64) :
    (seqWrite s p v).pending = s.pending ∧ (seqWrite s p v).gate = s.gate ∧ (seqWrite s p v).mod = s.mod ∧ (seqWrite s p v).rows = s.rows
      ∧ (seqWrite s p v).dumps = s.dumps ∧ (seqWrite s p v).shed = s.shed ∧ (seqWrite s p v).replay = s.replay ∧ (seqWrite s p v).reg = s.reg
      ∧ (seqWrite s p v).just = s.just ∧ (seqWrite s p v).pvs = s.pvs ∧ (seqWrite s p v).fns = s.fns ∧ (seqWrite s p v).free = s.free
      ∧ (seqWrite s p v).sun.ctr = s.sun.ctr ∧ (seqWrite s p v).sun.lags = s.sun.lags ∧ (seqWrite s p v).sun.tick = s.sun.tick
      ∧ (seqWrite s p v).sun.time = s.sun.time ∧ (seqWrite s p v).sun.freeze = s.sun.freeze ∧ (seqWrite s p v).sun.stopped = s.sun.stopped
      ∧ (seqWrite s p v).die.hbm = s.die.hbm ∧ (seqWrite s p v).die.oyKey = s.die.oyKey ∧ (seqWrite s p v).die.slices = s.die.slices
      ∧ (seqWrite s p v).die.transfers = s.die.transfers ∧ (seqWrite s p v).die.commit = s.die.commit
      ∧ (seqWrite s p v).die.barriers = s.die.barriers ∧ (seqWrite s p v).die.windows = s.die.windows ∧ (seqWrite s p v).die.ctls = s.die.ctls
      ∧ (seqWrite s p v).die.lodges = s.die.lodges ∧ (seqWrite s p v).die.band = s.die.band ∧ (seqWrite s p v).die.reports = s.die.reports
      ∧ (seqWrite s p v).die.atTick = s.die.atTick := by
  unfold seqWrite; first | (simp; done) | ((try dsimp only); (repeat' split) <;> simp; done) | (refine ⟨?_, ?_, ?_, ?_, ?_, ?_, ?_, ?_, ?_, ?_, ?_, ?_, ?_, ?_, ?_, ?_, ?_, ?_, ?_, ?_, ?_, ?_, ?_, ?_, ?_, ?_, ?_, ?_, ?_, ?_⟩ <;> first | (simp; done) | ((try dsimp only); (repeat' split) <;> simp; done))

@[simp] theorem cfgWrite_keeps (s : State) (p off : Nat) (v : W64) :
    (cfgWrite s p off v).pending = s.pending ∧ (cfgWrite s p off v).gate = s.gate ∧ (cfgWrite s p off v).mod = s.mod
      ∧ (cfgWrite s p off v).rows = s.rows ∧ (cfgWrite s p off v).dumps = s.dumps ∧ (cfgWrite s p off v).shed = s.shed
      ∧ (cfgWrite s p off v).replay = s.replay ∧ (cfgWrite s p off v).reg = s.reg ∧ (cfgWrite s p off v).just = s.just
      ∧ (cfgWrite s p off v).pvs = s.pvs ∧ (cfgWrite s p off v).fns = s.fns ∧ (cfgWrite s p off v).out = s.out
      ∧ (cfgWrite s p off v).free = s.free ∧ (cfgWrite s p off v).sun = s.sun ∧ (cfgWrite s p off v).die = s.die := by
  unfold cfgWrite; first | (simp; done) | ((try dsimp only); (repeat' split) <;> simp; done) | (refine ⟨?_, ?_, ?_, ?_, ?_, ?_, ?_, ?_, ?_, ?_, ?_, ?_, ?_, ?_, ?_⟩ <;> first | (simp; done) | ((try dsimp only); (repeat' split) <;> simp; done))

@[simp] theorem recvWrite_keeps (s : State) (p n : Nat) (v : W64) :
    (recvWrite s p n v).pending = s.pending ∧ (recvWrite s p n v).gate = s.gate ∧ (recvWrite s p n v).mod = s.mod
      ∧ (recvWrite s p n v).rows = s.rows ∧ (recvWrite s p n v).dumps = s.dumps ∧ (recvWrite s p n v).shed = s.shed
      ∧ (recvWrite s p n v).replay = s.replay ∧ (recvWrite s p n v).reg = s.reg ∧ (recvWrite s p n v).just = s.just
      ∧ (recvWrite s p n v).pvs = s.pvs ∧ (recvWrite s p n v).fns = s.fns ∧ (recvWrite s p n v).free = s.free ∧ (recvWrite s p n v).sun = s.sun
      ∧ (recvWrite s p n v).die.hbm = s.die.hbm ∧ (recvWrite s p n v).die.oyKey = s.die.oyKey ∧ (recvWrite s p n v).die.slices = s.die.slices
      ∧ (recvWrite s p n v).die.transfers = s.die.transfers ∧ (recvWrite s p n v).die.commit = s.die.commit
      ∧ (recvWrite s p n v).die.barriers = s.die.barriers ∧ (recvWrite s p n v).die.windows = s.die.windows
      ∧ (recvWrite s p n v).die.lodges = s.die.lodges ∧ (recvWrite s p n v).die.band = s.die.band
      ∧ (recvWrite s p n v).die.reports = s.die.reports ∧ (recvWrite s p n v).die.atTick = s.die.atTick := by
  unfold recvWrite; first | (simp; done) | ((try dsimp only); (repeat' split) <;> simp; done) | (refine ⟨?_, ?_, ?_, ?_, ?_, ?_, ?_, ?_, ?_, ?_, ?_, ?_, ?_, ?_, ?_, ?_, ?_, ?_, ?_, ?_, ?_, ?_, ?_, ?_⟩ <;> first | (simp; done) | ((try dsimp only); (repeat' split) <;> simp; done))

@[simp] theorem tileWrite_keeps (s : State) (p off : Nat) (v : W64) :
    (tileWrite s p off v).pending = s.pending ∧ (tileWrite s p off v).gate = s.gate ∧ (tileWrite s p off v).mod = s.mod
      ∧ (tileWrite s p off v).rows = s.rows ∧ (tileWrite s p off v).dumps = s.dumps ∧ (tileWrite s p off v).shed = s.shed
      ∧ (tileWrite s p off v).reg = s.reg ∧ (tileWrite s p off v).just = s.just ∧ (tileWrite s p off v).pvs = s.pvs
      ∧ (tileWrite s p off v).fns = s.fns ∧ (tileWrite s p off v).free = s.free ∧ (tileWrite s p off v).sun.ctr = s.sun.ctr
      ∧ (tileWrite s p off v).sun.lags = s.sun.lags ∧ (tileWrite s p off v).sun.tick = s.sun.tick ∧ (tileWrite s p off v).sun.time = s.sun.time
      ∧ (tileWrite s p off v).sun.freeze = s.sun.freeze ∧ (tileWrite s p off v).sun.stopped = s.sun.stopped
      ∧ (tileWrite s p off v).die.hbm = s.die.hbm ∧ (tileWrite s p off v).die.oyKey = s.die.oyKey
      ∧ (tileWrite s p off v).die.slices = s.die.slices ∧ (tileWrite s p off v).die.transfers = s.die.transfers
      ∧ (tileWrite s p off v).die.commit = s.die.commit ∧ (tileWrite s p off v).die.barriers = s.die.barriers
      ∧ (tileWrite s p off v).die.windows = s.die.windows ∧ (tileWrite s p off v).die.band = s.die.band
      ∧ (tileWrite s p off v).die.atTick = s.die.atTick := by
  unfold tileWrite; first | (simp; done) | ((try dsimp only); (repeat' split) <;> simp; done) | (refine ⟨?_, ?_, ?_, ?_, ?_, ?_, ?_, ?_, ?_, ?_, ?_, ?_, ?_, ?_, ?_, ?_, ?_, ?_, ?_, ?_, ?_, ?_, ?_, ?_, ?_, ?_⟩ <;> first | (simp; done) | ((try dsimp only); (repeat' split) <;> simp; done))

@[simp] theorem shedWordWrite_keeps (s : State) (n : Nat) (v : W64) :
    (shedWordWrite s n v).pending = s.pending ∧ (shedWordWrite s n v).gate = s.gate ∧ (shedWordWrite s n v).mod = s.mod
      ∧ (shedWordWrite s n v).rows = s.rows ∧ (shedWordWrite s n v).dumps = s.dumps ∧ (shedWordWrite s n v).replay = s.replay
      ∧ (shedWordWrite s n v).tiles = s.tiles ∧ (shedWordWrite s n v).pvs = s.pvs ∧ (shedWordWrite s n v).fns = s.fns
      ∧ (shedWordWrite s n v).out = s.out ∧ (shedWordWrite s n v).free = s.free ∧ (shedWordWrite s n v).sun = s.sun
      ∧ (shedWordWrite s n v).die = s.die := by
  unfold shedWordWrite; first | (simp; done) | ((try dsimp only); (repeat' split) <;> simp; done) | (refine ⟨?_, ?_, ?_, ?_, ?_, ?_, ?_, ?_, ?_, ?_, ?_, ?_, ?_⟩ <;> first | (simp; done) | ((try dsimp only); (repeat' split) <;> simp; done))

@[simp] theorem wardenWrite_keeps (s : State) (off : Nat) (v : W64) :
    (wardenWrite s off v).pending = s.pending ∧ (wardenWrite s off v).gate = s.gate ∧ (wardenWrite s off v).mod = s.mod
      ∧ (wardenWrite s off v).rows = s.rows ∧ (wardenWrite s off v).dumps = s.dumps ∧ (wardenWrite s off v).pvs = s.pvs
      ∧ (wardenWrite s off v).fns = s.fns ∧ (wardenWrite s off v).free = s.free ∧ (wardenWrite s off v).die.hbm = s.die.hbm
      ∧ (wardenWrite s off v).die.oyKey = s.die.oyKey ∧ (wardenWrite s off v).die.slices = s.die.slices
      ∧ (wardenWrite s off v).die.transfers = s.die.transfers ∧ (wardenWrite s off v).die.commit = s.die.commit
      ∧ (wardenWrite s off v).die.barriers = s.die.barriers ∧ (wardenWrite s off v).die.windows = s.die.windows
      ∧ (wardenWrite s off v).die.atTick = s.die.atTick := by
  unfold wardenWrite; first | (simp; done) | ((try dsimp only); (repeat' split) <;> simp; done) | (refine ⟨?_, ?_, ?_, ?_, ?_, ?_, ?_, ?_, ?_, ?_, ?_, ?_, ?_, ?_, ?_, ?_⟩ <;> first | (simp; done) | ((try dsimp only); (repeat' split) <;> simp; done))

@[simp] theorem coreWrite_keeps (s : State) (k off : Nat) (v : W64) :
    (coreWrite s k off v).pending = s.pending ∧ (coreWrite s k off v).gate = s.gate ∧ (coreWrite s k off v).mod = s.mod
      ∧ (coreWrite s k off v).rows = s.rows ∧ (coreWrite s k off v).dumps = s.dumps ∧ (coreWrite s k off v).shed = s.shed
      ∧ (coreWrite s k off v).replay = s.replay ∧ (coreWrite s k off v).reg = s.reg ∧ (coreWrite s k off v).just = s.just
      ∧ (coreWrite s k off v).pvs = s.pvs ∧ (coreWrite s k off v).fns = s.fns ∧ (coreWrite s k off v).out = s.out
      ∧ (coreWrite s k off v).free = s.free ∧ (coreWrite s k off v).sun = s.sun ∧ (coreWrite s k off v).die.hbm = s.die.hbm
      ∧ (coreWrite s k off v).die.oyKey = s.die.oyKey ∧ (coreWrite s k off v).die.slices = s.die.slices
      ∧ (coreWrite s k off v).die.transfers = s.die.transfers ∧ (coreWrite s k off v).die.commit = s.die.commit
      ∧ (coreWrite s k off v).die.barriers = s.die.barriers ∧ (coreWrite s k off v).die.windows = s.die.windows
      ∧ (coreWrite s k off v).die.ctls = s.die.ctls ∧ (coreWrite s k off v).die.ports = s.die.ports
      ∧ (coreWrite s k off v).die.atTick = s.die.atTick := by
  unfold coreWrite; first | (simp; done) | ((try dsimp only); (repeat' split) <;> simp; done) | (refine ⟨?_, ?_, ?_, ?_, ?_, ?_, ?_, ?_, ?_, ?_, ?_, ?_, ?_, ?_, ?_, ?_, ?_, ?_, ?_, ?_, ?_, ?_, ?_, ?_⟩ <;> first | (simp; done) | ((try dsimp only); (repeat' split) <;> simp; done))

@[simp] theorem regWrite_keeps (s : State) (a : Agent) (off : Nat) (v : W64) :
    (regWrite s a off v).pending = s.pending ∧ (regWrite s a off v).gate = s.gate ∧ (regWrite s a off v).mod = s.mod
      ∧ (regWrite s a off v).rows = s.rows ∧ (regWrite s a off v).dumps = s.dumps ∧ (regWrite s a off v).free = s.free
      ∧ (regWrite s a off v).die.hbm = s.die.hbm ∧ (regWrite s a off v).die.oyKey = s.die.oyKey ∧ (regWrite s a off v).die.slices = s.die.slices
      ∧ (regWrite s a off v).die.transfers = s.die.transfers ∧ (regWrite s a off v).die.commit = s.die.commit
      ∧ (regWrite s a off v).die.barriers = s.die.barriers ∧ (regWrite s a off v).die.windows = s.die.windows
      ∧ (regWrite s a off v).die.atTick = s.die.atTick := by
  unfold regWrite; first | (simp; done) | ((try dsimp only); (repeat' split) <;> simp; done) | (refine ⟨?_, ?_, ?_, ?_, ?_, ?_, ?_, ?_, ?_, ?_, ?_, ?_, ?_, ?_⟩ <;> first | (simp; done) | ((try dsimp only); (repeat' split) <;> simp; done))

@[simp] theorem State.withFetchWord_keeps (s : State) (nbits w : Nat) :
    (State.withFetchWord s nbits w).gate = s.gate ∧ (State.withFetchWord s nbits w).mod = s.mod ∧ (State.withFetchWord s nbits w).rows = s.rows
      ∧ (State.withFetchWord s nbits w).dumps = s.dumps ∧ (State.withFetchWord s nbits w).shed = s.shed
      ∧ (State.withFetchWord s nbits w).replay = s.replay ∧ (State.withFetchWord s nbits w).reg = s.reg
      ∧ (State.withFetchWord s nbits w).just = s.just ∧ (State.withFetchWord s nbits w).tiles = s.tiles
      ∧ (State.withFetchWord s nbits w).pvs = s.pvs ∧ (State.withFetchWord s nbits w).fns = s.fns ∧ (State.withFetchWord s nbits w).out = s.out
      ∧ (State.withFetchWord s nbits w).free = s.free ∧ (State.withFetchWord s nbits w).sun = s.sun ∧ (State.withFetchWord s nbits w).die = s.die := by
  unfold State.withFetchWord; first | (simp; done) | ((try dsimp only); (repeat' split) <;> simp; done) | (refine ⟨?_, ?_, ?_, ?_, ?_, ?_, ?_, ?_, ?_, ?_, ?_, ?_, ?_, ?_, ?_⟩ <;> first | (simp; done) | ((try dsimp only); (repeat' split) <;> simp; done))

end Sys2Proof.Machine
end

