-- ==== Sys2Proof/Laws/Memory.lean ====
section
/-!
SUPPORT. Lemmas about runs of bytes in a memory, and about the waits for the ports of a scratchpad.
-/

namespace Sys2Proof.Machine
open Sys2Proof

/-- A clean write over a site changes the replay record alone. -/
theorem siteClean_eq (s : State) (k p lo hi : Nat) : ∃ r, siteClean s k p lo hi = { s with replay := r } := by
  unfold siteClean; split
  · exact ⟨s.replay, rfl⟩
  · exact ⟨_, rfl⟩

theorem siteClean_tile (s : State) (k p lo hi x : Nat) : (siteClean s k p lo hi).tile x = s.tile x := by
  obtain ⟨r, h⟩ := siteClean_eq s k p lo hi; rw [h]; rfl

theorem chkIn_clean (lo hi : Nat) : chkIn .clean lo hi = .clean := rfl

/-- What reading gives in the memory that a list of bytes fills. -/
theorem memOf_rd (a : Nat) (bs : List Byte) (x : Nat) : (memOf a bs).rd x = if a ≤ x then bs.getD (x - a) 0 else 0 := by
  induction bs generalizing a with
  | nil => simp [memOf, Mem.rd, SMap.look, SMap.look?]
  | cons b bs ih =>
    unfold memOf
    split
    · next h => 
      subst h; rw [ih]
      rcases Nat.lt_trichotomy a x with h | h | h
      · have : x - a = (x - (a+1)) + 1 := by omega
        simp [this]; split
        · split
          · rfl
          · omega
        · omega
      · subst h; rw [if_neg (Nat.not_succ_le_self a), if_pos (Nat.le_refl a), Nat.sub_self]; rfl
      · have h1 : ¬ a ≤ x := by omega
        have h2 : ¬ a + 1 ≤ x := by omega
        simp [h1, h2]
    · have : Mem.rd ((a, b) :: memOf (a + 1) bs) x = if a = x then b else (memOf (a+1) bs).rd x := by
        simp [Mem.rd, SMap.look, SMap.look?]; split <;> rfl
      rw [this, ih]
      rcases Nat.lt_trichotomy a x with h | h | h
      · have h3 : x - a = (x - (a+1)) + 1 := by omega
        have h4 : a ≠ x := by omega
        have h5 : a ≤ x := by omega
        have h6 : a + 1 ≤ x := h
        simp [h3, h4, h5, h6]
      · subst h; simp
      · have h1 : ¬ a ≤ x := by omega
        have h2 : ¬ a + 1 ≤ x := by omega
        have h3 : a ≠ x := by omega
        simp [h1, h2, h3]

/-- An element of a list joined from chunks of one length. -/
theorem flatMap_chunk {α : Type} (f : Nat → List α) (w : Nat) (hw : ∀ k, (f k).length = w) (n k j : Nat) (hk : k < n) (hj : j < w) :
    ((List.range n).flatMap f)[w * k + j]? = (f k)[j]? := by
  induction n with
  | zero => omega
  | succ n ih =>
    rw [List.range_succ, List.flatMap_append]
    have hlen : ((List.range n).flatMap f).length = w * n := by
      clear ih hk
      induction n with
      | zero => simp
      | succ n ih => rw [List.range_succ, List.flatMap_append]; simp [ih, hw, Nat.mul_succ]
    by_cases h : k < n
    · rw [List.getElem?_append_left, ih h]
      rw [hlen]
      calc w * k + j < w * k + w := by omega
        _ = w * (k+1) := by rw [Nat.mul_succ]
        _ ≤ w * n := Nat.mul_le_mul_left _ h
    · have : k = n := by omega
      subst this
      rw [List.getElem?_append_right (by omega), hlen]
      simp

theorem flatMap_len {α : Type} (f : Nat → List α) (w : Nat) (hw : ∀ k, (f k).length = w) (n : Nat) : ((List.range n).flatMap f).length = w * n := by
  induction n with
  | zero => simp
  | succ n ih => rw [List.range_succ, List.flatMap_append]; simp [ih, hw, Nat.mul_succ]

theorem leBytes_len (n v : Nat) : (leBytes n v).length = n := by induction n generalizing v with
  | zero => rfl
  | succ n ih => simp [leBytes, ih]

/-- Each chunk of a write joined from chunks reads back as itself. -/
theorem wrN_chunks (m : Mem) (base n w : Nat) (f : Nat → List Byte) (hw : ∀ k, (f k).length = w) (k : Nat) (hk : k < n) :
    Mem.rdN (Mem.wrN m base ((List.range n).flatMap f)) (base + k * w) w = f k := by
  apply List.ext_getElem?
  intro j
  by_cases hj : j < w
  · have hin : w * k + j < ((List.range n).flatMap f).length := by
      rw [flatMap_len f w hw]
      calc w * k + j < w * k + w := by omega
        _ = w * (k+1) := by rw [Nat.mul_succ]
        _ ≤ w * n := Nat.mul_le_mul_left _ hk
    have hr := Mem.rd_wrN_in m base (w * k + j) _ hin
    have hg := flatMap_chunk f w hw n k j hk hj
    rw [List.getElem?_eq_getElem hin] at hg
    simp only [Mem.rdN, List.getElem?_map, List.getElem?_range hj, Option.map_some]
    have : base + k * w + j = base + (w * k + j) := by rw [Nat.mul_comm]; omega
    rw [this, hr, hg]
  · simp [Mem.rdN, hw, hj]

theorem siteClean_full (s : State) (k p : Nat) : siteClean s k p 0 0 = s := by
  unfold siteClean; split
  · rfl
  · have : s.replay.sites.filter (fun x =>
        s.replay.fresh.contains x || !(x.kind == k && x.place == p && decide (0 ≤ x.addr) && decide (x.addr < 0))) = s.replay.sites := by
      simp
    rw [this]

/-- The length of one stored entry of the matrix unit. -/
theorem storeEntry_len (d : Desc) (x : W32) : (storeEntry d x).length = storeRow d / 64 := by
  unfold storeEntry storeRow; split <;> simp [leBytes_len]

/-- A read after a write of a list of bytes: the byte written inside it, the old byte outside it. -/
theorem wrN_rd (m : Mem) (a : Nat) (bs : List Byte) (x : Nat) : (m.wrN a bs).rd x = if a ≤ x ∧ x < a + bs.length then bs.getD (x - a) 0 else m.rd x := by
  by_cases h : a ≤ x ∧ x < a + bs.length
  · rw [if_pos h]
    have := Mem.rd_wrN_in m a (x - a) bs (by omega)
    rw [show a + (x - a) = x by omega] at this
    rw [this]; simp [List.getD, List.getElem?_eq_getElem (show x - a < bs.length by omega)]
  · rw [if_neg h]; exact Mem.rd_wrN_out m a x bs (by omega)

theorem rdN_len (m : Mem) (a n : Nat) : (Mem.rdN m a n).length = n := by simp [Mem.rdN]

theorem rdN_getD (m : Mem) (a n k : Nat) (h : k < n) : (Mem.rdN m a n).getD k 0 = m.rd (a + k) := by
  simp [Mem.rdN, List.getD, h]

theorem leBytes_getD (n v k : Nat) (h : k < n) : (leBytes n v).getD k 0 = BitVec.ofNat 8 (v / 256 ^ k) := by
  induction n generalizing v k with
  | zero => omega
  | succ n ih =>
    cases k with
    | zero => simp [leBytes]
    | succ k =>
      simp only [leBytes, List.getD_cons_succ]
      rw [ih _ _ (by omega), Nat.div_div_eq_div_mul, Nat.pow_succ, Nat.mul_comm]

end Sys2Proof.Machine
end

