-- ==== Sys2Proof/Laws/Mailbox.lean ====
section
/-!
SUPPORT. Lemmas about messages, holds, the Shed, the rings, and the answers of the mailbox.
-/

namespace Sys2Proof.Machine
open Sys2Proof

theorem sendHp_port (s : State) (m : Out) (p : Nat) : ∃ c, (s.sendHp m).port p = { s.port p with ctl := c } := by
  unfold State.sendHp
  split
  · rename_i port c0 c1 h
    split
    · by_cases hp : p = port
      · subst hp; exact ⟨(s.port p).ctl ++ [(c0, c1)], State.port_setPort_same ..⟩
      · exact ⟨(s.port p).ctl, State.port_setPort_ne _ _ hp⟩
    · exact ⟨(s.port p).ctl, rfl⟩
  · exact ⟨(s.port p).ctl, rfl⟩

theorem foldSend_port (l : List Nat) (m : Nat → Out) (s : State) (p : Nat) : ∃ c, (l.foldl (fun s p => s.sendHp (m p)) s).port p = { s.port p with ctl := c } := by
  induction l generalizing s with
  | nil => exact ⟨(s.port p).ctl, rfl⟩
  | cons a l ih =>
    obtain ⟨c, h⟩ := ih (s.sendHp (m a))
    obtain ⟨d, h2⟩ := sendHp_port s (m a) p
    exact ⟨c, by rw [List.foldl_cons, h, h2]⟩

/-- A message sent through every port of the machine changes only what the ports hold of control words. -/
theorem flood_port (s : State) (ex : Option Nat) (m : Nat → Out) (p : Nat) : ∃ c, (s.flood ex m).port p = { s.port p with ctl := c } := foldSend_port ..

theorem requestHold_port (s : State) (k src p : Nat) : ∃ c, (requestHold s k src).port p = { s.port p with ctl := c } := by
  unfold requestHold
  obtain ⟨c, h⟩ := flood_port (joinHold _ _) none _ p
  refine ⟨c, h.trans ?_⟩
  have : ∀ (a b : State), a.die = b.die → a.port p = b.port p := fun a b h => by unfold State.port; rw [h]
  rw [this _ s]
  simp

/-- What a hold request of the SCHED kind does to Sundial when none stands. -/
theorem requestHold_sched (s : State) (p : Nat) (hf : s.sun.freeze = none) :
   (requestHold s kindSched p).sun = { s.sun with nextSeq := (s.sun.nextSeq + 1) % 65536, freeze := some (s.sun.ctr + 6), holds := [⟨s.index, s.sun.nextSeq, kindSched, p, s.sun.tick + 2, none, false⟩] } := by
  unfold requestHold; simp [kindSched, kindSkew, kindOverrun, joinHold, hf]

theorem requestHold_sched_reg (s : State) (p : Nat) : (requestHold s kindSched p).reg = s.reg := by
  unfold requestHold; simp [kindSched, kindSkew, kindOverrun]

theorem rd_off (s : State) (g : Fld) (v : Nat) (f : Fld) (h : f.off ≠ g.off) : (s.wr g v).rd f = s.rd f := State.rd_wr_off s v h

theorem rd_reg {s t : State} (h : s.reg = t.reg) (f : Fld) : s.rd f = t.rd f := by unfold State.rd State.regW; rw [h]

/-- A Shed write leaves every register but SH_STATUS alone. -/
theorem shedPut_rd (s : State) (n : Nat) (v : W64) (fn : Option Nat) (f : Fld) (hf : f.off ≠ SH_STATUS_OFF) : (shedPut s n v fn).rd f = s.rd f := by
  unfold shedPut
  split
  · exact rd_off _ _ _ _ hf
  · apply rd_reg; dsimp only; split
    · unfold shedBegin; split <;> rfl
    · rfl

theorem summary_rd (s : State) (k p c : Nat) (f : Fld) (hf : f.off ≠ SH_STATUS_OFF) : (summary s k p c).rd f = s.rd f := by
  unfold summary
  extract_lets r
  split
  · exact rd_off _ _ _ _ hf
  · exact shedPut_rd _ _ _ _ _ hf

@[simp] theorem emit_pv (s : State) (o : Out) (q : Nat) : (s.emit o).pv q = s.pv q := rfl

@[simp] theorem emit_fn (s : State) (o : Out) (q : Nat) : (s.emit o).fn q = s.fn q := rfl

@[simp] theorem emit_tile (s : State) (o : Out) (q : Nat) : (s.emit o).tile q = s.tile q := rfl

@[simp] theorem setFn_pv (s : State) (n : Nat) (m : Fn) (q : Nat) : (s.setFn n m).pv q = s.pv q := rfl

@[simp] theorem setReg_pv (s : State) (n : Nat) (v : W64) (q : Nat) : (s.setReg n v).pv q = s.pv q := rfl

@[simp] theorem setPv_fn (s : State) (n : Nat) (m : Pv) (q : Nat) : (s.setPv n m).fn q = s.fn q := rfl

theorem pv_of {a b : State} (h : a.pvs = b.pvs) (q : Nat) : a.pv q = b.pv q := by unfold State.pv; rw [h]

theorem fn_of {a b : State} (h : a.fns = b.fns) (q : Nat) : a.fn q = b.fn q := by unfold State.fn; rw [h]

theorem tile_of {a b : State} (h : a.tiles = b.tiles) (q : Nat) : a.tile q = b.tile q := by unfold State.tile; rw [h]

@[simp] theorem raiseVec_pv (s : State) (n v q : Nat) : (raiseVec s n v).pv q = s.pv q := pv_of (by simp) q

@[simp] theorem setEvent_pv (s : State) (n v q : Nat) : (setEvent s n v).pv q = s.pv q := pv_of (by simp) q

/-- Raising a vector changes the pending vectors of its function alone. -/
theorem raiseVec_fn (s : State) (n v : Nat) : ∃ l, (raiseVec s n v).fn n = { s.fn n with pendingVec := l } := by
  unfold raiseVec; extract_lets m; split
  · split
    · exact ⟨_, rfl⟩
    · exact ⟨m.pendingVec ++ [v], by simp [State.fn, State.setFn, m]⟩
  · exact ⟨_, rfl⟩

theorem raiseVec_fn_ne (s : State) (n v k : Nat) (h : k ≠ n) : (raiseVec s n v).fn k = s.fn k := by
  unfold raiseVec; extract_lets m; split
  · split
    · rfl
    · simp [State.fn_setFn_ne _ _ h]
  · rfl

theorem Fn.rd_wr_same' (m : Fn) (f : Fld) (v : Nat) (h : f.lo ≤ f.hi) (h2 : f.hi < 64) : (m.wr f v).rd f = v % 2 ^ (f.hi + 1 - f.lo) := by
  unfold Fn.rd Fn.wr Fn.setReg Fn.regW
  simp [bits_setBits_same, h, h2]

theorem setEvent_rd (s : State) (n : Nat) : ((setEvent s n 4).fn n).rd MB_EVENT_RING_ERROR = 1 := by
  unfold setEvent; extract_lets m m1
  obtain ⟨l, h⟩ := raiseVec_fn (s.setFn n m1) n 0
  rw [h]
  simp +decide (disch := decide) [m1, Fn.raise, State.setFn, State.fn, Fn.rd, Fn.wr, Fn.setReg, Fn.regW, eventField, eventCount, SMap.look_put, bits_setBits_same, MB_EVENT_RING_ERROR]

theorem raiseVec_out (s : State) (n v : Nat) : ∃ l, (raiseVec s n v).out = s.out ++ l := by
  unfold raiseVec; extract_lets m; split
  · split <;> exact ⟨[], by simp [State.setFn]⟩
  · exact ⟨_, rfl⟩

/-- What a completion written to a ring leaves: the ring moved on by one, the record in the outbox. -/
theorem ringWrite_facts (s : State) (q : Nat) (r : Rings) (ws : List W64) : ((ringWrite s q r ws).pv q).front = { (s.pv q).front with rings := some { r with cplPi := r.cplPi + 1 } } ∧ ((ringWrite s q r ws).pv q).run = (s.pv q).run
   ∧ .hostWrite r.fn (r.cplBase + 64 * (r.cplPi.toNat % 2 ^ r.cplN)) (stamped s ws) ∈ (ringWrite s q r ws).out ∧ (∀ o ∈ s.out, o ∈ (ringWrite s q r ws).out) := by
  unfold ringWrite; extract_lets a r1 s1
  obtain ⟨l, h⟩ := raiseVec_out s1 r.fn r.vector
  refine ⟨?_, ?_, ?_, ?_⟩
  · simp [s1, State.modFront, r1]; exact ⟨rfl, rfl, rfl, rfl, rfl, rfl, rfl, rfl, rfl, rfl, rfl⟩
  · simp [s1, State.modFront]
  · rw [h]; simp [s1, State.modFront, a, State.emit]
  · intro o ho; rw [h]; simp [s1, State.modFront, State.emit]; exact Or.inl ho

theorem stamped_ringWrite (s : State) (q : Nat) (r : Rings) (ws x : List W64) (f) : stamped ((ringWrite s q r ws).modFront q f) x = stamped s x := by
  have : ((ringWrite s q r ws).modFront q f).reg = s.reg := by simp [State.modFront]
  unfold stamped; rw [rd_reg this]; unfold State.frame; rw [rd_reg this]

/-- A command that was submitted and picked runs its body. -/
theorem serve_ok {s : State} {f : Func} {op : Nat} {cmd : W64} {a : SMap W64} (h : Submitted s f op cmd a) (body : W64 → SMap W64 → State) (pick : SMap W64 → Bool) (hp : pick a = true) :
    serve s f op pick body = body cmd a := by
  obtain ⟨h1, h2, h3, h4, h5⟩ := h
  simp [serve, h2, h3, h4, h5, hp]

/-- A pavilion command whose checks pass runs its body. -/
theorem servePv_ok {s : State} {f : Func} {op : Nat} {cmd : W64} {a : SMap W64} (h : Submitted s f op cmd a) {q : Nat} (hn : namedPv s f cmd = some q) (pick : SMap W64 → Bool) (hp : pick a = true)
   (masks bad states body) (hf : faulty a masks (bad q a) = none) (hst : (s.pv q).run.st ∈ states) : servePavilion s f op pick masks bad states body = body q a := by
  unfold servePavilion; rw [serve_ok h _ _ hp]; simp [hn, hf, hst]

/-- A module command whose checks pass runs its body. -/
theorem serveMod_ok {s : State} {f : Func} {op : Nat} {cmd : W64} {a : SMap W64} (h : Submitted s f op cmd a) (pick : SMap W64 → Bool) (hp : pick a = true)
   (masks bad cond body) (hf : faulty a masks (bad a) = none) (hc : cond = true) : serveModule s f op pick masks bad cond body = body a := by
  unfold serveModule; rw [serve_ok h _ _ hp]; simp [hf, hc]

/-- A module command with a bad argument word is answered BAD_ARGUMENT with that word. -/
theorem serveMod_bad {s : State} {f : Func} {op : Nat} {cmd : W64} {a : SMap W64} (h : Submitted s f op cmd a) (pick : SMap W64 → Bool) (hp : pick a = true)
   (masks bad cond body w) (hf : faulty a masks (bad a) = some w) : serveModule s f op pick masks bad cond body = answerFail s (fnNum f) stBadArgument w := by
  unfold serveModule; rw [serve_ok h _ _ hp]; simp [hf]

theorem foldRes (res : List W64) : ∀ (k : Nat) (m : Fn), ((List.range k).foldl (fun (m : Fn) w => m.setReg (MB_RES_OFF w) (res.getD w 0)) m) = { m with reg := ((List.range k).foldl (fun (r : SMap W64) w => SMap.put r (MB_RES_OFF w) (res.getD w 0)) m.reg) } := by
  intro k; induction k with
  | zero => intro m; rfl
  | succ k ih => intro m; rw [List.range_succ, List.foldl_append, List.foldl_append, ih]; rfl

theorem foldRes_look (res : List W64) (r : SMap W64) (d : W64) : ∀ (k x : Nat), SMap.look ((List.range k).foldl (fun (r : SMap W64) w => SMap.put r (MB_RES_OFF w) (res.getD w 0)) r) x d = if MB_RES_OFF 0 ≤ x ∧ x < MB_RES_OFF k ∧ (x - MB_RES_OFF 0) % 8 = 0 then res.getD ((x - MB_RES_OFF 0) / 8) 0 else SMap.look r x d := by
  intro k; induction k with
  | zero => intro x; simp [MB_RES_OFF]; intro h1 h2; omega
  | succ k ih =>
    intro x; rw [List.range_succ, List.foldl_append]; simp only [List.foldl_cons, List.foldl_nil]
    rw [SMap.look_put, ih]
    unfold MB_RES_OFF
    by_cases h : x = 0x200 + 8 * k
    · subst h; rw [if_pos rfl, if_pos (by omega)]; congr 1; omega
    · rw [if_neg h]
      by_cases h2 : 512 + 8 * 0 ≤ x ∧ x < 0x200 + 8 * k ∧ (x - (512 + 8*0)) % 8 = 0
      · rw [if_pos h2, if_pos (by omega)]
      · rw [if_neg h2, if_neg (by omega)]

/-- What an answer leaves in the mailbox: the fields of MB_STATUS, the result words, and nothing of the rest. -/
theorem answer_eq {s : State} {n : Nat} {cmd : W64} {a : SMap W64} (h : (s.fn n).latched = some (cmd, a)) (status detail ticket : Nat) (res : List W64) :
  ∃ m : Fn, answer s n status detail ticket res = raiseVec (s.setFn n m) n 0 ∧ m.latched = none ∧ m.async = (s.fn n).async ∧ m.flights = (s.fn n).flights ∧ m.msix = (s.fn n).msix ∧ m.pendingVec = (s.fn n).pendingVec
   ∧ m.nextTicket = (s.fn n).nextTicket ∧ m.vfEnable = (s.fn n).vfEnable
   ∧ m.rd MB_STATUS_STATUS = status % 256 ∧ m.rd MB_STATUS_DETAIL = detail % 65536 ∧ m.rd MB_STATUS_TICKET = ticket % 256 ∧ m.rd MB_STATUS_TOKEN = bits cmd 31 16 ∧ m.rd MB_STATUS_DONE = 1 ∧ m.rd MB_STATUS_BUSY = 0
   ∧ (∀ w, w < res.length → m.regW (MB_RES_OFF w) = res.getD w 0) := by
  unfold answer; simp only [h]
  refine ⟨_, rfl, rfl, ?_⟩
  rw [foldRes]
  refine ⟨rfl, rfl, rfl, rfl, rfl, rfl, ?_, ?_, ?_, ?_, ?_, ?_, ?_⟩
  case refine_7 =>
    intro w hw; unfold Fn.regW Fn.raise Fn.wr Fn.setReg; dsimp only; rw [SMap.look_put, if_neg (by simp [MB_STATUS_DONE, MB_STATUS_OFF, MB_RES_OFF]; omega), SMap.look_put, if_neg (by simp [MB_STATUS_OFF, MB_RES_OFF]; omega), foldRes_look, if_pos (by simp [MB_RES_OFF]; omega)]
    simp [MB_RES_OFF]
  all_goals simp +decide [Fn.raise, Fn.wr, Fn.rd, Fn.regW, Fn.setReg, packed, bits_setBits_same, bits_setBits_ne, MB_STATUS_STATUS, MB_STATUS_DETAIL, MB_STATUS_TICKET, MB_STATUS_TOKEN, MB_STATUS_DONE, MB_STATUS_BUSY]
  · unfold bits; omega

end Sys2Proof.Machine
end

