-- ==== Sys2Proof/Laws/Holds.lean ====
section
/-!
SUPPORT. Lemmas about the messages of the hold root, and about the releases and records of holds.
-/

namespace Sys2Proof.Machine
open Sys2Proof

/-- The newest copy stays in the list of copies seen. -/
theorem newest_seen (l : List (Nat × Nat × Nat)) (x) : x ∈ (l ++ [x]).drop ((l ++ [x]).length - 4096) := by
  rw [List.drop_append]
  have : (l ++ [x]).length - 4096 - l.length = 0 := by simp
  rw [this]; simp

/-- Whether a port carries traffic depends on the registers, the mailboxes and the port's mark of a link that left UP. -/
theorem portCarries_congr {s t : State} {p : Nat} (hr : s.reg = t.reg) (hf : s.fns = t.fns) (hc : (s.port p).cut = (t.port p).cut) :
    portCarries s p = portCarries t p := by
  unfold portCarries testPattern aligning
  rw [rd_reg hr, rd_reg hr, hf, hc]

/-- A hold message changes nothing that a port's traffic depends on. -/
theorem sendHp_carries (s : State) (m : Out) (p : Nat) : portCarries (s.sendHp m) p = portCarries s p := by
  obtain ⟨c, h⟩ := sendHp_port s m p
  exact portCarries_congr (by simp) (by simp) (by rw [h])

/-- A hold message that leaves on port `p` shows in the outbox if the port carries traffic. -/
theorem sendHp_out {s : State} {m : Out} {p : Nat} {c : W64 × W64} (h : hpWords s.index (ctlNumber s 5) m = some (p, c.1, c.2)) :
    (s.sendHp m).out = s.out ++ (if portCarries s p then [m] else []) := by
  unfold State.sendHp; rw [h]; dsimp only; split <;> simp [State.emit]

/-- Hold messages show in the outbox in order, on the ports that carry traffic. -/
theorem foldSend_out (l : List Nat) (m : Nat → Out) (s : State) (h : ∀ index time p, ∃ c : W64 × W64, hpWords index time (m p) = some (p, c.1, c.2)) :
    (l.foldl (fun s p => s.sendHp (m p)) s).out = s.out ++ (l.filter (portCarries s)).map m := by
  induction l generalizing s with
  | nil => simp
  | cons a l ih =>
    obtain ⟨c, hc⟩ := h s.index (ctlNumber s 5) a
    have hf : portCarries (s.sendHp (m a)) = portCarries s := funext (sendHp_carries s (m a))
    rw [List.foldl_cons, ih, sendHp_out hc, hf, List.append_assoc, List.filter_cons]
    split <;> simp

/-- A flooded message shows once for each port of the machine, but one, that carries traffic. -/
theorem flood_out (s : State) (e) (m : Nat → Out) (h : ∀ index time p, ∃ c : W64 × W64, hpWords index time (m p) = some (p, c.1, c.2)) :
    (s.flood e m).out = s.out ++ ((s.machinePorts.filter (fun p => some p != e)).filter (portCarries s)).map m := foldSend_out _ _ _ h

/-- The ports of the machine depend on their IN_MACHINE bits alone. -/
theorem machinePorts_congr {s t : State} (h : ∀ p, s.rd (FB_CTRL_IN_MACHINE p) = t.rd (FB_CTRL_IN_MACHINE p)) : s.machinePorts = t.machinePorts := by
  unfold State.machinePorts; simp [h]

/-- The record of a hold changes two registers alone. -/
theorem recordHold_facts (s : State) (h : Hold) (a b : Nat) : (recordHold s h a b).sun = s.sun ∧ (recordHold s h a b).tiles = s.tiles ∧ (recordHold s h a b).pvs = s.pvs ∧ (recordHold s h a b).fns = s.fns ∧ (recordHold s h a b).out = s.out
   ∧ ∀ p, (recordHold s h a b).rd (FB_CTRL_IN_MACHINE p) = s.rd (FB_CTRL_IN_MACHINE p) := by
  refine ⟨rfl, rfl, rfl, rfl, rfl, ?_⟩
  intro p; unfold recordHold State.inc
  dsimp only
  repeat (rw [State.rd_wr_off _ _ (by simp [FB_CTRL_IN_MACHINE, SD_HOLD_COUNT_HOLDS, SD_LAST_HOLD_LENGTH, SD_LAST_HOLD_REMOTE, SD_LAST_HOLD_KIND, SD_LAST_HOLD_SOURCE, SD_LAST_HOLD_CYCLE, FB_CTRL_OFF, SD_HOLD_COUNT_OFF, SD_LAST_HOLD_OFF]; try omega)])

/-- The records of a stand change two registers and the marks of the holds recorded. -/
theorem recordUpTo_facts (now_ n : Nat) (s : State) : (recordUpTo now_ n s).tiles = s.tiles ∧ (recordUpTo now_ n s).pvs = s.pvs ∧ (recordUpTo now_ n s).fns = s.fns
   ∧ (recordUpTo now_ n s).out = s.out ∧ ∀ p, (recordUpTo now_ n s).rd (FB_CTRL_IN_MACHINE p) = s.rd (FB_CTRL_IN_MACHINE p) := by
  induction n generalizing s with
  | zero => exact ⟨rfl, rfl, rfl, rfl, fun _ => rfl⟩
  | succ n ih =>
    unfold recordUpTo; split
    · exact ⟨rfl, rfl, rfl, rfl, fun _ => rfl⟩
    · rename_i h _
      obtain ⟨k1, k2, k3, k4, k5, k6⟩ := recordHold_facts s h (holdLength s.sun h) (s.sun.freeze.getD 0)
      obtain ⟨h1, h2, h3, h4, h5⟩ := ih { recordHold s h (holdLength s.sun h) (s.sun.freeze.getD 0) with sun := { (recordHold s h (holdLength s.sun h) (s.sun.freeze.getD 0)).sun with holds := (recordHold s h (holdLength s.sun h) (s.sun.freeze.getD 0)).sun.holds.map (fun x => if x.origin = h.origin ∧ x.seq = h.seq then { x with recorded := true } else x) } }
      exact ⟨h1.trans k2, h2.trans k3, h3.trans k4, h4.trans k5, fun p => (h5 p).trans (k6 p)⟩

/-- A release marks its hold and leaves tiles, pavilions, functions and the outbox alone. -/
theorem releaseHold_facts (s : State) (o q r : Nat) : (∀ x ∈ (releaseHold s o q r).sun.holds, x.origin = o → x.seq = q → x.relAt ≠ none) ∧ (releaseHold s o q r).tiles = s.tiles ∧ (releaseHold s o q r).pvs = s.pvs ∧ (releaseHold s o q r).fns = s.fns ∧ (releaseHold s o q r).out = s.out
   ∧ (∀ p, (releaseHold s o q r).rd (FB_CTRL_IN_MACHINE p) = s.rd (FB_CTRL_IN_MACHINE p)) := by
  refine ⟨?_, rfl, rfl, rfl, rfl, fun _ => rfl⟩
  intro x hx ho hq hr
  simp only [releaseHold, List.mem_map] at hx
  obtain ⟨y, hy, he⟩ := hx
  split at he
  · rw [← he] at hr; cases hr
  · next hn => subst he; exact hn ⟨ho, hq, hr⟩

end Sys2Proof.Machine
end

