-- ==== Sys2Proof/Laws/Larger.lean ====
section
/-!
SUPPORT. What the larger operations leave alone of the queue, the Gatehouse and the module hardware: a command that is answered, a tick, a replay, a load.
-/

namespace Sys2Proof.Machine
open Sys2Proof

set_option Elab.async false
set_option linter.all false

/-- A command keeps what its body keeps. -/
theorem serve_keep {β : Type} (g : State → β) {s : State} {f : Func} {op : Nat} {pick : SMap W64 → Bool} {body : W64 → SMap W64 → State}
    (h : ∀ c a, g (body c a) = g s) : g (serve s f op pick body) = g s := by
  unfold serve; split
  · rfl
  · split
    · exact h _ _
    · rfl

/-- A module command keeps what its body and an answer keep. -/
theorem serveModule_keep {β : Type} (g : State → β) {s : State} {f : Func} {op : Nat} {pick : SMap W64 → Bool} {masks : List Nat}
    {bad : SMap W64 → Nat → Bool} {cond : Bool} {body : SMap W64 → State} (ha : ∀ n c d, g (answerFail s n c d) = g s)
    (h : ∀ a, g (body a) = g s) : g (serveModule s f op pick masks bad cond body) = g s := by
  unfold serveModule; refine serve_keep g ?_; intro c a; split
  · exact ha ..
  · split
    · exact h _
    · exact ha ..

/-- A pavilion command keeps what its body and an answer keep. -/
theorem servePavilion_keep {β : Type} (g : State → β) {s : State} {f : Func} {op : Nat} {pick : SMap W64 → Bool} {masks : List Nat}
    {bad : Nat → SMap W64 → Nat → Bool} {states : List Nat} {body : Nat → SMap W64 → State} (ha : ∀ n c d, g (answerFail s n c d) = g s)
    (h : ∀ q a, g (body q a) = g s) : g (servePavilion s f op pick masks bad states body) = g s := by
  unfold servePavilion; refine serve_keep g ?_; intro c a; split
  · exact ha ..
  · split
    · exact ha ..
    · split
      · exact h _ _
      · exact ha ..

/-- A fold over a pair keeps of its state what each step keeps. -/
theorem foldl_fst_keep {α γ β : Type} (g : State → β) (f : State × γ → α → State × γ) (h : ∀ s x, g (f s x).1 = g s.1) (l : List α) (s : State × γ) :
    g (l.foldl f s).1 = g s.1 := by
  induction l generalizing s with
  | nil => rfl
  | cons x l ih => rw [List.foldl_cons, ih, h]

/-- A fold from the right keeps what each step keeps. -/
theorem foldr_keep {α β : Type} (g : State → β) (f : α → State → State) (h : ∀ s x, g (f x s) = g s) (l : List α) (s : State) : g (l.foldr f s) = g s := by
  induction l with
  | nil => rfl
  | cons x l ih => rw [List.foldr_cons, h, ih]

@[simp] theorem foldr_keeps_pending {α : Type} (f : α → State → State) (h : ∀ s x, (f x s).pending = s.pending) (l : List α) (s : State) :
    (l.foldr f s).pending = s.pending := foldr_keep State.pending f h l s

@[simp] theorem serve_keeps_pending (s : State) (f : Func) (op : Nat) (pick : SMap W64 → Bool) (body : W64 → SMap W64 → State)
    (h : ∀ c a, (body c a).pending = s.pending) : (serve s f op pick body).pending = s.pending := serve_keep State.pending h

@[simp] theorem serveModule_keeps_pending (s : State) (f : Func) (op : Nat) (pick : SMap W64 → Bool) (masks : List Nat) (bad : SMap W64 → Nat → Bool)
    (cond : Bool) (body : SMap W64 → State) (h : ∀ a, (body a).pending = s.pending) : (serveModule s f op pick masks bad cond body).pending = s.pending :=
  serveModule_keep State.pending (by simp) h

@[simp] theorem servePavilion_keeps_pending (s : State) (f : Func) (op : Nat) (pick : SMap W64 → Bool) (masks : List Nat)
    (bad : Nat → SMap W64 → Nat → Bool) (states : List Nat) (body : Nat → SMap W64 → State) (h : ∀ q a, (body q a).pending = s.pending) :
    (servePavilion s f op pick masks bad states body).pending = s.pending := servePavilion_keep State.pending (by simp) h

@[simp] theorem foldl_fst_keeps_pending {α γ : Type} (f : State × γ → α → State × γ) (h : ∀ s x, (f s x).1.pending = s.1.pending) (l : List α) (s : State × γ) :
    (l.foldl f s).1.pending = s.1.pending := foldl_fst_keep State.pending f h l s

@[simp] theorem foldr_keeps_gate {α : Type} (f : α → State → State) (h : ∀ s x, (f x s).gate = s.gate) (l : List α) (s : State) :
    (l.foldr f s).gate = s.gate := foldr_keep State.gate f h l s

@[simp] theorem serve_keeps_gate (s : State) (f : Func) (op : Nat) (pick : SMap W64 → Bool) (body : W64 → SMap W64 → State)
    (h : ∀ c a, (body c a).gate = s.gate) : (serve s f op pick body).gate = s.gate := serve_keep State.gate h

@[simp] theorem serveModule_keeps_gate (s : State) (f : Func) (op : Nat) (pick : SMap W64 → Bool) (masks : List Nat) (bad : SMap W64 → Nat → Bool)
    (cond : Bool) (body : SMap W64 → State) (h : ∀ a, (body a).gate = s.gate) : (serveModule s f op pick masks bad cond body).gate = s.gate :=
  serveModule_keep State.gate (by simp) h

@[simp] theorem servePavilion_keeps_gate (s : State) (f : Func) (op : Nat) (pick : SMap W64 → Bool) (masks : List Nat)
    (bad : Nat → SMap W64 → Nat → Bool) (states : List Nat) (body : Nat → SMap W64 → State) (h : ∀ q a, (body q a).gate = s.gate) :
    (servePavilion s f op pick masks bad states body).gate = s.gate := servePavilion_keep State.gate (by simp) h

@[simp] theorem foldl_fst_keeps_gate {α γ : Type} (f : State × γ → α → State × γ) (h : ∀ s x, (f s x).1.gate = s.1.gate) (l : List α) (s : State × γ) :
    (l.foldl f s).1.gate = s.1.gate := foldl_fst_keep State.gate f h l s

@[simp] theorem foldr_keeps_mod {α : Type} (f : α → State → State) (h : ∀ s x, (f x s).mod = s.mod) (l : List α) (s : State) :
    (l.foldr f s).mod = s.mod := foldr_keep State.mod f h l s

@[simp] theorem serve_keeps_mod (s : State) (f : Func) (op : Nat) (pick : SMap W64 → Bool) (body : W64 → SMap W64 → State)
    (h : ∀ c a, (body c a).mod = s.mod) : (serve s f op pick body).mod = s.mod := serve_keep State.mod h

@[simp] theorem serveModule_keeps_mod (s : State) (f : Func) (op : Nat) (pick : SMap W64 → Bool) (masks : List Nat) (bad : SMap W64 → Nat → Bool)
    (cond : Bool) (body : SMap W64 → State) (h : ∀ a, (body a).mod = s.mod) : (serveModule s f op pick masks bad cond body).mod = s.mod :=
  serveModule_keep State.mod (by simp) h

@[simp] theorem servePavilion_keeps_mod (s : State) (f : Func) (op : Nat) (pick : SMap W64 → Bool) (masks : List Nat)
    (bad : Nat → SMap W64 → Nat → Bool) (states : List Nat) (body : Nat → SMap W64 → State) (h : ∀ q a, (body q a).mod = s.mod) :
    (servePavilion s f op pick masks bad states body).mod = s.mod := servePavilion_keep State.mod (by simp) h

@[simp] theorem foldl_fst_keeps_mod {α γ : Type} (f : State × γ → α → State × γ) (h : ∀ s x, (f s x).1.mod = s.1.mod) (l : List α) (s : State × γ) :
    (l.foldl f s).1.mod = s.1.mod := foldl_fst_keep State.mod f h l s

@[simp] theorem recordUpTo_front (now_ n : Nat) (s : State) :
    (recordUpTo now_ n s).pending = s.pending ∧ (recordUpTo now_ n s).gate = s.gate ∧ (recordUpTo now_ n s).mod = s.mod := by
  induction n generalizing s with
  | zero => simp [recordUpTo]
  | succ n ih => unfold recordUpTo; split <;> simp [ih]

@[simp] theorem recordDue_front (s : State) (now_ : Nat) :
    (recordDue s now_).pending = s.pending ∧ (recordDue s now_).gate = s.gate ∧ (recordDue s now_).mod = s.mod := by
  unfold recordDue; simp

@[simp] theorem scanVals_front (d : Deliv) (s : State) (n : Nat) (l : List W32) :
    (scanVals d s n l).pending = s.pending ∧ (scanVals d s n l).gate = s.gate ∧ (scanVals d s n l).mod = s.mod := by
  induction l generalizing s n with
  | nil => simp [scanVals]
  | cons x l ih => simp [scanVals, ih]

@[simp] theorem scanList_front (skip : State → Deliv → Bool) (s : State) (n : Nat) (a b : List Deliv) :
    (scanList skip s n a b).pending = s.pending ∧ (scanList skip s n a b).gate = s.gate ∧ (scanList skip s n a b).mod = s.mod := by
  induction b generalizing s n a with
  | nil => simp [scanList]
  | cons d ds ih =>
    unfold scanList
    split
    · exact ih ..
    · simp [ih]

@[simp] theorem scanRest_front (s : State) (slot : Nat) (draft : Bool) :
    (scanRest s slot draft).pending = s.pending ∧ (scanRest s slot draft).gate = s.gate ∧ (scanRest s slot draft).mod = s.mod := by
  unfold scanRest; simp

@[simp] theorem collide_front (s : State) (slots : List Slot) :
    (collide s slots).pending = s.pending ∧ (collide s slots).gate = s.gate ∧ (collide s slots).mod = s.mod := by
  unfold collide; simp

@[simp] theorem meshCycle_front (s : State) :
    (meshCycle s).pending = s.pending ∧ (meshCycle s).gate = s.gate ∧ (meshCycle s).mod = s.mod := by
  unfold meshCycle; simp

@[simp] theorem sendCredits_front (port low n count : Nat) (s : State) :
    (sendCredits port low n count s).pending = s.pending ∧ (sendCredits port low n count s).gate = s.gate ∧ (sendCredits port low n count s).mod = s.mod := by
  induction n generalizing s count with
  | zero => simp [sendCredits]
  | succ n ih => unfold sendCredits; split <;> simp [ih]

@[simp] theorem returnCredits_front (s : State) (p t n count : Nat) :
    (returnCredits s p t n count).pending = s.pending ∧ (returnCredits s p t n count).gate = s.gate ∧ (returnCredits s p t n count).mod = s.mod := by
  unfold returnCredits; (try dsimp only); (repeat' split) <;> simp

@[simp] theorem endHandler_front (s : State) (p t : Nat) (h : HandlerRun) :
    (endHandler s p t h).pending = s.pending ∧ (endHandler s p t h).gate = s.gate ∧ (endHandler s p t h).mod = s.mod := by
  unfold endHandler; simp

@[simp] theorem issueLink_front (s : State) (p t : Nat) (handler : Bool) (addr : Nat) (d : Desc) :
    (issueLink s p t handler addr d).pending = s.pending ∧ (issueLink s p t handler addr d).gate = s.gate ∧ (issueLink s p t handler addr d).mod = s.mod := by
  unfold issueLink; (try dsimp only); (repeat' split) <;> simp

@[simp] theorem issueHead_front (s : State) (p t : Nat) (handler : Bool) (addr : Nat) (d : Desc) :
    (issueHead s p t handler addr d).pending = s.pending ∧ (issueHead s p t handler addr d).gate = s.gate ∧ (issueHead s p t handler addr d).mod = s.mod := by
  unfold issueHead; simp

@[simp] theorem runHandler_front (s : State) (p t : Nat) (turn : MainTurn) :
    (runHandler s p t turn).pending = s.pending ∧ (runHandler s p t turn).gate = s.gate ∧ (runHandler s p t turn).mod = s.mod := by
  unfold runHandler; (try dsimp only); (repeat' split) <;> simp

@[simp] theorem issueTurn_front (s : State) (p t : Nat) (main handler : MainTurn) :
    (issueTurn s p t main handler).pending = s.pending ∧ (issueTurn s p t main handler).gate = s.gate ∧ (issueTurn s p t main handler).mod = s.mod := by
  unfold issueTurn; (try dsimp only); (repeat' split) <;> simp

@[simp] theorem issueStep_front (s : State) (t : Nat) (chk : Check) :
    (issueStep s t chk).pending = s.pending ∧ (issueStep s t chk).gate = s.gate ∧ (issueStep s t chk).mod = s.mod := by
  unfold issueStep; simp

@[simp] theorem linkStep_front (s : State) (t : Nat) (handler : Bool) (variant : Nat) :
    (linkStep s t handler variant).pending = s.pending ∧ (linkStep s t handler variant).gate = s.gate ∧ (linkStep s t handler variant).mod = s.mod := by
  unfold linkStep; (try dsimp only); (repeat' split) <;> simp

@[simp] theorem readParts_front (s : State) (p port : Nat) (chk : Check) (l : List (Nat × Nat)) :
    ((readParts s p port chk l).1).pending = s.pending ∧ ((readParts s p port chk l).1).gate = s.gate ∧ ((readParts s p port chk l).1).mod = s.mod := by
  induction l generalizing s with
  | nil => simp [readParts]
  | cons x l ih => simp [readParts, ih]

@[simp] theorem writeParts_front (s : State) (p cls : Nat) (l : List (Nat × Nat)) (b : List Byte) :
    (writeParts s p cls l b).pending = s.pending ∧ (writeParts s p cls l b).gate = s.gate ∧ (writeParts s p cls l b).mod = s.mod := by
  induction l generalizing s b with
  | nil => simp [writeParts]
  | cons x l ih => simp [writeParts, ih]

@[simp] theorem spRead_front (s : State) (p i : Nat) (e : WinEntry) :
    (spRead s p i e).pending = s.pending ∧ (spRead s p i e).gate = s.gate ∧ (spRead s p i e).mod = s.mod := by
  unfold spRead; simp

@[simp] theorem spStore_front (s : State) (p i : Nat) (e : WinEntry) :
    (spStore s p i e).pending = s.pending ∧ (spStore s p i e).gate = s.gate ∧ (spStore s p i e).mod = s.mod := by
  unfold spStore; simp

@[simp] theorem creditStep_front (s : State) (t : Nat) :
    (creditStep s t).pending = s.pending ∧ (creditStep s t).gate = s.gate ∧ (creditStep s t).mod = s.mod := by
  unfold creditStep; (try dsimp only); (repeat' split) <;> simp

@[simp] theorem stageUnits_front (x : Slice) (n u : Nat) (b : List Byte) (s : State) :
    (stageUnits x n u b s).pending = s.pending ∧ (stageUnits x n u b s).gate = s.gate ∧ (stageUnits x n u b s).mod = s.mod := by
  induction n generalizing s u b with
  | zero => simp [stageUnits]
  | succ n ih => simp [stageUnits, ih]

@[simp] theorem flushStore_front (q n : Nat) (s : State) :
    (flushStore q n s).pending = s.pending ∧ (flushStore q n s).gate = s.gate ∧ (flushStore q n s).mod = s.mod := by
  induction n generalizing s with
  | zero => simp [flushStore]
  | succ n ih =>
    unfold flushStore
    dsimp only
    split
    · split <;> simp [ih]
    · simp

@[simp] theorem placeLodge_front (s : State) (i : Image) (k : Nat) :
    (placeLodge s i k).pending = s.pending ∧ (placeLodge s i k).gate = s.gate ∧ (placeLodge s i k).mod = s.mod := by
  unfold placeLodge; refine ⟨?_, ?_, ?_⟩ <;> (intros; first | apply loadWith_keep State.pending | apply loadWith_keep State.gate | apply loadWith_keep State.mod | apply onEntry_keep State.pending | apply onEntry_keep State.gate | apply onEntry_keep State.mod | (refine (foldl_keep State.pending _ ?_ _ _).trans ?_) | (refine (foldl_keep State.gate _ ?_ _ _).trans ?_) | (refine (foldl_keep State.mod _ ?_ _ _).trans ?_)) <;> intros <;> (try dsimp only) <;> (repeat' split) <;> simp

@[simp] theorem placeCluster_front (s : State) (q : Nat) (i : Image) (k : Nat) :
    (placeCluster s q i k).pending = s.pending ∧ (placeCluster s q i k).gate = s.gate ∧ (placeCluster s q i k).mod = s.mod := by
  unfold placeCluster; simp

@[simp] theorem placeImage_front (s : State) (q : Nat) (i : Image) :
    (placeImage s q i).pending = s.pending ∧ (placeImage s q i).gate = s.gate ∧ (placeImage s q i).mod = s.mod := by
  unfold placeImage; simp

@[simp] theorem startLodges_front (s : State) (i : Image) (f0 : Nat) :
    (startLodges s i f0).pending = s.pending ∧ (startLodges s i f0).gate = s.gate ∧ (startLodges s i f0).mod = s.mod := by
  unfold startLodges; simp

@[simp] theorem startContexts_front (s : State) (q : Nat) (i : Image) (f0 : Nat) :
    (startContexts s q i f0).pending = s.pending ∧ (startContexts s q i f0).gate = s.gate ∧ (startContexts s q i f0).mod = s.mod := by
  unfold startContexts; dsimp only; simp only [startLodges_front, armAll_keeps]
  refine ⟨(foldl_keep State.pending _ ?_ _ _).trans ?_, (foldl_keep State.gate _ ?_ _ _).trans ?_, (foldl_keep State.mod _ ?_ _ _).trans ?_⟩ <;>
    first | (intro s t; split <;> simp; done) | simp | rfl

@[simp] theorem resumeContexts_front (s : State) (q : Nat) (i : Image) (heads : SMap Nat) (r : Nat) :
    (resumeContexts s q i heads r).pending = s.pending ∧ (resumeContexts s q i heads r).gate = s.gate ∧ (resumeContexts s q i heads r).mod = s.mod := by
  unfold resumeContexts; dsimp only; 
  rw [foldl_keeps_pending _ (by simp), foldl_keeps_gate _ (by simp), foldl_keeps_mod _ (by simp)]; simp only [armAll_keeps]
  refine ⟨(foldl_keep State.pending _ ?_ _ _).trans ?_, (foldl_keep State.gate _ ?_ _ _).trans ?_, (foldl_keep State.mod _ ?_ _ _).trans ?_⟩ <;>
    first | (intro s t; split <;> simp; done) | simp | rfl

@[simp] theorem dropWaits_front (module p n : Nat) (s : State) :
    (dropWaits module p n s).pending = s.pending ∧ (dropWaits module p n s).gate = s.gate ∧ (dropWaits module p n s).mod = s.mod := by
  induction n generalizing s with
  | zero => simp [dropWaits]
  | succ n ih =>
    unfold dropWaits
    split
    · simp [ih]
    · simp

@[simp] theorem orphanTile_front (module : Nat) (s : State) (p : Nat) :
    (orphanTile module s p).pending = s.pending ∧ (orphanTile module s p).gate = s.gate ∧ (orphanTile module s p).mod = s.mod := by
  unfold orphanTile; simp

@[simp] theorem orphanNotice_front (s : State) (module q : Nat) :
    (orphanNotice s module q).pending = s.pending ∧ (orphanNotice s module q).gate = s.gate ∧ (orphanNotice s module q).mod = s.mod := by
  unfold orphanNotice; simp

@[simp] theorem reloadCluster_front (s : State) (q k : Nat) :
    (reloadCluster s q k).pending = s.pending ∧ (reloadCluster s q k).gate = s.gate ∧ (reloadCluster s q k).mod = s.mod := by
  unfold reloadCluster; (try dsimp only); (repeat' split) <;> simp

@[simp] theorem vxWords_front (s : State) (p : Nat) (chk : Check) (ws : List VWrite) :
    (vxWords s p chk ws).1.pending = s.pending ∧ (vxWords s p chk ws).1.gate = s.gate ∧ (vxWords s p chk ws).1.mod = s.mod := by
  unfold vxWords; simp

@[simp] theorem vxWrite_front (s : State) (p i : Nat) (e : WinEntry) :
    (vxWrite s p i e).pending = s.pending ∧ (vxWrite s p i e).gate = s.gate ∧ (vxWrite s p i e).mod = s.mod := by
  unfold vxWrite; (try dsimp only); (repeat' split) <;> simp

@[simp] theorem lodgeDoLoad_front (s : State) (k w len : Nat) (chk : Check) :
    (lodgeDoLoad s k w len chk).pending = s.pending ∧ (lodgeDoLoad s k w len chk).gate = s.gate ∧ (lodgeDoLoad s k w len chk).mod = s.mod := by
  have h := lodgeLoad_keeps s k (rvSize (rvF3 w)) ((s.lodge k).xr (rvRs1 w) + rvImmI w) chk
  unfold lodgeDoLoad
  dsimp only
  split
  · simp
  · split
    · simp
    · split
      · simp
      · split
        · next e => rw [e] at h; exact ⟨h.1, h.2.1, h.2.2.1⟩
        · next e => rw [e] at h; simp; exact ⟨h.1, h.2.1, h.2.2.1⟩

@[simp] theorem lodgeDoStore_front (s : State) (k w len : Nat) (chk : Check) :
    (lodgeDoStore s k w len chk).pending = s.pending ∧ (lodgeDoStore s k w len chk).gate = s.gate ∧ (lodgeDoStore s k w len chk).mod = s.mod := by
  have h := fun n v => lodgeStore_keeps s k n ((s.lodge k).xr (rvRs1 w) + rvImmS w) v chk
  unfold lodgeDoStore
  dsimp only
  split
  · simp
  · split
    · simp
    · split
      · simp
      · split
        · next e => have g := h (rvSize (rvF3 w)) (if w % 128 == 0x27 then (s.lodge k).fr (rvRs2 w) else ((s.lodge k).xr (rvRs2 w)).toNat % 2 ^ (8 * rvSize (rvF3 w))); rw [e] at g; exact ⟨g.1, g.2.1, g.2.2.1⟩
        · next e => have g := h (rvSize (rvF3 w)) (if w % 128 == 0x27 then (s.lodge k).fr (rvRs2 w) else ((s.lodge k).xr (rvRs2 w)).toNat % 2 ^ (8 * rvSize (rvF3 w))); rw [e] at g; simp; exact ⟨g.1, g.2.1, g.2.2.1⟩

@[simp] theorem lodgeExec_front (s : State) (k w len : Nat) (chk : Check) :
    (lodgeExec s k w len chk).pending = s.pending ∧ (lodgeExec s k w len chk).gate = s.gate ∧ (lodgeExec s k w len chk).mod = s.mod := by
  unfold lodgeExec; (try dsimp only); (repeat' split) <;> simp

@[simp] theorem lodgeFetch_front (s : State) (k : Nat) (chk : Check) :
    (lodgeFetch s k chk).pending = s.pending ∧ (lodgeFetch s k chk).gate = s.gate ∧ (lodgeFetch s k chk).mod = s.mod := by
  unfold lodgeFetch; (try dsimp only); (repeat' split) <;> simp

@[simp] theorem lodgeInstruction_front (s : State) (k : Nat) (chk : Check) :
    (lodgeInstruction s k chk).pending = s.pending ∧ (lodgeInstruction s k chk).gate = s.gate ∧ (lodgeInstruction s k chk).mod = s.mod := by
  unfold lodgeInstruction; simp

@[simp] theorem admitLoop_front (q : Nat) (i : Image) (l : List Req) (s : State) :
    (admitLoop q i l s).pending = s.pending ∧ (admitLoop q i l s).gate = s.gate ∧ (admitLoop q i l s).mod = s.mod := by
  induction l generalizing s with
  | nil => simp [admitLoop]
  | cons r rs ih =>
    unfold admitLoop
    split
    · split <;> simp [ih]
    · simp [ih]

@[simp] theorem admission_front (s : State) (q : Nat) :
    (admission s q).pending = s.pending ∧ (admission s q).gate = s.gate ∧ (admission s q).mod = s.mod := by
  unfold admission; (try dsimp only); (repeat' split) <;> simp

@[simp] theorem servePv_front (s : State) (q : Nat) :
    (servePv s q).pending = s.pending ∧ (servePv s q).gate = s.gate ∧ (servePv s q).mod = s.mod := by
  unfold servePv; simp

@[simp] theorem serveTick_front (s : State) :
    (serveTick s).pending = s.pending ∧ (serveTick s).gate = s.gate ∧ (serveTick s).mod = s.mod := by
  unfold serveTick; simp

@[simp] theorem getInfo_front (s : State) (f : Func) :
    (getInfo s f).pending = s.pending ∧ (getInfo s f).gate = s.gate ∧ (getInfo s f).mod = s.mod := by
  unfold getInfo; simp

@[simp] theorem machineConfig_front (s : State) (f : Func) (plan : List W64) :
    (machineConfig s f plan).pending = s.pending ∧ (machineConfig s f plan).gate = s.gate ∧ (machineConfig s f plan).mod = s.mod := by
  unfold machineConfig; simp

@[simp] theorem freqBin_front (s : State) (f : Func) :
    (freqBin s f).pending = s.pending ∧ (freqBin s f).gate = s.gate ∧ (freqBin s f).mod = s.mod := by
  unfold freqBin; simp

@[simp] theorem ageingCommand_front (s : State) (f : Func) :
    (ageingCommand s f).pending = s.pending ∧ (ageingCommand s f).gate = s.gate ∧ (ageingCommand s f).mod = s.mod := by
  unfold ageingCommand; simp

@[simp] theorem readDump_front (s : State) (f : Func) (area : Nat) :
    (readDump s f area).pending = s.pending ∧ (readDump s f area).gate = s.gate ∧ (readDump s f area).mod = s.mod := by
  unfold readDump; simp

@[simp] theorem shedReadCommand_front (s : State) (f : Func) (ue : Bool) :
    (shedReadCommand s f ue).pending = s.pending ∧ (shedReadCommand s f ue).gate = s.gate ∧ (shedReadCommand s f ue).mod = s.mod := by
  unfold shedReadCommand; simp

@[simp] theorem shedWriteCommand_front (s : State) (f : Func) :
    (shedWriteCommand s f).pending = s.pending ∧ (shedWriteCommand s f).gate = s.gate ∧ (shedWriteCommand s f).mod = s.mod := by
  unfold shedWriteCommand; simp

@[simp] theorem pvCreate_front (s : State) (f : Func) :
    (pvCreate s f).pending = s.pending ∧ (pvCreate s f).gate = s.gate ∧ (pvCreate s f).mod = s.mod := by
  unfold pvCreate; refine ⟨?_, ?_, ?_⟩ <;> (try dsimp only) <;> (intros; first | apply serveModule_keep State.pending | apply serveModule_keep State.gate | apply serveModule_keep State.mod | apply servePavilion_keep State.pending | apply servePavilion_keep State.gate | apply servePavilion_keep State.mod | apply serve_keep State.pending | apply serve_keep State.gate | apply serve_keep State.mod) <;> intros <;> (try dsimp only) <;> (repeat' split) <;> simp

@[simp] theorem pvDestroy_front (s : State) (f : Func) :
    (pvDestroy s f).pending = s.pending ∧ (pvDestroy s f).gate = s.gate ∧ (pvDestroy s f).mod = s.mod := by
  unfold pvDestroy; refine ⟨?_, ?_, ?_⟩ <;> (try dsimp only) <;> (intros; first | apply serveModule_keep State.pending | apply serveModule_keep State.gate | apply serveModule_keep State.mod | apply servePavilion_keep State.pending | apply servePavilion_keep State.gate | apply servePavilion_keep State.mod | apply serve_keep State.pending | apply serve_keep State.gate | apply serve_keep State.mod) <;> intros <;> (try dsimp only) <;> (repeat' split) <;> simp

@[simp] theorem resetUnit_front (s : State) (q unit cluster : Nat) (had : Bool) :
    (resetUnit s q unit cluster had).pending = s.pending ∧ (resetUnit s q unit cluster had).gate = s.gate ∧ (resetUnit s q unit cluster had).mod = s.mod := by
  unfold resetUnit; simp

@[simp] theorem beginReset_front (s : State) (q unit cluster n t : Nat) :
    (beginReset s q unit cluster n t).pending = s.pending ∧ (beginReset s q unit cluster n t).gate = s.gate ∧ (beginReset s q unit cluster n t).mod = s.mod := by
  unfold beginReset; simp

@[simp] theorem pvReset_front (s : State) (f : Func) (units : List Nat) :
    (pvReset s f units).pending = s.pending ∧ (pvReset s f units).gate = s.gate ∧ (pvReset s f units).mod = s.mod := by
  unfold pvReset; simp

@[simp] theorem abortEscalation_front (s : State) (q p : Nat) (chk : Check) :
    (abortEscalation s q p chk).pending = s.pending ∧ (abortEscalation s q p chk).gate = s.gate ∧ (abortEscalation s q p chk).mod = s.mod := by
  unfold abortEscalation; (try dsimp only); (repeat' split) <;> simp

@[simp] theorem pvStatus_front (s : State) (f : Func) :
    (pvStatus s f).pending = s.pending ∧ (pvStatus s f).gate = s.gate ∧ (pvStatus s f).mod = s.mod := by
  unfold pvStatus; simp

@[simp] theorem ringSetup_front (s : State) (f : Func) :
    (ringSetup s f).pending = s.pending ∧ (ringSetup s f).gate = s.gate ∧ (ringSetup s f).mod = s.mod := by
  unfold ringSetup; simp

@[simp] theorem runCommand_front (s : State) (f : Func) :
    (runCommand s f).pending = s.pending ∧ (runCommand s f).gate = s.gate ∧ (runCommand s f).mod = s.mod := by
  unfold runCommand; simp

@[simp] theorem pauseCommand_front (s : State) (f : Func) :
    (pauseCommand s f).pending = s.pending ∧ (pauseCommand s f).gate = s.gate ∧ (pauseCommand s f).mod = s.mod := by
  unfold pauseCommand; simp

@[simp] theorem resumeCommand_front (s : State) (f : Func) :
    (resumeCommand s f).pending = s.pending ∧ (resumeCommand s f).gate = s.gate ∧ (resumeCommand s f).mod = s.mod := by
  unfold resumeCommand; simp

@[simp] theorem drainCommand_front (s : State) (f : Func) :
    (drainCommand s f).pending = s.pending ∧ (drainCommand s f).gate = s.gate ∧ (drainCommand s f).mod = s.mod := by
  unfold drainCommand; simp

@[simp] theorem tenantSet_front (s : State) (f : Func) :
    (tenantSet s f).pending = s.pending ∧ (tenantSet s f).gate = s.gate ∧ (tenantSet s f).mod = s.mod := by
  unfold tenantSet; simp

@[simp] theorem tenantBudget_front (s : State) (f : Func) (mode : Nat) :
    (tenantBudget s f mode).pending = s.pending ∧ (tenantBudget s f mode).gate = s.gate ∧ (tenantBudget s f mode).mod = s.mod := by
  unfold tenantBudget; simp

@[simp] theorem groupSet_front (s : State) (f : Func) :
    (groupSet s f).pending = s.pending ∧ (groupSet s f).gate = s.gate ∧ (groupSet s f).mod = s.mod := by
  unfold groupSet; simp

@[simp] theorem groupRemove_front (s : State) (f : Func) :
    (groupRemove s f).pending = s.pending ∧ (groupRemove s f).gate = s.gate ∧ (groupRemove s f).mod = s.mod := by
  unfold groupRemove; simp

@[simp] theorem poolCreate_front (s : State) (f : Func) :
    (poolCreate s f).pending = s.pending ∧ (poolCreate s f).gate = s.gate ∧ (poolCreate s f).mod = s.mod := by
  unfold poolCreate; simp

@[simp] theorem poolDestroy_front (s : State) (f : Func) :
    (poolDestroy s f).pending = s.pending ∧ (poolDestroy s f).gate = s.gate ∧ (poolDestroy s f).mod = s.mod := by
  unfold poolDestroy; simp

@[simp] theorem balanceCommand_front (s : State) (f : Func) (on : Bool) :
    (balanceCommand s f on).pending = s.pending ∧ (balanceCommand s f on).gate = s.gate ∧ (balanceCommand s f on).mod = s.mod := by
  unfold balanceCommand; simp

@[simp] theorem hamperStage_front (s : State) (f : Func) (manifest : List Byte) :
    (hamperStage s f manifest).pending = s.pending ∧ (hamperStage s f manifest).gate = s.gate ∧ (hamperStage s f manifest).mod = s.mod := by
  unfold hamperStage; simp

@[simp] theorem shardAccept_front (s : State) (k i : Nat) (x : Slice) (e : Shard) (p : List Byte) :
    (shardAccept s k i x e p).pending = s.pending ∧ (shardAccept s k i x e p).gate = s.gate ∧ (shardAccept s k i x e p).mod = s.mod := by
  unfold shardAccept; simp

@[simp] theorem shardStep_front (s : State) (q i : Nat) (cipher : Option (List Byte)) :
    (shardStep s q i cipher).pending = s.pending ∧ (shardStep s q i cipher).gate = s.gate ∧ (shardStep s q i cipher).mod = s.mod := by
  unfold shardStep; (try dsimp only); (repeat' split) <;> simp

@[simp] theorem sliceDrop_front (s : State) (f : Func) :
    (sliceDrop s f).pending = s.pending ∧ (sliceDrop s f).gate = s.gate ∧ (sliceDrop s f).mod = s.mod := by
  unfold sliceDrop; refine ⟨?_, ?_, ?_⟩ <;> (try dsimp only) <;> (intros; first | apply serveModule_keep State.pending | apply serveModule_keep State.gate | apply serveModule_keep State.mod | apply servePavilion_keep State.pending | apply servePavilion_keep State.gate | apply servePavilion_keep State.mod | apply serve_keep State.pending | apply serve_keep State.gate | apply serve_keep State.mod) <;> intros <;> (try dsimp only) <;> (repeat' split) <;> simp

theorem loadWith_keep {β : Type} (g : State → β) (s : State) (f : Func) (body : State → Nat → Nat → Nat → Nat → State)
    (ha : ∀ n c d, g (answerFail s n c d) = g s) (h : ∀ q a, g (body (accept s (fnNum f) 0x24 (some q) 2000 []) q (fnNum f) (ticketOf s (fnNum f)) (arg a 0 5 0)) = g s) :
    g (loadWith s f body) = g s := by
  unfold loadWith; refine servePavilion_keep g ha ?_; intro q a
  split
  · exact ha ..
  · split
    · exact ha ..
    · exact h q a

@[simp] theorem loadModel_front (s : State) (f : Func) (image : Image) :
    (loadModel s f image).pending = s.pending ∧ (loadModel s f image).gate = s.gate ∧ (loadModel s f image).mod = s.mod := by
  unfold loadModel; refine ⟨?_, ?_, ?_⟩ <;> (try dsimp only) <;> (intros; first | apply serveModule_keep State.pending | apply serveModule_keep State.gate | apply serveModule_keep State.mod | apply servePavilion_keep State.pending | apply servePavilion_keep State.gate | apply servePavilion_keep State.mod | apply serve_keep State.pending | apply serve_keep State.gate | apply serve_keep State.mod) <;> intros <;> (try dsimp only) <;> (repeat' split) <;> simp

@[simp] theorem shiftIn_front (s : State) (q n : Nat) (x : Slice) (i : Image) :
    (shiftIn s q n x i).pending = s.pending ∧ (shiftIn s q n x i).gate = s.gate ∧ (shiftIn s q n x i).mod = s.mod := by
  unfold shiftIn; simp

@[simp] theorem shiftInComplete_front (s : State) (q : Nat) (chk : Check) :
    (shiftInComplete s q chk).pending = s.pending ∧ (shiftInComplete s q chk).gate = s.gate ∧ (shiftInComplete s q chk).mod = s.mod := by
  unfold shiftInComplete; (try dsimp only); (repeat' split) <;> simp

@[simp] theorem fwLoad_front (s : State) (f : Func) :
    (fwLoad s f).pending = s.pending ∧ (fwLoad s f).mod = s.mod := by
  unfold fwLoad; simp

@[simp] theorem shiftColumn_front (f r : Nat) (acc : State × List (Nat × List (W64 × W64))) (j : Nat) :
    ((shiftColumn f r acc j).1).pending = acc.1.pending ∧ ((shiftColumn f r acc j).1).gate = acc.1.gate ∧ ((shiftColumn f r acc j).1).mod = acc.1.mod := by
  unfold shiftColumn; dsimp only; split <;> simp

@[simp] theorem repairRow_front (s : State) (t r c : Nat) (chk : Check) :
    (repairRow s t r c chk).pending = s.pending ∧ (repairRow s t r c chk).gate = s.gate ∧ (repairRow s t r c chk).mod = s.mod := by
  unfold repairRow; simp

@[simp] theorem answerLasting_front (s : State) (x : Site) :
    (answerLasting s x).pending = s.pending ∧ (answerLasting s x).gate = s.gate := by
  unfold answerLasting; (try dsimp only); (repeat' split) <;> simp

@[simp] theorem replayQuiet_front (s : State) :
    (replayQuiet s).pending = s.pending ∧ (replayQuiet s).gate = s.gate := by
  unfold replayQuiet; simp

@[simp] theorem readAccess_front (s : State) (p t i : Nat) (e : WinEntry) :
    (readAccess s p t i e).pending = s.pending ∧ (readAccess s p t i e).gate = s.gate ∧ (readAccess s p t i e).mod = s.mod := by
  unfold readAccess; simp

@[simp] theorem writeAccess_front (s : State) (p i : Nat) (e : WinEntry) :
    (writeAccess s p i e).pending = s.pending ∧ (writeAccess s p i e).gate = s.gate ∧ (writeAccess s p i e).mod = s.mod := by
  unfold writeAccess; simp

theorem onEntry_keep {β : Type} (g : State → β) (w : List WinEntry) (f : State → Nat → WinEntry → State) (s : State) (i : Nat)
    (h : ∀ s i e, g (f s i e) = g s) : g (onEntry w f s i) = g s := by
  unfold onEntry; split
  · exact h ..
  · rfl

@[simp] theorem onEntry_keeps_pending (w : List WinEntry) (f : State → Nat → WinEntry → State) (s : State) (i : Nat) (h : ∀ s i e, (f s i e).pending = s.pending) :
    (onEntry w f s i).pending = s.pending := onEntry_keep State.pending w f s i h

@[simp] theorem onEntry_keeps_gate (w : List WinEntry) (f : State → Nat → WinEntry → State) (s : State) (i : Nat) (h : ∀ s i e, (f s i e).gate = s.gate) :
    (onEntry w f s i).gate = s.gate := onEntry_keep State.gate w f s i h

@[simp] theorem onEntry_keeps_mod (w : List WinEntry) (f : State → Nat → WinEntry → State) (s : State) (i : Nat) (h : ∀ s i e, (f s i e).mod = s.mod) :
    (onEntry w f s i).mod = s.mod := onEntry_keep State.mod w f s i h

@[simp] theorem readAll_front (s : State) (p t : Nat) (w : List WinEntry) (g : List (Claimant × Claim)) :
    (readAll s p t w g).pending = s.pending ∧ (readAll s p t w g).gate = s.gate ∧ (readAll s p t w g).mod = s.mod := by
  unfold readAll; simp

@[simp] theorem writeAll_front (s : State) (p : Nat) (w : List WinEntry) (g : List (Claimant × Claim)) :
    (writeAll s p w g).pending = s.pending ∧ (writeAll s p w g).gate = s.gate ∧ (writeAll s p w g).mod = s.mod := by
  unfold writeAll; refine ⟨?_, ?_, ?_⟩ <;> (intros; first | apply loadWith_keep State.pending | apply loadWith_keep State.gate | apply loadWith_keep State.mod | apply onEntry_keep State.pending | apply onEntry_keep State.gate | apply onEntry_keep State.mod | (refine (foldl_keep State.pending _ ?_ _ _).trans ?_) | (refine (foldl_keep State.gate _ ?_ _ _).trans ?_) | (refine (foldl_keep State.mod _ ?_ _ _).trans ?_)) <;> intros <;> (try dsimp only) <;> (repeat' split) <;> simp

@[simp] theorem advanceEntry_front (s : State) (p : Nat) (stands : Bool) (w : List WinEntry) (g : List (Claimant × Claim)) (i : Nat) :
    (advanceEntry s p stands w g i).pending = s.pending ∧ (advanceEntry s p stands w g i).gate = s.gate ∧ (advanceEntry s p stands w g i).mod = s.mod := by
  unfold advanceEntry; refine ⟨?_, ?_, ?_⟩ <;> (intros; first | apply loadWith_keep State.pending | apply loadWith_keep State.gate | apply loadWith_keep State.mod | apply onEntry_keep State.pending | apply onEntry_keep State.gate | apply onEntry_keep State.mod | (refine (foldl_keep State.pending _ ?_ _ _).trans ?_) | (refine (foldl_keep State.gate _ ?_ _ _).trans ?_) | (refine (foldl_keep State.mod _ ?_ _ _).trans ?_)) <;> intros <;> (try dsimp only) <;> (repeat' split) <;> simp

@[simp] theorem injectSched_front (s : State) (t : Nat) :
    (injectSched s t).pending = s.pending ∧ (injectSched s t).gate = s.gate ∧ (injectSched s t).mod = s.mod := by
  unfold injectSched; dsimp only
  refine ⟨?_, ?_, ?_⟩ <;> (repeat' split) <;> simp <;>
    first
    | (refine (foldl_keep State.pending _ ?_ _ _).trans ?_ <;> intros <;> (try dsimp only) <;> (repeat' split) <;> simp; done)
    | (refine (foldl_keep State.gate _ ?_ _ _).trans ?_ <;> intros <;> (try dsimp only) <;> (repeat' split) <;> simp; done)
    | (refine (foldl_keep State.mod _ ?_ _ _).trans ?_ <;> intros <;> (try dsimp only) <;> (repeat' split) <;> simp; done)

@[simp] theorem injectPort_front (s : State) (t : Nat) (stands : Bool) :
    (injectPort s t stands).pending = s.pending ∧ (injectPort s t stands).gate = s.gate ∧ (injectPort s t stands).mod = s.mod := by
  unfold injectPort; simp

@[simp] theorem autoWindows_front (s : State) (t : Nat) (stands : Bool) :
    (autoWindows s t stands).pending = s.pending ∧ (autoWindows s t stands).gate = s.gate ∧ (autoWindows s t stands).mod = s.mod := by
  unfold autoWindows; refine ⟨?_, ?_, ?_⟩ <;> (intros; first | apply loadWith_keep State.pending | apply loadWith_keep State.gate | apply loadWith_keep State.mod | apply onEntry_keep State.pending | apply onEntry_keep State.gate | apply onEntry_keep State.mod | (refine (foldl_keep State.pending _ ?_ _ _).trans ?_) | (refine (foldl_keep State.gate _ ?_ _ _).trans ?_) | (refine (foldl_keep State.mod _ ?_ _ _).trans ?_)) <;> intros <;> (try dsimp only) <;> (repeat' split) <;> simp

@[simp] theorem readWindows_front (s : State) (g : List (Claimant × Claim)) :
    (readWindows s g).pending = s.pending ∧ (readWindows s g).gate = s.gate ∧ (readWindows s g).mod = s.mod := by
  unfold readWindows; refine ⟨?_, ?_, ?_⟩ <;> (intros; first | apply loadWith_keep State.pending | apply loadWith_keep State.gate | apply loadWith_keep State.mod | apply onEntry_keep State.pending | apply onEntry_keep State.gate | apply onEntry_keep State.mod | (refine (foldl_keep State.pending _ ?_ _ _).trans ?_) | (refine (foldl_keep State.gate _ ?_ _ _).trans ?_) | (refine (foldl_keep State.mod _ ?_ _ _).trans ?_)) <;> intros <;> (try dsimp only) <;> (repeat' split) <;> simp

@[simp] theorem logicalWork_front (s : State) (p t : Nat) :
    (logicalWork s p t).pending = s.pending ∧ (logicalWork s p t).gate = s.gate ∧ (logicalWork s p t).mod = s.mod := by
  unfold logicalWork; simp

@[simp] theorem tileWork_front (s : State) (p : Nat) :
    (tileWork s p).pending = s.pending ∧ (tileWork s p).gate = s.gate ∧ (tileWork s p).mod = s.mod := by
  unfold tileWork; (try dsimp only); (repeat' split) <;> simp

@[simp] theorem tilesWork_front (s : State) :
    (tilesWork s).pending = s.pending ∧ (tilesWork s).gate = s.gate ∧ (tilesWork s).mod = s.mod := by
  unfold tilesWork; simp

@[simp] theorem ctlArrivals_front (n : Nat) (s : State) :
    (ctlArrivals n s).pending = s.pending ∧ (ctlArrivals n s).gate = s.gate ∧ (ctlArrivals n s).mod = s.mod := by
  induction n generalizing s with
  | zero => simp [ctlArrivals]
  | succ n ih => unfold ctlArrivals; split <;> simp [ih]

@[simp] theorem slotsBegin_front (p n : Nat) (s : State) :
    (slotsBegin p n s).pending = s.pending ∧ (slotsBegin p n s).gate = s.gate ∧ (slotsBegin p n s).mod = s.mod := by
  induction n generalizing s with
  | zero => simp [slotsBegin]
  | succ n ih => unfold slotsBegin; split <;> simp [ih]

@[simp] theorem portWork_front (s : State) (p : Nat) :
    (portWork s p).pending = s.pending ∧ (portWork s p).gate = s.gate ∧ (portWork s p).mod = s.mod := by
  unfold portWork; simp

@[simp] theorem portsWork_front (s : State) :
    (portsWork s).pending = s.pending ∧ (portsWork s).gate = s.gate ∧ (portsWork s).mod = s.mod := by
  unfold portsWork; simp

@[simp] theorem dieWork_front (s : State) :
    (dieWork s).pending = s.pending ∧ (dieWork s).gate = s.gate ∧ (dieWork s).mod = s.mod := by
  unfold dieWork; simp

@[simp] theorem holdResume_front (s : State) :
    (holdResume s).pending = s.pending ∧ (holdResume s).gate = s.gate ∧ (holdResume s).mod = s.mod := by
  unfold holdResume; (try dsimp only); (repeat' split) <;> simp

@[simp] theorem noteCopy_front (s : State) (type origin seq : Nat) :
    (noteCopy s type origin seq).pending = s.pending ∧ (noteCopy s type origin seq).gate = s.gate ∧ (noteCopy s type origin seq).mod = s.mod := by
  unfold noteCopy; simp

@[simp] theorem remoteHold_front (s : State) (port origin seq kind source : Nat) :
    (remoteHold s port origin seq kind source).pending = s.pending ∧ (remoteHold s port origin seq kind source).gate = s.gate ∧ (remoteHold s port origin seq kind source).mod = s.mod := by
  unfold remoteHold; simp

@[simp] theorem remoteRelease_front (s : State) (port origin seq stamp : Nat) :
    (remoteRelease s port origin seq stamp).pending = s.pending ∧ (remoteRelease s port origin seq stamp).gate = s.gate ∧ (remoteRelease s port origin seq stamp).mod = s.mod := by
  unfold remoteRelease; simp

@[simp] theorem measureLink_front (r : State × Bool) (p : Nat) :
    ((measureLink r p).1).pending = r.1.pending ∧ ((measureLink r p).1).gate = r.1.gate ∧ ((measureLink r p).1).mod = r.1.mod := by
  unfold measureLink; (try dsimp only); (repeat' split) <;> simp

@[simp] theorem alignRun_front (s : State) (n t : Nat) :
    (alignRun s n t).pending = s.pending ∧ (alignRun s n t).gate = s.gate ∧ (alignRun s n t).mod = s.mod := by
  unfold alignRun; simp

@[simp] theorem alignCommand_front (s : State) (f : Func) :
    (alignCommand s f).pending = s.pending ∧ (alignCommand s f).gate = s.gate ∧ (alignCommand s f).mod = s.mod := by
  unfold alignCommand; simp

@[simp] theorem armNext_front (f : Nat) (began : List Nat) (s : State) :
    (armNext f began s).pending = s.pending ∧ (armNext f began s).gate = s.gate ∧ (armNext f began s).mod = s.mod := by
  unfold armNext; refine ⟨?_, ?_, ?_⟩ <;> (intros; first | apply loadWith_keep State.pending | apply loadWith_keep State.gate | apply loadWith_keep State.mod | apply onEntry_keep State.pending | apply onEntry_keep State.gate | apply onEntry_keep State.mod | (refine (foldl_keep State.pending _ ?_ _ _).trans ?_) | (refine (foldl_keep State.gate _ ?_ _ _).trans ?_) | (refine (foldl_keep State.mod _ ?_ _ _).trans ?_)) <;> intros <;> (try dsimp only) <;> (repeat' split) <;> simp

@[simp] theorem tickTiles_front (s : State) (f : Nat) :
    (tickTiles s f).pending = s.pending ∧ (tickTiles s f).gate = s.gate ∧ (tickTiles s f).mod = s.mod := by
  unfold tickTiles; simp

@[simp] theorem startAtTick_front (f : Nat) (s : State) (q : Nat) :
    (startAtTick f s q).pending = s.pending ∧ (startAtTick f s q).gate = s.gate ∧ (startAtTick f s q).mod = s.mod := by
  unfold startAtTick; (try dsimp only); (repeat' split) <;> simp

@[simp] theorem frameTick_front (s : State) :
    (frameTick s).pending = s.pending ∧ (frameTick s).gate = s.gate ∧ (frameTick s).mod = s.mod := by
  unfold frameTick; simp

@[simp] theorem tickStep_front (s : State) :
    (tickStep s).pending = s.pending ∧ (tickStep s).gate = s.gate ∧ (tickStep s).mod = s.mod := by
  unfold tickStep; simp

@[simp] theorem cycle_front (s : State) :
    (cycle s).pending = s.pending ∧ (cycle s).gate = s.gate ∧ (cycle s).mod.power = s.mod.power ∧ (cycle s).mod.inReset = s.mod.inReset := by
  unfold cycle; split <;> simp

@[simp] theorem wvPlan_front (s : State) (f : Func) :
    (wvPlan s f).pending = s.pending ∧ (wvPlan s f).gate = s.gate := by
  unfold wvPlan; simp

@[simp] theorem drainShed_front (n : Nat) (s : State) :
    (drainShed n s).pending = s.pending ∧ (drainShed n s).gate = s.gate ∧ (drainShed n s).mod = s.mod := by
  induction n generalizing s with
  | zero => simp [drainShed]
  | succ n ih => simp [drainShed, ih]

@[simp] theorem saveCounters_front (s : State) :
    (saveCounters s).pending = s.pending ∧ (saveCounters s).gate = s.gate ∧ (saveCounters s).mod = s.mod := by
  unfold saveCounters; simp

@[simp] theorem orderedReset_front (s : State) (cause : Nat) :
    (orderedReset s cause).pending = s.pending := by
  unfold orderedReset; simp

@[simp] theorem chipResetCommand_front (s : State) (f : Func) :
    (chipResetCommand s f).pending = s.pending := by
  unfold chipResetCommand; simp

@[simp] theorem forgetRings_front (s : State) (q : Nat) :
    (forgetRings s q).pending = s.pending ∧ (forgetRings s q).gate = s.gate ∧ (forgetRings s q).mod = s.mod := by
  unfold forgetRings; simp

@[simp] theorem resetFn_front (s : State) (n : Nat) :
    (resetFn s n).pending = s.pending ∧ (resetFn s n).gate = s.gate ∧ (resetFn s n).mod = s.mod := by
  unfold resetFn; simp

@[simp] theorem flr_front (s : State) (f : Func) :
    (flr s f).pending = s.pending ∧ (flr s f).gate = s.gate ∧ (flr s f).mod = s.mod := by
  unfold flr; (try dsimp only); (repeat' split) <;> simp

@[simp] theorem shardLost_front (s : State) (q i : Nat) :
    (shardLost s q i).pending = s.pending ∧ (shardLost s q i).gate = s.gate ∧ (shardLost s q i).mod = s.mod := by
  unfold shardLost; simp

@[simp] theorem imageLost_front (s : State) (f : Func) :
    (imageLost s f).pending = s.pending ∧ (imageLost s f).gate = s.gate ∧ (imageLost s f).mod = s.mod := by
  unfold imageLost; refine ⟨?_, ?_, ?_⟩ <;> (try dsimp only) <;> (intros; first | apply serveModule_keep State.pending | apply serveModule_keep State.gate | apply serveModule_keep State.mod | apply servePavilion_keep State.pending | apply servePavilion_keep State.gate | apply servePavilion_keep State.mod | apply serve_keep State.pending | apply serve_keep State.gate | apply serve_keep State.mod) <;> intros <;> (try dsimp only) <;> (repeat' split) <;> simp

@[simp] theorem planLost_front (s : State) (f : Func) :
    (planLost s f).pending = s.pending ∧ (planLost s f).gate = s.gate ∧ (planLost s f).mod = s.mod := by
  unfold planLost; simp

@[simp] theorem dmaLost_front (s : State) (k : DmaKind) :
    (dmaLost s k).pending = s.pending ∧ (dmaLost s k).mod = s.mod := by
  unfold dmaLost; (try dsimp only); (repeat' split) <;> simp

end Sys2Proof.Machine
end

