-- ==== Sys2Proof/Laws/Tiles.lean ====
section
/-!
SUPPORT. Lemmas about the counters, the landings and the retirements of a tile, and about the barriers.
-/

namespace Sys2Proof.Machine
open Sys2Proof

/-- A fault leaves the memories, engines, counters and queues of its tile alone. -/
theorem Tile.fault_keeps (t : Tile) (k c n st a : Nat) : (t.fault k c n st a).sp = t.sp ∧ (t.fault k c n st a).tr = t.tr ∧ (t.fault k c n st a).mx = t.mx ∧ (t.fault k c n st a).vx = t.vx ∧ (t.fault k c n st a).tc = t.tc
   ∧ (t.fault k c n st a).seq.window = t.seq.window ∧ (t.fault k c n st a).seq.hq = t.seq.hq := by
  unfold Tile.fault; dsimp only; (repeat' split) <;> exact ⟨rfl, rfl, rfl, rfl, rfl, rfl, rfl⟩

/-- An increment of a tile counter leaves every other tile alone. -/
theorem tcAddField_ne (s : State) (p f inc st a y : Nat) (h : y ≠ p) : (tcAddField s p f inc st a).tile y = s.tile y := by
  unfold tcAddField tcAdd raiseFault; dsimp only
  (repeat' split) <;> first | rfl | skip
  · show State.tile (State.setTile _ _ _) y = _; rw [State.tile_setTile_ne _ _ h, State.tile_setTile_ne _ _ h]
  · rw [State.tile_setTile_ne _ _ h]

/-- A tile whose counter has taken an increment: the new value, beside the one that a test in this tc still sees (R52). -/
def Tile.counted (t : Tile) (f inc : Nat) : Tile :=
  { t with tc := SMap.put t.tc f (w32 (tcSum (t.tcVal f) inc)), tcPrev := SMap.put t.tcPrev f (SMap.look t.tcPrev f (SMap.look t.tc f 0)) }

/-- An increment of a tile counter: the counter, and what the tile keeps. -/
theorem tcAddField_same (s : State) (p f inc st a : Nat) : 
   let t := (tcAddField s p f inc st a).tile p
   t.sp = (s.tile p).sp ∧ t.tr = (s.tile p).tr ∧ t.mx = (s.tile p).mx ∧ t.vx = (s.tile p).vx ∧ t.seq.window = (s.tile p).seq.window ∧ t.seq.hq = (s.tile p).seq.hq
   ∧ ∀ n, t.tcVal n = if n = f ∧ n < 64 then min ((s.tile p).tcVal n + inc) 0xFFFFFFFF else (s.tile p).tcVal n := by
  intro t
  have hv : ∀ n, (s.tile p).tcVal n < 2^32 := fun n => BitVec.isLt _
  have key : ∀ (T : Tile), T.tc = SMap.put (s.tile p).tc f (w32 (tcSum ((s.tile p).tcVal f) inc)) → f < 64 → ∀ n, T.tcVal n = if n = f ∧ n < 64 then min ((s.tile p).tcVal n + inc) 0xFFFFFFFF else (s.tile p).tcVal n := by
    intro T hT hf n
    unfold Tile.tcVal; rw [hT, SMap.look_put]
    by_cases h : n = f
    · subst h; rw [if_pos rfl, if_pos ⟨rfl, hf⟩]; simp only [w32, BitVec.toNat_ofNat, tcSum]; rw [Nat.mod_eq_of_lt (by omega)]; rfl
    · rw [if_neg h, if_neg (by simp [h])]
  by_cases hf : f < 64
  · by_cases hi : inc = 0
    · have : t = s.tile p := by simp [t, tcAddField, tcAdd, hf, hi]
      rw [this]; refine ⟨rfl, rfl, rfl, rfl, rfl, rfl, ?_⟩
      intro n; split
      · have := hv n; omega
      · rfl
    · by_cases hl : 0xFFFFFF00 < tcSum ((s.tile p).tcVal f) inc
      · have ht : t = Tile.fault ((s.tile p).counted f inc) faultTcLimit (s.now p) f st a := by
          simp only [t, tcAddField, tcAdd, hf, hi, hl, if_true, if_false, raiseFault, Tile.counted]
          show State.tile (State.setTile _ _ _) p = _
          rw [State.tile_setTile_same, State.tile_setTile_same]; rfl
        rw [ht]
        have hk := Tile.fault_keeps ((s.tile p).counted f inc) faultTcLimit (s.now p) f st a
        obtain ⟨h1, h2, h3, h4, h5, h6, h7⟩ := hk
        exact ⟨h1, h2, h3, h4, h6, h7, key _ h5 hf⟩
      · have ht : t = (s.tile p).counted f inc := by
          simp only [t, tcAddField, tcAdd, hf, hi, hl, if_true, if_false, Tile.counted]
          rw [State.tile_setTile_same]
        rw [ht]; exact ⟨rfl, rfl, rfl, rfl, rfl, rfl, key _ rfl hf⟩
  · have : t = s.tile p := by simp [t, tcAddField, hf]
    rw [this]; refine ⟨rfl, rfl, rfl, rfl, rfl, rfl, ?_⟩
    intro n; rw [if_neg (by omega)]

/-- The check of a landing leaves the memories, the sequencer and the counters of its tile alone. -/
theorem noteLanding_same (s : State) (p : Nat) (c : Bool) (iv) : let t := (noteLanding s p c iv).tile p
   t.sp = (s.tile p).sp ∧ t.tr = (s.tile p).tr ∧ t.mx = (s.tile p).mx ∧ t.vx = (s.tile p).vx ∧ t.seq = (s.tile p).seq ∧ t.tc = (s.tile p).tc := by
  intro t
  have ht : t = (noteLanding s p c iv).tile p := rfl
  unfold noteLanding at ht
  by_cases h : fcBreaks (s.tile p) s.frame c iv
  · have : t = (s.tile p).raise TL_FC_STATUS_LANDING_MISMATCH := by rw [ht]; simp [h]
    rw [this]; exact ⟨rfl, rfl, rfl, rfl, rfl, rfl⟩
  · have : t = s.tile p := by rw [ht]; simp [h]
    rw [this]; exact ⟨rfl, rfl, rfl, rfl, rfl, rfl⟩

/-- The check of a landing leaves every other tile alone. -/
theorem noteLanding_ne (s : State) (p : Nat) (c : Bool) (iv) (y : Nat) (h : y ≠ p) : (noteLanding s p c iv).tile y = s.tile y := by
  unfold noteLanding; dsimp only; split
  · exact State.tile_setTile_ne _ _ h
  · rfl

/-- Changing one element keeps the length. -/
theorem modAt_len {α : Type} (f : α → α) : ∀ (l : List α) (n : Nat), (modAt f l n).length = l.length := by
  intro l; induction l with
  | nil => intro n; rfl
  | cons a l ih => intro n; cases n <;> simp [modAt, ih]

/-- The changed element is in the list. -/
theorem modAt_mem {α : Type} (f : α → α) : ∀ (l : List α) (n : Nat) (h : n < l.length), f l[n] ∈ modAt f l n := by
  intro l; induction l with
  | nil => intro n h; simp at h
  | cons a l ih => intro n h; cases n with
    | zero => simp [modAt]
    | succ n => simp only [modAt, List.getElem_cons_succ]; exact List.mem_cons_of_mem _ (ih _ _)

/-- A field of a tile is below the size of its field. -/
theorem Tile.rd_lt (t : Tile) (f : Fld) : t.rd f < 2 ^ (f.hi + 1 - f.lo) := by
  unfold Tile.rd bits; exact Nat.mod_lt _ (Nat.two_pow_pos _)

/-- A retirement: the entry leaves the window, its counter is raised, the scratchpad and the other tiles stay. -/
theorem retireEntry_same (s : State) (p k : Nat) (e : WinEntry) (hw : (s.tile p).seq.window[k]? = some e) (hop : e.desc.opcode ≠ opOyTerrace) :
   ((retireEntry s p k).tile p).seq.window = (s.tile p).seq.window.eraseIdx k ∧ ((retireEntry s p k).tile p).sp = (s.tile p).sp ∧
   (∀ n, ((retireEntry s p k).tile p).tcVal n = if n = e.desc.signal ∧ n < 64 then min ((s.tile p).tcVal n + e.desc.signalInc) 0xFFFFFFFF else (s.tile p).tcVal n)
   ∧ ∀ y, y ≠ p → (retireEntry s p k).tile y = s.tile y := by
  have hL : retireEntry s p k = tcAddField (noteProgress (leaveWindow s p k)) p e.desc.signal e.desc.signalInc (ofBool e.handler) e.addr := by
    simp only [retireEntry, hw]; rw [if_neg hop]
  rw [hL]
  obtain ⟨h1, h2, h3, h4, h5, h6, h7⟩ := tcAddField_same (noteProgress (leaveWindow s p k)) p e.desc.signal e.desc.signalInc (ofBool e.handler) e.addr
  have hset : ∀ t : Tile, t.settleIdle.sp = t.sp ∧ t.settleIdle.tc = t.tc ∧ t.settleIdle.seq.window = t.seq.window := by
      intro t; unfold Tile.settleIdle; split <;> exact ⟨rfl, rfl, rfl⟩
  have hn : (noteProgress (leaveWindow s p k)).tile p = Tile.settleIdle { s.tile p with seq := { (s.tile p).seq with window := (s.tile p).seq.window.eraseIdx k } } := by
      show (leaveWindow _ _ _).tile p = _
      simp [leaveWindow]
  refine ⟨?_, ?_, ?_, ?_⟩
  · rw [h5, hn, (hset _).2.2]
  · rw [h1, hn, (hset _).1]
  · intro n; rw [h7, hn]; unfold Tile.tcVal; rw [(hset _).2.1]
  · intro y hy; rw [tcAddField_ne _ _ _ _ _ _ _ hy]
    show (leaveWindow _ _ _).tile y = _
    unfold leaveWindow; rw [State.tile_modTile_ne _ _ hy]

/-- A barrier read after a barrier is replaced. -/
theorem barrier_setBarrier (s : State) (x : Nat) (b : Barrier) (y : Nat) : (s.setBarrier x b).barrier y = if y = x then b else s.barrier y := by
  by_cases h : y = x
  · subst h; rw [if_pos rfl, State.barrier_setBarrier_same]
  · rw [if_neg h, State.barrier_setBarrier_ne _ _ h]

end Sys2Proof.Machine
end

