-- ==== Sys2Proof/Tests/Slice0.lean ====
section
/-!
SUPPORT. Small tests of single commands against values of the spec, terms that the well-formedness checks refuse, and for each statement of
Certificates/Slice0/Obligations.lean states and operands that meet its hypotheses, clause by clause.
-/

namespace Sys2Proof.Tests
open Sys2Proof Sys2Proof.Machine

set_option Elab.async false

-- helpers

/-- Register fields of the module set. -/
def put (s : State) (l : List (Fld × Nat)) : State := l.foldl (fun s x => s.wr x.1 x.2) s

/-- Register fields of a tile set. -/
def putT (t : Tile) (l : List (Fld × Nat)) : Tile := l.foldl (fun t x => t.wr x.1 x.2) t

/-- A module whose frames run, at frame cycle 100 (L = 80,000, W = 77,600). -/
def live : State :=
  let s := put State.reset [(SD_STATUS_RUNNING, 1), (SD_STATUS_ALIGNED, 1), (SD_CONFIG_FRAME_LEN, 80000), (SD_CONFIG_SPAN, 77600), (SD_MACHINE_MODULES, 1)]
  { s with sun := { s.sun with tick := 100, ctr := 100 } }

/-- The running module with its firmware running. -/
def served : State := { live with gate := { live.gate with phase := 3, ran := true } }

/-- The module with firmware running and no frames. -/
def booted : State := { State.reset with gate := { State.reset.gate with phase := 3, ran := true } }

-- well-formedness: for each kind of number a term that is refused, and one at the edge that is not

/-- Tiles, ports, slots of the sequencer, the engines and the Trellis. -/
theorem wf_refuses_tiles : [Instr.descriptorIssue 256 .clean, .descriptorRetire 256 0, .handlerListStart 256 .clean, .contextStart 272 0 0, .tileStop 272,
    .tcAdd .warden 272 0 1, .tcAdd .warden 0 64 1, .tcAdd .warden 0 0 65536, .tcAdd (.lodge 16) 0 0 1, .mxLoad 256 .clean, .mxPass 256 .clean,
    .mxZero 256, .mxStore 256, .vxFp 256 .clean, .vxInt 256 .clean, .vxCvt 256 .clean, .vxFn 256 .clean, .vxRed 256 .clean,
    .vxCmp 256 .clean, .vxMask 256, .linkOrdinary 256 true, .linkFrameEnd 256, .linkHandlerReturn 256, .spFill 256, .spCopy 256 .clean,
    .spColgather 256 .clean, .spColscatter 256 .clean, .netPut 256 .clean, .netPutMsg 256 .clean, .netGet 256, .oyRead 256 .clean,
    .oyWrite 256 .clean, .oyTerrace 256 .clean, .ctBarrierWait 256, .ctBarrierArriveOnly 256, .ctSignalJoin 256, .ctSignalRemoteAdd 256,
    .ctSignalCreditReturn 256, .ctHash 256 .clean, .ctSampleTarget 256 .clean, .ctSampleDraft 256 .clean, .ctSampleCommit 256,
    .scratchpadClear 272, .terraceClear 272, .scratchpadScrub 272 .clean, .terraceScrub 272 (.clean, .clean), .channelClose 272 0, .channelClose 0 32,
    .moveEast 272, .tileFaultReport 272].all (fun c => !c.wf) = true := by decide +kernel

/-- Sundial, Footbridge, Lodge cores, serving. -/
theorem wf_refuses_die : [Instr.holdRequest 0 256, .holdRequest 1 16, .holdRequest 2 256, .holdRequest 3 0, .holdRequest 4 1, .holdRequest 5 1, .holdRequest 6 0,
    .freezePointReached (some 8), .holdRelease 65536, .remoteHoldMessage 16 0 0 0 0, .remoteHoldMessage 0 4096 0 0 0, .remoteHoldMessage 0 0 65536 0 0,
    .remoteHoldMessage 0 0 0 6 0, .remoteHoldMessage 0 0 0 0 4096, .remoteReleaseMessage 16 0 0 0, .remoteReleaseMessage 0 4096 0 0,
    .remoteReleaseMessage 0 0 65536 0, .remoteReleaseMessage 0 0 0 268435456, .droopStretch 8, .timeMessage 16 0 0, .timeMessage 0 4096 0,
    .timeMessage 0 0 (2 ^ 64), .linkBlockReceive 16 (List.replicate 2176 0) (List.replicate 2176 0),
    .linkBlockReceive 0 [] [], .linkBlockTransmit 16, .scheduledSlotTransmit 16 0, .scheduledSlotTransmit 0 1024,
    .lateFlitCheck 16, .scheduledFlitPresent 16, .bulkTransferRoute 16 0, .portRetrain 16 true, .trainingComplete 16 true 0 0 0 0, .lossOfSignal 16,
    .signalReturn 16, .lodgeRun 16 true, .lodgeInstruction 16 .clean, .bsmaskDone .warden 16 0 0, .bsmaskDone .warden 0 1024 0, .bsmaskDone .warden 0 0 512,
    .bsmaskDone (.lodge 16) 0 0 0, .watchArm .warden 16 0 0, .watchArm .warden 0 8 0, .watchArm (.lodge 16) 0 0 0, .watchFire 16 0, .watchFire 0 8, .bseventRead 16,
    .stackHot 2 0, .stackCooled 2 0, .icehouseLookup 4 0, .submitRecord 4 [] [], .cancelRecord 4 [], .mbReqDb (.pf 2) 0 0, .mbReqDb (.pf 0) 4 0,
    .mbCplDb (.vf 0 0) 0 0, .mbCplDb (.pf 0) 4 0, .completionFlush 4, .draftDerivation 1024, .targetCommit 1024, .draftSlotCommit 1024,
    .wardenMessage (.closeSlot 1024), .wardenMessage (.stopFrame 4 0), .orphanNotice 4096 0, .orphanNotice 0 4].all (fun c => !c.wf) = true := by decide +kernel

/-- The mailbox, loading, the host interface, the hardware. -/
theorem wf_refuses_host : [Instr.mbUndefinedOpcode (.pf 2), .mbDoorbellIgnored (.vf 2 1), .mbAsyncRead (.vf 0 17), .asyncCommandTimeout (.pf 0) 256,
    .asyncCommandTimeout (.pf 2) 0, .getInfo (.pf 2), .fwLoad (.pf 2), .firmwareRunning [8192], .machineConfig (.pf 2) [], .align (.pf 2), .freqBin (.pf 2), .ageing (.pf 2),
    .readDumpCrash (.pf 2), .readDumpSummary (.pf 2), .shedRead (.pf 2) false, .shedWrite (.pf 2), .wvPlan (.pf 2), .lifetimeCounterWrite 8, .chipReset (.pf 2),
    .pvCreate (.pf 2), .pvDestroy (.pf 2), .pvResetAbort (.pf 2), .pvResetCluster (.pf 2), .pvResetPavilion (.pf 2), .pvStatus (.pf 2), .ringSetup (.pf 2),
    .hamperStage (.pf 2) [], .shardTablePoll 4 [], .shardVerify 4 0 none, .shardVerify 0 8192 none, .stagingTimeout 4, .sliceDrop (.pf 2),
    .run (.pf 2), .pause (.pf 2), .resume (.pf 2), .drain (.pf 2), .tenantSet (.pf 2), .tenantBudgetSet (.pf 2), .tenantBudgetAdd (.pf 2), .groupSet (.pf 2),
    .groupRemove (.pf 2), .poolCreate (.pf 2), .poolDestroy (.pf 2), .balanceOn (.pf 2), .balanceOff (.pf 2), .shiftInComplete 4 .clean, .fleetKeyInstall 2 [],
    .fleetKeyRemove 2 [], .doeDiscovery 2 0, .spdmGetCertificate 2 0 0 0, .spdmChallenge 2 0 [], .spdmGetMeasurements 2 0 [], .spdmGetCapabilities 2,
    .spdmNegotiateAlgorithms 2, .abortEscalation 4 (0, .clean), .abortEscalation 0 (272, .clean), .pavilionResetTimeout 4, .resetUnitEnd 4 (true, .clean), .functionLevelReset (.vf 0 17),
    .pcieHotReset 2, .pcieLinkLoss 2, .pcieLinkUp 2, .d3hotToD0 (.pf 2), .dmaFailure (.request 4), .dmaFailure (.shard 0 8192), .dmaTimeout (.dump (.pf 2)),
    .registerWrite .warden 4 0, .registerWrite .warden 0x4010000 0, .registerWrite (.host (.pf 2)) 0 0, .trayResetDeassert false 8, .hbmInitComplete 2,
    .thermalTrip (.region 8) 0, .thermalTrip (.stack 2) 0, .thermWarn 8 0, .mctpSetEndpointId 256, .getSummary 256, .mctpUndefinedCommand 256].all (fun c => !c.wf) = true := by
  decide +kernel

/-- The last numbers of each range are well formed. -/
theorem wf_takes_edges : [Instr.descriptorIssue 255 .clean, .contextStart 271 0 0, .tcAdd (.lodge 15) 271 63 65535, .holdRequest 0 255, .holdRequest 1 15,
    .holdRequest 2 (256 * 15 + 255), .holdRequest 4 0, .holdRequest 5 0, .freezePointReached (some 7), .remoteHoldMessage 15 4095 65535 5 4095,
    .remoteReleaseMessage 15 4095 65535 268435455, .timeMessage 15 4095 (2 ^ 64 - 1), .scheduledSlotTransmit 15 1023, .channelClose 271 31,
    .bsmaskDone (.lodge 15) 15 1023 511, .watchArm .warden 15 7 0, .shardVerify 3 8191 none, .asyncCommandTimeout (.vf 1 16) 255, .firmwareRunning [8191],
    .registerWrite .warden 0x400FFF8 0, .orphanNotice 4095 3, .thermalTrip (.region 7) 0, .getSummary 255].all (fun c => c.wf) = true := by decide +kernel

-- witnesses: the step and reset

/-- StepRunsFrontCommand, WellFormedCommandsRun. -/
theorem wit_step : State.reset.pending = [] ∧ (Instr.frameTick).wf = true ∧ (Instr.droopStretch 8).wf = false := by decide +kernel

/-- HardwareInvariantKept: a state with the invariant, and a step of it. -/
theorem wit_invariant : HwInv State.reset ∧ step State.reset = .next (cycle State.reset) :=
  ⟨⟨by decide, by decide, by decide, by decide⟩, rfl⟩

-- witnesses: Sundial

/-- Ports 14 and 15 belong to the machine and carry traffic. -/
def linked2 (s : State) : State :=
  put s [(FB_CTRL_ENABLE 14, 1), (FB_CTRL_IN_MACHINE 14, 1), (FB_STATUS_STATE 14, 5), (FB_CTRL_ENABLE 15, 1), (FB_CTRL_IN_MACHINE 15, 1), (FB_STATUS_STATE 15, 5)]

/-- Region 7 lags by four cycles. -/
def skewed : State := { linked2 live with sun := { live.sun with lags := [(7, 4)] } }

/-- HoldRequestsSetFreezePoint. -/
theorem wit_hold_request : skewed.rd SD_STATUS_RUNNING = 1 ∧ skewed.sun.freeze = none ∧ 4 ≤ skewed.lag 7 ∧ ownHold skewed kindSkew = false
    ∧ skewed.machinePorts = [14, 15] ∧ (∀ p ∈ skewed.machinePorts, portCarries skewed p = true) ∧ firstCopy skewed 1 4095 65535 = true := by decide +kernel

/-- The running module at its freeze point, with a hold of kind `k` from `src` that is not released. -/
def stood (k src : Nat) : State :=
  { linked2 live with sun := { live.sun with freeze := some 100, stopped := false, holds := [⟨0, 7, k, src, 96, none, false⟩] } }

/-- The same with the Sundial domain and `n` regions stopped. -/
def stoodAt (k src n : Nat) : State :=
  let s := stood k src
  { s with sun := { s.sun with stopped := true, standAt := 100, lastAtF := 100, regionsAt := List.range n, tick := 1000 } }

/-- The same with the hold released at tick 104, and what came after the release's broadcast. -/
def stoodOver (later : List Hold) : State :=
  let s := stoodAt kindSkew (skewSource 0) 8
  { s with sun := { s.sun with holds := [⟨0, 7, kindSkew, skewSource 0, 96, some 104, false⟩], later := later } }

/-- HoldsStandAndResume: the domain stops, a region before and at the last one. -/
theorem wit_stand : (stood kindSkew (skewSource 0)).standing = true ∧ (stood kindSkew (skewSource 0)).sun.stopped = false ∧ live.replay.marked = false
    ∧ (∀ n, n ∈ [6, 7] →
        let s := stoodAt kindSkew (skewSource 0) n
        s.sun.stopped = true ∧ s.regionStands 7 = true ∧ 7 ∉ s.sun.regionsAt ∧ s.replay.marked = false ∧ s.sun.regionsAt.length = n
          ∧ ∃ h ∈ s.sun.holds, h.relAt = none ∧ h.kind = kindSkew ∧ h.origin = s.index)
    ∧ (stoodAt kindSkew (skewSource 0) 7).machinePorts = [14, 15] ∧ portCarries (stoodAt kindSkew (skewSource 0) 7) 14 = true := by decide +kernel

/-- The hold of `stood` in the list of holds. -/
def ownOf (s : State) : Option Hold := (s.sun.holds ++ s.sun.later).find? (fun h => h.origin == s.index && h.seq == 7 && h.relAt == none)

/-- HoldsStandAndResume: a may-wait head whose waits are met, a late flit that is whole, a skew with eight regions at F, an overrun of a module that has
become ready; another module's release; the end of the stand, with and without a hold that came late. -/
theorem wit_releases : (let s := (stoodAt kindMayWait 255 8).setTile 270 { Tile.reset with seq := { Seq.reset with mainBuf := [⟨0, [⟨w64 (0xFFFFFF * 2 ^ 40), 0, 0, 0, 0, 0, 0, 0⟩], false, false⟩] } }
      ownOf s = some ⟨0, 7, kindMayWait, 255, 96, none, false⟩ ∧ headMet (s.tile (s.phys 255)) = true)
    ∧ (let s := (stoodAt kindSched 15 8).modPort 15 (fun q => { q with sched := [⟨Transfer.blank, 2, 2, 0, none, some (7, 1), false⟩] })
       ownOf s = some ⟨0, 7, kindSched, 15, 96, none, false⟩ ∧ (s.port 15).downHold ≠ some 7 ∧ lateWhole (s.port 15) 7 = true)
    ∧ (let s := stoodAt kindSkew (skewSource 0) 8
       ownOf s = some ⟨0, 7, kindSkew, skewSource 0, 96, none, false⟩ ∧ s.sun.regionsAt.length = 8)
    ∧ (let s := stoodAt kindOverrun 0 8
       ownOf s = some ⟨0, 7, kindOverrun, 0, 96, none, false⟩ ∧ moduleReady s = true)
    ∧ firstCopy (stood kindSkew (skewSource 0)) 2 4095 65535 = true
    ∧ (∀ later, later ∈ [[], [⟨4095, 65535, kindMayWait, 4095, 990, none, false⟩]] →
        let s := stoodOver later
        (∃ r, resumeAt s.sun = some r ∧ r ≤ s.sun.tick) ∧ s.sun.later = later ∧ ∃ h, s.sun.holds = [h] ∧ h.recorded = false) := by
  refine ⟨by decide +kernel, by decide +kernel, by decide +kernel, by decide +kernel, by decide +kernel, ?_⟩
  exact fun l _ => ⟨⟨108, rfl, (by decide : (108 : Nat) ≤ 1000)⟩, rfl, _, rfl, rfl⟩

/-- StretchesAndFrequencyStop. -/
theorem wit_stretch : SMap.look live.sun.gaps 7 0 = 0 ∧ live.rd SD_STATUS_FREQ_STOP = 0 ∧ live.rd SD_STATUS_RUNNING = 1 ∧ live.regionStands 7 = false
    ∧ live.lag 7 + 1 ≠ 4 ∧ (put live [(SD_STATUS_FREQ_STOP, 1)]).rd SD_STATUS_FREQ_STOP = 1 := by decide +kernel

/-- The running module at the end of its frame, with no context. -/
def frameEnd : State := { linked2 live with sun := { live.sun with tick := 80000, ctr := 80000 } }

/-- FrameTickBeginsFrame: the tick is due, of a module that is ready and of one with a scheduled transfer on its way to its port; tiles that run and
that wait for their first tick. -/
theorem wit_tick : frameEnd.rd SD_STATUS_RUNNING = 1 ∧ frameEnd.rd SD_STATUS_FREQ_STOP = 0 ∧ noHold frameEnd = true ∧ tickDue frameEnd ≤ frameEnd.sun.tick
    ∧ moduleReady frameEnd = true ∧ frameEnd.machinePorts = [14, 15]
    ∧ (let s : State := { frameEnd with die := { frameEnd.die with transfers := [{ Transfer.blank with vc := 1, leg := 1, port := 15, air := [⟨1, 79999, 0, 0, false, 0, [1]⟩] }] } }
       noHold s = true ∧ tickDue s ≤ s.sun.tick ∧ moduleReady s = false)
    ∧ epochBegins 1 Tile.reset = false ∧ ({ Tile.reset with seq := { Seq.reset with run := .waitTick } } : Tile).seq.run = .waitTick
    ∧ ({ Tile.reset with seq := { Seq.reset with run := .running } } : Tile).seq.run = .running := by decide +kernel

/-- A module that is about to start its frames. -/
def starting : State :=
  let s := put (linked2 State.reset) [(SD_CONFIG_FRAME_LEN, 80000), (SD_CONFIG_SPAN, 77600)]
  { s with sun := { s.sun with startAt := some 500, epochMark := some (400, 0), time := 500 } }

/-- A module that is aligning and is not the root. -/
def joining : State :=
  { linked2 State.reset with fns := [(0, { Fn.reset with flights := [⟨0, 0x04, none, 0, false⟩] })] }

/-- AlignmentAndTime. -/
theorem wit_align : aligning joining = true ∧ joining.rd SD_STATUS_ALIGNED = 0 ∧ joining.rd SD_MACHINE_ROOT = 0 ∧ joining.sun.epochMark = none
    ∧ joining.machinePorts = [14, 15] ∧ portCarries joining 14 = true
    ∧ starting.sun.startAt = some 500 ∧ (500 : Nat) ≤ starting.sun.time ∧ starting.sun.epochMark = some (400, 0) ∧ starting.rd SD_STATUS_RUNNING = 0
    ∧ live.rd SD_STATUS_ALIGNED = 1
    ∧ tickDistance live.frameLen (100 + live.rd (FB_LINK_HP_DELAY 15)) live.sun.tick ≤ alignLimit (live.rd SD_CONFIG_BIN) := by decide +kernel

-- witnesses: the sequencer

/-- A descriptor that waits for nothing and signals nothing. -/
def dsc (op var w3 w4 w5 : Nat) : Desc :=
  { w0 := w64 (op + 256 * var + 0xFFFFFF * 2 ^ 40), w1 := 0, w2 := 0, w3 := w64 w3, w4 := w64 w4, w5 := w64 w5, w6 := 0, w7 := 0 }

/-- A window entry that waits to start. -/
def ent (d : Desc) : WinEntry := WinEntry.new false 5 d 50

/-- The running module with a tile at a logical place. -/
def atTile (tl : Nat) (t : Tile) : State := live.setTile (live.phys tl) t

/-- A tile that runs with a main stream whose first line is fetched, and the next too. -/
def headed (d : Desc) (l : List Desc) (regs : List (Fld × Nat)) : Tile :=
  { putT Tile.reset ((TL_SEQ_CONFIG_ENABLE, 1) :: regs) with
    seq := { Seq.reset with run := .running, mainBuf := [⟨0, d :: l, false, false⟩, ⟨1, [], d.isLink && d.variant == 0, false⟩] } }

/-- VX_FP MUL of step 1 of the SiLU chain (chapter 6), with ISSUE_CYCLE 100. -/
def mul1 : Desc :=
  { w0 := 0x06FFFF0000640220, w1 := 0, w2 := 0xBFB8AA3B00000001, w3 := 0x0020001F4000A060, w4 := 0, w5 := 0, w6 := 0, w7 := 0 }

/-- DescriptorsIssue, on the last tile: with an issue cycle, and without. -/
theorem wit_issue : ∀ d, d ∈ [mul1, { mul1 with w0 := 0x06FFFF0000000220 }] →
    (let s := atTile 255 (headed d [] [])
     let s1 := fillBoth s 270 .clean
     s.phys 255 = 270 ∧ seqActive s 270 = true ∧ ((s1.tile 270).seq.mainBuf.head?.map (fun c => (c.at (s1.tile 270).seq.head, c.outside))) = some (d, false)
      ∧ firstSlip (s1.now 270) true (buffered (s1.tile 270).seq.head (s1.tile 270).seq.mainBuf) = none
      ∧ (s1.tile 270).seq.atEnd = false ∧ (s1.tile 270).seq.holdSeq = none ∧ fetchOk s1.frameLen false (s1.tile 270).seq.head d = true
      ∧ d.isLink = false ∧ (∀ w ∈ [(d.waitA, d.valueA), (d.waitB, d.valueB)], 64 ≤ w.1 ∨ w.2 ≤ (s1.tile 270).tcSeen w.1)
      ∧ (s1.tile 270).seq.inFlight false < 32 - (s1.tile 270).entries ∧ (s1.tile 270).seq.ready ≤ s1.now 270
      ∧ (d.issueCycle = 0 ∨ d.issueCycle = s1.now 270) ∧ handlerNow s1 270 = .wait) := by decide +kernel

/-- SlipsFreezeTheTile: the issue cycle 99 has passed, of the head and of the descriptor behind a head that waits. -/
theorem wit_slip : (let late : Desc := { mul1 with w0 := 0x06FFFF0000630220 }
    (∀ l, l ∈ [(late, []), ({ mul1 with w0 := 0x06FF000000000220, w1 := 1 }, [late])] →
      let s := atTile 255 (headed l.1 l.2 [])
      let s1 := fillBoth s 270 .clean
      seqActive s 270 = true ∧ mainNow s1 270 = .slip l.2.length ∧ handlerNow s1 270 = .wait
        ∧ (s1.tile 270).rd TL_SEQ_CONFIG_ENABLE = 1 ∧ (s1.tile 270).regW TL_FAULT_OFF = 0)
    ∧ (let t := headed late [] []
       t.seq.atEnd = false ∧ t.seq.holdSeq = none ∧ t.seq.holdReleased = false ∧ fetchOk live.frameLen false 0 late = true ∧ late.broken t = false
        ∧ late.issueCycle ≠ 0 ∧ late.issueCycle < 100)) := by decide +kernel

/-- A tile whose handler list stands at a link. -/
def handling (v : Nat) : State :=
  let t := putT Tile.reset [(TL_SEQ_CONFIG_ENABLE, 1), (TL_SEQ_CONFIG_HANDLER_ENTRIES, 8), (TW_RECV_CFG_SLOTS 0, 16)]
  atTile 0 { t with seq := { Seq.reset with run := .running, atEnd := true, handler := some ⟨⟨0, 15, 1, 0, 80⟩, 80, 0⟩, hBuf := [⟨10, [dsc opLink v 0x7FFF 0 0], false, false⟩, ⟨11, [], v == 0, false⟩] } }

/-- LinksMoveTheHead: an ordinary link to 0x7FFF, a frame-end link, an ordinary link and a return of a handler list. -/
theorem wit_links : (∀ v, v < 2 →
      let d := dsc opLink v 0x7FFF 0 0
      let s := atTile 255 (headed d [] [])
      let s1 := fillBoth s 270 .clean
      seqActive s 270 = true ∧ ((s1.tile 270).seq.mainBuf.head?.map (fun c => (c.at (s1.tile 270).seq.head, c.outside))) = some (d, false)
        ∧ (s1.tile 270).seq.atEnd = false ∧ (s1.tile 270).seq.holdSeq = none ∧ fetchOk s1.frameLen false (s1.tile 270).seq.head d = true ∧ d.isLink = true
        ∧ d.variant = v ∧ d.met (s1.tile 270) = true ∧ (s1.tile 270).seq.inFlight false = 0 ∧ (s1.tile 270).seq.ready ≤ s1.now 270 ∧ d.issueCycle = 0
        ∧ firstSlip (s1.now 270) true (buffered (s1.tile 270).seq.head (s1.tile 270).seq.mainBuf) = none ∧ handlerNow s1 270 = .wait)
    ∧ ∀ v, v ∈ [0, 2] →
      let s1 := fillBoth (handling v) 0 .clean
      seqActive (handling v) 0 = true ∧ (s1.tile 0).seq.handler = some ⟨⟨0, 15, 1, 0, 80⟩, 80, 0⟩ ∧ mainNow s1 0 = .wait
        ∧ handlerNow s1 0 = .issue 80 (dsc opLink v 0x7FFF 0 0) := by decide +kernel

/-- A descriptor with SIGNAL 63 that has run. -/
def signalling : WinEntry := { ent { dsc opVxMask 4 0 0 0 with w0 := w64 (opVxMask + 0x3FFFFF * 2 ^ 40), w2 := 0xFFFF } with phase := .running, pos := 100 }

/-- RetirementsAndHandlerStarts: in a running module and in one that stands elsewhere; a list behind an issue of the same tc, and not. -/
theorem wit_retire : (let s := atTile 255 { Tile.reset with seq := { Seq.reset with window := [signalling] } }
      (s.tile 270).seq.window[0]? = some signalling ∧ signalling.phase = .running ∧ signalling.span ≤ signalling.pos ∧ s.tileStands 270 = false
        ∧ signalling.desc.signal = 63 ∧ signalling.desc.opcode ≠ opOyTerrace)
    ∧ (∀ c, c ∈ [none, some 100] →
       let t := putT Tile.reset [(TL_SEQ_CONFIG_ENABLE, 1), (TL_SEQ_CONFIG_HANDLER_ENTRIES, 1)]
       let s := atTile 255 { t with seq := { Seq.reset with run := .running, issuedAt := c, hq := [⟨31, 0, 1, 0, 0x7FF8⟩] } }
       (s.tile 270).seq.hq = [⟨31, 0, 1, 0, 0x7FF8⟩] ∧ (s.tile 270).seq.handler = none ∧ (s.tile 270).entries ≠ 0 ∧ (s.tile 270).seq.run = .running
        ∧ (s.tile 270).rd TL_SEQ_CONFIG_ENABLE = 1 ∧ decide ((s.tile 270).seq.issuedAt = some (s.now 270)) = c.isSome) := by decide +kernel

/-- Lodge core 15 with `n` stores in its buffer, the first of them an add. -/
def storing (n : Nat) : State := live.setLodge 15 { Lodge.reset with stores := (List.replicate n (.add 255 63 65535)) }

/-- TilesStartAndStop, CounterAdds: physical tile 271, counter 63; a hold that a may-wait head has asked for; the stores of Lodge core 15. -/
theorem wit_start : (live.tile 271).rd TL_SEQ_CONFIG_ENABLE = 0 ∧ ((atTile 255 (headed mul1 [] [])).tile 270).rd TL_SEQ_CONFIG_ENABLE = 1
    ∧ ((atTile 255 (headed mul1 [] [])).tile 270).seq.holdSeq = none ∧ (live.tile 271).seq.window = []
    ∧ ((atTile 255 { Tile.reset with seq := { Seq.reset with holdSeq := some 7, window := [signalling] } }).tile 270).seq.holdSeq = some 7
    ∧ live.logical 270 = some 255 ∧ 255 ∈ tilesOf 15 ∧ ((storing 7).lodge 15).stores.length < 8 ∧ 8 ≤ ((storing 8).lodge 15).stores.length
    ∧ ((storing 1).lodge 15).stores = [.add 255 63 65535] ∧ live.replay.standing = false
    ∧ ({ live with replay := { live.replay with standing := true } } : State).replay.standing = true ∧ (live.tile 271).tcVal 63 + 65535 ≤ 0xFFFFFF00
    ∧ 0xFFFFFF00 < Tile.tcVal { Tile.reset with tc := [(63, 0xFFFFFF00)] } 63 + 1 ∧ fnOk (.vf 1 16) = true := by decide +kernel

-- witnesses: the engines

/-- A tile with one descriptor waiting to start behind those that run. -/
def behindTile (l : List WinEntry) (d : Desc) (regs : List (Fld × Nat)) : Tile := { putT Tile.reset regs with seq := { Seq.reset with window := l ++ [ent d] } }

/-- A tile with one descriptor waiting to start. -/
def unitTile (d : Desc) (regs : List (Fld × Nat)) : Tile := behindTile [] d regs

/-- A tile of the running module as the last tile, which belongs to pavilion 3. -/
def owned (t : Tile) : State :=
  let s := (atTile 255 t).setPv 3 { Pv.reset with res := { Pv.reset.res with clusters := 0x8000, groups := 0x8000 }, run := { Pv.reset.run with st := 4 } }
  put s [(OY_PV_CFG_VALID 3, 1), (OY_PV_CFG_GROUPS 3, 0x8000), (OY_PV_CFG_WIN_EXTENTS 3, 1), (OY_PV_CFG_QUOTA 3, 1), (BS_SLOT_CFG_PAVILION 1023, 3), (BS_SLOT_CFG_VOCAB 1023, 131072)]

/-- The running module with that descriptor on the last tile. -/
def unitAt (d : Desc) (regs : List (Fld × Nat)) : State := owned (unitTile d regs)

/-- A descriptor that runs, `n` tc into its work. -/
def ran (d : Desc) (n : Nat) : WinEntry := { ent d with phase := .running, pos := n }

/-- MatrixLoads: code 7 into stage 1 from beat 32,764, alone and behind a load of stage 0 that has read its beats and a pass of stage 1 that has streamed;
the last tc of its work. -/
theorem wit_load : (let d := dsc opMxLoad 0x17 32764 0 0
    (∀ l, l ∈ [[], [ran (dsc opMxLoad 0x07 0 0 0) 8, ran (dsc opMxPass 1 0 64 0) 64]] →
      let s := owned (behindTile l d [])
      nextOf s 255 unitMatrix [opMxLoad] = some (l.length, ent d) ∧ s.tileStands 270 = false
        ∧ ∀ x ∈ (s.tile 270).seq.window.take l.length, x.unit = unitMatrix → (x.desc.opcode = opMxPass → x.desc.stage = d.stage → x.held ≤ x.pos)
          ∧ (x.desc.opcode = opMxLoad → x.held ≤ x.pos ∧ (x.desc.stage = d.stage → x.span ≤ x.pos)))
    ∧ (let s := owned { Tile.reset with seq := { Seq.reset with window := [ran d 4] } }
       (s.tile 270).seq.window[0]? = some (ran d 4) ∧ (ran d 4).chk = .clean ∧ d.stage = 1)) := by decide +kernel

/-- A stage in MXFP4, and one in codebook-4. -/
def staged (fmt : Nat) (d : Desc) (l : List WinEntry) : State :=
  owned { behindTile l d [] with mx := { Mx.reset with st1 := ⟨fmt, []⟩ } }

/-- MatrixPasses: a pass of one row into row 255, one of MXFP4 into row 127, one of codebook-4, alone and behind a move that has streamed; a row of it that is read and
one that is written. -/
theorem wit_pass : (∀ f, f ∈ [(0, 255), (6, 127), (3, 255)] → ∀ l, l ∈ [[], [ran (dsc opMxZero 0 0 0 0) 1]] →
      let d := dsc opMxPass 1 (f.2 * 2 ^ 48) 128 0
      let s := staged f.1 d l
      let g := (s.tile 270).mx.stage d.stage
      nextOf s 255 unitMatrix [opMxPass] = some (l.length, ent d) ∧ s.tileStands 270 = false ∧ g.fmt = f.1
        ∧ (∀ x ∈ (s.tile 270).seq.window.take l.length, x.unit = unitMatrix →
            if x.desc.opcode = opMxLoad then x.desc.stage = d.stage → x.span ≤ x.pos else x.held ≤ x.pos)
        ∧ (g.fmt = 6 → d.accRow + d.rows ≤ 128) ∧ (g.fmt = 3 → d.mxSpBase % 128 = 0 ∧ passStride d g.fmt % 128 = 0)
        ∧ spFault (s.tile 270) s.frame d.frameCarried false [passReads d g.fmt] [] = none)
    ∧ (let d := dsc opMxPass 1 (255 * 2 ^ 48) 64 0
       let e := { ran d (fmtLat 0) with rows := [List.replicate 64 1] }
       let s := owned { Tile.reset with seq := { Seq.reset with window := [e] } }
       (s.tile 270).seq.window[0]? = some e ∧ e.chk = .clean ∧ e.rows = List.replicate 64 1 :: [] ∧ 63 < fmtRowBytes e.stage.fmt) := by decide +kernel

/-- Nothing, and a pass of row 254 that has streamed. -/
def movesBehind : List (List WinEntry) := [[], [ran (dsc opMxPass 1 (254 * 2 ^ 48) 64 0) 64]]

/-- AccumulatorMoves: clears of row 255, alone and behind a pass. -/
theorem wit_zero : ∀ l, l ∈ movesBehind →
    let d := dsc opMxZero 0 (255 * 2 ^ 48) 0 0
    let s := owned (behindTile l d [])
    nextOf s 255 unitMatrix [opMxZero] = some (l.length, ent d) ∧ s.tileStands 270 = false
      ∧ ∀ x ∈ (s.tile 270).seq.window.take l.length, x.unit = unitMatrix → (x.desc.opcode = opMxLoad ∨ x.held ≤ x.pos)
        ∧ ∀ w ∈ rowWrites x, w.1 < d.accRow ∨ d.accRow + d.rows ≤ w.1 ∨ w.2 < x.pos + (w.1 - d.accRow) + 1 := by decide +kernel

/-- AccumulatorMoves: stores of row 255, alone and behind a pass. -/
theorem wit_store : ∀ l, l ∈ movesBehind →
    let d := dsc opMxStore 1 (255 * 2 ^ 48 + 2097024) 0 0
    let s := owned (behindTile l d [])
    nextOf s 255 unitMatrix [opMxStore] = some (l.length, ent d) ∧ s.tileStands 270 = false
      ∧ (∀ x ∈ (s.tile 270).seq.window.take l.length, x.unit = unitMatrix → (x.desc.opcode = opMxLoad ∨ x.held ≤ x.pos)
        ∧ ∀ w ∈ rowWrites x, w.1 < d.accRow ∨ d.accRow + d.rows ≤ w.1 ∨ w.2 < x.pos + (w.1 - d.accRow))
      ∧ spFault (s.tile 270) s.frame d.frameCarried false [] [storeWrites d] = none := by decide +kernel

/-- A store whose row has been read, about to be written. -/
def storeEnt : WinEntry := { ran (dsc opMxStore 1 (255 * 2 ^ 48 + 2097024) 0 0) 3 with rows := [List.replicate 128 1] }

/-- AccumulatorMoves: a row that is read, and one that is written. -/
theorem wit_move_rows : (let s := owned { Tile.reset with seq := { Seq.reset with window := [storeEnt] } }
    (s.tile 270).seq.window[0]? = some storeEnt ∧ storeEnt.rows = List.replicate 128 1 :: [] ∧ 1 ≤ storeEnt.pos) := by decide +kernel

/-- VectorDescriptorsRun: each opcode with a register destination, alone and behind another that has read its rows; a row that is read, and one whose writes are made. -/
theorem wit_vector : (∀ op, op ∈ [opVxFp, opVxInt, opVxCvt, opVxFn, opVxRed, opVxCmp, opVxMask] → ∀ l, l ∈ [[], [ran (dsc opVxInt 9 0x50002020 0 0) 1]] →
      let d := dsc op 0 (if op = opVxMask then 0xC000C0C0 else if op = opVxCmp then 0xC0002020 else 0x40002020) 0 0
      let s := owned (behindTile l d [])
      nextOf s 255 unitVector [op] = some (l.length, ent d) ∧ s.tileStands 270 = false
        ∧ (∀ x ∈ (s.tile 270).seq.window.take l.length, x.unit = unitVector → x.held ≤ x.pos ∧ ∀ w ∈ vxWrites x.desc,
            (∀ r ∈ vxReads d, r.1 = w.1 → w.2 + x.desc.vxLat < x.pos + r.2)
            ∧ ∀ o ∈ vxWrites d, o.1 = w.1 → w.2 + x.desc.vxLat < x.pos + o.2 + d.vxLat)
        ∧ spFault (s.tile 270) s.frame d.frameCarried false (vxIntervals d).1 (vxIntervals d).2 = none)
    ∧ (let e := { ran (dsc opVxFp 0 0x40002020 0 0) 5 with lanes := [[.set (.reg 31 63) 1 true]] }
       let s := owned { Tile.reset with seq := { Seq.reset with window := [e] } }
       (s.tile 270).seq.window[0]? = some e ∧ e.lanes = [.set (.reg 31 63) 1 true] :: [] ∧ e.chk = .clean) := by decide +kernel

/-- VectorRowResults, MasksAreWritten, IntegerLanesWrap: register, accumulator, scratchpad and mask destinations; ExactSumsRoundOnce: m = 1. -/
theorem wit_rows : (∀ k, k ∈ [2, 3, 4] →
      let d := dsc opVxFp 0 (if k = 2 then 0x5F002020 else if k = 3 then 0x60002020 else 0x80002020) 0 0
      d.opcode ∈ [opVxFp, opVxInt, opVxCvt, opVxFn] ∧ selKind d.dst = k)
    ∧ (∀ a, a < 2 →
       let d := dsc opVxRed (2 + 8 * a) 0x5F000020 0 0
       d.opcode = opVxRed ∧ selKind d.dst = 2 ∧ d.redSpread = false ∧ d.redAccum = (a == 1))
    ∧ (dsc opVxCmp 0 0xC7002020 0 0).opcode = opVxCmp ∧ (dsc opVxMask 0 0xC7002020 0 0).opcode = opVxMask
    ∧ (∀ v, v < 11 → (dsc opVxInt v 0 0 0).opcode = opVxInt ∧ (dsc opVxInt v 0 0 0).variant = v) := by decide +kernel

-- witnesses: the scratchpad, network, Orangery and control units

/-- PortClaimsAreGranted: the last column and banks; claims that do not meet, and one refused; entries with all their claims, and without one. -/
theorem wit_claims : (∃ b ∈ colBanks 4080 15, b.1 = 15)
    ∧ (let e := ran (dsc opSpCopy 0 0 4095 0) 0
       let s := owned { Tile.reset with seq := { Seq.reset with window := [e] } }
       (s.tile 270).seq.window[0]? = some e ∧ e.phase = .running ∧ e.pos < e.span ∧ e.desc.opcode ≠ opMxLoad
        ∧ (∃ a ∈ e.accesses, e.part.testBit (a.1 / 2) = false ∧ ∀ w ∈ ([] : List (Claimant × Claim)), w.1 ≠ .entry 0 a.1)
        ∧ ∀ a ∈ e.accesses, ∃ w ∈ e.accesses.map (fun a => (Claimant.entry 0 a.1, a.2)), w.1 = .entry 0 a.1) := by decide +kernel

/-- ScratchpadLinesMove: fills and copies that end at line 4,095, all 16 chunk columns; alone and behind a fill that has written its line. -/
theorem wit_lines : ∀ k, k ∈ [(opSpFill, 4095, 0), (opSpCopy, 0, 4095), (opSpGather, 15 * 2 ^ 32 + 4080 * 2 ^ 12, 0), (opSpScatter, 15 * 2 ^ 32 + 4080 * 2 ^ 12, 0)] →
    ∀ l, l ∈ [[], [ran (dsc opSpFill 0 0 0 0) 1]] →
      let d := dsc k.1 0 k.2.1 k.2.2 0
      let s := owned (behindTile l d [])
      nextOf s 255 unitSp [k.1] = some (l.length, ent d) ∧ s.tileStands 270 = false
        ∧ (∀ x ∈ (s.tile 270).seq.window.take l.length, x.unit = unitSp → x.held ≤ x.pos)
        ∧ spFault (s.tile 270) s.frame d.frameCarried true (spReads d) (spWrites d) = none := by decide +kernel

/-- ScratchpadLinesMove: a line that is read, and one that is written; a fill reads none. -/
theorem wit_line_rows : ∀ op, op ∈ [opSpFill, opSpCopy, opSpGather, opSpScatter] →
    let e := { ran (dsc op 0 0 0 0) 2 with rows := [List.replicate 512 1] }
    let s := owned { Tile.reset with seq := { Seq.reset with window := [e] } }
    (s.tile 270).seq.window[0]? = some e ∧ e.chk = .clean ∧ e.desc.opcode = op ∧ e.rows = List.replicate 512 1 :: []
      ∧ (List.replicate 512 (1 : Byte)).length = 512 := by decide +kernel

/-- Registers of send channel 31: open, to tile (15, 15), 16 slots with credits; on channel 1 too. -/
def sendRegs (kind remote : Nat) : List (Fld × Nat) :=
  [(TW_SEND_CFG_KIND 31, kind), (TW_SEND_CFG_REMOTE 31, remote), (TW_SEND_CFG_SLOTS 31, 16), (TW_SEND_CFG_DEST_I 31, 15), (TW_SEND_CFG_DEST_J 31, 15),
   (TW_SEND_CFG_SCHED_OK 31, 1), (TW_SEND_STATE_OPEN 31, 1), (TW_SEND_STATE_CREDITS 31, 16)]

/-- A PUT of 16 slots, or a message of 15 units with its header, on the last channel. -/
def putDsc (msg : Bool) (vc : Nat) : Desc := dsc (if msg then opNetPutMsg else opNetPut) vc (31 + (if msg then 14 else 15) * 32 + 0xFF * 2 ^ 40) 0 0

/-- The last tile with one that waits. -/
def putAt (msg : Bool) (l : List WinEntry) (vc r : Nat) : State := owned (behindTile l (putDsc msg vc) (sendRegs (if msg then kindRing else kindBuffer) r))

/-- The conditions of a PUT or PUT_MSG on the send channel. -/
theorem wit_put_channel : ∀ msg, msg ∈ [false, true] → ∀ vc, vc < 2 → ∀ r, r < 2 →
    let d := putDsc msg vc
    let u := (putAt msg [] vc r).tile 270
    d.vc = vc ∧ u.rd (TW_SEND_CFG_KIND d.chan) = (if msg then kindRing else kindBuffer) ∧ d.putSlots = 16 ∧ u.rd (TW_SEND_CFG_SLOTS d.chan) = 16
      ∧ d.dstOff + 64 * d.putUnits ≤ 64 * u.rd (TW_SEND_CFG_SLOTS d.chan)
      ∧ u.rd (TW_SEND_CFG_SCHED_OK d.chan) = 1 ∧ 64 * d.putSlots ≤ 0x80000 ∧ injectBusy (putAt msg [] vc r) 270 255 0 d.flits = false
      ∧ spFault u 0 false true [(d.netSrc, d.netSrc + 64 * d.putUnits - 1)] [] = none
      ∧ u.chSeen (TW_SEND_STATE_OPEN d.chan) = 1 ∧ putCredits u d ≤ u.chSeen (TW_SEND_STATE_CREDITS d.chan) := by
  decide +kernel

/-- TransfersAndGetRequestsLeave: on each virtual channel; on channel 0 behind a PUT whose flits have left. -/
theorem wit_net : (∀ msg, msg ∈ [false, true] → let op := if msg then opNetPutMsg else opNetPut
      nextScheduled (putAt msg [] 1 1) 270 [op] = some (0, ent (putDsc msg 1)) ∧ (putAt msg [] 1 1).tileStands 270 = false)
    ∧ ∀ msg, msg ∈ [false, true] → ∀ l, l ∈ [[], [ran (dsc opNetPut 0 31 0 0) 1]] → let op := if msg then opNetPutMsg else opNetPut
      let s := putAt msg l 0 0
      nextScheduled s 270 [op] = none ∧ nextOf s 255 unitNet [op] = some (l.length, ent (putDsc msg 0))
        ∧ ∀ y ∈ (s.tile 270).seq.window.take l.length, y.unit = unitNet → y.held ≤ y.pos := by decide +kernel

/-- TransfersAndGetRequestsLeave: a transfer under way whose next flit leaves. -/
theorem wit_put_flit : (let s := { live with die := { live.die with transfers := [{ Transfer.blank with id := 7, left := 2 }] } }
    s.xfer { ran (dsc opNetPut 0 0 0 0) 1 with xfer := 7 }.xfer = some { Transfer.blank with id := 7, left := 2 }) := by decide +kernel

/-- TransfersAndGetRequestsLeave: a GET of lines 0 and 1 of channel 31, alone and behind a PUT, and on channel 0 to a port. -/
def getAt (l : List WinEntry) (vc r : Nat) : State := owned (behindTile l (dsc opNetGet vc (31 + 2 ^ 32) 0 0) (sendRegs kindRead r))
theorem wit_get : ∀ k, k ∈ [(0, 0), (0, 1), (1, 0)] → ∀ l, l ∈ [[], [ran (dsc opNetPut 0 31 0 0) 1]] →
    let d := dsc opNetGet k.1 (31 + 2 ^ 32) 0 0
    let s := getAt l k.1 k.2
    let u := s.tile 270
    nextOf s 255 unitNet [opNetGet] = some (l.length, ent d) ∧ d.vc = k.1 ∧ (∀ y ∈ u.seq.window.take l.length, y.unit = unitNet → y.held ≤ y.pos)
      ∧ s.tileStands 270 = false ∧ u.rd (TW_SEND_CFG_REMOTE d.chan) = k.2 ∧ u.rd (TW_SEND_CFG_SCHED_OK d.chan) = 1 := by decide +kernel
theorem wit_get_channel : (let d := dsc opNetGet 0 (31 + 2 ^ 32) 0 0
    let u := (getAt [] 0 0).tile 270
    u.rd (TW_SEND_CFG_KIND d.chan) = kindRead ∧ d.getSrcLine + d.getLines = u.rd (TW_SEND_CFG_SLOTS d.chan) / 8
      ∧ spFault u 0 d.frameCarried false [] [(d.getDst, d.getDst + 512 * d.getLines - 1)] = none ∧ u.chSeen (TW_SEND_STATE_OPEN d.chan) = 1) := by decide +kernel

/-- OrangeryReads, OrangeryWrites: the last unit of pavilion 3's window; each starts. -/
theorem wit_orangery : ∀ op, op ∈ [opOyRead, opOyTerrace, opOyWrite] →
    let s0 := unitAt (dsc op 0 0 0 0) []
    let d := dsc op 0 (windowBytes s0 3 - if op = opOyTerrace then 512 else 64) 0 0
    let s := unitAt d []
    nextOf s 255 unitOy [op] = some (0, ent d) ∧ oyPv s 270 = 3 ∧ oldestWaiting (s.tile 270).seq = none
      ∧ ((s.tile 270).seq.window.filter (fun x => x.unit == unitOy && x.phase != .issued)).length < 8 ∧ d.oyAddr + d.oyBytes = windowBytes s 3
      ∧ spFault (s.tile 270) s.frame d.frameCarried true [] [(d.oySp, d.oySp + d.oyBytes - 1)] = none
      ∧ spFault (s.tile 270) s.frame d.frameCarried true [(d.oySp, d.oySp + d.oyBytes - 1)] [] = none := by decide +kernel

/-- OrangeryWrites: a source flit before the last, and the last one with room in the quota and without; an OY_WRITE that waits, with room. -/
theorem wit_orangery_fetch : ∀ pos, pos ∈ [1, 2] → ∀ quota, quota < 2 →
    let e := { ran (dsc opOyWrite 0 0 (4 * 2 ^ 21) 0) pos with rows := List.replicate (pos - 1) (List.replicate 256 1) }
    let s := put (owned { Tile.reset with seq := { Seq.reset with window := [e] } }) [(OY_PV_CFG_QUOTA 3, quota)]
    (s.tile 270).seq.window[0]? = some e ∧ e.chk = .clean ∧ oyPv s 270 = 3 ∧ e.desc.flits = 2 ∧ commitRoom s 3 e.desc.oyBytes = (quota == 1) := by decide +kernel
theorem wit_orangery_waiting : (let e := { ran (dsc opOyWrite 0 0 0 0) 1 with rows := [List.replicate 64 1], phase := .waiting, roomWaited := true }
    let s := owned { Tile.reset with seq := { Seq.reset with window := [e] } }
    oyPv s 270 = 3 ∧ oldestWaiting (s.tile 270).seq = some (0, e) ∧ commitRoom s 3 e.desc.oyBytes = true) := by decide +kernel

/-- BarriersArrive: entry 63, granted and not. -/
theorem wit_barrier : ∀ mode, mode < 2 →
    let d := dsc opCtBarrier mode (63 + 0xFF00) 1 0
    let s := (unitAt d []).setBarrier 63 { Barrier.reset with pv := some 3 }
    nextOf s 255 unitCt [opCtBarrier] = some (0, ent d) ∧ d.barMode = mode ∧ s.tileStands 270 = false ∧ (s.barrier d.barEntry).pv ≠ none
      ∧ (s.barrier d.barEntry).pv = s.pvOfTile 270 ∧ nextOf (unitAt d []) 255 unitCt [opCtBarrier] = some (0, ent d)
      ∧ (unitAt d []).tileStands 270 = false ∧ ((unitAt d []).barrier d.barEntry).pv = none := by decide +kernel

/-- SignalsAct: JOIN; REMOTE_ADD on channel 31 of each virtual channel; CREDIT_RETURN of channel 31 on the die. -/
theorem wit_signal : (let d := dsc opCtSignal 0 0 0 0
      nextOf (unitAt d []) 255 unitCt [opCtSignal] = some (0, ent d) ∧ d.variant = 0 ∧ (unitAt d []).tileStands 270 = false)
    ∧ (∀ vc, vc < 2 →
       let d := dsc opCtSignal 1 (31 + 256 * vc + 63 * 2 ^ 40 + 2 ^ 48) 0 0
       let s := unitAt d (sendRegs kindBuffer 0)
       s.tileStands 270 = false ∧ d.vc = vc
        ∧ ((vc = 1 ∧ addScheduled s 255 = some (0, ent d))
            ∨ (addScheduled s 255 = none ∧ nextOf s 255 unitCt [opCtSignal] = some (0, ent d) ∧ d.variant = 1))
        ∧ (s.tile 270).rd (TW_SEND_CFG_SCHED_OK d.chan) = 1 ∧ injectBusy s 270 255 0 1 = false ∧ (s.tile 270).chSeen (TW_SEND_STATE_OPEN d.chan) = 1)
    ∧ (let d := dsc opCtSignal 2 (31 + 0xFFFF * 2 ^ 16) 0 0
       let s := unitAt d [(TW_RECV_CFG_KIND 31, kindBuffer), (TW_RECV_CFG_SRC_I 31, 15)]
       nextOf s 255 unitCt [opCtSignal] = some (0, ent d) ∧ d.variant = 2 ∧ s.tileStands 270 = false ∧ (s.tile 270).rd (TW_RECV_CFG_KIND d.chan) = kindBuffer
        ∧ (s.tile 270).rd (TW_RECV_CFG_REMOTE d.chan) = 0) := by decide +kernel

/-- SignalsAct: CREDIT_RETURN of 32,767 credits to module 4,095, by port 15. -/
theorem wit_signal_port : (let d := dsc opCtSignal 2 (31 + 0x7FFF * 2 ^ 16) 0 0
    let s := put (linked2 (unitAt d [(TW_RECV_CFG_KIND 31, kindBuffer), (TW_RECV_CFG_REMOTE 31, 1), (TW_RECV_CFG_SRC_MODULE 31, 4095)]))
      [(FB_ROUTE_VALID 4095, 1), (FB_ROUTE_PORT 4095, 15)]
    nextOf s 255 unitCt [opCtSignal] = some (0, ent d) ∧ d.variant = 2 ∧ s.tileStands 270 = false ∧ (s.tile 270).rd (TW_RECV_CFG_KIND d.chan) = kindBuffer
      ∧ (s.tile 270).rd (TW_RECV_CFG_REMOTE d.chan) = 1 ∧ d.creditCount = 32767 ∧ portToward s ((s.tile 270).rd (TW_RECV_CFG_SRC_MODULE d.chan)) = some 15
      ∧ portCarries s 15 = true) := by decide +kernel

/-- HashesAreWritten: one block from the salt of entry 63, with no other tile of the cluster at the lane. -/
theorem wit_hash : (let d := dsc opCtHash 1 (63 * 2 ^ 32) 0 (2 ^ 21 - 32)
    let s := put (unitAt d []) [(IH_SALT_CFG_VALID 63, 1), (IH_SALT_CFG_PAVILION 63, 3)]
    nextOf s 255 unitCt [opCtHash] = some (0, ent d) ∧ s.tileStands 270 = false
      ∧ (∀ u ∈ tilesOf (clusterOf 255), (∀ x ∈ (s.tile (s.phys u)).seq.window, x.desc.opcode = opCtHash → x.phase = .issued ∨ x.held ≤ x.pos)
        ∧ ∀ w ∈ (nextOf s u unitCt [opCtHash]).toList, (ent d).issuedAt < w.2.issuedAt ∨ ((ent d).issuedAt = w.2.issuedAt ∧ 255 ≤ u))
      ∧ s.rd (IH_SALT_CFG_VALID d.saltId) = 1 ∧ s.pvOfTile 270 = some (s.rd (IH_SALT_CFG_PAVILION d.saltId))
      ∧ spFault (s.tile 270) s.frame d.frameCarried false (hashReads d) [(d.hashDst, d.hashDst + 32 * d.hashBlocks - 1)] = none) := by decide +kernel

/-- HashesAreWritten: a digest that is read, and one that is written to the last bytes. -/
theorem wit_hash_rows : (let e := { ran (dsc opCtHash 0 (63 * 2 ^ 32) 0 (2 ^ 21 - 32)) 1091 with rows := [List.replicate 32 1, List.replicate 32 2] }
    let s := owned { Tile.reset with seq := { Seq.reset with window := [e] } }
    (s.tile 270).seq.window[0]? = some e ∧ e.chk = .clean ∧ e.rows = List.replicate 32 1 :: List.replicate 32 2 :: []
      ∧ e.desc.hashDst + 32 * ((e.pos - 3) / 1088 - 1) = 2 ^ 21 - 32) := by decide +kernel

/-- SamplesAreDelivered: slot 1,023, target and draft values of the last of its vocabulary. -/
theorem wit_sample : ∀ part, part < 2 →
    let d := dsc opCtSample part (1023 + 131071 * 2 ^ 32) 0 0
    let s := put (unitAt d []) [(BS_SLOT_CFG_OPEN 1023, 1), (BS_SLOT_CFG_DEPTH 1023, 8)]
    nextOf s 255 unitCt [opCtSample] = some (0, ent d) ∧ d.samplePart = part ∧ s.tileStands 270 = false
      ∧ (∀ u ∈ tilesOf (clusterOf 255), (∀ x ∈ (s.tile (s.phys u)).seq.window, x.desc.opcode = opCtSample → x.phase = .issued ∨ x.held ≤ x.pos)
        ∧ ∀ w ∈ (nextOf s u unitCt [opCtSample]).toList, (ent d).issuedAt < w.2.issuedAt ∨ ((ent d).issuedAt = w.2.issuedAt ∧ 255 ≤ u))
      ∧ s.pvOfTile 270 = some (s.rd (BS_SLOT_CFG_PAVILION d.sampleSlot)) ∧ d.sampleVoff + d.sampleCount = s.rd (BS_SLOT_CFG_VOCAB d.sampleSlot)
      ∧ spFault (s.tile 270) s.frame false true [(d.netSrc, d.netSrc + 4 * d.sampleCount - 1)] [] = none := by decide +kernel

/-- SamplesAreDelivered: the first of two flits of 65 values, and the last, whose delivery is taken. -/
theorem wit_sample_rows : ∀ part, part < 2 → ∀ pos, pos < 2 →
    let e := ran (dsc opCtSample part 1023 (64 * 2 ^ 21) 0) pos
    let s := put (owned { Tile.reset with seq := { Seq.reset with window := [e] } }) [(BS_SLOT_CFG_OPEN 1023, 1), (BS_SLOT_CFG_DEPTH 1023, 8)]
    (s.tile 270).seq.window[0]? = some e ∧ e.chk = .clean ∧ e.desc.flits = 2
      ∧ deliveryRefused s e.desc.sampleSlot (e.desc.samplePart == 1) e.desc.samplePos e.desc.sampleCount ((s.pvOfTile 270).getD 0) = false
      ∧ ∀ c ∈ s.die.band.commits, c.slot = e.desc.sampleSlot → c.cycle ≠ bandCycle s := by decide +kernel

/-- SamplesAreDelivered: the commit of a slot that has not ended, and of a draft slot that has. -/
theorem wit_sample_commit : ∀ draft, draft < 2 →
    let d := dsc opCtSample 2 1023 0 0
    let s := put (unitAt d []) [(BS_SLOT_CFG_OPEN 1023, 1), (BS_SLOT_CFG_MODE 1023, draft), (BS_SLOT_STATE_PHASE 1023, bsEnded * draft)]
    nextOf s 255 unitCt [opCtSample] = some (0, ent d) ∧ d.samplePart = 2 ∧ s.tileStands 270 = false
      ∧ (∀ u ∈ tilesOf (clusterOf 255), (∀ x ∈ (s.tile (s.phys u)).seq.window, x.desc.opcode = opCtSample → x.phase = .issued ∨ x.held ≤ x.pos)
        ∧ ∀ w ∈ (nextOf s u unitCt [opCtSample]).toList, (ent d).issuedAt < w.2.issuedAt ∨ ((ent d).issuedAt = w.2.issuedAt ∧ 255 ≤ u))
      ∧ s.pvOfTile 270 = some (s.rd (BS_SLOT_CFG_PAVILION d.sampleSlot)) ∧ slotOpen s d.sampleSlot = true
      ∧ (slotDraft s d.sampleSlot = true ∨ s.rd (BS_SLOT_STATE_PHASE d.sampleSlot) ≠ bsEnded) := by decide +kernel
-- witnesses: landings and arrivals

/-- A flit of channel 1 whose landing tc has come, a pad record, and a flit of channel 0 at the end of its path of `h` links. -/
def f1 : MeshFlit := { car := 1, due := 100, hop := 0, came := 0, pad := false, off := 0, data := List.replicate 64 255 }
def fPad : MeshFlit := { f1 with pad := true }
def f0 (h : Nat) : MeshFlit := { f1 with car := 0, hop := h }

/-- A transfer of operation `op` that has reached the last tile for receive channel 31, generation 255, with counter 63. -/
def here (op : Nat) (l : List MeshFlit) : Transfer :=
  { Transfer.blank with
    op := op, vc := 1, srcTile := 255, dstTile := 255, rchan := 31, gen := 255, rctr := 63, rinc := 65535, lines := 1, getAddr := 5,
    handler := 0x7FF8, head := List.replicate 64 0, air := l }

/-- The running module with that transfer; its receive channel 31 is open (`g` = 255: in the transfer's generation), with its buffer at the top of the
scratchpad. -/
def landing (op g : Nat) (l : List MeshFlit) : State :=
  let d := dsc opNetGet 0 31 0 0
  let s := atTile 255 (unitTile d [(TW_RECV_CFG_BASE 31, 0x7FFF), (TW_RECV_CFG_SLOTS 31, 1), (TW_RECV_STATE_OPEN 31, 1), (TW_RECV_STATE_GEN 31, g)])
  let s := s.modTile 270 (fun t => { t with seq := { t.seq with window := [{ ent d with phase := .waiting }] } })
  { s with die := { s.die with transfers := [here op l] } }

/-- What the landing statements ask of a transfer at its tile, on each channel, of each operation, and for a channel of its generation or another. -/
theorem wit_landing : ∀ op, op < 5 → ∀ g, g ∈ [0, 255] → ∀ l, l ∈ [[f1], [fPad, f1], [f0 (here op [f1]).path.length]] →
    let s := landing op g l
    let x := here op l
    s.die.transfers[0]? = some x ∧ 270 = s.phys x.dstTile ∧ l ≠ [] ∧ s.xfer x.id = some x
      ∧ (∀ f ∈ x.air, if f.car = 1 then f.due ≤ s.now 270 ∧ s.tileStands 270 = false else x.path.length ≤ f.hop ∧ f.due ≤ s.sun.tick)
      ∧ (∀ f ∈ x.air, f.car ≠ 1 → landCount f ≠ 0 → claimOk s 270 (landClaim (s.tile 270) x f) = true)
      ∧ (s.tile 270).chSeen (TW_RECV_STATE_OPEN 31) = 1 ∧ (s.tile 270).chSeen (TW_RECV_STATE_GEN 31) = g := by decide +kernel
theorem wit_at_its_tile : AtItsTile (landing 1 255 [fPad, f1]) (here 1 [fPad, f1]) 270 :=
  ⟨by decide +kernel, by decide +kernel, rfl, rfl, by decide +kernel, by decide +kernel, by decide +kernel, by decide +kernel⟩

/-- TransfersLand: the GET that a reply answers. -/
theorem wit_reply : (let s := landing 3 255 [f1]
    getEntry s (s.tile 270).seq (here 3 [f1]) = some 0 ∧ (s.tile 270).seq.window[0]? = some { ent (dsc opNetGet 0 31 0 0) with phase := .waiting }) := by
  decide +kernel

/-- TransfersLand: bytes that no writer of R147's later places has written, from the last slot of the scratchpad. -/
theorem wit_landed_bytes : (let t := (landing 0 255 [f1]).tile 270
    landAt t (here 0 [f1]) f1 = 512 * 4096 - 64 ∧ (SMap.look t.spNew (512 * 4096 - 1) (0, 0)).2 ≤ byLanding) := by decide +kernel

/-- MessagesLand: a queue that nothing has entered in this tc, and one that a reset has emptied in it. -/
theorem wit_queue : ((landing 1 255 [f1]).tile 270).hqNew = 0 ∧ SMap.look ((landing 1 255 [f1]).tile 270).chPrev resetMark 0 ≠ 1
    ∧ SMap.look { Tile.reset with chPrev := [(resetMark, 1)] }.chPrev resetMark 0 = 1 := by decide +kernel

/-- A window of the last tile of age `n`; and one whose line is read, with a reply under way. -/
def gw (n : Nat) : GetWindow :=
  { owner := 255, vc := 1, line := 4095, lines := 1, age := n, reqs := [{ here 2 [] with srcTile := 0 }], started := false, pos := 0, car := 1, chk := .clean, rows := [],
    replies := [] }
def gwRead : GetWindow := { gw 17 with started := true, pos := 1, rows := [List.replicate 256 1, List.replicate 256 2], replies := [0] }

/-- The running module with such a window, and the request or the reply. -/
def withWindow (w : GetWindow) (op : Nat) : State := let s := landing op 255 [f1]; { s with die := { s.die with windows := [w] } }

/-- GetWindowsAnswer: no window, one of age 15 to join, one of age 16, which ends; BASE / 8 + 0 = 4,095. -/
theorem wit_windows : 4095 = ((landing 2 255 [f1]).tile 270).rd (TW_RECV_CFG_BASE 31) / 8 + (here 2 [f1]).line
    ∧ (∀ w ∈ (landing 2 255 [f1]).die.windows, ¬(w.owner = 255 ∧ w.vc = 1 ∧ w.line = 4095 ∧ w.lines = 1 ∧ w.age < 16))
    ∧ (∃ w ∈ (withWindow (gw 15) 2).die.windows, w.owner = 255 ∧ w.vc = 1 ∧ w.line = 4095 ∧ w.lines = 1 ∧ w.age < 16)
    ∧ (let s := withWindow (gw 16) 2
       s.die.windows[0]? = some (gw 16) ∧ 16 ≤ (gw 16).age ∧ (gw 16).started = false ∧ s.tileStands (s.phys 255) = false
        ∧ ∀ x ∈ (gw 16).reqs, x.srcMod = s.index)
    ∧ (let s := withWindow gwRead 3
       s.die.windows[0]? = some gwRead ∧ gwRead.chk = .clean ∧ gwRead.rows = List.replicate 256 1 :: [List.replicate 256 2] ∧ gwRead.replies.Nodup
        ∧ 0 ∈ gwRead.replies ∧ s.xfer 0 = some (here 3 [f1])) := by decide +kernel

/-- Control words that have arrived. -/
def withCtl (s : State) (b : CtlBody) : State := { s with die := { s.die with ctls := [⟨b, 100, false⟩] } }

/-- A pending arrival of the last tile's barrier descriptor at line 10. -/
def arrival (target : Nat) : Arrival := ⟨0, 255, 80, false, 0, 0, 0xFF, target⟩

/-- The running module with a tile that waits at barrier 63. -/
def atBarrier : State :=
  let d := dsc opCtBarrier 0 (63 + 0xFF00) 1 0
  let s := (unitAt d []).modTile 270 (fun t => { t with seq := { t.seq with window := [{ ent d with phase := .waiting, addr := 80 }] } })
  s.setBarrier 63 { Barrier.reset with pv := some 3, total := 0xFFFFFE01, pend := [arrival 0xFFFFFF00] }

/-- ControlWordsTakeEffect: a credit for an open channel and a closed one; a revocation; an arrival that takes the total to 0xFFFFFF00; one of machine
scope on a module that is not the root; a release. -/
theorem wit_credit : (let s := withCtl (atTile 255 (putT Tile.reset (sendRegs kindBuffer 0))) (.credit 255 31 65535)
      s.die.ctls[0]? = some ⟨.credit 255 31 65535, 100, false⟩ ∧ 100 ≤ s.sun.tick ∧ 270 = s.phys 255 ∧ (s.tile 270).rd (TW_SEND_STATE_OPEN 31) = 1
        ∧ revokedNow s 270 31 = false)
    ∧ (let s := withCtl live (.credit 255 31 1)
       s.die.ctls[0]? = some ⟨.credit 255 31 1, 100, false⟩ ∧ 270 = s.phys 255 ∧ (s.tile 270).rd (TW_SEND_STATE_OPEN 31) ≠ 1)
    ∧ (withCtl live (.revoke 255 31)).die.ctls[0]? = some ⟨.revoke 255 31, 100, false⟩ := by decide +kernel
theorem wit_arrival : (let s := withCtl atBarrier (.arrive 63 false 0 (arrival 0xFFFFFF00))
      s.die.ctls[0]? = some ⟨.arrive 63 false 0 (arrival 0xFFFFFF00), 100, false⟩ ∧ 100 ≤ s.sun.tick
        ∧ (s.barrier 63).total.toNat + (arrival 0).add = 0xFFFFFF00)
    ∧ (let s := put (linked2 (withCtl atBarrier (.arrive 63 true 65535 (arrival 1)))) [(FB_TREE_ROOT, 0), (FB_TREE_UP_PORT, 15)]
       s.die.ctls[0]? = some ⟨.arrive 63 true 65535 (arrival 1), 100, false⟩ ∧ s.rd FB_TREE_ROOT = 0 ∧ s.rd FB_TREE_UP_PORT = 15 ∧ portCarries s 15 = true)
    ∧ (let s := withCtl atBarrier (.release 63 0xFFFFFF00)
       s.die.ctls[0]? = some ⟨.release 63 0xFFFFFF00, 100, false⟩ ∧ (s.barrier 63).pend = [arrival 0xFFFFFF00] ∧ (arrival 0).module = s.index
        ∧ (arrival 0).mode = 0 ∧ 270 = s.phys (arrival 0).tile
        ∧ (s.tile 270).seq.window.findIdx? (fun e => e.desc.opcode == opCtBarrier && e.phase == .waiting && e.handler == false && e.addr == 80) = some 0) := by
  decide +kernel

/-- TileMemoryUpkeep: an idle tile; one that runs; a clear before its last line or beat; scrubbers that may read, and one that may not. -/
theorem wit_upkeep : (live.tile 271).seq.run = .idle ∧ ((atTile 255 (headed mul1 [] [])).tile 270).seq.run ≠ .idle
    ∧ { Tile.reset with spClear := some 4096 }.trClear = none ∧ live.retired 271 = false ∧ (live.tile 271).spScrubGap = 0
    ∧ claimOk live 271 (.row 1 6 (512 * (live.tile 271).spScrub) 512) = true ∧ ((putT Tile.reset [(TL_TR_CTRL_SCRUB_INTERVAL, 0)]).rd TL_TR_CTRL_SCRUB_INTERVAL = 0)
    ∧ (let s := live.setTile 271 (putT Tile.reset [(TL_TR_CTRL_SCRUB_INTERVAL, 1)])
       (s.tile 271).rd TL_TR_CTRL_SCRUB_INTERVAL ≠ 0 ∧ (s.tile 271).trScrubGap = 0
        ∧ ∀ e ∈ (s.tile 271).seq.window, e.desc.opcode = opMxLoad → e.phase = .running → e.held ≤ e.pos)
    ∧ (let s := landing 0 255 [f1]
       (s.tile 270).rd (TW_RECV_STATE_OPEN 31) = 1 ∧ (s.tile 270).rd (TW_RECV_CFG_REMOTE 31) = 0 ∧ s.logical 270 = some 255) := by decide +kernel
-- witnesses: the Footbridge

/-- A scheduled transfer of 64 bytes that reaches port 15 for slot 1,023. -/
def sched : Transfer :=
  { Transfer.blank with
    op := 0, vc := 1, srcTile := 255, dstTile := 255, leg := 1, port := 15, fbSlot := 1023, air := [f1] }

/-- The running module at frame cycle `c`, the slots of port 15 `len` cycles apart, with that transfer. -/
def slotted (len c : Nat) : State :=
  let s := put (linked2 live) [(FB_SLOTS_SLOT_LEN 15, len), (FB_SLOTS_CAPACITY 15, 2), (FB_LINK_SCHED_LAT 15, 60)]
  { s with sun := { s.sun with ctr := c }, die := { s.die with transfers := [sched] } }

/-- TransfersCrossLinks: slot 1,023 begins at 3,069 and is free: the first flit comes 256 tc and 1 tc before; too late; too early; past slot 1,023;
claimed. -/
theorem wit_slot : (∀ c, c ∈ [2813, 3068] →
      let s := slotted 3 c
      s.die.transfers[0]? = some sched ∧ s.xfer sched.id = some sched ∧ sched.air.filter (atPort s sched) = [f1] ∧ f1.off = 0
        ∧ (∀ e ∈ (s.port 15).egress ++ (s.port 15).bulk, e.tr.id ≠ sched.id) ∧ slotCycle s 15 1023 ≤ s.sun.ctr + 256 ∧ s.sun.ctr < slotCycle s 15 1023
        ∧ 1023 + (slotsOf s 15 sched).length = 1024 ∧ (∀ k ∈ slotsOf s 15 sched, k ∉ (s.port 15).claims))
    ∧ slotCycle (slotted 3 3069) 15 1023 ≤ (slotted 3 3069).sun.ctr ∧ (slotted 3 2812).sun.ctr + 256 < slotCycle (slotted 3 2812) 15 1023
    ∧ 1024 < 1023 + (slotsOf (put (slotted 3 3068) [(FB_SLOTS_CAPACITY 15, 1)]) 15 sched).length
    ∧ (∃ k ∈ slotsOf (slotted 3 3068) 15 sched, k ∈ [1023]) ∧ (slotted 3 3069).standing = false := by decide +kernel

/-- An arriving transfer of `n` bytes for slot 1,000 of which `got` flits have come and `shown` mesh flits have entered the Trellis as transfer `x`. -/
def ing (n got shown : Nat) (x : Option Nat) : Ingress := ⟨{ sched with fbSlot := 1000, n := n, air := [] }, n / 64 + 1, got, shown, x, none, false⟩
def presentsAt (c : Nat) (e : Ingress) : State := (slotted 3 c).setPort 15 { Port.reset with sched := [e] }

/-- TransfersCrossLinks: a route flit that is not there 6 tc before its presentation at 3,060, and the last flit of 9; a presentation of a first, middle
and last mesh flit. -/
theorem wit_present : (∀ k, k ∈ [(3054, 0, 0), (3064, 8, 8)] →
      let s := presentsAt k.1 (ing 512 k.2.1 1 none)
      s.rd SD_STATUS_RUNNING = 1 ∧ s.sun.freeze = none ∧ (s.port 15).sched[0]? = some (ing 512 k.2.1 1 none) ∧ k.2.2 < 9
        ∧ presentCycle s 15 (ing 512 k.2.1 1 none) k.2.2 = s.sun.ctr + 6 ∧ k.2.1 ≤ k.2.2 ∧ (s.port 15).sched.length = 1)
    ∧ (∀ e, e ∈ [ing 512 5 0 none, ing 64 2 0 none] →
      let s := presentsAt 3070 e
      s.standing = false ∧ (s.port 15).sched[0]? = some e ∧ e.shown < meshFlits e.tr.n ∧ nextFlit e < e.got ∧ presentCycle s 15 e (nextFlit e) ≤ s.sun.ctr
        ∧ ∀ z ∈ s.die.transfers, z.id ≠ s.die.nextXfer + 1)
    ∧ (let e := ing 512 9 1 (some 0)
       let s := presentsAt 3070 e
       (s.port 15).sched[0]? = some e ∧ e.shown + 1 = meshFlits e.tr.n ∧ nextFlit e < e.got ∧ presentCycle s 15 e (nextFlit e) ≤ s.sun.ctr
        ∧ s.xfer 0 = some sched) := by decide +kernel

/-- TransfersCrossLinks: a channel-0 transfer that arrives on port 15, whole or not, with no route, for this module and for another. -/
theorem wit_bulk : ∀ got, got ∈ [1, 2] → let e := ing 64 got 0 none
    let s := (slotted 3 100).setPort 15 { Port.reset with inbound := [e] }
    (s.port 15).inbound[0]? = some e ∧ s.rd (FB_ROUTE_VALID e.tr.dstMod) = 0 ∧ (put s [(FB_ROUTE_VALID 0, 1)]).rd (FB_ROUTE_VALID e.tr.dstMod) ≠ 0
      ∧ e.tr.dstMod = s.index ∧ 4095 ≠ s.index := by decide +kernel

/-- A block with flit `f` in its last place, number `n`, and credits. -/
def blockOf (f : Flit) (n : Nat) : Block :=
  { flits := List.replicate 31 none ++ [some f], seq := w32 n, ack := 32767, nak := false, credits := 4095, creditCls := 1 }

/-- A flit of a virtual channel, and a credit word for send channel 31 of the last tile. -/
def flitOf (vc : Nat) : Flit := { vc := vc, first := true, last := false, cls := 1, body := [1, 2, 3, 4, 5, 6, 7, 8] }
def creditFlit : Flit := { flitOf 2 with last := true, body := [w64 (6 + (255 + 256 * 31 + 8192 * 0x7FFF) * 2 ^ 36), 0, 0, 0, 0, 0, 0, 0] }

/-- LinkBlocksCross: the bytes of a block (R226, R227; CRC and parity worked out apart from the model), which read back with one of them wrong; and bytes
with 3 wrong in one codeword, which do not. -/
def bytesIn : List Byte :=
  List.replicate 1984 0 ++ [1, 0, 0, 0, 0, 0, 0, 0, 2, 0, 0, 0, 0, 0, 0, 0, 3, 0, 0, 0, 0, 0, 0, 0, 4, 0, 0, 0, 0, 0, 0, 0,
    5, 0, 0, 0, 0, 0, 0, 0, 6, 0, 0, 0, 0, 0, 0, 0, 7, 0, 0, 0, 0, 0, 0, 0, 8, 0, 0, 0, 0, 0, 0, 0]
  ++ (List.replicate 15 [3, 48, 0]).flatten ++ [3, 80, 1, 255, 255, 255, 255, 255, 127, 255, 31, 0, 0, 0, 0, 174, 214, 241, 229]
  ++ [214, 165, 48, 143, 178, 100, 32, 58, 10, 199, 101, 100, 118, 252, 207, 137, 178, 100, 32, 58, 217, 197, 179, 227, 118, 252, 207, 137, 123,
    233, 38, 152, 241, 155, 233, 184, 26, 25, 136, 184, 222, 129, 103, 11, 102, 34, 34, 85, 110, 140, 15, 112, 56, 113, 4, 168, 73, 136, 110, 13,
    131, 45, 217, 160]
theorem test_block_reads : decodeBlock (bytesIn.set 5 9) = some (blockOf (flitOf 1) 0xFFFFFFFF, 1) := by decide +kernel
theorem test_block_fails : decodeBlock ((List.replicate 2176 0).set 0 1 |>.set 16 2 |>.set 32 4) = none := by decide +kernel

/-- LinkBlocksCross: port 15 awaits that block; another; the one that comes is the eighth to fail; a credit word. -/
theorem wit_blocks : (let b := blockOf (flitOf 1) 0xFFFFFFFF
    let s := linked2 live
    s.rd (FB_STATUS_STATE 15) = 5 ∧ parseBlock bytesIn = b ∧ s.replay.standing = false
      ∧ b.seq.toNat = (s.setPort 15 { s.port 15 with rxSeq := 0xFFFFFFFF, fails := 7 } |>.port 15).rxSeq ∧ b.flits.filterMap id = [flitOf 1]
      ∧ b.seq.toNat ≠ 0x80000000 ∧ 2147483648 ≤ (0x80000000 - 1 + 4294967296 - b.seq.toNat) % 4294967296
      ∧ (∀ f ∈ b.flits.filterMap id, f.vc < 3 ∧ f.cls < 2 ∧ f.body.length = 8) ∧ b.flits.length = 32
      ∧ (blockOf creditFlit 0).flits.filterMap id = [creditFlit] ∧ bits (creditFlit.body.getD 0 0) 7 0 = 6
      ∧ portCarries s 15 = true ∧ (s.port 15).retry = [] ∧ ((s.setPort 15 { s.port 15 with retry := [b] }).port 15).retry = b :: []) := by decide +kernel
theorem wit_pattern : ∀ k, k ∈ [1, 2, 3] → let s := put live [(FB_CTRL_ENABLE 15, 1), (FB_CTRL_TEST_PATTERN 15, k)]
    s.rd (FB_CTRL_ENABLE 15) = 1 ∧ s.rd (FB_CTRL_TEST_PATTERN 15) = k := by decide +kernel

/-- PortsTrain: each state of a port, with and without ENABLE and IN_MACHINE. -/
theorem wit_train : ∀ st, st < 6 → ∀ m, m < 2 →
    let s := put live [(FB_STATUS_STATE 15, st), (FB_CTRL_ENABLE 15, 1), (FB_CTRL_IN_MACHINE 15, m), (FB_STATUS_LANES_SIGNAL 15, 0xFF)]
    s.rd (FB_STATUS_STATE 15) = st ∧ s.rd (FB_CTRL_ENABLE 15) = 1 ∧ s.rd (FB_CTRL_IN_MACHINE 15) = m ∧ s.rd (FB_STATUS_LANES_SIGNAL 15) = 0xFF
      ∧ s.replay.standing = false ∧ s.sun.freeze = none ∧ (s.port 15).downHold = none := by decide +kernel
-- witnesses: the Lodge cores

/-- Lodge core 15, released, with one instruction at `pc`, registers `x`, CSRs `csr` and `n` stores in its buffer. -/
def coreAt (pc word : Nat) (x csr : SMap W64) (n : Nat) : State :=
  (put live [(BS_SLOT_CFG_OPEN 1023, 1), (BS_SLOT_CFG_CONSTRAINED 1023, 1), (BS_SLOT_CFG_MASK_CORE 1023, 15)]).setLodge 15
    { (Lodge.reset.wr LG_CTRL_RUN 1) with
      pc := w64 pc, isram := Mem.wrN [] pc (leBytes 4 word), x := x, csr := csr, stores := List.replicate n (.bytes 255 0x1FFFF8 [1, 2, 3, 4, 5, 6, 7, 8]) }

/-- What every instruction's statement asks of its core. -/
theorem wit_lodge_core : ∀ k, k ∈ [(0xFFFC, 0xFFFF8F93), (0x100, 0xFF833F83), (0x100, 0xFE533C23), (0, 0x73)] → ∀ n, n ∈ [0, 8] →
    let l := (coreAt k.1 k.2 [(5, 255), (6, 0x12000000)] [] n).lodge 15
    l.rd LG_CTRL_RUN = 1 ∧ l.wfi = false ∧ lodgePending l = false ∧ k.1 = l.pc.toNat ∧ k.1 + 4 ≤ 0x10000 ∧ k.2 = Mem.rdLe l.isram k.1 4
      ∧ l.stores.length = n := by decide +kernel

/-- LodgeCoresRun: ADDI x31, x31, −1 in the last word of the instruction SRAM; LD x31, −8(x6) and SD x5, −8(x6) on a scratchpad's last word, inside and
outside its window; an interrupt. -/
theorem wit_lodge : (live.lodge 15).rd LG_CTRL_RUN = 0 ∧ 0xFFFF8F93 % 128 = 0x13 ∧ rvF3 0xFFFF8F93 = 0
    ∧ 0xFF833F83 % 128 = 0x03 ∧ rvF3 0xFF833F83 = 3 ∧ 0xFE533C23 % 128 = 0x23 ∧ rvF3 0xFE533C23 = 3
    ∧ (let s := coreAt 0x100 0xFF833F83 [(5, 255), (6, 0x12000000)] [] 0
       let l := s.lodge 15
       (l.xr (rvRs1 0xFF833F83) + rvImmI 0xFF833F83).toNat = 0x11FFFFF8 ∧ (l.xr (rvRs1 0xFE533C23) + rvImmS 0xFE533C23).toNat = 0x11FFFFF8
        ∧ lodgeMap s 15 0x11FFFFF8 = .pad 255 0x1FFFF8 ∧ windowOk (s.tile (s.phys 255)) (0x1FFFF8, 0x1FFFF8 + 7) = true
        ∧ claimOk s (s.phys 255) (padRead 0x1FFFF8 8) = true ∧ windowOk (putT Tile.reset [(TL_SP_WINDOW_HI_LINE, 4094)]) (0x1FFFF8, 0x1FFFF8 + 7) = false)
    ∧ (let l := { ((coreAt 0 0x73 [] [(0x300, 8), (0x304, 0x800)] 0).lodge 15).wr LG_IRQ_ENABLE 2 with evq := [⟨1, 0, 0, 0⟩] }
       lodgePending l = true ∧ bit (l.csrW 0x300) 3 = true ∧ bit (l.csrW 0x304) 11 = true ∧ bit (l.csrW 0x305) 0 = false) := by decide +kernel

/-- LodgeCoresRun: a store that may drain to the last bytes of the last tile's scratchpad. -/
theorem wit_drain : (let s := coreAt 0 0 [] [] 1
    (s.lodge 15).stores = [.bytes 255 0x1FFFF8 [1, 2, 3, 4, 5, 6, 7, 8]] ∧ 0x1FFFF8 + 8 = 2 ^ 21 ∧ claimOk s (s.phys 255) (.row 2 9 0x1FFFF8 8) = true
      ∧ (s.tile (s.phys 255)).spNew = []) := by decide +kernel

/-- MaskCoresAreServed: slot 1,023 of mask core 15; an event of the greatest fields. -/
theorem wit_mask : maskBuilder (coreAt 0 0 [] [] 0) 15 1023 = true ∧ maskBuilder (coreAt 0 0 [] [] 0) 14 1023 = false ∧ bits (w64 (2 ^ 64 - 1 - 2 ^ 62)) 62 62 = 0
    ∧ ((live.setLodge 15 { Lodge.reset with evq := [⟨7, 15, 1023, 1⟩] }).lodge 15).evq = ⟨7, 15, 1023, 1⟩ :: [] := by decide +kernel

/-- MaskCoresAreServed: watch 7 on the last tile's counter 63, met, orphaned, both, neither, and not armed. -/
def watchAt (v o : Nat) : State :=
  let l := ((((Lodge.reset.wr (LG_WATCH_ARM 7) 1).wr (LG_WATCH_TILE 7) 15).wr (LG_WATCH_COUNTER 7) 63).wr (LG_WATCH_VALUE 7) v)
  (live.setLodge 15 l).setTile 270 { Tile.reset with orphaned := if o = 1 then 2 ^ 63 else 0 }
theorem wit_watch : (∀ v, v < 2 → ∀ o, o < 2 → let s := watchAt v o
      (s.lodge 15).rd (LG_WATCH_ARM 7) = 1 ∧ 270 = s.phys ((tilesOf 15).getD ((s.lodge 15).rd (LG_WATCH_TILE 7)) 0) ∧ (s.lodge 15).rd (LG_WATCH_COUNTER 7) = 63
        ∧ (decide ((s.lodge 15).rd (LG_WATCH_VALUE 7) ≤ (s.tile 270).tcSeen 63)) = (v == 0) ∧ (s.tile 270).orphaned.getLsbD 63 = (o == 1))
    ∧ (live.lodge 15).rd (LG_WATCH_ARM 7) = 0 := by decide +kernel

-- witnesses: loading and serving

/-- Function 0 has submitted a command for pavilion 3, which is in state `st` with tenants 4,080 to 4,095. -/
def asked (op : Nat) (a : SMap W64) (st : Nat) : State :=
  let s := served.setPv 3 { Pv.reset with res := ⟨0x8000, 0x8000, 237, 1, 1, 4080, 16, 16, 0⟩, run := { Pv.reset.run with st := st } }
  (put s [(OY_PV_CFG_VALID 3, 1), (OY_PV_CFG_GROUPS 3, 0x8000), (OY_PV_CFG_WIN_EXTENTS 3, 1), (OY_PV_CFG_QUOTA 3, 1)]).setFn 0
    { Fn.reset with latched := some (w64 (op + 0x300), a) }

/-- A command is submitted if its five conditions hold. -/
theorem submitted_of {s : State} {f : Func} {op : Nat} {cmd : W64} {a : SMap W64}
    (h : fnOk f = true ∧ (s.fn (fnNum f)).latched = some (cmd, a) ∧ bits cmd 7 0 = op ∧ available s f op = true ∧ answering s = true) : Submitted s f op cmd a :=
  ⟨h.1, h.2.1, h.2.2.1, h.2.2.2.1, h.2.2.2.2⟩

/-- Every pavilion command, with its pavilion named and no asynchronous command in flight. -/
theorem wit_submitted : ∀ op, op ∈ [0x10, 0x11, 0x12, 0x20, 0x21, 0x22, 0x23, 0x24, 0x25, 0x26, 0x27, 0x28, 0x29, 0x2A, 0x2B, 0x2C, 0x2D, 0x2E, 0x2F] →
    Submitted (asked op [] 1) (.pf 0) op (w64 (op + 0x300)) [] ∧ namedPv (asked op [] 1) (.pf 0) (w64 (op + 0x300)) = some 3
      ∧ flightsFull (asked op [] 1) 0 = false ∧ pvBusy (asked op [] 1) 3 = false := by
  intro op h
  have d : ∀ op ∈ [0x10, 0x11, 0x12, 0x20, 0x21, 0x22, 0x23, 0x24, 0x25, 0x26, 0x27, 0x28, 0x29, 0x2A, 0x2B, 0x2C, 0x2D, 0x2E, 0x2F],
      (fnOk (.pf 0) = true ∧ ((asked op [] 1).fn 0).latched = some (w64 (op + 0x300), []) ∧ bits (w64 (op + 0x300)) 7 0 = op
        ∧ available (asked op [] 1) (.pf 0) op = true ∧ answering (asked op [] 1) = true)
      ∧ namedPv (asked op [] 1) (.pf 0) (w64 (op + 0x300)) = some 3 ∧ flightsFull (asked op [] 1) 0 = false ∧ pvBusy (asked op [] 1) 3 = false := by decide +kernel
  exact ⟨submitted_of (d op h).1, (d op h).2⟩

/-- A shard at the end of the longest slice, with its address, asked for `n` times. -/
def shard1 (n : Nat) : Shard := ⟨512, 512, [], [], [], [], some 0x1000, false, n⟩

/-- A slice that is being staged; its first entry has no address yet. -/
def slice1 : Slice := ⟨3, [0], 0, 1024, 0, [], [], false, [{ shard1 0 with addr := none }, shard1 1], [], 0, 0, 5000⟩

/-- Pavilion 3 stages slice 49; the command has `left` units of time left. -/
def staging (left : Nat) : State := let s := (asked 0x23 [(0, 49)] 1).setSlice 49 slice1; { s with sun := { s.sun with time := 5000 - left } }

/-- A manifest with the header words of R365 and one shard entry. -/
def manifest1 : List Byte :=
  (List.range 188).flatMap (fun k => leBytes 8 (if k = 0 then 0x48414D5000010000 else if k = 1 then 1 else if k = 109 then 65537 else 0))

/-- An image of one cluster that the module of `asked` takes. -/
def image1 : Image :=
  ⟨[0x4B52584500030000, w64 (80000 + 77600 * 2 ^ 40), w64 (256 * 2 ^ 48), w64 (0x8000 * 2 ^ 48 + 2), w64 (131072 * 2 ^ 32 + 131072), 0, 0, 0], [], [], ⟨[0], 1, [0], [0], [0], none, [(15, 15, 63, 4095)]⟩⟩

/-- SlicesStageAndLoad: staging with time left and without; a staged slice; a manifest; an image that passes its checks, one that does not; a load. -/
theorem wit_slices : (∀ left, left < 2 → stagingOf (staging left) 3 = some (49, slice1) ∧ 1 ∈ fetching slice1 ∧ slice1.shards[1]? = some (shard1 1)
        ∧ (staging left).sun.time ≤ slice1.deadline)
    ∧ slice1.deadline ≤ (staging 0).sun.time ∧ slice1.shards[0]? = some { shard1 0 with addr := none } ∧ bit (w64 (2 ^ 63 + 512)) 63 = true
    ∧ bits (w64 (2 ^ 63 + 512)) 31 0 = 512
    ∧ (let s := (asked 0x23 [(0, 49)] 6).setSlice 49 { slice1 with ready := true }
       (s.pv 3).run.st ∈ [1, 2, 3, 4, 5, 6] ∧ ownSlice s 3 49 = some { slice1 with ready := true } ∧ sliceHeld s 3 49 { slice1 with ready := true } = false
        ∧ faulty [(0, 49)] [0x3F] (fun w => w == 0 && (ownSlice s 3 (arg [(0, 49)] 0 5 0)).isNone) = none)
    ∧ (let a : SMap W64 := [(1, 1504), (3, 1)]
       let s := asked 0x22 a 1
       faulty a [wholeWord, 0xFFFFFFFF, wholeWord, 0xFFFFFFFF] (stageBad s manifest1 3 a) = none ∧ firstFree s.die.slices 0 < 50
        ∧ stripesNeeded s 3 ((mWord (manifest1.take 1504) 2).toNat + (mWord (manifest1.take 1504) 3).toNat) ≤ (freeStripes s 3).length)
    ∧ (let a : SMap W64 := [(0, 49)]
       let s := (asked 0x24 a 1).setSlice 49 { slice1 with ready := true }
       faulty a [0x3F, wholeWord, 0xFFFFFFFF] (fun w => w == 1 && arg a 1 5 0 != 0) = none ∧ (s.pv 3).run.st = 1 ∧ stagedFor s 3 (arg a 0 5 0) = true
        ∧ loadCheck (enterState (accept s 0 0x24 (some 3) 2000 []) 3 pvStaging) 3 image1 = none
        ∧ loadCheck (enterState (accept s 0 0x24 (some 3) 2000 []) 3 pvStaging) 3 { image1 with header := [] } ≠ none)
    ∧ (let s := (staging 1).modRun 3 (fun r => { r with load := some ⟨0, 0, 49, image1⟩ })
       (s.pv 3).run.load = some ⟨0, 0, 49, image1⟩ ∧ s.slice? 49 = some slice1) := by decide +kernel

/-- Rings of 2^6 entries of which `c` completions are not taken, one request not read. -/
def rings1 (c : Nat) : Rings := ⟨0x10000, 0x20000, 0x30000, 6, 6, 0, 63, 1, 0, w32 c, 0, false⟩

/-- Request 7 of tenant 4,095 lives. -/
def req1 (looked : Bool) : Req := ⟨7, 4095, [], List.replicate 256 1, 1, 0, false, 0, 0, 0, 0, 0, none, [], looked⟩

/-- A SUBMIT record of R285 with TAG `tag`: one token, T = 1. -/
def rec1 (tag : Nat) : List W64 :=
  [w64 (tag * 2 ^ 32 + 4095 * 2 ^ 16 + 1), 0, w64 (2 ^ 32 + 1), w64 (0x3F800000 * 2 ^ 32), w64 (0x3F800000 * 2 ^ 32), 0, 0, 0]

/-- Pavilion 3 serves with image 1 in state `st`; tenant 4,095 has a burst cap. -/
def serving (c st : Nat) (cap : Nat) : State :=
  let s := put (asked 0 [] st) [(TS_TENANT_CFG_VALID 4095, 1), (TS_TENANT_CFG_PAVILION 4095, 3), (TS_TENANT_CFG_CLASS 4095, 1), (TS_TENANT_CFG_BURST_CAP 4095, cap)]
  (s.modRun 3 (fun r => { r with image := some image1, drained := true })).modFront 3 (fun f => { f with rings := some (rings1 c), live := [req1 false] })

/-- RequestsEnterAndLeave: a record that is taken, a repeated TAG, a drained pavilion, a tenant without a cap; a cancel; the ring's edges. -/
theorem wit_rings : (let s := serving 0 pvRunning 1
      mayRead s 3 = some image1 ∧ (s.pv 3).front.rings = some (rings1 0) ∧ refusing s 3 = false ∧ submitBad s 3 image1 (rec1 8) [0] = false
        ∧ hopeless s (bits ((rec1 8).getD 0 0) 27 16) (bits ((rec1 8).getD 2 0) 18 0) (s.rd (TS_TENANT_CFG_CLASS 4095)) = false
        ∧ (s.pv 3).front.store = [] ∧ ringRoom (rings1 0) = true ∧ bits ((rec1 8).getD 0 0) 7 0 ≠ 2 ∧ submitBad s 3 image1 (rec1 7) [0] = true
        ∧ [0] = (List.range (bits ((rec1 8).getD 2 0) 18 0)).map (fun k => [0].getD k 0))
    ∧ refusing (serving 0 pvDraining 1) 3 = true ∧ mayRead (serving 0 pvDraining 1) 3 = some image1 ∧ mayRead live 3 = none
    ∧ (let s := serving 0 pvRunning 0
       submitBad s 3 image1 (rec1 8) [0] = false ∧ hopeless s (bits ((rec1 8).getD 0 0) 27 16) (bits ((rec1 8).getD 2 0) 18 0) (s.rd (TS_TENANT_CFG_CLASS 4095)) = true)
    ∧ (let r : List W64 := [w64 (7 * 2 ^ 32 + 4095 * 2 ^ 16 + 2), 0, 0, 0, 0, 0, 0, 0]
       let s := serving 0 pvRunning 1
       bits (r.getD 0 0) 7 0 = 2 ∧ bits (r.getD 0 0) 31 28 = 0 ∧ bits (r.getD 0 0) 15 8 = 0 ∧ (r.drop 1).all (· == 0) = true ∧ tenantOf s 3 (bits (r.getD 0 0) 27 16) = true
        ∧ 7 = bits (r.getD 0 0) 63 32 ∧ findReq s 3 7 = some (req1 false) ∧ 7 ∉ (s.pv 3).front.cancels)
    ∧ (let r := rings1 64
       r.fn = fnNum (.pf 0) ∧ ringRoom r = false ∧ ((64 : W32) - r.reqCi).toNat ≤ 2 ^ r.reqN ∧ (r.reqPi - r.reqCi).toNat ≤ ((64 : W32) - r.reqCi).toNat
        ∧ 2 ^ r.reqN < ((65 : W32) - r.reqCi).toNat ∧ ((0 : W32) - r.reqCi).toNat < (r.reqPi - r.reqCi).toNat
        ∧ ((64 : W32) - r.cplCi).toNat ≤ (r.cplPi - r.cplCi).toNat ∧ (r.cplPi - r.cplCi).toNat < ((65 : W32) - r.cplCi).toNat)
    ∧ ((rings1 63).cplPi - (rings1 63).cplCi).toNat + [([0] : List W64)].length ≤ 2 ^ (rings1 63).cplN := by decide +kernel

/-- RequestsEnterAndLeave: the lookup of a live request, once, without a pool and with one that leads here. -/
theorem wit_lookup : (let s := serving 0 pvRunning 1
      (s.pv 3).run.image = some image1 ∧ req1 false ∈ (s.pv 3).front.live ∧ (s.pv 3).front.live.find? (fun r => r.tag == 7 && !r.looked) = some (req1 false)
        ∧ (s.pv 3).front.pool = none ∧ (s.pv 3).front.live.find? (fun r => r.tag == 8 && !r.looked) = none)
    ∧ (let s := (put (serving 0 pvRunning 1) [(TS_TENANT_CFG_GROUP_VALID 4095, 1), (TS_TENANT_CFG_SALT 4095, 63)]).modFront 3 (fun f => { f with pool := some ⟨237, 1, 1, 0, [], [], []⟩ })
       (s.pv 3).front.pool = some ⟨237, 1, 1, 0, [], [], []⟩ ∧ s.index = 0 ∧ s.rd (TS_TENANT_CFG_GROUP_VALID 4095) = 1 ∧ 63 = s.rd (TS_TENANT_CFG_SALT 4095)) := by decide +kernel

/-- Slot 1,023 open for pavilion 3, with `depth` drafts and in MODE `mode`; its frame's commit has come. -/
def slotted1 (depth mode : Nat) : State :=
  let s := put (asked 0 [] pvRunning) [(BS_SLOT_CFG_OPEN 1023, 1), (BS_SLOT_CFG_PAVILION 1023, 3), (BS_SLOT_CFG_DEPTH 1023, depth), (BS_SLOT_CFG_MODE 1023, mode), (BS_SLOT_CFG_VOCAB 1023, 1)]
  { s with die := { s.die with band := { s.die.band with
      rows := [⟨1023, true, 0, 0, 1, false, [(0, 0)], 3⟩], commits := [⟨1023, 0, false, 0, 15⟩], lands := [⟨1023, 255, 64, 63, mode == 1, [1, 2, 3, 4], false, none⟩] } } }

/-- A delivery of one target logit for slot 1,023. -/
def deliv1 (open_ : Bool) : Deliv := ⟨1023, false, 0, 0, [0x3F800000], 0, open_, 3, 0, 15⟩

/-- BandstandSteps: an entry held back and one that is not; a draft row that is whole; target and draft commits; landings; slots. -/
theorem wit_band : (let s := slotted1 0 0
      heldBack s (deliv1 true) = true ∧ heldBack s (deliv1 false) = false ∧ (deliv1 false).vals = [0x3F800000] ∧ rowsUsed s.die.band none < 2048
        ∧ rowsUsed s.die.band (some 3) < bandShare s 3 128 ∧ s.die.band.rows.any (fun r => r.is 1023 false 0) = false
        ∧ slotOpen s 1023 = true ∧ slotDraft s 1023 = false ∧ slotDepth s 1023 = 0 ∧ commitDue s 1023 = true ∧ s.rd (BS_SLOT_STATE_PHASE 1023) ≠ bsEnded
        ∧ s.die.band.staging = [] ∧ s.replay.sites = [] ∧ commitDue s 1022 = false)
    ∧ (let s := slotted1 1 0
       0 < slotDepth s 1023 ∧ (s.slot 1023).derived = false ∧ draftsReady s 1023 = true ∧ slotDraft s 1023 = false)
    ∧ (slotDraft (slotted1 0 1) 1023 = true ∧ commitDue (slotted1 0 1) 1023 = true)
    ∧ (∀ m, m < 2 → (slotted1 0 m).die.band.lands[0]? = some ⟨1023, 255, 64, 63, m == 1, [1, 2, 3, 4], false, none⟩)
    ∧ ((live.modSlot 1023 (fun x => { x with derived := true })).slot 1023).derived = true := by decide +kernel

/-- RequestsEnterAndLeave: the lead of a pool has another module's prompt to look up; the pool's lead is another module. BandstandSteps: pavilions that run,
drain and do neither. -/
def ask1 : Ask := { pv := 3, tag := 8, tenant := 4095, group := some 63, prompt := List.replicate 256 1, front := 4095, decode := 0, tslot := 0, dslot := none }
theorem wit_asks : (∀ lead, lead < 2 → let s := (serving 0 pvRunning 1).modFront 3 (fun f => { f with pool := some ⟨237, 1, 1, lead, [], [], []⟩, asks := [ask1] })
      (s.pv 3).run.image = some image1 ∧ (∀ r ∈ (s.pv 3).front.live, r.tag ≠ ask1.tag) ∧ (s.pv 3).front.asks = [ask1] ∧ ask1.front ≠ s.index
        ∧ (s.pv 3).front.pool = some ⟨237, 1, 1, lead, [], [], []⟩ ∧ s.index = 0)
    ∧ (∀ st, st ∈ [pvRunning, pvDraining, pvLoaded] → ((serving 0 st 1).pv 3).run.st = st) ∧ pvLoaded ≠ pvRunning ∧ pvLoaded ≠ pvDraining
    ∧ ((slotted1 0 0).tile ((slotted1 0 0).phys 255)).spNew = [] := by decide +kernel

-- witnesses: the mailbox

/-- CommandsAreAnswered: a copied command of an opcode that is not defined; masked and unmasked vectors; BUSY; a flight before and at its limit. -/
theorem wit_answers : (let s := asked 0xFF [] 1
      (s.fn 0).latched = some (w64 0x3FF, []) ∧ available s (.pf 0) (bits (w64 0x3FF) 7 0) = false ∧ answering s = true ∧ vecMasked (s.fn 0) 0 = true)
    ∧ vecMasked { Fn.reset with msix := [(1, 0)] } 0 = false
    ∧ (Fn.reset.wr MB_STATUS_BUSY 1).rd MB_STATUS_BUSY = 1 ∧ Fn.reset.rd MB_STATUS_BUSY ≠ 1
    ∧ (∀ op, op ∈ [0x02, 0x04, 0x08] →
        let x : Flight := ⟨255, op, none, 10, false⟩
        let s := live.setFn 33 { Fn.reset with flights := [x] }
        fnNum (.vf 1 16) = 33 ∧ (s.fn 33).flights.find? (fun y => y.ticket == 255) = some x ∧ s.sun.time < x.deadline
          ∧ (s.fn 33).flights.find? (fun y => y.ticket == 254) = none ∧ x.deadline ≤ ({ s with sun := { s.sun with time := 10 } } : State).sun.time) := by decide +kernel

/-- Arguments of MACHINE_CONFIG: L = 16,000,000, W = 15,520,000, SCHED_LAT 1,024, 4,096 modules of which this is the last. -/
def shape : SMap W64 := [(0, w64 (16000000 + 15520000 * 2 ^ 24)), (1, w64 (1024 + 4096 * 2 ^ 16 + 4095 * 2 ^ 32)), (2, 0x1000)]

/-- ModuleCommandsAct, DurableStateActs: every command of the physical function 0, its arguments in order. -/
theorem wit_module_commands : (∀ op, op ∈ [0x01, 0x03, 0x04, 0x05, 0x06, 0x07, 0x08, 0x09, 0x0A, 0x0B] →
      fnOk (.pf 0) = true ∧ ((asked op [] 1).fn 0).latched = some (w64 (op + 0x300), []) ∧ bits (w64 (op + 0x300)) 7 0 = op
        ∧ available (asked op [] 1) (.pf 0) op = true ∧ answering (asked op [] 1) = true ∧ flightsFull (asked op [] 1) 0 = false)
    ∧ (∀ q, q < 4 → ((asked 1 [] 7).pv q).run.st < 16) ∧ faulty [] [] (fun _ => false) = none
    ∧ faulty shape configMasks (configBad shape) = none
    ∧ (∀ al, al < 2 → (put (asked 3 shape 1) [(SD_STATUS_ALIGNED, al)]).rd SD_STATUS_ALIGNED = al)
    ∧ (let s := put State.reset [(SD_CONFIG_FRAME_LEN, 80000), (SD_CONFIG_SPAN, 40000)]
       s.frameLen ≠ 0 ∧ s.rd SD_STATUS_ALIGNED = 0 ∧ s.rd SD_STATUS_RUNNING = 0 ∧ s.machinePorts = [] ∧ s.rd RG_CFG_REACH ≤ s.frameLen - s.span
        ∧ (put s [(FB_CTRL_IN_MACHINE 15, 1)]).machinePorts.any (fun p => (put s [(FB_CTRL_IN_MACHINE 15, 1)]).rd (FB_STATUS_STATE p) != portUpCode) = true)
    ∧ (∀ b, b ∈ [4, 5] →
        let a : SMap W64 := [(0, w64 b), (1, w64 (earliest live))]
        faulty a [7, 0xFFFFFFFFFFFFFFFF] (fun w => (w == 0 && 4 < arg a 0 2 0) || (w == 1 && arg a 1 63 0 < earliest live)) = if b = 4 then none else some 0)
    ∧ live.sun.newBin = none ∧ 0 < earliest live ∧ faulty [(0, 0xFFFFFFFFFFFF)] [0xFFFFFFFFFFFF] (fun _ => false) = none := by decide +kernel

/-- A command for another opcode is submitted as `wit_module_commands` says; here as the structure. -/
theorem wit_module_submitted : Submitted (asked 0x05 [] 1) (.pf 0) 0x05 (w64 0x305) [] := submitted_of (by decide +kernel)

/-- DurableStateActs: a dump's last block; word 255; wear under and at its limit; counters, plans and rails. -/
theorem wit_durable : (∀ area, area < 2 →
      let a : SMap W64 := [(0, w64 area), (1, 64), (2, w64 (areaLen area - 4096)), (3, 4096)]
      faulty a [1, 0xFFFFFFFFFFFFFFFF, 0xFFFFFFFF, 0xFFFFFFFF] (readDumpBad a) = none ∧ area = arg a 0 0 0)
    ∧ faulty [(0, 255)] [0xFF] (fun _ => false) = none ∧ 0x2FF = 0x200 + arg [(0, 255)] 0 7 0 ∧ faulty [(0, 255), (1, 1)] [0xFF, 0xFFFFFFFFFFFFFFFF] (fun _ => false) = none
    ∧ live.shed.queue.any (fun w => w.fn == some 0) = false
    ∧ (∀ n, n < 2 → shedWorn { live with shed := { live.shed with wear := [(0x2FF, 94999 + n)] } } 0x2FF = (n == 1))
    ∧ (lifeNext served 7).isSome = true ∧ served.gate.phase = 3 ∧ opHours (put served [(WV_STATUS_NEXT_PLAN, 1)]) < (put served [(WV_STATUS_NEXT_PLAN, 1)]).rd WV_STATUS_NEXT_PLAN
    ∧ served.rd WV_STATUS_NEXT_PLAN ≤ opHours served ∧ planDurable served = true ∧ served.gate.ran = true := by decide +kernel

/-- A module whose FW_LOAD is in flight. -/
def loading : State := { State.reset with gate := { State.reset.gate with phase := 1, fwJob := some (0, 255, 1572864) } }

/-- FirmwareStarts: the longest image in ROM_WAIT; a load in flight; FW_START with and without a bad repair word; halted. -/
theorem wit_firmware : (let s := State.reset.setFn 0 { Fn.reset with latched := some (2, [(1, 1572864)]) }
      fnOk (.pf 0) = true ∧ (s.fn (fnNum (.pf 0))).latched = some (2, [(1, 1572864)]) ∧ bits (2 : W64) 7 0 = 2 ∧ available s (.pf 0) 2 = true ∧ answering s = true
        ∧ s.gate.phase = 0 ∧ flightsFull s 0 = false
        ∧ faulty [(1, 1572864)] [wholeWord, 0xFFFFFFFF] (fun w => (w == 0 && arg [(1, 1572864)] 0 11 0 != 0) || (w == 1 && 1572864 < arg [(1, 1572864)] 1 31 0)) = none)
    ∧ (let s := { loading with fns := [(0, { Fn.reset with latched := some (2, [(1, 1572864)]) })] }
       s.gate.fwJob = some (0, 255, 1572864) ∧ s.gate.phase ≠ 0 ∧ available s (.pf 0) 2 = true ∧ answering s = true)
    ∧ [16, 8191].all (· < 8192) = true ∧ [16, 8191].any (· < 16) = false ∧ [15].any (· < 16) = true
    ∧ bits (mWord (manifest1.take 16) 1) 47 32 < 1 := by decide +kernel

-- witnesses: pavilions

/-- Arguments of PV_CREATE: cluster 0, group 0, stripe 0, tenant 0. -/
def few : SMap W64 := [(0, w64 (1 + 2 ^ 16 + 2 ^ 40 + 2 ^ 48)), (1, w64 (1 + 2 ^ 12))]

/-- Arguments of PV_CREATE: the cluster, group and tenants that pavilion 3 of `asked` has. -/
def taken : SMap W64 := [(0, w64 (0x8000 + 0x8000 * 2 ^ 16 + 237 * 2 ^ 32 + 2 ^ 40 + 15 * 2 ^ 48)), (1, w64 (4095 + 2 ^ 12 + 16 * 2 ^ 32))]

/-- PavilionsComeAndGo: pavilion 2 is absent and 3 exists; resources that are free and taken; reset units; tiles; limits. -/
theorem wit_pavilions : (let s := asked 0x10 few 1
      pvExists s 3 = true ∧ pvExists s 2 = false ∧ faulty few [0x1FFFFFFFFFFFFF, 0x13F01FFFFFF] (createBad s few) = none ∧ createLacks s (wanted few) = none
        ∧ faulty taken [0x1FFFFFFFFFFFFF, 0x13F01FFFFFF] (createBad s taken) = none ∧ createLacks s (wanted taken) = some 0)
    ∧ (∀ st, st ∈ [1, 7] → ((asked 0x11 [] st).pv 3).run.st = st) ∧ pvEmpty = 1 ∧ 7 ∈ notResetting
    ∧ (∀ unit, unit < 3 →
        let a : SMap W64 := [(0, w64 (unit + 0xF00))]
        let s := asked 0x12 a 7
        unit = arg a 0 1 0 ∧ faulty a [0xF03] (fun w => w == 0 && (arg a 0 1 0 == 3 || (arg a 0 1 0 == unitCluster && !(s.pv 3).res.clusters.testBit (arg a 0 11 8)))) = none)
    ∧ (let s := (asked 0 [] pvFaulted).modRun 3 (fun r => { r with abortTiles := [270], reset := some ⟨0, 0, 2, 0, true⟩ })
       (s.pv 3).run.reset = some ⟨0, 0, 2, 0, true⟩ ∧ 270 ∈ (s.pv 3).run.abortTiles ∧ (s.tile 270).seq.run = .idle ∧ 269 ∉ (s.pv 3).run.abortTiles
        ∧ ((s.setTile 270 (headed mul1 [] [])).tile 270).seq.run ≠ .idle ∧ s.logical 270 = some 255 ∧ s.phys 255 = 270
        ∧ s.sun.time < (s.pv 3).run.abortAt + milli / 10 ∧ (s.pv 3).run.abortAt + milli / 10 ≤ ({ s.sun with time := milli / 10 } : Sun).time
        ∧ pavilionLate s 3 = false ∧ s.gate.ran = true ∧ pavilionLate (s.setFn 0 { Fn.reset with flights := [⟨0, 0x12, some 3, 0, false⟩] }) 3 = true) := by decide +kernel

/-- PavilionCommandsAct: each command's arguments and states; tenant 4,095, salt 63, pool of the window's stripe. -/
theorem wit_pavilion_commands : (let a : SMap W64 := [(3, w64 (6 + 16 * 2 ^ 8 + 2 ^ 16 + 63 * 2 ^ 24))]
      faulty a [wholeWord, wholeWord, wholeWord, 0x3F011F1F] (ringBad (asked 0x21 a 1) 3 a) = none)
    ∧ (let a : SMap W64 := [(0, w64 (earliest live))]
       earliest (asked 0x25 a 3) = earliest live ∧ faulty a [wholeWord] (fun w => w == 0 && arg a 0 63 0 < earliest (asked 0x25 a pvLoaded)) = none
        ∧ (∀ al, al < 2 → (put (asked 0x25 a pvLoaded) [(SD_STATUS_ALIGNED, al)]).rd SD_STATUS_ALIGNED = al)
        ∧ ((asked 0x25 a pvLoaded).pv 3).front.rings = none ∧ (serving 0 pvLoaded 1 |>.pv 3).front.rings.isSome = true
        ∧ (let s := (serving 0 pvHeld 1).modRun 3 (fun r => { r with pause := some (earliest live) })
           faulty a [wholeWord] (resumeBad s 3 a) = none ∧ (s.pv 3).run.st = pvHeld))
    ∧ (let s := serving 0 pvRunning 1
       (s.pv 3).run.st = pvRunning ∧ 0 < epochLen s 3 ∧ isFront s 3 = true ∧ isFront (asked 0x28 [] pvDraining) 3 = false)
    ∧ (let a : SMap W64 := [(0, w64 0xFFF), (1, w64 (2 ^ 47 - 1))]
       let s := serving 0 7 1
       faulty a [0x3FFFFF, 0xFFFFFFFFFFFF, 0xFFFFFFFF] (tenantBad s 3 a) = none ∧ tenantBusy s 3 4095 = true ∧ arg a 0 12 12 = 0 ∧ tenantBusy (asked 0x29 a 7) 3 4095 = false
        ∧ faulty a [0x1FFF, 0xFFFFFFFFFFFF] (fun w => w == 0 && tenantOut s 3 (arg a 0 11 0)) = none)
    ∧ (let a : SMap W64 := [(0, 63), (1, 1), (2, 2), (3, 3), (4, 4)]
       faulty a [0x3F, wholeWord, wholeWord, wholeWord, wholeWord] (fun _ => false) = none ∧ live.rd (IH_SALT_CFG_VALID 63) = 0
        ∧ ∀ q, q < 2 → let s := put (serving 0 7 1) [(IH_SALT_CFG_VALID 63, 1), (IH_SALT_CFG_PAVILION 63, 3 * q)]
            s.rd (IH_SALT_CFG_VALID 63) = 1 ∧ decide (s.rd (IH_SALT_CFG_PAVILION 63) = 3) = (q == 1))
    ∧ (∀ g, g < 2 → let s := put (serving 0 7 1) [(IH_SALT_CFG_VALID 63, 1), (IH_SALT_CFG_PAVILION 63, 3), (TS_TENANT_CFG_GROUP_VALID 4095, g), (TS_TENANT_CFG_SALT 4095, 63)]
        faulty [(0, 63)] [0x3F] (fun w => w == 0 && !saltOf s 3 (arg [(0, 63)] 0 5 0)) = none ∧ (s.pv 3).front.live.any (fun r => inGroup s 63 r.tenant) = (g == 1))
    ∧ (let a : SMap W64 := [(0, w64 (237 + 2 ^ 8 + 2 ^ 32)), (1, 0xFFF)]
       faulty a [0xFFFF0000FFFF, 0xFFF] (poolBad (asked 0x2D a 1) 3 a) = none ∧ ((asked 0x2D a 1).pv 3).front.pool = none
        ∧ (((asked 0x2E [] 1).modFront 3 (fun f => { f with pool := some ⟨237, 1, 1, 0, [], [], []⟩ })).pv 3).front.pool.isSome = true)
    ∧ (∀ on, on < 2 → faulty [(0, w64 on)] [1] (fun _ => false) = none ∧ arg [(0, w64 on)] 0 0 0 = on) := by decide +kernel

-- witnesses: the Gatehouse, replay, the host interface, the hardware

/-- An install request for slot 3 with nothing but its head. -/
def keyBody (slot len : Nat) : List Byte := [1, BitVec.ofNat 8 slot] ++ List.replicate (len - 2) 0

/-- GatehouseAnswers: port 1 with its link; heads that hold and that do not; own, free and foreign slots. -/
theorem wit_gatehouse : doeUp { live with mod := { live.mod with links := [(1, 1)] } } 1 = true ∧ doeUp live 1 = false
    ∧ (keyBody 3 1188).headD 0 = 1 ∧ (keyBody 3 1188).length = 1188 ∧ fleetHead (keyBody 3 1188) = true ∧ fleetHead (keyBody 4 1188) = false ∧ 3 = ((keyBody 3 1188).getD 1 0).toNat
    ∧ (∀ p, p < 2 → fleetForeign { live with gate := { live.gate with fleet := [(3, ⟨p, [], 0, 0⟩)] } } 1 3 = (p == 0)) ∧ fleetForeign live 1 3 = false
    ∧ ([2, 3, 0, 0, 0, 0, 0, 0] : List Byte).headD 0 = 2 ∧ ([2, 3, 0, 0, 0, 0, 0, 0] : List Byte).length = 8 ∧ fleetHead [2, 3, 0, 0, 0, 0, 0, 0] = true
    ∧ fleetHead [2, 4, 0, 0, 0, 0, 0, 0] = false := by decide +kernel

/-- A module that stands for a replay: its own hold is asked for, `rel` says whether its release has gone out. -/
def replaying (rel : Bool) : State :=
  { served with
    replay := { served.replay with standing := true, released := rel, attempts := 2, stamps := [90] }
    sun := { served.sun with tick := 100000, holds := [⟨0, 3, kindReplay, 0, 90, if rel then some 95 else none, false⟩], freeze := some 96, stopped := true } }

/-- ReplaysAndTheRanger: a quiet module at its third attempt; tiles 15 of a row that may move and 16 that may not; T_r reached and not. -/
theorem wit_replay : (let s := replaying false
      s.replay.standing = true ∧ s.replay.released = false ∧ quiet s = true ∧ s.replay.fresh = [] ∧ s.replay.lasting = [] ∧ s.replay.attempts < 3
        ∧ quiet { s with die := { s.die with ctls := [⟨.credit 0 0 1, 0, true⟩] } } = false
        ∧ s.sun.holds.find? (fun h => h.kind == kindReplay && h.origin == s.index && h.relAt == none) = some ⟨0, 3, kindReplay, 0, 90, none, false⟩
        ∧ (s.tile 0).seq.run ≠ .waitTick ∧ badWords s 270 = [] ∧ 270 % 17 < 16 ∧ 271 % 17 = 16)
    ∧ (let s := replaying true
       (∃ r, replayDue s = some r ∧ r ≤ s.sun.tick) ∧ s.downPorts = [] ∧ s.replay.released = true)
    ∧ live.replay.standing = false ∧ replayDue live = none
    ∧ (let s := (asked 0 [] pvRunning).setTile 270 (headed mul1 [] [])
       let s : State := { s with replay := { s.replay with idle := 160000 }, die := { s.die with reports := [⟨270, 1⟩] } }
       0 < s.frameLen ∧ 2 * s.frameLen ≤ s.replay.idle ∧ rangerCounts s = true ∧ abortable s 3 = true ∧ contextReady s 3 = false ∧ abortable s 2 = false
        ∧ s.die.reports.find? (fun r => r.p == 270) = some ⟨270, 1⟩ ∧ s.pvOfTile 270 = some 3 ∧ s.die.reports.find? (fun r => r.p == 271) = none
        ∧ contextReady (s.setTile 270 { headed mul1 [] [] with seq := { (headed mul1 [] []).seq with run := .waitTick } }) 3 = true)
    ∧ live.replay.idle < 2 * live.frameLen ∧ pvExists (asked 0 [] pvRunning) 3 = true ∧ ((asked 0 [] pvRunning).pv 3).run.st ≠ pvHeld
    ∧ ((asked 0 [] pvHeld).pv 3).run.st = pvHeld ∧ live.pvs = [] := by
  refine ⟨by decide +kernel, ⟨⟨_, rfl, by decide +kernel⟩, by decide +kernel, by decide +kernel⟩, by decide +kernel⟩

/-- HostInterfaceActs: functions with and without rings; both ports; a firmware load; what the rings of a pavilion read. -/
theorem wit_host : (∀ q, q < 4 → ringFn live q ≠ some 33) ∧ ringFn ((serving 0 pvRunning 1).modFront 3 (fun f => { f with rings := some { rings1 0 with fn := 33 } })) 3 = some (17 * 1 + 16)
    ∧ live.mod.power = true ∧ live.mod.inReset = false ∧ live.mod.split = false ∧ ({ live with mod := { live.mod with split := true } } : State).mod.split = true
    ∧ loading.gate.fwJob = some (0, 255, 1572864) ∧ dmaOk (.shard 3 8191) = true ∧ mayRead (serving 0 pvRunning 1) 3 = some image1 := by decide +kernel

/-- RegisterWritesAct: BUSY and not; the last word of each window; a Shed word's wear; numbers that name no register. -/
theorem wit_registers : bit (1 : W64) 0 = true ∧ ((live.setFn 33 (Fn.reset.wr MB_STATUS_BUSY 1)).fn 33).rd MB_STATUS_BUSY = 1 ∧ (live.fn 33).rd MB_STATUS_BUSY = 0
    ∧ 0x4FF8 % 8 = 0 ∧ shedWorn live 0x1FF = false ∧ agentOk (.host (.vf 0 17)) = false ∧ 63 = bits (w64 (63 * 2 ^ 16 + 0xFFFF)) 21 16
    ∧ 0xFFFF = bits (w64 (63 * 2 ^ 16 + 0xFFFF)) 15 0 := by decide +kernel

/-- PowerAndResetAct, MctpCommandsAnswer, MctpAndTestAccessAnswer: supplied and not; in reset and not; one sixteenth of a degree over each limit. -/
theorem wit_power : stackFailed live = false ∧ stackFailed { live with sun := { live.sun with time := 150 * milli } } = true ∧ State.reset.mod.power = true ∧ State.reset.mod.inReset = false ∧ mctpUp State.reset = true
    ∧ (let s : State := { live with mod := { live.mod with power := false } }
       s.mod.power = false ∧ s.mod.latched = false ∧ mctpUp s = false)
    ∧ ({ live with mod := { live.mod with inReset := true } } : State).mod.inReset = true
    ∧ sensorOk (.region 7) = true ∧ tripLimit (.region 7) < 1841 ∧ 1840 ≤ tripLimit (.region 7) ∧ sensorOk (.stack 1) = true ∧ tripLimit (.stack 1) < 1681
    ∧ sensorOk .stage = true ∧ tripLimit .stage < 2001 ∧ live.rd OY_STATUS_HOT1 = 0 ∧ (∀ q, q < 4 → (live.pv q).run.st < 16) := by decide +kernel

/-- CommandsAreAnswered, FirmwareStarts: an ALIGN that keeps what its plan's registers held; a firmware load past its limit and before it. -/
theorem wit_undo : (let s := alignKept (put live [(FB_CTRL_IN_MACHINE 15, 1)])
      (s.sun.undo.map (·.1)).Nodup ∧ (SMap.look? s.sun.undo (FB_LINK_OFF 15)).isSome = true ∧ (SMap.look? s.sun.undo RG_CFG_OFF).isSome = true)
    ∧ (∀ d, d < 2 → let s := loading.setFn 0 { Fn.reset with flights := [⟨255, 2, none, d, false⟩] }
        s.gate.fwJob = some (0, 255, 1572864)
          ∧ (if d = 0 then ∃ x ∈ (s.fn 0).flights, x.ticket = 255 ∧ x.deadline ≤ s.sun.time else ∀ x ∈ (s.fn 0).flights, x.ticket = 255 → s.sun.time < x.deadline)) := by
  decide +kernel

/-- RegisterWritesAct: a Shed word that a write reaches, one with reserved bits only, and one past those that a register write reaches. -/
theorem wit_shed : shedBits 0x29 ≠ 0 ∧ 0x29 < 0x200 ∧ shedWorn live 0x29 = false ∧ shedBits 0x1FFF = 0 ∧ shedBits 0x3F = 0 ∧ shedBits 0x200 ≠ 0 := by decide +kernel

/-- ReplaysAndTheRanger: a port that carries the release. -/
theorem wit_replay_port : 15 ∈ (linked2 (replaying false)).machinePorts ∧ portCarries (linked2 (replaying false)) 15 = true := by decide +kernel

-- values that the spec works out

/-- The worked encodings of chapter 4 (R75 to R77): 1.0, −2.5, −3, 0.09375, 0.375, the largest and the smallest of each format, NaN. -/
theorem test_encodings :
    [0x38, 0xC2, 0xC4, 0x1C, 0x2C, 0x7E, 0x01, 0x7F].map (fun c => rne32 (decE4m3 c))
      = [0x3F800000, 0xC0200000, 0xC0400000, 0x3DC00000, 0x3EC00000, 0x43E00000, 0x3B000000, 0x7FC00000]
    ∧ [0x3C, 0xC1, 0xC2, 0x2E, 0x36, 0x7B, 0x01, 0x7E].map (fun c => rne32 (decE5m2 c))
      = [0x3F800000, 0xC0200000, 0xC0400000, 0x3DC00000, 0x3EC00000, 0x47600000, 0x37800000, 0x7FC00000]
    ∧ [0x08, 0x32, 0x34, 0x03, 0x1F, 0x01].map (fun c => rne32 (decE2m3 c)) = [0x3F800000, 0xC0200000, 0xC0400000, 0x3EC00000, 0x40F00000, 0x3E000000]
    ∧ [0x0C, 0x31, 0x32, 0x06, 0x1F, 0x01].map (fun c => rne32 (decE3m2 c)) = [0x3F800000, 0xC0200000, 0xC0400000, 0x3EC00000, 0x41E00000, 0x3D800000]
    ∧ [0x2, 0xD, 0x7, 0x1].map (fun c => rne32 (decE2m1 c)) = [0x3F800000, 0xC0400000, 0x40C00000, 0x3F000000]
    ∧ [0x3F80, 0xC020, 0x3DC0, 0x0001].map (fun c => rne32 (decBf16 c)) = [0x3F800000, 0xC0200000, 0x3DC00000, 0x00010000]
    ∧ [0x01, 0xFD, 0x7F, 0x80].map (fun c => rne32 (decI8 c)) = [0x3F800000, 0xC0400000, 0x42FE0000, 0xC3000000] := by decide +kernel

/-- The worked conversions of R86. -/
theorem test_conversions : (cvtE4m3 true 0x3DCCCCCD).1 = 0x1D ∧ (cvtE5m2 true 0x3DCCCCCD).1 = 0x2E ∧ (cvtBf16 true 0x3DCCCCCD).1 = 0x3DCD
    ∧ (cvtE4m3 true 0x43FA0000).1 = 0x7E ∧ (cvtE4m3 false 0x43FA0000).1 = 0x7F ∧ (cvtInt8 0x40200000).1 = 0x02 ∧ (cvtInt8 0xC302B333).1 = 0x80 := by decide +kernel

/-- The example of R85: 1 + 48 × 2^−29 becomes 0x3F80_0001. -/
theorem test_single_rounding : mxEntry (List.replicate 48 (decE5m2 0x01) ++ List.replicate 16 (decE5m2 0)) (List.replicate 48 (decE5m2 0x08) ++ List.replicate 16 (decE5m2 0))
    (some (dec32 0x3F800000)) = (0x3F800001, false) := by decide +kernel

/-- The codebook-3 row and the MXFP4 pair of chapter 4 (R79, R80): 0.1875, 0, −0.1875, 0.046875; 1.5 and −0.75. -/
theorem test_weights :
    (let m := Mem.wrN (Mem.wrN (Mem.wrN [] 0 [0x00, 0x30, 0x38, 0x40, 0xB0, 0xB8, 0xC0, 0x34]) 13 [0x1C]) 192 [0x83, 0x03]
     (List.range 4).map (fun k => rne32 (weight 7 m 5 k)) = [0x3E400000, 0, 0xBE400000, 0x3D400000])
    ∧ (let m := Mem.wrN (Mem.wrN [] (32 * 127) [0xD7]) (4096 + 2 * 127) [0x7D]
       (List.range 2).map (fun k => rne32 (weight 6 m 127 k)) = [0x3FC00000, 0xBF400000]) := by decide +kernel

/-- Exact values of R104 and round-to-odd of R138: exp2(3), exp2(−149), log2(8), rcp(4), rcp(3), rsqrt(16), rsqrt(−0). -/
theorem test_functions : vxFunction 0 0x40400000 = 0x41000000 ∧ vxFunction 0 0xC3150000 = 1 ∧ vxFunction 1 0x41000000 = 0x40400000 ∧ vxFunction 2 0x40800000 = 0x3E800000
    ∧ vxFunction 2 0x40400000 = 0x3EAAAAAB ∧ vxFunction 3 0x41800000 = 0x3E800000 ∧ vxFunction 3 0x80000000 = 0xFF800000 := by decide +kernel

/-- The margin plans worked in chapter 18 (R410): 17 and −12 steps, then 37 and 7. -/
theorem test_plans : stepsNeeded 6 80 56 0 0 36 0 = 17 ∧ stepsNeeded 6 80 56 1 0 36 0 = -12 ∧ stepsNeeded 17 80 36 0 0 36 0 = 37 ∧ stepsNeeded 17 80 36 1 0 36 0 = 7 := by
  decide +kernel

/-- Step 1 of the SiLU chain (chapter 6): its fields, and 32 rows that retire 37 tc after their start. -/
theorem test_silu_step : (let d : Desc := { w0 := 0x06FF050000000220, w1 := 0x26, w2 := 0xBFB8AA3B00000001, w3 := 0x0020001F4000A060, w4 := 0, w5 := 0, w6 := 0, w7 := 0 }
    d.opcode = opVxFp ∧ d.variant = 2 ∧ d.signal = 6 ∧ d.signalInc = 1 ∧ d.issueCycle = 0 ∧ d.rows = 32 ∧ d.srcA = 0x60 ∧ d.srcB = 0xA0 ∧ d.dst = 0x40
      ∧ d.rows - 1 + d.vxLat + 1 = 37) := by decide +kernel

/-- SHA-256 of "abc" (FIPS 180-4, which R174 and R360 name). -/
theorem test_sha256 : leNat (sha256 [0x61, 0x62, 0x63]).reverse = 0xba7816bf8f01cfea414140de5dae2223b00361a396177a9cb410ff61f20015ad := by decide +kernel

/-- Loads of R81: tc from the start to the retirement, and tc of the read port, by format code. -/
theorem test_load_time :
    (List.range 8).map (fun c => ((ent (dsc opMxLoad c 0 0 0)).span, (ent (dsc opMxLoad c 0 0 0)).held)) = [(8, 8), (8, 8), (8, 8), (16, 16), (7, 7), (7, 7), (9, 9), (7, 4)] := by decide +kernel

/-- Tile (15, 15) of a module without repairs is physical tile 270, and 271 is the spare of its row (R14, R15). -/
theorem test_tiles : live.phys 255 = 270 ∧ live.logical 271 = none ∧ live.phys 0 = 0 := by decide +kernel

/-- A region that the module does not have stops the command. -/
theorem test_stops : exec (.droopStretch 8) live = .fault (.noSuch "region") := rfl

/-- The chunk banks of R178: line 3's chunk 14 lies in bank 1; and the two writers of one bank that meet. -/
theorem test_banks : bankOf (16 * 3 + 14) = (1, 3) ∧ (Claim.row 2 7 0 32).meets (Claim.row 2 9 512 512) = true
    ∧ (Claim.row 0 1 0 32).meets (Claim.row 0 4 0 32) = false ∧ (Claim.row 0 1 0 32).meets (Claim.row 1 4 512 512) = false := by decide +kernel

end Sys2Proof.Tests
end

section
/-!
PROOF. Register writes (O58): the part of the module that an offset names, and what a write does there.
-/

namespace Sys2Proof.Machine
open Sys2Proof

-- tables by number

/-- A number all of whose entries a filter drops is not in the filtered table. -/
theorem SMap.look?_filter_none {α : Type} {m : SMap α} (p : Nat × α → Bool) (k : Nat) (hp : ∀ e ∈ m, e.1 = k → p e = false) :
    SMap.look? (m.filter p) k = none := by
  induction m with
  | nil => rfl
  | cons x r ih =>
    obtain ⟨j, w⟩ := x
    have ih' := ih (fun e he => hp e (List.mem_cons_of_mem _ he))
    rw [List.filter_cons]
    split
    · next hq =>
      have hj : j ≠ k := fun hj => by simp [hp (j, w) (List.mem_cons_self ..) hj] at hq
      simpa [SMap.look?, hj] using ih'
    · exact ih'

/-- A table that a function fills: every number of the list, and no other, has its value. -/
theorem SMap.look?_map_keys {α : Type} (f : Nat → α) (l : List Nat) (k : Nat) :
    SMap.look? (l.map (fun j => (j, f j))) k = if k ∈ l then some (f k) else none := by
  induction l with
  | nil => rfl
  | cons j l ih =>
    by_cases hj : j = k
    · simp [SMap.look?, hj]
    · simp [SMap.look?, hj, ih, Ne.symm hj]

-- a write over an old value (R9, R10)

/-- A register without RW and W1C bits keeps its value. -/
@[simp] theorem mergedNow_noBits (just : SMap W64) (off : Nat) (old v : W64) : mergedNow just off old v 0 0 = old := by
  simp only [mergedNow, merged, BitVec.ofNat_eq_ofNat, BitVec.and_zero, BitVec.zero_and, BitVec.or_zero, BitVec.not_zero, BitVec.and_allOnes]

/-- A register of RW bits alone takes the value written. -/
@[simp] theorem mergedNow_allBits (just : SMap W64) (off : Nat) (old v : W64) : mergedNow just off old v (BitVec.allOnes 64) 0 = v := by
  simp only [mergedNow, merged, BitVec.ofNat_eq_ofNat, BitVec.and_zero, BitVec.zero_and, BitVec.or_zero, BitVec.zero_or, BitVec.not_zero, BitVec.not_allOnes,
    BitVec.and_allOnes]

/-- The argument words of a mailbox are RW throughout. -/
theorem mailArg_bits {w : Nat} (h : w < 32) : w64 (rowVal rwMb (MB_ARG_OFF w)) = BitVec.allOnes 64 ∧ w64 (rowVal w1cMb (MB_ARG_OFF w)) = 0 := by
  have hrw : rowVal rwMb (MB_ARG_OFF w) = 0xFFFFFFFFFFFFFFFF := by
    simp only [rwMb, rowVal, MB_ARG_OFF]
    rw [if_neg (by omega), if_pos (by omega)]
  have hw1c : rowVal w1cMb (MB_ARG_OFF w) = 0 := by
    simp only [w1cMb, rowVal, MB_ARG_OFF]
    rw [if_neg (by omega), if_neg (by omega)]
  rw [hrw, hw1c]
  exact ⟨rfl, rfl⟩

-- which part of the module a write reaches

/-- A write of a whole register within BAR0 or BAR2 by an agent that exists runs. -/
theorem registerWrite_next {a : Agent} {off : Nat} (s : State) (v : W64) (ha : agentOk a = true) (h8 : off % 8 = 0) (hoff : off < 0x4010000) :
    exec (.registerWrite a off v) s = .next (regWrite s a off v) :=
  if_pos ⟨ha, h8, hoff⟩

theorem hostWrite_mailbox (s : State) (f : Func) {off : Nat} (v : W64) (h : off < 0x1000) :
    hostWrite s f (0x10000 + off) v = mailWrite s (fnNum f) off v := by
  unfold hostWrite bar2Base
  rw [if_neg (by omega), if_pos (by omega), Nat.add_sub_cancel_left]

/-- A host reaches nothing of BAR0 but its mailbox window and, as the primary physical function, the Sundial registers (R420). -/
theorem hostWrite_elsewhere (s : State) (f : Func) {off : Nat} (v : W64) (hbar : off < 0x4000000) (hmail : off < 0x10000 ∨ 0x11000 ≤ off)
    (hsun : f ≠ .pf 0 ∨ off < 0x4000 ∨ 0x5000 ≤ off) : hostWrite s f off v = s := by
  have hnot : ¬ (0x4000 ≤ off ∧ off < 0x5000 ∧ f = .pf 0) := by
    rintro ⟨h1, h2, h3⟩
    rcases hsun with h | h | h
    · exact h h3
    · omega
    · omega
  unfold hostWrite bar2Base
  rw [if_neg (by omega), if_neg (by omega), if_neg hnot]

theorem hostWrite_sundial (s : State) {off : Nat} (v : W64) (hlo : 0x4000 ≤ off) (hhi : off < 0x5000) : hostWrite s (.pf 0) off v = plainWrite s off v := by
  unfold hostWrite bar2Base
  rw [if_neg (by omega), if_neg (by omega), if_pos ⟨hlo, hhi, rfl⟩]

theorem wardenWrite_sundial (s : State) {off : Nat} (v : W64) (hlo : 0x4000 ≤ off) (hhi : off < 0x5000) : wardenWrite s off v = plainWrite s off v := by
  unfold wardenWrite
  rw [if_neg (by omega), if_neg (by omega), if_neg (by omega), if_neg (by omega), if_neg (by omega), if_neg (by omega)]

theorem wardenWrite_shed (s : State) {n : Nat} (v : W64) (h : n < 0x2000) : wardenWrite s (0x20000 + 8 * n) v = shedWordWrite s n v := by
  unfold wardenWrite
  rw [if_neg (by omega), if_neg (by omega), if_neg (by omega), if_pos (by omega), Nat.add_sub_cancel_left, Nat.mul_div_cancel_left _ (by omega)]

theorem wardenWrite_tile (s : State) {p off : Nat} (v : W64) (hp : p < 272) (hoff : off < 0x4000) :
    wardenWrite s (0x2000000 + 0x4000 * p + off) v = tileWrite s p off v := by
  have hpage : (0x2000000 + 0x4000 * p + off - 0x2000000) / 0x4000 = p := by omega
  have hplace : (0x2000000 + 0x4000 * p + off) % 0x4000 = off := by omega
  unfold wardenWrite
  rw [if_pos (by omega), hpage, hplace]

-- the mailbox window (R337, R354)

/-- A result word of the mailbox. -/
theorem isResult_res {w : Nat} (h : w < 32) : isResult (MB_RES_OFF w) = true := by
  simp only [isResult, MB_RES_OFF, Bool.and_eq_true]
  exact ⟨decide_eq_true (by omega), decide_eq_true (by omega)⟩

/-- A doorbell that finds BUSY clear (R337): BUSY is set, command and arguments are copied, the time is noted and the result words read zero. -/
theorem doorbell_idle (s : State) (n : Nat) (h : (s.fn n).rd MB_STATUS_BUSY = 0) :
    ∃ m args, doorbell s n = s.setFn n m ∧ m.rd MB_STATUS_BUSY = 1 ∧ m.latched = some ((s.fn n).regW MB_CMD_OFF, args) ∧ m.rungAt = s.sun.time
      ∧ (∀ w, w < 32 → SMap.look args w 0 = (s.fn n).regW (MB_ARG_OFF w)) ∧ (∀ w, w < 32 → m.regW (MB_RES_OFF w) = 0)
      ∧ m.async = (s.fn n).async ∧ m.flights = (s.fn n).flights := by
  unfold doorbell
  simp only [h, Nat.zero_ne_one, if_false]
  refine ⟨_, _, rfl, ?_, rfl, rfl, fun w hw => ?_, fun w hw => ?_, rfl, rfl⟩
  · have hb : ((s.fn n).wr MB_STATUS_BUSY 1).rd MB_STATUS_BUSY = 1 := Fn.rd_wr_same _ _ _ (by decide) (by decide)
    refine Eq.trans ?_ hb
    simp only [Fn.rd, Fn.regW, SMap.look]
    rw [SMap.look?_filter _ _ (fun e _ he => by rw [he]; decide)]
  · simp only [SMap.look, SMap.look?_map_keys, List.mem_range, hw, if_true, Option.getD_some]
  · simp only [Fn.regW, SMap.look]
    rw [SMap.look?_filter_none _ _ (fun e _ he => by rw [he, isResult_res hw]; rfl), Option.getD_none]

/-- An argument word while BUSY: nothing is written (R354). -/
theorem mailWrite_arg_busy (s : State) (n : Nat) {w : Nat} (v : W64) (hw : w < 32) (h : (s.fn n).rd MB_STATUS_BUSY = 1) :
    mailWrite s n (MB_ARG_OFF w) v = s := by
  have hd : MB_ARG_OFF w ≠ MB_DOORBELL_OFF := by simp only [MB_ARG_OFF, MB_DOORBELL_OFF]; omega
  unfold mailWrite
  simp only [hd, h, (mailArg_bits hw).2, if_false, if_true]
  rfl

/-- An argument word while BUSY is clear takes the value written (R354). -/
theorem mailWrite_arg_idle (s : State) (n : Nat) {w : Nat} (v : W64) (hw : w < 32) (h : (s.fn n).rd MB_STATUS_BUSY = 0) :
    mailWrite s n (MB_ARG_OFF w) v = s.setFn n ((s.fn n).setReg (MB_ARG_OFF w) v) := by
  have hd : MB_ARG_OFF w ≠ MB_DOORBELL_OFF := by simp only [MB_ARG_OFF, MB_DOORBELL_OFF]; omega
  have hev : MB_ARG_OFF w ≠ MB_EVENT_OFF := by simp only [MB_ARG_OFF, MB_EVENT_OFF]; omega
  have hheld : heldWait s n (MB_ARG_OFF w) = 0 := if_neg (fun hc => hev hc.1)
  obtain ⟨hrw, hw1c⟩ := mailArg_bits hw
  unfold mailWrite
  simp only [hd, h, hrw, hw1c, hheld, if_false, Nat.zero_ne_one, mergedNow_allBits]
  rw [if_neg (by decide)]
  exact congrArg (fun x => s.setFn n ((s.fn n).setReg (MB_ARG_OFF w) x)) BitVec.or_zero

-- plain registers

/-- The register written holds its RW bits as written and its W1C bits cleared (R9, R10). -/
theorem plainWrite_regW (s : State) (off : Nat) (v : W64) :
    (plainWrite s off v).regW off = mergedNow s.just off (s.regW off) v (w64 (rowVal rwState off)) (w64 (rowVal w1cState off)) := by
  unfold plainWrite
  dsimp only
  split
  · next h =>
    obtain ⟨hrw, hw1c⟩ := BitVec.or_eq_zero_iff.1 h
    rw [hrw, hw1c]
    exact (mergedNow_noBits ..).symm
  · exact State.regW_setReg_same ..

theorem plainWrite_regW_ne (s : State) {off x : Nat} (v : W64) (h : x ≠ off) : (plainWrite s off v).regW x = s.regW x := by
  unfold plainWrite
  extract_lets rw w1c
  split
  · rfl
  · exact State.regW_setReg_ne s _ h

-- tile windows

/-- A plain write of a tile window changes at most the register named. -/
theorem plainTileWrite_tile (s : State) (p off : Nat) (v : W64) :
    (plainTileWrite s p off v).tile p = s.tile p ∨ ∃ w, (plainTileWrite s p off v).tile p = (s.tile p).setReg off w := by
  unfold plainTileWrite
  extract_lets t rw w1c
  split
  · exact .inl rfl
  · exact .inr ⟨_, State.tile_setTile_same ..⟩

theorem plainTileWrite_tile_ne (s : State) {p x : Nat} (off : Nat) (v : W64) (h : x ≠ p) : (plainTileWrite s p off v).tile x = s.tile x := by
  unfold plainTileWrite
  extract_lets t rw w1c
  split
  · rfl
  · exact State.tile_setTile_ne s _ h

theorem plainTileWrite_regW_ne (s : State) (p : Nat) {off x : Nat} (v : W64) (h : x ≠ off) :
    ((plainTileWrite s p off v).tile p).regW x = (s.tile p).regW x := by
  rcases plainTileWrite_tile s p off v with e | ⟨w, e⟩ <;> rw [e]
  exact Tile.regW_setReg_ne _ w h

theorem plainTileWrite_sp (s : State) (p off : Nat) (v : W64) : ((plainTileWrite s p off v).tile p).sp = (s.tile p).sp := by
  rcases plainTileWrite_tile s p off v with e | ⟨w, e⟩ <;> rw [e]
  rfl

-- the counters of a channel (R222)

theorem Tile.clearCounts_send (t : Tile) (n : Nat) :
    (t.clearCounts true n).regW (TW_SEND_CNT0_OFF n) = 0 ∧ (t.clearCounts true n).regW (TW_SEND_CNT1_OFF n) = 0 := by
  have h01 : TW_SEND_CNT0_OFF n ≠ TW_SEND_CNT1_OFF n := by simp [TW_SEND_CNT0_OFF, TW_SEND_CNT1_OFF]
  simp [Tile.clearCounts, Tile.regW_setReg_ne, h01]

theorem Tile.clearCounts_recv (t : Tile) (n : Nat) :
    (t.clearCounts false n).regW (TW_RECV_CNT0_OFF n) = 0 ∧ (t.clearCounts false n).regW (TW_RECV_CNT1_OFF n) = 0
      ∧ (t.clearCounts false n).regW (TW_RECV_CNT2_OFF n) = 0 := by
  have h01 : TW_RECV_CNT0_OFF n ≠ TW_RECV_CNT1_OFF n := by simp [TW_RECV_CNT0_OFF, TW_RECV_CNT1_OFF]
  have h02 : TW_RECV_CNT0_OFF n ≠ TW_RECV_CNT2_OFF n := by simp [TW_RECV_CNT0_OFF, TW_RECV_CNT2_OFF]
  have h12 : TW_RECV_CNT1_OFF n ≠ TW_RECV_CNT2_OFF n := by simp [TW_RECV_CNT1_OFF, TW_RECV_CNT2_OFF]
  simp [Tile.clearCounts, Tile.regW_setReg_ne, h01, h02, h12]

@[simp] theorem Tile.clearCounts_sp (t : Tile) (send : Bool) (n : Nat) : (t.clearCounts send n).sp = t.sp := by
  cases send <;> rfl

/-- A channel's counters stand behind its CFG and STATE words, which keep their values. -/
theorem Tile.clearCounts_regW (t : Tile) (send : Bool) (n : Nat) {x : Nat} (h : x % 64 < 16) : (t.clearCounts send n).regW x = t.regW x := by
  cases send with
  | true =>
    have h0 : x ≠ TW_SEND_CNT0_OFF n := by simp only [TW_SEND_CNT0_OFF]; omega
    have h1 : x ≠ TW_SEND_CNT1_OFF n := by simp only [TW_SEND_CNT1_OFF]; omega
    simp [Tile.clearCounts, Tile.regW_setReg_ne, h0, h1]
  | false =>
    have h0 : x ≠ TW_RECV_CNT0_OFF n := by simp only [TW_RECV_CNT0_OFF]; omega
    have h1 : x ≠ TW_RECV_CNT1_OFF n := by simp only [TW_RECV_CNT1_OFF]; omega
    have h2 : x ≠ TW_RECV_CNT2_OFF n := by simp only [TW_RECV_CNT2_OFF]; omega
    simp [Tile.clearCounts, Tile.regW_setReg_ne, h0, h1, h2]

/-- The first word of a channel's 64 bytes is its CFG. -/
theorem tileWrite_cfg (s : State) (p : Nat) {off : Nat} (v : W64) (hlo : 0x3000 ≤ off) (hhi : off < 0x4000) (h64 : off % 64 = 0) :
    tileWrite s p off v = cfgWrite s p off v := by
  have hne : ∀ c, c < 0x3000 → off ≠ c := by omega
  have hstate : ¬ (TW_RECV_STATE_OFF 0 ≤ off ∧ off < TW_RECV_STATE_OFF 32 ∧ (off - TW_RECV_STATE_OFF 0) % 64 = 0) := by
    simp only [TW_RECV_STATE_OFF]; omega
  unfold tileWrite
  rw [if_neg (hne _ (by decide)), if_neg (hne _ (by decide)), if_neg (hne _ (by decide)), if_neg (hne _ (by decide)), if_neg (hne _ (by decide)),
    if_neg hstate, if_pos ⟨hlo, hhi, h64⟩]

theorem cfgWrite_send (s : State) (p : Nat) {n : Nat} (v : W64) (h : n < 32) :
    cfgWrite s p (TW_SEND_CFG_OFF n) v = (plainTileWrite s p (TW_SEND_CFG_OFF n) v).modTile p (fun t => t.clearCounts true n) := by
  have hs : TW_SEND_CFG_OFF n < TW_RECV_CFG_OFF 0 := by simp only [TW_SEND_CFG_OFF, TW_RECV_CFG_OFF]; omega
  have hn : (TW_SEND_CFG_OFF n - TW_SEND_CFG_OFF 0) / 64 = n := by simp only [TW_SEND_CFG_OFF]; omega
  simp only [cfgWrite, hs, hn, decide_true, if_true]

theorem cfgWrite_recv (s : State) (p n : Nat) (v : W64) :
    cfgWrite s p (TW_RECV_CFG_OFF n) v = (plainTileWrite s p (TW_RECV_CFG_OFF n) v).modTile p (fun t => t.clearCounts false n) := by
  have hs : ¬ TW_RECV_CFG_OFF n < TW_RECV_CFG_OFF 0 := by simp only [TW_RECV_CFG_OFF]; omega
  have hn : (TW_RECV_CFG_OFF n - TW_RECV_CFG_OFF 0) / 64 = n := by simp only [TW_RECV_CFG_OFF]; omega
  simp only [cfgWrite, hs, hn, decide_false, if_false]

/-- A channel's CFG written and its counters cleared: what its tile keeps, and that every other tile is left alone. -/
theorem configured_keeps (s : State) (p off : Nat) (v : W64) (send : Bool) (n : Nat) :
    let t := (plainTileWrite s p off v).modTile p (fun t => t.clearCounts send n)
    (∀ x, x ≠ p → t.tile x = s.tile x) ∧ (t.tile p).sp = (s.tile p).sp ∧ t.reg = s.reg
      ∧ ∀ x, x ≠ off → x % 64 < 16 → (t.tile p).regW x = (s.tile p).regW x := by
  intro t
  have ht : t.tile p = ((plainTileWrite s p off v).tile p).clearCounts send n := State.tile_modTile_same ..
  refine ⟨fun x hx => ?_, ?_, ?_, fun x hx h64 => ?_⟩
  · exact (State.tile_modTile_ne _ _ hx).trans (plainTileWrite_tile_ne s off v hx)
  · rw [ht, Tile.clearCounts_sp, plainTileWrite_sp]
  · simp [t]
  · rw [ht, Tile.clearCounts_regW _ _ _ h64, plainTileWrite_regW_ne s p v hx]

-- the Shed (R404 to R406)

/-- The words past the customer words are Reserved. -/
theorem shedBits_high {n : Nat} (h : 0x300 ≤ n) : shedBits n = 0 := by
  unfold shedBits
  rw [if_neg (by omega), if_neg (by omega), if_neg (by omega), if_neg (by omega), if_neg (by omega), if_neg (by omega), if_neg (by omega),
    if_neg (by omega), if_neg (by omega), if_neg (by omega)]

/-- A word that is not worn takes its place in the queue of writes, with its reserved bits at zero. -/
theorem shedPut_unworn (s : State) (n : Nat) (v : W64) (fn : Option Nat) (h : shedWorn s n = false) :
    (shedPut s n v fn).shed.queue = s.shed.queue ++ [⟨n, v &&& shedBits n, fn⟩] ∧ (shedPut s n v fn).shed.words = s.shed.words
      ∧ (shedPut s n v fn).reg = s.reg := by
  unfold shedPut shedBegin
  simp only [h, Bool.false_eq_true, if_false]
  split
  · split <;> simp_all
  · exact ⟨rfl, rfl, rfl⟩

/-- Settles O58: each kind of write goes to the one part of the module that its offset names, whose own lemma says what it does. -/
theorem registerWritesAct : Obligations.RegisterWritesAct := by
  unfold Obligations.RegisterWritesAct
  refine ⟨?doorbell, ?argument, ?elsewhere, ?sundial, ?shed, ?channel, ?count, ?noSuch⟩
  case doorbell =>
    intro s f n v hf hn hv hbusy
    subst hn
    obtain ⟨m, args, hm, facts⟩ := doorbell_idle s (fnNum f) hbusy
    refine ⟨m, args, ?_, facts⟩
    rw [registerWrite_next (a := .host f) s v hf (by decide) (by decide), regWrite, hostWrite_mailbox s f v (by decide), ← hm]
    simp only [mailWrite, if_true, hv]
  case argument =>
    intro s f n w v hf hn hw
    subst hn
    have hoff : MB_ARG_OFF w < 0x1000 ∧ (0x10000 + MB_ARG_OFF w) % 8 = 0 := by simp only [MB_ARG_OFF]; omega
    have hwrite : exec (.registerWrite (.host f) (0x10000 + MB_ARG_OFF w) v) s = .next (mailWrite s (fnNum f) (MB_ARG_OFF w) v) := by
      rw [registerWrite_next (a := .host f) s v hf hoff.2 (by omega), regWrite, hostWrite_mailbox s f v hoff.1]
    refine ⟨fun h => ?_, fun h => ⟨(s.fn (fnNum f)).setReg (MB_ARG_OFF w) v, ?_, ?_, fun off hne => ?_, rfl⟩⟩
    · rw [hwrite, mailWrite_arg_busy s _ v hw h]
    · rw [hwrite, mailWrite_arg_idle s _ v hw h]
    · exact Fn.regW_setReg_same ..
    · exact Fn.regW_setReg_ne _ _ hne
  case elsewhere =>
    intro s f off v hf h8 hmail hbar hsun
    rw [registerWrite_next (a := .host f) s v hf h8 (by omega), regWrite, hostWrite_elsewhere s f v hbar hmail hsun]
  case sundial =>
    intro s a off v ha h8 hlo hhi
    have hwrite : exec (.registerWrite a off v) s = .next (plainWrite s off v) := by
      rcases ha with rfl | rfl
      · rw [registerWrite_next s v rfl h8 (by omega), regWrite, wardenWrite_sundial s v hlo hhi]
      · rw [registerWrite_next s v rfl h8 (by omega), regWrite, hostWrite_sundial s v hlo hhi]
    exact ⟨_, hwrite, plainWrite_regW s off v, fun x hx => plainWrite_regW_ne s v hx, by simp⟩
  case shed =>
    intro s n v hn
    have hwrite : exec (.registerWrite .warden (0x20000 + 8 * n) v) s = .next (shedWordWrite s n v) := by
      rw [registerWrite_next s v rfl (by omega) (by omega), regWrite, wardenWrite_shed s v hn]
    refine ⟨fun h => ?_, fun hbits hlow hworn => ?_⟩
    · have hkeep : (0x200 ≤ n ∧ n < 0x300) ∨ shedBits n = 0 := by
        rcases h with h | h
        · exact .inr h
        · rcases Nat.lt_or_ge n 0x300 with h3 | h3
          · exact .inl ⟨h, h3⟩
          · exact .inr (shedBits_high h3)
      rw [hwrite, shedWordWrite, if_pos hkeep]
    · have hput : shedWordWrite s n v = shedPut s n v none := if_neg (fun hc => hc.elim (fun hr => by omega) hbits)
      rw [hwrite, hput]
      obtain ⟨hqueue, hwords, hreg⟩ := shedPut_unworn s n v none hworn
      exact ⟨_, rfl, hqueue, hwords, hreg, by simp⟩
  case channel =>
    intro s p n v hp hn
    have hwrite : ∀ off, 0x3000 ≤ off → off < 0x4000 → off % 64 = 0 →
        exec (.registerWrite .warden (0x2000000 + 0x4000 * p + off) v) s = .next (cfgWrite s p off v) := fun off hlo hhi h64 => by
      rw [registerWrite_next s v rfl (by omega) (by omega), regWrite, wardenWrite_tile s v hp hhi, tileWrite_cfg s p v hlo hhi h64]
    have hsend : 0x3000 ≤ TW_SEND_CFG_OFF n ∧ TW_SEND_CFG_OFF n < 0x4000 ∧ TW_SEND_CFG_OFF n % 64 = 0 := by simp only [TW_SEND_CFG_OFF]; omega
    have hrecv : 0x3000 ≤ TW_RECV_CFG_OFF n ∧ TW_RECV_CFG_OFF n < 0x4000 ∧ TW_RECV_CFG_OFF n % 64 = 0 := by simp only [TW_RECV_CFG_OFF]; omega
    have hstate : ∀ m, TW_RECV_STATE_OFF m ≠ TW_SEND_CFG_OFF n ∧ TW_RECV_STATE_OFF m % 64 < 16 := by
      simp only [TW_RECV_STATE_OFF, TW_SEND_CFG_OFF]; omega
    constructor
    · rw [hwrite _ hsend.1 hsend.2.1 hsend.2.2, cfgWrite_send s p v hn]
      obtain ⟨hothers, hsp, hreg, hregs⟩ := configured_keeps s p (TW_SEND_CFG_OFF n) v true n
      obtain ⟨h0, h1⟩ := ((plainTileWrite s p (TW_SEND_CFG_OFF n) v).tile p).clearCounts_send n
      refine ⟨_, rfl, ?_, ?_, hothers, fun m => hregs _ (hstate m).1 (hstate m).2, hsp, hreg⟩
      · rw [State.tile_modTile_same, h0]
      · rw [State.tile_modTile_same, h1]
    · rw [hwrite _ hrecv.1 hrecv.2.1 hrecv.2.2, cfgWrite_recv s p n v]
      obtain ⟨hothers, hsp, hreg, -⟩ := configured_keeps s p (TW_RECV_CFG_OFF n) v false n
      obtain ⟨h0, h1, h2⟩ := ((plainTileWrite s p (TW_RECV_CFG_OFF n) v).tile p).clearCounts_recv n
      refine ⟨_, rfl, ?_, ?_, ?_, hothers, hsp, hreg⟩
      · rw [State.tile_modTile_same, h0]
      · rw [State.tile_modTile_same, h1]
      · rw [State.tile_modTile_same, h2]
  case count =>
    intro s p c k v hp hc hk
    subst hc hk
    rw [registerWrite_next s v rfl (by simp only [TL_TC_ADD_OFF]; omega) (by simp only [TL_TC_ADD_OFF]; omega), regWrite, wardenWrite_tile s v hp (by decide)]
    rfl
  case noSuch =>
    intro s a off v h
    refine if_neg (fun ⟨ha, h8, hoff⟩ => ?_)
    rcases h with h | h | h
    · simp [h] at ha
    · exact h h8
    · exact absurd hoff (Nat.not_lt.2 h)

end Sys2Proof.Machine
end

section
/-!
PROOF. Resets of functions and ports, links, and failed DMA (O57): what is left of a pavilion whose doorbell function is reset, and of the mailbox of a
function that is reset.
-/

namespace Sys2Proof.Machine
open Sys2Proof

-- folds over the state

/-- What the step of one element establishes and every step keeps holds after a fold that meets the element. -/
theorem foldl_establishes {α : Type} {P : State → Prop} {f : State → α → State} {x : α} {l : List α} (hx : x ∈ l) (hmake : ∀ s, P (f s x))
    (hkeep : ∀ s y, P s → P (f s y)) (s : State) : P (l.foldl f s) := by
  obtain ⟨before, after, rfl⟩ := List.append_of_mem hx
  rw [List.foldl_append, List.foldl_cons]
  exact List.foldlRecOn after f (hmake _) (fun t ht y _ => hkeep t y ht)

-- the service of a pavilion: its rings, its hold store and its state

/-- As to pavilions, `t` differs from `s` in pavilion `q` alone, whose rings, hold store and state code are the same. -/
structure SameService (q : Nat) (s t : State) : Prop where
  others : ∀ x, x ≠ q → t.pv x = s.pv x
  rings : (t.pv q).front.rings = (s.pv q).front.rings
  store : (t.pv q).front.store = (s.pv q).front.store
  st : (t.pv q).run.st = (s.pv q).run.st

theorem SameService.of_pvs {s t : State} (q : Nat) (h : t.pvs = s.pvs) : SameService q s t :=
  ⟨fun x _ => pv_of h x, by rw [pv_of h], by rw [pv_of h], by rw [pv_of h]⟩

theorem SameService.trans {q : Nat} {s t u : State} (h : SameService q s t) (k : SameService q t u) : SameService q s u :=
  ⟨fun x hx => (k.others x hx).trans (h.others x hx), k.rings.trans h.rings, k.store.trans h.store, k.st.trans h.st⟩

theorem SameService.modRun (s : State) (q : Nat) {f : PvRun → PvRun} (h : ∀ r, (f r).st = r.st) : SameService q s (s.modRun q f) :=
  ⟨fun _ hx => State.pv_modRun_ne s f hx, by rw [State.pv_modRun_same], by rw [State.pv_modRun_same], by rw [State.pv_modRun_same]; exact h _⟩

theorem SameService.modFront (s : State) (q : Nat) {f : PvFront → PvFront} (hr : ∀ y, (f y).rings = y.rings) (hs : ∀ y, (f y).store = y.store) :
    SameService q s (s.modFront q f) :=
  ⟨fun _ hx => State.pv_modFront_ne s f hx, by rw [State.pv_modFront_same]; exact hr _, by rw [State.pv_modFront_same]; exact hs _,
    by rw [State.pv_modFront_same]⟩

theorem SameService.modPool (s : State) (q : Nat) (f : Pool → Pool) : SameService q s (s.modPool q f) :=
  .modFront s q (fun _ => rfl) (fun _ => rfl)

/-- The end of a load clears the pavilion's note of it, and nothing of its service. -/
theorem endLoad_service (s : State) (q status detail : Nat) : SameService q s (endLoad s q status detail) := by
  unfold endLoad
  split
  · exact .of_pvs q rfl
  · exact SameService.trans (t := s.modRun q (fun r => { r with load := none })) (.modRun s q (fun _ => rfl)) (.of_pvs q (by simp))

theorem endPvFlights_service (s : State) (q : Nat) : SameService q s (endPvFlights s q) := by
  unfold endPvFlights
  extract_lets staging s1
  have hstaging : SameService q s (staging.foldl (fun s n => endStaging s n stFault 0) s) := .of_pvs q (by simp)
  exact (hstaging.trans (endLoad_service _ q stFault 0)).trans (.of_pvs q (by simp [s1]))

theorem stopContext_service (s : State) (q : Nat) : SameService q s (stopContext s q) := by
  unfold stopContext
  extract_lets s1 s2 s3 s4 s5
  have h3 : SameService q s (commitDrop s3 (· == q)) := .of_pvs q (by simp [s3, s2, s1])
  have h4 : SameService q s s4 := h3.trans (.modPool _ q freePending)
  have h5 : SameService q s s5 := h4.trans (.modRun s4 q (fun _ => rfl))
  exact h5.trans (.of_pvs q (by simp))

theorem unpin_service (s : State) (q tag : Nat) (aborted : Bool) : SameService q s (unpin s q tag aborted) := by
  unfold unpin
  split
  · exact .of_pvs q rfl
  · split
    · exact .modPool s q _
    · exact .of_pvs q (by simp)

/-- The record of a pavilion without rings goes nowhere. -/
theorem finish_noRings (s : State) (q : Nat) (r : Req) (status : Nat) (h : (s.pv q).front.rings = none) : (finish s q r status).1 = s := by
  simp [finish, putRecord, h]

/-- The requests of a pavilion without rings end without a trace in its service. -/
theorem endRequests_service (s : State) (q status : Nat) (h : (s.pv q).front.rings = none) : SameService q s (endRequests s q status) := by
  unfold endRequests
  extract_lets f s1 s2
  have h1 : SameService q s s1 := by
    refine List.foldlRecOn _ _ (SameService.of_pvs q rfl) (fun t ht r _ => ht.trans ?_)
    rw [finish_noRings t q r status (ht.rings.trans h)]
    refine SameService.trans (.of_pvs q ?_) (unpin_service _ q r.tag true)
    split <;> simp
  have h2 : SameService q s s2 := h1.trans (.modFront s1 q (fun _ => rfl) (fun _ => rfl))
  exact h2.trans (.of_pvs q (by simp))

theorem endAsync_pv (s : State) (n ticket status detail value q : Nat) : (endAsync s n ticket status detail value).pv q = s.pv q :=
  pv_of (by simp) q

theorem enterState_pvs (s : State) (q st : Nat) : (enterState s q st).pvs = (s.modRun q (fun r => { r with st := st })).pvs := by
  simp [enterState]

/-- A pavilion that enters a state changes its state code. -/
theorem enterState_pv_same (s : State) (q st : Nat) : (enterState s q st).pv q = { s.pv q with run := { (s.pv q).run with st := st } } := by
  rw [pv_of (enterState_pvs s q st), State.pv_modRun_same]

theorem enterState_pv_ne (s : State) {q x : Nat} (st : Nat) (h : x ≠ q) : (enterState s q st).pv x = s.pv x := by
  rw [pv_of (enterState_pvs s q st), State.pv_modRun_ne s _ h]

/-- An abort of a pavilion without rings (R347): it stands in RESETTING with its hold store empty, and no other pavilion changes. -/
theorem beginReset_abort (s : State) (q cluster n t : Nat) (h : (s.pv q).front.rings = none) :
    ∃ u, SameService q u (beginReset s q unitAbort cluster n t) ∧ (u.pv q).front.rings = none ∧ (u.pv q).front.store = []
      ∧ (u.pv q).run.st = pvResetting ∧ ∀ x, x ≠ q → u.pv x = s.pv x := by
  unfold beginReset
  extract_lets had s1 s2 s3 s4
  have h1 : ∀ x, s1.pv x = s.pv x := pv_of (by simp [s1])
  have hrings : (s2.pv q).front.rings = none := by
    simp [s2, enterState_pv_same, h1, h]
  have h4 : s4 = s3 := by simp [s4, resetUnit, unitAbort, unitCluster, unitPavilion]
  have h3 : SameService q s2 s3 :=
    (stopContext_service s2 q).trans (endRequests_service _ q stFault ((stopContext_service s2 q).rings.trans hrings))
  refine ⟨s2, ?_, hrings, ?_, ?_, fun x hx => ?_⟩
  · rw [h4]
    exact h3.trans (.modRun s3 q (fun _ => rfl))
  · simp [s2]
  · simp [s2, enterState_pv_same]
  · rw [State.pv_modFront_ne _ _ hx, enterState_pv_ne _ _ hx, h1]

/-- What a pavilion keeps once its rings are forgotten (R425): neither rings nor records held, and a context that ran is aborted. -/
structure Forgotten (v w : Pv) (aborted : Bool) : Prop where
  rings : w.front.rings = none
  store : w.front.store = []
  st : w.run.st = if aborted then pvResetting else v.run.st

theorem forgetRings_same (s : State) (q : Nat) : Forgotten (s.pv q) ((forgetRings s q).pv q) (abortable s q) := by
  unfold forgetRings
  extract_lets live s1
  have hs1 : s1.pv q = { s.pv q with front := { (s.pv q).front with rings := none, store := [] } } := State.pv_modFront_same ..
  split
  · next hlive =>
    have hend := endPvFlights_service s1 q
    obtain ⟨u, hu, hrings, hstore, hst, -⟩ := beginReset_abort (endPvFlights s1 q) q 0 (17 * (s.pv q).res.port) 256 (by rw [hend.rings, hs1])
    exact ⟨hu.rings.trans hrings, hu.store.trans hstore, by rw [hu.st, hst, if_pos hlive]⟩
  · next hlive => exact ⟨by rw [hs1], by rw [hs1], by rw [hs1, if_neg hlive]⟩

theorem forgetRings_pv_ne (s : State) {q x : Nat} (hx : x ≠ q) : (forgetRings s q).pv x = s.pv x := by
  unfold forgetRings
  extract_lets live s1
  have hs1 : s1.pv x = s.pv x := State.pv_modFront_ne _ _ hx
  split
  · have hend := endPvFlights_service s1 q
    have hq : (s1.pv q).front.rings = none := by simp [s1]
    obtain ⟨u, hu, -, -, -, hothers⟩ := beginReset_abort (endPvFlights s1 q) q 0 (17 * (s.pv q).res.port) 256 (hend.rings.trans hq)
    rw [hu.others x hx, hothers x hx, hend.others x hx, hs1]
  · exact hs1

theorem foldl_forgetRings_pv_ne {l : List Nat} {x : Nat} (hx : x ∉ l) (s : State) : (l.foldl forgetRings s).pv x = s.pv x :=
  List.foldlRecOn (motive := fun t => t.pv x = s.pv x) l forgetRings rfl
    (fun t ht _ hq => (forgetRings_pv_ne t (ne_of_mem_of_not_mem hq hx).symm).trans ht)

/-- Each pavilion of a list without repetitions is forgotten once. -/
theorem foldl_forgetRings_same {l : List Nat} {q : Nat} (hl : l.Nodup) (hq : q ∈ l) (s : State) :
    Forgotten (s.pv q) ((l.foldl forgetRings s).pv q) (abortable s q) := by
  induction l generalizing s with
  | nil => cases hq
  | cons a l ih =>
    obtain ⟨ha, hl⟩ := List.nodup_cons.1 hl
    rw [List.foldl_cons]
    by_cases e : q = a
    · subst e
      rw [foldl_forgetRings_pv_ne ha]
      exact forgetRings_same s q
    · have hsame : (forgetRings s a).pv q = s.pv q := forgetRings_pv_ne s e
      have habort : abortable (forgetRings s a) q = abortable s q := by simp only [abortable, hsame]
      have h := ih hl (List.mem_of_ne_of_mem e hq) (forgetRings s a)
      rwa [hsame, habort] at h

/-- The pavilions whose doorbell function is number `n`. -/
theorem mem_ringPvs {s : State} {n q : Nat} : q ∈ (List.range 4).filter (fun q => ringFn s q == some n) ↔ q < 4 ∧ ringFn s q = some n := by
  simp

/-- A function's reset forgets the rings of its pavilions. -/
theorem resetFn_forgets (s : State) {n q : Nat} (hq : q < 4) (h : ringFn s q = some n) :
    Forgotten (s.pv q) ((resetFn s n).pv q) (abortable s q) := by
  have hnodup : ((List.range 4).filter (fun q => ringFn s q == some n)).Nodup := List.nodup_range.filter _
  exact foldl_forgetRings_same hnodup (mem_ringPvs.2 ⟨hq, h⟩) s

-- the mailbox of a function that has been reset

/-- Nothing waits in a mailbox: no command, no result, and every command in flight ends without one (R425). -/
structure Fn.Silent (m : Fn) : Prop where
  latched : m.latched = none
  async : m.async = []
  flights : ∀ x ∈ m.flights, x.discard = true

theorem Fn.silent_cleared (m : Fn) : m.cleared.Silent :=
  ⟨rfl, rfl, by simp [Fn.cleared]⟩

/-- Two mailboxes that hold the same commands and results are silent together. -/
theorem Fn.Silent.congr {m u : Fn} (h : m.Silent) (hl : u.latched = m.latched) (ha : u.async = m.async) (hf : u.flights = m.flights) : u.Silent :=
  ⟨hl.trans h.latched, ha.trans h.async, hf ▸ h.flights⟩

theorem silent_of_fns {s t : State} (h : t.fns = s.fns) {k : Nat} (hk : (s.fn k).Silent) : (t.fn k).Silent := by
  rwa [fn_of h]

theorem foldl_silent {α : Type} {f : State → α → State} {k : Nat} (hf : ∀ t x, (t.fn k).Silent → ((f t x).fn k).Silent) (l : List α) {s : State}
    (hk : (s.fn k).Silent) : ((l.foldl f s).fn k).Silent :=
  List.foldlRecOn (motive := fun t : State => (t.fn k).Silent) l f hk (fun t ht x _ => hf t x ht)

/-- A silent mailbox written over another leaves every silent mailbox silent. -/
theorem silent_setFn {s : State} {k : Nat} (n : Nat) {m : Fn} (hk : (s.fn k).Silent) (hm : k = n → m.Silent) : ((s.setFn n m).fn k).Silent := by
  by_cases e : k = n
  · subst e
    rw [State.fn_setFn_same]
    exact hm rfl
  · rwa [State.fn_setFn_ne s m e]

theorem raiseVec_silent {s : State} {k : Nat} (n v : Nat) (hk : (s.fn k).Silent) : ((raiseVec s n v).fn k).Silent := by
  by_cases e : k = n
  · subst e
    obtain ⟨l, h⟩ := raiseVec_fn s k v
    rw [h]
    exact hk.congr rfl rfl rfl
  · rwa [raiseVec_fn_ne s n v k e]

theorem setEvent_silent {s : State} {k : Nat} (n b : Nat) (hk : (s.fn k).Silent) : ((setEvent s n b).fn k).Silent :=
  raiseVec_silent n 0 (silent_setFn n hk (fun e => (e ▸ hk).congr rfl rfl rfl))

theorem pvEvent_silent {s : State} {k : Nat} (q b : Nat) (hk : (s.fn k).Silent) : ((pvEvent s q b).fn k).Silent :=
  foldl_silent (fun _ n => setEvent_silent n b) _ hk

theorem enterState_silent {s : State} {k : Nat} (q st : Nat) (hk : (s.fn k).Silent) : ((enterState s q st).fn k).Silent :=
  pvEvent_silent q 1 (silent_of_fns rfl hk)

/-- The end of an asynchronous command leaves a silent mailbox without a result. -/
theorem endAsync_silent {s : State} {k : Nat} (n ticket status detail value : Nat) (hk : (s.fn k).Silent) :
    ((endAsync s n ticket status detail value).fn k).Silent := by
  unfold endAsync
  extract_lets m m1
  split
  · exact hk
  · next x hx =>
    have hm : k = n → m.Silent := by
      rintro rfl
      exact hk
    split
    · exact silent_setFn n hk (fun e => ⟨(hm e).latched, (hm e).async, fun y hy => (hm e).flights y (List.mem_filter.1 hy).1⟩)
    · next hd =>
      exact setEvent_silent n 0 (silent_setFn n hk (fun e => absurd ((hm e).flights x (List.mem_of_find?_eq_some hx)) hd))

theorem endStaging_silent {s : State} {k : Nat} (n status detail : Nat) (hk : (s.fn k).Silent) : ((endStaging s n status detail).fn k).Silent := by
  unfold endStaging
  split
  · exact hk
  · refine endAsync_silent _ _ _ _ _ (silent_of_fns ?_ hk)
    split <;> rfl

theorem endLoad_silent {s : State} {k : Nat} (q status detail : Nat) (hk : (s.fn k).Silent) : ((endLoad s q status detail).fn k).Silent := by
  unfold endLoad
  split
  · exact hk
  · exact endAsync_silent _ _ _ _ _ (silent_of_fns rfl hk)

theorem endPvFlights_silent {s : State} {k : Nat} (q : Nat) (hk : (s.fn k).Silent) : ((endPvFlights s q).fn k).Silent := by
  unfold endPvFlights
  extract_lets staging s1
  have hstaging := foldl_silent (fun _ n => endStaging_silent n stFault 0) staging hk
  exact foldl_silent (fun _ (x : Nat × Nat) => endAsync_silent x.1 x.2 stFault 0 0) _ (endLoad_silent q stFault 0 hstaging)

theorem putRecord_silent {s : State} {k : Nat} (q : Nat) (ws : List W64) (hk : (s.fn k).Silent) : ((putRecord s q ws).1.fn k).Silent := by
  unfold putRecord
  extract_lets f
  split
  · exact hk
  · next r _ =>
    split
    · exact raiseVec_silent r.fn r.vector (silent_of_fns rfl hk)
    · split
      · exact hk
      · extract_lets s1
        have h1 : (s1.fn k).Silent := by
          simp only [s1]
          split
          · exact setEvent_silent r.fn 3 hk
          · exact hk
        exact silent_of_fns rfl h1

theorem endRequests_silent {s : State} {k : Nat} (q status : Nat) (hk : (s.fn k).Silent) : ((endRequests s q status).fn k).Silent := by
  unfold endRequests
  extract_lets f s1 s2
  have h1 : (s1.fn k).Silent := by
    refine foldl_silent (fun t r ht => ?_) _ hk
    have hfin : ((finish t q r status).1.fn k).Silent := putRecord_silent q _ ht
    refine silent_of_fns ?_ hfin
    split <;> simp
  exact silent_of_fns (by simp [s2]) h1

theorem beginReset_abort_silent {s : State} {k : Nat} (q cluster n t : Nat) (hk : (s.fn k).Silent) :
    ((beginReset s q unitAbort cluster n t).fn k).Silent := by
  unfold beginReset
  extract_lets had s1 s2 s3 s4
  have h1 : (s1.fn k).Silent := silent_of_fns (by simp [s1]) hk
  have h2 : (s2.fn k).Silent := silent_of_fns (s := enterState s1 q pvResetting) (by simp [s2]) (enterState_silent q pvResetting h1)
  have h3 : (s3.fn k).Silent := endRequests_silent q stFault (silent_of_fns (by simp) h2)
  have h4 : s4 = s3 := by simp [s4, resetUnit, unitAbort, unitCluster, unitPavilion]
  rw [h4]
  exact silent_of_fns (s := s3) (by simp) h3

theorem forgetRings_silent {s : State} {k : Nat} (q : Nat) (hk : (s.fn k).Silent) : ((forgetRings s q).fn k).Silent := by
  unfold forgetRings
  extract_lets live s1
  have h1 : (s1.fn k).Silent := silent_of_fns rfl hk
  split
  · exact beginReset_abort_silent _ _ _ _ (endPvFlights_silent q h1)
  · exact h1

/-- A function that is reset falls silent. -/
theorem resetFn_silences (s : State) (n : Nat) : ((resetFn s n).fn n).Silent := by
  refine silent_of_fns (s := State.modFn _ n Fn.cleared) rfl ?_
  rw [State.fn_modFn_same]
  exact Fn.silent_cleared _

/-- The reset of one function leaves a silent one silent. -/
theorem resetFn_silent {s : State} {k : Nat} (n : Nat) (hk : (s.fn k).Silent) : ((resetFn s n).fn k).Silent := by
  refine silent_of_fns (s := State.modFn _ n Fn.cleared) rfl (silent_setFn n ?_ (fun _ => Fn.silent_cleared _))
  exact foldl_silent (fun _ q => forgetRings_silent q) _ hk

/-- The reset of a physical function silences it and every virtual function of its port (R425). -/
theorem flr_pf_silences (s : State) (port : Nat) {k : Nat} (h : k < 17) : ((flr s (.pf port)).fn (17 * port + k)).Silent :=
  foldl_establishes (P := fun t => (t.fn (17 * port + k)).Silent) (f := fun s j => resetFn s (17 * port + j)) (List.mem_range.2 h)
    (fun t => resetFn_silences t _) (fun _ j ht => resetFn_silent (17 * port + j) ht) s

-- registers of the mailbox that no event touches

theorem raiseVec_rd (s : State) (n v k : Nat) (f : Fld) : ((raiseVec s n v).fn k).rd f = (s.fn k).rd f := by
  by_cases e : k = n
  · subst e
    obtain ⟨l, h⟩ := raiseVec_fn s k v
    rw [h]
    rfl
  · rw [raiseVec_fn_ne s n v k e]

/-- The counters of the events stand behind MB_EVENT. -/
theorem eventCount_off (b : Nat) : MB_EVENT_OFF < (eventCount b).off := by
  unfold eventCount
  split <;> decide

/-- An event of a mailbox touches no register before MB_EVENT. -/
theorem setEvent_rd_before (s : State) (n b k : Nat) {f : Fld} (h : f.off < MB_EVENT_OFF) : ((setEvent s n b).fn k).rd f = (s.fn k).rd f := by
  unfold setEvent
  extract_lets m m1
  rw [raiseVec_rd]
  by_cases e : k = n
  · subst e
    have hcount := eventCount_off b
    rw [State.fn_setFn_same, Fn.rd_wr_off _ _ (by omega), Fn.rd_raise, Fn.rd_wr_off _ _ (Nat.ne_of_lt h)]
  · rw [State.fn_setFn_ne _ _ e]

theorem enterState_rd_before (s : State) (q st k : Nat) {f : Fld} (h : f.off < MB_EVENT_OFF) : ((enterState s q st).fn k).rd f = (s.fn k).rd f :=
  List.foldlRecOn (motive := fun t : State => (t.fn k).rd f = (s.fn k).rd f) _ _ rfl (fun t ht n _ => (setEvent_rd_before t n 1 k h).trans ht)

theorem endAsync_rd_before (s : State) (n ticket status detail value k : Nat) {f : Fld} (h : f.off < MB_EVENT_OFF) :
    ((endAsync s n ticket status detail value).fn k).rd f = (s.fn k).rd f := by
  have hset : ∀ m : Fn, m.reg = (s.fn n).reg → ((s.setFn n m).fn k).rd f = (s.fn k).rd f := fun m hm => by
    by_cases e : k = n
    · subst e
      simp only [State.fn_setFn_same, Fn.rd, Fn.regW, hm]
    · rw [State.fn_setFn_ne _ _ e]
  unfold endAsync
  extract_lets m m1
  split
  · rfl
  · split
    · exact hset _ rfl
    · exact (setEvent_rd_before _ n 0 k h).trans (hset _ rfl)

/-- An accepted command answers ACCEPTED (R338). -/
theorem accept_status {s : State} {n : Nat} {cmd : W64} {a : SMap W64} (h : (s.fn n).latched = some (cmd, a)) (op : Nat) (q : Option Nat) (ms : Nat)
    (res : List W64) : ((accept s n op q ms res).fn n).rd MB_STATUS_STATUS = stAccepted := by
  obtain ⟨m, hm, -, -, -, -, -, -, -, hstatus, -⟩ := answer_eq h stAccepted 0 (ticketOf s n) res
  unfold accept
  extract_lets t x
  rw [State.fn_modFn_same]
  refine Eq.trans ?_ hstatus
  rw [← State.fn_setFn_same s n m, ← raiseVec_rd (s.setFn n m) n 0 n, ← hm]
  rfl

/-- A LOAD_MODEL whose checks pass is accepted, and goes on. -/
theorem loadWith_accepted {s : State} {f : Func} {cmd : W64} {a : SMap W64} {q : Nat} (hsub : Submitted s f 0x24 cmd a) (hpv : namedPv s f cmd = some q)
    (hargs : faulty a [0x3F, wholeWord, 0xFFFFFFFF] (fun w => w == 1 && arg a 1 5 0 != 0) = none) (hst : (s.pv q).run.st ∈ [pvEmpty, pvLoaded])
    (hslice : stagedFor s q (arg a 0 5 0) = true) (hfull : flightsFull s (fnNum f) = false) (hbusy : pvBusy s q = false)
    (body : State → Nat → Nat → Nat → Nat → State) :
    loadWith s f body = body (accept s (fnNum f) 0x24 (some q) 2000 []) q (fnNum f) (ticketOf s (fnNum f)) (arg a 0 5 0) := by
  unfold loadWith
  rw [servePv_ok hsub hpv anyArgs rfl _ _ _ _ hargs hst]
  simp [hslice, hfull, hbusy]

/-- Rings that a failed DMA has stalled are not read (R424). -/
theorem mayRead_stalled {s : State} {q : Nat} {r : Rings} (h : (s.pv q).front.rings = some r) (hr : r.stalled = true) : mayRead s q = none := by
  unfold mayRead
  extract_lets v
  split
  · next r' i hr' _ =>
    obtain rfl : r' = r := Option.some.inj (hr'.symm.trans h)
    rw [if_neg (by simp [hr])]
  · rfl

/-- An event on the doorbell function of a pavilion that has rings. -/
theorem ringEvent_some {s : State} {q n : Nat} (b : Nat) (h : ringFn s q = some n) : ringEvent s q b = setEvent s n b := by
  simp only [ringEvent, h]

theorem dmaFailure_next {k : DmaKind} (s : State) (h : dmaOk k = true) : exec (.dmaFailure k) s = .next (dmaLost s k) :=
  if_pos h

/-- The commands that reset a physical function with every function of its port. -/
theorem portReset_next (s : State) {port : Nat} {c : Instr} (hport : port < 2)
    (hc : c = .functionLevelReset (.pf port) ∨ c = .pcieHotReset port ∨ c = .d3hotToD0 (.pf port) ∨ ∃ n, 1 ≤ n ∧ n ≤ 16 ∧ c = .d3hotToD0 (.vf port n)) :
    exec c s = .next (flr s (.pf port)) := by
  have hpf : fnOk (.pf port) = true := decide_eq_true hport
  rcases hc with rfl | rfl | rfl | ⟨n, hlo, hhi, rfl⟩
  · exact if_pos hpf
  · exact if_pos hport
  · exact if_pos hpf
  · have hvf : fnOk (.vf port n) = true := by simp [fnOk, hport]; omega
    exact if_pos hvf

theorem functionLevelReset_vf (s : State) {port n : Nat} (hport : port < 2) (hlo : 1 ≤ n) (hhi : n ≤ 16) :
    exec (.functionLevelReset (.vf port n)) s = .next (resetFn s (17 * port + n)) := by
  have hvf : fnOk (.vf port n) = true := by simp [fnOk, hport]; omega
  exact if_pos hvf

/-- The reset of a function that no pavilion's rings name clears its mailbox and touches no other part but the Shed's note of whom to answer. -/
theorem resetFn_noRings (s : State) (n : Nat) (h : ∀ q, q < 4 → ringFn s q ≠ some n) :
    ∃ d, resetFn s n = { s.modFn n Fn.cleared with shed := d } := by
  have hnone : (List.range 4).filter (fun q => ringFn s q == some n) = [] :=
    List.eq_nil_iff_forall_not_mem.2 (fun q hq => h q (mem_ringPvs.1 hq).1 (mem_ringPvs.1 hq).2)
  unfold resetFn
  rw [hnone]
  exact ⟨_, rfl⟩

/-- Settles O57: the resets through what a reset function and its pavilions keep, the failed DMA through the operation that waited for it. -/
theorem hostInterfaceActs : Obligations.HostInterfaceActs := by
  unfold Obligations.HostInterfaceActs
  refine ⟨?noRings, ?rings, ?port, ?linkUp, ?timeout, ?firmware, ?shard, ?plan, ?krexel, ?request, ?completion, ?dump⟩
  case noRings =>
    intro s port n k hport hlo hhi hk hrings
    subst hk
    obtain ⟨d, hd⟩ := resetFn_noRings s (17 * port + n) hrings
    have hfn : ∀ m, (resetFn s (17 * port + n)).fn m = (s.modFn (17 * port + n) Fn.cleared).fn m := fun m => by rw [hd]; rfl
    have hown : (resetFn s (17 * port + n)).fn (17 * port + n) = (s.fn (17 * port + n)).cleared := by rw [hfn, State.fn_modFn_same]
    refine ⟨_, functionLevelReset_vf s hport hlo hhi, ?_⟩
    rw [hown]
    refine ⟨rfl, rfl, rfl, rfl, rfl, fun m hm => ?_, ?_⟩
    · rw [hfn, State.fn_modFn_ne s _ hm]
    · rw [hd]
      exact ⟨rfl, rfl, rfl, rfl, rfl⟩
  case rings =>
    intro s port n q hport hlo hhi hq hring
    obtain ⟨hrings, hstore, hst⟩ := resetFn_forgets s hq hring
    exact ⟨_, functionLevelReset_vf s hport hlo hhi, hrings, hstore, hst, by simp⟩
  case port =>
    intro s port c hport hc
    have hsilent : ∀ s k, k < 17 → ((flr s (.pf port)).fn (17 * port + k)).latched = none ∧ ((flr s (.pf port)).fn (17 * port + k)).async = []
        ∧ ∀ x ∈ ((flr s (.pf port)).fn (17 * port + k)).flights, x.discard = true := fun s k hk =>
      have h := flr_pf_silences s port hk
      ⟨h.latched, h.async, h.flights⟩
    by_cases hloss : c = .pcieLinkLoss port
    · subst hloss
      refine ⟨_, if_pos hport, hsilent _, fun _ => ?_, fun h => absurd rfl h, ?_⟩
      · simp [setLink, State.modMod]
      · simp [setLink, State.modMod]
    · have hreset : exec c s = .next (flr s (.pf port)) := portReset_next s hport (by simpa [hloss] using hc)
      exact ⟨_, hreset, hsilent s, fun h => absurd h hloss, fun _ => by simp, by simp⟩
  case linkUp =>
    intro s port hport
    have hnext : exec (.pcieLinkUp port) s = .next (if s.mod.power && !s.mod.inReset && (port == 0 || s.mod.split) then setLink s port 1 else s) :=
      if_pos hport
    refine ⟨fun hpower hreset hshown => ?_, fun hno => ?_⟩
    · rw [hnext, if_pos (by simpa [hpower, hreset] using hshown)]
      rfl
    · rw [hnext, if_neg]
      rcases hno with h | h | ⟨h, hs⟩
      · simp [h]
      · simp [h]
      · simp [h, hs]
  case timeout => exact fun s k hk => ⟨dmaLost s k, if_pos hk, if_pos hk⟩
  case firmware =>
    intro s n t len hjob
    refine ⟨s.modGate (fun g => { g with phase := phaseRomWait, fwJob := none, sram := [] }), ?_, rfl, rfl, rfl, rfl⟩
    rw [dmaFailure_next s rfl]
    simp only [dmaLost, firmwareLost, hjob, endFw]
  case shard =>
    intro s q i hq hi
    rw [dmaFailure_next s (by simp [dmaOk, hq, hi])]
    exact (if_pos ⟨hq, hi⟩).symm
  case plan =>
    intro s f cmd a hsub hargs haligned
    rw [dmaFailure_next (k := .plan f) s hsub.function]
    exact congrArg Host.Outcome.next (serveMod_ok hsub anyArgs rfl _ _ _ _ hargs (by simp [haligned]))
  case krexel =>
    intro s f cmd a q hsub hpv hargs hst hslice hfull hbusy
    rw [dmaFailure_next (k := .krexel f) s hsub.function]
    refine ⟨_, rfl, ?_⟩
    simp only [dmaLost, imageLost, loadWith_accepted hsub hpv hargs hst hslice hfull hbusy]
    have hpvs : (accept s (fnNum f) 0x24 (some q) 2000 []).pv q = s.pv q := pv_of (by simp) q
    refine ⟨?_, ?_, by simp, by simp, by simp, by simp⟩
    · rw [enterState_pv_same, endAsync_pv, enterState_pv_same, hpvs]
    · rw [enterState_rd_before _ _ _ _ (by decide), endAsync_rd_before _ _ _ _ _ _ _ (by decide), enterState_rd_before _ _ _ _ (by decide)]
      exact accept_status hsub.copied ..
  case request =>
    intro s q i r hq hread hrings
    have hring : ringFn (s.modFront q (fun f => { f with rings := some { r with stalled := true } })) q = some r.fn := by simp [ringFn]
    have hlost : requestLost s q = setEvent (s.modFront q (fun f => { f with rings := some { r with stalled := true } })) r.fn 4 := by
      simp only [requestLost, hread, hrings, ringEvent_some 4 hring]
    have hstalled : ((requestLost s q).pv q).front.rings = some { r with stalled := true } := by
      rw [hlost, setEvent_pv, State.pv_modFront_same]
    refine ⟨requestLost s q, dmaFailure_next s (decide_eq_true hq), hstalled, ?_, mayRead_stalled hstalled rfl, ?_, ?_⟩
    · rw [hlost, setEvent_rd]
    · simp [hlost]
    · simp [hlost]
  case completion =>
    intro s q n hq hring
    refine ⟨setEvent s n 4, ?_, setEvent_rd s n, by simp, by simp, by simp⟩
    rw [dmaFailure_next (k := .completion q) s (decide_eq_true hq), dmaLost, ringEvent_some 4 hring]
  case dump =>
    intro s f hf
    exact ⟨setEvent s (fnNum f) 4, dmaFailure_next s hf, setEvent_rd s (fnNum f), by simp, by simp, by simp⟩

end Sys2Proof.Machine
end

section
/-!
PROOF. Issue, slips and links (O11, O12, O13): the turn of a stream whose head may issue or slips, and what an issue makes of the tile.
-/

namespace Sys2Proof.Machine
open Sys2Proof

-- updates of one tile

/-- The sequencer state changed after the tile has been replaced: one replacement. -/
theorem modSeq_setTile (s : State) (p : Nat) (t : Tile) (f : Seq → Seq) : (s.setTile p t).modSeq p f = s.setTile p { t with seq := f t.seq } := by
  simp only [State.modSeq, State.modTile, State.tile_setTile_same, State.setTile_setTile]

theorem countIssue_eq (s : State) (p : Nat) (handler : Bool) : countIssue s p handler =
    s.setTile p { (s.tile p).inc (if handler then TL_ISSUE_CNT_HANDLER_ISSUED else TL_ISSUE_CNT_MAIN_ISSUED) 1 with
      seq := { (s.tile p).seq with issuedAt := some (s.now p) } } := rfl

theorem noteProgress_setTile (s : State) (p : Nat) (t : Tile) : noteProgress (s.setTile p t) = (noteProgress s).setTile p t := rfl

-- the test of the head (R51, R57)

/-- A met wait is not broken. -/
theorem waitBroken_of_met {t : Tile} {ctr value : Nat} (h : waitMet t ctr value = true) : waitBroken t ctr value = false := by
  simp only [waitMet, Bool.or_eq_true, decide_eq_true_eq] at h
  simp only [waitBroken, Bool.and_eq_false_iff, decide_eq_false_iff_not]
  omega

theorem Desc.not_broken_of_met {d : Desc} {t : Tile} (h : d.met t = true) : d.broken t = false := by
  obtain ⟨ha, hb⟩ := Bool.and_eq_true_iff.1 h
  simp only [Desc.broken, waitBroken_of_met ha, waitBroken_of_met hb, Bool.or_self]

theorem Desc.met_of_waits {d : Desc} {t : Tile}
    (h : ∀ w ∈ [(d.waitA, d.valueA), (d.waitB, d.valueB)], 64 ≤ w.1 ∨ w.2 ≤ t.tcSeen w.1) : d.met t = true := by
  have ha := h (d.waitA, d.valueA) (by simp)
  have hb := h (d.waitB, d.valueB) (by simp)
  simp [Desc.met, waitMet, ha, hb]

/-- The main head issues (R49 to R52, R54): its fetch was allowed, it is not held, and waits, window, link rule and issue cycle let it; nothing behind it
slips. -/
theorem mainTurn_issue {t : Tile} {frameLen now : Nat} {cur : FetchLine} {rest : List FetchLine} {d : Desc} (hd : d = cur.at t.seq.head)
    (hrun : t.seq.atEnd = false) (hheld : t.seq.holdSeq = none) (hin : cur.outside = false) (hok : fetchOk frameLen false t.seq.head d = true)
    (hmet : d.met t = true) (hroom : d.isLink = true ∨ t.seq.inFlight false < 32 - t.entries) (hlink : linkReady t.seq d = true)
    (hready : t.seq.ready ≤ now) (hcycle : d.issueCycle = 0 ∨ d.issueCycle = now)
    (hslip : firstSlip now true (buffered t.seq.head (cur :: rest)) = none) :
    mainTurn t frameLen now (cur :: rest) = .issue t.seq.head d := by
  have hpast : d.issueCycle ≤ now := by omega
  have hplace : (d.isLink || decide (t.seq.inFlight false < 32 - t.entries)) = true := by simpa using hroom
  have htime : (d.issueCycle == 0 || d.issueCycle == now) = true := by simpa using hcycle
  simp [mainTurn, ← hd, hrun, hheld, hin, hok, Desc.not_broken_of_met hmet, hmet, hplace, hlink, hready, htime, hpast, hslip]

/-- The buffered descriptors begin with the head. -/
theorem buffered_head {cur : FetchLine} {rest : List FetchLine} {head : Nat} {d : Desc} (hline : cur.line = head / 8) (hd : cur.descs[head % 8]? = some d) :
    ∃ l, buffered head (cur :: rest) = (head, d) :: l := by
  obtain ⟨hlt, hget⟩ := List.getElem?_eq_some_iff.1 hd
  have hrun : ∃ l, (lineRun cur.line (head % 8) (cur.descs.drop (head % 8))).1 = (head, d) :: l := by
    have hplace : 8 * cur.line + head % 8 = head := by omega
    rw [List.drop_eq_getElem_cons hlt, hget, lineRun, hplace]
    split <;> exact ⟨_, rfl⟩
  obtain ⟨l, hl⟩ := hrun
  cases rest with
  | nil => exact ⟨l, hl⟩
  | cons n rest =>
    simp only [buffered, hl]
    split
    · split <;> exact ⟨_, rfl⟩
    · split <;> exact ⟨_, rfl⟩

/-- A head whose issue cycle lies behind slips (R57). -/
theorem mainTurn_slip {t : Tile} {frameLen now : Nat} {cur : FetchLine} {rest : List FetchLine} {d : Desc} (hrun : t.seq.atEnd = false)
    (hheld : t.seq.holdSeq = none) (hrel : t.seq.holdReleased = false) (hline : cur.line = t.seq.head / 8) (hd : cur.descs[t.seq.head % 8]? = some d)
    (hin : cur.outside = false) (hok : fetchOk frameLen false t.seq.head d = true) (hwait : d.broken t = false) (hcycle : d.issueCycle ≠ 0)
    (hpast : d.issueCycle < now) : mainTurn t frameLen now (cur :: rest) = .slip t.seq.head := by
  have hat : cur.at t.seq.head = d := by simp [FetchLine.at, hd]
  have hzero : (d.issueCycle == 0) = false := beq_false_of_ne hcycle
  have hnow : (d.issueCycle == now) = false := beq_false_of_ne (Nat.ne_of_lt hpast)
  obtain ⟨l, hl⟩ := buffered_head (rest := rest) hline hd
  have hslip : firstSlip now false (buffered t.seq.head (cur :: rest)) = some t.seq.head := by
    have : d.issueCycle ≤ now := by omega
    simp [firstSlip, hl, hcycle, this]
  simp [mainTurn, hat, hrun, hheld, hrel, hin, hok, hwait, hzero, hnow, hslip]

-- the turn carried out

/-- DESCRIPTOR_ISSUE on a tile that tests its heads. -/
theorem descriptorIssue_active {s s1 : State} {tl p : Nat} {chk : Check} (ht : tl < 256) (hp : p = s.phys tl) (ha : seqActive s p = true)
    (hs1 : s1 = fillBoth s p chk) : exec (.descriptorIssue tl chk) s = .next (issueTurn s1 p tl (mainNow s1 p) (handlerNow s1 p)) := by
  subst hp hs1
  show execDescriptorIssue tl chk s = _
  simp [execDescriptorIssue, issueStep, ht, ha]

/-- The main stream issues unless the handler's head breaks a rule or a wait. -/
theorem issueTurn_issue (s : State) (p t a : Nat) (d : Desc) {h : MainTurn} (hr : ∀ b, h ≠ .range b) (hb : h ≠ .broken) :
    issueTurn s p t (.issue a d) h = issueHead s p t false a d := by
  cases h with
  | range b => exact absurd rfl (hr b)
  | broken => exact absurd rfl hb
  | _ => rfl

/-- The main stream's slip is raised unless the handler's head breaks a rule or a wait. -/
theorem issueTurn_slip (s : State) (p t a : Nat) {h : MainTurn} (hr : ∀ b, h ≠ .range b) (hb : h ≠ .broken) :
    issueTurn s p t (.slip a) h = raiseFault s p faultSlip 0xFF 0 a := by
  cases h with
  | range b => exact absurd rfl (hr b)
  | broken => exact absurd rfl hb
  | _ => rfl

/-- An issue of the main stream to a unit (R46, R50, R54). -/
theorem issueUnit_main (s : State) (p a : Nat) (d : Desc) : issueUnit s p false a d =
    s.setTile p { (s.tile p).inc TL_ISSUE_CNT_MAIN_ISSUED 1 with seq := { (s.tile p).seq with
      window := (s.tile p).seq.window ++ [WinEntry.new false a d (16777216 * s.frame + s.now p)],
      head := a + 1, issuedAt := some (s.now p), holdSeq := none, holdReleased := false } } := by
  simp only [issueUnit, countIssue_eq, modSeq_setTile]
  rfl

/-- A fault leaves the head of the main stream where it stands. -/
theorem Tile.fault_head (t : Tile) (k cy c st a : Nat) : (t.fault k cy c st a).seq.head = t.seq.head := by
  obtain ⟨r, j, h⟩ := t.fault_eq k cy c st a; rw [h]

/-- Settles O11: waits, window and issue cycle make the main stream's turn an issue, which is one change of the tile. -/
theorem descriptorsIssue : Obligations.DescriptorsIssue := by
  unfold Obligations.DescriptorsIssue
  intro s s1 tl p chk cur rest d ht hp ha hs1 hbuf hd hrun hheld hin hok hunit hwaits hroom hready hcycle hslip hhr hhb
  have hlink : linkReady (s1.tile p).seq d = true := by simp [linkReady, hunit]
  have hturn : mainNow s1 p = .issue (s1.tile p).seq.head d := by
    rw [mainNow, hbuf]
    exact mainTurn_issue hd hrun hheld hin hok (Desc.met_of_waits hwaits) (.inr hroom) hlink hready hcycle hslip
  refine ⟨_, ?_, rfl⟩
  rw [descriptorIssue_active ht hp ha hs1, hturn, issueTurn_issue _ _ _ _ _ hhr hhb, issueHead, if_neg (by simp [hunit]), issueUnit_main]
  rfl

/-- Settles O12: a slip is a fault of the tile at the descriptor's address, and a head whose issue cycle lies behind slips. -/
theorem slipsFreezeTheTile : Obligations.SlipsFreezeTheTile := by
  unfold Obligations.SlipsFreezeTheTile
  refine ⟨?fault, ?head⟩
  case fault =>
    intro s s1 tl p a chk ht hp ha hs1 hslip hhr hhb hen hfirst
    refine ⟨raiseFault s1 p faultSlip 0xFF 0 a, ?_, ?_⟩
    · rw [descriptorIssue_active ht hp ha hs1, hslip, issueTurn_slip _ _ _ _ hhr hhb]
    obtain ⟨hkind, haddr, hcycle, -, hstream⟩ := Tile.fault_info _ faultSlip (s1.now p) 0xFF 0 a hfirst
    rw [raiseFault_tile]
    exact ⟨Tile.fault_bit _ _ _ _ _ _ (by decide), by simp [hen], hkind, haddr, hstream, hcycle, by simp, Tile.fault_head .., by simp, by simp,
      fun x hx => raiseFault_tile_ne _ _ _ _ _ hx, rfl, rfl, rfl, rfl⟩
  case head =>
    intro t frameLen now cur rest d hrun hheld hrel hline hd hin hok hwait hcycle hpast
    exact mainTurn_slip hrun hheld hrel hline hd hin hok hwait hcycle hpast

-- links (R56, R152)

/-- A link of the main stream that may issue does, unless the handler's head breaks a rule or a wait. -/
theorem linkStep_main {s s1 : State} {tl p a v : Nat} {d : Desc} (hp : p = s.phys tl) (ha : seqActive s p = true) (hs1 : s1 = fillBoth s p .clean)
    (hturn : mainNow s1 p = .issue a d) (hl : d.isLink = true) (hv : d.variant = v)
    (hr : ∀ b, handlerNow s1 p ≠ .range b) (hb : handlerNow s1 p ≠ .broken) : linkStep s tl false v = issueLink s1 p tl false a d := by
  subst hp hs1 hv
  simp only [linkStep, ha, hturn, hl, if_true]
  cases hh : handlerNow (fillBoth s (s.phys tl) .clean) (s.phys tl) with
  | range b => exact absurd hh (hr b)
  | broken => exact absurd hh hb
  | _ => simp

/-- A link of the handler stream that may issue does, in a tc in which the main stream waits. -/
theorem linkStep_handler {s s1 : State} {tl p a v : Nat} {d : Desc} (hp : p = s.phys tl) (ha : seqActive s p = true) (hs1 : s1 = fillBoth s p .clean)
    (hwait : mainNow s1 p = .wait) (hturn : handlerNow s1 p = .issue a d) (hl : d.isLink = true) (hv : d.variant = v) :
    linkStep s tl true v = issueLink s1 p tl true a d := by
  subst hp hs1 hv
  simp [linkStep, ha, hwait, hturn, hl]

/-- The main stream's link: the head moves to its target, and its signal counts. -/
theorem issueLink_main (s : State) (p t a : Nat) (d : Desc) : issueLink s p t false a d =
    tcAddField ((noteProgress s).setTile p { (s.tile p).inc TL_ISSUE_CNT_MAIN_ISSUED 1 with seq := { (s.tile p).seq with
      head := d.target, mainBuf := (s.tile p).seq.mainBuf.drop 1, ready := s.now p + 2, atEnd := d.variant == 1, issuedAt := some (s.now p),
      holdSeq := none, holdReleased := false } }) p d.signal d.signalInc 0 a := by
  simp only [issueLink, countIssue_eq, noteProgress_setTile, modSeq_setTile]
  rfl

/-- The handler stream's ordinary link: its list goes on at the target, and its signal counts. -/
theorem issueLink_handler {s : State} {p : Nat} {h : HandlerRun} (t a : Nat) {d : Desc} (hh : (s.tile p).seq.handler = some h) (hv : d.variant ≠ 2) :
    issueLink s p t true a d =
    tcAddField ((noteProgress s).setTile p { (s.tile p).inc TL_ISSUE_CNT_HANDLER_ISSUED 1 with seq := { (s.tile p).seq with
      handler := some { h with head := d.target, ready := s.now p + 2 }, hBuf := (s.tile p).seq.hBuf.drop 1, issuedAt := some (s.now p) } })
      p d.signal d.signalInc 1 a := by
  simp only [issueLink, countIssue_eq, noteProgress_setTile, modSeq_setTile, hh, hv, if_true, if_false]
  rfl

/-- A handler list ends on a tile that has just been replaced. -/
theorem endHandler_setTile (s : State) (p t : Nat) (x : Tile) (h : HandlerRun) : endHandler (s.setTile p x) p t h =
    returnCredits (s.setTile p { x.wr (TW_RECV_STATE_RPTR h.entry.rchan) ((h.entry.pos + h.entry.n) % x.rd (TW_RECV_CFG_SLOTS h.entry.rchan)) with
      seq := { x.seq with handler := none, hBuf := [] } }) p t h.entry.rchan (h.entry.n + h.entry.pad) := by
  simp only [endHandler, State.tile_setTile_same, State.setTile_setTile, modSeq_setTile]
  rfl

/-- The handler stream's return: its list ends, and its signal counts. -/
theorem issueLink_return {s : State} {p : Nat} {h : HandlerRun} (t a : Nat) {d : Desc} (hh : (s.tile p).seq.handler = some h) (hv : d.variant = 2) :
    issueLink s p t true a d =
    tcAddField (returnCredits ((noteProgress s).setTile p
      { ((s.tile p).inc TL_ISSUE_CNT_HANDLER_ISSUED 1).wr (TW_RECV_STATE_RPTR h.entry.rchan)
          ((h.entry.pos + h.entry.n) % (s.tile p).rd (TW_RECV_CFG_SLOTS h.entry.rchan)) with
        seq := { (s.tile p).seq with handler := none, hBuf := [], issuedAt := some (s.now p) } }) p t h.entry.rchan (h.entry.n + h.entry.pad))
      p d.signal d.signalInc 1 a := by
  have hslots : ((s.tile p).inc TL_ISSUE_CNT_HANDLER_ISSUED 1).rd (TW_RECV_CFG_SLOTS h.entry.rchan) = (s.tile p).rd (TW_RECV_CFG_SLOTS h.entry.rchan) :=
    Tile.rd_wr_off _ _ (by simp only [TW_RECV_CFG_SLOTS, TW_RECV_CFG_OFF, TL_ISSUE_CNT_HANDLER_ISSUED, TL_ISSUE_CNT_OFF]; omega)
  simp only [issueLink, countIssue_eq, noteProgress_setTile, endHandler_setTile, hh, hv, if_true, Tile.rd_seq, hslots]
  rfl

/-- Settles O13: each link is its stream's turn, and its issue changes the tile once before credits and signal go out. -/
theorem linksMoveTheHead : Obligations.LinksMoveTheHead := by
  unfold Obligations.LinksMoveTheHead
  refine ⟨?main, ?handler, ?handlerReturn⟩
  case main =>
    intro s s1 tl p v cur rest d ht hp ha hs1 hbuf hd hrun hheld hin hok hl hv hv2 hmet hdrained hready hcycle hslip hhr hhb
    have hlink : linkReady (s1.tile p).seq d = true := by
      by_cases hone : v = 1
      · simp [linkReady, hl, hv, hone, hdrained hone]
      · simp [linkReady, hv, hone, show v ≠ 2 by omega]
    have hturn : mainNow s1 p = .issue (s1.tile p).seq.head d := by
      rw [mainNow, hbuf]
      exact mainTurn_issue hd hrun hheld hin hok hmet (.inl hl) hlink hready hcycle hslip
    have hexec : exec (if v = 0 then .linkOrdinary tl false else .linkFrameEnd tl) s = .next (linkStep s tl false v) := by
      split
      · next hz => subst hz; exact if_pos ht
      · rw [show v = 1 by omega]; exact if_pos ht
    refine ⟨_, ?_, rfl⟩
    rw [hexec, linkStep_main hp ha hs1 hturn hl hv hhr hhb, issueLink_main, hv]
    rfl
  case handler =>
    intro s s1 tl p a h d ht hp ha hs1 hh hwait hturn hl hv
    have hexec : exec (.linkOrdinary tl true) s = .next (linkStep s tl true 0) := if_pos ht
    refine ⟨_, ?_, rfl⟩
    rw [hexec, linkStep_handler hp ha hs1 hwait hturn hl hv, issueLink_handler tl a hh (by omega)]
    rfl
  case handlerReturn =>
    intro s s1 tl p a h d ht hp ha hs1 hh hwait hturn hl hv
    have hexec : exec (.linkHandlerReturn tl) s = .next (linkStep s tl true 2) := if_pos ht
    refine ⟨_, ?_, rfl⟩
    rw [hexec, linkStep_handler hp ha hs1 hwait hturn hl hv, issueLink_return tl a hh hv]
    rfl

end Sys2Proof.Machine
end

section
/-!
PROOF. Retirements, starts, stops and counter adds (O14, O15, O16): what a retirement keeps, the registers of a started tile, the hold that a stop gives up,
and the counter that an add leaves.
-/

namespace Sys2Proof.Machine
open Sys2Proof

-- retirements (R55, R62)

theorem Tile.settleIdle_eq (t : Tile) : t.settleIdle =
    { t with seq := { t.seq with run := if t.rd TL_SEQ_CONFIG_ENABLE = 0 ∧ t.seq.window = [] then .idle else t.seq.run } } := by
  unfold Tile.settleIdle
  simp only [List.isEmpty_iff]
  split <;> rfl

/-- A retirement that moves no Orangery data: the entry leaves the window, then its signal counts. -/
theorem retireEntry_eq {s : State} {p i : Nat} {e : WinEntry} (hw : (s.tile p).seq.window[i]? = some e) (hop : e.desc.opcode ≠ opOyTerrace) :
    retireEntry s p i = tcAddField (noteProgress (leaveWindow s p i)) p e.desc.signal e.desc.signalInc (ofBool e.handler) e.addr := by
  simp only [retireEntry, hw, if_neg hop]

theorem leaveWindow_tile (s : State) (p i : Nat) : (leaveWindow s p i).tile p =
    Tile.settleIdle { s.tile p with seq := { (s.tile p).seq with window := (s.tile p).seq.window.eraseIdx i } } := by
  rw [leaveWindow, State.tile_modTile_same]

/-- A retirement leaves the Terrace and the engines of its tile alone. -/
theorem retireEntry_engines {s : State} {p i : Nat} {e : WinEntry} (hw : (s.tile p).seq.window[i]? = some e) (hop : e.desc.opcode ≠ opOyTerrace) :
    ((retireEntry s p i).tile p).tr = (s.tile p).tr ∧ ((retireEntry s p i).tile p).mx = (s.tile p).mx
      ∧ ((retireEntry s p i).tile p).vx = (s.tile p).vx := by
  obtain ⟨-, htr, hmx, hvx, -⟩ :=
    tcAddField_same (noteProgress (leaveWindow s p i)) p e.desc.signal e.desc.signalInc (ofBool e.handler) e.addr
  have hleft : (noteProgress (leaveWindow s p i)).tile p = (leaveWindow s p i).tile p := rfl
  rw [retireEntry_eq hw hop, htr, hmx, hvx, hleft, leaveWindow_tile, Tile.settleIdle_eq]
  exact ⟨rfl, rfl, rfl⟩

/-- A retirement leaves the module's registers, pavilions, functions, Sundial and outbox alone. -/
theorem retireEntry_module {s : State} {p i : Nat} {e : WinEntry} (hw : (s.tile p).seq.window[i]? = some e) (hop : e.desc.opcode ≠ opOyTerrace) :
    (retireEntry s p i).reg = s.reg ∧ (retireEntry s p i).pvs = s.pvs ∧ (retireEntry s p i).fns = s.fns ∧ (retireEntry s p i).sun = s.sun
      ∧ (retireEntry s p i).out = s.out := by
  rw [retireEntry_eq hw hop]
  simp [noteProgress]

/-- Settles O14: the retirement through what it keeps, the start of a handler list as one change of the tile. -/
theorem retirementsAndHandlerStarts : Obligations.RetirementsAndHandlerStarts := by
  unfold Obligations.RetirementsAndHandlerStarts
  refine ⟨?retire, ?start⟩
  case retire =>
    intro s tl p i n e ht hp hw hphase hspan hstand hsignal hn hop
    subst hp hsignal
    have hdue : retireDue s (s.phys tl) e = true := by simp [retireDue, hphase, hspan, hstand]
    have hexec : exec (.descriptorRetire tl i) s = .next (retireEntry s (s.phys tl) i) := by
      show execDescriptorRetire tl i s = _
      simp [execDescriptorRetire, ht, hw, hdue]
    obtain ⟨hwindow, hsp, htc, hothers⟩ := retireEntry_same s (s.phys tl) i e hw hop
    obtain ⟨htr, hmx, hvx⟩ := retireEntry_engines hw hop
    refine ⟨_, hexec, hwindow, ?_, fun m hm => ?_, hothers, hsp, htr, hmx, hvx, retireEntry_module hw hop⟩
    · rw [htc, if_pos ⟨rfl, hn⟩]
    · rw [htc, if_neg (fun h => hm h.1)]
  case start =>
    intro s tl p chk e rest ht hp hq hidle hentries hrun hen
    subst hp
    refine ⟨_, (fillBuf s (s.phys tl) e.handler [] chk).2, ?_, rfl⟩
    show execHandlerListStart tl chk s = _
    simp [execHandlerListStart, ht, startHandler, hq, hidle, hentries, hrun, hen, State.modSeq, State.modTile]

-- the start of a tile (R66)

/-- A register set whole leaves the fields of the others as they were. -/
theorem Tile.rd_setReg_ne (t : Tile) {off : Nat} {f : Fld} (v : W64) (h : f.off ≠ off) : (t.setReg off v).rd f = t.rd f := by
  simp only [Tile.rd, Tile.regW_setReg_ne t v h]

/-- `u` is `t` but for its registers, and among those below the log of OY_TERRACE moves nothing differs. -/
def Tile.sameBelowLog (t u : Tile) : Prop := (∃ r, u = { t with reg := r }) ∧ ∀ f : Fld, f.off < 0x900 → u.rd f = t.rd f

theorem Tile.clearLog_sameBelowLog (t : Tile) : t.sameBelowLog t.clearLog := by
  refine List.foldlRecOn _ _ ⟨⟨t.reg, rfl⟩, fun _ _ => rfl⟩ ?_
  rintro u ⟨⟨r, rfl⟩, hrd⟩ n -
  split
  · refine ⟨⟨_, rfl⟩, fun f hf => ?_⟩
    rw [Tile.rd_wr_off _ _ (by simp only [TL_TR_LOG_A_VALID, TL_TR_LOG_A_OFF]; omega), hrd f hf]
  · exact ⟨⟨r, rfl⟩, hrd⟩

/-- A start clears the issue counts. -/
theorem Tile.startClear_issued (t : Tile) : t.startClear.rd TL_ISSUE_CNT_MAIN_ISSUED = 0 := by
  have hzero : (t.setReg TL_ISSUE_CNT_OFF 0).rd TL_ISSUE_CNT_MAIN_ISSUED = 0 := by
    simp only [Tile.rd, TL_ISSUE_CNT_MAIN_ISSUED, Tile.regW_setReg_same]; decide
  unfold Tile.startClear
  extract_lets t1
  have hlast : t1.rd TL_ISSUE_CNT_MAIN_ISSUED = 0 := by
    simp (disch := decide) only [t1, Tile.rd_wr_off, Tile.rd_setReg_ne, hzero]
  exact hlast

/-- The tile that a start leaves (R66). -/
def Tile.started (t : Tile) (start handlers : Nat) : Tile :=
  let t1 := ((t.startClear.clearLog.wr TL_SEQ_CONFIG_START start).wr TL_SEQ_CONFIG_HANDLER_ENTRIES handlers).wr TL_SEQ_CONFIG_ENABLE 1
  { t1 with seq := { t1.seq with run := .waitTick, head := start % 0x8000, ready := 0, atEnd := false, issuedAt := none } }

theorem startTile_idle {s : State} {p : Nat} (start handlers : Nat) (h : (s.tile p).rd TL_SEQ_CONFIG_ENABLE = 0) :
    startTile s p start handlers = s.setTile p ((s.tile p).started start handlers) := by
  simp [startTile, h, Tile.started]

/-- The registers of a started tile. -/
theorem Tile.started_regs (t : Tile) (start handlers : Nat) : (t.started start handlers).rd TL_SEQ_CONFIG_ENABLE = 1
    ∧ (t.started start handlers).rd TL_SEQ_CONFIG_START = start % 2 ^ 15
    ∧ (t.started start handlers).rd TL_SEQ_CONFIG_HANDLER_ENTRIES = handlers % 2 ^ 4
    ∧ (t.started start handlers).rd TL_ISSUE_CNT_MAIN_ISSUED = 0 := by
  simp only [Tile.started, Tile.rd_seq]
  refine ⟨?_, ?_, ?_, ?_⟩
  · exact Tile.rd_wr_same _ _ _ (by decide) (by decide)
  · simp (disch := decide) only [Tile.rd_wr_ne]
    exact Tile.rd_wr_same _ _ _ (by decide) (by decide)
  · simp (disch := decide) only [Tile.rd_wr_ne]
    exact Tile.rd_wr_same _ _ _ (by decide) (by decide)
  · simp (disch := decide) only [Tile.rd_wr_off]
    rw [(Tile.clearLog_sameBelowLog _).2 _ (by decide), Tile.startClear_issued]

/-- Everything but the registers of a started tile. -/
theorem Tile.started_eq (t : Tile) (start handlers : Nat) : ∃ r, t.started start handlers =
    { t with reg := r, tc := [], orphaned := 0, mx := Mx.reset, vx := Vx.reset,
             seq := { t.seq with mainBuf := [], hBuf := [], handler := none, hq := [], holdSeq := none, holdReleased := false, run := .waitTick,
                                 head := start % 0x8000, ready := 0, atEnd := false, issuedAt := none } } := by
  obtain ⟨r, h⟩ := (Tile.clearLog_sameBelowLog t.startClear).1
  unfold Tile.started
  rw [h]
  exact ⟨_, rfl⟩

-- the stop of a tile (R67)

theorem stopTile_tile {s : State} {p : Nat} (h : (s.tile p).seq.holdSeq = none) :
    stopTile s p = s.setTile p ((s.tile p).wr TL_SEQ_CONFIG_ENABLE 0).settleIdle := by
  simp [stopTile, withdrawHold, h, State.modTile]

/-- A tile whose ENABLE has been cleared: the register, and STATE idle with an empty window. -/
theorem Tile.stopped_facts (t : Tile) : (t.wr TL_SEQ_CONFIG_ENABLE 0).settleIdle.rd TL_SEQ_CONFIG_ENABLE = 0
    ∧ (t.wr TL_SEQ_CONFIG_ENABLE 0).settleIdle.rd TL_SEQ_CONFIG_START = t.rd TL_SEQ_CONFIG_START
    ∧ (t.wr TL_SEQ_CONFIG_ENABLE 0).settleIdle.seq = { t.seq with run := if t.seq.window = [] then .idle else t.seq.run }
    ∧ (t.wr TL_SEQ_CONFIG_ENABLE 0).settleIdle.sp = t.sp ∧ (t.wr TL_SEQ_CONFIG_ENABLE 0).settleIdle.tr = t.tr
    ∧ (t.wr TL_SEQ_CONFIG_ENABLE 0).settleIdle.tc = t.tc := by
  have hzero : (t.wr TL_SEQ_CONFIG_ENABLE 0).rd TL_SEQ_CONFIG_ENABLE = 0 := Tile.rd_wr_same _ _ _ (by decide) (by decide)
  simp only [Tile.settleIdle_eq, Tile.rd_seq, hzero, true_and]
  exact ⟨Tile.rd_wr_ne _ _ (by decide) (by decide) (by decide), rfl, rfl, rfl, rfl⟩

/-- A tile that gives up its hold (R390): the mark of its head is gone, the hold is released, and the release leaves on every port of the machine that
carries traffic. -/
theorem withdrawHold_facts {s : State} {p n : Nat} (h : (s.tile p).seq.holdSeq = some n) :
    (∀ x, (withdrawHold s p).tile x = (s.modSeq p clearMark).tile x)
      ∧ (∀ x ∈ (withdrawHold s p).sun.holds, x.origin = s.index → x.seq = n → x.relAt ≠ none)
      ∧ ∀ q ∈ s.machinePorts, portCarries s q = true → .release q s.index n s.sun.tick ∈ (withdrawHold s p).out := by
  obtain ⟨hheld, -⟩ := releaseHold_facts (s.modSeq p clearMark) s.index n (s.sun.tick + 2)
  simp only [withdrawHold, h]
  refine ⟨tile_of (by simp), fun x hx => hheld x (by simpa using hx), fun q hq hcarry => ?_⟩
  have hq' : q ∈ (releaseHold (s.modSeq p clearMark) s.index n (s.sun.tick + 2)).machinePorts := hq
  have hc' : portCarries (releaseHold (s.modSeq p clearMark) s.index n (s.sun.tick + 2)) q = true := hcarry
  rw [flood_out _ _ _ (fun _ _ _ => ⟨(_, _), rfl⟩)]
  exact List.mem_append_right _ (List.mem_map_of_mem (List.mem_filter.2 ⟨List.mem_filter.2 ⟨hq', by simp⟩, hc'⟩))

/-- Settles O15: the start through the tile that it leaves, the stop through the hold given up and the ENABLE bit cleared. -/
theorem tilesStartAndStop : Obligations.TilesStartAndStop := by
  unfold Obligations.TilesStartAndStop
  refine ⟨?start, ?again, ?stop, ?holding⟩
  case start =>
    intro s p start handlers hp hen
    have hexec : exec (.contextStart p start handlers) s = .next (startTile s p start handlers) := if_pos hp
    rw [hexec, startTile_idle start handlers hen]
    refine ⟨_, rfl, ?_⟩
    obtain ⟨henable, hstart, hentries, hissued⟩ := (s.tile p).started_regs start handlers
    obtain ⟨r, h⟩ := (s.tile p).started_eq start handlers
    rw [State.tile_setTile_same]
    refine ⟨rfl, henable, hstart, hentries, ?_⟩
    rw [h] at hissued ⊢
    exact ⟨rfl, rfl, fun _ => rfl, rfl, rfl, rfl, rfl, rfl, rfl, rfl, rfl, hissued⟩
  case again =>
    intro s p start handlers hp hen
    have hexec : exec (.contextStart p start handlers) s = .next (startTile s p start handlers) := if_pos hp
    rw [hexec, startTile, if_pos hen]
  case stop =>
    intro s p hp hheld
    have hexec : exec (.tileStop p) s = .next (stopTile s p) := if_pos hp
    rw [hexec, stopTile_tile hheld]
    obtain ⟨henable, hstart, hseq, hsp, htr, htc⟩ := (s.tile p).stopped_facts
    refine ⟨_, rfl, ?_⟩
    rw [State.tile_setTile_same, hseq]
    exact ⟨rfl, henable, rfl, fun hw => if_pos hw, fun hw => if_neg hw, hsp, htr, htc, hstart⟩
  case holding =>
    intro s p n hp hheld
    have hexec : exec (.tileStop p) s = .next (stopTile s p) := if_pos hp
    obtain ⟨htiles, hholds, hout⟩ := withdrawHold_facts hheld
    obtain ⟨henable, -, hseq, hsp, htr, htc⟩ := ((s.modSeq p clearMark).tile p).stopped_facts
    have htile : (stopTile s p).tile p = (((s.modSeq p clearMark).tile p).wr TL_SEQ_CONFIG_ENABLE 0).settleIdle := by
      rw [stopTile, State.tile_modTile_same, htiles]
    have hbefore : (s.modSeq p clearMark).tile p = { s.tile p with seq := clearMark (s.tile p).seq } := State.tile_modTile_same ..
    refine ⟨_, hexec, ?_, ?_, hholds, hout, ?_, ?_, ?_, fun x hx => ?_, by simp, by simp, by simp⟩
    · rw [htile, henable]
    · rw [htile, hseq, hbefore]; rfl
    · rw [htile, hsp, hbefore]
    · rw [htile, htr, hbefore]
    · rw [htile, htc, hbefore]
    · rw [stopTile, State.tile_modTile_ne _ _ hx, htiles]
      exact State.tile_modTile_ne s _ hx

-- counter adds (R52, R61, R62)

/-- An increment that stays below the limit counts, and does nothing else. -/
theorem tcAdd_below {s : State} {p n inc : Nat} (st a : Nat) (hinc : 0 < inc) (h : (s.tile p).tcVal n + inc ≤ 0xFFFFFF00) :
    tcAdd s p n inc st a = s.setTile p ((s.tile p).counted n inc) := by
  rw [tcAdd_eq s p n inc st a hinc]
  exact if_neg (by simp only [tcSum]; omega)

/-- An increment past the limit counts, and is a counter-limit fault. -/
theorem tcAdd_above {s : State} {p n inc : Nat} (st a : Nat) (hinc : 0 < inc) (h : 0xFFFFFF00 < (s.tile p).tcVal n + inc) :
    tcAdd s p n inc st a = raiseFault (s.setTile p ((s.tile p).counted n inc)) p faultTcLimit n st a := by
  rw [tcAdd_eq s p n inc st a hinc]
  exact if_pos (by simp only [tcSum]; omega)

/-- The comparators go on seeing the counters as they were. -/
theorem Tile.tcSeen_counted (t : Tile) (n inc m : Nat) : (t.counted n inc).tcSeen m = t.tcSeen m := by
  simp only [Tile.tcSeen, Tile.counted, SMap.look_put]
  by_cases h : m = n
  · simp [h]
  · simp [h]

theorem Tile.tcSeen_fault (t : Tile) (k cy c st a m : Nat) : (t.fault k cy c st a).tcSeen m = t.tcSeen m := by
  obtain ⟨r, j, h⟩ := t.fault_eq k cy c st a; rw [h]; rfl

/-- An increment does not reach the comparators in its tc (R52). -/
theorem tcAdd_tcSeen {s : State} {p n inc : Nat} (st a m : Nat) (hinc : 0 < inc) :
    ((tcAdd s p n inc st a).tile p).tcSeen m = (s.tile p).tcSeen m := by
  rcases Nat.lt_or_ge 0xFFFFFF00 ((s.tile p).tcVal n + inc) with h | h
  · rw [tcAdd_above st a hinc h, raiseFault_tile, Tile.tcSeen_fault, State.tile_setTile_same, Tile.tcSeen_counted]
  · rw [tcAdd_below st a hinc h, State.tile_setTile_same, Tile.tcSeen_counted]

/-- A write of TL_TC_ADD by an agent that exists. -/
theorem tcAdd_next {a : Agent} {p n inc : Nat} (s : State) (hp : p < 272) (hn : n < 64) (hinc : inc < 2 ^ 16) (ha : agentOk a = true) :
    exec (.tcAdd a p n inc) s = .next (writeTcAdd s a p n inc) := by
  show execTcAdd a p n inc s = _
  rw [execTcAdd, if_pos hp, if_pos ⟨hn, hinc, ha⟩]

/-- The store of the core of the tile's cluster goes to the core's buffer. -/
theorem writeTcAdd_lodge {s : State} {p tl k : Nat} (n inc : Nat) (hl : s.logical p = some tl) (hk : tl ∈ tilesOf k) :
    writeTcAdd s (.lodge k) p n inc = pushStore s k (.add tl n inc) := by
  simp [writeTcAdd, hl, hk]

/-- Settles O16: the Warden's add through the law of increments, the Lodge core's through its store buffer. -/
theorem counterAdds : Obligations.CounterAdds := by
  unfold Obligations.CounterAdds
  refine ⟨?warden, ?lodge, ?drain, ?host⟩
  case warden =>
    intro s p n inc hp hn hinc hpos
    refine ⟨tcAdd s p n inc 2 0, tcAdd_next s hp hn hinc rfl, ?_, fun m hm => ?_, fun m => tcAdd_tcSeen 2 0 m hpos,
      fun x hx => tcAdd_tile_ne s n inc 2 0 hx, by simp, by simp, by simp, fun hlow => ?_, fun hhigh => ?_⟩
    · rw [tcAdd_tcVal, if_pos rfl]
    · rw [tcAdd_tcVal, if_neg hm]
    · rw [tcAdd_below 2 0 hpos hlow, State.tile_setTile_same]
      exact ⟨rfl, rfl, rfl⟩
    · rw [tcAdd_above 2 0 hpos hhigh, raiseFault_tile]
      exact ⟨Tile.fault_bit _ _ _ _ _ _ (by decide), by simp⟩
  case lodge =>
    intro s k tl p n inc hk hp hn hinc hl hmem
    rw [tcAdd_next s hp hn hinc (by simpa [agentOk] using hk), writeTcAdd_lodge n inc hl hmem]
    exact ⟨fun hroom => by rw [pushStore, if_pos hroom], fun hfull => by rw [pushStore, if_neg (Nat.not_lt.2 hfull)]⟩
  case drain =>
    intro s k tl n inc rest hst
    refine ⟨fun hstand => ?_, fun hrun => ?_⟩
    · simp [drainStore, hst, hstand]
    · simp [drainStore, storeGone, hst, hrun]
  case host =>
    intro s f p n inc hf hp hn hinc
    exact tcAdd_next s hp hn hinc hf

end Sys2Proof.Machine
end

section
/-!
PROOF. Matrix passes (O18): their start, the activation row that a pass reads, and the accumulator row that it writes.
-/

namespace Sys2Proof.Machine
open Sys2Proof

-- window entries

theorem modAt_getElem?_same {α : Type} (f : α → α) (l : List α) (n : Nat) : (modAt f l n)[n]? = l[n]?.map f := by
  induction l generalizing n with
  | nil => rfl
  | cons x l ih =>
    cases n with
    | zero => rfl
    | succ n => simpa only [modAt, List.getElem?_cons_succ] using ih n

theorem setEntry_tile_same (s : State) (p i : Nat) (f : WinEntry → WinEntry) : (setEntry s p i f).tile p =
    { s.tile p with seq := { (s.tile p).seq with window := modAt f (s.tile p).seq.window i } } :=
  State.tile_modTile_same ..

theorem setEntry_tile_ne (s : State) {p x : Nat} (i : Nat) (f : WinEntry → WinEntry) (h : x ≠ p) : (setEntry s p i f).tile x = s.tile x :=
  State.tile_modTile_ne s _ h

/-- The entry that a unit starts next has one of the opcodes asked for. -/
theorem nextOf_opcode {s : State} {t unit i : Nat} {ops : List Nat} {e : WinEntry} (h : nextOf s t unit ops = some (i, e)) : e.desc.opcode ∈ ops := by
  unfold nextOf at h
  split at h
  · cases h
  · split at h
    · next hop => cases h; exact hop
    · cases h

/-- What holds of every earlier matrix descriptor in the window. -/
theorem earlier_iff {s : State} {p i : Nat} {ok : WinEntry → Bool} :
    earlier s p i ok = true ↔ ∀ x ∈ (s.tile p).seq.window.take i, x.unit = unitMatrix → ok x = true := by
  simp [earlier, Decidable.imp_iff_not_or]

-- the start of a pass (R122 to R124)

/-- Passes and moves have streamed and loads into the stage have completed, each earlier descriptor by its own rule. -/
theorem streamed_and_loaded {s : State} {p i stage : Nat} (h : ∀ x ∈ (s.tile p).seq.window.take i, x.unit = unitMatrix →
      if x.desc.opcode = opMxLoad then x.desc.stage = stage → x.span ≤ x.pos else x.held ≤ x.pos) :
    streamed s p i = true ∧ stageLoaded s p i stage = true := by
  refine ⟨earlier_iff.2 fun x hx hu => ?_, earlier_iff.2 fun x hx hu => ?_⟩ <;> have hrule := h x hx hu <;> split at hrule
  · next hload => simp [hload]
  · simp [hrule]
  · next hload => simpa [hload, Decidable.imp_iff_not_or] using hrule
  · next hload => simp [hload]

theorem passOk_iff {d : Desc} {fmt : Nat} :
    passOk d fmt = true ↔ (fmt = 6 → d.accRow + d.rows ≤ 128) ∧ (fmt = 3 → d.mxSpBase % 128 = 0 ∧ passStride d fmt % 128 = 0) := by
  simp [passOk, Decidable.imp_iff_not_or]

/-- A pass whose turn it is and whose checks hold starts, and TL_MX_STATUS names its layout (R92). -/
theorem mxPass_starts {s : State} {tl i : Nat} {e : WinEntry} {g : Stage} {chk : Check} (ht : tl < 256)
    (hnext : nextOf s tl unitMatrix [opMxPass] = some (i, e)) (hg : g = (s.tile (s.phys tl)).mx.stage e.desc.stage)
    (hstand : s.tileStands (s.phys tl) = false) (hstream : streamed s (s.phys tl) i = true) (hload : stageLoaded s (s.phys tl) i e.desc.stage = true)
    (hok : passOk e.desc g.fmt = true) (hfault : spFault (s.tile (s.phys tl)) s.frame e.desc.frameCarried false [passReads e.desc g.fmt] [] = none) :
    exec (.mxPass tl chk ()) s = .next ((begun s (s.phys tl) i .running chk g 0).modTile (s.phys tl)
      (fun t => t.wr TL_MX_STATUS_ACC_MXFP4 (ofBool (g.fmt == 6)))) := by
  subst hg
  show execMxPass tl chk () s = _
  simp only [execMxPass, if_pos ht, mxPassStart, hnext, hstand, hstream, hload, hok, hfault]
  rfl

/-- How long a pass streams and when it retires (R87, R124). -/
theorem pass_times {e : WinEntry} (h : e.desc.opcode = opMxPass) :
    e.held = e.desc.rows * fmtRow e.stage.fmt ∧ e.span = (e.desc.rows - 1) * fmtRow e.stage.fmt + fmtLat e.stage.fmt + 1 := by
  have hunit : e.desc.unit = unitMatrix := by simp [Desc.unit, h, opMxPass]
  have hop : opMxPass ≠ opMxLoad := by decide
  simp [WinEntry.held, WinEntry.span, hunit, h, hop]

-- the row that a pass reads (R87, R92)

/-- A read without findings: the bytes as this tc finds them, and no tile changed. -/
theorem readRow_clean (s : State) (p port a n : Nat) :
    (readRow s p port .clean a n).2 = Mem.rdN (s.tile p).spSeen a n ∧ ∀ x, (readRow s p port .clean a n).1.tile x = s.tile x :=
  ⟨rfl, fun x => siteClean_tile s siteSp p _ _ x⟩

/-- A pass that reads a row: the row enters its pipeline and is counted. -/
theorem passRead_tile (s : State) (p i : Nat) {e : WinEntry} {row : List Byte} (h : e.chk = .clean) (hrow : row =
      Mem.rdN (s.tile p).spSeen (e.desc.mxSpBase + e.pos / fmtRow e.stage.fmt * passStride e.desc e.stage.fmt) (fmtRowBytes e.stage.fmt)) :
    (passRead s p i e).tile p = Tile.inc { s.tile p with seq := { (s.tile p).seq with
      window := modAt (fun w => { w with rows := w.rows ++ [row] }) (s.tile p).seq.window i } } TL_MX_STATS_ROWS 1 := by
  obtain ⟨hbytes, htiles⟩ := readRow_clean s p 0 (e.desc.mxSpBase + e.pos / fmtRow e.stage.fmt * passStride e.desc e.stage.fmt) (fmtRowBytes e.stage.fmt)
  unfold passRead
  dsimp only
  rw [State.tile_modTile_same, h, pushRow, setEntry_tile_same, htiles, hbytes, hrow]

-- the row that a pass writes (R83, R85, R123)

/-- The entries of one accumulator row lie apart (R71). -/
theorem accIndex_inj {fmt r n m : Nat} (h : accIndex fmt r n = accIndex fmt r m) : n = m := by
  unfold accIndex at h
  split at h <;> omega

/-- What entry (r, n) takes over an accumulator `acc` (R83, R123). -/
def passEntry (g : Stage) (accumulate : Bool) (a : List Fp) (r : Nat) (acc : SMap W32) (n : Nat) : W32 :=
  w32 (mxEntry a (weights g n) (if accumulate then some (dec32 (SMap.look acc (accIndex g.fmt r n) 0).toNat) else none)).1

/-- One entry of a pass, with the flags. -/
def passStep (g : Stage) (accumulate : Bool) (a : List Fp) (r : Nat) (x : PassRun) (n : Nat) : PassRun :=
  let e := mxEntry a (weights g n) (if accumulate then some (dec32 (SMap.look x.acc (accIndex g.fmt r n) 0).toNat) else none)
  { acc := SMap.put x.acc (accIndex g.fmt r n) (w32 e.1), nan := x.nan || e.1 == nan32, sat := x.sat || e.2 }

/-- The first `N` entries of a row. -/
def passFirst (g : Stage) (accumulate : Bool) (a : List Fp) (r N : Nat) (x : PassRun) : PassRun :=
  (List.range N).foldl (passStep g accumulate a r) x

theorem passRow_eq (g : Stage) (accumulate : Bool) (a : List Fp) (r : Nat) (x : PassRun) :
    passRow g accumulate a r x = passFirst g accumulate a r (fmtN g.fmt) x := rfl

section
variable (g : Stage) (accumulate : Bool) (a : List Fp) (r : Nat) (x : PassRun)

theorem passFirst_succ (N : Nat) : (passFirst g accumulate a r (N + 1) x).acc =
    SMap.put (passFirst g accumulate a r N x).acc (accIndex g.fmt r N) (passEntry g accumulate a r (passFirst g accumulate a r N x).acc N) := by
  simp only [passFirst, List.range_succ, List.foldl_append, List.foldl_cons, List.foldl_nil]
  rfl

/-- What is none of the entries keeps its value. -/
theorem passFirst_look_ne {N k : Nat} (h : ∀ n, n < N → k ≠ accIndex g.fmt r n) :
    SMap.look (passFirst g accumulate a r N x).acc k 0 = SMap.look x.acc k 0 := by
  induction N with
  | zero => rfl
  | succ N ih =>
    rw [passFirst_succ, SMap.look_put_ne _ _ _ (h N (Nat.lt_succ_self N)), ih (fun n hn => h n (Nat.lt_succ_of_lt hn))]

/-- Each entry takes its sum, over the value that it had before the row. -/
theorem passFirst_look_same {N n : Nat} (hn : n < N) :
    SMap.look (passFirst g accumulate a r N x).acc (accIndex g.fmt r n) 0 = passEntry g accumulate a r x.acc n := by
  induction N with
  | zero => exact absurd hn (Nat.not_lt_zero n)
  | succ N ih =>
    have hapart : ∀ m, m < N → accIndex g.fmt r N ≠ accIndex g.fmt r m :=
      fun m hm h => absurd (accIndex_inj h) (Nat.ne_of_gt hm)
    rw [passFirst_succ]
    rcases Nat.lt_succ_iff_lt_or_eq.1 hn with hlt | rfl
    · rw [SMap.look_put_ne _ _ _ (hapart n hlt).symm, ih hlt]
    · rw [SMap.look_put_same, passEntry, passEntry, passFirst_look_ne g accumulate a r x hapart]

end

theorem headRow_cons {s : State} {p i : Nat} {x : WinEntry} {row : List Byte} {rest : List (List Byte)} (hw : (s.tile p).seq.window[i]? = some x)
    (hr : x.rows = row :: rest) : headRow s p i = row := by
  simp [headRow, hw, hr]

/-- A pass that writes a row: the row leaves its pipeline, the accumulator takes it, and flags of TL_MX_STATUS may rise. -/
theorem passWrite_tile (s : State) (p i : Nat) (e : WinEntry) : ∃ w r j, (passWrite s p i e).tile p =
    { s.tile p with reg := r, just := j, seq := { (s.tile p).seq with window := w }, mx := { (s.tile p).mx with
      acc := (passRow e.stage e.desc.accumulate (activations e.stage.fmt e.desc.actE5m2 (headRow s p i))
        (e.desc.accRow + (e.pos - fmtLat e.stage.fmt) / fmtRow e.stage.fmt) ⟨(s.tile p).mx.acc, false, false⟩).acc } } := by
  unfold passWrite
  dsimp only
  rw [State.tile_modTile_same, popRow, setEntry_tile_same]
  split <;> split <;> exact ⟨_, _, _, rfl⟩

theorem passWrite_tile_ne (s : State) {p x : Nat} (i : Nat) (e : WinEntry) (h : x ≠ p) : (passWrite s p i e).tile x = s.tile x :=
  (State.tile_modTile_ne _ _ h).trans (setEntry_tile_ne s i _ h)

/-- Settles O18: the start through its checks, the read as one change of the tile, and the written row entry by entry. -/
theorem matrixPasses : Obligations.MatrixPasses := by
  unfold Obligations.MatrixPasses
  refine ⟨?start, ?read, ?write⟩
  case start =>
    intro s tl p i e d g chk ht hp hnext hd hg hstand hearlier hacc halign hfault
    subst hp hd
    obtain ⟨hstream, hload⟩ := streamed_and_loaded hearlier
    have hop : e.desc.opcode = opMxPass := List.mem_singleton.1 (nextOf_opcode hnext)
    refine ⟨?_, pass_times (e := { e with stage := g }) hop⟩
    rw [mxPass_starts ht hnext hg hstand hstream hload (passOk_iff.2 ⟨hacc, halign⟩) hfault]
    simp [State.modTile, ofBool]
  case read =>
    intro s p i a k e x t hw hchk ht ha hk
    have htile := passRead_tile s p i hchk rfl
    rw [← ht, ← ha] at htile
    refine ⟨_, by rw [htile, Tile.inc_seq, modAt_getElem?_same, hw, Option.map_some], by simp, ?_, ?_, by rw [htile, Tile.inc_sp], ?_⟩
    · dsimp only
      rw [List.getLastD_concat, rdN_getD _ _ _ _ hk]
    · rw [htile, Tile.inc, Tile.rd_wr_same _ _ _ (by decide) (by decide), Tile.rd_seq]
      rfl
    · rw [htile]
      exact ⟨rfl, rfl, rfl, rfl, rfl⟩
  case write =>
    intro s p i r e x d g row rest t hw hrows hd hg hr ht
    subst hd hg ht
    obtain ⟨w, regs, j, htile⟩ := passWrite_tile s p i e
    rw [headRow_cons hw hrows, ← hr, passRow_eq] at htile
    have hkeeps := passWrite_keeps s p i e
    rw [htile]
    refine ⟨fun n hn => passFirst_look_same _ _ _ _ _ hn, fun k hk => passFirst_look_ne _ _ _ _ _ hk, rfl, rfl, rfl, rfl, rfl, rfl,
      fun y hy => passWrite_tile_ne s i e hy, by simp, ⟨by simp, by simp, by simp, by simp, by simp⟩⟩

end Sys2Proof.Machine
end

section
/-!
PROOF. round_fp32_sat (O19): the codes of FP32 magnitudes in order, the rounding of an exact value between two neighbours, and the saturation of R84.
-/

namespace Sys2Proof.Machine
open Sys2Proof

-- magnitudes of FP32 codes

/-- The magnitude of a code below 0x7F80_0000 in units of 2^−149 (R84), as obligation O19 writes it; codes from 0x7F80_0000 on go on as if the exponent
had no end. -/
def codeMag (c : Nat) : Nat := if c < 2 ^ 23 then c else (2 ^ 23 + c % 2 ^ 23) * 2 ^ (c / 2 ^ 23 - 1)

/-- The code of a significand `n` at exponent field `Q`, as `roundCode` builds it: the field counts on where `n` has carried over. -/
theorem codeMag_at {Q n : Nat} (hn : n ≤ 2 ^ 24) (hid : Q = 0 ∨ 2 ^ 23 ≤ n) : codeMag (Q * 2 ^ 23 + n) = n * 2 ^ Q := by
  unfold codeMag
  split
  · have hQ : Q = 0 := by omega
    simp [hQ]
  · rcases Nat.lt_or_ge n (2 ^ 24) with h | h
    · have hfield : (Q * 2 ^ 23 + n) / 2 ^ 23 = Q + 1 := by omega
      have hfrac : 2 ^ 23 + (Q * 2 ^ 23 + n) % 2 ^ 23 = n := by omega
      rw [hfield, hfrac, Nat.add_sub_cancel]
    · have hfield : (Q * 2 ^ 23 + n) / 2 ^ 23 = Q + 2 := by omega
      have hfrac : 2 ^ 23 + (Q * 2 ^ 23 + n) % 2 ^ 23 = 2 ^ 23 := by omega
      have hcarry : n = 2 ^ 23 * 2 := by omega
      rw [hfield, hfrac, hcarry, Nat.mul_assoc, ← Nat.pow_succ']
      rfl

/-- Every code is a significand of at most 24 bits at an exponent field. -/
theorem code_split (c : Nat) : ∃ Q n, c = Q * 2 ^ 23 + n ∧ n < 2 ^ 24 ∧ (Q = 0 ∨ 2 ^ 23 ≤ n) :=
  ⟨c / 2 ^ 23 - 1, c - (c / 2 ^ 23 - 1) * 2 ^ 23, by omega, by omega, by omega⟩

/-- Greater codes are greater magnitudes. -/
theorem codeMag_lt_succ (c : Nat) : codeMag c < codeMag (c + 1) := by
  obtain ⟨Q, n, rfl, hn, hid⟩ := code_split c
  rw [Nat.add_assoc, codeMag_at (Nat.le_of_lt hn) hid, codeMag_at hn (hid.imp_right Nat.le_succ_of_le)]
  exact Nat.mul_lt_mul_of_pos_right (Nat.lt_succ_self n) (Nat.two_pow_pos Q)

/-- The largest finite code, and the first one past it. -/
theorem codeMag_max : codeMag 0x7F7FFFFF = (2 ^ 24 - 1) * 2 ^ 253 ∧ codeMag 0x7F800000 = 2 ^ 24 * 2 ^ 253 :=
  ⟨codeMag_at (Q := 253) (n := 2 ^ 24 - 1) (by decide) (.inr (by decide)), codeMag_at (Q := 253) (n := 2 ^ 24) (by decide) (.inr (by decide))⟩

-- rounding between two neighbours

/-- Greater codes have greater values. -/
def Rising (v : Nat → Int) : Prop := ∀ c, v c < v (c + 1)

theorem Rising.le {v : Nat → Int} (hv : Rising v) {a b : Nat} (h : a ≤ b) : v a ≤ v b := by
  induction h with
  | refl => exact Int.le_refl _
  | step _ ih => exact Int.le_trans ih (Int.le_of_lt (hv _))

theorem Rising.lt {v : Nat → Int} (hv : Rising v) {a b : Nat} (h : a < b) : v a < v b := Int.lt_of_lt_of_le (hv a) (hv.le h)

/-- Code `c` is `x` rounded to nearest, ties to even, among the codes of rising values `v`: it is the neighbour `l` below `x` or the one above. -/
structure RoundsTo (v : Nat → Int) (x : Int) (l c : Nat) : Prop where
  below : v l ≤ x
  above : x < v (l + 1)
  choice : (c = l ∧ (2 * x < v l + v (l + 1) ∨ 2 * x = v l + v (l + 1) ∧ l % 2 = 0))
    ∨ (c = l + 1 ∧ (v l + v (l + 1) < 2 * x ∨ 2 * x = v l + v (l + 1) ∧ l % 2 = 1))

section
variable {v : Nat → Int} {x : Int} {l c : Nat} (hv : Rising v) (h : RoundsTo v x l c)
include hv h

/-- No code is nearer than the rounded one, and of two that are equally near it is the even one. -/
theorem RoundsTo.nearest (y : Nat) :
    (x - v c).natAbs ≤ (x - v y).natAbs ∧ (y ≠ c → (x - v c).natAbs = (x - v y).natAbs → c % 2 = 0) := by
  obtain ⟨hlo, hhi, hc⟩ := h
  have hlow : y < l → v y < v l := fun e => hv.lt e
  have hhigh : l + 1 < y → v (l + 1) < v y := fun e => hv.lt e
  rcases Nat.lt_trichotomy y l with hy | rfl | hy
  · have := hlow hy
    rcases hc with ⟨rfl, hc⟩ | ⟨rfl, hc⟩ <;> omega
  · rcases hc with ⟨rfl, hc⟩ | ⟨rfl, hc⟩ <;> omega
  · rcases Nat.lt_or_eq_of_le (show l + 1 ≤ y from hy) with hy | rfl
    · have := hhigh hy
      rcases hc with ⟨rfl, hc⟩ | ⟨rfl, hc⟩ <;> omega
    · rcases hc with ⟨rfl, hc⟩ | ⟨rfl, hc⟩ <;> omega

/-- The rounded code passes `b` exactly where `x` has reached the middle between `b` and the next one, `b` being odd. -/
theorem RoundsTo.passes_iff {b : Nat} (hb : b % 2 = 1) : b < c ↔ v b + v (b + 1) ≤ 2 * x := by
  obtain ⟨hlo, hhi, hc⟩ := h
  have hstep : v b < v (b + 1) := hv b
  rcases Nat.lt_trichotomy b l with hbl | rfl | hbl
  · have : v (b + 1) ≤ v l := hv.le hbl
    omega
  · omega
  · have : v (l + 1) ≤ v b := hv.le hbl
    omega

/-- Where the rounded code passes the odd code `b`, `b` is the nearest of those up to `b`, and no other is equally near. -/
theorem RoundsTo.nearest_of_passes {b : Nat} (hb : b % 2 = 1) (hc : b < c) {y : Nat} (hy : y ≤ b) :
    (x - v b).natAbs ≤ (x - v y).natAbs ∧ (y ≠ b → (x - v b).natAbs ≠ (x - v y).natAbs) := by
  have hmid := (h.passes_iff hv hb).1 hc
  have hstep : v b < v (b + 1) := hv b
  rcases Nat.lt_or_eq_of_le hy with hlt | rfl
  · have : v y < v b := hv.lt hlt
    omega
  · exact ⟨Nat.le_refl _, fun e => absurd rfl e⟩

end

/-- Between neighbours `u × w` apart, a value `r × w` above the lower one rounds as `r` does between 0 and `u`. -/
theorem RoundsTo.of_remainder {v : Nat → Int} {x : Int} {l c u r w : Nat} (hstep : v (l + 1) = v l + (u * w : Nat)) (hx : x = v l + (r * w : Nat))
    (hw : 0 < w) (hr : r < u)
    (hc : (c = l ∧ (2 * r < u ∨ 2 * r = u ∧ l % 2 = 0)) ∨ (c = l + 1 ∧ (u < 2 * r ∨ 2 * r = u ∧ l % 2 = 1))) : RoundsTo v x l c := by
  have hlt : r * w < u * w := Nat.mul_lt_mul_of_pos_right hr hw
  refine ⟨by omega, by omega, ?_⟩
  rcases hc with ⟨rfl, h | ⟨h, hpar⟩⟩ | ⟨rfl, h | ⟨h, hpar⟩⟩
  · have : 2 * r * w < u * w := Nat.mul_lt_mul_of_pos_right h hw
    exact .inl ⟨rfl, .inl (by rw [Nat.mul_assoc] at this; omega)⟩
  · have : 2 * r * w = u * w := by rw [h]
    exact .inl ⟨rfl, .inr ⟨by rw [Nat.mul_assoc] at this; omega, hpar⟩⟩
  · have : u * w < 2 * r * w := Nat.mul_lt_mul_of_pos_right h hw
    exact .inr ⟨rfl, .inl (by rw [Nat.mul_assoc] at this; omega)⟩
  · have : 2 * r * w = u * w := by rw [h]
    exact .inr ⟨rfl, .inr ⟨by rw [Nat.mul_assoc] at this; omega, hpar⟩⟩

-- the code that `roundCode` gives

/-- The power of two of the last place of m × 2^e rounded to FP32: that of its leading bit less 23, and not below the subnormals' −149. -/
def lastPlace (m : Nat) (e : Int) : Int := max ((Nat.log2 m : Int) + e - 23) (-149)

/-- The exponent field that `roundCode` counts up from the subnormals' 0. -/
def placeField (m : Nat) (e : Int) : Nat := (lastPlace m e + 149).toNat

/-- A magnitude that reaches down to its last place has its own code. -/
theorem roundCode_exact {m : Nat} {e : Int} (neg : Bool) (hm : 0 < m) (h : lastPlace m e ≤ e) :
    (roundCode 23 (-126) .rne neg m e false).1 = placeField m e * 2 ^ 23 + m * 2 ^ (e - lastPlace m e).toNat := by
  have hq : max ((Nat.log2 m : Int) + e - (23 : Nat)) (-126 - (23 : Nat)) = lastPlace m e := rfl
  unfold roundCode
  simp only [hq, if_neg (Nat.ne_of_gt hm), if_pos h, ofBool, Nat.shiftLeft_eq]
  simp [placeField]

/-- A magnitude with bits below its last place is cut there and rounded by what is cut off. -/
theorem roundCode_cut {m : Nat} {e : Int} (neg : Bool) (hm : 0 < m) (h : ¬ lastPlace m e ≤ e) :
    let sh := (lastPlace m e - e).toNat
    (roundCode 23 (-126) .rne neg m e false).1 = placeField m e * 2 ^ 23 + m / 2 ^ sh
      + if 2 ^ (sh - 1) < m % 2 ^ sh ∨ m % 2 ^ sh = 2 ^ (sh - 1) ∧ m / 2 ^ sh % 2 = 1 then 1 else 0 := by
  have hq : max ((Nat.log2 m : Int) + e - (23 : Nat)) (-126 - (23 : Nat)) = lastPlace m e := rfl
  unfold roundCode
  simp only [hq, if_neg (Nat.ne_of_gt hm), if_neg h, ofBool, Nat.shiftRight_eq_div_pow]
  simp [placeField]

/-- The leading bit stands at most 23 above the last place: exactly so unless the last place is that of the subnormals. -/
theorem lastPlace_cases (m : Nat) (e : Int) :
    (lastPlace m e = Nat.log2 m + e - 23 ∧ -149 ≤ lastPlace m e) ∨ (lastPlace m e = -149 ∧ Nat.log2 m + e - 23 < -149) := by
  unfold lastPlace
  omega

/-- The significand of a magnitude that reaches down to its last place: at most 24 bits, and exactly 24 above the subnormals. -/
theorem exact_significand {m : Nat} {e : Int} (hm : 0 < m) (h : lastPlace m e ≤ e) :
    m * 2 ^ (e - lastPlace m e).toNat < 2 ^ 24 ∧ (placeField m e = 0 ∨ 2 ^ 23 ≤ m * 2 ^ (e - lastPlace m e).toNat) := by
  have hplace := lastPlace_cases m e
  have hlo : 2 ^ Nat.log2 m ≤ m := Nat.log2_self_le (Nat.ne_of_gt hm)
  have hhi : m < 2 ^ (Nat.log2 m + 1) := Nat.lt_log2_self
  generalize ht : (e - lastPlace m e).toNat = t
  constructor
  · calc m * 2 ^ t < 2 ^ (Nat.log2 m + 1) * 2 ^ t := Nat.mul_lt_mul_of_pos_right hhi (Nat.two_pow_pos t)
      _ = 2 ^ (Nat.log2 m + 1 + t) := (Nat.pow_add ..).symm
      _ ≤ 2 ^ 24 := Nat.pow_le_pow_right (by decide) (by omega)
  · refine hplace.symm.imp (by unfold placeField; omega) (fun hq => ?_)
    calc 2 ^ 23 = 2 ^ (Nat.log2 m + t) := by rw [show Nat.log2 m + t = 23 by omega]
      _ = 2 ^ Nat.log2 m * 2 ^ t := Nat.pow_add ..
      _ ≤ m * 2 ^ t := Nat.mul_le_mul_right _ hlo

/-- The significand of a magnitude cut at its last place, likewise. -/
theorem cut_significand {m : Nat} {e : Int} (hm : 0 < m) (h : ¬ lastPlace m e ≤ e) :
    m / 2 ^ (lastPlace m e - e).toNat < 2 ^ 24 ∧ (placeField m e = 0 ∨ 2 ^ 23 ≤ m / 2 ^ (lastPlace m e - e).toNat) := by
  have hplace := lastPlace_cases m e
  have hlo : 2 ^ Nat.log2 m ≤ m := Nat.log2_self_le (Nat.ne_of_gt hm)
  have hhi : m < 2 ^ (Nat.log2 m + 1) := Nat.lt_log2_self
  generalize ht : (lastPlace m e - e).toNat = t
  constructor
  · refine Nat.div_lt_of_lt_mul ?_
    calc m < 2 ^ (Nat.log2 m + 1) := hhi
      _ ≤ 2 ^ (t + 24) := Nat.pow_le_pow_right (by decide) (by omega)
      _ = 2 ^ t * 2 ^ 24 := Nat.pow_add ..
  · refine hplace.symm.imp (by unfold placeField; omega) (fun hq => (Nat.le_div_iff_mul_le (Nat.two_pow_pos t)).2 ?_)
    calc 2 ^ 23 * 2 ^ t = 2 ^ (23 + t) := (Nat.pow_add ..).symm
      _ = 2 ^ Nat.log2 m := by rw [show Nat.log2 m = 23 + t by omega]
      _ ≤ m := hlo

/-- The value of code `c` in the units of obligation O19: 2^−149, cut `k` times in two. -/
def codeVal (k c : Nat) : Int := (codeMag c * 2 ^ k : Nat)

theorem codeVal_rising (k : Nat) : Rising (codeVal k) :=
  fun c => Int.ofNat_lt.2 (Nat.mul_lt_mul_of_pos_right (codeMag_lt_succ c) (Nat.two_pow_pos k))

/-- Codes of one exponent field `Q` are 2^Q apart. -/
theorem codeVal_at {Q n : Nat} (k : Nat) (hn : n < 2 ^ 24) (hid : Q = 0 ∨ 2 ^ 23 ≤ n) :
    codeVal k (Q * 2 ^ 23 + n) = (n * 2 ^ (Q + k) : Nat) ∧ codeVal k (Q * 2 ^ 23 + n + 1) = codeVal k (Q * 2 ^ 23 + n) + (2 ^ (Q + k) : Nat) := by
  have hat : codeVal k (Q * 2 ^ 23 + n) = (n * 2 ^ (Q + k) : Nat) := by
    rw [codeVal, codeMag_at (Nat.le_of_lt hn) hid, Nat.mul_assoc, ← Nat.pow_add]
  have hnext : codeVal k (Q * 2 ^ 23 + (n + 1)) = ((n + 1) * 2 ^ (Q + k) : Nat) := by
    rw [codeVal, codeMag_at hn (hid.imp_right Nat.le_succ_of_le), Nat.mul_assoc, ← Nat.pow_add]
  refine ⟨hat, ?_⟩
  rw [hat, Nat.add_assoc, hnext, Nat.succ_mul, Int.natCast_add]

/-- `roundCode` rounds m × 2^e, in the units of O19, to the nearest code, ties to even (R84). -/
theorem roundCode_roundsTo {m : Nat} (neg : Bool) (e : Int) (hm : 0 < m) :
    ∃ l, RoundsTo (codeVal (-149 - e).toNat) (m * 2 ^ (e + 149).toNat : Nat) l (roundCode 23 (-126) .rne neg m e false).1 := by
  have hplace := lastPlace_cases m e
  by_cases h : lastPlace m e ≤ e
  · obtain ⟨hn, hid⟩ := exact_significand hm h
    rw [roundCode_exact neg hm h]
    obtain ⟨hat, hnext⟩ := codeVal_at (-149 - e).toNat hn hid
    have hplaces : (e + 149).toNat = (e - lastPlace m e).toNat + (placeField m e + (-149 - e).toNat) := by unfold placeField; omega
    refine ⟨_, .of_remainder (u := 2 ^ (placeField m e + (-149 - e).toNat)) (r := 0) (w := 1) ?_ ?_ Nat.one_pos (Nat.two_pow_pos _)
      (.inl ⟨rfl, .inl (Nat.two_pow_pos _)⟩)⟩
    · rw [hnext, Nat.mul_one]
    · rw [hat, hplaces, Nat.pow_add, Nat.mul_assoc, Nat.zero_mul, Int.natCast_zero, Int.add_zero]
  · obtain ⟨hn, hid⟩ := cut_significand hm h
    obtain ⟨hat, hnext⟩ := codeVal_at (-149 - e).toNat hn hid
    rw [roundCode_cut neg hm h]
    have hplaces : placeField m e + (-149 - e).toNat = (lastPlace m e - e).toNat + (e + 149).toNat := by
      unfold placeField
      omega
    have hpar : 2 ^ (lastPlace m e - e).toNat = 2 * 2 ^ ((lastPlace m e - e).toNat - 1) := by
      rw [← Nat.pow_succ']; congr 1; omega
    refine ⟨placeField m e * 2 ^ 23 + m / 2 ^ (lastPlace m e - e).toNat, .of_remainder (u := 2 ^ (lastPlace m e - e).toNat) (r := m % 2 ^ (lastPlace m e - e).toNat) (w := 2 ^ (e + 149).toNat) ?_ ?_
      (Nat.two_pow_pos _) (Nat.mod_lt _ (Nat.two_pow_pos _)) ?_⟩
    · rw [hnext, hplaces, Nat.pow_add]
    · rw [hat, hplaces, Nat.pow_add, ← Int.natCast_add, ← Nat.mul_assoc, ← Nat.add_mul, Nat.div_add_mod']
    · split <;> omega

/-- What `roundSat` makes of a number that is not zero: the rounded code, or the largest finite one where that is passed. -/
theorem roundSat_fin {m : Nat} (neg : Bool) (e : Int) (hm : 0 < m) :
    roundSat (.fin neg m e) = (signed 32 neg (min (roundCode 23 (-126) .rne neg m e false).1 0x7F7FFFFF),
      decide (0x7F7FFFFF < (roundCode 23 (-126) .rne neg m e false).1)) := by
  simp only [roundSat, if_neg (Nat.ne_of_gt hm)]
  split
  · next h => rw [Nat.min_eq_right (Nat.le_of_lt h), decide_eq_true h]
  · next h => rw [Nat.min_eq_left (Nat.not_lt.1 h), decide_eq_false h]

/-- The middle between the largest finite code and the one past it, twice over. -/
theorem codeVal_middle (k : Nat) : codeVal k 0x7F7FFFFF + codeVal k (0x7F7FFFFF + 1) = 2 * ((2 ^ 25 - 1) * 2 ^ 252 * 2 ^ k) := by
  obtain ⟨hmax, hpast⟩ := codeMag_max
  rw [codeVal, codeVal, hmax, show 0x7F7FFFFF + 1 = 0x7F800000 from rfl, hpast, show (2 : Int) ^ k = (2 ^ k : Nat) from (Int.natCast_pow 2 k).symm]
  omega

/-- Settles O19: the rounded code is one of the two neighbours of the exact value among the FP32 codes, cut at the largest finite one. -/
theorem exactSumsRoundOnce : Obligations.ExactSumsRoundOnce := by
  unfold Obligations.ExactSumsRoundOnce
  refine ⟨fun neg e => rfl, fun neg m e val hm hval => ?_⟩
  have hcode : ∀ k y, val y * 2 ^ k = codeVal k y := fun k y => by
    rw [hval, codeVal, codeMag, Int.natCast_mul, Int.natCast_pow]
    rfl
  obtain ⟨l, hround⟩ := roundCode_roundsTo neg e hm
  have hrise := codeVal_rising (-149 - e).toNat
  have hmax : 0x7F7FFFFF % 2 = 1 := rfl
  rw [roundSat_fin neg e hm]
  generalize (roundCode 23 (-126) .rne neg m e false).1 = c at hround
  simp only [hcode]
  refine ⟨min c 0x7F7FFFFF, _, _, rfl, rfl, Nat.min_le_right .., ?code, ?nearest, ?even, ?saturated⟩
  case code => simp [signed]
  case nearest =>
    intro y hy
    rcases Nat.lt_or_ge 0x7F7FFFFF c with hc | hc
    · rw [Nat.min_eq_right (Nat.le_of_lt hc)]
      exact (hround.nearest_of_passes hrise hmax hc hy).1
    · rw [Nat.min_eq_left hc]
      exact (hround.nearest hrise y).1
  case even =>
    intro y hy
    rcases Nat.lt_or_ge 0x7F7FFFFF c with hc | hc
    · rw [Nat.min_eq_right (Nat.le_of_lt hc)]
      exact fun hne heq => absurd heq ((hround.nearest_of_passes hrise hmax hc hy).2 hne)
    · rw [Nat.min_eq_left hc]
      exact (hround.nearest hrise y).2
  case saturated =>
    rw [decide_eq_true_iff, hround.passes_iff hrise hmax, codeVal_middle]
    omega

end Sys2Proof.Machine
end

section
/-!
PROOF. Vector descriptors (O21): their start, the row that a tc reads, and the row whose writes a tc makes.
-/

namespace Sys2Proof.Machine
open Sys2Proof

-- the start of a vector descriptor (R106, R107, R113)

/-- The entry that a unit starts next stands in the window, is of that unit, and has not started. -/
theorem nextOf_window {s : State} {t unit i : Nat} {ops : List Nat} {e : WinEntry} (h : nextOf s t unit ops = some (i, e)) :
    (s.tile (s.phys t)).seq.window[i]? = some e ∧ e.unit = unit ∧ e.phase = .issued := by
  have hold : oldestIssued (s.tile (s.phys t)).seq unit = some (i, e) := by
    unfold nextOf at h
    split at h
    · cases h
    · next hx =>
      split at h
      · cases h; exact hx
      · cases h
  unfold oldestIssued at hold
  split at hold
  · cases hold
  · next j hfind =>
    obtain ⟨x, hx, heq⟩ := Option.map_eq_some_iff.1 hold
    cases heq
    obtain ⟨hlt, htest, -⟩ := List.findIdx?_eq_some_iff_getElem.1 hfind
    rw [List.getElem?_eq_getElem hlt, Option.some_inj] at hx
    rw [hx] at htest
    exact ⟨by rw [List.getElem?_eq_getElem hlt, hx], by simpa using htest⟩

/-- A unit is free for a descriptor when it has done with every earlier one of its own. -/
theorem unitFree_of {s : State} {p i : Nat} {e : WinEntry} (hw : (s.tile p).seq.window[i]? = some e)
    (h : ∀ x ∈ (s.tile p).seq.window.take i, x.unit = e.unit → x.held ≤ x.pos) : unitFree s p i = true := by
  refine List.all_eq_true.2 fun x hx => ?_
  rw [hw]
  by_cases hu : x.unit = e.unit
  · simp [h x hx hu]
  · simp [hu]

/-- R107 as it is asked of each register or mask that an earlier vector descriptor writes. -/
theorem vxReady_iff {s : State} {p i : Nat} {d : Desc} :
    vxReady s p i d = true ↔ ∀ x ∈ (s.tile p).seq.window.take i, x.unit = unitVector → ∀ w ∈ vxWrites x.desc,
      (∀ r ∈ vxReads d, r.1 = w.1 → w.2 + x.desc.vxLat < x.pos + r.2)
      ∧ ∀ o ∈ vxWrites d, o.1 = w.1 → w.2 + x.desc.vxLat < x.pos + o.2 + d.vxLat := by
  simp [vxReady, vxEarlier, Decidable.imp_iff_not_or]

/-- The commands that start a vector descriptor, each with its opcode. -/
def vectorStarts (tl : Nat) (chk : Check) : List (Instr × Nat) :=
  [(.vxFp tl chk, opVxFp), (.vxInt tl chk, opVxInt), (.vxCvt tl chk, opVxCvt), (.vxFn tl chk, opVxFn), (.vxRed tl chk, opVxRed),
    (.vxCmp tl chk, opVxCmp), (.vxMask tl, opVxMask)]

/-- Each of them starts the next descriptor of its opcode; VX_MASK reads nothing that is checked. -/
theorem exec_vectorStart {tl op : Nat} {chk : Check} {c : Instr} (s : State) (ht : tl < 256) (hc : (c, op) ∈ vectorStarts tl chk)
    (hmask : op = opVxMask → chk = .clean) : exec c s = .next (vxStart s tl op chk) := by
  simp only [vectorStarts, List.mem_cons, Prod.mk.injEq, List.not_mem_nil, or_false] at hc
  rcases hc with ⟨rfl, rfl⟩ | ⟨rfl, rfl⟩ | ⟨rfl, rfl⟩ | ⟨rfl, rfl⟩ | ⟨rfl, rfl⟩ | ⟨rfl, rfl⟩ | ⟨rfl, rfl⟩
  case inr.inr.inr.inr.inr.inr =>
    rw [hmask rfl]
    exact if_pos ht
  all_goals exact if_pos ht

theorem vectorStarts_unit {tl op : Nat} {chk : Check} {c : Instr} {d : Desc} (hc : (c, op) ∈ vectorStarts tl chk) (hop : d.opcode = op) :
    d.unit = unitVector := by
  have hops : op ∈ (vectorStarts tl chk).map (·.2) := List.mem_map_of_mem hc
  have hgroup : op / 16 = 2 :=
    (show ∀ n ∈ [opVxFp, opVxInt, opVxCvt, opVxFn, opVxRed, opVxCmp, opVxMask], n / 16 = 2 by decide) op hops
  simp [Desc.unit, hop, hgroup]

/-- A vector descriptor whose turn it is and whose checks hold starts. -/
theorem vxStart_begins {s : State} {tl i op : Nat} {e : WinEntry} {chk : Check} (hnext : nextOf s tl unitVector [op] = some (i, e))
    (hstand : s.tileStands (s.phys tl) = false) (hfree : unitFree s (s.phys tl) i = true) (hready : vxReady s (s.phys tl) i e.desc = true)
    (hfault : spFault (s.tile (s.phys tl)) s.frame e.desc.frameCarried false (vxIntervals e.desc).1 (vxIntervals e.desc).2 = none) :
    vxStart s tl op chk = begun s (s.phys tl) i .running chk Stage.reset 0 := by
  simp only [vxStart, hnext, hstand, hfree, hready, hfault]
  rfl

/-- One tc for each row, and λ + 1 tc from the last row to the retirement (R106, R113). -/
theorem vector_times {e : WinEntry} (h : e.desc.unit = unitVector) :
    e.held = e.desc.rows ∧ e.span = (e.desc.rows - 1) + e.desc.vxLat + 1 := by
  have hop : ∀ op, op / 16 = 1 → e.desc.opcode ≠ op := by
    rintro op hgroup rfl
    simp [Desc.unit, hgroup, unitMatrix, unitVector] at h
  have hne : unitVector ≠ unitMatrix := by decide
  simp [WinEntry.held, WinEntry.span, h, hne, hop opMxLoad rfl, hop opMxPass rfl, hop opMxZero rfl, hop opMxStore rfl]

-- the flags of TL_VX_STATUS (R98)

/-- The flags change registers of the tile and nothing else of it. -/
@[simp] theorem Tile.vxFlags_keeps (t : Tile) (nan inf sat : Bool) :
    (t.vxFlags nan inf sat).sp = t.sp ∧ (t.vxFlags nan inf sat).tr = t.tr ∧ (t.vxFlags nan inf sat).tc = t.tc
      ∧ (t.vxFlags nan inf sat).mx = t.mx ∧ (t.vxFlags nan inf sat).vx = t.vx ∧ (t.vxFlags nan inf sat).seq = t.seq
      ∧ (t.vxFlags nan inf sat).orphaned = t.orphaned := by
  cases nan <;> cases inf <;> cases sat <;> exact ⟨rfl, rfl, rfl, rfl, rfl, rfl, rfl⟩

/-- A flag that may rise leaves another field as it is. -/
theorem Tile.rd_raise_if (b : Bool) {t : Tile} {f g : Fld} (h : (t.wr f 1).rd g = t.rd g) : (if b then t.raise f else t).rd g = t.rd g := by
  cases b
  · rfl
  · exact h

/-- No field of another register changes. -/
theorem Tile.rd_vxFlags_off (t : Tile) (nan inf sat : Bool) {g : Fld} (h : g.off ≠ TL_VX_STATUS_OFF) : (t.vxFlags nan inf sat).rd g = t.rd g := by
  have hoff : ∀ (b : Bool) (u : Tile) (f : Fld), f.off = TL_VX_STATUS_OFF → (if b then u.raise f else u).rd g = u.rd g :=
    fun b u f hf => Tile.rd_raise_if b (Tile.rd_wr_off u 1 (hf ▸ h))
  exact (hoff _ _ _ rfl).trans ((hoff _ _ _ rfl).trans (hoff _ _ _ rfl))

/-- A flag that a tc has found is set, whichever of the others are. -/
theorem Tile.rd_vxFlags (t : Tile) (nan inf sat : Bool) :
    (nan = true → (t.vxFlags nan inf sat).rd TL_VX_STATUS_NAN_SEEN = 1) ∧ (inf = true → (t.vxFlags nan inf sat).rd TL_VX_STATUS_INF_SEEN = 1)
      ∧ (sat = true → (t.vxFlags nan inf sat).rd TL_VX_STATUS_SAT_SEEN = 1) := by
  have hset : ∀ (u : Tile) (f : Fld), f.lo = f.hi → f.hi < 64 → (u.raise f).rd f = 1 := fun u f hlo hhi =>
    (Tile.rd_wr_same u f 1 hhi (Nat.le_of_eq hlo)).trans (Nat.mod_eq_of_lt (Nat.one_lt_two_pow (by omega)))
  have hkeep : ∀ (b : Bool) (u : Tile) (f g : Fld), f.lo = f.hi → f.hi < 64 → g.hi < f.lo → (if b then u.raise f else u).rd g = u.rd g :=
    fun b u f g hlo hhi hg => Tile.rd_raise_if b (Tile.rd_wr_ne u 1 hhi (Nat.le_of_eq hlo) (.inl hg))
  unfold Tile.vxFlags
  refine ⟨?_, ?_, ?_⟩ <;> rintro rfl
  · rw [hkeep _ _ _ _ rfl (by decide) (by decide), hkeep _ _ _ _ rfl (by decide) (by decide)]
    exact hset _ _ rfl (by decide)
  · rw [hkeep _ _ _ _ rfl (by decide) (by decide)]
    exact hset _ _ rfl (by decide)
  · exact hset _ _ rfl (by decide)

-- one tile changed

/-- Tile `t` with window entry `i` changed. -/
def Tile.modEntry (t : Tile) (i : Nat) (f : WinEntry → WinEntry) : Tile := { t with seq := { t.seq with window := modAt f t.seq.window i } }

/-- Tile `t` when a row's writes have entered the pipeline of window entry `i`, and when the oldest row has left it. -/
def Tile.pushLanes (t : Tile) (i : Nat) (ws : List VWrite) : Tile := t.modEntry i (fun e => { e with lanes := e.lanes ++ [ws] })
def Tile.popLanes (t : Tile) (i : Nat) : Tile := t.modEntry i (fun e => { e with lanes := e.lanes.drop 1 })

theorem Tile.modEntry_window {t : Tile} {i : Nat} {e : WinEntry} (f : WinEntry → WinEntry) (h : t.seq.window[i]? = some e) :
    (t.modEntry i f).seq.window[i]? = some (f e) := by
  rw [Tile.modEntry, modAt_getElem?_same, h, Option.map_some]

/-- Where one tile and the replay record change, every other tile and the rest of the module are as before. -/
theorem setTile_replay_frame (s : State) (p : Nat) (t : Tile) (rep : Replay) {u : State} (h : u = State.setTile { s with replay := rep } p t) :
    u.tile p = t ∧ (∀ k, k ≠ p → u.tile k = s.tile k) ∧ u.die = s.die ∧ SameModule s u := by
  subst h
  exact ⟨State.tile_setTile_same .., fun k hk => State.tile_setTile_ne _ t hk, rfl, ⟨rfl, rfl, rfl, rfl, rfl⟩⟩

-- the row that a tc reads (R106, R113, R134)

/-- A run of the vector engine at its beginning: no flag has risen. -/
def VxRun.fresh (t : Tile) (view : Mem) : VxRun := { tile := t, view := view, nan := false, inf := false, sat := false }

/-- Operands without findings: the replay record alone may change, and what is read from the scratchpad is what stood there before the tc. -/
theorem vxFetch_clean (s : State) (p : Nat) {e : WinEntry} (fromSp : Bool) (a : Nat × Nat) (h : e.chk = .clean) :
    ∃ rep view, vxFetch s p e fromSp a = ({ s with replay := rep }, view) ∧ (fromSp = true → view = (s.tile p).spSeen) := by
  cases fromSp
  · exact ⟨s.replay, [], rfl, nofun⟩
  · obtain ⟨rep, hrep⟩ := siteClean_eq s siteSp p (a.1 / 8) ((a.1 + a.2 + 7) / 8)
    refine ⟨rep, (s.tile p).spSeen, ?_, fun _ => rfl⟩
    simp only [vxFetch, h, chkIn_clean, noteSp, hrep]
    rfl

/-- A row that is read: its writes enter the pipeline, the row is counted, and flags of lane operations may rise. -/
theorem vxRead_clean (s : State) (p i : Nat) {e : WinEntry} (h : e.chk = .clean) : ∃ rep view row inf sat,
    (vxFromSp e.desc = true → view = (s.tile p).spSeen) ∧ row = (vxRow e.desc (VxRun.fresh (s.tile p) view) e.pos).1
      ∧ vxRead s p i e = State.setTile { s with replay := rep } p
          ((((s.tile p).pushLanes i row).inc TL_VX_STATS_ROWS 1).vxFlags false inf sat) := by
  obtain ⟨rep, view, hfetch, hview⟩ := vxFetch_clean s p (vxFromSp e.desc) (vxSrcRow e.desc e.pos) h
  refine ⟨rep, view, _, (vxRow e.desc (VxRun.fresh (s.tile p) view) e.pos).2.1, (vxRow e.desc (VxRun.fresh (s.tile p) view) e.pos).2.2, hview, rfl, ?_⟩
  simp only [vxRead, hfetch]
  rw [State.modTile, setEntry_tile_same]
  exact State.setTile_setTile { s with replay := rep } p _ _

-- the row whose writes a tc makes (R106, R132, R133, R141)

/-- Old words without findings: no write is dropped, and the replay record alone may change. -/
theorem vxWords_clean (s : State) (p : Nat) (ws : List VWrite) : ∃ rep, vxWords s p .clean ws = ({ s with replay := rep }, ws) := by
  refine List.foldlRecOn (motive := fun r => ∃ rep, r = ({ s with replay := rep }, ws)) _ _ ⟨s.replay, rfl⟩ ?_
  rintro _ ⟨rep, rfl⟩ w -
  obtain ⟨rep', hrep⟩ := siteClean_eq { s with replay := rep } siteSp p w (w + 1)
  exact ⟨rep', Prod.ext hrep rfl⟩

/-- Tile `t` with what the vector engine writes as tile `u` has it: registers, masks, accumulator and scratchpad. -/
def Tile.takeVx (t u : Tile) : Tile := { t with vx := u.vx, mx := u.mx, sp := u.sp, spNew := u.spNew }

/-- A run on tile `t`, at the point that run `r` has reached. -/
def VxRun.onTile (r : VxRun) (t : Tile) : VxRun := { r with tile := t.takeVx r.tile }

theorem Tile.spPut_takeVx (t u : Tile) (cls a : Nat) (bs : List Byte) : (t.takeVx u).spPut cls a bs = t.takeVx (u.spPut cls a bs) := by
  induction bs generalizing u a with
  | nil => rfl
  | cons b bs ih =>
    have hbyte : (if (SMap.look u.spNew a (0, 0)).2 ≤ cls then
          { t.takeVx u with sp := Mem.wr u.sp a b, spNew := noteOld u.sp u.spNew cls a } else t.takeVx u) =
        t.takeVx (if (SMap.look u.spNew a (0, 0)).2 ≤ cls then
          { u with sp := Mem.wr u.sp a b, spNew := noteOld u.sp u.spNew cls a } else u) := by
      split <;> rfl
    exact (congrArg (fun x => x.spPut cls (a + 1) bs) hbyte).trans (ih _ _)

theorem VxRun.put_onTile (r : VxRun) (t : Tile) (loc : VLoc) (x : Nat) : (r.onTile t).put loc x = (r.put loc x).onTile t := by
  cases loc with
  | reg v l => rfl
  | acc row l => rfl
  | sp a fmt => exact congrArg (fun u => ({ r with tile := u } : VxRun)) (Tile.spPut_takeVx t r.tile byVector a _)

theorem VxRun.putFp_onTile (r : VxRun) (t : Tile) (sat : Bool) (loc : VLoc) (x : Nat) (finite : Bool) :
    (r.onTile t).putFp sat loc x finite = (r.putFp sat loc x finite).onTile t := by
  simp only [VxRun.putFp, VxRun.put_onTile]
  rfl

theorem VxRun.apply_onTile (r : VxRun) (t : Tile) (sat : Bool) (w : VWrite) :
    VxRun.apply sat (r.onTile t) w = (VxRun.apply sat r w).onTile t := by
  cases w with
  | zero loc => exact VxRun.put_onTile ..
  | comb loc op x => rfl
  | mask m en val => rfl
  | set loc x fp =>
    cases fp
    · exact VxRun.put_onTile ..
    · exact VxRun.putFp_onTile ..

/-- The writes of a row depend on nothing of the tile but what the vector engine writes, and leave the rest as it is. -/
theorem VxRun.applyRow_onTile (r : VxRun) (t : Tile) (sat : Bool) (ws : List VWrite) :
    VxRun.applyRow sat (r.onTile t) ws = (VxRun.applyRow sat r ws).onTile t := by
  unfold VxRun.applyRow
  induction ws generalizing r with
  | nil => rfl
  | cons w ws ih => rw [List.foldl_cons, List.foldl_cons, VxRun.apply_onTile, ih]

/-- A row that is written: it leaves the pipeline, its writes are made, and flags may rise. -/
theorem vxWrite_clean {s : State} {p i : Nat} {e x : WinEntry} {w : List VWrite} {rest : List (List VWrite)} {r : VxRun}
    (hw : (s.tile p).seq.window[i]? = some x) (hl : x.lanes = w :: rest) (h : e.chk = .clean)
    (hr : r = VxRun.applyRow e.desc.vxSat (VxRun.fresh (s.tile p) []) w) :
    ∃ rep, vxWrite s p i e =
      State.setTile { s with replay := rep } p ((((s.tile p).popLanes i).takeVx r.tile).vxFlags r.nan r.inf r.sat) := by
  obtain ⟨rep, hwords⟩ := vxWords_clean (s.setTile p ((s.tile p).popLanes i)) p w
  have hrun : VxRun.applyRow e.desc.vxSat (VxRun.fresh ((s.tile p).popLanes i) []) w = r.onTile ((s.tile p).popLanes i) := by
    rw [hr, ← VxRun.applyRow_onTile]
    rfl
  have hpop : setEntry s p i (fun e => { e with lanes := e.lanes.drop 1 }) = s.setTile p ((s.tile p).popLanes i) := rfl
  have htile : ({ s.setTile p ((s.tile p).popLanes i) with replay := rep } : State).tile p = (s.tile p).popLanes i := s.tile_setTile_same p _
  refine ⟨rep, ?_⟩
  simp only [vxWrite, hw, hl, h, List.headD_cons, hpop, hwords, htile]
  rw [← VxRun.fresh, hrun]
  exact State.setTile_setTile { s with replay := rep } p ((s.tile p).popLanes i) _

/-- Settles O21: the start through its checks, the read as one change of the tile, and the writes as a run on the tile that has let go of the row. -/
theorem vectorDescriptorsRun : Obligations.VectorDescriptorsRun := by
  unfold Obligations.VectorDescriptorsRun
  refine ⟨?start, ?read, ?write⟩
  case start =>
    intro s tl p i op e d chk c ht hp hc hmask hnext hd hstand hearlier hfault
    subst hp hd
    obtain ⟨hw, hunit, -⟩ := nextOf_window hnext
    have hfree : unitFree s (s.phys tl) i = true := unitFree_of hw fun x hx hu => (hearlier x hx (hu.trans hunit)).1
    have hready : vxReady s (s.phys tl) i e.desc = true := vxReady_iff.2 fun x hx hu => (hearlier x hx hu).2
    refine ⟨?_, vector_times (vectorStarts_unit hc (List.mem_singleton.1 (nextOf_opcode hnext)))⟩
    rw [exec_vectorStart s ht hc hmask, vxStart_begins hnext hstand hfree hready hfault]
  case read =>
    intro s p i e x t hw hchk ht
    obtain ⟨rep, view, row, inf, sat, hview, hrow, hread⟩ := vxRead_clean s p i hchk
    obtain ⟨htile, hothers, hdie, hmodule⟩ := setTile_replay_frame s p _ rep (ht.trans hread)
    obtain ⟨hsp, htr, htc, hmx, hvx, hseq, horphaned⟩ := Tile.vxFlags_keeps (((s.tile p).pushLanes i row).inc TL_VX_STATS_ROWS 1) false inf sat
    rw [htile]
    refine ⟨_, view, by rw [hseq, Tile.inc_seq, Tile.pushLanes, Tile.modEntry_window _ hw], hview, congrArg (x.lanes ++ [·]) hrow, ?_, hsp,
      ⟨htr, htc, hmx, hvx, horphaned⟩, hothers, hdie, hmodule⟩
    rw [Tile.rd_vxFlags_off _ _ _ _ (by decide), Tile.inc, Tile.rd_wr_same _ _ _ (by decide) (by decide)]
    rfl
  case write =>
    intro s p i e x w rest r t hw hl hchk ht hr
    obtain ⟨rep, hwrite⟩ := vxWrite_clean hw hl hchk hr
    obtain ⟨htile, hothers, hdie, hmodule⟩ := setTile_replay_frame s p _ rep (ht.trans hwrite)
    obtain ⟨hnan, hinf, hsat⟩ := Tile.rd_vxFlags (((s.tile p).popLanes i).takeVx r.tile) r.nan r.inf r.sat
    obtain ⟨hsp, htr, htc, hmx, hvx, hseq, -⟩ := Tile.vxFlags_keeps (((s.tile p).popLanes i).takeVx r.tile) r.nan r.inf r.sat
    rw [htile]
    refine ⟨hvx, hmx, hsp, ?_, hnan, hinf, hsat, htr, htc, hothers, hdie, hmodule⟩
    rw [hseq, show rest = x.lanes.drop 1 by rw [hl]; rfl]
    exact Tile.modEntry_window _ hw

end Sys2Proof.Machine
end

section
/-!
PROOF. Mask registers that VX_CMP and VX_MASK write (O24): a mask made lane by lane, and the merge into the old one.
-/

namespace Sys2Proof.Machine
open Sys2Proof

theorem bit_setBits_one (w : W64) {i n : Nat} (b : Bool) (h : n < 64) : bit (setBits w n n (ofBool b)) i = if i = n then b else bit w i := by
  unfold bit
  rw [setBits_getLsbD w n n _ i h (Nat.le_refl n)]
  by_cases hi : i = n
  · subst hi
    cases b <;> simp [ofBool]
  · rw [if_neg (by omega), if_neg hi]

/-- The mask of a lane predicate holds it bit by bit. -/
theorem bit_laneMask (f : Nat → Bool) {l : Nat} (hl : l < 64) : bit (laneMask f) l = f l := by
  have hfirst : ∀ n, n ≤ 64 → bit ((List.range n).foldl (fun w k => setBits w k k (ofBool (f k))) 0) l = (decide (l < n) && f l) := by
    intro n hn
    induction n with
    | zero => simp [bit]
    | succ n ih =>
      rw [List.range_succ, List.foldl_append, List.foldl_cons, List.foldl_nil, bit_setBits_one _ _ hn]
      by_cases h : l = n
      · simp [h]
      · rw [if_neg h, ih (by omega), decide_eq_decide.2 (show l < n ↔ l < n + 1 by omega)]
  rw [laneMask, hfirst 64 (Nat.le_refl 64), decide_eq_true hl, Bool.true_and]

/-- An enabled bit takes its new value, another keeps the old one (R100). -/
theorem bit_merge (old en val : W64) {l : Nat} (hl : l < 64) :
    bit ((old &&& ~~~en) ||| (val &&& en)) l = if bit en l then bit val l else bit old l := by
  have hbool : bit ((old &&& ~~~en) ||| (val &&& en)) l = (bit old l && !bit en l || bit val l && bit en l) := by
    simp [bit, BitVec.getLsbD_eq_getElem, hl]
  rw [hbool]
  cases bit en l <;> simp

/-- The row of VX_CMP and VX_MASK is one write of a mask. -/
theorem applyRow_maskRow {d : Desc} (r u : VxRun) (h : d.opcode = opVxCmp ∨ d.opcode = opVxMask) :
    VxRun.applyRow d.vxSat u (vxRow d r 0).1 = VxRun.apply d.vxSat u (maskWrite d r) := by
  simp [vxRow, h, VxRun.applyRow]

/-- Settles O24: the one write of the row merges the lanes' results into the old mask under the lanes that it writes. -/
theorem masksAreWritten : Obligations.MasksAreWritten := by
  unfold Obligations.MasksAreWritten
  intro d r u v l x hop hl hv
  rw [applyRow_maskRow r u hop] at hv
  subst hv
  refine ⟨?_, fun hx => SMap.look_put_ne _ _ _ hx, rfl, rfl, rfl⟩
  simp only [VxRun.apply, maskWrite, VxRun.putMask, SMap.look_put_same, bit_merge _ _ _ hl, bit_laneMask _ hl]
  cases laneActive r.tile d l <;> cases d.maskZero <;> simp

end Sys2Proof.Machine
end

section
/-!
PROOF. Matrix loads (O17) and accumulator moves (O20): their starts, the beats and rows that they read, and what they write in the stage, the
accumulator and the scratchpad.
-/

namespace Sys2Proof.Machine
open Sys2Proof

-- a row that enters the pipeline of a window entry

theorem pushRow_tile_same (s : State) (p i : Nat) (row : List Byte) :
    (pushRow s p i row).tile p = (s.tile p).modEntry i (fun e => { e with rows := e.rows ++ [row] }) :=
  setEntry_tile_same ..

/-- A tile of which a window entry alone has changed. -/
theorem Tile.sameEngines_modEntry (t : Tile) (i : Nat) (f : WinEntry → WinEntry) : SameEngines t (t.modEntry i f) :=
  ⟨rfl, rfl, rfl, rfl, rfl⟩

-- the start of a load (R81, R120, R121)

/-- Passes on the stage have streamed, loads into it have retired, and other loads have read their beats. -/
theorem loadReady_of {s : State} {p i : Nat} {d : Desc} (h : ∀ x ∈ (s.tile p).seq.window.take i, x.unit = unitMatrix →
      (x.desc.opcode = opMxPass → x.desc.stage = d.stage → x.held ≤ x.pos)
      ∧ (x.desc.opcode = opMxLoad → x.held ≤ x.pos ∧ (x.desc.stage = d.stage → x.span ≤ x.pos))) : loadReady s p i d = true := by
  refine earlier_iff.2 fun x hx hu => ?_
  obtain ⟨hpass, hload⟩ := h x hx hu
  split
  · next hop => simpa [Decidable.imp_iff_not_or] using hpass hop
  · split
    · next hop => simpa [Decidable.imp_iff_not_or] using hload hop
    · rfl

/-- A load whose turn it is starts. -/
theorem mxLoad_starts {s : State} {tl i : Nat} {e : WinEntry} (chk : Check) (ht : tl < 256)
    (hnext : nextOf s tl unitMatrix [opMxLoad] = some (i, e)) (hstand : s.tileStands (s.phys tl) = false)
    (hready : loadReady s (s.phys tl) i e.desc = true) :
    exec (.mxLoad tl chk) s = .next (begun s (s.phys tl) i .running chk Stage.reset 0) := by
  show execMxLoad tl chk s = _
  simp only [execMxLoad, if_pos ht, mxLoadStart, hnext, hstand, hready]
  rfl

/-- How long a load holds the port and when it retires (R81, R121). -/
theorem load_times {e : WinEntry} (h : e.desc.opcode = opMxLoad) : e.held = fmtBeats e.desc.loadFmt ∧ e.span = fmtLoad e.desc.loadFmt := by
  have hunit : e.desc.unit = unitMatrix := by simp [Desc.unit, h, opMxLoad]
  simp [WinEntry.held, WinEntry.span, hunit, h]

-- the beat that a load reads, and the stage that it fills (R81, R120, R195)

/-- A load that reads a beat: the beat enters its pipeline, as the Terrace stood before the tc. -/
theorem loadBeat_tile (s : State) (p i : Nat) {e : WinEntry} (h : e.chk = .clean) : (loadBeat s p i e).tile p =
    (s.tile p).modEntry i (fun w => { w with rows := w.rows ++ [Mem.rdN (s.tile p).trSeen (512 * (e.desc.beat + e.pos)) 512] }) := by
  simp only [loadBeat, h, chkIn_clean, noteTr, trView, pushRow_tile_same, siteClean_tile]

theorem Mx.stage_setStage_same (m : Mx) (n : Nat) (g : Stage) : (m.setStage n g).stage n = g := by
  by_cases h : n = 0 <;> simp [Mx.setStage, Mx.stage, h]

/-- The other of the two stages. -/
theorem Mx.stage_setStage_ne (m : Mx) {n k : Nat} (g : Stage) (hn : n < 2) (hk : k < 2) (h : k ≠ n) : (m.setStage n g).stage k = m.stage k := by
  by_cases h0 : n = 0
  · have hk0 : k ≠ 0 := h0 ▸ h
    simp [Mx.setStage, Mx.stage, h0, hk0]
  · have hk0 : k = 0 := by omega
    simp [Mx.setStage, Mx.stage, h0, hk0]

theorem Mx.setStage_acc (m : Mx) (n : Nat) (g : Stage) : (m.setStage n g).acc = m.acc := by
  by_cases h : n = 0 <;> simp [Mx.setStage, h]

/-- The stage that a load fills: its format and the bytes of its beats. -/
def loadedStage (e : WinEntry) : Stage := { fmt := e.desc.loadFmt, blk := memOf 0 (e.rows.flatten.take (fmtBytes e.desc.loadFmt)) }

theorem loadDone_eq (s : State) (p : Nat) (e : WinEntry) :
    loadDone s p e = s.setTile p { s.tile p with mx := (s.tile p).mx.setStage e.desc.stage (loadedStage e) } := rfl

theorem loadedStage_rd (e : WinEntry) {k : Nat} (h : k < fmtBytes e.desc.loadFmt) : (loadedStage e).blk.rd k = e.rows.flatten.getD k 0 := by
  simp [loadedStage, memOf_rd, List.getD, h]

/-- Settles O17: the start through its checks, the beat as one change of a window entry, and the stage that the last tc replaces. -/
theorem matrixLoads : Obligations.MatrixLoads := by
  unfold Obligations.MatrixLoads
  refine ⟨?start, ?beat, ?done⟩
  case start =>
    intro s tl p i e d chk ht hp hnext hd hstand hearlier
    subst hp hd
    exact ⟨mxLoad_starts chk ht hnext hstand (loadReady_of hearlier), load_times (List.mem_singleton.1 (nextOf_opcode hnext))⟩
  case beat =>
    intro s p i k e x hw hchk hk
    rw [loadBeat_tile s p i hchk]
    refine ⟨_, Tile.modEntry_window _ hw, by simp, ?_, rfl, Tile.sameEngines_modEntry ..⟩
    rw [List.getLastD_concat, rdN_getD _ _ _ _ hk]
  case done =>
    intro s p e d t hd ht
    subst hd
    obtain ⟨htile, hothers, hdie, hmodule⟩ := setTile_replay_frame s p _ s.replay (ht.trans (loadDone_eq s p e))
    rw [htile]
    refine ⟨?_, fun k hk => ?_, fun n hn hstage hne => Mx.stage_setStage_ne _ _ hstage hn hne, Mx.setStage_acc .., rfl, rfl, rfl, rfl, rfl, hothers,
      hdie, hmodule⟩
    · rw [Mx.stage_setStage_same]
      rfl
    · rw [Mx.stage_setStage_same]
      exact loadedStage_rd e hk

-- the start of an accumulator move (R125 to R127)

/-- Row `m` of a move is accessed `m` + `off` tc from now: no earlier descriptor writes it as late. -/
theorem moveReady_of {s : State} {p i off : Nat} {d : Desc} (h : ∀ x ∈ (s.tile p).seq.window.take i, x.unit = unitMatrix →
      (x.desc.opcode = opMxLoad ∨ x.held ≤ x.pos)
      ∧ ∀ w ∈ rowWrites x, w.1 < d.accRow ∨ d.accRow + d.rows ≤ w.1 ∨ w.2 < x.pos + (w.1 - d.accRow) + off) : moveReady s p i off d = true := by
  refine Bool.and_eq_true_iff.2 ⟨earlier_iff.2 fun x hx hu => ?_, earlier_iff.2 fun x hx hu => ?_⟩
  · simpa using (h x hx hu).1
  · simpa [or_assoc] using (h x hx hu).2

/-- An MX_ZERO whose turn it is starts. -/
theorem mxZero_starts {s : State} {tl i : Nat} {e : WinEntry} (ht : tl < 256) (hnext : nextOf s tl unitMatrix [opMxZero] = some (i, e))
    (hstand : s.tileStands (s.phys tl) = false) (hready : moveReady s (s.phys tl) i 1 e.desc = true) :
    exec (.mxZero tl) s = .next (begun s (s.phys tl) i .running .clean Stage.reset 0) := by
  show execMxZero tl s = _
  simp only [execMxZero, if_pos ht, mxZeroStart, hnext, hstand, hready]
  rfl

/-- An MX_STORE whose turn it is and whose rows may be written starts. -/
theorem mxStore_starts {s : State} {tl i : Nat} {e : WinEntry} (ht : tl < 256) (hnext : nextOf s tl unitMatrix [opMxStore] = some (i, e))
    (hstand : s.tileStands (s.phys tl) = false) (hready : moveReady s (s.phys tl) i 0 e.desc = true)
    (hfault : spFault (s.tile (s.phys tl)) s.frame e.desc.frameCarried false [] [storeWrites e.desc] = none) :
    exec (.mxStore tl () ()) s = .next (begun s (s.phys tl) i .running .clean Stage.reset 0) := by
  show execMxStore tl () () s = _
  simp only [execMxStore, if_pos ht, mxStoreStart, hnext, hstand, hready, hfault]
  rfl

/-- A move holds the accumulator for a tc a row; a zeroed row is written 1 tc after its turn, a stored one 3 (R126, R128). -/
theorem move_times {e : WinEntry} : (e.desc.opcode = opMxZero → e.held = e.desc.rows ∧ e.span = e.desc.rows + 1)
    ∧ (e.desc.opcode = opMxStore → e.held = e.desc.rows ∧ e.span = e.desc.rows + 3) := by
  constructor <;> intro h
  · have hunit : e.desc.unit = unitMatrix := by simp [Desc.unit, h, opMxZero]
    simp [WinEntry.held, WinEntry.span, hunit, h, opMxZero, opMxLoad, opMxPass]
  · have hunit : e.desc.unit = unitMatrix := by simp [Desc.unit, h, opMxStore]
    simp [WinEntry.held, WinEntry.span, hunit, h, opMxZero, opMxLoad, opMxPass, opMxStore]

-- the row that MX_ZERO clears (R126)

/-- An accumulator with the first `n` entries of row `r` cleared. -/
def clearedRow (acc : SMap W32) (r n : Nat) : SMap W32 := (List.range n).foldl (fun a k => SMap.put a (64 * r + k) 0) acc

/-- The cleared entries are zero, and every other entry keeps its value. -/
theorem look_clearedRow (acc : SMap W32) (r n x : Nat) :
    SMap.look (clearedRow acc r n) x 0 = if 64 * r ≤ x ∧ x < 64 * r + n then 0 else SMap.look acc x 0 := by
  induction n with
  | zero => exact (if_neg (by omega)).symm
  | succ n ih =>
    have hlast : clearedRow acc r (n + 1) = SMap.put (clearedRow acc r n) (64 * r + n) 0 := by
      simp only [clearedRow, List.range_succ, List.foldl_append, List.foldl_cons, List.foldl_nil]
    rw [hlast, SMap.look_put, ih]
    by_cases hx : x = 64 * r + n
    · rw [if_pos hx, if_pos (by omega)]
    · rw [if_neg hx]
      exact ite_congr (propext (by omega)) (fun _ => rfl) (fun _ => rfl)

theorem zeroRow_acc (s : State) (p : Nat) (e : WinEntry) :
    ((zeroRow s p e).tile p).mx.acc = clearedRow (s.tile p).mx.acc (e.desc.accRow + e.pos - 1) 64 := by
  rw [zeroRow, State.modMx, State.tile_modTile_same, clearedRow]

/-- A clear of a row changes the accumulator of its tile alone. -/
theorem zeroRow_frame (s : State) (p : Nat) (e : WinEntry) :
    zeroRow s p e = s.setTile p { s.tile p with mx := { (s.tile p).mx with acc := ((zeroRow s p e).tile p).mx.acc } } := by
  rw [zeroRow_acc, zeroRow, State.modMx, State.modTile, clearedRow]

-- the row that MX_STORE reads (R128)

/-- A list joined from chunks of one length gives each of them back. -/
theorem flatMap_take_chunk {α : Type} (f : Nat → List α) {w : Nat} (hw : ∀ k, (f k).length = w) {n l : Nat} (hl : l < n) :
    (((List.range n).flatMap f).drop (l * w)).take w = f l := by
  apply List.ext_getElem?
  intro j
  rw [List.getElem?_take]
  split
  · next hj => rw [List.getElem?_drop, Nat.mul_comm l w, flatMap_chunk f w hw n l j hl hj]
  · next hj => rw [List.getElem?_eq_none (by rw [hw]; omega)]

-- bytes written to a scratchpad (R147)

/-- Tile `t` with one byte put in its scratchpad by a writer of a class. -/
def Tile.putByte (t : Tile) (cls a : Nat) (b : Byte) : Tile :=
  if (SMap.look t.spNew a (0, 0)).2 ≤ cls then { t with sp := Mem.wr t.sp a b, spNew := noteOld t.sp t.spNew cls a } else t

theorem Tile.spPut_cons (t : Tile) (cls a : Nat) (b : Byte) (bs : List Byte) : t.spPut cls a (b :: bs) = (t.putByte cls a b).spPut cls (a + 1) bs := rfl

theorem Tile.putByte_rd_same (t : Tile) (cls a : Nat) (b : Byte) :
    (t.putByte cls a b).sp.rd a = if (SMap.look t.spNew a (0, 0)).2 ≤ cls then b else t.sp.rd a := by
  unfold Tile.putByte
  split
  · exact Mem.rd_wr_same ..
  · rfl

/-- Another byte keeps its value and its writer. -/
theorem Tile.putByte_ne (t : Tile) (cls : Nat) {a x : Nat} (b : Byte) (h : x ≠ a) :
    (t.putByte cls a b).sp.rd x = t.sp.rd x ∧ SMap.look (t.putByte cls a b).spNew x (0, 0) = SMap.look t.spNew x (0, 0) := by
  unfold Tile.putByte
  split
  · exact ⟨Mem.rd_wr_ne _ _ h, SMap.look_put_ne _ _ _ h⟩
  · exact ⟨rfl, rfl⟩

/-- Bytes outside a write keep their values and their writers. -/
theorem Tile.spPut_out (t : Tile) (cls : Nat) {a x : Nat} {bs : List Byte} (h : x < a ∨ a + bs.length ≤ x) :
    (t.spPut cls a bs).sp.rd x = t.sp.rd x ∧ SMap.look (t.spPut cls a bs).spNew x (0, 0) = SMap.look t.spNew x (0, 0) := by
  induction bs generalizing t a with
  | nil => exact ⟨rfl, rfl⟩
  | cons b bs ih =>
    rw [List.length_cons] at h
    obtain ⟨hrd, hnew⟩ := ih (t.putByte cls a b) (a := a + 1) (by omega)
    obtain ⟨hrd1, hnew1⟩ := t.putByte_ne cls b (show x ≠ a by omega)
    exact ⟨hrd.trans hrd1, hnew.trans hnew1⟩

/-- A byte inside a write takes it, unless a later class has written the byte in this tc. -/
theorem Tile.spPut_in (t : Tile) (cls a : Nat) {k : Nat} {bs : List Byte} (h : k < bs.length) : (t.spPut cls a bs).sp.rd (a + k) =
    if (SMap.look t.spNew (a + k) (0, 0)).2 ≤ cls then bs.getD k 0 else t.sp.rd (a + k) := by
  induction bs generalizing t a k with
  | nil => exact absurd h (Nat.not_lt_zero k)
  | cons b bs ih =>
    rw [Tile.spPut_cons]
    cases k with
    | zero => exact ((Tile.spPut_out _ cls (.inl (Nat.lt_succ_self a))).1).trans (t.putByte_rd_same cls a b)
    | succ k =>
      obtain ⟨hrd, hnew⟩ := t.putByte_ne cls b (show a + 1 + k ≠ a by omega)
      rw [show a + (k + 1) = a + 1 + k by omega, ih (t.putByte cls a b) (a + 1) (Nat.lt_of_succ_lt_succ h), hrd, hnew, List.getD_cons_succ]

/-- One law for both cases. -/
theorem Tile.spPut_rd (t : Tile) (cls a x : Nat) (bs : List Byte) : (t.spPut cls a bs).sp.rd x =
    if a ≤ x ∧ x < a + bs.length ∧ (SMap.look t.spNew x (0, 0)).2 ≤ cls then bs.getD (x - a) 0 else t.sp.rd x := by
  by_cases hx : a ≤ x ∧ x < a + bs.length
  · obtain ⟨k, rfl⟩ := Nat.exists_eq_add_of_le hx.1
    rw [Tile.spPut_in t cls a (by omega), Nat.add_sub_cancel_left]
    exact ite_congr (propext (by simp only [hx.1, hx.2, true_and])) (fun _ => rfl) (fun _ => rfl)
  · rw [if_neg (fun ⟨hlo, hhi, _⟩ => hx ⟨hlo, hhi⟩), (Tile.spPut_out t cls (by omega)).1]

/-- A write of a scratchpad changes its bytes and the note of the tc's writers. -/
theorem Tile.spPut_eq (t : Tile) (cls a : Nat) (bs : List Byte) : ∃ m l, t.spPut cls a bs = { t with sp := m, spNew := l } := by
  induction bs generalizing t a with
  | nil => exact ⟨t.sp, t.spNew, rfl⟩
  | cons b bs ih =>
    obtain ⟨m, l, h⟩ := ih (t.putByte cls a b) (a + 1)
    refine ⟨m, l, h.trans ?_⟩
    unfold Tile.putByte
    split <;> rfl

-- the row that MX_STORE writes (R128, R147, R186)

/-- A store that writes a row: the row leaves its pipeline and is put at its place, and nothing else of the module changes. -/
theorem storeWrite_eq (s : State) (p i : Nat) (e : WinEntry) : storeWrite s p i e =
    s.setTile p (((s.tile p).modEntry i (fun w => { w with rows := w.rows.drop 1 })).spPut byMatrix (e.desc.mxSpBase + (e.pos - 3) * storeRow e.desc)
      (headRow s p i)) := by
  rw [storeWrite, spWrite, State.modTile, popRow, setEntry_tile_same]
  exact State.setTile_setTile ..

/-- Settles O20: the starts through their checks, the cleared row entry by entry, and the stored row through the pipeline into the scratchpad. -/
theorem accumulatorMoves : Obligations.AccumulatorMoves := by
  unfold Obligations.AccumulatorMoves
  refine ⟨?zero, ?cleared, ?store, ?read, ?write⟩
  case zero =>
    intro s tl p i e d ht hp hnext hd hstand hearlier
    subst hp hd
    exact ⟨mxZero_starts ht hnext hstand (moveReady_of hearlier), move_times.1 (List.mem_singleton.1 (nextOf_opcode hnext))⟩
  case cleared =>
    intro s p e t hpos ht
    subst ht
    refine ⟨fun x => ?_, zeroRow_frame s p e⟩
    rw [zeroRow_acc, look_clearedRow]
  case store =>
    intro s tl p i e d ht hp hnext hd hstand hearlier hfault
    subst hp hd
    exact ⟨mxStore_starts ht hnext hstand (moveReady_of hearlier) hfault, move_times.2 (List.mem_singleton.1 (nextOf_opcode hnext))⟩
  case read =>
    intro s p i l e x d t hw hd hl ht
    subst hd ht
    rw [storeRead, pushRow_tile_same]
    exact ⟨_, _, Tile.modEntry_window _ hw, rfl, flatMap_take_chunk _ (fun k => storeEntry_len ..) hl, rfl, Tile.sameEngines_modEntry ..⟩
  case write =>
    intro s p i a e x row rest t hw hrows ha ht
    obtain ⟨htile, hothers, hdie, hmodule⟩ := setTile_replay_frame s p _ s.replay (ht.trans (storeWrite_eq s p i e))
    rw [headRow_cons hw hrows, ← ha] at htile
    obtain ⟨m, l, hput⟩ := Tile.spPut_eq ((s.tile p).modEntry i (fun w => { w with rows := w.rows.drop 1 })) byMatrix a row
    refine ⟨fun b => ?_, ?_, ?_, hothers, hdie, hmodule⟩
    · rw [htile, Tile.spPut_rd]
      rfl
    · rw [htile, hput]
      exact ⟨rfl, rfl, rfl, rfl, rfl⟩
    · rw [htile, hput]
      rfl

end Sys2Proof.Machine
end

section
/-!
PROOF. What one row of a vector descriptor writes (O22), and the lanes of VX_INT (O23): the row as one step per lane, each with a place of its own.
-/

namespace Sys2Proof.Machine
open Sys2Proof

-- the writes of an element-wise row (R99, R133)

/-- What lane `l` of row `m` of an element-wise descriptor gives. -/
def laneResult (d : Desc) (r : VxRun) (m l : Nat) : Nat × Bool × Bool × Bool :=
  laneOp d (r.rd d d.srcA m l) (r.rd d d.srcB m l) (r.rd d d.srcC m l)

/-- What lane `l` of row `m` writes. -/
def laneWrites (d : Desc) (r : VxRun) (m l : Nat) : List VWrite :=
  if laneActive r.tile d l then [.set (vxLoc d m l) (laneResult d r m l).1 (laneResult d r m l).2.1]
  else if d.maskZero then [.zero (vxLoc d m l)]
  else []

/-- One lane of `elementRow`. -/
def elementStep (d : Desc) (r : VxRun) (m : Nat) (acc : List VWrite × Bool × Bool) (l : Nat) : List VWrite × Bool × Bool :=
  if laneActive r.tile d l then
    (acc.1 ++ [.set (vxLoc d m l) (laneResult d r m l).1 (laneResult d r m l).2.1], acc.2.1 || (laneResult d r m l).2.2.2,
      acc.2.2 || (laneResult d r m l).2.2.1)
  else if d.maskZero then (acc.1 ++ [.zero (vxLoc d m l)], acc.2)
  else acc

theorem elementRow_eq (d : Desc) (r : VxRun) (m : Nat) : elementRow d r m = (List.range 64).foldl (elementStep d r m) ([], false, false) := rfl

theorem elementStep_writes (d : Desc) (r : VxRun) (m : Nat) (acc : List VWrite × Bool × Bool) (l : Nat) :
    (elementStep d r m acc l).1 = acc.1 ++ laneWrites d r m l := by
  unfold elementStep laneWrites
  split
  · rfl
  · split
    · rfl
    · exact (List.append_nil _).symm

theorem elementRow_writes (d : Desc) (r : VxRun) (m : Nat) : (elementRow d r m).1 = (List.range 64).flatMap (laneWrites d r m) := by
  have hfold : ∀ (ls : List Nat) (acc : List VWrite × Bool × Bool),
      (ls.foldl (elementStep d r m) acc).1 = acc.1 ++ ls.flatMap (laneWrites d r m) := by
    intro ls
    induction ls with
    | nil => exact fun acc => (List.append_nil _).symm
    | cons l ls ih => exact fun acc => by rw [List.foldl_cons, ih, elementStep_writes, List.flatMap_cons, List.append_assoc]
  rw [elementRow_eq, hfold, List.nil_append]

/-- The row of an element-wise opcode. -/
theorem vxRow_element {d : Desc} (r : VxRun) (m : Nat) (h : d.opcode ∈ [opVxFp, opVxInt, opVxCvt, opVxFn]) : vxRow d r m = elementRow d r m := by
  have hother : ¬ (d.opcode = opVxCmp ∨ d.opcode = opVxMask) ∧ d.opcode ≠ opVxRed :=
    (show ∀ op ∈ [opVxFp, opVxInt, opVxCvt, opVxFn], ¬ (op = opVxCmp ∨ op = opVxMask) ∧ op ≠ opVxRed by decide) _ h
  rw [vxRow, if_neg hother.1, if_neg hother.2]

/-- The writes of lane `l` made. -/
def VxRun.lane (d : Desc) (r : VxRun) (m : Nat) (v : VxRun) (l : Nat) : VxRun := VxRun.applyRow d.vxSat v (laneWrites d r m l)

theorem applyRow_element {d : Desc} (r u : VxRun) (m : Nat) (h : d.opcode ∈ [opVxFp, opVxInt, opVxCvt, opVxFn]) :
    VxRun.applyRow d.vxSat u (vxRow d r m).1 = (List.range 64).foldl (VxRun.lane d r m) u := by
  rw [vxRow_element r m h, elementRow_writes, VxRun.applyRow, List.foldl_flatMap]
  rfl

/-- What only step `l` of a run of steps changes: the whole run changes it as that step does, made where it still has its first value. -/
theorem foldl_range_one {α β : Type} {f : α → Nat → α} {g : α → β} {n l : Nat} (hl : l < n) (hkeep : ∀ a k, k ≠ l → g (f a k) = g a) (a : α) :
    ∃ b, g b = g a ∧ g ((List.range n).foldl f a) = g (f b l) := by
  induction n with
  | zero => exact absurd hl (Nat.not_lt_zero l)
  | succ n ih =>
    rw [List.range_succ, List.foldl_append, List.foldl_cons, List.foldl_nil]
    rcases Nat.lt_succ_iff_lt_or_eq.1 hl with h | rfl
    · obtain ⟨b, hb, hrun⟩ := ih h
      exact ⟨b, hb, (hkeep _ n (Nat.ne_of_gt h)).trans hrun⟩
    · refine ⟨_, ?_, rfl⟩
      exact List.foldlRecOn (motive := fun b => g b = g a) _ _ rfl (fun b hb k hk => (hkeep b k (Nat.ne_of_lt (List.mem_range.1 hk))).trans hb)

-- one write

/-- What a write puts at its place, whether or not it sets flags (R132). -/
theorem VxRun.apply_set (sat : Bool) (v : VxRun) (loc : VLoc) (x : Nat) (fp : Bool) :
    (VxRun.apply sat v (.set loc x fp)).tile = (v.put loc (narrowOut loc.fmt sat x).1).tile
      ∧ (VxRun.apply sat v (.set loc x fp)).view = (v.put loc (narrowOut loc.fmt sat x).1).view := by
  cases fp <;> exact ⟨rfl, rfl⟩

theorem VxRun.old_congr {v w : VxRun} (ht : v.tile = w.tile) (hv : v.view = w.view) (loc : VLoc) : v.old loc = w.old loc := by
  cases loc <;> simp [VxRun.old, ht, hv]

/-- Lanes of registers and of the accumulator take 32 bits as they are, and each has a place of its own (R130). -/
theorem VxRun.old_put_vxLoc {d : Desc} (h : selKind d.dst = 2 ∨ selKind d.dst = 3) (v : VxRun) (m k l x : Nat) :
    (v.put (vxLoc d m k) x).old (vxLoc d m l) = if l = k then x % 2 ^ 32 else v.old (vxLoc d m l) := by
  rcases h with h | h
  all_goals
    simp only [vxLoc, h, VxRun.put, VxRun.old, SMap.look_put, Nat.add_left_cancel_iff]
    split <;> rfl

theorem vxLoc_fmt_wide {d : Desc} (h : selKind d.dst = 2 ∨ selKind d.dst = 3) (m l : Nat) : (vxLoc d m l).fmt = 0 := by
  rcases h with h | h <;> simp [vxLoc, h, VLoc.fmt]

/-- A lane's write in registers or accumulator: its own place takes the result, zero or its old value, and no other lane's place changes. -/
theorem VxRun.lane_old {d : Desc} (h : selKind d.dst = 2 ∨ selKind d.dst = 3) (r v : VxRun) (m k l : Nat) :
    (VxRun.lane d r m v k).old (vxLoc d m l) = if l = k then (if laneActive r.tile d k then (laneResult d r m k).1 % 2 ^ 32
      else if d.maskZero then 0 else v.old (vxLoc d m l)) else v.old (vxLoc d m l) := by
  unfold VxRun.lane laneWrites
  split
  · obtain ⟨htile, hview⟩ := VxRun.apply_set d.vxSat v (vxLoc d m k) (laneResult d r m k).1 (laneResult d r m k).2.1
    exact (VxRun.old_congr htile hview _).trans (by rw [VxRun.old_put_vxLoc h, vxLoc_fmt_wide h]; rfl)
  · split
    · exact VxRun.old_put_vxLoc h v m k l 0
    · exact (ite_self _).symm

-- a destination in the scratchpad (R132, R147)

/-- The place of lane `l` in the scratchpad. -/
def spLane (d : Desc) (m l : Nat) : Nat := d.vxSpBase + m * fmtSpBytes d.spFmt + laneBytes d.spFmt * l

theorem vxLoc_sp {d : Desc} (h : selKind d.dst = 4) (m l : Nat) : vxLoc d m l = .sp (spLane d m l) d.spFmt := by
  simp [vxLoc, h, spLane]

/-- The bytes of another lane lie apart. -/
theorem spLane_apart (d : Desc) (m : Nat) {k l b : Nat} (h : k ≠ l) (hb : b < laneBytes d.spFmt) :
    spLane d m l + b < spLane d m k ∨ spLane d m k + laneBytes d.spFmt ≤ spLane d m l + b := by
  unfold spLane
  rcases Nat.lt_or_gt_of_ne h with h | h
  · have : laneBytes d.spFmt * (k + 1) ≤ laneBytes d.spFmt * l := Nat.mul_le_mul_left _ h
    rw [Nat.mul_succ] at this
    omega
  · have : laneBytes d.spFmt * (l + 1) ≤ laneBytes d.spFmt * k := Nat.mul_le_mul_left _ h
    rw [Nat.mul_succ] at this
    omega

/-- What a lane makes of the tile: nothing, or the code of its result or zero at its place. -/
theorem VxRun.lane_tile_sp {d : Desc} (h : selKind d.dst = 4) (r v : VxRun) (m l : Nat) : (VxRun.lane d r m v l).tile =
    if laneActive r.tile d l then
      v.tile.spPut byVector (spLane d m l) (leBytes (laneBytes d.spFmt) (narrowOut d.spFmt d.vxSat (laneResult d r m l).1).1)
    else if d.maskZero then v.tile.spPut byVector (spLane d m l) (leBytes (laneBytes d.spFmt) 0) else v.tile := by
  unfold VxRun.lane laneWrites
  rw [vxLoc_sp h]
  split
  · exact (VxRun.apply_set ..).1
  · split <;> rfl

/-- A byte of the scratchpad and the class of its writer in this tc. -/
def VxRun.byteAt (a : Nat) (v : VxRun) : Byte × Nat := (v.tile.sp.rd a, (SMap.look v.tile.spNew a (0, 0)).2)

theorem VxRun.byteAt_lane_ne {d : Desc} (h : selKind d.dst = 4) (r v : VxRun) (m : Nat) {k l b : Nat} (hk : k ≠ l) (hb : b < laneBytes d.spFmt) :
    (VxRun.lane d r m v k).byteAt (spLane d m l + b) = v.byteAt (spLane d m l + b) := by
  have hout : ∀ x, spLane d m l + b < spLane d m k ∨ spLane d m k + (leBytes (laneBytes d.spFmt) x).length ≤ spLane d m l + b := fun x => by
    rw [leBytes_len]
    exact spLane_apart d m hk hb
  unfold VxRun.byteAt
  rw [VxRun.lane_tile_sp h]
  split
  · obtain ⟨hrd, hnew⟩ := v.tile.spPut_out byVector (hout (narrowOut d.spFmt d.vxSat (laneResult d r m k).1).1)
    rw [hrd, hnew]
  · split
    · obtain ⟨hrd, hnew⟩ := v.tile.spPut_out byVector (hout 0)
      rw [hrd, hnew]
    · rfl

/-- A byte of a number put in the scratchpad by the vector engine, over which no later writer stands. -/
theorem spPut_leBytes_rd (t : Tile) (a x : Nat) {w b : Nat} (hb : b < w) (h : (SMap.look t.spNew (a + b) (0, 0)).2 ≤ byVector) :
    (t.spPut byVector a (leBytes w x)).sp.rd (a + b) = BitVec.ofNat 8 (x / 256 ^ b) := by
  rw [Tile.spPut_in t byVector a (by rwa [leBytes_len]), if_pos h, leBytes_getD _ _ _ hb]

theorem VxRun.lane_rd {d : Desc} (h : selKind d.dst = 4) (r v : VxRun) (m : Nat) {l b : Nat} (hb : b < laneBytes d.spFmt)
    (hnew : (SMap.look v.tile.spNew (spLane d m l + b) (0, 0)).2 ≤ byVector) : (VxRun.lane d r m v l).tile.sp.rd (spLane d m l + b) =
    if laneActive r.tile d l then BitVec.ofNat 8 ((narrowOut d.spFmt d.vxSat (laneResult d r m l).1).1 / 256 ^ b)
    else if d.maskZero then 0 else v.tile.sp.rd (spLane d m l + b) := by
  rw [VxRun.lane_tile_sp h]
  split
  · exact spPut_leBytes_rd _ _ _ hb hnew
  · split
    · rw [spPut_leBytes_rd _ _ _ hb hnew, Nat.zero_div]
      rfl
    · rfl

-- what a row of registers leaves alone

/-- As to what a vector descriptor can write, `w` differs from `v` in lanes of register `row` alone. -/
structure SameButRegister (row : Nat) (v w : VxRun) : Prop where
  others : ∀ x, (x < 64 * row ∨ 64 * row + 64 ≤ x) → SMap.look w.tile.vx.v x 0 = SMap.look v.tile.vx.v x 0
  m : w.tile.vx.m = v.tile.vx.m
  sp : w.tile.sp = v.tile.sp
  mx : w.tile.mx = v.tile.mx

theorem SameButRegister.put {row : Nat} {v w : VxRun} (h : SameButRegister row v w) {l : Nat} (hl : l < 64) (x : Nat) :
    SameButRegister row v (w.put (.reg row l) x) :=
  ⟨fun y hy => (SMap.look_put_ne _ _ _ (by omega)).trans (h.others y hy), h.m, h.sp, h.mx⟩

theorem SameButRegister.congr {row : Nat} {v w w' : VxRun} (h : SameButRegister row v w) (ht : w'.tile = w.tile) : SameButRegister row v w' :=
  ⟨by rw [ht]; exact h.others, by rw [ht]; exact h.m, by rw [ht]; exact h.sp, by rw [ht]; exact h.mx⟩

theorem SameButRegister.lane {d : Desc} (hd : selKind d.dst = 2) (r : VxRun) (m : Nat) {v w : VxRun} {l : Nat} (hl : l < 64)
    (h : SameButRegister ((selIndex d.dst + m) % 32) v w) : SameButRegister ((selIndex d.dst + m) % 32) v (VxRun.lane d r m w l) := by
  have hloc : vxLoc d m l = .reg ((selIndex d.dst + m) % 32) l := by simp [vxLoc, hd]
  unfold VxRun.lane laneWrites
  rw [hloc]
  split
  · exact (h.put hl _).congr (VxRun.apply_set ..).1
  · split
    · exact h.put hl 0
    · exact h

-- reductions (R101, R102, R141)

theorem vxRow_red {d : Desc} (r : VxRun) (m : Nat) (h : d.opcode = opVxRed) : vxRow d r m = redRow d r m := by
  have hother : ¬ (d.opcode = opVxCmp ∨ d.opcode = opVxMask) := by rw [h]; decide
  rw [vxRow, if_neg hother, if_pos h]

/-- The one place of a reduction's row in registers. -/
theorem redLocs_register {d : Desc} (m : Nat) (hdst : selKind d.dst = 2) (hspread : d.redSpread = false) :
    redLocs d m = [.reg ((selIndex d.dst + m / 64) % 32) (m % 64)] := by
  simp [redLocs, hdst, hspread]

/-- A reduction writes the value of its tree, or the result of an empty one. -/
theorem redRow_writes {d : Desc} (r : VxRun) (m : Nat) (hdst : selKind d.dst = 2) (hspread : d.redSpread = false) (haccum : d.redAccum = false) :
    ∃ fp, (redRow d r m).1 = [.set (.reg ((selIndex d.dst + m / 64) % 32) (m % 64)) ((treeValue d r m).getD (treeEmpty d.redOp)) fp] := by
  unfold redRow
  rw [redLocs_register m hdst hspread]
  cases treeValue d r m with
  | none => exact ⟨false, by simp [haccum]⟩
  | some t => exact ⟨d.redOp != 3, by simp [haccum]⟩

/-- An accumulating reduction has its tree's value combined with the old one, and an empty tree writes nothing. -/
theorem redRow_combines {d : Desc} (r : VxRun) (m : Nat) (hdst : selKind d.dst = 2) (hspread : d.redSpread = false) (haccum : d.redAccum = true) :
    (redRow d r m).1 = (treeValue d r m).toList.map (.comb (.reg ((selIndex d.dst + m / 64) % 32) (m % 64)) d.redOp) := by
  unfold redRow
  rw [redLocs_register m hdst hspread]
  cases treeValue d r m <;> simp [haccum]

/-- A register lane that is set. -/
theorem VxRun.look_apply_reg (sat : Bool) (v : VxRun) (row l x : Nat) (fp : Bool) :
    SMap.look (VxRun.apply sat v (.set (.reg row l) x fp)).tile.vx.v (64 * row + l) 0 = w32 x := by
  rw [(VxRun.apply_set ..).1]
  exact SMap.look_put_same ..

/-- Settles O22: an element-wise row lane by lane, each at a place that no other lane writes, and a reduction as its one write. -/
theorem vectorRowResults : Obligations.VectorRowResults := by
  unfold Obligations.VectorRowResults
  refine ⟨?wide, ?scratchpad, ?others, ?reduced, ?combined⟩
  case wide =>
    intro d r u v m l x hop hdst hl hx hv
    obtain ⟨b, hb, hrun⟩ := foldl_range_one (f := VxRun.lane d r m) (g := fun v => v.old (vxLoc d m l)) hl
      (fun w k hk => by rw [VxRun.lane_old hdst, if_neg (Ne.symm hk)]) u
    rw [hv, applyRow_element r u m hop, hrun, VxRun.lane_old hdst, if_pos rfl, hb, hx]
    rfl
  case scratchpad =>
    intro d r u v m l x b hop hdst hl hx hv hb hnew
    obtain ⟨w, hw, hrun⟩ := foldl_range_one (f := VxRun.lane d r m) (g := VxRun.byteAt (spLane d m l + b)) hl
      (fun w k hk => VxRun.byteAt_lane_ne hdst r w m hk hb) u
    obtain ⟨hrd, hcls⟩ := Prod.mk.inj hw
    have hlane := VxRun.lane_rd hdst r w m (l := l) hb (by rw [hcls]; exact hnew _)
    rw [hrd] at hlane
    rw [hv, applyRow_element r u m hop, hx]
    exact (congrArg Prod.fst hrun).trans hlane
  case others =>
    intro d r u v m x hop hdst hv hx
    have hrow : SameButRegister ((selIndex d.dst + m) % 32) u v := by
      rw [hv, applyRow_element r u m hop]
      exact List.foldlRecOn _ _ ⟨fun _ _ => rfl, rfl, rfl, rfl⟩ (fun w hw l hl => hw.lane hdst r m (List.mem_range.1 hl))
    exact ⟨hrow.others x hx, hrow.m, hrow.sp, hrow.mx⟩
  case reduced =>
    intro d r u v m hop hdst hspread haccum hv
    obtain ⟨fp, hwrites⟩ := redRow_writes r m hdst hspread haccum
    rw [hv, vxRow_red r m hop, hwrites]
    exact VxRun.look_apply_reg ..
  case combined =>
    intro d r u v m k hop hdst hspread haccum hk hv
    rw [hv, hk, vxRow_red r m hop, redRow_combines r m hdst hspread haccum]
    cases treeValue d r m with
    | none => rfl
    | some t => exact VxRun.look_apply_reg d.vxSat u _ _ (redComb d.redOp (u.old (.reg ((selIndex d.dst + m / 64) % 32) (m % 64))) t) true

-- the lanes of VX_INT (R97, R136)

theorem laneOp_int {d : Desc} (a b c : Nat) (h : d.opcode = opVxInt) :
    laneOp d a b c = ((intOp d.variant (w32 a) (w32 b)).toNat, false, false, false) := by
  have hfp : opVxInt ≠ opVxFp := by decide
  rw [laneOp, h, if_neg hfp, if_pos rfl]

/-- Bit `k` of a shift to the right that keeps the sign. -/
theorem testBit_sshiftRight (a : W32) (n : Nat) {k : Nat} (hk : k < 32) : (a.sshiftRight n).toNat.testBit k = a.toNat.testBit (min (k + n) 31) := by
  rw [BitVec.testBit_toNat, BitVec.testBit_toNat, BitVec.getLsbD_sshiftRight, decide_eq_false (Nat.not_le.2 hk), Bool.not_false, Bool.true_and]
  split
  · next h => rw [Nat.min_eq_left (by omega), Nat.add_comm]
  · next h => rw [Nat.min_eq_right (by omega), BitVec.msb_eq_getLsbD_last]

/-- The variants of VX_INT end at 9 (R136). -/
theorem vectorOk_int {d : Desc} (h : d.opcode = opVxInt) (hv : 0x0A ≤ d.variant) : vectorOk d = false := by
  have hfp : opVxInt ≠ opVxFp := by decide
  have hnone : vxSources d.opcode d.variant = none := by
    rw [vxSources, h, if_neg hfp, if_pos rfl, if_neg (by omega), if_neg (by omega)]
  rw [vectorOk, hnone]

/-- A row of VX_INT finds no infinity and saturates nothing. -/
theorem elementRow_int_flags {d : Desc} (r : VxRun) (m : Nat) (h : d.opcode = opVxInt) : (elementRow d r m).2 = (false, false) := by
  rw [elementRow_eq]
  refine List.foldlRecOn (motive := fun x : List VWrite × Bool × Bool => x.2 = (false, false)) _ _ rfl (fun acc hacc l _ => ?_)
  unfold elementStep
  rw [laneResult, laneOp_int _ _ _ h, hacc]
  split
  · rfl
  · split
    · rfl
    · exact hacc

/-- Two runs have the same flags of R98. -/
structure VxRun.SameFlags (v w : VxRun) : Prop where
  nan : w.nan = v.nan
  inf : w.inf = v.inf
  sat : w.sat = v.sat

theorem VxRun.SameFlags.trans {u v w : VxRun} (h : u.SameFlags v) (k : v.SameFlags w) : u.SameFlags w :=
  ⟨k.nan.trans h.nan, k.inf.trans h.inf, k.sat.trans h.sat⟩

theorem VxRun.sameFlags_put (v : VxRun) (loc : VLoc) (x : Nat) : v.SameFlags (v.put loc x) := by
  cases loc <;> exact ⟨rfl, rfl, rfl⟩

/-- The writes of a VX_INT lane raise no flag. -/
theorem VxRun.sameFlags_lane_int {d : Desc} (r v : VxRun) (m l : Nat) (h : d.opcode = opVxInt) : v.SameFlags (VxRun.lane d r m v l) := by
  unfold VxRun.lane laneWrites
  rw [laneResult, laneOp_int _ _ _ h]
  split
  · exact v.sameFlags_put ..
  · split
    · exact v.sameFlags_put ..
    · exact ⟨rfl, rfl, rfl⟩

/-- Settles O23: the results variant by variant on words, the check at fetch, and the flags through the lanes of the row. -/
theorem integerLanesWrap : Obligations.IntegerLanesWrap := by
  unfold Obligations.IntegerLanesWrap
  refine ⟨?results, ?simple, ?flags⟩
  case results =>
    intro d a b c hop ha hb
    rw [laneOp_int a b c hop]
    have hwa := w32_toNat ha
    have hwb := w32_toNat hb
    refine ⟨?add, ?sub, ?mul, ?and, ?or, ?xor, ?left, ?right, ?signed, ?copy, (intOp d.variant (w32 a) (w32 b)).isLt⟩ <;> intro hv <;>
      simp only [hv, intOp]
    case add => rw [BitVec.toNat_add, hwa, hwb]
    case sub =>
      rw [BitVec.toNat_sub, hwa, hwb]
      congr 1
      omega
    case mul => rw [BitVec.toNat_mul, hwa, hwb]
    case and => exact fun k _ => by rw [BitVec.toNat_and, hwa, hwb, Nat.testBit_and]
    case or => exact fun k _ => by rw [BitVec.toNat_or, hwa, hwb, Nat.testBit_or]
    case xor =>
      intro k _
      rw [BitVec.toNat_xor, hwa, hwb]
      exact Nat.testBit_xor ..
    case left => rw [BitVec.toNat_shiftLeft, hwa, hwb, Nat.shiftLeft_eq]
    case right => rw [BitVec.toNat_ushiftRight, hwa, hwb, Nat.shiftRight_eq_div_pow]
    case signed => exact fun k hk => by rw [testBit_sshiftRight _ _ hk, hwa, hwb]
    case copy => exact hwa
  case simple =>
    intro d hop
    refine ⟨?_, vectorOk_int hop⟩
    have hother : opVxInt ≠ opVxFn ∧ opVxInt ≠ opVxRed := by decide
    rw [Desc.vxLat, hop, if_neg hother.1, if_neg hother.2]
  case flags =>
    intro d r u v m hop hv
    have hmem : d.opcode ∈ [opVxFp, opVxInt, opVxCvt, opVxFn] := by simp [hop]
    have hlanes : u.SameFlags v := by
      rw [hv, applyRow_element r u m hmem]
      exact List.foldlRecOn _ _ ⟨rfl, rfl, rfl⟩ (fun w hw l _ => hw.trans (VxRun.sameFlags_lane_int r w m l hop))
    exact ⟨vxRow_element r m hmem ▸ elementRow_int_flags r m hop, hlanes.nan, hlanes.inf, hlanes.sat⟩

end Sys2Proof.Machine
end

section
/-!
PROOF. The ports of the scratchpad (O25): banks and chunk columns, the claims that a tc grants by priority, and the descriptors that move on or stay.
-/

namespace Sys2Proof.Machine
open Sys2Proof

-- banks (R178, R184)

/-- The bank and the line of chunk `c` of line `L` (R178). -/
theorem bankOf_chunk {c : Nat} (L : Nat) (h : c < 16) : bankOf (16 * L + c) = ((c + L) % 16, L) := by
  unfold bankOf
  exact Prod.ext (by dsimp only; omega) (by dsimp only; omega)

/-- A chunk column of 16 lines takes every bank: the line that has the chunk in bank `b` is one of them. -/
theorem colBanks_complete (L : Nat) {c b : Nat} (hc : c < 16) (hb : b < 16) : ∃ x ∈ colBanks L c, x.1 = b := by
  obtain ⟨j, hj, hbank⟩ : ∃ j, j < 16 ∧ (c + (L + j)) % 16 = b := ⟨(b + 32 - c - L % 16) % 16, by omega, by omega⟩
  exact ⟨_, List.mem_map.2 ⟨j, List.mem_range.2 hj, bankOf_chunk _ hc⟩, hbank⟩

-- the claims of one priority (R181)

/-- A claim after those granted so far: granted where none of them meets it. -/
theorem grantOne_cons (acc : List (Claimant × Claim)) (c : Claimant × Claim) (l : List (Claimant × Claim)) :
    grantOne acc (c :: l) = grantOne (if acc.any (fun g => g.2.meets c.2) then acc else acc ++ [c]) l := rfl

theorem mem_grantOne_of_mem {acc l : List (Claimant × Claim)} {y : Claimant × Claim} (h : y ∈ acc) : y ∈ grantOne acc l := by
  induction l generalizing acc with
  | nil => exact h
  | cons c l ih =>
    rw [grantOne_cons]
    split
    · exact ih h
    · exact ih (List.mem_append_left _ h)

theorem mem_or_mem_of_mem_grantOne {acc l : List (Claimant × Claim)} {y : Claimant × Claim} (h : y ∈ grantOne acc l) : y ∈ acc ∨ y ∈ l := by
  induction l generalizing acc with
  | nil => exact .inl h
  | cons c l ih =>
    rw [grantOne_cons] at h
    rcases ih h with h | h
    · split at h
      · exact .inl h
      · exact (List.mem_append.1 h).imp_right fun hc => List.mem_cons.2 (.inl (List.mem_singleton.1 hc))
    · exact .inr (List.mem_cons_of_mem _ h)

/-- A claim enters only where it meets none of those before it. -/
theorem pairwise_grantOne {acc l : List (Claimant × Claim)} (h : acc.Pairwise (fun x y => x.2.meets y.2 = false)) :
    (grantOne acc l).Pairwise (fun x y => x.2.meets y.2 = false) := by
  induction l generalizing acc with
  | nil => exact h
  | cons c l ih =>
    rw [grantOne_cons]
    split
    · exact ih h
    · next hfree =>
      refine ih (List.pairwise_append.2 ⟨h, List.pairwise_singleton .., fun x hx y hy => ?_⟩)
      rw [List.mem_singleton.1 hy]
      exact Bool.eq_false_iff.2 fun hm => hfree (List.any_eq_true.2 ⟨x, hx, hm⟩)

/-- A claim that is refused meets one that is granted. -/
theorem exists_meets_of_not_mem_grantOne {acc l : List (Claimant × Claim)} {x : Claimant × Claim} (hx : x ∈ l) (h : x ∉ grantOne acc l) :
    ∃ y ∈ grantOne acc l, y.2.meets x.2 = true := by
  induction l generalizing acc with
  | nil => exact absurd hx List.not_mem_nil
  | cons c l ih =>
    rcases List.mem_cons.1 hx with rfl | hx
    · rw [grantOne_cons] at h ⊢
      split at h
      · next hmeets =>
        obtain ⟨y, hy, hm⟩ := List.any_eq_true.1 hmeets
        rw [if_pos hmeets]
        exact ⟨y, mem_grantOne_of_mem hy, hm⟩
      · exact absurd (mem_grantOne_of_mem (List.mem_append_right _ (List.mem_singleton_self x))) h
    · exact ih hx h

-- the priorities in turn (R181)

/-- The claims granted beside those `given` when the priorities below `n` have had their turn. -/
def grantRounds (given : List Claim) (l : List (Claimant × Claim)) (n : Nat) : List (Claimant × Claim) :=
  (List.range n).foldl (fun acc k => grantOne acc (l.filter (fun c => c.2.prio == k))) (given.map (fun c => (.command, c)))

theorem grants_eq_rounds (given : List Claim) (l : List (Claimant × Claim)) : grants given l = grantRounds given l 11 := rfl

theorem grantRounds_succ (given : List Claim) (l : List (Claimant × Claim)) (n : Nat) :
    grantRounds given l (n + 1) = grantOne (grantRounds given l n) (l.filter (fun c => c.2.prio == n)) := by
  simp only [grantRounds, List.range_succ, List.foldl_append, List.foldl_cons, List.foldl_nil]

/-- A claim granted in an earlier round stays granted. -/
theorem grantRounds_mono {given : List Claim} {l : List (Claimant × Claim)} {y : Claimant × Claim} {m n : Nat} (hmn : m ≤ n)
    (h : y ∈ grantRounds given l m) : y ∈ grantRounds given l n := by
  induction hmn with
  | refl => exact h
  | step _ ih => exact grantRounds_succ given l _ ▸ mem_grantOne_of_mem ih

/-- What has been granted is a command's claim, or one of the list whose priority has had its turn. -/
theorem grantRounds_source {given : List Claim} {l : List (Claimant × Claim)} {y : Claimant × Claim} {n : Nat} (h : y ∈ grantRounds given l n) :
    (y.1 = .command ∧ y.2 ∈ given) ∨ (y ∈ l ∧ y.2.prio < n) := by
  induction n with
  | zero =>
    obtain ⟨c, hc, rfl⟩ := List.mem_map.1 h
    exact .inl ⟨rfl, hc⟩
  | succ n ih =>
    rw [grantRounds_succ] at h
    rcases mem_or_mem_of_mem_grantOne h with h | h
    · exact (ih h).imp_right fun ⟨hl, hp⟩ => ⟨hl, Nat.lt_succ_of_lt hp⟩
    · obtain ⟨hl, hp⟩ := List.mem_filter.1 h
      exact .inr ⟨hl, Nat.lt_succ_of_le (Nat.le_of_eq (beq_iff_eq.1 hp))⟩

theorem grantRounds_pairwise {given : List Claim} (l : List (Claimant × Claim)) (n : Nat) (h : given.Pairwise (fun x y => x.meets y = false)) :
    (grantRounds given l n).Pairwise (fun x y => x.2.meets y.2 = false) := by
  induction n with
  | zero => exact List.pairwise_map.2 h
  | succ n ih => exact grantRounds_succ given l n ▸ pairwise_grantOne ih

/-- A refused claim met, in its own round, one granted by then: a command's, or one of no lower priority. -/
theorem grants_refused {given : List Claim} {l : List (Claimant × Claim)} {x : Claimant × Claim} (hx : x ∈ l) (hprio : x.2.prio ≤ 10)
    (h : x ∉ grants given l) : ∃ y ∈ grants given l, y.2.meets x.2 = true ∧ (y.1 = .command ∨ y.2.prio ≤ x.2.prio) := by
  rw [grants_eq_rounds] at h ⊢
  have hlast : x.2.prio + 1 ≤ 11 := Nat.succ_le_succ hprio
  have hround : x ∉ grantRounds given l (x.2.prio + 1) := fun hm => h (grantRounds_mono hlast hm)
  rw [grantRounds_succ] at hround
  have hown : x ∈ l.filter (fun c => c.2.prio == x.2.prio) := List.mem_filter.2 ⟨hx, beq_self_eq_true x.2.prio⟩
  obtain ⟨y, hy, hmeets⟩ := exists_meets_of_not_mem_grantOne hown hround
  rw [← grantRounds_succ] at hy
  exact ⟨y, grantRounds_mono hlast hy, hmeets, (grantRounds_source hy).imp And.left fun hl => Nat.le_of_lt_succ hl.2⟩

-- the parts that a descriptor's accesses have

/-- Every access of a list is a read, a write or a read of an old word: part 1, 2 or 4. -/
def KnownParts (l : List (Nat × Claim)) : Prop := ∀ a ∈ l, a.1 = 1 ∨ a.1 = 2 ∨ a.1 = 4

theorem KnownParts.nil : KnownParts [] := fun _ h => absurd h List.not_mem_nil

theorem KnownParts.append {l m : List (Nat × Claim)} (hl : KnownParts l) (hm : KnownParts m) : KnownParts (l ++ m) :=
  fun a ha => (List.mem_append.1 ha).elim (hl a) (hm a)

theorem KnownParts.ite {c : Prop} [Decidable c] {l m : List (Nat × Claim)} (hl : KnownParts l) (hm : KnownParts m) : KnownParts (if c then l else m) := by
  split
  · exact hl
  · exact hm

theorem KnownParts.read (c : Claim) : KnownParts [(1, c)] := fun _ h => .inl (List.mem_singleton.1 h ▸ rfl)
theorem KnownParts.write (c : Claim) : KnownParts [(2, c)] := fun _ h => .inr (.inl (List.mem_singleton.1 h ▸ rfl))
theorem KnownParts.old (c : Claim) : KnownParts [(4, c)] := fun _ h => .inr (.inr (List.mem_singleton.1 h ▸ rfl))

/-- A read, and a write, that happen in some tc only. -/
theorem KnownParts.readIf {p : Prop} [Decidable p] (c : Claim) : KnownParts (if p then [(1, c)] else []) := (read c).ite nil
theorem KnownParts.writeIf {p : Prop} [Decidable p] (c : Claim) : KnownParts (if p then [(2, c)] else []) := (write c).ite nil

theorem matrixAccesses_parts (d : Desc) (fmt k : Nat) : KnownParts (matrixAccesses d fmt k) :=
  .ite (.readIf _) (.ite (.append (.readIf _) (.writeIf _)) (.ite (.writeIf _) (.append (.readIf _) (.writeIf _))))

theorem vectorAccesses_parts (d : Desc) (k : Nat) : KnownParts (vectorAccesses d k) :=
  .append (.append (.readIf _) (.ite (.old _) .nil)) (.writeIf _)

theorem spAccesses_parts (d : Desc) (k : Nat) : KnownParts (spAccesses d k) :=
  .ite (.writeIf _) (.ite (.append (.readIf _) (.writeIf _)) (.ite (.append (.readIf _) (.writeIf _)) (.append (.readIf _) (.writeIf _))))

theorem ctAccesses_parts (d : Desc) (k : Nat) : KnownParts (ctAccesses d k) :=
  .ite (.append (.append (.readIf _) (.readIf _)) (.writeIf _)) (.readIf _)

theorem WinEntry.accesses_parts (e : WinEntry) : KnownParts e.accesses :=
  .ite .nil (.ite (matrixAccesses_parts _ _ _) (.ite (vectorAccesses_parts _ _) (.ite (spAccesses_parts _ _)
    (.ite (.readIf _) (.ite (.ite (.readIf _) (.ite (.readIf _) (.readIf _))) (ctAccesses_parts _ _))))))

-- what an entry has been granted (R182)

theorem mem_grantedPart {g : List (Claimant × Claim)} {part i : Nat} : i ∈ grantedPart g part ↔ ∃ c, (Claimant.entry i part, c) ∈ g := by
  rw [grantedPart, List.mem_filterMap]
  constructor
  · rintro ⟨⟨who, c⟩, hc, hi⟩
    cases who with
    | entry j a =>
      obtain ⟨rfl, rfl⟩ : a = part ∧ j = i := by simpa using hi
      exact ⟨c, hc⟩
    | _ => exact absurd hi nofun
  · rintro ⟨c, hc⟩
    exact ⟨_, hc, if_pos rfl⟩

theorem testBit_ofBool_sum (a b c : Bool) : (ofBool a + 2 * ofBool b + 4 * ofBool c).testBit 0 = a
    ∧ (ofBool a + 2 * ofBool b + 4 * ofBool c).testBit 1 = b ∧ (ofBool a + 2 * ofBool b + 4 * ofBool c).testBit 2 = c := by
  revert a b c; decide

/-- The bit that a part has among an entry's granted accesses. -/
theorem grantedBits_testBit {g : List (Claimant × Claim)} {i part : Nat} (h : part = 1 ∨ part = 2 ∨ part = 4) :
    (grantedBits g i).testBit (part / 2) = true ↔ ∃ c, (Claimant.entry i part, c) ∈ g := by
  obtain ⟨h1, h2, h4⟩ := testBit_ofBool_sum ((grantedPart g 1).contains i) ((grantedPart g 2).contains i) ((grantedPart g 4).contains i)
  rw [← mem_grantedPart, ← List.contains_iff_mem]
  rcases h with rfl | rfl | rfl
  · exact Bool.eq_iff_iff.1 h1
  · exact Bool.eq_iff_iff.1 h2
  · exact Bool.eq_iff_iff.1 h4

/-- Every access of an entry's tc has been granted, before or in this tc. -/
theorem accesses_all_granted_iff {e : WinEntry} {g : List (Claimant × Claim)} {i : Nat} :
    e.accesses.all (fun a => (e.part ||| grantedBits g i).testBit (a.1 / 2)) = true
      ↔ ∀ a ∈ e.accesses, e.part.testBit (a.1 / 2) = true ∨ ∃ c, (Claimant.entry i a.1, c) ∈ g := by
  rw [List.all_eq_true]
  exact forall₂_congr fun a ha => by rw [Nat.testBit_or, Bool.or_eq_true, grantedBits_testBit (e.accesses_parts a ha)]

/-- A started descriptor that works in a tc moves on, or keeps the parts that it has been granted. -/
theorem advanceEntry_running {s : State} {p i : Nat} {e : WinEntry} {w : List WinEntry} {g : List (Claimant × Claim)} (hw : w[i]? = some e)
    (hphase : e.phase = .running) (hpos : e.pos < e.span) (hop : e.desc.opcode ≠ opMxLoad) : advanceEntry s p false w g i =
      if e.accesses.all (fun a => (e.part ||| grantedBits g i).testBit (a.1 / 2)) then setEntry s p i (fun x => { x with pos := x.pos + 1, part := 0 })
      else setEntry s p i (fun x => { x with part := e.part ||| grantedBits g i }) := by
  have hworks : worksNow false e = true := by simp [worksNow, hphase, hpos]
  simp [advanceEntry, onEntry, hw, hworks, hop]

theorem setEntry_window {s : State} {p i : Nat} {e : WinEntry} (f : WinEntry → WinEntry) (h : (s.tile p).seq.window[i]? = some e) :
    ((setEntry s p i f).tile p).seq.window[i]? = some (f e) := by
  rw [setEntry_tile_same]
  exact Tile.modEntry_window f h

/-- Settles O25: banks by arithmetic, grants round by round of the priorities, and the entry that moves on exactly with its last access. -/
theorem portClaimsAreGranted : Obligations.PortClaimsAreGranted := by
  unfold Obligations.PortClaimsAreGranted
  refine ⟨fun c L => bankOf_chunk L, fun L c b => colBanks_complete L, ?grants, ?advance⟩
  case grants =>
    intro given l hgiven
    refine ⟨grantRounds_pairwise l 11 hgiven, fun x hx => ?_, fun x => grants_refused⟩
    exact (grantRounds_source hx).elim .inr fun hl => .inl hl.1
  case advance =>
    intro s p i e w g t hw hwin hphase hpos hop ht
    rw [advanceEntry_running hw hphase hpos hop] at ht
    refine ⟨fun hall => ?_, fun ⟨a, ha, hpart, hnone⟩ => ⟨e.part ||| grantedBits g i, ?_⟩⟩
    · rw [ht, if_pos (accesses_all_granted_iff.2 hall)]
      exact setEntry_window _ hwin
    · have hstays : ¬ e.accesses.all (fun a => (e.part ||| grantedBits g i).testBit (a.1 / 2)) = true := fun hall =>
        (accesses_all_granted_iff.1 hall a ha).elim (fun h => Bool.false_ne_true (hpart.symm.trans h)) fun ⟨c, hc⟩ => hnone c hc
      rw [ht, if_neg hstays]
      exact setEntry_window _ hwin

end Sys2Proof.Machine
end

section
/-!
PROOF. What reset leaves (O5): registers at their Reset values, and every part of the module at its own.
-/

namespace Sys2Proof.Machine
open Sys2Proof

-- the state after reset (R193, R254, R335)

/-- After reset a field of BAR0 holds its Reset value (R9). -/
theorem State.rd_reset (f : Fld) : State.reset.rd f = bits (w64 (rowVal resetsState f.off)) f.hi f.lo := rfl

/-- Settles O5: tiles, pavilions and cores stand at their own reset values, and no Reset value of BAR0 sets a port's state or starts Sundial. The model
has a function `resetState`, whence the longer name. -/
theorem resetStateHolds : Obligations.ResetState := by
  unfold Obligations.ResetState
  have htile : Tile.reset.rd TL_SP_WINDOW_LO_LINE = 0 ∧ Tile.reset.rd TL_SP_WINDOW_HI_LINE = 0xFFF := by decide
  have hlodge : Lodge.reset.rd LG_CTRL_RUN = 0 := by decide
  have hport : ∀ p, p < 16 → State.reset.rd (FB_STATUS_STATE p) = 0 := by simp only [State.rd_reset]; decide
  have hsundial : State.reset.rd SD_STATUS_RUNNING = 0 := by rw [State.rd_reset]; decide
  exact ⟨fun p a => ⟨rfl, rfl⟩, fun p => ⟨rfl, htile.1, htile.2, fun n => rfl⟩, rfl, fun q => rfl, fun k => if_pos hlodge, hport, hsundial, rfl⟩

end Sys2Proof.Machine
end

section
/-!
PROOF. The upkeep of a tile's memories (O39): clears and their zero fills, scrubs, and the close of a receive channel.
-/

namespace Sys2Proof.Machine
open Sys2Proof

-- bytes written to a Terrace (R195)

/-- A byte written to a Terrace, and every other byte of it. -/
theorem Tile.trPut_rd (t : Tile) (a x : Nat) (bs : List Byte) : (t.trPut a bs).tr.rd x =
    if a ≤ x ∧ x < a + bs.length then bs.getD (x - a) 0 else t.tr.rd x := by
  induction bs generalizing t a with
  | nil => exact (if_neg (by simp)).symm
  | cons b bs ih =>
    rw [Tile.trPut, ih, Mem.rd_wr]
    simp only [List.length_cons]
    by_cases hx : x = a
    · subst hx
      rw [if_neg (by omega), if_pos rfl, if_pos (by omega), Nat.sub_self, List.getD_cons_zero]
    · by_cases hin : a + 1 ≤ x ∧ x < a + 1 + bs.length
      · rw [if_pos hin, if_pos (by omega), show x - a = x - (a + 1) + 1 by omega, List.getD_cons_succ]
      · rw [if_neg hin, if_neg hx, if_neg (by omega)]

/-- A write of a Terrace changes its bytes and the note of the tc's old ones. -/
theorem Tile.trPut_eq (t : Tile) (a : Nat) (bs : List Byte) : ∃ m l, t.trPut a bs = { t with tr := m, trNew := l } := by
  induction bs generalizing t a with
  | nil => exact ⟨t.tr, t.trNew, rfl⟩
  | cons b bs ih =>
    obtain ⟨m, l, h⟩ := ih { t with tr := Mem.wr t.tr a b, trNew := SMap.put t.trNew a (SMap.look t.trNew a (Mem.rd t.tr a)) } (a + 1)
    exact ⟨m, l, h⟩

-- clears (R193)

/-- Every byte of a zero fill is zero, as is the default beyond it. -/
theorem getD_zeros (n k : Nat) : (List.replicate n (0 : Byte)).getD k 0 = 0 := by
  rw [List.getD, List.getElem?_replicate]
  split
  · rfl
  · rfl

/-- Zeros put in a scratchpad by a writer of a class, and in a Terrace. -/
theorem Tile.spPut_zeros_rd (t : Tile) (cls a n x : Nat) : (t.spPut cls a (List.replicate n 0)).sp.rd x =
    if a ≤ x ∧ x < a + n ∧ (SMap.look t.spNew x (0, 0)).2 ≤ cls then 0 else t.sp.rd x := by
  rw [Tile.spPut_rd, List.length_replicate, getD_zeros]

theorem Tile.trPut_zeros_rd (t : Tile) (a n x : Nat) : (t.trPut a (List.replicate n 0)).tr.rd x = if a ≤ x ∧ x < a + n then 0 else t.tr.rd x := by
  rw [Tile.trPut_rd, List.length_replicate, getD_zeros]

/-- A clear of an idle tile begins; a tile that is not idle keeps its memory. -/
theorem scratchpadClear_next {s : State} {p : Nat} (hp : p < 272) :
    exec (.scratchpadClear p) s = .next (if (s.tile p).seq.run = .idle then s.setTile p { s.tile p with spClear := some 0 } else s) := if_pos hp

theorem terraceClear_next {s : State} {p : Nat} (hp : p < 272) :
    exec (.terraceClear p) s = .next (if (s.tile p).seq.run = .idle then s.setTile p { s.tile p with trClear := some 0 } else s) := if_pos hp

/-- A line of a fill that port W has granted, and one that it has not. -/
theorem fillStep_line {t : Tile} {n : Nat} (hsp : t.spClear = some (n + 1)) (htr : t.trClear = none) : fillStep true t =
    { t.spPut bySpUnit (512 * n) (List.replicate 512 0) with spClear := if n = 4095 then none else some (n + 2) } := by
  obtain ⟨m, l, hput⟩ := t.spPut_eq bySpUnit (512 * n) (List.replicate 512 0)
  have htr' : (t.spPut bySpUnit (512 * n) (List.replicate 512 0)).trClear = none := by rw [hput]; exact htr
  simp only [fillStep, hsp, if_true, htr']

theorem fillStep_refused {t : Tile} {n : Nat} (hsp : t.spClear = some (n + 1)) (htr : t.trClear = none) : fillStep false t = t := by
  simp only [fillStep, hsp, htr, Bool.false_eq_true, if_false]

/-- A beat of a fill, which needs no port of the scratchpad. -/
theorem fillStep_beat {t : Tile} {n : Nat} (b : Bool) (hsp : t.spClear = none) (htr : t.trClear = some (n + 1)) : fillStep b t =
    { t.trPut (512 * n) (List.replicate 512 0) with trClear := if n = 32767 then none else some (n + 2) } := by
  simp only [fillStep, hsp, htr]

-- scrubbers (R180, R188, R200)

theorem scratchpadScrub_next {s : State} {p : Nat} (chk : Check) (hp : p < 272) : exec (.scratchpadScrub p chk) s = .next (scrubSp s p chk) := if_pos hp
theorem terraceScrub_next {s : State} {p : Nat} (chk : Check × Check) (hp : p < 272) :
    exec (.terraceScrub p chk) s = .next (scrubTr s p chk.1 chk.2) := if_pos hp

/-- The scratchpad scrubber reads its next line, which is clean, through port B. -/
theorem scrubSp_clean {s : State} {p : Nat} {read : Claim} (hret : s.retired p = false) (hread : read = .row 1 6 (512 * (s.tile p).spScrub) 512)
    (hgap : (s.tile p).spScrubGap = 0) (hok : claimOk s p read = true) : scrubSp s p .clean =
      (siteClean s siteSp p (64 * (s.tile p).spScrub) (64 * (s.tile p).spScrub + 64)).setTile p
        { s.tile p with spScrub := ((s.tile p).spScrub + 1) % 4096, spScrubGap := 4096, claims := (s.tile p).claims ++ [read] } := by
  subst hread
  simp only [scrubSp, hret, hgap, hok, chkIn_clean, noteSp]
  simp [takeClaim, State.modTile, siteClean_tile]

/-- The scratchpad scrubber does nothing before its 4,096 tc have passed, and where port B is not free for it. -/
theorem scrubSp_waits {s : State} {p : Nat} (chk : Check)
    (h : (s.tile p).spScrubGap ≠ 0 ∨ claimOk s p (.row 1 6 (512 * (s.tile p).spScrub) 512) = false) : scrubSp s p chk = s :=
  if_pos (.inr (h.imp_right fun hok => by simp [hok]))

/-- No load of the matrix engine reads a beat in this tc. -/
theorem loadReads_eq_false {t : Tile} (h : ∀ e ∈ t.seq.window, e.desc.opcode = opMxLoad → e.phase = .running → e.held ≤ e.pos) : loadReads t = false := by
  refine List.any_eq_false.2 fun e he hreads => ?_
  simp only [Bool.and_eq_true, beq_iff_eq, decide_eq_true_eq] at hreads
  obtain ⟨⟨hop, hphase⟩, hpos⟩ := hreads
  exact absurd hpos (Nat.not_lt.2 (h e he hop hphase))

/-- The Terrace scrubber reads its next beat, which is clean. -/
theorem scrubTr_clean {s : State} {p : Nat} (src : Check) (hret : s.retired p = false) (hint : (s.tile p).rd TL_TR_CTRL_SCRUB_INTERVAL ≠ 0)
    (hgap : (s.tile p).trScrubGap = 0) (hload : loadReads (s.tile p) = false) : scrubTr s p .clean src =
      (siteClean s siteTerrace p (s.tile p).trScrub ((s.tile p).trScrub + 1)).setTile p
        { s.tile p with trScrub := ((s.tile p).trScrub + 1) % 32768, trScrubGap := (s.tile p).rd TL_TR_CTRL_SCRUB_INTERVAL } := by
  simp only [scrubTr, hret, hgap, hload, chkIn_clean, noteTr]
  simp [hint, State.modTile, siteClean_tile]

/-- The Terrace scrubber does nothing with an interval of zero, and before the interval has passed. -/
theorem scrubTr_waits {s : State} {p : Nat} (chk src : Check) (h : (s.tile p).rd TL_TR_CTRL_SCRUB_INTERVAL = 0 ∨ (s.tile p).trScrubGap ≠ 0) :
    scrubTr s p chk src = s :=
  if_pos (.inr (h.imp_right .inl))

-- the close of a receive channel (R207, R217)

/-- A channel of this die that closes: its STATE word, and the word to its sender. -/
theorem channelClose_local {s : State} {p n src chan tl : Nat} (hp : p < 272) (hn : n < 32) (hopen : (s.tile p).rd (TW_RECV_STATE_OPEN n) = 1)
    (hlocal : (s.tile p).rd (TW_RECV_CFG_REMOTE n) = 0)
    (hsrc : src = 16 * (s.tile p).rd (TW_RECV_CFG_SRC_I n) + (s.tile p).rd (TW_RECV_CFG_SRC_J n)) (hchan : chan = (s.tile p).rd (TW_RECV_CFG_SRC_SCHAN n))
    (htl : s.logical p = some tl) : exec (.channelClose p n) s =
      .next (sendCtl (s.setTile p (((s.tile p).keepCh (TW_RECV_STATE_OFF n)).wr (TW_RECV_STATE_OPEN n) 0)) (.revoke src chan) (hops tl src)) := by
  subst hsrc hchan
  have hremote : ¬ (s.tile p).rd (TW_RECV_CFG_REMOTE n) = 1 := by rw [hlocal]; decide
  show execChannelClose p n s = _
  rw [execChannelClose, if_pos hp, if_pos hn, closeRecv, if_pos hopen, if_neg hremote, htl]

/-- Settles O39: clears and fills through the bytes that they write, scrubs as one change of the tile, the close through its STATE word. -/
theorem tileMemoryUpkeep : Obligations.TileMemoryUpkeep := by
  unfold Obligations.TileMemoryUpkeep
  refine ⟨?clear, ?line, ?beat, ?scrubSp, ?scrubTr, ?close⟩
  case clear =>
    intro s p hp
    rw [scratchpadClear_next hp, terraceClear_next hp]
    exact ⟨fun hidle => by simp only [if_pos hidle, and_self], fun hruns => by simp only [if_neg hruns, and_self]⟩
  case line =>
    intro t n hsp htr
    have hbytes := t.spPut_zeros_rd bySpUnit (512 * n) 512
    obtain ⟨m, l, hput⟩ := t.spPut_eq bySpUnit (512 * n) (List.replicate 512 0)
    rw [fillStep_line hsp htr, fillStep_refused hsp htr]
    rw [hput] at hbytes ⊢
    exact ⟨hbytes, rfl, rfl, rfl, ⟨rfl, rfl, rfl, rfl, rfl⟩⟩
  case beat =>
    intro t n b hsp htr
    have hbytes := t.trPut_zeros_rd (512 * n) 512
    obtain ⟨m, l, hput⟩ := t.trPut_eq (512 * n) (List.replicate 512 0)
    rw [fillStep_beat b hsp htr]
    rw [hput] at hbytes ⊢
    exact ⟨hbytes, rfl, rfl, rfl, rfl, rfl⟩
  case scrubSp =>
    intro s p read hp hret hread
    refine ⟨fun hgap hok => ?_, fun chk h => ?_⟩
    · rw [scratchpadScrub_next _ hp, scrubSp_clean hret hread hgap hok]
    · rw [scratchpadScrub_next _ hp, scrubSp_waits chk (hread ▸ h)]
  case scrubTr =>
    intro s p hp hret
    refine ⟨fun hint hgap hloads src => ?_, fun chk src h => ?_⟩
    · rw [terraceScrub_next _ hp, scrubTr_clean src hret hint hgap (loadReads_eq_false hloads)]
    · rw [terraceScrub_next _ hp, scrubTr_waits chk src h]
  case close =>
    intro s p n src chan tl hp hn hopen hlocal hsrc hchan htl
    refine ⟨_, channelClose_local hp hn hopen hlocal hsrc hchan htl, ?_⟩
    simp only [sendCtl, State.tile_die, State.tile_setTile_same]
    have hword : (TW_RECV_STATE_OPEN n).hi < 64 ∧ (TW_RECV_STATE_OPEN n).hi < (TW_RECV_STATE_GEN n).lo := by
      simp only [TW_RECV_STATE_OPEN, TW_RECV_STATE_GEN]; decide
    refine ⟨?_, ?_, rfl, rfl, ⟨rfl, rfl, rfl, rfl, rfl⟩, rfl, fun y hy => State.tile_setTile_ne _ _ hy, ⟨rfl, rfl, rfl, rfl, rfl⟩⟩
    · exact Tile.rd_wr_same _ (TW_RECV_STATE_OPEN n) 0 hword.1 (Nat.le_refl 48)
    · exact Tile.rd_wr_ne _ 0 hword.1 (Nat.le_refl 48) (.inr hword.2)

end Sys2Proof.Machine
end

section
/-!
PROOF. Transfers for a closed receive channel or another generation (O35): their flits leave the mesh without effect, one drop is counted, and the
transfer is gone.
-/

namespace Sys2Proof.Machine
open Sys2Proof

-- the list of transfers

/-- A change of a transfer that keeps its number is gone with the transfer. -/
theorem dropTransfer_modXfer (s : State) {id : Nat} {f : Transfer → Transfer} (hf : ∀ y, (f y).id = y.id) :
    dropTransfer (s.modXfer id f) id = dropTransfer s id := by
  have hlist (l : List Transfer) :
      (l.map (fun y => if y.id = id then f y else y)).filter (fun y => y.id != id) = l.filter (fun y => y.id != id) := by
    induction l with
    | nil => rfl
    | cons y l ih => by_cases hy : y.id = id <;> simp [hy, hf, ih]
  simp only [dropTransfer, State.modXfer, hlist]

/-- The changed transfer is found under its number. -/
theorem State.xfer_modXfer (s : State) {id : Nat} {f : Transfer → Transfer} (hf : ∀ y, (f y).id = y.id) :
    (s.modXfer id f).xfer id = (s.xfer id).map f := by
  have hlist (l : List Transfer) :
      (l.map (fun y => if y.id = id then f y else y)).find? (fun y => y.id == id) = (l.find? (fun y => y.id == id)).map f := by
    induction l with
    | nil => rfl
    | cons y l ih => by_cases hy : y.id = id <;> simp [hy, hf, ih]
  exact hlist s.die.transfers

-- a landing whose time has come (R150, R181)

/-- A transfer all of whose flits are at their tile lands. -/
theorem landsNow_of_atItsTile {s : State} {x : Transfer} {p : Nat} (h : AtItsTile s x p) : landsNow s x = true := by
  obtain ⟨rfl, -, hleg, hleft, hair, -, harrived, hport⟩ := h
  have hall : x.air.all (fun f => flitLands s x f && (landCount f == 0 || x.stale || f.car == 1 ||
      claimOk s (s.phys x.dstTile) (landClaim (s.tile (s.phys x.dstTile)) x f))) = true := by
    refine List.all_eq_true.2 fun f hf => ?_
    have hlands := harrived f hf
    by_cases hcar : f.car = 1
    · rw [if_pos hcar] at hlands
      simp [flitLands, hleg, hcar, hlands]
    · rw [if_neg hcar] at hlands
      by_cases hcount : landCount f = 0
      · simp [flitLands, hleg, hcar, hlands, hcount]
      · simp [flitLands, hleg, hcar, hlands, hport f hf hcar hcount]
  simp [landsNow, hleg, hleft, hair, hall]

/-- Then its command takes every flit and finishes it. -/
theorem landing_of_atItsTile {s : State} {i p : Nat} {x : Transfer} {ops : List Nat} (hx : s.die.transfers[i]? = some x) (h : AtItsTile s x p)
    (hop : ops.contains x.op = true) : landing s i ops = finishIfDone (x.air.foldl (landByCommand p x) s) p x.id := by
  simp only [landing, hx, hop, landsNow_of_atItsTile h, Bool.and_self, if_true, ← h.place]

-- flits at a channel that does not take them (R218)

/-- A channel with OPEN 0 or another GEN does not take the transfer. -/
theorem recvOpen_eq_false {t : Tile} {x : Transfer}
    (h : t.chSeen (TW_RECV_STATE_OPEN x.rchan) ≠ 1 ∨ t.chSeen (TW_RECV_STATE_GEN x.rchan) ≠ x.gen) :
    recvOpen t x = false := by
  obtain h | h := h
  · simp [recvOpen, h]
  · simp [recvOpen, h]

/-- Flits of which one has left the mesh: a pad record and a flit of payload may stand at one place. -/
def flitsWithout (f : MeshFlit) (air : List MeshFlit) : List MeshFlit := air.filter (fun g => !(g.off == f.off && g.pad == f.pad))

theorem mem_flitsWithout {f g : MeshFlit} {air : List MeshFlit} (h : g ∈ flitsWithout f air) : g ∈ air ∧ g ≠ f := by
  obtain ⟨hair, hother⟩ := List.mem_filter.1 h
  exact ⟨hair, by rintro rfl; simp at hother⟩

/-- A transfer of which one flit has left the mesh. -/
def Transfer.withoutFlit (f : MeshFlit) (x : Transfer) : Transfer := { x with air := flitsWithout f x.air }

theorem Transfer.withoutFlit_id (f : MeshFlit) (x : Transfer) : (x.withoutFlit f).id = x.id := rfl

/-- A flit of such a transfer has no effect but to leave the mesh. -/
theorem takeFlit_closed {s : State} {p : Nat} {x : Transfer} (f : MeshFlit) (hop : x.op ≠ 3) (hclosed : recvOpen (s.tile p) x = false) :
    takeFlit s p x f = s.modXfer x.id (Transfer.withoutFlit f) := by
  have hland : landFlit s p x f = s := by simp [landFlit, hop, hclosed]
  rw [takeFlit, hland]
  rfl

/-- What flits that are dropped at tile `p` change of `s`: beside transfer `x`, of which `air` is left in the mesh, the tile's claims. -/
structure FlitsDropped (s u : State) (p : Nat) (x : Transfer) (air : List MeshFlit) : Prop where
  frame : ∀ t, (dropTransfer u x.id).setTile p t = (dropTransfer s x.id).setTile p t
  tile : ∃ cs, u.tile p = { s.tile p with claims := cs }
  left : u.xfer x.id = some { x with air := air }

theorem FlitsDropped.refl {s : State} (p : Nat) {x : Transfer} (h : s.xfer x.id = some x) : FlitsDropped s s p x x.air :=
  ⟨fun _ => rfl, ⟨(s.tile p).claims, rfl⟩, h⟩

/-- A claim for a dropped flit. -/
theorem FlitsDropped.takeClaim {s u : State} {p : Nat} {x : Transfer} {air : List MeshFlit} (h : FlitsDropped s u p x air) (c : Claim) :
    FlitsDropped s (takeClaim u p c) p x air := by
  obtain ⟨hframe, ⟨cs, htile⟩, hleft⟩ := h
  refine ⟨fun t => ?_, ⟨cs ++ [c], ?_⟩, hleft⟩
  · exact (State.setTile_setTile (dropTransfer u x.id) p _ t).trans (hframe t)
  · rw [Machine.takeClaim, State.tile_modTile_same, htile]

/-- A dropped flit leaves the mesh. -/
theorem FlitsDropped.takeFlit {s u : State} {p : Nat} {x : Transfer} {air : List MeshFlit} (h : FlitsDropped s u p x air) (f : MeshFlit)
    (hop : x.op ≠ 3) (hclosed : recvOpen (s.tile p) x = false) :
    FlitsDropped s (takeFlit u p x f) p x (flitsWithout f air) := by
  obtain ⟨hframe, ⟨cs, htile⟩, hleft⟩ := h
  have hclosed' : recvOpen (u.tile p) x = false := by rw [htile]; exact hclosed
  rw [takeFlit_closed f hop hclosed']
  refine ⟨fun t => ?_, ⟨cs, htile⟩, ?_⟩
  · rw [dropTransfer_modXfer u (Transfer.withoutFlit_id f), hframe]
  · rw [State.xfer_modXfer u (Transfer.withoutFlit_id f), hleft]
    rfl

/-- A dropped flit lands by a command. -/
theorem FlitsDropped.landByCommand {s u : State} {p : Nat} {x : Transfer} {air : List MeshFlit} (h : FlitsDropped s u p x air) (f : MeshFlit)
    (hop : x.op ≠ 3) (hclosed : recvOpen (s.tile p) x = false) :
    FlitsDropped s (landByCommand p x u f) p x (flitsWithout f air) := by
  rw [Machine.landByCommand]
  refine FlitsDropped.takeFlit ?_ f hop hclosed
  split
  · exact h
  · exact h.takeClaim _

/-- After commands for all its flits nothing of the transfer is in the mesh. -/
theorem FlitsDropped.foldl_landByCommand {s u : State} {p : Nat} {x : Transfer} {air : List MeshFlit} (h : FlitsDropped s u p x air)
    (hop : x.op ≠ 3) (hclosed : recvOpen (s.tile p) x = false) (l : List MeshFlit) (hl : ∀ g ∈ air, g ∈ l) :
    FlitsDropped s (l.foldl (Machine.landByCommand p x) u) p x [] := by
  induction l generalizing u air with
  | nil =>
    obtain rfl : air = [] := List.eq_nil_iff_forall_not_mem.2 fun g hg => List.not_mem_nil (hl g hg)
    exact h
  | cons f l ih =>
    refine ih (h.landByCommand f hop hclosed) fun g hg => ?_
    obtain ⟨hair, hother⟩ := mem_flitsWithout hg
    exact (List.mem_cons.1 (hl g hair)).resolve_left hother

-- the drop and its counts (R218, R223)

/-- A tile whose receive channel `n` has counted a drop with `bytes` bytes. -/
def Tile.countDrop (t : Tile) (n bytes : Nat) : Tile := (t.inc (TW_RECV_CNT0_DROPPED_MSGS n) 1).inc (TW_RECV_CNT2_DROPPED_BYTES n) bytes

theorem dropLanding_eq (s : State) (p : Nat) (x : Transfer) : dropLanding s p x = s.setTile p ((s.tile p).countDrop x.rchan (x.n - x.got)) := rfl

theorem Tile.countDrop_regW_ne (t : Tile) {n off : Nat} (bytes : Nat) (h0 : off ≠ TW_RECV_CNT0_OFF n) (h2 : off ≠ TW_RECV_CNT2_OFF n) :
    (t.countDrop n bytes).regW off = t.regW off :=
  (Tile.regW_wr_ne _ _ h2).trans (Tile.regW_wr_ne t _ h0)

/-- The two count words of a receive channel stand at different offsets. -/
theorem recvCnt0_ne_recvCnt2 (n : Nat) : TW_RECV_CNT0_OFF n ≠ TW_RECV_CNT2_OFF n := by simp [TW_RECV_CNT0_OFF, TW_RECV_CNT2_OFF]

theorem Tile.countDrop_droppedMsgs (t : Tile) (n bytes : Nat) :
    (t.countDrop n bytes).rd (TW_RECV_CNT0_DROPPED_MSGS n) = (t.rd (TW_RECV_CNT0_DROPPED_MSGS n) + 1) % 2 ^ 32 :=
  (Tile.rd_wr_off _ _ (recvCnt0_ne_recvCnt2 n)).trans (Tile.rd_wr_same t (TW_RECV_CNT0_DROPPED_MSGS n) _ (Nat.lt_succ_self 63)
    (by simp [TW_RECV_CNT0_DROPPED_MSGS]))

theorem Tile.countDrop_msgs (t : Tile) (n bytes : Nat) : (t.countDrop n bytes).rd (TW_RECV_CNT0_MSGS n) = t.rd (TW_RECV_CNT0_MSGS n) :=
  (Tile.rd_wr_off _ _ (recvCnt0_ne_recvCnt2 n)).trans
    (Tile.rd_wr_ne t (f := TW_RECV_CNT0_DROPPED_MSGS n) _ (Nat.lt_succ_self 63) (by simp [TW_RECV_CNT0_DROPPED_MSGS]) (.inl (Nat.lt_succ_self 31)))

theorem Tile.countDrop_droppedBytes (t : Tile) (n bytes : Nat) :
    (t.countDrop n bytes).rd (TW_RECV_CNT2_DROPPED_BYTES n) = (t.rd (TW_RECV_CNT2_DROPPED_BYTES n) + bytes) % 2 ^ 48 := by
  have hkeep : (t.inc (TW_RECV_CNT0_DROPPED_MSGS n) 1).rd (TW_RECV_CNT2_DROPPED_BYTES n) = t.rd (TW_RECV_CNT2_DROPPED_BYTES n) :=
    Tile.rd_wr_off t _ (recvCnt0_ne_recvCnt2 n).symm
  rw [Tile.countDrop, Tile.inc, Tile.rd_wr_same _ (TW_RECV_CNT2_DROPPED_BYTES n) _ (by simp [TW_RECV_CNT2_DROPPED_BYTES]) (Nat.zero_le _), hkeep]
  rfl

/-- A transfer that its channel does not take ends with a drop, a GET request too. -/
theorem finishTransfer_closed {s : State} {p : Nat} {x : Transfer} (hstale : x.stale = false) (hop : x.op ≠ 3)
    (hclosed : recvOpen (s.tile p) x = false) : finishTransfer s p x = dropLanding (dropTransfer s x.id) p x := by
  have hclosed' : recvOpen ((dropTransfer s x.id).tile p) x = false := hclosed
  by_cases hget : x.op = 2
  · simp [finishTransfer, hstale, hget, requestDone, hclosed']
  · simp [finishTransfer, hstale, hget, hop, landDone, hclosed']

/-- The command of such a transfer drops it: the transfer is gone, and its tile has counted the drop and holds the claims of the flits. -/
theorem landing_closed {s : State} {i p : Nat} {x : Transfer} {ops : List Nat} (hx : s.die.transfers[i]? = some x) (hstale : x.stale = false)
    (h : AtItsTile s x p) (hops : ops.contains x.op = true) (hop : x.op ≠ 3) (hclosed : recvOpen (s.tile p) x = false) :
    ∃ cs, landing s i ops = (dropTransfer s x.id).setTile p (Tile.countDrop { s.tile p with claims := cs } x.rchan (x.n - x.got)) := by
  obtain ⟨hframe, ⟨cs, htile⟩, hleft⟩ := (FlitsDropped.refl p h.named).foldl_landByCommand hop hclosed x.air fun _ hg => hg
  rw [landing_of_atItsTile hx h hops]
  generalize x.air.foldl (landByCommand p x) s = u at hframe htile hleft
  have hclosed' : recvOpen (u.tile p) { x with air := [] } = false := by rw [htile]; exact hclosed
  refine ⟨cs, ?_⟩
  calc finishIfDone u p x.id
      = finishTransfer u p { x with air := [] } := by simp [finishIfDone, hleft, h.injected]
    _ = dropLanding (dropTransfer u x.id) p { x with air := [] } := finishTransfer_closed hstale hop hclosed'
    _ = (dropTransfer u x.id).setTile p ((u.tile p).countDrop x.rchan (x.n - x.got)) := dropLanding_eq ..
    _ = (dropTransfer s x.id).setTile p (Tile.countDrop { s.tile p with claims := cs } x.rchan (x.n - x.got)) := by rw [hframe, htile]

/-- Each of the three landing commands is the landing of the kinds that it takes, and a GET reply is none of those that a channel can refuse. -/
theorem exec_landing {s : State} {i : Nat} {x : Transfer} {c : Instr}
    (h : (x.op = 0 ∨ x.op = 4) ∧ c = .transferLanding i ∨ x.op = 1 ∧ c = .messageLanding i ∨ x.op = 2 ∧ c = .getRequestArrival i) :
    x.op ≠ 3 ∧ ∃ ops : List Nat, ops.contains x.op = true ∧ exec c s = .next (landing s i ops) := by
  obtain ⟨hop | hop, rfl⟩ | ⟨hop, rfl⟩ | ⟨hop, rfl⟩ := h
  · exact ⟨by simp [hop], [0, 3, 4], by simp [hop], rfl⟩
  · exact ⟨by simp [hop], [0, 3, 4], by simp [hop], rfl⟩
  · exact ⟨by simp [hop], [1], by simp [hop], rfl⟩
  · exact ⟨by simp [hop], [2], by simp [hop], rfl⟩

/-- Settles O35: the flits leave the mesh one by one with no effect but their claims, and the transfer ends with a counted drop. -/
theorem closedChannelsDropTransfers : Obligations.ClosedChannelsDropTransfers := by
  unfold Obligations.ClosedChannelsDropTransfers
  intro s i p x c hx hstale h hcmd hrefused
  obtain ⟨hop, ops, hops, hexec⟩ := exec_landing (s := s) hcmd
  obtain ⟨cs, hland⟩ := landing_closed hx hstale h hops hop (recvOpen_eq_false hrefused)
  refine ⟨_, hexec.trans (congrArg _ hland), ?_⟩
  rw [State.tile_setTile_same]
  exact ⟨rfl, rfl, ⟨rfl, rfl, rfl, rfl, rfl⟩, rfl, Tile.countDrop_droppedMsgs .., fun _ => Tile.countDrop_droppedBytes ..,
    Tile.countDrop_msgs .., fun off h0 h2 => Tile.countDrop_regW_ne _ _ h0 h2⟩

end Sys2Proof.Machine
end

section
/-!
PROOF. The layout of a link block (O42): each field of a block is read from the bytes where the layout has put it.
-/

namespace Sys2Proof.Machine
open Sys2Proof

-- numbers and words in bytes (R6)

theorem leNat_leBytes (n v : Nat) : leNat (leBytes n v) = v % 2 ^ (8 * n) := by
  induction n generalizing v with
  | zero => rw [Nat.mul_zero, Nat.pow_zero, Nat.mod_one]; rfl
  | succ n ih =>
    have hbyte : (BitVec.ofNat 8 v).toNat = v % 2 ^ 8 := BitVec.toNat_ofNat ..
    rw [leBytes, leNat, ih, hbyte, Nat.mul_succ, Nat.add_comm (8 * n) 8, Nat.pow_add, Nat.mod_mul]

theorem leNat_leBytes_of_lt {n v : Nat} (h : v < 2 ^ (8 * n)) : leNat (leBytes n v) = v := (leNat_leBytes n v).trans (Nat.mod_eq_of_lt h)

theorem length_bytesOf (ws : List W64) : (bytesOf ws).length = 8 * ws.length := by
  induction ws with
  | nil => rfl
  | cons w ws ih =>
    rw [bytesOf, List.flatMap_cons, ← bytesOf, List.length_append, leBytes_len, ih, List.length_cons]
    omega

theorem wordsOf_bytesOf (ws : List W64) : wordsOf ws.length (bytesOf ws) = ws := by
  induction ws with
  | nil => rfl
  | cons w ws ih =>
    have hword : w64 (leNat (leBytes 8 w.toNat)) = w := by
      rw [leNat_leBytes_of_lt w.isLt, w64, BitVec.ofNat_toNat, BitVec.setWidth_eq]
    rw [bytesOf, List.flatMap_cons, ← bytesOf, List.length_cons, wordsOf, List.take_left' (leBytes_len ..), List.drop_left' (leBytes_len ..), hword, ih]

/-- A field is read from the place where it stands. -/
theorem take_drop_field {α : Type} {pre mid : List α} {a n : Nat} (hpre : pre.length = a) (hmid : mid.length = n) (post : List α) :
    ((pre ++ (mid ++ post)).drop a).take n = mid := by
  rw [List.drop_left' hpre, List.take_left' hmid]

/-- The same for one of `n` chunks of one length. -/
theorem take_drop_chunk {α : Type} {f : Nat → List α} {w n k : Nat} (hw : ∀ k, (f k).length = w) (hk : k < n) (post : List α) :
    (((List.range n).flatMap f ++ post).drop (w * k)).take w = f k := by
  have hlen := flatMap_len f w hw n
  have hroom : w * k + w ≤ w * n := Nat.mul_succ w k ▸ Nat.mul_le_mul_left w hk
  apply List.ext_getElem?
  intro j
  rcases Nat.lt_or_ge j w with hj | hj
  · rw [List.getElem?_take_of_lt hj, List.getElem?_drop, List.getElem?_append_left (by omega), flatMap_chunk f w hw n k j hk hj]
  · rw [List.getElem?_take_eq_none hj, List.getElem?_eq_none (by rw [hw]; exact hj)]

-- digits of 12 bits

/-- The number with 12-bit digits `t 0` to `t (n − 1)`, the least significant first. -/
def packDigits (t : Nat → Nat) (n : Nat) : Nat := (List.range n).foldl (fun v p => v + t p * 2 ^ (12 * p)) 0

theorem packDigits_succ (t : Nat → Nat) (n : Nat) : packDigits t (n + 1) = packDigits t n + t n * 2 ^ (12 * n) := by
  rw [packDigits, List.range_succ, List.foldl_append]
  rfl

theorem packDigits_congr {t u : Nat → Nat} {n : Nat} (h : ∀ k, k < n → t k = u k) : packDigits t n = packDigits u n := by
  induction n with
  | zero => rfl
  | succ n ih => rw [packDigits_succ, packDigits_succ, ih fun k hk => h k (Nat.lt_succ_of_lt hk), h n (Nat.lt_succ_self n)]

section
variable {t : Nat → Nat} (ht : ∀ k, t k < 4096)
include ht

theorem packDigits_lt (n : Nat) : packDigits t n < 2 ^ (12 * n) := by
  induction n with
  | zero => exact Nat.one_pos
  | succ n ih =>
    calc packDigits t (n + 1) = packDigits t n + t n * 2 ^ (12 * n) := packDigits_succ t n
      _ < 2 ^ (12 * n) + t n * 2 ^ (12 * n) := Nat.add_lt_add_right ih _
      _ = (t n + 1) * 2 ^ (12 * n) := by rw [Nat.add_mul, Nat.one_mul, Nat.add_comm]
      _ ≤ 2 ^ 12 * 2 ^ (12 * n) := Nat.mul_le_mul_right _ (ht n)
      _ = 2 ^ (12 * (n + 1)) := by rw [← Nat.pow_add, Nat.mul_succ, Nat.add_comm]

theorem packDigits_digit {n k : Nat} (hk : k < n) : packDigits t n / 2 ^ (12 * k) % 4096 = t k := by
  induction n with
  | zero => exact absurd hk (Nat.not_lt_zero k)
  | succ n ih =>
    rw [packDigits_succ]
    rcases Nat.lt_succ_iff_lt_or_eq.1 hk with hlt | rfl
    · have hsplit : t n * 2 ^ (12 * n) = 2 ^ (12 * k) * (4096 * (t n * 2 ^ (12 * (n - k - 1)))) := by
        have hexp : 12 * n = 12 * k + 12 + 12 * (n - k - 1) := by omega
        rw [hexp, Nat.pow_add, Nat.pow_add, show (2 : Nat) ^ 12 = 4096 from rfl]
        ac_rfl
      rw [hsplit, Nat.add_mul_div_left _ _ (Nat.two_pow_pos _), Nat.add_mul_mod_self_left, ih hlt]
    · rw [Nat.add_mul_div_right _ _ (Nat.two_pow_pos _), Nat.div_eq_of_lt (packDigits_lt ht k), Nat.zero_add, Nat.mod_eq_of_lt (ht k)]

end

-- one flit position (R226)

/-- A flit whose fields fit the layout. -/
def FlitFits (f : Flit) : Prop := f.vc < 3 ∧ f.cls < 2 ∧ f.body.length = 8

/-- The 64 bytes of a flit position. -/
def flitBytes : Option Flit → List Byte
  | some f => bytesOf ((f.body ++ List.replicate 8 0).take 8)
  | none => List.replicate 64 0

/-- What a port reads from a position's tag and bytes. -/
def readFlit (tag : Nat) (bs : List Byte) : Option Flit :=
  if tag % 4 = 3 then none
  else some { vc := tag % 4, first := tag.testBit 2, last := tag.testBit 3, cls := tag / 16 % 2, body := wordsOf 8 bs }

theorem length_flitBytes (o : Option Flit) : (flitBytes o).length = 64 := by
  cases o with
  | none => exact List.length_replicate
  | some f => simp [flitBytes, length_bytesOf]

/-- The four parts of a flit's tag. -/
theorem FlitFits.tag_parts {f : Flit} (h : FlitFits f) : tagOf (some f) < 4096 ∧ tagOf (some f) % 4 = f.vc ∧ (tagOf (some f)).testBit 2 = f.first
    ∧ (tagOf (some f)).testBit 3 = f.last ∧ tagOf (some f) / 16 % 2 = f.cls := by
  obtain ⟨hvc, hcls, -⟩ := h
  have htag : tagOf (some f) = f.vc + 4 * ofBool f.first + 8 * ofBool f.last + 16 * f.cls := rfl
  rw [htag, Nat.testBit_eq_decide_div_mod_eq, Nat.testBit_eq_decide_div_mod_eq]
  cases f.first <;> cases f.last <;> simp only [ofBool, decide_eq_true_eq, decide_eq_false_iff_not] <;> simp <;> omega

theorem tagOf_lt {o : Option Flit} (h : ∀ f ∈ o, FlitFits f) : tagOf o < 4096 := by
  cases o with
  | none => decide
  | some f => exact (h f rfl).tag_parts.1

theorem readFlit_tagOf {o : Option Flit} (h : ∀ f ∈ o, FlitFits f) : readFlit (tagOf o) (flitBytes o) = o := by
  cases o with
  | none => rfl
  | some f =>
    obtain ⟨hvc, -, hbody⟩ := h f rfl
    obtain ⟨-, htag, hfirst, hlast, hcls⟩ := (h f rfl).tag_parts
    have hread : wordsOf 8 (flitBytes (some f)) = f.body := by
      rw [flitBytes, List.take_left' hbody, ← hbody, wordsOf_bytesOf]
    rw [readFlit, htag, if_neg (by omega), hfirst, hlast, hcls, hread]

-- the block (R226)

/-- Flit position `p` of a block. -/
def flitAt (b : Block) (p : Nat) : Option Flit := (b.flits[p]?).join

/-- The tags of the 32 positions. -/
def tagWord (b : Block) : Nat := packDigits (fun p => tagOf (flitAt b p)) 32

/-- The words after the tags. -/
def ackWord (b : Block) : Nat := b.ack % 32768 + 32768 * ofBool b.nak
def creditWord (b : Block) : Nat := b.credits % 4096 + 4096 * b.creditCls

theorem flits_at {b : Block} {p : Nat} (hp : p < 32) : (((List.range 32).map (flitAt b))[p]?).join = flitAt b p := by simp [hp]

/-- The layout, field by field. -/
theorem blockHead_eq (b : Block) : blockHead b = (List.range 32).flatMap (fun p => flitBytes (flitAt b p)) ++ leBytes 48 (tagWord b) ++ leBytes 4 b.seq.toNat
    ++ leBytes 2 (ackWord b) ++ leBytes 2 (creditWord b) ++ leBytes 4 0 := by
  have htags : (List.range 32).foldl (fun n p => n + tagOf (((List.range 32).map (flitAt b))[p]?).join * 2 ^ (12 * p)) 0 = tagWord b :=
    packDigits_congr (t := fun p => tagOf (((List.range 32).map (flitAt b))[p]?).join) fun p hp => congrArg tagOf (flits_at hp)
  have hflits : ((List.range 32).map (flitAt b)).flatMap flitBytes = (List.range 32).flatMap (fun p => flitBytes (flitAt b p)) := List.flatMap_map ..
  rw [← htags, ← hflits]
  rfl

theorem length_blockHead (b : Block) : (blockHead b).length = 2108 := by
  rw [blockHead_eq]
  simp only [List.length_append, leBytes_len, flatMap_len _ 64 (fun p => length_flitBytes (flitAt b p))]

/-- Each field of a block is read from its own bytes. -/
theorem blockHead_fields (b : Block) (rest : List Byte) :
    let bs := blockHead b ++ rest
    (∀ p, p < 32 → (bs.drop (64 * p)).take 64 = flitBytes (flitAt b p)) ∧ (bs.drop 2048).take 48 = leBytes 48 (tagWord b)
      ∧ (bs.drop 2096).take 4 = leBytes 4 b.seq.toNat ∧ (bs.drop 2100).take 2 = leBytes 2 (ackWord b)
      ∧ (bs.drop 2102).take 2 = leBytes 2 (creditWord b) := by
  have hlen : ((List.range 32).flatMap (fun p => flitBytes (flitAt b p))).length = 2048 := flatMap_len _ 64 (fun p => length_flitBytes _) 32
  have hfield {k : Nat} {pre post : List Byte} {a n v : Nat} (hpre : pre.length = a) : ((pre ++ leBytes n v ++ post).drop a).take n = leBytes n v := by
    rw [List.append_assoc]; exact take_drop_field hpre (leBytes_len ..) post
  dsimp only
  rw [blockHead_eq]
  refine ⟨fun p hp => ?_, ?_, ?_, ?_, ?_⟩
  · simp only [List.append_assoc]
    exact take_drop_chunk (fun p => length_flitBytes (flitAt b p)) hp _
  all_goals simp [List.drop_append, List.drop_of_length_le, hlen, leBytes_len]

-- what a port reads back

section
variable {b : Block} (hfits : ∀ f ∈ b.flits.filterMap id, FlitFits f)
include hfits

theorem flitAt_fits (p : Nat) : ∀ f ∈ flitAt b p, FlitFits f := by
  intro f hf
  have hat : b.flits[p]? = some (some f) := Option.join_eq_some_iff.1 hf
  exact hfits f (List.mem_filterMap.2 ⟨some f, List.mem_of_getElem? hat, rfl⟩)

theorem tagWord_lt : tagWord b < 2 ^ (8 * 48) := by
  rw [show 8 * 48 = 12 * 32 from rfl]
  exact packDigits_lt (fun p => tagOf_lt (flitAt_fits hfits p)) 32

theorem tagWord_digit {p : Nat} (hp : p < 32) : tagWord b / 2 ^ (12 * p) % 4096 = tagOf (flitAt b p) :=
  packDigits_digit (t := fun p => tagOf (flitAt b p)) (fun p => tagOf_lt (flitAt_fits hfits p)) hp

end

/-- The reader, position by position. -/
theorem parseBlock_eq (bs : List Byte) : parseBlock bs =
    { flits := (List.range 32).map (fun p => readFlit (leNat ((bs.drop 2048).take 48) / 2 ^ (12 * p) % 4096) ((bs.drop (64 * p)).take 64))
      seq := w32 (leNat ((bs.drop 2096).take 4))
      ack := leNat ((bs.drop 2100).take 2) % 32768, nak := (leNat ((bs.drop 2100).take 2)).testBit 15
      credits := leNat ((bs.drop 2102).take 2) % 4096, creditCls := leNat ((bs.drop 2102).take 2) / 4096 % 2 } := rfl

/-- The 32 positions are read back. -/
theorem readFlits_eq {b : Block} (hlen : b.flits.length = 32) {g : Nat → Option Flit} (hg : ∀ p, p < 32 → g p = flitAt b p) :
    (List.range 32).map g = b.flits := by
  apply List.ext_getElem (by simp [hlen])
  intro p hp hb
  simp [hg p (hlen ▸ hb), flitAt, List.getElem?_eq_getElem hb]

theorem leNat_ackWord {b : Block} (h : b.ack < 32768) :
    leNat (leBytes 2 (ackWord b)) % 32768 = b.ack ∧ (leNat (leBytes 2 (ackWord b))).testBit 15 = b.nak := by
  have hword : ackWord b = b.ack + 32768 * ofBool b.nak := by rw [ackWord, Nat.mod_eq_of_lt h]
  have hnak : ofBool b.nak ≤ 1 := by cases b.nak <;> decide
  rw [leNat_leBytes_of_lt (by omega), hword, Nat.testBit_eq_decide_div_mod_eq]
  refine ⟨by omega, ?_⟩
  cases b.nak <;> simp [ofBool] <;> omega

theorem leNat_creditWord {b : Block} (h : b.credits < 4096) (hcls : b.creditCls < 2) :
    leNat (leBytes 2 (creditWord b)) % 4096 = b.credits ∧ leNat (leBytes 2 (creditWord b)) / 4096 % 2 = b.creditCls := by
  have hword : creditWord b = b.credits + 4096 * b.creditCls := by rw [creditWord, Nat.mod_eq_of_lt h]
  rw [leNat_leBytes_of_lt (by omega), hword]
  omega

theorem leNat_seq (b : Block) : w32 (leNat (leBytes 4 b.seq.toNat)) = b.seq := by
  rw [leNat_leBytes_of_lt b.seq.isLt, w32, BitVec.ofNat_toNat, BitVec.setWidth_eq]

/-- Settles O42: each field is read from the bytes where it was laid out, and the tags are the 12-bit digits of one number. -/
theorem linkBlocksReadBack : Obligations.LinkBlocksReadBack := by
  unfold Obligations.LinkBlocksReadBack
  intro b rest hlen hfits hack hcredits hcls
  obtain ⟨hflit, htags, hseq, hackWord, hcreditWord⟩ := blockHead_fields b rest
  obtain ⟨hackRead, hnakRead⟩ := leNat_ackWord hack
  obtain ⟨hcreditRead, hclsRead⟩ := leNat_creditWord hcredits hcls
  have hflits : (List.range 32).map (fun p => readFlit (tagWord b / 2 ^ (12 * p) % 4096) (((blockHead b ++ rest).drop (64 * p)).take 64)) = b.flits :=
    readFlits_eq hlen fun p hp => by rw [tagWord_digit hfits hp, hflit p hp, readFlit_tagOf (flitAt_fits hfits p)]
  refine ⟨length_blockHead b, ?_⟩
  rw [parseBlock_eq, htags, leNat_leBytes_of_lt (tagWord_lt hfits), hflits, hseq, leNat_seq, hackWord, hackRead, hnakRead, hcreditWord, hcreditRead, hclsRead]

end Sys2Proof.Machine
end

section
/-!
PROOF. Ports of the Footbridge: what an update of a port, of a transfer in the mesh and of a register leaves alone.
-/

namespace Sys2Proof.Machine
open Sys2Proof

-- a port changed

@[simp] theorem State.port_modPort_same (s : State) (p : Nat) (f : Port → Port) : (s.modPort p f).port p = f (s.port p) := State.port_setPort_same ..

theorem State.port_modPort_ne (s : State) {p q : Nat} (f : Port → Port) (h : q ≠ p) : (s.modPort p f).port q = s.port q := State.port_setPort_ne _ _ h

/-- A change that leaves a port as it is leaves every port as it is. -/
theorem State.port_modPort_of_eq (s : State) {p : Nat} {f : Port → Port} (h : f (s.port p) = s.port p) (q : Nat) : (s.modPort p f).port q = s.port q := by
  by_cases hq : q = p
  · rw [hq, State.port_modPort_same, h]
  · exact State.port_modPort_ne s f hq

theorem port_of {a b : State} (h : a.die.ports = b.die.ports) (p : Nat) : a.port p = b.port p := by unfold State.port; rw [h]

theorem SameModule.trans {s t u : State} (h : SameModule s t) (k : SameModule t u) : SameModule s u :=
  ⟨k.reg.trans h.reg, k.pvs.trans h.pvs, k.fns.trans h.fns, k.sun.trans h.sun, k.out.trans h.out⟩

/-- A field that has been raised reads 1. -/
theorem State.rd_raise_same (s : State) {f : Fld} (h : f.hi < 64) (hl : f.lo ≤ f.hi) : (s.raise f).rd f = 1 := by
  have hwidth : f.hi + 1 - f.lo = f.hi - f.lo + 1 := by omega
  rw [State.rd_raise, State.rd_wr_same s f 1 h hl, hwidth, Nat.pow_succ]
  exact Nat.mod_eq_of_lt (by have := Nat.two_pow_pos (f.hi - f.lo); omega)

/-- A saturating count reads as the sum, or its largest value. -/
theorem State.rd_incSat_same (s : State) {f : Fld} (n : Nat) (h : f.hi < 64) (hl : f.lo ≤ f.hi) : (s.incSat f n).rd f = min (s.rd f + n) (fldMax f) := by
  have hpos := Nat.two_pow_pos (f.hi + 1 - f.lo)
  rw [State.incSat, State.rd_wr_same s f _ h hl]
  exact Nat.mod_eq_of_lt (by unfold fldMax; omega)

-- runs of steps over the places of a list

/-- A run over the places of a list in which only place `i` acts. -/
theorem foldl_range_only {α : Type} {f : α → Nat → α} {a b : α} {i n : Nat} (hi : i < n) (hbefore : ∀ j, j < i → f a j = a) (hstep : f a i = b)
    (hafter : ∀ j, i < j → j < n → f b j = b) : (List.range n).foldl f a = b := by
  induction n with
  | zero => exact absurd hi (Nat.not_lt_zero i)
  | succ n ih =>
    rw [List.range_succ, List.foldl_append, List.foldl_cons, List.foldl_nil]
    rcases Nat.lt_succ_iff_lt_or_eq.1 hi with h | rfl
    · rw [ih h fun j hj hn => hafter j hj (Nat.lt_succ_of_lt hn)]
      exact hafter n h (Nat.lt_succ_self n)
    · have hidle : (List.range i).foldl f a = a :=
        List.foldlRecOn (motive := fun b => b = a) _ _ rfl fun b hb j hj => by rw [hb, hbefore j (List.mem_range.1 hj)]
      rw [hidle, hstep]

/-- A run over the places of a list in which no place acts. -/
theorem foldl_range_idle {α : Type} {f : α → Nat → α} {a : α} {n : Nat} (h : ∀ j, j < n → f a j = a) : (List.range n).foldl f a = a :=
  List.foldlRecOn (motive := fun b => b = a) _ _ rfl fun b hb j hj => by rw [hb, h j (List.mem_range.1 hj)]

theorem modAt_getElem?_ne {α : Type} (f : α → α) (l : List α) {n m : Nat} (h : m ≠ n) : (modAt f l n)[m]? = l[m]? := by
  induction l generalizing n m with
  | nil => rfl
  | cons x l ih =>
    cases n with
    | zero => cases m with
      | zero => exact absurd rfl h
      | succ m => rfl
    | succ n => cases m with
      | zero => rfl
      | succ m => simpa only [modAt, List.getElem?_cons_succ] using ih (fun e => h (congrArg _ e))

end Sys2Proof.Machine
end

section
/-!
PROOF. Transfers that cross a link (O40): a scheduled transfer at its egress port, its slots and its presentation, and the bulk route.
-/

namespace Sys2Proof.Machine
open Sys2Proof

-- the first flit of a scheduled transfer at its port (R233)

/-- The first flit is at the port, and it alone. -/
structure FirstAtPort (s : State) (i : Nat) (x : Transfer) (f : MeshFlit) : Prop where
  place : s.die.transfers[i]? = some x
  named : s.xfer x.id = some x
  vc : x.vc = 1
  stale : x.stale = false
  alone : x.air.filter (atPort s x) = [f]
  first : f.off = 0

/-- A port at which a mesh flit has joined its transfer. -/
def Port.joined (id : Nat) (f : MeshFlit) (q : Port) : Port := { q with egress := joinFlit id f q.egress, bulk := joinFlit id f q.bulk }

/-- A transfer whose flit has left the mesh. -/
def Transfer.without (f : MeshFlit) (x : Transfer) : Transfer := { x with air := x.air.filter (fun g => g.off != f.off) }

/-- A transfer that its port discards. -/
def Transfer.discarded (x : Transfer) : Transfer := { x with stale := true }

/-- A port that has admitted a scheduled transfer. -/
def Port.admitted (s : State) (x : Transfer) (q : Port) : Port :=
  { q with claims := q.claims ++ slotsOf s x.port x, egress := q.egress ++ [egressOf s x] }

theorem joinFlit_of_ne {id : Nat} {l : List Egress} (f : MeshFlit) (h : ∀ e ∈ l, e.tr.id ≠ id) : joinFlit id f l = l :=
  (List.map_congr_left fun e he => if_neg (h e he)).trans (List.map_id l)

theorem slotOk_iff {s : State} {p a : Nat} {x : Transfer} : slotOk s p a x = true ↔ slotCycle s p x.fbSlot ≤ a + 256 ∧ a < slotCycle s p x.fbSlot
    ∧ x.fbSlot + (slotsOf s p x).length ≤ 1024 ∧ ∀ k ∈ slotsOf s p x, k ∉ (s.port p).claims := by
  simp only [slotOk, Bool.and_eq_true, decide_eq_true_eq, Bool.not_eq_true', List.any_eq_false, List.contains_eq_mem, and_assoc,
    Nat.lt_iff_add_one_le]

/-- What is left to do when a port has taken a transfer's flits: a transfer with nothing left goes from the list of transfers. -/
theorem portTake_single {s : State} {x : Transfer} {f : MeshFlit} (h : x.air.filter (atPort s x) = [f]) :
    ∃ l, portTake s x = { portTakeFlit x.id s f with die := { (portTakeFlit x.id s f).die with transfers := l } }
      ∧ ∀ y ∈ l, y ∈ (portTakeFlit x.id s f).die.transfers := by
  have hself : ∃ l, portTakeFlit x.id s f = { portTakeFlit x.id s f with die := { (portTakeFlit x.id s f).die with transfers := l } }
      ∧ ∀ y ∈ l, y ∈ (portTakeFlit x.id s f).die.transfers := ⟨_, rfl, fun _ hy => hy⟩
  simp only [portTake, h, List.foldl_cons, List.foldl_nil]
  split
  · split
    · exact ⟨_, rfl, fun y hy => (List.mem_filter.1 hy).1⟩
    · exact hself
  · exact hself

/-- The first flit of a transfer that its port knows once it has been admitted. -/
theorem portTakeFlit_first {s : State} {x y : Transfer} {f : MeshFlit} (hx : s.xfer x.id = some x) (hstale : x.stale = false) (hoff : f.off = 0)
    (hy : (admitTransfer s x).xfer x.id = some y) (hknown : knownAtPort (admitTransfer s x) y = true) :
    portTakeFlit x.id s f = ((admitTransfer s x).modXfer x.id (Transfer.without f)).modPort y.port (Port.joined x.id f) := by
  simp only [portTakeFlit, hx, hoff, hstale, Bool.not_false, and_self, if_true, hy, hknown]
  rw [← hoff]
  rfl

namespace FirstAtPort
variable {s : State} {i : Nat} {x : Transfer} {f : MeshFlit} (h : FirstAtPort s i x f)
include h

/-- The command takes it. -/
theorem exec_eq : exec (.scheduledFlitAtPort i) s = .next (portTake s x) := by
  have hf : f ∈ x.air ∧ atPort s x f = true := List.mem_filter.1 (h.alone ▸ List.mem_singleton_self f)
  have hany : x.air.any (fun g => g.off == 0 && atPort s x g) = true := List.any_eq_true.2 ⟨f, hf.1, by simp [h.first, hf.2]⟩
  refine congrArg Host.Outcome.next ?_
  simp [scheduledAtPort, h.place, h.vc, hany]

/-- A transfer of this number has no first flit in the mesh any more. -/
theorem gone {u : State} {y : Transfer} (hy : y ∈ (u.modXfer x.id (Transfer.without f)).die.transfers) (hid : y.id = x.id) :
    ∀ g ∈ y.air, g.off ≠ 0 := by
  obtain ⟨z, -, rfl⟩ := List.mem_map.1 hy
  intro g hg
  by_cases hz : z.id = x.id
  · rw [if_pos hz] at hg
    simpa [h.first] using (List.mem_filter.1 hg).2
  · rw [if_neg hz] at hid
    exact absurd hid hz

/-- It comes in time for slots that are free. -/
theorem admitted (hnew : ∀ e ∈ (s.port x.port).egress ++ (s.port x.port).bulk, e.tr.id ≠ x.id) (hok : slotOk s x.port s.sun.ctr x = true) :
    ∃ t, exec (.scheduledFlitAtPort i) s = .next t ∧ (t.port x.port).claims = (s.port x.port).claims ++ slotsOf s x.port x
      ∧ (t.port x.port).egress = (s.port x.port).egress ++ [⟨x, linkData x + 1, (slotsOf s x.port x).length, false, 0, [(0, f.data)]⟩]
      ∧ (∀ y ∈ t.die.transfers, y.id = x.id → ∀ g ∈ y.air, g.off ≠ 0) ∧ (∀ q, q ≠ x.port → t.port q = s.port q)
      ∧ t.tiles = s.tiles ∧ SameModule s t := by
  have hadmit : admitTransfer s x = s.modPort x.port (Port.admitted s x) := by
    simp only [admitTransfer, h.vc, hok, if_true]
    rfl
  have hknown : knownAtPort (admitTransfer s x) x = true := by simp [hadmit, knownAtPort, Port.admitted, egressOf]
  have hu := portTakeFlit_first h.named h.stale h.first (hadmit ▸ h.named) hknown
  obtain ⟨l, ht, hl⟩ := portTake_single h.alone
  rw [hu, hadmit] at ht hl
  have hport : (portTake s x).port x.port = Port.joined x.id f (Port.admitted s x (s.port x.port)) := by
    rw [ht]
    calc (((s.modPort x.port (Port.admitted s x)).modXfer x.id (Transfer.without f)).modPort x.port (Port.joined x.id f)).port x.port
        = Port.joined x.id f ((s.modPort x.port (Port.admitted s x)).port x.port) := State.port_modPort_same ..
      _ = _ := by rw [State.port_modPort_same]
  have hold : joinFlit x.id f (s.port x.port).egress = (s.port x.port).egress := joinFlit_of_ne f fun e he => hnew e (List.mem_append_left _ he)
  have hjoin : joinFlit x.id f [egressOf s x] = [⟨x, linkData x + 1, (slotsOf s x.port x).length, false, 0, [(0, f.data)]⟩] := by
    simp [joinFlit, egressOf, h.vc, h.first, SMap.put]
  refine ⟨_, h.exec_eq, ?_, ?_, fun y hy => ?_, fun q hq => ?_, ?_, ?_⟩
  · rw [hport]; rfl
  · rw [hport]
    calc joinFlit x.id f ((s.port x.port).egress ++ [egressOf s x])
        = joinFlit x.id f (s.port x.port).egress ++ joinFlit x.id f [egressOf s x] := List.map_append ..
      _ = _ := by rw [hold, hjoin]
  · rw [ht] at hy
    exact h.gone (hl y hy)
  · rw [ht]
    calc _ = (s.modPort x.port (Port.admitted s x)).port q := State.port_modPort_ne _ (Port.joined x.id f) hq
      _ = s.port q := State.port_modPort_ne _ _ hq
  · rw [ht]; rfl
  · rw [ht]; exact ⟨rfl, rfl, rfl, rfl, rfl⟩

/-- It comes out of time, or its slots are not free. -/
theorem refused (hnew : ∀ e ∈ (s.port x.port).egress ++ (s.port x.port).bulk, e.tr.id ≠ x.id) (hok : slotOk s x.port s.sun.ctr x = false) :
    ∃ t, exec (.scheduledFlitAtPort i) s = .next t ∧ t.rd (FB_EVENT_SLOT_REFUSED x.port) = 1
      ∧ (∀ y ∈ t.die.transfers, y.id = x.id → y.stale = true)
      ∧ t.die.ctls = s.die.ctls ++ [⟨.refused x.srcTile, s.sun.tick + 3 + portHops x.srcTile x.port, false⟩]
      ∧ (∀ q, t.port q = s.port q) ∧ t.tiles = s.tiles ∧ t.pvs = s.pvs ∧ t.fns = s.fns ∧ t.out = s.out := by
  have hadmit : admitTransfer s x = refuseSlot s x := by simp [admitTransfer, h.vc, hok]
  have hy : (refuseSlot s x).xfer x.id = some x.discarded := by
    refine (State.xfer_modXfer (s.raise (FB_EVENT_SLOT_REFUSED x.port)) (id := x.id) (f := Transfer.discarded) fun _ => rfl).trans ?_
    exact congrArg (Option.map _) h.named
  have hu := portTakeFlit_first h.named h.stale h.first (hadmit ▸ hy) rfl
  obtain ⟨l, ht, hl⟩ := portTake_single h.alone
  rw [hu, hadmit] at ht hl
  have hports : ∀ q, (portTake s x).port q = s.port q := fun q => by
    rw [ht]
    refine State.port_modPort_of_eq ((refuseSlot s x).modXfer x.id (Transfer.without f)) ?_ q
    have hegress := joinFlit_of_ne f fun e he => hnew e (List.mem_append_left _ he)
    have hbulk := joinFlit_of_ne f fun e he => hnew e (List.mem_append_right _ he)
    show Port.joined x.id f (s.port x.port) = s.port x.port
    rw [Port.joined, hegress, hbulk]
  refine ⟨_, h.exec_eq, ?_, fun y hy hid => ?_, ?_, hports, ?_, ?_, ?_, ?_⟩
  · rw [ht]
    exact State.rd_raise_same s (f := FB_EVENT_SLOT_REFUSED x.port) (by simp [FB_EVENT_SLOT_REFUSED]) (Nat.le_refl _)
  · rw [ht] at hy
    obtain ⟨z, hz, rfl⟩ := List.mem_map.1 (hl y hy)
    obtain ⟨w, -, rfl⟩ := List.mem_map.1 hz
    by_cases hw : w.id = x.id
    · simp [hw, Transfer.without] 
    · simp [hw] at hid
  all_goals rw [ht]; rfl

end FirstAtPort

-- late flits (R236)

/-- A count of tc after slot begin at which flits are due belongs to one flit (R235). -/
theorem flit_of_tc {d f : Nat} (h : 4 * f / 3 = d) : (3 * d + 3) / 4 = f := by omega

theorem presentCycle_eq (s : State) (p : Nat) (e : Ingress) (f : Nat) : presentCycle s p e f = presentCycle s p e 0 + 4 * f / 3 := by
  unfold presentCycle
  omega

theorem dueFlit_eq_some_iff {s : State} {p f : Nat} {e : Ingress} : dueFlit s p e = some f ↔ f < e.flits ∧ presentCycle s p e f = s.sun.ctr + 6 := by
  rw [presentCycle_eq, dueFlit]
  generalize presentCycle s p e 0 = t
  constructor
  · split
    · next h =>
      intro hf
      obtain ⟨ht, hd, hlt⟩ := h
      rw [Option.some.injEq] at hf
      rw [hf] at hd hlt
      exact ⟨hlt, by omega⟩
    · exact fun hf => nomatch hf
  · rintro ⟨hlt, hdue⟩
    have hd : 4 * f / 3 = s.sun.ctr + 6 - t := by omega
    rw [flit_of_tc hd, if_pos ⟨by omega, hd, hlt⟩]

/-- An entry none of whose flits is late asks for nothing. -/
theorem lateEntry_idle {s : State} {p j : Nat}
    (h : ∀ x g, (s.port p).sched[j]? = some x → g < x.flits → presentCycle s p x g = s.sun.ctr + 6 → g < x.got) : lateEntry p s j = s := by
  unfold lateEntry
  split
  · rfl
  · next e he =>
    split
    · rfl
    · next f hf =>
      obtain ⟨hflits, hdue⟩ := dueFlit_eq_some_iff.1 hf
      exact if_pos (h e f he hflits hdue)

/-- An entry's hold for a late flit. -/
def Ingress.asks (n f : Nat) (e : Ingress) : Ingress := { e with asked := some (n, f) }

/-- A port whose entry `i` has asked for a hold. -/
def Port.asks (i n f : Nat) (q : Port) : Port := { q with sched := modAt (Ingress.asks n f) q.sched i }

theorem lateEntry_asks {s : State} {p i f : Nat} {e : Ingress} (hi : (s.port p).sched[i]? = some e) (hflits : f < e.flits)
    (hdue : presentCycle s p e f = s.sun.ctr + 6) (hgot : e.got ≤ f) (hasked : e.asked = none) :
    lateEntry p s i = (requestHold (s.raise (FB_EVENT_LATE_SCHED p)) kindSched p).modPort p (Port.asks i s.sun.nextSeq f) := by
  simp only [lateEntry, hi, dueFlit_eq_some_iff.2 ⟨hflits, hdue⟩, if_neg (Nat.not_lt.2 hgot), hasked]
  rfl

theorem presentCycle_raise_event (s : State) (p : Nat) (e : Ingress) (f : Nat) :
    presentCycle (s.raise (FB_EVENT_LATE_SCHED p)) p e f = presentCycle s p e f := by
  have hne {g : Fld} (hg : g.off ≠ FB_EVENT_OFF p) : (s.raise (FB_EVENT_LATE_SCHED p)).rd g = s.rd g := State.rd_wr_off s 1 hg
  have hlen := hne (g := FB_SLOTS_SLOT_LEN p) (by simp [FB_SLOTS_SLOT_LEN, FB_SLOTS_OFF, FB_EVENT_OFF])
  have hlat := hne (g := FB_LINK_SCHED_LAT p) (by simp [FB_LINK_SCHED_LAT, FB_LINK_OFF, FB_EVENT_OFF])
  rw [presentCycle, presentCycle, slotCycle, slotCycle, hlen, hlat]

theorem presentCycle_congr {s t : State} (h : t.reg = s.reg) (p : Nat) (e : Ingress) (f : Nat) : presentCycle t p e f = presentCycle s p e f := by
  rw [presentCycle, presentCycle, slotCycle, slotCycle, rd_reg h, rd_reg h]

/-- The check at which one transfer's flit is late. -/
theorem lateCheck_requests {s : State} {p i f : Nat} {e : Ingress} (hrun : s.rd SD_STATUS_RUNNING = 1) (hfree : s.sun.freeze = none)
    (hi : (s.port p).sched[i]? = some e) (hflits : f < e.flits) (hdue : presentCycle s p e f = s.sun.ctr + 6) (hgot : e.got ≤ f) (hasked : e.asked = none)
    (hothers : ∀ j x g, j ≠ i → (s.port p).sched[j]? = some x → g < x.flits → presentCycle s p x g = s.sun.ctr + 6 → g < x.got) :
    lateCheck s p = (requestHold (s.raise (FB_EVENT_LATE_SCHED p)) kindSched p).modPort p (Port.asks i s.sun.nextSeq f) := by
  have hgo : ¬ (s.standing = true ∨ s.rd SD_STATUS_RUNNING = 0) := by simp [State.standing, hfree, hrun]
  rw [lateCheck, if_neg hgo]
  obtain ⟨hlt, -⟩ := List.getElem?_eq_some_iff.1 hi
  refine foldl_range_only hlt (fun j hj => lateEntry_idle fun x g => hothers j x g (Nat.ne_of_lt hj)) (lateEntry_asks hi hflits hdue hgot hasked)
    fun j hj _ => lateEntry_idle fun x g hx hg hxdue => hothers j x g (Nat.ne_of_gt hj) ?_ hg ?_
  · obtain ⟨c, hc⟩ := requestHold_port (s.raise (FB_EVENT_LATE_SCHED p)) kindSched p p
    rw [State.port_modPort_same, hc] at hx
    exact (modAt_getElem?_ne _ _ (Nat.ne_of_gt hj)).symm.trans hx
  · have hreg : ((requestHold (s.raise (FB_EVENT_LATE_SCHED p)) kindSched p).modPort p (Port.asks i s.sun.nextSeq f)).reg
        = (s.raise (FB_EVENT_LATE_SCHED p)).reg := requestHold_sched_reg ..
    have hctr : (requestHold (s.raise (FB_EVENT_LATE_SCHED p)) kindSched p).sun.ctr = s.sun.ctr := by
      rw [requestHold_sched (s.raise (FB_EVENT_LATE_SCHED p)) p hfree]
      rfl
    rw [presentCycle_congr hreg, presentCycle_raise_event] at hxdue
    exact hxdue.trans (congrArg (· + 6) hctr)

-- presentation (R235)

/-- A transfer enters a list that has none of its number. -/
theorem xfer_newTransfer {s : State} (x : Transfer) (h : ∀ z ∈ s.die.transfers, z.id ≠ s.die.nextXfer) :
    (newTransfer s x).xfer s.die.nextXfer = some { x with id := s.die.nextXfer } := by
  have hnone : s.die.transfers.find? (fun z => z.id == s.die.nextXfer) = none := List.find?_eq_none.2 fun z hz => by simpa using h z hz
  simp [newTransfer, State.xfer, List.find?_append, hnone]

/-- A message's first flit brings its header and its handler list (R214). -/
def Transfer.headed (e : Ingress) (x : Transfer) : Transfer :=
  { x with head := e.tr.data.take 64, handler := bits ((wordsOf 4 e.tr.data).getD 3 0) 14 0 }

/-- The bytes of an entry's next mesh flit. -/
def Ingress.nextBytes (e : Ingress) : List Byte := if linkData e.tr = 0 then [] else (e.tr.data.drop (256 * e.shown)).take 256

theorem xfer_enterFlit (s : State) {id : Nat} (i off : Nat) (data : List Byte) {x : Transfer} (h : s.xfer id = some x) :
    ∃ z, (enterFlit s id 1 i off data).xfer id = some z ∧ z.left = x.left - 1 ∧ z.dstTile = x.dstTile
      ∧ z.air.getLast? = some (newFlit x 1 i s.sun.tick s.sun.time off data) := by
  unfold enterFlit
  rw [State.xfer_modXfer]
  · rw [h]
    exact ⟨_, rfl, rfl, rfl, List.getLast?_concat ..⟩
  · exact fun _ => rfl

theorem xfer_enterFromPort {s : State} (e : Ingress) {id : Nat} {x : Transfer} (h : s.xfer id = some x) :
    ∃ z f, (enterFromPort s e id 1).xfer id = some z ∧ z.left = x.left - 1 ∧ z.dstTile = x.dstTile ∧ z.air.getLast? = some f
      ∧ f.car = 1 ∧ f.off = 256 * e.shown ∧ f.due = s.sun.ctr + x.flight ∧ f.data = e.nextBytes := by
  by_cases hmsg : e.shown = 0 ∧ e.tr.op = 1
  · have henter : enterFromPort s e id 1 = enterFlit (s.modXfer id (Transfer.headed e)) id 1 s.sun.ctr (256 * e.shown) e.nextBytes := by
      simp only [enterFromPort, if_pos hmsg]
      rfl
    have hhead : (s.modXfer id (Transfer.headed e)).xfer id = some (x.headed e) :=
      (State.xfer_modXfer s (f := Transfer.headed e) fun _ => rfl).trans (congrArg (Option.map _) h)
    obtain ⟨z, hz, hleft, hdst, hlast⟩ := xfer_enterFlit _ s.sun.ctr (256 * e.shown) e.nextBytes hhead
    exact ⟨z, _, henter ▸ hz, hleft, hdst, hlast, rfl, rfl, rfl, rfl⟩
  · have henter : enterFromPort s e id 1 = enterFlit s id 1 s.sun.ctr (256 * e.shown) e.nextBytes := by
      simp only [enterFromPort, if_neg hmsg]
      rfl
    obtain ⟨z, hz, hleft, hdst, hlast⟩ := xfer_enterFlit s s.sun.ctr (256 * e.shown) e.nextBytes h
    exact ⟨z, _, henter ▸ hz, hleft, hdst, hlast, rfl, rfl, rfl, rfl⟩

/-- The transfer of an entry that is presented: a new one, or the one that its flits have entered before. -/
def presentTo (s : State) (p : Nat) (e : Ingress) : State := if e.xfer.isSome then s else newTransfer s (enteringTransfer s p none e)

theorem presentTo_keeps (s : State) (p : Nat) (e : Ingress) :
    SameModule s (presentTo s p e) ∧ (presentTo s p e).tiles = s.tiles ∧ (presentTo s p e).die.ports = s.die.ports := by
  unfold presentTo
  split <;> exact ⟨⟨rfl, rfl, rfl, rfl, rfl⟩, rfl, rfl⟩

theorem xfer_presentTo {s : State} {p : Nat} {e : Ingress} {y : Transfer}
    (h : (e.xfer = none ∧ (∀ z ∈ s.die.transfers, z.id ≠ s.die.nextXfer) ∧ y = { enteringTransfer s p none e with id := s.die.nextXfer })
      ∨ (e.xfer = some y.id ∧ s.xfer y.id = some y)) :
    e.xfer.getD s.die.nextXfer = y.id ∧ (presentTo s p e).xfer y.id = some y := by
  unfold presentTo
  obtain ⟨hnone, hnew, rfl⟩ | ⟨hsome, hy⟩ := h
  · rw [hnone]
    exact ⟨rfl, xfer_newTransfer _ hnew⟩
  · rw [hsome]
    exact ⟨rfl, hy⟩

/-- The first entry whose next flit is due gives it. -/
theorem present_entry {s : State} {p i : Nat} {e : Ingress} (hstand : s.standing = false) (hi : (s.port p).sched[i]? = some e)
    (hbefore : ∀ j x, j < i → (s.port p).sched[j]? = some x → presents s p x = false) (hnow : presents s p e = true) :
    present s p = (enterFromPort (presentTo s p e) e (e.xfer.getD s.die.nextXfer) 1).modPort p
      (fun q => { q with sched := flitGiven (e.xfer.getD s.die.nextXfer) q.sched i e }) := by
  obtain ⟨hlt, hget⟩ := List.getElem?_eq_some_iff.1 hi
  have hfind : (s.port p).sched.findIdx? (presents s p) = some i := by
    refine List.findIdx?_eq_some_iff_getElem.2 ⟨hlt, by rw [hget]; exact hnow, fun j hj => ?_⟩
    simp [hbefore j _ hj (List.getElem?_eq_getElem (Nat.lt_trans hj hlt))]
  simp only [present, hstand, hfind, hi, Bool.false_eq_true, if_false]
  rfl

-- the bulk route (R237)

/-- The way of a routed transfer: to its tile in this module, or to the port that the route table names. -/
def bulkWay (s : State) (e : Ingress) : Option Nat := if e.tr.dstMod = s.index then none else some (s.rd (FB_ROUTE_PORT e.tr.dstMod))

theorem enteringTransfer_facts (s : State) (p : Nat) (q : Option Nat) (e : Ingress) :
    (enteringTransfer s p q e).inPort = p ∧ (enteringTransfer s p q e).left = meshFlits e.tr.n ∧ (enteringTransfer s p q e).dstTile = e.tr.dstTile
      ∧ (enteringTransfer s p q e).op = e.tr.op ∧ (enteringTransfer s p q e).n = e.tr.n ∧ (q = none → (enteringTransfer s p q e).leg = e.tr.leg) := by
  unfold enteringTransfer
  cases q with
  | some k => exact ⟨rfl, rfl, rfl, rfl, rfl, fun h => nomatch h⟩
  | none =>
    dsimp only
    split
    · split <;> exact ⟨rfl, rfl, rfl, rfl, rfl, fun _ => rfl⟩
    · exact ⟨rfl, rfl, rfl, rfl, rfl, fun _ => rfl⟩

theorem enteringTransfer_way (s : State) (p : Nat) (e : Ingress) :
    if e.tr.dstMod = s.index then (enteringTransfer s p (bulkWay s e) e).leg = e.tr.leg
    else (enteringTransfer s p (bulkWay s e) e).leg = 1 ∧ (enteringTransfer s p (bulkWay s e) e).port = s.rd (FB_ROUTE_PORT e.tr.dstMod) := by
  unfold bulkWay
  split
  · obtain ⟨-, -, -, -, -, hleg⟩ := enteringTransfer_facts s p none e
    exact hleg rfl
  · exact ⟨rfl, rfl⟩

theorem giveBack_port_same (s : State) (p cls n : Nat) :
    (giveBack s p cls n).port p = { s.port p with giveBack := SMap.put (s.port p).giveBack cls (SMap.look (s.port p).giveBack cls 0 + n) } :=
  State.port_modPort_same ..

theorem giveBack_port_ne (s : State) {p q : Nat} (cls n : Nat) (h : q ≠ p) : (giveBack s p cls n).port q = s.port q := State.port_modPort_ne _ _ h

theorem dropBulk_port_same (s : State) (p i : Nat) (e : Ingress) : (dropBulk s p i e).port p = { (giveBack s p e.tr.cls e.got).port p with
    inbound := if e.got = e.flits then (s.port p).inbound.eraseIdx i else modAt (fun w => { w with drop_ := true }) (s.port p).inbound i } := by
  rw [dropBulk, State.port_modPort_same, giveBack_port_same]

theorem dropBulk_port_ne (s : State) {p q : Nat} (i : Nat) (e : Ingress) (h : q ≠ p) : (dropBulk s p i e).port q = s.port q :=
  (State.port_modPort_ne _ _ h).trans (giveBack_port_ne s _ _ h)

/-- A transfer with a route, to this module or to the next port. -/
theorem routeBulk_routed {s : State} {p i : Nat} {e : Ingress} (hi : (s.port p).inbound[i]? = some e) (hnone : e.xfer = none) (hdrop : e.drop_ = false)
    (hroute : s.rd (FB_ROUTE_VALID e.tr.dstMod) ≠ 0) :
    routeBulk s p i = enterBulk s p i (bulkWay s e) e := by
  simp only [routeBulk, bulkWay, hi, hnone, hdrop, hroute, Option.isSome_none, Bool.false_eq_true, or_self, if_false]
  split <;> rfl

/-- Settles O40: each command is run on the port, the entry or the transfer that it names. -/
theorem transfersCrossLinks : Obligations.TransfersCrossLinks := by
  unfold Obligations.TransfersCrossLinks
  refine ⟨?_, ?_, ?_, ?_, ?_, ?_, ?_⟩
  · intro s i x f hi hx _ hvc hstale hair hoff hnew hearly hlate hroom hfree
    exact FirstAtPort.admitted ⟨hi, hx, hvc, hstale, hair, hoff⟩ hnew (slotOk_iff.2 ⟨hearly, hlate, hroom, hfree⟩)
  · intro s i x f hi hx _ hvc hstale hair hoff hnew hbad
    refine FirstAtPort.refused ⟨hi, hx, hvc, hstale, hair, hoff⟩ hnew (Bool.eq_false_iff.2 fun hok => ?_)
    obtain ⟨hearly, hlate, hroom, hfree⟩ := slotOk_iff.1 hok
    rcases hbad with hbad | hbad | hbad | ⟨k, hk, hclaimed⟩
    · omega
    · omega
    · omega
    · exact hfree k hk hclaimed
  · intro s p k hp hk
    have hexec : exec (.scheduledSlotTransmit p k) s = .next (slotBegin s p k) := (if_pos hp).trans (if_pos hk)
    refine ⟨fun hstand hcycle => ?_, fun hearly => ?_⟩
    · rw [hexec, slotBegin, if_neg (by simp [hstand, hcycle])]
      rfl
    · rw [hexec, slotBegin, if_pos hearly.symm]
  · intro s p i f e hp hrun hfree hi hflits hdue hgot hasked hothers
    have hcheck := lateCheck_requests hrun hfree hi hflits hdue hgot hasked hothers
    obtain ⟨c, hc⟩ := requestHold_port (s.raise (FB_EVENT_LATE_SCHED p)) kindSched p p
    have hsun := requestHold_sched (s.raise (FB_EVENT_LATE_SCHED p)) p hfree
    have hindex : (s.raise (FB_EVENT_LATE_SCHED p)).index = s.index :=
      State.rd_wr_off s 1 (f := FB_EVENT_LATE_SCHED p) (g := SD_MACHINE_INDEX)
        (by simp [FB_EVENT_LATE_SCHED, FB_EVENT_OFF, SD_MACHINE_INDEX, SD_MACHINE_OFF]; omega)
    refine ⟨_, (if_pos hp).trans (congrArg _ hcheck), ?_, ?_, ?_, ?_, ?_, ?_, ?_, ?_⟩
    · calc _ = (s.raise (FB_EVENT_LATE_SCHED p)).rd (FB_EVENT_LATE_SCHED p) := rd_reg (requestHold_sched_reg ..) _
        _ = 1 := State.rd_raise_same s (by simp [FB_EVENT_LATE_SCHED]) (Nat.le_refl _)
    · exact congrArg Sun.freeze hsun
    · rw [← hindex]
      exact congrArg Sun.holds hsun
    · rw [State.port_modPort_same, hc]
      rfl
    all_goals simp
  · intro s p i e y hp hstand hi hbefore hshown hgot hdrop hdue hy
    have hnow : presents s p e = true := by simp [presents, flitReady, hshown, hgot, hdrop, hdue]
    obtain ⟨hid, hx⟩ := xfer_presentTo hy
    obtain ⟨hsame, htiles, hports⟩ := presentTo_keeps s p e
    obtain ⟨z, f, hz, hleft, hdst, hlast, hcar, hoff, hfdue, hdata⟩ := xfer_enterFromPort e hx
    have hpresent := present_entry hstand hi hbefore hnow
    rw [hid] at hpresent
    have hport (q : Nat) : (enterFromPort (presentTo s p e) e y.id 1).port q = s.port q := port_of (by simp [hports]) q
    refine ⟨_, z, f, (if_pos hp).trans (congrArg _ hpresent), hz, hleft, hdst, hlast, hcar, hoff, ?_, hdata, ?_, fun q hq => ?_, ?_, ?_⟩
    · rw [hfdue, hsame.sun]
    · rw [State.port_modPort_same, hport]
      rfl
    · rw [State.port_modPort_ne _ _ hq, hport]
    · simp [htiles]
    · exact hsame.trans ⟨by simp, by simp, by simp, by simp, by simp⟩
  · intro s p i e hp hi hnone hdrop hroute
    have hroute' : routeBulk s p i = (dropBulk s p i e).incSat (FB_ERR_UNROUTED p) 1 := by simp [routeBulk, hi, hnone, hdrop, hroute]
    refine ⟨_, (if_pos hp).trans (congrArg _ hroute'), ?_, ?_, ?_, fun q hq => ?_, ?_⟩
    · exact State.rd_incSat_same (dropBulk s p i e) (f := FB_ERR_UNROUTED p) 1 (by simp [FB_ERR_UNROUTED]) (by simp [FB_ERR_UNROUTED])
    · exact congrArg Port.inbound (dropBulk_port_same s p i e)
    · show SMap.look ((dropBulk s p i e).port p).giveBack e.tr.cls 0 = _
      rw [dropBulk_port_same, giveBack_port_same, SMap.look_put_same]
    · exact dropBulk_port_ne s i e hq
    · simp
  · intro s p i e hp hi hnone hdrop hroute
    obtain ⟨hin, hleft, hdst, hop, hn, -⟩ := enteringTransfer_facts s p (bulkWay s e) e
    refine ⟨_, _, (if_pos hp).trans (congrArg _ (routeBulk_routed hi hnone hdrop hroute)), rfl, rfl, rfl, hin, hleft, hdst, hop, hn,
      enteringTransfer_way s p e, ?_, fun q hq => ?_, rfl, rfl, rfl, rfl, rfl, rfl⟩
    · exact congrArg Port.inbound (State.port_modPort_same ..)
    · exact State.port_modPort_ne _ _ hq

end Sys2Proof.Machine
end

section
/-!
PROOF. Link blocks (O41): a block that fails, one out of order, one in order, and the blocks that a port sends.
-/

namespace Sys2Proof.Machine
open Sys2Proof

-- receive: which block it is (R227, R230)

theorem blockReceive_failed {s : State} {p : Nat} {raw : List Byte} (sent : List Byte) (hup : s.rd (FB_STATUS_STATE p) = 5) (hdec : decodeBlock raw = none) :
    blockReceive s p sent raw = failBlock s p (parseBlock sent) := by
  rw [blockReceive, if_neg (show ¬ s.rd (FB_STATUS_STATE p) ≠ portUpCode from not_not_intro hup), hdec]

/-- The FEC count and the news of the other direction, which every intact block brings. -/
def acked (s : State) (p n : Nat) (b : Block) : State := (s.incSat (FB_ERR_FEC_CORRECTED p) n).modPort p (fun q => takeAck q b)

theorem blockReceive_decoded {s : State} {p n : Nat} {raw : List Byte} {b : Block} (sent : List Byte) (hup : s.rd (FB_STATUS_STATE p) = 5)
    (hdec : decodeBlock raw = some (b, n)) : blockReceive s p sent raw =
      if b.seq.toNat = (s.port p).rxSeq then acceptBlock (acked s p n b) p b else skipBlock (acked s p n b) p b := by
  rw [blockReceive, if_neg (show ¬ s.rd (FB_STATUS_STATE p) ≠ portUpCode from not_not_intro hup), hdec]
  rfl

theorem acked_port_same (s : State) (p n : Nat) (b : Block) : (acked s p n b).port p = takeAck (s.port p) b := State.port_modPort_same ..

theorem acked_port_ne (s : State) {p q : Nat} (n : Nat) (b : Block) (h : q ≠ p) : (acked s p n b).port q = s.port q := State.port_modPort_ne _ _ h

theorem oldBlock_eq_false_iff {q : Port} {b : Block} :
    oldBlock q b = false ↔ 2147483648 ≤ (q.rxSeq + 4294967296 - b.seq.toNat - 1) % 4294967296 := by
  simp [oldBlock]

-- a block that comes again (R230)

theorem missBlock_port_same (s : State) (p : Nat) (b : Block) :
    ∃ ms l, (missBlock s p b).port p = { s.port p with missed := ms, sched := l } ∧ b.seq.toNat ∈ ms := by
  have hmem : b.seq.toNat ∈ (if (s.port p).missed.contains b.seq.toNat then (s.port p).missed else (s.port p).missed ++ [b.seq.toNat]) := by
    split
    · next h => exact List.contains_iff_mem.1 h
    · simp
  rw [missBlock, State.port_modPort_same]
  dsimp only
  split
  · exact ⟨_, _, rfl, hmem⟩
  · exact ⟨_, _, rfl, hmem⟩

theorem missBlock_port_ne (s : State) {p q : Nat} (b : Block) (h : q ≠ p) : (missBlock s p b).port q = s.port q := State.port_modPort_ne _ _ h

/-- A port after a failure that is the `n`th of the block that it expects. -/
def Port.failed (n : Nat) (q : Port) : Port := { q with nak := true, asking := true, fails := n }

/-- The module after a failure, before the limit is looked at. -/
def failNoted (s : State) (p n : Nat) (b : Block) : State := (if oldBlock (s.port p) b then s else missBlock s p b).modPort p (Port.failed n)

theorem failNoted_keeps (s : State) (p n : Nat) (b : Block) : SameModule s (failNoted s p n b) ∧ (failNoted s p n b).tiles = s.tiles
    ∧ (failNoted s p n b).die.transfers = s.die.transfers ∧ ∀ q, q ≠ p → (failNoted s p n b).port q = s.port q := by
  unfold failNoted
  split
  · exact ⟨⟨rfl, rfl, rfl, rfl, rfl⟩, rfl, rfl, fun q hq => State.port_modPort_ne _ _ hq⟩
  · exact ⟨⟨rfl, rfl, rfl, rfl, rfl⟩, rfl, rfl, fun q hq => (State.port_modPort_ne _ _ hq).trans (missBlock_port_ne s b hq)⟩

theorem failNoted_port_same (s : State) (p n : Nat) (b : Block) : ∃ ms l,
    (failNoted s p n b).port p = { Port.failed n (s.port p) with missed := ms, sched := l }
    ∧ (oldBlock (s.port p) b = false → b.seq.toNat ∈ ms) := by
  unfold failNoted
  split
  · next hold => exact ⟨_, _, State.port_modPort_same .., fun h => absurd h (by simp [hold])⟩
  · obtain ⟨ms, l, hport, hmem⟩ := missBlock_port_same s p b
    exact ⟨ms, l, by rw [State.port_modPort_same, hport]; rfl, fun _ => hmem⟩

theorem failBlock_eq {s : State} {p n : Nat} {b : Block} (hn : n = if b.seq.toNat = (s.port p).rxSeq then (s.port p).fails + 1 else (s.port p).fails) :
    failBlock s p b = if 8 ≤ n then portDown (summary ((failNoted s p n b).raise (FB_EVENT_RETRY_LIMIT p)) 4 p 0) p else failNoted s p n b := by
  subst hn
  rfl

theorem skipBlock_later {s : State} {p : Nat} {b : Block} (h : oldBlock (s.port p) b = false) : skipBlock s p b = (missBlock s p b).modPort p (fun q => { q with
    nak := q.nak || !q.asking, asking := true, hpSeen := q.hpSeen ++ hpOf b, heard := q.heard ++ freshWords (s.port p) b }) := by
  simp [skipBlock, h]

theorem skipBlock_port_same {s : State} {p : Nat} {b : Block} (h : oldBlock (s.port p) b = false) : ∃ ms l seen heard,
    (skipBlock s p b).port p = { s.port p with
      nak := (s.port p).nak || !(s.port p).asking, asking := true, missed := ms, sched := l, hpSeen := seen, heard := heard } ∧ b.seq.toNat ∈ ms := by
  obtain ⟨ms, l, hport, hmem⟩ := missBlock_port_same s p b
  exact ⟨ms, l, _, _, by rw [skipBlock_later h, State.port_modPort_same, hport], hmem⟩

theorem skipBlock_later_keeps {s : State} {p : Nat} {b : Block} (h : oldBlock (s.port p) b = false) : SameModule s (skipBlock s p b)
    ∧ (skipBlock s p b).tiles = s.tiles ∧ (skipBlock s p b).die.transfers = s.die.transfers ∧ ∀ q, q ≠ p → (skipBlock s p b).port q = s.port q := by
  rw [skipBlock_later h]
  exact ⟨⟨rfl, rfl, rfl, rfl, rfl⟩, rfl, rfl, fun q hq => (State.port_modPort_ne _ _ hq).trans (missBlock_port_ne s b hq)⟩

-- a port goes down (R241)

theorem downHold_reg (s : State) (p : Nat) : (downHold s p).reg = s.reg := by
  unfold downHold
  split
  · exact requestHold_sched_reg s p
  · rfl

theorem portDown_regs {s : State} {p : Nat} (hup : s.rd (FB_STATUS_STATE p) = 5) : (portDown s p).rd (FB_STATUS_STATE p) = 0
    ∧ (portDown s p).rd (FB_EVENT_LINK_DOWN p) = 1 ∧ (portDown s p).rd (FB_EVENT_RETRY_LIMIT p) = s.rd (FB_EVENT_RETRY_LIMIT p) := by
  have hdown : portDown s p = downHold ((leaveUp s p).wr (FB_STATUS_STATE p) portDownCode) p := by
    simp [portDown, hup, portDownCode]
  have hleave : (leaveUp s p).reg = (s.raise (FB_EVENT_LINK_DOWN p)).reg := by
    rw [leaveUp, if_pos (show s.rd (FB_STATUS_STATE p) = portUpCode from hup)]
    rfl
  have hevent {f : Fld} (hf : f.off = FB_EVENT_OFF p) : (portDown s p).rd f = (s.raise (FB_EVENT_LINK_DOWN p)).rd f := by
    rw [hdown, rd_reg (downHold_reg _ p), State.rd_wr_off _ _ (by rw [hf]; simp [FB_STATUS_STATE, FB_STATUS_OFF, FB_EVENT_OFF]), rd_reg hleave]
  refine ⟨?_, ?_, ?_⟩
  · rw [hdown, rd_reg (downHold_reg _ p)]
    exact State.rd_wr_same _ (FB_STATUS_STATE p) _ (by simp [FB_STATUS_STATE]) (Nat.zero_le _)
  · rw [hevent rfl]
    exact State.rd_raise_same s (by simp [FB_EVENT_LINK_DOWN]) (Nat.le_refl _)
  · rw [hevent rfl]
    exact State.rd_wr_ne s _ (by simp [FB_EVENT_LINK_DOWN]) (Nat.le_refl _) (.inr (by simp [FB_EVENT_LINK_DOWN, FB_EVENT_RETRY_LIMIT]))

/-- The module after the eighth failure. -/
def failLimit (s : State) (p : Nat) (b : Block) : State :=
  portDown (summary ((failNoted s p ((s.port p).fails + 1) b).raise (FB_EVENT_RETRY_LIMIT p)) 4 p 0) p

theorem failLimit_regs {s : State} {p : Nat} (b : Block) (hup : s.rd (FB_STATUS_STATE p) = 5) : (failLimit s p b).rd (FB_STATUS_STATE p) = 0
    ∧ (failLimit s p b).rd (FB_EVENT_RETRY_LIMIT p) = 1 ∧ (failLimit s p b).rd (FB_EVENT_LINK_DOWN p) = 1 := by
  obtain ⟨hsame, -, -, -⟩ := failNoted_keeps s p ((s.port p).fails + 1) b
  have hup' : (summary ((failNoted s p ((s.port p).fails + 1) b).raise (FB_EVENT_RETRY_LIMIT p)) 4 p 0).rd (FB_STATUS_STATE p) = 5 := by
    rw [summary_rd _ _ _ _ _ (by simp [FB_STATUS_STATE, FB_STATUS_OFF, SH_STATUS_OFF]; omega), State.rd_raise,
      State.rd_wr_off _ _ (by simp [FB_STATUS_STATE, FB_EVENT_RETRY_LIMIT, FB_STATUS_OFF, FB_EVENT_OFF]), rd_reg hsame.reg, hup]
  obtain ⟨hstate, hdown, hlimit⟩ := portDown_regs hup'
  refine ⟨hstate, hlimit.trans ?_, hdown⟩
  rw [summary_rd _ _ _ _ _ (by simp [FB_EVENT_RETRY_LIMIT, FB_EVENT_OFF, SH_STATUS_OFF]; omega)]
  exact State.rd_raise_same _ (by simp [FB_EVENT_RETRY_LIMIT]) (Nat.le_refl _)

-- a block in order (R230)

/-- A port that uses a block whose number has not been missed. -/
def Port.accepted (b : Block) (q : Port) : Port := { takeCreditField q b with
  rxSeq := (b.seq.toNat + 1) % 4294967296, asking := false, fails := 0, missed := q.missed.filter (· != b.seq.toNat)
  hpSeen := if q.missed.isEmpty then hpOf b else q.hpSeen ++ hpOf b, heard := q.heard ++ freshWords q b }

/-- A port that has taken the news and the numbers of a block in order. -/
theorem accepted_says (b : Block) (q : Port) : (Port.accepted b (takeAck q b)).rxSeq = (b.seq.toNat + 1) % 2 ^ 32
    ∧ (Port.accepted b (takeAck q b)).fails = 0 ∧ (Port.accepted b (takeAck q b)).sched = q.sched
    ∧ (Port.accepted b (takeAck q b)).inbound = q.inbound
    ∧ SMap.look (Port.accepted b (takeAck q b)).credits b.creditCls 0 = SMap.look q.credits b.creditCls 0 + b.credits :=
  ⟨rfl, rfl, rfl, rfl, SMap.look_put_same ..⟩

/-- An entry that waits for no late flit releases no hold. -/
theorem releaseLate_idle {s : State} {p i : Nat} (h : ∀ e ∈ (s.port p).sched, e.asked = none) : releaseLate p s i = s := by
  unfold releaseLate
  split
  · next e he => rw [h e (List.mem_of_getElem? he)]
  · rfl

theorem foldl_recvFlit (p : Nat) (l : List (Option Flit)) (s : State) :
    l.foldl (recvFlit p) s = (l.filterMap id).foldl (fun s f => recvFlit p s (some f)) s := by
  induction l generalizing s with
  | nil => rfl
  | cons o l ih =>
    cases o with
    | none => exact ih s
    | some f => exact ih (recvFlit p s (some f))

theorem hpOf_eq (b : Block) : hpOf b = (b.flits.filterMap id).flatMap (fun f => if f.vc = 2 then (ctlPairs f.body).filter isHp else []) := by
  unfold hpOf
  induction b.flits with
  | nil => rfl
  | cons o l ih =>
    rw [List.flatMap_cons, ih]
    cases o <;> rfl

/-- A block in order with one flit, that brings no hold, release or time word, while no late flit is awaited: it moves the numbers and enters its flit. -/
theorem acceptBlock_single {s : State} {p : Nat} {b : Block} {f : Flit} (hnew : b.seq.toNat ∉ (s.port p).missed) (hflits : b.flits.filterMap id = [f])
    (hwords : f.vc = 2 → (ctlPairs f.body).filter isHp = [])
    (hasked : ∀ e ∈ ((recvFlit p (s.modPort p (Port.accepted b)) (some f)).port p).sched, e.asked = none) :
    acceptBlock s p b = recvFlit p (s.modPort p (Port.accepted b)) (some f) := by
  have hagain : (s.port p).missed.contains b.seq.toNat = false := by simpa using hnew
  have hhp : (hpOf b).isEmpty = true := by
    rw [hpOf_eq, hflits]
    by_cases hvc : f.vc = 2
    · simp [hvc, hwords hvc]
    · simp [hvc]
  have hflit : b.flits.foldl (recvFlit p) (s.modPort p (Port.accepted b)) = recvFlit p (s.modPort p (Port.accepted b)) (some f) := by
    rw [foldl_recvFlit, hflits]
    rfl
  have hrest : acceptBlock s p b = (List.range ((recvFlit p (s.modPort p (Port.accepted b)) (some f)).port p).sched.length).foldl (releaseLate p)
      (recvFlit p (s.modPort p (Port.accepted b)) (some f)) := by
    rw [← hflit]
    simp only [acceptBlock, hagain, noteLost, hhp, Bool.false_eq_true, if_false, if_true]
    rfl
  rw [hrest]
  exact foldl_range_idle fun _ _ => releaseLate_idle hasked

/-- The module when the numbers have moved on for a block in order, before its flits enter. -/
def usedBlock (s : State) (p n : Nat) (b : Block) : State := (acked s p n b).modPort p (Port.accepted b)

theorem usedBlock_port_same (s : State) (p n : Nat) (b : Block) : (usedBlock s p n b).port p = Port.accepted b (takeAck (s.port p) b) :=
  (State.port_modPort_same ..).trans (congrArg _ (acked_port_same ..))

theorem usedBlock_port_ne (s : State) {p q : Nat} (n : Nat) (b : Block) (h : q ≠ p) : (usedBlock s p n b).port q = s.port q :=
  (State.port_modPort_ne _ _ h).trans (acked_port_ne s n b h)

theorem blockReceive_single {s : State} {p n : Nat} {raw : List Byte} {b : Block} {f : Flit} (sent : List Byte) (hup : s.rd (FB_STATUS_STATE p) = 5)
    (hdec : decodeBlock raw = some (b, n)) (hseq : b.seq.toNat = (s.port p).rxSeq) (hnew : b.seq.toNat ∉ (s.port p).missed)
    (hflits : b.flits.filterMap id = [f]) (hwords : f.vc = 2 → (ctlPairs f.body).filter isHp = [])
    (hasked : ∀ e ∈ ((recvFlit p (usedBlock s p n b) (some f)).port p).sched, e.asked = none) :
    blockReceive s p sent raw = recvFlit p (usedBlock s p n b) (some f) := by
  rw [blockReceive_decoded sent hup hdec, if_pos hseq]
  refine acceptBlock_single ?_ hflits hwords hasked
  rw [acked_port_same]
  exact hnew

-- the flit of a block in order (R229, R231)

/-- The count of the channel of a flit that arrives, and the entry of a transfer whose route flit arrives. -/
def rxFlits (p vc : Nat) : Fld := if vc = 1 then FB_TRAFFIC_RX_SCHED_FLITS p else FB_TRAFFIC_RX_BULK_FLITS p
def routed (p : Nat) (f : Flit) : Ingress := Ingress.of (parseRoute p f.cls f.body) 1

/-- A port at which the route flit of a transfer of channel `vc` has arrived. -/
def Port.arrived (vc : Nat) (e : Ingress) (q : Port) : Port :=
  if vc = 1 then { q with sched := q.sched ++ [e] } else { q with inbound := q.inbound ++ [e] }

theorem arrived_keeps (vc : Nat) (e : Ingress) (q : Port) : (Port.arrived vc e q).rxSeq = q.rxSeq ∧ (Port.arrived vc e q).fails = q.fails
    ∧ (Port.arrived vc e q).credits = q.credits := by
  unfold Port.arrived
  split
  · exact ⟨rfl, rfl, rfl⟩
  · exact ⟨rfl, rfl, rfl⟩

theorem arrived_sched (e : Ingress) (q : Port) : (Port.arrived 1 e q).sched = q.sched ++ [e] ∧ (Port.arrived 1 e q).inbound = q.inbound := ⟨rfl, rfl⟩

theorem arrived_bulk (e : Ingress) (q : Port) : (Port.arrived 0 e q).sched = q.sched ∧ (Port.arrived 0 e q).inbound = q.inbound ++ [e] := ⟨rfl, rfl⟩

theorem arrived_asked_none {vc p : Nat} {f : Flit} {q : Port} (h : ∀ e ∈ q.sched, e.asked = none) :
    ∀ e ∈ (Port.arrived vc (routed p f) q).sched, e.asked = none := by
  unfold Port.arrived
  split
  · intro e he
    rcases List.mem_append.1 he with he | he
    · exact h e he
    · rw [List.mem_singleton.1 he]
      rfl
  · exact h

theorem recvFlit_first {s : State} {p : Nat} {f : Flit} (hvc : f.vc < 2) (hfirst : f.first = true) (hstand : s.replay.standing = false)
    (hgot : ∀ e ∈ (s.port p).sched, e.got ≠ 0) :
    recvFlit p s (some f) = (s.inc (rxFlits p f.vc) 1).modPort p (Port.arrived f.vc (routed p f)) := by
  rcases Nat.lt_or_ge f.vc 1 with h | h
  · have h0 : f.vc = 0 := by omega
    simp only [recvFlit, recvBulk, h0, hfirst, hstand, Nat.zero_ne_one, Bool.false_eq_true, if_false, if_true]
    rfl
  · have h1 : f.vc = 1 := by omega
    have hnone : (s.port p).sched.findIdx? (fun e => e.got == 0 && e.tr == (parseRoute p f.cls f.body).1) = none :=
      List.findIdx?_eq_none_iff.2 fun e he => by simp [hgot e he]
    have hroute : (s.inc (FB_TRAFFIC_RX_SCHED_FLITS p) 1).modPort p (fun q => routeSched q (parseRoute p f.cls f.body))
        = (s.inc (FB_TRAFFIC_RX_SCHED_FLITS p) 1).modPort p (Port.arrived 1 (routed p f)) := by
      refine congrArg (State.setPort _ p) ?_
      show routeSched (s.port p) _ = _
      rw [routeSched, hnone]
      rfl
    simp only [recvFlit, recvSched, h1, hfirst, hstand, Bool.false_eq_true, if_false, if_true]
    exact hroute

theorem State.port_inc (s : State) (f : Fld) (n p : Nat) : (s.inc f n).port p = s.port p := rfl

/-- The module when the route flit `f`, the only flit of a block in order, has entered. -/
def routeEntered (s : State) (p n : Nat) (b : Block) (f : Flit) : State :=
  ((usedBlock s p n b).inc (rxFlits p f.vc) 1).modPort p (Port.arrived f.vc (routed p f))

theorem routeEntered_port_same (s : State) (p n : Nat) (b : Block) (f : Flit) :
    (routeEntered s p n b f).port p = Port.arrived f.vc (routed p f) (Port.accepted b (takeAck (s.port p) b)) := by
  rw [routeEntered, State.port_modPort_same, State.port_inc, usedBlock_port_same]

theorem routeEntered_port_ne (s : State) {p q : Nat} (n : Nat) (b : Block) (f : Flit) (h : q ≠ p) : (routeEntered s p n b f).port q = s.port q := by
  rw [routeEntered, State.port_modPort_ne _ _ h, State.port_inc, usedBlock_port_ne s n b h]

theorem routeEntered_count (s : State) (p n : Nat) (b : Block) (f : Flit) :
    (routeEntered s p n b f).rd (rxFlits p f.vc) = (s.rd (rxFlits p f.vc) + 1) % 2 ^ 32 := by
  have hoff : (rxFlits p f.vc).off = FB_TRAFFIC_RX_OFF p := by
    unfold rxFlits
    split <;> rfl
  have hused : (usedBlock s p n b).rd (rxFlits p f.vc) = s.rd (rxFlits p f.vc) :=
    State.rd_wr_off s _ (by rw [hoff]; simp [FB_TRAFFIC_RX_OFF, FB_ERR_FEC_CORRECTED, FB_ERR_OFF])
  have hcount : ((usedBlock s p n b).inc (rxFlits p f.vc) 1).rd (rxFlits p f.vc) = ((usedBlock s p n b).rd (rxFlits p f.vc) + 1) % 2 ^ 32 := by
    rw [State.inc]
    unfold rxFlits
    split
    · exact State.rd_wr_same _ (FB_TRAFFIC_RX_SCHED_FLITS p) _ (by simp [FB_TRAFFIC_RX_SCHED_FLITS]) (Nat.zero_le _)
    · exact State.rd_wr_same _ (FB_TRAFFIC_RX_BULK_FLITS p) _ (by simp [FB_TRAFFIC_RX_BULK_FLITS]) (by simp [FB_TRAFFIC_RX_BULK_FLITS])
  exact hcount.trans (by rw [hused])

/-- The one control word of a flit that holds a word of KIND 6 and nothing else. -/
theorem ctlPairs_credit {l : List W64} {w : W64} (hbody : l = [w, 0, 0, 0, 0, 0, 0, 0]) (hkind : bits w 7 0 = 6) : ctlPairs l = [(w, 0)] := by
  have hzero : bits (0#64) 7 0 = 0 := by decide
  simp [hbody, ctlPairs, hkind, hzero]

/-- A credit word goes to its tile. -/
theorem recvFlit_credit {s : State} {p low : Nat} {f : Flit} {w : W64} (hvc : f.vc = 2) (hbody : f.body = [w, 0, 0, 0, 0, 0, 0, 0]) (hkind : bits w 7 0 = 6)
    (hlow : low = bits w 63 36) : recvFlit p s (some f)
      = pushCtl s (.credit (low % 256) (low / 256 % 32) (low / 8192)) (s.sun.tick + 3 + portHops (low % 256) p) := by
  simp [recvFlit, hvc, ctlPairs_credit hbody hkind, recvCtl, hkind, hlow]

-- transmit (R229, R230)

theorem testPattern_of_carries {s : State} {p : Nat} (h : portCarries s p = true) : testPattern s p = 0 := by
  simp only [portCarries, Bool.and_eq_true, beq_iff_eq] at h
  exact h.1.2

/-- What a flit position leaves alone: the NAK that the port is to send. -/
theorem pickFlit_nak (c : Cadence) (n : Nat) (q : Port) (second : List (W64 × W64)) : (pickFlit c n q second).1.nak = q.nak := by
  unfold pickFlit
  split
  · rfl
  · split
    · rfl
    · split
      · rfl
      · split <;> rfl

theorem fillBlock_nak (c : Cadence) (k n : Nat) (q : Port) (second : List (W64 × W64)) : (fillBlock c k n q second).1.nak = q.nak := by
  induction k generalizing n q second with
  | zero => rfl
  | succ k ih => exact (ih ..).trans (pickFlit_nak c n q second)

theorem fillBlock_length (c : Cadence) (k n : Nat) (q : Port) (second : List (W64 × W64)) : (fillBlock c k n q second).2.length = k := by
  induction k generalizing n q second with
  | zero => rfl
  | succ k ih => exact congrArg Nat.succ (ih ..)

/-- The block kept last is among those kept. -/
theorem mem_keptBlocks (l : List Block) (b : Block) : b ∈ (l ++ [b]).drop ((l ++ [b]).length - 16) := by
  have hlast : (l ++ [b]).length - 16 - l.length = 0 := by simp
  rw [List.drop_append, hlast]
  exact List.mem_append_right _ (List.mem_singleton_self b)

/-- What the seal sets, the block's ACK and NAK, and what it leaves as it is. -/
theorem sealBlock_says (q : Port) (b : Block) : (sealBlock q b).2.seq = b.seq ∧ (sealBlock q b).2.flits = b.flits
    ∧ (sealBlock q b).2.credits = b.credits ∧ (sealBlock q b).2.creditCls = b.creditCls ∧ (sealBlock q b).2.nak = q.nak
    ∧ (sealBlock q b).2.ack = (q.rxSeq + 32767) % 32768 := by
  simp only [sealBlock, and_self]

/-- A port when the first of the blocks that it is to send again has left. -/
def Port.sentAgain (rest : List Block) (q : Port) : Port := { q with retry := rest, nak := false }

theorem blockTransmit_again {s : State} {p : Nat} {b : Block} {rest : List Block} (h : portCarries s p = true) (hretry : (s.port p).retry = b :: rest) :
    blockTransmit s p = (s.setPort p (Port.sentAgain rest (s.port p))).emit (.block p (encodeBlock (sealBlock { s.port p with retry := rest } b).2)) := by
  rw [blockTransmit, if_neg (fun hp => hp.1 (testPattern_of_carries h)), if_neg (by simp [h])]
  dsimp only
  rw [hretry]
  rfl

/-- What a port puts into a block of its own, and the port that has put it there. -/
def filled (s : State) (p : Nat) : Port × List (Option Flit) :=
  fillBlock (if s.standing then none else some (s.rd (FB_SLOTS_SLOT_LEN p), s.sun.ctr)) 32 0 { s.port p with ctlAgain := [] } (s.port p).ctlAgain

theorem filled_nak (s : State) (p : Nat) : (filled s p).1.nak = (s.port p).nak := by
  unfold filled
  rw [fillBlock_nak]

theorem filled_length (s : State) (p : Nat) : (filled s p).2.length = 32 := by
  unfold filled
  rw [fillBlock_length]

/-- The block numbered `n` with the flits of `f`, before it is sealed, and the port that has filled it. -/
def newBlock (n : Nat) (f : Port × List (Option Flit)) : Port × Block :=
  creditField f.1 { flits := f.2, seq := w32 n, ack := 0, nak := false, credits := 0, creditCls := 0 }

/-- A port that has sent the block `r.2`, numbered `n`, and keeps it. -/
def Port.sentNew (n : Nat) (r : Port × Block) : Port :=
  { r.1 with nak := false, txSeq := (n + 1) % 4294967296, resend := (r.1.resend ++ [r.2]).drop ((r.1.resend ++ [r.2]).length - 16) }

/-- The module when port `p` has sent the block `r.2` that it has filled. -/
def blockSent (s : State) (p : Nat) (r : Port × Block) : State :=
  (((s.setPort p (Port.sentNew (s.port p).txSeq r)).inc (FB_TRAFFIC_TX_SCHED_FLITS p) (countVc r.2.flits 1)).inc (FB_TRAFFIC_TX_BULK_FLITS p)
    (countVc r.2.flits 0)).emit (.block p (encodeBlock (sealBlock r.1 r.2).2))

theorem blockSent_port_same (s : State) (p : Nat) (r : Port × Block) : (blockSent s p r).port p = Port.sentNew (s.port p).txSeq r :=
  State.port_setPort_same ..

theorem blockTransmit_new {s : State} {p : Nat} (h : portCarries s p = true) (hretry : (s.port p).retry = []) :
    blockTransmit s p = blockSent s p (newBlock (s.port p).txSeq (filled s p)) := by
  rw [blockTransmit, if_neg (fun hp => hp.1 (testPattern_of_carries h)), if_neg (by simp [h])]
  dsimp only
  split
  · next hcons => exact absurd (hretry.symm.trans hcons) (by simp)
  · dsimp only [filled]
    generalize fillBlock _ _ _ _ _ = f
    rfl

theorem newBlock_says (n : Nat) (f : Port × List (Option Flit)) :
    (newBlock n f).2.seq.toNat = n % 2 ^ 32 ∧ (newBlock n f).2.flits = f.2 ∧ (newBlock n f).1.nak = f.1.nak :=
  ⟨BitVec.toNat_ofNat n 32, rfl, rfl⟩

/-- Settles O41: each block is used, awaited again or counted as a failure, and a port sends one that was asked for again, or a new one. -/
theorem linkBlocksCross : Obligations.LinkBlocksCross := by
  unfold Obligations.LinkBlocksCross
  refine ⟨?_, ?_, ?_, ?_, ?_, ?_, ?_, ?_⟩
  · intro s p n sent raw b hp hup hdec hb hn hlim
    subst hb
    obtain ⟨hsame, htiles, htransfers, hports⟩ := failNoted_keeps s p n (parseBlock sent)
    obtain ⟨ms, l, hport, hmem⟩ := failNoted_port_same s p n (parseBlock sent)
    have hblock : blockReceive s p sent raw = failNoted s p n (parseBlock sent) := by
      rw [blockReceive_failed sent hup hdec, failBlock_eq hn, if_neg (Nat.not_le.2 hlim)]
    refine ⟨_, (if_pos hp).trans (congrArg _ hblock), ?_, ?_, ?_, fun hold => ?_, ?_, hports, htransfers, htiles, hsame⟩
    · rw [hport]; rfl
    · rw [hport]; rfl
    · rw [hport]; rfl
    · rw [hport]
      exact hmem (oldBlock_eq_false_iff.2 hold)
    · rw [hport]; rfl
  · intro s p sent raw hp hup hdec hseq hfails
    obtain ⟨hsame, htiles, -, -⟩ := failNoted_keeps s p ((s.port p).fails + 1) (parseBlock sent)
    have hblock : blockReceive s p sent raw = failLimit s p (parseBlock sent) := by
      rw [blockReceive_failed sent hup hdec, failBlock_eq (if_pos hseq).symm, if_pos (by omega)]
      rfl
    obtain ⟨hstate, hlimit, hdown⟩ := failLimit_regs (parseBlock sent) hup
    refine ⟨_, (if_pos hp).trans (congrArg _ hblock), hstate, hlimit, hdown, ?_, ?_, ?_⟩
    · simp [failLimit, htiles]
    · simp [failLimit, hsame.pvs]
    · simp [failLimit, hsame.fns]
  · intro s p n sent raw b hp hup hdec hseq hlater
    have hport := acked_port_same s p n b
    have hold : oldBlock ((acked s p n b).port p) b = false := by
      rw [hport]
      exact oldBlock_eq_false_iff.2 hlater
    obtain ⟨ms, l, seen, heard, hskip, hmem⟩ := skipBlock_port_same hold
    obtain ⟨hsame, htiles, htransfers, hports⟩ := skipBlock_later_keeps hold
    have hblock : blockReceive s p sent raw = skipBlock (acked s p n b) p b := (blockReceive_decoded sent hup hdec).trans (if_neg hseq)
    rw [hport] at hskip
    refine ⟨_, (if_pos hp).trans (congrArg _ hblock), ?_, fun hask => ?_, ?_, ?_, ?_, fun q hq => (hports q hq).trans (acked_port_ne s n b hq), htransfers,
      htiles, hsame.pvs, hsame.fns, hsame.out⟩
    · rw [hskip]; rfl
    · rw [hskip]
      simp [takeAck, hask]
    · rw [hskip]
      exact hmem
    · rw [hskip]; rfl
    · rw [rd_reg hsame.reg]
      exact State.rd_incSat_same s n (by simp [FB_ERR_FEC_CORRECTED]) (Nat.zero_le _)
  · intro s p n sent raw b f hp hup hdec hseq hnew hflits hvc hfirst hstand hsched
    obtain ⟨hrx, hfails, hsch, hin, hcredits⟩ := accepted_says b (s.port p)
    obtain ⟨krx, kfails, kcredits⟩ := arrived_keeps f.vc (routed p f) (Port.accepted b (takeAck (s.port p) b))
    have hused := usedBlock_port_same s p n b
    have hport := routeEntered_port_same s p n b f
    have hflit : recvFlit p (usedBlock s p n b) (some f) = routeEntered s p n b f :=
      recvFlit_first hvc hfirst hstand fun e he => (hsched e (by rwa [hused, hsch] at he)).2
    have hblock : blockReceive s p sent raw = routeEntered s p n b f := by
      rw [blockReceive_single sent hup hdec hseq hnew hflits (fun h => absurd h (by omega)), hflit]
      rw [hflit, hport]
      exact arrived_asked_none fun e he => (hsched e (hsch ▸ he)).1
    have hcount := routeEntered_count s p n b f
    refine ⟨_, routed p f, (if_pos hp).trans (congrArg _ hblock), ?_, ?_, rfl, fun h1 => ?_, fun h0 => ?_, ?_,
      fun q hq => routeEntered_port_ne s n b f hq, rfl, rfl, rfl, rfl⟩
    · rw [hport, krx, hrx]
    · rw [hport, kfails, hfails]
    · obtain ⟨asched, ainbound⟩ := arrived_sched (routed p f) (Port.accepted b (takeAck (s.port p) b))
      rw [hport, h1, asched, ainbound, hsch, hin]
      rw [h1] at hcount
      exact ⟨rfl, rfl, hcount⟩
    · obtain ⟨asched, ainbound⟩ := arrived_bulk (routed p f) (Port.accepted b (takeAck (s.port p) b))
      rw [hport, h0, asched, ainbound, hsch, hin]
      rw [h0] at hcount
      exact ⟨rfl, rfl, hcount⟩
    · rw [hport, kcredits, hcredits]
  · intro s p n low sent raw b f w hp hup hdec hseq hnew hflits hvc hbody hkind hlow hsched
    obtain ⟨hrx, -, hsch, -, -⟩ := accepted_says b (s.port p)
    have hflit := recvFlit_credit (s := usedBlock s p n b) (p := p) hvc hbody hkind hlow
    have hport : (recvFlit p (usedBlock s p n b) (some f)).port p = Port.accepted b (takeAck (s.port p) b) := by
      rw [hflit]
      exact usedBlock_port_same s p n b
    have hwords : (ctlPairs f.body).filter isHp = [] := by
      rw [ctlPairs_credit hbody hkind]
      simp [isHp, hkind]
    have hblock : blockReceive s p sent raw = recvFlit p (usedBlock s p n b) (some f) :=
      blockReceive_single sent hup hdec hseq hnew hflits (fun _ => hwords) (by rw [hport, hsch]; exact hsched)
    refine ⟨_, (if_pos hp).trans (congrArg _ hblock), by rw [hport, hrx], ?_, by rw [hport, hsch], ?_⟩
    · rw [hflit]; rfl
    · rw [hflit]
      exact ⟨rfl, rfl, rfl, rfl⟩
  · intro s p b rest hp hcarries hretry
    obtain ⟨sseq, sflits, scredits, scls, snak, sack⟩ := sealBlock_says { s.port p with retry := rest } b
    have hport : (s.setPort p (Port.sentAgain rest (s.port p))).port p = Port.sentAgain rest (s.port p) := State.port_setPort_same ..
    exact ⟨_, _, (if_pos hp).trans (congrArg _ (blockTransmit_again hcarries hretry)), rfl, sseq, sflits, scredits, scls, snak, sack,
      congrArg Port.retry hport, congrArg Port.nak hport, (congrArg Port.txSeq hport).trans rfl, rfl, rfl, rfl, rfl⟩
  · intro s p hp hcarries hretry
    obtain ⟨hseq, hflits, hnak⟩ := newBlock_says (s.port p).txSeq (filled s p)
    have hsent := blockTransmit_new hcarries hretry
    generalize newBlock (s.port p).txSeq (filled s p) = r at hseq hflits hnak hsent
    obtain ⟨sseq, sflits, scredits, -, snak, -⟩ := sealBlock_says r.1 r.2
    have hport := blockSent_port_same s p r
    refine ⟨_, (sealBlock r.1 r.2).2, (if_pos hp).trans (congrArg _ hsent), rfl, ?_, ?_, ?_, ⟨r.2, ?_, sseq.symm, sflits.symm, scredits.symm⟩,
      ?_, rfl, rfl, rfl⟩
    · rw [sseq, hseq]
    · rw [sflits, hflits, filled_length]
    · rw [snak, hnak, filled_nak]
    · rw [hport]
      exact mem_keptBlocks r.1.resend r.2
    · rw [hport]; rfl
  · intro s p hp hon hlo hhi
    have hpattern : testPattern s p = s.rd (FB_CTRL_TEST_PATTERN p) := if_pos hhi
    have hsent : blockTransmit s p = s.emit (.pattern p (testPattern s p)) := if_pos ⟨by omega, hon⟩
    exact (if_pos hp).trans (by rw [hsent, hpattern]; rfl)

end Sys2Proof.Machine
end

section
/-!
PROOF. Lodge cores (O44): what their registers read after a change, traps, the instruction that a core runs, and
its store buffer.
-/

namespace Sys2Proof.Machine
open Sys2Proof

-- registers and CSRs of a core after a change (R243)

theorem lodge_of {a b : State} (h : a.die.lodges = b.die.lodges) (k : Nat) : a.lodge k = b.lodge k := by unfold State.lodge; rw [h]

theorem Lodge.xr_xw (l : Lodge) (n m : Nat) (v : W64) : (l.xw n v).xr m = if m = n ∧ m ≠ 0 then v else l.xr m := by
  unfold Lodge.xw Lodge.xr
  by_cases hm : m = 0
  · simp [hm]
  · by_cases hn : n = 0
    · simp [hn, hm]
    · simp [hn, hm, SMap.look_put]

/-- A write of an integer register changes nothing else. -/
theorem Lodge.xw_eq (l : Lodge) (n : Nat) (v : W64) : ∃ x, l.xw n v = { l with x := x } := by
  unfold Lodge.xw
  split
  · exact ⟨l.x, rfl⟩
  · exact ⟨_, rfl⟩

theorem Lodge.csrW_setCsr (l : Lodge) (n m : Nat) (v : W64) : (l.setCsr n v).csrW m = if m = n then v else l.csrW m := SMap.look_put ..

/-- The core after an instruction that retires: the count of minstret and the next pc. -/
def Lodge.retired (l : Lodge) (next : W64) : Lodge := { l.setCsr 0xB02 (l.csrW 0xB02 + 1) with pc := next }

theorem lodgeRetire_eq (s : State) (k : Nat) (l : Lodge) (next : W64) : lodgeRetire s k l next = s.setLodge k (l.retired next) := rfl

theorem Lodge.retired_csrW (l : Lodge) (next : W64) (n : Nat) :
    (l.retired next).csrW n = if n = 0xB02 then l.csrW 0xB02 + 1 else l.csrW n := l.csrW_setCsr ..

theorem Lodge.retired_xw_xr (l : Lodge) (n m : Nat) (v next : W64) : ((l.xw n v).retired next).xr m = if m = n ∧ m ≠ 0 then v else l.xr m :=
  l.xr_xw n m v

/-- A retirement with a register written changes that register, minstret and the pc alone. -/
theorem Lodge.retired_xw_eq (l : Lodge) (n : Nat) (v next : W64) : ∃ x, (l.xw n v).retired next = { (l.retired next) with x := x } := by
  obtain ⟨x, hx⟩ := l.xw_eq n v
  exact ⟨x, by rw [hx]; rfl⟩

-- traps

/-- A trap leaves the registers, the memories and the store buffer alone. -/
theorem Lodge.trap_keeps (l : Lodge) (i : Bool) (cause : Nat) (tval : W64) : (l.trap i cause tval).x = l.x ∧ (l.trap i cause tval).isram = l.isram
    ∧ (l.trap i cause tval).dsram = l.dsram ∧ (l.trap i cause tval).reg = l.reg ∧ (l.trap i cause tval).stores = l.stores
    ∧ (l.trap i cause tval).wfi = l.wfi := ⟨rfl, rfl, rfl, rfl, rfl, rfl⟩

/-- What a trap leaves in the CSRs: the pc, the cause and the value, interrupts masked, minstret as it was. -/
theorem Lodge.trap_csrs (l : Lodge) (i : Bool) (cause : Nat) (tval : W64) :
    (l.trap i cause tval).csrW 0x341 = l.pc ∧ (l.trap i cause tval).csrW 0x342 = w64 (cause + if i then 2 ^ 63 else 0)
      ∧ (l.trap i cause tval).csrW 0x343 = tval ∧ bit ((l.trap i cause tval).csrW 0x300) 3 = false
      ∧ (l.trap i cause tval).csrW 0xB02 = l.csrW 0xB02 := by
  have hcsr : ∀ n, (l.trap i cause tval).csrW n = ((((l.setCsr 0x341 l.pc).setCsr 0x342 (w64 (cause + if i then 2 ^ 63 else 0))).setCsr 0x343
      tval).setCsr 0x300 (setBits (setBits (l.csrW 0x300) 7 7 (ofBool (bit (l.csrW 0x300) 3))) 3 3 (ofBool false))).csrW n := fun _ => rfl
  simp [hcsr, Lodge.csrW_setCsr, bit_setBits_one]

/-- An exception, or an interrupt that mtvec does not make vectored, goes to the base of mtvec. -/
theorem Lodge.trap_pc (l : Lodge) {i : Bool} (cause : Nat) (tval : W64) (h : (i && bit (l.csrW 0x305) 0) = false) :
    (l.trap i cause tval).pc = l.csrW 0x305 &&& ~~~ 3 := by
  simp [Lodge.trap, h]

-- an access fault (R257)

theorem Lodge.rd_flag {l : Lodge} {f : Fld} (h : f.hi = f.lo) (h0 : l.rd f ≠ 0) : l.rd f = 1 := by
  have hlt : l.rd f < 2 ^ (f.hi + 1 - f.lo) := bits_lt ..
  rw [h, Nat.add_sub_cancel_left] at hlt
  omega

/-- LG_ERR with its first record. -/
def Lodge.noted (l : Lodge) (kind a : Nat) : Lodge :=
  if l.rd LG_ERR_VALID = 0 then ((l.raise LG_ERR_VALID).wr LG_ERR_KIND kind).wr LG_ERR_ADDRESS a else l

theorem lodgeFault_eq (s : State) (k cause kind : Nat) (a : W64) :
    lodgeFault s k cause kind a = s.setLodge k (((s.lodge k).noted kind a.toNat).trap false cause a) := by
  unfold lodgeFault lodgeTrap lodgeErr Lodge.noted
  by_cases h : (s.lodge k).rd LG_ERR_VALID = 0
  · simp [h]
  · simp [h]

/-- A record of LG_ERR changes registers with their log of W1C sets. -/
theorem Lodge.noted_eq (l : Lodge) (kind a : Nat) : ∃ r j, l.noted kind a = { l with reg := r, just := j } := by
  unfold Lodge.noted
  split
  · exact ⟨_, _, rfl⟩
  · exact ⟨l.reg, l.just, rfl⟩

theorem Lodge.noted_valid (l : Lodge) (kind a : Nat) : (l.noted kind a).rd LG_ERR_VALID = 1 := by
  unfold Lodge.noted
  split
  · simp (disch := decide) only [Lodge.rd_wr_ne, Lodge.rd_raise, Lodge.rd_wr_same]
    rfl
  · next h => exact Lodge.rd_flag rfl h

theorem Lodge.noted_kind {l : Lodge} (kind a : Nat) (h : l.rd LG_ERR_VALID = 0) : (l.noted kind a).rd LG_ERR_KIND = kind % 8 := by
  rw [Lodge.noted, if_pos h]
  simp (disch := decide) only [Lodge.rd_wr_ne, Lodge.rd_wr_same]
  rfl

-- the instruction that a core runs (R243, R250)

theorem exec_lodgeInstruction (s : State) {k : Nat} (chk : Check) (hk : k < 16) :
    exec (.lodgeInstruction k chk) s = .next (lodgeInstruction s k chk) := if_pos hk

/-- A core that runs, awake and with no interrupt pending, fetches. -/
theorem lodgeInstruction_fetch {s : State} {k : Nat} (chk : Check) (hrun : (s.lodge k).rd LG_CTRL_RUN = 1) (hwfi : (s.lodge k).wfi = false)
    (hquiet : lodgePending (s.lodge k) = false) : lodgeInstruction s k chk = lodgeFetch s k chk := by
  have hsame : lodgePending { s.lodge k with wfi := false } = false := hquiet
  simp [lodgeInstruction, hrun, hwfi, hsame]

/-- A core that runs takes an enabled interrupt that is pending instead (R250). -/
theorem lodgeInstruction_interrupt {s : State} {k : Nat} (chk : Check) (hrun : (s.lodge k).rd LG_CTRL_RUN = 1)
    (hpend : lodgePending (s.lodge k) = true) (hmie : bit ((s.lodge k).csrW 0x300) 3 = true) (hmeie : bit ((s.lodge k).csrW 0x304) 11 = true) :
    lodgeInstruction s k chk = s.setLodge k (Lodge.trap { s.lodge k with wfi := false } true 11 0) := by
  have hrun0 : (s.lodge k).rd LG_CTRL_RUN ≠ 0 := by rw [hrun]; decide
  have htaken : (lodgePending { s.lodge k with wfi := false } && bit (Lodge.csrW { s.lodge k with wfi := false } 0x300) 3
      && bit (Lodge.csrW { s.lodge k with wfi := false } 0x304) 11) = true := by
    rw [Bool.and_eq_true, Bool.and_eq_true]
    exact ⟨⟨hpend, hmie⟩, hmeie⟩
  unfold lodgeInstruction
  simp only [hrun0, hpend, htaken]
  cases (s.lodge k).wfi <;> simp

/-- The two low bytes of a word say whether it is compressed. -/
theorem rdLe_low_bits (m : Mem) (a : Nat) : Mem.rdLe m a 2 % 4 = Mem.rdLe m a 4 % 4 := by
  simp only [Mem.rdLe, Mem.rdN, List.range_succ, List.range_zero, List.nil_append, List.cons_append, List.map_cons, List.map_nil, leNat]
  omega

/-- A word of 32 bits that lies in instruction SRAM is executed. -/
theorem lodgeFetch_word {s : State} {k w : Nat} (ha : (s.lodge k).pc.toNat + 4 ≤ 0x10000) (hw : w = Mem.rdLe (s.lodge k).isram (s.lodge k).pc.toNat 4)
    (h3 : w % 4 = 3) : lodgeFetch s k .clean = lodgeExec s k w 4 .clean := by
  have hlow : Mem.rdLe (s.lodge k).isram (s.lodge k).pc.toNat 2 % 4 = 3 := by rw [rdLe_low_bits, ← hw, h3]
  have hlo : ¬ 0x10000 ≤ (s.lodge k).pc.toNat := by omega
  have hhi : ¬ 0x10000 ≤ (s.lodge k).pc.toNat + 2 := by omega
  simp only [lodgeFetch, lodgeChk, isUe, hlow, hlo, hhi, ← hw]
  rfl

/-- Core `k` is about to run word `w` of 32 bits. -/
structure AtWord (s : State) (k w : Nat) : Prop where
  core : k < 16
  run : (s.lodge k).rd LG_CTRL_RUN = 1
  awake : (s.lodge k).wfi = false
  quiet : lodgePending (s.lodge k) = false
  inside : (s.lodge k).pc.toNat + 4 ≤ 0x10000
  word : w = Mem.rdLe (s.lodge k).isram (s.lodge k).pc.toNat 4

theorem AtWord.exec_eq {s : State} {k w : Nat} (h : AtWord s k w) (h3 : w % 4 = 3) :
    exec (.lodgeInstruction k .clean) s = .next (lodgeExec s k w 4 .clean) := by
  rw [exec_lodgeInstruction s .clean h.core, lodgeInstruction_fetch .clean h.run h.awake h.quiet, lodgeFetch_word h.inside h.word h3]

/-- ADDI (R243). -/
theorem AtWord.addi {s : State} {k w : Nat} (h : AtWord s k w) (hop : w % 128 = 0x13) (hf3 : rvF3 w = 0) :
    exec (.lodgeInstruction k .clean) s = .next (s.setLodge k
      (((s.lodge k).xw (rvRd w) ((s.lodge k).xr (rvRs1 w) + rvImmI w)).retired ((s.lodge k).pc + 4))) := by
  rw [h.exec_eq (by omega)]
  simp only [lodgeExec, hop, lodgeDoImm, hf3]
  rfl

/-- ECALL (R243). -/
theorem AtWord.ecall {s : State} {k : Nat} (h : AtWord s k 0x73) :
    exec (.lodgeInstruction k .clean) s = .next (s.setLodge k ((s.lodge k).trap false 11 0)) := by
  rw [h.exec_eq (by decide)]
  rfl

-- loads and stores of a tile's scratchpad (R244, R246, R248)

theorem takeClaim_sp (s : State) (p q : Nat) (c : Claim) : ((takeClaim s p c).tile q).sp = (s.tile q).sp := by
  unfold takeClaim
  by_cases hq : q = p
  · rw [hq, State.tile_modTile_same]
  · rw [State.tile_modTile_ne _ _ hq]

/-- The state after a clean load of 8 bytes has taken its claim on port B. -/
def padTaken (s : State) (t x : Nat) : State :=
  takeClaim (noteSp s (s.phys t) 1 (x / 8) (x / 8 + 1) .clean true) (s.phys t) (padRead x 8)

theorem padTaken_keeps (s : State) (t x : Nat) : SameModule s (padTaken s t x) ∧ (padTaken s t x).die = s.die
    ∧ ∀ p, ((padTaken s t x).tile p).sp = (s.tile p).sp := by
  refine ⟨⟨by simp [padTaken, noteSp], by simp [padTaken], by simp [padTaken], by simp [padTaken, noteSp], by simp [padTaken, noteSp]⟩,
    by simp [padTaken, noteSp], fun p => ?_⟩
  exact (takeClaim_sp ..).trans (congrArg Tile.sp (siteClean_tile ..))

section
variable {s : State} {k t x : Nat} {a : W64} (hmap : lodgeMap s k a.toNat = .pad t x)
include hmap

/-- A load of 8 bytes inside the window, whose claim is granted, does not wait. -/
theorem lodgeWaits_load (hclaim : claimOk s (s.phys t) (padRead x 8) = true) : lodgeWaits s k 8 a false = false := by
  simp [lodgeWaits, hmap, hclaim]

theorem lodgeLoad_pad (hwin : windowOk (s.tile (s.phys t)) (x, x + 7) = true) :
    lodgeLoad s k 8 a .clean = (padTaken s t x, some (Mem.rdLe (padSeen s k t) x 8)) := by
  simp only [lodgeLoad, hmap, lodgeChk, isUe, show x + 8 - 1 = x + 7 from rfl, hwin]
  rfl

theorem lodgeWaits_store : lodgeWaits s k 8 a true = decide (8 ≤ (s.lodge k).stores.length) := by
  simp [lodgeWaits, hmap]

/-- A store of 8 bytes inside the window enters the store buffer. -/
theorem lodgeStore_pad (v : Nat) (hwin : windowOk (s.tile (s.phys t)) (x, x + 7) = true) (hroom : (s.lodge k).stores.length < 8) :
    lodgeStore s k 8 a v .clean = (s.setLodge k { s.lodge k with stores := (s.lodge k).stores ++ [.bytes t x (leBytes 8 v)] }, true) := by
  simp only [lodgeStore, hmap, show x + 8 - 1 = x + 7 from rfl, hwin, pushStore, if_pos hroom]
  rfl

theorem lodgeStore_outside (v : Nat) (hwin : windowOk (s.tile (s.phys t)) (x, x + 7) = false) :
    lodgeStore s k 8 a v .clean = (lodgeFault s k 7 errWindow a, false) := by
  simp only [lodgeStore, hmap, show x + 8 - 1 = x + 7 from rfl, hwin]
  rfl

end

theorem sx_64 (v : Nat) : sx 64 v = w64 v := BitVec.signExtend_eq _

/-- LD (R246): the claim on port B is taken, and the register gets the 8 bytes that the core sees. -/
theorem AtWord.ld {s : State} {k w t x : Nat} {a : W64} (h : AtWord s k w) (hop : w % 128 = 0x03) (hf3 : rvF3 w = 3)
    (ha : a = (s.lodge k).xr (rvRs1 w) + rvImmI w) (halign : a.toNat % 8 = 0) (hmap : lodgeMap s k a.toNat = .pad t x)
    (hwin : windowOk (s.tile (s.phys t)) (x, x + 7) = true) (hclaim : claimOk s (s.phys t) (padRead x 8) = true) :
    exec (.lodgeInstruction k .clean) s = .next ((padTaken s t x).setLodge k
      (((s.lodge k).xw (rvRd w) (w64 (Mem.rdLe (padSeen s k t) x 8))).retired ((s.lodge k).pc + 4))) := by
  have hkeep : (padTaken s t x).lodge k = s.lodge k := lodge_of (congrArg Die.lodges (padTaken_keeps s t x).2.1) k
  rw [h.exec_eq (by omega)]
  simp [lodgeExec, hop, lodgeDoLoad, hf3, ← ha, rvSize, halign, lodgeWaits_load hmap hclaim, lodgeLoad_pad hmap hwin, hkeep, sx_64, lodgeRetire_eq]
  rfl

section
variable {s : State} {k w t x : Nat} {a : W64} (h : AtWord s k w) (hop : w % 128 = 0x23) (hf3 : rvF3 w = 3)
  (ha : a = (s.lodge k).xr (rvRs1 w) + rvImmS w) (halign : a.toNat % 8 = 0) (hmap : lodgeMap s k a.toNat = .pad t x)
include h hop hf3 ha halign hmap

/-- SD to a full store buffer waits (R244). -/
theorem AtWord.sd_waits (hfull : (s.lodge k).stores.length = 8) : exec (.lodgeInstruction k .clean) s = .next s := by
  rw [h.exec_eq (by omega)]
  simp [lodgeExec, hop, lodgeDoStore, hf3, ← ha, rvSize, halign, lodgeWaits_store hmap, hfull]

/-- SD with room in the store buffer enters it (R244, R248). -/
theorem AtWord.sd (hroom : (s.lodge k).stores.length < 8) (hwin : windowOk (s.tile (s.phys t)) (x, x + 7) = true) :
    exec (.lodgeInstruction k .clean) s = .next (s.setLodge k (Lodge.retired
      { s.lodge k with stores := (s.lodge k).stores ++ [.bytes t x (leBytes 8 ((s.lodge k).xr (rvRs2 w)).toNat)] } ((s.lodge k).pc + 4))) := by
  have hv : ((s.lodge k).xr (rvRs2 w)).toNat % 18446744073709551616 = ((s.lodge k).xr (rvRs2 w)).toNat := Nat.mod_eq_of_lt (BitVec.isLt _)
  have hfull : ¬ 8 ≤ (s.lodge k).stores.length := Nat.not_le.2 hroom
  rw [h.exec_eq (by omega)]
  simp [lodgeExec, hop, lodgeDoStore, hf3, ← ha, rvSize, halign, lodgeWaits_store hmap, hfull, hv, lodgeStore_pad hmap _ hwin hroom, lodgeRetire_eq]
  rfl

/-- SD outside the window is an access fault (R189, R246). -/
theorem AtWord.sd_faults (hroom : (s.lodge k).stores.length < 8) (hwin : windowOk (s.tile (s.phys t)) (x, x + 7) = false) :
    exec (.lodgeInstruction k .clean) s = .next (lodgeFault s k 7 errWindow a) := by
  have hfull : ¬ 8 ≤ (s.lodge k).stores.length := Nat.not_le.2 hroom
  rw [h.exec_eq (by omega)]
  simp [lodgeExec, hop, lodgeDoStore, hf3, ← ha, rvSize, halign, lodgeWaits_store hmap, hfull, lodgeStore_outside hmap _ hwin]

end

-- the store buffer drains (R244, R248)

/-- The oldest store of a scratchpad whose claim on port W is granted leaves the buffer and is written. -/
theorem drainStore_bytes {s : State} {k t x : Nat} {b : List Byte} {r : List Store} (hst : (s.lodge k).stores = .bytes t x b :: r)
    (hclaim : claimOk s (s.phys t) (.row 2 9 x b.length) = true) : drainStore s k =
      spWrite (takeClaim (storeGone s k) (s.phys t) (.row 2 9 x b.length)) (s.phys t) bySpUnit x b := by
  simp [drainStore, hst, hclaim]

-- release and reset (R254, R257)

theorem setRun_release {s : State} {k : Nat} (h : (s.lodge k).rd LG_CTRL_RUN = 0) : setRun s k true = s.setLodge k
    { (s.lodge k).wr LG_CTRL_RUN 1 with
      wfi := false, pc := 0, x := [], f := [], csr := [(0xB00, 0 - w64 (lodgeCycles s))], reserve := none } := by
  simp [setRun, h, ofBool]

theorem setRun_hold (s : State) (k : Nat) : setRun s k false = s.setLodge k { (s.lodge k).wr LG_CTRL_RUN 0 with wfi := false } := by
  simp [setRun, ofBool]

/-- Settles O44: each clause takes the equation of its command and reads the core that it leaves. -/
theorem lodgeCoresRun : Obligations.LodgeCoresRun := by
  unfold Obligations.LodgeCoresRun
  refine ⟨?release, ?hold, ?inReset, ?addi, ?ld, ?sd, ?drain, ?ecall, ?interrupt⟩
  case release =>
    intro s k hk hrun
    have hset : ((s.lodge k).wr LG_CTRL_RUN 1).rd LG_CTRL_RUN = 1 := Lodge.rd_wr_same _ _ _ (by decide) (by decide)
    refine ⟨_, (if_pos hk).trans (congrArg _ (setRun_release hrun)), hset, ?_, rfl, fun n => ?_, rfl, rfl, rfl, rfl, rfl, rfl, fun o ho => ?_⟩
    · exact if_neg (fun hstopped => absurd (hset.symm.trans hstopped) (by decide))
    · unfold Lodge.xr
      split <;> rfl
    · exact Lodge.regW_wr_ne _ _ ho
  case hold =>
    intro s k hk
    have hset : ((s.lodge k).wr LG_CTRL_RUN 0).rd LG_CTRL_RUN = 0 := Lodge.rd_wr_same _ _ _ (by decide) (by decide)
    exact ⟨_, (if_pos hk).trans (congrArg _ (setRun_hold s k)), if_pos hset, rfl, rfl, rfl, rfl, fun o ho => Lodge.regW_wr_ne _ _ ho⟩
  case inReset =>
    intro s k chk hk hrun
    rw [exec_lodgeInstruction s chk hk]
    exact congrArg _ (if_pos hrun)
  case addi =>
    rintro s k w a l hk rfl hrun hwfi hquiet rfl hin hw hop hf3
    have hat : AtWord s k w := ⟨hk, hrun, hwfi, hquiet, hin, hw⟩
    obtain ⟨x, hx⟩ := (s.lodge k).retired_xw_eq (rvRd w) ((s.lodge k).xr (rvRs1 w) + rvImmI w) ((s.lodge k).pc + 4)
    have hcsr := (s.lodge k).retired_csrW ((s.lodge k).pc + 4)
    refine ⟨_, hat.addi hop hf3, ?_, fun n => Lodge.retired_xw_xr .., ?_⟩
    · rw [hx]; rfl
    · rw [hx]
      exact ⟨fun n hn => (hcsr n).trans (if_neg hn), (hcsr 0xB02).trans (if_pos rfl), rfl, rfl, rfl, rfl, rfl, rfl⟩
  case ld =>
    rintro s k w a t x v l hk rfl hrun hwfi hquiet rfl hin hw hop hf3 hv halign hmap hwin hclaim
    have hat : AtWord s k w := ⟨hk, hrun, hwfi, hquiet, hin, hw⟩
    obtain ⟨⟨hreg, hpvs, hfns, hsun, hout⟩, -, hsp⟩ := padTaken_keeps s t x
    obtain ⟨y, hy⟩ := (s.lodge k).retired_xw_eq (rvRd w) (w64 (Mem.rdLe (padSeen s k t) x 8)) ((s.lodge k).pc + 4)
    refine ⟨_, hat.ld hop hf3 hv halign hmap hwin hclaim, ?_, fun n => ?_, ?_, ?_, hsp, ⟨hreg, hpvs, hfns, hsun, hout⟩⟩
    · rw [State.lodge_setLodge_same, hy]; rfl
    · rw [State.lodge_setLodge_same]; exact Lodge.retired_xw_xr ..
    · rw [State.lodge_setLodge_same, hy]; rfl
    · rw [State.lodge_setLodge_same, hy]; rfl
  case sd =>
    rintro s k w a t x v l hk rfl hrun hwfi hquiet rfl hin hw hop hf3 hv halign hmap
    have hat : AtWord s k w := ⟨hk, hrun, hwfi, hquiet, hin, hw⟩
    refine ⟨hat.sd_waits hop hf3 hv halign hmap, fun hroom hwin => ?_, fun hroom hwin => ?_⟩
    · exact ⟨_, hat.sd hop hf3 hv halign hmap hroom hwin, rfl, rfl, rfl, rfl, rfl, rfl, (Lodge.retired_csrW ..).trans (if_pos rfl)⟩
    · obtain ⟨r, j, hnoted⟩ := (s.lodge k).noted_eq errWindow v.toNat
      have hvalid := (s.lodge k).noted_valid errWindow v.toNat
      have hkind := Lodge.noted_kind (l := s.lodge k) errWindow v.toNat
      refine ⟨_, (hat.sd_faults hop hf3 hv halign hmap hroom hwin).trans (congrArg _ (lodgeFault_eq ..)), ?_⟩
      generalize (s.lodge k).noted errWindow v.toNat = m at *
      obtain ⟨hpc, hcause, hval, -, -⟩ := m.trap_csrs false 7 v
      obtain ⟨hx, -, hdsram, -, hstores, -⟩ := m.trap_keeps false 7 v
      refine ⟨hstores.trans ?_, (m.trap_pc (i := false) 7 v rfl).trans ?_, hpc.trans ?_, hcause, hval, hvalid, hkind, hx.trans ?_, hdsram.trans ?_⟩
      · rw [hnoted]
      · rw [hnoted]; rfl
      · rw [hnoted]
      · rw [hnoted]
      · rw [hnoted]
  case drain =>
    intro s k t x b r hst hin hclaim hnew
    rw [drainStore_bytes hst hclaim]
    refine ⟨?_, fun n => ?_, fun y hy => ?_, by simp, by simp, by simp, by simp, by simp⟩
    · rw [lodge_of (b := storeGone s k) (by simp), storeGone, State.lodge_setLodge_same, hst]
      rfl
    · have hfree : (SMap.look ((takeClaim (storeGone s k) (s.phys t) (.row 2 9 x b.length)).tile (s.phys t)).spNew n (0, 0)).2 ≤ bySpUnit := by
        rw [takeClaim, State.tile_modTile_same, show (storeGone s k).tile (s.phys t) = s.tile (s.phys t) from rfl, hnew]
        exact Nat.zero_le _
      rw [spWrite, State.tile_modTile_same, Tile.spPut_rd, takeClaim_sp]
      simp only [hfree, and_true]
      rfl
    · rw [spWrite, State.tile_modTile_ne _ _ hy, takeClaim, State.tile_modTile_ne _ _ hy]
      rfl
  case ecall =>
    rintro s k a l hk rfl hrun hwfi hquiet rfl hin hw
    obtain ⟨hpc, hcause, hval, -, hcount⟩ := (s.lodge k).trap_csrs false 11 0
    obtain ⟨hx, hisram, hdsram, hreg, hstores, -⟩ := (s.lodge k).trap_keeps false 11 0
    exact ⟨_, AtWord.ecall ⟨hk, hrun, hwfi, hquiet, hin, hw.symm⟩, (s.lodge k).trap_pc (i := false) 11 0 rfl, hpc, hcause, hval, hcount, hx, hisram, hdsram,
      hreg, hstores⟩
  case interrupt =>
    rintro s k chk l hk rfl hrun hpend hmie hmeie hdirect
    obtain ⟨hpc, hcause, -, hmasked, -⟩ := Lodge.trap_csrs { s.lodge k with wfi := false } true 11 0
    obtain ⟨hx, hisram, hdsram, hreg, hstores, hwfi⟩ := Lodge.trap_keeps { s.lodge k with wfi := false } true 11 0
    exact ⟨_, (exec_lodgeInstruction s chk hk).trans (congrArg _ (lodgeInstruction_interrupt chk hrun hpend hmie hmeie)),
      Lodge.trap_pc { s.lodge k with wfi := false } (i := true) 11 0 hdirect, hpc, hcause, hmasked, hwfi, hx, hisram, hdsram, hreg, hstores⟩

end Sys2Proof.Machine
end

section
/-!
PROOF. The ports of a Lodge core (O45): masks that it completes, its watches, and the events that it reads.
-/

namespace Sys2Proof.Machine
open Sys2Proof

-- Bandstand slots after a change

theorem slot_of {a b : State} (h : a.die.band.slots = b.die.band.slots) (n : Nat) : a.slot n = b.slot n := by unfold State.slot; rw [h]

@[simp] theorem State.slot_modSlot_same (s : State) (n : Nat) (f : BsSlot → BsSlot) : (s.modSlot n f).slot n = f (s.slot n) := SMap.look_put_same ..

theorem State.slot_modSlot_ne (s : State) {n m : Nat} (f : BsSlot → BsSlot) (h : m ≠ n) : (s.modSlot n f).slot m = s.slot m := SMap.look_put_ne _ _ _ h

-- words bit by bit (R9, R426)

/-- A field shows its bits. -/
theorem bits_congr {v w : W64} {hi lo : Nat} (h : ∀ i, lo ≤ i → i ≤ hi → bit v i = bit w i) : bits v hi lo = bits w hi lo := by
  unfold bits
  apply Nat.eq_of_testBit_eq
  intro i
  rw [BitVec.testBit_toNat, BitVec.testBit_toNat, BitVec.getLsbD_extractLsb', BitVec.getLsbD_extractLsb']
  by_cases hi' : i < hi + 1 - lo
  · rw [show v.getLsbD (lo + i) = w.getLsbD (lo + i) from h (lo + i) (by omega) (by omega)]
  · simp [hi']

theorem bits_flag (w : W64) (n : Nat) : bits w n n = ofBool (bit w n) := by
  have hlt : bits w n n < 2 := by simpa using bits_lt w n n
  have hbit : (bits w n n).testBit 0 = bit w n := by
    simp [bits, bit, BitVec.testBit_toNat]
  generalize bits w n n = x at *
  cases hb : bit w n <;> simp_all [ofBool] <;> omega

/-- A bit after a write: what is written where the register takes it, 0 where a one clears it and it has not been set in this cycle. -/
theorem bit_mergedNow (just : SMap W64) (off : Nat) (old v rw w1c : W64) {i : Nat} (h : i < 64) : bit (mergedNow just off old v rw w1c) i =
    ((bit old i && !bit rw i || bit v i && bit rw i) && !(bit v i && bit w1c i) || bit (SMap.look just off 0) i && bit w1c i && bit old i) := by
  simp [mergedNow, merged, bit, BitVec.getLsbD_eq_getElem, h]

-- watches (R250, R257)

/-- The bits of LG_WATCHn that a write sets: ARM, TILE, COUNTER and VALUE. -/
def watchTakes (i : Nat) : Prop := i ≤ 31 ∨ (46 ≤ i ∧ i ≤ 55) ∨ i = 63

theorem watchMasks {n : Nat} (h : n < 8) : w64 (rowVal rwLodge (LG_WATCH_OFF n)) &&& BitVec.allOnes 64 = 0x80FFC000FFFFFFFF
    ∧ w64 (rowVal w1cLodge (LG_WATCH_OFF n)) &&& BitVec.allOnes 64 = 0x4000000000000000 := by
  have hall : ∀ n, n < 8 → w64 (rowVal rwLodge (LG_WATCH_OFF n)) &&& BitVec.allOnes 64 = 0x80FFC000FFFFFFFF
    ∧ w64 (rowVal w1cLodge (LG_WATCH_OFF n)) &&& BitVec.allOnes 64 = 0x4000000000000000 := by decide
  exact hall n h

theorem watchMask_bits {i : Nat} (h : i < 64) : bit 0x80FFC000FFFFFFFF i = decide (i ≤ 31 ∨ (46 ≤ i ∧ i ≤ 55) ∨ i = 63)
    ∧ bit 0x4000000000000000 i = decide (i = 62) := by
  have hall : ∀ i, i < 64 → bit 0x80FFC000FFFFFFFF i = decide (i ≤ 31 ∨ (46 ≤ i ∧ i ≤ 55) ∨ i = 63)
    ∧ bit 0x4000000000000000 i = decide (i = 62) := by decide
  exact hall i h

/-- BROKEN clears with FIRED, and no other bit changes. -/
theorem bit_brokenCleared (c : Prop) [Decidable c] (w : W64) {i : Nat} (h : i ≠ 61) : bit (if c then setBits w 61 61 0 else w) i = bit w i := by
  split
  · exact (bit_setBits_one w false (by decide)).trans (if_neg h)
  · rfl

/-- LG_WATCHn after a write of `v`. -/
def watchWord (just : SMap W64) (n : Nat) (old v : W64) : W64 :=
  let w := mergedNow just (LG_WATCH_OFF n) old v 0x80FFC000FFFFFFFF 0x4000000000000000
  if LG_WATCH_OFF 0 ≤ LG_WATCH_OFF n ∧ LG_WATCH_OFF n < LG_WATCH_OFF 8 ∧ !bit w 62 then setBits w 61 61 0 else w

theorem watchWord_taken (just : SMap W64) (n : Nat) (old v : W64) {i : Nat} (hi : watchTakes i) : bit (watchWord just n old v) i = bit v i := by
  have hlt : i < 64 := by unfold watchTakes at hi; omega
  have h61 : i ≠ 61 := by unfold watchTakes at hi; omega
  have h62 : i ≠ 62 := by unfold watchTakes at hi; omega
  obtain ⟨hrw, hw1c⟩ := watchMask_bits hlt
  rw [watchWord, bit_brokenCleared _ _ h61, bit_mergedNow _ _ _ _ _ _ hlt, hrw.trans (decide_eq_true hi), hw1c.trans (decide_eq_false h62)]
  simp

theorem watchWord_fired (just : SMap W64) (n : Nat) (old : W64) {v : W64} (hv : bits v 62 62 = 0) : bit (watchWord just n old v) 62 = bit old 62 := by
  have hv62 : bit v 62 = false := by simpa [bits_flag, ofBool] using hv
  have hrw : bit 0x80FFC000FFFFFFFF 62 = false := by decide
  rw [watchWord, bit_brokenCleared _ _ (by decide), bit_mergedNow _ _ _ _ _ _ (by decide), hv62, hrw]
  cases bit old 62 <;> simp

/-- One register of a core set whole. -/
def Lodge.setReg (l : Lodge) (off : Nat) (v : W64) : Lodge := { l with reg := SMap.put l.reg off v }

theorem Lodge.regW_setReg_same (l : Lodge) (off : Nat) (v : W64) : (l.setReg off v).regW off = v := SMap.look_put_same ..
theorem Lodge.regW_setReg_ne (l : Lodge) {off x : Nat} (v : W64) (h : x ≠ off) : (l.setReg off v).regW x = l.regW x := SMap.look_put_ne _ _ _ h

/-- A write of LG_WATCHn changes that register alone. -/
theorem lodgeWrite_watch {n : Nat} (s : State) (k : Nat) (v : W64) (hn : n < 8) : lodgeWrite s k (LG_WATCH_OFF n) v (BitVec.allOnes 64) false
    = s.setLodge k ((s.lodge k).setReg (LG_WATCH_OFF n) (watchWord (s.lodge k).just n ((s.lodge k).regW (LG_WATCH_OFF n)) v)) := by
  obtain ⟨hrw, hw1c⟩ := watchMasks hn
  have hmask : LG_WATCH_OFF n ≠ LG_BSMASK_DONE_OFF := by simp [LG_WATCH_OFF, LG_BSMASK_DONE_OFF]; omega
  have hctrl : LG_WATCH_OFF n ≠ LG_CTRL_OFF := by simp [LG_WATCH_OFF, LG_CTRL_OFF]
  have hirq : LG_WATCH_OFF n ≠ LG_IRQ_OFF := by simp [LG_WATCH_OFF, LG_IRQ_OFF]; omega
  unfold lodgeWrite
  rw [if_neg hmask, if_neg hctrl, hrw, hw1c]
  simp only [hirq, false_and, if_false]
  rfl

/-- The core after watch `n` has fired: ARM clear, FIRED set, BROKEN as found. -/
def Lodge.fired (l : Lodge) (n : Nat) (broken : Bool) : Lodge := ((l.wr (LG_WATCH_ARM n) 0).raise (LG_WATCH_FIRED n)).wr (LG_WATCH_BROKEN n) (ofBool broken)

theorem Lodge.fired_fields (l : Lodge) (n : Nat) (broken : Bool) : (l.fired n broken).rd (LG_WATCH_ARM n) = 0
    ∧ (l.fired n broken).rd (LG_WATCH_FIRED n) = 1 ∧ (l.fired n broken).rd (LG_WATCH_BROKEN n) = ofBool broken := by
  unfold Lodge.fired
  refine ⟨?_, ?_, ?_⟩
  · rw [Lodge.rd_wr_ne _ _ (by simp [LG_WATCH_BROKEN]) (by simp [LG_WATCH_BROKEN]) (by simp [LG_WATCH_BROKEN, LG_WATCH_ARM]), Lodge.rd_raise,
      Lodge.rd_wr_ne _ _ (by simp [LG_WATCH_FIRED]) (by simp [LG_WATCH_FIRED]) (by simp [LG_WATCH_FIRED, LG_WATCH_ARM]),
      Lodge.rd_wr_same _ _ _ (by simp [LG_WATCH_ARM]) (by simp [LG_WATCH_ARM]), Nat.zero_mod]
  · rw [Lodge.rd_wr_ne _ _ (by simp [LG_WATCH_BROKEN]) (by simp [LG_WATCH_BROKEN]) (by simp [LG_WATCH_BROKEN, LG_WATCH_FIRED]), Lodge.rd_raise,
      Lodge.rd_wr_same _ _ _ (by simp [LG_WATCH_FIRED]) (by simp [LG_WATCH_FIRED])]
    rfl
  · rw [Lodge.rd_wr_same _ _ _ (by simp [LG_WATCH_BROKEN]) (by simp [LG_WATCH_BROKEN])]
    cases broken <;> rfl

theorem Lodge.fired_regW_ne (l : Lodge) {n o : Nat} (broken : Bool) (h : o ≠ LG_WATCH_OFF n) : (l.fired n broken).regW o = l.regW o := by
  have hraise : ((l.wr (LG_WATCH_ARM n) 0).raise (LG_WATCH_FIRED n)).regW o = ((l.wr (LG_WATCH_ARM n) 0).wr (LG_WATCH_FIRED n) 1).regW o := rfl
  rw [Lodge.fired, Lodge.regW_wr_ne _ _ h, hraise, Lodge.regW_wr_ne _ _ h, Lodge.regW_wr_ne _ _ h]

theorem Lodge.fired_keeps (l : Lodge) (n : Nat) (broken : Bool) : (l.fired n broken).x = l.x ∧ (l.fired n broken).pc = l.pc
    ∧ (l.fired n broken).evq = l.evq := ⟨rfl, rfl, rfl⟩

/-- A watch that has fired shows in LG_IRQ.WATCH (R250). -/
theorem lodgeIrq_watch {l : Lodge} {n : Nat} (hn : n < 8) (h : l.rd (LG_WATCH_FIRED n) = 1) : bit (lodgeIrq l) 0 = true := by
  have hany : (List.range 8).any (fun n => l.rd (LG_WATCH_FIRED n) == 1) = true := List.any_eq_true.2 ⟨n, List.mem_range.2 hn, beq_iff_eq.2 h⟩
  exact (bit_setBits_one (n := 0) _ _ (by decide)).trans ((if_pos rfl).trans hany)

theorem execWatchFire_eq {s : State} {k n : Nat} (hk : k < 16) (hn : n < 8) : exec (.watchFire k n) s = .next (match watchDue s k n with
    | some broken => s.setLodge k ((s.lodge k).fired n broken)
    | none => s) := if_pos ⟨hk, hn⟩

/-- The tile whose counter watch `n` of core `k` names. -/
def watchTile (s : State) (k n : Nat) : Tile := s.tile (s.phys ((tilesOf k).getD ((s.lodge k).rd (LG_WATCH_TILE n)) 0))

/-- An armed watch is due on an orphaned counter, and once its counter has the value (R250). -/
theorem watchDue_due {s : State} {k n : Nat} (harm : (s.lodge k).rd (LG_WATCH_ARM n) = 1)
    (hdue : (watchTile s k n).orphaned.getLsbD ((s.lodge k).rd (LG_WATCH_COUNTER n)) = true
      ∨ (s.lodge k).rd (LG_WATCH_VALUE n) ≤ (watchTile s k n).tcSeen ((s.lodge k).rd (LG_WATCH_COUNTER n))) :
    watchDue s k n = some ((watchTile s k n).orphaned.getLsbD ((s.lodge k).rd (LG_WATCH_COUNTER n))) := by
  have harmed : (s.lodge k).rd (LG_WATCH_ARM n) ≠ 0 := by omega
  refine (if_neg harmed).trans ?_
  by_cases horphan : (watchTile s k n).orphaned.getLsbD ((s.lodge k).rd (LG_WATCH_COUNTER n)) = true
  · rw [horphan]
    exact if_pos horphan
  · rw [Bool.not_eq_true _ |>.mp horphan]
    exact (if_neg horphan).trans (if_pos (hdue.resolve_left horphan))

theorem watchDue_below {s : State} {k n : Nat} (hintact : (watchTile s k n).orphaned.getLsbD ((s.lodge k).rd (LG_WATCH_COUNTER n)) = false)
    (hbelow : (watchTile s k n).tcSeen ((s.lodge k).rd (LG_WATCH_COUNTER n)) < (s.lodge k).rd (LG_WATCH_VALUE n)) : watchDue s k n = none := by
  by_cases harm : (s.lodge k).rd (LG_WATCH_ARM n) = 0
  · exact if_pos harm
  · exact (if_neg harm).trans ((if_neg (Bool.not_eq_true _ |>.mpr hintact)).trans (if_neg (Nat.not_le.2 hbelow)))

-- the event queue (R253, R257)

/-- The fields of the word that LG_BSEVENT shows for the head of the queue, each cut to its width. -/
theorem lodgeEvent_bits {l : Lodge} {e : BsEvent} {r : List BsEvent} (h : l.evq = e :: r) : bits (lodgeEvent l) 63 63 = 1 % 2 ^ (63 + 1 - 63)
    ∧ bits (lodgeEvent l) 62 60 = e.kind % 2 ^ (62 + 1 - 60) ∧ bits (lodgeEvent l) 59 56 = e.count % 2 ^ (59 + 1 - 56)
    ∧ bits (lodgeEvent l) 41 32 = e.slot % 2 ^ (41 + 1 - 32) ∧ bits (lodgeEvent l) 31 0 = e.frame.toNat % 2 ^ (31 + 1 - 0) := by
  have hword : lodgeEvent l = packed [(LG_BSEVENT_VALID, 1), (LG_BSEVENT_KIND, e.kind), (LG_BSEVENT_COUNT, e.count), (LG_BSEVENT_SLOT, e.slot),
    (LG_BSEVENT_FRAME, e.frame.toNat)] 0 := by rw [lodgeEvent, h]
  rw [hword]
  refine ⟨?_, ?_, ?_, ?_, ?_⟩ <;>
    simp (disch := decide) only [packed, List.foldl_cons, List.foldl_nil, LG_BSEVENT_VALID, LG_BSEVENT_KIND, LG_BSEVENT_COUNT, LG_BSEVENT_SLOT,
      LG_BSEVENT_FRAME, bits_setBits_same, bits_setBits_ne]

theorem lodgeEvent_fields {l : Lodge} {e : BsEvent} {r : List BsEvent} (h : l.evq = e :: r) (hkind : e.kind < 8) (hcount : e.count < 16)
    (hslot : e.slot < 1024) : bits (lodgeEvent l) 63 63 = 1 ∧ bits (lodgeEvent l) 62 60 = e.kind ∧ bits (lodgeEvent l) 59 56 = e.count
      ∧ bits (lodgeEvent l) 41 32 = e.slot ∧ bits (lodgeEvent l) 31 0 = e.frame.toNat := by
  obtain ⟨hv, hk, hc, hs, hf⟩ := lodgeEvent_bits h
  exact ⟨hv, hk.trans (Nat.mod_eq_of_lt hkind), hc.trans (Nat.mod_eq_of_lt hcount), hs.trans (Nat.mod_eq_of_lt hslot),
    hf.trans (Nat.mod_eq_of_lt e.frame.isLt)⟩

/-- Settles O45: the writers of R257 reach the mask port and the watches, a watch that is due fires, and the head of the event queue is read. -/
theorem maskCoresAreServed : Obligations.MaskCoresAreServed := by
  unfold Obligations.MaskCoresAreServed
  refine ⟨?masks, ?arm, ?fire, ?unarmed, ?event⟩
  case masks =>
    intro s k slot positions hk hslot hpos
    have hexec : ∀ a, agentOk a = true → exec (.bsmaskDone a k slot positions) s = .next (if lodgeWriter a k then maskDone s k slot positions else s) :=
      fun a ha => if_pos ⟨hk, hslot, hpos, ha⟩
    have hcore := hexec (.lodge k) (decide_eq_true hk)
    rw [if_pos (show lodgeWriter (.lodge k) k = true from beq_self_eq_true k)] at hcore
    refine ⟨fun hbuilder => ?_, fun hother => ?_, fun f hf => hexec (.host f) hf⟩
    · rw [maskDone, if_pos hbuilder, Nat.mod_eq_of_lt hpos] at hcore
      refine ⟨_, hcore, ?_, ?_, fun x hx => State.slot_modSlot_ne _ _ hx, by simp, by simp, by simp, by simp, by simp, by simp, by simp⟩
      · rw [State.slot_modSlot_same]
      · rw [State.slot_modSlot_same]
    · rw [maskDone, if_neg (by simp [hother])] at hcore
      exact hcore
  case arm =>
    intro s k n v hk hn hv
    have hexec : ∀ a, agentOk a = true → exec (.watchArm a k n v) s =
        .next (if lodgeWriter a k then lodgeWrite s k (LG_WATCH_OFF n) v (BitVec.allOnes 64) (a == .warden) else s) := fun a ha => if_pos ⟨hk, hn, ha⟩
    refine ⟨?_, fun f hf => hexec (.host f) hf⟩
    have hcore := hexec (.lodge k) (decide_eq_true hk)
    rw [if_pos (show lodgeWriter (.lodge k) k = true from beq_self_eq_true k), show ((.lodge k : Agent) == .warden) = false from rfl,
      lodgeWrite_watch s k v hn] at hcore
    have htaken : ∀ i, watchTakes i → bit (watchWord (s.lodge k).just n ((s.lodge k).regW (LG_WATCH_OFF n)) v) i = bit v i :=
      fun i hi => watchWord_taken _ n _ v hi
    have hfired := watchWord_fired (s.lodge k).just n ((s.lodge k).regW (LG_WATCH_OFF n)) hv
    refine ⟨_, hcore, ?_⟩
    generalize watchWord (s.lodge k).just n ((s.lodge k).regW (LG_WATCH_OFF n)) v = w at *
    have hreg := (s.lodge k).regW_setReg_same (LG_WATCH_OFF n) w
    have hfield : ∀ hi lo, (∀ i, lo ≤ i → i ≤ hi → watchTakes i) →
        ((s.lodge k).setReg (LG_WATCH_OFF n) w).rd ⟨LG_WATCH_OFF n, hi, lo⟩ = bits v hi lo := by
      intro hi lo h
      rw [Lodge.rd, hreg]
      exact bits_congr fun i hlo hhi => htaken i (h i hlo hhi)
    refine ⟨hfield 63 63 ?_, hfield 55 52 ?_, hfield 51 46 ?_, hfield 31 0 ?_, ?_, fun o ho => Lodge.regW_setReg_ne _ _ ho, rfl, rfl, rfl, rfl⟩
    iterate 4 · intro i hlo hhi; unfold watchTakes; omega
    · show bits (((s.lodge k).setReg (LG_WATCH_OFF n) w).regW (LG_WATCH_OFF n)) 62 62 = bits ((s.lodge k).regW (LG_WATCH_OFF n)) 62 62
      rw [hreg]
      exact bits_congr fun i hlo hhi => by rw [show i = 62 from Nat.le_antisymm hhi hlo]; exact hfired
  case fire =>
    rintro s k n p c hk hn harm rfl rfl
    refine ⟨fun hdue => ?_, fun hintact hbelow => ?_⟩
    · rw [execWatchFire_eq hk hn, watchDue_due harm hdue]
      obtain ⟨harmed, hfired, hbroken⟩ := (s.lodge k).fired_fields n ((watchTile s k n).orphaned.getLsbD ((s.lodge k).rd (LG_WATCH_COUNTER n)))
      obtain ⟨hx, hpc, hevq⟩ := (s.lodge k).fired_keeps n ((watchTile s k n).orphaned.getLsbD ((s.lodge k).rd (LG_WATCH_COUNTER n)))
      exact ⟨_, rfl, harmed, hfired, hbroken, lodgeIrq_watch hn hfired, fun o ho => Lodge.fired_regW_ne _ _ ho, hx, hpc, hevq⟩
    · rw [execWatchFire_eq hk hn, watchDue_below hintact hbelow]
  case unarmed =>
    intro s k n hk hn harm
    have hdue : watchDue s k n = none := if_pos harm
    rw [execWatchFire_eq hk hn, hdue]
  case event =>
    intro s k e r hk hevq hkind hcount hslot
    have hpop : popEvent (s.lodge k) = { s.lodge k with evq := r } := by rw [popEvent, hevq]; rfl
    refine ⟨lodgeEvent (s.lodge k), (if_pos hk).trans ?_, lodgeEvent_fields hevq hkind hcount hslot⟩
    rw [hpop]
    rfl

end Sys2Proof.Machine
end

section
/-!
PROOF. What the Bandstand's scanner changes and what it leaves unchanged (O48).
-/

namespace Sys2Proof.Machine
open Sys2Proof

/-- What scanning leaves unchanged: the slots, their commits and landings, every register but BS_STATUS and BS_STATS, and all beside the Bandstand. -/
structure ScanFrame (s t : State) : Prop where
  reg : ∀ o, o ≠ BS_STATUS_OFF → o ≠ BS_STATS_OFF → t.regW o = s.regW o
  slots : t.die.band.slots = s.die.band.slots
  commits : t.die.band.commits = s.die.band.commits
  lands : t.die.band.lands = s.die.band.lands
  tiles : t.tiles = s.tiles
  pvs : t.pvs = s.pvs
  fns : t.fns = s.fns
  out : t.out = s.out

theorem ScanFrame.refl (s : State) : ScanFrame s s := ⟨fun _ _ _ => rfl, rfl, rfl, rfl, rfl, rfl, rfl, rfl⟩

theorem ScanFrame.trans {s t u : State} (h : ScanFrame s t) (k : ScanFrame t u) : ScanFrame s u :=
  ⟨fun o h1 h2 => (k.reg o h1 h2).trans (h.reg o h1 h2), k.slots.trans h.slots, k.commits.trans h.commits, k.lands.trans h.lands,
    k.tiles.trans h.tiles, k.pvs.trans h.pvs, k.fns.trans h.fns, k.out.trans h.out⟩

theorem ScanFrame.raise (s : State) {f : Fld} (h : f.off = BS_STATUS_OFF) : ScanFrame s (s.raise f) :=
  ⟨fun o ho _ => (State.regW_raise s f o).trans (State.regW_wr_ne s 1 (h ▸ ho)), rfl, rfl, rfl, rfl, rfl, rfl, rfl⟩

theorem ScanFrame.discard (s : State) (n : Nat) : ScanFrame s (discard s n) :=
  have hcount : ScanFrame s (s.inc BS_STATS_DISCARDED n) :=
    ⟨fun _ _ ho => State.regW_wr_ne (f := BS_STATS_DISCARDED) s _ ho, rfl, rfl, rfl, rfl, rfl, rfl, rfl⟩
  hcount.trans (.raise _ (f := BS_STATUS_DISCARD_SEEN) rfl)

theorem ScanFrame.rows (s : State) (g : Band → List CandRow) : ScanFrame s (s.modBand (fun b => { b with rows := g b })) :=
  ⟨fun _ _ _ => rfl, rfl, rfl, rfl, rfl, rfl, rfl, rfl⟩

theorem ScanFrame.staging (s : State) (l : List Deliv) : ScanFrame s (s.modBand (fun b => { b with staging := l })) :=
  ⟨fun _ _ _ => rfl, rfl, rfl, rfl, rfl, rfl, rfl, rfl⟩

theorem ScanFrame.ite {s t u : State} (c : Prop) [Decidable c] (ht : ScanFrame s t) (hu : ScanFrame s u) : ScanFrame s (if c then t else u) := by
  split
  · exact ht
  · exact hu

theorem takeRow_frame (s : State) (d : Deliv) : ScanFrame s (takeRow s d) := .ite _ (.refl s) (.rows s _)

/-- The scanner notes a logit that is not a number (R296). -/
def nanNoted (s : State) (x : W32) : State := if (dec32 x.toNat).isNan then s.raise BS_STATUS_NAN_SEEN else s

/-- The row of an entry after the entry: counted, and its candidate inserted unless no row was free. -/
def rowScanned (d : Deliv) (i : Nat) (v : Option Nat) (r : CandRow) : CandRow :=
  if r.is d.slot d.draft d.pos then
    { r with count := r.count + 1, cands := match v with
      | some y => if r.none_ then r.cands else (candInsert (w32 y, i) r.cands).take 1024
      | none => r.cands }
  else r

/-- An entry takes a row, is discarded where none was free, and marks its row. -/
theorem scanEntry_eq (d : Deliv) (s : State) (i : Nat) (x : W32) : ∃ u, (u = takeRow (nanNoted s x) d ∨ u = discard (takeRow (nanNoted s x) d) 1)
    ∧ scanEntry d s i x = u.modBand (fun b => { b with rows := b.rows.map (rowScanned d i (scanValue s d.slot d.draft d.pos i x.toNat)) }) := by
  refine ⟨if (takeRow (nanNoted s x) d).die.band.rows.any (fun r => r.is d.slot d.draft d.pos && r.none_) then discard (takeRow (nanNoted s x) d) 1
    else takeRow (nanNoted s x) d, ?_, rfl⟩
  split
  · exact .inr rfl
  · exact .inl rfl

theorem scanEntry_frame (d : Deliv) (s : State) (i : Nat) (x : W32) : ScanFrame s (scanEntry d s i x) := by
  have hnan : ScanFrame s (nanNoted s x) := .ite _ (.raise s rfl) (.refl s)
  have hrow := hnan.trans (takeRow_frame _ d)
  obtain ⟨u, rfl | rfl, hu⟩ := scanEntry_eq d s i x
  · exact hu ▸ hrow.trans (.rows _ _)
  · exact hu ▸ (hrow.trans (.discard _ 1)).trans (.rows _ _)

theorem scanEntry_rows (d : Deliv) (s : State) (i : Nat) (x : W32) : (scanEntry d s i x).die.band.rows
    = (takeRow (nanNoted s x) d).die.band.rows.map (rowScanned d i (scanValue s d.slot d.draft d.pos i x.toNat)) := by
  obtain ⟨u, rfl | rfl, hu⟩ := scanEntry_eq d s i x <;> rw [hu] <;> rfl

theorem scanVals_frame (d : Deliv) (s : State) (i : Nat) (xs : List W32) : ScanFrame s (scanVals d s i xs) := by
  induction xs generalizing s i with
  | nil => exact .refl s
  | cons x xs ih => exact (scanEntry_frame d s i x).trans (ih _ _)

theorem scanList_frame (skip : State → Deliv → Bool) (s : State) (room : Nat) (done ds : List Deliv) :
    ScanFrame s (scanList skip s room done ds) := by
  induction ds generalizing s room done with
  | nil => exact .staging s done
  | cons d ds ih => exact .ite _ (ih ..) ((scanVals_frame ..).trans (ih ..))

theorem scanRest_frame (s : State) (n : Nat) (draft : Bool) : ScanFrame s (scanRest s n draft) := scanList_frame ..

-- one delivery in the staging store (R295, R296)

theorem State.modBand_self {s : State} {f : Band → Band} (h : f s.die.band = s.die.band) : s.modBand f = s := by
  unfold State.modBand
  rw [h]

/-- A delivery that the scanner holds back stays where it is. -/
theorem scanList_heldBack {s : State} {d : Deliv} {room : Nat} (hstaging : s.die.band.staging = [d]) (hheld : heldBack s d = true) :
    scanList heldBack s room [] [d] = s := by
  have hstays : scanList heldBack s room [] [d] = s.modBand (fun b => { b with staging := [d] }) := if_pos (.inr hheld)
  rw [hstays]
  exact State.modBand_self (by rw [← hstaging])

/-- A delivery of one value that is not held back is scanned whole. -/
theorem scanList_one {s : State} {d : Deliv} {x : W32} (hheld : heldBack s d = false) (hvals : d.vals = [x]) :
    scanList heldBack s 256 [] [d] = (scanEntry d s d.voff x).modBand (fun b => { b with staging := [] }) := by
  have hopen : ¬ ((256 : Nat) = 0 ∨ heldBack s d = true) := by simp [hheld]
  refine (if_neg hopen).trans ?_
  rw [hvals]
  rfl

/-- The candidate that an entry leaves in an empty row. -/
def firstCand (s : State) (d : Deliv) (i : Nat) (x : W32) : List (W32 × Nat) :=
  match scanValue s d.slot d.draft d.pos i x.toNat with
  | some y => [(w32 y, i)]
  | none => []

/-- The row that a first entry takes while rows are free (R295, R429). -/
def freshRow (d : Deliv) : CandRow :=
  { slot := d.slot, draft := d.draft, pos := d.pos, step := d.step, count := 0, none_ := false, cands := [], pv := d.pv }

theorem takeRow_fresh {s : State} {d : Deliv} (hnew : s.die.band.rows.any (fun r => r.is d.slot d.draft d.pos) = false)
    (hfree : rowsUsed s.die.band none < 2048) (hshare : rowsUsed s.die.band (some d.pv) < bandShare s d.pv 128) :
    freshRow d ∈ (takeRow s d).die.band.rows := by
  have hrows : (takeRow s d).die.band.rows = s.die.band.rows ++ [{ freshRow d with none_ := (decide (2048 ≤ rowsUsed s.die.band none)
      || decide (bandShare s d.pv 128 ≤ rowsUsed s.die.band (some d.pv))) }] := by
    rw [takeRow, if_neg (by rw [hnew]; decide)]
    rfl
  rw [decide_eq_false (Nat.not_le.2 hfree), decide_eq_false (Nat.not_le.2 hshare)] at hrows
  rw [hrows]
  exact List.mem_append_right _ (List.mem_singleton.2 rfl)

theorem freshRow_is (d : Deliv) : (freshRow d).is d.slot d.draft d.pos = true := by simp [freshRow, CandRow.is]

/-- The first entry of a row, while rows are free, leaves the row with a count of 1 and with its own candidate. -/
theorem scanEntry_fresh {s : State} {d : Deliv} (i : Nat) (x : W32) (hnew : s.die.band.rows.any (fun r => r.is d.slot d.draft d.pos) = false)
    (hfree : rowsUsed s.die.band none < 2048) (hshare : rowsUsed s.die.band (some d.pv) < bandShare s d.pv 128) :
    { freshRow d with count := 1, cands := firstCand s d i x } ∈ (scanEntry d s i x).die.band.rows := by
  have hband : (nanNoted s x).die.band = s.die.band := by unfold nanNoted; split <;> rfl
  have hunit : bandShare (nanNoted s x) d.pv 128 = bandShare s d.pv 128 := by unfold nanNoted; split <;> rfl
  have hfresh : freshRow d ∈ (takeRow (nanNoted s x) d).die.band.rows :=
    takeRow_fresh (hband ▸ hnew) (hband ▸ hfree) (by rw [hband, hunit]; exact hshare)
  have hmark : rowScanned d i (scanValue s d.slot d.draft d.pos i x.toNat) (freshRow d) = { freshRow d with count := 1, cands := firstCand s d i x } := by
    refine (if_pos (freshRow_is d)).trans ?_
    rw [firstCand]
    cases scanValue s d.slot d.draft d.pos i x.toNat <;> rfl
  rw [scanEntry_rows, ← hmark]
  exact List.mem_map_of_mem hfresh

-- the registers of a slot

/-- The registers of the slots lie above BS_STATUS and BS_STATS. -/
theorem ScanFrame.slotReg {s t : State} (h : ScanFrame s t) {o : Nat} (ho : BS_SLOT_CFG_OFF 0 ≤ o) : t.regW o = s.regW o := by
  simp only [BS_SLOT_CFG_OFF] at ho
  exact h.reg o (by simp only [BS_STATUS_OFF]; omega) (by simp only [BS_STATS_OFF]; omega)

end Sys2Proof.Machine
end

section
/-!
PROOF. Drafts, commits and token records of a Bandstand slot (O48).
-/

namespace Sys2Proof.Machine
open Sys2Proof

-- what the work on one slot leaves unchanged

/-- What a slot's scans and drafts leave unchanged: the registers of the slots, the commits, the other slots, the request of this one, and all beside the
Bandstand. -/
structure SlotFrame (n : Nat) (s t : State) : Prop where
  reg : ∀ o, BS_SLOT_CFG_OFF 0 ≤ o → t.regW o = s.regW o
  commits : t.die.band.commits = s.die.band.commits
  tag : (t.slot n).tag = (s.slot n).tag
  emitted : (t.slot n).emitted = (s.slot n).emitted
  maxTokens : (t.slot n).maxTokens = (s.slot n).maxTokens
  others : ∀ m, m ≠ n → t.slot m = s.slot m
  tiles : t.tiles = s.tiles
  pvs : t.pvs = s.pvs
  fns : t.fns = s.fns

theorem SlotFrame.trans {n : Nat} {s t u : State} (h : SlotFrame n s t) (k : SlotFrame n t u) : SlotFrame n s u :=
  ⟨fun o ho => (k.reg o ho).trans (h.reg o ho), k.commits.trans h.commits, k.tag.trans h.tag, k.emitted.trans h.emitted,
    k.maxTokens.trans h.maxTokens, fun m hm => (k.others m hm).trans (h.others m hm), k.tiles.trans h.tiles, k.pvs.trans h.pvs, k.fns.trans h.fns⟩

theorem ScanFrame.toSlotFrame {s t : State} (h : ScanFrame s t) (n : Nat) : SlotFrame n s t :=
  have hslot := slot_of h.slots
  ⟨fun _ ho => h.slotReg ho, h.commits, by rw [hslot], by rw [hslot], by rw [hslot], fun m _ => hslot m, h.tiles, h.pvs, h.fns⟩

theorem SlotFrame.rd {n : Nat} {s t : State} (h : SlotFrame n s t) {f : Fld} (hf : BS_SLOT_CFG_OFF 0 ≤ f.off) : t.rd f = s.rd f := by
  rw [State.rd, State.rd, h.reg _ hf]

theorem slotReg_le (n : Nat) : BS_SLOT_CFG_OFF 0 ≤ BS_SLOT_CFG_OFF n := by simp [BS_SLOT_CFG_OFF]

theorem SlotFrame.step {n : Nat} {s t : State} (h : SlotFrame n s t) (m : Nat) : slotStep t m = slotStep s m :=
  h.rd (by simp only [BS_SLOT_CFG_OFF, BS_SLOT_STATE_STEP, BS_SLOT_STATE_OFF]; omega)

theorem SlotFrame.phase {n : Nat} {s t : State} (h : SlotFrame n s t) (m : Nat) : t.rd (BS_SLOT_STATE_PHASE m) = s.rd (BS_SLOT_STATE_PHASE m) :=
  h.rd (by simp only [BS_SLOT_CFG_OFF, BS_SLOT_STATE_PHASE, BS_SLOT_STATE_OFF]; omega)

theorem SlotFrame.pavilion {n : Nat} {s t : State} (h : SlotFrame n s t) (m : Nat) :
    t.rd (BS_SLOT_CFG_PAVILION m) = s.rd (BS_SLOT_CFG_PAVILION m) := h.rd (slotReg_le m)

theorem SlotFrame.seed {n : Nat} {s t : State} (h : SlotFrame n s t) (m : Nat) : slotSeed t m = slotSeed s m :=
  h.reg _ (by simp only [BS_SLOT_CFG_OFF, BS_SLOT_SEED_OFF]; omega)

theorem SlotFrame.stops {n : Nat} {s t : State} (h : SlotFrame n s t) (m : Nat) : stopTokens t m = stopTokens s m := by
  rw [stopTokens, stopTokens, h.reg (BS_SLOT_STOP_OFF m) (by simp only [BS_SLOT_CFG_OFF, BS_SLOT_STOP_OFF]; omega)]

-- landings and drafts (R299, R301)

/-- The record that the Bandstand lands for slot `n`. -/
def slotLanding (s : State) (n : Nat) (draft : Bool) (words : List W64) (em : Option Emission) : BsLand :=
  { slot := n, tile := 16 * s.rd (BS_SLOT_CFG_RESULT_I n) + s.rd (BS_SLOT_CFG_RESULT_J n),
    addr := 64 * s.rd (BS_SLOT_CFG_RESULT_REC n) + (if draft then 32 else 0), ctr := s.rd (BS_SLOT_CFG_RESULT_CTR n),
    draft := draft, words := words, landed := false, emission := em }

theorem queueLanding_lands (s : State) (n : Nat) (draft : Bool) (words : List W64) (em : Option Emission) :
    (queueLanding s n draft words em).die.band.lands = s.die.band.lands ++ [slotLanding s n draft words em] := rfl

theorem queueLanding_slot (s : State) (n : Nat) (draft : Bool) (words : List W64) (em : Option Emission) (m : Nat) :
    (queueLanding s n draft words em).slot m = s.slot m := rfl

theorem slotEvent_band (s : State) (n kind count : Nat) : (slotEvent s n kind count).die.band = s.die.band := by simp

theorem slotEvent_slot (s : State) (n kind count m : Nat) : (slotEvent s n kind count).slot m = s.slot m := slot_of (by simp) m

/-- The drafts that slot `n` derives, and the words of their record. -/
def slotDrafts (s : State) (n : Nat) : List Nat := draftsFrom s n (slotDepth s n) (slotStep s n) (slotDepth s n) 0
def draftWords (s : State) (n : Nat) : List W64 :=
  tokWords (slotDrafts s n) ++ [setBits (setBits 0 63 32 (slotStep s n)) 3 0 (slotDrafts s n).length]

theorem deriveDrafts_slot_same (s : State) (n : Nat) : (deriveDrafts s n).slot n = { s.slot n with drafts := slotDrafts s n, derived := true } :=
  (slotEvent_slot ..).trans ((queueLanding_slot ..).trans (State.slot_modSlot_same ..))

theorem deriveDrafts_slot_ne (s : State) {n m : Nat} (h : m ≠ n) : (deriveDrafts s n).slot m = s.slot m :=
  (slotEvent_slot ..).trans ((queueLanding_slot ..).trans (State.slot_modSlot_ne _ _ h))

theorem deriveDrafts_lands (s : State) (n : Nat) :
    (deriveDrafts s n).die.band.lands = s.die.band.lands ++ [slotLanding s n true (draftWords s n) none] :=
  congrArg Band.lands (slotEvent_band ..)

theorem deriveDrafts_frame (s : State) (n : Nat) : SlotFrame n s (deriveDrafts s n) := by
  have hslot := deriveDrafts_slot_same s n
  refine ⟨fun o _ => ?_, (congrArg Band.commits (slotEvent_band ..)).trans rfl, by rw [hslot], by rw [hslot], by rw [hslot],
    fun m hm => deriveDrafts_slot_ne s hm, by simp, by simp, by simp⟩
  have hreg : (deriveDrafts s n).reg = s.reg := by simp
  rw [State.regW, State.regW, hreg]

theorem draftWords_step (s : State) (n : Nat) : bits ((draftWords s n).getD 3 0) 63 32 = slotStep s n := by
  have hword : (draftWords s n).getD 3 0 = setBits (setBits 0 63 32 (slotStep s n)) 3 0 (slotDrafts s n).length := rfl
  rw [hword, bits_setBits_ne _ 3 0 _ 63 32 (by decide) (by decide) (.inr (by decide)), bits_setBits_same _ 63 32 _ (by decide) (by decide)]
  exact Nat.mod_eq_of_lt (bits_lt _ 63 32)

-- the end of a step (R300)

theorem mem_dropFirst {α : Type} {p : α → Bool} {l : List α} {x : α} (hx : x ∈ l) (hp : p x = false) : x ∈ dropFirst p l := by
  induction l with
  | nil => exact hx
  | cons y ys ih =>
    rcases List.mem_cons.1 hx with rfl | hys
    · simp [dropFirst, hp]
    · rw [dropFirst]
      split
      · exact hys
      · exact List.mem_cons_of_mem y (ih hys)

/-- What the end of a slot's step does: STEP goes on, the rows of the slot go, one commit of the slot goes, and its drafts. -/
structure StepEnded (n : Nat) (s t : State) : Prop where
  step : slotStep t n = (slotStep s n + 1) % 2 ^ 32
  phase : t.rd (BS_SLOT_STATE_PHASE n) = s.rd (BS_SLOT_STATE_PHASE n)
  lands : t.die.band.lands = s.die.band.lands
  rows : ∀ y ∈ t.die.band.rows, y.slot ≠ n
  commits : ∀ y ∈ s.die.band.commits, y.slot ≠ n → y ∈ t.die.band.commits
  same : t.slot n = { s.slot n with drafts := [], derived := false, done := 0 }
  others : ∀ m, m ≠ n → t.slot m = s.slot m
  tiles : t.tiles = s.tiles
  pvs : t.pvs = s.pvs
  fns : t.fns = s.fns

/-- The rows and the oldest committed commit of a slot go back. -/
def stepDropped (s : State) (n : Nat) : State :=
  s.modBand (fun b => { b with rows := b.rows.filter (fun r => r.slot != n), commits := dropFirst (fun c => c.slot == n && !c.open_) b.commits })

theorem endStep_ended (s : State) (n : Nat) : StepEnded n s (endStep s n) := by
  have hstats : ∀ (u : State) {f : Fld} (k : Nat), f.off = BS_SLOT_STATE_OFF n → (u.inc BS_STATS_COMMITS k).rd f = u.rd f := fun u f k hf =>
    State.rd_wr_off u _ (by rw [hf]; simp only [BS_SLOT_STATE_OFF, BS_STATS_COMMITS, BS_STATS_OFF]; omega)
  have hslot : ∀ m, (endStep s n).slot m = ((stepDropped s n).modSlot n (fun b => { b with drafts := [], derived := false, done := 0 })).slot m :=
    fun _ => rfl
  refine ⟨?_, ?_, rfl, ?_, ?_, (hslot n).trans (State.slot_modSlot_same ..),
    fun m hm => (hslot m).trans (State.slot_modSlot_ne _ _ hm), rfl, rfl, rfl⟩
  · refine (State.rd_wr_same _ (BS_SLOT_STATE_STEP n) _ (by simp [BS_SLOT_STATE_STEP]) (by simp [BS_SLOT_STATE_STEP])).trans ?_
    rw [hstats _ 1 rfl]
    rfl
  · exact (State.rd_wr_ne _ _ (by simp [BS_SLOT_STATE_STEP]) (by simp [BS_SLOT_STATE_STEP])
      (.inl (by simp [BS_SLOT_STATE_STEP, BS_SLOT_STATE_PHASE]))).trans (hstats _ 1 rfl)
  · intro y hy
    have hkept := (List.mem_filter.1 (show y ∈ s.die.band.rows.filter (fun r => r.slot != n) from hy)).2
    simpa using hkept
  · intro y hy hne
    exact mem_dropFirst hy (by simp [hne])

-- a request that has ended (R302)

theorem endSlot_step (s : State) (n : Nat) : slotStep (endSlot s n) n = slotStep s n :=
  State.rd_wr_ne (s.modBand _) _ (by simp [BS_SLOT_STATE_PHASE]) (by simp [BS_SLOT_STATE_PHASE]) (.inr (by simp [BS_SLOT_STATE_STEP, BS_SLOT_STATE_PHASE]))

theorem endSlot_phase (s : State) (n : Nat) : (endSlot s n).rd (BS_SLOT_STATE_PHASE n) = bsEnded :=
  State.rd_wr_same (s.modBand _) (BS_SLOT_STATE_PHASE n) bsEnded (by simp [BS_SLOT_STATE_PHASE]) (by simp [BS_SLOT_STATE_PHASE])

theorem mem_endSlot_commits {s : State} {n : Nat} {y : BsCommit} : y ∈ (endSlot s n).die.band.commits ↔ y ∈ s.die.band.commits ∧ y.slot ≠ n := by
  have hcommits : (endSlot s n).die.band.commits = s.die.band.commits.filter (fun c => c.slot != n) := rfl
  rw [hcommits, List.mem_filter, bne_iff_ne]

-- a TARGET slot's commit (R300)

/-- The tokens of a TARGET step up to its first stop token, and whether one was met. -/
def targetCut (s : State) (n : Nat) : List Nat × Bool := cutStop (stopTokens s n) (sampleTarget s n).1

/-- The step reaches MAX_TOKENS; the tokens that it emits; it ends the request. -/
def targetMaxed (s : State) (n : Nat) : Bool := decide ((s.slot n).maxTokens ≤ (s.slot n).emitted + (targetCut s n).1.length)
def targetTokens (s : State) (n : Nat) : List Nat := (targetCut s n).1.take ((s.slot n).maxTokens - (s.slot n).emitted)
def targetFin (s : State) (n : Nat) : Bool := (targetCut s n).2 || targetMaxed s n || (sampleTarget s n).2.2

/-- What the step reports to the front Warden (R303), and the words of its token record (R301). -/
def targetEmission (s : State) (n : Nat) : Emission :=
  { pv := s.rd (BS_SLOT_CFG_PAVILION n), tag := (s.slot n).tag, step := slotStep s n, accepted := (sampleTarget s n).2.1, tokens := targetTokens s n,
    stopped := (targetCut s n).2, maxReached := targetMaxed s n, emptyRow := (sampleTarget s n).2.2, fin := targetFin s n }
def targetWords (s : State) (n : Nat) : List W64 :=
  recordK0 (slotStep s n) (sampleTarget s n).2.1 (targetTokens s n).length (sampleTarget s n).2.2 (targetMaxed s n) (targetCut s n).2 (targetFin s n)
    :: tokWords (targetTokens s n)

/-- The request of a slot after `toks` are emitted. -/
def BsSlot.emit (toks : List Nat) (b : BsSlot) : BsSlot :=
  { b with pen := (b.pen ++ toks).drop ((b.pen ++ toks).length - 256), emitted := b.emitted + toks.length }

/-- A TARGET slot's commit before the phase ENDED and its event. -/
def targetStepped (s : State) (n : Nat) : State :=
  (endStep (queueLanding s n false (targetWords s n) (some (targetEmission s n))) n).modSlot n (BsSlot.emit (targetTokens s n))

theorem targetCommit_eq (s : State) (n : Nat) : targetCommit s n =
    slotEvent (if targetFin s n then endSlot (targetStepped s n) n else targetStepped s n) n 2 (targetTokens s n).length := rfl

/-- What the commit of a TARGET slot does; `fin` tells whether it ends the request. -/
structure TargetCommitted (n : Nat) (fin : Bool) (s t : State) : Prop where
  lands : t.die.band.lands = s.die.band.lands ++ [slotLanding s n false (targetWords s n) (some (targetEmission s n))]
  step : slotStep t n = (slotStep s n + 1) % 2 ^ 32
  phase : t.rd (BS_SLOT_STATE_PHASE n) = (if fin then bsEnded else s.rd (BS_SLOT_STATE_PHASE n))
  emitted : (t.slot n).emitted = (s.slot n).emitted + (targetTokens s n).length
  derived : (t.slot n).derived = false
  rows : ∀ y ∈ t.die.band.rows, y.slot ≠ n
  dropped : fin = true → ∀ y ∈ t.die.band.commits, y.slot ≠ n
  kept : ∀ y ∈ s.die.band.commits, y.slot ≠ n → y ∈ t.die.band.commits
  others : ∀ m, m ≠ n → t.slot m = s.slot m
  tiles : t.tiles = s.tiles
  pvs : t.pvs = s.pvs
  fns : t.fns = s.fns

/-- An event of the slot leaves all of it in place. -/
theorem TargetCommitted.slotEvent {n : Nat} {fin : Bool} {s t : State} (h : TargetCommitted n fin s t) (kind count : Nat) :
    TargetCommitted n fin s (slotEvent t n kind count) := by
  have hband := slotEvent_band t n kind count
  have hslot := slotEvent_slot t n kind count
  have hreg : (Machine.slotEvent t n kind count).reg = t.reg := by simp
  refine ⟨?_, (State.rd_congr hreg _).trans h.step, (State.rd_congr hreg _).trans h.phase, ?_, ?_, ?_, ?_, ?_,
    fun m hm => (hslot m).trans (h.others m hm), by simp [h.tiles], by simp [h.pvs], by simp [h.fns]⟩
  · rw [hband]; exact h.lands
  · rw [hslot]; exact h.emitted
  · rw [hslot]; exact h.derived
  · rw [hband]; exact h.rows
  · rw [hband]; exact h.dropped
  · rw [hband]; exact h.kept

/-- Before the phase ENDED: the record is queued, the next step has begun, and the emission is counted. -/
theorem targetStepped_ends (s : State) (n : Nat) : slotStep (targetStepped s n) n = (slotStep s n + 1) % 2 ^ 32
    ∧ (targetStepped s n).rd (BS_SLOT_STATE_PHASE n) = s.rd (BS_SLOT_STATE_PHASE n)
    ∧ (targetStepped s n).slot n = BsSlot.emit (targetTokens s n) { s.slot n with drafts := [], derived := false, done := 0 }
    ∧ ∀ m, m ≠ n → (targetStepped s n).slot m = s.slot m := by
  have hend := endStep_ended (queueLanding s n false (targetWords s n) (some (targetEmission s n))) n
  have hqueue : ∀ f, (queueLanding s n false (targetWords s n) (some (targetEmission s n))).rd f = s.rd f := State.rd_congr rfl
  have hmod : ∀ f, (targetStepped s n).rd f = (endStep (queueLanding s n false (targetWords s n) (some (targetEmission s n))) n).rd f :=
    State.rd_congr rfl
  refine ⟨?_, ?_, (State.slot_modSlot_same ..).trans (congrArg _ hend.same), fun m hm => (State.slot_modSlot_ne _ _ hm).trans (hend.others m hm)⟩
  · exact (hmod _).trans (hend.step.trans (by rw [slotStep, slotStep, hqueue]))
  · exact (hmod _).trans (hend.phase.trans (hqueue _))

theorem targetStepped_committed (s : State) (n : Nat) : TargetCommitted n false s (targetStepped s n) := by
  have hend := endStep_ended (queueLanding s n false (targetWords s n) (some (targetEmission s n))) n
  obtain ⟨hstep, hphase, hslot, hothers⟩ := targetStepped_ends s n
  exact ⟨hend.lands, hstep, hphase, by rw [hslot]; rfl, by rw [hslot]; rfl, hend.rows, fun h => absurd h (by decide), hend.commits, hothers,
    by simp [targetStepped], by simp [targetStepped], by simp [targetStepped]⟩

/-- The end of the request comes on top of the step. -/
theorem TargetCommitted.ended {n : Nat} {s t : State} (h : TargetCommitted n false s t) : TargetCommitted n true s (endSlot t n) :=
  have hslot : ∀ m, (endSlot t n).slot m = t.slot m := fun _ => rfl
  ⟨h.lands, (endSlot_step t n).trans h.step, endSlot_phase t n, (congrArg BsSlot.emitted (hslot n)).trans h.emitted,
    (congrArg BsSlot.derived (hslot n)).trans h.derived, h.rows, fun _ _ hy => (mem_endSlot_commits.1 hy).2,
    fun y hy hne => mem_endSlot_commits.2 ⟨h.kept y hy hne, hne⟩, fun m hm => (hslot m).trans (h.others m hm), by simp [h.tiles], by simp [h.pvs],
    by simp [h.fns]⟩

theorem targetCommit_committed (s : State) (n : Nat) : TargetCommitted n (targetFin s n) s (targetCommit s n) := by
  rw [targetCommit_eq]
  cases targetFin s n with
  | false => exact (targetStepped_committed s n).slotEvent 2 _
  | true => exact (targetStepped_committed s n).ended.slotEvent 2 _

-- a DRAFT slot's commit (R298)

/-- The words of a DRAFT slot's token record. -/
def draftSlotWords (s : State) (n : Nat) : List W64 :=
  let x := draw (distribution s n false 0) (chachaWord (slotSeed s n) (slotStep s n) 1 0)
  recordK0 (slotStep s n) 0 1 x.isNone false false false :: tokWords [x.getD 0]

theorem draftCommit_eq (s : State) (n : Nat) : draftCommit s n = endStep (queueLanding s n false (draftSlotWords s n) none) n := rfl

end Sys2Proof.Machine
end

section
/-!
PROOF. Token records that land, and what a Warden message does to a Bandstand slot and to a pavilion's front (O48).
-/

namespace Sys2Proof.Machine
open Sys2Proof

-- the landing of a token record (R301)

/-- A scratchpad that nothing has written in this tc takes every byte of a write. -/
theorem Tile.spPut_rd_first {t : Tile} (cls a x : Nat) (bs : List Byte) (h : t.spNew = []) :
    (t.spPut cls a bs).sp.rd x = if a ≤ x ∧ x < a + bs.length then bs.getD (x - a) 0 else t.sp.rd x := by
  have hfirst : (SMap.look t.spNew x (0, 0)).2 ≤ cls := by rw [h]; exact Nat.zero_le cls
  rw [Tile.spPut_rd]
  exact ite_congr (propext (by simp only [hfirst, and_true])) (fun _ => rfl) (fun _ => rfl)

/-- A landing's bytes are written and checked. -/
def recordWritten (s : State) (r : BsLand) : State :=
  noteLanding (spWrite s (s.phys r.tile) byLanding r.addr (bytesOf r.words)) (s.phys r.tile) false (r.addr, r.addr + 31)

/-- Landing `i` is noted. -/
def recordNoted (s : State) (i : Nat) (r : BsLand) : State :=
  (recordWritten s r).modBand (fun b => { b with lands := modAt (fun x => { x with landed := true }) b.lands i })

theorem landRecord_eq {s : State} {i : Nat} {r : BsLand} (hr : s.die.band.lands[i]? = some r) (hwaits : r.landed = false) :
    landRecord s i r.draft = if r.draft then recordNoted s i r else tcAdd (recordNoted s i r) (s.phys r.tile) r.ctr 1 0 0 := by
  have hdue : ¬ ((r.draft != r.draft || r.landed) = true) := by simp [hwaits]
  unfold landRecord
  rw [hr]
  exact if_neg hdue

theorem recordNoted_rd {s : State} (i : Nat) {r : BsLand} (h : (s.tile (s.phys r.tile)).spNew = []) (a : Nat) :
    ((recordNoted s i r).tile (s.phys r.tile)).sp.rd a = if r.addr ≤ a ∧ a < r.addr + 8 * r.words.length
      then (bytesOf r.words).getD (a - r.addr) 0 else (s.tile (s.phys r.tile)).sp.rd a := by
  obtain ⟨hsp, -⟩ := noteLanding_same (spWrite s (s.phys r.tile) byLanding r.addr (bytesOf r.words)) (s.phys r.tile) false (r.addr, r.addr + 31)
  have hnoted : ((recordNoted s i r).tile (s.phys r.tile)).sp = ((recordWritten s r).tile (s.phys r.tile)).sp := rfl
  rw [hnoted, recordWritten, hsp, spWrite, State.tile_modTile_same, Tile.spPut_rd_first _ _ _ _ h, length_bytesOf]

theorem recordNoted_tc (s : State) (i : Nat) (r : BsLand) : ((recordNoted s i r).tile (s.phys r.tile)).tc = (s.tile (s.phys r.tile)).tc := by
  obtain ⟨-, -, -, -, -, htc⟩ := noteLanding_same (spWrite s (s.phys r.tile) byLanding r.addr (bytesOf r.words)) (s.phys r.tile) false
    (r.addr, r.addr + 31)
  obtain ⟨m, l, hput⟩ := (s.tile (s.phys r.tile)).spPut_eq byLanding r.addr (bytesOf r.words)
  have hnoted : ((recordNoted s i r).tile (s.phys r.tile)).tc = ((recordWritten s r).tile (s.phys r.tile)).tc := rfl
  rw [hnoted, recordWritten, htc, spWrite, State.tile_modTile_same, hput]

theorem recordNoted_tile_ne (s : State) (i : Nat) (r : BsLand) {y : Nat} (h : y ≠ s.phys r.tile) : (recordNoted s i r).tile y = s.tile y :=
  (noteLanding_ne _ _ _ _ y h).trans (State.tile_modTile_ne s _ h)

theorem recordNoted_lands {s : State} {i : Nat} {r : BsLand} (hr : s.die.band.lands[i]? = some r) :
    (recordNoted s i r).die.band.lands[i]? = some { r with landed := true } := by
  have hdie : (recordWritten s r).die = s.die := by simp [recordWritten]
  have hlands : (recordNoted s i r).die.band.lands = modAt (fun x => { x with landed := true }) (recordWritten s r).die.band.lands i := rfl
  rw [hlands, hdie, modAt_getElem?_same, hr]
  rfl

theorem landRecord_sameModule (s : State) (i : Nat) (draft : Bool) : SameModule s (landRecord s i draft) :=
  ⟨by simp, by simp, by simp, by simp, by simp⟩

-- Warden messages to a slot (R294, R306)

/-- Slot `n` has no rows, no staged logits and no commits. -/
structure SlotIdle (n : Nat) (b : Band) : Prop where
  rows : ∀ y ∈ b.rows, y.slot ≠ n
  staging : ∀ y ∈ b.staging, y.slot ≠ n
  commits : ∀ y ∈ b.commits, y.slot ≠ n

theorem dropSlotWork_idle (s : State) (n : Nat) : SlotIdle n (dropSlotWork s n).die.band := by
  refine ⟨fun y hy => ?_, fun y hy => ?_, fun y hy => ?_⟩
  · exact bne_iff_ne.1 (List.mem_filter.1 (show y ∈ s.die.band.rows.filter (fun r => r.slot != n) from hy)).2
  · exact bne_iff_ne.1 (List.mem_filter.1 (show y ∈ s.die.band.staging.filter (fun d => d.slot != n) from hy)).2
  · exact bne_iff_ne.1 (List.mem_filter.1 (show y ∈ s.die.band.commits.filter (fun c => c.slot != n) from hy)).2

/-- The slot that a message opens is constrained; its configuration; its state; what it keeps beside its registers (R294). -/
def SlotOpen.constrained (o : SlotOpen) : Bool := !o.draft && bits (o.words.getD 2 0) 52 52 == 1
def SlotOpen.cfg (o : SlotOpen) : W64 :=
  packed [(BS_SLOT_CFG_OPEN o.slot, 1), (BS_SLOT_CFG_MODE o.slot, ofBool o.draft), (BS_SLOT_CFG_CONSTRAINED o.slot, ofBool (SlotOpen.constrained o)),
    (BS_SLOT_CFG_GREEDY o.slot, ofBool (bits (o.words.getD 3 0) 31 0 % 2 ^ 31 == 0)), (BS_SLOT_CFG_DEPTH o.slot, bits (o.words.getD 2 0) 51 48),
    (BS_SLOT_CFG_PAVILION o.slot, o.pv), (BS_SLOT_CFG_MASK_CORE o.slot, if SlotOpen.constrained o then clusterOf (16 * o.resI + o.resJ) else 0),
    (BS_SLOT_CFG_RESULT_I o.slot, o.resI), (BS_SLOT_CFG_RESULT_J o.slot, o.resJ), (BS_SLOT_CFG_RESULT_CTR o.slot, o.resCtr),
    (BS_SLOT_CFG_RESULT_REC o.slot, o.resRec), (BS_SLOT_CFG_VOCAB o.slot, o.vocab)] 0
def SlotOpen.state (o : SlotOpen) : W64 := packed [(BS_SLOT_STATE_PHASE o.slot, bsCollecting)] 0
def SlotOpen.request (o : SlotOpen) : BsSlot :=
  { BsSlot.reset with tag := o.tag, pen := if !o.draft then o.seeds else [], maxTokens := bits (o.words.getD 2 0) 47 32 }

/-- The seven registers of slot `n` set. -/
def slotRegs (s : State) (n : Nat) (cfg param0 param1 param2 stop seed st : W64) : State :=
  ((((((s.setReg (BS_SLOT_CFG_OFF n) cfg).setReg (BS_SLOT_PARAM0_OFF n) param0).setReg (BS_SLOT_PARAM1_OFF n) param1).setReg (BS_SLOT_PARAM2_OFF n)
    param2).setReg (BS_SLOT_STOP_OFF n) stop).setReg (BS_SLOT_SEED_OFF n) seed).setReg (BS_SLOT_STATE_OFF n) st

theorem slotRegs_regW (s : State) (n : Nat) (cfg param0 param1 param2 stop seed st : W64) :
    (slotRegs s n cfg param0 param1 param2 stop seed st).regW (BS_SLOT_CFG_OFF n) = cfg
    ∧ (slotRegs s n cfg param0 param1 param2 stop seed st).regW (BS_SLOT_SEED_OFF n) = seed
    ∧ (slotRegs s n cfg param0 param1 param2 stop seed st).regW (BS_SLOT_STATE_OFF n) = st := by
  refine ⟨?_, ?_, State.regW_setReg_same ..⟩ <;>
    simp (disch := simp only [BS_SLOT_CFG_OFF, BS_SLOT_PARAM0_OFF, BS_SLOT_PARAM1_OFF, BS_SLOT_PARAM2_OFF, BS_SLOT_STOP_OFF, BS_SLOT_SEED_OFF,
      BS_SLOT_STATE_OFF]; omega) only [slotRegs, State.regW_setReg_ne, State.regW_setReg_same]

/-- Slot `o.slot` set up, before its mask core hears of it. -/
def slotSetUp (s : State) (o : SlotOpen) (param0 param1 param2 stop : W64) : State :=
  (slotRegs (dropSlotWork s o.slot) o.slot (SlotOpen.cfg o) param0 param1 param2 stop (o.words.getD 6 0) (SlotOpen.state o)).modSlot o.slot
    (fun _ => SlotOpen.request o)

theorem openSlot_eq (s : State) (o : SlotOpen) : ∃ param0 param1 param2 stop, openSlot s o = if SlotOpen.constrained o
    then tellLodge (slotSetUp s o param0 param1 param2 stop) (clusterOf (16 * o.resI + o.resJ)) (.grammar (bits (o.words.getD 5 0) 63 48) o.slot)
    else slotSetUp s o param0 param1 param2 stop := ⟨_, _, _, _, rfl⟩

/-- The fields of the configuration that a message opens a slot with, each cut to its width. -/
theorem SlotOpen.cfg_bits (o : SlotOpen) : bits (SlotOpen.cfg o) 63 63 = 1 % 2 ^ (63 + 1 - 63)
    ∧ bits (SlotOpen.cfg o) 62 62 = ofBool o.draft % 2 ^ (62 + 1 - 62) ∧ bits (SlotOpen.cfg o) 55 54 = o.pv % 2 ^ (55 + 1 - 54)
    ∧ bits (SlotOpen.cfg o) 53 50 = (if SlotOpen.constrained o then clusterOf (16 * o.resI + o.resJ) else 0) % 2 ^ (53 + 1 - 50) := by
  refine ⟨?_, ?_, ?_, ?_⟩ <;>
    simp (disch := decide) only [SlotOpen.cfg, packed, List.foldl_cons, List.foldl_nil, BS_SLOT_CFG_OPEN, BS_SLOT_CFG_MODE, BS_SLOT_CFG_CONSTRAINED,
      BS_SLOT_CFG_GREEDY, BS_SLOT_CFG_DEPTH, BS_SLOT_CFG_PAVILION, BS_SLOT_CFG_MASK_CORE, BS_SLOT_CFG_RESULT_I, BS_SLOT_CFG_RESULT_J,
      BS_SLOT_CFG_RESULT_CTR, BS_SLOT_CFG_RESULT_REC, BS_SLOT_CFG_VOCAB, bits_setBits_same, bits_setBits_ne]

theorem SlotOpen.cfg_fields (o : SlotOpen) : bits (SlotOpen.cfg o) 63 63 = 1 ∧ bits (SlotOpen.cfg o) 62 62 = ofBool o.draft
    ∧ bits (SlotOpen.cfg o) 55 54 = o.pv % 4
    ∧ bits (SlotOpen.cfg o) 53 50 = (if SlotOpen.constrained o then clusterOf (16 * o.resI + o.resJ) else 0) % 16 := by
  obtain ⟨hopen, hmode, hpv, hcore⟩ := SlotOpen.cfg_bits o
  have hflag : ofBool o.draft % 2 = ofBool o.draft := by cases o.draft <;> rfl
  exact ⟨hopen, hmode.trans hflag, hpv, hcore⟩

theorem SlotOpen.state_fields (o : SlotOpen) : bits (SlotOpen.state o) 17 16 = bsCollecting ∧ bits (SlotOpen.state o) 63 32 = 0 := by
  have hword : SlotOpen.state o = setBits 0 17 16 bsCollecting := rfl
  rw [hword]
  decide

theorem slotSetUp_fields (s : State) (o : SlotOpen) (param0 param1 param2 stop : W64) :
    (slotSetUp s o param0 param1 param2 stop).rd (BS_SLOT_CFG_OPEN o.slot) = 1
    ∧ (slotSetUp s o param0 param1 param2 stop).rd (BS_SLOT_CFG_MODE o.slot) = ofBool o.draft
    ∧ (slotSetUp s o param0 param1 param2 stop).rd (BS_SLOT_CFG_PAVILION o.slot) = o.pv % 4
    ∧ (slotSetUp s o param0 param1 param2 stop).rd (BS_SLOT_CFG_MASK_CORE o.slot)
      = (if SlotOpen.constrained o then clusterOf (16 * o.resI + o.resJ) else 0) % 16
    ∧ (slotSetUp s o param0 param1 param2 stop).rd (BS_SLOT_STATE_PHASE o.slot) = bsCollecting
    ∧ (slotSetUp s o param0 param1 param2 stop).rd (BS_SLOT_STATE_STEP o.slot) = 0
    ∧ (slotSetUp s o param0 param1 param2 stop).regW (BS_SLOT_SEED_OFF o.slot) = o.words.getD 6 0 := by
  obtain ⟨hcfg, hseed, hstate⟩ := slotRegs_regW (dropSlotWork s o.slot) o.slot (SlotOpen.cfg o) param0 param1 param2 stop (o.words.getD 6 0)
    (SlotOpen.state o)
  obtain ⟨hopen, hmode, hpv, hcore⟩ := SlotOpen.cfg_fields o
  obtain ⟨hphase, hstep⟩ := SlotOpen.state_fields o
  exact ⟨(congrArg (bits · 63 63) hcfg).trans hopen, (congrArg (bits · 62 62) hcfg).trans hmode, (congrArg (bits · 55 54) hcfg).trans hpv,
    (congrArg (bits · 53 50) hcfg).trans hcore, (congrArg (bits · 17 16) hstate).trans hphase, (congrArg (bits · 63 32) hstate).trans hstep, hseed⟩

/-- What the opening of a slot does, whether a mask core hears of it or not. -/
structure SlotOpened (o : SlotOpen) (s t : State) : Prop where
  isOpen : slotOpen t o.slot = true
  mode : slotDraft t o.slot = o.draft
  pavilion : t.rd (BS_SLOT_CFG_PAVILION o.slot) = o.pv % 4
  core : t.rd (BS_SLOT_CFG_MASK_CORE o.slot) = (if SlotOpen.constrained o then clusterOf (16 * o.resI + o.resJ) else 0) % 16
  phase : t.rd (BS_SLOT_STATE_PHASE o.slot) = bsCollecting
  step : slotStep t o.slot = 0
  seed : slotSeed t o.slot = o.words.getD 6 0
  same : t.slot o.slot = SlotOpen.request o
  others : ∀ m, m ≠ o.slot → t.slot m = s.slot m
  tiles : t.tiles = s.tiles
  pvs : t.pvs = s.pvs
  idle : SlotIdle o.slot t.die.band

theorem slotSetUp_opened (s : State) (o : SlotOpen) (param0 param1 param2 stop : W64) : SlotOpened o s (slotSetUp s o param0 param1 param2 stop) := by
  obtain ⟨hopen, hmode, hpv, hcore, hphase, hstep, hseed⟩ := slotSetUp_fields s o param0 param1 param2 stop
  have hidle := dropSlotWork_idle s o.slot
  refine ⟨beq_iff_eq.2 hopen, ?_, hpv, hcore, hphase, hstep, hseed, State.slot_modSlot_same .., fun m hm => State.slot_modSlot_ne _ _ hm, rfl, rfl,
    ⟨hidle.rows, hidle.staging, hidle.commits⟩⟩
  rw [slotDraft, hmode]
  cases o.draft <;> rfl

theorem SlotOpened.tellLodge {o : SlotOpen} {s t : State} (h : SlotOpened o s t) (k : Nat) (m : LodgeMsg) : SlotOpened o s (tellLodge t k m) := by
  have hband : (Machine.tellLodge t k m).die.band = t.die.band := rfl
  exact ⟨h.isOpen, h.mode, h.pavilion, h.core, h.phase, h.step, h.seed, h.same, h.others, h.tiles, h.pvs, hband ▸ h.idle⟩

theorem openSlot_opened (s : State) (o : SlotOpen) : SlotOpened o s (openSlot s o) := by
  obtain ⟨param0, param1, param2, stop, heq⟩ := openSlot_eq s o
  rw [heq]
  split
  · exact (slotSetUp_opened s o param0 param1 param2 stop).tellLodge _ _
  · exact slotSetUp_opened s o param0 param1 param2 stop

/-- The mask core of a constrained slot hears of its grammar (R294). -/
theorem openSlot_constrained (s : State) {o : SlotOpen} (h : SlotOpen.constrained o = true) :
    ((openSlot s o).lodge (clusterOf (16 * o.resI + o.resJ))).msgs
      = (s.lodge (clusterOf (16 * o.resI + o.resJ))).msgs ++ [.grammar (bits (o.words.getD 5 0) 63 48) o.slot] := by
  obtain ⟨param0, param1, param2, stop, heq⟩ := openSlot_eq s o
  rw [heq, if_pos h]
  exact (congrArg Lodge.msgs (State.lodge_setLodge_same ..)).trans rfl

theorem openSlot_unconstrained (s : State) {o : SlotOpen} (h : SlotOpen.constrained o = false) : (openSlot s o).die.lodges = s.die.lodges := by
  obtain ⟨param0, param1, param2, stop, heq⟩ := openSlot_eq s o
  rw [heq, if_neg (by rw [h]; decide)]
  rfl

theorem clusterOf_lt {i j : Nat} (hi : i < 16) (hj : j < 16) : clusterOf (16 * i + j) < 16 := by
  unfold clusterOf
  omega

/-- A slot that closes keeps its pavilion (R306). -/
theorem closeSlot_fields (s : State) {n : Nat} (h : slotOpen s n = true) : slotOpen (closeSlot s n) n = false
    ∧ (closeSlot s n).rd (BS_SLOT_CFG_PAVILION n) = s.rd (BS_SLOT_CFG_PAVILION n) ∧ (closeSlot s n).rd (BS_SLOT_STATE_PHASE n) = 0
    ∧ SlotIdle n (closeSlot s n).die.band := by
  have hclose : closeSlot s n = slotEvent (((dropSlotWork s n).wr (BS_SLOT_CFG_OPEN n) 0).wr (BS_SLOT_STATE_PHASE n) 0) n 3 0 := if_pos h
  have hreg : (closeSlot s n).reg = (((dropSlotWork s n).wr (BS_SLOT_CFG_OPEN n) 0).wr (BS_SLOT_STATE_PHASE n) 0).reg := by rw [hclose]; simp
  have hband : (closeSlot s n).die.band = (dropSlotWork s n).die.band := by rw [hclose]; exact slotEvent_band ..
  have hoff : BS_SLOT_CFG_OFF n ≠ BS_SLOT_STATE_OFF n := by simp only [BS_SLOT_CFG_OFF, BS_SLOT_STATE_OFF]; omega
  refine ⟨?_, ?_, ?_, hband ▸ dropSlotWork_idle s n⟩
  · rw [slotOpen, State.rd_congr hreg, State.rd_wr_off _ _ hoff,
      State.rd_wr_same _ _ _ (by simp [BS_SLOT_CFG_OPEN]) (by simp [BS_SLOT_CFG_OPEN]), Nat.zero_mod]
    rfl
  · rw [State.rd_congr hreg, State.rd_wr_off _ _ hoff,
      State.rd_wr_ne _ _ (by simp [BS_SLOT_CFG_OPEN]) (by simp [BS_SLOT_CFG_OPEN]) (.inl (by simp [BS_SLOT_CFG_OPEN, BS_SLOT_CFG_PAVILION]))]
    rfl
  · rw [State.rd_congr hreg, State.rd_wr_same _ _ _ (by simp [BS_SLOT_STATE_PHASE]) (by simp [BS_SLOT_STATE_PHASE]), Nat.zero_mod]

-- Warden messages to a pavilion's front (R278, R303, R346)

theorem Pool.reserve_index (d : IhDecision) (p : Pool) : (p.reserve d).index = p.index := by
  cases d <;> rfl

/-- A decision is kept, and the pool's index waits for its frame (R278). -/
theorem hearDecision_pv (s : State) (q f : Nat) (d : IhDecision) : (hearDecision s q f d).pv q = { s.pv q with
    front := { (s.pv q).front with decisions := (s.pv q).front.decisions ++ [(f, d)], pool := (s.pv q).front.pool.map (Pool.reserve d) } } := by
  rw [hearDecision, State.modPool, State.pv_modFront_same, State.pv_modFront_same]

/-- A pavilion that runs drains at the frame of the message (R346). -/
theorem stopAnnounced_running {s : State} {q : Nat} (f : Nat) (h : (s.pv q).run.st = pvRunning) : ((stopAnnounced s q f).pv q).run
    = { (s.pv q).run with st := pvDraining, stopAt := some f, drained := true } := by
  have hstop : stopAnnounced s q f = (enterState s q pvDraining).modRun q (fun r => { r with stopAt := some f, drained := true }) := if_pos h
  rw [hstop, State.pv_modRun_same, enterState_pv_same]

theorem stopAnnounced_draining {s : State} {q : Nat} (f : Nat) (h : (s.pv q).run.st = pvDraining) :
    ((stopAnnounced s q f).pv q).run = { (s.pv q).run with stopAt := some f } := by
  have hstop : stopAnnounced s q f = s.modRun q (fun r => { r with stopAt := some f }) :=
    (if_neg (by rw [h]; decide)).trans (if_pos h)
  rw [hstop, State.pv_modRun_same]

theorem stopAnnounced_idle {s : State} {q : Nat} (f : Nat) (hrun : (s.pv q).run.st ≠ pvRunning) (hdrain : (s.pv q).run.st ≠ pvDraining) :
    stopAnnounced s q f = s := (if_neg hrun).trans (if_neg hdrain)

end Sys2Proof.Machine
end

section
/-!
PROOF. The Bandstand's steps (O48), from what its scanner, its commits, its landings and its slots' messages do.
-/

namespace Sys2Proof.Machine
open Sys2Proof

theorem exec_draftDerivation (s : State) {n : Nat} (hn : n < 1024) : exec (.draftDerivation n) s =
    .next (if slotOpen s n && !slotDraft s n && 0 < slotDepth s n && !(s.slot n).derived && draftsReady s n then deriveDrafts s n else s) := if_pos hn

/-- The state in which a TARGET slot's commit samples: its staged entries are scanned and its drafts are there (R299). -/
def targetReady (s : State) (n : Nat) : State :=
  scanRest (if 0 < slotDepth s n ∧ ((scanRest s n true).slot n).derived = false then deriveDrafts (scanRest s n true) n else scanRest s n true) n false

theorem targetReady_frame (s : State) (n : Nat) : SlotFrame n s (targetReady s n) := by
  have hdrafts := (scanRest_frame s n true).toSlotFrame n
  refine SlotFrame.trans ?_ ((scanRest_frame _ n false).toSlotFrame n)
  split
  · exact hdrafts.trans (deriveDrafts_frame _ n)
  · exact hdrafts

theorem exec_targetCommit {s : State} {n : Nat} (hn : n < 1024) (hopen : slotOpen s n = true) (hmode : slotDraft s n = false)
    (hdue : commitDue s n = true) (hphase : s.rd (BS_SLOT_STATE_PHASE n) ≠ bsEnded) :
    exec (.targetCommit n) s = .next (targetCommit (targetReady s n) n) := by
  have hcond : (slotOpen s n && !slotDraft s n && commitDue s n && s.rd (BS_SLOT_STATE_PHASE n) != bsEnded) = true := by
    simp [hopen, hmode, hdue, hphase]
  refine (if_pos hn).trans (congrArg Host.Outcome.next ((if_pos hcond).trans ?_))
  simp only [targetReady, Bool.and_eq_true, decide_eq_true_eq, Bool.not_eq_true']

theorem exec_draftSlotCommit {s : State} {n : Nat} (hn : n < 1024) (hopen : slotOpen s n = true) (hmode : slotDraft s n = true)
    (hdue : commitDue s n = true) : exec (.draftSlotCommit n) s = .next (draftCommit (scanRest s n false) n) := by
  have hcond : (slotOpen s n && slotDraft s n && commitDue s n) = true := by simp [hopen, hmode, hdue]
  exact (if_pos hn).trans (congrArg Host.Outcome.next (if_pos hcond))

theorem exec_wardenMessage (s : State) {m : WMsg} (h : msgOk m = true) : exec (.wardenMessage m) s = .next (wardenMessage s m) := if_pos h

/-- Settles O48: the scanner's entries and rows, the drafts, the commits of TARGET and DRAFT slots, the landings, and the Warden messages, each by
the lemma about its function. -/
theorem bandstandSteps : Obligations.BandstandSteps := by
  unfold Obligations.BandstandSteps
  refine ⟨?held, ?scanned, ?drafts, ?derived, ?target, ?draft, ?notDue, ?landing, ?opens, ?closes, ?emission, ?lookup, ?decision, ?stop⟩
  case held =>
    intro s d hstaging hheld
    have hexec : exec .bandstandScan s = .next (scanList heldBack s 256 [] s.die.band.staging) := rfl
    rw [hexec, hstaging, scanList_heldBack hstaging hheld]
  case scanned =>
    intro s d x hstaging hheld hvals
    have hexec : exec .bandstandScan s = .next (scanList heldBack s 256 [] s.die.band.staging) := rfl
    have hframe := scanList_frame heldBack s 256 [] [d]
    rw [hexec, hstaging]
    refine ⟨_, rfl, by rw [scanList_one hheld hvals]; rfl, fun hfree hshare hnew => ?_, hframe.slots, hframe.commits, hframe.lands, hframe.tiles,
      hframe.pvs, hframe.fns, hframe.out⟩
    have hrow := scanEntry_fresh d.voff x hnew hfree hshare
    rw [scanList_one hheld hvals]
    exact ⟨_, hrow, freshRow_is d, rfl, rfl, rfl⟩
  case drafts =>
    intro s n hn hopen hmode hdepth hderived hready
    have hcond : (slotOpen s n && !slotDraft s n && decide (0 < slotDepth s n) && !(s.slot n).derived && draftsReady s n) = true := by
      simp [hopen, hmode, hdepth, hderived, hready]
    have hslot := deriveDrafts_slot_same s n
    refine ⟨deriveDrafts s n, slotLanding s n true (draftWords s n) none, ?_, by rw [hslot], by rw [hslot]; rfl, deriveDrafts_lands s n, rfl, rfl, rfl,
      rfl, rfl, by rw [hslot]; rfl, rfl, draftWords_step s n, fun m hm => deriveDrafts_slot_ne s hm, by simp, by simp, by simp, by simp⟩
    rw [exec_draftDerivation s hn, if_pos hcond]
  case derived =>
    intro s n hn hderived
    rw [exec_draftDerivation s hn, if_neg (by simp [hderived])]
  case target =>
    rintro s u v n x c toks maxed fin hn hopen hmode hdue hphase rfl hv rfl hc hmaxed htoks hfin
    have hready : v = targetReady s n := hv
    have hframe : SlotFrame n s v := hready ▸ targetReady_frame s n
    have hcut : targetCut v n = c := by rw [targetCut, hframe.stops, hc]
    have hmax : targetMaxed v n = maxed := by rw [targetMaxed, hcut, hframe.maxTokens, hframe.emitted, hmaxed]
    have htok : targetTokens v n = toks := by rw [targetTokens, hcut, hframe.maxTokens, hframe.emitted, htoks]
    have hend : targetFin v n = fin := by rw [targetFin, hcut, hmax, hfin]
    have hdone := targetCommit_committed v n
    rw [hend] at hdone
    refine ⟨_, _, (exec_targetCommit hn hopen hmode hdue hphase).trans (by rw [hready]), hdone.lands, rfl, rfl, rfl, ?_, ?_, ?_, ?_, ?_, hdone.derived,
      hdone.rows, hdone.dropped, ?_, fun m hm => (hdone.others m hm).trans (hframe.others m hm), hdone.tiles.trans hframe.tiles,
      hdone.pvs.trans hframe.pvs, hdone.fns.trans hframe.fns⟩
    · rw [slotLanding, targetWords, hframe.step, hcut, hmax, htok, hend]
    · rw [slotLanding, targetEmission, hframe.step, hframe.pavilion, hframe.tag, hcut, hmax, htok, hend]
    · rw [hdone.step, hframe.step]
    · rw [hdone.phase, hframe.phase]
    · rw [hdone.emitted, hframe.emitted, htok]
    · rw [← hframe.commits]
      exact hdone.kept
  case draft =>
    rintro s v n hn hopen hmode hdue rfl
    have hframe := (scanRest_frame s n false).toSlotFrame n
    have hend := endStep_ended (queueLanding (scanRest s n false) n false (draftSlotWords (scanRest s n false) n) none) n
    refine ⟨_, slotLanding (scanRest s n false) n false (draftSlotWords (scanRest s n false) n) none, exec_draftSlotCommit hn hopen hmode hdue, ?_, rfl,
      rfl, rfl, ?_, ?_, fun m hm => (hend.others m hm).trans (hframe.others m hm), by simp [hframe.tiles], by simp [hframe.pvs], by simp [hframe.fns]⟩
    · rw [draftCommit_eq, hend.lands, queueLanding_lands, (scanRest_frame s n false).lands]
    · rw [slotLanding, draftSlotWords, hframe.seed, hframe.step]
    · have hqueue : slotStep (queueLanding (scanRest s n false) n false (draftSlotWords (scanRest s n false) n) none) n = slotStep (scanRest s n false) n :=
        State.rd_congr rfl _
      rw [draftCommit_eq, hend.step, hqueue, hframe.step]
  case notDue =>
    intro s n hn hdue
    refine ⟨(if_pos hn).trans (congrArg Host.Outcome.next (if_neg ?_)), (if_pos hn).trans (congrArg Host.Outcome.next (if_neg ?_))⟩ <;> simp [hdue]
  case landing =>
    rintro s i p r hr hwaits rfl hfirst
    have hland := landRecord_eq hr hwaits
    have hrd := recordNoted_rd i hfirst
    refine ⟨fun hcommit => ⟨landRecord s i false, rfl, ?_⟩, fun hdraft => ⟨landRecord s i true, rfl, ?_⟩⟩
    · rw [hcommit, if_neg (by decide)] at hland
      have hcount : ∀ m, ((tcAdd (recordNoted s i r) (s.phys r.tile) r.ctr 1 0 0).tile (s.phys r.tile)).tcVal m
          = if m = r.ctr then min ((s.tile (s.phys r.tile)).tcVal r.ctr + 1) 0xFFFFFFFF else (s.tile (s.phys r.tile)).tcVal m := fun m => by
        rw [tcAdd_tcVal, Tile.tcVal, Tile.tcVal, recordNoted_tc]
        rfl
      have hsame := landRecord_sameModule s i false
      rw [hland] at hsame ⊢
      refine ⟨fun a => by rw [tcAdd_sp]; exact hrd a, (hcount r.ctr).trans (if_pos rfl), by simp [recordNoted_lands hr],
        fun m hm => (hcount m).trans (if_neg hm), fun y hy => (tcAdd_tile_ne _ _ _ _ _ hy).trans (recordNoted_tile_ne s i r hy), hsame⟩
    · rw [hdraft, if_pos rfl] at hland
      have hsame := landRecord_sameModule s i true
      rw [hland] at hsame ⊢
      exact ⟨hrd, recordNoted_tc s i r, recordNoted_lands hr, fun y hy => recordNoted_tile_ne s i r hy, hsame⟩
  case opens =>
    intro s o hslot hpv hi hj
    have hok : msgOk (.openSlot o) = true := by simp [msgOk, hslot, hpv, hi, hj]
    have hdone := openSlot_opened s o
    refine ⟨openSlot s o, exec_wardenMessage s hok, hdone.isOpen, hdone.mode, hdone.pavilion.trans (Nat.mod_eq_of_lt hpv), hdone.phase, hdone.step,
      hdone.seed, by rw [hdone.same]; rfl, by rw [hdone.same]; rfl, ?_, hdone.others, hdone.tiles, hdone.pvs, hdone.idle.rows, hdone.idle.staging,
      hdone.idle.commits, fun hmode hcon => ?_, fun hfree => openSlot_unconstrained s ?_⟩
    · rw [hdone.same, SlotOpen.request]
      cases o.draft <;> rfl
    · have hconstrained : SlotOpen.constrained o = true := by rw [SlotOpen.constrained, hmode, hcon]; rfl
      refine ⟨?_, openSlot_constrained s hconstrained⟩
      rw [hdone.core, if_pos hconstrained, Nat.mod_eq_of_lt (clusterOf_lt hi hj)]
    · rcases hfree with hmode | hcon
      · rw [SlotOpen.constrained, hmode]; rfl
      · rw [SlotOpen.constrained, hcon]; exact Bool.and_false _
  case closes =>
    intro s n hn hopen
    obtain ⟨hclosed, hpv, hphase, hidle⟩ := closeSlot_fields s hopen
    exact ⟨closeSlot s n, exec_wardenMessage s (m := .closeSlot n) (decide_eq_true hn), hclosed, hpv, hphase, hidle.rows, hidle.commits, by simp, by simp⟩
  case emission =>
    intro s e hpv
    refine ⟨_, exec_wardenMessage s (m := .emission e) (decide_eq_true hpv), ?_, ?_, rfl, rfl, rfl⟩ <;>
      rw [wardenMessage, State.pv_modFront_same]
  case lookup =>
    intro s a hpv
    refine ⟨_, exec_wardenMessage s (m := .lookup a) (decide_eq_true hpv), ?_, ?_, rfl, rfl, rfl⟩ <;>
      rw [wardenMessage, State.pv_modFront_same]
  case decision =>
    intro s q f d hq
    have hpv := hearDecision_pv s q f d
    refine ⟨hearDecision s q f d, exec_wardenMessage s (m := .decision q f d) (decide_eq_true hq), by rw [hpv],
      fun p hp => ⟨p.reserve d, ?_, p.reserve_index d⟩, by rw [hpv], by simp, by simp, by simp⟩
    rw [hpv, hp]
    rfl
  case stop =>
    intro s q f hq
    refine ⟨stopAnnounced s q f, exec_wardenMessage s (m := .stopFrame q f) (decide_eq_true hq), by simp, by simp, by simp, fun hrun => ?_, fun hdrain => ?_,
      fun hrun hdrain => stopAnnounced_idle f hrun hdrain⟩
    · rw [stopAnnounced_running f hrun]
      exact ⟨rfl, rfl, rfl⟩
    · rw [stopAnnounced_draining f hdrain]
      exact ⟨hdrain, rfl⟩

end Sys2Proof.Machine
end

section
/-!
PROOF. The standing facts of the Gatehouse and the module hardware: what each operation keeps of them, one line for each command, the Sundial cycle, and
the state after reset; the step's two cases, and a command that is not well formed and runs.
-/

namespace Sys2Proof.Machine
open Sys2Proof

/-- What every step leaves standing: the queue as it is, the standing facts of the hardware, and no fuse lost. -/
structure Kept (s t : State) : Prop where
  pending : t.pending = s.pending
  fuses : s.gate.fuses ≤ t.gate.fuses
  inv : HwInv s → HwInv t

namespace Kept

theorem refl (s : State) : Kept s s := ⟨rfl, Nat.le_refl _, id⟩

theorem trans {s t u : State} (h : Kept s t) (k : Kept t u) : Kept s u :=
  ⟨k.pending.trans h.pending, h.fuses.trans k.fuses, k.inv ∘ h.inv⟩

/-- The last operation first. -/
theorem after {s t u : State} (k : Kept t u) (h : Kept s t) : Kept s u := h.trans k

theorem ite {s t u : State} (c : Prop) [Decidable c] (h : Kept s t) (k : Kept s u) : Kept s (if c then t else u) := by
  split
  · exact h
  · exact k

/-- The Gatehouse enters a phase of R335, and no more than its 64 fuses are blown. -/
theorem modGate {s : State} {f : Gate → Gate} (hf : s.gate.fuses ≤ (f s.gate).fuses) (h64 : s.gate.fuses ≤ 64 → (f s.gate).fuses ≤ 64)
    (hphase : s.gate.phase ≤ 4 → (f s.gate).phase ≤ 4) : Kept s (s.modGate f) :=
  ⟨rfl, hf, fun ⟨i64, iphase, ieid, iir⟩ => ⟨h64 i64, hphase iphase, ieid, iir⟩⟩

/-- The Gatehouse enters a phase of R335, and no fuse is blown. -/
theorem enter {s : State} {f : Gate → Gate} (hf : (f s.gate).fuses = s.gate.fuses) (hphase : (f s.gate).phase ≤ 4) : Kept s (s.modGate f) :=
  modGate hf.ge (fun h => hf ▸ h) fun _ => hphase

/-- Of the module hardware's state the endpoint ID and the test-access instruction alone matter. -/
theorem modMod {s : State} {f : Mod → Mod} (he : s.mod.eid < 255 → (f s.mod).eid < 255) (hi : s.mod.jtagIr ≤ 3 → (f s.mod).jtagIr ≤ 3) :
    Kept s (s.modMod f) :=
  ⟨rfl, Nat.le_refl _, fun ⟨i64, iphase, ieid, iir⟩ => ⟨i64, iphase, he ieid, hi iir⟩⟩

theorem same {s t : State} (hp : t.pending = s.pending) (hf : t.gate.fuses = s.gate.fuses) (hphase : t.gate.phase = s.gate.phase)
    (he : t.mod.eid = s.mod.eid) (hi : t.mod.jtagIr = s.mod.jtagIr) : Kept s t :=
  ⟨hp, hf.ge, fun ⟨i64, iphase, ieid, iir⟩ => ⟨hf ▸ i64, hphase ▸ iphase, he ▸ ieid, hi ▸ iir⟩⟩

theorem front {s t : State} (h : t.pending = s.pending ∧ t.gate = s.gate ∧ t.mod = s.mod) : Kept s t :=
  same h.1 (congrArg Gate.fuses h.2.1) (congrArg Gate.phase h.2.1) (congrArg Mod.eid h.2.2) (congrArg Mod.jtagIr h.2.2)

theorem keeps {s t : State} {P : Prop} (h : t.pending = s.pending ∧ t.gate = s.gate ∧ t.mod = s.mod ∧ P) : Kept s t :=
  front ⟨h.1, h.2.1, h.2.2.1⟩

theorem foldl {α : Type} {f : State → α → State} (h : ∀ s x, Kept s (f s x)) (l : List α) (s : State) : Kept s (l.foldl f s) := by
  induction l generalizing s with
  | nil => exact refl s
  | cons x l ih => exact (h s x).trans (ih _)

theorem serve {s : State} {f : Func} {op : Nat} {pick : SMap W64 → Bool} {body : W64 → SMap W64 → State} (h : ∀ c a, Kept s (body c a)) :
    Kept s (Machine.serve s f op pick body) := by
  unfold Machine.serve
  split
  · exact refl s
  · exact ite _ (h _ _) (refl s)

theorem serveModule {s : State} {f : Func} {op : Nat} {pick : SMap W64 → Bool} {masks : List Nat} {bad : SMap W64 → Nat → Bool} {cond : Bool}
    {body : SMap W64 → State} (h : ∀ a, Kept s (body a)) : Kept s (Machine.serveModule s f op pick masks bad cond body) := by
  refine serve fun _ a => ?_
  split
  · exact keeps (answerFail_keeps ..)
  · exact ite _ (h a) (keeps (answerFail_keeps ..))

theorem wr (s : State) (f : Fld) (v : Nat) : Kept s (s.wr f v) := front ⟨rfl, rfl, rfl⟩
theorem raise (s : State) (f : Fld) : Kept s (s.raise f) := front ⟨rfl, rfl, rfl⟩
theorem emit (s : State) (o : Out) : Kept s (s.emit o) := front ⟨rfl, rfl, rfl⟩
theorem drawn (s : State) : Kept s s.drawn := front ⟨rfl, rfl, rfl⟩

end Kept

-- the boot ROM and firmware

theorem fusesAfter_ge (g : Gate) (m : List Byte) : g.fuses ≤ fusesAfter g m := by
  unfold fusesAfter
  split
  · exact Nat.le_max_left ..
  · exact Nat.le_refl _

/-- An accepted image carries an SVN that the fuses can hold (R356). -/
theorem fwAccepted_svn {g : Gate} {len : Nat} {m : List Byte} (h : fwAccepted g len m = true) : bits (mWord m 1) 47 32 ≤ 64 := by
  simp only [fwAccepted, Bool.and_eq_true, decide_eq_true_eq] at h
  omega

theorem fusesAfter_le {g : Gate} {len : Nat} {m : List Byte} (h : fwAccepted g len m = true) (h64 : g.fuses ≤ 64) : fusesAfter g m ≤ 64 := by
  unfold fusesAfter
  split
  · exact Nat.max_le.2 ⟨h64, fwAccepted_svn h⟩
  · exact h64

theorem endFw_kept (s : State) (n t status : Nat) : Kept s (endFw s n t status) :=
  Kept.trans (.enter rfl (Nat.zero_le 4)) (.keeps (endAsync_keeps ..))

theorem fwLoad_kept (s : State) (f : Func) : Kept s (fwLoad s f) :=
  .serveModule fun _ => .ite _ (.keeps (answerFail_keeps ..))
    (Kept.trans (.keeps (accept_keeps ..)) (.enter rfl (by decide : phaseVerify ≤ 4)))

theorem fwLoadVerify_kept (s : State) (image : List Byte) : Kept s (fwLoadVerify s image) := by
  unfold fwLoadVerify
  split
  · exact .refl s
  · refine .ite _ (endFw_kept ..) ?_
    split
    · next hok =>
      refine Kept.trans (.modGate (fusesAfter_ge ..) (fusesAfter_le hok) fun _ => ?_) (.keeps (endAsync_keeps ..))
      exact (by decide : phaseFwStart ≤ 4)
    · exact endFw_kept ..

theorem setAlert_kept (s : State) (b : Nat) : Kept s (setAlert s b) := .same rfl rfl rfl rfl rfl

theorem haltFirmware_kept (s : State) : Kept s (haltFirmware s) := .after (setAlert_kept ..) (.enter rfl (Nat.le_refl 4))

theorem askPowerCycle_kept (s : State) : Kept s (askPowerCycle s) := .after (.emit ..) (.after (setAlert_kept ..) (.keeps (summary_keeps ..)))

theorem checkStacks_kept (s : State) : Kept s (checkStacks s) := .ite _ (.after (askPowerCycle_kept _) (.keeps (summary_keeps ..))) (.refl s)

theorem initFirmware_kept (s : State) (bad : List Nat) : Kept s (initFirmware s bad) := by
  unfold initFirmware
  extract_lets lost s1 s2 s3
  have h1 : Kept s s1 := .after (.keeps (applyPlan_keeps ..)) (.wr ..)
  have h2 : Kept s s2 := .after (.foldl (fun _ _ => .keeps (trainPort_keeps ..)) ..) h1
  have h3 : Kept s s3 := .after (.keeps (lifeEvent_keeps ..)) (.after (checkStacks_kept _) h2)
  clear_value s3
  exact h3.trans ⟨rfl, Nat.le_refl _, fun ⟨i64, _, ieid, iir⟩ => ⟨i64, (by decide : phaseRunning ≤ 4), ieid, iir⟩⟩

theorem firmwareRunning_kept (s : State) (bad : List Nat) : Kept s (firmwareRunning s bad) := by
  have hread : Kept s (bad.foldl shedUe s) := .foldl (fun _ _ => .keeps (shedUe_keeps ..)) ..
  exact .ite _ (.ite _ (.after (haltFirmware_kept _) hread) (.after (initFirmware_kept ..) hread)) (.refl s)

theorem asyncTimeout_kept (s : State) (n ticket : Nat) : Kept s (asyncTimeout s n ticket) := by
  have hend (s : State) (x : Nat) : Kept s (endAsync s n x stTimeout 0 0) := .keeps (endAsync_keeps ..)
  have htimeout (x : Flight) : Kept s (timeout s n x) := by
    refine .ite _ (endFw_kept ..) (.ite _ (.after (.keeps (endAsync_keeps ..)) (.keeps (alignUndone_keeps s))) ?_)
    split
    · exact .keeps (stagingTimeout_keeps ..)
    · exact .keeps (failLoad_keeps ..)
    · split
      · exact .ite _ (.refl s) (hend ..)
      · exact hend ..
    · exact hend ..
  unfold asyncTimeout
  split
  · exact .ite _ (htimeout _) (.refl s)
  · exact .refl s

-- the Gatehouse's keys

theorem fleetReply_kept {s t : State} (h : Kept s t) (port status : Nat) : Kept s (fleetReply t port status) := h.trans (.front ⟨rfl, rfl, rfl⟩)

theorem fleetInstall_kept (s : State) (port : Nat) (body : List Byte) : Kept s (fleetInstall s port body) := by
  have hanswer (status : Nat) : Kept s (fleetReply s port status) := fleetReply_kept (.refl s) ..
  refine .ite _ (.refl s) (.ite _ (hanswer _) (.ite _ (hanswer _) ?_))
  split
  · exact hanswer _
  · exact .ite _ (hanswer _) (fleetReply_kept (.modGate (Nat.le_refl _) id id) ..)

theorem fleetRemove_kept (s : State) (port : Nat) (body : List Byte) : Kept s (fleetRemove s port body) := by
  have hanswer (status : Nat) : Kept s (fleetReply s port status) := fleetReply_kept (.refl s) ..
  exact .ite _ (.refl s) (.ite _ (hanswer _) (.ite _ (hanswer _) (fleetReply_kept (.modGate (Nat.le_refl _) id id) ..)))

-- replay, plans, supply and resets

theorem loseCluster_kept (s : State) (t p : Nat) : Kept s (loseCluster s t p) := by
  have habort : Kept s (match s.pvOfCluster (clusterOf t) with | some q => contextAbort s q causeRepair p | none => s) := by
    split
    · exact .keeps (contextAbort_keeps ..)
    · exact .refl s
  exact .after (.emit ..) (.after (setAlert_kept ..) (.after (.wr ..) (.after (.keeps (recordLost_keeps ..)) habort)))

theorem answerLasting_kept (s : State) (x : Site) : Kept s (answerLasting s x) := by
  refine .ite _ ?_ (.ite _ ?_ (.keeps (portDown_keeps ..)))
  · split
    · exact .ite _ (.keeps (writeEntry_keeps ..)) (.refl s)
    · exact .ite _ (loseCluster_kept ..) (.after (.drawn _) (.front (repairRow_front ..)))
  · split
    · exact .after (.keeps (contextAbort_keeps ..)) (.front ⟨rfl, rfl, rfl⟩)
    · exact .refl s

theorem replayQuiet_kept (s : State) : Kept s (replayQuiet s) := by
  refine .ite _ ?_ (.refl s)
  extract_lets s1 s2 s3
  have h1 : Kept s s1 := .after (.keeps (replayLimit_keeps _)) (.keeps (restoreFrame_keeps s))
  have h2 : Kept s s2 := .after (.foldl (fun _ _ => .keeps (answerSite_keeps ..)) ..) h1
  have h3 : Kept s s3 := .after (.foldl answerLasting_kept ..) h2
  exact .after (.keeps (releaseReplay_keeps _)) (h3.trans (.front ⟨rfl, rfl, rfl⟩))

theorem endOfMargin_kept (s : State) (out : List Nat) (rec : Nat) : Kept s (endOfMargin s out rec) :=
  .after (setAlert_kept ..) (.after (.foldl (fun _ _ => .keeps (summary_keeps ..)) ..) (.after (.keeps (setEvent_keeps ..)) (.after (.wr ..) (.raise ..))))

theorem makePlan_kept (s : State) : Kept s (makePlan s) := by
  unfold makePlan
  extract_lets ws out rec s1 s2 s3
  have h1 : Kept s s1 := .after (.keeps (clearMargins_keeps ..)) (.after (.keeps (writePlan_keeps ..)) (.front ⟨rfl, rfl, rfl⟩))
  have h3 : Kept s s3 := .after (.wr ..) (.after (.wr ..) (.after (.wr ..) h1))
  exact .ite _ h3 (.after (endOfMargin_kept ..) h3)

theorem wvPlan_kept (s : State) (f : Func) : Kept s (wvPlan s f) :=
  .serveModule fun _ => .ite _ (.keeps (answerFail_keeps ..))
    (.after (.keeps (endAsync_keeps ..)) (.after (makePlan_kept _) (.keeps (accept_keeps ..))))

theorem resetState_kept (s : State) : Kept s (resetState s) :=
  ⟨rfl, Nat.le_refl _, fun ⟨i64, _, _, iir⟩ => ⟨i64, Nat.zero_le 4, (by decide : 0 < 255), iir⟩⟩

theorem noteBoot_kept (ran : Bool) (phase : Nat) (s : State) : Kept s (noteBoot ran phase s) := by
  have hnote : Kept s (summary { s with gate := { s.gate with failedBoots := s.gate.failedBoots + 1 } } 7 phase 0) :=
    .after (.keeps (summary_keeps ..)) (.same rfl rfl rfl rfl rfl)
  exact .ite _ (.refl s) (.ite _ (.after (askPowerCycle_kept _) hnote) hnote)

theorem chipReset_kept (s : State) : Kept s (chipReset s) := .after (noteBoot_kept ..) (.after (resetState_kept _) (.keeps (shedReset_keeps s)))

theorem orderedReset_kept (s : State) (cause : Nat) : Kept s (orderedReset s cause) := by
  unfold orderedReset
  extract_lets s1
  have h1 : Kept s s1 := .after (.front (saveCounters_front _)) (.keeps (collectDump_keeps ..))
  clear_value s1
  exact .after (chipReset_kept _) (h1.trans (.front ⟨rfl, rfl, rfl⟩))

theorem chipResetCommand_kept (s : State) (f : Func) : Kept s (chipResetCommand s f) :=
  .serveModule fun _ => .after (orderedReset_kept ..) (.keeps (answer_keeps ..))

theorem trayAssert_kept (s : State) : Kept s (trayAssert s) := .after (.modMod id id) (.after (.raise ..) (chipReset_kept s))

theorem trayResetAssert_kept (s : State) (ns : Nat) : Kept s (trayResetAssert s ns) :=
  .ite _ (.refl s) (.ite _ (.ite _ (.after (trayAssert_kept _) (.drawn s)) (.drawn s)) (trayAssert_kept s))

theorem powerLost_kept (s : State) : Kept s (powerLost s) :=
  ⟨rfl, Nat.le_refl _, fun ⟨i64, _, _, _⟩ => ⟨i64, Nat.zero_le 4, (by decide : 0 < 255), Nat.zero_le 3⟩⟩

theorem shutDown_kept (s : State) (thermal : Bool) : Kept s (shutDown s thermal) := .after (.modMod id id) (powerLost_kept s)

theorem trayDeassert_kept (s : State) (split : Bool) (addr : Nat) : Kept s (trayDeassert s split addr) :=
  .ite _ (.after (.modMod id id) (.after (.wr ..) (.front ⟨rfl, rfl, rfl⟩))) (.refl s)

theorem powerApplied_kept (s : State) : Kept s (powerApplied s) := .ite _ (.refl s) (.modMod id id)

theorem setTemp_kept (s : State) (n temp : Nat) : Kept s (s.setTemp n temp) := .same rfl rfl rfl rfl rfl

theorem thermalTrip_kept (s : State) (z : Sensor) (temp : Nat) : Kept s (thermalTrip s z temp) :=
  .ite _ (.after (shutDown_kept ..) (setTemp_kept ..)) (.refl s)

theorem stackHot_kept (s : State) (stack temp : Nat) : Kept s (stackHot s stack temp) := by
  have hseen (s : State) : Kept s (if s.rd (hotField stack) = 0 then s.raise OY_STATUS_HOT_SEEN else s) := .ite _ (.raise ..) (.refl s)
  exact .ite _ (.after (setAlert_kept ..) (.after (.wr ..) (.after (hseen _) (setTemp_kept ..)))) (.refl s)

theorem stackCooled_kept (s : State) (stack temp : Nat) : Kept s (stackCooled s stack temp) := .ite _ (.after (.wr ..) (setTemp_kept ..)) (.refl s)

theorem drawKey_kept (s : State) : Kept s (drawKey s) := .same rfl rfl rfl rfl rfl

theorem hbmInit_kept (s : State) (stack : Nat) : Kept s (hbmInit s stack) :=
  .ite _ (.ite _ (.after (drawKey_kept _) (.wr ..)) (.wr ..)) (.refl s)

theorem jtagLoad_kept (s : State) {ir : Nat} (data out : Nat) (h : ir ≤ 3) : Kept s (jtagLoad s ir data out) :=
  .ite _ (.after (.emit ..) (.modMod id fun _ => h)) (.refl s)

theorem dmaLost_kept (s : State) (k : DmaKind) : Kept s (dmaLost s k) := by
  cases k with
  | firmware =>
    show Kept s (firmwareLost s)
    unfold firmwareLost
    split
    · exact .refl s
    · exact endFw_kept ..
  | shard q i => exact .front (shardLost_front ..)
  | krexel f => exact .front (imageLost_front ..)
  | plan f => exact .front (planLost_front ..)
  | request q => exact .keeps (requestLost_keeps ..)
  | completion q => exact .keeps (ringEvent_keeps ..)
  | dump f => exact .keeps (setEvent_keeps ..)

theorem forgetJust_kept (s : State) : Kept s (forgetJust s) := .same rfl rfl rfl rfl rfl

/-- A Sundial cycle (log entry 1). -/
theorem cycle_kept (s : State) : Kept s (cycle s) := by
  unfold cycle
  refine .ite _ (.refl s) ?_
  extract_lets s0 s1 idle s2
  have h0 : Kept s s0 := .front (dieWork_front s)
  have h1 : Kept s s1 := .after (forgetJust_kept _) (.ite _ (.after (.wr ..) h0) h0)
  clear_value s1
  have h2 : Kept s s2 := h1.trans (.same rfl rfl rfl rfl rfl)
  exact .after (.front (recordDue_front ..)) (.after (.keeps (rootRequests_keeps _)) h2)

-- the commands

/-- Where the outcome is a next state, that state keeps the standing facts of `s`. -/
def KeptBy (s : State) (o : Host.Outcome State Fault Refusal) : Prop := ∀ t, o = .next t → Kept s t

namespace KeptBy

theorem next {s t : State} (h : Kept s t) : KeptBy s (.next t) := by
  rintro u ⟨⟩
  exact h

theorem checked {s : State} {o : Host.Outcome State Fault Refusal} {c : Prop} [Decidable c] {r : Fault} (h : KeptBy s o) :
    KeptBy s (if c then o else .fault r) := by
  split
  · exact h
  · rintro t ⟨⟩

/-- A command that checks its numbers. -/
theorem guard {s t : State} {c : Prop} [Decidable c] {r : Fault} (h : Kept s t) : KeptBy s (if c then .next t else .fault r) := checked (next h)

/-- A command that checks its numbers in two turns. -/
theorem guards {s t : State} {c d : Prop} [Decidable c] [Decidable d] {r q : Fault} (h : Kept s t) :
    KeptBy s (if c then (if d then .next t else .fault q) else .fault r) := checked (guard h)

/-- A request over DOE: without its link nothing happens. -/
theorem doe {port : Nat} {s t : State} (h : Kept s t) : KeptBy s (doeRow port s t) := guard (.ite _ h (.refl s))

end KeptBy

/-- Every command keeps the standing facts: most leave the Gatehouse and the module hardware alone, the others are the operations above. -/
theorem exec_kept (c : Instr) (s : State) : KeptBy s (exec c s) := by
  cases c with
  | frameTick => exact .next (.front (tickStep_front ..))
  | frequencyStopEnd => exact .next (.keeps (frequencyStopEnd_keeps ..))
  | holdRequest kind source => exact .guard (.keeps (holdRequest_keeps ..))
  | freezePointReached region =>
    cases region with
    | none => exact .next (.keeps (freezeReached_keeps ..))
    | some g => exact .guard (.keeps (freezeReached_keeps ..))
  | holdRelease seq => exact .guard (.keeps (holdRelease_keeps ..))
  | holdResume => exact .next (.front (holdResume_front ..))
  | remoteHoldMessage port origin seq kind source => exact .guard (.front (remoteHold_front ..))
  | remoteReleaseMessage port origin seq stamp => exact .guard (.front (remoteRelease_front ..))
  | droopStretch g => exact .guard (.keeps (droopStretch_keeps ..))
  | syncInPulse => exact .next (.keeps (syncIn_keeps ..))
  | timeMessage port origin sample => exact .guard (.keeps (timeMessage_keeps ..))
  | frameZeroStart => exact .next (.keeps (frameZero_keeps ..))
  | descriptorIssue t chk => exact .guard (.front (issueStep_front ..))
  | descriptorRetire t n =>
    refine .guard ?_
    split
    · exact .refl s
    · exact .ite _ (.keeps (retireEntry_keeps ..)) (.refl s)
  | handlerListStart t chk => exact .guard (.keeps (startHandler_keeps ..))
  | contextStart p start handlers => exact .guard (.keeps (startTile_keeps ..))
  | tileStop p => exact .guard (.keeps (stopTile_keeps ..))
  | tcAdd a p ctr inc => exact .guards (.keeps (writeTcAdd_keeps ..))
  | mxLoad t chk => exact .guard (.keeps (mxLoadStart_keeps ..))
  | mxPass t chk wait => exact .guard (.keeps (mxPassStart_keeps ..))
  | mxZero t => exact .guard (.keeps (mxZeroStart_keeps ..))
  | mxStore t wait room => exact .guard (.keeps (mxStoreStart_keeps ..))
  | vxFp t chk wait => exact .guard (.keeps (vxStart_keeps ..))
  | vxInt t chk wait => exact .guard (.keeps (vxStart_keeps ..))
  | vxCvt t chk wait => exact .guard (.keeps (vxStart_keeps ..))
  | vxFn t chk wait => exact .guard (.keeps (vxStart_keeps ..))
  | vxRed t chk wait => exact .guard (.keeps (vxStart_keeps ..))
  | vxCmp t chk wait => exact .guard (.keeps (vxStart_keeps ..))
  | vxMask t => exact .guard (.keeps (vxStart_keeps ..))
  | linkOrdinary t handler => exact .guard (.front (linkStep_front ..))
  | linkFrameEnd t => exact .guard (.front (linkStep_front ..))
  | linkHandlerReturn t => exact .guard (.front (linkStep_front ..))
  | spFill t wait => exact .guard (.keeps (spStart_keeps ..))
  | spCopy t chk wait => exact .guard (.keeps (spStart_keeps ..))
  | spColgather t chk wait => exact .guard (.keeps (spStart_keeps ..))
  | spColscatter t chk wait => exact .guard (.keeps (spStart_keeps ..))
  | netPut t chk wait => exact .guard (.keeps (putStart_keeps ..))
  | netPutMsg t chk wait => exact .guard (.keeps (putStart_keeps ..))
  | netGet t => exact .guard (.keeps (getStart_keeps ..))
  | oyRead t chk => exact .guard (.keeps (oyReadStep_keeps ..))
  | oyWrite t chk => exact .guard (.keeps (oyWriteStep_keeps ..))
  | oyTerrace t chk => exact .guard (.keeps (oyReadStep_keeps ..))
  | ctBarrierWait t => exact .guard (.keeps (barrierStep_keeps ..))
  | ctBarrierArriveOnly t => exact .guard (.keeps (barrierStep_keeps ..))
  | ctSignalJoin t => exact .guard (.keeps (joinStep_keeps ..))
  | ctSignalRemoteAdd t => exact .guard (.keeps (addStep_keeps ..))
  | ctSignalCreditReturn t => exact .guard (.front (creditStep_front ..))
  | ctHash t chk => exact .guard (.keeps (hashStep_keeps ..))
  | ctSampleTarget t chk => exact .guard (.keeps (sampleStep_keeps ..))
  | ctSampleDraft t chk => exact .guard (.keeps (sampleStep_keeps ..))
  | ctSampleCommit t => exact .guard (.keeps (sampleStep_keeps ..))
  | transferLanding n wait => exact .next (.keeps (landing_keeps ..))
  | messageLanding n wait => exact .next (.keeps (landing_keeps ..))
  | getRequestArrival n => exact .next (.keeps (landing_keeps ..))
  | getWindowReply n chk => exact .next (.keeps (windowReply_keeps ..))
  | creditArrival n => exact .next (.keeps (creditArrival_keeps ..))
  | revocationArrival n => exact .next (.keeps (revocationArrival_keeps ..))
  | barrierRootArrival n => exact .next (.keeps (barrierArrival_keeps ..))
  | barrierReleaseArrival n => exact .next (.keeps (barrierRelease_keeps ..))
  | scratchpadClear p => exact .guard (.ite _ (.keeps (clearSp_keeps ..)) (.refl s))
  | terraceClear p => exact .guard (.ite _ (.keeps (clearTr_keeps ..)) (.refl s))
  | scratchpadScrub p chk => exact .guard (.keeps (scrubSp_keeps ..))
  | terraceScrub p chk => exact .guard (.keeps (scrubTr_keeps ..))
  | linkBlockReceive port sent raw => exact .guard (.keeps (blockReceive_keeps ..))
  | scheduledFlitAtPort n => exact .next (.keeps (scheduledAtPort_keeps ..))
  | scheduledSlotTransmit port slot => exact .guards (.keeps (slotBegin_keeps ..))
  | lateFlitCheck port => exact .guard (.keeps (lateCheck_keeps ..))
  | scheduledFlitPresent port => exact .guard (.keeps (present_keeps ..))
  | bulkTransferRoute port n => exact .guard (.keeps (routeBulk_keeps ..))
  | portRetrain port full => exact .guard (.keeps (trainPort_keeps ..))
  | trainingComplete port ok peerSerial peerPort peerModule lanes => exact .guard (.keeps (trained_keeps ..))
  | lossOfSignal port => exact .guard (.keeps (portDown_keeps ..))
  | signalReturn port => exact .guard (.keeps (signalReturn_keeps ..))
  | lodgeRun k run => exact .guard (.keeps (setRun_keeps ..))
  | lodgeInstruction k chk => exact .guard (.front (lodgeInstruction_front ..))
  | bsmaskDone a k slot positions => exact .guard (.ite _ (.keeps (maskDone_keeps ..)) (.refl s))
  | watchArm a k n v => exact .guard (.ite _ (.keeps (lodgeWrite_keeps ..)) (.refl s))
  | watchFire k n =>
    refine .guard ?_
    split
    · exact .front ⟨rfl, rfl, rfl⟩
    · exact .refl s
  | bseventRead k => exact .guard (.front ⟨rfl, rfl, rfl⟩)
  | stackHot stack temp => exact .guard (stackHot_kept ..)
  | icehouseLookup pv tag =>
    refine .guard ?_
    split
    · exact .after (.keeps (lookupAsk_keeps ..)) (.keeps (marked_keeps ..))
    · exact .refl s
  | shiftInComplete pv chk => exact .guard (.front (shiftInComplete_front ..))
  | submitRecord pv rec prompt =>
    refine .guard ?_
    split
    · exact .ite _ (.refl s) (.after (.keeps (advance_keeps ..)) (.keeps (submit_keeps ..)))
    · exact .refl s
  | cancelRecord pv rec =>
    refine .guard ?_
    split
    · exact .ite _ (.after (.keeps (advance_keeps ..)) (.keeps (cancel_keeps ..))) (.refl s)
    · exact .refl s
  | mbReqDb f pv v => exact .guard (.keeps (reqDoorbell_keeps ..))
  | mbCplDb f pv v => exact .guard (.keeps (cplDoorbell_keeps ..))
  | completionFlush pv => exact .guard (.front (flushStore_front ..))
  | bandstandScan => exact .next (.front (scanList_front ..))
  | draftDerivation slot => exact .guard (.ite _ (.keeps (deriveDrafts_keeps ..)) (.refl s))
  | targetCommit slot =>
    have hscan (draft : Bool) (s : State) : Kept s (scanRest s slot draft) := .front (scanRest_front ..)
    exact .guard (.ite _ (.after (.keeps (targetCommit_keeps ..)) (.after (hscan false _)
      (.ite _ (.after (.keeps (deriveDrafts_keeps ..)) (hscan true s)) (hscan true s)))) (.refl s))
  | draftSlotCommit slot => exact .guard (.ite _ (.after (.keeps (draftCommit_keeps ..)) (.front (scanRest_front ..))) (.refl s))
  | tokenRecordLanding n => exact .next (.keeps (landRecord_keeps ..))
  | draftRecordLanding n => exact .next (.keeps (landRecord_keeps ..))
  | wardenMessage m => exact .guard (.keeps (wardenMessage_keeps ..))
  | mbUndefinedOpcode f => exact .guard (.keeps (undefinedOpcode_keeps ..))
  | mbDoorbellIgnored f => exact .guard (.ite _ (.keeps (doorbellLost_keeps ..)) (.refl s))
  | mbAsyncRead f => exact .guard (.keeps (asyncRead_keeps ..))
  | asyncCommandTimeout f ticket => exact .guard (asyncTimeout_kept ..)
  | getInfo f => exact .guard (.front (getInfo_front ..))
  | fwLoad f => exact .guard (fwLoad_kept ..)
  | fwLoadVerify image => exact .next (fwLoadVerify_kept ..)
  | firmwareRunning bad => exact .guard (firmwareRunning_kept ..)
  | machineConfig f plan => exact .guard (.front (machineConfig_front ..))
  | align f => exact .guard (.front (alignCommand_front ..))
  | freqBin f => exact .guard (.front (freqBin_front ..))
  | ageing f => exact .guard (.front (ageingCommand_front ..))
  | readDumpCrash f => exact .guard (.front (readDump_front ..))
  | readDumpSummary f => exact .guard (.front (readDump_front ..))
  | shedRead f ue => exact .guard (.front (shedReadCommand_front ..))
  | shedWrite f => exact .guard (.front (shedWriteCommand_front ..))
  | shedWriteComplete => exact .next (.keeps (shedWriteComplete_keeps ..))
  | wvPlan f => exact .guard (wvPlan_kept ..)
  | planDue => exact .next (.ite _ (makePlan_kept s) (.refl s))
  | railStep => exact .next (.keeps (railStep_keeps ..))
  | lifetimeCounterWrite c => exact .guard (.ite _ (.keeps (lifeWrite_keeps ..)) (.refl s))
  | chipReset f => exact .guard (chipResetCommand_kept ..)
  | pvCreate f => exact .guard (.front (pvCreate_front ..))
  | pvDestroy f => exact .guard (.front (pvDestroy_front ..))
  | pvResetAbort f => exact .guard (.front (pvReset_front ..))
  | pvResetCluster f => exact .guard (.front (pvReset_front ..))
  | pvResetPavilion f => exact .guard (.front (pvReset_front ..))
  | pvStatus f => exact .guard (.front (pvStatus_front ..))
  | ringSetup f => exact .guard (.front (ringSetup_front ..))
  | hamperStage f manifest => exact .guard (.front (hamperStage_front ..))
  | shardTablePoll pv table => exact .guard (.keeps (tablePoll_keeps ..))
  | shardVerify pv entry cipher => exact .guard (.front (shardStep_front ..))
  | stagingTimeout pv => exact .guard (.keeps (stagingTimeout_keeps ..))
  | sliceDrop f => exact .guard (.front (sliceDrop_front ..))
  | loadModel f image => exact .guard (.front (loadModel_front ..))
  | run f => exact .guard (.front (runCommand_front ..))
  | pause f => exact .guard (.front (pauseCommand_front ..))
  | resume f => exact .guard (.front (resumeCommand_front ..))
  | drain f => exact .guard (.front (drainCommand_front ..))
  | tenantSet f => exact .guard (.front (tenantSet_front ..))
  | tenantBudgetSet f => exact .guard (.front (tenantBudget_front ..))
  | tenantBudgetAdd f => exact .guard (.front (tenantBudget_front ..))
  | groupSet f => exact .guard (.front (groupSet_front ..))
  | groupRemove f => exact .guard (.front (groupRemove_front ..))
  | poolCreate f => exact .guard (.front (poolCreate_front ..))
  | poolDestroy f => exact .guard (.front (poolDestroy_front ..))
  | balanceOn f => exact .guard (.front (balanceCommand_front ..))
  | balanceOff f => exact .guard (.front (balanceCommand_front ..))
  | fleetKeyInstall port body => exact .doe (fleetInstall_kept ..)
  | fleetKeyRemove port body => exact .doe (fleetRemove_kept ..)
  | doeDiscovery port index => exact .doe (.emit ..)
  | spdmGetCertificate port slot offset len => exact .doe (.keeps (getCertificate_keeps ..))
  | spdmChallenge port slot nonce => exact .doe (.keeps (challenge_keeps ..))
  | spdmGetMeasurements port op nonce => exact .doe (.keeps (getMeasurements_keeps ..))
  | replayQuiet => exact .next (replayQuiet_kept s)
  | moveEast p => exact .guard (.keeps (moveEast_keeps ..))
  | replayTick => exact .next (.keeps (replayTick_keeps ..))
  | rangerFire => exact .next (.keeps (rangerFire_keeps ..))
  | tileFaultReport p => exact .guard (.keeps (tileReport_keeps ..))
  | orphanNotice module pv => exact .guard (.front (orphanNotice_front ..))
  | abortEscalation pv p => exact .guard (.front (abortEscalation_front ..))
  | pavilionResetTimeout pv => exact .guard (.ite _ (orderedReset_kept ..) (.refl s))
  | firmwareInternalError => exact .next (.ite _ (haltFirmware_kept s) (.refl s))
  | functionLevelReset f => exact .guard (.front (flr_front ..))
  | pcieHotReset port => exact .guard (.front (flr_front ..))
  | pcieLinkLoss port => exact .guard (.after (.front (flr_front ..)) (.modMod id id))
  | d3hotToD0 f => exact .guard (.front (flr_front ..))
  | dmaFailure k => exact .guard (dmaLost_kept ..)
  | dmaTimeout k => exact .guard (dmaLost_kept ..)
  | registerWrite a off v => exact .guard (.keeps (regWrite_keeps ..))
  | powerInputApplied => exact .next (powerApplied_kept s)
  | trayResetDeassert split addr => exact .guard (trayDeassert_kept ..)
  | trayResetAssert ns => exact .next (trayResetAssert_kept ..)
  | hbmInitComplete stack => exact .guard (hbmInit_kept ..)
  | thermalTrip z temp => exact .guard (thermalTrip_kept ..)
  | underVoltageShutdown => exact .next (.ite _ (shutDown_kept ..) (.refl s))
  | shutdownLatchRelease => exact .next (.ite _ (.modMod id id) (.refl s))
  | mctpSetEndpointId eid =>
    refine .guard ?_
    split
    · next h => exact .modMod (fun _ => h.2.2) id
    · exact .refl s
  | getIdentity => exact .next (.keeps (respond_keeps ..))
  | getStatus => exact .next (.keeps (respond_keeps ..))
  | getTemps => exact .next (.keeps (respond_keeps ..))
  | getAlert => exact .next (.ite _ (.after (.modMod id id) (.keeps (respond_keeps ..))) (.refl s))
  | getSummary index => exact .guard (.keeps (respond_keeps ..))
  | mctpUndefinedCommand cmd => exact .guard (.ite _ (.refl s) (.keeps (respond_keeps ..)))
  | jtagBypass => exact .next (jtagLoad_kept s _ _ (by decide))
  | jtagSamplePreload data => exact .next (.ite _ (.after (.drawn _) (jtagLoad_kept s _ _ (by decide))) (.refl s))
  | jtagExtest => exact .next (jtagLoad_kept s _ _ (by decide))
  | jtagIdcode => exact .next (jtagLoad_kept s _ _ (by decide))
  | jtagTestLogicReset => exact .next (.ite _ (.modMod id fun _ => Nat.zero_le 3) (.refl s))
  | linkBlockTransmit port => exact .guard (.keeps (blockTransmit_keeps ..))
  | stackCooled stack temp => exact .guard (stackCooled_kept ..)
  | thermWarn g temp => exact .guard (.ite _ (.after (setAlert_kept ..) (setTemp_kept ..)) (.refl s))
  | resetUnitEnd pv ok => exact .guard (.keeps (resetUnitEnd_keeps ..))
  | channelClose p n => exact .guards (.keeps (closeRecv_keeps ..))
  | pcieLinkUp port => exact .guard (.ite _ (.modMod id id) (.refl s))
  | spdmGetCapabilities port => exact .doe (.emit ..)
  | spdmNegotiateAlgorithms port => exact .doe (.emit ..)
/-- Settles O3: a command or a Sundial cycle keeps the standing facts of every part of the state that they speak of, and lowers no fuse. -/
theorem hardwareInvariantKept : Obligations.HardwareInvariantKept := by
  intro s t hinv hstep
  rw [step] at hstep
  split at hstep
  · cases hstep
    exact ⟨(cycle_kept s).inv hinv, (cycle_kept s).fuses⟩
  · next c rest _ =>
    have hpopped : HwInv { s with pending := rest } := ⟨hinv.fuses, hinv.phase, hinv.eid, hinv.ir⟩
    have hkept := exec_kept c _ t hstep
    exact ⟨hkept.inv hpopped, hkept.fuses⟩

/-- Settles O4. -/
theorem hardwareInvariantAtReset : Obligations.HardwareInvariantAtReset := ⟨Nat.zero_le _, Nat.zero_le _, by decide, Nat.zero_le _⟩

/-- Settles O1: the step is its own two cases. -/
theorem stepRunsFrontCommand : Obligations.StepRunsFrontCommand := by
  refine ⟨fun _ _ _ => rfl, fun s h => ?_⟩
  rw [step, h]

/-- A link block on a port that exists is taken whatever its length. -/
theorem linkBlockReceive_runs (s : State) {port : Nat} (sent raw : List Byte) (h : port < 16) :
    exec (.linkBlockReceive port sent raw) s = .next (blockReceive s port sent raw) := if_pos h

/-- Refutes O2: an empty link block on port 0 is not well formed, and it runs: LINK_BLOCK_RECEIVE checks its port but not the lengths of its bytes. -/
theorem not_wellFormedCommandsRun : ¬ Obligations.WellFormedCommandsRun := by
  intro h
  obtain ⟨what, hstop⟩ := (h (.linkBlockReceive 0 [] []) State.reset).2 rfl
  rw [linkBlockReceive_runs _ _ _ (by decide)] at hstop
  cases hstop

end Sys2Proof.Machine
end

section
/-!
PROOF. The MCTP endpoint and the test access port (O60).
-/

namespace Sys2Proof.Machine
open Sys2Proof

/-- A response carries its command byte, a status byte and its data. -/
theorem respond_up {s : State} (h : mctpUp s = true) (cmd status : Nat) (data : List Byte) : respond s cmd status data
    = { s with out := s.out ++ [.mctp (BitVec.ofNat 8 cmd :: BitVec.ofNat 8 status :: data)] } := if_pos h

theorem respond_down {s : State} (h : mctpUp s = false) (cmd status : Nat) (data : List Byte) : respond s cmd status data = s := by
  rw [respond, h]
  rfl

theorem bytesOf_pair (v w : W64) : bytesOf [v, w] = leBytes 8 v.toNat ++ leBytes 8 w.toNat := by
  rw [bytesOf, List.flatMap_cons, List.flatMap_cons, List.flatMap_nil, List.append_nil]

/-- The four context states share 16 bits, pavilion 0 lowest. -/
theorem pvStates_eq (s : State) : pvStates s = (s.pv 0).run.st + 16 * (s.pv 1).run.st + 256 * (s.pv 2).run.st + 4096 * (s.pv 3).run.st := by
  simp only [pvStates, show List.range 4 = [0, 1, 2, 3] from rfl, List.map_cons, List.map_nil, List.foldl_cons, List.foldl_nil]
  omega

theorem jtagLoad_served {s : State} (h : s.mod.power = true) (ir data out : Nat) : jtagLoad s ir data out
    = { s with mod := { s.mod with jtagIr := ir, jtagData := data }, out := s.out ++ [.jtag ir out] } := if_pos h

theorem jtagLoad_unpowered {s : State} (h : s.mod.power = false) (ir data out : Nat) : jtagLoad s ir data out = s := by
  rw [jtagLoad, jtagServes, h]
  rfl

/-- Settles O60, command by command, with the endpoint up and down. -/
theorem mctpAndTestAccessAnswer : Obligations.MctpAndTestAccessAnswer := by
  refine ⟨fun s hup => ⟨?identity, fun _ => ?status, ⟨(List.range 13).map fun n => SMap.look s.mod.temps n 0, ?count, ?temp, ?temps⟩, ?alert, ?summary, ?undefined⟩,
    ?endpoint, ?down, fun s hpower => ⟨?idcode, ?bypass, ?extest, ?reset, ?sample⟩, ?unpowered⟩
  case identity => exact congrArg _ ((respond_up hup ..).trans (by rw [bytesOf_pair]; rfl))
  case status => exact congrArg _ ((respond_up hup ..).trans (by rw [pvStates_eq]; rfl))
  case count => rfl
  case temp =>
    intro n hn
    simp [List.getD, hn]
  case temps => exact congrArg _ ((respond_up hup ..).trans (by rw [List.flatMap_map]; rfl))
  case alert =>
    refine congrArg _ ((if_pos hup).trans ?_)
    rw [respond_up hup]
    rfl
  case summary =>
    intro k hk
    exact (if_pos hk).trans (congrArg _ (respond_up hup ..))
  case undefined =>
    intro cmd hcmd hrow
    have hnone : ¬(1 ≤ cmd ∧ cmd ≤ 5) := by omega
    exact (if_pos hcmd).trans (congrArg _ ((if_neg hnone).trans (respond_up hup ..)))
  case endpoint =>
    intro s eid heid hup
    exact (if_pos heid).trans (by simp only [hup, true_and]; rfl)
  case down =>
    intro s k hdown hk
    have hanswer (cmd status : Nat) (data : List Byte) : Host.Outcome.next (respond s cmd status data) = (.next s : Host.Outcome State Fault Refusal) :=
      congrArg _ (respond_down hdown ..)
    refine ⟨hanswer .., hanswer .., hanswer .., ?_, (if_pos hk).trans (hanswer ..), (if_pos hk).trans ?_, (if_pos hk).trans ?_⟩
    · exact congrArg _ (if_neg (by rw [hdown]; decide))
    · exact congrArg _ (if_neg (by rw [hdown]; simp))
    · rw [respond_down hdown, ite_self]
  case idcode => exact congrArg _ (jtagLoad_served hpower ..)
  case bypass => exact congrArg _ (jtagLoad_served hpower ..)
  case extest => exact congrArg _ (jtagLoad_served hpower ..)
  case reset => exact congrArg _ (if_pos hpower)
  case sample =>
    intro data
    refine congrArg _ ((if_pos hpower).trans ?_)
    rw [jtagLoad_served hpower]
    rfl
  case unpowered =>
    intro s data hpower
    have hoff : ¬s.mod.power = true := by rw [hpower]; decide
    exact ⟨congrArg _ (jtagLoad_unpowered hpower ..), congrArg _ (jtagLoad_unpowered hpower ..), congrArg _ (jtagLoad_unpowered hpower ..),
      congrArg _ (if_neg hoff), congrArg _ (if_neg hoff)⟩

end Sys2Proof.Machine
end

section
/-!
PROOF. The Gatehouse's answers over DOE: discovery, SPDM and fleet keys (O55).
-/

namespace Sys2Proof.Machine
open Sys2Proof

/-- Over a link that is up a request has its effect. -/
theorem doeRow_up {s : State} {port : Nat} (hport : port < 2) (hup : doeUp s port = true) (t : State) : doeRow port s t = .next t :=
  (if_pos hport).trans (congrArg _ (if_pos hup))

/-- Without a link nothing happens. -/
theorem doeRow_down {s : State} {port : Nat} (hport : port < 2) (hdown : doeUp s port = false) (t : State) : doeRow port s t = .next s :=
  (if_pos hport).trans (congrArg _ (if_neg (by rw [hdown]; decide)))

theorem getMeasurements_one (s : State) (port : Nat) {k : Nat} (nonce : List Byte) (hlo : 1 ≤ k) (hhi : k ≤ 9) :
    getMeasurements s port k nonce = s.emit (.spdm port 0x60 [(k, measurement s port k), (0xFE, nonce)] true) := by
  rw [getMeasurements, if_neg (by omega), if_neg (by omega), if_pos hhi]

theorem getMeasurements_none (s : State) (port : Nat) {k : Nat} (nonce : List Byte) (hlo : 10 ≤ k) (hhi : k < 0xFF) :
    getMeasurements s port k nonce = spdmError s port := by
  rw [getMeasurements, if_neg (by omega), if_neg (by omega), if_neg (by omega)]

/-- Every measurement block of R360, in order. -/
def allMeasurements (s : State) (port : Nat) : List (Nat × List Byte) := (List.range 9).map fun k => (k + 1, measurement s port (k + 1))

theorem mem_allMeasurements (s : State) (port : Nat) {k : Nat} (hlo : 1 ≤ k) (hhi : k ≤ 9) : (k, measurement s port k) ∈ allMeasurements s port :=
  List.mem_map.2 ⟨k - 1, List.mem_range.2 (by omega), by rw [Nat.sub_add_cancel hlo]⟩

section
variable {s : State} {port : Nat} {body : List Byte}

-- installing

/-- A request that is no well-formed install is answered so, unless it is a removal. -/
theorem fleetInstall_malformed (hop : body.headD 0 ≠ 2) (h : body.headD 0 ≠ 1 ∨ body.length ≠ 1188 ∨ fleetHead body = false) :
    fleetInstall s port body = fleetReply s port stBadArgument :=
  (if_neg hop).trans (if_pos (by simpa using h))

section
variable (hop : body.headD 0 = 1) (hlen : body.length = 1188) (hhead : fleetHead body = true)
include hop hlen hhead

theorem fleetInstall_foreign (hforeign : fleetForeign s port (body.getD 1 0).toNat = true) :
    fleetInstall s port body = fleetReply s port stStateConflict := by
  rw [fleetInstall, if_neg (by rw [hop]; decide), if_neg (by rw [hop, hlen, hhead]; decide), if_pos hforeign]

theorem fleetInstall_noPrimes (hfree : fleetForeign s port (body.getD 1 0).toNat = false) (hprimes : fleetPrimes body = none) :
    fleetInstall s port body = fleetReply s port stAuthFailed := by
  rw [fleetInstall, if_neg (by rw [hop]; decide), if_neg (by rw [hop, hlen, hhead]; decide), if_neg (by rw [hfree]; decide), hprimes]

/-- The slot takes the key whose primes are given, if the modulus is their product. -/
theorem fleetInstall_primes (hfree : fleetForeign s port (body.getD 1 0).toNat = false) {p q : Nat} (hprimes : fleetPrimes body = some (p, q)) :
    fleetInstall s port body = if p * q ≠ leNat ((body.drop 404).take 384) then fleetReply s port stBadArgument
      else fleetReply (s.modGate fun g => { g with fleet := SMap.put g.fleet (body.getD 1 0).toNat ⟨port, keyId (p * q), p * q, rsaPrivate p q⟩ }) port stDone := by
  rw [fleetInstall, if_neg (by rw [hop]; decide), if_neg (by rw [hop, hlen, hhead]; decide), if_neg (by rw [hfree]; decide), hprimes]
  refine ite_congr rfl (fun _ => rfl) fun heq => ?_
  rw [not_not.1 heq]

end

-- removing

theorem fleetRemove_malformed (hop : body.headD 0 = 2) (h : body.length ≠ 8 ∨ fleetHead body = false) :
    fleetRemove s port body = fleetReply s port stBadArgument :=
  (if_neg (not_not.2 hop)).trans (if_pos (by simpa using h))

theorem fleetRemove_wellFormed (hop : body.headD 0 = 2) (hlen : body.length = 8) (hhead : fleetHead body = true) : fleetRemove s port body =
    if fleetForeign s port (body.getD 1 0).toNat then fleetReply s port stStateConflict
    else fleetReply (s.modGate fun g => { g with fleet := SMap.del g.fleet (body.getD 1 0).toNat }) port stDone :=
  (if_neg (not_not.2 hop)).trans (if_neg (by simp [hlen, hhead]))

end

/-- Settles O55: each request over a link that is up, then each without a link. -/
theorem gatehouseAnswers : Obligations.GatehouseAnswers := by
  refine ⟨fun s port hport hup => ?requests, fun _ _ => rfl, ?install, ?malformed, ?remove, ?down⟩
  case requests =>
    have hrow (t : State) : doeRow port s t = .next t := doeRow_up hport hup t
    refine ⟨hrow _, hrow _, hrow _, fun slot off len => ?certificate, fun slot nonce => ?challenge, fun nonce => hrow _, fun k nonce hlo hhi => ?one,
      fun k nonce hlo hhi => ?none, fun nonce => ⟨allMeasurements s port ++ [(0xFE, nonce)], hrow _, rfl, fun k hlo hhi => ?block⟩, hrow _, hrow _⟩
    case certificate =>
      refine (hrow _).trans (congrArg _ ?_)
      unfold getCertificate
      split <;> rfl
    case challenge =>
      refine (hrow _).trans (congrArg _ ?_)
      unfold Machine.challenge
      split <;> rfl
    case one => exact (hrow _).trans (congrArg _ (getMeasurements_one s port nonce hlo hhi))
    case none => exact (hrow _).trans (congrArg _ (getMeasurements_none s port nonce hlo hhi))
    case block => exact List.mem_append_left _ (mem_allMeasurements s port hlo hhi)
  case install =>
    rintro s port slot body hport hup hop hlen hhead rfl
    have hrow : exec (.fleetKeyInstall port body) s = .next (fleetInstall s port body) := doeRow_up hport hup _
    rw [hrow]
    refine ⟨fun hforeign => congrArg _ (fleetInstall_foreign hop hlen hhead hforeign), fun hfree => congrArg _ ?_⟩
    cases hprimes : fleetPrimes body with
    | none => exact fleetInstall_noPrimes hop hlen hhead hfree hprimes
    | some pq =>
      rw [fleetInstall_primes hop hlen hhead hfree hprimes]
      dsimp only
      split <;> rfl
  case malformed =>
    intro s port body hport hup hop hbad
    exact (doeRow_up hport hup _).trans (congrArg _ (fleetInstall_malformed hop hbad))
  case remove =>
    rintro s port slot body hport hup hop rfl
    have hrow : exec (.fleetKeyRemove port body) s = .next (fleetRemove s port body) := doeRow_up hport hup _
    rw [hrow]
    refine ⟨fun hbad => congrArg _ (fleetRemove_malformed hop hbad), fun hlen hhead hforeign => ?_, fun hlen hhead hfree => ?_⟩
    · rw [fleetRemove_wellFormed hop hlen hhead, hforeign]
      rfl
    · rw [fleetRemove_wellFormed hop hlen hhead, hfree]
      exact ⟨_, rfl, SMap.look?_del_same .., fun k hk => SMap.look?_del_ne _ hk, rfl, rfl, rfl, rfl, rfl⟩
  case down =>
    intro s port k body hport hdown
    have hrow (t : State) : doeRow port s t = .next s := doeRow_down hport hdown t
    exact ⟨hrow _, hrow _, hrow _, hrow _, hrow _, hrow _⟩

end Sys2Proof.Machine
end

section
/-!
PROOF. Supply, resets, HBM readiness and temperatures (O59).
-/

namespace Sys2Proof.Machine
open Sys2Proof

-- resets

/-- What a chip reset leaves (R401, R442): the boot ROM waiting, a failed boot counted, the functions, pavilions and tiles gone; HBM, dumps, time and
fuses stay. -/
structure Rebooted (s t : State) : Prop where
  phase : t.gate.phase = 0
  fuses : t.gate.fuses = s.gate.fuses
  failedBoots : t.gate.failedBoots = if s.gate.ran then s.gate.failedBoots else s.gate.failedBoots + 1
  eid : t.mod.eid = 0
  fns : t.fns = []
  pvs : t.pvs = []
  tiles : t.tiles = []
  hbm : t.die.hbm = s.die.hbm
  dumps : t.dumps = s.dumps
  time : t.sun.time = s.sun.time

@[simp] theorem resetState_state (s : State) : (resetState s).fns = [] ∧ (resetState s).pvs = [] ∧ (resetState s).tiles = []
    ∧ (resetState s).gate = { State.reset.gate with fuses := s.gate.fuses, failedBoots := s.gate.failedBoots } ∧ (resetState s).mod.eid = 0 :=
  ⟨rfl, rfl, rfl, rfl, rfl⟩

@[simp] theorem setAlert_eid (s : State) (b : Nat) : (setAlert s b).mod.eid = s.mod.eid := rfl

@[simp] theorem noteBoot_boots (ran : Bool) (phase : Nat) (s : State) : (noteBoot ran phase s).mod.eid = s.mod.eid
    ∧ (noteBoot ran phase s).gate = { s.gate with failedBoots := if ran then s.gate.failedBoots else s.gate.failedBoots + 1 } := by
  cases ran with
  | true => exact ⟨rfl, rfl⟩
  | false =>
    rw [noteBoot, if_neg (by decide)]
    dsimp only
    split <;> simp [askPowerCycle]

theorem chipReset_rebooted (s : State) : Rebooted s (chipReset s) := by
  constructor <;> simp [chipReset, State.reset]

/-- The tray holds the module in reset. -/
theorem trayAssert_state (s : State) : (trayAssert s).mod.inReset = true ∧ (trayAssert s).mod.mctp = false
    ∧ (trayAssert s).rd OY_STATUS_SELF_REFRESH = 1 := ⟨rfl, rfl, State.rd_raise_same _ (by decide) (by decide)⟩

theorem trayAssert_rebooted (s : State) : Rebooted s (trayAssert s) := by
  obtain ⟨hphase, hfuses, hboots, heid, hfns, hpvs, htiles, hhbm, hdumps, htime⟩ := chipReset_rebooted s
  exact ⟨hphase, hfuses, hboots, heid, hfns, hpvs, htiles, hhbm, hdumps, htime⟩

theorem trayResetAssert_off {s : State} (ns : Nat) (h : s.mod.power = false ∨ s.mod.inReset = true) : trayResetAssert s ns = s :=
  if_pos (by rcases h with h | h <;> simp [h])

theorem trayResetAssert_short {s : State} {ns : Nat} (h : ns < 1000) : trayResetAssert s ns = s := if_pos (by simp [h])

section
variable {s : State} {ns : Nat} (hpower : s.mod.power = true) (hreset : s.mod.inReset = false)
include hpower hreset

theorem trayResetAssert_long (h : 10000 ≤ ns) : trayResetAssert s ns = trayAssert s := by
  rw [trayResetAssert, if_neg (by simp [hpower, hreset]; omega), if_neg (by omega)]

/-- Between 1 and 10 microseconds a pulse may reset the module or not (log entry 11). -/
theorem trayResetAssert_between (hlo : 1000 ≤ ns) (hhi : ns < 10000) :
    trayResetAssert s ns = if Config.shortPulseResets s.free then trayAssert s.drawn else s.drawn := by
  rw [trayResetAssert, if_neg (by simp [hpower, hreset]; omega), if_pos hhi]

end

/-- The deassertion samples the straps. -/
theorem trayDeassert_held {s : State} (split : Bool) (addr : Nat) (hpower : s.mod.power = true) (hreset : s.mod.inReset = true) :
    trayDeassert s split addr = (({ s with rows := repairMap s } : State).wr OY_STATUS_SELF_REFRESH 0).modMod
      (fun m => { m with inReset := false, split := split, smb := 0x60 + addr, mctp := true, bootAt := s.sun.time }) :=
  if_pos (by rw [hpower, hreset]; rfl)

theorem trayDeassert_off {s : State} (split : Bool) (addr : Nat) (h : s.mod.power = false ∨ s.mod.inReset = false) : trayDeassert s split addr = s :=
  if_neg (by rcases h with h | h <;> simp [h])

-- supply

/-- What a loss of the supply leaves, latched (R438, R441): a trip's reason, no alert, the fuses, the Shed's words but for a write in progress. -/
structure Unsupplied (s t : State) (hot : Bool) : Prop where
  power : t.mod.power = false
  latched : t.mod.latched = true
  thermal : t.mod.thermal = hot
  alert : t.mod.alert = 0
  cold : t.mod.cold = true
  fuses : t.gate.fuses = s.gate.fuses
  fns : t.fns = []
  pvs : t.pvs = []
  tiles : t.tiles = []
  reg : t.reg = []
  queue : t.shed.queue = []
  words : s.shed.queue = [] → t.shed.words = s.shed.words
  wear : t.shed.wear = s.shed.wear
  pending : t.pending = s.pending

theorem shedLost_shed (s : State) : (shedLost s).shed.queue = [] ∧ (shedLost s).shed.wear = s.shed.wear
    ∧ (s.shed.queue = [] → (shedLost s).shed.words = s.shed.words) := by
  unfold shedLost
  split
  · exact ⟨rfl, rfl, fun _ => rfl⟩
  · next hqueue =>
    refine ⟨rfl, ?_, fun hnone => absurd (hqueue.symm.trans hnone) (List.cons_ne_nil _ _)⟩
    dsimp only
    split <;> rfl

theorem shutDown_unsupplied (s : State) (hot : Bool) : Unsupplied s (shutDown s hot) hot := by
  obtain ⟨hqueue, hwear, hwords⟩ := shedLost_shed s
  exact ⟨rfl, rfl, rfl, rfl, rfl, rfl, rfl, rfl, rfl, rfl, hqueue, hwords, hwear, rfl⟩

/-- The supply is taken by an under-voltage, or by a sensor above its trip limit. -/
theorem shutdown_next {s : State} {c : Instr} {hot : Bool} (hpower : s.mod.power = true)
    (hc : c = .underVoltageShutdown ∧ hot = false ∨ ∃ z temp, c = .thermalTrip z temp ∧ sensorOk z = true ∧ tripLimit z < temp ∧ hot = true) :
    ∃ u, exec c s = .next (shutDown u hot) ∧ Unsupplied s (shutDown u hot) hot := by
  rcases hc with ⟨rfl, rfl⟩ | ⟨z, temp, rfl, hz, htemp, rfl⟩
  · exact ⟨s, congrArg _ (if_pos hpower), shutDown_unsupplied s false⟩
  · have htrip : thermalTrip s z temp = shutDown (s.setTemp (sensorPlace z) temp) true := if_pos (by simp [hpower, htemp])
    obtain ⟨h1, h2, h3, h4, h5, h6, h7, h8, h9, h10, h11, h12, h13, h14⟩ := shutDown_unsupplied (s.setTemp (sensorPlace z) temp) true
    exact ⟨s.setTemp (sensorPlace z) temp, (if_pos hz).trans (congrArg _ htrip), h1, h2, h3, h4, h5, h6, h7, h8, h9, h10, h11, h12, h13, h14⟩

-- the stacks

theorem hotField_wr (s : State) (k : Nat) (b : Bool) : (s.wr (hotField k) (ofBool b)).rd (hotField k) = ofBool b := by
  unfold hotField
  split <;> rw [State.rd_wr_same _ _ _ (by decide) (by decide)] <;> cases b <;> rfl

theorem hotField_wr_hotSeen (s : State) (k v : Nat) : (s.wr (hotField k) v).rd OY_STATUS_HOT_SEEN = s.rd OY_STATUS_HOT_SEEN := by
  unfold hotField
  split <;> exact State.rd_wr_ne _ _ (by decide) (by decide) (by decide)

theorem stackHot_over {s : State} (k : Nat) {temp : Nat} (h : 1520 < temp) : stackHot s k temp = setAlert ((if (s.setTemp (8 + k) temp).rd (hotField k) = 0
    then (s.setTemp (8 + k) temp).raise OY_STATUS_HOT_SEEN else s.setTemp (8 + k) temp).wr (hotField k) 1) alertThermWarn := if_pos h

/-- A stack that turns hot is seen hot. -/
theorem stackHot_seen {s : State} (k : Nat) {temp : Nat} (h : 1520 < temp) (hcool : s.rd (hotField k) = 0) :
    (stackHot s k temp).rd OY_STATUS_HOT_SEEN = 1 := by
  rw [stackHot_over k h, if_pos (show (s.setTemp (8 + k) temp).rd (hotField k) = 0 from hcool)]
  exact (hotField_wr_hotSeen ..).trans (State.rd_raise_same _ (by decide) (by decide))

theorem stackHot_mod {s : State} (k : Nat) {temp : Nat} (h : 1520 < temp) : (stackHot s k temp).mod = { s.mod with
    temps := SMap.put s.mod.temps (8 + k) temp, alert := s.mod.alert ||| 2 ^ alertThermWarn, alertJust := s.mod.alertJust ||| 2 ^ alertThermWarn } := by
  rw [stackHot_over k h]
  split <;> rfl

theorem readyField_wr (s : State) (k : Nat) : (s.wr (readyField k) 1).rd (readyField k) = 1 := by
  unfold readyField
  split <;> exact State.rd_wr_same _ _ _ (by decide) (by decide)

/-- Both stacks are ready and no staging key is in use yet. -/
def keyDue (s : State) (k : Nat) : Prop :=
  (s.wr (readyField k) 1).rd OY_STATUS_READY0 = 1 ∧ (s.wr (readyField k) 1).rd OY_STATUS_READY1 = 1 ∧ s.rd OY_STATUS_KEY_VALID = 0

theorem hbmInit_due {s : State} {k : Nat} (hpower : s.mod.power = true) (hreset : s.mod.inReset = false) (h : keyDue s k) :
    hbmInit s k = drawKey (s.wr (readyField k) 1) :=
  (if_pos (by rw [hpower, hreset]; rfl)).trans (if_pos h)

theorem hbmInit_notDue {s : State} {k : Nat} (hpower : s.mod.power = true) (hreset : s.mod.inReset = false) (h : ¬keyDue s k) :
    hbmInit s k = s.wr (readyField k) 1 :=
  (if_pos (by rw [hpower, hreset]; rfl)).trans (if_neg h)

/-- The staging key is drawn: 64 bytes, and the random number generator has passed its test (log entries 32, 48). -/
theorem drawKey_state (s : State) : (drawKey s).rd OY_STATUS_KEY_VALID = 1 ∧ (drawKey s).die.oyKey.length = 64 ∧ (drawKey s).gate.trngOk = true :=
  ⟨State.rd_wr_same (s.drawn.modGate _) _ _ (by decide) (by decide), by simp [drawKey], rfl⟩

theorem drawKey_ready (s : State) (k : Nat) : (drawKey s).rd (readyField k) = s.rd (readyField k) := by
  unfold readyField
  split <;> exact State.rd_wr_ne (s.drawn.modGate _) _ (by decide) (by decide) (by decide)

/-- Settles O59, one supply, reset and temperature command after the other. -/
theorem powerAndResetAct : Obligations.PowerAndResetAct := by
  refine ⟨fun s => ⟨fun hpower hlatch => ?applied, fun hoff => ?notApplied⟩, fun s split addr haddr => ⟨fun hpower hreset => ?deassert, fun hoff => ?notHeld⟩,
    fun s ns hpower hreset => ⟨fun hns => ?short, fun hns => ?long, fun hlo hhi => ?between⟩, fun s ns hoff => congrArg Host.Outcome.next (trayResetAssert_off ns hoff),
    fun s c hot hpower hc => ?shutdown, fun s z temp hz hcool => ?noTrip, fun s hpower => ?noSupply, fun s => ?release, fun s k hk hpower hreset => ?init,
    fun s k temp hk => ⟨fun hhot => ?hot, fun hcool => ?notHot, fun hcool => ?cooled, fun hhot => ?notCooled⟩, fun s g temp hg => ?warn⟩
  case applied => exact congrArg Host.Outcome.next (if_neg (by rw [hpower, hlatch]; decide))
  case notApplied => exact congrArg Host.Outcome.next (if_pos (by rcases hoff with h | h <;> simp [h]))
  case deassert =>
    refine ⟨_, (if_pos haddr).trans (congrArg Host.Outcome.next (trayDeassert_held split addr hpower hreset)), rfl, rfl, ?_, fun off hoff => ?_, rfl, rfl, rfl, rfl, rfl⟩
    · exact State.rd_wr_same { s with rows := repairMap s } OY_STATUS_SELF_REFRESH 0 (by decide) (by decide)
    · exact State.regW_wr_ne { s with rows := repairMap s } (f := OY_STATUS_SELF_REFRESH) 0 hoff
  case notHeld => exact (if_pos haddr).trans (congrArg Host.Outcome.next (trayDeassert_off split addr hoff))
  case short => exact congrArg Host.Outcome.next (trayResetAssert_short hns)
  case long =>
    obtain ⟨hin, hmctp, hrefresh⟩ := trayAssert_state s
    obtain ⟨hphase, hfuses, hboots, heid, hfns, hpvs, htiles, hhbm, hdumps, htime⟩ := trayAssert_rebooted s
    exact ⟨_, congrArg Host.Outcome.next (trayResetAssert_long hpower hreset hns), hin, hmctp, heid, hrefresh, hphase, hfuses, hboots, hfns, hpvs, htiles, hhbm, hdumps, htime⟩
  case between =>
    refine ⟨_, congrArg Host.Outcome.next (trayResetAssert_between hpower hreset hlo hhi), ?_⟩
    split
    · exact .inr ⟨(trayAssert_rebooted s.drawn).phase, (trayAssert_state s.drawn).1⟩
    · exact .inl rfl
  case shutdown =>
    obtain ⟨u, hu, h⟩ := shutdown_next hpower hc
    exact ⟨_, hu, h.power, h.latched, h.thermal, h.alert, h.cold, h.fuses, h.fns, h.pvs, h.tiles, h.reg, h.queue, h.words, h.wear, h.pending⟩
  case noTrip => exact (if_pos hz).trans (congrArg Host.Outcome.next (if_neg (by rcases hcool with h | h <;> simp [h])))
  case noSupply => exact congrArg Host.Outcome.next (if_neg (by rw [hpower]; decide))
  case release => rfl
  case init =>
    have hnext : exec (.hbmInitComplete k) s = .next (hbmInit s k) := if_pos hk
    by_cases hdue : keyDue s k
    · rw [hnext, hbmInit_due hpower hreset hdue]
      obtain ⟨hvalid, hlength, htrng⟩ := drawKey_state (s.wr (readyField k) 1)
      have hready : ∀ j, (drawKey (s.wr (readyField k) 1)).rd (readyField j) = (s.wr (readyField k) 1).rd (readyField j) := drawKey_ready _
      refine ⟨_, rfl, (hready k).trans (readyField_wr s k), fun _ _ _ => ⟨hvalid, hlength, htrng⟩, fun h => ?_, ⟨_, rfl⟩, rfl, rfl, rfl, rfl⟩
      obtain ⟨h0, h1, hkey⟩ := hdue
      rcases h with h | h | h
      · exact absurd (h.symm.trans ((hready 0).trans h0)) (by decide)
      · exact absurd (h.symm.trans ((hready 1).trans h1)) (by decide)
      · exact absurd (h.symm.trans hkey) (by decide)
    · rw [hnext, hbmInit_notDue hpower hreset hdue]
      exact ⟨_, rfl, readyField_wr s k, fun h0 h1 hkey => absurd ⟨h0, h1, hkey⟩ hdue, fun _ => ⟨rfl, rfl⟩, ⟨_, rfl⟩, rfl, rfl, rfl, rfl⟩
  case hot =>
    refine ⟨_, if_pos hk, ?_, stackHot_seen k hhot, stackHot_mod k hhot, by simp, by simp⟩
    rw [stackHot_over k hhot]
    exact hotField_wr _ k true
  case notHot => exact (if_pos hk).trans (congrArg Host.Outcome.next (if_neg (Nat.not_lt.2 hcool)))
  case cooled =>
    exact ⟨_, (if_pos hk).trans (congrArg Host.Outcome.next (if_pos hcool)), hotField_wr _ k false, hotField_wr_hotSeen .., rfl, rfl, rfl⟩
  case notCooled => exact (if_pos hk).trans (congrArg Host.Outcome.next (if_neg (Nat.not_le.2 hhot)))
  case warn => exact if_pos hg

end Sys2Proof.Machine
end

section
/-!
PROOF. FW_LOAD, its verification, the start of firmware and its halt (O52).
-/

namespace Sys2Proof.Machine
open Sys2Proof

-- FW_LOAD and the image's verification

theorem fwLoad_accepted {s : State} {f : Func} {cmd : W64} {a : SMap W64} (h : Submitted s f 0x02 cmd a) (hphase : s.gate.phase = 0)
    (hroom : flightsFull s (fnNum f) = false)
    (hf : faulty a [wholeWord, 0xFFFFFFFF] (fun w => (w == 0 && arg a 0 11 0 != 0) || (w == 1 && 1572864 < arg a 1 31 0)) = none) :
    fwLoad s f = (accept s (fnNum f) 0x02 none 2000 []).modGate (fun g =>
      { g with phase := phaseVerify, fwJob := some (fnNum f, ticketOf s (fnNum f), arg a 1 31 0) }) := by
  unfold fwLoad
  rw [serveMod_ok h anyArgs rfl _ _ _ _ hf (by rw [hphase]; decide)]
  exact if_neg (by simp [hroom])

theorem serveMod_conflict {s : State} {f : Func} {op : Nat} {cmd : W64} {a : SMap W64} (h : Submitted s f op cmd a) (pick : SMap W64 → Bool)
    (hp : pick a = true) (masks bad cond body) (hf : faulty a masks (bad a) = none) (hc : cond = false) :
    serveModule s f op pick masks bad cond body = answerFail s (fnNum f) stStateConflict 0 := by
  unfold serveModule
  rw [serve_ok h _ _ hp]
  simp [hf, hc]

theorem fwLoadVerify_idle {s : State} (image : List Byte) (h : s.gate.fwJob = none) : fwLoadVerify s image = s := by
  unfold fwLoadVerify
  rw [h]

section
variable {s : State} {n t len : Nat} (image : List Byte) (hjob : s.gate.fwJob = some (n, t, len))
include hjob

theorem fwLoadVerify_late (hlate : flightOver s n t = true) : fwLoadVerify s image = endFw s n t stTimeout := by
  unfold fwLoadVerify
  simp [hjob, hlate]

theorem fwLoadVerify_rejected (htime : flightOver s n t = false) (hbad : fwAccepted s.gate len (image.take len) = false) :
    fwLoadVerify s image = endFw s n t stAuthFailed := by
  unfold fwLoadVerify
  simp [hjob, htime, hbad]

theorem fwLoadVerify_accepted (htime : flightOver s n t = false) (hok : fwAccepted s.gate len (image.take len) = true) :
    fwLoadVerify s image = endAsync (s.modGate (fun g => { g with
      phase := phaseFwStart, fuses := fusesAfter g (image.take len), svn := bits (mWord (image.take len) 1) 47 32,
      version := bits (mWord (image.take len) 0) 15 0, fwHash := sha256 (image.take len), fwJob := none,
      sram := Mem.wrN [] 0 (image.take len), coresHeld := false })) n t stDone 0 0 := by
  unfold fwLoadVerify
  simp [hjob, htime, hok]

end

theorem flightOver_true {s : State} {n t : Nat} (h : ∃ x ∈ (s.fn n).flights, x.ticket = t ∧ x.deadline ≤ s.sun.time) : flightOver s n t = true := by
  obtain ⟨x, hx, hticket, htime⟩ := h
  exact List.any_eq_true.2 ⟨x, hx, by simp [hticket, htime]⟩

theorem flightOver_false {s : State} {n t : Nat} (h : ∀ x ∈ (s.fn n).flights, x.ticket = t → s.sun.time < x.deadline) : flightOver s n t = false :=
  List.any_eq_false.2 fun x hx => by simpa using h x hx

theorem fusesAfter_uncommitted {g : Gate} {m : List Byte} (h : bits (mWord m 1) 0 0 = 0) : fusesAfter g m = g.fuses := if_neg (by rw [h]; decide)

/-- An image of an older SVN than the fuses hold is not accepted (R356). -/
theorem fwAccepted_old {g : Gate} {len : Nat} {m : List Byte} (h : bits (mWord m 1) 47 32 < g.fuses) : fwAccepted g len m = false := by
  refine Bool.eq_false_iff.2 fun hok => ?_
  simp only [fwAccepted, Bool.and_eq_true, decide_eq_true_eq] at hok
  omega

-- firmware's first reads of the Shed

theorem shedUe_rd (s : State) (n : Nat) {f : Fld} (h : f.off ≠ SH_STATUS_OFF) : (shedUe s n).rd f = s.rd f :=
  (summary_rd _ _ _ _ _ h).trans (rd_off _ _ _ _ h)

theorem shedPut_words (s : State) (n : Nat) (v : W64) (fn : Option Nat) : (shedPut s n v fn).shed.words = s.shed.words := by
  by_cases h : shedWorn s n = true
  · unfold shedPut
    rw [if_pos h]
    rfl
  · exact (shedPut_unworn s n v fn (Bool.eq_false_iff.2 h)).2.1

theorem summary_words (s : State) (kind place column : Nat) : (summary s kind place column).shed.words = s.shed.words := by
  unfold summary
  extract_lets r
  split
  · rfl
  · exact shedPut_words ..

theorem shedUe_words (s : State) (n : Nat) : (shedUe s n).shed.words = s.shed.words := summary_words ..

/-- What firmware's start leaves of a state until it looks at the stacks: the module's hardware, the tiles and pavilions, the time and the fuses, and the
words of the stacks. -/
structure Starting (s t : State) : Prop where
  mod : t.mod = s.mod
  gate : t.gate = s.gate
  tiles : t.tiles = s.tiles
  pvs : t.pvs = s.pvs
  sun : t.sun = s.sun
  ready : ∀ f : Fld, f.off = OY_STATUS_OFF → t.rd f = s.rd f

theorem Starting.trans {s t u : State} (h : Starting s t) (k : Starting t u) : Starting s u :=
  ⟨k.mod.trans h.mod, k.gate.trans h.gate, k.tiles.trans h.tiles, k.pvs.trans h.pvs, k.sun.trans h.sun, fun f hf => (k.ready f hf).trans (h.ready f hf)⟩

theorem Starting.foldl {α : Type} {f : State → α → State} (h : ∀ s x, Starting s (f s x)) (l : List α) (s : State) : Starting s (l.foldl f s) := by
  induction l generalizing s with
  | nil => exact ⟨rfl, rfl, rfl, rfl, rfl, fun _ _ => rfl⟩
  | cons x l ih => exact (h s x).trans (ih (f s x))

theorem Starting.stackFailed {s t : State} (h : Starting s t) : stackFailed t = stackFailed s := by
  unfold Machine.stackFailed
  rw [h.ready OY_STATUS_READY0 rfl, h.ready OY_STATUS_READY1 rfl, h.mod, h.sun]

theorem Starting.wr (s : State) (f : Fld) (v : Nat) (h : f.off ≠ OY_STATUS_OFF) : Starting s (s.wr f v) :=
  ⟨rfl, rfl, rfl, rfl, rfl, fun g hg => rd_off _ _ _ _ (by rw [hg]; exact h.symm)⟩

theorem shedUe_starting (s : State) (n : Nat) : Starting s (shedUe s n) := by
  obtain ⟨-, hgate, hmod, -, -, -, htiles, hpvs, -, -, -, hsun, -⟩ := shedUe_keeps s n
  exact ⟨hmod, hgate, htiles, hpvs, hsun, fun f hf => shedUe_rd s n (by rw [hf]; decide)⟩

-- margin plans and ports

theorem applyPlan_rd (s : State) (bad : List Nat) {f : Fld} (h : f.off < 0x7000 ∨ 0x8000 ≤ f.off) : (applyPlan s bad).rd f = s.rd f := by
  have hregion (g : Nat) (hg : g < 8) : f.off ≠ WV_REGION_OFF g := by unfold WV_REGION_OFF; omega
  have hstatus : f.off ≠ WV_STATUS_OFF := by unfold WV_STATUS_OFF; omega
  unfold applyPlan
  extract_lets word shed s1 s2 head
  have hs2 : s2.rd f = s1.rd f := by
    show (([0, 1, 2, 3, 4, 5, 6, 7] : List Nat).foldl _ s1).rd f = _
    simp only [List.foldl_cons, List.foldl_nil]
    iterate 8 rw [rd_off _ _ _ _ (hregion _ (by decide))]
  exact (rd_off _ _ _ _ hstatus).trans hs2

theorem leaveUp_rd (s : State) (p : Nat) {f : Fld} (h : f.off ≠ FB_EVENT_OFF p) : (leaveUp s p).rd f = s.rd f := by
  unfold leaveUp
  split
  · exact rd_off _ _ _ _ h
  · rfl

theorem trainPort_rd (s : State) (p : Nat) (full : Bool) {f : Fld} (hevent : f.off ≠ FB_EVENT_OFF p) (hstatus : f.off ≠ FB_STATUS_OFF p) :
    (trainPort s p full).rd f = s.rd f := by
  unfold trainPort
  split
  · rfl
  · exact (rd_off _ _ _ _ hstatus).trans (leaveUp_rd s p hevent)

theorem applyPlan_starting (s : State) (bad : List Nat) : Starting s (applyPlan s bad) := by
  obtain ⟨-, hgate, hmod, -, -, -, -, htiles, hpvs, -, -, -, hsun, -⟩ := applyPlan_keeps s bad
  exact ⟨hmod, hgate, htiles, hpvs, hsun, fun f hf => applyPlan_rd s bad (.inr (by rw [hf]; decide))⟩

theorem trainPort_starting (s : State) (p : Nat) (full : Bool) : Starting s (trainPort s p full) := by
  obtain ⟨-, hgate, hmod, -, -, -, -, htiles, hpvs, -, -, -, hsun, -⟩ := trainPort_keeps s p full
  exact ⟨hmod, hgate, htiles, hpvs, hsun, fun f hf => trainPort_rd s p full (by rw [hf]; unfold OY_STATUS_OFF FB_EVENT_OFF; omega)
    (by rw [hf]; unfold OY_STATUS_OFF FB_STATUS_OFF; omega)⟩

-- the look at the stacks

theorem checkStacks_ready {s : State} (h : stackFailed s = false) : checkStacks s = s := if_neg (by simp [h])

theorem checkStacks_alert {s : State} (h : stackFailed s = true) : (checkStacks s).mod.alert = s.mod.alert ||| 2 ^ alertPowerCycle := by
  obtain ⟨-, -, hmod, -⟩ := summary_keeps s 7 phaseFwStart 0
  obtain ⟨-, -, hmod', -⟩ := summary_keeps (summary s 7 phaseFwStart 0) 8 0 0
  unfold checkStacks
  rw [if_pos h]
  exact congrArg (fun m : Mod => m.alert ||| 2 ^ alertPowerCycle) (hmod'.trans hmod)

theorem askPowerCycle_rd (s : State) {f : Fld} (h : f.off ≠ SH_STATUS_OFF) : (askPowerCycle s).rd f = s.rd f := by
  refine Eq.trans (rd_reg ?_ f) (summary_rd s 8 0 0 f h)
  rfl

theorem checkStacks_rd (s : State) {f : Fld} (h : f.off ≠ SH_STATUS_OFF) : (checkStacks s).rd f = s.rd f := by
  unfold checkStacks
  split
  · rw [askPowerCycle_rd _ h, summary_rd _ _ _ _ _ h]
  · rfl

-- firmware's start

def lostClusters (s : State) (bad : List Nat) : Nat := if bad.contains 0x29 then 0 else bits (s.shedWord 0x29) 15 0

/-- The state in which firmware looks at the stacks. -/
def planned (s : State) (bad : List Nat) : State :=
  (List.range 16).foldl (fun s p => trainPort s p (bad.contains (0x10 + p))) (applyPlan (s.wr RG_STATUS_LOST_CLUSTERS (lostClusters s bad)) bad)

/-- The state in which firmware runs. -/
def State.run (s : State) : State :=
  { s with gate := { s.gate with phase := phaseRunning, ran := true, failedBoots := 0 }, mod := { s.mod with cold := false } }

@[simp] theorem State.run_fields (s : State) : s.run.gate = { s.gate with phase := phaseRunning, ran := true, failedBoots := 0 }
    ∧ s.run.mod = { s.mod with cold := false } ∧ s.run.reg = s.reg := ⟨rfl, rfl, rfl⟩

@[simp] theorem lifeEvent_fields (s : State) (c n : Nat) : (lifeEvent s c n).gate = s.gate ∧ (lifeEvent s c n).mod = s.mod ∧ (lifeEvent s c n).reg = s.reg :=
  ⟨rfl, rfl, rfl⟩

theorem initFirmware_eq (s : State) (bad : List Nat) :
    initFirmware s bad = (lifeEvent (checkStacks (planned s bad)) (if s.mod.cold then 1 else 2) 1).run := by
  unfold initFirmware
  extract_lets lost s1 s2 s3
  have h3 : s3 = lifeEvent (checkStacks (planned s bad)) (if s.mod.cold then 1 else 2) 1 := rfl
  rw [← h3]
  clear_value s3
  rfl

theorem planned_starting (s : State) (bad : List Nat) : Starting s (planned s bad) :=
  (Starting.wr s _ _ (by decide)).trans ((applyPlan_starting _ bad).trans (.foldl (fun _ _ => trainPort_starting ..) _ _))

theorem planned_lostClusters (s : State) (bad : List Nat) : (planned s bad).rd RG_STATUS_LOST_CLUSTERS = lostClusters s bad := by
  have hport (t : State) (p : Nat) : (trainPort t p (bad.contains (0x10 + p))).rd RG_STATUS_LOST_CLUSTERS = t.rd RG_STATUS_LOST_CLUSTERS :=
    trainPort_rd t p _ (by simp [RG_STATUS_LOST_CLUSTERS, RG_STATUS_OFF, FB_EVENT_OFF]; omega) (by simp [RG_STATUS_LOST_CLUSTERS, RG_STATUS_OFF, FB_STATUS_OFF]; omega)
  unfold planned
  rw [foldl_keep (·.rd RG_STATUS_LOST_CLUSTERS) _ hport, applyPlan_rd _ _ (.inl (by decide)), State.rd_wr_same _ _ _ (by decide) (by decide)]
  refine Nat.mod_eq_of_lt ?_
  unfold lostClusters
  split
  · decide
  · exact bits_lt _ 15 0

theorem initFirmware_lostClusters (s : State) (bad : List Nat) : (initFirmware s bad).rd RG_STATUS_LOST_CLUSTERS = lostClusters s bad := by
  rw [initFirmware_eq, rd_reg (t := checkStacks (planned s bad)) (by simp only [State.run_fields, lifeEvent_fields]), checkStacks_rd _ (by decide), planned_lostClusters]

theorem initFirmware_gate (s : State) (bad : List Nat) :
    (initFirmware s bad).gate = { s.gate with phase := phaseRunning, ran := true, failedBoots := 0 } := by
  obtain ⟨-, hcheck, -⟩ := checkStacks_keeps (planned s bad)
  rw [initFirmware_eq, ← (planned_starting s bad).gate, ← hcheck]
  simp only [State.run_fields, lifeEvent_fields]

theorem initFirmware_ready {s : State} {bad : List Nat} (h : stackFailed s = false) : (initFirmware s bad).mod = { s.mod with cold := false } := by
  rw [initFirmware_eq, checkStacks_ready ((planned_starting s bad).stackFailed.trans h), ← (planned_starting s bad).mod]
  simp only [State.run_fields, lifeEvent_fields]

theorem initFirmware_failed {s : State} {bad : List Nat} (h : stackFailed s = true) :
    (initFirmware s bad).mod.alert = s.mod.alert ||| 2 ^ alertPowerCycle := by
  rw [initFirmware_eq, ← (planned_starting s bad).mod, ← checkStacks_alert ((planned_starting s bad).stackFailed.trans h)]
  simp only [State.run_fields, lifeEvent_fields]

theorem firmwareRunning_start {s : State} {bad : List Nat} (hphase : s.gate.phase = 2) (h : bad.any (· < 16) = false) :
    firmwareRunning s bad = initFirmware (bad.foldl shedUe s) bad := by
  unfold firmwareRunning
  rw [if_pos (c := s.gate.phase = phaseFwStart) hphase]
  exact if_neg (by simp [h])

theorem firmwareRunning_halt {s : State} {bad : List Nat} (hphase : s.gate.phase = 2) (h : bad.any (· < 16) = true) :
    firmwareRunning s bad = haltFirmware (bad.foldl shedUe s) := by
  unfold firmwareRunning
  rw [if_pos (c := s.gate.phase = phaseFwStart) hphase]
  exact if_pos h

theorem answering_halted {s : State} (h : 4 ≤ s.gate.phase) : answering s = false := by simpa [answering] using h

/-- Halted firmware serves nothing (R335). -/
theorem serve_halted {s : State} (h : 4 ≤ s.gate.phase) (f : Func) (op : Nat) (pick : SMap W64 → Bool) (body : W64 → SMap W64 → State) :
    serve s f op pick body = s := by
  unfold serve
  split
  · rfl
  · simp [answering_halted h]

theorem undefinedOpcode_halted {s : State} (h : 4 ≤ s.gate.phase) (f : Func) : undefinedOpcode s f = s := by
  unfold undefinedOpcode
  split
  · rfl
  · simp [answering_halted h]

/-- Settles O52, one firmware command after the other. -/
theorem firmwareStarts : Obligations.FirmwareStarts := by
  refine ⟨fun s f cmd a h hphase hroom hf => ?load, fun s f cmd a h hphase hf => ?conflict, fun s n t len image hjob hlate => ?late,
    fun s image hjob => congrArg Host.Outcome.next (fwLoadVerify_idle image hjob), fun s n t len image hjob htime => ?verified,
    fun g m => ⟨fusesAfter_ge g m, fusesAfter_uncommitted⟩, fun g len m => fwAccepted_old, fun s bad hphase hwords hbad => ?start,
    fun s bad hphase hwords hbad => ?halt, fun s hphase => ?error, fun s f hphase hf => ?halted⟩
  case load =>
    refine ⟨_, (if_pos h.function).trans (congrArg Host.Outcome.next (fwLoad_accepted h hphase hroom hf)), ?_, accept_status h.copied .., ?_⟩
    all_goals simp [State.modGate, ticketOf, phaseVerify]
  case conflict =>
    exact (if_pos h.function).trans (congrArg Host.Outcome.next (serveMod_conflict h anyArgs rfl _ _ _ _ hf (beq_false_of_ne hphase)))
  case late =>
    exact ⟨_, congrArg Host.Outcome.next (fwLoadVerify_late image hjob (flightOver_true hlate)), rfl, rfl, rfl, rfl, rfl⟩
  case verified =>
    have htime := flightOver_false htime
    by_cases hok : fwAccepted s.gate len (image.take len) = true
    · simp only [if_pos hok]
      exact ⟨_, congrArg Host.Outcome.next (fwLoadVerify_accepted image hjob htime hok), rfl, rfl, rfl, rfl, fun _ => ⟨rfl, rfl⟩, rfl, rfl, rfl, rfl⟩
    · simp only [if_neg hok]
      exact ⟨_, congrArg Host.Outcome.next (fwLoadVerify_rejected image hjob htime (Bool.eq_false_iff.2 hok)), rfl, rfl, rfl, rfl,
        fun h => absurd h hok, rfl, rfl, rfl, rfl⟩
  case start =>
    have hread : Starting s (bad.foldl shedUe s) := .foldl shedUe_starting ..
    have hword : (bad.foldl shedUe s).shed.words = s.shed.words := foldl_keep (·.shed.words) _ shedUe_words ..
    obtain ⟨-, -, -, -, htiles, hpvs, -⟩ := initFirmware_keeps (bad.foldl shedUe s) bad
    refine ⟨_, (if_pos hwords).trans (congrArg Host.Outcome.next (firmwareRunning_start hphase hbad)), ?_, ?_, ?_, ?_, fun h => ?_, fun h => ?_,
      htiles.trans hread.tiles, hpvs.trans hread.pvs, ?_⟩
    · rw [initFirmware_gate]; rfl
    · rw [initFirmware_gate]
    · rw [initFirmware_gate]
    · rw [initFirmware_gate, hread.gate]
    · rw [initFirmware_ready (hread.stackFailed.trans h), hread.mod]
    · rw [initFirmware_failed (hread.stackFailed.trans h), hread.mod]
    · rw [initFirmware_lostClusters, lostClusters, State.shedWord, hword]
      rfl
  case halt =>
    have hread : Starting s (bad.foldl shedUe s) := .foldl shedUe_starting ..
    exact ⟨_, (if_pos hwords).trans (congrArg Host.Outcome.next (firmwareRunning_halt hphase hbad)), rfl,
      congrArg (fun m : Mod => m.alert ||| 2 ^ alertHalted) hread.mod, hread.tiles, hread.pvs⟩
  case error => exact ⟨_, congrArg Host.Outcome.next (if_pos hphase), rfl, rfl, rfl, rfl, rfl, rfl⟩
  case halted =>
    exact ⟨(if_pos hf).trans (congrArg Host.Outcome.next (undefinedOpcode_halted hphase f)), (if_pos hf).trans (congrArg Host.Outcome.next (serve_halted hphase ..))⟩

end Sys2Proof.Machine
end

section
/-!
PROOF. READ_DUMP, the Shed's commands, lifetime counters, margin plans, rails and CHIP_RESET (O51).
-/

namespace Sys2Proof.Machine
open Sys2Proof

-- READ_DUMP

theorem accept_ticket {s : State} {n : Nat} {cmd : W64} {a : SMap W64} (h : (s.fn n).latched = some (cmd, a)) (op : Nat) (q : Option Nat) (ms : Nat)
    (res : List W64) : ((accept s n op q ms res).fn n).rd MB_STATUS_TICKET = ticketOf s n % 256 := by
  obtain ⟨m, hm, -, -, -, -, -, -, -, -, -, hticket, -⟩ := answer_eq h stAccepted 0 (ticketOf s n) res
  unfold accept
  extract_lets t x
  rw [State.fn_modFn_same]
  refine Eq.trans ?_ hticket
  rw [← State.fn_setFn_same s n m, ← raiseVec_rd (s.setFn n m) n 0 n, ← hm]
  rfl

theorem setEvent_out (s : State) (n b : Nat) : ∃ l, (setEvent s n b).out = s.out ++ l := raiseVec_out (s.setFn n _) n 0

theorem endAsync_out (s : State) (n ticket status detail value : Nat) : ∃ l, (endAsync s n ticket status detail value).out = s.out ++ l := by
  unfold endAsync
  extract_lets m m1
  split
  · exact ⟨[], (List.append_nil _).symm⟩
  · split
    · exact ⟨[], (List.append_nil _).symm⟩
    · exact setEvent_out (s.setFn n _) n 0

theorem readDump_eq {s : State} {f : Func} {cmd : W64} {a : SMap W64} (h : Submitted s f 0x07 cmd a)
    (hf : faulty a [1, 0xFFFFFFFFFFFFFFFF, 0xFFFFFFFF, 0xFFFFFFFF] (readDumpBad a) = none) (hroom : flightsFull s (fnNum f) = false) :
    readDump s f (arg a 0 0 0) = endAsync ((accept s (fnNum f) 0x07 none 2000 []).emit (.hostWrite (fnNum f) (arg a 1 63 0)
      ((List.range (arg a 3 31 0 / 8)).map (fun k => areaWord s (arg a 0 0 0) (arg a 2 31 0 + 8 * k))))) (fnNum f) (ticketOf s (fnNum f)) stDone 0 0 := by
  unfold readDump
  rw [serveMod_ok h _ (by simp) _ _ _ _ hf rfl]
  exact if_neg (by simp [hroom])

/-- The two commands that read a dump area differ in the area alone. -/
theorem readDump_next {s : State} {f : Func} {a : SMap W64} (hf : fnOk f = true) :
    exec (if arg a 0 0 0 = 0 then .readDumpCrash f else .readDumpSummary f) s = .next (readDump s f (arg a 0 0 0)) := by
  have hbit : arg a 0 0 0 < 2 := bits_lt _ 0 0
  obtain h | h : arg a 0 0 0 = 0 ∨ arg a 0 0 0 = 1 := by omega
  · rw [h]; exact if_pos hf
  · rw [h]; exact if_pos hf

-- SHED_READ and SHED_WRITE

theorem shedPut_ueSeen (s : State) (n : Nat) (v : W64) (fn : Option Nat) (h : s.rd SH_STATUS_UE_SEEN = 1) : (shedPut s n v fn).rd SH_STATUS_UE_SEEN = 1 := by
  by_cases hworn : shedWorn s n = true
  · unfold shedPut
    rw [if_pos hworn, State.rd_raise, State.rd_wr_ne _ _ (by decide) (by decide) (by decide), h]
  · rw [rd_reg (shedPut_unworn s n v fn (Bool.eq_false_iff.2 hworn)).2.2, h]

theorem shedUe_ueSeen (s : State) (n : Nat) : (shedUe s n).rd SH_STATUS_UE_SEEN = 1 := by
  have hraise : (s.raise SH_STATUS_UE_SEEN).rd SH_STATUS_UE_SEEN = 1 := State.rd_raise_same s (by decide) (by decide)
  unfold shedUe summary
  extract_lets r
  split
  · rw [State.rd_raise, State.rd_wr_ne _ _ (by decide) (by decide) (by decide), hraise]
  · exact shedPut_ueSeen _ _ _ _ hraise

theorem shedReadCommand_eq {s : State} {f : Func} {cmd : W64} {a : SMap W64} (h : Submitted s f 0x08 cmd a) (hf : faulty a [0xFF] (fun _ => false) = none)
    (ue : Bool) : shedReadCommand s f ue = answer (if ue then shedUe s (0x200 + arg a 0 7 0) else s) (fnNum f) stDone 0 0
      [if ue then 0 else s.shedWord (0x200 + arg a 0 7 0), w64 (s.shedWear (0x200 + arg a 0 7 0))] :=
  serveMod_ok h anyArgs rfl _ _ _ _ hf rfl

theorem shedPut_worn {s : State} {n : Nat} (v : W64) (fn : Option Nat) (h : shedWorn s n = true) : shedPut s n v fn = s.raise SH_STATUS_REFUSED_SEEN := if_pos h

theorem shedBits_spare {n : Nat} (h : n < 0x100) : shedBits (0x200 + n) = BitVec.allOnes 64 := by
  unfold shedBits
  simp (disch := omega) [if_neg, if_pos]

section
variable {s : State} {f : Func} {cmd : W64} {a : SMap W64} (h : Submitted s f 0x09 cmd a)
  (hf : faulty a [0xFF, 0xFFFFFFFFFFFFFFFF] (fun _ => false) = none) (hfree : s.shed.queue.any (fun w => w.fn == some (fnNum f)) = false)
include h hf hfree

theorem shedWriteCommand_unworn (hworn : shedWorn s (0x200 + arg a 0 7 0) = false) :
    shedWriteCommand s f = shedPut s (0x200 + arg a 0 7 0) (SMap.look a 1 0) (some (fnNum f)) := by
  unfold shedWriteCommand
  rw [serveMod_ok h anyArgs rfl _ _ _ _ hf rfl]
  simp [hfree, hworn]

theorem shedWriteCommand_worn (hworn : shedWorn s (0x200 + arg a 0 7 0) = true) :
    shedWriteCommand s f = answer (s.raise SH_STATUS_REFUSED_SEEN) (fnNum f) stWearLimit 0 0 [] := by
  unfold shedWriteCommand
  rw [serveMod_ok h anyArgs rfl _ _ _ _ hf rfl]
  simp [hfree, hworn, shedPut_worn, answerFail]

end

/-- A write to an idle Shed begins at once, and a begun write wears its word (R406). -/
theorem shedPut_wear {s : State} {n : Nat} (v : W64) (fn : Option Nat) (hworn : shedWorn s n = false) (hidle : s.shed.queue = []) :
    (shedPut s n v fn).shedWear n = s.shedWear n + 1 := by
  unfold shedPut
  simp [hworn, hidle, shedBegin, State.shedWear]

theorem shedBegin_shed (s : State) : (shedBegin s).shed.queue = s.shed.queue ∧ (shedBegin s).shed.words = s.shed.words := by
  unfold shedBegin
  split <;> exact ⟨rfl, rfl⟩

theorem shedDone_shed {s : State} {w : ShedWrite} {ws : List ShedWrite} (h : s.shed.queue = w :: ws) :
    (shedDone s).shed.queue = ws ∧ (shedDone s).shed.words = SMap.put s.shed.words w.word w.value := by
  unfold shedDone
  rw [h]
  exact shedBegin_shed _

theorem shedWriteComplete_idle {s : State} (h : s.shed.queue = []) : shedWriteComplete s = s := by
  unfold shedWriteComplete
  rw [h]

theorem shedWriteComplete_waited {s : State} {w : ShedWrite} {ws : List ShedWrite} {n : Nat} (h : s.shed.queue = w :: ws) (hn : w.fn = some n) :
    shedWriteComplete s = answer (shedDone s) n stDone 0 0 [] := by
  unfold shedWriteComplete
  simp only [h, hn]
  rfl

theorem shedWriteComplete_unwaited {s : State} {w : ShedWrite} {ws : List ShedWrite} (h : s.shed.queue = w :: ws) (hn : w.fn = none) :
    shedWriteComplete s = shedDone s := by
  unfold shedWriteComplete
  simp only [h, hn]

-- lifetime counters

theorem lifeNext_mem {s : State} {c n : Nat} (h : lifeNext s c = some n) : n ∈ lifeWords c ∧ shedWorn s n = false := by
  unfold lifeNext at h
  extract_lets cur at h
  obtain ⟨k, -, hk⟩ := List.mem_map.1 (List.mem_of_find?_eq_some h)
  have hworn : shedWorn s n = false := by simpa using List.find?_some h
  refine ⟨List.mem_map.2 ⟨(cur + 1 + k) % 8, List.mem_range.2 (Nat.mod_lt _ (by decide)), hk⟩, hworn⟩

theorem shedBits_life {c n : Nat} (hc : c < 8) (h : n ∈ lifeWords c) : shedBits n = 0xFFFFFFFFFFFF := by
  obtain ⟨k, hk, rfl⟩ := List.mem_map.1 h
  have hk := List.mem_range.1 hk
  unfold shedBits
  simp (disch := omega) [if_neg, if_pos]

theorem lifeWord_bits (v : Nat) : setBits (0 : W64) 47 0 v &&& 0xFFFFFFFFFFFF = setBits 0 47 0 v := by
  have hmask : maskBits 47 0 = (0xFFFFFFFFFFFF : W64) := by decide
  unfold setBits
  rw [hmask]
  simp [BitVec.and_assoc]

theorem lifeWrite_some {s : State} {c n add : Nat} (h : lifeNext s c = some n) :
    (lifeWrite s c add).shed = { (shedPut s n (setBits 0 47 0 (lifeValue s c + add)) none).shed with
        counts := SMap.put (shedPut s n (setBits 0 47 0 (lifeValue s c + add)) none).shed.counts c 0 }
      ∧ (lifeWrite s c add).reg = (shedPut s n (setBits 0 47 0 (lifeValue s c + add)) none).reg := by
  unfold lifeWrite
  rw [h]
  exact ⟨rfl, rfl⟩

-- margin plans

theorem shedPut_plan (s : State) (n : Nat) (v : W64) (fn : Option Nat) : (shedPut s n v fn).shed.plan = s.shed.plan := by
  unfold shedPut shedBegin
  split
  · rfl
  · dsimp only
    split
    · split <;> rfl
    · rfl

theorem summary_plan (s : State) (kind place column : Nat) : (summary s kind place column).shed.plan = s.shed.plan := by
  unfold summary
  extract_lets r
  split
  · rfl
  · exact shedPut_plan ..

theorem endOfMargin_plan (s : State) (out : List Nat) (rec : Nat) : (endOfMargin s out rec).shed.plan = s.shed.plan := by
  obtain ⟨-, -, -, -, -, hshed, -⟩ := setEvent_keeps ((s.raise WV_STATUS_END_OF_MARGIN).wr WV_STATUS_REC_BIN rec) 0 6
  exact (foldl_keep (·.shed.plan) _ (fun s g => summary_plan s 9 g 0) out _).trans (congrArg Shed.plan hshed)

/-- The end of margin writes END_OF_MARGIN and REC_BIN alone, beside the Shed's own status. -/
theorem endOfMargin_rd (s : State) (out : List Nat) (rec : Nat) {f : Fld} (hshed : f.off ≠ SH_STATUS_OFF)
    (h : f.off ≠ WV_STATUS_OFF ∨ f.hi < 8 ∨ 11 < f.lo) : (endOfMargin s out rec).rd f = s.rd f := by
  have hrec (t : State) : (t.wr WV_STATUS_REC_BIN rec).rd f = t.rd f := by
    rcases h with h | h | h
    · exact rd_off _ _ _ _ h
    · exact State.rd_wr_ne _ _ (by decide) (by decide) (.inl (Nat.lt_succ_of_lt h))
    · exact State.rd_wr_ne _ _ (by decide) (by decide) (.inr h)
  have hend (t : State) : (t.raise WV_STATUS_END_OF_MARGIN).rd f = t.rd f := by
    rw [State.rd_raise]
    rcases h with h | h | h
    · exact rd_off _ _ _ _ h
    · exact State.rd_wr_ne _ _ (by decide) (by decide) (.inl h)
    · exact State.rd_wr_ne _ _ (by decide) (by decide) (.inr (Nat.lt_of_succ_lt (Nat.lt_of_succ_lt (Nat.lt_of_succ_lt h))))
  obtain ⟨-, -, -, -, -, -, -, hreg, -⟩ := setEvent_keeps ((s.raise WV_STATUS_END_OF_MARGIN).wr WV_STATUS_REC_BIN rec) 0 6
  refine (foldl_keep (·.rd f) _ (fun s g => summary_rd s 9 g 0 f hshed) out _).trans ?_
  rw [rd_reg hreg, hrec, hend]

theorem endOfMargin_fn_rd (s : State) (out : List Nat) (rec k : Nat) {f : Fld} (h : f.off < MB_EVENT_OFF) :
    ((endOfMargin s out rec).fn k).rd f = (s.fn k).rd f := by
  refine Eq.trans ?_ (setEvent_rd_before ((s.raise WV_STATUS_END_OF_MARGIN).wr WV_STATUS_REC_BIN rec) 0 6 k h)
  exact congrArg (fun m : Fn => m.rd f) (fn_of (foldl_keep (·.fns) _ (fun s g => (by simp : (summary s 9 g 0).fns = s.fns)) out _) k)

theorem writePlan_fns (s : State) (ws : List W64) : (writePlan s ws).fns = s.fns := by
  unfold writePlan
  extract_lets worn s1 old head s2
  have h1 : s1.fns = s.fns := foldl_keep State.fns _ (fun s g => by simp) ..
  have h2 : s2.fns = s1.fns := by
    unfold s2
    split
    · rfl
    · simp
  exact h2.trans h1

theorem writePlan_planWord (s : State) (ws : List W64) {g : Nat} (h : g < 8) : (writePlan s ws).planWord g = ws.getD g 0 := by
  unfold writePlan
  extract_lets worn s1 old head s2
  unfold State.planWord SMap.look
  dsimp only
  rw [SMap.look?_map_keys (fun g => ws.getD g 0), if_pos (List.mem_range.2 h)]
  rfl

theorem clearMargins_region (s : State) {g : Nat} (hg : g < 8) : (clearMargins s).rd (WV_REGION_MIN_MARGIN g) = 0x7FF := by
  have hmon (t : State) (m : Nat) : (t.wr (WV_MON_MIN m) 0x7FF).rd (WV_REGION_MIN_MARGIN g) = t.rd (WV_REGION_MIN_MARGIN g) :=
    rd_off _ _ _ _ (by unfold WV_MON_MIN WV_MON_OFF WV_REGION_MIN_MARGIN WV_REGION_OFF; dsimp only; omega)
  have hsame (t : State) : (t.wr (WV_REGION_MIN_MARGIN g) 0x7FF).rd (WV_REGION_MIN_MARGIN g) = 0x7FF :=
    (State.rd_wr_same t _ _ (by simp [WV_REGION_MIN_MARGIN]) (by simp [WV_REGION_MIN_MARGIN])).trans (by simp [WV_REGION_MIN_MARGIN])
  refine (foldl_keep (·.rd (WV_REGION_MIN_MARGIN g)) _ hmon ..).trans ?_
  refine foldl_establishes (P := fun t => t.rd (WV_REGION_MIN_MARGIN g) = 0x7FF) (List.mem_range.2 hg) hsame (fun t k ht => ?_) s
  by_cases e : k = g
  · rw [e]; exact hsame t
  · rwa [rd_off _ _ _ _ (by unfold WV_REGION_MIN_MARGIN WV_REGION_OFF; dsimp only; omega)]

theorem clearMargins_shed (s : State) : (clearMargins s).shed = s.shed ∧ (clearMargins s).fns = s.fns := by
  unfold clearMargins
  constructor
  · rw [foldl_keeps_shed _ fun t m => State.wr_shed .., foldl_keeps_shed _ fun t g => State.wr_shed ..]
  · rw [foldl_keeps_fns _ fun t m => State.wr_fns .., foldl_keeps_fns _ fun t g => State.wr_fns ..]

/-- The plan words are written and the margins start again. -/
def planWritten (s : State) : State := clearMargins (writePlan { s with free := s.free + 40 } ((List.range 8).map (newPlan s)))

theorem planWritten_planWord (s : State) {g : Nat} (h : g < 8) : (planWritten s).planWord g = newPlan s g := by
  unfold planWritten State.planWord
  rw [(clearMargins_shed _).1]
  refine (writePlan_planWord { s with free := s.free + 40 } ((List.range 8).map (newPlan s)) h).trans ?_
  simp [h]

theorem planWritten_fns (s : State) : (planWritten s).fns = s.fns := by
  unfold planWritten
  rw [(clearMargins_shed _).2, writePlan_fns]

/-- A plan that is stored, before the end of margin is looked at (R410). -/
def planStored (s : State) : State :=
  (((planWritten s).wr WV_STATUS_REGIONS_OUT (((beyond s (s.rd SD_CONFIG_BIN)).map (fun g => 2 ^ g)).foldl (· + ·) 0)).wr
    WV_STATUS_PLAN_BUSY 1).wr WV_STATUS_NEXT_PLAN (opHours s + s.rd WV_CFG_PLAN_HOURS)

theorem planStored_fields (s : State) : (planStored s).shed = (planWritten s).shed ∧ (planStored s).fns = (planWritten s).fns := by
  unfold planStored
  rw [State.wr_shed, State.wr_shed, State.wr_shed, State.wr_fns, State.wr_fns, State.wr_fns]
  exact ⟨rfl, rfl⟩

theorem makePlan_eq (s : State) : makePlan s = if (beyond s (s.rd SD_CONFIG_BIN)).isEmpty then planStored s
    else endOfMargin (planStored s) (beyond s (s.rd SD_CONFIG_BIN)) (recommended s) := rfl

theorem planStored_planWord (s : State) {g : Nat} (h : g < 8) : (planStored s).planWord g = newPlan s g := by
  rw [← planWritten_planWord s h]
  unfold State.planWord
  rw [(planStored_fields s).1]

theorem makePlan_planWord (s : State) {g : Nat} (h : g < 8) : (makePlan s).planWord g = newPlan s g := by
  rw [makePlan_eq]
  split
  · exact planStored_planWord s h
  · unfold State.planWord
    rw [endOfMargin_plan]
    exact planStored_planWord s h

theorem makePlan_rd (s : State) {f : Fld} (hshed : f.off ≠ SH_STATUS_OFF) (h : f.off ≠ WV_STATUS_OFF ∨ f.hi < 8 ∨ 11 < f.lo) :
    (makePlan s).rd f = (planStored s).rd f := by
  rw [makePlan_eq]
  split
  · rfl
  · exact endOfMargin_rd _ _ _ hshed h

theorem makePlan_nextPlan (s : State) : (makePlan s).rd WV_STATUS_NEXT_PLAN = (opHours s + s.rd WV_CFG_PLAN_HOURS) % 2 ^ 32 := by
  rw [makePlan_rd s (by decide) (by decide)]
  exact State.rd_wr_same _ _ _ (by decide) (by decide)

theorem makePlan_busy (s : State) : (makePlan s).rd WV_STATUS_PLAN_BUSY = 1 := by
  rw [makePlan_rd s (by decide) (by decide)]
  exact (State.rd_wr_ne _ _ (by decide) (by decide) (by decide)).trans (State.rd_wr_same _ _ _ (by decide) (by decide))

theorem makePlan_margin (s : State) {g : Nat} (h : g < 8) : (makePlan s).rd (WV_REGION_MIN_MARGIN g) = 0x7FF := by
  have hoff : (WV_REGION_MIN_MARGIN g).off ≠ WV_STATUS_OFF := by unfold WV_REGION_MIN_MARGIN WV_REGION_OFF WV_STATUS_OFF; dsimp only; omega
  rw [makePlan_rd s (by unfold WV_REGION_MIN_MARGIN WV_REGION_OFF SH_STATUS_OFF; dsimp only; omega) (.inl hoff)]
  unfold planStored planWritten
  rw [rd_off _ _ _ _ hoff, rd_off _ _ _ _ hoff, rd_off _ _ _ _ hoff, clearMargins_region _ h]

theorem makePlan_fn_rd (s : State) (k : Nat) {f : Fld} (h : f.off < MB_EVENT_OFF) : ((makePlan s).fn k).rd f = (s.fn k).rd f := by
  have hstored : (planStored s).fn k = s.fn k := fn_of ((planStored_fields s).2.trans (planWritten_fns s)) k
  rw [makePlan_eq]
  split
  · rw [hstored]
  · rw [endOfMargin_fn_rd _ _ _ _ h, hstored]

/-- A plan rests on the registers, the Shed's words, the plan in force and the free choices alone. -/
theorem newPlan_of {s t : State} (hreg : t.reg = s.reg) (hshed : t.shed = s.shed) (hfree : t.free = s.free) (g : Nat) : newPlan t g = newPlan s g := by
  unfold newPlan regionNeed State.planWord State.shedWord State.rd State.regW
  rw [hreg, hshed, hfree]

theorem makePlan_due {s : State} (hphase : s.gate.phase = 3) (h : s.rd WV_STATUS_NEXT_PLAN ≤ opHours s) : exec .planDue s = .next (makePlan s) :=
  congrArg Host.Outcome.next (if_pos ⟨hphase, h⟩)

theorem makePlan_early {s : State} (h : opHours s < s.rd WV_STATUS_NEXT_PLAN) : exec .planDue s = .next s :=
  congrArg Host.Outcome.next (if_neg fun hdue => absurd hdue.2 (Nat.not_le.2 h))

theorem wvPlan_eq {s : State} {f : Func} {cmd : W64} {a : SMap W64} (h : Submitted s f 0x0A cmd a) (hf : faulty a [] (fun _ => false) = none)
    (hroom : flightsFull s (fnNum f) = false) :
    ∃ v, wvPlan s f = endAsync (makePlan (accept s (fnNum f) 0x0A none 100 [])) (fnNum f) (ticketOf s (fnNum f)) stDone 0 v := by
  unfold wvPlan
  rw [serveMod_ok h anyArgs rfl _ _ _ _ hf rfl]
  exact ⟨_, if_neg (by simp [hroom])⟩

-- rails

theorem planSteps_lt (w : W64) (b : Nat) : planSteps w b < 32 := by
  unfold planSteps
  split
  · have hlt := bits_lt w (5 * b + 4) (5 * b)
    rwa [show 5 * b + 4 + 1 - 5 * b = 5 by omega] at hlt
  · decide

theorem railTarget_lt (s : State) (g : Nat) : railTarget s g < 32 := by
  unfold railTarget
  extract_lets now
  split
  · exact Nat.max_lt.2 ⟨planSteps_lt .., planSteps_lt ..⟩
  · exact planSteps_lt ..

/-- Where a rail stands after one step toward its target (R411). -/
def nextSteps (s : State) (g : Nat) : Nat :=
  if s.rd (WV_REGION_STEPS g) < railTarget s g then s.rd (WV_REGION_STEPS g) + 1
  else if railTarget s g < s.rd (WV_REGION_STEPS g) then s.rd (WV_REGION_STEPS g) - 1 else s.rd (WV_REGION_STEPS g)

theorem steps_wr (s : State) (g v : Nat) (h : v < 32) : (s.wr (WV_REGION_STEPS g) v).rd (WV_REGION_STEPS g) = v := by
  rw [State.rd_wr_same _ _ _ (by simp [WV_REGION_STEPS]) (by simp [WV_REGION_STEPS])]
  exact Nat.mod_eq_of_lt h

theorem moveRail_same (s : State) (g : Nat) : (moveRail s g).rd (WV_REGION_STEPS g) = nextSteps s g := by
  have hgoal := railTarget_lt s g
  have hnow : s.rd (WV_REGION_STEPS g) < 32 := bits_lt _ 20 16
  unfold moveRail nextSteps
  extract_lets now goal
  split
  · exact steps_wr _ _ _ (by omega)
  · split
    · exact steps_wr _ _ _ (by omega)
    · rfl

theorem moveRail_rd (s : State) (g : Nat) {f : Fld} (h : f.off ≠ WV_REGION_OFF g) : (moveRail s g).rd f = s.rd f := by
  unfold moveRail
  extract_lets now goal
  split
  · exact rd_off _ _ _ _ h
  · split
    · exact rd_off _ _ _ _ h
    · rfl

theorem moveRail_target (s : State) (g k : Nat) : railTarget (moveRail s k) g = railTarget s g := by
  obtain ⟨-, -, -, -, -, hshed, -, -, -, -, -, -, -, hsun, -⟩ := moveRail_keeps s k
  have hbin : (moveRail s k).rd SD_CONFIG_BIN = s.rd SD_CONFIG_BIN := moveRail_rd s k (by unfold SD_CONFIG_BIN SD_CONFIG_OFF WV_REGION_OFF; dsimp only; omega)
  unfold railTarget State.planWord
  rw [hshed, hsun, hbin]

/-- Each rail moves once, whatever the others do. -/
theorem moveRails_steps (s : State) {g : Nat} (hg : g < 8) : ((List.range 8).foldl moveRail s).rd (WV_REGION_STEPS g) = nextSteps s g := by
  have hother (t : State) {k : Nat} (e : k ≠ g) : (moveRail t k).rd (WV_REGION_STEPS g) = t.rd (WV_REGION_STEPS g) :=
    moveRail_rd t k (by unfold WV_REGION_STEPS WV_REGION_OFF; dsimp only; omega)
  have hnext (t : State) {k : Nat} (e : k ≠ g) : nextSteps (moveRail t k) g = nextSteps t g := by
    unfold nextSteps
    rw [hother t e, moveRail_target]
  have hlater (l : List Nat) (hl : ∀ k ∈ l, k ≠ g) (t : State) : (l.foldl moveRail t).rd (WV_REGION_STEPS g) = t.rd (WV_REGION_STEPS g) :=
    List.foldlRecOn (motive := fun u => u.rd (WV_REGION_STEPS g) = t.rd (WV_REGION_STEPS g)) l moveRail rfl fun u hu k hk => (hother u (hl k hk)).trans hu
  have hbefore (l : List Nat) (hl : ∀ k ∈ l, k ≠ g) (t : State) : nextSteps (l.foldl moveRail t) g = nextSteps t g :=
    List.foldlRecOn (motive := fun u => nextSteps u g = nextSteps t g) l moveRail rfl fun u hu k hk => (hnext u (hl k hk)).trans hu
  obtain ⟨before, after, hsplit⟩ := List.append_of_mem (List.mem_range.2 hg)
  have hnodup := List.nodup_range (n := 8)
  rw [hsplit, List.nodup_middle, List.nodup_cons] at hnodup
  have hnot (k : Nat) (hk : k ∈ before ++ after) : k ≠ g := fun e => hnodup.1 (e ▸ hk)
  rw [hsplit, List.foldl_append, List.foldl_cons, hlater after (fun k hk => hnot k (List.mem_append_right _ hk)), moveRail_same,
    hbefore before (fun k hk => hnot k (List.mem_append_left _ hk))]

theorem railStep_steps {s : State} (hphase : s.gate.phase = 3) (hdurable : planDurable s = true) {g : Nat} (hg : g < 8) :
    (railStep s).rd (WV_REGION_STEPS g) = nextSteps s g := by
  unfold railStep
  rw [if_pos ⟨hphase, hdurable⟩]
  extract_lets s1
  split
  · exact (rd_off _ _ _ _ (by unfold WV_REGION_STEPS WV_REGION_OFF WV_STATUS_PLAN_BUSY WV_STATUS_OFF; dsimp only; omega)).trans (moveRails_steps s hg)
  · exact moveRails_steps s hg

-- CHIP_RESET

theorem drainShed_keeps (n : Nat) (s : State) : (drainShed n s).dumps = s.dumps ∧ (drainShed n s).die = s.die ∧ (drainShed n s).sun = s.sun := by
  induction n generalizing s with
  | zero => exact ⟨rfl, rfl, rfl⟩
  | succ n ih =>
    obtain ⟨-, -, -, -, hdumps, -, -, -, -, -, -, -, -, hsun, hdie⟩ := shedDone_keeps s
    obtain ⟨hd, he, hs⟩ := ih (shedDone s)
    exact ⟨hd.trans hdumps, he.trans hdie, hs.trans hsun⟩

theorem saveCounters_keeps (s : State) : (saveCounters s).dumps = s.dumps ∧ (saveCounters s).die = s.die ∧ (saveCounters s).sun = s.sun := by
  unfold saveCounters
  extract_lets s1
  obtain ⟨hdumps, hdie, hsun⟩ := drainShed_keeps s1.shed.queue.length s1
  refine ⟨hdumps.trans ?_, hdie.trans ?_, hsun.trans ?_⟩
  · exact foldl_keeps_dumps _ (fun s c => by simp) _ _
  · exact foldl_keeps_die _ (fun s c => by simp) _ _
  · exact foldl_keeps_sun _ (fun s c => by simp) _ _

theorem collectDump_seq (s : State) (cause action pv tile : Nat) (clusters : List Nat) :
    (collectDump s cause action pv tile clusters).dumps.seq = s.dumps.seq + dumpsAdded s := by
  unfold collectDump dumpsAdded
  split
  · rfl
  · rfl

/-- A chip reset that firmware orders dumps, waits a millisecond and boots anew (R396, R443). -/
theorem orderedReset_eq (s : State) (cause : Nat) : ∃ u, orderedReset s cause = chipReset u ∧ u.gate = s.gate ∧ u.die.hbm = s.die.hbm
    ∧ u.dumps.seq = s.dumps.seq + dumpsAdded s ∧ u.sun.time = s.sun.time + milli ∧ u.pending = s.pending := by
  obtain ⟨hpending, hgate, -, -, -, -, -, -, -, -, -, -, hsun, hdie⟩ := collectDump_keeps s cause 3 0 0x1FF (List.range 16)
  have hseq := collectDump_seq s cause 3 0 0x1FF (List.range 16)
  unfold orderedReset
  extract_lets s1
  obtain ⟨hdumps1, hdie1, hsun1⟩ := saveCounters_keeps (collectDump s cause 3 0 0x1FF (List.range 16))
  obtain ⟨hpending1, hgate1, -⟩ := saveCounters_front (collectDump s cause 3 0 0x1FF (List.range 16))
  have hkept : s1.gate = s.gate ∧ s1.die.hbm = s.die.hbm ∧ s1.dumps.seq = s.dumps.seq + dumpsAdded s ∧ s1.sun.time = s.sun.time ∧ s1.pending = s.pending :=
    ⟨hgate1.trans hgate, by rw [hdie1, hdie], by rw [hdumps1, hseq], by rw [hsun1, hsun], hpending1.trans hpending⟩
  clear_value s1
  obtain ⟨hg, hh, hq, ht, hp⟩ := hkept
  exact ⟨_, rfl, hg, hh, hq, congrArg (· + milli) ht, hp⟩

/-- A register that a chip reset clears reads its reset value (R401). -/
theorem resetState_rd (s : State) {f : Fld} (h : ∀ g, g < 16 → OY_GROUP_ECC_OFF g ≠ f.off) : (resetState s).rd f = State.reset.rd f := by
  have hnone : SMap.look? (keptAtReset s.reg) f.off = none := SMap.look?_filter_none _ _ fun e _ he => by
    rw [he]
    exact List.any_eq_false.2 fun g hg => by simpa using h g (List.mem_range.1 hg)
  unfold State.rd State.regW SMap.look
  rw [show (resetState s).reg = keptAtReset s.reg from rfl, hnone]
  rfl

theorem chipReset_ran {s : State} (h : s.gate.ran = true) : chipReset s = resetState (shedReset s) := by
  unfold chipReset
  rw [h]
  rfl

theorem shedReset_queue (s : State) : (shedReset s).shed.queue = [] := rfl

theorem chipResetCommand_eq {s : State} {f : Func} {cmd : W64} {a : SMap W64} (h : Submitted s f 0x0B cmd a) (hf : faulty a [] (fun _ => false) = none) :
    chipResetCommand s f = orderedReset (answer s (fnNum f) stAccepted 0 0 []) causeHost :=
  serveMod_ok h anyArgs rfl _ _ _ _ hf rfl

/-- Settles O51, one command and one moment after the other. -/
theorem durableStateActs : Obligations.DurableStateActs := by
  refine ⟨fun s f cmd a h hf hroom area harea => ?dump, fun s f cmd a n h hf hn => ⟨?read, ?readUe⟩, fun s f cmd a n h hf hn hfree => ⟨fun hworn => ?write, fun hworn => ?worn⟩,
    fun s w ws h => ?done, fun s h => congrArg Host.Outcome.next (shedWriteComplete_idle h), fun s c n hc hphase hn => ?counter,
    fun s hphase => ⟨makePlan_early, fun hdue => ?plan⟩, fun s f cmd a h hf hroom => ?wvPlan, fun s hphase hdurable => ?rails, fun s f cmd a h hf hran => ?reset⟩
  case dump =>
    subst harea
    obtain ⟨-, -, -, -, hdumps, hshed, -, hreg, -, htiles, hpvs, -⟩ := accept_keeps s (fnNum f) 0x07 none 2000 []
    have hdata := readDump_eq h hf hroom
    generalize hu : (accept s (fnNum f) 0x07 none 2000 []).emit _ = u at hdata
    obtain ⟨-, -, -, -, hdumps1, hshed1, -, hreg1, -, htiles1, hpvs1, -⟩ := endAsync_keeps u (fnNum f) (ticketOf s (fnNum f)) stDone 0 0
    obtain ⟨l, hout⟩ := endAsync_out u (fnNum f) (ticketOf s (fnNum f)) stDone 0 0
    refine ⟨_, (readDump_next h.function).trans (congrArg Host.Outcome.next hdata), ?_, ?_, ?_, ?_, ?_, ?_, ?_, ?_⟩
    · rw [hout, ← hu, State.out_emit]
      simp
    · rw [endAsync_rd_before _ _ _ _ _ _ _ (by decide), ← hu, emit_fn, accept_status h.copied]
    · rw [endAsync_rd_before _ _ _ _ _ _ _ (by decide), ← hu, emit_fn, accept_ticket h.copied]
      rfl
    · rw [hdumps1, ← hu]; exact hdumps
    · rw [hshed1, ← hu]; exact hshed
    · rw [hreg1, ← hu]; exact hreg
    · rw [htiles1, ← hu]; exact htiles
    · rw [hpvs1, ← hu]; exact hpvs
  case read =>
    subst hn
    exact (if_pos h.function).trans (congrArg Host.Outcome.next (shedReadCommand_eq h hf false))
  case readUe =>
    subst hn
    obtain ⟨-, -, -, -, -, -, htiles, -, hfns, -⟩ := shedUe_keeps s (0x200 + arg a 0 7 0)
    exact ⟨_, (if_pos h.function).trans (congrArg Host.Outcome.next (shedReadCommand_eq h hf true)), shedUe_ueSeen .., shedUe_words .., htiles, hfns⟩
  case write =>
    subst hn
    obtain ⟨hqueue, hwords, hreg⟩ := shedPut_unworn s (0x200 + arg a 0 7 0) (SMap.look a 1 0) (some (fnNum f)) hworn
    obtain ⟨-, -, -, -, -, -, htiles, -, hfns, -⟩ := shedPut_keeps s (0x200 + arg a 0 7 0) (SMap.look a 1 0) (some (fnNum f))
    have hbyte : arg a 0 7 0 < 0x100 := bits_lt _ 7 0
    refine ⟨_, (if_pos h.function).trans (congrArg Host.Outcome.next (shedWriteCommand_unworn h hf hfree hworn)), hqueue.trans ?_, hwords,
      shedPut_wear _ _ hworn, hfns, hreg, htiles⟩
    rw [shedBits_spare hbyte, BitVec.and_allOnes]
  case worn =>
    subst hn
    exact ⟨_, (if_pos h.function).trans (congrArg Host.Outcome.next (shedWriteCommand_worn h hf hfree hworn)), State.rd_raise_same s (by decide) (by decide),
      rfl, rfl, rfl⟩
  case done =>
    obtain ⟨-, -, -, -, -, -, hreg, -, htiles, -, hfns, -⟩ := shedDone_keeps s
    obtain ⟨hqueue, hwords⟩ := shedDone_shed h
    refine ⟨shedDone s, ?_, ?_, fun n hn => ?_, hqueue, hfns, hreg, htiles⟩
    · cases hw : w.fn with
      | none => exact congrArg Host.Outcome.next (shedWriteComplete_unwaited h hw)
      | some n => exact congrArg Host.Outcome.next (shedWriteComplete_waited h hw)
    · rw [State.shedWord, hwords, SMap.look_put_same]
    · rw [State.shedWord, hwords, SMap.look_put_ne _ _ _ hn, State.shedWord]
  case counter =>
    obtain ⟨hword, hworn⟩ := lifeNext_mem hn
    obtain ⟨-, -, -, -, -, -, htiles, -, hfns, -⟩ := lifeWrite_keeps s c (lifeAdd s c)
    obtain ⟨hshed, hreg⟩ := lifeWrite_some (add := lifeAdd s c) hn
    obtain ⟨hqueue, hwords, hreg1⟩ := shedPut_unworn s n (setBits 0 47 0 (lifeValue s c + lifeAdd s c)) none hworn
    refine ⟨_, (if_pos hc).trans (congrArg Host.Outcome.next (if_pos hphase)), hword, ?_, ?_, ?_, hreg.trans hreg1, htiles, hfns⟩
    · rw [hshed]
      exact hqueue.trans (by rw [shedBits_life hc hword, lifeWord_bits])
    · rw [hshed]
      exact SMap.look_put_same ..
    · rw [hshed]
      exact hwords
  case plan =>
    obtain ⟨-, -, -, -, -, htiles, hpvs, -⟩ := makePlan_keeps s
    exact ⟨_, makePlan_due hphase hdue, fun g => makePlan_planWord s, makePlan_nextPlan s, makePlan_busy s, fun g => makePlan_margin s, htiles, hpvs⟩
  case wvPlan =>
    obtain ⟨-, -, -, -, -, hshed, -, hreg, -, htiles, hpvs, hfree, -⟩ := accept_keeps s (fnNum f) 0x0A none 100 []
    have hstatus := accept_status h.copied 0x0A none 100 []
    obtain ⟨v, heq⟩ := wvPlan_eq h hf hroom
    generalize accept s (fnNum f) 0x0A none 100 [] = u at *
    obtain ⟨-, -, -, -, -, htiles1, hpvs1, -⟩ := makePlan_keeps u
    obtain ⟨-, -, -, -, -, hshed2, -, -, -, htiles2, hpvs2, -⟩ := endAsync_keeps (makePlan u) (fnNum f) (ticketOf s (fnNum f)) stDone 0 v
    refine ⟨_, (if_pos h.function).trans (congrArg Host.Outcome.next heq), ?_, fun g hg => ?_, (htiles2.trans htiles1).trans htiles, (hpvs2.trans hpvs1).trans hpvs⟩
    · rw [endAsync_rd_before _ _ _ _ _ _ _ (by decide), makePlan_fn_rd _ _ (by decide), hstatus]
    · rw [State.planWord, hshed2, ← State.planWord, makePlan_planWord u hg, newPlan_of hreg hshed hfree]
  case rails =>
    obtain ⟨-, -, -, -, -, hshed, -, -, htiles, -, -, -, -, hsun, -⟩ := railStep_keeps s
    exact ⟨_, rfl, fun g hg => railStep_steps hphase hdurable hg, hshed, htiles, hsun⟩
  case reset =>
    obtain ⟨hpending, hgate, -, -, hdumps, -, -, -, -, -, -, -, hsun, hdie⟩ := answer_keeps s (fnNum f) stAccepted 0 0 []
    have heq := chipResetCommand_eq h hf
    generalize answer s (fnNum f) stAccepted 0 0 [] = v at *
    obtain ⟨u, hu, hugate, huhbm, huseq, hutime, hupending⟩ := orderedReset_eq v causeHost
    have hplain := chipReset_ran (s := u) (by rw [hugate, hgate, hran])
    have hr := chipReset_rebooted u
    have hcleared (f : Fld) (hoff : ∀ g, g < 16 → OY_GROUP_ECC_OFF g ≠ f.off) : (chipReset u).rd f = State.reset.rd f := by
      rw [hplain, resetState_rd _ hoff]
    refine ⟨_, (if_pos h.function).trans (congrArg Host.Outcome.next (heq.trans hu)), hr.phase, ?_, hr.fns, hr.pvs, hr.tiles, ?_, ?_, ?_, ?_, ?_, ?_, ?_, ?_⟩
    · rw [hr.fuses, hugate, hgate]
    · rw [hr.dumps, huseq, hdumps, dumpsAdded, dumpsAdded, hgate]
    · rw [hplain]; rfl
    · rw [hr.hbm, huhbm, hdie]
    · rw [hplain]; exact shedReset_queue u
    · rw [hr.time, hutime, hsun]
    · exact hcleared _ fun g _ => by unfold OY_GROUP_ECC_OFF SD_STATUS_RUNNING SD_STATUS_OFF; dsimp only; omega
    · exact hcleared _ fun g _ => by unfold OY_GROUP_ECC_OFF RG_STATUS_LAST_CAUSE RG_STATUS_OFF; dsimp only; omega
    · rw [hplain, ← hpending, ← hupending]
      exact (resetState_keeps _).1.trans (shedReset_keeps u).1

end Sys2Proof.Machine
end

section
/-!
PROOF. Mailbox answers, lost doorbells, the async queue and command limits (O49).
-/

namespace Sys2Proof.Machine
open Sys2Proof

-- vectors and answers

theorem raiseVec_unmasked {s : State} {n v : Nat} (h : vecMasked (s.fn n) v = false) : raiseVec s n v = s.emit (.msix n v) := by
  unfold raiseVec
  simp [h]

theorem raiseVec_masked {s : State} {n v : Nat} (h : vecMasked (s.fn n) v = true) :
    (raiseVec s n v).out = s.out ∧ v ∈ ((raiseVec s n v).fn n).pendingVec := by
  unfold raiseVec
  simp only [h, if_true]
  by_cases hmem : v ∈ (s.fn n).pendingVec
  · simp [hmem]
  · simp [hmem, State.fn_setFn_same]

theorem undefinedOpcode_unavailable {s : State} {f : Func} {cmd : W64} {a : SMap W64} (h : (s.fn (fnNum f)).latched = some (cmd, a))
    (hno : available s f (bits cmd 7 0) = false) (hlive : answering s = true) : undefinedOpcode s f = answer s (fnNum f) stBadOpcode 0 0 [] := by
  unfold undefinedOpcode
  simp [h, hno, hlive, answerFail]

-- the async queue

theorem asyncEntry_bits {opcode ticket status detail value : Nat} (hopcode : opcode < 256) (hticket : ticket < 256) (hstatus : status < 256)
    (hdetail : detail < 65536) (hvalue : value < 65536) :
    bits (asyncEntry opcode ticket status detail value) 63 63 = 1 ∧ bits (asyncEntry opcode ticket status detail value) 55 48 = opcode
      ∧ bits (asyncEntry opcode ticket status detail value) 47 40 = ticket ∧ bits (asyncEntry opcode ticket status detail value) 39 32 = status
      ∧ bits (asyncEntry opcode ticket status detail value) 31 16 = detail ∧ bits (asyncEntry opcode ticket status detail value) 15 0 = value := by
  unfold asyncEntry
  simp [bits_setBits_same, bits_setBits_ne]
  omega

theorem endAsync_queued {s : State} {n ticket : Nat} {x : Flight} (h : (s.fn n).flights.find? (fun y => y.ticket == ticket) = some x)
    (hx : x.discard = false) (status detail value : Nat) :
    endAsync s n ticket status detail value = setEvent (s.setFn n { s.fn n with
      flights := (s.fn n).flights.filter (fun y => y.ticket != ticket)
      async := (s.fn n).async ++ [asyncEntry x.opcode ticket status detail value] }) n 0 := by
  unfold endAsync
  simp only [h, hx]
  rfl

theorem setEvent_fn_async (s : State) (n b : Nat) : ((setEvent s n b).fn n).async = (s.fn n).async := by
  unfold setEvent
  extract_lets m m1
  obtain ⟨l, hl⟩ := raiseVec_fn (s.setFn n m1) n 0
  rw [hl, State.fn_setFn_same]
  rfl

theorem setEvent_fn_flights (s : State) (n b : Nat) : ((setEvent s n b).fn n).flights = (s.fn n).flights := by
  unfold setEvent
  extract_lets m m1
  obtain ⟨l, hl⟩ := raiseVec_fn (s.setFn n m1) n 0
  rw [hl, State.fn_setFn_same]
  rfl

theorem setEvent_async (s : State) (n : Nat) : ((setEvent s n 0).fn n).rd MB_EVENT_ASYNC = 1 := by
  unfold setEvent
  extract_lets m m1
  rw [raiseVec_rd, State.fn_setFn_same]
  exact (Fn.rd_wr_off _ _ (by decide)).trans (Fn.rd_wr_same m MB_EVENT_ASYNC 1 (by decide) (by decide))

theorem setEvent_fn_ne (s : State) (n b : Nat) {k : Nat} (h : k ≠ n) : (setEvent s n b).fn k = s.fn k :=
  (raiseVec_fn_ne _ n 0 k h).trans (State.fn_setFn_ne _ _ h)

-- limits

section
variable {s : State} {n : Nat} {x : Flight} (h : (s.fn n).flights.find? (fun y => y.ticket == x.ticket) = some x)
include h

theorem asyncTimeout_early (hearly : s.sun.time < x.deadline) : asyncTimeout s n x.ticket = s := by
  unfold asyncTimeout
  simp [h, Nat.not_le.2 hearly]

theorem asyncTimeout_late (hlate : x.deadline ≤ s.sun.time) : asyncTimeout s n x.ticket = timeout s n x := by
  unfold asyncTimeout
  simp [h, hlate]

end

theorem asyncTimeout_unknown {s : State} {n ticket : Nat} (h : (s.fn n).flights.find? (fun y => y.ticket == ticket) = none) : asyncTimeout s n ticket = s := by
  unfold asyncTimeout
  rw [h]

/-- A command with no limit of its own ends with TIMEOUT and leaves the rest as it is. -/
theorem timeout_plain (s : State) (n : Nat) {x : Flight} (h : x.opcode ∉ [0x02, 0x04, 0x12, 0x22, 0x24]) :
    timeout s n x = endAsync s n x.ticket stTimeout 0 0 := by
  simp only [List.mem_cons, List.not_mem_nil, or_false, not_or] at h
  obtain ⟨hload, halign, hreset, hstage, hmodel⟩ := h
  unfold timeout
  rw [if_neg hload, if_neg halign]
  split
  · contradiction
  · contradiction
  · contradiction
  · rfl

theorem timeout_align (s : State) (n : Nat) {x : Flight} (h : x.opcode = 0x04) :
    timeout s n x = endAsync (alignUndone s) n x.ticket stTimeout 0 0 := by
  unfold timeout
  rw [if_neg (by rw [h]; decide), if_pos h]

-- what a late ALIGN gives back

theorem bits_setBits_inside (w v : W64) {hi lo hi' lo' : Nat} (h : hi < 64) (hl : lo ≤ hi) (hlo : lo ≤ lo') (hhi : hi' ≤ hi) :
    bits (setBits w hi lo (bits v hi lo)) hi' lo' = bits v hi' lo' := by
  unfold bits
  refine Nat.eq_of_testBit_eq fun i => ?_
  rw [BitVec.testBit_toNat, BitVec.testBit_toNat, BitVec.getLsbD_extractLsb', BitVec.getLsbD_extractLsb', setBits_getLsbD w hi lo _ _ h hl]
  by_cases hbit : i < hi' + 1 - lo'
  · have hin : lo ≤ lo' + i ∧ lo' + i ≤ hi := by omega
    have hwidth : lo' + i - lo < hi + 1 - lo := by omega
    simp [hbit, hin, hwidth, BitVec.testBit_toNat, Nat.add_sub_cancel' hin.1]
  · simp [hbit]

/-- The word that a late ALIGN leaves at an offset whose kept word is `w`, over `old`. -/
def undoneWord (o : Nat) (w old : W64) : W64 :=
  if o = RG_CFG_OFF then setBits old RG_CFG_REACH.hi RG_CFG_REACH.lo (bits w RG_CFG_REACH.hi RG_CFG_REACH.lo) else setBits old 47 16 (bits w 47 16)

theorem linkUndone_regW_same (s : State) (o : Nat) (w : W64) : (linkUndone s (o, w)).regW o = undoneWord o w (s.regW o) := by
  unfold linkUndone undoneWord
  split
  · next h =>
    dsimp only at h
    subst h
    exact SMap.look_put_same ..
  · exact SMap.look_put_same ..

theorem linkUndone_regW_ne (s : State) {o : Nat} {x : Nat × W64} (h : o ≠ x.1) : (linkUndone s x).regW o = s.regW o := by
  unfold linkUndone
  split
  · next hx => exact SMap.look_put_ne _ _ _ (fun e => h (e.trans hx.symm))
  · exact SMap.look_put_ne _ _ _ h

theorem linksUndone_regW_ne (l : List (Nat × W64)) {o : Nat} (h : o ∉ l.map (·.1)) (s : State) : (l.foldl linkUndone s).regW o = s.regW o :=
  List.foldlRecOn (motive := fun t => t.regW o = s.regW o) l linkUndone rfl fun t ht x hx =>
    (linkUndone_regW_ne t fun e => h (List.mem_map.2 ⟨x, hx, e.symm⟩)).trans ht

theorem linksUndone_regW {l : SMap W64} (hnodup : (l.map (·.1)).Nodup) {o : Nat} {w : W64} (h : SMap.look? l o = some w) (s : State) :
    (l.foldl linkUndone s).regW o = undoneWord o w (s.regW o) := by
  induction l generalizing s with
  | nil => exact absurd h (by simp [SMap.look?])
  | cons x l ih =>
    obtain ⟨j, v⟩ := x
    rw [List.map_cons, List.nodup_cons] at hnodup
    unfold SMap.look? at h
    rw [List.foldl_cons]
    split at h
    · next hj =>
      subst hj
      obtain rfl := Option.some.inj h
      rw [linksUndone_regW_ne l hnodup.1, linkUndone_regW_same]
    · next hj => rw [ih hnodup.2 h, linkUndone_regW_ne s (Ne.symm hj)]

theorem alignUndone_regW_ne (s : State) {o : Nat} (h : o ∉ s.sun.undo.map (·.1)) : (alignUndone s).regW o = s.regW o := linksUndone_regW_ne _ h _

theorem alignUndone_regW {s : State} (hnodup : (s.sun.undo.map (·.1)).Nodup) {o : Nat} {w : W64} (h : SMap.look? s.sun.undo o = some w) :
    (alignUndone s).regW o = undoneWord o w (s.regW o) := linksUndone_regW hnodup h _

theorem alignUndone_link {s : State} (hnodup : (s.sun.undo.map (·.1)).Nodup) {p : Nat} {w : W64} (h : SMap.look? s.sun.undo (FB_LINK_OFF p) = some w) :
    (alignUndone s).rd (FB_LINK_DELAY p) = bits w 47 32 ∧ (alignUndone s).rd (FB_LINK_HP_DELAY p) = bits w 31 16
      ∧ (alignUndone s).rd (FB_LINK_SCHED_LAT p) = s.rd (FB_LINK_SCHED_LAT p) := by
  have hword : (alignUndone s).regW (FB_LINK_OFF p) = setBits (s.regW (FB_LINK_OFF p)) 47 16 (bits w 47 16) :=
    (alignUndone_regW hnodup h).trans (if_neg (by unfold FB_LINK_OFF RG_CFG_OFF; omega))
  refine ⟨?_, ?_, ?_⟩
  · exact (congrArg (bits · 47 32) hword).trans (bits_setBits_inside _ _ (by decide) (by decide) (by decide) (by decide))
  · exact (congrArg (bits · 31 16) hword).trans (bits_setBits_inside _ _ (by decide) (by decide) (by decide) (by decide))
  · exact (congrArg (bits · 15 0) hword).trans (bits_setBits_ne _ _ _ _ _ _ (by decide) (by decide) (by decide))

theorem alignUndone_reach {s : State} (hnodup : (s.sun.undo.map (·.1)).Nodup) {w : W64} (h : SMap.look? s.sun.undo RG_CFG_OFF = some w) :
    (alignUndone s).rd RG_CFG_REACH = bits w RG_CFG_REACH.hi RG_CFG_REACH.lo :=
  (congrArg (bits · 23 0) ((alignUndone_regW hnodup h).trans (if_pos rfl))).trans
    (bits_setBits_inside _ _ (by decide) (by decide) (by decide) (by decide))

theorem alignUndone_sun (s : State) : (alignUndone s).sun = { s.sun with undo := [], epochMark := none, startAt := none } :=
  foldl_keeps_sun _ (fun s x => by simp) _ _

/-- Settles O49, one answer, doorbell or limit after the other. -/
theorem commandsAreAnswered : Obligations.CommandsAreAnswered := by
  refine ⟨?answer, fun s f cmd a hf h hno hlive => (if_pos hf).trans (congrArg Host.Outcome.next (undefinedOpcode_unavailable h hno hlive)),
    fun s f hf hbusy => ?lost, fun s f hf hidle => (if_pos hf).trans (congrArg Host.Outcome.next (if_neg hidle)), fun s f hf => ?read, ?queued,
    fun s f x hf hticket h => ⟨fun hearly => ?early, fun hlate hplain => ?plain, fun hlate hop => ?load, fun hlate hop => ?align⟩,
    fun s f ticket hf hticket h => (if_pos ⟨hf, hticket⟩).trans (congrArg Host.Outcome.next (asyncTimeout_unknown h))⟩
  case answer =>
    rintro s t n status detail ticket res cmd a h hstatus hdetail hticket hres rfl
    obtain ⟨-, hgate, hmod, -, -, hshed, -, hreg, -, htiles, hpvs, -, hsun, hdie⟩ := answer_keeps s n status detail ticket res
    obtain ⟨m, heq, hlatched, hasync, hflights, hmsix, hpending, -, -, hst, hdet, htick, htok, hdone, hbusy, hwords⟩ := answer_eq h status detail ticket res
    have hmask : vecMasked ((s.setFn n m).fn n) 0 = vecMasked (s.fn n) 0 := by rw [State.fn_setFn_same, vecMasked, hmsix, vecMasked]
    obtain ⟨l, hfn⟩ := raiseVec_fn (s.setFn n m) n 0
    rw [State.fn_setFn_same, ← heq] at hfn
    refine ⟨?_, ?_, ?_, ?_, ?_, ?_, ?_, ?_, ?_, ?_, fun hclear => ?_, fun hset => ?_, fun k hk => ?_, hreg, htiles, hpvs, hdie, hsun, hgate, hmod, hshed⟩
    all_goals try rw [hfn]
    · exact hst.trans (Nat.mod_eq_of_lt hstatus)
    · exact hdet.trans (Nat.mod_eq_of_lt hdetail)
    · exact htick.trans (Nat.mod_eq_of_lt hticket)
    · exact htok
    · exact hdone
    · exact hbusy
    · exact hlatched
    · exact hwords
    · exact hasync
    · exact hflights
    · rw [heq, raiseVec_unmasked (hmask.trans hclear)]; rfl
    · obtain ⟨hout, hmem⟩ := raiseVec_masked (hmask.trans hset)
      rw [← hfn, heq]
      exact ⟨hout, hmem⟩
    · rw [heq, raiseVec_fn_ne _ _ _ _ hk, State.fn_setFn_ne _ _ hk]
  case lost =>
    have hdoorbell (m : Fn) {g : Fld} (v : Nat) (hoff : g.off ≠ MB_FLAG_CNT1_OFF) :
        ((m.raise MB_STATUS_DOORBELL_LOST).wr MB_FLAG_CNT1_DOORBELL_LOST v).rd g = (m.wr MB_STATUS_DOORBELL_LOST 1).rd g := Fn.rd_wr_off _ _ hoff
    refine ⟨_, (if_pos hf).trans (congrArg Host.Outcome.next (if_pos hbusy)), ?_, ?_, ?_, rfl, ?_⟩
    · exact (hdoorbell _ _ (by decide)).trans (Fn.rd_wr_same _ _ _ (by decide) (by decide))
    · exact ((hdoorbell _ _ (by decide)).trans (Fn.rd_wr_ne _ _ (by decide) (by decide) (by decide))).trans hbusy
    · exact Fn.rd_wr_same _ MB_FLAG_CNT1_DOORBELL_LOST _ (by decide) (by decide)
    · exact (hdoorbell _ _ (by decide)).trans (Fn.rd_wr_off _ _ (by decide))
  case read =>
    refine (if_pos hf).trans (congrArg Host.Outcome.next ?_)
    rw [List.drop_one]
    rfl
  case queued =>
    rintro s t n ticket status detail value x h hx hopcode hticket hstatus hdetail hvalue rfl
    obtain ⟨-, -, -, -, -, -, -, hreg, -, htiles, hpvs, -, -, hdie⟩ := endAsync_keeps s n ticket status detail value
    obtain ⟨hvalid, hop, htick, hst, hdet, hval⟩ := asyncEntry_bits hopcode hticket hstatus hdetail hvalue
    refine ⟨asyncEntry x.opcode ticket status detail value, ?_, hvalid, hop, htick, hst, hdet, hval, ?_, ?_, fun k hk => ?_, hreg, htiles, hpvs, hdie⟩
    all_goals rw [endAsync_queued h hx]
    · exact (setEvent_fn_async ..).trans (congrArg Fn.async (State.fn_setFn_same ..))
    · exact (setEvent_fn_flights ..).trans (congrArg Fn.flights (State.fn_setFn_same ..))
    · exact setEvent_async ..
    · rw [setEvent_fn_ne _ _ _ hk, State.fn_setFn_ne _ _ hk]
  case early => exact (if_pos ⟨hf, hticket⟩).trans (congrArg Host.Outcome.next (asyncTimeout_early h hearly))
  case plain =>
    exact (if_pos ⟨hf, hticket⟩).trans (congrArg Host.Outcome.next ((asyncTimeout_late h hlate).trans (timeout_plain s _ hplain)))
  case load =>
    exact ⟨_, (if_pos ⟨hf, hticket⟩).trans (congrArg Host.Outcome.next ((asyncTimeout_late h hlate).trans (if_pos hop))), rfl, rfl, rfl, rfl, rfl, rfl⟩
  case align =>
    refine ⟨_, (if_pos ⟨hf, hticket⟩).trans (congrArg Host.Outcome.next ((asyncTimeout_late h hlate).trans (timeout_align s _ hop))), ?_, ?_,
      fun hnodup => ⟨fun p w _ hw => alignUndone_link hnodup hw, fun w hw => alignUndone_reach hnodup hw⟩, fun o ho => alignUndone_regW_ne s ho, ?_, ?_⟩
    · rw [alignUndone_sun]
    · rw [alignUndone_sun]
    · simp
    · simp

end Sys2Proof.Machine
end

section
/-!
PROOF. Rings, runs, tenants, groups, pools and balancing of a pavilion (O54).
-/

namespace Sys2Proof.Machine
open Sys2Proof

theorem namedPv_lt {s : State} {f : Func} {cmd : W64} {q : Nat} (h : namedPv s f cmd = some q) : q < 4 := by
  cases f with
  | pf port =>
    unfold namedPv at h
    dsimp only at h
    split at h
    · obtain rfl := Option.some.inj h
      exact bits_lt cmd 9 8
    · exact absurd h (by simp)
  | vf a b => exact List.mem_range.1 (List.mem_of_find?_eq_some h)

-- pauses

theorem ceilDiv_mul_ge (a : Nat) {e : Nat} (he : 0 < e) : a ≤ e * ceilDiv a e := by
  have h := Nat.div_add_mod (a + e - 1) e
  have hlt := Nat.mod_lt (a + e - 1) he
  unfold ceilDiv
  omega

theorem ceilDiv_mul_lt (a : Nat) {e : Nat} (he : 0 < e) : e * ceilDiv a e < a + e := by
  have h := Nat.div_add_mod (a + e - 1) e
  unfold ceilDiv
  omega

/-- The pause frame is the first epoch start that is far enough ahead (R345). -/
theorem pauseFrame_bounds (s : State) (q : Nat) (he : 0 < epochLen s q) :
    earliest s ≤ pauseFrame s q ∧ (s.pv q).run.f0 ≤ pauseFrame s q ∧ pauseFrame s q < max (earliest s) (s.pv q).run.f0 + epochLen s q
      ∧ (pauseFrame s q - (s.pv q).run.f0) % epochLen s q = 0 := by
  have hge := ceilDiv_mul_ge (earliest s - (s.pv q).run.f0) he
  have hlt := ceilDiv_mul_lt (earliest s - (s.pv q).run.f0) he
  unfold pauseFrame
  dsimp only
  refine ⟨by omega, Nat.le_add_right _ _, by omega, ?_⟩
  rw [Nat.add_sub_cancel_left, Nat.mul_mod_right]

-- salt entries

theorem State.regW_setReg (s : State) (off o : Nat) (v : W64) : (s.setReg off v).regW o = if off = o then v else s.regW o := by
  unfold State.regW State.setReg
  rw [SMap.look_put]
  simp only [eq_comm]

theorem bindSalt_regW (s : State) (q n : Nat) (a : SMap W64) :
    (bindSalt s q n a).regW (IH_SALT_CFG_OFF n) = packed [(IH_SALT_CFG_VALID 0, 1), (IH_SALT_CFG_PAVILION 0, q)] 0
      ∧ (bindSalt s q n a).regW (IH_SALT_KEY0_OFF n) = SMap.look a 1 0 ∧ (bindSalt s q n a).regW (IH_SALT_KEY1_OFF n) = SMap.look a 2 0
      ∧ (bindSalt s q n a).regW (IH_SALT_KEY2_OFF n) = SMap.look a 3 0 ∧ (bindSalt s q n a).regW (IH_SALT_KEY3_OFF n) = SMap.look a 4 0 := by
  unfold bindSalt
  simp [State.regW_setReg, IH_SALT_CFG_OFF, IH_SALT_KEY0_OFF, IH_SALT_KEY1_OFF, IH_SALT_KEY2_OFF, IH_SALT_KEY3_OFF]

theorem bindSalt_regW_ne (s : State) (q : Nat) {n m : Nat} (a : SMap W64) (h : m ≠ n) :
    (bindSalt s q n a).regW (IH_SALT_CFG_OFF m) = s.regW (IH_SALT_CFG_OFF m) := by
  unfold bindSalt
  simp only [State.regW_setReg, IH_SALT_CFG_OFF, IH_SALT_KEY0_OFF, IH_SALT_KEY1_OFF, IH_SALT_KEY2_OFF, IH_SALT_KEY3_OFF]
  repeat rw [if_neg (by omega)]

theorem bindSalt_valid (s : State) (q n : Nat) (a : SMap W64) : (bindSalt s q n a).rd (IH_SALT_CFG_VALID n) = 1 := by
  refine (congrArg (bits · 63 63) (bindSalt_regW s q n a).1).trans ?_
  simp [packed, IH_SALT_CFG_VALID, IH_SALT_CFG_PAVILION, bits_setBits_same, bits_setBits_ne]

theorem bindSalt_pavilion (s : State) {q : Nat} (n : Nat) (a : SMap W64) (hq : q < 4) : (bindSalt s q n a).rd (IH_SALT_CFG_PAVILION n) = q := by
  refine (congrArg (bits · 9 8) (bindSalt_regW s q n a).1).trans ?_
  simp [packed, IH_SALT_CFG_VALID, IH_SALT_CFG_PAVILION, bits_setBits_same, Nat.mod_eq_of_lt hq]

theorem freeSalt_regW (s : State) (n : Nat) : (freeSalt s n).regW (IH_SALT_CFG_OFF n) = 0 ∧ (freeSalt s n).regW (IH_SALT_KEY0_OFF n) = 0 := by
  unfold freeSalt
  simp [State.regW_setReg, IH_SALT_CFG_OFF, IH_SALT_KEY0_OFF, IH_SALT_KEY1_OFF, IH_SALT_KEY2_OFF, IH_SALT_KEY3_OFF]

theorem freeSalt_regW_above (s : State) {n o : Nat} (hn : n < 64) (h : 0xF1100 ≤ o) : (freeSalt s n).regW o = s.regW o := by
  unfold freeSalt
  simp only [State.regW_setReg, IH_SALT_CFG_OFF, IH_SALT_KEY0_OFF, IH_SALT_KEY1_OFF, IH_SALT_KEY2_OFF, IH_SALT_KEY3_OFF]
  repeat rw [if_neg (by omega)]

-- removing a group

/-- The tenants of a list leave their groups. -/
def ungrouped (s : State) (l : List Nat) : State := l.foldl (fun s t => s.wr (TS_TENANT_CFG_GROUP_VALID t) 0) s

theorem groupValid_wr_ne (s : State) {x y : Nat} (v : Nat) (h : x ≠ y) (f : Fld) (hf : f.off = TS_TENANT_CFG_OFF x) :
    (s.wr (TS_TENANT_CFG_GROUP_VALID y) v).rd f = s.rd f :=
  rd_off _ _ _ _ (by rw [hf]; unfold TS_TENANT_CFG_GROUP_VALID TS_TENANT_CFG_OFF; dsimp only; omega)

theorem groupValid_cleared (s : State) (x : Nat) : (s.wr (TS_TENANT_CFG_GROUP_VALID x) 0).rd (TS_TENANT_CFG_GROUP_VALID x) = 0 := by
  rw [State.rd_wr_same s (TS_TENANT_CFG_GROUP_VALID x) 0 (by simp [TS_TENANT_CFG_GROUP_VALID]) (by simp [TS_TENANT_CFG_GROUP_VALID])]
  exact Nat.zero_mod _

theorem ungrouped_cleared (s : State) {l : List Nat} {x : Nat} (h : x ∈ l) : (ungrouped s l).rd (TS_TENANT_CFG_GROUP_VALID x) = 0 := by
  refine foldl_establishes (P := fun t => t.rd (TS_TENANT_CFG_GROUP_VALID x) = 0)
    (f := fun s t => s.wr (TS_TENANT_CFG_GROUP_VALID t) 0) h (fun t => groupValid_cleared t x) (fun t y ht => ?_) s
  by_cases e : x = y
  · rw [← e]
    exact groupValid_cleared t x
  · exact (groupValid_wr_ne t 0 e _ rfl).trans ht

theorem ungrouped_rd_other (s : State) {l : List Nat} {x : Nat} (h : x ∉ l) (f : Fld) (hf : f.off = TS_TENANT_CFG_OFF x) : (ungrouped s l).rd f = s.rd f :=
  List.foldlRecOn (motive := fun t => t.rd f = s.rd f) l _ rfl fun t ht y hy =>
    (groupValid_wr_ne t 0 (fun e : x = y => h (e.symm ▸ hy)) f hf).trans ht

theorem inGroup_cleared {s : State} {n x : Nat} (h : s.rd (TS_TENANT_CFG_GROUP_VALID x) = 0) : inGroup s n x = false := by
  unfold inGroup
  rw [h]
  rfl

/-- The tenants of a pavilion that are in a group. -/
def members (s : State) (q n : Nat) : List Nat :=
  ((List.range (s.pv q).res.tenants).map ((s.pv q).res.firstTenant + ·)).filter (inGroup s n)

theorem removeGroup_eq (s : State) (q n : Nat) : removeGroup s q n = freeSalt (((ungrouped s (members s q n)).modPool q (fun p =>
    { p with index := p.index.filter (fun e => e.2.group != n) })).modFront q (fun x => { x with decisions := x.decisions.filter (fun d => !ofGroup n d.2) })) n := rfl

theorem ungrouped_fields (s : State) (l : List Nat) : (ungrouped s l).pvs = s.pvs ∧ (ungrouped s l).tiles = s.tiles ∧ (ungrouped s l).fns = s.fns :=
  ⟨foldl_keeps_pvs _ (fun _ _ => State.wr_pvs ..) _ _, foldl_keeps_tiles _ (fun _ _ => State.wr_tiles ..) _ _,
    foldl_keeps_fns _ (fun _ _ => State.wr_fns ..) _ _⟩

theorem freeSalt_pvs (s : State) (n : Nat) : (freeSalt s n).pvs = s.pvs := rfl

theorem removeGroup_pv (s : State) (q n : Nat) : (removeGroup s q n).pv q = { s.pv q with front := { (s.pv q).front with
    pool := (s.pv q).front.pool.map (fun p => { p with index := p.index.filter (fun e => e.2.group != n) })
    decisions := (s.pv q).front.decisions.filter (fun d => !ofGroup n d.2) } } := by
  rw [removeGroup_eq, pv_of (freeSalt_pvs _ n), State.pv_modFront_same, State.modPool, State.pv_modFront_same,
    pv_of (ungrouped_fields s (members s q n)).1 q]

theorem removeGroup_inGroup {s : State} {q n x : Nat} (hn : n < 64) (hlo : (s.pv q).res.firstTenant ≤ x)
    (hhi : x < (s.pv q).res.firstTenant + (s.pv q).res.tenants) : inGroup (removeGroup s q n) n x = false := by
  have hrd (f : Fld) (hf : f.off = TS_TENANT_CFG_OFF x) : (removeGroup s q n).rd f = (ungrouped s (members s q n)).rd f := by
    unfold State.rd
    rw [removeGroup_eq, freeSalt_regW_above _ hn (by rw [hf]; unfold TS_TENANT_CFG_OFF; omega)]
    rfl
  by_cases hmember : x ∈ members s q n
  · exact inGroup_cleared ((hrd _ rfl).trans (ungrouped_cleared s hmember))
  · have hout : inGroup s n x = false := by
      refine Bool.eq_false_iff.2 fun hin => hmember (List.mem_filter.2 ⟨List.mem_map.2 ⟨x - (s.pv q).res.firstTenant, ?_, ?_⟩, hin⟩)
      · exact List.mem_range.2 (by omega)
      · exact Nat.add_sub_cancel' hlo
    rw [← hout, inGroup, hrd _ rfl, hrd _ rfl, ungrouped_rd_other s hmember _ rfl, ungrouped_rd_other s hmember _ rfl, inGroup]

-- the commands

theorem tenantSet_idle {s : State} {f : Func} {cmd : W64} {a : SMap W64} {q : Nat} (h : Submitted s f 0x29 cmd a) (hq : namedPv s f cmd = some q)
    (hf : faulty a [0x3FFFFF, 0xFFFFFFFFFFFF, 0xFFFFFFFF] (tenantBad s q a) = none) (hst : (s.pv q).run.st ∈ notResetting)
    (hidle : tenantBusy s q (arg a 0 11 0) = false) :
    tenantSet s f = answer (atNextTick s (.tenant (arg a 0 11 0) (tenantCfg q a) (w64 (arg a 2 31 0)))) (fnNum f) stDone 0 0 [] := by
  unfold tenantSet
  rw [servePv_ok h hq anyArgs rfl _ _ _ _ hf hst]
  exact if_neg (by simp [hidle])

theorem tenantSet_busy {s : State} {f : Func} {cmd : W64} {a : SMap W64} {q : Nat} (h : Submitted s f 0x29 cmd a) (hq : namedPv s f cmd = some q)
    (hf : faulty a [0x3FFFFF, 0xFFFFFFFFFFFF, 0xFFFFFFFF] (tenantBad s q a) = none) (hst : (s.pv q).run.st ∈ notResetting)
    (hbusy : tenantBusy s q (arg a 0 11 0) = true) (hdrop : arg a 0 12 12 = 0) : tenantSet s f = answer s (fnNum f) stStateConflict 0 0 [] := by
  unfold tenantSet
  rw [servePv_ok h hq anyArgs rfl _ _ _ _ hf hst]
  exact if_pos (by simp [hbusy, hdrop])

theorem tenantBudget_eq {s : State} {f : Func} {cmd : W64} {a : SMap W64} {q mode : Nat} (h : Submitted s f 0x2A cmd a) (hq : namedPv s f cmd = some q)
    (hf : faulty a [0x1FFF, 0xFFFFFFFFFFFF] (fun w => w == 0 && tenantOut s q (arg a 0 11 0)) = none) (hst : (s.pv q).run.st ∈ notResetting)
    (hmode : arg a 0 12 12 = mode) : tenantBudget s f mode = answer (atNextTick s (if mode = 0 then .budget (arg a 0 11 0) (w64 (arg a 1 47 0))
      else .budgetAdd (arg a 0 11 0) (w64 (arg a 1 47 0)))) (fnNum f) stDone 0 0 [] :=
  servePv_ok h hq _ (by simp [hmode]) _ _ _ _ hf hst

theorem balanceCommand_eq {s : State} {f : Func} {cmd : W64} {a : SMap W64} {q : Nat} {on : Bool} (h : Submitted s f 0x2F cmd a) (hq : namedPv s f cmd = some q)
    (hf : faulty a [1] (fun _ => false) = none) (hst : (s.pv q).run.st ∈ notResetting) (hon : arg a 0 0 0 = ofBool on) :
    balanceCommand s f on = answer (atNextTick s (.balance q on)) (fnNum f) stDone 0 0 [] :=
  servePv_ok h hq _ (by simp [hon]) _ _ _ _ hf hst

theorem ringSetup_eq {s : State} {f : Func} {cmd : W64} {a : SMap W64} {q : Nat} (h : Submitted s f 0x21 cmd a) (hq : namedPv s f cmd = some q)
    (hf : faulty a [wholeWord, wholeWord, wholeWord, 0x3F011F1F] (ringBad s q a) = none) (hst : (s.pv q).run.st ∈ [pvEmpty, pvLoaded]) :
    ringSetup s f = answer (s.modFront q (fun x => { x with rings := some (newRings (s.pv q).res a) })) (fnNum f) stDone 0 0 [] :=
  servePv_ok h hq anyArgs rfl _ _ _ _ hf hst

section
variable {s : State} {f : Func} {cmd : W64} {a : SMap W64} {q : Nat} (h : Submitted s f 0x25 cmd a) (hq : namedPv s f cmd = some q)
  (hf : faulty a [wholeWord] (fun w => w == 0 && arg a 0 63 0 < earliest s) = none) (hst : (s.pv q).run.st = pvLoaded)
include h hq hf hst

theorem runCommand_unaligned (hskew : s.rd SD_STATUS_ALIGNED = 0) : runCommand s f = answer s (fnNum f) stStateConflict 0 0 [] := by
  unfold runCommand
  rw [servePv_ok h hq anyArgs rfl _ _ _ _ hf (List.mem_singleton.2 hst)]
  exact if_pos hskew

theorem runCommand_ringless (halign : s.rd SD_STATUS_ALIGNED = 1) (hring : (s.pv q).front.rings = none) :
    runCommand s f = answer s (fnNum f) stNoResource 0 0 [] := by
  unfold runCommand
  rw [servePv_ok h hq anyArgs rfl _ _ _ _ hf (List.mem_singleton.2 hst), if_neg (by rw [halign]; decide)]
  exact if_pos (by rw [hring]; rfl)

theorem runCommand_starts (halign : s.rd SD_STATUS_ALIGNED = 1) (hring : (s.pv q).front.rings.isSome = true) :
    runCommand s f = answer (enterState (s.modRun q (fun r => { r with
      f0 := arg a 0 63 0, startAt := some (arg a 0 63 0), heads := [], pause := none, stopAt := none, drained := false })) q pvRunning)
      (fnNum f) stDone 0 0 [] := by
  unfold runCommand
  rw [servePv_ok h hq anyArgs rfl _ _ _ _ hf (List.mem_singleton.2 hst), if_neg (by rw [halign]; decide)]
  exact if_neg (by rw [Option.isNone_eq_false_iff.2 hring]; decide)

end

theorem pauseCommand_eq {s : State} {f : Func} {cmd : W64} {a : SMap W64} {q : Nat} (h : Submitted s f 0x26 cmd a) (hq : namedPv s f cmd = some q)
    (hf : faulty a [] (fun _ => false) = none) (hst : (s.pv q).run.st = pvRunning) :
    pauseCommand s f = answer (s.modRun q (fun r => { r with pause := some (pauseFrame s q) })) (fnNum f) stDone 0 0 [w64 (pauseFrame s q)] :=
  servePv_ok h hq anyArgs rfl _ _ _ _ hf (List.mem_singleton.2 hst)

theorem resumeCommand_eq {s : State} {f : Func} {cmd : W64} {a : SMap W64} {q : Nat} (h : Submitted s f 0x27 cmd a) (hq : namedPv s f cmd = some q)
    (hf : faulty a [wholeWord] (resumeBad s q a) = none) (hst : (s.pv q).run.st = pvHeld) :
    resumeCommand s f = answer (enterState (s.modRun q (fun r => { r with f0 := arg a 0 63 0, startAt := some (arg a 0 63 0), pause := none })) q pvRunning)
      (fnNum f) stDone 0 0 [] :=
  servePv_ok h hq anyArgs rfl _ _ _ _ hf (List.mem_singleton.2 hst)

section
variable {s : State} {f : Func} {cmd : W64} {a : SMap W64} {q : Nat} (h : Submitted s f 0x28 cmd a) (hq : namedPv s f cmd = some q)
  (hf : faulty a [] (fun _ => false) = none) (hst : (s.pv q).run.st ∈ [pvRunning, pvDraining])
include h hq hf hst

theorem drainCommand_other (hfront : isFront s q = false) : drainCommand s f = answer s (fnNum f) stBadArgument 0 0 [] := by
  unfold drainCommand
  rw [servePv_ok h hq anyArgs rfl _ _ _ _ hf hst]
  exact if_pos (by simp [hfront])

theorem drainCommand_draining (hfront : isFront s q = true) (hdrain : (s.pv q).run.st = pvDraining) :
    drainCommand s f = answer s (fnNum f) stDone 0 0 [] := by
  unfold drainCommand
  rw [servePv_ok h hq anyArgs rfl _ _ _ _ hf hst, if_neg (by simp [hfront])]
  exact if_pos hdrain

theorem drainCommand_running (hfront : isFront s q = true) (hrun : (s.pv q).run.st = pvRunning) :
    drainCommand s f = answer (enterState (s.modRun q (fun r => { r with pause := none })) q pvDraining) (fnNum f) stDone 0 0 [] := by
  unfold drainCommand
  rw [servePv_ok h hq anyArgs rfl _ _ _ _ hf hst, if_neg (by simp [hfront])]
  exact if_neg (by rw [hrun]; decide)

end

section
variable {s : State} {f : Func} {cmd : W64} {a : SMap W64} {q : Nat} (h : Submitted s f 0x2B cmd a) (hq : namedPv s f cmd = some q)
  (hf : faulty a [0x3F, wholeWord, wholeWord, wholeWord, wholeWord] (fun _ => false) = none) (hst : (s.pv q).run.st ∈ notResetting)
include h hq hf hst

theorem groupSet_free (hfree : s.rd (IH_SALT_CFG_VALID (arg a 0 5 0)) = 0) :
    groupSet s f = answer (bindSalt s q (arg a 0 5 0) a) (fnNum f) stDone 0 0 [] := by
  unfold groupSet
  rw [servePv_ok h hq anyArgs rfl _ _ _ _ hf hst]
  exact if_pos hfree

theorem groupSet_foreign (hvalid : s.rd (IH_SALT_CFG_VALID (arg a 0 5 0)) = 1) (hother : s.rd (IH_SALT_CFG_PAVILION (arg a 0 5 0)) ≠ q) :
    groupSet s f = answer s (fnNum f) stNoResource 0 0 [] := by
  unfold groupSet
  rw [servePv_ok h hq anyArgs rfl _ _ _ _ hf hst]
  exact (if_neg (by rw [hvalid]; decide)).trans (if_pos hother)

theorem groupSet_own (hvalid : s.rd (IH_SALT_CFG_VALID (arg a 0 5 0)) = 1) (hown : s.rd (IH_SALT_CFG_PAVILION (arg a 0 5 0)) = q) :
    groupSet s f = answer s (fnNum f) (if sameSalt s (arg a 0 5 0) a then stDone else stStateConflict) 0 0 [] := by
  unfold groupSet
  rw [servePv_ok h hq anyArgs rfl _ _ _ _ hf hst]
  refine (if_neg (by rw [hvalid]; decide)).trans ((if_neg (not_not.2 hown)).trans ?_)
  split <;> rfl

end

theorem groupRemove_busy {s : State} {f : Func} {cmd : W64} {a : SMap W64} {q : Nat} (h : Submitted s f 0x2C cmd a) (hq : namedPv s f cmd = some q)
    (hf : faulty a [0x3F] (fun w => w == 0 && !saltOf s q (arg a 0 5 0)) = none) (hst : (s.pv q).run.st ∈ notResetting)
    (hlive : (s.pv q).front.live.any (fun r => inGroup s (arg a 0 5 0) r.tenant) = true) : groupRemove s f = answer s (fnNum f) stStateConflict 0 0 [] := by
  unfold groupRemove
  rw [servePv_ok h hq anyArgs rfl _ _ _ _ hf hst]
  exact if_pos hlive

theorem groupRemove_idle {s : State} {f : Func} {cmd : W64} {a : SMap W64} {q : Nat} (h : Submitted s f 0x2C cmd a) (hq : namedPv s f cmd = some q)
    (hf : faulty a [0x3F] (fun w => w == 0 && !saltOf s q (arg a 0 5 0)) = none) (hst : (s.pv q).run.st ∈ notResetting)
    (hlive : (s.pv q).front.live.any (fun r => inGroup s (arg a 0 5 0) r.tenant) = false) :
    groupRemove s f = answer (removeGroup s q (arg a 0 5 0)) (fnNum f) stDone 0 0 [] := by
  unfold groupRemove
  rw [servePv_ok h hq anyArgs rfl _ _ _ _ hf hst]
  exact if_neg (by simp [hlive])

theorem poolCreate_eq {s : State} {f : Func} {cmd : W64} {a : SMap W64} {q : Nat} (h : Submitted s f 0x2D cmd a) (hq : namedPv s f cmd = some q)
    (hf : faulty a [0xFFFF0000FFFF, 0xFFF] (poolBad s q a) = none) (hst : (s.pv q).run.st ∈ [pvEmpty, pvLoaded]) (hroom : flightsFull s (fnNum f) = false)
    (hfree : pvBusy s q = false) (hpool : (s.pv q).front.pool = none) :
    poolCreate s f = endAsync ((accept s (fnNum f) 0x2D (some q) 1000 []).modFront q (fun x => { x with pool := some (newPool a), decisions := [] }))
      (fnNum f) (ticketOf s (fnNum f)) stDone 0 0 := by
  unfold poolCreate
  rw [servePv_ok h hq anyArgs rfl _ _ _ _ hf hst]
  exact (if_neg (by simp [hroom, hfree])).trans (if_neg (by simp [hpool]))

theorem poolDestroy_none {s : State} {f : Func} {cmd : W64} {a : SMap W64} {q : Nat} (h : Submitted s f 0x2E cmd a) (hq : namedPv s f cmd = some q)
    (hf : faulty a [] (fun _ => false) = none) (hst : (s.pv q).run.st ∈ [pvEmpty, pvLoaded]) (hpool : (s.pv q).front.pool = none) :
    poolDestroy s f = answer s (fnNum f) stStateConflict 0 0 [] := by
  unfold poolDestroy
  rw [servePv_ok h hq anyArgs rfl _ _ _ _ hf hst]
  exact if_pos (by rw [hpool]; rfl)

theorem poolDestroy_some {s : State} {f : Func} {cmd : W64} {a : SMap W64} {q : Nat} (h : Submitted s f 0x2E cmd a) (hq : namedPv s f cmd = some q)
    (hf : faulty a [] (fun _ => false) = none) (hst : (s.pv q).run.st ∈ [pvEmpty, pvLoaded]) (hpool : (s.pv q).front.pool.isSome = true) :
    poolDestroy s f = answer (s.modFront q (fun x => { x with pool := none, decisions := [] })) (fnNum f) stDone 0 0 [] := by
  unfold poolDestroy
  rw [servePv_ok h hq anyArgs rfl _ _ _ _ hf hst]
  exact if_neg (by rw [Option.isNone_eq_false_iff.2 hpool]; decide)

/-- Settles O54, one pavilion command after the other. -/
theorem pavilionCommandsAct : Obligations.PavilionCommandsAct := by
  refine ⟨fun s f cmd a q h hq hf hst => ?rings, fun s f cmd a q h hq hf hst => ⟨?runUnaligned, ?runRingless, fun halign hring => ?run⟩,
    fun s f cmd a q P e h hq hf hst hP he hpos => ?pause, fun s f cmd a q h hq hf hst => ?resume,
    fun s f cmd a q h hq hf hst => ⟨fun hfront => ?drainOther, fun hfront => ?drain⟩, fun s f cmd a q n h hq hf hst hn => ⟨?tenant, ?tenantBusy⟩,
    fun s f cmd a q h hq hf hst => ⟨fun hset => ?budgetSet, fun hadd => ?budgetAdd⟩,
    fun s f cmd a q n h hq hf hst hn => ⟨fun hfree => ?group, fun hvalid hother => ?groupForeign, fun hvalid hown => ?groupOwn⟩,
    fun s f cmd a q n h hq hf hst hn => ⟨fun hlive => ?groupBusy, fun hlive => ?ungroup⟩, fun s f cmd a q h hq hf hst hroom hfree hpool => ?pool,
    fun s f cmd a q h hq hf hst => ⟨fun hpool => ?unpoolNone, fun hpool => ?unpool⟩, fun s f cmd a q h hq hf hst => ⟨fun hon => ?on, fun hoff => ?off⟩⟩
  case rings =>
    refine ⟨_, newRings (s.pv q).res a, (if_pos h.function).trans (congrArg Host.Outcome.next (ringSetup_eq h hq hf hst)), ?_, rfl, rfl, rfl, rfl, rfl, rfl,
      rfl, rfl, rfl, rfl, ?_, ?_, fun x hx => State.pv_modFront_ne _ _ hx, rfl, rfl, rfl, rfl⟩
    · rw [State.pv_modFront_same]
    · unfold newRings
      split <;> rfl
    · rw [State.pv_modFront_same]
  case runUnaligned => exact fun hskew => (if_pos h.function).trans (congrArg Host.Outcome.next (runCommand_unaligned h hq hf hst hskew))
  case runRingless => exact fun halign hring => (if_pos h.function).trans (congrArg Host.Outcome.next (runCommand_ringless h hq hf hst halign hring))
  case run =>
    refine ⟨_, (if_pos h.function).trans (congrArg Host.Outcome.next (runCommand_starts h hq hf hst halign hring)), ?_, ?_, ?_, ?_, fun x hx => ?_, ?_, ?_, ?_⟩
    iterate 4 rw [enterState_pv_same, State.pv_modRun_same]
    · rw [enterState_pv_ne _ _ hx, State.pv_modRun_ne _ _ hx]
    · simp
    · simp
    · simp
  case pause =>
    subst hP he
    obtain ⟨hahead, hafter, hnear, hmultiple⟩ := pauseFrame_bounds s q hpos
    refine ⟨hahead, hafter, hnear, hmultiple, _, (if_pos h.function).trans (congrArg Host.Outcome.next (pauseCommand_eq h hq hf hst)), ?_, ?_,
      fun x hx => State.pv_modRun_ne _ _ hx, rfl, rfl, rfl, rfl⟩
    · rw [State.pv_modRun_same]
    · rw [State.pv_modRun_same]
  case resume =>
    refine ⟨_, (if_pos h.function).trans (congrArg Host.Outcome.next (resumeCommand_eq h hq hf hst)), ?_, ?_, ?_, ?_, ?_, ?_, fun x hx => ?_, ?_, ?_, ?_⟩
    iterate 6 rw [enterState_pv_same, State.pv_modRun_same]
    · rw [enterState_pv_ne _ _ hx, State.pv_modRun_ne _ _ hx]
    · simp
    · simp
    · simp
  case drainOther => exact (if_pos h.function).trans (congrArg Host.Outcome.next (drainCommand_other h hq hf hst hfront))
  case drain =>
    by_cases hdrain : (s.pv q).run.st = pvDraining
    · exact ⟨s, (if_pos h.function).trans (congrArg Host.Outcome.next (drainCommand_draining h hq hf hst hfront hdrain)), hdrain,
        fun hrun => absurd (hrun.symm.trans hdrain) (by decide), rfl, fun _ _ => rfl, rfl, rfl, rfl⟩
    · have hrun : (s.pv q).run.st = pvRunning := by simpa [hdrain] using hst
      refine ⟨_, (if_pos h.function).trans (congrArg Host.Outcome.next (drainCommand_running h hq hf hst hfront hrun)), ?_, fun _ => ?_, ?_, fun x hx => ?_, ?_, ?_, ?_⟩
      iterate 3 rw [enterState_pv_same, State.pv_modRun_same]
      · rw [enterState_pv_ne _ _ hx, State.pv_modRun_ne _ _ hx]
      · simp
      · simp
      · simp
  case tenant =>
    subst hn
    exact fun hidle => (if_pos h.function).trans (congrArg Host.Outcome.next (tenantSet_idle h hq hf hst hidle))
  case tenantBusy =>
    subst hn
    exact fun hbusy hdrop => (if_pos h.function).trans (congrArg Host.Outcome.next (tenantSet_busy h hq hf hst hbusy hdrop))
  case budgetSet => exact (if_pos h.function).trans (congrArg Host.Outcome.next (tenantBudget_eq h hq hf hst hset))
  case budgetAdd => exact (if_pos h.function).trans (congrArg Host.Outcome.next (tenantBudget_eq h hq hf hst hadd))
  case group =>
    subst hn
    obtain ⟨-, hkey0, hkey1, hkey2, hkey3⟩ := bindSalt_regW s q (arg a 0 5 0) a
    exact ⟨_, (if_pos h.function).trans (congrArg Host.Outcome.next (groupSet_free h hq hf hst hfree)), bindSalt_valid s q _ a,
      bindSalt_pavilion s _ a (namedPv_lt hq), hkey0, hkey1, hkey2, hkey3, fun m _ hm => bindSalt_regW_ne s q a hm, rfl, rfl, rfl⟩
  case groupForeign =>
    subst hn
    exact (if_pos h.function).trans (congrArg Host.Outcome.next (groupSet_foreign h hq hf hst hvalid hother))
  case groupOwn =>
    subst hn
    exact (if_pos h.function).trans (congrArg Host.Outcome.next (groupSet_own h hq hf hst hvalid hown))
  case groupBusy =>
    subst hn
    exact (if_pos h.function).trans (congrArg Host.Outcome.next (groupRemove_busy h hq hf hst hlive))
  case ungroup =>
    subst hn
    have hpv := removeGroup_pv s q (arg a 0 5 0)
    obtain ⟨hcfg, hkey⟩ := freeSalt_regW (((ungrouped s (members s q (arg a 0 5 0))).modPool q _).modFront q _) (arg a 0 5 0)
    obtain ⟨hpvs, htiles, hfns⟩ := ungrouped_fields s (members s q (arg a 0 5 0))
    refine ⟨_, (if_pos h.function).trans (congrArg Host.Outcome.next (groupRemove_idle h hq hf hst hlive)), ?_, ?_,
      fun x hlo hhi _ => removeGroup_inGroup (bits_lt _ 5 0) hlo hhi, fun p hp e he => ?_, ?_, ?_, ?_, ?_⟩
    · rw [removeGroup_eq, State.rd]
      exact (congrArg (bits · 63 63) hcfg).trans (by decide)
    · rw [removeGroup_eq]
      exact hkey
    · rw [hpv] at hp
      obtain ⟨p0, -, rfl⟩ := Option.map_eq_some_iff.1 hp
      simpa using (List.mem_filter.1 he).2
    · rw [hpv]
    · rw [hpv]
    · rw [removeGroup_eq]
      exact htiles
    · rw [removeGroup_eq]
      exact hfns
  case pool =>
    obtain ⟨-, -, -, -, -, -, -, hreg, -, htiles, -, -, -, hdie⟩ := accept_keeps s (fnNum f) 0x2D (some q) 1000 []
    have hstatus := accept_status h.copied 0x2D (some q) 1000 []
    have hpv (x : Nat) : (accept s (fnNum f) 0x2D (some q) 1000 []).pv x = s.pv x := pv_of (by simp) x
    have heq := poolCreate_eq h hq hf hst hroom hfree hpool
    generalize accept s (fnNum f) 0x2D (some q) 1000 [] = u at *
    refine ⟨_, (if_pos h.function).trans (congrArg Host.Outcome.next heq), ?_, ?_, ?_, fun x hx => ?_, ?_, ?_, ?_⟩
    · rw [endAsync_rd_before _ _ _ _ _ _ _ (by decide)]
      exact hstatus
    · rw [endAsync_pv, State.pv_modFront_same]
      rfl
    · rw [endAsync_pv, State.pv_modFront_same, hpv]
    · rw [endAsync_pv, State.pv_modFront_ne _ _ hx, hpv]
    · simpa using hreg
    · simpa using htiles
    · simpa using hdie
  case unpoolNone => exact (if_pos h.function).trans (congrArg Host.Outcome.next (poolDestroy_none h hq hf hst hpool))
  case unpool =>
    refine ⟨_, (if_pos h.function).trans (congrArg Host.Outcome.next (poolDestroy_some h hq hf hst hpool)), ?_, ?_, fun x hx => State.pv_modFront_ne _ _ hx,
      rfl, rfl, rfl, rfl⟩
    · rw [State.pv_modFront_same]
    · rw [State.pv_modFront_same]
  case on => exact (if_pos h.function).trans (congrArg Host.Outcome.next (balanceCommand_eq h hq hf hst hon))
  case off => exact (if_pos h.function).trans (congrArg Host.Outcome.next (balanceCommand_eq h hq hf hst hoff))

end Sys2Proof.Machine
end

section
/-!
PROOF. PV_CREATE, PV_DESTROY, PV_RESET with its units and limits, and PV_STATUS (O53).
-/

namespace Sys2Proof.Machine
open Sys2Proof

-- one pavilion's run changes

/-- As to pavilions, `t` differs from `s` in pavilion `q` alone, which keeps its resources and whose run is `g` of what it was. -/
structure Changed (q : Nat) (g : PvRun → PvRun) (s t : State) : Prop where
  others : ∀ x, x ≠ q → t.pv x = s.pv x
  res : (t.pv q).res = (s.pv q).res
  run : (t.pv q).run = g (s.pv q).run

theorem Changed.of_pvs {s t : State} (q : Nat) (h : t.pvs = s.pvs) : Changed q id s t := ⟨fun x _ => pv_of h x, by rw [pv_of h], by rw [pv_of h]; rfl⟩

theorem Changed.modRun (s : State) (q : Nat) (g : PvRun → PvRun) : Changed q g s (s.modRun q g) :=
  ⟨fun _ hx => State.pv_modRun_ne s g hx, by rw [State.pv_modRun_same], by rw [State.pv_modRun_same]⟩

theorem Changed.modFront (s : State) (q : Nat) (f : PvFront → PvFront) : Changed q id s (s.modFront q f) :=
  ⟨fun _ hx => State.pv_modFront_ne s f hx, by rw [State.pv_modFront_same], by rw [State.pv_modFront_same]; rfl⟩

theorem Changed.trans {q : Nat} {g k : PvRun → PvRun} {s t u : State} (h : Changed q g s t) (h' : Changed q k t u) : Changed q (k ∘ g) s u :=
  ⟨fun x hx => (h'.others x hx).trans (h.others x hx), h'.res.trans h.res, by rw [h'.run, h.run]; rfl⟩

/-- A step that leaves the pavilions as they are, after a change. -/
theorem Changed.andKept {q : Nat} {g : PvRun → PvRun} {s t u : State} (h : Changed q g s t) (hpvs : u.pvs = t.pvs) : Changed q g s u :=
  h.trans (.of_pvs q hpvs)

/-- A change after a step that leaves the run as it is. -/
theorem Changed.after {q : Nat} {g : PvRun → PvRun} {s t u : State} (h : Changed q id s t) (h' : Changed q g t u) : Changed q g s u := h.trans h'

theorem Changed.foldl {α : Type} {q : Nat} {f : State → α → State} (h : ∀ s x, Changed q id s (f s x)) (l : List α) (s : State) :
    Changed q id s (l.foldl f s) :=
  List.foldlRecOn (motive := Changed q id s) l f (.of_pvs q rfl) fun _ ht x _ => ht.after (h _ x)

theorem Changed.pvClusters {q : Nat} {g : PvRun → PvRun} {s t : State} (h : Changed q g s t) : t.pvClusters q = s.pvClusters q := by
  unfold State.pvClusters
  rw [h.res]

-- requests that end

theorem raiseVec_pvs (s : State) (n v : Nat) : (raiseVec s n v).pvs = s.pvs := by simp

theorem releaseSlots_pvs (s : State) (q : Nat) (r : Req) : (releaseSlots s q r).pvs = s.pvs := by simp

theorem ringWrite_changed (s : State) (q : Nat) (r : Rings) (ws : List W64) : Changed q id s (ringWrite s q r ws) := by
  unfold ringWrite
  extract_lets at_ r1 s1
  have hwritten : Changed q id s (s.emit (.hostWrite r.fn at_ (stamped s ws))) := .of_pvs q rfl
  have h1 : Changed q id s s1 := (hwritten.after (.modFront _ q (fun f => { f with rings := some r1 }))).andKept rfl
  exact h1.andKept (raiseVec_pvs ..)

theorem putRecord_changed (s : State) (q : Nat) (ws : List W64) : Changed q id s (putRecord s q ws).1 := by
  unfold putRecord
  extract_lets f
  split
  · exact .of_pvs q rfl
  · split
    · exact ringWrite_changed ..
    · split
      · exact .of_pvs q rfl
      · extract_lets s2
        have h2 : Changed q id s s2 := .of_pvs q (by unfold s2; split <;> simp)
        exact h2.after (.modFront s2 q (fun f => { f with store := f.store ++ [ws] }))

theorem unpin_changed (s : State) (q tag : Nat) (aborted : Bool) : Changed q id s (unpin s q tag aborted) := by
  unfold unpin
  split
  · exact .of_pvs q rfl
  · split
    · exact .modFront s q _
    · exact .of_pvs q (by simp)

theorem endRequests_changed (s : State) (q status : Nat) : Changed q id s (endRequests s q status) := by
  unfold endRequests
  extract_lets f s1 s2
  have h1 : Changed q id s s1 := by
    refine .foldl (fun t r => ?_) _ s
    extract_lets t1 t2
    have ht1 : Changed q id t t1 := (putRecord_changed t q _).andKept (releaseSlots_pvs ..)
    have ht2 : Changed q id t t2 := ht1.andKept (by unfold t2; split <;> simp)
    exact ht2.after (unpin_changed t2 q r.tag true)
  have h2 : Changed q id s s2 := h1.after (.modFront s1 q _)
  exact h2.andKept (by simp)

theorem endRequests_queues (s : State) (q status : Nat) :
    ((endRequests s q status).pv q).front.live = [] ∧ ((endRequests s q status).pv q).front.waiting = [] := by
  unfold endRequests
  extract_lets f s1 s2
  have hpvs (l : List Nat) : (l.foldl closeSlot s2).pvs = s2.pvs := by simp
  rw [pv_of (hpvs _)]
  have h2 : s2.pv q = { s1.pv q with front := { (s1.pv q).front with live := [], waiting := [], cancels := [], arrived := [], decisions := [], asks := [] } } :=
    State.pv_modFront_same ..
  rw [h2]
  exact ⟨rfl, rfl⟩

theorem putRecord_rd_before (s : State) (q k : Nat) (ws : List W64) {f : Fld} (h : f.off < MB_EVENT_OFF) : ((putRecord s q ws).1.fn k).rd f = (s.fn k).rd f := by
  unfold putRecord
  extract_lets y
  split
  · rfl
  · split
    · exact raiseVec_rd ..
    · split
      · rfl
      · extract_lets s2
        have h2 : (s2.fn k).rd f = (s.fn k).rd f := by
          unfold s2
          split
          · exact setEvent_rd_before _ _ _ _ h
          · rfl
        exact h2

theorem endRequests_rd_before (s : State) (q status k : Nat) {f : Fld} (h : f.off < MB_EVENT_OFF) :
    ((endRequests s q status).fn k).rd f = (s.fn k).rd f := by
  unfold endRequests
  extract_lets y s1 s2
  have h1 : (s1.fn k).rd f = (s.fn k).rd f := by
    refine foldl_keep (fun t => (t.fn k).rd f) _ (fun t r => ?_) _ s
    extract_lets t1 t2
    have ht2 : t2.fns = t1.fns := by unfold t2; split <;> simp
    have hend : (unpin t2 q r.tag true).fns = (finish t q r status).1.fns := by rw [(by simp : (unpin t2 q r.tag true).fns = t2.fns), ht2]; simp [t1]
    rw [fn_of hend]
    exact putRecord_rd_before t q k _ h
  rw [fn_of (by simp : (((List.range 1024).filter _).foldl closeSlot s2).fns = s2.fns)]
  exact h1

-- a context that stops, a pavilion that is unloaded

def PvRun.stopped (r : PvRun) : PvRun := { r with startAt := none, pause := none, stopAt := none, drained := false }

def PvRun.unloaded (r : PvRun) : PvRun := { r with barriers := [], image := none, loaded := none, imageHash := [] }

theorem stopContext_changed (s : State) (q : Nat) : Changed q PvRun.stopped s (stopContext s q) := by
  unfold stopContext
  extract_lets s1 s2 s3 s4 s5
  have h3 : Changed q id s (commitDrop s3 (· == q)) := .of_pvs q (by simp [s3, s2, s1])
  have h4 : Changed q id s s4 := h3.after (.modFront _ q _)
  have h5 : Changed q PvRun.stopped s s5 := h4.after (.modRun s4 q PvRun.stopped)
  exact h5.andKept (by simp)

theorem freePvBarriers_changed (s : State) (q : Nat) : Changed q (fun r => { r with barriers := [] }) s (freePvBarriers s q) := by
  unfold freePvBarriers
  extract_lets mine
  have hfreed : Changed q id s (mine.foldl (fun s e => s.setBarrier e Barrier.reset) s) := .of_pvs q (foldl_keeps_pvs _ (fun _ _ => State.setBarrier_pvs ..) _ _)
  exact hfreed.after (.modRun _ q _)

theorem unload_changed (s : State) (q : Nat) : Changed q PvRun.unloaded s (unload s q) := by
  unfold unload
  extract_lets s1
  have h1 : Changed q id s s1 := .of_pvs q (foldl_keeps_pvs _ (fun _ _ => State.modTile_pvs ..) _ _)
  exact (h1.after (freePvBarriers_changed s1 q)).trans (.modRun _ q (fun r => { r with image := none, loaded := none, imageHash := [] }))

theorem resetClusters_pvs (s : State) (l : List Nat) : (l.foldl resetCluster s).pvs = s.pvs := foldl_keeps_pvs _ (fun s k => by simp) l s

theorem repairUnits_pvs (s : State) (q : Nat) : (repairUnits s q).pvs = s.pvs := by simp

theorem resetPavilion_changed (s : State) (q : Nat) : Changed q PvRun.unloaded s (resetPavilion s q) := by
  have hcleared : Changed q id s ((s.pvClusters q).foldl resetCluster (repairUnits s q)) := .of_pvs q ((resetClusters_pvs ..).trans (repairUnits_pvs s q))
  have hunloaded := hcleared.after (unload_changed _ q)
  exact (hunloaded.trans (.modFront _ q (fun x => { x with pool := x.pool.map Pool.emptied }))).andKept rfl

theorem collectDump_pvs (s : State) (cause action pv tile : Nat) (clusters : List Nat) : (collectDump s cause action pv tile clusters).pvs = s.pvs := by simp

theorem escalatePavilion_changed (s : State) (q tile : Nat) : Changed q (PvRun.unloaded ∘ PvRun.stopped) s (escalatePavilion s q tile) :=
  ((Changed.of_pvs q (collectDump_pvs ..)).after (stopContext_changed _ q)).trans (resetPavilion_changed _ q)

theorem escalatePavilion_seq (s : State) (q tile : Nat) : (escalatePavilion s q tile).dumps.seq = s.dumps.seq + dumpsAdded s := by
  rw [← collectDump_seq s causeEscalation 2 q tile (s.pvClusters q)]
  unfold escalatePavilion
  generalize collectDump s causeEscalation 2 q tile (s.pvClusters q) = u
  simp

theorem enterState_changed (s : State) (q st : Nat) : Changed q (fun r => { r with st := st }) s (enterState s q st) :=
  (Changed.modRun s q _).andKept (enterState_pvs s q st)

theorem enterFaulted_changed (s : State) (q cause : Nat) :
    Changed q (fun r => { r with st := pvFaulted, cause := cause, abortTiles := [] }) s (enterFaulted s q cause) :=
  (Changed.modRun s q _).andKept (by simp [enterFaulted])

-- placing a cluster's part of an image

/-- What placing and reloading a cluster leaves as it is: all but the tiles and the Lodges. -/
structure Placed (s t : State) : Prop where
  pvs : t.pvs = s.pvs
  fns : t.fns = s.fns
  reg : t.reg = s.reg
  dumps : t.dumps = s.dumps
  gate : t.gate = s.gate
  mod : t.mod = s.mod
  shed : t.shed = s.shed
  rows : t.rows = s.rows
  idle : ∀ p, (s.tile p).seq.run = .idle → (t.tile p).seq.run = .idle

theorem Placed.refl (s : State) : Placed s s := ⟨rfl, rfl, rfl, rfl, rfl, rfl, rfl, rfl, fun _ h => h⟩

theorem Placed.trans {s t u : State} (h : Placed s t) (k : Placed t u) : Placed s u :=
  ⟨k.pvs.trans h.pvs, k.fns.trans h.fns, k.reg.trans h.reg, k.dumps.trans h.dumps, k.gate.trans h.gate, k.mod.trans h.mod, k.shed.trans h.shed,
    k.rows.trans h.rows, fun p hp => k.idle p (h.idle p hp)⟩

theorem Placed.foldl {α : Type} {f : State → α → State} (h : ∀ s x, Placed s (f s x)) (l : List α) (s : State) : Placed s (l.foldl f s) :=
  List.foldlRecOn (motive := Placed s) l f (.refl s) fun _ ht x _ => ht.trans (h _ x)

theorem modTile_idle {s : State} {p x : Nat} {f : Tile → Tile} (h : (f (s.tile p)).seq = (s.tile p).seq) (hx : (s.tile x).seq.run = .idle) :
    ((s.modTile p f).tile x).seq.run = .idle := by
  by_cases e : x = p
  · rw [e, State.tile_modTile_same, h, ← e]
    exact hx
  · rwa [State.tile_modTile_ne _ _ e]

theorem Placed.modTile (s : State) (p : Nat) {f : Tile → Tile} (h : ∀ t, (f t).seq = t.seq) : Placed s (s.modTile p f) :=
  ⟨rfl, rfl, rfl, rfl, rfl, rfl, rfl, rfl, fun _ hx => modTile_idle (h _) hx⟩

theorem Placed.setLodge (s : State) (k : Nat) (l : Lodge) : Placed s (s.setLodge k l) := ⟨rfl, rfl, rfl, rfl, rfl, rfl, rfl, rfl, fun _ h => h⟩

theorem Tile.configured_seq (l : List (Nat × W64)) (t : Tile) :
    (l.foldl (fun (x : Tile) r => x.setReg r.1 (merged (x.regW r.1) r.2 (w64 (rowVal rwTile r.1)) 0)) t).seq = t.seq :=
  List.foldlRecOn (motive := fun x : Tile => x.seq = t.seq) l _ rfl fun _ hx _ _ => hx

theorem placeTile_placed (s : State) (q : Nat) (i : Image) (t : Nat) : Placed s (placeTile s q i t) := .modTile s _ fun x => Tile.configured_seq (i.config t) x

theorem placeLodge_placed (s : State) (i : Image) (k : Nat) : Placed s (placeLodge s i k) := by
  refine .foldl (fun t x => ?_) _ s
  split
  · split
    · exact (Placed.setLodge t k _).trans (.setLodge _ k _)
    · exact .refl t
  · exact .refl t

theorem placeCluster_placed (s : State) (q : Nat) (i : Image) (k : Nat) : Placed s (placeCluster s q i k) :=
  (Placed.foldl (fun s t => placeTile_placed s q i t) _ s).trans (placeLodge_placed _ i k)

theorem reloadTile_placed (s : State) (q t : Nat) : Placed s (reloadTile s q t) := by
  unfold reloadTile
  split
  · exact .modTile s _ fun _ => rfl
  · exact .refl s

theorem reloadCluster_placed (s : State) (q k : Nat) : Placed s (reloadCluster s q k) := by
  have htiles : Placed s ((tilesOf k).foldl (fun s t => reloadTile s q t) s) := .foldl (fun s t => reloadTile_placed s q t) _ s
  unfold reloadCluster
  extract_lets s1
  split
  · split
    · exact htiles.trans (placeCluster_placed s1 q _ k)
    · exact htiles
  · exact htiles

-- tiles that are wiped and tiles that stop

/-- A tile whose Terrace and scratchpad are empty and whose Sequencer is idle. -/
structure Tile.Blank (t : Tile) : Prop where
  sp : t.sp = []
  tr : t.tr = []
  idle : t.seq.run = .idle

theorem sendWord_tiles (s : State) (ports : List Nat) (type low : Nat) (c1 : W64) : (sendWord s ports type low c1).tiles = s.tiles := by simp

/-- Closing a receive end leaves the other tiles as they are, and the tile's own Sequencer. -/
theorem closeRecv_tile (s : State) (p n x : Nat) : (x ≠ p → (closeRecv s p n).tile x = s.tile x) ∧ ((closeRecv s p n).tile p).seq = (s.tile p).seq := by
  unfold closeRecv
  extract_lets t s1 src chan
  have h1 : (x ≠ p → s1.tile x = s.tile x) ∧ (s1.tile p).seq = (s.tile p).seq :=
    ⟨fun h => State.tile_setTile_ne _ _ h, by rw [State.tile_setTile_same]; rfl⟩
  split
  · split
    · split
      · simpa only [tile_of (sendWord_tiles ..)] using h1
      · exact h1
    · exact h1
  · exact ⟨fun _ => rfl, rfl⟩

theorem closeChannels_tile (s : State) (p x : Nat) :
    (x ≠ p → (closeChannels s p).tile x = s.tile x) ∧ ((closeChannels s p).tile p).seq.run = (s.tile p).seq.run := by
  have hrecv (l : List Nat) : (x ≠ p → (l.foldl (fun s n => closeRecv s p n) s).tile x = s.tile x)
      ∧ ((l.foldl (fun s n => closeRecv s p n) s).tile p).seq = (s.tile p).seq :=
    List.foldlRecOn (motive := fun u : State => (x ≠ p → u.tile x = s.tile x) ∧ (u.tile p).seq = (s.tile p).seq) l _ ⟨fun _ => rfl, rfl⟩ fun u hu n _ =>
      ⟨fun hx => ((closeRecv_tile u p n x).1 hx).trans (hu.1 hx), (closeRecv_tile u p n x).2.trans hu.2⟩
  have hsend (l : List Nat) (t : Tile) : (l.foldl closeSend t).seq = t.seq :=
    List.foldlRecOn (motive := fun u : Tile => u.seq = t.seq) l _ rfl fun u hu n _ => by
      refine Eq.trans ?_ hu
      unfold closeSend
      split <;> rfl
  unfold closeChannels
  extract_lets s1 t
  refine ⟨fun hx => (State.tile_setTile_ne _ _ hx).trans ((hrecv _).1 hx), ?_⟩
  have hseq : t.seq = (s.tile p).seq := (hsend _ _).trans (hrecv _).2
  rw [State.tile_setTile_same, ← hseq]

theorem withdrawHold_tile (s : State) (p x : Nat) :
    (x ≠ p → (withdrawHold s p).tile x = s.tile x) ∧ ((withdrawHold s p).tile p).seq.run = (s.tile p).seq.run := by
  cases h : (s.tile p).seq.holdSeq with
  | none =>
    have hsame : withdrawHold s p = s := by
      unfold withdrawHold
      rw [h]
    rw [hsame]
    exact ⟨fun _ => rfl, rfl⟩
  | some n =>
    obtain ⟨htile, -, -⟩ := withdrawHold_facts h
    rw [htile, htile]
    exact ⟨fun hx => State.tile_modTile_ne _ _ hx, by rw [State.modSeq, State.tile_modTile_same]; rfl⟩

theorem wipeTile_same (s : State) (p : Nat) : ((wipeTile s p).tile p).Blank := by
  have h : (wipeTile s p).tile p = ((closeChannels (withdrawHold s p) p).tile p).wiped := State.tile_modTile_same ..
  rw [h]
  exact ⟨rfl, rfl, rfl⟩

theorem wipeTile_ne (s : State) {p x : Nat} (h : x ≠ p) : (wipeTile s p).tile x = s.tile x :=
  (State.tile_modTile_ne _ _ h).trans (((closeChannels_tile _ p x).1 h).trans ((withdrawHold_tile s p x).1 h))

theorem wipeTile_blank {s : State} {x : Nat} (p : Nat) (h : (s.tile x).Blank) : ((wipeTile s p).tile x).Blank := by
  by_cases e : x = p
  · rw [e]
    exact wipeTile_same s p
  · rwa [wipeTile_ne s e]

theorem wipeTile_idle {s : State} {x : Nat} (p : Nat) (h : (s.tile x).seq.run = .idle) : ((wipeTile s p).tile x).seq.run = .idle := by
  by_cases e : x = p
  · rw [e]
    exact (wipeTile_same s p).idle
  · rwa [wipeTile_ne s e]

theorem resetLodge_tiles (s : State) (k : Nat) : (resetLodge s k).tiles = s.tiles := rfl

theorem resetCluster_wiped {s : State} {k p : Nat} (h : p ∈ s.clusterTiles k) : ((resetCluster s k).tile p).Blank := by
  unfold resetCluster
  rw [tile_of (resetLodge_tiles _ k)]
  exact foldl_establishes (P := fun t => (t.tile p).Blank) h (fun t => wipeTile_same t p) (fun t x ht => wipeTile_blank x ht) s

theorem resetCluster_blank {s : State} {p : Nat} (k : Nat) (h : (s.tile p).Blank) : ((resetCluster s k).tile p).Blank := by
  unfold resetCluster
  rw [tile_of (resetLodge_tiles _ k)]
  exact List.foldlRecOn (motive := fun t : State => (t.tile p).Blank) _ wipeTile h fun t ht x _ => wipeTile_blank x ht

theorem resetCluster_idle {s : State} {p : Nat} (k : Nat) (h : (s.tile p).seq.run = .idle) : ((resetCluster s k).tile p).seq.run = .idle := by
  unfold resetCluster
  rw [tile_of (resetLodge_tiles _ k)]
  exact List.foldlRecOn (motive := fun t : State => (t.tile p).seq.run = .idle) _ wipeTile h fun t ht x _ => wipeTile_idle x ht

theorem resetCluster_rows (s : State) (k : Nat) : (resetCluster s k).rows = s.rows := by simp

theorem clusterTiles_of {s t : State} (h : t.rows = s.rows) (k : Nat) : t.clusterTiles k = s.clusterTiles k := by
  unfold State.clusterTiles State.phys State.colOf
  rw [h]

theorem resetClusters_wiped {s : State} {l : List Nat} {p : Nat} (h : p ∈ l.flatMap s.clusterTiles) : ((l.foldl resetCluster s).tile p).Blank := by
  induction l generalizing s with
  | nil => exact absurd h (by simp)
  | cons k l ih =>
    rw [List.flatMap_cons, List.mem_append] at h
    have hsame : (resetCluster s k).clusterTiles = s.clusterTiles := funext (clusterTiles_of (resetCluster_rows s k))
    rcases h with h | h
    · exact List.foldlRecOn (motive := fun t : State => (t.tile p).Blank) l resetCluster (resetCluster_wiped h) fun t ht k _ => resetCluster_blank k ht
    · exact ih (by rwa [hsame])

theorem freePvBarriers_tiles (s : State) (q : Nat) : (freePvBarriers s q).tiles = s.tiles := by simp

theorem unload_blank {s : State} {p : Nat} (q : Nat) (h : (s.tile p).Blank) : ((unload s q).tile p).Blank := by
  unfold unload
  extract_lets s1
  have h1 : (s1.tile p).Blank := List.foldlRecOn (motive := fun t : State => (t.tile p).Blank) _ _ h fun t ht x _ => by
    by_cases e : p = x
    · rw [e, State.tile_modTile_same]
      rw [e] at ht
      exact ⟨ht.sp, rfl, ht.idle⟩
    · rwa [State.tile_modTile_ne _ _ e]
  exact (tile_of (freePvBarriers_tiles s1 q) p) ▸ h1

theorem repairUnits_rows (s : State) (q : Nat) : (repairUnits s q).rows = s.rows := by simp

/-- A pavilion reset wipes every tile of the pavilion. -/
theorem resetPavilion_wiped {s : State} {q p : Nat} (h : p ∈ s.pvTiles q) : ((resetPavilion s q).tile p).Blank := by
  have hsame : (repairUnits s q).clusterTiles = s.clusterTiles := funext (clusterTiles_of (repairUnits_rows s q))
  exact unload_blank q (resetClusters_wiped (by rw [hsame]; exact h))

-- a tile that is idle stays idle while its context stops

theorem stopTile_idle {s : State} {x : Nat} (p : Nat) (h : (s.tile x).seq.run = .idle) : ((stopTile s p).tile x).seq.run = .idle := by
  obtain ⟨hne, hrun⟩ := withdrawHold_tile s p x
  unfold stopTile
  by_cases e : x = p
  · subst e
    obtain ⟨-, -, hseq, -⟩ := Tile.stopped_facts ((withdrawHold s x).tile x)
    rw [State.tile_modTile_same, hseq]
    dsimp only
    split
    · rfl
    · exact hrun.trans h
  · rw [State.tile_modTile_ne _ _ e, hne e]
    exact h

theorem closeChannels_idle {s : State} {x : Nat} (p : Nat) (h : (s.tile x).seq.run = .idle) : ((closeChannels s p).tile x).seq.run = .idle := by
  obtain ⟨hne, hrun⟩ := closeChannels_tile s p x
  by_cases e : x = p
  · subst e
    exact hrun.trans h
  · rw [hne e]
    exact h

theorem sendOrphans_tiles (s : State) (q : Nat) : (sendOrphans s q).tiles = s.tiles := by simp

theorem stopContext_idle {s : State} {x : Nat} (q : Nat) (h : (s.tile x).seq.run = .idle) : ((stopContext s q).tile x).seq.run = .idle := by
  unfold stopContext
  extract_lets s1 s2 s3 s4 s5
  have h1 : (s1.tile x).seq.run = .idle := List.foldlRecOn (motive := fun t : State => (t.tile x).seq.run = .idle) _ _ h fun t ht p _ => stopTile_idle p ht
  have h2 : (s2.tile x).seq.run = .idle := by rwa [tile_of (foldl_keeps_tiles _ (fun s k => by simp) _ _)]
  have h3 : (s3.tile x).seq.run = .idle := List.foldlRecOn (motive := fun t : State => (t.tile x).seq.run = .idle) _ _ h2 fun t ht p _ => closeChannels_idle p ht
  rw [tile_of (sendOrphans_tiles s5 q)]
  exact h3

theorem resetPavilion_idle {s : State} {x : Nat} (q : Nat) (h : (s.tile x).seq.run = .idle) : ((resetPavilion s q).tile x).seq.run = .idle := by
  have hrepair : (repairUnits s q).tiles = s.tiles := by simp
  have hcleared : (((s.pvClusters q).foldl resetCluster (repairUnits s q)).tile x).seq.run = .idle :=
    List.foldlRecOn (motive := fun t : State => (t.tile x).seq.run = .idle) _ resetCluster (by rwa [tile_of hrepair]) fun t ht k _ => resetCluster_idle k ht
  have hunload (t : State) (ht : (t.tile x).seq.run = .idle) : ((unload t q).tile x).seq.run = .idle := by
    unfold unload
    extract_lets s1
    have h1 : (s1.tile x).seq.run = .idle := List.foldlRecOn (motive := fun t : State => (t.tile x).seq.run = .idle) _ _ ht fun u hu p _ =>
      modTile_idle (by rfl) hu
    exact (tile_of (freePvBarriers_tiles s1 q) x) ▸ h1
  exact hunload _ hcleared

theorem collectDump_tiles (s : State) (cause action pv tile : Nat) (clusters : List Nat) : (collectDump s cause action pv tile clusters).tiles = s.tiles := by simp

theorem escalatePavilion_idle {s : State} {x : Nat} (q tile : Nat) (h : (s.tile x).seq.run = .idle) :
    ((escalatePavilion s q tile).tile x).seq.run = .idle :=
  resetPavilion_idle q (stopContext_idle q (by rwa [tile_of (collectDump_tiles ..)]))

-- what asynchronous ends leave of a pavilion and of a mailbox

theorem endPvFlights_res (s : State) (q : Nat) : ((endPvFlights s q).pv q).res = (s.pv q).res := by
  unfold endPvFlights endLoad
  extract_lets staging s1
  have hstaging : (staging.foldl (fun s n => endStaging s n stFault 0) s).pvs = s.pvs := foldl_keeps_pvs _ (fun s n => by simp) _ _
  have h1 : (s1.pv q).res = (s.pv q).res := by
    unfold s1
    split
    · rw [pv_of hstaging]
    · rw [endAsync_pv, State.pv_modRun_same, pv_of hstaging]
  rw [pv_of (foldl_keeps_pvs _ (fun s x => by simp) _ _), h1]

theorem setEvent_latched (s : State) (n b k : Nat) : ((setEvent s n b).fn k).latched = (s.fn k).latched := by
  by_cases e : k = n
  · subst e
    unfold setEvent
    extract_lets m m1
    obtain ⟨l, hl⟩ := raiseVec_fn (s.setFn k m1) k 0
    rw [hl, State.fn_setFn_same]
    rfl
  · rw [setEvent_fn_ne _ _ _ e]

theorem endAsync_latched (s : State) (n ticket status detail value k : Nat) : ((endAsync s n ticket status detail value).fn k).latched = (s.fn k).latched := by
  have hset (m : Fn) (hm : m.latched = (s.fn n).latched) : ((s.setFn n m).fn k).latched = (s.fn k).latched := by
    by_cases e : k = n
    · subst e
      rw [State.fn_setFn_same, hm]
    · rw [State.fn_setFn_ne _ _ e]
  unfold endAsync
  extract_lets m m1
  split
  · rfl
  · split
    · exact hset _ rfl
    · exact (setEvent_latched ..).trans (hset _ rfl)

theorem endStaging_latched (s : State) (n status detail k : Nat) : ((endStaging s n status detail).fn k).latched = (s.fn k).latched := by
  unfold endStaging
  split
  · rfl
  · extract_lets s1
    have h1 : s1.fn k = s.fn k := by unfold s1; split <;> rfl
    rw [endAsync_latched, h1]

theorem endLoad_latched (s : State) (q status detail k : Nat) : ((endLoad s q status detail).fn k).latched = (s.fn k).latched := by
  unfold endLoad
  split
  · rfl
  · exact endAsync_latched ..

theorem endPvFlights_latched (s : State) (q k : Nat) : ((endPvFlights s q).fn k).latched = (s.fn k).latched := by
  unfold endPvFlights
  extract_lets staging s1
  have h1 : (s1.fn k).latched = (s.fn k).latched :=
    (endLoad_latched ..).trans (foldl_keep (fun t => (t.fn k).latched) _ (fun t n => endStaging_latched t n stFault 0 k) ..)
  exact (foldl_keep (fun t => (t.fn k).latched) _ (fun t x => endAsync_latched ..) ..).trans h1

-- PV_CREATE

section
variable {s : State} {f : Func} {cmd : W64} {a : SMap W64} (h : Submitted s f 0x10 cmd a)
  (hf : faulty a [0x1FFFFFFFFFFFFF, 0x13F01FFFFFF] (createBad s a) = none)
include h hf

theorem pvCreate_exists (hq : pvExists s (bits cmd 9 8) = true) : pvCreate s f = answer s (fnNum f) stStateConflict 0 0 [] := by
  unfold pvCreate
  extract_lets n
  rw [serve_ok h _ anyArgs rfl]
  simp only [hf]
  exact if_pos hq

theorem pvCreate_lacks {w : Nat} (hq : pvExists s (bits cmd 9 8) = false) (hroom : flightsFull s (fnNum f) = false) (hidle : pvBusy s (bits cmd 9 8) = false)
    (hlacks : createLacks s (wanted a) = some w) : pvCreate s f = answer s (fnNum f) stNoResource w 0 [] := by
  unfold pvCreate
  extract_lets n
  rw [serve_ok h _ anyArgs rfl]
  simp only [hf, hlacks]
  exact (if_neg (by simp [hq])).trans (if_neg (by simp [n, hroom, hidle]))

theorem pvCreate_free (hq : pvExists s (bits cmd 9 8) = false) (hroom : flightsFull s (fnNum f) = false) (hidle : pvBusy s (bits cmd 9 8) = false)
    (hlacks : createLacks s (wanted a) = none) : pvCreate s f = endAsync (createPv (accept s (fnNum f) 0x10 (some (bits cmd 9 8)) 1000 [])
      (bits cmd 9 8) (wanted a)) (fnNum f) (ticketOf s (fnNum f)) stDone 0 0 := by
  unfold pvCreate
  extract_lets n
  rw [serve_ok h _ anyArgs rfl]
  simp only [hf, hlacks]
  exact (if_neg (by simp [hq])).trans (if_neg (by simp [n, hroom, hidle]))

end

/-- A pavilion that is created: its resources, EMPTY, and its CFG word; no other pavilion and no mailbox word below the events changes. -/
theorem createPv_facts (s : State) (q : Nat) (r : PvRes) :
    (createPv s q r).pv q = { Pv.reset with res := r, run := { Pv.reset.run with st := pvEmpty } } ∧ (∀ x, x ≠ q → (createPv s q r).pv x = s.pv x)
      ∧ (createPv s q r).regW (OY_PV_CFG_OFF q) = pvCfg r
      ∧ (∀ (k : Nat) (f : Fld), f.off < MB_EVENT_OFF → ((createPv s q r).fn k).rd f = (s.fn k).rd f) := by
  unfold createPv
  extract_lets s1 s2 s3
  have h1 : s1.pvs = s.pvs ∧ s1.fns = s.fns := ⟨resetClusters_pvs .., foldl_keeps_fns _ (fun s k => by simp) _ _⟩
  have h3 : s3.pvs = s.pvs ∧ s3.fns = s.fns := by simpa [s3, s2] using h1
  have hcfg : s3.regW (OY_PV_CFG_OFF q) = pvCfg r := State.regW_setReg_same ..
  clear_value s3
  refine ⟨?_, fun x hx => ?_, ?_, fun k f hoff => ?_⟩
  · rw [enterState_pv_same, State.pv_setPv_same]
  · rw [enterState_pv_ne _ _ hx, State.pv_setPv_ne _ _ hx, pv_of h3.1]
  · obtain ⟨-, -, -, -, -, -, -, hreg, -⟩ := enterState_keeps (s3.setPv q { Pv.reset with res := r }) q pvEmpty
    rw [State.regW, hreg]
    exact hcfg
  · rw [enterState_rd_before _ _ _ _ hoff]
    exact congrArg (fun m : Fn => m.rd f) (fn_of h3.2 k)

-- PV_DESTROY

section
variable {s : State} {f : Func} {cmd : W64} {a : SMap W64} (h : Submitted s f 0x11 cmd a) (hq : pvExists s (bits cmd 9 8) = true)
  (hf : faulty a [] (fun _ => false) = none)
include h hq hf

theorem pvDestroy_busy (hst : (s.pv (bits cmd 9 8)).run.st ≠ pvEmpty) : pvDestroy s f = answer s (fnNum f) stStateConflict 0 0 [] := by
  unfold pvDestroy
  extract_lets n
  rw [serve_ok h _ anyArgs rfl]
  simp only [hf, hq]
  exact if_neg hst

theorem pvDestroy_empty (hst : (s.pv (bits cmd 9 8)).run.st = pvEmpty) :
    pvDestroy s f = answer (destroyPv s (bits cmd 9 8)) (fnNum f) stDone 0 0 [] := by
  unfold pvDestroy
  extract_lets n
  rw [serve_ok h _ anyArgs rfl]
  simp only [hf, hq]
  exact if_pos hst

end

theorem SMap.mem_of_look? {α : Type} {m : SMap α} {k : Nat} {v : α} (h : SMap.look? m k = some v) : (k, v) ∈ m := by
  induction m with
  | nil => exact absurd h (by simp [SMap.look?])
  | cons e m ih =>
    unfold SMap.look? at h
    split at h
    · next hk =>
      obtain rfl := Option.some.inj h
      rw [← hk]
      exact List.mem_cons_self ..
    · exact List.mem_cons_of_mem _ (ih h)

/-- Slices whose numbers are dropped are gone, and the others are as they were. -/
theorem dropSlices_slice? (s : State) (l : List Nat) (n : Nat) : (l.foldl (fun s n => s.dropSlice n) s).slice? n = if n ∈ l then none else s.slice? n := by
  induction l generalizing s with
  | nil => rfl
  | cons k l ih =>
    rw [List.foldl_cons, ih]
    by_cases hn : n ∈ l
    · rw [if_pos hn, if_pos (List.mem_cons_of_mem _ hn)]
    · rw [if_neg hn]
      by_cases hk : n = k
      · rw [if_pos (List.mem_cons.2 (.inl hk)), hk]
        exact SMap.look?_del_same ..
      · rw [if_neg (by simp [hk, hn])]
        exact SMap.look?_del_ne _ hk

theorem dropSlices_pvs (s : State) (l : List Nat) : (l.foldl (fun s n => s.dropSlice n) s).pvs = s.pvs := by
  induction l generalizing s with
  | nil => rfl
  | cons n l ih => exact ih (s.dropSlice n)

theorem regW_of {s t : State} (h : s.reg = t.reg) (off : Nat) : s.regW off = t.regW off := by
  unfold State.regW
  rw [h]

theorem slice?_of {s t : State} (h : s.die = t.die) (n : Nat) : s.slice? n = t.slice? n := by
  unfold State.slice?
  rw [h]

theorem endPvFlights_others (s : State) {q x : Nat} (h : x ≠ q) : (endPvFlights s q).pv x = s.pv x := (endPvFlights_service s q).others x h

/-- A pavilion that is destroyed leaves nothing of its own behind. -/
theorem destroyPv_facts (s : State) (q : Nat) : (destroyPv s q).pv q = Pv.reset ∧ (∀ x, x ≠ q → (destroyPv s q).pv x = s.pv x)
    ∧ (destroyPv s q).regW (OY_PV_CFG_OFF q) = 0 ∧ ∀ n x, (destroyPv s q).slice? n = some x → x.pv ≠ q := by
  unfold destroyPv
  extract_lets s1 mine s2 s3 s4
  have hs1 (x : Nat) (hx : x ≠ q) : s1.pv x = s.pv x := (pv_of (by simp [s1]) x).trans (endPvFlights_others s hx)
  have hs2 (x : Nat) : s2.pv x = s1.pv x := pv_of (dropSlices_pvs s1 mine) x
  have hs3 (x : Nat) (hx : x ≠ q) : s3.pv x = s2.pv x := (pv_of (foldl_keeps_pvs _ (fun s n => freeSalt_pvs s n) _ _) x).trans ((freePvBarriers_changed s2 q).others x hx)
  have hs4 (x : Nat) : s4.pv x = s3.pv x := pv_of (by simp [s4]) x
  have hslices : s4.die.slices = s2.die.slices := by simp [s4, s3]
  have hgone (n : Nat) (x : Slice) (hx : s4.slice? n = some x) : x.pv ≠ q := by
    rw [State.slice?, hslices, ← State.slice?, dropSlices_slice?] at hx
    split at hx
    · exact absurd hx (by simp)
    · next hn =>
      intro hpv
      exact hn (List.mem_map.2 ⟨(n, x), List.mem_filter.2 ⟨SMap.mem_of_look? hx, by simp [hpv]⟩, rfl⟩)
  have hcfg : s4.regW (OY_PV_CFG_OFF q) = 0 := State.regW_setReg_same ..
  clear_value s4
  obtain ⟨-, -, -, -, -, -, -, hreg, -, -, -, -, hdie⟩ := enterState_keeps s4 q pvAbsent
  have hothers (x : Nat) (hx : x ≠ q) : (enterState s4 q pvAbsent).pv x = s4.pv x := enterState_pv_ne s4 _ hx
  generalize enterState s4 q pvAbsent = u at *
  refine ⟨State.pv_setPv_same .., fun x hx => ?_, ?_, fun n x hx => hgone n x ?_⟩
  · rw [State.pv_setPv_ne _ _ hx, hothers x hx, hs4, hs3 x hx, hs2, hs1 x hx]
  · rw [← hcfg, ← regW_of hreg]
    rfl
  · rw [← slice?_of hdie]
    exact hx

-- PV_RESET

theorem pvReset_eq {s : State} {f : Func} {cmd : W64} {a : SMap W64} {q : Nat} {units : List Nat} (h : Submitted s f 0x12 cmd a)
    (hq : namedPv s f cmd = some q) (hunit : arg a 0 1 0 ∈ units)
    (hf : faulty a [0xF03] (fun w => w == 0 && (arg a 0 1 0 == 3 || (arg a 0 1 0 == unitCluster && !(s.pv q).res.clusters.testBit (arg a 0 11 8)))) = none)
    (hst : (s.pv q).run.st ∈ notResetting) (hroom : flightsFull s (fnNum f) = false) :
    pvReset s f units = beginReset (accept (endPvFlights s q) (fnNum f) 0x12 (some q) (resetLimit (arg a 0 1 0)) []) q (arg a 0 1 0) (arg a 0 11 8) (fnNum f)
      (ticketOf (endPvFlights s q) (fnNum f)) := by
  unfold pvReset
  extract_lets n
  rw [servePv_ok h hq _ (by simpa using hunit) _ _ _ _ hf hst]
  exact if_neg (by simp [n, hroom])

theorem unload_front (s : State) (q : Nat) : ((unload s q).pv q).front = (s.pv q).front := by
  unfold unload freePvBarriers
  extract_lets s1 mine
  have h1 : s1.pvs = s.pvs := foldl_keeps_pvs _ (fun _ _ => State.modTile_pvs ..) _ _
  have hfreed : (mine.foldl (fun s e => s.setBarrier e Barrier.reset) s1).pvs = s1.pvs := foldl_keeps_pvs _ (fun _ _ => State.setBarrier_pvs ..) _ _
  rw [State.pv_modRun_same, State.pv_modRun_same, pv_of hfreed, pv_of h1]

theorem resetPavilion_queues (s : State) (q : Nat) : ((resetPavilion s q).pv q).front.live = (s.pv q).front.live
    ∧ ((resetPavilion s q).pv q).front.waiting = (s.pv q).front.waiting := by
  have hcleared : ((s.pvClusters q).foldl resetCluster (repairUnits s q)).pv q = s.pv q := pv_of ((resetClusters_pvs ..).trans (repairUnits_pvs s q)) q
  have hpool : (resetPavilion s q).pv q = ((unload ((s.pvClusters q).foldl resetCluster (repairUnits s q)) q).modPool q Pool.emptied).pv q := rfl
  rw [hpool, State.modPool, State.pv_modFront_same, unload_front, hcleared]
  exact ⟨rfl, rfl⟩

/-- What the unit of a reset leaves of its pavilion, of the mailboxes, the dumps and the Shed. -/
structure UnitRun (q : Nat) (s t : State) : Prop where
  others : ∀ x, x ≠ q → t.pv x = s.pv x
  st : (t.pv q).run.st = (s.pv q).run.st
  startAt : (t.pv q).run.startAt = (s.pv q).run.startAt
  pause : (t.pv q).run.pause = (s.pv q).run.pause
  live : (t.pv q).front.live = (s.pv q).front.live
  waiting : (t.pv q).front.waiting = (s.pv q).front.waiting
  fns : t.fns = s.fns
  dumps : t.dumps = s.dumps
  shed : t.shed = s.shed

theorem UnitRun.of_pvs {s t : State} (q : Nat) (h : t.pvs = s.pvs) (hfns : t.fns = s.fns) (hdumps : t.dumps = s.dumps) (hshed : t.shed = s.shed) :
    UnitRun q s t :=
  ⟨fun x _ => pv_of h x, by rw [pv_of h], by rw [pv_of h], by rw [pv_of h], by rw [pv_of h], by rw [pv_of h], hfns, hdumps, hshed⟩

theorem resetUnit_cluster_pvs (s : State) (q cluster : Nat) (had : Bool) : UnitRun q s (resetUnit s q unitCluster cluster had)
    ∧ (resetUnit s q unitCluster cluster had).rd OY_STATUS_SELF_REFRESH = 1 := by
  unfold resetUnit
  rw [if_pos rfl]
  extract_lets s1
  have h1 : s1.pvs = s.pvs ∧ s1.fns = s.fns ∧ s1.dumps = s.dumps ∧ s1.shed = s.shed := by simp [s1]
  have hrefresh : s1.rd OY_STATUS_SELF_REFRESH = 1 := State.rd_raise_same _ (by decide) (by decide)
  clear_value s1
  obtain ⟨hpvs, hfns, hdumps, hshed⟩ := h1
  split
  · have h := reloadCluster_placed s1 q cluster
    exact ⟨.of_pvs q (h.pvs.trans hpvs) (h.fns.trans hfns) (h.dumps.trans hdumps) (h.shed.trans hshed), (rd_reg h.reg _).trans hrefresh⟩
  · exact ⟨.of_pvs q hpvs hfns hdumps hshed, hrefresh⟩

theorem resetPavilion_unitRun (s : State) (q : Nat) : UnitRun q s (resetPavilion s q) := by
  obtain ⟨hothers, -, hrun⟩ := resetPavilion_changed s q
  obtain ⟨hlive, hwaiting⟩ := resetPavilion_queues s q
  obtain ⟨-, -, -, -, hdumps, hshed, -, hfns, -⟩ := resetPavilion_keeps s q
  exact ⟨hothers, by rw [hrun]; rfl, by rw [hrun]; rfl, by rw [hrun]; rfl, hlive, hwaiting, hfns, hdumps, hshed⟩

theorem resetUnit_pavilion (s : State) (q cluster : Nat) (had : Bool) :
    resetUnit s q unitPavilion cluster had = (resetPavilion s q).raise OY_STATUS_SELF_REFRESH := by
  unfold resetUnit
  rw [if_neg (by decide), if_pos rfl]

theorem resetUnit_abort (s : State) (q cluster : Nat) (had : Bool) : resetUnit s q unitAbort cluster had = s := by
  unfold resetUnit
  rw [if_neg (by decide), if_neg (by decide)]

theorem UnitRun.refl (q : Nat) (s : State) : UnitRun q s s := .of_pvs q rfl rfl rfl rfl

theorem UnitRun.raise {q : Nat} {s t : State} (h : UnitRun q s t) (f : Fld) : UnitRun q s (t.raise f) := ⟨h.others, h.st, h.startAt, h.pause, h.live, h.waiting, h.fns, h.dumps, h.shed⟩

/-- A reset's unit: what it leaves, the stacks in self-refresh but for an abort, and the tiles of the pavilion wiped by a pavilion reset. -/
theorem resetUnit_facts (s : State) (q cluster : Nat) (had : Bool) {unit : Nat} (hunit : unit < 3) : UnitRun q s (resetUnit s q unit cluster had)
    ∧ (unit ≠ 0 → (resetUnit s q unit cluster had).rd OY_STATUS_SELF_REFRESH = 1)
    ∧ (unit = 2 → ∀ p ∈ s.pvTiles q, ((resetUnit s q unit cluster had).tile p).Blank) := by
  obtain rfl | rfl | rfl : unit = unitAbort ∨ unit = unitCluster ∨ unit = unitPavilion := by unfold unitAbort unitCluster unitPavilion; omega
  · rw [resetUnit_abort]
    exact ⟨.refl q s, fun h => absurd rfl h, fun h => absurd h (by decide)⟩
  · obtain ⟨hrun, hrefresh⟩ := resetUnit_cluster_pvs s q cluster had
    exact ⟨hrun, fun _ => hrefresh, fun h => absurd h (by decide)⟩
  · rw [resetUnit_pavilion]
    exact ⟨(resetPavilion_unitRun s q).raise _, fun _ => State.rd_raise_same _ (by decide) (by decide), fun _ p hp => resetPavilion_wiped hp⟩

/-- A PV_RESET once it runs (R347). -/
structure Resetting (q unit cluster n t : Nat) (s u : State) : Prop where
  st : (u.pv q).run.st = pvResetting
  live : (u.pv q).front.live = []
  waiting : (u.pv q).front.waiting = []
  startAt : (u.pv q).run.startAt = none
  pause : (u.pv q).run.pause = none
  job : ∃ j, (u.pv q).run.reset = some j ∧ j.fn = n ∧ j.unit = unit
  mailbox : ∀ k f, f.off < MB_EVENT_OFF → (u.fn k).rd f = (s.fn k).rd f
  seq : u.dumps.seq = s.dumps.seq + dumpsAdded s
  wiped : unit = 2 → ∀ p ∈ s.pvTiles q, (u.tile p).Blank
  refresh : unit ≠ 0 → u.rd OY_STATUS_SELF_REFRESH = 1
  others : ∀ x, x ≠ q → (u.pv x).run = (s.pv x).run
  shed : u.shed = s.shed

theorem pvTiles_of {s t : State} {q : Nat} (hres : (t.pv q).res = (s.pv q).res) (hrows : t.rows = s.rows) : t.pvTiles q = s.pvTiles q := by
  unfold State.pvTiles State.pvClusters
  rw [hres, funext (clusterTiles_of hrows)]

theorem beginReset_resetting (s : State) (q cluster n t : Nat) {unit : Nat} (hunit : unit < 3) : Resetting q unit cluster n t s (beginReset s q unit cluster n t) := by
  unfold beginReset
  extract_lets had s1 s2 s3 s4
  have h1 : s1.pvs = s.pvs ∧ s1.fns = s.fns ∧ s1.shed = s.shed ∧ s1.rows = s.rows := by simp [s1]
  have hseq1 : s1.dumps.seq = s.dumps.seq + dumpsAdded s := collectDump_seq ..
  clear_value s1
  obtain ⟨hpvs1, hfns1, hshed1, hrows1⟩ := h1
  have h2 : Changed q (fun r => { r with st := pvResetting }) s1 s2 := (enterState_changed s1 q pvResetting).trans (.modFront _ q (fun f => { f with store := [] }))
  have hrest2 : s2.dumps = s1.dumps ∧ s2.shed = s1.shed ∧ s2.rows = s1.rows := by simp [s2]
  have hfn2 (k : Nat) (f : Fld) (hoff : f.off < MB_EVENT_OFF) : (s2.fn k).rd f = (s1.fn k).rd f := enterState_rd_before s1 q pvResetting k hoff
  clear_value s2
  have h3 := (stopContext_changed s2 q).trans (endRequests_changed (stopContext s2 q) q stFault)
  have hrest3 : s3.dumps = s2.dumps ∧ s3.shed = s2.shed ∧ s3.rows = s2.rows := by simp [s3]
  have hfn3 (k : Nat) (f : Fld) (hoff : f.off < MB_EVENT_OFF) : (s3.fn k).rd f = (s2.fn k).rd f :=
    (endRequests_rd_before _ q stFault k hoff).trans (congrArg (fun m : Fn => m.rd f) (fn_of (by simp) k))
  obtain ⟨hlive3, hwaiting3⟩ := endRequests_queues (stopContext s2 q) q stFault
  have h3 : Changed q (id ∘ PvRun.stopped) s2 s3 := h3
  have hs3 : s3 = endRequests (stopContext s2 q) q stFault := rfl
  rw [← hs3] at hlive3 hwaiting3
  clear hs3
  clear_value s3
  obtain ⟨h4, hrefresh4, hwiped4⟩ := resetUnit_facts s3 q cluster had hunit
  have h4 : UnitRun q s3 s4 := h4
  have hrefresh4 : unit ≠ 0 → s4.rd OY_STATUS_SELF_REFRESH = 1 := hrefresh4
  have hwiped4 : unit = 2 → ∀ p ∈ s3.pvTiles q, (s4.tile p).Blank := hwiped4
  clear_value s4
  have hrun : (s3.pv q).run = (id ∘ PvRun.stopped) { (s1.pv q).run with st := pvResetting } := by rw [h3.run, h2.run]
  have htiles : s3.pvTiles q = s.pvTiles q :=
    pvTiles_of (h3.res.trans (h2.res.trans (by rw [pv_of hpvs1]))) (hrest3.2.2.trans (hrest2.2.2.trans hrows1))
  refine ⟨?_, ?_, ?_, ?_, ?_, ⟨{ fn := n, ticket := t, unit := unit, cluster := cluster, had := had }, by rw [State.pv_modRun_same], rfl, rfl⟩, fun k f hoff => ?_, ?_, fun hu p hp => hwiped4 hu p (by rwa [htiles]),
    hrefresh4, fun x hx => ?_, ?_⟩
  · rw [State.pv_modRun_same]; exact h4.st.trans (by rw [hrun]; rfl)
  · rw [State.pv_modRun_same]; exact h4.live.trans hlive3
  · rw [State.pv_modRun_same]; exact h4.waiting.trans hwaiting3
  · rw [State.pv_modRun_same]; exact h4.startAt.trans (by rw [hrun]; rfl)
  · rw [State.pv_modRun_same]; exact h4.pause.trans (by rw [hrun]; rfl)
  · exact (congrArg (fun m : Fn => m.rd f) (fn_of h4.fns k)).trans ((hfn3 k f hoff).trans ((hfn2 k f hoff).trans (congrArg (fun m : Fn => m.rd f) (fn_of hfns1 k))))
  · exact (congrArg Dumps.seq (h4.dumps.trans (hrest3.1.trans hrest2.1))).trans hseq1
  · rw [State.pv_modRun_ne _ _ hx, h4.others x hx, h3.others x hx, h2.others x hx, pv_of hpvs1]
  · exact h4.shed.trans (hrest3.2.1.trans (hrest2.2.1.trans hshed1))

-- the end of a reset

/-- The state in which the job of a reset is over. -/
def unitEnded (s : State) (q : Nat) (j : ResetJob) (chk : Check) : State :=
  endRefresh ((if j.reloads then noteReload s q chk else s).modRun q (fun r => { r with reset := none }))

theorem resetUnitEnd_idle {s : State} {q : Nat} (ok : Bool) (chk : Check) (h : (s.pv q).run.reset = none) : resetUnitEnd s q ok chk = s := by
  unfold resetUnitEnd
  rw [h]

theorem resetUnitEnd_done {s : State} {q : Nat} {j : ResetJob} {chk : Check} (h : (s.pv q).run.reset = some j) (hclean : (j.reloads && flagged chk) = false) :
    resetUnitEnd s q true chk = if j.unit = unitPavilion then enterState (endAsync (unitEnded s q j chk) j.fn j.ticket stDone 0 0) q pvEmpty
      else if j.had then enterState (endAsync (unitEnded s q j chk) j.fn j.ticket stDone 0 0) q pvLoaded
      else enterState (unload (endAsync (unitEnded s q j chk) j.fn j.ticket stDone 0 0) q) q pvEmpty := by
  unfold resetUnitEnd
  simp only [h]
  exact if_neg (by simp [hclean])

theorem resetUnitEnd_fault {s : State} {q : Nat} {j : ResetJob} {ok : Bool} {chk : Check} (h : (s.pv q).run.reset = some j)
    (hbad : (!ok || (j.reloads && flagged chk)) = true) :
    resetUnitEnd s q ok chk = failReset (endAsync (unitEnded s q j chk) j.fn j.ticket stFault 0 0) q j.unit := by
  unfold resetUnitEnd
  simp only [h]
  exact if_pos hbad

theorem unitEnded_facts (s : State) (q : Nat) (j : ResetJob) (chk : Check) : Changed q (fun r => { r with reset := none }) s (unitEnded s q j chk)
    ∧ (unitEnded s q j chk).gate = s.gate ∧ (unitEnded s q j chk).sun = s.sun ∧ (unitEnded s q j chk).dumps = s.dumps := by
  unfold unitEnded
  have hnoted : (if j.reloads then noteReload s q chk else s).pvs = s.pvs ∧ (if j.reloads then noteReload s q chk else s).gate = s.gate
      ∧ (if j.reloads then noteReload s q chk else s).sun = s.sun ∧ (if j.reloads then noteReload s q chk else s).dumps = s.dumps := by
    split <;> simp
  generalize (if j.reloads then noteReload s q chk else s) = u at *
  obtain ⟨hpvs, hgate, hsun, hdumps⟩ := hnoted
  refine ⟨((Changed.of_pvs q hpvs).after (.modRun u q _)).andKept (by simp), ?_, ?_, ?_⟩
  · simpa using hgate
  · simpa using hsun
  · simpa using hdumps

/-- With no other reset under way the stacks leave self-refresh (R272). -/
theorem unitEnded_refresh {s : State} {q : Nat} (j : ResetJob) (chk : Check) (h : ∀ x, x < 4 → x ≠ q → (s.pv x).run.reset = none) :
    (unitEnded s q j chk).rd OY_STATUS_SELF_REFRESH = 0 := by
  have hpvs : (if j.reloads then noteReload s q chk else s).pvs = s.pvs := by split <;> simp
  unfold unitEnded endRefresh
  generalize (if j.reloads then noteReload s q chk else s) = u at *
  have hnone (x : Nat) (hx : x < 4) : ((u.modRun q (fun r => { r with reset := none })).pv x).run.reset = none := by
    by_cases e : x = q
    · rw [e, State.pv_modRun_same]
    · rw [State.pv_modRun_ne _ _ e, pv_of hpvs]
      exact h x hx e
  rw [if_neg]
  · exact State.rd_wr_same _ OY_STATUS_SELF_REFRESH 0 (by decide) (by decide)
  · rw [Bool.not_eq_true, List.any_eq_false]
    intro x hx
    rw [hnone x (List.mem_range.1 hx)]
    decide

theorem endAsync_pvs (s : State) (n ticket status detail value : Nat) : (endAsync s n ticket status detail value).pvs = s.pvs := by simp

/-- A reset that fails: FAULTED, with one dump; a cluster's takes the placed image and the loaded slice with it. -/
theorem failReset_facts (s : State) (q unit : Nat) : (∀ x, x ≠ q → (failReset s q unit).pv x = s.pv x) ∧ ((failReset s q unit).pv q).run.st = pvFaulted
    ∧ ((failReset s q unit).pv q).run.reset = (s.pv q).run.reset ∧ (unit = 1 → ((failReset s q unit).pv q).run.loaded = none)
    ∧ (failReset s q unit).dumps.seq = s.dumps.seq + dumpsAdded s := by
  unfold failReset
  split
  · have h := (escalatePavilion_changed s q 0x1FF).trans (enterFaulted_changed _ q causeEscalation)
    have hseq : (escalatePavilion s q 0x1FF).dumps.seq = s.dumps.seq + dumpsAdded s := escalatePavilion_seq s q 0x1FF
    refine ⟨h.others, by rw [h.run]; rfl, by rw [h.run]; rfl, fun _ => by rw [h.run]; rfl, ?_⟩
    rw [(by simp : (enterFaulted (escalatePavilion s q 0x1FF) q causeEscalation).dumps = (escalatePavilion s q 0x1FF).dumps), hseq]
  · next hunit =>
    have h := (Changed.of_pvs q (collectDump_pvs s causeHost unit q 0x1FF (s.pvClusters q))).after (enterFaulted_changed _ q causeHost)
    refine ⟨h.others, by rw [h.run], by rw [h.run], fun hone => absurd hone hunit, ?_⟩
    rw [(by simp : (enterFaulted _ q causeHost).dumps = (collectDump s causeHost unit q 0x1FF (s.pvClusters q)).dumps), collectDump_seq]

-- an abort that leaves a tile busy

theorem mem_tilesOf (x : Nat) : x ∈ tilesOf (clusterOf x) := by
  unfold tilesOf clusterOf
  exact List.mem_map.2 ⟨4 * (x / 16 % 4) + x % 4, List.mem_range.2 (by omega), by omega⟩

theorem mem_clusterTiles {s : State} {p x : Nat} (h : s.phys x = p) : p ∈ s.clusterTiles (clusterOf x) := List.mem_map.2 ⟨x, mem_tilesOf x, h⟩

theorem abortEscalation_idle {s : State} {q p : Nat} {chk : Check}
    (h : p ∉ (s.pv q).run.abortTiles ∨ (s.tile p).seq.run = .idle ∨ s.sun.time < (s.pv q).run.abortAt + milli / 10) : abortEscalation s q p chk = s := by
  unfold abortEscalation
  rw [if_neg]
  intro hall
  simp only [Bool.and_eq_true, List.contains_iff_mem, bne_iff_ne, decide_eq_true_eq] at hall
  obtain ⟨⟨hmem, hbusy⟩, hdue⟩ := hall
  rcases h with h | h | h
  · exact h hmem
  · exact hbusy h
  · omega

/-- The cluster of a tile that an abort left busy, after its reset. -/
def clusterAborted (s : State) (q p k : Nat) : State := resetCluster (repairUnits (sendOrphans (collectDump s causeEscalation 1 q p [k]) q) q) k

theorem clusterAborted_facts (s : State) (q p k : Nat) : (clusterAborted s q p k).pvs = s.pvs ∧ (clusterAborted s q p k).fns = s.fns
    ∧ (clusterAborted s q p k).gate = s.gate ∧ (clusterAborted s q p k).dumps.seq = s.dumps.seq + dumpsAdded s
    ∧ ∀ x ∈ s.clusterTiles k, ((clusterAborted s q p k).tile x).Blank := by
  unfold clusterAborted
  have hkept : (collectDump s causeEscalation 1 q p [k]).pvs = s.pvs ∧ (collectDump s causeEscalation 1 q p [k]).fns = s.fns
      ∧ (collectDump s causeEscalation 1 q p [k]).gate = s.gate ∧ (collectDump s causeEscalation 1 q p [k]).rows = s.rows := by simp
  have hseq := collectDump_seq s causeEscalation 1 q p [k]
  generalize collectDump s causeEscalation 1 q p [k] = u at *
  obtain ⟨hpvs, hfns, hgate, hrows⟩ := hkept
  have hrows' : (repairUnits (sendOrphans u q) q).rows = s.rows := by simpa using hrows
  refine ⟨by simpa using hpvs, by simpa using hfns, by simpa using hgate, by simpa using hseq, fun x hx => resetCluster_wiped ?_⟩
  rwa [clusterTiles_of hrows']

/-- An abort's cluster reset takes its tiles off the list of those that the abort left busy. -/
def abortCleared (s : State) (k : Nat) (r : PvRun) : PvRun := { r with abortTiles := r.abortTiles.filter (fun x => !(s.clusterTiles k).contains x) }

section
variable {s : State} {q p x : Nat} {chk : Check} (hmem : p ∈ (s.pv q).run.abortTiles) (hbusy : (s.tile p).seq.run ≠ .idle)
  (hdue : (s.pv q).run.abortAt + milli / 10 ≤ s.sun.time) (hlog : s.logical p = some x)
include hmem hbusy hdue hlog

theorem abortEscalation_due : abortEscalation s q p chk = (if (s.pv q).run.loaded.isSome && (s.pv q).run.image.isSome then
      (if flagged chk then escalatePavilion (noteReload (reloadCluster (clusterAborted s q p (clusterOf x)) q (clusterOf x)) q chk) q 0x1FF
        else noteReload (reloadCluster (clusterAborted s q p (clusterOf x)) q (clusterOf x)) q chk)
      else clusterAborted s q p (clusterOf x)).modRun q (abortCleared s (clusterOf x)) := by
  unfold abortEscalation
  rw [if_pos (by simp [hmem, hbusy, hdue])]
  simp only [hlog]
  rfl

end

theorem abortCleared_tiles {s : State} {p k : Nat} (h : p ∈ s.clusterTiles k) (r : PvRun) : p ∉ (abortCleared s k r).abortTiles := by
  intro hmem
  have := (List.mem_filter.1 hmem).2
  simp [h] at this

/-- The reload of an aborted cluster, with what the stacks found in the slice. -/
theorem clusterReloaded_facts (s : State) (q p k : Nat) (chk : Check) :
    (noteReload (reloadCluster (clusterAborted s q p k) q k) q chk).pvs = s.pvs ∧ (noteReload (reloadCluster (clusterAborted s q p k) q k) q chk).fns = s.fns
      ∧ (noteReload (reloadCluster (clusterAborted s q p k) q k) q chk).gate = s.gate
      ∧ (noteReload (reloadCluster (clusterAborted s q p k) q k) q chk).dumps.seq = s.dumps.seq + dumpsAdded s
      ∧ ∀ x ∈ s.clusterTiles k, ((noteReload (reloadCluster (clusterAborted s q p k) q k) q chk).tile x).seq.run = .idle := by
  obtain ⟨hpvs, hfns, hgate, hseq, hblank⟩ := clusterAborted_facts s q p k
  have h := reloadCluster_placed (clusterAborted s q p k) q k
  generalize reloadCluster (clusterAborted s q p k) q k = u at *
  refine ⟨?_, ?_, ?_, ?_, fun x hx => ?_⟩
  · simpa using h.pvs.trans hpvs
  · simpa using h.fns.trans hfns
  · simpa using h.gate.trans hgate
  · simpa using (congrArg Dumps.seq h.dumps).trans hseq
  · rw [tile_of (by simp : (noteReload u q chk).tiles = u.tiles)]
    exact h.idle x (hblank x hx).idle

/-- An escalation that stays within the cluster. -/
theorem abortCluster_facts {s u : State} {q p x : Nat} (hpvs : u.pvs = s.pvs) (hidle : (u.tile p).seq.run = .idle) (hphys : s.phys x = p) :
    ((u.modRun q (abortCleared s (clusterOf x))).tile p).seq.run = .idle ∧ p ∉ ((u.modRun q (abortCleared s (clusterOf x))).pv q).run.abortTiles
      ∧ ((u.modRun q (abortCleared s (clusterOf x))).pv q).run.loaded = (s.pv q).run.loaded
      ∧ ((u.modRun q (abortCleared s (clusterOf x))).pv q).run.image = (s.pv q).run.image
      ∧ ((u.modRun q (abortCleared s (clusterOf x))).pv q).run.st = (s.pv q).run.st
      ∧ (∀ y, y ≠ q → (u.modRun q (abortCleared s (clusterOf x))).pv y = s.pv y)
      ∧ (u.modRun q (abortCleared s (clusterOf x))).dumps.seq = u.dumps.seq ∧ (u.modRun q (abortCleared s (clusterOf x))).fns = u.fns
      ∧ (u.modRun q (abortCleared s (clusterOf x))).gate = u.gate := by
  have h := Changed.after (Changed.of_pvs q hpvs) (.modRun u q (abortCleared s (clusterOf x)))
  exact ⟨hidle, by rw [h.run]; exact abortCleared_tiles (mem_clusterTiles hphys) _, by rw [h.run]; rfl, by rw [h.run]; rfl, by rw [h.run]; rfl, h.others,
    by simp, by simp, by simp⟩

/-- What follows when the reload finds a flagged unit: the pavilion's own abort and reset. -/
theorem abortPavilion_facts {s u : State} {q p x : Nat} (hpvs : u.pvs = s.pvs) (hidle : (u.tile p).seq.run = .idle) (hphys : s.phys x = p) :
    (((escalatePavilion u q 0x1FF).modRun q (abortCleared s (clusterOf x))).tile p).seq.run = .idle
      ∧ p ∉ (((escalatePavilion u q 0x1FF).modRun q (abortCleared s (clusterOf x))).pv q).run.abortTiles
      ∧ ((escalatePavilion u q 0x1FF).modRun q (abortCleared s (clusterOf x))).dumps.seq = u.dumps.seq + dumpsAdded u
      ∧ (((escalatePavilion u q 0x1FF).modRun q (abortCleared s (clusterOf x))).pv q).run.loaded = none
      ∧ (((escalatePavilion u q 0x1FF).modRun q (abortCleared s (clusterOf x))).pv q).run.image = none
      ∧ (((escalatePavilion u q 0x1FF).modRun q (abortCleared s (clusterOf x))).pv q).run.st = (s.pv q).run.st
      ∧ (∀ y, y ≠ q → ((escalatePavilion u q 0x1FF).modRun q (abortCleared s (clusterOf x))).pv y = s.pv y)
      ∧ ((escalatePavilion u q 0x1FF).modRun q (abortCleared s (clusterOf x))).fns = u.fns
      ∧ ((escalatePavilion u q 0x1FF).modRun q (abortCleared s (clusterOf x))).gate = u.gate := by
  have h := (Changed.of_pvs q hpvs).after (escalatePavilion_changed u q 0x1FF)
  have hidle' := escalatePavilion_idle q 0x1FF hidle
  have hseq := escalatePavilion_seq u q 0x1FF
  have hkept : (escalatePavilion u q 0x1FF).fns = u.fns ∧ (escalatePavilion u q 0x1FF).gate = u.gate := by simp
  generalize escalatePavilion u q 0x1FF = v at *
  have h' := h.trans (.modRun v q (abortCleared s (clusterOf x)))
  refine ⟨hidle', ?_, hseq, ?_, ?_, ?_, h'.others, hkept⟩
  · rw [h'.run]
    exact abortCleared_tiles (mem_clusterTiles hphys) _
  · rw [h'.run]; rfl
  · rw [h'.run]; rfl
  · rw [h'.run]; rfl

-- PV_STATUS

theorem pvStatus_eq {s : State} {f : Func} {cmd : W64} {a : SMap W64} {q : Nat} (h : Submitted s f 0x20 cmd a) (hq : namedPv s f cmd = some q)
    (hf : faulty a [] (fun _ => false) = none) (hst : (s.pv q).run.st ∈ allStates) : pvStatus s f = answer s (fnNum f) stDone 0 0 (statusWords s q) :=
  servePv_ok h hq anyArgs rfl _ _ _ _ hf hst

theorem allStates_lt {st : Nat} (h : st ∈ allStates) : st < 16 := by
  unfold allStates at h
  simp only [List.mem_cons, List.not_mem_nil, or_false] at h
  omega

theorem statusWords_bits (s : State) {q : Nat} (hst : (s.pv q).run.st < 16) : (statusWords s q).length = 4
    ∧ bits ((statusWords s q).getD 0 0) 3 0 = (s.pv q).run.st
    ∧ bits ((statusWords s q).getD 0 0) 27 16 = min (s.pv q).front.waiting.length 4095
    ∧ bits ((statusWords s q).getD 0 0) 43 32 = min (s.pv q).front.live.length 4095
    ∧ bits ((statusWords s q).getD 2 0) 6 6 = (if (s.pv q).run.loaded.isSome then 1 else 0)
    ∧ bits ((statusWords s q).getD 3 0) 14 0 = (s.pv q).front.store.length % 32768 := by
  unfold statusWords
  extract_lets v r slices j0 j2
  refine ⟨rfl, ?_, ?_, ?_, ?_, ?_⟩
  · simp [j0, bits_setBits_same, bits_setBits_ne, r, v]
    omega
  · simp [j0, bits_setBits_same, bits_setBits_ne, v]
  · simp [j0, bits_setBits_same, v]
  · simp only [j2, List.getD_cons_succ, List.getD_cons_zero]
    rw [bits_setBits_ne _ _ _ _ _ _ (by decide) (by decide) (by decide), bits_setBits_same _ _ _ _ (by decide) (by decide)]
    unfold ofBool
    split <;> simp_all [r, v]
  · simp [bits_setBits_same, v]

theorem pvCreate_makes {s : State} {f : Func} {cmd : W64} {a : SMap W64} {q : Nat} (h : Submitted s f 0x10 cmd a) (hq : q = bits cmd 9 8)
    (hf : faulty a [0x1FFFFFFFFFFFFF, 0x13F01FFFFFF] (createBad s a) = none) (hex : pvExists s q = false) (hroom : flightsFull s (fnNum f) = false)
    (hidle : pvBusy s q = false) (hlacks : createLacks s (wanted a) = none) :
    ∃ t, exec (.pvCreate f) s = .next t ∧ (t.pv q).res = wanted a ∧ (t.pv q).run.st = pvEmpty
      ∧ (t.pv q).run.balance = true ∧ (t.pv q).front.rings = none ∧ (t.pv q).front.waiting = [] ∧ t.regW (OY_PV_CFG_OFF q) = pvCfg (wanted a)
      ∧ (t.fn (fnNum f)).rd MB_STATUS_STATUS = stAccepted ∧ (∀ x, x ≠ q → t.pv x = s.pv x) ∧ t.gate = s.gate ∧ t.mod = s.mod ∧ t.shed = s.shed := by
  subst hq
  have heq := pvCreate_free h hf hex hroom hidle hlacks
  have hstatus := accept_status h.copied 0x10 (some (bits cmd 9 8)) 1000 []
  have haccepted : (accept s (fnNum f) 0x10 (some (bits cmd 9 8)) 1000 []).pvs = s.pvs ∧ (accept s (fnNum f) 0x10 (some (bits cmd 9 8)) 1000 []).gate = s.gate
    ∧ (accept s (fnNum f) 0x10 (some (bits cmd 9 8)) 1000 []).mod = s.mod ∧ (accept s (fnNum f) 0x10 (some (bits cmd 9 8)) 1000 []).shed = s.shed := by simp
  generalize accept s (fnNum f) 0x10 (some (bits cmd 9 8)) 1000 [] = u at *
  obtain ⟨hpvs, hgate, hmod, hshed⟩ := haccepted
  obtain ⟨hpv, hothers, hcfg, hrd⟩ := createPv_facts u (bits cmd 9 8) (wanted a)
  have hstatus' : ((createPv u (bits cmd 9 8) (wanted a)).fn (fnNum f)).rd MB_STATUS_STATUS = stAccepted := (hrd _ _ (by decide)).trans hstatus
  have hkept : (createPv u (bits cmd 9 8) (wanted a)).gate = s.gate ∧ (createPv u (bits cmd 9 8) (wanted a)).mod = s.mod
      ∧ (createPv u (bits cmd 9 8) (wanted a)).shed = s.shed := by simp [hgate, hmod, hshed]
  generalize createPv u (bits cmd 9 8) (wanted a) = v at *
  have hended := endAsync_rd_before v (fnNum f) (ticketOf s (fnNum f)) stDone 0 0 (fnNum f) (f := MB_STATUS_STATUS) (by decide)
  have hpvs' := endAsync_pvs v (fnNum f) (ticketOf s (fnNum f)) stDone 0 0
  have hkept' : (endAsync v (fnNum f) (ticketOf s (fnNum f)) stDone 0 0).reg = v.reg ∧ (endAsync v (fnNum f) (ticketOf s (fnNum f)) stDone 0 0).gate = s.gate
      ∧ (endAsync v (fnNum f) (ticketOf s (fnNum f)) stDone 0 0).mod = s.mod ∧ (endAsync v (fnNum f) (ticketOf s (fnNum f)) stDone 0 0).shed = s.shed := by
    simp [hkept]
  generalize endAsync v (fnNum f) (ticketOf s (fnNum f)) stDone 0 0 = t at *
  obtain ⟨hreg, hgate', hmod', hshed'⟩ := hkept'
  have hmade : t.pv (bits cmd 9 8) = { Pv.reset with res := wanted a, run := { Pv.reset.run with st := pvEmpty } } := (pv_of hpvs' _).trans hpv
  exact ⟨t, (if_pos h.function).trans (congrArg Host.Outcome.next heq), by rw [hmade], by rw [hmade], by rw [hmade]; rfl, by rw [hmade]; rfl,
    by rw [hmade]; rfl, (regW_of hreg _).trans hcfg, hended.trans hstatus', fun x hx => ((pv_of hpvs' x).trans (hothers x hx)).trans (pv_of hpvs x),
    hgate', hmod', hshed'⟩

theorem pvDestroy_frees {s : State} {f : Func} {cmd : W64} {a : SMap W64} {q : Nat} (h : Submitted s f 0x11 cmd a) (hq : q = bits cmd 9 8)
    (hex : pvExists s q = true) (hf : faulty a [] (fun _ => false) = none) (hst : (s.pv q).run.st = pvEmpty) :
    ∃ u, exec (.pvDestroy f) s = .next (answer u (fnNum f) stDone 0 0 []) ∧ u.pv q = Pv.reset ∧ pvExists u q = false
      ∧ u.regW (OY_PV_CFG_OFF q) = 0 ∧ (∀ n x, u.slice? n = some x → x.pv ≠ q) ∧ (∀ x, x ≠ q → u.pv x = s.pv x) ∧ u.tiles = s.tiles
      ∧ u.gate = s.gate ∧ u.mod = s.mod ∧ u.shed = s.shed := by
  subst hq
  obtain ⟨hpv, hothers, hcfg, hslices⟩ := destroyPv_facts s (bits cmd 9 8)
  refine ⟨_, (if_pos h.function).trans (congrArg Host.Outcome.next (pvDestroy_empty h hex hf hst)), hpv, ?_, hcfg, hslices, hothers, ?_, ?_, ?_, ?_⟩
  · rw [pvExists, hpv]
    rfl
  all_goals simp

theorem pvReset_resets {s : State} {f : Func} {cmd : W64} {a : SMap W64} {q unit : Nat} {c : Instr} (h : Submitted s f 0x12 cmd a)
    (hq : namedPv s f cmd = some q) (hunit : unit = arg a 0 1 0)
    (hc : unit = 0 ∧ c = .pvResetAbort f ∨ unit = 1 ∧ c = .pvResetCluster f ∨ unit = 2 ∧ c = .pvResetPavilion f)
    (hf : faulty a [0xF03] (fun w => w == 0 && (arg a 0 1 0 == 3 || (arg a 0 1 0 == unitCluster && !(s.pv q).res.clusters.testBit (arg a 0 11 8)))) = none)
    (hst : (s.pv q).run.st ∈ notResetting) (hroom : flightsFull s (fnNum f) = false) :
    ∃ t, exec c s = .next t ∧ (t.pv q).run.st = pvResetting ∧ (t.pv q).front.live = [] ∧ (t.pv q).front.waiting = []
      ∧ (t.pv q).run.startAt = none ∧ (t.pv q).run.pause = none ∧ (∃ j, (t.pv q).run.reset = some j ∧ j.fn = fnNum f ∧ j.unit = unit)
      ∧ (t.fn (fnNum f)).rd MB_STATUS_STATUS = stAccepted ∧ t.dumps.seq = s.dumps.seq + dumpsAdded s
      ∧ (unit = 2 → ∀ p ∈ s.pvTiles q, (t.tile p).sp = [] ∧ (t.tile p).tr = []) ∧ (unit ≠ 0 → t.rd OY_STATUS_SELF_REFRESH = 1) ∧ (∀ x, x ≠ q → (t.pv x).run = (s.pv x).run)
      ∧ t.gate = s.gate ∧ t.mod = s.mod ∧ t.shed = s.shed := by
  have hlt : unit < 3 := by rcases hc with ⟨rfl, -⟩ | ⟨rfl, -⟩ | ⟨rfl, -⟩ <;> decide
  have hnext : exec c s = .next (beginReset (accept (endPvFlights s q) (fnNum f) 0x12 (some q) (resetLimit (arg a 0 1 0)) []) q unit (arg a 0 11 8)
      (fnNum f) (ticketOf (endPvFlights s q) (fnNum f))) := by
    rcases hc with ⟨hu, rfl⟩ | ⟨hu, rfl⟩ | ⟨hu, rfl⟩
    · rw [hunit] at hu ⊢
      exact (if_pos h.function).trans (congrArg Host.Outcome.next (pvReset_eq h hq (by simp [hu]) hf hst hroom))
    · rw [hunit] at hu ⊢
      exact (if_pos h.function).trans (congrArg Host.Outcome.next (pvReset_eq h hq (by simp [hu]) hf hst hroom))
    · rw [hunit] at hu ⊢
      exact (if_pos h.function).trans (congrArg Host.Outcome.next (pvReset_eq h hq (by simp [hu]) hf hst hroom))
  have hlatched : ((endPvFlights s q).fn (fnNum f)).latched = some (cmd, a) := (endPvFlights_latched s q (fnNum f)).trans h.copied
  have hstatus := accept_status hlatched 0x12 (some q) (resetLimit (arg a 0 1 0)) []
  have hother : ∀ x, x ≠ q → (accept (endPvFlights s q) (fnNum f) 0x12 (some q) (resetLimit (arg a 0 1 0)) []).pv x = s.pv x := fun x hx =>
    (pv_of (by simp) x).trans (endPvFlights_others s hx)
  have hres : ((accept (endPvFlights s q) (fnNum f) 0x12 (some q) (resetLimit (arg a 0 1 0)) []).pv q).res = (s.pv q).res := by
    rw [pv_of (by simp : (accept (endPvFlights s q) (fnNum f) 0x12 (some q) (resetLimit (arg a 0 1 0)) []).pvs = (endPvFlights s q).pvs), endPvFlights_res]
  have hkept : (accept (endPvFlights s q) (fnNum f) 0x12 (some q) (resetLimit (arg a 0 1 0)) []).rows = s.rows
      ∧ (accept (endPvFlights s q) (fnNum f) 0x12 (some q) (resetLimit (arg a 0 1 0)) []).gate = s.gate
      ∧ (accept (endPvFlights s q) (fnNum f) 0x12 (some q) (resetLimit (arg a 0 1 0)) []).mod = s.mod
      ∧ (accept (endPvFlights s q) (fnNum f) 0x12 (some q) (resetLimit (arg a 0 1 0)) []).shed = s.shed
      ∧ (accept (endPvFlights s q) (fnNum f) 0x12 (some q) (resetLimit (arg a 0 1 0)) []).dumps = s.dumps := by simp
  generalize accept (endPvFlights s q) (fnNum f) 0x12 (some q) (resetLimit (arg a 0 1 0)) [] = u at *
  obtain ⟨hrows, hgate, hmod, hshed, hdumps⟩ := hkept
  have hr := beginReset_resetting u q (arg a 0 11 8) (fnNum f) (ticketOf (endPvFlights s q) (fnNum f)) hlt
  obtain ⟨-, hgate', hmod'⟩ := beginReset_front u q unit (arg a 0 11 8) (fnNum f) (ticketOf (endPvFlights s q) (fnNum f))
  refine ⟨_, hnext, hr.st, hr.live, hr.waiting, hr.startAt, hr.pause, hr.job, (hr.mailbox _ _ (by decide)).trans hstatus, ?_, fun hu p hp => ?_, hr.refresh,
    fun x hx => ?_, hgate'.trans hgate, hmod'.trans hmod, hr.shed.trans hshed⟩
  · rw [hr.seq, hdumps, dumpsAdded, hgate, dumpsAdded]
  · have hblank := hr.wiped hu p (by rwa [pvTiles_of hres hrows])
    exact ⟨hblank.sp, hblank.tr⟩
  · rw [hr.others x hx, hother x hx]

theorem resetUnitEnd_completes {s : State} {q : Nat} {j : ResetJob} {chk : Check} (hq : q < 4) (hj : (s.pv q).run.reset = some j)
    (hclean : j.unit = 1 → j.had = true → flagged chk = false) : ∃ t, exec (.resetUnitEnd q (true, chk)) s = .next t ∧ (t.pv q).run.reset = none
      ∧ (t.pv q).run.st = (if j.unit = 2 then pvEmpty else if j.had then pvLoaded else pvEmpty) ∧ (∀ x, x ≠ q → t.pv x = s.pv x)
      ∧ ((∀ x, x < 4 → x ≠ q → (s.pv x).run.reset = none) → t.rd OY_STATUS_SELF_REFRESH = 0) ∧ t.sun = s.sun ∧ t.gate = s.gate := by
  have hreload : (j.reloads && flagged chk) = false := by
    unfold ResetJob.reloads
    by_cases hu : j.unit = 1
    · cases hhad : j.had with
      | false => simp
      | true => simp [hclean hu hhad]
    · have hcluster : (j.unit == unitCluster) = false := beq_false_of_ne hu
      simp [hcluster]
  obtain ⟨hchanged, hgate, hsun, -⟩ := unitEnded_facts s q j chk
  have hrefresh := unitEnded_refresh (s := s) (q := q) j chk
  have heq := resetUnitEnd_done hj hreload
  generalize unitEnded s q j chk = u at *
  have hended : Changed q (fun r => { r with reset := none }) s (endAsync u j.fn j.ticket stDone 0 0) := hchanged.andKept (endAsync_pvs ..)
  have hkept : (endAsync u j.fn j.ticket stDone 0 0).gate = s.gate ∧ (endAsync u j.fn j.ticket stDone 0 0).sun = s.sun
      ∧ (endAsync u j.fn j.ticket stDone 0 0).reg = u.reg := by simp [hgate, hsun]
  generalize endAsync u j.fn j.ticket stDone 0 0 = v at *
  obtain ⟨hvgate, hvsun, hvreg⟩ := hkept
  refine ⟨_, (if_pos hq).trans (congrArg Host.Outcome.next heq), ?_⟩
  by_cases hu : j.unit = 2
  · rw [if_pos hu, if_pos (show j.unit = unitPavilion from hu)]
    have h := hended.trans (enterState_changed v q pvEmpty)
    exact ⟨by rw [h.run]; rfl, by rw [h.run]; rfl, h.others, fun hnone => (rd_reg (by simpa using hvreg) _).trans (hrefresh hnone), by simpa using hvsun,
      by simpa using hvgate⟩
  · rw [if_neg hu, if_neg (show ¬ j.unit = unitPavilion from hu)]
    cases j.had with
    | true =>
      have h := hended.trans (enterState_changed v q pvLoaded)
      exact ⟨by rw [if_pos rfl, h.run]; rfl, by rw [if_pos rfl, h.run]; rfl, h.others, fun hnone => (rd_reg (by simpa using hvreg) _).trans (hrefresh hnone),
        by simpa using hvsun, by simpa using hvgate⟩
    | false =>
      have h := (hended.trans (unload_changed v q)).trans (enterState_changed _ q pvEmpty)
      exact ⟨by rw [if_neg (by decide), h.run]; rfl, by rw [if_neg (by decide), h.run]; rfl, h.others,
        fun hnone => (rd_reg (by simpa using hvreg) _).trans (hrefresh hnone), by simpa using hvsun, by simpa using hvgate⟩

theorem resetUnitEnd_faults {s : State} {q : Nat} {j : ResetJob} {ok : Bool} {chk : Check} (hq : q < 4) (hj : (s.pv q).run.reset = some j)
    (hbad : ok = false ∨ j.unit = 1 ∧ j.had = true ∧ flagged chk = true) : ∃ t, exec (.resetUnitEnd q (ok, chk)) s = .next t
      ∧ (t.pv q).run.reset = none ∧ (t.pv q).run.st = pvFaulted ∧ (j.unit = 1 → (t.pv q).run.loaded = none) ∧ t.dumps.seq = s.dumps.seq + dumpsAdded s
      ∧ (∀ x, x ≠ q → (t.pv x).run = (s.pv x).run) ∧ t.gate = s.gate := by
  have hbad' : (!ok || (j.reloads && flagged chk)) = true := by
    unfold ResetJob.reloads
    rcases hbad with h | ⟨hu, hhad, hflag⟩
    · simp [h]
    · simp [hu, hhad, hflag, unitCluster]
  obtain ⟨hchanged, hgate, -, hdumps⟩ := unitEnded_facts s q j chk
  have heq := resetUnitEnd_fault hj hbad'
  generalize unitEnded s q j chk = u at *
  have hended : Changed q (fun r => { r with reset := none }) s (endAsync u j.fn j.ticket stFault 0 0) := hchanged.andKept (endAsync_pvs ..)
  have hkept : (endAsync u j.fn j.ticket stFault 0 0).gate = s.gate ∧ (endAsync u j.fn j.ticket stFault 0 0).dumps = s.dumps := by simp [hgate, hdumps]
  generalize endAsync u j.fn j.ticket stFault 0 0 = v at *
  obtain ⟨hvgate, hvdumps⟩ := hkept
  obtain ⟨hothers, hst, hreset, hloaded, hseq⟩ := failReset_facts v q j.unit
  refine ⟨_, (if_pos hq).trans (congrArg Host.Outcome.next heq), ?_, hst, hloaded, ?_, fun x hx => ?_, ?_⟩
  · rw [hreset, hended.run]
  · rw [hseq, hvdumps, dumpsAdded, hvgate, dumpsAdded]
  · rw [hothers x hx, hended.others x hx]
  · simpa using hvgate

theorem abortEscalation_frees {s : State} {q p x : Nat} {chk : Check} (hq : q < 4) (hp : p < 272) (hmem : p ∈ (s.pv q).run.abortTiles)
    (hbusy : (s.tile p).seq.run ≠ .idle) (hlog : s.logical p = some x) (hphys : s.phys x = p) (hdue : (s.pv q).run.abortAt + milli / 10 ≤ s.sun.time) :
    ∃ t, exec (.abortEscalation q (p, chk)) s = .next t ∧ (t.tile p).seq.run = .idle ∧ p ∉ (t.pv q).run.abortTiles
      ∧ (flagged chk = false ∨ (s.pv q).run.loaded = none ∨ (s.pv q).run.image = none →
          t.dumps.seq = s.dumps.seq + dumpsAdded s ∧ (t.pv q).run.loaded = (s.pv q).run.loaded ∧ (t.pv q).run.image = (s.pv q).run.image)
      ∧ (flagged chk = true → (s.pv q).run.loaded.isSome = true → (s.pv q).run.image.isSome = true →
          t.dumps.seq = s.dumps.seq + 2 * dumpsAdded s ∧ (t.pv q).run.loaded = none ∧ (t.pv q).run.image = none)
      ∧ (t.pv q).run.st = (s.pv q).run.st ∧ (∀ y, y ≠ q → t.pv y = s.pv y) ∧ t.fns = s.fns ∧ t.gate = s.gate := by
  have heq := abortEscalation_due (chk := chk) hmem hbusy hdue hlog
  have hcluster := mem_clusterTiles hphys
  have hexec : exec (.abortEscalation q (p, chk)) s = .next (abortEscalation s q p chk) := if_pos ⟨hq, hp⟩
  rw [heq] at hexec
  clear heq
  by_cases hmodel : ((s.pv q).run.loaded.isSome && (s.pv q).run.image.isSome) = true
  · rw [if_pos hmodel] at hexec
    obtain ⟨hpvs, hfns, hgate, hseq, hidle⟩ := clusterReloaded_facts s q p (clusterOf x) chk
    generalize noteReload (reloadCluster (clusterAborted s q p (clusterOf x)) q (clusterOf x)) q chk = u at hexec hpvs hfns hgate hseq hidle
    by_cases hflag : flagged chk = true
    · rw [if_pos hflag] at hexec
      obtain ⟨hi, ht, hd, hl, him, hst, ho, hf, hg⟩ := abortPavilion_facts (x := x) hpvs (hidle p hcluster) hphys
      refine ⟨_, hexec, hi, ht, fun hno => ?_, fun _ _ _ => ⟨?_, hl, him⟩, hst, ho, hf.trans hfns, hg.trans hgate⟩
      · rcases hno with hno | hno | hno
        · exact absurd (hflag.symm.trans hno) (by decide)
        · simp [hno] at hmodel
        · simp [hno] at hmodel
      · have hadded : dumpsAdded u = dumpsAdded s := by simp only [dumpsAdded, hgate]
        omega
    · rw [if_neg hflag] at hexec
      obtain ⟨hi, ht, hl, him, hst, ho, hd, hf, hg⟩ := abortCluster_facts (x := x) hpvs (hidle p hcluster) hphys
      exact ⟨_, hexec, hi, ht, fun _ => ⟨hd.trans hseq, hl, him⟩, fun h => absurd h hflag, hst, ho, hf.trans hfns, hg.trans hgate⟩
  · rw [if_neg hmodel] at hexec
    obtain ⟨hpvs, hfns, hgate, hseq, hblank⟩ := clusterAborted_facts s q p (clusterOf x)
    generalize clusterAborted s q p (clusterOf x) = u at hexec hpvs hfns hgate hseq hblank
    obtain ⟨hi, ht, hl, him, hst, ho, hd, hf, hg⟩ := abortCluster_facts (x := x) hpvs (hblank p hcluster).idle hphys
    exact ⟨_, hexec, hi, ht, fun _ => ⟨hd.trans hseq, hl, him⟩, fun _ hloaded himage => absurd (by rw [hloaded, himage]; rfl) hmodel, hst, ho, hf.trans hfns, hg.trans hgate⟩

theorem pavilionResetTimeout_reboots {s : State} {q : Nat} (hq : q < 4) (hlate : pavilionLate s q = true) (_ : s.gate.ran = true) :
    ∃ t, exec (.pavilionResetTimeout q) s = .next t ∧ t.gate.phase = 0 ∧ t.gate.fuses = s.gate.fuses
      ∧ t.fns = [] ∧ t.pvs = [] ∧ t.tiles = [] ∧ t.dumps.seq = s.dumps.seq + dumpsAdded s := by
  obtain ⟨u, hu, hugate, -, huseq, -⟩ := orderedReset_eq s causeEscalation
  have hr := chipReset_rebooted u
  refine ⟨_, (if_pos hq).trans (congrArg Host.Outcome.next ((if_pos hlate).trans hu)), hr.phase, ?_, hr.fns, hr.pvs, hr.tiles, ?_⟩
  · rw [hr.fuses, hugate]
  · rw [hr.dumps, huseq]

/-- Settles O53, one command, limit or end after the other. -/
theorem pavilionsComeAndGo : Obligations.PavilionsComeAndGo := by
  refine ⟨fun s f cmd a q h hq hf => ⟨fun hex => ?taken, fun hex hroom hidle => ⟨fun w hlacks => ?lacks, pvCreate_makes h hq hf hex hroom hidle⟩⟩,
    fun s f cmd a q h hq hex hf => ⟨fun hst => ?conflict, pvDestroy_frees h hq hex hf⟩,
    fun s f cmd a q unit c h hq hunit hc hf hst hroom => pvReset_resets h hq hunit hc hf hst hroom,
    fun s q j hq hj => ⟨fun chk hclean => resetUnitEnd_completes hq hj hclean, fun ok chk hbad => resetUnitEnd_faults hq hj hbad⟩,
    fun s q ok chk hq hj => (if_pos hq).trans (congrArg Host.Outcome.next (resetUnitEnd_idle ok chk hj)),
    fun s q p x chk hq hp hmem hbusy hlog hphys hdue => abortEscalation_frees hq hp hmem hbusy hlog hphys hdue,
    fun s q p chk hq hp h => (if_pos ⟨hq, hp⟩).trans (congrArg Host.Outcome.next (abortEscalation_idle h)),
    fun s q hq => ⟨fun hsoon => ?soon, pavilionResetTimeout_reboots hq⟩, fun s f cmd a q h hq hf hst => ?status⟩
  case taken =>
    subst hq
    exact (if_pos h.function).trans (congrArg Host.Outcome.next (pvCreate_exists h hf hex))
  case lacks =>
    subst hq
    exact (if_pos h.function).trans (congrArg Host.Outcome.next (pvCreate_lacks h hf hex hroom hidle hlacks))
  case conflict =>
    subst hq
    exact (if_pos h.function).trans (congrArg Host.Outcome.next (pvDestroy_busy h hex hf hst))
  case soon => exact (if_pos hq).trans (congrArg Host.Outcome.next (if_neg (by simp [hsoon])))
  case status =>
    obtain ⟨hlen, hcode, hwaiting, hlive, hloaded, hstore⟩ := statusWords_bits s (allStates_lt hst)
    exact ⟨_, (if_pos h.function).trans (congrArg Host.Outcome.next (pvStatus_eq h hq hf hst)), hlen, hcode, hwaiting, hlive, hloaded, hstore⟩

end Sys2Proof.Machine
end

section
/-!
PROOF. Staging, dropping and loading of slices (O46).
-/

namespace Sys2Proof.Machine
open Sys2Proof

-- the shards of a slice

section
variable {s : State} {q k : Nat} {x : Slice} (h : stagingOf s q = some (k, x))
include h

theorem tablePoll_some (table : List (W64 × W64)) : tablePoll s q table
    = s.setSlice k { x with shards := (List.range x.shards.length).map (fun i => readEntry (x.shards.getD i (entryAt [] 0)) table[i]?) } := by
  unfold tablePoll
  rw [h]

theorem shardStep_fetching {i : Nat} {e : Shard} {c : Option (List Byte)} (he : x.shards[i]? = some e) (hi : i ∈ fetching x)
    (ht : s.sun.time ≤ x.deadline) : (∀ p, shardPlain x e c = some p → shardStep s q i c = shardAccept s k i x e p)
      ∧ (shardPlain x e c = none → shardStep s q i c = shardCorrupt s k i x e) := by
  have hgo : ¬ ((!(fetching x).contains i || decide (x.deadline < s.sun.time)) = true) := by simp [hi, ht]
  constructor
  · intro p hp
    simp only [shardStep, h, he, if_neg hgo, hp]
  · intro hp
    simp only [shardStep, h, he, if_neg hgo, hp]

theorem stagingTimeout_due (ht : x.deadline ≤ s.sun.time) :
    stagingTimeout s q = endStaging s k stTimeout ((x.shards.findIdx? (fun e => !e.verified)).getD 0) := by
  simp only [stagingTimeout, h, if_pos ht]

end

/-- A valid table entry of the entry's length gives the shard its address. -/
theorem readEntry_valid {e : Shard} {a b : W64} (haddr : e.addr = none) (hvalid : bit b 63 = true) (hlen : bits b 31 0 = e.length) (halign : bits a 5 0 = 0) :
    readEntry e (some (a, b)) = { e with addr := some a.toNat } := by
  simp only [readEntry, haddr]
  exact if_pos ⟨hvalid, hlen, halign⟩

theorem readEntries_getElem? {xs : List Shard} {table : List (W64 × W64)} {i : Nat} {e d : Shard} (he : xs[i]? = some e) :
    ((List.range xs.length).map (fun i => readEntry (xs.getD i d) table[i]?))[i]? = some (readEntry e table[i]?) := by
  obtain ⟨hlt, -⟩ := List.getElem?_eq_some_iff.1 he
  rw [List.getElem?_map, List.getElem?_range hlt, Option.map_some, List.getD_eq_getElem?_getD, he, Option.getD_some]

theorem stageUnit_sameModule (s : State) (x : Slice) (u : Nat) (b : List Byte) : SameModule s (stageUnit s x u b) :=
  ⟨by simp, by simp, by simp, by simp, by simp⟩

/-- A staged unit is written encrypted at its place (R270). -/
theorem stageUnit_hbm (s : State) (x : Slice) (u : Nat) (b : List Byte) : (stageUnit s x u b).die.hbm
    = Mem.wrN s.die.hbm (hbmKey (slicePlace s x (512 * u))) (xtsUnit false s.die.oyKey (unitTweak (slicePlace s x (512 * u))) b) := by
  simp only [stageUnit]

/-- Staging that ends otherwise than with DONE frees the slice (R371). -/
theorem endStaging_dropped {s : State} {k : Nat} {x : Slice} {status : Nat} (detail : Nat) (h : s.slice? k = some x) (hs : status ≠ stDone) :
    (endStaging s k status detail).slice? k = none := by
  have hdie : (endAsync (s.dropSlice k) x.fn x.ticket status detail k).die = (s.dropSlice k).die := by simp
  simp only [endStaging, h, if_neg hs]
  exact (slice?_of hdie k).trans (SMap.look?_del_same ..)

theorem sliceDrop_free {s : State} {f : Func} {cmd : W64} {a : SMap W64} {q : Nat} {x : Slice} (h : Submitted s f 0x23 cmd a) (hq : namedPv s f cmd = some q)
    (hf : faulty a [0x3F] (fun w => w == 0 && (ownSlice s q (arg a 0 5 0)).isNone) = none) (hst : (s.pv q).run.st ∈ [1, 2, 3, 4, 5, 6])
    (hown : ownSlice s q (arg a 0 5 0) = some x) (hheld : sliceHeld s q (arg a 0 5 0) x = false) :
    sliceDrop s f = answer (s.dropSlice (arg a 0 5 0)) (fnNum f) stDone 0 0 [] := by
  unfold sliceDrop
  extract_lets m
  rw [servePv_ok h hq anyArgs rfl _ _ _ _ hf hst]
  simp only [hown, hheld]
  rfl

-- HAMPER_STAGE

theorem State.slice?_setSlice_same (s : State) (k : Nat) (x : Slice) : (s.setSlice k x).slice? k = some x := SMap.look?_put_same ..

/-- The slice of a staging command after its manifest: none, or the new one with its key. -/
theorem unwrap_slice {s : State} {q k : Nat} {x y : Slice} {m : List Byte} (hx : s.slice? k = some x) (hy : (unwrap s q k m).slice? k = some y) :
    y.pv = x.pv ∧ y.ready = x.ready := by
  unfold unwrap at hy
  split at hy
  · rw [endStaging_dropped 0 hx (by decide)] at hy
    exact absurd hy (by simp)
  · next key _ =>
    extract_lets xs at hy
    split at hy
    · rw [endStaging_dropped 0 hx (by decide)] at hy
      exact absurd hy (by simp)
    · rw [hx] at hy
      obtain rfl : { x with key := key } = y := Option.some.inj ((State.slice?_setSlice_same ..).symm.trans hy)
      exact ⟨rfl, rfl⟩

theorem hamperStage_stages {s : State} {f : Func} {manifest : List Byte} {cmd : W64} {a : SMap W64} {q k : Nat} (h : Submitted s f 0x22 cmd a)
    (hq : namedPv s f cmd = some q) (hf : faulty a [wholeWord, 0xFFFFFFFF, wholeWord, 0xFFFFFFFF] (stageBad s manifest q a) = none)
    (hst : (s.pv q).run.st ∈ [1, 2, 3, 4, 5, 6]) (hfull : flightsFull s (fnNum f) = false) (hbusy : pvBusy s q = false) (hk : k = firstFree s.die.slices 0)
    (hfree : k < 50) (hroom : stripesNeeded s q ((mWord (manifest.take (arg a 1 31 0)) 2).toNat + (mWord (manifest.take (arg a 1 31 0)) 3).toNat)
      ≤ (freeStripes s q).length) : hamperStage s f manifest
        = unwrap ((accept s (fnNum f) 0x22 (some q) (loadTimeout a * 1000) [w64 k]).setSlice k (newSlice s q (fnNum f) (manifest.take (arg a 1 31 0)) a)) q k
            (manifest.take (arg a 1 31 0)) := by
  subst hk
  unfold hamperStage
  extract_lets n
  rw [servePv_ok h hq anyArgs rfl _ _ _ _ hf hst]
  extract_lets m total c
  rw [if_neg (by simp [n, hfull, hbusy]), if_neg]
  intro hno
  rcases hno with hno | hno
  · exact absurd hno (Nat.not_le.2 hfree)
  · exact absurd hno (Nat.not_lt.2 hroom)

-- LOAD_MODEL

/-- The tiles of a pavilion that is unloaded have empty Terraces, and every tile keeps its scratchpad. -/
theorem unload_tiles (s : State) (q : Nat) : (∀ p ∈ s.pvTiles q, ((unload s q).tile p).tr = []) ∧ ∀ p, ((unload s q).tile p).sp = (s.tile p).sp := by
  unfold unload
  extract_lets s1
  have htiles : ∀ p, ((freePvBarriers s1 q).modRun q (fun r => { r with image := none, loaded := none, imageHash := [] })).tile p = s1.tile p :=
    tile_of (freePvBarriers_tiles s1 q)
  refine ⟨fun p hp => ?_, fun p => ?_⟩
  · rw [htiles]
    refine foldl_establishes (P := fun t => (t.tile p).tr = []) hp (fun t => ?_) (fun t x ht => ?_) s
    · rw [State.tile_modTile_same]
    · by_cases e : p = x
      · rw [e, State.tile_modTile_same]
      · rwa [State.tile_modTile_ne _ _ e]
  · rw [htiles]
    refine foldl_keep (fun t => (t.tile p).sp) _ (fun t x => ?_) _ s
    by_cases e : p = x
    · rw [e, State.tile_modTile_same]
    · rw [State.tile_modTile_ne _ _ e]

/-- A load whose image passes its checks stands in STAGING with its job noted. -/
theorem beginLoad_passes {s : State} {q : Nat} (n t slice : Nat) {i : Image} (h : loadCheck (enterState s q pvStaging) q i = none) :
    Changed q (fun r => { PvRun.unloaded { r with st := pvStaging } with load := some ⟨n, t, slice, i⟩ }) s (beginLoad s q n t slice i)
      ∧ (∀ p ∈ s.pvTiles q, ((beginLoad s q n t slice i).tile p).tr = []) ∧ ∀ p, ((beginLoad s q n t slice i).tile p).sp = (s.tile p).sp := by
  have heq : beginLoad s q n t slice i
      = (unload (enterState s q pvStaging) q).modRun q (fun r => { r with load := some { fn := n, ticket := t, slice := slice, image := i } }) := by
    simp only [beginLoad, h]
  rw [heq]
  have hentered := enterState_changed s q pvStaging
  have htiles : (enterState s q pvStaging).tiles = s.tiles := by simp
  have hrows : (enterState s q pvStaging).rows = s.rows := by simp
  generalize enterState s q pvStaging = u at *
  obtain ⟨htr, hsp⟩ := unload_tiles u q
  refine ⟨(hentered.trans (unload_changed u q)).trans
    (.modRun _ q (fun r => { r with load := some { fn := n, ticket := t, slice := slice, image := i } })), fun p hp => ?_, fun p => ?_⟩
  · exact htr p (by rwa [pvTiles_of hentered.res hrows])
  · exact (hsp p).trans (congrArg Tile.sp (tile_of htiles p))

/-- A load whose image fails its checks leaves the pavilion as it was. -/
theorem beginLoad_fails {s : State} {q : Nat} (n t slice : Nat) {i : Image} (h : loadCheck (enterState s q pvStaging) q i ≠ none) :
    Changed q id s (beginLoad s q n t slice i) ∧ (beginLoad s q n t slice i).tiles = s.tiles := by
  obtain ⟨⟨detail, status⟩, hfail⟩ := Option.ne_none_iff_exists'.1 h
  have heq : beginLoad s q n t slice i = enterState (endAsync (enterState s q pvStaging) n t status detail 0) q (s.pv q).run.st := by
    simp only [beginLoad, hfail]
  rw [heq]
  have hback := (((enterState_changed s q pvStaging).andKept (endAsync_pvs _ n t status detail 0)).trans (enterState_changed _ q (s.pv q).run.st))
  exact ⟨⟨hback.others, hback.res, hback.run⟩, by simp⟩

theorem loadModel_begins {s : State} {f : Func} {image : Image} {cmd : W64} {a : SMap W64} {q : Nat} (h : Submitted s f 0x24 cmd a)
    (hq : namedPv s f cmd = some q) (hf : faulty a [0x3F, wholeWord, 0xFFFFFFFF] (fun w => w == 1 && arg a 1 5 0 != 0) = none) (hst : (s.pv q).run.st = 1)
    (hslice : stagedFor s q (arg a 0 5 0) = true) (hfull : flightsFull s (fnNum f) = false) (hbusy : pvBusy s q = false) :
    exec (.loadModel f image) s
      = .next (beginLoad (accept s (fnNum f) 0x24 (some q) 2000 []) q (fnNum f) (ticketOf s (fnNum f)) (arg a 0 5 0) image) :=
  (if_pos h.function).trans (congrArg Host.Outcome.next
    (loadWith_accepted h hq hf (by rw [hst]; decide) hslice hfull hbusy (fun s q n t slice => beginLoad s q n t slice image)))

theorem loadModel_loads {s : State} {f : Func} {image : Image} {cmd : W64} {a : SMap W64} {q : Nat} (h : Submitted s f 0x24 cmd a)
    (hq : namedPv s f cmd = some q) (hf : faulty a [0x3F, wholeWord, 0xFFFFFFFF] (fun w => w == 1 && arg a 1 5 0 != 0) = none) (hst : (s.pv q).run.st = 1)
    (hslice : stagedFor s q (arg a 0 5 0) = true) (hfull : flightsFull s (fnNum f) = false) (hbusy : pvBusy s q = false) :
    ∃ t, exec (.loadModel f image) s = .next t ∧ (∀ x, x ≠ q → t.pv x = s.pv x) ∧ t.gate = s.gate ∧ t.mod = s.mod
      ∧ (loadCheck (enterState (accept s (fnNum f) 0x24 (some q) 2000 []) q pvStaging) q image = none → (t.pv q).run.st = pvStaging
        ∧ (t.pv q).run.load = some ⟨fnNum f, (s.fn (fnNum f)).nextTicket, arg a 0 5 0, image⟩ ∧ (∀ p ∈ s.pvTiles q, (t.tile p).tr = [])
        ∧ (∀ p, (t.tile p).sp = (s.tile p).sp))
      ∧ (loadCheck (enterState (accept s (fnNum f) 0x24 (some q) 2000 []) q pvStaging) q image ≠ none →
        (t.pv q).run.st = 1 ∧ (t.pv q).run.load = (s.pv q).run.load ∧ t.tiles = s.tiles) := by
  have hexec := loadModel_begins (image := image) h hq hf hst hslice hfull hbusy
  have haccepted : Changed q id s (accept s (fnNum f) 0x24 (some q) 2000 []) := .of_pvs q (by simp)
  have hkept : (accept s (fnNum f) 0x24 (some q) 2000 []).gate = s.gate ∧ (accept s (fnNum f) 0x24 (some q) 2000 []).mod = s.mod
      ∧ (accept s (fnNum f) 0x24 (some q) 2000 []).rows = s.rows ∧ (accept s (fnNum f) 0x24 (some q) 2000 []).tiles = s.tiles := by simp
  generalize accept s (fnNum f) 0x24 (some q) 2000 [] = u at *
  obtain ⟨hgate, hmod, hrows, htiles⟩ := hkept
  refine ⟨_, hexec, ?_, by simpa using hgate, by simpa using hmod, fun hpass => ?_, fun hfail => ?_⟩
  · by_cases hcheck : loadCheck (enterState u q pvStaging) q image = none
    · exact (haccepted.after (beginLoad_passes _ _ _ hcheck).1).others
    · exact (haccepted.after (beginLoad_fails _ _ _ hcheck).1).others
  · obtain ⟨hchanged, htr, hsp⟩ := beginLoad_passes (fnNum f) (ticketOf s (fnNum f)) (arg a 0 5 0) hpass
    have hrun := (haccepted.after hchanged).run
    refine ⟨by rw [hrun]; rfl, by rw [hrun]; rfl, fun p hp => ?_, fun p => ?_⟩
    · exact htr p (by rwa [pvTiles_of haccepted.res hrows])
    · exact (hsp p).trans (congrArg Tile.sp (tile_of htiles p))
  · obtain ⟨hchanged, hkept⟩ := beginLoad_fails (fnNum f) (ticketOf s (fnNum f)) (arg a 0 5 0) hfail
    have hrun := (haccepted.after hchanged).run
    exact ⟨by rw [hrun]; exact hst, by rw [hrun]; rfl, hkept.trans htiles⟩

-- the logical tiles of a pavilion

theorem phys_injective {s : State} {t u : Nat} (h : s.phys t = s.phys u) : t = u := by
  have hcol : ∀ i j, j ≤ s.colOf i j ∧ s.colOf i j ≤ j + 1 := fun i j => by
    unfold State.colOf
    split
    · split <;> omega
    · omega
  have hcols : ∀ i j k, s.colOf i j = s.colOf i k → j = k := fun i j k => by
    unfold State.colOf
    split
    · split <;> split <;> omega
    · exact id
  unfold State.phys at h
  have ht := hcol (t / 16) (t % 16)
  have hu := hcol (u / 16) (u % 16)
  have hrow : t / 16 = u / 16 := by omega
  rw [hrow] at h
  have := hcols (u / 16) (t % 16) (u % 16) (by omega)
  omega

theorem clusterOf_of_mem {x k : Nat} (h : x ∈ tilesOf k) : clusterOf x = k := by
  unfold tilesOf at h
  obtain ⟨n, hn, rfl⟩ := List.mem_map.1 h
  have := List.mem_range.1 hn
  unfold clusterOf
  omega

theorem tilesOf_nodup (k : Nat) : (tilesOf k).Nodup := by
  refine List.Nodup.map_on (fun n hn m hm h => ?_) List.nodup_range
  have := List.mem_range.1 hn
  have := List.mem_range.1 hm
  omega

theorem sliceTiles_nodup (s : State) (q : Nat) : (s.sliceTiles q).Nodup := by
  have hclusters : (s.pvClusters q).Nodup := List.nodup_range.filter _
  refine List.nodup_flatMap.2 ⟨fun k _ => tilesOf_nodup k, hclusters.imp fun {j k} hne x hj hk => hne ?_⟩
  rw [← clusterOf_of_mem hj, clusterOf_of_mem hk]

-- the shift-in

/-- What a reload reads is the same in both states. -/
structure SameSlices (s t : State) : Prop where
  pvs : t.pvs = s.pvs
  die : t.die = s.die
  reg : t.reg = s.reg
  rows : t.rows = s.rows
  sun : t.sun = s.sun

theorem sliceTerrace_of {s t : State} (hdie : t.die = s.die) (hreg : t.reg = s.reg) (x : Slice) (pos : Nat) : sliceTerrace t x pos = sliceTerrace s x pos := by
  simp only [sliceTerrace, sliceBytes, sliceUnit, slicePlace, State.groups, State.rd, State.regW, hdie, hreg]

theorem phys_of {s t : State} (h : t.rows = s.rows) (u : Nat) : t.phys u = s.phys u := by simp only [State.phys, State.colOf, h]

theorem sliceTiles_of {s t : State} {q : Nat} (h : (t.pv q).res = (s.pv q).res) : t.sliceTiles q = s.sliceTiles q := by
  simp only [State.sliceTiles, State.pvClusters, h]

theorem SameSlices.reloadTile {s t : State} (h : SameSlices s t) (q u : Nat) : SameSlices s (reloadTile t q u) :=
  ⟨by simpa using h.pvs, by simpa using h.die, by simpa using h.reg, by simpa using h.rows, by simpa using h.sun⟩

theorem reloadTile_other (s : State) (q : Nat) {u p : Nat} (h : p ≠ s.phys u) : (reloadTile s q u).tile p = s.tile p := by
  unfold reloadTile
  split
  · exact State.tile_modTile_ne _ _ h
  · rfl

theorem reloadTile_same {s : State} {q u pos : Nat} {x : Slice} (hx : s.loadedSlice q = some x) (hu : (s.sliceTiles q)[pos]? = some u) :
    ((reloadTile s q u).tile (s.phys u)).tr = sliceTerrace s x pos := by
  obtain ⟨hlt, hget⟩ := List.getElem?_eq_some_iff.1 hu
  have hpos : (s.sliceTiles q).findIdx? (· == u) = some pos := by
    refine List.findIdx?_eq_some_iff_getElem.2 ⟨hlt, by simp [hget], fun j hj heq => ?_⟩
    have := (sliceTiles_nodup s q).getElem_inj_iff.1 ((beq_iff_eq.1 heq).trans hget.symm)
    omega
  unfold reloadTile
  rw [hx, hpos, State.tile_modTile_same]

/-- A reload of several tiles gives each of them its part of the slice. -/
theorem reloadTiles_terrace {s : State} {q u pos : Nat} {x : Slice} (hx : s.loadedSlice q = some x) (hu : (s.sliceTiles q)[pos]? = some u) (l : List Nat) :
    ∀ t, SameSlices s t → SameSlices s (l.foldl (fun t v => reloadTile t q v) t)
      ∧ (u ∈ l ∨ (t.tile (s.phys u)).tr = sliceTerrace s x pos → ((l.foldl (fun t v => reloadTile t q v) t).tile (s.phys u)).tr = sliceTerrace s x pos) := by
  induction l with
  | nil => exact fun t ht => ⟨ht, fun h => h.resolve_left (by simp)⟩
  | cons v l ih =>
    intro t ht
    obtain ⟨hsame, hrest⟩ := ih _ (ht.reloadTile q v)
    refine ⟨hsame, fun h => hrest ?_⟩
    by_cases hv : u = v
    · subst hv
      right
      have hloaded : t.loadedSlice q = some x := by
        rw [← hx, State.loadedSlice, State.loadedSlice, pv_of ht.pvs, funext (slice?_of ht.die)]
      rw [← sliceTiles_of (t := t) (by rw [pv_of ht.pvs])] at hu
      rw [← phys_of ht.rows, reloadTile_same hloaded hu, sliceTerrace_of ht.die ht.reg]
    · rcases h with h | h
      · exact .inl ((List.mem_cons.1 h).resolve_left hv)
      · right
        rw [reloadTile_other t q (fun heq => hv (phys_injective ((phys_of ht.rows u).trans heq)))]
        exact h

/-- What placing an image leaves as it is, the pavilion's barriers and its image aside. -/
structure Sited (s t : State) : Prop where
  pvs : t.pvs = s.pvs
  sun : t.sun = s.sun
  tr : ∀ p, (t.tile p).tr = (s.tile p).tr

theorem Sited.refl (s : State) : Sited s s := ⟨rfl, rfl, fun _ => rfl⟩

theorem Sited.trans {s t u : State} (h : Sited s t) (k : Sited t u) : Sited s u :=
  ⟨k.pvs.trans h.pvs, k.sun.trans h.sun, fun p => (k.tr p).trans (h.tr p)⟩

theorem Sited.foldl {α : Type} {f : State → α → State} (h : ∀ s x, Sited s (f s x)) (l : List α) (s : State) : Sited s (l.foldl f s) :=
  List.foldlRecOn (motive := Sited s) l f (.refl s) fun _ ht x _ => ht.trans (h _ x)

theorem Sited.modTile (s : State) (p : Nat) {f : Tile → Tile} (h : ∀ t, (f t).tr = t.tr) : Sited s (s.modTile p f) := by
  refine ⟨rfl, rfl, fun x => ?_⟩
  by_cases e : x = p
  · rw [e, State.tile_modTile_same, h]
  · rw [State.tile_modTile_ne _ _ e]

theorem Tile.configured_tr (l : List (Nat × W64)) (t : Tile) :
    (l.foldl (fun (x : Tile) r => x.setReg r.1 (merged (x.regW r.1) r.2 (w64 (rowVal rwTile r.1)) 0)) t).tr = t.tr :=
  List.foldlRecOn (motive := fun x : Tile => x.tr = t.tr) l _ rfl fun _ hx _ _ => hx

theorem placeTile_sited (s : State) (q : Nat) (i : Image) (t : Nat) : Sited s (placeTile s q i t) := .modTile s _ fun x => Tile.configured_tr (i.config t) x

theorem placeLodge_sited (s : State) (i : Image) (k : Nat) : Sited s (placeLodge s i k) := by
  refine .foldl (fun t x => ?_) _ s
  split
  · split
    · exact ⟨rfl, rfl, fun _ => rfl⟩
    · exact .refl t
  · exact .refl t

theorem placeCluster_sited (s : State) (q : Nat) (i : Image) (k : Nat) : Sited s (placeCluster s q i k) :=
  (Sited.foldl (fun s t => placeTile_sited s q i t) _ s).trans (placeLodge_sited _ i k)

theorem openRecv_sited (s : State) (c : ChanEntry) : Sited s (openRecv s c) := .modTile s _ fun _ => rfl

theorem openSend_sited (s : State) (c : ChanEntry) : Sited s (openSend s c) := by
  unfold openSend
  extract_lets remote gen s1
  have h1 : Sited s s1 := by
    unfold s1
    split
    · exact ⟨rfl, rfl, fun _ => rfl⟩
    · exact .refl s
  exact h1.trans (.modTile s1 _ fun _ => rfl)

theorem openPair_sited (s : State) (c : ChanEntry) : Sited s (openPair s c) := by
  unfold openPair
  extract_lets s1
  have h1 : Sited s s1 := by
    unfold s1
    split
    · exact openRecv_sited s c
    · exact .refl s
  split
  · exact h1.trans (openSend_sited s1 c)
  · exact h1

theorem grantBarriers_changed (s : State) (q : Nat) (i : Image) : ∃ l, Changed q (fun r => { r with barriers := l }) s (grantBarriers s q i) := by
  unfold grantBarriers
  extract_lets s0 pairs b s1
  have h1 : Changed q (fun r => { r with barriers := [] }) s s1 :=
    (freePvBarriers_changed s q).andKept (foldl_keeps_pvs _ (fun _ _ => State.setBarrier_pvs ..) _ _)
  exact ⟨_, h1.trans (.modRun s1 q (fun r => { r with barriers := (List.range pairs.length).map (fun k => (k, ((pairs.map (·.2)).getD k 0))) }))⟩

/-- A placed image changes the pavilion's barriers and its image; no Terrace changes. -/
theorem placeImage_placed (s : State) (q : Nat) (i : Image) : (∃ l, Changed q (fun r => { r with barriers := l, image := some i }) s (placeImage s q i))
    ∧ (placeImage s q i).sun = s.sun ∧ ∀ p, ((placeImage s q i).tile p).tr = (s.tile p).tr := by
  unfold placeImage
  extract_lets s1 s2
  obtain ⟨l, h1⟩ := grantBarriers_changed s q i
  have htiles : s1.tiles = s.tiles := by simp [s1]
  have hsun : s1.sun = s.sun := by simp [s1]
  have h2 : Sited s1 (i.channels.foldl openPair s2) :=
    (Sited.foldl (fun s k => placeCluster_sited s q i k) _ s1).trans (.foldl openPair_sited _ s2)
  generalize i.channels.foldl openPair s2 = u at *
  refine ⟨⟨l, (h1.andKept h2.pvs).trans (.modRun u q (fun r => { r with image := some i }))⟩, h2.sun.trans hsun, fun p => ?_⟩
  exact (h2.tr p).trans (congrArg Tile.tr (tile_of htiles p))

theorem shiftIn_placed {s : State} {q n : Nat} {x : Slice} (i : Image) (hx : s.slice? n = some x) :
    (∃ l, Changed q (fun r => { r with loaded := some n, lastModel := x.modelId, imageHash := Config.imageHash i, barriers := l, image := some i }) s
        (shiftIn s q n x i))
      ∧ (shiftIn s q n x i).sun = s.sun
      ∧ ∀ (pos u : Nat), (s.sliceTiles q)[pos]? = some u → ((shiftIn s q n x i).tile (s.phys u)).tr = sliceTerrace s x pos := by
  unfold shiftIn
  extract_lets r s1 s2 s3
  have h1 : Changed q id s s1 ∧ s1.die = s.die ∧ s1.reg = s.reg ∧ s1.rows = s.rows ∧ s1.sun = s.sun := by
    unfold s1
    split
    · exact ⟨.of_pvs q rfl, rfl, rfl, rfl, rfl⟩
    · exact ⟨.modFront s q _, rfl, rfl, rfl, rfl⟩
  obtain ⟨h1, hdie, hreg, hrows, hsun⟩ := h1
  have h2 : Changed q (fun r => { r with loaded := some n, lastModel := x.modelId, imageHash := Config.imageHash i }) s s2 := h1.after (.modRun s1 q _)
  have hdie2 : s2.die = s.die := hdie
  have hreg2 : s2.reg = s.reg := hreg
  have hrows2 : s2.rows = s.rows := hrows
  have hsun2 : s2.sun = s.sun := hsun
  have hloaded : s2.loadedSlice q = some x := by
    rw [State.loadedSlice, h2.run, ← hx, ← slice?_of hdie2]
    rfl
  have h3 : SameSlices s2 s3 := List.foldlRecOn (motive := SameSlices s2) _ _ ⟨rfl, rfl, rfl, rfl, rfl⟩ fun _ ht u _ => ht.reloadTile q u
  have htr : ∀ (pos u : Nat), (s2.sliceTiles q)[pos]? = some u → (s3.tile (s2.phys u)).tr = sliceTerrace s2 x pos := fun pos u hu =>
    (reloadTiles_terrace hloaded hu (s2.sliceTiles q) s2 ⟨rfl, rfl, rfl, rfl, rfl⟩).2 (.inl (List.mem_of_getElem? hu))
  clear_value s3 s2
  have hwindow : (copyWindow s3 q x).pvs = s3.pvs ∧ (copyWindow s3 q x).sun = s3.sun ∧ (copyWindow s3 q x).tiles = s3.tiles := by simp
  generalize copyWindow s3 q x = v at *
  obtain ⟨hvpvs, hvsun, hvtiles⟩ := hwindow
  obtain ⟨⟨l, hplaced⟩, hpsun, hptr⟩ := placeImage_placed v q i
  refine ⟨⟨l, ((h2.andKept (hvpvs.trans h3.pvs)).trans hplaced)⟩, hpsun.trans (hvsun.trans (h3.sun.trans hsun2)), fun pos u hu => ?_⟩
  rw [hptr, tile_of hvtiles, ← phys_of hrows2, htr pos u (by rw [sliceTiles_of h2.res]; exact hu), sliceTerrace_of hdie2 hreg2]

/-- The end of a load clears its note. -/
theorem endLoad_changed (s : State) (q status detail : Nat) : Changed q (fun r => { r with load := none }) s (endLoad s q status detail) := by
  unfold endLoad
  split
  · next h => exact ⟨fun _ _ => rfl, rfl, by rw [← h]⟩
  · next j _ => exact (Changed.modRun s q _).andKept (by simp)

theorem shiftInComplete_clean {s : State} {q : Nat} {j : LoadJob} {x : Slice} (hj : (s.pv q).run.load = some j) (hx : s.slice? j.slice = some x) :
    shiftInComplete s q .clean = enterState (endLoad (shiftIn (sliceClean s x) q j.slice x j.image) q stDone 0) q pvLoaded := by
  simp only [shiftInComplete, hj, hx]
  rfl

theorem shiftInComplete_failed {s : State} {q u n : Nat} {j : LoadJob} {x : Slice} (hj : (s.pv q).run.load = some j) (hx : s.slice? j.slice = some x) :
    shiftInComplete s q (.uncorrectable u n) = failLoad (noteSlice s x (.uncorrectable u n)) q stFault := by
  simp only [shiftInComplete, hj, hx]
  rfl

theorem shiftInComplete_loads {s : State} {q : Nat} {j : LoadJob} {x : Slice} (hq : q < 4) (hj : (s.pv q).run.load = some j)
    (hx : s.slice? j.slice = some x) : ∃ t, exec (.shiftInComplete q .clean) s = .next t ∧ (t.pv q).run.st = pvLoaded ∧ (t.pv q).run.load = none
      ∧ (t.pv q).run.loaded = some j.slice ∧ (t.pv q).run.image = some j.image
      ∧ (∀ (pos u : Nat), (s.sliceTiles q)[pos]? = some u → (t.tile (s.phys u)).tr = sliceTerrace s x pos)
      ∧ (∀ y, y ≠ q → t.pv y = s.pv y) ∧ t.sun.ctr = s.sun.ctr ∧ t.gate = s.gate ∧ t.mod = s.mod := by
  have hexec : exec (.shiftInComplete q .clean) s = .next (shiftInComplete s q .clean) := if_pos hq
  rw [shiftInComplete_clean hj hx] at hexec
  have hclean : (sliceClean s x).pvs = s.pvs ∧ (sliceClean s x).die = s.die ∧ (sliceClean s x).reg = s.reg ∧ (sliceClean s x).rows = s.rows
      ∧ (sliceClean s x).sun = s.sun ∧ (sliceClean s x).gate = s.gate ∧ (sliceClean s x).mod = s.mod := by simp
  generalize sliceClean s x = u at *
  obtain ⟨hpvs, hdie, hreg, hrows, hsun, hgate, hmod⟩ := hclean
  obtain ⟨⟨l, hshift⟩, hsun', htr⟩ := shiftIn_placed (q := q) j.image ((slice?_of hdie _).trans hx)
  have hkept : (shiftIn u q j.slice x j.image).gate = u.gate ∧ (shiftIn u q j.slice x j.image).mod = u.mod := by simp
  generalize shiftIn u q j.slice x j.image = v at *
  have h := (((Changed.of_pvs q hpvs).after hshift).trans (endLoad_changed v q stDone 0)).trans (enterState_changed _ q pvLoaded)
  have hlast : (enterState (endLoad v q stDone 0) q pvLoaded).tiles = v.tiles ∧ (enterState (endLoad v q stDone 0) q pvLoaded).sun = v.sun
      ∧ (enterState (endLoad v q stDone 0) q pvLoaded).gate = v.gate ∧ (enterState (endLoad v q stDone 0) q pvLoaded).mod = v.mod := by simp
  generalize enterState (endLoad v q stDone 0) q pvLoaded = w at *
  obtain ⟨hwtiles, hwsun, hwgate, hwmod⟩ := hlast
  refine ⟨w, hexec, by rw [h.run]; rfl, by rw [h.run]; rfl, by rw [h.run]; rfl, by rw [h.run]; rfl, fun pos p hp => ?_, h.others, ?_,
    hwgate.trans (hkept.1.trans hgate), hwmod.trans (hkept.2.trans hmod)⟩
  · rw [← sliceTiles_of (t := u) (by rw [pv_of hpvs])] at hp
    rw [tile_of hwtiles, ← phys_of hrows, htr pos p hp, sliceTerrace_of hdie hreg]
  · rw [hwsun, hsun', hsun]

theorem shiftInComplete_empties {s : State} {q u n : Nat} {j : LoadJob} {x : Slice} (hq : q < 4) (hj : (s.pv q).run.load = some j)
    (hx : s.slice? j.slice = some x) : ∃ t, exec (.shiftInComplete q (.uncorrectable u n)) s = .next t ∧ (t.pv q).run.st = pvEmpty
      ∧ (t.pv q).run.load = none ∧ (t.pv q).run.loaded = none ∧ (t.pv q).run.image = none ∧ (∀ p ∈ s.pvTiles q, (t.tile p).tr = [])
      ∧ (∀ p, (t.tile p).sp = (s.tile p).sp) ∧ (∀ y, y ≠ q → t.pv y = s.pv y) := by
  have hexec : exec (.shiftInComplete q (.uncorrectable u n)) s = .next (shiftInComplete s q (.uncorrectable u n)) := if_pos hq
  rw [shiftInComplete_failed hj hx, failLoad] at hexec
  have hnoted : (noteSlice s x (.uncorrectable u n)).pvs = s.pvs ∧ (noteSlice s x (.uncorrectable u n)).tiles = s.tiles
      ∧ (noteSlice s x (.uncorrectable u n)).rows = s.rows := by simp
  generalize noteSlice s x (.uncorrectable u n) = v at *
  obtain ⟨hpvs, htiles, hrows⟩ := hnoted
  have hended := (Changed.of_pvs q hpvs).after (endLoad_changed v q stFault 0)
  have hkept : (endLoad v q stFault 0).tiles = s.tiles ∧ (endLoad v q stFault 0).rows = s.rows := by simp [htiles, hrows]
  generalize endLoad v q stFault 0 = w at *
  obtain ⟨htiles', hrows'⟩ := hkept
  have h := (hended.trans (unload_changed w q)).trans (enterState_changed _ q pvEmpty)
  obtain ⟨htr, hsp⟩ := unload_tiles w q
  have hentered : (enterState (unload w q) q pvEmpty).tiles = (unload w q).tiles := by simp
  generalize enterState (unload w q) q pvEmpty = z at *
  refine ⟨z, hexec, by rw [h.run]; rfl, by rw [h.run]; rfl, by rw [h.run]; rfl, by rw [h.run]; rfl, fun p hp => ?_, fun p => ?_, h.others⟩
  · rw [tile_of hentered]
    exact htr p (by rwa [pvTiles_of hended.res hrows'])
  · rw [tile_of hentered, hsp, tile_of htiles']

/-- Settles O46, one command, arrival or limit after the other. -/
theorem slicesStageAndLoad : Obligations.SlicesStageAndLoad := by
  refine ⟨fun s q k x table hq h => ?poll, fun s q k i x e c hq hi h he hfetch ht => ?verify, fun x e => rfl, fun s x n u b => 
      ⟨by rw [stageUnits], stageUnit_hbm .., by simp, stageUnit_sameModule ..⟩,
    fun s q k x hq h ht => (if_pos hq).trans (congrArg Host.Outcome.next (stagingTimeout_due h ht)),
    fun s k status detail x hx hs => ⟨endStaging_dropped detail hx hs, by simp⟩,
    fun s f cmd a q x h hq hf hst hown hheld => (if_pos h.function).trans (congrArg Host.Outcome.next (sliceDrop_free h hq hf hst hown hheld)),
    fun s f manifest cmd a q k h hq hf hst hfull hbusy hk hfree hroom => ?stage,
    fun s f image cmd a q h hq hf hst hslice hfull hbusy _ => loadModel_loads h hq hf hst hslice hfull hbusy,
    fun s q j x hq hj hx => shiftInComplete_loads hq hj hx, fun s q u n j x hq hj hx => shiftInComplete_empties hq hj hx⟩
  case poll =>
    refine ⟨_, (if_pos hq).trans (congrArg Host.Outcome.next (tablePoll_some h table)), rfl, rfl, rfl, by simp, fun i e a b he haddr htable hvalid hlen halign => ?_⟩
    rw [readEntries_getElem? he, htable, readEntry_valid haddr hvalid hlen halign]
  case verify =>
    obtain ⟨hgood, hbad⟩ := shardStep_fetching (c := c) h he hfetch ht
    refine (if_pos ⟨hq, hi⟩).trans (congrArg Host.Outcome.next ?_)
    cases hp : shardPlain x e c with
    | none => exact hbad hp
    | some p => exact hgood p hp
  case stage =>
    refine ⟨_, (if_pos h.function).trans (congrArg Host.Outcome.next (hamperStage_stages h hq hf hst hfull hbusy hk hfree hroom)), rfl, ?_, by simp, by simp, by simp,
      fun y hy => ?_⟩
    · exact accept_status h.copied 0x22 (some q) (loadTimeout a * 1000) [w64 k]
    · exact unwrap_slice (State.slice?_setSlice_same ..) hy

end Sys2Proof.Machine
end

section
/-!
PROOF. Requests, cancels, doorbells, completions and prefix lookups (O47).
-/

namespace Sys2Proof.Machine
open Sys2Proof

-- records that are read

theorem State.pv_emit (s : State) (o : Out) (q : Nat) : (s.emit o).pv q = s.pv q := rfl

/-- A record that has been read moves REQ_CI on, and the write-back record says so (R348). -/
theorem advance_some {s : State} {q : Nat} {r : Rings} (h : (s.pv q).front.rings = some r) :
    (advance s q).pv q = { s.pv q with front := { (s.pv q).front with rings := some { r with reqCi := r.reqCi + 1 } } }
      ∧ (∀ y, y ≠ q → (advance s q).pv y = s.pv y) ∧ (advance s q).out = s.out ++ [.hostWrite r.fn r.wb (writeBack { r with reqCi := r.reqCi + 1 })] := by
  simp only [advance, h]
  exact ⟨(State.pv_emit ..).trans (State.pv_modFront_same ..), fun y hy => (State.pv_emit ..).trans (State.pv_modFront_ne _ _ hy), rfl⟩

section
variable {s : State} {q : Nat} {i : Image} (hread : mayRead s q = some i)
include hread

theorem execSubmitRecord_read {rec : List W64} {tokens : List Nat} (hq : q < 4) (htype : bits (rec.getD 0 0) 7 0 ≠ 2) :
    exec (.submitRecord q rec tokens) s = .next (advance (submit s q i rec tokens) q) := by
  refine (if_pos hq).trans (congrArg Host.Outcome.next ?_)
  simp only [hread]
  exact if_neg htype

theorem execCancelRecord_read {rec : List W64} (hq : q < 4) (htype : bits (rec.getD 0 0) 7 0 = 2) :
    exec (.cancelRecord q rec) s = .next (advance (cancel s q rec) q) := by
  refine (if_pos hq).trans (congrArg Host.Outcome.next ?_)
  simp only [hread]
  exact if_pos htype

end

/-- What an accepted record queues. -/
theorem enqueue_waiting (s : State) (q : Nat) (rec : List W64) (prompt : List Nat) : ∃ x : Req,
    enqueue s q rec prompt = s.modFront q (fun f => { f with waiting := f.waiting ++ [x], readNow := f.readNow + 1 })
      ∧ x.tag = bits (rec.getD 0 0) 63 32 ∧ x.tenant = bits (rec.getD 0 0) 27 16 ∧ x.words = rec ∧ x.prompt = prompt
      ∧ x.cls = s.rd (TS_TENANT_CFG_CLASS x.tenant) ∧ x.since = s.sun.time ∧ x.cancelled = false ∧ x.emitted = 0 :=
  ⟨_, rfl, rfl, rfl, rfl, rfl, rfl, rfl, rfl, rfl⟩

section
variable {s : State} {q : Nat} {i : Image} {rec : List W64} {tokens prompt : List Nat}
  (hprompt : prompt = (List.range (bits (rec.getD 2 0) 18 0)).map (fun k => tokens.getD k 0))
include hprompt

theorem submit_accepted (hopen : refusing s q = false) (hgood : submitBad s q i rec prompt = false)
    (hhope : hopeless s (bits (rec.getD 0 0) 27 16) (bits (rec.getD 2 0) 18 0) (s.rd (TS_TENANT_CFG_CLASS (bits (rec.getD 0 0) 27 16))) = false) :
    submit s q i rec tokens = enqueue s q rec prompt := by
  subst hprompt
  simp only [submit, hopen, hgood, hhope]
  rfl

/-- The status of a record that is refused (R286). -/
theorem submit_refused {status : Nat} (h : status = stStateConflict ∧ refusing s q = true ∨ status = stBadArgument ∧ refusing s q = false ∧ submitBad s q i rec prompt = true
      ∨ status = stNoResource ∧ refusing s q = false ∧ submitBad s q i rec prompt = false
        ∧ hopeless s (bits (rec.getD 0 0) 27 16) (bits (rec.getD 2 0) 18 0) (s.rd (TS_TENANT_CFG_CLASS (bits (rec.getD 0 0) 27 16))) = true) :
    submit s q i rec tokens = refuse s q rec status ∧ status < 256 := by
  subst hprompt
  rcases h with ⟨rfl, hclosed⟩ | ⟨rfl, hopen, hbad⟩ | ⟨rfl, hopen, hgood, hhopeless⟩
  · simp only [submit, hclosed]
    exact ⟨rfl, by decide⟩
  · simp only [submit, hopen, hbad]
    exact ⟨rfl, by decide⟩
  · simp only [submit, hopen, hgood, hhopeless]
    exact ⟨rfl, by decide⟩

end

-- a record of KIND REFUSED

theorem CplRec.words_head (c : CplRec) : bits (c.words.getD 0 0) 7 0 = c.kind % 2 ^ 8 ∧ bits (c.words.getD 0 0) 15 8 = c.status % 2 ^ 8
    ∧ bits (c.words.getD 0 0) 63 32 = c.tag % 2 ^ 32 ∧ bits (c.words.getD 0 0) 19 16 = c.tokens.length % 2 ^ 4
    ∧ bits (c.words.getD 5 0) 59 48 = c.tenant % 2 ^ 12 := by
  simp [CplRec.words, tokWords, bits_setBits_same, bits_setBits_ne]

/-- Stamping a record touches its words 4 and 7 alone (R44, R304). -/
theorem stamped_getD (s : State) {ws : List W64} (h : ws.length = 8) : (stamped s ws).getD 0 0 = ws.getD 0 0 ∧ (stamped s ws).getD 5 0 = ws.getD 5 0
    ∧ (stamped s ws).getD 7 0 = w64 s.frame := by
  unfold stamped
  simp [List.getD_eq_getElem?_getD, h]

theorem putRecord_room {s : State} {q : Nat} {r : Rings} (ws : List W64) (hr : (s.pv q).front.rings = some r) (hstore : (s.pv q).front.store = [])
    (hroom : ringRoom r = true) : putRecord s q ws = (ringWrite s q r ws, false) := by
  simp only [putRecord, hr, hstore, hroom]
  rfl

/-- A refused record with room in the ring is answered there at once (R286, R348). -/
theorem refuse_written {s : State} {q status : Nat} {r : Rings} (rec : List W64) (hr : (s.pv q).front.rings = some r) (hstore : (s.pv q).front.store = [])
    (hroom : ringRoom r = true) (hs : status < 256) : ∃ u ws, refuse s q rec status = ringWrite u q r ws ∧ u.pvs = s.pvs ∧ u.reg = s.reg ∧ u.tiles = s.tiles
      ∧ u.die = s.die ∧ ws.length = 8 ∧ bits (ws.getD 0 0) 7 0 = 3 ∧ bits (ws.getD 0 0) 15 8 = status
      ∧ bits (ws.getD 0 0) 63 32 = bits (rec.getD 0 0) 63 32 ∧ bits (ws.getD 0 0) 19 16 = 0 ∧ bits (ws.getD 5 0) 59 48 = bits (rec.getD 0 0) 27 16 := by
  unfold refuse
  extract_lets ten own c
  obtain ⟨hkind, hstatus, htag, htokens, htenant⟩ := c.words_head
  have hkept : (if own then s else s.drawn).pvs = s.pvs ∧ (if own then s else s.drawn).reg = s.reg ∧ (if own then s else s.drawn).tiles = s.tiles
      ∧ (if own then s else s.drawn).die = s.die := by
    split <;> exact ⟨rfl, rfl, rfl, rfl⟩
  generalize (if own then s else s.drawn) = u at hkept ⊢
  obtain ⟨hpvs, hreg, htiles, hdie⟩ := hkept
  rw [← pv_of hpvs] at hr hstore
  refine ⟨u, c.words, ?_, hpvs, hreg, htiles, hdie, rfl, hkind, hstatus.trans (Nat.mod_eq_of_lt hs), htag.trans (Nat.mod_eq_of_lt ?_), htokens,
    htenant.trans (Nat.mod_eq_of_lt ?_)⟩
  · rw [complete, putRecord_room _ hr hstore hroom]
    rfl
  · exact bits_lt ..
  · exact bits_lt ..

-- SUBMIT and CANCEL

theorem submitRecord_accepted {s : State} {q : Nat} {i : Image} {r : Rings} {rec : List W64} {tokens prompt : List Nat} (hq : q < 4) (hread : mayRead s q = some i)
    (hr : (s.pv q).front.rings = some r) (htype : bits (rec.getD 0 0) 7 0 ≠ 2)
    (hprompt : prompt = (List.range (bits (rec.getD 2 0) 18 0)).map (fun k => tokens.getD k 0)) (hopen : refusing s q = false)
    (hgood : submitBad s q i rec prompt = false)
    (hhope : hopeless s (bits (rec.getD 0 0) 27 16) (bits (rec.getD 2 0) 18 0) (s.rd (TS_TENANT_CFG_CLASS (bits (rec.getD 0 0) 27 16))) = false) :
    ∃ t x, exec (.submitRecord q rec tokens) s = .next t ∧ (t.pv q).front.waiting = (s.pv q).front.waiting ++ [x]
      ∧ x.tag = bits (rec.getD 0 0) 63 32 ∧ x.tenant = bits (rec.getD 0 0) 27 16 ∧ x.words = rec ∧ x.prompt = prompt
      ∧ x.cls = s.rd (TS_TENANT_CFG_CLASS x.tenant) ∧ x.since = s.sun.time ∧ x.cancelled = false ∧ x.emitted = 0
      ∧ (t.pv q).front.rings = some { r with reqCi := r.reqCi + 1 }
      ∧ t.out = s.out ++ [.hostWrite r.fn r.wb [setBits (setBits 0 31 0 (r.reqCi + 1).toNat) 63 32 r.cplPi.toNat, 0]]
      ∧ (t.pv q).front.live = (s.pv q).front.live ∧ (t.pv q).run = (s.pv q).run ∧ (∀ y, y ≠ q → t.pv y = s.pv y)
      ∧ t.reg = s.reg ∧ t.tiles = s.tiles ∧ t.fns = s.fns ∧ t.die = s.die := by
  have hexec := execSubmitRecord_read (tokens := tokens) hread hq htype
  obtain ⟨x, hx, htag, htenant, hwords, hp, hcls, hsince, hcancelled, hemitted⟩ := enqueue_waiting s q rec prompt
  rw [submit_accepted hprompt hopen hgood hhope, hx] at hexec
  have hpv := State.pv_modFront_same s q (fun f => { f with waiting := f.waiting ++ [x], readNow := f.readNow + 1 })
  obtain ⟨hself, hothers, hout⟩ := advance_some (r := r) (congrArg (fun v : Pv => v.front.rings) hpv |>.trans hr)
  refine ⟨_, x, hexec, ?_, htag, htenant, hwords, hp, hcls, hsince, hcancelled, hemitted, ?_, hout, ?_, ?_,
    fun y hy => (hothers y hy).trans (State.pv_modFront_ne _ _ hy), by simp, by simp, by simp, by simp⟩
  all_goals rw [hself]
  · rw [hpv]
  · rw [hpv]
  · rw [hpv]

/-- A record that is refused while the ring has room (R286). -/
theorem submitRecord_refused {s : State} {q : Nat} {i : Image} {r : Rings} {rec : List W64} {tokens prompt : List Nat} {status : Nat} (hq : q < 4)
    (hread : mayRead s q = some i) (hr : (s.pv q).front.rings = some r) (hstore : (s.pv q).front.store = []) (hroom : ringRoom r = true)
    (htype : bits (rec.getD 0 0) 7 0 ≠ 2) (hprompt : prompt = (List.range (bits (rec.getD 2 0) 18 0)).map (fun k => tokens.getD k 0))
    (h : status = stStateConflict ∧ refusing s q = true ∨ status = stBadArgument ∧ refusing s q = false ∧ submitBad s q i rec prompt = true
      ∨ status = stNoResource ∧ refusing s q = false ∧ submitBad s q i rec prompt = false
        ∧ hopeless s (bits (rec.getD 0 0) 27 16) (bits (rec.getD 2 0) 18 0) (s.rd (TS_TENANT_CFG_CLASS (bits (rec.getD 0 0) 27 16))) = true) :
    ∃ t ws, exec (.submitRecord q rec tokens) s = .next t
      ∧ .hostWrite r.fn (r.cplBase + 64 * (r.cplPi.toNat % 2 ^ r.cplN)) ws ∈ t.out
      ∧ bits (ws.getD 0 0) 7 0 = 3 ∧ bits (ws.getD 0 0) 15 8 = status ∧ bits (ws.getD 0 0) 63 32 = bits (rec.getD 0 0) 63 32
      ∧ bits (ws.getD 0 0) 19 16 = 0 ∧ bits (ws.getD 5 0) 59 48 = bits (rec.getD 0 0) 27 16 ∧ ws.getD 7 0 = w64 s.frame
      ∧ (t.pv q).front.rings = some { r with reqCi := r.reqCi + 1, cplPi := r.cplPi + 1 }
      ∧ (t.pv q).front.waiting = (s.pv q).front.waiting ∧ (t.pv q).front.live = (s.pv q).front.live ∧ (t.pv q).run = (s.pv q).run
      ∧ t.reg = s.reg ∧ t.tiles = s.tiles ∧ t.die = s.die := by
  have hexec := execSubmitRecord_read (tokens := tokens) hread hq htype
  obtain ⟨hrefuse, hs⟩ := submit_refused hprompt h
  obtain ⟨u, ws, hwrite, hpvs, hreg, htiles, hdie, hlen, hkind, hstatus, htag, htokens, htenant⟩ := refuse_written rec hr hstore hroom hs
  rw [hrefuse, hwrite] at hexec
  obtain ⟨hfront, hrun, hwritten, -⟩ := ringWrite_facts u q r ws
  have hkept : (ringWrite u q r ws).reg = s.reg ∧ (ringWrite u q r ws).tiles = s.tiles ∧ (ringWrite u q r ws).die = s.die := by simp [hreg, htiles, hdie]
  obtain ⟨hhead, hfive, hframe⟩ := stamped_getD u hlen
  generalize ringWrite u q r ws = v at *
  rw [pv_of hpvs] at hfront hrun
  obtain ⟨hself, -, hout⟩ := advance_some (s := v) (q := q) (r := { r with cplPi := r.cplPi + 1 }) (by rw [hfront])
  refine ⟨_, stamped u ws, hexec, ?_, ?_, ?_, ?_, ?_, ?_, ?_, ?_, ?_, ?_, ?_, by simpa using hkept.1, by simpa using hkept.2.1, by simpa using hkept.2.2⟩
  · rw [hout]
    exact List.mem_append_left _ hwritten
  · rw [hhead, hkind]
  · rw [hhead, hstatus]
  · rw [hhead, htag]
  · rw [hhead, htokens]
  · rw [hfive, htenant]
  · rw [hframe, State.frame, State.frame, rd_reg hreg]
  · rw [hself]
  · rw [hself, hfront]
  · rw [hself, hfront]
  · rw [hself, hrun]

theorem cancel_known {s : State} {q tag : Nat} {x : Req} {rec : List W64} (hreserved : bits (rec.getD 0 0) 31 28 = 0) (hzero : bits (rec.getD 0 0) 15 8 = 0)
    (hrest : (rec.drop 1).all (· == 0) = true) (htenant : tenantOf s q (bits (rec.getD 0 0) 27 16) = true) (hopen : refusing s q = false)
    (htag : tag = bits (rec.getD 0 0) 63 32) (hfind : findReq s q tag = some x) (hlive : x.cancelled = false) (hnew : tag ∉ (s.pv q).front.cancels) :
    cancel s q rec = s.modFront q (fun f => { f with cancels := f.cancels ++ [tag], readNow := f.readNow + 1 }) := by
  subst htag
  have hrest' : (rec.drop 1).any (· != 0) = false := by
    rw [List.any_eq_false]
    intro w hw
    simpa using List.all_eq_true.1 hrest w hw
  unfold cancel
  extract_lets a tag known
  have hfind' : findReq s q tag = some x := hfind
  have hnew' : (s.pv q).front.cancels.contains tag = false := by
    rw [Bool.eq_false_iff]
    exact fun h => hnew (List.contains_iff_mem.1 h)
  have hknown : known = true := by
    simp only [known, hfind', hlive, hnew']
    rfl
  rw [if_neg (by simp [hopen]), if_neg, if_neg (by simp [hknown])]
  rintro (h | h | h | h)
  · exact h hreserved
  · exact h hzero
  · exact absurd (h.symm.trans hrest') (by decide)
  · exact absurd (htenant.symm.trans (Bool.not_eq_true' _ |>.mp h)) (by decide)

theorem cancelRecord_noted {s : State} {q tag : Nat} {i : Image} {r : Rings} {rec : List W64} (hq : q < 4) (hread : mayRead s q = some i)
    (hr : (s.pv q).front.rings = some r) (htype : bits (rec.getD 0 0) 7 0 = 2)
    (hcancel : cancel s q rec = s.modFront q (fun f => { f with cancels := f.cancels ++ [tag], readNow := f.readNow + 1 })) :
    ∃ t, exec (.cancelRecord q rec) s = .next t ∧ (t.pv q).front.cancels = (s.pv q).front.cancels ++ [tag]
      ∧ (t.pv q).front.rings = some { r with reqCi := r.reqCi + 1 } ∧ (t.pv q).front.waiting = (s.pv q).front.waiting
      ∧ (t.pv q).front.live = (s.pv q).front.live ∧ (t.pv q).run = (s.pv q).run ∧ t.reg = s.reg ∧ t.tiles = s.tiles ∧ t.fns = s.fns ∧ t.die = s.die := by
  have hexec := execCancelRecord_read hread hq htype
  rw [hcancel] at hexec
  have hpv := State.pv_modFront_same s q (fun f => { f with cancels := f.cancels ++ [tag], readNow := f.readNow + 1 })
  obtain ⟨hself, -, -⟩ := advance_some (r := r) (congrArg (fun v : Pv => v.front.rings) hpv |>.trans hr)
  refine ⟨_, hexec, ?_, ?_, ?_, ?_, ?_, by simp, by simp, by simp, by simp⟩
  all_goals rw [hself]
  all_goals rw [hpv]

-- doorbells

theorem doorbellRings_some {s : State} {f : Func} {q : Nat} {r : Rings} (hr : (s.pv q).front.rings = some r) (hf : r.fn = fnNum f) :
    doorbellRings s f q = some r := by
  rw [doorbellRings, hr]
  exact if_pos hf

section
variable {s : State} {f : Func} {q : Nat} {r : Rings} {v : W64} {x : W32} (hr : (s.pv q).front.rings = some r) (hf : r.fn = fnNum f) (hx : x = v.setWidth 32)
include hr hf hx

/-- A request doorbell that neither overfills the ring nor moves backward (R349, R355). -/
theorem reqDoorbell_moves (hfits : (x - r.reqCi).toNat ≤ 2 ^ r.reqN) (hforward : (r.reqPi - r.reqCi).toNat ≤ (x - r.reqCi).toNat) :
    reqDoorbell s f q v = (s.modFront q (fun y => { y with rings := some { r with stalled := false } })).modFront q
      (fun y => { y with rings := some { r with reqPi := x, stalled := false } }) := by
  subst hx
  simp only [reqDoorbell, doorbellRings_some hr hf]
  exact if_neg (by omega)

theorem reqDoorbell_refused (hbad : 2 ^ r.reqN < (x - r.reqCi).toNat ∨ (x - r.reqCi).toNat < (r.reqPi - r.reqCi).toNat) :
    reqDoorbell s f q v = setEvent (s.modFront q (fun y => { y with rings := some { r with stalled := false } })) r.fn 4 := by
  subst hx
  simp only [reqDoorbell, doorbellRings_some hr hf]
  exact if_pos hbad

theorem cplDoorbell_moves (hfits : (x - r.cplCi).toNat ≤ (r.cplPi - r.cplCi).toNat) :
    cplDoorbell s f q v = s.modFront q (fun y => { y with rings := some { r with cplCi := x } }) := by
  subst hx
  simp only [cplDoorbell, doorbellRings_some hr hf]
  exact if_neg (by omega)

theorem cplDoorbell_refused (hbad : (r.cplPi - r.cplCi).toNat < (x - r.cplCi).toNat) : cplDoorbell s f q v = setEvent s r.fn 4 := by
  subst hx
  simp only [cplDoorbell, doorbellRings_some hr hf]
  exact if_pos hbad

end

-- held records

/-- What the flush of `l` leaves (R350): the ring moved on by their number, each of them written at its place. -/
structure Flushed (q : Nat) (r : Rings) (l : List (List W64)) (s t : State) : Prop where
  store : (t.pv q).front.store = []
  rings : (t.pv q).front.rings = some { r with cplPi := r.cplPi + BitVec.ofNat 32 l.length }
  waiting : (t.pv q).front.waiting = (s.pv q).front.waiting
  live : (t.pv q).front.live = (s.pv q).front.live
  run : (t.pv q).run = (s.pv q).run
  written : ∀ k ws, l[k]? = some ws →
    .hostWrite r.fn (r.cplBase + 64 * ((r.cplPi + BitVec.ofNat 32 k).toNat % 2 ^ r.cplN)) (stamped s ws) ∈ t.out
  out : ∀ o ∈ s.out, o ∈ t.out
  reg : t.reg = s.reg
  tiles : t.tiles = s.tiles
  die : t.die = s.die

theorem cplPi_next (p : W32) (k : Nat) : p + 1 + BitVec.ofNat 32 k = p + BitVec.ofNat 32 (k + 1) := by
  rw [BitVec.ofNat_add, BitVec.add_assoc, BitVec.add_comm 1]
  rfl

theorem flushStore_flushed (l : List (List W64)) : ∀ (s : State) (q : Nat) (r : Rings), (s.pv q).front.rings = some r → (s.pv q).front.store = l → r.cplN ≤ 16 →
    (r.cplPi - r.cplCi).toNat + l.length ≤ 2 ^ r.cplN → Flushed q r l s (flushStore q l.length s) := by
  induction l with
  | nil =>
    intro s q r hr hstore hN hroom
    exact ⟨hstore, hr.trans (by simp), rfl, rfl, rfl, fun k ws h => absurd h (by simp), fun o h => h, rfl, rfl, rfl⟩
  | cons ws rest ih =>
    intro s q r hr hstore hN hroom
    have hcap : 2 ^ r.cplN ≤ 2 ^ 16 := Nat.pow_le_pow_right (by decide) hN
    rw [List.length_cons] at hroom
    have hfree : ringRoom r = true := decide_eq_true (by omega)
    have hstep : flushStore q (rest.length + 1) s
        = flushStore q rest.length ((ringWrite s q r ws).modFront q (fun f => { f with store := rest })) := by
      simp only [flushStore, hr, hstore, hfree]
      rfl
    rw [List.length_cons, hstep]
    obtain ⟨hfront, hrun, hwritten, hout⟩ := ringWrite_facts s q r ws
    have hkept : (ringWrite s q r ws).reg = s.reg ∧ (ringWrite s q r ws).tiles = s.tiles ∧ (ringWrite s q r ws).die = s.die := by simp
    have hstamp : ∀ x, stamped ((ringWrite s q r ws).modFront q (fun f => { f with store := rest })) x = stamped s x := fun x => stamped_ringWrite ..
    have hpv := State.pv_modFront_same (ringWrite s q r ws) q (fun f => { f with store := rest })
    have hu : ((ringWrite s q r ws).modFront q (fun f => { f with store := rest })).out = (ringWrite s q r ws).out := rfl
    have hu' : ((ringWrite s q r ws).modFront q (fun f => { f with store := rest })).reg = (ringWrite s q r ws).reg
        ∧ ((ringWrite s q r ws).modFront q (fun f => { f with store := rest })).tiles = (ringWrite s q r ws).tiles
        ∧ ((ringWrite s q r ws).modFront q (fun f => { f with store := rest })).die = (ringWrite s q r ws).die := ⟨rfl, rfl, rfl⟩
    generalize (ringWrite s q r ws).modFront q (fun f => { f with store := rest }) = u at *
    generalize ringWrite s q r ws = v at *
    have hringsU : (u.pv q).front.rings = some { r with cplPi := r.cplPi + 1 } := by
      rw [hpv]
      exact congrArg PvFront.rings hfront
    have hstoreU : (u.pv q).front.store = rest := by rw [hpv]
    have hwaitingU : (u.pv q).front.waiting = (s.pv q).front.waiting := by
      rw [hpv]
      have hv := congrArg PvFront.waiting hfront
      exact hv
    have hliveU : (u.pv q).front.live = (s.pv q).front.live := by
      rw [hpv]
      have hv := congrArg PvFront.live hfront
      exact hv
    have hrunU : (u.pv q).run = (s.pv q).run := by
      rw [hpv]
      exact hrun
    have hnext : (r.cplPi + 1 - r.cplCi).toNat = (r.cplPi - r.cplCi).toNat + 1 := by bv_omega
    have h := ih u q { r with cplPi := r.cplPi + 1 } hringsU hstoreU hN (by simp only [hnext]; omega)
    refine ⟨h.store, ?_, ?_, ?_, ?_, fun k x hk => ?_, fun o ho => h.out o (hu ▸ hout o ho), h.reg.trans (hu'.1.trans hkept.1),
      h.tiles.trans (hu'.2.1.trans hkept.2.1), h.die.trans (hu'.2.2.trans hkept.2.2)⟩
    · rw [h.rings, List.length_cons]
      simp only [cplPi_next]
    · exact h.waiting.trans hwaitingU
    · exact h.live.trans hliveU
    · exact h.run.trans hrunU
    · cases k with
      | zero =>
        obtain rfl : ws = x := Option.some.inj hk
        exact h.out _ (by rw [hu]; simpa using hwritten)
      | succ k =>
        have hw := h.written k x (by simpa using hk)
        rw [hstamp] at hw
        simpa only [cplPi_next] using hw

/-- A ring without room takes no record. -/
theorem flushStore_full {s : State} {q : Nat} {r : Rings} (n : Nat) (hr : (s.pv q).front.rings = some r) (hroom : ringRoom r = false) : flushStore q n s = s := by
  cases n with
  | zero => rfl
  | succ n =>
    simp only [flushStore, hr]
    split
    · next r' ws rest hr' _ =>
      obtain rfl : r = r' := Option.some.inj hr'
      rw [if_neg (by simp [hroom])]
    · rfl

-- what a lookup tells the other modules

theorem queueCtl_out (s : State) (port : Nat) (c0 c1 : W64) : ∀ o ∈ s.out, o ∈ (queueCtl s port c0 c1).out := by
  unfold queueCtl
  split
  · exact fun o ho => List.mem_append_left _ ho
  · exact fun o ho => ho

theorem sendWord_out (s : State) (ports : List Nat) (type low : Nat) (c1 : W64) : ∀ o ∈ s.out, o ∈ (sendWord s ports type low c1).out := by
  intro o ho
  have hnumbered : ∀ u : State, (ctlNumbered u type).out = u.out := fun u => by simp
  rw [sendWord, hnumbered]
  exact List.foldlRecOn (motive := fun t : State => o ∈ t.out) ports _ ho fun t ht port _ => queueCtl_out t port _ c1 o ht

theorem tellWarden_out (s : State) (module : Nat) (m : WMsg) :
    .warden module m ∈ (s.tellWarden module m).out ∧ ∀ o ∈ s.out, o ∈ (s.tellWarden module m).out := by
  have hemit : .warden module m ∈ (s.emit (.warden module m)).out ∧ ∀ o ∈ s.out, o ∈ (s.emit (.warden module m)).out :=
    ⟨List.mem_append_right _ (List.mem_singleton_self _), fun o ho => List.mem_append_left _ ho⟩
  unfold State.tellWarden
  extract_lets s1
  split
  · exact ⟨sendWord_out _ _ _ _ _ _ hemit.1, fun o ho => sendWord_out _ _ _ _ _ _ (hemit.2 o ho)⟩
  · exact hemit

/-- A step of the Icehouse that changes the pool of pavilion `q` and tells other modules, and nothing else that a request sees. -/
structure PoolStep (q : Nat) (s t : State) : Prop where
  others : ∀ y, y ≠ q → t.pv y = s.pv y
  run : (t.pv q).run = (s.pv q).run
  waiting : (t.pv q).front.waiting = (s.pv q).front.waiting
  live : (t.pv q).front.live = (s.pv q).front.live
  asks : (t.pv q).front.asks = (s.pv q).front.asks
  reg : t.reg = s.reg
  out : ∀ o ∈ s.out, o ∈ t.out

theorem PoolStep.of_pvs {s t : State} (q : Nat) (hpvs : t.pvs = s.pvs) (hreg : t.reg = s.reg) (hout : ∀ o ∈ s.out, o ∈ t.out) : PoolStep q s t :=
  ⟨fun y _ => pv_of hpvs y, by rw [pv_of hpvs], by rw [pv_of hpvs], by rw [pv_of hpvs], by rw [pv_of hpvs], hreg, hout⟩

theorem PoolStep.trans {q : Nat} {s t u : State} (h : PoolStep q s t) (k : PoolStep q t u) : PoolStep q s u :=
  ⟨fun y hy => (k.others y hy).trans (h.others y hy), k.run.trans h.run, k.waiting.trans h.waiting, k.live.trans h.live, k.asks.trans h.asks,
    k.reg.trans h.reg, fun o ho => k.out o (h.out o ho)⟩

theorem PoolStep.foldl {α : Type} {q : Nat} {f : State → α → State} (h : ∀ s x, PoolStep q s (f s x)) (l : List α) (s : State) : PoolStep q s (l.foldl f s) :=
  List.foldlRecOn (motive := PoolStep q s) l f (.of_pvs q rfl rfl fun _ ho => ho) fun _ ht x _ => ht.trans (h _ x)

theorem PoolStep.tellWarden (q : Nat) (s : State) (module : Nat) (m : WMsg) : PoolStep q s (s.tellWarden module m) :=
  .of_pvs q (by simp) (by simp) (tellWarden_out s module m).2

theorem PoolStep.modPool (q : Nat) (s : State) (f : Pool → Pool) : PoolStep q s (s.modPool q f) := by
  have hpv : (s.modPool q f).pv q = { s.pv q with front := { (s.pv q).front with pool := (s.pv q).front.pool.map f } } := State.pv_modFront_same ..
  exact ⟨fun y hy => State.pv_modFront_ne _ _ hy, by rw [hpv], by rw [hpv], by rw [hpv], by rw [hpv], rfl, fun _ ho => ho⟩

theorem PoolStep.hearDecision (q : Nat) (s : State) (f : Nat) (d : IhDecision) : PoolStep q s (hearDecision s q f d) := by
  have hpv := State.pv_modFront_same s q (fun x => { x with decisions := x.decisions ++ [(f, d)] })
  have hfirst : PoolStep q s (s.modFront q (fun x => { x with decisions := x.decisions ++ [(f, d)] })) :=
    ⟨fun y hy => State.pv_modFront_ne _ _ hy, by rw [hpv], by rw [hpv], by rw [hpv], by rw [hpv], rfl, fun _ ho => ho⟩
  exact hfirst.trans (.modPool q _ (Pool.reserve d))

theorem PoolStep.decide (q : Nat) (s : State) (modules : List Nat) (d : IhDecision) : PoolStep q s (decide_ s q modules d) :=
  (PoolStep.hearDecision q s (s.frame + 2) d).trans (.foldl (fun s m => .tellWarden q s m (.decision q _ d)) _ _)

theorem PoolStep.sendTable (q : Nat) (s : State) (i : Image) (a : Ask) (t : TableMsg) : PoolStep q s (sendTable s i a t) := by
  have htable : PoolStep q s (writeTable s a.pv i t) := by
    have hout : (writeTable s a.pv i t).out = s.out := by simp
    exact .of_pvs q (by simp) (by simp) fun o ho => hout ▸ ho
  exact htable.trans (.foldl (fun s m => .tellWarden q s m (.table a.pv t)) _ _)

-- requests that have been looked up

/-- The live requests of a tag count as looked up; the other ones are as they were. -/
structure Looked (q tag : Nat) (s t : State) : Prop where
  others : ∀ y, y ≠ q → t.pv y = s.pv y
  run : (t.pv q).run = (s.pv q).run
  waiting : (t.pv q).front.waiting = (s.pv q).front.waiting
  looked : ∀ y ∈ (t.pv q).front.live, y.tag = tag → y.looked = true
  kept : ∀ y ∈ (s.pv q).front.live, y.tag ≠ tag → y ∈ (t.pv q).front.live

theorem Looked.step {q tag : Nat} {s t u : State} (h : Looked q tag s t) (k : PoolStep q t u) : Looked q tag s u :=
  ⟨fun y hy => (k.others y hy).trans (h.others y hy), k.run.trans h.run, k.waiting.trans h.waiting, k.live ▸ h.looked, k.live ▸ h.kept⟩

theorem marked_pv (s : State) (q tag : Nat) : (marked s q tag).pv q = { s.pv q with front := { (s.pv q).front with
    live := (s.pv q).front.live.map (fun x => if x.tag = tag then { x with looked := true } else x),
    asks := (s.pv q).front.asks.filter (fun a => a.tag != tag) } } := State.pv_modFront_same ..

theorem marked_looked (s : State) (q tag : Nat) : Looked q tag s (marked s q tag) := by
  refine ⟨fun y hy => State.pv_modFront_ne _ _ hy, by rw [marked_pv], by rw [marked_pv], fun y hy htag => ?_, fun y hy htag => ?_⟩
  · rw [marked_pv] at hy
    obtain ⟨x, -, rfl⟩ := List.mem_map.1 hy
    by_cases hx : x.tag = tag
    · rw [if_pos hx]
    · rw [if_neg hx] at htag
      exact absurd htag hx
  · rw [marked_pv]
    exact List.mem_map.2 ⟨y, hy, if_neg htag⟩

theorem noteMatched_pv (s : State) (q tag blocks : Nat) (hs : List (List Byte)) : (noteMatched s q tag blocks hs).pv q = { s.pv q with front := { (s.pv q).front with
    live := (s.pv q).front.live.map (fun x => if x.tag = tag then { x with matched := 256 * blocks, hashes := hs } else x) } } := State.pv_modFront_same ..

theorem Looked.note {q tag : Nat} {s t : State} (h : Looked q tag s t) (blocks : Nat) (hs : List (List Byte)) :
    Looked q tag s (noteMatched t q tag blocks hs) := by
  refine ⟨fun y hy => (State.pv_modFront_ne _ _ hy).trans (h.others y hy), ?_, ?_, fun y hy htag => ?_, fun y hy htag => ?_⟩
  · rw [noteMatched_pv, h.run]
  · rw [noteMatched_pv, ← h.waiting]
  · rw [noteMatched_pv] at hy
    obtain ⟨x, hx, rfl⟩ := List.mem_map.1 hy
    by_cases e : x.tag = tag
    · rw [if_pos e]
      exact h.looked x hx e
    · rw [if_neg e] at htag
      exact absurd htag e
  · rw [noteMatched_pv]
    exact List.mem_map.2 ⟨y, h.kept y hy htag, if_neg htag⟩

theorem noteMatched_matched {s : State} {q tag blocks : Nat} {hs : List (List Byte)} {y : Req} (hy : y ∈ ((noteMatched s q tag blocks hs).pv q).front.live)
    (htag : y.tag = tag) : y.matched = 256 * blocks ∧ y.hashes = hs := by
  rw [noteMatched_pv] at hy
  obtain ⟨x, -, rfl⟩ := List.mem_map.1 hy
  by_cases e : x.tag = tag
  · rw [if_pos e]
    exact ⟨rfl, rfl⟩
  · rw [if_neg e] at htag
    exact absurd htag e

-- the lead's lookup

/-- The blocks of a lookup are counted (R279). -/
def counted (s : State) (q blocks hits : Nat) : State := (s.inc (IH_PV_STATS_LOOKUP_BLOCKS q) blocks).inc (IH_PV_STATS_HIT_BLOCKS q) hits

theorem counted_index (s : State) (q blocks hits : Nat) : (counted s q blocks hits).index = s.index := by
  have hoff : SD_MACHINE_INDEX.off ≠ IH_PV_STATS_OFF q := by
    unfold IH_PV_STATS_OFF
    have : SD_MACHINE_INDEX.off < 0x10000 := by decide
    omega
  unfold counted State.inc State.index
  rw [State.rd_wr_off _ _ hoff, State.rd_wr_off _ _ hoff]

theorem counted_rd (s : State) (q blocks hits : Nat) :
    (counted s q blocks hits).rd (IH_PV_STATS_LOOKUP_BLOCKS q) = (s.rd (IH_PV_STATS_LOOKUP_BLOCKS q) + blocks) % 2 ^ 32
      ∧ (counted s q blocks hits).rd (IH_PV_STATS_HIT_BLOCKS q) = (s.rd (IH_PV_STATS_HIT_BLOCKS q) + hits) % 2 ^ 32 := by
  unfold counted State.inc
  constructor
  · rw [State.rd_wr_ne _ _ (f := IH_PV_STATS_HIT_BLOCKS q) (g := IH_PV_STATS_LOOKUP_BLOCKS q) (by simp [IH_PV_STATS_HIT_BLOCKS])
      (by simp [IH_PV_STATS_HIT_BLOCKS]) (.inl (by simp [IH_PV_STATS_HIT_BLOCKS, IH_PV_STATS_LOOKUP_BLOCKS]))]
    exact State.rd_wr_same _ _ _ (by simp [IH_PV_STATS_LOOKUP_BLOCKS]) (by simp [IH_PV_STATS_LOOKUP_BLOCKS])
  · rw [State.rd_wr_same _ (IH_PV_STATS_HIT_BLOCKS q) _ (by simp [IH_PV_STATS_HIT_BLOCKS]) (by simp [IH_PV_STATS_HIT_BLOCKS]),
      State.rd_wr_ne _ _ (f := IH_PV_STATS_LOOKUP_BLOCKS q) (g := IH_PV_STATS_HIT_BLOCKS q) (by simp [IH_PV_STATS_LOOKUP_BLOCKS])
      (by simp [IH_PV_STATS_LOOKUP_BLOCKS]) (.inr (by simp [IH_PV_STATS_HIT_BLOCKS, IH_PV_STATS_LOOKUP_BLOCKS]))]
    rfl

theorem lookupAsk_noPool {s : State} {i : Image} {a : Ask} (h : (s.pv a.pv).front.pool = none) :
    PoolStep a.pv (tellMatched s a 0 []) (lookupAsk s i a) := by
  have heq : lookupAsk s i a = sendTable (tellMatched s a 0 []) i a (tableOf a [] []) := by simp only [lookupAsk, h]
  rw [heq]
  exact .sendTable ..

theorem lookupAsk_passed {s : State} {i : Image} {a : Ask} {p : Pool} (h : (s.pv a.pv).front.pool = some p) (hlead : p.lead ≠ s.index) :
    lookupAsk s i a = s.tellWarden p.lead (.lookup a) := by
  simp only [lookupAsk, h]
  exact if_neg hlead

theorem lookupAsk_lead {s : State} {i : Image} {a : Ask} {p : Pool} (h : (s.pv a.pv).front.pool = some p) (hlead : p.lead = s.index) :
    lookupAsk s i a = leadLookup s i p a := by
  simp only [lookupAsk, h]
  exact if_pos hlead

theorem leadLookup_noGroup {s : State} (i : Image) (p : Pool) {a : Ask} (h : a.group = none) : PoolStep a.pv (tellMatched s a 0 []) (leadLookup s i p a) := by
  have heq : leadLookup s i p a = sendTable (tellMatched s a 0 []) i a (tableOf a [] []) := by simp only [leadLookup, h]
  rw [heq]
  exact .sendTable ..

theorem leadLookup_group {s : State} (i : Image) (p : Pool) {a : Ask} {g : Nat} {ds : List (List Byte)} (h : a.group = some g)
    (hds : ds = digests a.prompt (promptBlocks a.prompt) 0 (saltBytes s g)) :
    PoolStep a.pv (tellMatched (counted s a.pv ds.length (matchedSlots p.index g ds).length) a (matchedSlots p.index g ds).length ds) (leadLookup s i p a) := by
  obtain ⟨f, plan, t, heq⟩ : ∃ (f : Pool → Pool) (plan : List IhDecision) (t : TableMsg), leadLookup s i p a = sendTable (plan.foldl (fun s d => decide_ s a.pv i.deploy.poolModules d)
      ((tellMatched (counted s a.pv ds.length (matchedSlots p.index g ds).length) a (matchedSlots p.index g ds).length ds).modPool a.pv f)) i a t := by
    subst hds
    simp only [leadLookup, h]
    exact ⟨_, _, _, rfl⟩
  rw [heq]
  exact ((PoolStep.modPool a.pv _ f).trans (.foldl (fun s d => .decide a.pv s i.deploy.poolModules d) plan _)).trans (.sendTable a.pv _ i a t)

-- ICEHOUSE_LOOKUP

theorem tellMatched_here {s : State} {a : Ask} (blocks : Nat) (hs : List (List Byte)) (h : a.front = s.index) :
    tellMatched s a blocks hs = noteMatched s a.pv a.tag blocks hs := if_pos h

theorem tellMatched_away {s : State} {a : Ask} (blocks : Nat) (hs : List (List Byte)) (h : a.front ≠ s.index) :
    tellMatched s a blocks hs = s.tellWarden a.front (.matched a.pv a.tag blocks) := if_neg h

theorem icehouseLookup_next {s : State} {q tag : Nat} {i : Image} {a : Ask} (hq : q < 4) (hi : (s.pv q).run.image = some i) (ha : nextAsk s q tag = some a) :
    exec (.icehouseLookup q tag) s = .next (lookupAsk (marked s q tag) i a) := by
  refine (if_pos hq).trans (congrArg Host.Outcome.next ?_)
  simp only [hi, ha]

theorem icehouseLookup_none {s : State} {q tag : Nat} (hq : q < 4) (hlive : (s.pv q).front.live.find? (fun r => r.tag == tag && !r.looked) = none)
    (hasks : ∀ a ∈ (s.pv q).front.asks, a.tag ≠ tag) : exec (.icehouseLookup q tag) s = .next s := by
  have hnone : nextAsk s q tag = none := by
    simp only [nextAsk, hlive]
    exact List.find?_eq_none.2 fun a ha => by simpa using hasks a ha
  refine (if_pos hq).trans (congrArg Host.Outcome.next ?_)
  simp only [hnone]
  cases (s.pv q).run.image with
  | none => rfl
  | some i => rfl

/-- The pool of a pavilion stays while a request is marked. -/
theorem marked_pool (s : State) (q tag : Nat) : ((marked s q tag).pv q).front.pool = (s.pv q).front.pool := by rw [marked_pv]

theorem marked_index (s : State) (q tag : Nat) : (marked s q tag).index = s.index := rd_reg (by simp) _

theorem marked_salt (s : State) (q tag g : Nat) : saltBytes (marked s q tag) g = saltBytes s g := by
  have hreg : ∀ off, (marked s q tag).regW off = s.regW off := regW_of (by simp)
  simp only [saltBytes, hreg]

/-- A live request's lookup, in the front module (R278, R279): without a pool, passed to the lead, or by the lead itself. -/
theorem liveLookup_cases {s : State} {q tag : Nat} (i : Image) {a : Ask} (hpv : a.pv = q) (htag : a.tag = tag) (hfront : a.front = s.index) :
    Looked q tag s (lookupAsk (marked s q tag) i a)
      ∧ (∀ p, (s.pv q).front.pool = some p → p.lead ≠ s.index → .warden p.lead (.lookup a) ∈ (lookupAsk (marked s q tag) i a).out
          ∧ (lookupAsk (marked s q tag) i a).reg = s.reg)
      ∧ ((s.pv q).front.pool = none → PoolStep q (noteMatched (marked s q tag) q tag 0 []) (lookupAsk (marked s q tag) i a))
      ∧ ∀ p g ds, (s.pv q).front.pool = some p → p.lead = s.index → a.group = some g →
          ds = digests a.prompt (promptBlocks a.prompt) 0 (saltBytes s g) →
          PoolStep q (noteMatched (counted (marked s q tag) q ds.length (matchedSlots p.index g ds).length) q tag (matchedSlots p.index g ds).length ds)
            (lookupAsk (marked s q tag) i a) := by
  subst hpv htag
  have hmarked := marked_looked s a.pv a.tag
  have hpool := marked_pool s a.pv a.tag
  have hindex := marked_index s a.pv a.tag
  have hreg : (marked s a.pv a.tag).reg = s.reg := by simp
  have hsalt := marked_salt s a.pv a.tag
  generalize marked s a.pv a.tag = u at *
  have hhere : tellMatched u a 0 [] = noteMatched u a.pv a.tag 0 [] := tellMatched_here 0 [] (hfront.trans hindex.symm)
  have hpassed : ∀ p, (s.pv a.pv).front.pool = some p → p.lead ≠ s.index → lookupAsk u i a = u.tellWarden p.lead (.lookup a) := fun p hp hl =>
    lookupAsk_passed (hpool.trans hp) (by rwa [hindex])
  have hnone : (s.pv a.pv).front.pool = none → PoolStep a.pv (noteMatched u a.pv a.tag 0 []) (lookupAsk u i a) := fun hp =>
    hhere ▸ lookupAsk_noPool (hpool.trans hp)
  have hlead : ∀ p g ds, (s.pv a.pv).front.pool = some p → p.lead = s.index → a.group = some g →
      ds = digests a.prompt (promptBlocks a.prompt) 0 (saltBytes s g) →
      PoolStep a.pv (noteMatched (counted u a.pv ds.length (matchedSlots p.index g ds).length) a.pv a.tag (matchedSlots p.index g ds).length ds)
        (lookupAsk u i a) := fun p g ds hp hl hg hds => by
    rw [lookupAsk_lead (hpool.trans hp) (hl.trans hindex.symm),
      ← tellMatched_here _ _ (hfront.trans (hindex.symm.trans (counted_index u a.pv _ _).symm))]
    exact leadLookup_group i p hg (by rw [hsalt, hds])
  refine ⟨?_, fun p hp hl => ?_, hnone, hlead⟩
  · cases hp : (s.pv a.pv).front.pool with
    | none => exact (hmarked.note 0 []).step (hnone hp)
    | some p =>
      by_cases hl : p.lead = s.index
      · cases hg : a.group with
        | none =>
          rw [lookupAsk_lead (hpool.trans hp) (hl.trans hindex.symm)]
          exact (hmarked.note 0 []).step (hhere ▸ leadLookup_noGroup i p hg)
        | some g =>
          have hcounted := hlead p g _ hp hl hg rfl
          exact (Looked.note (t := counted u a.pv _ _) ⟨hmarked.others, hmarked.run, hmarked.waiting, hmarked.looked, hmarked.kept⟩ _ _).step hcounted
      · rw [hpassed p hp hl]
        exact hmarked.step (.tellWarden ..)
  · rw [hpassed p hp hl]
    exact ⟨(tellWarden_out ..).1, by simpa using hreg⟩

theorem icehouseLookup_live {s : State} {q : Nat} {i : Image} {x : Req} (hq : q < 4) (hi : (s.pv q).run.image = some i)
    (hfind : (s.pv q).front.live.find? (fun r => r.tag == x.tag && !r.looked) = some x) :
    ∃ t, exec (.icehouseLookup q x.tag) s = .next t
      ∧ (∀ y ∈ (t.pv q).front.live, y.tag = x.tag → y.looked = true) ∧ (t.pv q).front.waiting = (s.pv q).front.waiting
      ∧ (∀ y ∈ (s.pv q).front.live, y.tag ≠ x.tag → y ∈ (t.pv q).front.live)
      ∧ (t.pv q).run = (s.pv q).run ∧ (∀ y, y ≠ q → t.pv y = s.pv y) ∧ t.tiles = s.tiles ∧ t.fns = s.fns ∧ t.sun = s.sun
      ∧ (∀ p, (s.pv q).front.pool = some p → p.lead ≠ s.index → .warden p.lead (.lookup (askOf s q x)) ∈ t.out ∧ t.reg = s.reg)
      ∧ ((s.pv q).front.pool = none → t.reg = s.reg ∧ ∀ y ∈ (t.pv q).front.live, y.tag = x.tag → y.matched = 0)
      ∧ (∀ p g ds, (s.pv q).front.pool = some p → p.lead = s.index → s.rd (TS_TENANT_CFG_GROUP_VALID x.tenant) = 1 →
          g = s.rd (TS_TENANT_CFG_SALT x.tenant) → ds = digests x.prompt (promptBlocks x.prompt) 0 (saltBytes s g) →
          t.rd (IH_PV_STATS_LOOKUP_BLOCKS q) = (s.rd (IH_PV_STATS_LOOKUP_BLOCKS q) + ds.length) % 2 ^ 32
          ∧ t.rd (IH_PV_STATS_HIT_BLOCKS q) = (s.rd (IH_PV_STATS_HIT_BLOCKS q) + (matchedSlots p.index g ds).length) % 2 ^ 32
          ∧ ∀ y ∈ (t.pv q).front.live, y.tag = x.tag → y.matched = 256 * (matchedSlots p.index g ds).length ∧ y.hashes = ds) := by
  have hnext : nextAsk s q x.tag = some (askOf s q x) := by simp only [nextAsk, hfind]
  have hexec := icehouseLookup_next hq hi hnext
  obtain ⟨hlooked, hpassed, hnone, hlead⟩ := liveLookup_cases i (a := askOf s q x) (tag := x.tag) (q := q) rfl rfl rfl
  have hkept : (lookupAsk (marked s q x.tag) i (askOf s q x)).tiles = s.tiles ∧ (lookupAsk (marked s q x.tag) i (askOf s q x)).fns = s.fns
      ∧ (lookupAsk (marked s q x.tag) i (askOf s q x)).sun = s.sun := by simp
  have hreg : (marked s q x.tag).reg = s.reg := by simp
  generalize lookupAsk (marked s q x.tag) i (askOf s q x) = t at *
  generalize marked s q x.tag = u at *
  obtain ⟨htiles, hfns, hsun⟩ := hkept
  refine ⟨t, hexec, hlooked.looked, hlooked.waiting, hlooked.kept, hlooked.run, hlooked.others, htiles, hfns, hsun, hpassed, fun hp => ?_,
    fun p g ds hp hl hvalid hg hds => ?_⟩
  · have h := hnone hp
    refine ⟨h.reg.trans (by simpa using hreg), fun y hy htag => ?_⟩
    rw [h.live] at hy
    exact (noteMatched_matched hy htag).1
  · have hgroup : (askOf s q x).group = some g := by
      rw [hg]
      exact if_pos hvalid
    have h := hlead p g ds hp hl hgroup hds
    obtain ⟨hblocks, hhits⟩ := counted_rd u q ds.length (matchedSlots p.index g ds).length
    have hrd : ∀ f, t.rd f = (counted u q ds.length (matchedSlots p.index g ds).length).rd f := rd_reg (h.reg.trans (by simp))
    refine ⟨?_, ?_, fun y hy htag => ?_⟩
    · rw [hrd, hblocks, rd_reg hreg]
    · rw [hrd, hhits, rd_reg hreg]
    · rw [h.live] at hy
      exact noteMatched_matched hy htag

/-- A request that another module's front has passed to this lead (R278). -/
theorem icehouseLookup_passedOn {s : State} {q : Nat} {i : Image} {p : Pool} {a : Ask} {g : Nat} {ds : List (List Byte)} (hq : q < 4)
    (hi : (s.pv q).run.image = some i) (hother : ∀ r ∈ (s.pv q).front.live, r.tag ≠ a.tag) (hasks : (s.pv q).front.asks = [a]) (hpv : a.pv = q)
    (hfront : a.front ≠ s.index) (hp : (s.pv q).front.pool = some p) (hl : p.lead = s.index) (hg : a.group = some g)
    (hds : ds = digests a.prompt (promptBlocks a.prompt) 0 (saltBytes s g)) :
    ∃ t, exec (.icehouseLookup q a.tag) s = .next t ∧ (t.pv q).front.asks = []
      ∧ .warden a.front (.matched q a.tag (matchedSlots p.index g ds).length) ∈ t.out
      ∧ t.rd (IH_PV_STATS_LOOKUP_BLOCKS q) = (s.rd (IH_PV_STATS_LOOKUP_BLOCKS q) + ds.length) % 2 ^ 32
      ∧ (t.pv q).front.live = (s.pv q).front.live ∧ (t.pv q).run = (s.pv q).run ∧ t.tiles = s.tiles ∧ t.fns = s.fns := by
  subst hpv
  have hnext : nextAsk s a.pv a.tag = some a := by
    have hlive : (s.pv a.pv).front.live.find? (fun r => r.tag == a.tag && !r.looked) = none :=
      List.find?_eq_none.2 fun r hr => by simp [hother r hr]
    simp [nextAsk, hlive, hasks]
  have hexec := icehouseLookup_next hq hi hnext
  have hkept : (lookupAsk (marked s a.pv a.tag) i a).tiles = s.tiles ∧ (lookupAsk (marked s a.pv a.tag) i a).fns = s.fns := by simp
  have hasks' : ((marked s a.pv a.tag).pv a.pv).front.asks = [] := by
    rw [marked_pv, hasks]
    simp
  have hlive' : ((marked s a.pv a.tag).pv a.pv).front.live = (s.pv a.pv).front.live := by
    rw [marked_pv]
    refine (List.map_congr_left fun r hr => ?_).trans (List.map_id _)
    exact if_neg (hother r hr)
  have hrun' : ((marked s a.pv a.tag).pv a.pv).run = (s.pv a.pv).run := by rw [marked_pv]
  have hpool := marked_pool s a.pv a.tag
  have hindex := marked_index s a.pv a.tag
  have hreg : (marked s a.pv a.tag).reg = s.reg := by simp
  have hsalt := marked_salt s a.pv a.tag g
  generalize marked s a.pv a.tag = u at *
  rw [lookupAsk_lead (hpool.trans hp) (hl.trans hindex.symm)] at hexec hkept
  have hlead := leadLookup_group (s := u) i p hg (hds.trans (by rw [hsalt]))
  have haway : a.front ≠ (counted u a.pv ds.length (matchedSlots p.index g ds).length).index := by rwa [counted_index, hindex]
  rw [tellMatched_away _ _ haway] at hlead
  generalize leadLookup u i p a = t at *
  have hmessage := (tellWarden_out (counted u a.pv ds.length (matchedSlots p.index g ds).length) a.front (.matched a.pv a.tag (matchedSlots p.index g ds).length)).1
  have h := (PoolStep.tellWarden a.pv (counted u a.pv ds.length (matchedSlots p.index g ds).length) a.front
    (.matched a.pv a.tag (matchedSlots p.index g ds).length)).trans hlead
  have hpvs : (counted u a.pv ds.length (matchedSlots p.index g ds).length).pvs = u.pvs := rfl
  refine ⟨t, hexec, ?_, hlead.out _ hmessage, ?_, ?_, ?_, hkept.1, hkept.2⟩
  · rw [h.asks, pv_of hpvs, hasks']
  · rw [rd_reg h.reg, (counted_rd ..).1, rd_reg hreg]
  · rw [h.live, pv_of hpvs, hlive']
  · rw [h.run, pv_of hpvs, hrun']

/-- Settles O47, one record, doorbell or lookup after the other. -/
theorem requestsEnterAndLeave : Obligations.RequestsEnterAndLeave := by
  refine ⟨fun s q i r rec tokens prompt hq hread hr htype hp hopen hgood hhope => submitRecord_accepted hq hread hr htype hp hopen hgood hhope,
    fun s q i r rec tokens prompt status hq hread hr hstore hroom htype hp h => submitRecord_refused hq hread hr hstore hroom htype hp h,
    fun s q rec tokens hq hread => ?unread,
    fun s q tag i x r rec hq hread hr htype hres hzero hrest hten hopen htag hfind hlive hnew =>
      cancelRecord_noted hq hread hr htype (cancel_known hres hzero hrest hten hopen htag hfind hlive hnew),
    fun s f q r v x hf hq hr hfn hx => ⟨fun h => ?reqMoves, fun h => ?reqRefused, fun h => ?cplMoves, fun h => ?cplRefused⟩,
    fun s q r hq hr hN hroom => ?flush, fun s q r hq hr hroom => (if_pos hq).trans (congrArg Host.Outcome.next (flushStore_full _ hr hroom)),
    fun s q i x hq hi _ _ hfind => icehouseLookup_live hq hi hfind,
    fun s q i p a g ds hq hi hother hasks hpv hfront hp hl hg hds => icehouseLookup_passedOn hq hi hother hasks hpv hfront hp hl hg hds,
    fun s q tag hq hlive hasks => icehouseLookup_none hq hlive hasks⟩
  case unread =>
    refine ⟨(if_pos hq).trans (congrArg Host.Outcome.next ?_), (if_pos hq).trans (congrArg Host.Outcome.next ?_)⟩
    · simp only [hread]
    · simp only [hread]
  case reqMoves =>
    have hpv := State.pv_modFront_same (s.modFront q (fun y => { y with rings := some { r with stalled := false } })) q
      (fun y => { y with rings := some { r with reqPi := x, stalled := false } })
    refine ⟨_, (if_pos ⟨hf, hq⟩).trans (congrArg Host.Outcome.next (reqDoorbell_moves hr hfn hx h.1 h.2)), ?_, rfl, ?_, ?_, rfl, rfl, rfl⟩
    · rw [hpv]
    · rw [hpv, State.pv_modFront_same]
    · rw [hpv, State.pv_modFront_same]
  case reqRefused =>
    refine ⟨_, (if_pos ⟨hf, hq⟩).trans (congrArg Host.Outcome.next (reqDoorbell_refused hr hfn hx h)), ?_, setEvent_rd .., by simp, by simp⟩
    rw [setEvent_pv, State.pv_modFront_same]
  case cplMoves =>
    refine ⟨_, (if_pos ⟨hf, hq⟩).trans (congrArg Host.Outcome.next (cplDoorbell_moves hr hfn hx h)), ?_, rfl, ?_, ?_, rfl, rfl, rfl⟩
    all_goals rw [State.pv_modFront_same]
  case cplRefused =>
    exact ⟨_, (if_pos ⟨hf, hq⟩).trans (congrArg Host.Outcome.next (cplDoorbell_refused hr hfn hx h)), setEvent_pv .., setEvent_rd .., by simp, by simp⟩
  case flush =>
    have h := flushStore_flushed _ s q r hr rfl hN hroom
    exact ⟨_, if_pos hq, h.store, h.rings, h.waiting, h.live, h.run, h.written, h.reg, h.tiles, h.die⟩

end Sys2Proof.Machine
end

section
/-!
PROOF. Replay, tile moves, the Ranger, tile reports and orphan notices (O56).
-/

namespace Sys2Proof.Machine
open Sys2Proof

-- tables whose entries change one by one

theorem SMap.look?_map {α : Type} (f : Nat → α → α) (m : SMap α) (k : Nat) :
    SMap.look? (m.map (fun x => (x.1, f x.1 x.2))) k = (SMap.look? m k).map (f k) := by
  induction m with
  | nil => rfl
  | cons e m ih =>
    obtain ⟨j, v⟩ := e
    simp only [List.map_cons, SMap.look?]
    split
    · next h => rw [h]; rfl
    · exact ih

/-- A tile after a change of every tile; one that the table does not hold is as after reset, before and after. -/
theorem tile_of_map {s t : State} {f : Nat → Tile → Tile} (h : t.tiles = s.tiles.map (fun x => (x.1, f x.1 x.2))) (p : Nat) :
    t.tile p = f p (s.tile p) ∨ (t.tile p = Tile.reset ∧ s.tile p = Tile.reset) := by
  unfold State.tile SMap.look
  rw [h, SMap.look?_map]
  cases SMap.look? s.tiles p with
  | none => exact .inr ⟨rfl, rfl⟩
  | some x => exact .inl rfl

theorem barrier_of_map {s t : State} {f : Barrier → Barrier} (h : t.die.barriers = s.die.barriers.map (fun x => (x.1, f x.2))) (e : Nat) :
    t.barrier e = f (s.barrier e) ∨ (t.barrier e = Barrier.reset ∧ s.barrier e = Barrier.reset) := by
  unfold State.barrier SMap.look
  rw [h, SMap.look?_map (fun _ => f)]
  cases SMap.look? s.die.barriers e with
  | none => exact .inr ⟨rfl, rfl⟩
  | some x => exact .inl rfl

-- the release of a stand

theorem releaseReplay_released {s : State} {h : Hold} (hfind : s.sun.holds.find? (fun h => h.kind == kindReplay && h.origin == s.index && h.relAt == none) = some h) :
    (releaseReplay s).replay.released = true
      ∧ ∀ p ∈ s.machinePorts, portCarries s p = true → .release p s.index h.seq s.sun.tick ∈ (releaseReplay s).out := by
  simp only [releaseReplay, hfind]
  refine ⟨trivial, fun p hp hc => ?_⟩
  have hout := flood_out (releaseHold s s.index h.seq (s.sun.tick + 2)) none (fun p => .release p s.index h.seq s.sun.tick) (fun _ _ _ => ⟨(_, _), rfl⟩)
  rw [hout]
  refine List.mem_append_right _ (List.mem_map.2 ⟨p, List.mem_filter.2 ⟨List.mem_filter.2 ⟨hp, by simp⟩, hc⟩, rfl⟩)

theorem releaseReplay_noted (s : State) : (releaseReplay s).replay.restored = s.replay.restored ∧ (releaseReplay s).replay.attempts = s.replay.attempts := by
  unfold releaseReplay
  split
  · exact ⟨rfl, rfl⟩
  · next h _ =>
    extract_lets s1
    have hreplay : s1.replay = s.replay := by simp [s1, releaseHold]
    exact ⟨by rw [← hreplay], by rw [← hreplay]⟩

-- the tick state restored

theorem Tile.restored_storage (t : Tile) : t.restored.sp = t.sp ∧ t.restored.tr = t.tr := by
  have hsend : ∀ (u : Tile) n, (restoreSend u n).sp = u.sp ∧ (restoreSend u n).tr = u.tr := fun u n => by
    unfold restoreSend
    extract_lets w
    split <;> exact ⟨rfl, rfl⟩
  have hrecv : ∀ (u : Tile) n, (restoreRecv u n).sp = u.sp ∧ (restoreRecv u n).tr = u.tr := fun u n => by
    unfold restoreRecv
    split <;> exact ⟨rfl, rfl⟩
  have hboth : ((List.range 32).foldl restoreRecv ((List.range 32).foldl restoreSend t)).sp = t.sp
      ∧ ((List.range 32).foldl restoreRecv ((List.range 32).foldl restoreSend t)).tr = t.tr := by
    refine List.foldlRecOn (motive := fun u : Tile => u.sp = t.sp ∧ u.tr = t.tr) _ _ ?_ fun u hu n _ => ?_
    · refine List.foldlRecOn (motive := fun u : Tile => u.sp = t.sp ∧ u.tr = t.tr) _ _ ⟨rfl, rfl⟩ fun u hu n _ => ?_
      exact ⟨(hsend u n).1.trans hu.1, (hsend u n).2.trans hu.2⟩
    · exact ⟨(hrecv u n).1.trans hu.1, (hrecv u n).2.trans hu.2⟩
  unfold Tile.restored
  split
  · exact ⟨rfl, rfl⟩
  · exact hboth

theorem Tile.restored_running {t : Tile} (h : t.seq.run ≠ .waitTick) : t.restored.tc = t.tick.tc ∧ t.restored.seq.head = t.tick.head
    ∧ t.restored.seq.window = [] ∧ t.restored.seq.handler = none := by
  unfold Tile.restored
  rw [if_neg h]
  exact ⟨rfl, rfl, rfl, rfl⟩

theorem restoreFrame_tile (s : State) (p : Nat) : (((restoreFrame s).tile p).sp = (s.tile p).sp ∧ ((restoreFrame s).tile p).tr = (s.tile p).tr)
    ∧ ((s.tile p).seq.run ≠ .waitTick → ((restoreFrame s).tile p).tc = (s.tile p).tick.tc ∧ ((restoreFrame s).tile p).seq.head = (s.tile p).tick.head
      ∧ ((restoreFrame s).tile p).seq.window = [] ∧ ((restoreFrame s).tile p).seq.handler = none) := by
  rcases tile_of_map (s := s) (t := restoreFrame s) (f := fun _ => Tile.restored) rfl p with h | ⟨h, h'⟩
  · rw [h]
    exact ⟨Tile.restored_storage _, Tile.restored_running⟩
  · rw [h, h']
    exact ⟨⟨rfl, rfl⟩, fun _ => ⟨rfl, rfl, rfl, rfl⟩⟩

theorem restoreFrame_barrier (s : State) (e : Nat) : ((restoreFrame s).barrier e).total = (s.barrier e).tickTotal := by
  rcases barrier_of_map (s := s) (t := restoreFrame s) (f := fun b => { b with total := b.tickTotal, pend := [] }) rfl e with h | ⟨h, h'⟩
  · rw [h]
  · rw [h, h']
    rfl

/-- A quiet module without sites to answer restores its tick state and sends its release. -/
theorem replayQuiet_plain {s : State} (hstand : s.replay.standing = true) (hrel : s.replay.released = false) (hquiet : quiet s = true) (hfresh : s.replay.fresh = [])
    (hlasting : s.replay.lasting = []) (hatt : s.replay.attempts < 3) : replayQuiet s
      = releaseReplay { restoreFrame s with replay := { (restoreFrame s).replay with restored := true, fresh := [], lasting := [] } } := by
  have hlimit : replayLimit (restoreFrame s) = restoreFrame s := by
    unfold replayLimit
    extract_lets own
    exact if_neg fun h => absurd h.1 (Nat.not_le.2 hatt)
  unfold replayQuiet
  rw [if_pos (by simp [hstand, hrel, hquiet]), hfresh, hlasting, hlimit]
  rfl

theorem replayQuiet_waits {s : State} (h : s.replay.standing = false ∨ s.replay.released = true ∨ quiet s = false) : replayQuiet s = s := by
  refine if_neg ?_
  rcases h with h | h | h <;> simp [h]

theorem replayQuiet_restores {s : State} (hstand : s.replay.standing = true) (hrel : s.replay.released = false) (hquiet : quiet s = true)
    (hfresh : s.replay.fresh = []) (hlasting : s.replay.lasting = []) (hatt : s.replay.attempts < 3) :
    ∃ t, exec .replayQuiet s = .next t ∧ t.replay.restored = true ∧ t.replay.attempts = s.replay.attempts
      ∧ (∀ p, (s.tile p).seq.run ≠ .waitTick → (t.tile p).tc = (s.tile p).tick.tc ∧ (t.tile p).seq.head = (s.tile p).tick.head
          ∧ (t.tile p).seq.window = [] ∧ (t.tile p).seq.handler = none)
      ∧ (∀ p, (t.tile p).sp = (s.tile p).sp ∧ (t.tile p).tr = (s.tile p).tr)
      ∧ (∀ e, (t.barrier e).total = (s.barrier e).tickTotal)
      ∧ (∀ h, s.sun.holds.find? (fun h => h.kind == kindReplay && h.origin == s.index && h.relAt == none) = some h →
          t.replay.released = true ∧ ∀ p ∈ s.machinePorts, portCarries s p = true → .release p s.index h.seq s.sun.tick ∈ t.out)
      ∧ t.pvs = s.pvs ∧ t.fns = s.fns ∧ t.reg = s.reg ∧ t.rows = s.rows := by
  have hexec : exec .replayQuiet s = .next (replayQuiet s) := rfl
  rw [replayQuiet_plain hstand hrel hquiet hfresh hlasting hatt] at hexec
  have htile := restoreFrame_tile s
  have hbarrier := restoreFrame_barrier s
  have hkept : (restoreFrame s).pvs = s.pvs ∧ (restoreFrame s).fns = s.fns ∧ (restoreFrame s).reg = s.reg ∧ (restoreFrame s).rows = s.rows
      ∧ (restoreFrame s).sun = s.sun ∧ (restoreFrame s).replay = s.replay ∧ (restoreFrame s).die.ports = s.die.ports := by simp
  obtain ⟨hpvs, hfns, hreg, hrows, hsun, hreplay, hports⟩ := hkept
  obtain ⟨v, hv⟩ : ∃ v : State, v = { restoreFrame s with replay := { (restoreFrame s).replay with restored := true, fresh := [], lasting := [] } } := ⟨_, rfl⟩
  have hvtile : ∀ p, v.tile p = (restoreFrame s).tile p := tile_of (by rw [hv])
  have hvbarrier : ∀ e, v.barrier e = (restoreFrame s).barrier e := fun e => by rw [hv]; rfl
  have hvkept : v.pvs = s.pvs ∧ v.fns = s.fns ∧ v.reg = s.reg ∧ v.rows = s.rows ∧ v.sun = s.sun := by
    rw [hv]
    exact ⟨hpvs, hfns, hreg, hrows, hsun⟩
  have hvreplay : v.replay.restored = true ∧ v.replay.attempts = s.replay.attempts := by
    rw [hv]
    exact ⟨rfl, by rw [← hreplay]⟩
  have hvcut : ∀ x, (v.port x).cut = (s.port x).cut := fun x => by
    rw [hv]
    simp only [State.port, hports]
  rw [← hv] at hexec
  clear hv
  generalize restoreFrame s = u at *
  obtain ⟨hvpvs, hvfns, hvreg, hvrows, hvsun⟩ := hvkept
  obtain ⟨hrestored, hattempts⟩ := releaseReplay_noted v
  have hbarriers : (releaseReplay v).die.barriers = v.die.barriers := by simp
  have htiles : ∀ p, (releaseReplay v).tile p = u.tile p := fun p => (tile_of (by simp) p).trans (hvtile p)
  have hindex : v.index = s.index := rd_reg hvreg _
  have hmachine : v.machinePorts = s.machinePorts := machinePorts_congr fun p => rd_reg hvreg _
  refine ⟨_, hexec, hrestored.trans hvreplay.1, hattempts.trans hvreplay.2, fun p hp => ?_, fun p => ?_, fun e => ?_, fun h hfind => ?_, by simpa using hvpvs,
    by simpa using hvfns, by simpa using hvreg, by simpa using hvrows⟩
  · rw [htiles]
    exact (htile p).2 hp
  · rw [htiles]
    exact (htile p).1
  · rw [← hbarrier, ← hvbarrier, State.barrier, hbarriers, State.barrier]
  · obtain ⟨hreleased, hout⟩ := releaseReplay_released (s := v) (h := h) (by rw [hvsun, hindex]; exact hfind)
    refine ⟨hreleased, fun p hp hc => ?_⟩
    rw [← hindex, ← hvsun]
    exact hout p (by rw [hmachine]; exact hp) ((portCarries_congr hvreg hvfns (hvcut p)).trans hc)

-- MOVE_EAST

theorem moveEast_waits {s : State} {p : Nat} (hp : p < 272) (h : p % 17 = 16 ∨ s.replay.standing = false ∨ s.replay.released = true) :
    exec (.moveEast p) s = .next s := by
  refine (if_pos hp).trans (congrArg Host.Outcome.next (if_neg ?_))
  rcases h with h | h | h <;> simp [h]

/-- What a move leaves at its target and at its source (R388). -/
theorem moved_facts (x y : Tile) (bad : List Nat) : (moved bad x y).tc = x.tc ∧ (bad = [] → (moved bad x y).sp = x.sp) ∧ (moved bad x y).orphaned = x.orphaned
    ∧ (moved bad x y).rd TL_SEQ_CONFIG_ENABLE = x.rd TL_SEQ_CONFIG_ENABLE := by
  refine ⟨rfl, fun h => by rw [h]; rfl, rfl, ?_⟩
  have hone : x.rd TL_SEQ_CONFIG_ENABLE < 2 := bits_lt ..
  have hlog : ∀ (t : Tile) v, (t.wr TL_RP_CTRL_LOG_NEXT v).rd TL_SEQ_CONFIG_ENABLE = t.rd TL_SEQ_CONFIG_ENABLE := fun t v => Tile.rd_wr_off t v (by decide)
  refine (hlog _ _).trans ?_
  rw [Tile.rd_wr_same _ _ _ (by decide) (by decide)]
  exact Nat.mod_eq_of_lt hone

theorem moveEast_moves {s : State} {p : Nat} (hp : p < 272) (hcol : p % 17 < 16) (hstand : s.replay.standing = true) (hrel : s.replay.released = false) :
    ∃ t, exec (.moveEast p) s = .next t ∧ (t.tile (p + 1)).tc = (s.tile p).tc ∧ (badWords s p = [] → (t.tile (p + 1)).sp = (s.tile p).sp)
      ∧ (t.tile (p + 1)).rd TL_SEQ_CONFIG_ENABLE = (s.tile p).rd TL_SEQ_CONFIG_ENABLE ∧ (t.tile (p + 1)).orphaned = (s.tile p).orphaned
      ∧ (t.tile p).rd TL_SEQ_CONFIG_ENABLE = 0 ∧ (t.tile p).seq.run = .idle ∧ (∀ x, x ≠ p → x ≠ p + 1 → t.tile x = s.tile x)
      ∧ t.reg = s.reg ∧ t.pvs = s.pvs ∧ t.fns = s.fns ∧ t.die = s.die ∧ t.rows = s.rows := by
  have hexec : exec (.moveEast p) s = .next (moveEast s p) := if_pos hp
  have htiles : ∀ x, (moveEast s p).tile x
      = ((s.setTile (p + 1) (moved (badWords s p) (s.tile p) (s.tile (p + 1)))).setTile p (s.tile p).movedAway).tile x := by
    refine tile_of ?_
    unfold moveEast
    rw [if_pos (by simp [hstand, hrel, hcol])]
  have htarget : (moveEast s p).tile (p + 1) = moved (badWords s p) (s.tile p) (s.tile (p + 1)) := by
    rw [htiles, State.tile_setTile_ne _ _ (by omega), State.tile_setTile_same]
  have hsource : (moveEast s p).tile p = (s.tile p).movedAway := by rw [htiles, State.tile_setTile_same]
  obtain ⟨htc, hsp, horphaned, henable⟩ := moved_facts (s.tile p) (s.tile (p + 1)) (badWords s p)
  refine ⟨_, hexec, by rw [htarget, htc], fun h => by rw [htarget, hsp h], by rw [htarget, henable], by rw [htarget, horphaned], ?_, by rw [hsource]; rfl,
    fun x hx hx' => ?_, by simp, by simp, by simp, by simp, by simp⟩
  · rw [hsource]
    exact Tile.rd_wr_same (s.tile p) TL_SEQ_CONFIG_ENABLE 0 (by decide) (by decide)
  · rw [htiles, State.tile_setTile_ne _ _ hx, State.tile_setTile_ne _ _ hx']

-- REPLAY_TICK

theorem replayTick_waits {s : State} (h : replayDue s = none ∨ ∃ r, replayDue s = some r ∧ s.sun.tick < r) : replayTick s = s := by
  rcases h with h | ⟨r, h, hlt⟩
  · simp only [replayTick, h]
  · simp only [replayTick, h]
    exact if_pos hlt

/-- The record of a stand writes SD_HOLD_COUNT and SD_LAST_HOLD alone. -/
theorem recordReplay_regW (s : State) {off : Nat} (hcount : off ≠ SD_HOLD_COUNT_OFF) (hlast : off ≠ SD_LAST_HOLD_OFF) :
    (recordReplay s).regW off = s.regW off := by
  unfold recordReplay
  split
  · unfold recordHold
    extract_lets s1 s2 s3 s4 s5
    calc (s5.wr SD_LAST_HOLD_CYCLE _).regW off = s5.regW off := State.regW_wr_ne _ _ hlast
      _ = s4.regW off := State.regW_wr_ne _ _ hlast
      _ = s3.regW off := State.regW_wr_ne _ _ hlast
      _ = s2.regW off := State.regW_wr_ne _ _ hlast
      _ = s1.regW off := State.regW_wr_ne _ _ hlast
      _ = s.regW off := State.regW_wr_ne _ _ hcount
  · rfl

/-- The Warden's registers after a replay is counted (R382). -/
def replayCounted (s : State) : State :=
  (lifeEvent (((recordReplay s).inc RG_REPLAY_REPLAYS 1).setReg RG_LAST_REPLAY_OFF s.replay.report) 3 1).raise RG_STATUS_REPLAY_SEEN

theorem replayTick_due {s : State} {r : Nat} (h : replayDue s = some r) (hr : r ≤ s.sun.tick) : ∃ u l, replayTick s = u.downPorts.foldl downHold u
    ∧ u = dieReplayed s.sun.tick l { replayCounted s with sun := (replayCounted s).sun.replayed, replay := (replayCounted s).replay.ended } := by
  simp only [replayTick, h]
  rw [if_neg (Nat.not_lt.2 hr)]
  exact ⟨_, _, rfl, rfl⟩

theorem replayCounted_regW (s : State) {off : Nat} (hcount : off ≠ SD_HOLD_COUNT_OFF) (hlast : off ≠ SD_LAST_HOLD_OFF) (hstatus : off ≠ RG_STATUS_OFF)
    (hreplay : off ≠ RG_REPLAY_OFF) (hreport : off ≠ RG_LAST_REPLAY_OFF) : (replayCounted s).regW off = s.regW off := by
  unfold replayCounted
  calc _ = ((recordReplay s).inc RG_REPLAY_REPLAYS 1 |>.setReg RG_LAST_REPLAY_OFF s.replay.report).regW off := State.regW_wr_ne _ _ hstatus
    _ = ((recordReplay s).inc RG_REPLAY_REPLAYS 1).regW off := State.regW_setReg_ne _ _ hreport
    _ = (recordReplay s).regW off := State.regW_wr_ne _ _ hreplay
    _ = s.regW off := recordReplay_regW s hcount hlast

theorem replayCounted_counts (s : State) : (replayCounted s).rd RG_REPLAY_REPLAYS = (s.rd RG_REPLAY_REPLAYS + 1) % 2 ^ 32
    ∧ (replayCounted s).rd RG_STATUS_REPLAY_SEEN = 1 ∧ (replayCounted s).regW RG_LAST_REPLAY_OFF = s.replay.report := by
  unfold replayCounted
  refine ⟨?_, State.rd_raise_same _ (by decide) (by decide), ?_⟩
  · have hregs : ∀ u : State, ((lifeEvent (u.setReg RG_LAST_REPLAY_OFF s.replay.report) 3 1).raise RG_STATUS_REPLAY_SEEN).regW RG_REPLAY_OFF
        = u.regW RG_REPLAY_OFF := fun u =>
      (State.regW_wr_ne (lifeEvent (u.setReg RG_LAST_REPLAY_OFF s.replay.report) 3 1) 1 (by decide)).trans (State.regW_setReg_ne u _ (by decide))
    have hrd : ∀ u : State, ((lifeEvent (u.setReg RG_LAST_REPLAY_OFF s.replay.report) 3 1).raise RG_STATUS_REPLAY_SEEN).rd RG_REPLAY_REPLAYS
        = u.rd RG_REPLAY_REPLAYS := fun u => congrArg (fun w => bits w RG_REPLAY_REPLAYS.hi RG_REPLAY_REPLAYS.lo) (hregs u)
    rw [hrd, State.inc, State.rd_wr_same _ _ _ (by decide) (by decide)]
    have hkept : (recordReplay s).rd RG_REPLAY_REPLAYS = s.rd RG_REPLAY_REPLAYS :=
      congrArg (fun w => bits w RG_REPLAY_REPLAYS.hi RG_REPLAY_REPLAYS.lo) (recordReplay_regW s (off := RG_REPLAY_OFF) (by decide) (by decide))
    rw [hkept]
    rfl
  · exact (State.regW_wr_ne (lifeEvent _ 3 1) 1 (by decide)).trans (State.regW_setReg_same ..)

theorem downPorts_of {s t : State} (h : ∀ off, 0x80000 ≤ off → t.regW off = s.regW off) : t.downPorts = s.downPorts := by
  have hmachine : ∀ p, t.rd (FB_CTRL_IN_MACHINE p) = s.rd (FB_CTRL_IN_MACHINE p) := fun p =>
    congrArg (fun w => bits w _ _) (h (FB_CTRL_OFF p) (by unfold FB_CTRL_OFF; omega))
  have hstate : ∀ p, t.rd (FB_STATUS_STATE p) = s.rd (FB_STATUS_STATE p) := fun p =>
    congrArg (fun w => bits w _ _) (h (FB_STATUS_OFF p) (by unfold FB_STATUS_OFF; omega))
  simp only [State.downPorts, State.machinePorts, hmachine, hstate]

/-- A tile keeps its scratchpad and its Terrace through a replay tick. -/
theorem dieReplayed_storage (tick : Nat) (l : List Nat) (s : State) (p : Nat) :
    ((dieReplayed tick l s).tile p).sp = (s.tile p).sp ∧ ((dieReplayed tick l s).tile p).tr = (s.tile p).tr := by
  rcases tile_of_map (s := s) (t := dieReplayed tick l s) (f := fun p t => t.replayed (l.contains p)) rfl p with h | ⟨h, h'⟩
  · rw [h]
    exact ⟨rfl, rfl⟩
  · rw [h, h']
    exact ⟨rfl, rfl⟩

theorem dieReplayed_fresh (tick : Nat) (l : List Nat) (s : State) : ∀ x ∈ (dieReplayed tick l s).die.transfers, x.stale = false := fun x hx => by
  simpa using (List.mem_filter.1 hx).2

theorem replayTick_restarts {s : State} {r : Nat} (h : replayDue s = some r) (hr : r ≤ s.sun.tick) (hdown : s.downPorts = []) :
    ∃ t, exec .replayTick s = .next t ∧ t.sun.tick = 0 ∧ t.sun.ctr = 0 ∧ (∀ g, t.lag g = 0) ∧ t.sun.holds = [] ∧ t.sun.freeze = none
      ∧ t.replay.attempts = s.replay.attempts + 1 ∧ t.replay.standing = false ∧ t.frame = s.frame
      ∧ t.rd RG_REPLAY_REPLAYS = (s.rd RG_REPLAY_REPLAYS + 1) % 2 ^ 32 ∧ t.rd RG_STATUS_REPLAY_SEEN = 1 ∧ t.regW RG_LAST_REPLAY_OFF = s.replay.report
      ∧ (∀ x ∈ t.die.transfers, x.stale = false) ∧ (∀ p, (t.tile p).sp = (s.tile p).sp ∧ (t.tile p).tr = (s.tile p).tr)
      ∧ t.pvs = s.pvs ∧ t.fns = s.fns ∧ t.out = s.out := by
  have hexec : exec .replayTick s = .next (replayTick s) := rfl
  obtain ⟨u, l, heq, hu⟩ := replayTick_due h hr
  obtain ⟨hcount, hseen, hreport⟩ := replayCounted_counts s
  have hregs := fun off => replayCounted_regW s (off := off)
  have hkept : (replayCounted s).tiles = s.tiles ∧ (replayCounted s).pvs = s.pvs ∧ (replayCounted s).fns = s.fns ∧ (replayCounted s).out = s.out
      ∧ (replayCounted s).replay = s.replay := by simp [replayCounted, lifeEvent, State.inc]
  generalize replayCounted s = v at *
  obtain ⟨htiles, hpvs, hfns, hout, hreplay⟩ := hkept
  have hreg : u.reg = v.reg := by rw [hu]; rfl
  have hnone : u.downPorts = [] := by
    rw [← hdown]
    refine downPorts_of fun off hoff => (regW_of hreg off).trans ?_
    have hbelow : SD_HOLD_COUNT_OFF < 0x80000 ∧ SD_LAST_HOLD_OFF < 0x80000 ∧ RG_STATUS_OFF < 0x80000 ∧ RG_REPLAY_OFF < 0x80000 ∧ RG_LAST_REPLAY_OFF < 0x80000 := by
      decide
    exact hregs off (by omega) (by omega) (by omega) (by omega) (by omega)
  rw [heq, hnone, List.foldl_nil] at hexec
  have hframe : u.frame = s.frame :=
    congrArg (fun w => bits w _ _) ((regW_of hreg _).trans (hregs SD_FRAME_NUM_OFF (by decide) (by decide) (by decide) (by decide) (by decide)))
  have hrd : ∀ f, u.rd f = v.rd f := rd_reg hreg
  refine ⟨u, hexec, ?_, ?_, fun g => ?_, ?_, ?_, ?_, ?_, hframe, (hrd _).trans hcount, (hrd _).trans hseen, (regW_of hreg _).trans hreport, ?_, fun p => ?_, ?_, ?_, ?_⟩
  · rw [hu]; rfl
  · rw [hu]; rfl
  · rw [hu]; rfl
  · rw [hu]; rfl
  · rw [hu]; rfl
  · rw [hu, ← hreplay]; rfl
  · rw [hu]; rfl
  · rw [hu]
    exact dieReplayed_fresh _ _ _
  · rw [hu, ← tile_of htiles]
    exact dieReplayed_storage ..
  · rw [hu, ← hpvs]; rfl
  · rw [hu, ← hfns]; rfl
  · rw [hu, ← hout]; rfl

-- a context that is aborted

theorem closeSlot_regW (s : State) (slot : Nat) {off : Nat} (h : off < 0x110000) : (closeSlot s slot).regW off = s.regW off := by
  unfold closeSlot
  split
  · have hslot : ∀ u : State, (slotEvent u slot 3 0).reg = u.reg := fun u => by simp
    rw [regW_of (hslot _)]
    have hcfg : off ≠ (BS_SLOT_CFG_OPEN slot).off := by
      have : 0x110000 ≤ (BS_SLOT_CFG_OPEN slot).off := Nat.le_add_right ..
      omega
    have hstate : off ≠ (BS_SLOT_STATE_PHASE slot).off := by
      have : 0x110000 ≤ (BS_SLOT_STATE_PHASE slot).off := by
        show 0x110000 ≤ BS_SLOT_STATE_OFF slot
        unfold BS_SLOT_STATE_OFF
        omega
      omega
    rw [State.regW_wr_ne _ _ hstate, State.regW_wr_ne _ _ hcfg]
    rfl
  · rfl

theorem releaseSlots_regW (s : State) (q : Nat) (r : Req) {off : Nat} (h : off < 0x110000) : (releaseSlots s q r).regW off = s.regW off := by
  unfold releaseSlots
  split
  · extract_lets m
    split
    · exact closeSlot_regW s _ h
    · exact regW_of (by simp) off
  · rfl

theorem endRequests_regW (s : State) (q status : Nat) {off : Nat} (h : off < 0x110000) : (endRequests s q status).regW off = s.regW off := by
  unfold endRequests
  extract_lets f s1 s2
  have h1 : s1.regW off = s.regW off := by
    refine foldl_keep (fun t => t.regW off) _ (fun t r => ?_) _ s
    extract_lets t1 t2
    have ht1 : t1.regW off = t.regW off := (releaseSlots_regW _ q r h).trans (regW_of (by simp [finish]) off)
    have ht2 : t2.regW off = t1.regW off := by
      unfold t2
      split
      · exact regW_of (by simp) off
      · rfl
    exact (regW_of (by simp) off).trans (ht2.trans ht1)
  exact (foldl_keep (fun t => t.regW off) _ (fun t n => closeSlot_regW t n h) _ s2).trans h1

theorem collectDump_rd (s : State) (cause action pv tile : Nat) (clusters : List Nat) {f : Fld} (h : f.hi < 40 ∨ 43 < f.lo) :
    (collectDump s cause action pv tile clusters).rd f = s.rd f := by
  unfold collectDump
  split
  · rfl
  · extract_lets ws body s1
    exact State.rd_wr_ne s1 (f := RG_STATUS_LAST_CAUSE) cause (by decide) (by decide) h

/-- What the abort of a pavilion's context leaves (R391). -/
structure Aborted (q cause : Nat) (s t : State) : Prop where
  others : ∀ x, x ≠ q → t.pv x = s.pv x
  st : (t.pv q).run.st = pvFaulted
  cause : (t.pv q).run.cause = cause
  live : (t.pv q).front.live = []
  waiting : (t.pv q).front.waiting = []
  seq : t.dumps.seq = s.dumps.seq + dumpsAdded s
  rd : ∀ f : Fld, f.off < 0x110000 → (f.hi < 40 ∨ 43 < f.lo) → t.rd f = s.rd f

theorem contextAbort_aborted {s : State} {q : Nat} (cause tile : Nat) (h : abortable s q = true) : Aborted q cause s (contextAbort s q cause tile) := by
  unfold contextAbort
  rw [if_pos h]
  extract_lets s1 s2 s3
  have hpvs1 : s1.pvs = s.pvs := by simp [s1]
  have hseq1 : s1.dumps.seq = s.dumps.seq + dumpsAdded s := collectDump_seq ..
  have hrd1 : ∀ f : Fld, (f.hi < 40 ∨ 43 < f.lo) → s1.rd f = s.rd f := fun f hf => collectDump_rd s cause 0 q tile _ hf
  have h2 : (∀ x, x ≠ q → s2.pv x = s1.pv x) ∧ s2.dumps = s1.dumps ∧ s2.reg = s1.reg :=
    ⟨fun x hx => (endPvFlights_others _ hx).trans ((stopContext_changed s1 q).others x hx), by simp [s2], by simp [s2]⟩
  obtain ⟨hothers2, hdumps2, hreg2⟩ := h2
  clear_value s2 s1
  have h3 := endRequests_changed s2 q (if cause = causeWaitBroken then stWaitBroken else stFault)
  have hqueues := endRequests_queues s2 q (if cause = causeWaitBroken then stWaitBroken else stFault)
  have hregs3 := fun off => endRequests_regW s2 q (if cause = causeWaitBroken then stWaitBroken else stFault) (off := off)
  have hdumps3 : s3.dumps = s2.dumps := by simp [s3]
  have hs3 : s3 = endRequests s2 q (if cause = causeWaitBroken then stWaitBroken else stFault) := rfl
  rw [← hs3] at h3 hqueues hregs3
  clear hs3
  clear_value s3
  have hfaulted : (enterFaulted s3 q cause).pv q = { s3.pv q with run := { (s3.pv q).run with st := pvFaulted, cause := cause, abortTiles := [] } } := by
    have hpvs : (enterFaulted s3 q cause).pvs = (s3.modRun q (fun r => { r with st := pvFaulted, cause := cause, abortTiles := [] })).pvs := by
      simp [enterFaulted]
    exact (pv_of hpvs q).trans (State.pv_modRun_same ..)
  have hothers4 := (enterFaulted_changed s3 q cause).others
  have hkept4 : (enterFaulted s3 q cause).dumps = s3.dumps ∧ (enterFaulted s3 q cause).reg = s3.reg := by simp
  generalize enterFaulted s3 q cause = u at *
  refine ⟨fun x hx => ?_, ?_, ?_, ?_, ?_, ?_, fun f hoff hf => ?_⟩
  · rw [State.pv_modRun_ne _ _ hx, hothers4 x hx, h3.others x hx, hothers2 x hx, pv_of hpvs1]
  · rw [State.pv_modRun_same, hfaulted]
  · rw [State.pv_modRun_same, hfaulted]
  · rw [State.pv_modRun_same, hfaulted]
    exact hqueues.1
  · rw [State.pv_modRun_same, hfaulted]
    exact hqueues.2
  · exact (congrArg Dumps.seq (hkept4.1.trans (hdumps3.trans hdumps2))).trans hseq1
  · calc _ = u.rd f := rd_reg (by simp) f
      _ = s3.rd f := rd_reg hkept4.2 f
      _ = s2.rd f := congrArg (fun w => bits w f.hi f.lo) (hregs3 f.off hoff)
      _ = s1.rd f := rd_reg hreg2 f
      _ = s.rd f := hrd1 f hf

theorem abortable_of {s t : State} {q : Nat} (h : (t.pv q).run = (s.pv q).run) : abortable t q = abortable s q := by
  simp only [abortable, h]

/-- The aborts of several contexts: those and no other are faulted. -/
theorem contextAborts_faulted (cause tile : Nat) (l : List Nat) : ∀ s : State, l.Nodup → (∀ q ∈ l, abortable s q = true) →
    (∀ q ∈ l, ((l.foldl (fun s q => contextAbort s q cause tile) s).pv q).run.st = pvFaulted
        ∧ ((l.foldl (fun s q => contextAbort s q cause tile) s).pv q).run.cause = cause)
      ∧ (∀ q, q ∉ l → (l.foldl (fun s q => contextAbort s q cause tile) s).pv q = s.pv q)
      ∧ ∀ f : Fld, f.off < 0x110000 → (f.hi < 40 ∨ 43 < f.lo) → (l.foldl (fun s q => contextAbort s q cause tile) s).rd f = s.rd f := by
  induction l with
  | nil => exact fun s _ _ => ⟨fun q hq => absurd hq (by simp), fun q _ => rfl, fun f _ _ => rfl⟩
  | cons x l ih =>
    intro s hnodup habort
    obtain ⟨hx, hl⟩ := List.nodup_cons.1 hnodup
    have hfirst := contextAbort_aborted cause tile (habort x List.mem_cons_self)
    obtain ⟨hfaulted, hothers, hrd⟩ := ih (contextAbort s x cause tile) hl fun q hq =>
      (abortable_of (by rw [hfirst.others q (fun e => hx (e ▸ hq))])).trans (habort q (List.mem_cons_of_mem _ hq))
    refine ⟨fun q hq => ?_, fun q hq => ?_, fun f hoff hf => (hrd f hoff hf).trans (hfirst.rd f hoff hf)⟩
    · rcases List.mem_cons.1 hq with rfl | hq
      · rw [List.foldl_cons, hothers _ hx]
        exact ⟨hfirst.st, hfirst.cause⟩
      · exact hfaulted q hq
    · rw [List.mem_cons, not_or] at hq
      exact (hothers q hq.2).trans (hfirst.others q hq.1)

-- RANGER_FIRE

/-- The pavilions that the Ranger aborts (R390). -/
def lateContexts (s : State) : List Nat := (List.range 4).filter (fun q => abortable s q && !contextReady s q)

theorem mem_lateContexts {s : State} {q : Nat} : q ∈ lateContexts s ↔ q < 4 ∧ abortable s q = true ∧ contextReady s q = false := by
  simp [lateContexts]

theorem rangerFire_waits {s : State} (h : s.replay.idle < 2 * s.frameLen) : rangerFire s = s := if_neg fun hall => absurd hall.2.1 (Nat.not_le.2 h)

/-- The Ranger's own counts, and the dump that it collects. -/
def rangerNoted (s : State) : State :=
  collectDump (lifeEvent ((s.raise RG_STATUS_RANGER_SEEN).inc RG_STATUS_RANGER_FIRES 1) 5 1) causeRanger 0 ((lateContexts s).headD 0) 0x1FF (List.range 16)

theorem rangerNoted_facts (s : State) : (rangerNoted s).pvs = s.pvs ∧ (rangerNoted s).rd RG_STATUS_RANGER_SEEN = 1
    ∧ (rangerNoted s).rd RG_STATUS_RANGER_FIRES = (s.rd RG_STATUS_RANGER_FIRES + 1) % 2 ^ 32 := by
  unfold rangerNoted
  refine ⟨(collectDump_pvs ..).trans rfl, ?_, ?_⟩
  · rw [collectDump_rd _ _ _ _ _ _ (by decide)]
    exact (State.rd_wr_ne (s.raise RG_STATUS_RANGER_SEEN) (f := RG_STATUS_RANGER_FIRES) (g := RG_STATUS_RANGER_SEEN) _ (by decide) (by decide) (by decide)).trans
      (State.rd_raise_same s (by decide) (by decide))
  · rw [collectDump_rd _ _ _ _ _ _ (by decide)]
    refine (State.rd_wr_same (s.raise RG_STATUS_RANGER_SEEN) RG_STATUS_RANGER_FIRES _ (by decide) (by decide)).trans ?_
    have hkept : (s.raise RG_STATUS_RANGER_SEEN).rd RG_STATUS_RANGER_FIRES = s.rd RG_STATUS_RANGER_FIRES :=
      State.rd_wr_ne s (f := RG_STATUS_RANGER_SEEN) (g := RG_STATUS_RANGER_FIRES) 1 (by decide) (by decide) (by decide)
    rw [hkept]
    rfl

theorem rangerFire_due {s : State} (hlen : 0 < s.frameLen) (hidle : 2 * s.frameLen ≤ s.replay.idle) (hcounts : rangerCounts s = true) :
    ∃ l : List Nat, rangerFire s = noteProgress (l.foldl withdrawPort ((lateContexts s).foldl (fun s q => contextAbort s q causeRanger 0x1FF) (rangerNoted s))) := by
  have heq : rangerFire s = noteProgress (if (lateContexts s).isEmpty then (lateContexts s).foldl (fun s q => contextAbort s q causeRanger 0x1FF) (rangerNoted s)
      else ((lateContexts s).foldl (fun s q => contextAbort s q causeRanger 0x1FF) (rangerNoted s)).downPorts.foldl withdrawPort
        ((lateContexts s).foldl (fun s q => contextAbort s q causeRanger 0x1FF) (rangerNoted s))) := if_pos ⟨hlen, hidle, hcounts⟩
  by_cases hnone : (lateContexts s).isEmpty = true
  · rw [if_pos hnone] at heq
    exact ⟨[], heq⟩
  · rw [if_neg hnone] at heq
    exact ⟨_, heq⟩

theorem rangerFire_aborts {s : State} (hlen : 0 < s.frameLen) (hidle : 2 * s.frameLen ≤ s.replay.idle) (hcounts : rangerCounts s = true) :
    ∃ t, exec .rangerFire s = .next t ∧ t.rd RG_STATUS_RANGER_SEEN = 1 ∧ t.rd RG_STATUS_RANGER_FIRES = (s.rd RG_STATUS_RANGER_FIRES + 1) % 2 ^ 32
      ∧ (∀ q, q < 4 → abortable s q = true → contextReady s q = false → (t.pv q).run.st = pvFaulted ∧ (t.pv q).run.cause = causeRanger)
      ∧ (∀ q, q < 4 → abortable s q = false ∨ contextReady s q = true → (t.pv q).run = (s.pv q).run) ∧ t.gate = s.gate ∧ t.mod = s.mod := by
  have hexec : exec .rangerFire s = .next (rangerFire s) := rfl
  have hgate : (rangerFire s).gate = s.gate ∧ (rangerFire s).mod = s.mod := by simp
  obtain ⟨l, heq⟩ := rangerFire_due hlen hidle hcounts
  rw [heq] at hexec hgate
  clear heq
  obtain ⟨hpvs, hseen, hfires⟩ := rangerNoted_facts s
  generalize rangerNoted s = u at *
  obtain ⟨hfaulted, hothers, hrd⟩ := contextAborts_faulted causeRanger 0x1FF (lateContexts s) u (List.nodup_range.filter _) fun q hq =>
    (abortable_of (by rw [pv_of hpvs])).trans (mem_lateContexts.1 hq).2.1
  generalize (lateContexts s).foldl (fun s q => contextAbort s q causeRanger 0x1FF) u = v at *
  have hpvs' : (noteProgress (l.foldl withdrawPort v)).pvs = v.pvs := foldl_keeps_pvs _ (fun t p => by simp) l v
  have hreg' : (noteProgress (l.foldl withdrawPort v)).reg = v.reg := foldl_keep State.reg _ (fun t p => by simp) l v
  generalize noteProgress (l.foldl withdrawPort v) = t at *
  refine ⟨t, hexec, ?_, ?_, fun q hq ha hr => ?_, fun q hq h => ?_, hgate⟩
  · rw [rd_reg hreg', hrd _ (by decide) (by decide), hseen]
  · rw [rd_reg hreg', hrd _ (by decide) (by decide), hfires]
  · rw [pv_of hpvs']
    exact hfaulted q (mem_lateContexts.2 ⟨hq, ha, hr⟩)
  · have hnot : q ∉ lateContexts s := fun hmem => by
      obtain ⟨-, ha, hr⟩ := mem_lateContexts.1 hmem
      rcases h with h | h
      · exact absurd (ha.symm.trans h) (by decide)
      · exact absurd (hr.symm.trans h) (by decide)
    rw [pv_of hpvs', hothers q hnot, pv_of hpvs]

-- TILE_FAULT_REPORT

theorem tileReport_none {s : State} {p : Nat} (h : s.die.reports.find? (fun r => r.p == p) = none) : tileReport s p = s := by
  simp only [tileReport, h]

/-- The oldest report of a tile is taken, and a recorded fault or a broken wait aborts the tile's context (R397). -/
theorem tileReport_aborts {s : State} {p q : Nat} {r : Report} (hr : s.die.reports.find? (fun r => r.p == p) = some r) (hq : s.pvOfTile p = some q)
    (hkind : r.kind < 2) : ∃ u : State, tileReport s p = contextAbort u q (if r.kind = 0 then causeCaught else causeWaitBroken) p ∧ u.pvs = s.pvs
      ∧ u.gate = s.gate ∧ u.mod = s.mod ∧ u.dumps = s.dumps := by
  refine ⟨{ s with die := { s.die with reports := dropFirst (fun x => x.p == p) s.die.reports } }, ?_, rfl, rfl, rfl, rfl⟩
  have hq' : ({ s with die := { s.die with reports := dropFirst (fun x => x.p == p) s.die.reports } } : State).pvOfTile p = some q := hq
  simp only [tileReport, hr, hq']
  by_cases h : r.kind = 0
  · rw [if_pos h, if_pos h]
  · rw [if_neg h, if_neg h, if_pos (by omega)]

theorem tileFaultReport_aborts {s : State} {p q : Nat} {r : Report} (hp : p < 272) (hr : s.die.reports.find? (fun r => r.p == p) = some r)
    (hq : s.pvOfTile p = some q) (hkind : r.kind < 2) (habort : abortable s q = true) :
    ∃ t, exec (.tileFaultReport p) s = .next t ∧ (t.pv q).run.st = pvFaulted
      ∧ (t.pv q).run.cause = (if r.kind = 0 then causeCaught else causeWaitBroken) ∧ (t.pv q).front.live = [] ∧ (t.pv q).front.waiting = []
      ∧ t.dumps.seq = s.dumps.seq + dumpsAdded s ∧ (∀ x, x ≠ q → (t.pv x).run = (s.pv x).run) ∧ t.gate = s.gate ∧ t.mod = s.mod := by
  have hexec : exec (.tileFaultReport p) s = .next (tileReport s p) := if_pos hp
  obtain ⟨u, heq, hpvs, hgate, hmod, hdumps⟩ := tileReport_aborts hr hq hkind
  rw [heq] at hexec
  have h := contextAbort_aborted (if r.kind = 0 then causeCaught else causeWaitBroken) p ((abortable_of (t := u) (by rw [pv_of hpvs])).trans habort)
  have hkept : ∀ c, (contextAbort u q c p).gate = u.gate ∧ (contextAbort u q c p).mod = u.mod := fun c => by simp
  refine ⟨_, hexec, h.st, h.cause, h.live, h.waiting, ?_, fun x hx => ?_, (hkept _).1.trans hgate, (hkept _).2.trans hmod⟩
  · rw [h.seq, hdumps, dumpsAdded, hgate, dumpsAdded]
  · rw [h.others x hx, pv_of hpvs]

-- ORPHAN_NOTICE

/-- What a tile keeps while entries leave its window. -/
structure SameMarks (t u : Tile) : Prop where
  sp : u.sp = t.sp
  orphaned : u.orphaned = t.orphaned
  reg : u.reg = t.reg

theorem SameMarks.trans {t u v : Tile} (h : SameMarks t u) (k : SameMarks u v) : SameMarks t v :=
  ⟨k.sp.trans h.sp, k.orphaned.trans h.orphaned, k.reg.trans h.reg⟩

theorem dropEntry_marks (s : State) (p i x : Nat) : SameMarks (s.tile x) ((dropEntry s p i).tile x) := by
  have hrest : (dropEntry s p i).tile x = (leaveWindow s p i).tile x := rfl
  rw [hrest, leaveWindow]
  by_cases e : x = p
  · rw [e, State.tile_modTile_same, Tile.settleIdle_eq]
    exact ⟨rfl, rfl, rfl⟩
  · rw [State.tile_modTile_ne _ _ e]
    exact ⟨rfl, rfl, rfl⟩

/-- What entries that leave windows change nothing of: the module but its tiles and the Ranger's count, and every tile's marks. -/
structure WindowsOnly (s t : State) : Prop where
  marks : ∀ x, SameMarks (s.tile x) (t.tile x)
  reg : t.reg = s.reg
  pvs : t.pvs = s.pvs
  fns : t.fns = s.fns

theorem dropWaits_windows (module p n : Nat) : ∀ s : State, WindowsOnly s (dropWaits module p n s) := by
  induction n with
  | zero => exact fun s => ⟨fun x => ⟨rfl, rfl, rfl⟩, rfl, rfl, rfl⟩
  | succ n ih =>
    intro s
    unfold dropWaits
    split
    · next i _ =>
      have h := ih (dropEntry s p i)
      exact ⟨fun x => (dropEntry_marks s p i x).trans (h.marks x), h.reg.trans rfl, h.pvs.trans rfl, h.fns.trans rfl⟩
    · exact ⟨fun x => ⟨rfl, rfl, rfl⟩, rfl, rfl, rfl⟩

/-- A tile that an orphan notice has reached (R392). -/
def Tile.Orphaned (t : Tile) : Prop := t.orphaned = BitVec.allOnes 64 ∧ t.rd TL_EPOCH_ARM = 0

theorem Tile.Orphaned.of_marks {t u : Tile} (h : t.Orphaned) (k : SameMarks t u) : u.Orphaned :=
  ⟨k.orphaned.trans h.1, by rw [← h.2]; simp only [Tile.rd, Tile.regW, k.reg]⟩

theorem orphanTile_facts (module : Nat) (s : State) (p : Nat) : ((orphanTile module s p).tile p).Orphaned
    ∧ (∀ x, x ≠ p → SameMarks (s.tile x) ((orphanTile module s p).tile x)) ∧ (∀ x, ((orphanTile module s p).tile x).sp = (s.tile x).sp)
    ∧ (orphanTile module s p).reg = s.reg ∧ (orphanTile module s p).pvs = s.pvs ∧ (orphanTile module s p).fns = s.fns := by
  unfold orphanTile
  extract_lets s1
  have h := dropWaits_windows module p (s1.tile p).seq.window.length s1
  have hself : s1.tile p = { (s.tile p).wr TL_EPOCH_ARM 0 with orphaned := BitVec.allOnes 64 } := State.tile_modTile_same ..
  have hother : ∀ x, x ≠ p → s1.tile x = s.tile x := fun x hx => State.tile_modTile_ne _ _ hx
  have hkept : s1.reg = s.reg ∧ s1.pvs = s.pvs ∧ s1.fns = s.fns := ⟨rfl, rfl, rfl⟩
  have hmarked : (s1.tile p).Orphaned := by
    rw [hself]
    exact ⟨rfl, Tile.rd_wr_same (s.tile p) TL_EPOCH_ARM 0 (by decide) (by decide)⟩
  clear_value s1
  refine ⟨hmarked.of_marks (h.marks p), fun x hx => hother x hx ▸ h.marks x, fun x => ?_, h.reg.trans hkept.1, h.pvs.trans hkept.2.1, h.fns.trans hkept.2.2⟩
  rw [(h.marks x).sp]
  by_cases e : x = p
  · rw [e, hself]
    rfl
  · rw [hother x e]

theorem orphanTiles_facts (module : Nat) (l : List Nat) (s : State) : (∀ p ∈ l, ((l.foldl (orphanTile module) s).tile p).Orphaned)
    ∧ (∀ p, ((l.foldl (orphanTile module) s).tile p).sp = (s.tile p).sp) ∧ (l.foldl (orphanTile module) s).reg = s.reg
    ∧ (l.foldl (orphanTile module) s).pvs = s.pvs ∧ (l.foldl (orphanTile module) s).fns = s.fns := by
  refine ⟨fun p hp => ?_, fun p => ?_, ?_, ?_, ?_⟩
  · refine foldl_establishes (P := fun t => (t.tile p).Orphaned) hp (fun t => (orphanTile_facts module t p).1) (fun t y ht => ?_) s
    obtain ⟨hself, hothers, -⟩ := orphanTile_facts module t y
    by_cases e : p = y
    · exact e ▸ hself
    · exact ht.of_marks (hothers p e)
  · exact foldl_keep (fun t => (t.tile p).sp) _ (fun t y => (orphanTile_facts module t y).2.2.1 p) l s
  · exact foldl_keep State.reg _ (fun t y => (orphanTile_facts module t y).2.2.2.1) l s
  · exact foldl_keep State.pvs _ (fun t y => (orphanTile_facts module t y).2.2.2.2.1) l s
  · exact foldl_keep State.fns _ (fun t y => (orphanTile_facts module t y).2.2.2.2.2) l s

theorem orphanNotice_seen (s : State) : (s.raise RG_STATUS_ORPHAN_SEEN).rd RG_STATUS_ORPHAN_SEEN = 1 := State.rd_raise_same s (by decide) (by decide)

theorem orphanNotice_running {s : State} {module q : Nat} (hm : module < 4096) (hq : q < 4) (hex : pvExists s q = true) (hst : (s.pv q).run.st ≠ pvHeld) :
    ∃ t, exec (.orphanNotice module q) s = .next t ∧ t.rd RG_STATUS_ORPHAN_SEEN = 1
      ∧ (∀ p ∈ s.pvTiles q, (t.tile p).orphaned = BitVec.allOnes 64 ∧ (t.tile p).rd TL_EPOCH_ARM = 0 ∧ (t.tile p).sp = (s.tile p).sp)
      ∧ t.pvs = s.pvs ∧ t.fns = s.fns := by
  have heq : orphanNotice s module q = (s.pvTiles q).foldl (orphanTile module) (s.raise RG_STATUS_ORPHAN_SEEN) := by
    unfold orphanNotice
    extract_lets s1 s2
    rw [if_pos hex, if_neg hst]
  obtain ⟨horphaned, hsp, hreg, hpvs, hfns⟩ := orphanTiles_facts module (s.pvTiles q) (s.raise RG_STATUS_ORPHAN_SEEN)
  refine ⟨_, (if_pos ⟨hm, hq⟩).trans (congrArg Host.Outcome.next heq), (rd_reg hreg _).trans (orphanNotice_seen s),
    fun p hp => ⟨(horphaned p hp).1, (horphaned p hp).2, (hsp p).trans rfl⟩, hpvs.trans (State.raise_pvs ..), hfns.trans (State.raise_fns ..)⟩

theorem orphanNotice_held {s : State} {module q : Nat} (hm : module < 4096) (hq : q < 4) (hst : (s.pv q).run.st = pvHeld) :
    ∃ t, exec (.orphanNotice module q) s = .next t ∧ (t.pv q).run.st = pvFaulted ∧ (t.pv q).run.cause = causeWaitBroken := by
  have heq : orphanNotice s module q = contextAbort ((s.pvTiles q).foldl (orphanTile module) (s.raise RG_STATUS_ORPHAN_SEEN)) q causeWaitBroken 0x1FF := by
    unfold orphanNotice
    extract_lets s1 s2
    rw [if_pos (by simp [pvExists, hst, pvHeld]), if_pos hst]
  obtain ⟨-, -, -, hpvs, -⟩ := orphanTiles_facts module (s.pvTiles q) (s.raise RG_STATUS_ORPHAN_SEEN)
  have habort : abortable ((s.pvTiles q).foldl (orphanTile module) (s.raise RG_STATUS_ORPHAN_SEEN)) q = true := by
    rw [abortable_of (s := s) (by rw [pv_of (hpvs.trans (State.raise_pvs ..))])]
    simp [abortable, hst]
  have h := contextAbort_aborted causeWaitBroken 0x1FF habort
  exact ⟨_, (if_pos ⟨hm, hq⟩).trans (congrArg Host.Outcome.next heq), h.st, h.cause⟩

/-- Settles O56, one action of the replay logic, the Ranger or the Warden after the other. -/
theorem replaysAndTheRanger : Obligations.ReplaysAndTheRanger := by
  refine ⟨fun s hstand hrel hquiet hfresh hlasting hatt => replayQuiet_restores hstand hrel hquiet hfresh hlasting hatt,
    fun s h => congrArg Host.Outcome.next (replayQuiet_waits h), fun s p hp hcol hstand hrel => moveEast_moves hp hcol hstand hrel,
    fun s p hp h => moveEast_waits hp h, fun s r h hr hdown => replayTick_restarts h hr hdown, fun s h => congrArg Host.Outcome.next (replayTick_waits h),
    fun s hlen hidle hcounts => rangerFire_aborts hlen hidle hcounts, fun s h => congrArg Host.Outcome.next (rangerFire_waits h),
    fun s p q r hp hr hq hkind habort => tileFaultReport_aborts hp hr hq hkind habort,
    fun s p hp h => (if_pos hp).trans (congrArg Host.Outcome.next (tileReport_none h)),
    fun s module q hm hq => ⟨orphanNotice_running hm hq, fun hnone => ?noPavilions, orphanNotice_held hm hq⟩⟩
  case noPavilions =>
    have heq : orphanNotice s module q = s.raise RG_STATUS_ORPHAN_SEEN := by
      refine if_neg ?_
      simp [pvExists, State.pv, hnone]
      rfl
    exact ⟨_, (if_pos ⟨hm, hq⟩).trans (congrArg Host.Outcome.next heq), orphanNotice_seen s, rfl, rfl⟩

end Sys2Proof.Machine
end
